-- ==== Sys2Proof/Word.lean ====
section
/-! DEFINITION. Word and register-number types of the PN-8 (R8, R10, R41, R65). -/

namespace Sys2Proof

/-- A 32-bit code word (R61). -/
abbrev Word := BitVec 32
/-- A 64-bit slot word, x register or accumulator element (R41, R66). -/
abbrev DWord := BitVec 64
abbrev Byte := BitVec 8
/-- The value of a vector register (R41). -/
abbrev Vec := BitVec 1024
/-- The value of a predicate register (R41). -/
abbrev Pred := BitVec 128
/-- The 256 bits of a handle register (R48). -/
abbrev Cap := BitVec 256

abbrev XReg := BitVec 5
abbrev VReg := BitVec 6
abbrev PReg := BitVec 4
abbrev MReg := BitVec 4
abbrev OSlot := BitVec 5
abbrev HReg := BitVec 4

/-- Bit `n` of a word as a proposition-free test. -/
abbrev bit {w : Nat} (x : BitVec w) (n : Nat) : Bool := x.getLsbD n

end Sys2Proof
end

