-- ==== Sys2Proof/Syntax.lean ====
section
/-! DEFINITION. The instruction and event syntax: one constructor of `Instr` per row of spec/opcode_table.json.
Slot operations carry the fields of their format (R73 to R78); events carry the agent they happen at. -/

namespace Sys2Proof

/-- Element and format codes of R72. -/
inductive Fmt where
  | f64 | f32 | bf16 | f16 | i64 | i32 | i16 | i8 | i4 | l6
  deriving DecidableEq, Repr

/-- The scopes of R27, with the codes of R75. -/
inductive Scope where
  | core | cluster | die | package | domain
  deriving DecidableEq, Repr

/-- The ordering codes of R75. -/
inductive Ord where
  | relaxed | acquire | release | acqRel
  deriving DecidableEq, Repr

/-- The accumulator modes of FMT.ACC (R51); 0b11 is refused. -/
inductive Acc where
  | f64 | w56 | x56
  deriving DecidableEq, Repr

/-- The rounding modes of FMT.RM (R95). -/
inductive Rm where
  | rne | rtz | rup | rdn
  deriving DecidableEq, Repr

/-- The slots of a bundle in the code order of R51 (TSLOT.SLOT). -/
inductive Slot where
  | b | s | va | vb | m | ca | cb | x
  deriving DecidableEq, Repr

/-- The kinds a tile register can have (R44). -/
inductive TileKind where
  | empty | dense | lowRank | complex64 | complex128
  deriving DecidableEq, Repr

/-! ### Operand formats -/

/-- B slot, format BR. -/
structure BrF where
  rs1 : XReg
  rs2 : XReg
  off : BitVec 16
  deriving DecidableEq, Repr

/-- B slot, format BP. -/
structure BpF where
  p : PReg
  off : BitVec 16
  deriving DecidableEq, Repr

/-- B slot, format BJ of CALL. -/
structure BjF where
  rd : XReg
  off : BitVec 21
  deriving DecidableEq, Repr

/-- B slot, format BL. -/
structure BlF where
  rs1 : XReg
  stg : BitVec 3
  len : BitVec 10
  maxe : BitVec 4
  maxm : BitVec 4
  deriving DecidableEq, Repr

/-- B slot, format BW. -/
structure BwF where
  st : BitVec 7
  cp : BitVec 6
  tl : BitVec 5
  wl : BitVec 6
  deriving DecidableEq, Repr

/-- S slot, R-type. -/
structure RF where
  rd : XReg
  rs1 : XReg
  rs2 : XReg
  deriving DecidableEq, Repr

/-- S slot, I-type (also loads). -/
structure IF where
  rd : XReg
  rs1 : XReg
  imm : BitVec 12
  deriving DecidableEq, Repr

/-- S slot, 64-bit shift by immediate. -/
structure ShF where
  rd : XReg
  rs1 : XReg
  sh : BitVec 6
  deriving DecidableEq, Repr

/-- S slot, 32-bit shift by immediate. -/
structure ShwF where
  rd : XReg
  rs1 : XReg
  sh : BitVec 5
  deriving DecidableEq, Repr

/-- S slot, U-type. -/
structure UF where
  rd : XReg
  imm : BitVec 20
  deriving DecidableEq, Repr

/-- S slot, S-type stores. -/
structure StF where
  rs1 : XReg
  rs2 : XReg
  imm : BitVec 12
  deriving DecidableEq, Repr

/-- S slot, FENCE; every field is ignored (R115). -/
structure FenceF where
  fm : BitVec 4
  pred : BitVec 4
  succ : BitVec 4
  rs1 : XReg
  rd : XReg
  deriving DecidableEq, Repr

/-- S slot, Zicsr register forms. -/
structure CsrF where
  rd : XReg
  rs1 : XReg
  csr : BitVec 12
  deriving DecidableEq, Repr

/-- S slot, Zicsr immediate forms. -/
structure CsriF where
  rd : XReg
  uimm : BitVec 5
  csr : BitVec 12
  deriving DecidableEq, Repr

/-- VA, VB: format VR with two vector sources. -/
structure VrF where
  vd : VReg
  vs1 : VReg
  vs2 : VReg
  et : Fmt
  pg : PReg
  deriving DecidableEq, Repr

/-- VA, VB: format VR with one vector source. -/
structure VuF where
  vd : VReg
  vs1 : VReg
  et : Fmt
  pg : PReg
  deriving DecidableEq, Repr

/-- VA, VB: format VR with no source (VIOTA). -/
structure VdF where
  vd : VReg
  et : Fmt
  pg : PReg
  deriving DecidableEq, Repr

/-- VA, VB: format VI. -/
structure ViF where
  vd : VReg
  imm : BitVec 12
  et : Fmt
  pg : PReg
  deriving DecidableEq, Repr

/-- VA, VB: format VX of VBCAST and VMOVX. -/
structure VxF where
  vd : VReg
  x : XReg
  et : Fmt
  pg : PReg
  deriving DecidableEq, Repr

/-- VA, VB: format VX of VPCNT and VPFIRST. -/
structure VpxF where
  ps : PReg
  x : XReg
  et : Fmt
  pg : PReg
  deriving DecidableEq, Repr

/-- VA, VB: compares. -/
structure VcF where
  pd : PReg
  vs1 : VReg
  vs2 : VReg
  et : Fmt
  pg : PReg
  deriving DecidableEq, Repr

/-- VA, VB: predicate operations with two sources. -/
structure VpF where
  pd : PReg
  ps1 : PReg
  ps2 : PReg
  et : Fmt
  pg : PReg
  deriving DecidableEq, Repr

/-- VA, VB: VPNOT. -/
structure VpnF where
  pd : PReg
  ps1 : PReg
  et : Fmt
  pg : PReg
  deriving DecidableEq, Repr

/-- VA, VB: VPSET. -/
structure VpsF where
  pd : PReg
  et : Fmt
  pg : PReg
  deriving DecidableEq, Repr

/-- VA, VB: slides, amount in VS2. -/
structure VslF where
  vd : VReg
  vs1 : VReg
  amt : BitVec 6
  et : Fmt
  pg : PReg
  deriving DecidableEq, Repr

/-- VA, VB: VBITONIC, B and D in VS2. -/
structure VbtF where
  vd : VReg
  vs1 : VReg
  b : BitVec 3
  d : BitVec 3
  et : Fmt
  pg : PReg
  deriving DecidableEq, Repr

/-- VA, VB: the L6 operations (ET must be 0b000). -/
structure VlF where
  vd : VReg
  vs1 : VReg
  vs2 : VReg
  pg : PReg
  deriving DecidableEq, Repr

/-- VA, VB: format VM with a vector operand; `imm` is ARR when `l` is set, else IMM9. For VGATHER `xi` names
the index vector. -/
structure VmF where
  vt : VReg
  h : HReg
  xi : XReg
  l : Bool
  imm : BitVec 9
  deriving DecidableEq, Repr

/-- VA, VB: format VM with a vector operand, L = 0 (VST). -/
structure VstF where
  vt : VReg
  h : HReg
  xi : XReg
  imm : BitVec 9
  deriving DecidableEq, Repr

/-- VA, VB: VSTM and VSCATTER. -/
structure VsmF where
  vt : VReg
  h : HReg
  xi : XReg
  pg : PReg
  deriving DecidableEq, Repr

/-- VA, VB: LD. -/
structure LdF where
  xt : XReg
  h : HReg
  xi : XReg
  l : Bool
  imm : BitVec 9
  deriving DecidableEq, Repr

/-- VA, VB: ST and ST.SC (L = 0), and LD.SC where `imm` is ARR. -/
structure LsF where
  xt : XReg
  h : HReg
  xi : XReg
  imm : BitVec 9
  deriving DecidableEq, Repr

/-- VA, VB: VPREF. -/
structure VprefF where
  h : HReg
  xi : XReg
  imm : BitVec 9
  deriving DecidableEq, Repr

/-- VA, VB: format VT of the scalar atomics. -/
structure AmoF where
  xd : XReg
  xs : XReg
  h : HReg
  xi : XReg
  scope : Scope
  ord : Ord
  deriving DecidableEq, Repr

/-- VA, VB: AMO.SC. -/
structure AmoScF where
  xd : XReg
  xs : XReg
  h : HReg
  xi : XReg
  deriving DecidableEq, Repr

/-- VA, VB: LDA (`x` is XD), STL and CFLUSH (`x` is XS). -/
structure VtxF where
  x : XReg
  h : HReg
  xi : XReg
  scope : Scope
  deriving DecidableEq, Repr

/-- VA, VB: VFENCE. -/
structure VfenceF where
  scope : Scope
  ord : Ord
  deriving DecidableEq, Repr

/-- VA, VB: format VV; `vi` is the index vector, or the x register of VREDST. -/
structure VvF where
  vt : VReg
  h : HReg
  vi : XReg
  scope : Scope
  ord : Ord
  pg : PReg
  deriving DecidableEq, Repr

/-- VA, VB: CLDH and CSTH. -/
structure CmF where
  ha : HReg
  hb : HReg
  xa : XReg
  imm : BitVec 7
  deriving DecidableEq, Repr

/-- VA, VB: CNARROW. -/
structure CnF where
  ha : HReg
  hb : HReg
  xa : XReg
  xb : XReg
  perm : BitVec 7
  deriving DecidableEq, Repr

/-- VA, VB: CGET. -/
structure CgF where
  hb : HReg
  xa : XReg
  sel : BitVec 7
  deriving DecidableEq, Repr

/-- VA, VB: CMOV. -/
structure CvF where
  ha : HReg
  hb : HReg
  deriving DecidableEq, Repr

/-- VA, VB: BINIT. -/
structure BinitF where
  hb : HReg
  xa : XReg
  xb : XReg
  u : Bool
  deriving DecidableEq, Repr

/-- VA, VB: BLINK. -/
structure BlinkF where
  ha : HReg
  hb : HReg
  xa : XReg
  xb : XReg
  deriving DecidableEq, Repr

/-- VA, VB: BARRIVE and BWAITP. -/
structure BarF where
  hb : HReg
  xa : XReg
  xb : XReg
  scope : Scope
  deriving DecidableEq, Repr

/-- M slot, format MA. -/
structure MaF where
  md : MReg
  osa : OSlot
  osb : OSlot
  lra : Bool
  lrb : Bool
  sta : BitVec 2
  stb : BitVec 2
  std : BitVec 2
  za : Bool
  deriving DecidableEq, Repr

/-- M slot, OLOAD. -/
structure OloadF where
  os : OSlot
  v : VReg
  row : BitVec 6
  rstep : BitVec 6
  deriving DecidableEq, Repr

/-- M slot, MRD and MWR. -/
structure MrwF where
  md : MReg
  v : VReg
  row : BitVec 6
  rstep : BitVec 6
  deriving DecidableEq, Repr

/-- M slot, format MW. -/
structure MwF where
  os : OSlot
  h : HReg
  xi : XReg
  arr : BitVec 9
  step : BitVec 16
  ostep : BitVec 5
  deriving DecidableEq, Repr

/-- M slot, MZERO. -/
structure MzF where
  md : MReg
  kind : TileKind
  deriving DecidableEq, Repr

/-- M slot, one tile source. -/
structure M1F where
  md : MReg
  ms1 : MReg
  deriving DecidableEq, Repr

/-- M slot, two tile sources. -/
structure M2F where
  md : MReg
  ms1 : MReg
  ms2 : MReg
  deriving DecidableEq, Repr

/-- M slot, MLRSET. -/
structure MlrsetF where
  md : MReg
  os : OSlot
  xs : XReg
  deriving DecidableEq, Repr

/-- M slot, MRANK. -/
structure MrankF where
  ms1 : MReg
  xs : XReg
  deriving DecidableEq, Repr

/-- M slot, MBFLY and MTWMUL. -/
structure MbF where
  md : MReg
  ms1 : MReg
  xs : XReg
  deriving DecidableEq, Repr

/-- M slot, MBREV. -/
structure MbrevF where
  md : MReg
  ms1 : MReg
  os : OSlot
  deriving DecidableEq, Repr

/-- CA, CB: format CJ. -/
structure CjF where
  h : HReg
  xi : XReg
  off : BitVec 16
  step : BitVec 16
  xd : XReg
  deriving DecidableEq, Repr

/-- CA, CB: CJOBV. -/
structure CjvF where
  vs : VReg
  xd : XReg
  deriving DecidableEq, Repr

/-- CA, CB: CQUERY. -/
structure CqF where
  xa : XReg
  xd : XReg
  deriving DecidableEq, Repr

/-- CA, CB: CSIGNAL. -/
structure CsF where
  h : HReg
  xa : XReg
  xb : XReg
  xd : XReg
  deriving DecidableEq, Repr

/-- X slot, XEXP. -/
structure XexpF where
  vd : VReg
  vs : VReg
  dt : Fmt
  deriving DecidableEq, Repr

/-- X slot, unpack and pack. -/
structure XuF where
  vd : VReg
  vs : VReg
  deriving DecidableEq, Repr

/-- X slot, XTR; `r` is ST[0]. -/
structure XtrF where
  vd : VReg
  vs : VReg
  r : Bool
  deriving DecidableEq, Repr

/-- X slot, XCVT. -/
structure XcvtF where
  vd : VReg
  vs : VReg
  dt : Fmt
  st : Fmt
  deriving DecidableEq, Repr

/-! ### Operands of the events -/

/-- What the memory system finds after issue (R423), beside the denials that each access finds itself. -/
inductive MemCond where
  | ecc | mac | decode | poisoned
  deriving DecidableEq, Repr

/-- Where a condition of R423 is found on a leg of R425: a granule of memory (by the flat key of its first byte), a line that a cluster's
slice or a core's L1 holds (by the key of a byte), or the flit that filled a slice's line; the slot of a weight block (die, bank, block);
the transfer that serves a landing entry of a core, one doubleword of it, or of the entry's own buffer; the transfer of the block that a
weight fill takes next, or of the row that a job makes next; the flits of a store's next unit, of an atomic's request or answer, and of a
line of a segment copy in flight (by its arena address); a row of operand memory; a register, by number or, for a vector register, by
physical number and doubleword; a tile of the pool. -/
inductive FaultSite where
  | granule (key : Nat)
  | line (cluster key : Nat)
  | l1 (core key : Nat)
  | weight (die bank block : Nat)
  | lineFlit (cluster key : Nat)
  | landing (core entry : Nat)
  | flit (core entry dw : Nat)
  | buffer (core entry dw : Nat)
  | fillFlit (core : Nat) (os : OSlot)
  | jobFlit (job : Nat)
  | storeFlit (core acc : Nat)
  | atomicFlit (core acc : Nat)
  | segFlit (core line : Nat)
  | slotRow (core : Nat) (os : OSlot) (row : BitVec 6)
  | xReg (core : Nat) (r : XReg)
  | hReg (core : Nat) (r : HReg)
  | vReg (core : Nat) (phys : BitVec 6) (dw : BitVec 4)
  | pReg (core : Nat) (p : PReg)
  | tile (core : Nat) (m : MReg)
  deriving DecidableEq, Repr

/-- An error reaching a machine-check bank (R441 to R443). -/
structure McErr where
  sev : BitVec 2
  cause : BitVec 8
  unit : BitVec 8
  loc : BitVec 20
  akind : BitVec 4
  addr : BitVec 48
  misc : Option (BitVec 64)
  synd : Option (BitVec 64)
  pmark : Bool
  deriving DecidableEq, Repr

/-- A host access through a base address register (R372, R373). -/
structure BarAccess where
  /-- true for BAR2 (GLOB), false for BAR0 (control windows). -/
  glob : Bool
  off : Nat
  /-- Access size in bytes. -/
  size : Nat
  write : Bool
  /-- The bytes written, the first lowest. -/
  data : Nat
  deriving DecidableEq, Repr

/-- A resource that has an owner entry in a Wicket (R344), by its number in the package. -/
inductive Resource where
  | core (n : Nat)
  | cluster (n : Nat)
  | page (n : Nat)
  deriving DecidableEq, Repr

/-- A Uberakel image, by the SHA3-512 digest of its bytes, with the ML-DSA-87 signature that comes with it (R379). -/
structure Image where
  digest : BitVec 512
  signature : List (BitVec 8)
  deriving DecidableEq, Repr

/-- The two buses of the management endpoint (R382). -/
inductive MgmtBus where
  | smbus | i3c
  deriving DecidableEq, Repr

/-- What carries an SPDM message: DOE of the host port, or a management bus (R359, R382). -/
inductive Carrier where
  | doe
  | bus (b : MgmtBus)
  deriving DecidableEq, Repr

/-- An IDE stream that IDE_KM keys: the link stream or a selective one, by its key slot (R350, R372). -/
structure IdeStream where
  link : Bool
  slot : Nat
  deriving DecidableEq, Repr

/-- The package with which Uberakel exchanges a key, and the bus that carries the exchange (R350, R382). -/
structure PeerExchange where
  bus : MgmtBus
  peer : BitVec 10
  deriving DecidableEq, Repr

/-- How the host link trains (R372). -/
inductive HostMode where
  | pcie | cxl
  deriving DecidableEq, Repr

/-- Lanes of the trained host link (R372). -/
inductive HostWidth where
  | x16 | x8 | x4
  deriving DecidableEq, Repr

/-- The opcode table, one constructor a row. -/
inductive Instr where
  -- B slot (R118)
  | beq (f : BrF)
  | bne (f : BrF)
  | blt (f : BrF)
  | bge (f : BrF)
  | bltu (f : BrF)
  | bgeu (f : BrF)
  | bpt (f : BpF)
  | bpf (f : BpF)
  | jmp (off : BitVec 21)
  | call (f : BjF)
  | ret (rs1 : XReg)
  | loop (f : BlF)
  | loopW (f : BlF)
  | loopSp (f : BlF)
  | lend (rs1 : XReg)
  | lbrk (rs1 : XReg)
  | wait (f : BwF)
  | setfmt (acc : Acc) (rm : Rm)
  | litset (rs1 : XReg)
  | sstep
  | iinv (rs1 : XReg)
  | yield
  | halt
  | trap (code : BitVec 8)
  | tret
  -- S slot (R110)
  | lui (f : UF)
  | auipc (f : UF)
  | addi (f : IF)
  | slti (f : IF)
  | sltiu (f : IF)
  | xori (f : IF)
  | ori (f : IF)
  | andi (f : IF)
  | slli (f : ShF)
  | srli (f : ShF)
  | srai (f : ShF)
  | add (f : RF)
  | sub (f : RF)
  | sll (f : RF)
  | slt (f : RF)
  | sltu (f : RF)
  | xor (f : RF)
  | srl (f : RF)
  | sra (f : RF)
  | or (f : RF)
  | and (f : RF)
  | addiw (f : IF)
  | slliw (f : ShwF)
  | srliw (f : ShwF)
  | sraiw (f : ShwF)
  | addw (f : RF)
  | subw (f : RF)
  | sllw (f : RF)
  | srlw (f : RF)
  | sraw (f : RF)
  | lb (f : IF)
  | lh (f : IF)
  | lw (f : IF)
  | sld (f : IF)
  | lbu (f : IF)
  | lhu (f : IF)
  | lwu (f : IF)
  | sb (f : StF)
  | sh (f : StF)
  | sw (f : StF)
  | sd (f : StF)
  | fence (f : FenceF)
  | ecall
  | ebreak
  | mul (f : RF)
  | mulh (f : RF)
  | mulhsu (f : RF)
  | mulhu (f : RF)
  | div (f : RF)
  | divu (f : RF)
  | rem (f : RF)
  | remu (f : RF)
  | mulw (f : RF)
  | divw (f : RF)
  | divuw (f : RF)
  | remw (f : RF)
  | remuw (f : RF)
  | csrrw (f : CsrF)
  | csrrs (f : CsrF)
  | csrrc (f : CsrF)
  | csrrwi (f : CsriF)
  | csrrsi (f : CsriF)
  | csrrci (f : CsriF)
  -- sticky slots
  | idle (slot : Slot)
  -- VA and VB slots: arithmetic, compare, predicate, permute, reduction, L6, random (R144)
  | vadd (f : VrF)
  | vsub (f : VrF)
  | vmul (f : VrF)
  | vdiv (f : VrF)
  | vmin (f : VrF)
  | vmax (f : VrF)
  | vabs (f : VuF)
  | vneg (f : VuF)
  | vfma (f : VrF)
  | vfms (f : VrF)
  | vsqrt (f : VuF)
  | vrcp (f : VuF)
  | vrsqrt (f : VuF)
  | vexp2 (f : VuF)
  | vlog2 (f : VuF)
  | vand (f : VrF)
  | vor (f : VrF)
  | vxor (f : VrF)
  | vnot (f : VuF)
  | vshl (f : VrF)
  | vshr (f : VrF)
  | vsra (f : VrF)
  | vadds (f : VrF)
  | vsubs (f : VrF)
  | vmulh (f : VrF)
  | vbcast (f : VxF)
  | vmovx (f : VxF)
  | vmov (f : VuF)
  | viota (f : VdF)
  | vli (f : ViF)
  | vcmpEq (f : VcF)
  | vcmpNe (f : VcF)
  | vcmpLt (f : VcF)
  | vcmpLe (f : VcF)
  | vcmpUn (f : VcF)
  | vcmpLtu (f : VcF)
  | vcmpLeu (f : VcF)
  | vpand (f : VpF)
  | vpor (f : VpF)
  | vpxor (f : VpF)
  | vpnot (f : VpnF)
  | vpset (f : VpsF)
  | vpcnt (f : VpxF)
  | vpfirst (f : VpxF)
  | vsel (f : VrF)
  | vperm (f : VrF)
  | vslideup (f : VslF)
  | vslidedn (f : VslF)
  | vzip (f : VrF)
  | vunzip (f : VrF)
  | vcompress (f : VuF)
  | vexpand (f : VuF)
  | vredsum (f : VuF)
  | vredmax (f : VuF)
  | vredmin (f : VuF)
  | vscansum (f : VuF)
  | vscanmax (f : VuF)
  | vargmax (f : VuF)
  | vbitonic (f : VbtF)
  | vmulL6 (f : VlF)
  | vdotL6 (f : VlF)
  | vrand (f : VrF)
  -- VA and VB slots: memory, atomics, capabilities, barriers (R168, R173, R177, R182, R281)
  | vld (f : VmF)
  | vst (f : VstF)
  | vstm (f : VsmF)
  | vgather (f : VmF)
  | vscatter (f : VsmF)
  | ld (f : LdF)
  | st (f : LsF)
  | ldSc (f : LsF)
  | stSc (f : LsF)
  | vpref (f : VprefF)
  | amoadd (f : AmoF)
  | amomin (f : AmoF)
  | amomax (f : AmoF)
  | amominu (f : AmoF)
  | amomaxu (f : AmoF)
  | amoand (f : AmoF)
  | amoor (f : AmoF)
  | amoxor (f : AmoF)
  | amoswap (f : AmoF)
  | amocas (f : AmoF)
  | amoSc (f : AmoScF)
  | lda (f : VtxF)
  | stl (f : VtxF)
  | vfence (f : VfenceF)
  | cflush (f : VtxF)
  | vamoadd (f : VvF)
  | vamomin (f : VvF)
  | vamomax (f : VvF)
  | vredst (f : VvF)
  | cldh (f : CmF)
  | csth (f : CmF)
  | cnarrow (f : CnF)
  | cget (f : CgF)
  | cmov (f : CvF)
  | cclr (ha : HReg)
  | binit (f : BinitF)
  | blink (f : BlinkF)
  | barrive (f : BarF)
  | bwaitp (f : BarF)
  -- M slot (R188, R195, R202, R208)
  | oclaim (os : OSlot)
  | orelease (os : OSlot)
  | oload (f : OloadF)
  | wload (f : MwF)
  | mzero (f : MzF)
  | mmov (f : M1F)
  | mrd (f : MrwF)
  | mwr (f : MrwF)
  | mmaF64 (f : MaF)
  | mmaF32 (f : MaF)
  | mmaBf16 (f : MaF)
  | mmaF16 (f : MaF)
  | mmaI8 (f : MaF)
  | mmaI4 (f : MaF)
  | mmaL6 (f : MaF)
  | mmaS24 (f : MaF)
  | mmaS14 (f : MaF)
  | mlrset (f : MlrsetF)
  | mlrmul (f : M2F)
  | mlrdm (f : M2F)
  | mdmlr (f : M2F)
  | mlradd (f : M2F)
  | mrecomp (f : M1F)
  | mdense (f : M1F)
  | mrank (f : MrankF)
  | mbflyC64 (f : MbF)
  | mbflyC128 (f : MbF)
  | mbrev (f : MbrevF)
  | mtwmulC64 (f : MbF)
  | mtwmulC128 (f : MbF)
  -- CA and CB slots (R239)
  | cjob (f : CjF)
  | cjobv (f : CjvF)
  | cwpe (f : CjF)
  | cquery (f : CqF)
  | ccancel (xa : XReg)
  | csignal (f : CsF)
  | cfence
  -- X slot (R231)
  | xexpS24 (f : XexpF)
  | xexpS14 (f : XexpF)
  | xunpkL6 (f : XuF)
  | xunpkI4 (f : XuF)
  | xpackL6 (f : XuF)
  | xpackI4 (f : XuF)
  | xtr (f : XtrF)
  | xcvt (f : XcvtF)
  | xscale (xs : XReg)
  | xscalei (imm : BitVec 11)
  -- events of the device: they have no encoding; each is carried out when its agent moves
  | fmtShadowExpiry (n : Nat)
  | superstepRelease (lid : Nat)
  | taskEnd (n : Nat)
  | tretResume (n : Nat)
  | repeatIssue (n : Nat)
  | segmentMark (n : Nat)
  | overlaySegmentLanded (n : Nat)
  | scWheelIssue (n : Nat)
  | barrierAnswer (n : Nat)
  | barrierArrivalReceived (k : Nat)
  | barrierFlipReceived (k : Nat)
  | wloadBlockArrival (n : Nat) (os : OSlot)
  | wloadFillExpiry (n : Nat) (os : OSlot)
  | engineOpStart (n : Nat)
  | portBlock (n : Nat)
  | engineRetire (n : Nat)
  | jobStart (j : Nat)
  | copyRow (j : Nat)
  | jobComplete (j : Nat)
  | wpeBuildStart (j : Nat)
  | wpePulseIteration (j : Nat) (ok : BitVec 5)
  | wpeSlotRelease (bank : Nat) (slot : Nat)
  | xscaleExecute (n : Nat)
  | resultWriteback (n : Nat)
  | landingCountExpiry (n : Nat)
  | landingDataArrival (n : Nat) (k : Nat) (verdict : Bool)
  | storeAck (n : Nat) (id : Nat)
  | homeAtomicExecute (n : Nat) (id : Nat)
  | stampedMessageDelivery (k : Nat)
  | directoryInvalidate (clu : Nat) (line : Nat)
  | memoryFaultFound (site : FaultSite) (cond : MemCond)
  | trapEntry (n : Nat)
  | preempt (n : Nat)
  | saveComplete (n : Nat)
  | taskRestore (uid : Nat) (n : Nat)
  | scheduleReadyTask (die : Nat)
  | queueSignal (q : Nat)
  | queueRemap (die : Nat)
  | queueIdleTimeout (q : Nat)
  | queueRestart (q : Nat)
  | packetDispatch (die : Nat)
  | launch (pid : Nat)
  | copy (pid : Nat)
  | barrier (pid : Nat)
  | node (pid : Nat)
  | selftest (pid : Nat)
  | fencePacket (pid : Nat)
  | packetComplete (pid : Nat)
  | indexClaim (die : Nat) (pid : Nat)
  | gangStart (pid : Nat) (level : Nat) (group : Nat)
  | indexReturnTimeout (die : Nat) (pid : Nat)
  | launchComplete (pid : Nat)
  | selftestComplete (n : Nat) (fail : BitVec 9)
  | waySurrender (clu : Nat)
  | wayReturn (clu : Nat)
  | waypWrite (clu : Nat) (v : DWord)
  | wrgnWrite (die : Nat) (r : Nat) (hi : Bool) (v : DWord)
  | regionSealComplete (die : Nat) (r : Nat)
  | qdbaseWrite (die : Nat) (v : DWord)
  | qsigbaseWrite (die : Nat) (v : DWord)
  | fabidWrite (v : DWord)
  | fportEnWrite (die : Nat) (p : Nat) (v : DWord)
  | fabricLinkUp (die : Nat) (p : Nat) (peer : BitVec 10) (comp : Bool)
  | fabricTagFailure (die : Nat) (p : Nat)
  | streamRekey (die : Nat) (p : Nat)
  | pcapWrite (v : DWord)
  | pcapWindow (pwr : BitVec 16) (amps : BitVec 16)
  | vcoreOvercurrent (amps : Nat)
  | mcErrorRecord (die : Nat) (bank : Nat) (e : McErr)
  | threshWindowEnd (die : Nat) (bank : Nat)
  | mcStatusClear (die : Nat) (bank : Nat) (v : DWord)
  | datapathCheckFail (n : Nat) (slot : Slot) (synd : DWord)
  | coreFence (n : Nat)
  | coreReturnToService (n : Nat)
  | lockstepMismatch (die : Nat) (pcs : DWord)
  | lockstepReplayComplete (die : Nat)
  | dieLost (die : Nat)
  | packageLost (pkg : Nat)
  | ownerEntryEffect (k : Nat)
  | hostBarAccess (a : BarAccess)
  | controlRegisterWrite (die : Nat) (off : Nat) (v : DWord)
  | getVersion
  | getCapabilities
  | negotiateAlgorithms
  | getDigests
  | getCertificate
  | challenge (nonce : BitVec 256)
  | getMeasurements (index : Nat)
  | keyExchange
  | finish
  | keyUpdate
  | endSession
  | ideKm (stream : IdeStream) (owner : BitVec 16)
  | create
  | assign (ctx : BitVec 16) (what : List Resource)
  | saveArea (ctx : BitVec 16) (cap : Cap) (spadlen : Nat)
  | report (ctx : BitVec 16) (nonce : BitVec 256)
  | teardown (ctx : BitVec 16)
  | resume (ctx : BitVec 16)
  | mctpControl (bus : MgmtBus)
  | pldmMonitoring (bus : MgmtBus)
  | imageTransfer (bus : MgmtBus) (image : Image)
  | capRead (bus : MgmtBus)
  | capWrite (bus : MgmtBus) (v : BitVec 16)
  | fabricKeyExchange (x : PeerExchange)
  | linkReset
  | warmReset
  | coldReset
  | hostLinkUp
  | powerLoss (writing : Bool)
  | louverResourceDone (die : Nat)
  | regionRehashComplete (die : Nat)
  deriving DecidableEq, Repr

end Sys2Proof
end

