-- ==== Sys2Proof/WellFormed.lean ====
section
/-! DEFINITION. Which slot words the operation chapters admit beyond the widths of their fields (R144, R145, R405):
the conditions of check 3 of R67 on a word whose must-be-zero fields are zero. -/

namespace Sys2Proof

/-- The floating-point element types of R72. -/
def Fmt.isFloat : Fmt → Bool
  | .f64 | .f32 | .bf16 | .f16 => true
  | _ => false

/-- The integer element types that ET can name (R139). -/
def Fmt.isInt : Fmt → Bool
  | .i64 | .i32 | .i16 | .i8 => true
  | _ => false

/-- The types that a three-bit ET field can name (R139). -/
def Fmt.isVec (f : Fmt) : Bool := f.isFloat || f.isInt

/-- Types of VEXP2 and VLOG2 (R144). -/
def Fmt.isExp : Fmt → Bool
  | .f32 | .bf16 | .f16 => true
  | _ => false

/-- Types of VRAND (R144). -/
def Fmt.isRand : Fmt → Bool
  | .f64 | .f32 | .i64 | .i32 => true
  | _ => false

/-- Types of the transform slot's DT and ST (R231). -/
def Fmt.isXf (f : Fmt) : Bool := f.isVec || f == .l6

/-- log2 of the element count of a type (R139). -/
def Fmt.log2n : Fmt → Nat
  | .f64 | .i64 => 4
  | .f32 | .i32 => 5
  | .bf16 | .f16 | .i16 => 6
  | _ => 7

/-- The CSR numbers of R50 in 0x800 to 0x8FF. -/
def csrRwList : List Nat :=
  [0x800, 0x801, 0x802, 0x803, 0x804, 0x805, 0x806, 0x808, 0x809, 0x80A, 0x80B, 0x810, 0x818, 0x819, 0x81A, 0x81B,
    0x81C, 0x81D, 0x81E]

/-- The CSR numbers of R50 in 0xCC0 to 0xCFF. -/
def csrRoList : List Nat := [0xCC0, 0xCC1, 0xCC2, 0xCC3, 0xCC4, 0xCC5, 0xCC6]

/-- R50, R117: the number is listed, and a read-only number is not written. -/
def csrLegal (csr : BitVec 12) (writes : Bool) : Bool :=
  csrRwList.contains csr.toNat || (csrRoList.contains csr.toNat && !writes)

namespace Instr

/-- A slot word that check 3 of R67 admits. Events have no word and are never well-formed. -/
def wf : Instr → Bool
  -- B slot
  | .beq _ | .bne _ | .blt _ | .bge _ | .bltu _ | .bgeu _ | .bpt _ | .bpf _ | .jmp _ | .call _ | .ret _ => true
  | .loop f | .loopW f => f.len != 0 && f.stg == 0
  | .loopSp f => f.len != 0
  | .lend _ | .lbrk _ | .wait _ | .setfmt _ _ | .litset _ | .sstep | .iinv _ | .yield | .halt | .trap _ | .tret => true
  -- S slot
  | .csrrw f => csrLegal f.csr true
  | .csrrs f | .csrrc f => csrLegal f.csr (f.rs1 != 0)
  | .csrrwi f => csrLegal f.csr true
  | .csrrsi f | .csrrci f => csrLegal f.csr (f.uimm != 0)
  | .lui _ | .auipc _ | .addi _ | .slti _ | .sltiu _ | .xori _ | .ori _ | .andi _ | .slli _ | .srli _ | .srai _
  | .add _ | .sub _ | .sll _ | .slt _ | .sltu _ | .xor _ | .srl _ | .sra _ | .or _ | .and _ | .addiw _ | .slliw _
  | .srliw _ | .sraiw _ | .addw _ | .subw _ | .sllw _ | .srlw _ | .sraw _ | .lb _ | .lh _ | .lw _ | .sld _ | .lbu _
  | .lhu _ | .lwu _ | .sb _ | .sh _ | .sw _ | .sd _ | .fence _ | .ecall | .ebreak | .mul _ | .mulh _ | .mulhsu _
  | .mulhu _ | .div _ | .divu _ | .rem _ | .remu _ | .mulw _ | .divw _ | .divuw _ | .remw _ | .remuw _ => true
  -- IDLE stands in a sticky slot
  | .idle sl => sl != .b && sl != .s
  -- VA, VB arithmetic
  | .vadd f | .vsub f | .vmul f | .vmin f | .vmax f | .vand f | .vor f | .vxor f | .vsel f | .vperm f | .vzip f
  | .vunzip f => f.et.isVec
  | .vdiv f | .vfma f | .vfms f => f.et.isFloat
  | .vshl f | .vshr f | .vsra f | .vadds f | .vsubs f | .vmulh f => f.et.isInt
  | .vrand f => f.et.isRand
  | .vabs f | .vneg f | .vnot f | .vmov f | .vcompress f | .vexpand f | .vredsum f | .vredmax f | .vredmin f
  | .vscansum f | .vscanmax f | .vargmax f => f.et.isVec
  | .vsqrt f | .vrcp f | .vrsqrt f => f.et.isFloat
  | .vexp2 f | .vlog2 f => f.et.isExp
  | .vbcast f | .vmovx f => f.et.isVec
  | .viota f => f.et.isVec
  | .vli f => f.et.isVec
  | .vcmpEq f | .vcmpNe f | .vcmpLt f | .vcmpLe f => f.et.isVec
  | .vcmpUn f => f.et.isFloat
  | .vcmpLtu f | .vcmpLeu f => f.et.isInt
  | .vpand f | .vpor f | .vpxor f => f.et.isVec
  | .vpnot f => f.et.isVec
  | .vpset f => f.et.isVec
  | .vpcnt f | .vpfirst f => f.et.isVec
  | .vslideup f | .vslidedn f => f.et.isVec
  | .vbitonic f => f.et.isVec && decide (f.d.toNat < f.et.log2n) && decide (f.d.toNat < f.b.toNat)
  | .vmulL6 _ | .vdotL6 _ => true
  -- VA, VB memory
  | .vld f | .vgather f => !f.l || f.imm != 0
  | .vst _ | .vstm _ | .vscatter _ => true
  | .ld f => !f.l || f.imm != 0
  | .st _ | .stSc _ => true
  | .ldSc f => f.imm != 0
  | .vpref _ => true
  | .amoadd _ | .amomin _ | .amomax _ | .amominu _ | .amomaxu _ | .amoand _ | .amoor _ | .amoxor _ | .amoswap _
  | .amocas _ | .amoSc _ | .lda _ | .stl _ | .cflush _ => true
  | .vfence f => f.ord != .relaxed
  | .vamoadd _ | .vamomin _ | .vamomax _ | .vredst _ => true
  | .cldh f => f.ha != 0
  | .csth _ => true
  | .cnarrow f => f.ha != 0
  | .cget f => decide (f.sel.toNat ≤ 9)
  | .cmov f => f.ha != 0
  | .cclr ha => ha != 0
  | .binit _ | .blink _ | .barrive _ | .bwaitp _ => true
  -- M slot
  | .wload f => f.arr != 0
  | .oclaim _ | .orelease _ | .oload _ | .mzero _ | .mmov _ | .mrd _ | .mwr _ | .mmaF64 _ | .mmaF32 _ | .mmaBf16 _
  | .mmaF16 _ | .mmaI8 _ | .mmaI4 _ | .mmaL6 _ | .mmaS24 _ | .mmaS14 _ | .mlrset _ | .mlrmul _ | .mlrdm _ | .mdmlr _
  | .mlradd _ | .mrecomp _ | .mdense _ | .mrank _ | .mbflyC64 _ | .mbflyC128 _ | .mbrev _ | .mtwmulC64 _
  | .mtwmulC128 _ => true
  -- CA, CB
  | .cjob _ | .cjobv _ | .cwpe _ | .cquery _ | .ccancel _ | .csignal _ | .cfence => true
  -- X
  | .xexpS24 f | .xexpS14 f => f.dt.isXf
  | .xunpkL6 _ | .xunpkI4 _ | .xpackL6 _ | .xpackI4 _ | .xtr _ | .xscale _ | .xscalei _ => true
  | .xcvt f => f.dt.isXf && f.st.isXf
  -- events
  | _ => false

end Instr

end Sys2Proof
end

