-- ==== Sys2Proof/Decode.lean ====
section
/-! DEFINITION. Decoding of bundle heads and slot words (R65, R66, R73 to R78, R82 to R87, R110, R403 to R405), total on
every word, and after it the encoder written from the same tables. -/

namespace Sys2Proof

/-- Why a word is no instruction of its slot. -/
inductive DecodeError where
  /-- a reserved opcode or a word outside R110 (R87, R403) -/
  | reservedOpcode
  /-- a must-be-zero bit is set, or IDLE with a bit set (R404) -/
  | nonZeroField
  /-- a code of R72 or R75 that names nothing -/
  | reservedCode
  /-- a field value that the operation's chapter refuses (R405) -/
  | refusedField
  /-- HEAD[31] set or a port code 0b111 (R67, check 2) -/
  | illegalHead
  /-- the words end before the bundle does -/
  | truncated
  deriving DecidableEq, Repr

/-! ### Codes of the fields -/

/-- Bits [lo + n - 1 : lo] of a word. -/
abbrev fld {k : Nat} (w : BitVec k) (lo n : Nat) : BitVec n := w.extractLsb' lo n

/-- The format codes of R72. -/
def Fmt.ofCode (c : BitVec 4) : Option Fmt :=
  match c.toNat with
  | 0 => some .f64 | 1 => some .f32 | 2 => some .bf16 | 3 => some .f16 | 4 => some .i64 | 5 => some .i32
  | 6 => some .i16 | 7 => some .i8 | 8 => some .i4 | 9 => some .l6 | _ => none

def Fmt.code : Fmt → BitVec 4
  | .f64 => 0 | .f32 => 1 | .bf16 => 2 | .f16 => 3 | .i64 => 4 | .i32 => 5 | .i16 => 6 | .i8 => 7 | .i4 => 8 | .l6 => 9

/-- The three-bit ET of R139: every code names a type. -/
def Fmt.ofEt (c : BitVec 3) : Fmt :=
  match c.toNat with
  | 0 => .f64 | 1 => .f32 | 2 => .bf16 | 3 => .f16 | 4 => .i64 | 5 => .i32 | 6 => .i16 | _ => .i8

def Fmt.et (f : Fmt) : BitVec 3 := f.code.setWidth 3

def Scope.ofCode (c : BitVec 3) : Option Scope :=
  match c.toNat with
  | 0 => some .core | 1 => some .cluster | 2 => some .die | 3 => some .package | 4 => some .domain | _ => none

def Scope.code : Scope → BitVec 3
  | .core => 0 | .cluster => 1 | .die => 2 | .package => 3 | .domain => 4

def Ord.ofCode (c : BitVec 2) : Ord :=
  match c.toNat with
  | 0 => .relaxed | 1 => .acquire | 2 => .release | _ => .acqRel

def Ord.code : Ord → BitVec 2
  | .relaxed => 0 | .acquire => 1 | .release => 2 | .acqRel => 3

def Acc.ofCode (c : BitVec 2) : Option Acc :=
  match c.toNat with
  | 0 => some .f64 | 1 => some .w56 | 2 => some .x56 | _ => none

def Acc.code : Acc → BitVec 2
  | .f64 => 0 | .w56 => 1 | .x56 => 2

def Rm.ofCode (c : BitVec 2) : Rm :=
  match c.toNat with
  | 0 => .rne | 1 => .rtz | 2 => .rup | _ => .rdn

def Rm.code : Rm → BitVec 2
  | .rne => 0 | .rtz => 1 | .rup => 2 | .rdn => 3

/-- The kind codes of R44. -/
def TileKind.ofCode (c : BitVec 3) : Option TileKind :=
  match c.toNat with
  | 0 => some .empty | 1 => some .dense | 2 => some .lowRank | 3 => some .complex64 | 4 => some .complex128 | _ => none

def TileKind.code : TileKind → BitVec 3
  | .empty => 0 | .dense => 1 | .lowRank => 2 | .complex64 => 3 | .complex128 => 4

/-! ### Decoding -/

/-- `r` when the word's must-be-zero bits are zero. -/
def need (ok : Bool) (r : Except DecodeError Instr) : Except DecodeError Instr :=
  if ok then r else .error .nonZeroField

/-- The last part of check 3 of R67: field values that the operation's chapter refuses. -/
def allow (i : Instr) : Except DecodeError Instr :=
  if i.wf then .ok i else .error .refusedField

/-- Decode a field that not every code of it names. -/
def coded {α : Type} (o : Option α) (k : α → Except DecodeError Instr) : Except DecodeError Instr :=
  match o with
  | some a => k a
  | none => .error .reservedCode

/-- B slot (R73, R82, R118): the operation that the opcode OP[31:26] names, with the word's fields. -/
def decodeBOp (w : Word) (op : Nat) : Except DecodeError Instr :=
  let rs1 : XReg := fld w 21 5
  let off : BitVec 16 := fld w 0 16
  let br : BrF := { rs1 := rs1, rs2 := fld w 16 5, off := off }
  let bp : BpF := { p := fld w 22 4, off := off }
  let bl : BlF := { rs1 := rs1, stg := fld w 18 3, len := fld w 8 10, maxe := fld w 4 4, maxm := fld w 0 4 }
  match op with
  | 1 => allow (.beq br)
  | 2 => allow (.bne br)
  | 3 => allow (.blt br)
  | 4 => allow (.bge br)
  | 5 => allow (.bltu br)
  | 6 => allow (.bgeu br)
  | 7 => need (fld w 16 6 == 0) (allow (.bpt bp))
  | 8 => need (fld w 16 6 == 0) (allow (.bpf bp))
  | 9 => need (rs1 == 0) (allow (.jmp (fld w 0 21)))
  | 10 => allow (Instr.call { rd := rs1, off := fld w 0 21 })
  | 11 => need (fld w 0 21 == 0) (allow (.ret rs1))
  | 12 => need (fld w 18 3 == 0) (allow (.loop bl))
  | 13 => need (fld w 18 3 == 0) (allow (.loopW bl))
  | 14 => allow (.loopSp bl)
  | 15 => need (fld w 0 21 == 0) (allow (.lend rs1))
  | 16 => need (fld w 0 21 == 0) (allow (.lbrk rs1))
  | 17 => need (fld w 0 2 == 0) (allow (.wait { st := fld w 19 7, cp := fld w 13 6, tl := fld w 8 5, wl := fld w 2 6 }))
  | 18 => need (fld w 4 22 == 0) (coded (Acc.ofCode (fld w 2 2)) fun a => allow (.setfmt a (Rm.ofCode (fld w 0 2))))
  | 19 => need (fld w 0 21 == 0) (allow (.litset rs1))
  | 20 => need (fld w 0 26 == 0) (allow .sstep)
  | 21 => need (fld w 0 21 == 0) (allow (.iinv rs1))
  | 22 => need (fld w 0 26 == 0) (allow .yield)
  | 23 => need (fld w 0 26 == 0) (allow .halt)
  | 24 => need (fld w 8 18 == 0) (allow (.trap (fld w 0 8)))
  | 25 => need (fld w 0 26 == 0) (allow .tret)
  | _ => .error .reservedOpcode

/-- B slot. -/
def decodeB (w : Word) : Except DecodeError Instr := decodeBOp w (fld w 26 6).toNat

/-- S slot: RV64IM and Zicsr as R110 to R117 list them. -/
def decodeSOp (w : Word) (op f3 f6 f7 : Nat) : Except DecodeError Instr :=
  let rd : XReg := fld w 7 5
  let rs1 : XReg := fld w 15 5
  let rs2 : XReg := fld w 20 5
  let r : RF := { rd := rd, rs1 := rs1, rs2 := rs2 }
  let i : IF := { rd := rd, rs1 := rs1, imm := fld w 20 12 }
  let u : UF := { rd := rd, imm := fld w 12 20 }
  let st : StF := { rs1 := rs1, rs2 := rs2, imm := fld w 25 7 ++ fld w 7 5 }
  let sh : ShF := { rd := rd, rs1 := rs1, sh := fld w 20 6 }
  let shw : ShwF := { rd := rd, rs1 := rs1, sh := rs2 }
  let csr : CsrF := { rd := rd, rs1 := rs1, csr := fld w 20 12 }
  let csri : CsriF := { rd := rd, uimm := rs1, csr := fld w 20 12 }
  match op with
  | 0x37 => allow (.lui u)
  | 0x17 => allow (.auipc u)
  | 0x13 =>
    match f3, f6 with
    | 0, _ => allow (.addi i)
    | 2, _ => allow (.slti i)
    | 3, _ => allow (.sltiu i)
    | 4, _ => allow (.xori i)
    | 6, _ => allow (.ori i)
    | 7, _ => allow (.andi i)
    | 1, 0 => allow (.slli sh)
    | 5, 0 => allow (.srli sh)
    | 5, 0x10 => allow (.srai sh)
    | _, _ => .error .reservedOpcode
  | 0x33 =>
    match f3, f7 with
    | 0, 0 => allow (.add r)
    | 0, 32 => allow (.sub r)
    | 1, 0 => allow (.sll r)
    | 2, 0 => allow (.slt r)
    | 3, 0 => allow (.sltu r)
    | 4, 0 => allow (.xor r)
    | 5, 0 => allow (.srl r)
    | 5, 32 => allow (.sra r)
    | 6, 0 => allow (.or r)
    | 7, 0 => allow (.and r)
    | 0, 1 => allow (.mul r)
    | 1, 1 => allow (.mulh r)
    | 2, 1 => allow (.mulhsu r)
    | 3, 1 => allow (.mulhu r)
    | 4, 1 => allow (.div r)
    | 5, 1 => allow (.divu r)
    | 6, 1 => allow (.rem r)
    | 7, 1 => allow (.remu r)
    | _, _ => .error .reservedOpcode
  | 0x1B =>
    match f3, f7 with
    | 0, _ => allow (.addiw i)
    | 1, 0 => allow (.slliw shw)
    | 5, 0 => allow (.srliw shw)
    | 5, 0x20 => allow (.sraiw shw)
    | _, _ => .error .reservedOpcode
  | 0x3B =>
    match f3, f7 with
    | 0, 0 => allow (.addw r)
    | 0, 32 => allow (.subw r)
    | 1, 0 => allow (.sllw r)
    | 5, 0 => allow (.srlw r)
    | 5, 32 => allow (.sraw r)
    | 0, 1 => allow (.mulw r)
    | 4, 1 => allow (.divw r)
    | 5, 1 => allow (.divuw r)
    | 6, 1 => allow (.remw r)
    | 7, 1 => allow (.remuw r)
    | _, _ => .error .reservedOpcode
  | 0x03 =>
    match f3 with
    | 0 => allow (.lb i)
    | 1 => allow (.lh i)
    | 2 => allow (.lw i)
    | 3 => allow (.sld i)
    | 4 => allow (.lbu i)
    | 5 => allow (.lhu i)
    | 6 => allow (.lwu i)
    | _ => .error .reservedOpcode
  | 0x23 =>
    match f3 with
    | 0 => allow (.sb st)
    | 1 => allow (.sh st)
    | 2 => allow (.sw st)
    | 3 => allow (.sd st)
    | _ => .error .reservedOpcode
  | 0x0F =>
    match f3 with
    | 0 => allow (.fence { fm := fld w 28 4, pred := fld w 24 4, succ := fld w 20 4, rs1 := rs1, rd := rd })
    | _ => .error .reservedOpcode
  | 0x73 =>
    match f3 with
    | 0 => if w == 0x00000073 then allow .ecall else if w == 0x00100073 then allow .ebreak else .error .reservedOpcode
    | 1 => allow (.csrrw csr)
    | 2 => allow (.csrrs csr)
    | 3 => allow (.csrrc csr)
    | 5 => allow (.csrrwi csri)
    | 6 => allow (.csrrsi csri)
    | 7 => allow (.csrrci csri)
    | _ => .error .reservedOpcode
  | _ => .error .reservedOpcode

/-- S slot. -/
def decodeS (w : Word) : Except DecodeError Instr :=
  decodeSOp w (fld w 0 7).toNat (fld w 12 3).toNat (fld w 26 6).toNat (fld w 25 7).toNat

/-- VA and VB slots (R75, R83 and the encodings of R144, R168, R173, R177, R182, R281). -/
def decodeVOp (sl : Slot) (w : Word) (op : Nat) : Except DecodeError Instr :=
  let vd : VReg := fld w 19 6
  let vs1 : VReg := fld w 13 6
  let vs2 : VReg := fld w 7 6
  let et : Fmt := Fmt.ofEt (fld w 4 3)
  let pg : PReg := fld w 0 4
  let vr : VrF := { vd := vd, vs1 := vs1, vs2 := vs2, et := et, pg := pg }
  let vu : VuF := { vd := vd, vs1 := vs1, et := et, pg := pg }
  let x : XReg := fld w 7 5
  let vx : VxF := { vd := vd, x := x, et := et, pg := pg }
  let p1 : PReg := fld w 13 4
  let p2 : PReg := fld w 7 4
  let pd : PReg := fld w 19 4
  let vc : VcF := { pd := pd, vs1 := vs1, vs2 := vs2, et := et, pg := pg }
  let vp : VpF := { pd := pd, ps1 := p1, ps2 := p2, et := et, pg := pg }
  let vpx : VpxF := { ps := p1, x := x, et := et, pg := pg }
  let vsl : VslF := { vd := vd, vs1 := vs1, amt := vs2, et := et, pg := pg }
  let vl : VlF := { vd := vd, vs1 := vs1, vs2 := vs2, pg := pg }
  let h : HReg := fld w 15 4
  let xi : XReg := fld w 10 5
  let l : Bool := fld w 9 1 == 1
  let imm9 : BitVec 9 := fld w 0 9
  let vm : VmF := { vt := vd, h := h, xi := xi, l := l, imm := imm9 }
  let vsm : VsmF := { vt := vd, h := h, xi := xi, pg := pg }
  let xt : XReg := fld w 19 5
  let ls : LsF := { xt := xt, h := h, xi := xi, imm := imm9 }
  let txd : XReg := fld w 20 5
  let txs : XReg := fld w 15 5
  let th : HReg := fld w 11 4
  let txi : XReg := fld w 6 5
  let tsc := Scope.ofCode (fld w 3 3)
  let tord := Ord.ofCode (fld w 1 2)
  let ha : HReg := fld w 21 4
  let hb : HReg := fld w 17 4
  let xa : XReg := fld w 12 5
  let xb : XReg := fld w 7 5
  let imm7 : BitVec 7 := fld w 0 7
  match op with
  | 0 => if w == 0 then allow (.idle sl) else .error .nonZeroField
  | 0x1 => allow (.vadd vr)
  | 0x2 => allow (.vsub vr)
  | 0x3 => allow (.vmul vr)
  | 0x4 => allow (.vdiv vr)
  | 0x5 => allow (.vmin vr)
  | 0x6 => allow (.vmax vr)
  | 0x7 => need (vs2 == 0) (allow (.vabs vu))
  | 0x8 => need (vs2 == 0) (allow (.vneg vu))
  | 0x9 => allow (.vfma vr)
  | 0xa => allow (.vfms vr)
  | 0xb => need (vs2 == 0) (allow (.vsqrt vu))
  | 0xc => need (vs2 == 0) (allow (.vrcp vu))
  | 0xd => need (vs2 == 0) (allow (.vrsqrt vu))
  | 0xe => need (vs2 == 0) (allow (.vexp2 vu))
  | 0xf => need (vs2 == 0) (allow (.vlog2 vu))
  | 0x10 => allow (.vand vr)
  | 0x11 => allow (.vor vr)
  | 0x12 => allow (.vxor vr)
  | 0x13 => need (vs2 == 0) (allow (.vnot vu))
  | 0x14 => allow (.vshl vr)
  | 0x15 => allow (.vshr vr)
  | 0x16 => allow (.vsra vr)
  | 0x17 => allow (.vadds vr)
  | 0x18 => allow (.vsubs vr)
  | 0x19 => allow (.vmulh vr)
  | 0x1a => need (vs1 == 0 && fld w 12 1 == 0) (allow (.vbcast vx))
  | 0x1b => need (vs1 == 0 && fld w 12 1 == 0) (allow (.vmovx vx))
  | 0x1c => need (vs2 == 0) (allow (.vmov vu))
  | 0x1d => need (vs1 == 0 && vs2 == 0) (allow (.viota ⟨vd, et, pg⟩))
  | 0x1e => allow (.vli ⟨vd, fld w 7 12, et, pg⟩)
  | 0x20 => need (fld w 23 2 == 0) (allow (.vcmpEq vc))
  | 0x21 => need (fld w 23 2 == 0) (allow (.vcmpNe vc))
  | 0x22 => need (fld w 23 2 == 0) (allow (.vcmpLt vc))
  | 0x23 => need (fld w 23 2 == 0) (allow (.vcmpLe vc))
  | 0x24 => need (fld w 23 2 == 0) (allow (.vcmpUn vc))
  | 0x25 => need (fld w 23 2 == 0) (allow (.vcmpLtu vc))
  | 0x26 => need (fld w 23 2 == 0) (allow (.vcmpLeu vc))
  | 0x28 => need (fld w 23 2 == 0 && fld w 17 2 == 0 && fld w 11 2 == 0) (allow (.vpand vp))
  | 0x29 => need (fld w 23 2 == 0 && fld w 17 2 == 0 && fld w 11 2 == 0) (allow (.vpor vp))
  | 0x2a => need (fld w 23 2 == 0 && fld w 17 2 == 0 && fld w 11 2 == 0) (allow (.vpxor vp))
  | 0x2b => need (fld w 23 2 == 0 && fld w 17 2 == 0 && vs2 == 0) (allow (.vpnot ⟨pd, p1, et, pg⟩))
  | 0x2c => need (fld w 23 2 == 0 && vs1 == 0 && vs2 == 0) (allow (.vpset ⟨pd, et, pg⟩))
  | 0x2d => need (vd == 0 && fld w 17 2 == 0 && fld w 12 1 == 0) (allow (.vpcnt vpx))
  | 0x2e => need (vd == 0 && fld w 17 2 == 0 && fld w 12 1 == 0) (allow (.vpfirst vpx))
  | 0x30 => allow (.vsel vr)
  | 0x31 => allow (.vperm vr)
  | 0x32 => allow (.vslideup vsl)
  | 0x33 => allow (.vslidedn vsl)
  | 0x34 => allow (.vzip vr)
  | 0x35 => allow (.vunzip vr)
  | 0x36 => need (vs2 == 0) (allow (.vcompress vu))
  | 0x37 => need (vs2 == 0) (allow (.vexpand vu))
  | 0x38 => need (vs2 == 0) (allow (.vredsum vu))
  | 0x39 => need (vs2 == 0) (allow (.vredmax vu))
  | 0x3a => need (vs2 == 0) (allow (.vredmin vu))
  | 0x3b => need (vs2 == 0) (allow (.vscansum vu))
  | 0x3c => need (vs2 == 0) (allow (.vscanmax vu))
  | 0x3d => need (vs2 == 0) (allow (.vargmax vu))
  | 0x3e => allow (.vbitonic ⟨vd, vs1, fld w 10 3, fld w 7 3, et, pg⟩)
  | 0x40 => need (fld w 4 3 == 0) (allow (.vmulL6 vl))
  | 0x41 => need (fld w 4 3 == 0) (allow (.vdotL6 vl))
  | 0x42 => allow (.vrand vr)
  | 0x48 => allow (.vld vm)
  | 0x49 => need (!l) (allow (.vst ⟨vd, h, xi, imm9⟩))
  | 0x4a => need (!l && fld w 4 5 == 0) (allow (.vstm vsm))
  | 0x4b => allow (.vgather vm)
  | 0x4c => need (!l && fld w 4 5 == 0) (allow (.vscatter vsm))
  | 0x4d => need (fld w 24 1 == 0) (allow (.ld ⟨xt, h, xi, l, imm9⟩))
  | 0x4e => need (fld w 24 1 == 0 && !l) (allow (.st ls))
  | 0x4f => need (fld w 24 1 == 0 && l) (allow (.ldSc ls))
  | 0x50 => need (fld w 24 1 == 0 && !l) (allow (.stSc ls))
  | 0x51 => need (vd == 0 && !l) (allow (.vpref ⟨h, xi, imm9⟩))
  | 0x58 => need (fld w 0 1 == 0) (coded tsc fun sc => allow (.amoadd ⟨txd, txs, th, txi, sc, tord⟩))
  | 0x59 => need (fld w 0 1 == 0) (coded tsc fun sc => allow (.amomin ⟨txd, txs, th, txi, sc, tord⟩))
  | 0x5a => need (fld w 0 1 == 0) (coded tsc fun sc => allow (.amomax ⟨txd, txs, th, txi, sc, tord⟩))
  | 0x5b => need (fld w 0 1 == 0) (coded tsc fun sc => allow (.amominu ⟨txd, txs, th, txi, sc, tord⟩))
  | 0x5c => need (fld w 0 1 == 0) (coded tsc fun sc => allow (.amomaxu ⟨txd, txs, th, txi, sc, tord⟩))
  | 0x5d => need (fld w 0 1 == 0) (coded tsc fun sc => allow (.amoand ⟨txd, txs, th, txi, sc, tord⟩))
  | 0x5e => need (fld w 0 1 == 0) (coded tsc fun sc => allow (.amoor ⟨txd, txs, th, txi, sc, tord⟩))
  | 0x5f => need (fld w 0 1 == 0) (coded tsc fun sc => allow (.amoxor ⟨txd, txs, th, txi, sc, tord⟩))
  | 0x60 => need (fld w 0 1 == 0) (coded tsc fun sc => allow (.amoswap ⟨txd, txs, th, txi, sc, tord⟩))
  | 0x61 => need (fld w 0 1 == 0) (coded tsc fun sc => allow (.amocas ⟨txd, txs, th, txi, sc, tord⟩))
  | 0x62 => need (fld w 0 1 == 0 && fld w 3 3 == 3 && fld w 1 2 == 3) (allow (.amoSc ⟨txd, txs, th, txi⟩))
  | 0x63 => need (fld w 0 1 == 0 && txs == 0 && fld w 1 2 == 1) (coded tsc fun sc => allow (.lda ⟨txd, th, txi, sc⟩))
  | 0x64 => need (fld w 0 1 == 0 && txd == 0 && fld w 1 2 == 2) (coded tsc fun sc => allow (.stl ⟨txs, th, txi, sc⟩))
  | 0x65 => need (fld w 0 1 == 0 && fld w 6 19 == 0) (coded tsc fun sc => allow (.vfence ⟨sc, tord⟩))
  | 0x66 => need (fld w 0 1 == 0 && txd == 0 && fld w 1 2 == 0) (coded tsc fun sc => allow (.cflush ⟨txs, th, txi, sc⟩))
  | 0x68 => need (fld w 4 1 == 0) (coded (Scope.ofCode (fld w 7 3)) fun sc => allow (.vamoadd ⟨vd, h, xi, sc, Ord.ofCode (fld w 5 2), pg⟩))
  | 0x69 => need (fld w 4 1 == 0) (coded (Scope.ofCode (fld w 7 3)) fun sc => allow (.vamomin ⟨vd, h, xi, sc, Ord.ofCode (fld w 5 2), pg⟩))
  | 0x6a => need (fld w 4 1 == 0) (coded (Scope.ofCode (fld w 7 3)) fun sc => allow (.vamomax ⟨vd, h, xi, sc, Ord.ofCode (fld w 5 2), pg⟩))
  | 0x6b => need (fld w 4 1 == 0) (coded (Scope.ofCode (fld w 7 3)) fun sc => allow (.vredst ⟨vd, h, xi, sc, Ord.ofCode (fld w 5 2), pg⟩))
  | 0x70 => need (xb == 0) (allow (.cldh ⟨ha, hb, xa, imm7⟩))
  | 0x71 => need (xb == 0) (allow (.csth ⟨ha, hb, xa, imm7⟩))
  | 0x72 => allow (.cnarrow ⟨ha, hb, xa, xb, imm7⟩)
  | 0x73 => need (ha == 0 && xb == 0) (allow (.cget ⟨hb, xa, imm7⟩))
  | 0x74 => need (xa == 0 && xb == 0 && imm7 == 0) (allow (.cmov ⟨ha, hb⟩))
  | 0x75 => need (fld w 0 21 == 0) (allow (.cclr ha))
  | 0x76 => need (ha == 0 && fld w 1 6 == 0) (allow (.binit ⟨hb, xa, xb, fld w 0 1 == 1⟩))
  | 0x77 => need (imm7 == 0) (allow (.blink ⟨ha, hb, xa, xb⟩))
  | 0x78 => need (ha == 0 && fld w 3 4 == 0) (coded (Scope.ofCode (fld w 0 3)) fun sc => allow (.barrive ⟨hb, xa, xb, sc⟩))
  | 0x79 => need (ha == 0 && fld w 3 4 == 0) (coded (Scope.ofCode (fld w 0 3)) fun sc => allow (.bwaitp ⟨hb, xa, xb, sc⟩))
  | _ => .error .reservedOpcode

/-- VA and VB slots. -/
def decodeV (sl : Slot) (w : Word) : Except DecodeError Instr := decodeVOp sl w (fld w 25 7).toNat

/-- M slot (R76, R84, R188, R195, R208). -/
def decodeMOp (w : DWord) (op : Nat) : Except DecodeError Instr :=
  let md : MReg := fld w 54 4
  let ms1 : MReg := fld w 50 4
  let ms2 : MReg := fld w 46 4
  let tos : OSlot := fld w 41 5
  let txs : XReg := fld w 36 5
  let os : OSlot := fld w 53 5
  let omd : MReg := fld w 49 4
  let ov : VReg := fld w 43 6
  let row : BitVec 6 := fld w 37 6
  let rstep : BitVec 6 := fld w 31 6
  let ma : MaF := ⟨md, fld w 49 5, fld w 44 5, fld w 43 1 == 1, fld w 42 1 == 1, fld w 40 2, fld w 38 2, fld w 36 2,
    fld w 35 1 == 1⟩
  let z := fld w 0 36 == 0
  match op with
  | 0 => if w == 0 then allow (.idle .m) else .error .nonZeroField
  | 0x1 => need (fld w 0 53 == 0) (allow (.oclaim os))
  | 0x2 => need (fld w 0 53 == 0) (allow (.orelease os))
  | 0x3 => need (omd == 0 && fld w 0 31 == 0) (allow (.oload ⟨os, ov, row, rstep⟩))
  | 0x4 => need (fld w 0 14 == 0) (allow (.wload ⟨os, fld w 49 4, fld w 44 5, fld w 35 9, fld w 19 16, fld w 14 5⟩))
  | 0x5 => need (fld w 53 1 == 0 && fld w 0 50 == 0) (coded (TileKind.ofCode (fld w 50 3)) fun k => allow (.mzero ⟨md, k⟩))
  | 0x6 => need (fld w 0 50 == 0) (allow (.mmov ⟨md, ms1⟩))
  | 0x7 => need (os == 0 && fld w 0 31 == 0) (allow (.mrd ⟨omd, ov, row, rstep⟩))
  | 0x8 => need (os == 0 && fld w 0 31 == 0) (allow (.mwr ⟨omd, ov, row, rstep⟩))
  | 0x9 => need (fld w 0 35 == 0) (allow (.mmaF64 ma))
  | 0xa => need (fld w 0 35 == 0) (allow (.mmaF32 ma))
  | 0xb => need (fld w 0 35 == 0) (allow (.mmaBf16 ma))
  | 0xc => need (fld w 0 35 == 0) (allow (.mmaF16 ma))
  | 0xd => need (fld w 0 35 == 0) (allow (.mmaI8 ma))
  | 0xe => need (fld w 0 35 == 0) (allow (.mmaI4 ma))
  | 0xf => need (fld w 0 35 == 0) (allow (.mmaL6 ma))
  | 0x10 => need (fld w 0 35 == 0) (allow (.mmaS24 ma))
  | 0x11 => need (fld w 0 35 == 0) (allow (.mmaS14 ma))
  | 0x12 => need (ms1 == 0 && ms2 == 0 && z) (allow (.mlrset ⟨md, tos, txs⟩))
  | 0x13 => need (fld w 0 46 == 0) (allow (.mlrmul ⟨md, ms1, ms2⟩))
  | 0x14 => need (fld w 0 46 == 0) (allow (.mlrdm ⟨md, ms1, ms2⟩))
  | 0x15 => need (fld w 0 46 == 0) (allow (.mdmlr ⟨md, ms1, ms2⟩))
  | 0x16 => need (fld w 0 46 == 0) (allow (.mlradd ⟨md, ms1, ms2⟩))
  | 0x17 => need (fld w 0 50 == 0) (allow (.mrecomp ⟨md, ms1⟩))
  | 0x18 => need (fld w 0 50 == 0) (allow (.mdense ⟨md, ms1⟩))
  | 0x19 => need (md == 0 && ms2 == 0 && tos == 0 && z) (allow (.mrank ⟨ms1, txs⟩))
  | 0x1a => need (ms2 == 0 && tos == 0 && z) (allow (.mbflyC64 ⟨md, ms1, txs⟩))
  | 0x1b => need (ms2 == 0 && tos == 0 && z) (allow (.mbflyC128 ⟨md, ms1, txs⟩))
  | 0x1c => need (ms2 == 0 && fld w 0 41 == 0) (allow (.mbrev ⟨md, ms1, tos⟩))
  | 0x1d => need (ms2 == 0 && tos == 0 && z) (allow (.mtwmulC64 ⟨md, ms1, txs⟩))
  | 0x1e => need (ms2 == 0 && tos == 0 && z) (allow (.mtwmulC128 ⟨md, ms1, txs⟩))
  | _ => .error .reservedOpcode

/-- M slot. -/
def decodeM (w : DWord) : Except DecodeError Instr := decodeMOp w (fld w 58 6).toNat

/-- CA and CB slots (R77, R85, R239). -/
def decodeCOp (sl : Slot) (w : DWord) (op : Nat) : Except DecodeError Instr :=
  let h : HReg := fld w 54 4
  let xa : XReg := fld w 49 5
  let xb : XReg := fld w 44 5
  let xd : XReg := fld w 39 5
  let cj : CjF := { h := h, xi := xa, off := fld w 33 16, step := fld w 17 16, xd := fld w 12 5 }
  match op with
  | 0 => if w == 0 then allow (.idle sl) else .error .nonZeroField
  | 1 => need (fld w 0 12 == 0) (allow (.cjob cj))
  | 2 => need (fld w 0 47 == 0) (allow (.cjobv ⟨fld w 52 6, fld w 47 5⟩))
  | 3 => need (fld w 0 12 == 0) (allow (.cwpe cj))
  | 4 => need (h == 0 && xb == 0 && fld w 0 39 == 0) (allow (.cquery ⟨xa, xd⟩))
  | 5 => need (h == 0 && fld w 0 49 == 0) (allow (.ccancel xa))
  | 6 => need (fld w 0 39 == 0) (allow (.csignal ⟨h, xa, xb, xd⟩))
  | 7 => need (fld w 0 58 == 0) (allow .cfence)
  | _ => .error .reservedOpcode

/-- CA and CB slots. -/
def decodeC (sl : Slot) (w : DWord) : Except DecodeError Instr := decodeCOp sl w (fld w 58 6).toNat

/-- X slot (R78, R86, R231). -/
def decodeXOp (w : Word) (op : Nat) : Except DecodeError Instr :=
  let vd : VReg := fld w 21 6
  let vs : VReg := fld w 15 6
  let dt : BitVec 4 := fld w 11 4
  let st : BitVec 4 := fld w 7 4
  let z := fld w 0 7 == 0
  match op with
  | 0 => if w == 0 then allow (.idle .x) else .error .nonZeroField
  | 1 => need (st == 0 && z) (coded (Fmt.ofCode dt) fun d => allow (.xexpS24 ⟨vd, vs, d⟩))
  | 2 => need (st == 0 && z) (coded (Fmt.ofCode dt) fun d => allow (.xexpS14 ⟨vd, vs, d⟩))
  | 3 => need (dt == 0 && st == 0 && z) (allow (.xunpkL6 ⟨vd, vs⟩))
  | 4 => need (dt == 0 && st == 0 && z) (allow (.xunpkI4 ⟨vd, vs⟩))
  | 5 => need (dt == 0 && st == 0 && z) (allow (.xpackL6 ⟨vd, vs⟩))
  | 6 => need (dt == 0 && st == 0 && z) (allow (.xpackI4 ⟨vd, vs⟩))
  | 7 => need (dt == 0 && fld w 8 3 == 0 && z) (allow (.xtr ⟨vd, vs, fld w 7 1 == 1⟩))
  | 8 => need z (coded (Fmt.ofCode dt) fun d => coded (Fmt.ofCode st) fun src => allow (.xcvt ⟨vd, vs, d, src⟩))
  | 9 => need (fld w 0 22 == 0) (allow (.xscale (fld w 22 5)))
  | 0xA => need (fld w 22 5 == 0 && fld w 0 11 == 0) (allow (.xscalei (fld w 11 11)))
  | _ => .error .reservedOpcode

/-- X slot. -/
def decodeX (w : Word) : Except DecodeError Instr := decodeXOp w (fld w 27 5).toNat

/-- A slot word: 32 bits for B, S, VA, VB and X, 64 bits for M, CA and CB (R66). -/
def decodeSlot (sl : Slot) (w : DWord) : Except DecodeError Instr :=
  match sl with
  | .b => decodeB (w.setWidth 32)
  | .s => decodeS (w.setWidth 32)
  | .va | .vb => decodeV sl (w.setWidth 32)
  | .m => decodeM w
  | .ca | .cb => decodeC sl w
  | .x => decodeX (w.setWidth 32)

/-- The slots in MASK bit order (R65, R66). -/
def slotOrder : List Slot := [.b, .s, .va, .vb, .m, .ca, .cb, .x]

/-- The bit of MASK and the code of TSLOT.SLOT that name a slot (R51, R65). -/
def Slot.code : Slot → BitVec 3
  | .b => 0 | .s => 1 | .va => 2 | .vb => 3 | .m => 4 | .ca => 5 | .cb => 6 | .x => 7

/-- Words that a slot takes (R66). -/
def Slot.words : Slot → Nat
  | .m | .ca | .cb => 2
  | _ => 1

/-- The port code of a sticky slot (R65). -/
def Slot.portCode : Slot → Option (BitVec 3)
  | .va => some 1 | .vb => some 2 | .m => some 3 | .ca => some 4 | .cb => some 5 | .x => some 6
  | _ => none

/-- A bundle head (R65). -/
structure Head where
  seg : Bool
  ports : List (BitVec 3)
  rep : Nat
  mask : BitVec 8
  deriving DecidableEq, Repr

/-- The fields of a head, whatever bit 31 and the port codes are. -/
def Head.ofWord (w : Word) : Head :=
  { seg := bit w 30
    ports := [fld w 12 3, fld w 15 3, fld w 18 3, fld w 21 3, fld w 24 3, fld w 27 3]
    rep := (fld w 8 4).toNat
    mask := fld w 0 8 }

/-- Check 2 of R67. -/
def headLegal (w : Word) : Bool :=
  !bit w 31 && (Head.ofWord w).ports.all (fun p => p != 7)

/-- The present slots, in MASK order. -/
def Head.slots (h : Head) : List Slot := slotOrder.filter (fun sl => bit h.mask sl.code.toNat)

/-- The bundle's length in words (R66). -/
def Head.words (h : Head) : Nat := 1 + (h.slots.map Slot.words).sum

/-- A bundle: its head word and its slots with their words. -/
structure Bundle where
  headWord : Word
  slots : List (Slot × DWord)
  deriving DecidableEq, Repr

/-- Split the words after the head among the present slots (R66). -/
def splitSlots : List Slot → List Word → Option (List (Slot × DWord))
  | [], _ => some []
  | sl :: sls, ws =>
    match sl.words, ws with
    | 2, lo :: hi :: rest => (splitSlots sls rest).map (fun l => (sl, hi ++ lo) :: l)
    | 1, w :: rest => (splitSlots sls rest).map (fun l => (sl, w.setWidth 64) :: l)
    | _, _ => none

/-- The bundle at the head of a list of code words. -/
def readBundle : List Word → Option Bundle
  | [] => none
  | hd :: rest => (splitSlots (Head.ofWord hd).slots rest).map (fun l => { headWord := hd, slots := l })

/-- A bundle's operations, each with its slot and word, or the first failure in MASK order (check 3 of R67). -/
def decodeSlots : List (Slot × DWord) → Except (Slot × DWord × DecodeError) (List (Slot × Instr))
  | [] => .ok []
  | (sl, w) :: rest =>
    match decodeSlot sl w with
    | .error e => .error (sl, w, e)
    | .ok i =>
      match decodeSlots rest with
      | .error e => .error e
      | .ok l => .ok ((sl, i) :: l)

/-- Split a number into n 32-bit words, lowest first. -/
def wordsOfNat : Nat → Nat → List Word
  | 0, _ => []
  | n + 1, w => BitVec.ofNat 32 w :: wordsOfNat n (w / 2 ^ 32)

/-- The instruction that the decoder reads from a bundle whose bits are w, head first (a bundle has at most 12 words):
the operation of its first present slot. -/
def decodeTableWord (_nbits w : Nat) : Option Instr :=
  match readBundle (wordsOfNat 12 w) with
  | some b =>
    if headLegal b.headWord then
      match decodeSlots b.slots with
      | .ok ((_, i) :: _) => some i
      | _ => none
    else none
  | none => none

/-! ### Encoding -/

/-- Slot words of 32 bits, by format. -/
def encBr (op : BitVec 6) (f : BrF) : Word := op ++ f.rs1 ++ f.rs2 ++ f.off
def encBp (op : BitVec 6) (f : BpF) : Word := op ++ f.p ++ 0#6 ++ f.off
def encBl (op : BitVec 6) (f : BlF) : Word := op ++ f.rs1 ++ f.stg ++ f.len ++ f.maxe ++ f.maxm
def encBc (op : BitVec 6) (rs1 : XReg) : Word := op ++ rs1 ++ 0#21
def encBn (op : BitVec 6) : Word := op ++ 0#26
def encR (op : BitVec 7) (f3 : BitVec 3) (f7 : BitVec 7) (f : RF) : Word := f7 ++ f.rs2 ++ f.rs1 ++ f3 ++ f.rd ++ op
def encI (op : BitVec 7) (f3 : BitVec 3) (f : IF) : Word := f.imm ++ f.rs1 ++ f3 ++ f.rd ++ op
def encSh (f3 : BitVec 3) (f6 : BitVec 6) (f : ShF) : Word := f6 ++ f.sh ++ f.rs1 ++ f3 ++ f.rd ++ 0x13#7
def encShw (f3 : BitVec 3) (f7 : BitVec 7) (f : ShwF) : Word := f7 ++ f.sh ++ f.rs1 ++ f3 ++ f.rd ++ 0x1B#7
def encU (op : BitVec 7) (f : UF) : Word := f.imm ++ f.rd ++ op
def encSt (f3 : BitVec 3) (f : StF) : Word := fld f.imm 5 7 ++ f.rs2 ++ f.rs1 ++ f3 ++ fld f.imm 0 5 ++ 0x23#7
def encCsr (f3 : BitVec 3) (f : CsrF) : Word := f.csr ++ f.rs1 ++ f3 ++ f.rd ++ 0x73#7
def encCsri (f3 : BitVec 3) (f : CsriF) : Word := f.csr ++ f.uimm ++ f3 ++ f.rd ++ 0x73#7
def encVr (op : BitVec 7) (f : VrF) : Word := op ++ f.vd ++ f.vs1 ++ f.vs2 ++ f.et.et ++ f.pg
def encVu (op : BitVec 7) (f : VuF) : Word := op ++ f.vd ++ f.vs1 ++ 0#6 ++ f.et.et ++ f.pg
def encVd (op : BitVec 7) (f : VdF) : Word := op ++ f.vd ++ 0#12 ++ f.et.et ++ f.pg
def encVi (op : BitVec 7) (f : ViF) : Word := op ++ f.vd ++ f.imm ++ f.et.et ++ f.pg
def encVx (op : BitVec 7) (f : VxF) : Word := op ++ f.vd ++ 0#7 ++ f.x ++ f.et.et ++ f.pg
def encVpx (op : BitVec 7) (f : VpxF) : Word := op ++ 0#8 ++ f.ps ++ 0#1 ++ f.x ++ f.et.et ++ f.pg
def encVc (op : BitVec 7) (f : VcF) : Word := op ++ 0#2 ++ f.pd ++ f.vs1 ++ f.vs2 ++ f.et.et ++ f.pg
def encVp (op : BitVec 7) (f : VpF) : Word := op ++ 0#2 ++ f.pd ++ 0#2 ++ f.ps1 ++ 0#2 ++ f.ps2 ++ f.et.et ++ f.pg
def encVpn (op : BitVec 7) (f : VpnF) : Word := op ++ 0#2 ++ f.pd ++ 0#2 ++ f.ps1 ++ 0#6 ++ f.et.et ++ f.pg
def encVps (op : BitVec 7) (f : VpsF) : Word := op ++ 0#2 ++ f.pd ++ 0#12 ++ f.et.et ++ f.pg
def encVsl (op : BitVec 7) (f : VslF) : Word := op ++ f.vd ++ f.vs1 ++ f.amt ++ f.et.et ++ f.pg
def encVbt (op : BitVec 7) (f : VbtF) : Word := op ++ f.vd ++ f.vs1 ++ f.b ++ f.d ++ f.et.et ++ f.pg
def encVl (op : BitVec 7) (f : VlF) : Word := op ++ f.vd ++ f.vs1 ++ f.vs2 ++ 0#3 ++ f.pg
def encVm (op : BitVec 7) (f : VmF) : Word := op ++ f.vt ++ f.h ++ f.xi ++ BitVec.ofBool f.l ++ f.imm
def encVst (op : BitVec 7) (f : VstF) : Word := op ++ f.vt ++ f.h ++ f.xi ++ 0#1 ++ f.imm
def encVsm (op : BitVec 7) (f : VsmF) : Word := op ++ f.vt ++ f.h ++ f.xi ++ 0#6 ++ f.pg
def encLd (op : BitVec 7) (f : LdF) : Word := op ++ 0#1 ++ f.xt ++ f.h ++ f.xi ++ BitVec.ofBool f.l ++ f.imm
def encLs (op : BitVec 7) (l : BitVec 1) (f : LsF) : Word := op ++ 0#1 ++ f.xt ++ f.h ++ f.xi ++ l ++ f.imm
def encVpref (op : BitVec 7) (f : VprefF) : Word := op ++ 0#6 ++ f.h ++ f.xi ++ 0#1 ++ f.imm
def encVt (op : BitVec 7) (xd xs : XReg) (h : HReg) (xi : XReg) (sc : Scope) (ord : Ord) : Word :=
  op ++ xd ++ xs ++ h ++ xi ++ sc.code ++ ord.code ++ 0#1
def encVv (op : BitVec 7) (f : VvF) : Word := op ++ f.vt ++ f.h ++ f.vi ++ f.scope.code ++ f.ord.code ++ 0#1 ++ f.pg
def encVh (op : BitVec 7) (ha hb : HReg) (xa xb : XReg) (imm : BitVec 7) : Word := op ++ ha ++ hb ++ xa ++ xb ++ imm
/-- Slot words of 64 bits, by format. -/
def encMa (op : BitVec 6) (f : MaF) : DWord :=
  op ++ f.md ++ f.osa ++ f.osb ++ BitVec.ofBool f.lra ++ BitVec.ofBool f.lrb ++ f.sta ++ f.stb ++ f.std
    ++ BitVec.ofBool f.za ++ 0#35
def encMt (op : BitVec 6) (md ms1 ms2 : MReg) (os : OSlot) (xs : XReg) : DWord :=
  op ++ md ++ ms1 ++ ms2 ++ os ++ xs ++ 0#36
def encMo (op : BitVec 6) (os : OSlot) (md : MReg) (v : VReg) (row rstep : BitVec 6) : DWord :=
  op ++ os ++ md ++ v ++ row ++ rstep ++ 0#31
def encMw (op : BitVec 6) (f : MwF) : DWord := op ++ f.os ++ f.h ++ f.xi ++ f.arr ++ f.step ++ f.ostep ++ 0#14
def encCj (op : BitVec 6) (f : CjF) : DWord := op ++ f.h ++ f.xi ++ f.off ++ f.step ++ f.xd ++ 0#12
def encCx (op : BitVec 6) (h : HReg) (xa xb xd : XReg) : DWord := op ++ h ++ xa ++ xb ++ xd ++ 0#39
/-- X-slot words. -/
def encXr (op : BitVec 5) (vd vs : VReg) (dt st : BitVec 4) : Word := op ++ vd ++ vs ++ dt ++ st ++ 0#7

/-- The slot word of a 32-bit operation, widened. -/
abbrev w32 (w : Word) : DWord := w.setWidth 64

/-- The slot word of an operation, or none for an event, which has no word. -/
def encode : Instr → Option DWord
  | .beq f => some (w32 (encBr 0x1#6 f))
  | .bne f => some (w32 (encBr 0x2#6 f))
  | .blt f => some (w32 (encBr 0x3#6 f))
  | .bge f => some (w32 (encBr 0x4#6 f))
  | .bltu f => some (w32 (encBr 0x5#6 f))
  | .bgeu f => some (w32 (encBr 0x6#6 f))
  | .bpt f => some (w32 (encBp 0x7#6 f))
  | .bpf f => some (w32 (encBp 0x8#6 f))
  | .jmp off => some (w32 (0x9#6 ++ 0#5 ++ off))
  | .call f => some (w32 (0xa#6 ++ f.rd ++ f.off))
  | .ret rs1 => some (w32 (encBc 0xb#6 rs1))
  | .loop f => some (w32 (encBl 0xc#6 f))
  | .loopW f => some (w32 (encBl 0xd#6 f))
  | .loopSp f => some (w32 (encBl 0xe#6 f))
  | .lend rs1 => some (w32 (encBc 0xf#6 rs1))
  | .lbrk rs1 => some (w32 (encBc 0x10#6 rs1))
  | .wait f => some (w32 (0x11#6 ++ f.st ++ f.cp ++ f.tl ++ f.wl ++ 0#2))
  | .setfmt a r => some (w32 (0x12#6 ++ 0#22 ++ a.code ++ r.code))
  | .litset rs1 => some (w32 (encBc 0x13#6 rs1))
  | .sstep => some (w32 (encBn 0x14#6))
  | .iinv rs1 => some (w32 (encBc 0x15#6 rs1))
  | .yield => some (w32 (encBn 0x16#6))
  | .halt => some (w32 (encBn 0x17#6))
  | .trap code => some (w32 (0x18#6 ++ 0#18 ++ code))
  | .tret => some (w32 (encBn 0x19#6))
  | .lui f => some (w32 (encU 0x37#7 f))
  | .auipc f => some (w32 (encU 0x17#7 f))
  | .addi f => some (w32 (encI 0x13#7 0#3 f))
  | .slti f => some (w32 (encI 0x13#7 2#3 f))
  | .sltiu f => some (w32 (encI 0x13#7 3#3 f))
  | .xori f => some (w32 (encI 0x13#7 4#3 f))
  | .ori f => some (w32 (encI 0x13#7 6#3 f))
  | .andi f => some (w32 (encI 0x13#7 7#3 f))
  | .slli f => some (w32 (encSh 1#3 0#6 f))
  | .srli f => some (w32 (encSh 5#3 0#6 f))
  | .srai f => some (w32 (encSh 5#3 0x10#6 f))
  | .add f => some (w32 (encR 0x33#7 0#3 0x0#7 f))
  | .sub f => some (w32 (encR 0x33#7 0#3 0x20#7 f))
  | .sll f => some (w32 (encR 0x33#7 1#3 0x0#7 f))
  | .slt f => some (w32 (encR 0x33#7 2#3 0x0#7 f))
  | .sltu f => some (w32 (encR 0x33#7 3#3 0x0#7 f))
  | .xor f => some (w32 (encR 0x33#7 4#3 0x0#7 f))
  | .srl f => some (w32 (encR 0x33#7 5#3 0x0#7 f))
  | .sra f => some (w32 (encR 0x33#7 5#3 0x20#7 f))
  | .or f => some (w32 (encR 0x33#7 6#3 0x0#7 f))
  | .and f => some (w32 (encR 0x33#7 7#3 0x0#7 f))
  | .mul f => some (w32 (encR 0x33#7 0#3 0x1#7 f))
  | .mulh f => some (w32 (encR 0x33#7 1#3 0x1#7 f))
  | .mulhsu f => some (w32 (encR 0x33#7 2#3 0x1#7 f))
  | .mulhu f => some (w32 (encR 0x33#7 3#3 0x1#7 f))
  | .div f => some (w32 (encR 0x33#7 4#3 0x1#7 f))
  | .divu f => some (w32 (encR 0x33#7 5#3 0x1#7 f))
  | .rem f => some (w32 (encR 0x33#7 6#3 0x1#7 f))
  | .remu f => some (w32 (encR 0x33#7 7#3 0x1#7 f))
  | .addiw f => some (w32 (encI 0x1B#7 0#3 f))
  | .slliw f => some (w32 (encShw 1#3 0#7 f))
  | .srliw f => some (w32 (encShw 5#3 0#7 f))
  | .sraiw f => some (w32 (encShw 5#3 0x20#7 f))
  | .addw f => some (w32 (encR 0x3B#7 0#3 0x0#7 f))
  | .subw f => some (w32 (encR 0x3B#7 0#3 0x20#7 f))
  | .sllw f => some (w32 (encR 0x3B#7 1#3 0x0#7 f))
  | .srlw f => some (w32 (encR 0x3B#7 5#3 0x0#7 f))
  | .sraw f => some (w32 (encR 0x3B#7 5#3 0x20#7 f))
  | .mulw f => some (w32 (encR 0x3B#7 0#3 0x1#7 f))
  | .divw f => some (w32 (encR 0x3B#7 4#3 0x1#7 f))
  | .divuw f => some (w32 (encR 0x3B#7 5#3 0x1#7 f))
  | .remw f => some (w32 (encR 0x3B#7 6#3 0x1#7 f))
  | .remuw f => some (w32 (encR 0x3B#7 7#3 0x1#7 f))
  | .lb f => some (w32 (encI 0x03#7 0#3 f))
  | .lh f => some (w32 (encI 0x03#7 1#3 f))
  | .lw f => some (w32 (encI 0x03#7 2#3 f))
  | .sld f => some (w32 (encI 0x03#7 3#3 f))
  | .lbu f => some (w32 (encI 0x03#7 4#3 f))
  | .lhu f => some (w32 (encI 0x03#7 5#3 f))
  | .lwu f => some (w32 (encI 0x03#7 6#3 f))
  | .sb f => some (w32 (encSt 0#3 f))
  | .sh f => some (w32 (encSt 1#3 f))
  | .sw f => some (w32 (encSt 2#3 f))
  | .sd f => some (w32 (encSt 3#3 f))
  | .fence f => some (w32 (f.fm ++ f.pred ++ f.succ ++ f.rs1 ++ 0#3 ++ f.rd ++ 0x0F#7))
  | .ecall => some (w32 0x00000073#32)
  | .ebreak => some (w32 0x00100073#32)
  | .csrrw f => some (w32 (encCsr 1#3 f))
  | .csrrs f => some (w32 (encCsr 2#3 f))
  | .csrrc f => some (w32 (encCsr 3#3 f))
  | .csrrwi f => some (w32 (encCsri 5#3 f))
  | .csrrsi f => some (w32 (encCsri 6#3 f))
  | .csrrci f => some (w32 (encCsri 7#3 f))
  | .idle sl => if sl = .b ∨ sl = .s then none else some 0
  | .vadd f => some (w32 (encVr 0x1#7 f))
  | .vsub f => some (w32 (encVr 0x2#7 f))
  | .vmul f => some (w32 (encVr 0x3#7 f))
  | .vdiv f => some (w32 (encVr 0x4#7 f))
  | .vmin f => some (w32 (encVr 0x5#7 f))
  | .vmax f => some (w32 (encVr 0x6#7 f))
  | .vabs f => some (w32 (encVu 0x7#7 f))
  | .vneg f => some (w32 (encVu 0x8#7 f))
  | .vfma f => some (w32 (encVr 0x9#7 f))
  | .vfms f => some (w32 (encVr 0xa#7 f))
  | .vsqrt f => some (w32 (encVu 0xb#7 f))
  | .vrcp f => some (w32 (encVu 0xc#7 f))
  | .vrsqrt f => some (w32 (encVu 0xd#7 f))
  | .vexp2 f => some (w32 (encVu 0xe#7 f))
  | .vlog2 f => some (w32 (encVu 0xf#7 f))
  | .vand f => some (w32 (encVr 0x10#7 f))
  | .vor f => some (w32 (encVr 0x11#7 f))
  | .vxor f => some (w32 (encVr 0x12#7 f))
  | .vnot f => some (w32 (encVu 0x13#7 f))
  | .vshl f => some (w32 (encVr 0x14#7 f))
  | .vshr f => some (w32 (encVr 0x15#7 f))
  | .vsra f => some (w32 (encVr 0x16#7 f))
  | .vadds f => some (w32 (encVr 0x17#7 f))
  | .vsubs f => some (w32 (encVr 0x18#7 f))
  | .vmulh f => some (w32 (encVr 0x19#7 f))
  | .vbcast f => some (w32 (encVx 0x1a#7 f))
  | .vmovx f => some (w32 (encVx 0x1b#7 f))
  | .vmov f => some (w32 (encVu 0x1c#7 f))
  | .viota f => some (w32 (encVd 0x1d#7 f))
  | .vli f => some (w32 (encVi 0x1e#7 f))
  | .vcmpEq f => some (w32 (encVc 0x20#7 f))
  | .vcmpNe f => some (w32 (encVc 0x21#7 f))
  | .vcmpLt f => some (w32 (encVc 0x22#7 f))
  | .vcmpLe f => some (w32 (encVc 0x23#7 f))
  | .vcmpUn f => some (w32 (encVc 0x24#7 f))
  | .vcmpLtu f => some (w32 (encVc 0x25#7 f))
  | .vcmpLeu f => some (w32 (encVc 0x26#7 f))
  | .vpand f => some (w32 (encVp 0x28#7 f))
  | .vpor f => some (w32 (encVp 0x29#7 f))
  | .vpxor f => some (w32 (encVp 0x2a#7 f))
  | .vpnot f => some (w32 (encVpn 0x2b#7 f))
  | .vpset f => some (w32 (encVps 0x2c#7 f))
  | .vpcnt f => some (w32 (encVpx 0x2d#7 f))
  | .vpfirst f => some (w32 (encVpx 0x2e#7 f))
  | .vsel f => some (w32 (encVr 0x30#7 f))
  | .vperm f => some (w32 (encVr 0x31#7 f))
  | .vslideup f => some (w32 (encVsl 0x32#7 f))
  | .vslidedn f => some (w32 (encVsl 0x33#7 f))
  | .vzip f => some (w32 (encVr 0x34#7 f))
  | .vunzip f => some (w32 (encVr 0x35#7 f))
  | .vcompress f => some (w32 (encVu 0x36#7 f))
  | .vexpand f => some (w32 (encVu 0x37#7 f))
  | .vredsum f => some (w32 (encVu 0x38#7 f))
  | .vredmax f => some (w32 (encVu 0x39#7 f))
  | .vredmin f => some (w32 (encVu 0x3a#7 f))
  | .vscansum f => some (w32 (encVu 0x3b#7 f))
  | .vscanmax f => some (w32 (encVu 0x3c#7 f))
  | .vargmax f => some (w32 (encVu 0x3d#7 f))
  | .vbitonic f => some (w32 (encVbt 0x3e#7 f))
  | .vmulL6 f => some (w32 (encVl 0x40#7 f))
  | .vdotL6 f => some (w32 (encVl 0x41#7 f))
  | .vrand f => some (w32 (encVr 0x42#7 f))
  | .vld f => some (w32 (encVm 0x48#7 f))
  | .vst f => some (w32 (encVst 0x49#7 f))
  | .vstm f => some (w32 (encVsm 0x4a#7 f))
  | .vgather f => some (w32 (encVm 0x4b#7 f))
  | .vscatter f => some (w32 (encVsm 0x4c#7 f))
  | .ld f => some (w32 (encLd 0x4d#7 f))
  | .st f => some (w32 (encLs 0x4e#7 0#1 f))
  | .ldSc f => some (w32 (encLs 0x4f#7 1#1 f))
  | .stSc f => some (w32 (encLs 0x50#7 0#1 f))
  | .vpref f => some (w32 (encVpref 0x51#7 f))
  | .amoadd f => some (w32 (encVt 0x58#7 f.xd f.xs f.h f.xi f.scope f.ord))
  | .amomin f => some (w32 (encVt 0x59#7 f.xd f.xs f.h f.xi f.scope f.ord))
  | .amomax f => some (w32 (encVt 0x5a#7 f.xd f.xs f.h f.xi f.scope f.ord))
  | .amominu f => some (w32 (encVt 0x5b#7 f.xd f.xs f.h f.xi f.scope f.ord))
  | .amomaxu f => some (w32 (encVt 0x5c#7 f.xd f.xs f.h f.xi f.scope f.ord))
  | .amoand f => some (w32 (encVt 0x5d#7 f.xd f.xs f.h f.xi f.scope f.ord))
  | .amoor f => some (w32 (encVt 0x5e#7 f.xd f.xs f.h f.xi f.scope f.ord))
  | .amoxor f => some (w32 (encVt 0x5f#7 f.xd f.xs f.h f.xi f.scope f.ord))
  | .amoswap f => some (w32 (encVt 0x60#7 f.xd f.xs f.h f.xi f.scope f.ord))
  | .amocas f => some (w32 (encVt 0x61#7 f.xd f.xs f.h f.xi f.scope f.ord))
  | .amoSc f => some (w32 (encVt 0x62#7 f.xd f.xs f.h f.xi .package .acqRel))
  | .lda f => some (w32 (encVt 0x63#7 f.x 0 f.h f.xi f.scope .acquire))
  | .stl f => some (w32 (encVt 0x64#7 0 f.x f.h f.xi f.scope .release))
  | .vfence f => some (w32 (encVt 0x65#7 0 0 0 0 f.scope f.ord))
  | .cflush f => some (w32 (encVt 0x66#7 0 f.x f.h f.xi f.scope .relaxed))
  | .vamoadd f => some (w32 (encVv 0x68#7 f))
  | .vamomin f => some (w32 (encVv 0x69#7 f))
  | .vamomax f => some (w32 (encVv 0x6a#7 f))
  | .vredst f => some (w32 (encVv 0x6b#7 f))
  | .cldh f => some (w32 (encVh 0x70#7 f.ha f.hb f.xa 0 f.imm))
  | .csth f => some (w32 (encVh 0x71#7 f.ha f.hb f.xa 0 f.imm))
  | .cnarrow f => some (w32 (encVh 0x72#7 f.ha f.hb f.xa f.xb f.perm))
  | .cget f => some (w32 (encVh 0x73#7 0 f.hb f.xa 0 f.sel))
  | .cmov f => some (w32 (encVh 0x74#7 f.ha f.hb 0 0 0))
  | .cclr f => some (w32 (encVh 0x75#7 f 0 0 0 0))
  | .binit f => some (w32 (encVh 0x76#7 0 f.hb f.xa f.xb (0#6 ++ BitVec.ofBool f.u)))
  | .blink f => some (w32 (encVh 0x77#7 f.ha f.hb f.xa f.xb 0))
  | .barrive f => some (w32 (encVh 0x78#7 0 f.hb f.xa f.xb (0#4 ++ f.scope.code)))
  | .bwaitp f => some (w32 (encVh 0x79#7 0 f.hb f.xa f.xb (0#4 ++ f.scope.code)))
  | .oclaim f => some (encMo 0x1#6 f 0 0 0 0)
  | .orelease f => some (encMo 0x2#6 f 0 0 0 0)
  | .oload f => some (encMo 0x3#6 f.os 0 f.v f.row f.rstep)
  | .wload f => some (encMw 0x4#6 f)
  | .mzero f => some (encMt 0x5#6 f.md (0#1 ++ f.kind.code) 0 0 0)
  | .mmov f => some (encMt 0x6#6 f.md f.ms1 0 0 0)
  | .mrd f => some (encMo 0x7#6 0 f.md f.v f.row f.rstep)
  | .mwr f => some (encMo 0x8#6 0 f.md f.v f.row f.rstep)
  | .mmaF64 f => some (encMa 0x9#6 f)
  | .mmaF32 f => some (encMa 0xa#6 f)
  | .mmaBf16 f => some (encMa 0xb#6 f)
  | .mmaF16 f => some (encMa 0xc#6 f)
  | .mmaI8 f => some (encMa 0xd#6 f)
  | .mmaI4 f => some (encMa 0xe#6 f)
  | .mmaL6 f => some (encMa 0xf#6 f)
  | .mmaS24 f => some (encMa 0x10#6 f)
  | .mmaS14 f => some (encMa 0x11#6 f)
  | .mlrset f => some (encMt 0x12#6 f.md 0 0 f.os f.xs)
  | .mlrmul f => some (encMt 0x13#6 f.md f.ms1 f.ms2 0 0)
  | .mlrdm f => some (encMt 0x14#6 f.md f.ms1 f.ms2 0 0)
  | .mdmlr f => some (encMt 0x15#6 f.md f.ms1 f.ms2 0 0)
  | .mlradd f => some (encMt 0x16#6 f.md f.ms1 f.ms2 0 0)
  | .mrecomp f => some (encMt 0x17#6 f.md f.ms1 0 0 0)
  | .mdense f => some (encMt 0x18#6 f.md f.ms1 0 0 0)
  | .mrank f => some (encMt 0x19#6 0 f.ms1 0 0 f.xs)
  | .mbflyC64 f => some (encMt 0x1a#6 f.md f.ms1 0 0 f.xs)
  | .mbflyC128 f => some (encMt 0x1b#6 f.md f.ms1 0 0 f.xs)
  | .mbrev f => some (encMt 0x1c#6 f.md f.ms1 0 f.os 0)
  | .mtwmulC64 f => some (encMt 0x1d#6 f.md f.ms1 0 0 f.xs)
  | .mtwmulC128 f => some (encMt 0x1e#6 f.md f.ms1 0 0 f.xs)
  | .cjob f => some (encCj 1#6 f)
  | .cjobv f => some (2#6 ++ f.vs ++ f.xd ++ 0#47)
  | .cwpe f => some (encCj 3#6 f)
  | .cquery f => some (encCx 4#6 0 f.xa 0 f.xd)
  | .ccancel xa => some (encCx 5#6 0 xa 0 0)
  | .csignal f => some (encCx 6#6 f.h f.xa f.xb f.xd)
  | .cfence => some (encCx 7#6 0 0 0 0)
  | .xexpS24 f => some (w32 (encXr 1#5 f.vd f.vs f.dt.code 0))
  | .xexpS14 f => some (w32 (encXr 2#5 f.vd f.vs f.dt.code 0))
  | .xunpkL6 f => some (w32 (encXr 3#5 f.vd f.vs 0 0))
  | .xunpkI4 f => some (w32 (encXr 4#5 f.vd f.vs 0 0))
  | .xpackL6 f => some (w32 (encXr 5#5 f.vd f.vs 0 0))
  | .xpackI4 f => some (w32 (encXr 6#5 f.vd f.vs 0 0))
  | .xtr f => some (w32 (encXr 7#5 f.vd f.vs 0 (0#3 ++ BitVec.ofBool f.r)))
  | .xcvt f => some (w32 (encXr 8#5 f.vd f.vs f.dt.code f.st.code))
  | .xscale xs => some (w32 (9#5 ++ xs ++ 0#22))
  | .xscalei imm => some (w32 (0xA#5 ++ 0#5 ++ imm ++ 0#11))
  | _ => none

/-- The slots in which an operation may stand (R73 to R78): IDLE in the slot it names, an event in none. -/
def Instr.standsIn : Instr → List Slot
  | .beq _ | .bne _ | .blt _ | .bge _ | .bltu _ | .bgeu _ | .bpt _ | .bpf _ | .jmp _ | .call _ | .ret _ | .loop _
  | .loopW _ | .loopSp _ | .lend _ | .lbrk _ | .wait _ | .setfmt _ _ | .litset _ | .sstep | .iinv _ | .yield
  | .halt | .trap _ | .tret => [.b]
  | .lui _ | .auipc _ | .addi _ | .slti _ | .sltiu _ | .xori _ | .ori _ | .andi _ | .slli _ | .srli _ | .srai _
  | .add _ | .sub _ | .sll _ | .slt _ | .sltu _ | .xor _ | .srl _ | .sra _ | .or _ | .and _ | .addiw _ | .slliw _
  | .srliw _ | .sraiw _ | .addw _ | .subw _ | .sllw _ | .srlw _ | .sraw _ | .lb _ | .lh _ | .lw _ | .sld _ | .lbu _
  | .lhu _ | .lwu _ | .sb _ | .sh _ | .sw _ | .sd _ | .fence _ | .ecall | .ebreak | .mul _ | .mulh _ | .mulhsu _
  | .mulhu _ | .div _ | .divu _ | .rem _ | .remu _ | .mulw _ | .divw _ | .divuw _ | .remw _ | .remuw _ | .csrrw _
  | .csrrs _ | .csrrc _ | .csrrwi _ | .csrrsi _ | .csrrci _ => [.s]
  | .vadd _ | .vsub _ | .vmul _ | .vdiv _ | .vmin _ | .vmax _ | .vabs _ | .vneg _ | .vfma _ | .vfms _ | .vsqrt _
  | .vrcp _ | .vrsqrt _ | .vexp2 _ | .vlog2 _ | .vand _ | .vor _ | .vxor _ | .vnot _ | .vshl _ | .vshr _ | .vsra _
  | .vadds _ | .vsubs _ | .vmulh _ | .vbcast _ | .vmovx _ | .vmov _ | .viota _ | .vli _ | .vcmpEq _ | .vcmpNe _
  | .vcmpLt _ | .vcmpLe _ | .vcmpUn _ | .vcmpLtu _ | .vcmpLeu _ | .vpand _ | .vpor _ | .vpxor _ | .vpnot _
  | .vpset _ | .vpcnt _ | .vpfirst _ | .vsel _ | .vperm _ | .vslideup _ | .vslidedn _ | .vzip _ | .vunzip _
  | .vcompress _ | .vexpand _ | .vredsum _ | .vredmax _ | .vredmin _ | .vscansum _ | .vscanmax _ | .vargmax _
  | .vbitonic _ | .vmulL6 _ | .vdotL6 _ | .vrand _ | .vld _ | .vst _ | .vstm _ | .vgather _ | .vscatter _ | .ld _
  | .st _ | .ldSc _ | .stSc _ | .vpref _ | .amoadd _ | .amomin _ | .amomax _ | .amominu _ | .amomaxu _ | .amoand _
  | .amoor _ | .amoxor _ | .amoswap _ | .amocas _ | .amoSc _ | .lda _ | .stl _ | .vfence _ | .cflush _ | .vamoadd _
  | .vamomin _ | .vamomax _ | .vredst _ | .cldh _ | .csth _ | .cnarrow _ | .cget _ | .cmov _ | .cclr _ | .binit _
  | .blink _ | .barrive _ | .bwaitp _ => [.va, .vb]
  | .oclaim _ | .orelease _ | .oload _ | .wload _ | .mzero _ | .mmov _ | .mrd _ | .mwr _ | .mmaF64 _ | .mmaF32 _
  | .mmaBf16 _ | .mmaF16 _ | .mmaI8 _ | .mmaI4 _ | .mmaL6 _ | .mmaS24 _ | .mmaS14 _ | .mlrset _ | .mlrmul _
  | .mlrdm _ | .mdmlr _ | .mlradd _ | .mrecomp _ | .mdense _ | .mrank _ | .mbflyC64 _ | .mbflyC128 _ | .mbrev _
  | .mtwmulC64 _ | .mtwmulC128 _ => [.m]
  | .cjob _ | .cjobv _ | .cwpe _ | .cquery _ | .ccancel _ | .csignal _ | .cfence => [.ca, .cb]
  | .xexpS24 _ | .xexpS14 _ | .xunpkL6 _ | .xunpkI4 _ | .xpackL6 _ | .xpackI4 _ | .xtr _ | .xcvt _ | .xscale _
  | .xscalei _ => [.x]
  | .idle sl => if sl = .b ∨ sl = .s then [] else [sl]
  | _ => []

/-- The words of a bundle (R66): the head, then each slot's word, the low word of a 64-bit slot first. -/
def Bundle.words (b : Bundle) : List Word :=
  b.headWord :: b.slots.flatMap (fun (sl, w) => if sl.words = 2 then [w.setWidth 32, fld w 32 32] else [w.setWidth 32])

end Sys2Proof
end

