-- ==== Sys2Proof/Machine/Num.lean ====
section
/-! DEFINITION. Number formats and their arithmetic (R93 to R109): exact values, one rounding function, the IEEE flags,
L6, the accumulator element and the conversions. -/

namespace Sys2Proof.Machine

/-! ### Flags (R51): bit 4 invalid, 3 divide by zero, 2 overflow, 1 underflow, 0 inexact -/

abbrev Flags := BitVec 5
def flNone : Flags := 0
def flNV : Flags := 0x10#5
def flDZ : Flags := 0x08#5
def flOF : Flags := 0x04#5
def flUF : Flags := 0x02#5
def flNX : Flags := 0x01#5

/-! ### Floating-point formats (R93) -/

/-- Exponent and fraction widths of a binary format. -/
structure FpFmt where
  eb : Nat
  fb : Nat
  deriving DecidableEq, Repr

def fp64 : FpFmt := ⟨11, 52⟩
def w56 : FpFmt := ⟨11, 44⟩
def fp32 : FpFmt := ⟨8, 23⟩
def bf16 : FpFmt := ⟨8, 7⟩
def fp16 : FpFmt := ⟨5, 10⟩

namespace FpFmt
def width (f : FpFmt) : Nat := 1 + f.eb + f.fb
def bias (f : FpFmt) : Int := 2 ^ (f.eb - 1) - 1
/-- Exponent of the smallest normal value. -/
def emin (f : FpFmt) : Int := 1 - f.bias
def emax (f : FpFmt) : Int := f.bias
def expOnes (f : FpFmt) : Nat := 2 ^ f.eb - 1
def infBits (f : FpFmt) (neg : Bool) : Nat := (if neg then 2 ^ (f.eb + f.fb) else 0) + f.expOnes * 2 ^ f.fb
/-- The canonical NaN, sign 0 (R94). -/
def canonNaN (f : FpFmt) : Nat := f.expOnes * 2 ^ f.fb + 2 ^ (f.fb - 1)
def maxBits (f : FpFmt) (neg : Bool) : Nat := f.infBits neg - 1
def zeroBits (f : FpFmt) (neg : Bool) : Nat := if neg then 2 ^ (f.eb + f.fb) else 0
end FpFmt

/-- A value taken exactly: a NaN, an infinity, or (-1)^neg * m * 2^e. -/
inductive FVal where
  | nan (signalling : Bool)
  | inf (neg : Bool)
  | fin (neg : Bool) (m : Nat) (e : Int)
  deriving DecidableEq, Repr

/-- The value of a bit pattern (R93). -/
def FpFmt.decode (f : FpFmt) (b : Nat) : FVal :=
  let neg := b / 2 ^ (f.eb + f.fb) % 2 == 1
  let ex := b / 2 ^ f.fb % 2 ^ f.eb
  let fr := b % 2 ^ f.fb
  if ex = f.expOnes then
    if fr = 0 then .inf neg else .nan (fr / 2 ^ (f.fb - 1) == 0)
  else if ex = 0 then .fin neg fr (f.emin - f.fb)
  else .fin neg (fr + 2 ^ f.fb) ((ex : Int) - f.bias - f.fb)

/-- Whether a magnitude is rounded up in absolute value: its truncation is odd, the part cut off against one half, and
whether anything was cut off (R95). -/
def roundUp (rm : Rm) (neg odd : Bool) (cmpHalf : Ordering) (inexact : Bool) : Bool :=
  match rm with
  | .rne => cmpHalf == .gt || (cmpHalf == .eq && odd)
  | .rtz => false
  | .rup => inexact && !neg
  | .rdn => inexact && neg

/-- m * 2^e, a little more when `sticky`, rounded to a multiple of 2^q: the multiple and whether it is inexact. -/
def roundTo (rm : Rm) (neg : Bool) (m : Nat) (e : Int) (sticky : Bool) (q : Int) : Nat × Bool :=
  if q ≤ e then
    let n := m * 2 ^ (e - q).toNat
    (if roundUp rm neg (n % 2 == 1) .lt sticky then n + 1 else n, sticky)
  else
    let d := 2 ^ (q - e).toNat
    let n := m / d
    let r := m % d
    let inexact := sticky || r != 0
    let c := if 2 * r < d then Ordering.lt else if 2 * r == d && !sticky then .eq else .gt
    (if roundUp rm neg (n % 2 == 1) c inexact then n + 1 else n, inexact)

/-- The overflow result of R95. -/
def FpFmt.overflow (f : FpFmt) (rm : Rm) (neg : Bool) : Nat :=
  match rm with
  | .rne => f.infBits neg
  | .rtz => f.maxBits neg
  | .rup => if neg then f.maxBits true else f.infBits false
  | .rdn => if neg then f.infBits true else f.maxBits false

/-- One rounding of (-1)^neg * m * 2^e, with `sticky` for a positive amount too small to show, into a format, and its
flags (R94, R95; tininess after rounding). -/
def FpFmt.round (f : FpFmt) (rm : Rm) (neg : Bool) (m : Nat) (e : Int) (sticky : Bool := false) : Nat × Flags :=
  if m = 0 then
    if sticky then
      let (n, _) := roundTo rm neg 0 (f.emin - f.fb) true (f.emin - f.fb)
      (f.zeroBits neg + n, flUF ||| flNX)
    else (f.zeroBits neg, 0)
  else
    let top : Int := (Nat.log2 m : Int) + e
    let q := max top f.emin - f.fb
    let (n, inexact) := roundTo rm neg m e sticky q
    let (n, q) := if n = 2 ^ (f.fb + 1) then (n / 2, q + 1) else (n, q)
    if 2 ^ f.fb ≤ n ∧ f.emax < q + f.fb then (f.overflow rm neg, flOF ||| flNX)
    else
      let tiny := decide (top < f.emin) &&
        (let (n', _) := roundTo rm neg m e sticky (top - f.fb)
         !(n' == 2 ^ (f.fb + 1) && top + 1 == f.emin))
      let bits := if n < 2 ^ f.fb then n else (q + f.fb + f.bias).toNat * 2 ^ f.fb + (n - 2 ^ f.fb)
      (f.zeroBits neg + bits, (if inexact then flNX else 0) ||| (if tiny && inexact then flUF else 0))

/-- A value with the flags found in forming it, rounded into a format. -/
def FpFmt.put (f : FpFmt) (rm : Rm) (v : FVal × Flags) : Nat × Flags :=
  match v with
  | (.nan _, fl) => (f.canonNaN, fl)
  | (.inf neg, fl) => (f.infBits neg, fl)
  | (.fin neg m e, fl) => let (b, g) := f.round rm neg m e; (b, fl ||| g)

namespace FVal

def isNaN : FVal → Bool
  | .nan _ => true
  | _ => false

def isSig : FVal → Bool
  | .nan s => s
  | _ => false

def isNeg : FVal → Bool
  | .nan _ => false
  | .inf n => n
  | .fin n _ _ => n

def neg : FVal → FVal
  | .nan s => .nan s
  | .inf n => .inf (!n)
  | .fin n m e => .fin (!n) m e

/-- +0, exactly. -/
def zero : FVal := .fin false 0 0

/-- A signed integer times 2^e. -/
def ofInt (i e : Int) : FVal := .fin (decide (i < 0)) i.natAbs e

/-- m * 2^e as a signed mantissa over a lower exponent. -/
def mant (n : Bool) (m : Nat) (e e0 : Int) : Int :=
  let v : Int := (m * 2 ^ (e - e0).toNat : Nat)
  if n then -v else v

/-- Invalid for a signalling operand (R94). -/
def sigFlag (a b : FVal) : Flags := if a.isSig || b.isSig then flNV else 0

/-- The exact sum: an exact zero of unlike signs is +0, or -0 under RDN (IEEE 754-2019). -/
def add (rm : Rm) (a b : FVal) : FVal × Flags :=
  match a, b with
  | .nan _, _ | _, .nan _ => (.nan false, sigFlag a b)
  | .inf x, .inf y => if x = y then (.inf x, 0) else (.nan false, flNV)
  | .inf x, _ => (.inf x, 0)
  | _, .inf y => (.inf y, 0)
  | .fin na ma ea, .fin nb mb eb =>
    let e := min ea eb
    let s := mant na ma ea e + mant nb mb eb e
    if s = 0 then (.fin (if na = nb then na else rm == .rdn) 0 0, 0) else (ofInt s e, 0)

/-- The exact product. -/
def mul (a b : FVal) : FVal × Flags :=
  match a, b with
  | .nan _, _ | _, .nan _ => (.nan false, sigFlag a b)
  | .inf x, .inf y => (.inf (x != y), 0)
  | .inf x, .fin n m _ | .fin n m _, .inf x => if m = 0 then (.nan false, flNV) else (.inf (x != n), 0)
  | .fin na ma ea, .fin nb mb eb => (.fin (na != nb) (ma * mb) (ea + eb), 0)

/-- Compare two values that are not NaN; -0 equals +0. -/
def cmp (a b : FVal) : Ordering :=
  match a, b with
  | .inf x, .inf y => if x = y then .eq else if x then .lt else .gt
  | .inf x, _ => if x then .lt else .gt
  | _, .inf y => if y then .gt else .lt
  | .fin na ma ea, .fin nb mb eb =>
    let e := min ea eb
    compare (mant na ma ea e) (mant nb mb eb e)
  | _, _ => .eq

end FVal

/-- Rounded sum, product, fused forms (R147). -/
def FpFmt.addR (f : FpFmt) (rm : Rm) (a b : FVal) : Nat × Flags := f.put rm (a.add rm b)
def FpFmt.mulR (f : FpFmt) (rm : Rm) (a b : FVal) : Nat × Flags := f.put rm (a.mul b)
/-- rnd(a * b + d), one rounding. DESIGN CHOICE (log 86): infinity times zero raises invalid beside a quiet NaN addend too, which
IEEE 754-2019 leaves open. -/
def FpFmt.fmaR (f : FpFmt) (rm : Rm) (a b d : FVal) : Nat × Flags :=
  let (p, fl) := a.mul b
  let (s, fl') := p.add rm d
  f.put rm (s, fl ||| fl' ||| (if d.isSig then flNV else 0))

/-- The square root of a Nat, rounded down, by bits from `k` downwards. -/
def isqrtGo : Nat → Nat → Nat → Nat
  | 0, _, r => r
  | k + 1, n, r =>
    let t := r + 2 ^ k
    isqrtGo k n (if t * t ≤ n then t else r)

def isqrt (n : Nat) : Nat := isqrtGo (Nat.log2 n / 2 + 1) n 0

/-- A quotient of dyadic magnitudes as a mantissa with sticky bit, over at least `prec` bits. -/
def divSticky (prec ma mb : Nat) (e : Int) : Nat × Int × Bool :=
  let sh := prec + Nat.log2 mb + 1
  (ma * 2 ^ sh / mb, e - sh, ma * 2 ^ sh % mb != 0)

/-- rnd(a / b). -/
def FpFmt.divR (f : FpFmt) (rm : Rm) (a b : FVal) : Nat × Flags :=
  match a, b with
  | .nan _, _ | _, .nan _ => (f.canonNaN, FVal.sigFlag a b)
  | .inf x, .inf _ => let _ := x; (f.canonNaN, flNV)
  | .inf x, .fin n _ _ => (f.infBits (x != n), 0)
  | .fin n _ _, .inf y => (f.zeroBits (n != y), 0)
  | .fin na ma ea, .fin nb mb eb =>
    if mb = 0 then
      if ma = 0 then (f.canonNaN, flNV) else (f.infBits (na != nb), flDZ)
    else if ma = 0 then (f.zeroBits (na != nb), 0)
    else
      let (m, e, st) := divSticky (f.fb + 8) ma mb (ea - eb)
      f.round rm (na != nb) m e st

/-- Square root of a positive dyadic m * 2^e, as mantissa, exponent and sticky bit over about `prec` bits. -/
def sqrtSticky (prec m : Nat) (e : Int) : Nat × Int × Bool :=
  let sh := 2 * prec + 2
  let (m, e) := if (e - sh) % 2 = 0 then (m * 2 ^ sh, e - sh) else (m * 2 ^ (sh + 1), e - sh - 1)
  let r := isqrt m
  (r, e / 2, r * r != m)

/-- rnd(sqrt(a)). -/
def FpFmt.sqrtR (f : FpFmt) (rm : Rm) (a : FVal) : Nat × Flags :=
  match a with
  | .nan s => (f.canonNaN, if s then flNV else 0)
  | .inf n => if n then (f.canonNaN, flNV) else (f.infBits false, 0)
  | .fin n m e =>
    if m = 0 then (f.zeroBits n, 0)
    else if n then (f.canonNaN, flNV)
    else
      let (r, e', st) := sqrtSticky (f.fb + 8) m e
      f.round rm false r e' st

/-- rnd(1 / sqrt(a)): 1 / sqrt(m * 2^e) is the root of 2^(-e) / m, whose quotient's sticky bit carries over. -/
def FpFmt.rsqrtR (f : FpFmt) (rm : Rm) (a : FVal) : Nat × Flags :=
  match a with
  | .nan s => (f.canonNaN, if s then flNV else 0)
  | .inf n => if n then (f.canonNaN, flNV) else (f.zeroBits false, 0)
  | .fin n m e =>
    if m = 0 then (f.infBits n, flDZ)
    else if n then (f.canonNaN, flNV)
    else
      let (qm, qe, s1) := divSticky (4 * f.fb + 32) 1 m (-e)
      let (r, e', s2) := sqrtSticky (f.fb + 8) qm qe
      f.round rm false r e' (s1 || s2)

/-- minimumNumber and maximumNumber (R147). -/
def FpFmt.minMax (f : FpFmt) (isMax : Bool) (ba bb : Nat) : Nat × Flags :=
  let a := f.decode ba
  let b := f.decode bb
  let fl := FVal.sigFlag a b
  if a.isNaN then (if b.isNaN then f.canonNaN else bb, fl)
  else if b.isNaN then (ba, fl)
  else
    let lt := match a.cmp b with
      | .lt => true
      | .gt => false
      | .eq => a.isNeg && !b.isNeg
    (if lt == isMax then bb else ba, fl)

/-- Rounded to an integer (R107). -/
def FVal.toInt (rm : Rm) : FVal → Option (Int × Bool)
  | .fin n m e => let (k, ix) := roundTo rm n m e false 0; some (if n then -(k : Int) else k, ix)
  | _ => none

/-! ### Integer helpers (R109) -/

/-- sext(x, n) -/
def sext (x n : Nat) : Int :=
  let r := x % 2 ^ n
  if n ≠ 0 ∧ 2 ^ (n - 1) ≤ r then (r : Int) - 2 ^ n else r

/-- zext(x, n) of an integer -/
def zext (x : Int) (n : Nat) : Nat := (x % (2 ^ n : Nat)).toNat

/-- sat(x, n) -/
def sat (x : Int) (n : Nat) : Int := max (-(2 ^ (n - 1) : Nat)) (min ((2 ^ (n - 1) : Nat) - 1) x)

/-! ### L6 (R98 to R101, R108) -/

/-- The product table T of R98. -/
def l6T (f : Nat) : Nat :=
  match f with
  | 0 => 4096 | 1 => 4871 | 2 => 5793 | _ => 6889

/-- Architected magnitude of code m in units of 2^-16 of T: T[f] * 2^(i - 16). -/
def l6Mag (m : Nat) : Nat × Int := if m = 0 then (0, 0) else (l6T (m % 4), (m / 4 : Nat) - 16)

/-- The architected value of a code (R98, R99); container bits above 5 are ignored (R100). -/
def l6Decode (c : Nat) : FVal :=
  let s := c / 32 % 2 == 1
  let m := c % 32
  if m = 0 then (if s then .nan false else .zero) else let (t, e) := l6Mag m; .fin s t e

/-- l6mul of R101, in units of 2^-24; none is NaR. -/
def l6mul (a b : Nat) : Option Int :=
  let sa := a / 32 % 2
  let ma := a % 32
  let sb := b / 32 % 2
  let mb := b % 32
  if (sa = 1 ∧ ma = 0) ∨ (sb = 1 ∧ mb = 0) then none
  else if ma = 0 ∨ mb = 0 then some 0
  else
    let q := ma + mb
    let mag : Int := (l6T (q % 4) * 2 ^ (q / 4 + 4) : Nat)
    some (if sa = sb then mag else -mag)

/-- Compare |x| = m * 2^e with twice-scaled magnitudes: 2 * |x| against t, both times 2^-64 units. -/
def l6Scale (m : Nat) (e : Int) : Nat × Bool :=
  -- |x| in units of 2^-32 with a sticky bit
  if 0 ≤ e + 32 then (m * 2 ^ (e + 32).toNat, false)
  else (m / 2 ^ (-(e + 32)).toNat, m % 2 ^ (-(e + 32)).toNat != 0)

/-- A code's magnitude in units of 2^-32. -/
def l6Units (m : Nat) : Nat := if m = 0 then 0 else l6T (m % 4) * 2 ^ (m / 4 + 16)

/-- The largest code whose magnitude is at most u units, downwards from k. -/
def l6Floor : Nat → Nat → Nat
  | 0, _ => 0
  | k + 1, u => if l6Units (k + 1) ≤ u then k + 1 else l6Floor k u

/-- R108: a finite value to an L6 code, with flags. -/
def l6Round (rm : Rm) (neg : Bool) (m : Nat) (e : Int) : Nat × Flags :=
  if m = 0 then (0, 0)
  else
    let (u, st) := if 2 ^ 8 < (Nat.log2 m : Int) + e then (2 ^ 60, false) else l6Scale m e
    let sgn := if neg then 32 else 0
    if l6Units 31 < u ∨ (u = l6Units 31 ∧ st) then (sgn + 31, flOF ||| flNX)
    else
      let k := l6Floor 31 u
      if u = l6Units k ∧ !st then (if k = 0 then 0 else sgn + k, 0)
      else
        let lo := l6Units k
        let hi := l6Units (k + 1)
        let up : Bool := match rm with
          | .rne =>
            let d := 2 * u
            if lo + hi < d then true
            else if d < lo + hi then false
            else st || k % 2 == 1
          | .rtz => false
          | .rup => !neg
          | .rdn => neg
        let r := if up then k + 1 else k
        if r = 0 then (0, flUF ||| flNX) else (sgn + r, flNX)

/-! ### Formats of R72 -/

/-- Element width in bits (R139, R97, R100: an L6 container has 8). -/
def Fmt.width : Fmt → Nat
  | .f64 | .i64 => 64
  | .f32 | .i32 => 32
  | .bf16 | .f16 | .i16 => 16
  | .i8 | .l6 => 8
  | .i4 => 4

/-- The binary format of a float type. -/
def Fmt.fp : Fmt → FpFmt
  | .f64 => fp64
  | .f32 => fp32
  | .bf16 => bf16
  | _ => fp16

/-- The value of an element of a type, taken exactly (R107). -/
def fmtDecode (t : Fmt) (b : Nat) : FVal :=
  match t with
  | .f64 | .f32 | .bf16 | .f16 => (Fmt.fp t).decode b
  | .l6 => l6Decode b
  | t => .ofInt (sext b (Fmt.width t)) 0

/-- cvt into a type of R72 (R107, R108): bits and IEEE flags. -/
def cvtTo (t : Fmt) (rm : Rm) (v : FVal) : Nat × Flags :=
  let nv := if v.isSig then flNV else 0
  match t with
  | .f64 | .f32 | .bf16 | .f16 => (Fmt.fp t).put rm (v, nv)
  | .l6 =>
    match v with
    | .nan _ => (0x20, nv)
    | .inf _ => (0x20, flNV)
    | .fin n m e => l6Round rm n m e
  | t =>
    let n := Fmt.width t
    match v with
    | .nan _ => (0, flNV)
    | .inf neg => (zext (if neg then -(2 ^ (n - 1) : Nat) else (2 ^ (n - 1) : Nat) - 1) n, flNV)
    | .fin ng m e =>
      let (k, ix) := roundTo rm ng m e false 0
      let i : Int := if ng then -(k : Int) else k
      let r := sat i n
      (zext r n, if r ≠ i then flNV else if ix then flNX else 0)

/-! ### The accumulator element (R102, R104, R106) -/

/-- Flags of an element in W56 or X56 mode, as bits [59:56]: SAT, NAN, INX, OVF. -/
abbrev EFlags := BitVec 4
def efSAT : EFlags := 8
def efNAN : EFlags := 4
def efINX : EFlags := 2
def efOVF : EFlags := 1

/-- Element flags of a rounding into W56 (R102): inexact, overflow, a NaN produced. -/
def efOf (bits : Nat) (fl : Flags) : EFlags :=
  (if fl &&& flNX ≠ 0 then efINX else 0) ||| (if fl &&& flOF ≠ 0 then efOVF else 0) |||
    (if (w56.decode bits).isNaN then efNAN else 0)

/-- An element's VAL and flag bits. -/
def elemVal (d : DWord) : Nat := d.toNat % 2 ^ 56
def elemFlags (d : DWord) : EFlags := d.extractLsb' 56 4
def mkElem (fl : EFlags) (val : Nat) : DWord := (0#4 ++ fl ++ BitVec.ofNat 56 val : BitVec 64)

/-- The terms hold both infinities. -/
def opposed (l : List (FVal × Flags)) : Bool := l.any (·.1 == .inf false) && l.any (·.1 == .inf true)

/-- The exact sum of a list of products, starting at +0 (R104, R226). DESIGN CHOICE (log 86): opposite infinities raise invalid
wherever a NaN term stands among them. -/
def sumVals (rm : Rm) (l : List (FVal × Flags)) : FVal × Flags :=
  let (v, fl) := l.foldl (fun (s, fl) (p, g) => let (s', h) := s.add rm p; (s', fl ||| g ||| h)) (.zero, 0)
  (v, fl ||| (if opposed l then flNV else 0))

/-- A list cut into groups of four, in order. -/
def groups4 {α : Type} : List α → List (List α)
  | a :: b :: c :: d :: rest => [a, b, c, d] :: groups4 rest
  | [] => []
  | l => [l]

/-- One group of R104 in F64 mode: acc := rnd(acc + rnd(s)). -/
def accF64 (rm : Rm) (acc : Nat × Flags) (s : FVal × Flags) : Nat × Flags :=
  let (b, f1) := fp64.put rm s
  let (r, f2) := fp64.addR rm (fp64.decode acc.1) (fp64.decode b)
  (r, acc.2 ||| f1 ||| f2)

/-- One group of R104 in W56 mode: the flags collect in the element. -/
def accW56 (rm : Rm) (acc : Nat × EFlags) (s : FVal × Flags) : Nat × EFlags :=
  let (b, f1) := w56.put rm s
  let (r, f2) := w56.addR rm (w56.decode acc.1) (w56.decode b)
  (r, acc.2 ||| efOf b f1 ||| efOf r f2)

/-- One group of R104 in X56 mode; `nan` marks a NaR or NaN product of the group. -/
def accX56 (acc : Int × EFlags) (s : Int) (nan : Bool) : Int × EFlags :=
  let t := acc.1 + s
  let r := sat t 56
  (r, acc.2 ||| (if nan then efNAN else 0) ||| (if r ≠ t then efSAT ||| efOVF else 0))

/-- The lrdot of R212 over FP64 patterns, with the flags raised. -/
def lrdot (rm : Rm) (x y : List Nat) : Nat × Flags :=
  let prods := (x.zip y).map (fun (a, b) => (fp64.decode a).mul (fp64.decode b))
  (groups4 prods).foldl (fun acc g => accF64 rm acc (sumVals rm g)) (0, 0)

/-! ### Vectors as lists of elements (R139) -/

/-- Element j of width e. -/
def elemOf (e : Nat) (v : Nat) (j : Nat) : Nat := v / 2 ^ (e * j) % 2 ^ e

/-- The elements of width e of a register, element 0 first. -/
def elems (e : Nat) (v : Vec) : List Nat := (List.range (1024 / e)).map (elemOf e v.toNat)

/-- A register from its elements. -/
def packNat (e : Nat) : List Nat → Nat
  | [] => 0
  | x :: xs => x % 2 ^ e + 2 ^ e * packNat e xs

def packVec (e : Nat) (l : List Nat) : Vec := BitVec.ofNat 1024 (packNat e l)

/-- The mask of the elements that a list of flags selects. -/
def maskVec (e : Nat) (act : List Bool) : Vec := packVec e (act.map (fun b => if b then 2 ^ e - 1 else 0))

/-- Element j of width e (bits) is active when bit j * e / 8 of the predicate is set (R43). -/
def activeList (e : Nat) (p : Pred) : List Bool := (List.range (1024 / e)).map (fun j => p.getLsbD (j * e / 8))

/-- Predicate bits from one truth value an element (R140). -/
def predOf (e : Nat) (l : List Bool) : Pred := BitVec.ofNat 128 (packNat (e / 8) (l.map (fun b => if b then 2 ^ (e / 8) - 1 else 0)))

end Sys2Proof.Machine
end

