-- ==== Sys2Proof/Config.lean ====
section
/-! DEFINITION. What an implementation of the PN-8 fixes and the values the manual leaves free: constants with no body,
so that nothing can be proved about their values. -/

namespace Sys2Proof.Config

/-- A free value, indexed by the counter `State.free` (log 4): a value the manual leaves open after an operation. -/
opaque freeWord : Nat → BitVec 1024

/-- The 256-bit weight key of a die, generated inside the die and never read out (R295, R349). -/
opaque weightKey : Nat → BitVec 256

/-- The output length that the KMAC256 of R295 is asked for: SP 800-185 mixes it into the input, R295 takes the first 64 bits
of the output and does not give it (log 9). -/
opaque kmacLength : Nat

/-- A key the device generates at the n-th key generation (R351, R353). -/
opaque genKey : Nat → BitVec 256

/-- The seed of the package's identity key, which is never read out (R349, R359), and the 32 random bytes that FIPS 204 lets a
signer draw for a message (log 9). -/
opaque identitySeed : List (BitVec 8)
opaque signRandom : List (BitVec 8) → List (BitVec 8)

/-- The public key of images, held in fuses (R379). -/
opaque fusedKey : List (BitVec 8)

/-- The digest of the Uberakel image that the flash holds at first power-up, and of the boot ROM (R360, R379). -/
opaque flashDigest : BitVec 512
opaque romDigest : BitVec 512

/-- The identity certificate chain provisioned at manufacture (R359), by its digest. -/
opaque certDigest : BitVec 512

/-- Straps and fuses, measured with WPELIM in measurement block 3 (R360). -/
opaque strapsFuses : List (BitVec 8)

/-- The temperatures that PLDM reports (R382), by the free counter. -/
opaque temperature : Nat → BitVec 16

/-- Dies of the package form (R1). -/
def dies : Nat := 8
/-- Clusters of a die and cores of a cluster (R3, R18). -/
def clusters : Nat := 12
def coresPerCluster : Nat := 8
def coresPerDie : Nat := 96
def cores : Nat := 768

end Sys2Proof.Config
end

