-- ==== Sys2Proof/Machine/CoreState.lean ====
section
/-! DEFINITION. The state of one core with its resident task, as plain data (R41 to R60), in the parts the spec names:
register files, CSRs, timing state, issue state, outstanding accesses and code. -/

namespace Sys2Proof.Machine

/-! ### Results on their way to a register or array -/

/-- A CSR's pending write: bits of `mask` take `val`; bits of `clear` are write-one-to-clear bits set in the source
(R117). -/
structure CsrWrite where
  num : BitVec 12
  mask : DWord
  val : DWord
  clear : DWord
  deriving DecidableEq, Repr

/-- What a result writes at its boundary (R52). Vector and predicate registers are physical (R42). -/
inductive Write where
  | x (r : XReg) (v : DWord)
  /-- bits of `mask` take the bits of `val` -/
  | v (phys : Nat) (mask val : Vec)
  | p (phys : Nat) (mask val : Pred)
  | h (r : HReg) (val : Cap) (tag : Bool)
  /-- the same with poison marks on what is written (R428, R430) -/
  | xMarked (r : XReg) (v : DWord)
  | vMarked (phys : Nat) (mask val : Vec) (marks : BitVec 16)
  | hMarked (r : HReg) (val : Cap) (tag : Bool)
  | csr (w : CsrWrite)
  | mpc (v : BitVec 48)
  | claim (os : OSlot)
  | release (os : OSlot)
  /-- one 128-byte row of an operand slot (R190) -/
  | row (os : OSlot) (row : BitVec 6) (val : Vec)
  /-- a tile written whole by MZERO or MMOV (R193) -/
  | tile (md : MReg) (kind : TileKind) (rank : Nat) (panels : List Nat) (elems u v : List DWord)
  /-- one 16-element row of a tile (R194), which an empty tile becomes dense for -/
  | tileRow (md : MReg) (row : BitVec 6) (panels : List Nat) (val : Vec)
  /-- only flags -/
  | none
  deriving DecidableEq, Repr

/-- A pending result: boundaries until it is due, the slot of its operation, the IEEE flags raised with it (R52, R96). -/
structure Pend where
  rem : Nat
  /-- its latency, by which a transform's unit is known: 6 expand, 12 transpose, 4 convert (R232) -/
  lat : Nat
  slot : Slot
  /-- a result of the transform units (R52, R54) -/
  xform : Bool
  w : Write
  flags : BitVec 5
  deriving DecidableEq, Repr

/-! ### Tiles, operand slots and the engine -/

/-- A tile register with its contents and panel map (R44, R207, R220). `u` and `v` hold the factor columns one after
another, 32 elements each. -/
structure Tile where
  kind : TileKind
  rank : Nat
  panels : List Nat
  elems : List DWord
  u : List DWord
  v : List DWord
  deriving DecidableEq, Repr

/-- What an engine operation delivers: blocks for the port, exact L6 partials that take their exponent there (R106; a
flag marks a NaR), or a low-rank tile written whole at retire (R209). -/
inductive EngRes where
  | blocks (kind : TileKind) (elems : List DWord)
  | scaled (parts : List (Int × Bool)) (acc : List DWord)
  | whole (rank : Nat) (u v : List DWord)
  deriving DecidableEq, Repr

/-- An engine operation outstanding (R199, R209). `left` counts the cycles to its retire boundary, so that block
8 - left stands at the port while 1 ≤ left ≤ 8; it has started when left ≤ dur + 8. -/
structure EngOp where
  left : Nat
  dur : Nat
  /-- it has started -/
  begun : Bool
  /-- blocks written into the tile -/
  done : Nat
  md : MReg
  /-- tile registers read -/
  tiles : List MReg
  /-- operand slots read, locked until the operation has read them -/
  slots : List OSlot
  lastRead : List OSlot
  /-- panels reserved for the result (R46) -/
  reserved : List Nat
  rm : Rm
  res : EngRes
  /-- IEEE flags of the eight blocks in F64 mode (R96), or of the whole operation when `atRetire` -/
  flags : List (BitVec 5)
  atRetire : Bool
  /-- MBFLY's block exponent: register and value (R225) -/
  xdest : Option (XReg × DWord)
  deriving DecidableEq, Repr

/-- A WLOAD filling its slot (R191, R192): its place in program order; `rem` is the fill count. -/
structure Fill where
  id : Nat
  os : OSlot
  rem : Nat
  /-- WGT address of the first block -/
  addr : Nat
  /-- blocks deposited so far -/
  done : List Nat
  deriving DecidableEq, Repr

/-- An exponent on its way through the scale adder (R201); at `rem` 0 its execute cycle has just ended. -/
structure ScaleEntry where
  rem : Nat
  e : Int
  deriving DecidableEq, Repr

/-- An operand slot's own state (R47, R187); its data and side store are memory spaces of the core. -/
structure SlotSt where
  claimed : Bool
  verified : BitVec 32
  /-- poison marks of the 64 rows (R427) -/
  marks : BitVec 64
  deriving DecidableEq, Repr

/-- The transpose unit (R237): rows of bank 0 and bank 1, counter and bank bit. -/
structure Xtr where
  bank0 : List Vec
  bank1 : List Vec
  trc : BitVec 5
  b : Bool
  deriving DecidableEq, Repr

/-! ### Outstanding accesses -/

/-- Where a load's data go (R53, R169, R179). -/
inductive LoadDest where
  | v (phys : Nat)
  | x (r : XReg)
  | h (r : HReg)
  deriving DecidableEq, Repr

/-- A landing entry (R53). `srcs` are the single-copy atomic units read (R263): byte offset within the 128 data bytes, byte
address, length. -/
structure Landing where
  id : Nat
  rem : Nat
  dest : LoadDest
  slot : Slot
  cap : Cap
  srcs : List (Nat × Nat × Nat)
  /-- bytes of the destination that the load writes (R140, R174) -/
  mask : Vec
  data : Vec
  /-- poison marks of the data, by doubleword (R428) -/
  marks : BitVec 16
  /-- units whose data have not been taken yet -/
  left : List Nat
  sampled : Bool
  arrived : Bool
  /-- a lost home has raised 0xE6 for it (R451) -/
  refused : Bool
  /-- LD.SC: its rank (R274); it acts as acquire and release at package scope -/
  rank : Option Nat
  /-- MSTAT.NARROW is set when it is written (R266) -/
  narrow : Bool
  deriving DecidableEq, Repr

/-- A release that a location's last write carries: its scope and the location code of its core (R264, R265), whose PKG is
none for this package. -/
structure Rel where
  scope : Scope
  pkg : Option (BitVec 10)
  core : Nat
  deriving DecidableEq, Repr

/-- A vector clock: one counter a die (R271). -/
abbrev Clock := List Nat

/-- The scalar atomics of R178. -/
inductive AmoOp where
  | add | min | max | minu | maxu | and | or | xor | swap | cas
  deriving DecidableEq, Repr

/-- The element operations of R183 and R184. -/
inductive VamoOp where
  | add | min | max | redst
  deriving DecidableEq, Repr

/-- An access that has issued and that the memory system has not completed (R57, R174, R178, R179, R180, R183). -/
inductive AccKind where
  /-- bytes to store, by byte address in the capability's space, in the order of their effect -/
  | store (bytes : List (Nat × Byte))
  /-- a 32-byte granule with its tag (R169) -/
  | csth (val : Cap) (tag : Bool)
  | cldh (ha : HReg)
  | lda (xd : XReg)
  | amo (op : AmoOp) (xd : XReg) (src cmp : DWord)
  /-- element operation: active lanes, offsets, data, physical register that takes old values, next element -/
  | vamo (op : VamoOp) (phys : Nat) (active : BitVec 32) (offs : List Nat) (data : Vec) (next : Nat) (rm : Rm)
  | cflush (len : Nat) (scope : Scope)
  deriving DecidableEq, Repr

/-- An outstanding access: `id` is its place in the task's program order, `addr` its byte address in the capability's
space, `off` the offset for TVAL. -/
structure Access where
  id : Nat
  kind : AccKind
  cap : Cap
  addr : Nat
  off : Nat
  slot : Slot
  acq : Option Scope
  /-- it waits for every earlier access, as a release does -/
  rel : Option Scope
  /-- scope of the release that its write carries, its own or a fence's (R265) -/
  carries : Option Scope
  /-- rank of an SC operation (R274) -/
  rank : Option Nat
  /-- bytes of a single-copy atomic unit of a store (R263), and the units sent to their home or performed there -/
  unit : Nat
  done : List Nat
  /-- all of it has been sent or performed; it waits for the acknowledgement -/
  performed : Bool
  /-- a part has been refused and its cause deferred (R423) -/
  refused : Bool
  /-- releases that elements of a vector atomic have read (R182, R266) -/
  rels : List Rel
  /-- the answer of a home on another die: the old value, if the atomic was applied, the releases it read there and the
  home's clock (R271) -/
  reply : Option (Option DWord × List Rel × Clock)
  /-- counted in CNT.ST (R57) -/
  counted : Bool
  deriving DecidableEq, Repr

/-- A VFENCE that still orders accesses (R179). -/
structure FenceMark where
  id : Nat
  ord : Ord
  scope : Scope
  /-- HOST and PEER copies are to go once the earlier loads have their data (R254, R272) -/
  far : Bool
  deriving DecidableEq, Repr

/-- A request at a barrier unit (R282). -/
inductive BarReq where
  | init (xb : DWord) (u : Bool)
  | link (parent : Cap) (poff : Nat)
  | arrive (xb : XReg) (scope : Scope)
  deriving DecidableEq, Repr

/-- A barrier request that waits for its answer (R282). -/
structure BarWait where
  id : Nat
  req : BarReq
  cap : Cap
  off : Nat
  slot : Slot
  /-- REP of the bundle, for TSLOT of a refusal (R386) -/
  rep : Nat
  deriving DecidableEq, Repr

/-- A line held in a slice or an L1 (R252): key of its first byte, contents, poison marks and tags of its granules.
`mask` names the bytes of a HOST or PEER line that its home does not have yet (R253), and `stream` the key slot through which
they go (R341). `rels` are the releases that its bytes carry, as the line took them (R266). -/
structure CLine where
  key : Nat
  bytes : List Byte
  marks : BitVec 8
  tags : BitVec 8
  dirty : Bool
  mask : BitVec 256
  stream : Nat
  rels : List (Nat × List Rel)
  deriving DecidableEq, Repr

/-! ### Issue and timing state -/

/-- A standing operation with its stepped offset, where its form has one (R56, R68, R70). -/
structure Standing where
  op : Instr
  off : Option (BitVec 48)
  deriving DecidableEq, Repr

/-- The standing operations of the six sticky slots. -/
structure StandSet where
  va : Option Standing
  vb : Option Standing
  m : Option Standing
  ca : Option Standing
  cb : Option Standing
  x : Option Standing
  deriving DecidableEq, Repr

/-- Pending FMT.ACC and FMT.RM with the cycles until they rule (R55). -/
structure FmtShadow where
  acc : Acc
  rm : Rm
  rem : Nat
  deriving DecidableEq, Repr

/-- Timing state and issue state that trap entry banks (R52 to R56, R58, R238). `issue` is the number of the current
bundle's next issue (R69). -/
structure Timing where
  pend : List Pend
  landing : List Landing
  eng : List EngOp
  fills : List Fill
  scale : List ScaleEntry
  shadow : Option FmtShadow
  xtr : Xtr
  stand : StandSet
  issue : Nat
  deriving DecidableEq, Repr

/-- The second bank (R58, R386, R389): what entry banked, the number of active loop levels, the TPC written at entry,
the cause and any vector atomic to be re-issued. -/
structure Bank where
  t : Timing
  loops : Nat
  tpc : BitVec 48
  replay : Option Access
  cause : BitVec 8
  deriving DecidableEq, Repr

/-- A loop level (R51, R124): `trip` is the kept t of R126 and `max` the loop's bound. KIND 0 is inactive. -/
structure LoopLv where
  kind : BitVec 2
  stg : BitVec 3
  start : BitVec 16
  fin : BitVec 16
  iter : BitVec 27
  trip : Nat
  max : Nat
  deriving DecidableEq, Repr

/-- The three kinds of trap (R384). -/
inductive TrapKind where
  | issue | completion | deferred
  deriving DecidableEq, Repr

/-- What holds a poison mark that an issue reads (R427, R429). -/
inductive Holder where
  | x (r : XReg)
  | v (phys dw : Nat)
  | h (r : HReg)
  | row (os : OSlot) (row : Nat)
  | granule (key : Nat)
  deriving DecidableEq, Repr

/-- A trap with the fields that its entry writes (R386); `zero` names what zero substitution clears (R394, R429). -/
structure Trap where
  cause : BitVec 8
  kind : TrapKind
  tval : DWord
  slot : Slot
  elem : Nat
  loop : Option (BitVec 2 × BitVec 16)
  replay : Option Access
  /-- the issue number that TSLOT.REP takes -/
  rep : Nat
  zero : List Holder
  deriving DecidableEq, Repr

/-- A trap whose entry has begun, with the stall cycles in which its pending results have been written (R386). -/
structure Entry where
  trap : Trap
  waited : Nat
  deriving DecidableEq, Repr

/-- What a core is doing (R36, R59, R137, R393); `dying` when its task has been killed and stores that it
issued are still on their way. -/
inductive Mode where
  | idle | running | halting | saving | dying
  deriving DecidableEq, Repr

/-- The task resident on a core or saved (R26, R335). -/
structure Task where
  /-- the model's number of the task -/
  uid : Nat
  /-- the launch it belongs to -/
  launch : Nat
  index : Nat
  ctx : BitVec 16
  prio : Nat
  lid : BitVec 32
  /-- wheel count at its first issue (R339) -/
  started : Nat
  /-- its save record: 4096 * die + number in the die's pool (R335) -/
  record : Nat
  deriving DecidableEq, Repr

/-- The outcome of a finished job of the task (R247). -/
structure Ticket where
  num : BitVec 16
  rows : Nat
  state : BitVec 2
  cause : BitVec 8
  deriving DecidableEq, Repr

/-- The register files (R41 to R48) with their poison marks (R427). -/
structure Regs where
  x : Vector DWord 32
  v : Vector Vec 64
  p : Vector Pred 16
  h : Vector Cap 16
  htag : BitVec 16
  tiles : Vector Tile 16
  slots : Vector SlotSt 32
  xmark : BitVec 32
  hmark : BitVec 16
  vmark : Vector (BitVec 16) 64
  deriving DecidableEq, Repr

/-- The device CSRs of R51, the trap CSRs apart. -/
structure Csrs where
  rot : BitVec 5
  flags : BitVec 5
  acc : Acc
  rm : Rm
  tol : DWord
  tolabs : DWord
  rmax : BitVec 5
  rseq : BitVec 34
  mpc : BitVec 48
  lc : Vector LoopLv 4
  narrow : Bool
  tvec : BitVec 48
  wl : Nat
  tl : Nat
  cp : Nat
  st : Nat
  wheel : BitVec 14
  taskid : BitVec 40
  grpid : BitVec 40
  codebase : BitVec 48
  codelim : BitVec 48
  tstate : BitVec 48
  deriving DecidableEq, Repr

/-- The trap CSRs (R51). -/
structure TrapCsrs where
  cause : BitVec 8
  pc : BitVec 48
  val : DWord
  slot : BitVec 12
  elem : BitVec 7
  loop : DWord
  deriving DecidableEq, Repr

/-- Accesses outstanding in program order, fences, the waiting barrier request, L1 lines, jobs. -/
structure MemSide where
  accs : List Access
  fences : List FenceMark
  /-- next place in program order -/
  nextId : Nat
  bar : List BarWait
  /-- the current bundle holds at a BWAITP (R286) -/
  waiting : Bool
  /-- an SC operation's granted rank (R290) -/
  scRank : Option Nat
  /-- a position that an issue with two SC operations has been granted while it waits for the other's (R274, R290) -/
  scHeld : Option Nat
  /-- the wheel count that the last advance cycle sampled (R290) -/
  sample : Nat
  l1 : List CLine
  /-- releases that relaxed loads of the task have read (R266, R269) -/
  seen : List Rel
  /-- widest scope of the task's VFENCEs with release ordering (R265) -/
  relFence : Option Scope
  ticket : BitVec 16
  tickets : List Ticket
  /-- jobs that a CFENCE makes later ones wait for (R248) -/
  fenced : List Nat
  deriving DecidableEq, Repr

/-- Where the program stands and which of its code is in IMEM (R62, R63, R321 to R324). -/
structure CodeSide where
  /-- code-arena address of the current bundle -/
  pc : BitVec 48
  /-- the line of `pc` has been checked since control entered it (R62) -/
  lineOk : Bool
  /-- control stands at a launch's entry, whose target bit is still to be tested (R64, R335) -/
  launched : Bool
  /-- overlay segments with their resident bit set -/
  resident : List Nat
  /-- copy in flight -/
  segCopy : Option Nat
  /-- an IINV came while the copy was in flight (R324) -/
  segStale : Bool
  /-- the segment that a fetch or literal read waits for, and the arena line whose check then failed (R322, R324) -/
  wait : Option (Nat × Option Nat)
  /-- a segment mark that has been issued and not acted yet: the address of its bundle (R322) -/
  mark : Option (BitVec 48)
  deriving DecidableEq, Repr

/-- One core (R41 to R57). -/
structure Core where
  mode : Mode
  task : Option Task
  r : Regs
  c : Csrs
  tr : TrapCsrs
  t : Timing
  bank : Option Bank
  m : MemSide
  k : CodeSide
  deferred : List Trap
  /-- the completion trap of the bundle that has just ended (R385) -/
  comp : Option Trap
  /-- cycles until issue after trap entry or return, in which no count runs (R386, R389, R418) -/
  delay : Nat
  /-- stall cycles before the next issue, in which counts run (R394) -/
  stall : Nat
  /-- the trap whose entry waits for results that are written first (R386) -/
  entering : Option Entry
  /-- TRET is draining the handler (R58); TPC and TELEM as they stood before its bundle -/
  tretDrain : Option (BitVec 48 × BitVec 7)
  /-- it waits at the superstep barrier (R135), and the SSTEPs it has issued -/
  sstep : Bool
  superstep : Nat
  /-- the scheduler's pre-emption waits for the boundary -/
  preempt : Bool
  /-- YIELD waits for the scheduler (R136) -/
  yielding : Bool
  /-- stopped with its context suspended (R456) -/
  held : Bool
  /-- out of service (R448) -/
  out : Bool
  /-- the self-test will take it when its task ends or is saved (R332) -/
  testReq : Bool
  /-- the last datapath-check failure, by wheel count (R447) -/
  last5 : Option Nat
  deriving DecidableEq, Repr

end Sys2Proof.Machine
end

