-- ==== Sys2Proof/Machine/DeviceState.lean ====
section
/-! DEFINITION. The state of the package outside its cores, as plain data: the memory system, the Wickets and the key
store, the copy engines' jobs, the barrier units, the weight tier, the queues and launches, the host and fabric ports,
power, machine checks and recovery. Tables by number hold only what differs from its reset value. -/

namespace Sys2Proof.Machine

/-! ### The memory system (R252 to R274) -/

/-- WAYP of a cluster (R255). -/
structure Wayp where
  busy : Bool
  cur : Nat
  req : Nat
  err : Bool
  deriving DecidableEq, Repr

/-- What a stamped message carries (R271); an announcement tells a third die the stamp and the lines written (log 17). -/
inductive MsgBody where
  | announce (lines : List Nat)
  /-- a store on its way to its home: the access of a core, or the row of a job; granules that take a tag or a mark -/
  | write (core : Nat) (acc : Option Nat) (job : Option Nat) (ctx : BitVec 16) (bytes : List (Nat × Byte)) (tags : List Nat)
      (marks : List Nat) (rel : Option Rel)
  /-- elements of a REDUCE row (R241), by key and value -/
  | reduce (job : Nat) (ctx : BitVec 16) (t : Fmt) (op : Nat) (rm : Rm) (els : List (Nat × Nat))
  /-- the add of a job's signal, or the store of a CSIGNAL (R245, R248) -/
  | signal (job : Nat) (ctx : BitVec 16) (key : Nat) (val : Option DWord) (rel : Rel)
  /-- an atomic on its way to its home -/
  | atomic (core acc : Nat) (ctx : BitVec 16)
  /-- bytes that a die's complex writes in the name of a context, and the release that they carry (R327, R331, R340) -/
  | complex (ctx : BitVec 16) (bytes : List (Nat × Byte)) (rel : Option Rel)
  /-- the add of a packet's completion signal (R331) -/
  | count (ctx : BitVec 16) (key : Nat) (rel : Rel)
  /-- the home's notice that lines have changed, by the key of their first byte -/
  | notice (lines : List Nat)
  deriving DecidableEq, Repr

/-- A stamped message between two dies. -/
structure Msg where
  id : Nat
  src : Nat
  dst : Nat
  stamp : Clock
  body : MsgBody
  deriving DecidableEq, Repr

structure MemSys where
  wayp : List (Nat × Wayp)
  /-- lines that the slices hold, with their cluster -/
  lines : List (Nat × CLine)
  msgs : List Msg
  nextMsg : Nat
  /-- VC of each die -/
  clocks : List Clock
  /-- granules with an uncorrectable ECC error or a failing MAC, found while they are marked (R423, R432) -/
  broken : List (Nat × MemCond)
  /-- the releases that bytes carry (R265, R267), by key -/
  rels : List (Nat × List Rel)
  /-- the releases of all writes to a byte so far, which an atomic there continues (R267) -/
  past : List (Nat × List Rel)
  /-- clock that the SC operations so far have made known (R274) -/
  scClock : Clock
  /-- clock that ended tasks have made known to the scheduler (R292) -/
  taskClock : Clock
  deriving DecidableEq, Repr

/-! ### Ownership and keys (R343 to R358) -/

/-- An owner entry of a Wicket (R344). -/
structure Owner where
  owner : BitVec 16
  scrub : Bool
  deriving DecidableEq, Repr

/-- What a key slot is for. A zeroised slot holds no key and is released at the end of the teardown (R356, R457). -/
inductive KeyKind where
  | ide | fabric | save | zeroised
  deriving DecidableEq, Repr

/-- A key slot that Uberakel has allotted (R349): the number of its key, whether it is the IDE link stream (R350), whether
its stream is keyed now. -/
structure KeySlot where
  kind : KeyKind
  link : Bool
  owner : BitVec 16
  key : Nat
  peer : BitVec 10
  live : Bool
  deriving DecidableEq, Repr

/-! ### Jobs (R239 to R248, R301 to R307) -/

/-- What submitted a job (R239, R332). -/
inductive JobOwner where
  | task (uid : Nat)
  | packet (pid : Nat)
  deriving DecidableEq, Repr

/-- What a job does: a card of R240, a WPE card of R301, or the store of a CSIGNAL at an offset (R248). -/
inductive JobWork where
  | copy (card : BitVec 512)
  | wpe (card : BitVec 512)
  | signal (val : DWord) (off : Nat)
  deriving DecidableEq, Repr

/-- A block build in progress (R305): the popped slot, the tries and iterations made, rows that have verified, and the
new contents. -/
structure Build where
  bankNo : Nat
  blk : Nat
  slot : Nat
  tries : Nat
  it : Nat
  ok : BitVec 5
  vals : List Byte
  side : List Byte
  mp : Bool
  deriving DecidableEq, Repr

/-- An accepted job that has not completed (R243 to R248); the die's list is in arrival order. -/
structure Job where
  id : Nat
  /-- the die whose engines carry it out, and the die that accepted it (R244, R246) -/
  die : Nat
  home : Nat
  owner : JobOwner
  /-- the core whose SPAD and cluster whose CLUS its addresses name -/
  core : Nat
  ctx : BitVec 16
  lid : BitVec 32
  ticket : BitVec 16
  slot : Slot
  /-- its place in the task's program order, before which a CSIGNAL's release finds the accesses that it covers (R265); 0 once the task
  has been saved, when none of them is left -/
  seq : Nat
  work : JobWork
  /-- capabilities captured at its issue (R240): source, destination, index array or metadata, signal word -/
  sh : Cap
  dh : Cap
  ah : Cap
  gh : Cap
  rm : Rm
  /-- rows made; blocks of a WPE job -/
  rows : Nat
  started : Bool
  paused : Bool
  /-- jobs it waits for beside its footprint edges (CSIGNAL, CFENCE) -/
  after : List Nat
  /-- its footprint edges: the earlier jobs that it waits for (R244) -/
  edges : List Nat
  cancel : Bool
  /-- a cause found at a home on another die -/
  bad : Option (BitVec 8)
  /-- the signal has been sent -/
  signalled : Bool
  build : Option Build
  deriving DecidableEq, Repr

/-! ### Barrier objects (R279 to R288) -/

/-- One counted arrival: the releases it stands for and what they make known (R288). -/
structure Arrival where
  rels : List Rel
  clock : Clock
  deriving DecidableEq, Repr

/-- The core whose arrival a message follows from, with MISC of its task then, for the overflow record (R287); a core of
another package has number 768. -/
structure BarBy where
  core : Nat
  misc : DWord
  deriving DecidableEq, Repr

/-- A barrier object (R280). `arrivals` are the ARRIVED arrivals, oldest first; `done` is what the last flip of each phase
number releases (R288). -/
structure BarObj where
  linked : Bool
  nchild : Nat
  parent : Cap
  /-- BARR address of the parent, as BLINK formed it -/
  parentAddr : Nat
  /-- BARR addresses of the linked children, in the order of linking -/
  children : List Nat
  act : Bool
  gen : Nat
  arrivals : List Arrival
  expect : Nat
  phase : Nat
  depth : Nat
  done : List (Nat × Arrival)
  deriving DecidableEq, Repr

/-- An arrival or flip on its way to another object (R287). -/
structure BarMsg where
  id : Nat
  flip : Bool
  addr : Nat
  arr : Arrival
  who : BarBy
  deriving DecidableEq, Repr

/-! ### The weight tier (R293 to R310) -/

/-- A bank's free list (R294): the slots never taken yet, from `next` up, and behind them those appended. -/
structure FreeList where
  next : Nat
  tail : List Nat
  deriving DecidableEq, Repr

/-- The tables of the weight tier. Banks are numbered 96 * die + bank, blocks and slots 2^21 * bank number + index; slot
contents are the memory space `wgt`, 320 bytes a slot. What is not listed is as at manufacture (log 5). -/
structure Weights where
  /-- remap entries that differ from the home slot; none is unmapped (R294, R302) -/
  remap : List (Nat × Option Nat)
  /-- wear of the rows, by 8 * slot number + row -/
  wear : List (Nat × Nat)
  free : List (Nat × FreeList)
  retired : List (Nat × Nat)
  /-- slots whose stored contents fail their MAC (R434) -/
  bad : List Nat
  /-- old slots waiting for their readers (R305), with their bank -/
  releasing : List (Nat × Nat)
  /-- WRGN registers by 64 * die + number (R298) -/
  regions : List (Nat × BitVec 128)
  /-- their measurements (R300) -/
  digests : List (Nat × BitVec 512)
  /-- WPELIM.LIM by die (R309) -/
  lim : List (Nat × Nat)
  deriving DecidableEq, Repr

/-! ### Links (R372 to R378, R456) -/

/-- FPORT of a fabric port (R378). `keyed` is false until its stream is keyed; `stale` says that the stream has stopped and
has not been keyed again. -/
structure Port where
  trained : Bool
  keyed : Bool
  stale : Bool
  comp : Bool
  stop : Bool
  peer : BitVec 10
  en : Bool
  deriving DecidableEq, Repr

structure Links where
  /-- the host link has trained; the mode and width that its two ends have agreed (R372) -/
  hostUp : Bool
  mode : HostMode
  width : HostWidth
  /-- FABID (R377): VALID and PKG -/
  fabValid : Bool
  pkg : BitVec 10
  /-- ports by 2 * die + port -/
  ports : List (Nat × Port)
  /-- packages lost from the domain (R452) -/
  lostPkgs : List Nat
  deriving DecidableEq, Repr

/-! ### Machine checks and recovery (R440 to R454) -/

/-- A machine-check bank (R442). `acted` says that COUNT reached LIMIT in this window. -/
structure McBank where
  status : BitVec 64
  addr : BitVec 64
  misc : BitVec 64
  synd : BitVec 64
  ctl : BitVec 64
  thresh : BitVec 64
  acted : Bool
  deriving DecidableEq, Repr

structure Mcheck where
  /-- banks by 32 * die + number -/
  banks : List (Nat × McBank)
  /-- MCSUM.THR by die (R444) -/
  thr : List (Nat × BitVec 32)
  /-- cores and dies whose fence or loss the recorded errors call for (R441, R442) -/
  fences : List Nat
  losses : List Nat
  /-- by die: a replaying complex (R450) with its halves' program counters XORed, and the wheel count of its last mismatch -/
  replaying : List (Nat × BitVec 64)
  mismatch : List (Nat × Nat)
  deriving DecidableEq, Repr

/-! ### Queues, launches and the scheduler (R325 to R340) -/

/-- A mapped queue in its hardware slot, or one on the remap list (R329), with what the device took from its descriptor
when it was mapped. -/
structure HwQueue where
  q : Nat
  ring : Nat
  logsz : Nat
  prio : Nat
  ctx : BitVec 16
  /-- packets taken, mod 2^32 -/
  rd : Nat
  /-- the last WR signalled -/
  wr : Nat
  /-- place of its last signal among all signals, and the wheel count then -/
  last : Nat
  lastW : Nat
  deriving DecidableEq, Repr

/-- A packet dispatched and not complete (R330 to R332). -/
structure Packet where
  id : Nat
  q : Nat
  /-- its index in the queue -/
  idx : Nat
  die : Nat
  ctx : BitVec 16
  prio : Nat
  body : BitVec 512
  /-- the launch identifier of a LAUNCH, else 0 -/
  lid : BitVec 32
  /-- its own event has been carried out -/
  acted : Bool
  /-- the outcome: cause 0 is completion, another an abort -/
  outcome : Option (BitVec 8)
  /-- NODE, loop: the passes begun -/
  passes : Nat
  /-- SELFTEST: named cores that are not back -/
  cores : List Nat
  /-- the launch that it has become, and PKGCOUNT of its descriptor -/
  launch : Option Nat
  pkgs : Nat
  deriving DecidableEq, Repr

/-- A level of a launch (R333). -/
structure Level where
  decl : Bool
  gang : Bool
  pol : BitVec 2
  size : Nat
  deriving DecidableEq, Repr

/-- What a launch remembers of a group: the unit that holds it, fixed at its first issue (R461), and tries(g) (R392). -/
structure GroupSt where
  level : Nat
  group : Nat
  unit : Option Nat
  tries : Nat
  deriving DecidableEq, Repr

/-- An accepted launch (R333 to R337). -/
structure Launch where
  id : Nat
  packet : Nat
  lid : BitVec 32
  ctx : BitVec 16
  prio : Nat
  codebase : BitVec 48
  codelim : BitVec 48
  entry : BitVec 48
  mpc : BitVec 48
  nidx : Nat
  logn : Nat
  cpol : BitVec 2
  levels : List Level
  /-- participating dies of this package, and those that have accepted the launch (R336) -/
  dies : List Nat
  accepted : List Nat
  args : List DWord
  /-- the handle table as read at dispatch (R338) -/
  htab : List (Cap × Bool)
  /-- of them, those whose granule was denied or poisoned (R346, R428) -/
  hbad : BitVec 16
  /-- the index counter of the leader, the indices returned, those claimed and unstarted by die, with the wheel count
  since when the die has had no free eligible core -/
  next : Nat
  returned : List Nat
  claims : List (Nat × List Nat)
  blocked : List (Nat × Nat)
  /-- indices that a containment restart is to start again (R393) -/
  again : List Nat
  /-- tasks started and not ended -/
  live : Nat
  /-- killed groups, by level and number: their indices that have not started never start (R393) -/
  dead : List (Nat × Nat)
  groups : List GroupSt
  begun : Bool
  /-- PKGFIRST and PKGCOUNT: the packages that it spans (R333, R336) -/
  pkgFirst : Nat
  pkgs : Nat
  /-- other packages that have accepted it; the indices that each has claimed and not ended, and those that have ended there; where the
  leader is in another package, the number granted to this one; the supersteps at which their tasks have arrived, by
  package (R289, R336) -/
  awayAccepted : List Nat
  /-- groups at the package level of which a task has issued in another package (R461) -/
  awayIssued : List Nat
  /-- while the leader is in another package, the indices that have gone back to it and that nobody has claimed since (R454) -/
  backed : List Nat
  away : List (Nat × Nat)
  awayEnded : List Nat
  granted : Nat
  awaySteps : List (Nat × Nat)
  /-- groups of a gang above the die level: of which other packages have reported to the leader here that they can make their part
  resident, and which a leader elsewhere has answered (R336) -/
  reports : List (Nat × Nat)
  answered : List Nat
  /-- claims granted whose mirror is not acknowledged yet, by die, and by 8 + package for those of other packages (R453) -/
  pending : List (Nat × List Nat)
  /-- by die: the indices that it has claimed and of whose end its buddy holds no mirror; the counter that the leader's buddy
  holds (R453) -/
  mirrors : List (Nat × List Nat)
  mirrorNext : Nat
  /-- indices whose task has ended while the mirror of the end is not acknowledged yet -/
  ending : List Nat
  /-- killed tasks whose end counts once its mirror is acknowledged (R453) -/
  unacked : List Nat
  deriving DecidableEq, Repr

/-- A pre-empted task (R59): its core's state at the boundary. The bytes of its save record stand in GLOB. -/
structure Saved where
  task : Task
  core : Core
  home : Nat
  /-- the clock of its die then, which the die that restores it covers first (R175, R271) -/
  clock : Clock
  /-- image slot and EXPECT of a sealed save (R352, R353) -/
  sealed : Option (Nat × Nat)
  /-- after YIELD: the tasks of its priority that were ready there, by launch and index (R136) -/
  behind : List (Nat × Nat)
  deriving DecidableEq, Repr

/-- The containment log of a die (R396). -/
structure CLog where
  zcnt : BitVec 32
  next : BitVec 32
  entries : List (Nat × BitVec 128)
  deriving DecidableEq, Repr

/-- Queues and the scheduler. The registers of R326 are listed by die once they have been written. -/
structure Sched where
  qdbase : List (Nat × Nat)
  qsigbase : List (Nat × Nat)
  qidle : List (Nat × Nat)
  savepool : List (Nat × DWord)
  jctl : DWord
  jhead : DWord
  slots : List HwQueue
  remap : List HwQueue
  /-- signals on their way (R328) -/
  signals : List Nat
  /-- stopped queues whose EN has been written 0, and those then written 1 (R329) -/
  disabled : List Nat
  restarts : List Nat
  turn : Nat
  /-- place of each queue's last turn among all turns, by queue (R38) -/
  served : List (Nat × Nat)
  packets : List Packet
  nextPacket : Nat
  launches : List Launch
  nextLaunch : Nat
  saved : List Saved
  /-- tasks that are being saved or are saved, in the order of their pre-emption (R339) -/
  stopped : List Nat
  nextUid : Nat
  /-- cores that a gang's pre-emption has freed, with its launch (R31) -/
  gated : List (Nat × Nat)
  clogs : List (Nat × CLog)
  deriving DecidableEq, Repr

/-! ### Protected contexts and attestation (R342 to R360) -/

/-- CTXST.STATE (R358). -/
inductive CtxState where
  | active | suspended | tearing
  deriving DecidableEq, Repr

/-- A protected context, by its index (R343, R351 to R358). `arenas` are the code arenas loaded in it, by first byte and end
(R360). -/
structure Ctx where
  state : CtxState
  ctx : BitVec 16
  skey : Nat
  savectr : Nat
  /-- SAVEAREA: the HOST capability and SPADLEN -/
  area : Option (Cap × Nat)
  /-- held image slots, with the task (R354) -/
  held : List (Nat × Nat)
  arenas : List (BitVec 48 × BitVec 48)
  deriving DecidableEq, Repr

/-- LVPROG (R357). -/
structure LvProg where
  phase : BitVec 2
  pidx : BitVec 8
  ctx : BitVec 16
  total : Nat
  done : Nat
  deriving DecidableEq, Repr

/-- The SPDM responder (R359): the version has been asked, algorithms are negotiated, a session's handshake has begun, a
session stands; the number of the session. A link reset ends the session (R455). `via` carries the message that is being
answered (R382). -/
structure Spdm where
  version : Bool
  negotiated : Bool
  handshake : Bool
  session : Bool
  number : Nat
  /-- number of the session's keys -/
  keyNo : Nat
  via : Carrier
  deriving DecidableEq, Repr

structure Prot where
  ctxs : List (Nat × Ctx)
  lvprog : List (Nat × LvProg)
  /-- owner entries written that have not taken effect (R347) -/
  owed : List (Nat × Owner)
  spdm : Spdm
  nextKey : Nat
  deriving DecidableEq, Repr

/-- What the SPDM responder answers. -/
inductive SpdmReply where
  | version
  | capabilities
  | algorithms
  | digests (d : BitVec 512)
  | certificate (d : BitVec 512)
  | challenge (signature : Nat)
  | measurementCount (n : Nat)
  /-- measurement blocks by index -/
  | measurements (blocks : List (Nat × List Byte))
  | session (number : Nat)
  | finished
  | keyUpdated
  | ended
  | created (ctx : BitVec 16) (idx : Nat)
  | done
  | report (body : List Byte) (signature : Nat)
  | refused
  deriving DecidableEq, Repr

/-- What the device answers over the host port or the management interface. -/
inductive Reply where
  /-- bytes read through a base address register, and whether they carry poison -/
  | bar (v : List Byte) (poisoned : Bool)
  | spdm (via : Carrier) (r : SpdmReply)
  | mctp (bus : MgmtBus)
  | monitoring (bus : MgmtBus) (temp : BitVec 16) (pwr amps : BitVec 16) (div : BitVec 4)
  | image (bus : MgmtBus) (ok : Bool)
  | cap (bus : MgmtBus) (watts : BitVec 16)
  /-- the stream to a package is keyed, or no slot was free -/
  | fabricKeyed (bus : MgmtBus) (peer : BitVec 10) (ok : Bool)
  deriving DecidableEq, Repr

/-! ### Boot and power (R379 to R381) -/

/-- How far a die has booted (R379); `off` without module power. -/
inductive Boot where
  | off | recovery | rehash | ready
  deriving DecidableEq, Repr

/-- The Uberakel image in the flash: that of manufacture (log 8), one that a transfer has written, or what a
power loss during a write has left. -/
inductive Flash where
  | manufacture
  | image (i : Image)
  | torn
  deriving DecidableEq, Repr

structure Power where
  watts : BitVec 16
  pwr : BitVec 16
  amps : BitVec 16
  div : BitVec 4
  deriving DecidableEq, Repr

/-- The forms of R1 that differ in what this model shows: a package, in a module or not, and one die. -/
inductive Form where
  | package | die
  deriving DecidableEq, Repr

structure Device where
  form : Form
  ms : MemSys
  owners : List (Nat × Owner)
  keys : List (Nat × KeySlot)
  wt : Weights
  link : Links
  /-- barrier objects by BARR address / 64 without PKG -/
  bars : List (Nat × BarObj)
  barMsgs : List BarMsg
  nextBar : Nat
  /-- dies lost (R451) -/
  lost : List Nat
  mc : Mcheck
  /-- MSI-X vectors that die 0 has raised, newest last (R331, R444) -/
  msi : List Nat
  jobs : List Job
  nextJob : Nat
  sched : Sched
  prot : Prot
  replies : List Reply
  /-- dies in order; a die not listed is in `rehash` -/
  boot : List (Nat × Boot)
  flash : Flash
  power : Power
  deriving DecidableEq, Repr

end Sys2Proof.Machine
end

