-- ==== Sys2Proof/Machine/State.lean ====
section
/-! DEFINITION. The state of one PN-8 package, as plain data. -/

namespace Sys2Proof.Machine

/-- Why the machine stops. Nothing of the normal flow raises one: every trap of R398 is a next state. -/
inductive Fault where
  /-- Raised by `step` alone, where the agenda (log 1) names a core number outside 0 to 767: the package
  has no such core (R18). Safe: the device has no such agent. -/
  | noSuchCore (n : Nat)
  deriving DecidableEq, Repr

/-- Why an instruction has no meaning. -/
inductive Refusal where
  /-- Raised by an arm of `exec` for an instruction that has no meaning yet. Safe: nothing follows from it. -/
  | notModelled (mnemonic : String)
  deriving DecidableEq, Repr

/-- The byte arrays of the package, each with units of its own: GLOB, SPAD of a core, CLUS of a cluster, the slots of
a weight bank, HOST, PEER of a package, operand memory, side stores and IMEM of a core (R161, R186, R47, R294, R321). -/
inductive MSpace where
  | glob | spad | clus | wgt | host | peer | opmem | side | imem
  deriving DecidableEq, Repr

/-- What the other end of a link sends for which the table has no row: another package's arrival, flip, link or unlink of a
barrier object over the fabric (R287, R376), its part in a launch over several packages (R289, R336), a frame of an IDE
stream that fails its tag (R350), and the mode and width that the host's end agrees to before the link trains (R372). Barrier objects are named by BARR address, launches by LID. -/
inductive LinkIn where
  | arrival (addr : Nat) (rels : List Rel)
  | flip (addr : Nat) (rels : List Rel)
  | link (parent child : Nat)
  | unlink (parent child : Nat)
  | superstep (lid : BitVec 32) (k : Nat)
  | accepted (lid : BitVec 32)
  /-- it claims from this package's leader; an index that it has claimed, or `owner` has, is mirrored here; it returns one -/
  | claim (lid : BitVec 32)
  | claimed (lid : BitVec 32) (owner index : Nat)
  | returns (lid : BitVec 32) (index : Nat)
  /-- it can make its part of a group resident; the leader in it answers a group's dies -/
  | report (lid : BitVec 32) (group : Nat)
  | answer (lid : BitVec 32) (group : Nat)
  /-- the leader in it grants indices to a die of this package -/
  | grant (lid : BitVec 32) (die first count : Nat)
  /-- the first task of an index's group at the package level has issued there; members there of a gang at the domain level are
  pre-empted -/
  | issued (lid : BitVec 32) (index : Nat)
  | preempts (lid : BitVec 32) (index : Nat)
  /-- a task that it claimed has ended, or never starts -/
  | ended (lid : BitVec 32) (index : Nat)
  | ideTagFailure (slot : Nat)
  | hostAgrees (mode : HostMode) (width : HostWidth)
  deriving DecidableEq, Repr

/-- Which agent moves in a step, where the state names one. -/
inductive Turn where
  /-- one advance or stall cycle of a core -/
  | core (n : Nat)
  /-- an event of the table -/
  | event (i : Instr)
  /-- an SPDM message, with what carries it (R359, R382) -/
  | message (via : Carrier) (i : Instr)
  /-- one reference cycle of the wheel -/
  | clock
  /-- package `pkg`, or the host where the message is not of the fabric -/
  | link (pkg : BitVec 10) (m : LinkIn)
  deriving DecidableEq, Repr

/-- The issue whose operations are being carried out (log 6): the acting core, the slot, the stepped offset of a
re-issue, the address of the next bundle by R63, REP of the bundle, what the operations found. -/
structure Issue where
  core : Nat
  slot : Slot
  off : Option (BitVec 48)
  next : BitVec 48
  rep : Nat
  raised : Option Trap
  xfer : Option (BitVec 48)
  /-- levels that a transfer leaves (R130) -/
  pops : Nat
  /-- the operation has made the loop's closing action (R126) or taken its place (R129) -/
  closed : Bool
  deriving DecidableEq, Repr

structure State where
  mem : List Host.Cell
  tags : List Nat
  marks : List Nat
  cores : List (Nat × Core)
  dev : Device
  wheel : Nat
  free : Nat
  agenda : List Turn
  turns : List Nat
  iss : Issue
  deriving DecidableEq, Repr

/-- No issue is being carried out. -/
def Issue.none : Issue :=
  { core := 0, slot := .b, off := Option.none, next := 0, rep := 0, raised := Option.none, xfer := Option.none, pops := 0, closed := false }

/-- The package outside its cores at cold reset, with the weight tier of manufacture (log 5): every register of the control
windows has the value of its Reset column, and what is not listed is zero. -/
def Device.reset : Device :=
  { form := .package
    ms :=
      { wayp := [], lines := [], msgs := [], nextMsg := 0, clocks := List.replicate 8 (List.replicate 8 0), broken := [], rels := [], past := []
        scClock := List.replicate 8 0, taskClock := List.replicate 8 0 }
    owners := [], keys := []
    wt :=
      { remap := [], wear := [], free := [], retired := [], bad := [], releasing := [], regions := [], digests := [], lim := [] }
    link := { hostUp := false, mode := .pcie, width := .x16, fabValid := false, pkg := 0, ports := [], lostPkgs := [] }
    bars := [], barMsgs := [], nextBar := 0, lost := []
    mc := { banks := [], thr := [], fences := [], losses := [], replaying := [], mismatch := [] }
    msi := [], jobs := [], nextJob := 0
    sched :=
      { qdbase := [], qsigbase := [], qidle := [], savepool := [], jctl := 0, jhead := 0, slots := [], remap := [], signals := []
        disabled := [], restarts := [], turn := 0, served := [], packets := [], nextPacket := 0, launches := [], nextLaunch := 0, saved := [], stopped := []
        nextUid := 0, gated := [], clogs := [] }
    prot :=
      { ctxs := [], lvprog := [], owed := []
        spdm := { version := false, negotiated := false, handshake := false, session := false, number := 0, keyNo := 0, via := .doe }
        nextKey := 0 }
    replies := [], boot := [], flash := .manufacture
    power := { watts := 10000, pwr := 0, amps := 0, div := 0 } }

/-- The package right after its first cold reset: no task anywhere, W zero (R290), nothing listed in memory, and each die
about to measure its regions (R379). -/
def State.reset : State :=
  { mem := [], tags := [], marks := [], cores := [], dev := Device.reset, wheel := 0, free := 0, agenda := [], turns := []
    iss := Issue.none }

/-- The dies that a form has not (R1). -/
def Form.absent : Form → List Nat
  | .package => []
  | .die => [1, 2, 3, 4, 5, 6, 7]

/-- The die form right after its first cold reset: die 0 alone; the others are as lost (log 89). -/
def State.resetDie : State :=
  { State.reset with dev := { Device.reset with form := .die, lost := Form.die.absent } }

end Sys2Proof.Machine
end

