-- ==== Sys2Proof/Machine/Base.lean ====
section
/-! DEFINITION. Memory and its granule tags and poison marks, the cores' table, register access, results on their way,
and code in IMEM. -/

namespace Sys2Proof.Machine

/-! ### Memory: one list in canonical form, unlisted bytes read 0 (log 2) -/

namespace Memory

/-- What an unlisted byte reads as (log 2). -/
def default : Byte := 0

def read : List Host.Cell → Nat → Byte
  | [], _ => default
  | (a, v) :: t, k => if k = a then v else if k < a then default else read t k

def write : List Host.Cell → Nat → Byte → List Host.Cell
  | [], k, b => if b = default then [] else [(k, b)]
  | (a, v) :: t, k, b =>
    if k < a then (if b = default then (a, v) :: t else (k, b) :: (a, v) :: t)
    else if k = a then (if b = default then t else (k, b) :: t)
    else (a, v) :: write t k b

/-- Canonical form above a bound: addresses rise strictly and no cell holds the default. -/
def wfFrom : Nat → List Host.Cell → Bool
  | _, [] => true
  | lo, (a, v) :: t => decide (lo ≤ a) && v != default && wfFrom (a + 1) t

def wf (m : List Host.Cell) : Bool := wfFrom 0 m

def writeList (m : List Host.Cell) (k : Nat) : List Byte → List Host.Cell
  | [] => m
  | b :: bs => writeList (write m k b) (k + 1) bs

def readList (m : List Host.Cell) (k : Nat) : Nat → List Byte
  | 0 => []
  | n + 1 => read m k :: readList m (k + 1) n

/-- Remove every cell of [lo, lo + len): those bytes then read 0. -/
def clear (m : List Host.Cell) (lo len : Nat) : List Host.Cell :=
  m.filter (fun c => decide (c.1 < lo) || decide (lo + len ≤ c.1))

end Memory

/-! Strictly rising lists of granule keys. -/
namespace KeySet

def has : List Nat → Nat → Bool
  | [], _ => false
  | a :: t, k => if k = a then true else if k < a then false else has t k

def add : List Nat → Nat → List Nat
  | [], k => [k]
  | a :: t, k => if k < a then k :: a :: t else if k = a then a :: t else a :: add t k

def del (l : List Nat) (k : Nat) : List Nat := l.filter (· != k)

/-- Remove the keys of [lo, lo + len). -/
def clear (l : List Nat) (lo len : Nat) : List Nat :=
  l.filter (fun a => decide (a < lo) || decide (lo + len ≤ a))

def wf : List Nat → Bool
  | [] => true
  | [_] => true
  | a :: b :: t => decide (a < b) && wf (b :: t)

end KeySet

/-- Little-endian value of a byte list (R10). -/
def leNat : List Byte → Nat
  | [] => 0
  | b :: bs => b.toNat + 256 * leNat bs

/-- n bytes of a value, little-endian. -/
def leBytes : Nat → Nat → List Byte
  | 0, _ => []
  | n + 1, v => BitVec.ofNat 8 v :: leBytes n (v / 256)

def MSpace.code : MSpace → Nat
  | .glob => 0 | .spad => 1 | .clus => 2 | .wgt => 3 | .host => 4 | .peer => 5 | .opmem => 6 | .side => 7 | .imem => 8

/-- The key of a byte: space, unit (core, cluster, bank or package) and offset. -/
def mkey (sp : MSpace) (unit off : Nat) : Nat := (sp.code * 65536 + unit) * 2 ^ 64 + off

/-- The parts of a key. -/
def keySpace (k : Nat) : Nat := k / 2 ^ 64 / 65536
def keyUnit (k : Nat) : Nat := k / 2 ^ 64 % 65536
def keyOff (k : Nat) : Nat := k % 2 ^ 64

/-- The key of the 32-byte granule that holds a byte (R166). -/
def granule (key : Nat) : Nat := key / 32

/-- The package id; a package without one reports 0 (R19). -/
def State.pkgId (s : State) : BitVec 10 := if s.dev.link.fabValid then s.dev.link.pkg else 0

def State.byte (s : State) (key : Nat) : Byte := Memory.read s.mem key
def State.bytes (s : State) (key n : Nat) : List Byte := Memory.readList s.mem key n
def State.nat (s : State) (key n : Nat) : Nat := leNat (s.bytes key n)

/-- The granules that [key, key + n) touches. -/
def granules (key n : Nat) : List Nat :=
  if n = 0 then [] else (List.range ((key + n - 1) / 32 - key / 32 + 1)).map (· + key / 32)

/-- The granules that [key, key + n) covers whole. -/
def wholeGranules (key n : Nat) : List Nat :=
  (granules key n).filter (fun g => decide (key ≤ g * 32) && decide (g * 32 + 32 ≤ key + n))

/-- A write of bytes that carry no mark: touched granules lose their tag (R166), covered ones their mark (R429). -/
def State.store (s : State) (key : Nat) (bs : List Byte) : State :=
  { s with
    mem := Memory.writeList s.mem key bs
    tags := (granules key bs.length).foldl KeySet.del s.tags
    marks := (wholeGranules key bs.length).foldl KeySet.del s.marks }

def State.storeNat (s : State) (key n v : Nat) : State := s.store key (leBytes n v)

/-- A write of single bytes under a mask, one by one (VSTM, stores of single lanes): marks stay. -/
def State.storeEach (s : State) : List (Nat × Byte) → State
  | [] => s
  | (k, b) :: t =>
    { s with mem := Memory.write s.mem k b, tags := KeySet.del s.tags (granule k) }.storeEach t

/-- Whether a granule that [key, key + n) touches is marked. -/
def State.marked (s : State) (key n : Nat) : Bool := (granules key n).any (KeySet.has s.marks)

def State.mark (s : State) (key n : Nat) : State := { s with marks := (granules key n).foldl KeySet.add s.marks }

def State.tagAt (s : State) (key : Nat) : Bool := KeySet.has s.tags (granule key)

/-- The single-copy-atomic write of a granule with its tag (R166); bytes that lie in two granules take none (log 85). -/
def State.storeTagged (s : State) (key : Nat) (v : Cap) (tag : Bool) : State :=
  let s := s.storeNat key 32 v.toNat
  if tag ∧ key % 32 = 0 then { s with tags := KeySet.add s.tags (granule key) } else s

/-- Clear [off, off + len) of a unit: bytes zero, tags and marks clear (R49, R257, R356). -/
def State.scrub (s : State) (sp : MSpace) (unit off len : Nat) : State :=
  let k := mkey sp unit off
  { s with
    mem := Memory.clear s.mem k len
    tags := KeySet.clear s.tags (k / 32) (len / 32)
    marks := KeySet.clear s.marks (k / 32) (len / 32) }

/-! ### Cores -/

def Tile.empty : Tile := { kind := .empty, rank := 0, panels := [], elems := [], u := [], v := [] }
def SlotSt.free : SlotSt := { claimed := false, verified := 0, marks := 0 }
def Xtr.zero : Xtr := { bank0 := [], bank1 := [], trc := 0, b := false }
def StandSet.none : StandSet := { va := .none, vb := .none, m := .none, ca := .none, cb := .none, x := .none }
def LoopLv.off : LoopLv := { kind := 0, stg := 0, start := 0, fin := 0, iter := 0, trip := 0, max := 0 }

/-- Timing and issue state with nothing in flight (R49, R58). -/
def Timing.empty : Timing :=
  { pend := [], landing := [], eng := [], fills := [], scale := [], shadow := none, xtr := .zero, stand := .none
    issue := 0 }

def Regs.zero : Regs :=
  { x := .replicate 32 0, v := .replicate 64 0, p := .replicate 16 0, h := .replicate 16 0, htag := 0
    tiles := .replicate 16 .empty, slots := .replicate 32 .free, xmark := 0, hmark := 0, vmark := .replicate 64 0 }

/-- The CSRs at the resets of R51; values a launch gives are 0 before one (log 3). -/
def Csrs.reset : Csrs :=
  { rot := 0, flags := 0, acc := .f64, rm := .rne, tol := 0x3CB0000000000000, tolabs := 0, rmax := 16, rseq := 0
    mpc := 0, lc := .replicate 4 .off, narrow := false, tvec := 0, wl := 0, tl := 0, cp := 0, st := 0, wheel := 0
    taskid := 0, grpid := 0, codebase := 0, codelim := 0, tstate := 0 }

def TrapCsrs.reset : TrapCsrs := { cause := 0, pc := 0, val := 0, slot := 0, elem := 0, loop := 0 }

def MemSide.empty : MemSide :=
  { accs := [], fences := [], nextId := 0, bar := [], waiting := false, scRank := none, scHeld := none, sample := 0, l1 := [], seen := [], relFence := none, ticket := 0
    tickets := [], fenced := [] }

def CodeSide.empty : CodeSide := { pc := 0, lineOk := false, launched := false, resident := [], segCopy := none, segStale := false, wait := none, mark := none }

/-- A core without a task. -/
def Core.idle : Core :=
  { mode := .idle, task := none, r := .zero, c := .reset, tr := .reset, t := .empty, bank := none, m := .empty
    k := .empty, deferred := [], comp := none, delay := 0, stall := 0, entering := none, tretDrain := none, sstep := false, superstep := 0
    preempt := false, yielding := false, held := false, out := false, testReq := false, last5 := none }

/-- A table by number in rising order; an absent entry stands for `d`. -/
def lookupD {α : Type} (d : α) : List (Nat × α) → Nat → α
  | [], _ => d
  | (k, a) :: t, n => if n = k then a else if n < k then d else lookupD d t n

def insertAt {α : Type} : List (Nat × α) → Nat → α → List (Nat × α)
  | [], n, a => [(n, a)]
  | (k, b) :: t, n, a => if n < k then (n, a) :: (k, b) :: t else if n = k then (n, a) :: t else (k, b) :: insertAt t n a

def State.core (s : State) (n : Nat) : Core := lookupD .idle s.cores n
def State.setCore (s : State) (n : Nat) (c : Core) : State := { s with cores := insertAt s.cores n c }

/-- The core whose issue is being carried out. -/
def State.cur (s : State) : Core := s.core s.iss.core
def State.setCur (s : State) (c : Core) : State := s.setCore s.iss.core c

/-- The cluster (0 to 95 in the package) and die of a package core number (R18). -/
def clusterOf (n : Nat) : Nat := n / 8
def dieOf (n : Nat) : Nat := n / 96

/-- The location code of a core of this package (R18). -/
def State.loc (s : State) (n : Nat) : BitVec 20 :=
  s.pkgId ++ BitVec.ofNat 3 (dieOf n) ++ BitVec.ofNat 4 (n % 96 / 8) ++ BitVec.ofNat 3 (n % 8)

/-! ### Registers (R41 to R43) -/

/-- x0 reads zero. -/
def Core.rx (c : Core) (r : XReg) : DWord := if r = 0 then 0 else c.r.x[r.toNat]

/-- R42: the physical number of a vector register under the ROT that rules. -/
def physV (rot : BitVec 5) (v : VReg) : Nat :=
  if v.toNat < 32 then v.toNat else 32 + (v.toNat - 32 + rot.toNat) % 32

theorem physV_lt (rot : BitVec 5) (v : VReg) : physV rot v < 64 := by
  unfold physV; split <;> omega

/-- R42: the physical number of a predicate register. -/
def physP (rot : BitVec 5) (p : PReg) : Nat :=
  if p.toNat < 8 then p.toNat else 8 + (p.toNat - 8 + rot.toNat % 8) % 8

theorem physP_lt (rot : BitVec 5) (p : PReg) : physP rot p < 16 := by
  unfold physP; split <;> omega

def Core.pv (c : Core) (v : VReg) : Nat := physV c.c.rot v
def Core.pp (c : Core) (p : PReg) : Nat := physP c.c.rot p
def Core.rv (c : Core) (v : VReg) : Vec := c.r.v[c.pv v]'(physV_lt _ _)
def Core.rp (c : Core) (p : PReg) : Pred := c.r.p[c.pp p]'(physP_lt _ _)
def Core.rh (c : Core) (h : HReg) : Cap := c.r.h[h.toNat]
def Core.rhtag (c : Core) (h : HReg) : Bool := bit c.r.htag h.toNat
def Core.tile (c : Core) (m : MReg) : Tile := c.r.tiles[m.toNat]
def Core.slot (c : Core) (o : OSlot) : SlotSt := c.r.slots[o.toNat]

/-- The governing predicate: all ones when PG = 0 (R75, R140). -/
def Core.pg (c : Core) (p : PReg) : Pred := if p = 0 then BitVec.allOnes 128 else c.rp p

/-- Set or clear one bit. -/
def setBit {w : Nat} (x : BitVec w) (n : Nat) (b : Bool) : BitVec w :=
  if b then x ||| BitVec.twoPow w n else x &&& ~~~ BitVec.twoPow w n

/-- Bits of `mask` from `new`, the others from `old`. -/
def merge {w : Nat} (mask new old : BitVec w) : BitVec w := (new &&& mask) ||| (old &&& ~~~ mask)

/-- Write an x register; x0 discards. The whole register is written, so its mark clears. -/
def Core.wx (c : Core) (r : XReg) (v : DWord) : Core :=
  if r = 0 then c
  else { c with r := { c.r with x := c.r.x.set r.toNat v, xmark := setBit c.r.xmark r.toNat false } }

def Core.markX (c : Core) (r : XReg) : Core :=
  if r = 0 then c else { c with r := { c.r with xmark := setBit c.r.xmark r.toNat true } }

/-- The doublewords that a mask covers whole. -/
def fullDws (mask : Vec) : BitVec 16 :=
  BitVec.ofNat 16 (packNat 1 ((List.range 16).map (fun d => if mask.toNat / 2 ^ (64 * d) % 2 ^ 64 = 2 ^ 64 - 1 then 1 else 0)))

/-- Write bits of a physical vector register; doublewords written whole lose their mark (R429). -/
def Core.wv (c : Core) (phys : Nat) (mask v : Vec) : Core :=
  if h : phys < 64 then
    { c with r := { c.r with
      v := c.r.v.set phys (merge mask v c.r.v[phys])
      vmark := c.r.vmark.set phys (c.r.vmark[phys] &&& ~~~ fullDws mask) } }
  else c

def Core.markV (c : Core) (phys : Nat) (m : BitVec 16) : Core :=
  if h : phys < 64 then { c with r := { c.r with vmark := c.r.vmark.set phys (c.r.vmark[phys] ||| m) } } else c

def Core.wp (c : Core) (phys : Nat) (mask v : Pred) : Core :=
  if h : phys < 16 then { c with r := { c.r with p := c.r.p.set phys (merge mask v c.r.p[phys]) } } else c

/-- Write a handle; h0 is never written (R48). -/
def Core.wh (c : Core) (r : HReg) (v : Cap) (tag : Bool) : Core :=
  if r = 0 then c
  else { c with r := { c.r with h := c.r.h.set r.toNat v, htag := setBit c.r.htag r.toNat tag
                                hmark := setBit c.r.hmark r.toNat false } }

def Core.markH (c : Core) (r : HReg) : Core :=
  if r = 0 then c else { c with r := { c.r with hmark := setBit c.r.hmark r.toNat true } }

def Core.setTile (c : Core) (m : MReg) (t : Tile) : Core := { c with r := { c.r with tiles := c.r.tiles.set m.toNat t } }
def Core.setSlot (c : Core) (o : OSlot) (t : SlotSt) : Core := { c with r := { c.r with slots := c.r.slots.set o.toNat t } }
def Core.flag (c : Core) (f : Flags) : Core := { c with c := { c.c with flags := c.c.flags ||| f } }

/-! ### Results on their way (R52) -/

def Core.push (c : Core) (p : Pend) : Core := { c with t := { c.t with pend := c.t.pend ++ [p] } }

/-- A result of the current slot with latency L. -/
def mkPend (sl : Slot) (lat : Nat) (w : Write) (fl : Flags := 0) : Pend :=
  { rem := lat, lat := lat, slot := sl, xform := false, w := w, flags := fl }

/-! ### Occupancy of the pool (R44, R46) -/

/-- Panels that a kind occupies. -/
def occKind : TileKind → Nat → Nat
  | .empty, _ => 0
  | .lowRank, k => 2 * k
  | _, _ => 32

def Tile.occ (t : Tile) : Nat := occKind t.kind t.rank

def writePanels : Write → List Nat
  | .tile _ _ _ ps _ _ _ => ps
  | .tileRow _ _ ps _ => ps
  | _ => []

def Clock.zero : Clock := List.replicate 8 0
def Clock.get (c : Clock) (d : Nat) : Nat := List.getD c d 0
def Clock.join (a b : Clock) : Clock := (List.range 8).map (fun d => max (Clock.get a d) (Clock.get b d))
/-- Panels occupied or reserved, banked work included (R46, R205). -/
def Core.usedPanels (c : Core) : List Nat :=
  c.r.tiles.toList.flatMap Tile.panels ++ c.t.pend.flatMap (fun p => writePanels p.w) ++ c.t.eng.flatMap EngOp.reserved ++
    (match c.bank with
     | some b => b.t.pend.flatMap (fun p => writePanels p.w) ++ b.t.eng.flatMap EngOp.reserved
     | none => [])

/-- Free panels, lowest index first (log 11). -/
def Core.freePanels (c : Core) : List Nat :=
  let u := c.usedPanels
  (List.range 256).filter (fun p => !u.contains p)

/-- The positions of a core's WHEEL. -/
def wheelOwns (w : BitVec 14) (p : Nat) : Bool := (p + 1024 - (fld w 0 10).toNat) % (1024 / 2 ^ (fld w 12 2).toNat) == 0

/-- Home die of a GLOB address (R23). -/
def homeDie (addr : Nat) : Nat := addr / 2 ^ 36 % 8

/-- Numbers of the owner entries in `Device.owners`: pages, then cores, then clusters. -/
def ownerPage (addr : Nat) : Nat := addr / 2 ^ 21
def ownerCore (n : Nat) : Nat := 2 ^ 20 + n
def ownerClus (c : Nat) : Nat := 2 ^ 21 + c

def State.owner (s : State) (k : Nat) : Owner := lookupD { owner := 0, scrub := false } s.dev.owners k

/-- R345: an entry admits the acting context. -/
def Owner.admits (o : Owner) (a : BitVec 16) : Bool := !o.scrub && (o.owner == a || o.owner == 0)

/-! ### The code arena (R320 to R322) -/

/-- A segment table entry (R320). -/
structure Seg where
  num : Nat
  aline : Nat
  nlines : Nat
  iline : Nat
  next : Nat
  res0 : Bool
  deriving DecidableEq, Repr

/-- The context that a core acts for (R345). -/
def Core.ctx (c : Core) : BitVec 16 := (c.task.map (·.ctx)).getD 0

/-- A read of the arena by the core of a context is allowed, and its home stands (R345, R451). -/
def State.arenaOk (s : State) (ctx : BitVec 16) (a : Nat) : Bool :=
  (s.owner (ownerPage a)).admits ctx && !s.dev.lost.contains (homeDie a)

def State.globNat (s : State) (a n : Nat) : Nat := s.nat (mkey .glob 0 a) n

/-- Entry k of the table at `base`. -/
def State.readSeg (s : State) (base k : Nat) : Seg :=
  let e := s.globNat (base + 16 + 16 * k) 16
  { num := k, aline := e % 2 ^ 32, nlines := e / 2 ^ 84 % 2 ^ 12, iline := e / 2 ^ 73 % 2 ^ 11
    next := e / 2 ^ 100 % 2 ^ 12, res0 := e / 2 ^ 96 % 2 == 1 }

/-- The segment table as a context reads it: an entry that is denied or lost names no segment (R345, log 94). -/
def State.segs (s : State) (ctx : BitVec 16) (base : Nat) : List Seg :=
  if s.arenaOk ctx base then
    ((List.range (s.globNat base 2)).filter (fun k => s.arenaOk ctx (base + 16 + 16 * k))).map (s.readSeg base)
  else []

def Seg.lo (g : Seg) (base : Nat) : Nat := base + 128 * g.aline
def Seg.hi (g : Seg) (base : Nat) : Nat := base + 128 * (g.aline + g.nlines)

/-- The segment that holds an arena address. -/
def State.segOf (s : State) (c : Core) (a : Nat) : Option Seg :=
  let base := c.c.codebase.toNat
  (s.segs c.ctx base).find? (fun g => decide (g.lo base ≤ a) && decide (a < g.hi base))

/-- Two segments share an IMEM line. -/
def Seg.overlaps (g h : Seg) : Bool :=
  decide (g.iline < h.iline + h.nlines) && decide (h.iline < g.iline + g.nlines)

/-- IMEM byte offset of an arena address in a segment. -/
def Seg.imem (g : Seg) (base a : Nat) : Nat := 128 * g.iline + (a - g.lo base)

/-- A code or literal word: the IMEM copy while its segment is resident, else the arena's own bytes (log 14), a free value where their
read is denied or lost (R346, log 4). -/
def State.codeWord (s : State) (n : Nat) (a : Nat) : Word :=
  let c := s.core n
  let own : Word := if s.arenaOk c.ctx a then BitVec.ofNat 32 (s.globNat a 4) else (Config.freeWord s.free).setWidth 32
  match s.segOf c a with
  | some g => if c.k.resident.contains g.num then BitVec.ofNat 32 (s.nat (mkey .imem n (g.imem c.c.codebase.toNat a)) 4) else own
  | none => own

/-- The 32 words of the line that holds an address. -/
def State.codeLine (s : State) (n : Nat) (a : Nat) : List Word :=
  (List.range 32).map (fun w => s.codeWord n (a / 128 * 128 + 4 * w))

/-- IMEM word index of an arena address (R51). -/
def State.imemIdx (s : State) (c : Core) (a : Nat) : BitVec 16 :=
  match s.segOf c a with
  | some g => BitVec.ofNat 16 (g.imem c.c.codebase.toNat a / 4)
  | none => 0

/-- The arena address of an IMEM word index, read in the segment that holds `near`, else in a resident one. -/
def State.addrOfIdx (s : State) (c : Core) (near : Nat) (i : BitVec 16) : Nat :=
  let base := c.c.codebase.toNat
  let inSeg (g : Seg) : Bool := decide (32 * g.iline ≤ i.toNat) && decide (i.toNat < 32 * (g.iline + g.nlines))
  let here := (s.segOf c near).toList.filter inSeg
  let others := (s.segs c.ctx base).filter (fun g => c.k.resident.contains g.num && inSeg g)
  match here ++ others with
  | g :: _ => g.lo base + (4 * i.toNat - 128 * g.iline)
  | [] => base

end Sys2Proof.Machine
end

