-- ==== Sys2Proof/Machine/Operands.lean ====
section
/-! DEFINITION. Operand forms: result latencies (R111, R144, R168, R188, R231), the registers each operation reads and
writes (R57, R71, R141), address stepping (R70) and the predicates of busy and lock bits. -/

namespace Sys2Proof.Machine

/-- Float and integer latencies of R144. -/
def latFI (t : Fmt) (fl int : Nat) : Nat := if t.isFloat then fl else int

/-- VDIV's latencies. -/
def latDiv : Fmt → Nat
  | .f64 => 24
  | .f32 => 12
  | _ => 8

/-- MMOV's latency: max(1, occ / 4) (R188). DESIGN CHOICE (log 94): occ / 4 of an occupation that is not a multiple of four is rounded
down. -/
def latMmov (occ : Nat) : Nat := max 1 (occ / 4)

/-- What an issuing operation reads and writes; vector and predicate registers are physical. A written register comes
with the latency of its result. -/
structure Uses where
  xr : List XReg
  xw : List (XReg × Nat)
  vr : List Nat
  vw : List (Nat × Nat)
  pr : List Nat
  pw : List (Nat × Nat)
  hr : List HReg
  hw : List HReg
  /-- tiles read, tiles written -/
  tr : List MReg
  tw : List MReg
  /-- operand slots read, written or released -/
  sr : List OSlot
  sw : List OSlot
  deriving DecidableEq, Repr

def Uses.none : Uses := ⟨[], [], [], [], [], [], [], [], [], [], [], []⟩

/-- The governing predicate is read when PG ≠ 0. -/
def pgUse (c : Core) (pg : PReg) : List Nat := if pg = 0 then [] else [c.pp pg]

/-- Two, one and no vector sources with a vector destination. -/
def usesVr (c : Core) (f : VrF) (lat : Nat) : Uses :=
  { Uses.none with vr := [c.pv f.vs1, c.pv f.vs2], vw := [(c.pv f.vd, lat)], pr := pgUse c f.pg }
def usesVr3 (c : Core) (f : VrF) (lat : Nat) : Uses :=
  { Uses.none with vr := [c.pv f.vs1, c.pv f.vs2, c.pv f.vd], vw := [(c.pv f.vd, lat)], pr := pgUse c f.pg }
def usesVu (c : Core) (f : VuF) (lat : Nat) : Uses :=
  { Uses.none with vr := [c.pv f.vs1], vw := [(c.pv f.vd, lat)], pr := pgUse c f.pg }
def usesVx (c : Core) (f : VxF) : Uses :=
  { Uses.none with xr := [f.x], vw := [(c.pv f.vd, 1)], pr := pgUse c f.pg }
def usesVc (c : Core) (f : VcF) : Uses :=
  { Uses.none with vr := [c.pv f.vs1, c.pv f.vs2], pw := [(c.pp f.pd, 2)], pr := pgUse c f.pg }
def usesVp (c : Core) (f : VpF) : Uses :=
  { Uses.none with pr := c.pp f.ps1 :: c.pp f.ps2 :: pgUse c f.pg, pw := [(c.pp f.pd, 1)] }
def usesVpx (c : Core) (f : VpxF) : Uses := { Uses.none with pr := c.pp f.ps :: pgUse c f.pg, xw := [(f.x, 2)] }
def usesVsl (c : Core) (f : VslF) : Uses :=
  { Uses.none with vr := [c.pv f.vs1], vw := [(c.pv f.vd, 3)], pr := pgUse c f.pg }
def usesR (f : RF) (lat : Nat) : Uses := { Uses.none with xr := [f.rs1, f.rs2], xw := [(f.rd, lat)] }
def usesI (f : IF) (lat : Nat) : Uses := { Uses.none with xr := [f.rs1], xw := [(f.rd, lat)] }
def usesMa (f : MaF) : Uses := { Uses.none with sr := [f.osa, f.osb], tw := [f.md] }

/-- When a load writes its destination: after three cycles, or at the arrival that it names (R53, R174). -/
def loadLat (landing : Bool) (arr : BitVec 9) : Nat := if landing then arr.toNat else 3

/-- A stepped address register is read only at the slot's first issue (R70). -/
def addrX (re : Bool) (x : XReg) : List XReg := if re then [] else [x]

def usesAmo (re : Bool) (f : AmoF) (cas : Bool) : Uses :=
  { Uses.none with xr := f.xs :: (addrX re f.xi ++ if cas then [f.xd] else []), xw := [(f.xd, 3)], hr := [f.h] }

/-- The stage predicates that LOOP.SP writes where it enters its body (R125). -/
def stageUses (c : Core) (f : BlF) : List (Nat × Nat) :=
  if c.rx f.rs1 = 0 then [] else (List.range (f.stg.toNat + 1)).map (fun k => (c.pp (BitVec.ofNat 4 (8 + k)), 1))

/-- What operation `i` reads and writes when it issues; `re` at a re-issue; `lit` is the literal word it would take
(R211). -/
def Instr.uses (c : Core) (re : Bool) (lit : Word) : Instr → Uses
  | .beq f | .bne f | .blt f | .bge f | .bltu f | .bgeu f => { Uses.none with xr := [f.rs1, f.rs2] }
  | .bpt f | .bpf f => { Uses.none with pr := [c.pp f.p] }
  | .call f => { Uses.none with xw := [(f.rd, 1)] }
  | .ret r | .lend r | .lbrk r | .litset r | .iinv r => { Uses.none with xr := [r] }
  | .loop f | .loopW f => { Uses.none with xr := [f.rs1] }
  | .loopSp f => { Uses.none with xr := [f.rs1], pw := stageUses c f }
  | .lui f | .auipc f => { Uses.none with xw := [(f.rd, 1)] }
  | .addi f | .slti f | .sltiu f | .xori f | .ori f | .andi f | .addiw f => usesI f 1
  | .slli f | .srli f | .srai f => { Uses.none with xr := [f.rs1], xw := [(f.rd, 1)] }
  | .slliw f | .srliw f | .sraiw f => { Uses.none with xr := [f.rs1], xw := [(f.rd, 1)] }
  | .add f | .sub f | .sll f | .slt f | .sltu f | .xor f | .srl f | .sra f | .or f | .and f | .addw f | .subw f
  | .sllw f | .srlw f | .sraw f => usesR f 1
  | .mul f | .mulh f | .mulhsu f | .mulhu f | .mulw f => usesR f 3
  | .div f | .divu f | .rem f | .remu f => usesR f 20
  | .divw f | .divuw f | .remw f | .remuw f => usesR f 12
  | .lb f | .lh f | .lw f | .sld f | .lbu f | .lhu f | .lwu f => usesI f 3
  | .sb f | .sh f | .sw f | .sd f => { Uses.none with xr := [f.rs1, f.rs2] }
  | .csrrw f | .csrrs f | .csrrc f => { Uses.none with xr := [f.rs1], xw := [(f.rd, 1)] }
  | .csrrwi f | .csrrsi f | .csrrci f => { Uses.none with xw := [(f.rd, 1)] }
  | .vadd f | .vsub f | .vmin f | .vmax f => usesVr c f (latFI f.et 4 2)
  | .vmul f => usesVr c f (latFI f.et 4 3)
  | .vdiv f => usesVr c f (latDiv f.et)
  | .vabs f | .vneg f => usesVu c f 2
  | .vfma f | .vfms f => usesVr3 c f 4
  | .vsqrt f | .vrcp f | .vrsqrt f => usesVu c f (latDiv f.et)
  | .vexp2 f | .vlog2 f => usesVu c f 10
  | .vand f | .vor f | .vxor f => usesVr c f 1
  | .vnot f => usesVu c f 1
  | .vshl f | .vshr f | .vsra f | .vadds f | .vsubs f => usesVr c f 2
  | .vmulh f => usesVr c f 3
  | .vbcast f | .vmovx f => usesVx c f
  | .vmov f => usesVu c f 1
  | .viota f => { Uses.none with vw := [(c.pv f.vd, 1)], pr := pgUse c f.pg }
  | .vli f => { Uses.none with vw := [(c.pv f.vd, 1)], pr := pgUse c f.pg }
  | .vcmpEq f | .vcmpNe f | .vcmpLt f | .vcmpLe f | .vcmpUn f | .vcmpLtu f | .vcmpLeu f => usesVc c f
  | .vpand f | .vpor f | .vpxor f => usesVp c f
  | .vpnot f => { Uses.none with pr := c.pp f.ps1 :: pgUse c f.pg, pw := [(c.pp f.pd, 1)] }
  | .vpset f => { Uses.none with pr := pgUse c f.pg, pw := [(c.pp f.pd, 1)] }
  | .vpcnt f | .vpfirst f => usesVpx c f
  | .vsel f => usesVr c f 1
  | .vperm f | .vzip f | .vunzip f => usesVr c f 3
  | .vslideup f | .vslidedn f => usesVsl c f
  | .vcompress f | .vexpand f => usesVu c f 3
  | .vredsum f | .vredmax f | .vredmin f | .vargmax f => usesVu c f 8
  | .vscansum f | .vscanmax f => usesVu c f 10
  | .vbitonic f => { Uses.none with vr := [c.pv f.vs1], vw := [(c.pv f.vd, 2)], pr := pgUse c f.pg }
  | .vmulL6 f =>
    { Uses.none with vr := [c.pv f.vs1, c.pv f.vs2], vw := [(c.pv f.vd, 2)], pr := pgUse c f.pg }
  | .vdotL6 f =>
    { Uses.none with vr := [c.pv f.vs1, c.pv f.vs2, c.pv f.vd], vw := [(c.pv f.vd, 4)], pr := pgUse c f.pg }
  | .vrand f => usesVr c f 12
  | .vld f =>
    { Uses.none with xr := addrX re f.xi, hr := [f.h], vw := [(c.pv f.vt, loadLat f.l f.imm)] }
  | .vst f => { Uses.none with xr := addrX re f.xi, hr := [f.h], vr := [c.pv f.vt] }
  | .vstm f => { Uses.none with xr := addrX re f.xi, hr := [f.h], vr := [c.pv f.vt], pr := pgUse c f.pg }
  | .vgather f =>
    { Uses.none with hr := [f.h], vr := [f.xi.toNat], vw := [(c.pv f.vt, loadLat f.l f.imm)] }
  | .vscatter f => { Uses.none with hr := [f.h], vr := [f.xi.toNat, c.pv f.vt], pr := pgUse c f.pg }
  | .ld f => { Uses.none with xr := addrX re f.xi, hr := [f.h], xw := [(f.xt, loadLat f.l f.imm)] }
  | .st f | .stSc f => { Uses.none with xr := f.xt :: addrX re f.xi, hr := [f.h] }
  | .ldSc f => { Uses.none with xr := addrX re f.xi, hr := [f.h], xw := [(f.xt, loadLat true f.imm)] }
  | .vpref f => { Uses.none with xr := addrX re f.xi, hr := [f.h] }
  | .amoadd f | .amomin f | .amomax f | .amominu f | .amomaxu f | .amoand f | .amoor f | .amoxor f | .amoswap f =>
    usesAmo re f false
  | .amocas f => usesAmo re f true
  | .amoSc f => { Uses.none with xr := f.xs :: addrX re f.xi, xw := [(f.xd, 3)], hr := [f.h] }
  | .lda f => { Uses.none with xr := addrX re f.xi, xw := [(f.x, 3)], hr := [f.h] }
  | .stl f | .cflush f => { Uses.none with xr := f.x :: addrX re f.xi, hr := [f.h] }
  | .vamoadd f | .vamomin f | .vamomax f =>
    { Uses.none with vr := [c.pv f.vt, f.vi.toNat], vw := [(c.pv f.vt, 3)], pr := pgUse c f.pg, hr := [f.h] }
  | .vredst f => { Uses.none with vr := [c.pv f.vt], xr := addrX re f.vi, pr := pgUse c f.pg, hr := [f.h] }
  | .cldh f => { Uses.none with xr := addrX re f.xa, hr := [f.hb], hw := [f.ha] }
  | .csth f => { Uses.none with xr := addrX re f.xa, hr := [f.hb, f.ha] }
  | .cnarrow f => { Uses.none with xr := [f.xa, f.xb], hr := [f.hb], hw := [f.ha] }
  | .cget f => { Uses.none with hr := [f.hb], xw := [(f.xa, 1)] }
  | .cmov f => { Uses.none with hr := [f.hb], hw := [f.ha] }
  | .cclr ha => { Uses.none with hw := [ha] }
  | .binit f => { Uses.none with xr := [f.xa, f.xb], hr := [f.hb] }
  | .blink f => { Uses.none with xr := [f.xa, f.xb], hr := [f.hb, f.ha] }
  | .barrive f => { Uses.none with xr := [f.xa], xw := [(f.xb, 1)], hr := [f.hb] }
  | .bwaitp f => { Uses.none with xr := [f.xa, f.xb], xw := [(f.xb, 1)], hr := [f.hb] }
  | .oclaim os | .orelease os => { Uses.none with sw := [os] }
  | .oload f => { Uses.none with vr := [c.pv f.v], sw := [f.os] }
  | .wload f => { Uses.none with xr := addrX re f.xi, hr := [f.h], sw := [f.os] }
  | .mzero f => { Uses.none with tw := [f.md] }
  | .mmov f => { Uses.none with tr := [f.ms1], tw := [f.md] }
  | .mrd f => { Uses.none with tr := [f.md], vw := [(c.pv f.v, 4)] }
  | .mwr f => { Uses.none with vr := [c.pv f.v], tw := [f.md] }
  | .mmaF64 f | .mmaF32 f | .mmaBf16 f | .mmaF16 f | .mmaI8 f | .mmaI4 f | .mmaL6 f | .mmaS24 f | .mmaS14 f =>
    usesMa f
  | .mlrset f => { Uses.none with sr := [f.os], xr := [f.xs], tw := [f.md] }
  | .mlrmul f | .mlrdm f | .mdmlr f | .mlradd f => { Uses.none with tr := [f.ms1, f.ms2], tw := [f.md] }
  | .mrecomp f | .mdense f => { Uses.none with tr := [f.ms1], tw := [f.md] }
  | .mrank f => { Uses.none with tr := [f.ms1], xw := [(f.xs, 1)] }
  | .mbflyC64 f | .mbflyC128 f =>
    { Uses.none with
      tr := [f.ms1], tw := [f.md]
      xr := if fld lit 4 2 == 3 then [f.xs] else []
      xw := if fld lit 4 2 == 3 then [(f.xs, 1)] else [] }
  | .mbrev f =>
    if bit lit 0 then { Uses.none with sr := [f.os], tw := [f.md] }
    else { Uses.none with tr := [f.ms1], tw := [f.md] }
  | .mtwmulC64 f | .mtwmulC128 f => { Uses.none with tr := [f.ms1], tw := [f.md], xr := [f.xs] }
  | .cjob f | .cwpe f => { Uses.none with xr := addrX re f.xi, hr := [f.h], xw := [(f.xd, 1)] }
  | .cjobv f => { Uses.none with vr := [c.pv f.vs], xw := [(f.xd, 1)] }
  | .cquery f => { Uses.none with xr := [f.xa], xw := [(f.xd, 1)] }
  | .ccancel xa => { Uses.none with xr := [xa] }
  | .csignal f => { Uses.none with xr := [f.xa, f.xb], hr := [f.h], xw := [(f.xd, 1)] }
  | .xexpS24 f | .xexpS14 f => { Uses.none with vr := [c.pv f.vs] }
  | .xunpkL6 f | .xunpkI4 f | .xpackL6 f | .xpackI4 f => { Uses.none with vr := [c.pv f.vs] }
  | .xtr f => { Uses.none with vr := [c.pv f.vs] }
  | .xcvt f => { Uses.none with vr := [c.pv f.vs] }
  | .xscale xs => { Uses.none with xr := [xs] }
  | _ => Uses.none

/-- R71: read ports that an operation demands. -/
def Instr.demand (c : Core) (i : Instr) : Nat := (Instr.uses c false 0 i).vr.length

/-- Whether an operation is of the M slot and so takes a literal word (R79). -/
def Instr.takesLiteral : Instr → Bool
  | .oclaim _ | .orelease _ | .oload _ | .wload _ | .mzero _ | .mmov _ | .mrd _ | .mwr _ | .mmaF64 _ | .mmaF32 _
  | .mmaBf16 _ | .mmaF16 _ | .mmaI8 _ | .mmaI4 _ | .mmaL6 _ | .mmaS24 _ | .mmaS14 _ | .mlrset _ | .mlrmul _
  | .mlrdm _ | .mdmlr _ | .mlradd _ | .mrecomp _ | .mdense _ | .mrank _ | .mbflyC64 _ | .mbflyC128 _ | .mbrev _
  | .mtwmulC64 _ | .mtwmulC128 _ => true
  | _ => false

/-- Engine operations, which count in CNT.TL and run on the timeline of R199 (R195, R202, R209). -/
def Instr.isEngine : Instr → Bool
  | .mmaF64 _ | .mmaF32 _ | .mmaBf16 _ | .mmaF16 _ | .mmaI8 _ | .mmaI4 _ | .mmaL6 _ | .mmaS24 _ | .mmaS14 _
  | .mlrset _ | .mlrmul _ | .mlrdm _ | .mdmlr _ | .mlradd _ | .mrecomp _ | .mdense _ | .mbflyC64 _ | .mbflyC128 _
  | .mbrev _ | .mtwmulC64 _ | .mtwmulC128 _ => true
  | _ => false

def Instr.isSc : Instr → Bool
  | .ldSc _ | .stSc _ | .amoSc _ => true
  | _ => false

/-! ### The offset of an access and its stepping (R70, R174, R169, R191, R239) -/

/-- sext(IMM9, 9) * 16 as a 48-bit amount. -/
def imm16 (imm : BitVec 9) : BitVec 48 := imm.signExtend 48 <<< 4

/-- x[XI] + an amount, kept modulo 2^48 (R70). -/
def xoff (c : Core) (xi : XReg) (d : BitVec 48) : BitVec 48 := (c.rx xi).setWidth 48 + d

/-- The offset of a form whose address register is read at its slot's first issue alone, as encoded (R68, R70); none for another form. -/
def Instr.firstOff (c : Core) : Instr → Option (BitVec 48)
  | .vld f => some (xoff c f.xi (if f.l then 0 else imm16 f.imm))
  | .vst f => some (xoff c f.xi (imm16 f.imm))
  | .vstm f => some (xoff c f.xi 0)
  | .vpref f => some (xoff c f.xi (imm16 f.imm))
  | .ld f => some (xoff c f.xi (if f.l then 0 else imm16 f.imm))
  | .st f | .stSc f => some (xoff c f.xi (imm16 f.imm))
  | .ldSc f => some (xoff c f.xi 0)
  | .cldh f | .csth f => some (xoff c f.xa (f.imm.signExtend 48 <<< 5))
  | .wload f => some (xoff c f.xi 0)
  | .cjob f | .cwpe f => some (xoff c f.xi (f.off.setWidth 48 <<< 6))
  | .amoadd f | .amomin f | .amomax f | .amominu f | .amomaxu f | .amoand f | .amoor f | .amoxor f | .amoswap f | .amocas f =>
    some (xoff c f.xi 0)
  | .amoSc f => some (xoff c f.xi 0)
  | .lda f | .stl f | .cflush f => some (xoff c f.xi 0)
  | .vredst f => some (xoff c f.vi 0)
  | _ => none

/-- One step of the offset (R70); the VT forms and VREDST take none. -/
def Instr.stepOff (o : BitVec 48) : Instr → BitVec 48
  | .vld _ | .vst _ | .vstm _ | .vpref _ => o + 128
  | .ld _ | .st _ | .ldSc _ | .stSc _ => o + 8
  | .cldh _ | .csth _ => o + 32
  | .wload f => o + (f.step.signExtend 48 <<< 8)
  | .cjob f | .cwpe f => o + (f.step.signExtend 48 <<< 6)
  | _ => o

/-- One step of the register fields of MA and of ROW and OS (R70). -/
def stepMa (f : MaF) : MaF :=
  { f with osa := f.osa + f.sta.setWidth 5, osb := f.osb + f.stb.setWidth 5, md := f.md + f.std.setWidth 4 }

def Instr.stepFields : Instr → Instr
  | .mmaF64 f => .mmaF64 (stepMa f)
  | .mmaF32 f => .mmaF32 (stepMa f)
  | .mmaBf16 f => .mmaBf16 (stepMa f)
  | .mmaF16 f => .mmaF16 (stepMa f)
  | .mmaI8 f => .mmaI8 (stepMa f)
  | .mmaI4 f => .mmaI4 (stepMa f)
  | .mmaL6 f => .mmaL6 (stepMa f)
  | .mmaS24 f => .mmaS24 (stepMa f)
  | .mmaS14 f => .mmaS14 (stepMa f)
  | .oload f => .oload { f with row := f.row + f.rstep }
  | .mrd f => .mrd { f with row := f.row + f.rstep }
  | .mwr f => .mwr { f with row := f.row + f.rstep }
  | .wload f => .wload { f with os := f.os + f.ostep }
  | i => i

/-- A standing operation one step on. -/
def Standing.step (st : Standing) : Standing :=
  { op := Instr.stepFields st.op, off := st.off.map (fun o => Instr.stepOff o st.op) }

/-- The offset of the issue: the stepped one, else the encoded one. -/
def State.offset (s : State) (i : Instr) : BitVec 48 :=
  match s.iss.off with
  | some o => o
  | none => (Instr.firstOff s.cur i).getD 0

/-! ### Busy and lock bits (R57, R111, R141, R169, R209, R225) -/

/-- Whether a pending write goes to an x register; its remaining count and whether the S slot made it. -/
def pendX (p : Pend) (r : XReg) : Bool :=
  match p.w with
  | .x r' _ => r' == r
  | .xMarked r' _ => r' == r
  | _ => false

def pendV (p : Pend) (n : Nat) : Bool :=
  match p.w with
  | .v k _ _ => k == n
  | .vMarked k _ _ _ => k == n
  | _ => false

def pendP (p : Pend) (n : Nat) : Bool :=
  match p.w with
  | .p k _ _ => k == n
  | _ => false

def pendH (p : Pend) (r : HReg) : Bool :=
  match p.w with
  | .h r' _ _ => r' == r
  | .hMarked r' _ _ => r' == r
  | _ => false

def pendTile (p : Pend) (m : MReg) : Bool :=
  match p.w with
  | .tile m' _ _ _ _ _ _ => m' == m
  | .tileRow m' _ _ _ => m' == m
  | _ => false

/-- An outstanding access will write this x register. -/
def Access.writesX (a : Access) (r : XReg) : Bool :=
  match a.kind with
  | .lda d | .amo _ d _ _ => d == r && r != 0
  | _ => false

def Access.writesV (a : Access) (n : Nat) : Bool :=
  match a.kind with
  | .vamo op k _ _ _ _ _ => op != .redst && k == n
  | _ => false

def Access.writesH (a : Access) (r : HReg) : Bool :=
  match a.kind with
  | .cldh d => d == r
  | _ => false

/-- An engine operation keeps x[r] busy (R225). -/
def EngOp.busyX (o : EngOp) (r : XReg) : Bool :=
  match o.xdest with
  | some (d, _) => d == r && r != 0
  | none => false

def Core.engX (t : Timing) (r : XReg) : Bool := t.eng.any (·.busyX r)

/-- x[r] is busy for a reader. -/
def Core.busyX (c : Core) (r : XReg) : Bool :=
  r != 0 && (c.t.pend.any (pendX · r) || c.m.accs.any (·.writesX r) || Core.engX c.t r)

/-- A write of x[r] with latency `lat` stalls: a busy S result, a result due not earlier, an outstanding access. -/
def Core.blockX (c : Core) (r : XReg) (lat : Nat) : Bool :=
  r != 0 && (c.t.pend.any (fun p => pendX p r && (p.slot == .s || decide (lat ≤ p.rem))) ||
    c.m.accs.any (·.writesX r) || Core.engX c.t r)

/-- Transform results carry no busy bit (R232). -/
def Core.busyV (c : Core) (n : Nat) : Bool :=
  c.t.pend.any (fun p => pendV p n && !p.xform) || c.m.accs.any (·.writesV n) ||
    c.deferred.any (fun t => t.replay.any (·.writesV n))

def Core.blockV (c : Core) (n lat : Nat) : Bool :=
  c.t.pend.any (fun p => pendV p n && !p.xform && decide (lat ≤ p.rem)) || c.m.accs.any (·.writesV n) ||
    c.deferred.any (fun t => t.replay.any (·.writesV n))

def Core.busyP (c : Core) (n : Nat) : Bool := c.t.pend.any (pendP · n)
def Core.blockP (c : Core) (n lat : Nat) : Bool := c.t.pend.any (fun p => pendP p n && decide (lat ≤ p.rem))
def Core.busyH (c : Core) (r : HReg) : Bool := c.m.accs.any (·.writesH r) || c.t.pend.any (fun p => pendH p r)

/-- A tile is busy while a write of it is outstanding (R57, R188). -/
def Timing.busyTile (t : Timing) (m : MReg) : Bool := t.pend.any (pendTile · m) || t.eng.any (·.md == m)
/-- A tile is held while an engine operation reads it (R209). -/
def Timing.heldTile (t : Timing) (m : MReg) : Bool := t.eng.any (fun o => o.tiles.contains m)
/-- A slot is locked while an engine operation reads it (R57, R200). -/
def Timing.lockedSlot (t : Timing) (o : OSlot) : Bool := t.eng.any (fun e => e.slots.contains o)
/-- A slot is fill-pending while a WLOAD fills it (R187). -/
def Timing.fillPending (t : Timing) (o : OSlot) : Bool := t.fills.any (·.os == o)

/-- A pending OLOAD, OCLAIM or ORELEASE result is due in one cycle and never blocks. -/
def Uses.stallsOn (u : Uses) (t : Timing) : Bool :=
  u.tr.any t.busyTile || u.tw.any (fun m => t.busyTile m || t.heldTile m) || u.sr.any t.fillPending ||
    u.sw.any (fun o => t.fillPending o || t.lockedSlot o)

/-- Phase 1 of R402 for one operation, class counters apart. -/
def Core.stalls (c : Core) (u : Uses) : Bool :=
  u.xr.any c.busyX || u.xw.any (fun (r, l) => c.blockX r l) || u.vr.any c.busyV || u.vw.any (fun (n, l) => c.blockV n l) ||
    u.pr.any c.busyP || u.pw.any (fun (n, l) => c.blockP n l) || u.hr.any c.busyH || u.hw.any c.busyH || u.stallsOn c.t

/-- A vector register that waits for a banked result (R188, R388). -/
def Timing.busyV (t : Timing) (n : Nat) : Bool := t.pend.any (fun p => pendV p n && !p.xform)

/-- A stall on banked work (R205, R388). -/
def Core.stallsBanked (c : Core) (u : Uses) : Bool :=
  match c.bank with
  | some b =>
    u.stallsOn b.t || u.xr.any (Core.engX b.t) || u.xw.any (fun w => Core.engX b.t w.1) ||
      u.vr.any b.t.busyV || u.vw.any (fun w => b.t.busyV w.1)
  | none => false

/-! ### Class counters (R57) -/

/-- How much an operation's issue raises the counters of CNT. -/
structure Raise where
  st : Nat
  cp : Nat
  tl : Nat
  wl : Nat
  deriving DecidableEq, Repr

/-- The handle names a space other than SPAD; an untagged one names none (log 85). -/
def Core.outside (c : Core) (h : HReg) : Bool := c.rhtag h && fld (c.rh h) 104 3 != 0

/-- Operations that count in CNT.ST, by the handle they go through: stores, atomics and CFLUSH outside SPAD, and the
barrier requests (R169, R174, R178 to R182, R282). -/
def Instr.countsSt (c : Core) : Instr → Bool
  | .vst f => c.outside f.h
  | .vstm f => c.outside f.h && c.pg f.pg != 0
  | .vscatter f => c.outside f.h && (List.range 32).any (fun j => (c.pg f.pg).getLsbD (4 * j))
  | .st f | .stSc f => c.outside f.h
  | .amoadd f | .amomin f | .amomax f | .amominu f | .amomaxu f | .amoand f | .amoor f | .amoxor f | .amoswap f
  | .amocas f => c.outside f.h
  | .amoSc f => c.outside f.h
  | .stl f => c.outside f.h
  | .cflush f => c.outside f.h && c.rx f.x != 0
  | .vamoadd f | .vamomin f | .vamomax f | .vredst f => c.outside f.h
  | .csth f => c.outside f.hb
  | .binit _ | .blink _ | .barrive _ => true
  | _ => false

/-- What the class of an operation counts, whatever its checks will find (R57, R402). -/
def Instr.raises (c : Core) (i : Instr) : Raise :=
  { st := if Instr.countsSt c i then 1 else 0
    cp := match i with
      | .cjob _ | .cwpe _ | .cjobv _ | .csignal _ => 1
      | _ => 0
    tl := if Instr.isEngine i then 1 else 0
    wl := match i with
      | .wload _ => 1
      | _ => 0 }

def Raise.sum (l : List Raise) : Raise :=
  { st := (l.map (·.st)).sum, cp := (l.map (·.cp)).sum, tl := (l.map (·.tl)).sum, wl := (l.map (·.wl)).sum }

/-! ### Poison on register operands (R427, R429) -/

/-- The marked register parts that an operation reads. -/
def Core.marks (c : Core) (u : Uses) : List Holder :=
  (u.xr.filter (fun r => bit c.r.xmark r.toNat)).map .x ++
    u.vr.flatMap (fun n => (List.range 16).filterMap (fun d =>
      if (c.r.vmark[n]?.getD 0).getLsbD d then some (.v n d) else none)) ++
    (u.hr.filter (fun r => bit c.r.hmark r.toNat)).map .h

/-- TVAL of a consumed register (R429). -/
def Holder.tval : Holder → DWord
  | .x r => 0x8000000000000000 + r.setWidth 64
  | .v n _ => 0x8000000000000000 + BitVec.ofNat 64 (32 + n)
  | .h r => 0x8000000000000000 + BitVec.ofNat 64 (96 + r.toNat)
  | .row os r => BitVec.ofNat 64 (os.toNat * 256 + r / 2)
  | .granule k => BitVec.ofNat 64 (k * 32)

end Sys2Proof.Machine
end

