-- ==== Sys2Proof/Machine/Contain.lean ====
section
/-! DEFINITION. Containment (R391 to R396): groups and their tasks, killing, restarting and aborting, zero substitution
and the containment log. -/

namespace Sys2Proof.Machine

def State.setSched (s : State) (q : Sched) : State := { s with dev := { s.dev with sched := q } }

def State.setProt (s : State) (p : Prot) : State := { s with dev := { s.dev with prot := p } }

def State.findLaunch (s : State) (id : Nat) : Option Launch := s.dev.sched.launches.find? (·.id == id)

def State.setLaunch (s : State) (l : Launch) : State :=
  s.setSched { s.dev.sched with launches := s.dev.sched.launches.map (fun k => if k.id = l.id then l else k) }

/-! ### Groups (R27, R28, R461) -/

/-- The declaration of level 1 to 4 of a launch. -/
def Launch.level (l : Launch) (k : Nat) : Option Level :=
  match l.levels[k - 1]? with
  | some v => if k ≠ 0 ∧ v.decl then some v else none
  | none => none

/-- The number of an index's group at a level; the task itself at the core level. -/
def Launch.groupOf (l : Launch) (k idx : Nat) : Nat :=
  match l.level k with
  | some v => idx / v.size
  | none => idx

/-- The group at a declared level, with what the launch remembers of it. -/
def Launch.groupSt (l : Launch) (k g : Nat) : GroupSt :=
  (l.groups.find? (fun x => x.level == k && x.group == g)).getD { level := k, group := g, unit := none, tries := 0 }

def Launch.setGroup (l : Launch) (x : GroupSt) : Launch :=
  { l with groups := l.groups.filter (fun y => !(y.level == x.level && y.group == x.group)) ++ [x] }

/-- Declared levels from `k` upwards, the core level included. -/
def Launch.levelsFrom (l : Launch) (k : Nat) : List Nat :=
  ([0, 1, 2, 3, 4] : List Nat).filter (fun j => decide (k ≤ j) && (j == 0 || (l.level j).isSome))

/-- The containment policy at a level (R391). -/
def Launch.policy (l : Launch) (k : Nat) : BitVec 2 :=
  if k = 0 then l.cpol else ((l.level k).map (·.pol)).getD 2

def State.isProtected (s : State) (ctx : BitVec 16) : Bool := s.dev.prot.ctxs.any (fun e => e.2.ctx == ctx)

/-- R348: the owner of a core admits a task of the context. -/
def State.placeable (s : State) (ctx : BitVec 16) (n : Nat) : Bool :=
  let o := s.owner (ownerCore n)
  !o.scrub && (if s.isProtected ctx then o.owner == ctx else o.owner == 0)

/-- The core is in service on a live die. -/
def State.inService (s : State) (n : Nat) : Bool :=
  !(s.core n).out && !s.dev.lost.contains (dieOf n) && decide (n < 768)

/-- The unit of a level that holds a core; at the package level 0 is this package, and 1 + p package p. -/
def unitOf (k n : Nat) : Nat := if k = 1 then clusterOf n else if k = 2 then dieOf n else 0

/-- Cores that a launch may use on its dies. -/
def State.usable (s : State) (ctx : BitVec 16) (dies : List Nat) : List Nat :=
  (List.range 768).filter (fun n => dies.contains (dieOf n) && s.inService n && s.placeable ctx n)

/-- A core lies in the units of the declared levels from `lo` up that hold the index's groups, where they are fixed. -/
def Launch.unitsFrom (l : Launch) (lo i n : Nat) : Bool :=
  l.dies.contains (dieOf n) &&
    ([1, 2, 3] : List Nat).all (fun k => decide (k < lo) ||
      match l.level k with
      | some _ => (l.groupSt k (l.groupOf k i)).unit.all (· == unitOf k n)
      | none => true)

/-- A core lies in the unit of every declared level that holds the index's group, where that is fixed (R461). -/
def Launch.inUnits (l : Launch) (i n : Nat) : Bool := l.unitsFrom 1 i n

/-- The index's group at the package level may lie in a package, by the number of that unit (R461). -/
def Launch.mayTake (l : Launch) (unit i : Nat) : Bool :=
  (l.level 3).isNone || (l.groupSt 3 (l.groupOf 3 i)).unit.all (· == unit)

/-- The participating dies that are live, in the order of their location codes. -/
def State.liveDies (s : State) (l : Launch) : List Nat := l.dies.filter (fun d => !s.dev.lost.contains d)

/-- The leader lies in this package: no participating package of lower id is left (R336, R454). -/
def State.leads (s : State) (l : Launch) : Bool :=
  (List.range l.pkgs).all (fun k => decide (s.pkgId.toNat ≤ l.pkgFirst + k) || s.dev.link.lostPkgs.contains (l.pkgFirst + k))

/-- The other participating packages that are not lost. -/
def State.awayPkgs (s : State) (l : Launch) : List Nat :=
  ((List.range l.pkgs).map (· + l.pkgFirst)).filter (fun p => p != s.pkgId.toNat && !s.dev.link.lostPkgs.contains p)

/-- A die has a buddy other than itself, whose acknowledgement a claim or an end waits for (R453). -/
def State.hasBuddy (s : State) (l : Launch) : Bool := decide (1 < (s.liveDies l).length) || !(s.awayPkgs l).isEmpty

/-- The highest level with the co-residence flag; a gang there holds those below. -/
def Launch.gangLevel (l : Launch) : Option Nat :=
  ([4, 3, 2, 1] : List Nat).find? (fun k => (l.level k).any (·.gang))

/-- Two indices start, stop and come back together. -/
def Launch.sameGang (l : Launch) (i j : Nat) : Bool :=
  i == j || (match l.gangLevel with
    | some k => l.groupOf k i == l.groupOf k j
    | none => false)

/-- How many tasks an index's gang has. -/
def Launch.gangSize (l : Launch) (i : Nat) : Nat :=
  match l.gangLevel with
  | some k => ((l.level k).map (fun v => min v.size (l.nidx - l.groupOf k i * v.size))).getD 1
  | none => 1

/-! ### Write-back of an L1 (R252, R253) -/

def State.setMs (s : State) (m : MemSys) : State := { s with dev := { s.dev with ms := m } }

/-- The same line with nothing to write back. -/
def CLine.cleaned (l : CLine) : CLine := { l with dirty := false, mask := 0 }

/-- What the chosen dirty lines of the L1s hold goes to their slices (R252, R253): their bytes are there, so their marks are what is
left; they stay, clean. -/
def State.cleanL1 (s : State) (sel : Nat → CLine → Bool) : State :=
  let gone := s.cores.flatMap (fun (n, c) => (c.m.l1.filter (fun l => l.dirty && sel n l)).map (fun l => (clusterOf n, l)))
  if gone.isEmpty then s
  else
    let s := s.setMs { s.dev.ms with lines := s.dev.ms.lines.map (fun (c, l) =>
      (c, gone.foldl (fun l e => if e.1 = c ∧ e.2.key = l.key then { l with marks := l.marks ||| e.2.marks, dirty := true } else l) l)) }
    { s with cores := s.cores.map (fun (n, c) =>
        (n, { c with m := { c.m with l1 := c.m.l1.map (fun l => if l.dirty && sel n l then l.cleaned else l) } })) }

/-! ### Killing (R393) -/

/-- A core's task is resident and has not been killed. -/
def Core.alive (c : Core) : Bool := c.task.isSome && c.mode != .dying

/-- GLOB lines of an L1; HOST and PEER lines go when the task ends (R49). -/
def keepGlob (l : List CLine) : List CLine := l.filter (fun x => x.key / 2 ^ 64 / 65536 == MSpace.glob.code)

/-- A core once its task has gone: service state and coherent L1 lines stay, and its registers hold what the task left until
the next first issue or restore (R49). -/
def Core.freed (c : Core) : Core :=
  { Core.idle with
    r := c.r, c := c.c, tr := c.tr, out := c.out, testReq := c.testReq, last5 := c.last5
    m := { MemSide.empty with l1 := keepGlob c.m.l1, sample := c.m.sample } }

/-- Stores and atomics that have issued run on to their homes. -/
def Access.outlives (a : Access) : Bool :=
  match a.kind with
  | .store _ | .csth _ _ | .amo _ _ _ _ => true
  | _ => false

/-- R393: tiles are emptied and slots released. -/
def Core.emptied (c : Core) : Core :=
  { c with r := { c.r with tiles := .replicate 16 .empty, slots := c.r.slots.map (fun t => { t with claimed := false }) } }

/-- A core whose task is killed: everything that R393 names is dropped; the core is free once its stores are performed. -/
def Core.killed (c : Core) : Core :=
  let c := c.emptied
  let accs := (c.m.accs.filter Access.outlives).map (fun a => { a with counted := false, acq := none })
  if accs.isEmpty then c.freed
  else { c.freed with task := c.task, mode := .dying
                      m := { c.freed.m with accs := accs, fences := c.m.fences, nextId := c.m.nextId } }

/-- The task's jobs are cancelled: copy jobs at once, a WPE job at its next block switch (R248, R393). -/
def State.cancelJobs (s : State) (uid : Nat) : State :=
  { s with dev := { s.dev with jobs := s.dev.jobs.filterMap (fun j =>
    if j.owner = .task uid ∧ !j.signalled then
      match j.work with
      | .wpe _ => if j.build.isSome then some { j with cancel := true, paused := false } else none
      | _ => none
    else some j) } }

/-- Nobody's buddy holds the index any more (R453). -/
def Launch.unmirror (l : Launch) (i : Nat) : Launch :=
  { l with mirrors := l.mirrors.map (fun (d, is) => (d, is.filter (· != i))), ending := l.ending.filter (· != i) }

/-- The launch of a task loses one live task, and the mirror of its end counts. -/
def State.endOf (s : State) (t : Task) : State :=
  match s.findLaunch t.launch with
  | some l => s.setLaunch { l.unmirror t.index with live := l.live - 1 }
  | none => s

/-- Another instance of the index lives, or is to start: a restart has taken the place of the task. -/
def State.superseded (s : State) (l : Launch) (t : Task) : Bool :=
  let same (u : Task) : Bool := u.launch == t.launch && u.index == t.index && u.uid != t.uid
  l.again.contains t.index || s.cores.any (fun (_, c) => c.alive && c.task.any same) || s.dev.sched.saved.any (fun v => same v.task)

/-- A killed task ends (R393): a release at package scope of what its die `die` has made known (R292, R337). With a buddy it counts once
the mirror of the end is acknowledged (R453); of a task that a restart has replaced nothing is left to count. -/
def State.killEnd (s : State) (die : Nat) (t : Task) : State :=
  let s := { s with dev := { s.dev with ms := { s.dev.ms with
    taskClock := Clock.join s.dev.ms.taskClock (s.dev.ms.clocks.getD die Clock.zero) } } }
  match s.findLaunch t.launch with
  | none => s
  | some l =>
    if s.superseded l t then s.setLaunch { l with live := l.live - 1 }
    else if s.hasBuddy l ∧ !s.dev.lost.contains die then s.setLaunch { l with unacked := l.unacked ++ [t.index] }
    else s.endOf t

/-- The mirrors of killed tasks' ends are acknowledged. -/
def Launch.ackEnds (l : Launch) : Launch :=
  { l.unacked.foldl Launch.unmirror l with live := l.live - l.unacked.length, unacked := [] }

/-- R354: the image slot of a task that is restored, killed or deleted is no longer held. -/
def State.unhold (s : State) (uid : Nat) : State :=
  { s with dev := { s.dev with prot := { s.dev.prot with
    ctxs := s.dev.prot.ctxs.map (fun (k, c) => (k, { c with held := c.held.filter (·.2 != uid) })) } } }

/-- Requests of core n's dropped accesses that are still on their way do nothing at their home but carry their stamp. -/
def State.dropRequests (s : State) (n : Nat) (kept : List Access) : State :=
  { s with dev := { s.dev with ms := { s.dev.ms with msgs := s.dev.ms.msgs.map (fun m =>
    match m.body with
    | .atomic c a _ => if c = n ∧ !kept.any (·.id == a) then { m with body := .announce [] } else m
    | _ => m) } } }

/-- Kill the task of a core. It has ended once its stores are performed (R331, R337). -/
def State.killCore (s : State) (n : Nat) : State :=
  let c := s.core n
  match c.task with
  | some t =>
    if c.mode = .dying then s
    else
      let s := s.cleanL1 (fun m _ => m == n)
      let c := s.core n
      let s := ((s.setCore n c.killed).dropRequests n c.killed.m.accs).cancelJobs t.uid
      if c.killed.mode = .dying then s else s.killEnd (dieOf n) t
  | none => s

/-- Kill a pre-empted task. -/
def State.killSaved (s : State) (v : Saved) : State :=
  ((({ s with dev := { s.dev with sched := { s.dev.sched with
    saved := s.dev.sched.saved.filter (·.task.uid != v.task.uid) } } }).unhold v.task.uid).cancelJobs v.task.uid).killEnd (dieOf v.home) v.task

/-- The task belongs to a group. -/
def inGroup (l : Launch) (k g : Nat) (t : Task) : Bool := t.launch == l.id && l.groupOf k t.index == g

/-- Indices of the launch's live tasks. -/
def State.liveIndices (s : State) (l : Launch) : List Nat :=
  s.cores.filterMap (fun (_, c) => match c.task with
    | some t => if c.alive && t.launch == l.id then some t.index else none
    | none => none) ++
  s.dev.sched.saved.filterMap (fun v => if v.task.launch == l.id then some v.task.index else none)

/-- The indices of a group leave the launch's lists. -/
def Launch.dropGroup (l : Launch) (k g : Nat) : Launch :=
  let out (is : List Nat) : List Nat := is.filter (fun i => l.groupOf k i != g)
  let outs (e : Nat × List Nat) : Nat × List Nat := (e.1, out e.2)
  { l with again := out l.again, returned := out l.returned, claims := l.claims.map outs, pending := l.pending.map outs }

/-- Kill every task of a group: on cores, pre-empted, and those that have not started. -/
def State.killGroup (s : State) (l : Launch) (k g : Nat) : State :=
  let on := s.cores.filterMap (fun (n, c) => match c.task with
    | some t => if c.alive && inGroup l k g t then some n else none
    | none => none)
  let off := s.dev.sched.saved.filter (fun v => inGroup l k g v.task)
  let s := on.foldl State.killCore s
  let s := off.foldl State.killSaved s
  match s.findLaunch l.id with
  | some l => if k = 0 then s else s.setLaunch { l.dropGroup k g with dead := l.dead ++ [(k, g)] }
  | none => s

/-- A restart: the group's tasks are killed, and those that were alive when the decision began (`l0`, `was`) start again,
kills at lower levels undone; those that had not started start as before. The ends that it replaces need no mirror. -/
def State.restartGroup (s : State) (l0 l : Launch) (was : List Nat) (k g : Nat) : State :=
  let idx := was.filter (fun i => l.groupOf k i == g)
  let on := s.cores.filterMap (fun (n, c) => match c.task with
    | some t => if c.alive && inGroup l k g t then some n else none
    | none => none)
  let off := s.dev.sched.saved.filter (fun v => inGroup l k g v.task)
  let s := off.foldl State.killSaved (on.foldl State.killCore s)
  match s.findLaunch l.id with
  | some l => s.setLaunch { l with
      again := idx.foldl KeySet.add l0.again, dead := l0.dead, returned := l0.returned, claims := l0.claims, pending := l0.pending
      live := l.live - l.unacked.countP idx.contains, unacked := l.unacked.filter (fun i => !idx.contains i) }
  | none => s

/-- Settle a packet's outcome: cause 0 completes it, another aborts it (R331); PACKET_COMPLETE does the rest. -/
def State.packetOutcome (s : State) (pid : Nat) (cause : BitVec 8) : State :=
  s.setSched { s.dev.sched with packets := s.dev.sched.packets.map (fun p =>
    if p.id = pid ∧ p.outcome.isNone then { p with outcome := some cause } else p) }

/-- Every task of the launch is killed and its packet aborted with the original cause (R392). -/
def State.abortLaunch (s : State) (l : Launch) (cause : BitVec 8) : State :=
  let on := s.cores.filterMap (fun (n, c) => match c.task with
    | some t => if c.alive && t.launch == l.id then some n else none
    | none => none)
  let off := s.dev.sched.saved.filter (fun v => v.task.launch == l.id)
  let s := off.foldl State.killSaved (on.foldl State.killCore s)
  (s.setSched { s.dev.sched with launches := s.dev.sched.launches.filter (·.id != l.id) }).packetOutcome l.packet cause

/-! ### Zero substitution (R394, R429) -/

/-- The owner entry that governs a byte (R344). -/
def ownerKey (key : Nat) : Option Nat :=
  if keySpace key = MSpace.glob.code then some (ownerPage (keyOff key))
  else if keySpace key = MSpace.clus.code then some (ownerClus (keyUnit key))
  else if keySpace key = MSpace.spad.code then some (ownerCore (keyUnit key))
  else none

/-- The entry that the complex's and the host's accesses are checked under: they are held while a new entry waits, and it is
the one that they meet then (R347). -/
def State.ownerNext (s : State) (k : Nat) : Owner := ((s.dev.prot.owed.find? (·.1 == k)).map (·.2)).getD (s.owner k)


/-- A held line with a granule zeroed: its mark and tag go, and its home has these bytes. -/
def CLine.zeroed (l : CLine) (g : Nat) : CLine :=
  if l.key ≤ 32 * g ∧ 32 * g < l.key + 256 then
    let o := 32 * g - l.key
    { l with
      bytes := l.bytes.take o ++ List.replicate (l.bytes.drop o |>.take 32).length 0 ++ l.bytes.drop (o + 32)
      marks := setBit l.marks (o / 32) false, tags := setBit l.tags (o / 32) false
      mask := (List.range 32).foldl (fun m i => setBit m (o + i) false) l.mask
      rels := l.rels.filter (fun e => decide (e.1 < 32 * g) || decide (32 * g + 32 ≤ e.1)) }
  else l

/-- A write of core n's task to a memory granule is admitted, by the owner entry that it meets (R345). -/
def State.granuleOpen (s : State) (n g : Nat) : Bool :=
  (ownerKey (32 * g)).all (fun k => (s.ownerNext k).admits ((((s.core n).task).map (·.ctx)).getD 0))

/-- Write zero into a marked holder and clear its mark. A memory granule is zeroed at its home and in every copy, where its owner admits
the task. -/
def State.zeroHolder (s : State) (n : Nat) (h : Holder) : State :=
  let c := s.core n
  match h with
  | .x r => s.setCore n (c.wx r 0)
  | .v k d => s.setCore n (c.wv k (BitVec.ofNat 1024 ((2 ^ 64 - 1) * 2 ^ (64 * d))) 0)
  | .h r => s.setCore n (c.wh r 0 false)
  | .row os r =>
    let t := c.slot os
    (s.setCore n (c.setSlot os { t with marks := setBit t.marks r false })).storeNat
      (mkey .opmem n (8192 * os.toNat + 128 * r)) 128 0
  | .granule g =>
    if !s.granuleOpen n g then s else
    let s := s.storeNat (g * 32) 32 0
    { s with
      cores := s.cores.map (fun (m, c) => (m, { c with m := { c.m with l1 := c.m.l1.map (·.zeroed g) } }))
      dev := { s.dev with ms := { s.dev.ms with
        lines := s.dev.ms.lines.map (fun e => (e.1, e.2.zeroed g)), broken := s.dev.ms.broken.filter (·.1 != g) } } }

/-! ### The containment log (R396) -/

def CLog.zero : CLog := { zcnt := 0, next := 0, entries := [] }
def State.clog (s : State) (die : Nat) : CLog := lookupD .zero s.dev.sched.clogs die
def State.setClog (s : State) (die : Nat) (l : CLog) : State :=
  s.setSched { s.dev.sched with clogs := insertAt s.dev.sched.clogs die l }

/-- What a decision is about: the die that records it, the location code, the task, its fault. -/
structure Verdict392 where
  die : Nat
  loc : BitVec 20
  task : Task
  cause : BitVec 8
  /-- first cause of a double fault -/
  first : Option (BitVec 8)
  tval : DWord
  zero : List Holder
  replay : Option Access
  deriving DecidableEq, Repr

def State.logDecision (s : State) (v : Verdict392) (level : Nat) (action : BitVec 2) (tries : Nat) : State :=
  let l := s.clog v.die
  let e : BitVec 128 := v.task.lid ++ fld v.tval 0 32 ++ v.cause ++ v.first.getD 0 ++ BitVec.ofNat 3 level ++ action ++
    BitVec.ofNat 2 tries ++ 0#21 ++ v.loc
  s.setClog v.die { l with next := l.next + 1, entries := insertAt l.entries (l.next.toNat % 64) e }

/-- Zero substitution at core n (R394): the bundle issues no earlier than four advance cycles on; a replay record is
carried out again. -/
def State.zeroSubst (s : State) (n : Nat) (v : Verdict392) : State :=
  let s := v.zero.foldl (fun s h => s.zeroHolder n h) s
  let l := s.clog v.die
  let s := s.setClog v.die { l with zcnt := l.zcnt + 1 }
  let c := s.core n
  s.setCore n { c with stall := 4, m := { c.m with accs := v.replay.toList ++ c.m.accs } }

/-! ### contain (R392) -/

/-- Class Z of R398 is the one cause 0xA0. -/
def isClassZ (cause : BitVec 8) : Bool := cause == 0xA0

/-- The unit of a level that holds a group is lost: a cluster's die, a die, or another package. -/
def State.unitLost (s : State) (k u : Nat) : Bool :=
  if k = 3 then u != 0 && s.dev.link.lostPkgs.contains (u - 1) else s.dev.lost.contains (if k = 1 then u / 12 else u)

/-- An index's group is held by a unit that is lost (R461): no core is eligible for it any more. -/
def State.stranded (s : State) (l : Launch) (i : Nat) : Bool :=
  ([1, 2, 3] : List Nat).any (fun k => (l.level k).isSome && (l.groupSt k (l.groupOf k i)).unit.any (s.unitLost k))

/-- Every task of a group that is to restart has a live unit at each level that fixes one; after a loss the owned cores of surviving
dies that R29, R31 and R348 allow it can hold it and its gang (R451). -/
def State.canRestart (s : State) (l : Launch) (cause : BitVec 8) (was : List Nat) (k g : Nat) : Bool :=
  let live (d : Nat) : Bool := !s.dev.lost.contains d
  let idx := was.filter (fun i => l.groupOf k i == g)
  let holds (lo i m : Nat) : Bool := decide (m ≤ (s.usable l.ctx l.dies).countP (l.unitsFrom lo i))
  idx.all (fun i => l.dies.any live && !s.stranded l i &&
    (cause != 0xE6 || (holds 1 i 1 && (l.gangLevel.all (fun j => (j == 4 && decide (1 < l.pkgs)) || holds j i (l.gangSize i))))))

/-- The levels from `ks`, the lowest first: the decision of R392 at each. `n` is the core of a resident task,
`l0` the launch and `was` its live tasks' indices when the decision begins. -/
def State.containFrom (n : Nat) (v : Verdict392) (l0 : Launch) (was : List Nat) : List Nat → State → State
  | [], s => s
  | k :: up, s =>
    let l := (s.findLaunch l0.id).getD l0
    let g := l.groupOf k v.task.index
    let x := l.groupSt k g
    let pol := l.policy k
    if pol = 0 ∧ isClassZ v.cause ∧ v.first.isNone then (s.zeroSubst n v).logDecision v k 0 x.tries
    else if pol = 1 ∧ x.tries < 3 ∧ s.canRestart l v.cause was k g then
      ((s.setLaunch (l.setGroup { x with tries := x.tries + 1 })).restartGroup l0 l was k g).logDecision v k 1 (x.tries + 1)
    else if pol ≠ 3 then (s.killGroup l k g).logDecision v k 2 x.tries
    else
      let s := s.killGroup l k g
      if up.isEmpty then (s.abortLaunch l v.cause).logDecision v 7 3 x.tries
      else State.containFrom n v l0 was up s

/-- Containment of a fault of a task. A task whose launch has gone is killed alone. -/
def State.containTask (s : State) (n : Nat) (v : Verdict392) : State :=
  match s.findLaunch v.task.launch with
  | some l => State.containFrom n v l (s.liveIndices l) (l.levelsFrom 0) s
  | none => (s.killCore n).logDecision v 0 2 0

/-- Containment of a class Z fault of core n's task ends in zero substitution: so does the policy at the level that absorbs it, the
first that is not kill parent (R392, R394). -/
def State.absorbs (s : State) (n : Nat) : Bool :=
  ((s.core n).task.bind (fun t => s.findLaunch t.launch)).any (fun l => (((l.levelsFrom 0).map l.policy).find? (· != 3)) == some 0)

/-- A trap of core n's task reaches containment; a double fault's first cause stands in TVAL (R387). -/
def State.contain (s : State) (n : Nat) (t : Trap) (double : Bool) : State :=
  match (s.core n).task with
  | none => s
  | some k =>
    s.containTask n
      { die := dieOf n, loc := s.loc n, task := k, cause := t.cause
        first := if double then some (fld t.tval 8 8) else none
        tval := t.tval, zero := t.zero, replay := t.replay }

end Sys2Proof.Machine
end

