-- ==== Sys2Proof/Machine/Ops.lean ====
section
/-! DEFINITION. Shared operations: code-line checks, taking a trap and returning from one (R384 to R390), raising a
trap from an operation, the literal stream (R79 to R81) and the capability check (R167). -/

namespace Sys2Proof.Machine

/-! ### Code lines (R61, R62, R406) -/

/-- The bundle at word w of a line: length in words, from its head (R65). -/
def bundleLen (ln : List Word) (w : Nat) : Nat := (Head.ofWord (ln[w]?.getD 0)).words

/-- Start bits of the words w to 31. -/
def startsFrom (mask : Word) (w : Nat) : List Nat := ((List.range 32).filter (fun k => decide (w ≤ k) && bit mask k))

/-- One bundle of a line: it ends before the line and the next start bit, and the words after it are zero. -/
def bundleFits (ln : List Word) (w : Nat) : Bool :=
  let start := ln[0]?.getD 0
  let fin := w + bundleLen ln w
  let nxt := ((startsFrom start (w + 1)).head?).getD 32
  decide (fin ≤ 32) && decide (fin ≤ nxt) &&
    ((List.range 32).filter (fun k => decide (fin ≤ k) && decide (k < nxt))).all (fun k => ln[k]?.getD 0 == 0)

/-- R62: the line is a code line and not malformed. -/
def lineWellFormed (ln : List Word) : Bool :=
  let start := ln[0]?.getD 0
  let targ := ln[1]?.getD 0
  fld start 0 2 == 0 && fld targ 0 2 == 0 && bit start 2 && (targ &&& ~~~ start) == 0 &&
    (startsFrom start 0).all (bundleFits ln)

/-- Word number of an address in its line. -/
def wordOf (a : Nat) : Nat := a % 128 / 4

/-- Whether the word at `a` has its bit in mask `k` of its line: 0 starts, 1 targets. -/
def State.maskBit (s : State) (n a k : Nat) : Bool := bit (s.codeWord n (a / 128 * 128 + 4 * k)) (wordOf a)

def Core.inArena (c : Core) (a : Nat) : Bool := decide (c.c.codebase.toNat ≤ a) && decide (a < c.c.codelim.toNat)

/-- The checks of R120 on a transfer target, in order: the cause of the first that fails, with TVAL. -/
def State.targetFault (s : State) (n a : Nat) : Option (BitVec 8 × Nat) :=
  let c := s.core n
  if !c.inArena a || (s.segOf c a).isNone then some (0x05, a)
  else if a % 4 ≠ 0 || !s.maskBit n a 1 then some (0x04, a)
  else if !lineWellFormed (s.codeLine n a) then some (0x03, a / 128 * 128)
  else none

/-- The bundle that follows by R63: the next start bit of the line, else word 2 of the next line. -/
def State.following (s : State) (n a : Nat) : Nat :=
  match startsFrom (s.codeWord n (a / 128 * 128)) (wordOf a + 1) with
  | w :: _ => a / 128 * 128 + 4 * w
  | [] => a / 128 * 128 + 128 + 8

/-! ### Taking a trap (R384 to R387) -/

/-- The classes of R397. -/
inductive CauseClass where
  | t | c | z | n
  deriving DecidableEq, Repr

/-- The class column of R398. -/
def causeClass (code : BitVec 8) : CauseClass :=
  let k := code.toNat
  if k = 0xA0 then .z
  else if k ∈ [0x28, 0x29, 0x66, 0x67, 0xA4, 0xA5, 0xC0, 0xC1, 0xC2, 0xE5, 0xE6] then .c
  else if k ∈ [0xC3, 0xC4, 0xE0, 0xE1, 0xE2, 0xE3, 0xE4, 0xE7, 0xE8, 0xE9, 0xEA, 0xEB, 0xEC, 0xED] then .n
  else .t

/-- Apply a result at its boundary, flags apart (R52). A reader of `w` finds in it everything that it changes. -/
def Core.applyCsr (c : Core) (w : CsrWrite) : Core :=
  let v := w.val
  let m := w.mask
  let put {k : Nat} (old : BitVec k) (lo : Nat) : BitVec k := merge (fld m lo k) (fld v lo k) old
  match w.num.toNat with
  | 0x800 => { c with c := { c.c with rot := put c.c.rot 0 } }
  | 0x801 => { c with c := { c.c with flags := c.c.flags &&& ~~~ fld w.clear 8 5 } }
  | 0x802 => { c with c := { c.c with tol := merge m v c.c.tol } }
  | 0x803 => { c with c := { c.c with tolabs := merge m v c.c.tolabs } }
  | 0x804 =>
    let k := put c.c.rmax 0
    { c with c := { c.c with rmax := if 16 < k.toNat then 16 else k } }
  | 0x805 =>
    let k := put c.c.rseq 0
    let cnt := fld k 30 4
    { c with c := { c.c with rseq := if 10 < cnt.toNat then 10#4 ++ fld k 0 30 else k } }
  | 0x806 => { c with c := { c.c with mpc := put c.c.mpc 0 &&& ~~~ 3 } }
  | 0x810 => { c with c := { c.c with narrow := c.c.narrow && !bit w.clear 0 } }
  | 0x818 => { c with c := { c.c with tvec := put c.c.tvec 0 &&& ~~~ 0x7E } }
  | 0x819 => { c with tr := { c.tr with cause := put c.tr.cause 0 } }
  | 0x81A => { c with tr := { c.tr with pc := put c.tr.pc 0 } }
  | 0x81B => { c with tr := { c.tr with val := merge m v c.tr.val } }
  | 0x81C => { c with tr := { c.tr with slot := put c.tr.slot 0 &&& 0xF07 } }
  | 0x81D => { c with tr := { c.tr with elem := put c.tr.elem 0 } }
  | 0x81E => { c with tr := { c.tr with loop := merge m v c.tr.loop &&& 0x800000000003FFFF } }
  | _ => c

/-- 16 elements of 64 bits of a row (R194). -/
def rowElems (v : Vec) : List DWord := (elems 64 v).map (BitVec.ofNat 64)
def elemsVec (l : List DWord) : Vec := packVec 64 (l.map (·.toNat))

/-- Replace the elements from `i` on. -/
def putElems (l : List DWord) (i : Nat) (new : List DWord) : List DWord := l.take i ++ new ++ l.drop (i + new.length)

def zeroElems : List DWord := List.replicate 1024 0

/-- A tile with one row of 16 elements written; an empty one becomes dense on the panels `ps` (R194). -/
def Tile.withRow (t : Tile) (row : BitVec 6) (ps : List Nat) (v : Vec) : Tile :=
  let base := if t.kind = .empty then zeroElems else t.elems
  { t with
    kind := if t.kind = .empty then .dense else t.kind
    panels := if t.kind = .empty then ps else t.panels
    elems := putElems base (16 * row.toNat) (rowElems v) }

def applyWrite (n : Nat) (w : Write) (s : State) : State :=
  let c := s.core n
  let set (c : Core) : State := s.setCore n c
  match w with
  | .x r v => set (c.wx r v)
  | .v k m v => set (c.wv k m v)
  | .p k m v => set (c.wp k m v)
  | .h r v t => set (c.wh r v t)
  | .xMarked r v => set ((c.wx r v).markX r)
  | .vMarked k m v mk => set ((c.wv k m v).markV k mk)
  | .hMarked r v t => set ((c.wh r v t).markH r)
  | .csr w => set (c.applyCsr w)
  | .mpc v => set { c with c := { c.c with mpc := v &&& ~~~ 3 } }
  | .claim os => set (c.setSlot os { c.slot os with claimed := true, verified := 0 })
  | .release os => set (c.setSlot os { c.slot os with claimed := false })
  | .row os row v =>
    let t := c.slot os
    let lineNo := row.toNat / 2
    (set (c.setSlot os { t with verified := setBit t.verified lineNo false, marks := setBit t.marks row.toNat false })).storeNat
      (mkey .opmem n (8192 * os.toNat + 128 * row.toNat)) 128 v.toNat
  | .tile md k r ps e u v =>
    set (c.setTile md { kind := k, rank := r, panels := ps, elems := e, u := u, v := v })
  | .tileRow md row ps v => set (c.setTile md ((c.tile md).withRow row ps v))
  | .none => s

/-- The due results in the order of R52: transform results, then by slot. -/
def orderPend (l : List Pend) : List Pend :=
  l.filter (·.xform) ++ (([.b, .s, .va, .vb, .m, .ca, .cb, .x] : List Slot).flatMap (fun sl =>
    l.filter (fun p => !p.xform && p.slot == sl)))

/-- Results in the order in which they fall due (R52). -/
def dueOrder (l : List Pend) : List Pend :=
  (List.range (l.foldl (fun m p => max m p.rem) 0 + 1)).flatMap (fun r => orderPend (l.filter (·.rem == r)))

/-- Write the pending results of a kind in that order, with the flags raised with them (R52, R96). -/
def State.writePend (s : State) (n : Nat) (p : Pend → Bool) : State :=
  let due := dueOrder ((s.core n).t.pend.filter p)
  let s := due.foldl (fun s p => applyWrite n p.w s) s
  let c := due.foldl (fun c p => c.flag p.flags) (s.core n)
  s.setCore n { c with t := { c.t with pend := c.t.pend.filter (fun q => !p q) } }

/-- Results written before a trap banks the timing state (R386): S, VA and VB results. Transform results, M results and
landing entries stay. -/
def flushes (p : Pend) : Bool := !p.xform && (p.slot == .s || p.slot == .va || p.slot == .vb || p.slot == .b)

def Access.isCldh (a : Access) : Bool :=
  match a.kind with
  | .cldh _ => true
  | _ => false

/-- Results that are written before trap entry banks the timing state or a save records the registers are still pending
(R111, R141, R169, R386). -/
def Core.owes (c : Core) : Bool := c.t.pend.any flushes || c.m.accs.any Access.isCldh

/-- x[r] := x[r] + e, which reads what it writes and so leaves the mark as it is (R225, R429). -/
def Core.addX (c : Core) (r : XReg) (e : DWord) : Core :=
  if bit c.r.xmark r.toNat then (c.wx r (c.rx r + e)).markX r else c.wx r (c.rx r + e)

/-- Outstanding MBFLY exponents are added now; their registers stay busy (R205, R225). -/
def Core.writeExps (c : Core) : Core :=
  let c := c.t.eng.foldl (fun c o => match o.xdest with
    | some (r, e) => c.addX r e
    | none => c) c
  { c with t := { c.t with eng := c.t.eng.map (fun o => { o with xdest := o.xdest.map (fun (r, _) => (r, 0)) }) } }

/-- Step 1 of R386: what of it still stands is written at once. -/
def State.flushEntry (s : State) (n : Nat) : State :=
  let s := s.writePend n flushes
  s.setCore n (s.core n).writeExps

/-- The fields that entry writes into the trap CSRs (R386). -/
def trapCsrs (c : Core) (t : Trap) : TrapCsrs :=
  { cause := t.cause, pc := c.k.pc, val := t.tval
    slot := BitVec.ofNat 4 t.rep ++ 0#5 ++ t.slot.code
    elem := BitVec.ofNat 7 t.elem
    loop := match t.loop with
      | some (lv, st) => 1#1 ++ 0#45 ++ lv ++ st
      | none => 0 }

/-- R387: the first failing check of the handler's line, or none. -/
def State.handlerFault (s : State) (n : Nat) : Option (BitVec 8) :=
  let a := ((s.core n).c.tvec.toNat / 128) * 128 + 8
  match s.targetFault n a with
  | some (c, _) => some c
  | none => none

def Core.activeLoops (c : Core) : Nat := c.c.lc.toList.countP (fun l => l.kind != 0)

/-- Taking a trap at core n (R386, R387): the pending results are written, the trap CSRs set, the timing and issue state
banked, and control passes to the handler or the fault to containment. The state's pc is the bundle that TPC names. -/
def takeTrap (n : Nat) (t : Trap) (s : State) : State :=
  let wait := ((s.core n).t.pend.filter flushes).foldl (fun m p => max m p.rem) 0
  let s := s.flushEntry n
  let c := s.core n
  let written (c : Core) (t : Trap) : State := s.setCore n { c with tr := trapCsrs c t }
  match c.bank with
  | some b =>
    if t.kind = .deferred then (if causeClass t.cause = .z && s.absorbs n then s else written c t).contain n t false
    else
      let t' := { t with cause := 0x67, tval := (0#48 ++ b.cause ++ t.cause : BitVec 64) }
      (written c t').contain n t' true
  | none =>
    if causeClass t.cause = .t ∧ bit c.c.tvec 0 = true then
      match s.handlerFault n with
      | some code =>
        let t' := { t with cause := 0x67, tval := (0#48 ++ t.cause ++ code : BitVec 64) }
        (written c t').contain n t' true
      | none =>
        let c' := { c with
          tr := trapCsrs c t
          bank := some { t := c.t, loops := c.activeLoops, tpc := c.k.pc, replay := t.replay, cause := t.cause }
          t := .empty
          k := { c.k with pc := fld c.c.tvec 7 41 ++ 8#7, lineOk := true, launched := false, wait := none }
          m := { c.m with waiting := false, scHeld := none }
          delay := max 4 wait, entering := none }
        s.setCore n c'
    else (if causeClass t.cause = .z && s.absorbs n then s else written c t).contain n t false

/-- An issue trap of the operation being carried out. -/
def mkTrap (cause : BitVec 8) (tval : DWord) (sl : Slot) (c : Core) : Trap :=
  { cause := cause, kind := .issue, tval := tval, slot := sl, elem := 0, loop := none, replay := none, rep := c.t.issue
    zero := [] }

/-- Take a trap at the acting core and note that the issue is not made. -/
def State.raise (s : State) (t : Trap) : State :=
  let s' := takeTrap s.iss.core t s
  { s' with iss := { s'.iss with raised := some t } }

/-- An issue trap with a cause and TVAL, in the slot being carried out. -/
def State.trap (s : State) (cause : BitVec 8) (tval : DWord) : Host.Outcome State Fault Refusal :=
  .next (s.raise (mkTrap cause tval s.iss.slot s.cur))

/-- The illegal-instruction trap, whose TVAL is the slot word (R398). -/
def State.illegal (s : State) (i : Instr) : Host.Outcome State Fault Refusal :=
  s.trap 0x01 ((encode i).getD 0)

/-- A check that has failed: its cause and TVAL. -/
structure Fail where
  cause : BitVec 8
  tval : DWord
  deriving DecidableEq, Repr

/-- Whether an operation reads a marked part: CJOBV ignores the upper half of its register (R239). -/
def readsHolder (i : Instr) (h : Holder) : Bool :=
  match i, h with
  | .cjobv _, .v _ dw => decide (dw < 8)
  | _, _ => true

/-- The poison check of R429 on the register operands of an operation, before its other checks. -/
def State.poisonTrap (s : State) (i : Instr) (lit : Word) : Option Trap :=
  let c := s.cur
  match (c.marks (Instr.uses c s.iss.off.isSome lit i)).filter (readsHolder i) with
  | [] => none
  | h :: t => some { mkTrap 0xA0 h.tval s.iss.slot c with zero := h :: t }

/-- A slot operation: the poison check, then its own checks and effect on the acting core. -/
def slotOp (i : Instr) (s : State) (k : Core → Except Fail Core) : Host.Outcome State Fault Refusal :=
  match s.poisonTrap i 0 with
  | some t => .next (s.raise t)
  | none =>
    match k s.cur with
    | .ok c => .next (s.setCur c)
    | .error e => s.trap e.cause e.tval

/-- A slot operation that reads or changes more than the core. -/
def slotOpS (i : Instr) (s : State) (k : State → Core → Except Fail State) : Host.Outcome State Fault Refusal :=
  match s.poisonTrap i 0 with
  | some t => .next (s.raise t)
  | none =>
    match k s s.cur with
    | .ok s' => .next s'
    | .error e => s.trap e.cause e.tval

/-- The element at which a check of R167 has failed: the first of `els`, elements with their offsets, at the offset that TVAL gives. -/
def Fail.elem (e : Fail) (els : List (Nat × Nat)) : Nat :=
  if e.cause = 0x27 then 0 else ((els.find? (fun x => BitVec.ofNat 64 x.2 == e.tval)).map (·.1)).getD 0

/-- A slot operation on the elements `els`: a trap of its checks names the element in TELEM (R386). -/
def slotOpE (i : Instr) (els : Core → List (Nat × Nat)) (s : State) (k : State → Core → Except Fail State) :
    Host.Outcome State Fault Refusal :=
  match s.poisonTrap i 0 with
  | some t => .next (s.raise t)
  | none =>
    match k s s.cur with
    | .ok s' => .next s'
    | .error e => .next (s.raise { mkTrap e.cause e.tval s.iss.slot s.cur with elem := e.elem (els s.cur) })

/-! ### Returning from a trap (R58, R389, R410) -/

/-- The handler's landing, transform, port and FMT-shadow state has drained (R58). S, VA and VB results are no timing state
(R111, R141). -/
def Timing.drained (t : Timing) : Bool :=
  t.landing.isEmpty && t.pend.all flushes && t.eng.isEmpty && t.fills.isEmpty && t.scale.isEmpty && t.shadow.isNone

/-- Nothing is in flight (R137). -/
def Timing.quiet (t : Timing) : Bool := t.drained && t.pend.isEmpty

/-- The handler's results that fall due before the resumed bundle can issue, three boundaries after this one. -/
def Pend.early (p : Pend) : Bool := decide (p.rem ≤ 3)

/-- The banked timing state with the handler's results that are still due. -/
def Timing.withPend (t : Timing) (l : List Pend) : Timing :=
  { t with pend := t.pend ++ l.map (fun p => { p with rem := p.rem - 3 }) }

/-- Restore the bank and pass control to TPC (R389): the recorded bundle at its recorded issue, or the bundle at a
changed TPC from its first issue. A replay record is re-issued from TELEM. -/
def tretReturn (n : Nat) (s : State) : State :=
  let s := s.writePend n Pend.early
  let c := s.core n
  match c.bank, c.tretDrain with
  | some b, some (pc, el) =>
    let t := (if pc = b.tpc then b.t else { b.t with issue := 0 }).withPend c.t.pend
    let acc := match b.replay with
      | none => []
      | some a =>
        match a.kind with
        | .vamo op ph act offs d _ rm => [{ a with kind := .vamo op ph act offs d el.toNat rm, reply := none, performed := false }]
        | _ => [a]
    s.setCore n { c with
      t := t, bank := none, tretDrain := none, delay := 4
      m := { c.m with accs := acc ++ c.m.accs }
      k := { c.k with pc := pc, lineOk := false } }
  | _, _ => s

/-! ### The literal stream (R79, R80) -/

/-- The address after a literal word. -/
def mpcNext (mpc : BitVec 48) : BitVec 48 := if fld mpc 2 5 == 31 then mpc + 12 else mpc + 4

/-- R80: MPC names a literal word: not word 0 or 1, in the arena and in a segment. -/
def State.mpcBad (s : State) (c : Core) : Bool :=
  let a := c.c.mpc.toNat
  decide (wordOf a < 2) || !c.inArena a || (s.segOf c a).isNone

/-- R322: the literal's segment shares IMEM lines with the segment that holds the issuing bundle. -/
def State.overlayConflict (s : State) (c : Core) : Bool :=
  match s.segOf c c.c.mpc.toNat, s.segOf c c.k.pc.toNat with
  | some g, some h => g.num != h.num && g.overlaps h
  | _, _ => false

/-- The literal word at MPC. -/
def State.literal (s : State) : Word := s.codeWord s.iss.core s.cur.c.mpc.toNat

/-- An M-slot operation: poison, the literal address, the operation's own checks on its literal word, poison on the slot
lines it reads (`marks`, R198, R211), and then the literal is consumed (R79, R80, R413). -/
def matOpL (i : Instr) (s : State) (marks : Core → Word → List Holder) (k : State → Core → Word → Except Fail State) :
    Host.Outcome State Fault Refusal :=
  let c := s.cur
  let lit := s.literal
  match s.poisonTrap i lit with
  | some t => .next (s.raise t)
  | none =>
    if s.mpcBad c then s.trap 0x06 (c.c.mpc.setWidth 64)
    else if s.overlayConflict c then s.trap 0x08 (c.c.mpc.setWidth 64)
    else
      match k s c lit, marks c lit with
      | .error e, _ => s.trap e.cause e.tval
      | .ok _, h :: t => .next (s.raise { mkTrap 0xA0 h.tval s.iss.slot c with zero := h :: t })
      | .ok s', [] => .next (s'.setCur { s'.cur with c := { s'.cur.c with mpc := mpcNext c.c.mpc } })

/-- An M-slot operation that reads no slot line. -/
def matOp (i : Instr) (s : State) (k : State → Core → Word → Except Fail State) : Host.Outcome State Fault Refusal :=
  matOpL i s (fun _ _ => []) k

/-- R81: an operation that takes no particulars requires a zero literal word. -/
def zeroLit (lit : Word) : Except Fail Unit := if lit = 0 then .ok () else .error ⟨0x07, lit.setWidth 64⟩

end Sys2Proof.Machine
end

