-- ==== Sys2Proof/Machine/Flags.lean ====
section
/-! DEFINITION. Status computations shared by the slots: the boundary's flag rule (R96), class counters (R57), fences
(R179) and the mode that rules (R55). -/

namespace Sys2Proof.Machine

/-- FMT.FLAGS at a boundary (R96): a W1C write clears, then every raise of the boundary sets. -/
def flagsAtBoundary (old clear raised : Flags) : Flags := (old &&& ~~~ clear) ||| raised

/-- Core b lies within a scope of core a of the same package (R264). -/
def inScope (sc : Scope) (a b : Nat) : Bool :=
  match sc with
  | .core => a == b
  | .cluster => clusterOf a == clusterOf b
  | .die => dieOf a == dieOf b
  | .package | .domain => true

def scopeRank : Scope → Nat
  | .core => 0 | .cluster => 1 | .die => 2 | .package => 3 | .domain => 4

/-- The wider of two scopes. -/
def scopeWider (a : Scope) : Option Scope → Scope
  | none => a
  | some b => if scopeRank a < scopeRank b then b else a

def ordAcquires : Ord → Bool
  | .acquire | .acqRel => true
  | _ => false
def ordReleases : Ord → Bool
  | .release | .acqRel => true
  | _ => false

/-- The releasing core and core n of this package lie within a scope of one another (R264). -/
def Rel.within (w : Rel) (sc : Scope) (n : Nat) : Bool :=
  if w.pkg.isSome then sc == .domain else inScope sc w.core n

/-- R266: whether an acquire at scope `sc` by core n fails to synchronise with one of the releases it reads. -/
def narrows (n : Nat) (sc : Scope) (rels : List Rel) : Bool :=
  rels.any (fun w => !(w.within w.scope n && w.within sc n))

def Core.setNarrow (c : Core) (b : Bool) : Core := { c with c := { c.c with narrow := c.c.narrow || b } }

/-- A fence in program order (R179): it makes the checks of R266 for the relaxed loads before it, and its scope is
carried by later stores. -/
def Core.fenceMark (c : Core) (n : Nat) (ord : Ord) (sc : Scope) : Core :=
  { c.setNarrow (ordAcquires ord && narrows n sc c.m.seen) with m := { c.m with
    fences := c.m.fences ++ [{ id := c.m.nextId, ord := ord, scope := sc, far := ordAcquires ord && sc == .domain }]
    relFence := if ordReleases ord then some (scopeWider sc c.m.relFence) else c.m.relFence
    nextId := c.m.nextId + 1 } }

/-- Class counters (R57). -/
def Core.addSt (c : Core) (d : Nat) : Core := { c with c := { c.c with st := c.c.st + d } }
def Core.subSt (c : Core) : Core := { c with c := { c.c with st := c.c.st - 1 } }
def Core.addTl (c : Core) : Core := { c with c := { c.c with tl := c.c.tl + 1 } }
def Core.subTl (c : Core) : Core := { c with c := { c.c with tl := c.c.tl - 1 } }
def Core.addWl (c : Core) : Core := { c with c := { c.c with wl := c.c.wl + 1 } }
def Core.subWl (c : Core) : Core := { c with c := { c.c with wl := c.c.wl - 1 } }
def Core.addCp (c : Core) : Core := { c with c := { c.c with cp := c.c.cp + 1 } }
def Core.subCp (c : Core) : Core := { c with c := { c.c with cp := c.c.cp - 1 } }

/-- The maxima of CNT (R51). -/
def maxSt : Nat := 64
def maxCp : Nat := 32
def maxTl : Nat := 16
def maxWl : Nat := 32

end Sys2Proof.Machine
end

