-- ==== Sys2Proof/Machine/CapCheck.lean ====
section
/-! DEFINITION. Capabilities (R162 to R165), the check of every memory instruction (R167) and the place an access
reaches (R161). -/

namespace Sys2Proof.Machine

/-! ### Fields of a capability (R163) -/

def capBase (h : Cap) : Nat := (fld h 0 48).toNat
def capLen (h : Cap) : Nat := (fld h 48 48).toNat
def capPerm (h : Cap) : BitVec 8 := fld h 96 8
def capSpace (h : Cap) : Nat := (fld h 104 3).toNat
def capPolicy (h : Cap) : Nat := (fld h 107 3).toNat
def capKey (h : Cap) : Nat := (fld h 110 12).toNat
def capCtx (h : Cap) : BitVec 16 := fld h 122 16

/-- PERM bits (R164). -/
def permR : BitVec 8 := 0x01
def permW : BitVec 8 := 0x02
def permA : BitVec 8 := 0x04
def permL : BitVec 8 := 0x08
def permS : BitVec 8 := 0x10
def permB : BitVec 8 := 0x40
def permD : BitVec 8 := 0x80

/-- Space codes (R162). -/
def spSpad : Nat := 0
def spClus : Nat := 1
def spGlob : Nat := 2
def spWgt : Nat := 3
def spHost : Nat := 4
def spPeer : Nat := 5
def spBarr : Nat := 6

/-- Spaces that each kind of instruction may reach (R162, R75). -/
def spacesLoad (landing : Bool) : List Nat := if landing then [0, 1, 2, 3, 4, 5] else [0]
def spacesStore : List Nat := [0, 1, 2, 4, 5]
def spacesPref : List Nat := [0, 1, 2, 3, 4, 5]
def spacesAtomic : List Nat := [0, 1, 2, 5]
def spacesTagged : List Nat := [0, 1, 2]

/-- CLUS size now (R256). -/
def Wayp.reset : Wayp := { busy := false, cur := 0, req := 0, err := false }
def State.wayp (s : State) (clu : Nat) : Wayp := lookupD .reset s.dev.ms.wayp clu
def State.clusSize (s : State) (clu : Nat) : Nat :=
  let w := s.wayp clu
  2 ^ 20 * (if w.busy then min w.cur w.req else w.cur)

/-- What a check needs of a handle. -/
structure Need where
  spaces : List Nat
  perm : BitVec 8
  align : Nat
  deriving DecidableEq, Repr

/-- The first three checks of R167. -/
def checkHandle (c : Core) (h : HReg) (spaces : List Nat) (tval : DWord) : Except Fail Unit :=
  let cap := c.rh h
  if !c.rhtag h then .error ⟨0x20, tval⟩
  else if !spaces.contains (capSpace cap) then .error ⟨0x21, tval⟩
  else if fld cap 170 86 ≠ 0 ∨ 4 ≤ capPolicy cap then .error ⟨0x22, tval⟩
  else .ok ()

/-- Context and permission checks of R167. -/
def checkRights (c : Core) (h : HReg) (perm : BitVec 8) (tval : DWord) : Except Fail Unit :=
  let cap := c.rh h
  if h ≠ 0 ∧ capCtx cap ≠ capCtx (c.rh 0) then .error ⟨0x23, tval⟩
  else if capPerm cap &&& perm ≠ perm then .error ⟨0x24, tval⟩
  else .ok ()

/-- First address beyond a capability's space (R161); for WGT, beyond the bank of its base (R293). -/
def spaceEnd (cap : Cap) : Nat :=
  match capSpace cap with
  | 0 => 2 ^ 20
  | 1 => 2 ^ 24
  | 3 => capBase cap / 2 ^ 29 * 2 ^ 29 + 0x14000000
  | 4 => 2 ^ 48
  | 6 => 2 ^ 35
  | _ => 2 ^ 39

/-- Alignment and bound checks of R167 for an access of z bytes at `off`. -/
def State.checkRange (s : State) (n : Nat) (cap : Cap) (off z align : Nat) : Except Fail Unit :=
  if off % align ≠ 0 then .error ⟨0x25, BitVec.ofNat 64 off⟩
  else if capLen cap < off + z ∨ spaceEnd cap < capBase cap + off + z then .error ⟨0x26, BitVec.ofNat 64 off⟩
  else if capSpace cap = spClus ∧ s.clusSize (clusterOf n) < capBase cap + off + z then
    .error ⟨0x26, BitVec.ofNat 64 off⟩
  else .ok ()

/-- R167 for core n. -/
def State.check (s : State) (n : Nat) (c : Core) (h : HReg) (nd : Need) (off z : Nat) : Except Fail Unit := do
  checkHandle c h nd.spaces (BitVec.ofNat 64 off)
  checkRights c h nd.perm (BitVec.ofNat 64 off)
  s.checkRange n (c.rh h) off z nd.align

/-- R167 over several elements: the handle's checks, then every active element's own. TVAL is the first failing element's offset. DESIGN
CHOICE (log 95): the lowest element that fails any of its checks decides; R167 orders the checks of one access alone. -/
def State.checkAll (s : State) (n : Nat) (c : Core) (h : HReg) (nd : Need) (offs : List Nat) (z : Nat) :
    Except Fail Unit := do
  for o in offs do s.check n c h nd o z

/-- R167 over active elements, of which there may be none: the handle's own checks are made all the same, with TVAL 0 where
no element gives an offset (log 55). -/
def State.checkAny (s : State) (n : Nat) (c : Core) (h : HReg) (nd : Need) (offs : List Nat) (z : Nat) : Except Fail Unit := do
  checkHandle c h nd.spaces (BitVec.ofNat 64 (offs.headD 0))
  checkRights c h nd.perm (BitVec.ofNat 64 (offs.headD 0))
  s.checkAll n c h nd offs z

/-! ### Places -/

/-- A key slot that Uberakel has allotted (R349). -/
def State.keySlot (s : State) (k : Nat) : Option KeySlot := (s.dev.keys.find? (fun e => e.1 == k)).map (·.2)

/-- The flat key of byte `addr` of a capability's space, for core n. -/
def State.place (s : State) (n : Nat) (cap : Cap) (addr : Nat) : Nat :=
  match capSpace cap with
  | 0 => mkey .spad n addr
  | 1 => mkey .clus (clusterOf n) addr
  | 2 => mkey .glob 0 addr
  | 3 => mkey .wgt (dieOf n) addr
  | 4 => mkey .host 0 addr
  | _ => mkey .peer (((s.keySlot (capKey cap)).map (fun k => k.peer.toNat)).getD 0) addr

end Sys2Proof.Machine
end

