-- ==== Sys2Proof/Machine/Mcheck.lean ====
section
/-! DEFINITION. Machine-check banks: recording errors, their windows and their clearing (R440 to R444). What a record
calls for, a fence or the loss of a die, is noted and carried out by its own event. -/

namespace Sys2Proof.Machine

open Host (Outcome)

def State.setMc (s : State) (m : Mcheck) : State := { s with dev := { s.dev with mc := m } }

/-- The complex of a die replays (R450). -/
def State.replays (s : State) (die : Nat) : Bool := s.dev.mc.replaying.any (·.1 == die)

/-- A bank at cold reset (R442). -/
def McBank.reset : McBank :=
  { status := 0, addr := 0, misc := 0, synd := 0, ctl := 7, thresh := 0x0000000003E80100, acted := false }

def State.bank (s : State) (die b : Nat) : McBank := lookupD .reset s.dev.mc.banks (32 * die + b)
def State.setBank (s : State) (die b : Nat) (v : McBank) : State :=
  s.setMc { s.dev.mc with banks := insertAt s.dev.mc.banks (32 * die + b) v }

/-- The core that a location code names in this package. -/
def coreOfLoc (l : BitVec 20) : Nat := (fld l 7 3).toNat * 96 + (fld l 3 4).toNat * 8 + (fld l 0 3).toNat

def satInc16 (v : BitVec 16) : BitVec 16 := if v = 0xFFFF then v else v + 1

/-- STATUS of a new record (R442), with CECNT. A corrected error has cause 0, but for the replay of R450. -/
def McErr.status (e : McErr) (cecnt : BitVec 16) : BitVec 64 :=
  1#1 ++ 0#1 ++ e.sev ++ BitVec.ofBool (e.akind != 0) ++ BitVec.ofBool e.misc.isSome ++ BitVec.ofBool e.synd.isSome ++
    BitVec.ofBool e.pmark ++ e.cause ++ cecnt ++ e.loc ++ 0#4 ++ e.unit

/-- Fill the record (R443). -/
def McBank.fill (k : McBank) (e : McErr) : McBank :=
  { k with
    status := McErr.status e (fld k.status 32 16)
    addr := e.akind ++ 0#12 ++ e.addr
    misc := e.misc.getD 0 &&& ~~~0xFFFF
    synd := e.synd.getD 0 }

/-- Signal the host (R444): vector 1 of die 0's port. -/
def State.signalHost (s : State) (v : Nat) : State := { s with dev := { s.dev with msi := s.dev.msi ++ [v] } }

/-- COUNT and CECNT rise; reaching LIMIT acts once a window (R443, R444). -/
def State.countCorrected (s : State) (die b : Nat) (e : McErr) : State :=
  let k := s.bank die b
  let cnt := satInc16 (fld k.thresh 32 16)
  let ce := satInc16 (fld k.status 32 16)
  let k' := { k with
    status := fld k.status 48 16 ++ ce ++ fld k.status 0 32
    thresh := fld k.thresh 48 16 ++ cnt ++ fld k.thresh 0 32 }
  if !k.acted && decide ((fld k.thresh 0 16).toNat ≤ cnt.toNat) then
    let s := s.setBank die b { k' with acted := true }
    let old := lookupD 0 s.dev.mc.thr die
    let s := s.setMc { s.dev.mc with thr := insertAt s.dev.mc.thr die (setBit old b true) }
    let s := if bit k.thresh 63 && decide (b < 12) then s.setMc { s.dev.mc with fences := s.dev.mc.fences ++ [coreOfLoc e.loc] } else s
    if bit k.ctl 0 && !bit old b then s.signalHost 1 else s
  else s.setBank die b k'

/-- An error reaches a bank (R441, R443). A fatal one calls for the loss of its die; the banks of a lost die keep what they hold (R451). -/
def State.mcRecord (s : State) (die b : Nat) (e : McErr) : State :=
  if s.dev.lost.contains die then s else
  let s := if e.sev = 1 then s.countCorrected die b e else s
  let k := s.bank die b
  let s :=
    if !bit k.status 63 then
      if e.sev = 1 ∧ bit k.ctl 2 = false then s
      else
        let s := s.setBank die b (k.fill e)
        if bit k.ctl 1 && e.sev != 1 then s.signalHost 1 else s
    else
      let held := fld k.status 60 2
      if (e.sev = 3 ∧ held ≠ 3) ∨ (e.sev = 2 ∧ held = 1) then s.setBank die b (k.fill e)
      else if e.sev = 1 ∧ bit k.ctl 2 = false then s
      else s.setBank die b { k with status := setBit k.status 62 true }
  if e.sev = 3 then s.setMc { s.dev.mc with losses := s.dev.mc.losses ++ [die] } else s

/-- The UNIT codes of a bank (R440): how many there are. -/
def bankUnits (b : Nat) : Nat :=
  if b < 12 then 10 else if b < 20 then 2 else if b < 24 then 25 else if b < 27 then 2
  else if b = 27 then 4 else if b = 28 then 7 else if b = 29 then 4 else if b < 32 then 48 else 0

/-- R443: an error from a unit of a die, which has a code in its bank (R440), with an address kind of R442. A corrected one has no cause
(R442). -/
def execMcErrorRecord (die b : Nat) (e : McErr) (s : State) : Outcome State Fault Refusal :=
  if 8 ≤ die ∨ bankUnits b ≤ e.unit.toNat ∨ e.sev = 0 ∨ 7 < e.akind.toNat ∨ (b = 26 ∧ die ≠ 0) then .next s
  else .next (s.mcRecord die b (if e.sev = 1 then { e with cause := 0 } else e))

/-- R443: COUNT returns to 0, on a die that is not lost (R451). -/
def execThreshWindowEnd (die b : Nat) (s : State) : Outcome State Fault Refusal :=
  let k := s.bank die b
  if s.dev.lost.contains die then .next s else .next (s.setBank die b { k with thresh := fld k.thresh 48 16 ++ 0#16 ++ fld k.thresh 0 32, acted := false })

/-- R442: writing 1 to VAL clears the record; CECNT is stored as written. A lost die keeps its records (R451). -/
def execMcStatusClear (die b : Nat) (v : DWord) (s : State) : Outcome State Fault Refusal :=
  let k := s.bank die b
  let k := { k with status := fld k.status 48 16 ++ fld v 32 16 ++ fld k.status 0 32 }
  if s.dev.lost.contains die then .next s else .next (s.setBank die b
    (if bit v 63 then { k with status := 0#16 ++ fld v 32 16 ++ 0#32, addr := 0, misc := 0, synd := 0 } else k))

/-- The launch and context of core n's task, for MISC (R442). -/
def State.miscOf (s : State) (n : Nat) : BitVec 64 :=
  match (s.core n).task with
  | some t => t.lid ++ t.ctx ++ 0#16
  | none => 0

/-- A contained error (R441). -/
def mcContained (cause : BitVec 8) (unit : Nat) (loc : BitVec 20) (akind : BitVec 4) (addr : Nat) (misc : Option (BitVec 64)) :
    McErr :=
  { sev := 2, cause := cause, unit := BitVec.ofNat 8 unit, loc := loc, akind := akind, addr := BitVec.ofNat 48 addr
    misc := misc, synd := none, pmark := false }

/-- A corrected error. -/
def mcCorrected (unit : Nat) (loc : BitVec 20) (akind : BitVec 4) (addr : Nat) : McErr :=
  { sev := 1, cause := 0, unit := BitVec.ofNat 8 unit, loc := loc, akind := akind, addr := BitVec.ofNat 48 addr
    misc := none, synd := none, pmark := false }

end Sys2Proof.Machine
end

