-- ==== Sys2Proof/Machine/Trans.lean ====
section
/-! DEFINITION. 2^a, log2 and the twiddle factors, correctly rounded (R147, R222): fixed-point series with 320 fraction
bits. An irrational value is rounded from its truncation with a sticky bit (log 15). -/

namespace Sys2Proof.Machine

/-- Fraction bits of the fixed-point numbers. -/
def fixP : Nat := 320
def fixOne : Int := 2 ^ fixP
def fixMul (a b : Int) : Int := a * b / 2 ^ fixP

/-- Sum of sign^k / ((2k + 1) n^(2k + 1)): artanh(1/n) for sign 1, atan(1/n) for sign -1; `p` is 1/n^(2k + 1). -/
def atanSeries (sign n : Int) : Nat → Int → Int → Int → Int
  | 0, _, _, acc => acc
  | k + 1, odd, p, acc => atanSeries sign n k (odd + 2) (sign * p / (n * n)) (acc + p / odd)

/-- ln 2 = 18 artanh(1/26) - 2 artanh(1/4801) + 8 artanh(1/8749). -/
def fixLn2 : Int :=
  18 * atanSeries 1 26 40 1 (fixOne / 26) 0 - 2 * atanSeries 1 4801 20 1 (fixOne / 4801) 0 +
    8 * atanSeries 1 8749 20 1 (fixOne / 8749) 0

/-- pi = 16 atan(1/5) - 4 atan(1/239). -/
def fixPi : Int := 16 * atanSeries (-1) 5 80 1 (fixOne / 5) 0 - 4 * atanSeries (-1) 239 30 1 (fixOne / 239) 0

/-- The exponential series from term k on. -/
def expSeries (y : Int) : Nat → Int → Int → Int → Int
  | 0, _, _, acc => acc
  | n + 1, k, term, acc => expSeries y n (k + 1) (fixMul term y / k) (acc + term)

def squareTimes : Nat → Int → Int
  | 0, x => x
  | n + 1, x => squareTimes n (fixMul x x)

/-- e^y for 0 ≤ y < 1. -/
def fixExp (y : Int) : Int := squareTimes 8 (expSeries (y / 256) 40 1 fixOne 0)

/-- rnd(2^a) (R147): exact where a is an integer. -/
def FpFmt.exp2R (f : FpFmt) (rm : Rm) (a : FVal) : Nat × Flags :=
  match a with
  | .nan sg => (f.canonNaN, if sg then flNV else 0)
  | .inf n => (if n then 0 else f.infBits false, 0)
  | .fin n m e =>
    if m = 0 then f.round rm false 1 0
    else if 12 < (Nat.log2 m : Int) + e then f.round rm false 1 (if n then -5000 else 5000) true
    else
      let v : Int := if n then -(m : Int) else m
      -- a = v * 2^e; its integer part and the rest in fixed point
      let whole := if 0 ≤ e then v * 2 ^ e.toNat else v / 2 ^ (-e).toNat
      let exact := if 0 ≤ e then true else v % 2 ^ (-e).toNat == 0
      if exact then f.round rm false 1 whole
      else
        let frac := (v % 2 ^ (-e).toNat) * 2 ^ fixP / 2 ^ (-e).toNat
        f.round rm false (fixExp (fixMul frac fixLn2)).toNat (whole - fixP) true

/-- artanh series: sum of z^(2k + 1) / (2k + 1). -/
def artanhGo (z2 : Int) : Nat → Int → Int → Int → Int
  | 0, _, _, acc => acc
  | n + 1, odd, p, acc => artanhGo z2 n (odd + 2) (fixMul p z2) (acc + p / odd)

/-- log2 of m * 2^e in fixed point: m is no power of two. -/
def fixLog2 (m : Nat) (e : Int) : Int :=
  let k := Nat.log2 m
  let t : Int := (m : Int) * 2 ^ fixP / 2 ^ k
  let z := (t - fixOne) * 2 ^ fixP / (t + fixOne)
  let ln := 2 * artanhGo (fixMul z z) 110 1 z 0
  ((k : Int) + e) * fixOne + ln * 2 ^ fixP / fixLn2

/-- rnd(log2(a)) (R147). -/
def FpFmt.log2R (f : FpFmt) (rm : Rm) (a : FVal) : Nat × Flags :=
  match a with
  | .nan sg => (f.canonNaN, if sg then flNV else 0)
  | .inf n => if n then (f.canonNaN, flNV) else (f.infBits false, 0)
  | .fin n m e =>
    if m = 0 then (f.infBits true, flDZ)
    else if n then (f.canonNaN, flNV)
    else if m = 2 ^ Nat.log2 m then
      let k : Int := (Nat.log2 m : Int) + e
      f.round rm (decide (k < 0)) k.natAbs 0
    else
      let v := fixLog2 m e
      f.round rm (decide (v < 0)) v.natAbs (-(fixP : Int)) true

/-- The sine series from term k on: acc + sum of (-1)^j phi^(k + 2j) / (k + 2j)!. -/
def trigSeries (phi2 : Int) : Nat → Int → Int → Int → Int
  | 0, _, _, acc => acc
  | n + 1, k, term, acc => trigSeries phi2 n (k + 2) (-(fixMul term phi2) / ((k + 1) * (k + 2))) (acc + term)

def fixSin (phi : Int) : Int := trigSeries (fixMul phi phi) 40 1 phi 0
def fixCos (phi : Int) : Int := trigSeries (fixMul phi phi) 40 0 fixOne 0

/-- A fixed-point value rounded to nearest even in a format. -/
def FpFmt.ofFix (f : FpFmt) (v : Int) : FVal :=
  if v = 0 then .zero else f.decode (f.round .rne (decide (v < 0)) v.natAbs (-(fixP : Int)) true).1

/-- tw(m, L) of R222: (cos(2 pi m / L), -sin(2 pi m / L)), the imaginary part negated under `inv`. -/
def twiddle (f : FpFmt) (inv : Bool) (m l : Nat) : FVal × FVal :=
  let q := 4 * m / l
  let r := 4 * m % l
  let phi := fixPi * r / (2 * (l : Int))
  let sn := if r = 0 then 0 else fixSin phi
  let cs := if r = 0 then fixOne else fixCos phi
  let (c, s) : Int × Int := match q % 4 with
    | 0 => (cs, sn)
    | 1 => (-sn, cs)
    | 2 => (-cs, -sn)
    | _ => (sn, -cs)
  (f.ofFix c, f.ofFix (if inv then s else -s))

end Sys2Proof.Machine
end

