-- ==== Sys2Proof/Machine/VecAlu.lean ====
section
/-! DEFINITION. Vector arithmetic, compares, predicates, L6 and VRAND (R139 to R152, R158 to R160). -/

namespace Sys2Proof.Machine

open Host (Outcome)

/-! ### Shapes -/

/-- The element-wise outcome of an operation: bits and flags of each element, of which the active ones count (R140). -/
structure VOut where
  mask : Vec
  val : Vec
  flags : Flags
  deriving DecidableEq, Repr

/-- Active elements are written and raise their flags. -/
def vOut (e : Nat) (act : List Bool) (r : List (Nat × Flags)) : VOut :=
  { mask := maskVec e act
    val := packVec e (r.map (·.1))
    flags := (act.zip r).foldl (fun f (a, x) => if a then f ||| x.2 else f) 0 }

/-- The same where no element raises a flag. -/
def vOutI (e : Nat) (act : List Bool) (r : List Nat) : VOut :=
  { mask := maskVec e act, val := packVec e r, flags := 0 }

/-- A vector-unit operation whose result is a vector register: `lat` cycles later the masked bits are written and the
flags raised (R141, R142). -/
def vecOp (i : Instr) (s : State) (vd : VReg) (lat : Nat) (k : Core → VOut) : Outcome State Fault Refusal :=
  slotOp i s fun c =>
    let o := k c
    .ok (c.push (mkPend s.iss.slot lat (.v (c.pv vd) o.mask o.val) o.flags))

/-- Active elements for a type and governing predicate. -/
def Core.act (c : Core) (et : Fmt) (pg : PReg) : List Bool := activeList (Fmt.width et) (c.pg pg)

def Core.els (c : Core) (et : Fmt) (v : VReg) : List Nat := elems (Fmt.width et) (c.rv v)

/-- Two sources, element by element. -/
def vBin (i : Instr) (f : VrF) (lat : Nat) (op : Rm → Nat → Nat → Nat × Flags) (s : State) :
    Outcome State Fault Refusal :=
  vecOp i s f.vd lat fun c =>
    vOut (Fmt.width f.et) (c.act f.et f.pg) (List.zipWith (op c.c.rm) (c.els f.et f.vs1) (c.els f.et f.vs2))

/-- One source, element by element. -/
def vUn (i : Instr) (f : VuF) (lat : Nat) (op : Rm → Nat → Nat × Flags) (s : State) : Outcome State Fault Refusal :=
  vecOp i s f.vd lat fun c => vOut (Fmt.width f.et) (c.act f.et f.pg) ((c.els f.et f.vs1).map (op c.c.rm))

/-- Two sources and the destination, element by element. -/
def vTer (i : Instr) (f : VrF) (lat : Nat) (op : Rm → Nat → Nat → Nat → Nat × Flags) (s : State) :
    Outcome State Fault Refusal :=
  vecOp i s f.vd lat fun c =>
    vOut (Fmt.width f.et) (c.act f.et f.pg)
      (List.zipWith (fun (a, b) d => op c.c.rm a b d) ((c.els f.et f.vs1).zip (c.els f.et f.vs2)) (c.els f.et f.vd))

/-- An exact integer result without flags. -/
def noFl (n : Nat) : Nat × Flags := (n, 0)

/-- The element operations of R147, by type. -/
def elAdd (t : Fmt) (rm : Rm) (a b : Nat) : Nat × Flags :=
  if t.isFloat then (Fmt.fp t).addR rm ((Fmt.fp t).decode a) ((Fmt.fp t).decode b) else noFl ((a + b) % 2 ^ Fmt.width t)
def elSub (t : Fmt) (rm : Rm) (a b : Nat) : Nat × Flags :=
  if t.isFloat then (Fmt.fp t).addR rm ((Fmt.fp t).decode a) ((Fmt.fp t).decode b).neg
  else noFl (zext ((a : Int) - b) (Fmt.width t))
def elMul (t : Fmt) (rm : Rm) (a b : Nat) : Nat × Flags :=
  if t.isFloat then (Fmt.fp t).mulR rm ((Fmt.fp t).decode a) ((Fmt.fp t).decode b) else noFl (a * b % 2 ^ Fmt.width t)
def elDiv (t : Fmt) (rm : Rm) (a b : Nat) : Nat × Flags :=
  (Fmt.fp t).divR rm ((Fmt.fp t).decode a) ((Fmt.fp t).decode b)
def elFma (t : Fmt) (negP : Bool) (rm : Rm) (a b d : Nat) : Nat × Flags :=
  let x := (Fmt.fp t).decode a
  (Fmt.fp t).fmaR rm (if negP then x.neg else x) ((Fmt.fp t).decode b) ((Fmt.fp t).decode d)
def elMinMax (t : Fmt) (isMax : Bool) (a b : Nat) : Nat × Flags :=
  if t.isFloat then (Fmt.fp t).minMax isMax a b
  else
    let n := Fmt.width t
    noFl (if decide (sext a n < sext b n) == isMax then b else a)

/-- The bit pattern of one. -/
def oneBits (f : FpFmt) : Nat := f.bias.toNat * 2 ^ f.fb

/-- Sign-bit operations and integer absolute value and negation. -/
def elAbs (t : Fmt) (a : Nat) : Nat :=
  let n := Fmt.width t
  if t.isFloat then a % 2 ^ (n - 1) else zext (sext a n).natAbs n
def elNeg (t : Fmt) (a : Nat) : Nat :=
  let n := Fmt.width t
  if t.isFloat then (if a < 2 ^ (n - 1) then a + 2 ^ (n - 1) else a - 2 ^ (n - 1)) else zext (-(sext a n)) n

/-- Arithmetic shift of an integer by k. -/
def asr (x : Int) (k : Nat) : Int := x / 2 ^ k

/-! ### Arithmetic (R147) -/

def execVadd (f : VrF) (s : State) : Outcome State Fault Refusal :=
  vBin (.vadd f) f (latFI f.et 4 2) (elAdd f.et) s
def execVsub (f : VrF) (s : State) : Outcome State Fault Refusal :=
  vBin (.vsub f) f (latFI f.et 4 2) (elSub f.et) s
def execVmul (f : VrF) (s : State) : Outcome State Fault Refusal :=
  vBin (.vmul f) f (latFI f.et 4 3) (elMul f.et) s
def execVdiv (f : VrF) (s : State) : Outcome State Fault Refusal :=
  vBin (.vdiv f) f (latDiv f.et) (elDiv f.et) s
def execVmin (f : VrF) (s : State) : Outcome State Fault Refusal :=
  vBin (.vmin f) f (latFI f.et 4 2) (fun _ => elMinMax f.et false) s
def execVmax (f : VrF) (s : State) : Outcome State Fault Refusal :=
  vBin (.vmax f) f (latFI f.et 4 2) (fun _ => elMinMax f.et true) s
def execVabs (f : VuF) (s : State) : Outcome State Fault Refusal :=
  vUn (.vabs f) f 2 (fun _ a => noFl (elAbs f.et a)) s
def execVneg (f : VuF) (s : State) : Outcome State Fault Refusal :=
  vUn (.vneg f) f 2 (fun _ a => noFl (elNeg f.et a)) s
def execVfma (f : VrF) (s : State) : Outcome State Fault Refusal :=
  vTer (.vfma f) f 4 (elFma f.et false) s
def execVfms (f : VrF) (s : State) : Outcome State Fault Refusal :=
  vTer (.vfms f) f 4 (elFma f.et true) s
def execVsqrt (f : VuF) (s : State) : Outcome State Fault Refusal :=
  vUn (.vsqrt f) f (latDiv f.et) (fun rm a => (Fmt.fp f.et).sqrtR rm ((Fmt.fp f.et).decode a)) s
def execVrcp (f : VuF) (s : State) : Outcome State Fault Refusal :=
  vUn (.vrcp f) f (latDiv f.et) (fun rm a => elDiv f.et rm (oneBits (Fmt.fp f.et)) a) s
def execVrsqrt (f : VuF) (s : State) : Outcome State Fault Refusal :=
  vUn (.vrsqrt f) f (latDiv f.et) (fun rm a => (Fmt.fp f.et).rsqrtR rm ((Fmt.fp f.et).decode a)) s
def execVexp2 (f : VuF) (s : State) : Outcome State Fault Refusal :=
  vUn (.vexp2 f) f 10 (fun rm a => (Fmt.fp f.et).exp2R rm ((Fmt.fp f.et).decode a)) s
def execVlog2 (f : VuF) (s : State) : Outcome State Fault Refusal :=
  vUn (.vlog2 f) f 10 (fun rm a => (Fmt.fp f.et).log2R rm ((Fmt.fp f.et).decode a)) s

/-! ### Bits and shifts (R147, R148) -/

def execVand (f : VrF) (s : State) : Outcome State Fault Refusal :=
  vBin (.vand f) f 1 (fun _ a b => noFl (Nat.land a b)) s
def execVor (f : VrF) (s : State) : Outcome State Fault Refusal :=
  vBin (.vor f) f 1 (fun _ a b => noFl (Nat.lor a b)) s
def execVxor (f : VrF) (s : State) : Outcome State Fault Refusal :=
  vBin (.vxor f) f 1 (fun _ a b => noFl (Nat.xor a b)) s
def execVnot (f : VuF) (s : State) : Outcome State Fault Refusal :=
  vUn (.vnot f) f 1 (fun _ a => noFl (2 ^ Fmt.width f.et - 1 - a)) s
def execVmov (f : VuF) (s : State) : Outcome State Fault Refusal :=
  vUn (.vmov f) f 1 (fun _ a => noFl a) s
def execVshl (f : VrF) (s : State) : Outcome State Fault Refusal :=
  let n := Fmt.width f.et
  vBin (.vshl f) f 2 (fun _ a b => noFl (a * 2 ^ (b % n) % 2 ^ n)) s
def execVshr (f : VrF) (s : State) : Outcome State Fault Refusal :=
  let n := Fmt.width f.et
  vBin (.vshr f) f 2 (fun _ a b => noFl (a / 2 ^ (b % n))) s
def execVsra (f : VrF) (s : State) : Outcome State Fault Refusal :=
  let n := Fmt.width f.et
  vBin (.vsra f) f 2 (fun _ a b => noFl (zext (asr (sext a n) (b % n)) n)) s
def execVadds (f : VrF) (s : State) : Outcome State Fault Refusal :=
  let n := Fmt.width f.et
  vBin (.vadds f) f 2 (fun _ a b => noFl (zext (sat (sext a n + sext b n) n) n)) s
def execVsubs (f : VrF) (s : State) : Outcome State Fault Refusal :=
  let n := Fmt.width f.et
  vBin (.vsubs f) f 2 (fun _ a b => noFl (zext (sat (sext a n - sext b n) n) n)) s
def execVmulh (f : VrF) (s : State) : Outcome State Fault Refusal :=
  let n := Fmt.width f.et
  vBin (.vmulh f) f 3 (fun _ a b => noFl (zext (asr (sext a n * sext b n) n) n)) s

/-! ### Filling elements (R149) -/

/-- n copies of an element. -/
def fillEls (e v : Nat) : List Nat := List.replicate (1024 / e) (v % 2 ^ e)

/-- Only the lowest true place stays true. -/
def lowestOnly : List Bool → List Bool
  | [] => []
  | true :: t => true :: t.map (fun _ => false)
  | false :: t => false :: lowestOnly t

def execVbcast (f : VxF) (s : State) : Outcome State Fault Refusal :=
  vecOp (.vbcast f) s f.vd 1 fun c =>
    vOutI (Fmt.width f.et) (c.act f.et f.pg) (fillEls (Fmt.width f.et) (c.rx f.x).toNat)
def execVmovx (f : VxF) (s : State) : Outcome State Fault Refusal :=
  vecOp (.vmovx f) s f.vd 1 fun c =>
    vOutI (Fmt.width f.et) (lowestOnly (c.act f.et f.pg)) (fillEls (Fmt.width f.et) (c.rx f.x).toNat)
def execViota (f : VdF) (s : State) : Outcome State Fault Refusal :=
  vecOp (.viota f) s f.vd 1 fun c =>
    let e := Fmt.width f.et
    vOutI e (c.act f.et f.pg) ((List.range (1024 / e)).map (fun (j : Nat) => (cvtTo f.et .rne (.ofInt j 0)).1))
def execVli (f : ViF) (s : State) : Outcome State Fault Refusal :=
  vecOp (.vli f) s f.vd 1 fun c =>
    let e := Fmt.width f.et
    let act := c.act f.et f.pg
    if f.et.isFloat then vOut e act (List.replicate (1024 / e) (cvtTo f.et c.c.rm (.ofInt f.imm.toInt 0)))
    else vOutI e act (fillEls e (zext (sat f.imm.toInt e) e))

/-! ### Compares (R150) -/

/-- A compare: pd's lanes of each active element take the outcome; flags of active elements. -/
def vCmp (i : Instr) (f : VcF) (op : Nat → Nat → Bool × Flags) (s : State) : Outcome State Fault Refusal :=
  slotOp i s fun c =>
    let e := Fmt.width f.et
    let act := c.act f.et f.pg
    let r := List.zipWith op (c.els f.et f.vs1) (c.els f.et f.vs2)
    let fl := (act.zip r).foldl (fun f (a, x) => if a then f ||| x.2 else f) (0 : Flags)
    .ok (c.push (mkPend s.iss.slot 2 (.p (c.pp f.pd) (predOf e act) (predOf e (r.map (·.1)))) fl))

/-- A float compare: `sig` raises invalid for every NaN; `nan` is the outcome with a NaN. -/
def fCmp (t : Fmt) (sig nan : Bool) (p : Ordering → Bool) (a b : Nat) : Bool × Flags :=
  let x := (Fmt.fp t).decode a
  let y := (Fmt.fp t).decode b
  if x.isNaN || y.isNaN then (nan, if sig then flNV else FVal.sigFlag x y) else (p (x.cmp y), 0)

/-- A signed integer compare. -/
def iCmp (t : Fmt) (p : Ordering → Bool) (a b : Nat) : Bool × Flags :=
  (p (compare (sext a (Fmt.width t)) (sext b (Fmt.width t))), 0)

def elCmp (t : Fmt) (sig nan : Bool) (p : Ordering → Bool) (a b : Nat) : Bool × Flags :=
  if t.isFloat then fCmp t sig nan p a b else iCmp t p a b

def execVcmpEq (f : VcF) (s : State) : Outcome State Fault Refusal :=
  vCmp (.vcmpEq f) f (elCmp f.et false false (· == .eq)) s
def execVcmpNe (f : VcF) (s : State) : Outcome State Fault Refusal :=
  vCmp (.vcmpNe f) f (elCmp f.et false true (· != .eq)) s
def execVcmpLt (f : VcF) (s : State) : Outcome State Fault Refusal :=
  vCmp (.vcmpLt f) f (elCmp f.et true false (· == .lt)) s
def execVcmpLe (f : VcF) (s : State) : Outcome State Fault Refusal :=
  vCmp (.vcmpLe f) f (elCmp f.et true false (· != .gt)) s
def execVcmpUn (f : VcF) (s : State) : Outcome State Fault Refusal :=
  vCmp (.vcmpUn f) f (fCmp f.et false true (fun _ => false)) s
def execVcmpLtu (f : VcF) (s : State) : Outcome State Fault Refusal :=
  vCmp (.vcmpLtu f) f (fun a b => (decide (a < b), 0)) s
def execVcmpLeu (f : VcF) (s : State) : Outcome State Fault Refusal :=
  vCmp (.vcmpLeu f) f (fun a b => (decide (a ≤ b), 0)) s

/-! ### Predicates (R151, R152) -/

/-- Truth of the elements of a predicate: the lowest bit of their lanes (R43). -/
def truths (t : Fmt) (p : Pred) : List Bool := activeList (Fmt.width t) p

def vPred (i : Instr) (s : State) (pd : PReg) (et : Fmt) (pg : PReg) (r : Core → List Bool) :
    Outcome State Fault Refusal :=
  slotOp i s fun c =>
    let e := Fmt.width et
    .ok (c.push (mkPend s.iss.slot 1 (.p (c.pp pd) (predOf e (c.act et pg)) (predOf e (r c)))))

def vPred2 (i : Instr) (f : VpF) (op : Bool → Bool → Bool) (s : State) : Outcome State Fault Refusal :=
  vPred i s f.pd f.et f.pg fun c => List.zipWith op (truths f.et (c.rp f.ps1)) (truths f.et (c.rp f.ps2))

def execVpand (f : VpF) (s : State) : Outcome State Fault Refusal := vPred2 (.vpand f) f and s
def execVpor (f : VpF) (s : State) : Outcome State Fault Refusal := vPred2 (.vpor f) f or s
def execVpxor (f : VpF) (s : State) : Outcome State Fault Refusal := vPred2 (.vpxor f) f xor s
def execVpnot (f : VpnF) (s : State) : Outcome State Fault Refusal :=
  vPred (.vpnot f) s f.pd f.et f.pg fun c => (truths f.et (c.rp f.ps1)).map not
def execVpset (f : VpsF) (s : State) : Outcome State Fault Refusal :=
  vPred (.vpset f) s f.pd f.et f.pg fun _ => List.replicate (1024 / Fmt.width f.et) true

/-- The counted elements of R152. -/
def counted (c : Core) (f : VpxF) : List Bool :=
  List.zipWith and (truths f.et (c.rp f.ps)) (c.act f.et f.pg)

/-- The number of an element's place, or all ones. -/
def firstIdx (l : List Bool) : DWord :=
  match l.findIdx? id with
  | some k => BitVec.ofNat 64 k
  | none => BitVec.allOnes 64

def execVpcnt (f : VpxF) (s : State) : Outcome State Fault Refusal :=
  slotOp (.vpcnt f) s fun c =>
    .ok (c.push (mkPend s.iss.slot 2 (.x f.x (BitVec.ofNat 64 ((counted c f).countP id)))))
def execVpfirst (f : VpxF) (s : State) : Outcome State Fault Refusal :=
  slotOp (.vpfirst f) s fun c => .ok (c.push (mkPend s.iss.slot 2 (.x f.x (firstIdx (counted c f)))))

/-! ### L6 (R158, R159) -/

/-- A whole number of units of 2^-24 rounded to L6. -/
def l6OfUnits (rm : Rm) (t : Int) : Nat × Flags := l6Round rm (decide (t < 0)) t.natAbs (-24)

def elMulL6 (rm : Rm) (a b : Nat) : Nat × Flags :=
  match l6mul (a % 64) (b % 64) with
  | none => (0x20, 0)
  | some t => l6OfUnits rm t

def execVmulL6 (f : VlF) (s : State) : Outcome State Fault Refusal :=
  vecOp (.vmulL6 f) s f.vd 2 fun c =>
    vOut 8 (activeList 8 (c.pg f.pg)) (List.zipWith (elMulL6 c.c.rm) (elems 8 (c.rv f.vs1)) (elems 8 (c.rv f.vs2)))

/-- One element of VDOT.L6: the four products summed exactly, one rounding. -/
def elDotL6 (rm : Rm) (d : Nat) (prods : List (Option Int)) : Nat × Flags :=
  let x := fp32.decode d
  let inv : Flags := if x.isSig then flNV else 0
  if x.isNaN || prods.any (·.isNone) then (fp32.canonNaN, inv)
  else
    let sum := (prods.filterMap id).foldl (· + ·) 0
    fp32.addR rm x (.ofInt sum (-24))

def execVdotL6 (f : VlF) (s : State) : Outcome State Fault Refusal :=
  vecOp (.vdotL6 f) s f.vd 4 fun c =>
    let prods := groups4 (List.zipWith (fun a b => l6mul (a % 64) (b % 64)) (elems 8 (c.rv f.vs1)) (elems 8 (c.rv f.vs2)))
    vOut 32 (activeList 32 (c.pg f.pg)) (List.zipWith (elDotL6 c.c.rm) (elems 32 (c.rv f.vd)) prods)

/-! ### VRAND (R160) -/

/-- One Philox round after its key step. -/
def philoxRound (c : Nat × Nat × Nat × Nat) (k0 k1 : Nat) : Nat × Nat × Nat × Nat :=
  let (c0, c1, c2, c3) := c
  let p0 := 0xD2511F53 * c0
  let p1 := 0xCD9E8D57 * c2
  (Nat.xor (Nat.xor (p1 / 2 ^ 32) c1) k0, p1 % 2 ^ 32, Nat.xor (Nat.xor (p0 / 2 ^ 32) c3) k1, p0 % 2 ^ 32)

def philoxGo : Nat → Nat × Nat × Nat × Nat → Nat → Nat → Nat × Nat × Nat × Nat
  | 0, c, _, _ => c
  | n + 1, c, k0, k1 => philoxGo n (philoxRound c k0 k1) ((k0 + 0x9E3779B9) % 2 ^ 32) ((k1 + 0xBB67AE85) % 2 ^ 32)

/-- Ten rounds on a 128-bit counter, as four words in one number. -/
def philox (cnt seed : Nat) : Nat :=
  let w (k : Nat) : Nat := cnt / 2 ^ (32 * k) % 2 ^ 32
  let (a, b, c, d) := philoxGo 10 (w 0, w 1, w 2, w 3) (seed % 2 ^ 32) (seed / 2 ^ 32 % 2 ^ 32)
  packNat 32 [a, b, c, d]

/-- The 1024 raw bits of one issue. -/
def philoxRaw (base seed : Nat) : Nat := packNat 128 ((List.range 8).map (fun b => philox ((base + b) % 2 ^ 128) seed))

/-- Element j of the raw bits in its type. -/
def randEl (t : Fmt) (x : Nat) : Nat :=
  match t with
  | .f32 => (fp32.round .rne false (x / 2 ^ 8) (-24)).1
  | .f64 => (fp64.round .rne false (x / 2 ^ 11) (-53)).1
  | _ => x

def execVrand (f : VrF) (s : State) : Outcome State Fault Refusal :=
  vecOp (.vrand f) s f.vd 12 fun c =>
    let e := Fmt.width f.et
    let raw := BitVec.ofNat 1024 (philoxRaw ((c.rv f.vs2).toNat % 2 ^ 128) ((c.rv f.vs1).toNat % 2 ^ 64))
    vOutI e (c.act f.et f.pg) ((elems e raw).map (randEl f.et))

end Sys2Proof.Machine
end

