-- ==== Sys2Proof/Machine/MemSys.lean ====
section
/-! DEFINITION. The memory system (R252 to R276, R344 to R349, R423 to R431): what an access may reach, cache copies,
vector clocks and stamped messages, the order in which a task's accesses are performed, and the completion of loads,
stores and atomics. The coherent value of a location is the memory's; slices and L1 hold copies of it (log 16). -/

namespace Sys2Proof.Machine

open Host (Outcome)

/-! ### The Wicket and the links (R345, R349, R377, R378, R451, R456) -/

/-- Whether an access is allowed, or how it is refused. -/
inductive Verdict where
  | ok | denied | link | lost
  deriving DecidableEq, Repr

/-- A region covers a block of a bank (R298). -/
def regionHas (r : BitVec 128) (bank blk : Nat) : Bool :=
  decide ((fld r 98 7).toNat ≤ bank) && decide (bank ≤ (fld r 105 7).toNat) && decide ((fld r 56 21).toNat ≤ blk) &&
    decide (blk < (fld r 56 21).toNat + (fld r 77 21).toNat) && (fld r 0 2 != 0)

/-- The region of a die that holds a block. -/
def State.regionOf (s : State) (die bank blk : Nat) : Option (BitVec 128) :=
  (s.dev.wt.regions.find? (fun e => decide (e.1 / 64 = die) && regionHas e.2 bank blk)).map (·.2)

/-- R349: the key slot admits the context for a stream of this kind. -/
def State.streamOk (s : State) (k : Nat) (kind : KeyKind) (a : BitVec 16) : Bool :=
  decide (8 ≤ k % 512) &&
    (match s.keySlot k with
     | some e => e.kind == kind && (e.owner == a || e.owner == 0)
     | none => false)

/-- A fabric port to a package is up and not stopped (R378). -/
def State.portTo (s : State) (pkg : BitVec 10) : Bool :=
  s.dev.link.ports.any (fun e => e.2.trained && e.2.keyed && !e.2.stop && e.2.peer == pkg)

/-- What the Wicket and the links say of an access by a context through a capability (R345). -/
def State.verdict (s : State) (a : BitVec 16) (cap : Cap) (key : Nat) : Verdict :=
  let addr := keyOff key
  match capSpace cap with
  | 0 => if (s.owner (ownerCore (keyUnit key))).admits a then .ok else .denied
  | 1 => if (s.owner (ownerClus (keyUnit key))).admits a then .ok else .denied
  | 2 =>
    if s.dev.lost.contains (homeDie addr) then .lost
    else if (s.owner (ownerPage addr)).admits a then .ok else .denied
  | 3 =>
    match s.regionOf (keyUnit key) (addr / 2 ^ 29) (addr % 2 ^ 29 / 256) with
    | some r => if fld r 112 16 = a ∨ fld r 112 16 = 0 then .ok else .denied
    | none => .ok
  | 4 =>
    if !s.streamOk (capKey cap) .ide a then .denied
    else if !s.dev.link.hostUp || !((s.keySlot (capKey cap)).any (·.live)) then .link else .ok
  | _ =>
    if !s.streamOk (capKey cap) .fabric a then .denied
    else
      let pkg := ((s.keySlot (capKey cap)).map (·.peer)).getD 0
      if !s.dev.link.fabValid || s.dev.link.lostPkgs.contains pkg.toNat || !s.portTo pkg then .link else .ok

/-- The cause of a refused write or atomic (R423, R451). -/
def Verdict.cause : Verdict → BitVec 8
  | .link => 0x29
  | .lost => 0xE6
  | _ => 0x28

/-- TVAL of a refused access to a key (R398): the byte's address, or the lost die. -/
def Verdict.tval (v : Verdict) (key : Nat) : DWord :=
  match v with
  | .lost => BitVec.ofNat 64 (homeDie (keyOff key))
  | _ => BitVec.ofNat 64 (keyOff key)

/-- The context that core n acts for (R345). -/
def State.ctxOf (s : State) (n : Nat) : BitVec 16 := (((s.core n).task).map (·.ctx)).getD 0

/-- A deferred trap of core n (R384). -/
def Core.defer (c : Core) (t : Trap) : Core := { c with deferred := c.deferred ++ [t] }

def deferred (cause : BitVec 8) (tval : DWord) (sl : Slot) : Trap :=
  { cause := cause, kind := .deferred, tval := tval, slot := sl, elem := 0, loop := none, replay := none, rep := 0
    zero := [] }

/-- The kind of a byte's address in a machine-check record (R442). -/
def addrKind (key : Nat) : BitVec 4 :=
  match keySpace key with
  | 0 => 1 | 1 => 2 | 2 => 3 | 3 => 4 | _ => 0

/-- The fabric port that a package's accesses take, by 2 * die + port. -/
def State.portOf (s : State) (n pkg : Nat) : Nat :=
  ((s.dev.link.ports.find? (fun e => e.2.peer.toNat == pkg)).map (·.1)).getD (2 * dieOf n)

/-- R423: a refused access of core n, or of a job that acts for it, is counted in the bank of the unit that found it: a
Wicket denial in the cluster's, a link's refusal in the link's (log 48). -/
def State.countDenial (s : State) (n : Nat) (misc : BitVec 64) (v : Verdict) (key : Nat) (marks : Bool) : State :=
  let kind := addrKind key
  let rec0 (cause : BitVec 8) (unit : Nat) : McErr :=
    { mcContained cause unit (s.loc n) kind (if kind = 0 then 0 else keyOff key) (some misc) with pmark := marks }
  match v with
  | .denied => s.mcRecord (dieOf n) (clusterOf n % 12) (rec0 0x28 (n % 8))
  | .link =>
    if keySpace key = MSpace.host.code then s.mcRecord 0 26 (rec0 0x29 0)
    else s.mcRecord (s.portOf n (keyUnit key) / 2) 27 (rec0 0x29 (s.portOf n (keyUnit key) % 2))
  | _ => s

/-! ### Writing at a home -/

/-- The releases that bytes carry after a store: its own (R265); those before it stay known to the atomics that follow
(R267). -/
def State.storeRels (s : State) (keys : List Nat) (rel : Option Rel) : State :=
  let put (l : List (Nat × List Rel)) (k : Nat) (r : List Rel) : List (Nat × List Rel) :=
    if r.isEmpty then l.filter (·.1 != k) else insertAt l k r
  s.setMs { s.dev.ms with
    rels := keys.foldl (fun l k => put l k rel.toList) s.dev.ms.rels
    past := match rel with
      | none => s.dev.ms.past
      | some r => keys.foldl (fun l k => insertAt l k (r :: lookupD [] l k).dedup) s.dev.ms.past }

/-- The same after an atomic, which continues every release before it (R267). -/
def State.atomicRels (s : State) (keys : List Nat) (rel : Option Rel) : State :=
  let put (l : List (Nat × List Rel)) (k : Nat) : List (Nat × List Rel) :=
    match (rel.toList ++ lookupD [] s.dev.ms.past k).dedup with
    | [] => l.filter (·.1 != k)
    | r => insertAt l k r
  s.setMs { s.dev.ms with rels := keys.foldl put s.dev.ms.rels, past := keys.foldl put s.dev.ms.past }

def State.relsAt (s : State) (keys : List Nat) : List Rel :=
  (keys.flatMap (fun k => lookupD [] s.dev.ms.rels k)).dedup

/-- Granules that [key, key + n) touches are marked, or a dirty line of a slice or an L1, which holds what their home does not
have, is (R427). -/
def State.soiled (s : State) (g : Nat) : Bool :=
  let hit (l : CLine) : Bool := l.dirty && decide (l.key ≤ 32 * g) && decide (32 * g < l.key + 256) && bit l.marks (g - l.key / 32)
  s.dev.ms.lines.any (fun e => hit e.2) || s.cores.any (fun e => e.2.m.l1.any hit)

def State.spoiled (s : State) (key n : Nat) : Bool := s.marked key n || (granules key n).any s.soiled

/-- Granules that a list of written bytes covers whole. -/
def coveredGranules (keys : List Nat) : List Nat :=
  ((keys.map granule).dedup).filter (fun g => (List.range 32).all (fun i => keys.contains (32 * g + i)))

/-- Bytes into memory: tags clear, and the marks of whole granules (R166, R429). -/
def State.writeBytes (s : State) (bytes : List (Nat × Byte)) : State :=
  let s := s.storeEach bytes
  { s with marks := (coveredGranules (bytes.map (·.1))).foldl KeySet.del s.marks }

/-- Tags of granules that were written whole with them (R166). -/
def State.addTags (s : State) (tags : List Nat) : State := { s with tags := tags.foldl KeySet.add s.tags }

/-- Marks of granules. An error found in a granule before its last whole write is forgotten. -/
def State.addMarks (s : State) (gs : List Nat) : State :=
  let new := gs.filter (fun g => !KeySet.has s.marks g)
  { s with
    marks := gs.foldl KeySet.add s.marks
    dev := { s.dev with ms := { s.dev.ms with
      broken := s.dev.ms.broken.filter (fun e => e.2 == .decode || !new.contains e.1) } } }

/-! ### Copies in slices and L1 (R252 to R254) -/

def lineKey (k : Nat) : Nat := k / 256 * 256

/-- The lines that bytes lie in. -/
def linesOf (keys : List Nat) : List Nat := (keys.map lineKey).dedup

/-- GLOB, HOST and PEER lines may be held as copies. -/
def cacheable (k : Nat) : Bool := keySpace k == 0 || keySpace k == 4 || keySpace k == 5

/-- A HOST or PEER byte: its lines are not kept coherent (R254). -/
def farKey (k : Nat) : Bool := keySpace k != 0

def CLine.byteAt (l : CLine) (k : Nat) : Byte × Bool := (l.bytes[k - l.key]?.getD 0, bit l.marks ((k - l.key) / 32))

def CLine.has (l : CLine) (k : Nat) : Bool := decide (l.key ≤ k) && decide (k < l.key + 256)

/-- New bytes in a held line, with the granules that they tag and mark: a granule written loses its tag, and one written
whole its mark (R166, R429). The bytes carry no release until they are told one. -/
def CLine.patch (l : CLine) (bytes : List (Nat × Byte)) (tags marks : List Nat) : CLine :=
  let mine := bytes.filter (fun b => l.has b.1)
  if mine.isEmpty then l
  else
    let hit (g : Nat) : Bool := mine.any (fun b => (b.1 - l.key) / 32 == g)
    let whole (g : Nat) : Bool := (List.range 32).all (fun i => mine.any (fun b => b.1 == l.key + 32 * g + i))
    let put (old : BitVec 8) (new : Nat → Bool → Bool) : BitVec 8 :=
      (List.range 8).foldl (fun m g => setBit m g (new g (bit old g))) 0
    { l with
      bytes := mine.foldl (fun bs b => bs.set (b.1 - l.key) b.2) l.bytes
      tags := put l.tags (fun g t => if hit g then tags.contains (granule l.key + g) else t)
      marks := put l.marks (fun g m => marks.contains (granule l.key + g) || (m && !whole g))
      rels := l.rels.filter (fun e => !mine.any (·.1 == e.1)) }

/-- Bytes of a HOST or PEER line that its home is still to get (R253). -/
def CLine.owing (l : CLine) : List (Nat × Byte) :=
  if l.mask = 0 ∨ !farKey l.key then []
  else (l.bytes.zipIdx).filterMap (fun (b, i) => if bit l.mask i then some (l.key + i, b) else none)

/-- Granules whose mark a write-back brings to LPDDR-6 (R427). -/
def CLine.owingMarks (l : CLine) : List Nat :=
  if l.dirty && !farKey l.key then ((List.range 8).filter (bit l.marks ·)).map (granule l.key + ·) else []

/-- A line that takes bytes which its home gets later, through a stream. -/
def CLine.soil (l : CLine) (stream : Nat) (bytes : List (Nat × Byte)) : CLine :=
  { l.patch bytes [] [] with
    dirty := true, stream := stream
    mask := bytes.foldl (fun m b => if l.has b.1 then setBit m (b.1 - l.key) true else m) l.mask }

/-- The same line with marks on some granules. -/
def CLine.poison (l : CLine) (gs : List Nat) : CLine :=
  { l with marks := (List.range 8).foldl (fun m i => if gs.contains (granule l.key + i) then setBit m i true else m) l.marks }

/-- The releases that a byte of the line carries. -/
def CLine.relsAt (l : CLine) (k : Nat) : List Rel := (l.rels.filter (·.1 == k)).flatMap (·.2)

def State.sliceLine (s : State) (clu k : Nat) : Option CLine :=
  (s.dev.ms.lines.find? (fun e => e.1 == clu && e.2.key == lineKey k)).map (·.2)

def Core.l1Line (c : Core) (k : Nat) : Option CLine := c.m.l1.find? (fun l => l.key == lineKey k)

/-- The copy that a read under a policy uses. A byte that its home is still to get is read where it stands, whatever the policy
(R165, R261). -/
def State.copyFor (s : State) (n pol k : Nat) : Option CLine :=
  if !cacheable k then none
  else if pol = 3 then (s.sliceLine (clusterOf n) k).filter (fun l => bit l.mask (k - l.key))
  else if pol = 0 then ((s.core n).l1Line k).orElse (fun _ => s.sliceLine (clusterOf n) k)
  else s.sliceLine (clusterOf n) k

/-- The line at a key as its home holds it. -/
def State.homeLine (s : State) (k : Nat) : CLine :=
  let per (p : Nat → Bool) : BitVec 8 := (List.range 8).foldl (fun m g => setBit m g (p (granule (lineKey k) + g))) 0
  { key := lineKey k, bytes := s.bytes (lineKey k) 256, marks := per (fun g => KeySet.has s.marks g || s.soiled g)
    tags := per (KeySet.has s.tags), dirty := false, mask := 0, stream := 0
    rels := s.dev.ms.rels.filter (fun e => lineKey e.1 == lineKey k) }

/-- Change the lines that a set of clusters holds, in their slices and their cores' L1. -/
def State.mapLines (s : State) (clus : Nat → Bool) (g : CLine → Option CLine) : State :=
  let s := s.setMs { s.dev.ms with lines := s.dev.ms.lines.filterMap (fun (c, l) =>
    if clus c then (g l).map (fun l' => (c, l')) else some (c, l)) }
  { s with cores := s.cores.map (fun (n, c) =>
      (n, if clus (clusterOf n) then { c with m := { c.m with l1 := c.m.l1.filterMap g } } else c)) }

/-- Held lines learn which releases their bytes carry now (R266). -/
def State.tellRels (s : State) (clus : Nat → Bool) (keys : List Nat) : State :=
  let of (k : Nat) : List (Nat × List Rel) :=
    match lookupD [] s.dev.ms.rels k with
    | [] => []
    | r => [(k, r)]
  s.mapLines clus (fun l => some { l with
    rels := l.rels.filter (fun e => !keys.contains e.1) ++ (keys.filter l.has).flatMap of })

/-! ### Writing back (R253, R341, R427) -/

/-- The unit of a store that a byte address belongs to (R263). -/
def Access.unitOf (a : Access) (addr : Nat) : Nat := (addr - capBase a.cap) / a.unit

/-- Keys of the bytes of a store that have been sent or performed. -/
def State.doneBytes (s : State) (n : Nat) (a : Access) : List Nat :=
  match a.kind with
  | .store bytes => (bytes.filter (fun b => a.done.contains (a.unitOf b.1))).map (fun b => s.place n a.cap b.1)
  | _ => []

def Core.findAcc (c : Core) (id : Nat) : Option Access := c.m.accs.find? (·.id == id)
def Core.setAcc (c : Core) (a : Access) : Core :=
  { c with m := { c.m with accs := c.m.accs.map (fun b => if b.id = a.id then a else b) } }

/-- A store's byte is refused: it is dropped, its cause is deferred once, and the refusal counted (R346, R423). -/
def State.refuseStore (s : State) (n : Nat) (a : Access) (v : Verdict) (key : Nat) : State :=
  let s := s.countDenial n (s.miscOf n) v key false
  if a.refused then s
  else s.setCore n (((s.core n).setAcc { a with refused := true }).defer (deferred v.cause (v.tval key) a.slot))

/-- The link that a HOST or PEER line's bytes take is open, and its stream keyed (R341, R377, R378). -/
def State.lineOpen (s : State) (l : CLine) : Bool :=
  (s.keySlot l.stream).any (fun e =>
    if keySpace l.key = MSpace.host.code then s.dev.link.hostUp && e.live
    else s.dev.link.fabValid && !s.dev.link.lostPkgs.contains e.peer.toNat && s.portTo e.peer)

/-- A store of core n whose byte a slice still owes, where its link refuses the write-back: the byte is dropped, its cause deferred
once and the refusal counted (R346, R423). -/
def State.failOwed (s : State) (clu : Nat) (l : CLine) : State :=
  let hits (n : Nat) (a : Access) : Bool :=
    !a.refused && l.owing.any (fun b => (s.doneBytes n a).contains b.1)
  let owners := s.cores.flatMap (fun (n, c) => if clusterOf n = clu then (c.m.accs.filter (hits n)).map (fun a => (n, a)) else [])
  owners.foldl (fun s (n, a) => s.refuseStore n a .link ((l.owing.map (·.1)).headD l.key)) s

/-- Write back what the slices' chosen lines, with their L1s' copies, owe their homes; the lines stay, clean. A line whose link
is not open goes, and the stores of its bytes are refused. -/
def State.clean (s : State) (sel : Nat → CLine → Bool) : State :=
  let s := s.cleanL1 (fun n l => sel (clusterOf n) l)
  let chosen := s.dev.ms.lines.filter (fun e => sel e.1 e.2)
  let owed := (chosen.filter (fun e => s.lineOpen e.2)).flatMap (fun e => e.2.owing)
  let shut := chosen.filter (fun e => !e.2.owing.isEmpty && !s.lineOpen e.2)
  let marks := chosen.flatMap (fun e => e.2.owingMarks)
  let s := if owed.isEmpty then s else (s.writeBytes owed).storeRels (owed.map (·.1)) none
  let s := if marks.isEmpty then s else s.addMarks marks
  let s := shut.foldl (fun s e => (s.failOwed e.1 e.2).mapLines (· == e.1) (fun l => if l.key = e.2.key then none else some l)) s
  s.setMs { s.dev.ms with lines := s.dev.ms.lines.map (fun (c, l) => (c, if sel c l then l.cleaned else l)) }

/-- Drop lines of some clusters' slices with their L1s' copies, after what they owe has been written back. -/
def State.dropWhere (s : State) (clus : Nat → Bool) (p : Nat → Bool) : State :=
  (s.clean (fun c l => clus c && p l.key)).mapLines clus (fun l => if p l.key then none else some l)

def State.dropLines (s : State) (clus : Nat → Bool) (keys : List Nat) : State := s.dropWhere clus keys.contains

/-- R252, R254: the HOST and PEER lines of a core's slice go, and with them those of its L1s, at an acquire at domain scope. -/
def State.discardFar (s : State) (n : Nat) : State := s.dropWhere (· == clusterOf n) farKey

/-- Ways of a cluster's slice that take lines; one that is being surrendered takes none (R3, R257). -/
def State.cacheWays (s : State) (clu : Nat) : Nat :=
  let w := s.wayp clu
  16 - w.cur - (if w.busy && decide (w.cur < w.req) then 1 else 0)

/-- Ways of an L1 (R3). -/
def l1Ways : Nat := 8

/-- The sets that a line may stand in: 4,096 of a slice and 64 of an L1 (R3, log 12). -/
def sliceSet (k : Nat) : Nat := k / 256 % 4096
def l1Set (k : Nat) : Nat := k / 256 % 64

/-- Make room in a slice for a line: the oldest lines of its set go (log 12). -/
def State.evict (s : State) (clu k : Nat) : State :=
  let set := s.dev.ms.lines.filter (fun e => e.1 == clu && sliceSet e.2.key == sliceSet k)
  s.dropLines (· == clu) ((set.take (set.length + 1 - s.cacheWays clu)).map (·.2.key))

/-- The oldest lines of its set go from core n's L1 where a line at `k` is to come; what they hold goes to the slice. -/
def State.evictL1 (s : State) (n k : Nat) : State :=
  let set := (s.core n).m.l1.filter (fun x => l1Set x.key == l1Set k)
  let gone := (set.take (set.length + 1 - l1Ways)).map (·.key)
  let s := s.cleanL1 (fun m l => m == n && gone.contains l.key)
  let c := s.core n
  s.setCore n { c with m := { c.m with l1 := c.m.l1.filter (fun x => !gone.contains x.key) } }

/-- Bring the line of a byte into the levels that the policy allocates (R165, R176): a streaming one is the first of its set
to go. With no cache way left nothing is held (R257). A policy that goes past the caches leaves no older copy of a HOST or PEER line for
a later read (R261). -/
def State.fill (s : State) (n pol k : Nat) : State :=
  let clu := clusterOf n
  if !cacheable k || (pol = 3 && !farKey k) then s
  else if pol = 3 then s.dropLines (· == clu) [lineKey k]
  else if s.cacheWays clu = 0 then s
  else
    let s :=
      if (s.sliceLine clu k).isSome then s
      else
        let s := s.evict clu k
        let e := (clu, s.homeLine k)
        s.setMs { s.dev.ms with lines := if pol = 2 then e :: s.dev.ms.lines else s.dev.ms.lines ++ [e] }
    if pol = 0 ∧ ((s.core n).l1Line k).isNone then
      let s := s.evictL1 n k
      let c := s.core n
      s.setCore n { c with m := { c.m with l1 := c.m.l1 ++ [((s.sliceLine clu k).getD (s.homeLine k)).cleaned] } }
    else s

/-- Lines of core n's L1 that its store has changed are dirty (R253). -/
def State.soilL1 (s : State) (n : Nat) (lines : List Nat) : State :=
  let c := s.core n
  s.setCore n { c with m := { c.m with l1 := c.m.l1.map (fun l => if lines.contains l.key then { l with dirty := true } else l) } }

/-- An acquire by core n at a scope of writes that carry releases (R266, R254). -/
def State.acquire (s : State) (n : Nat) (sc : Scope) (rels : List Rel) : State :=
  let s := s.setCore n ((s.core n).setNarrow (narrows n sc rels))
  if sc = .domain then s.discardFar n else s

/-! ### Vector clocks and messages (R271) -/

/-- One more write of die `d`; the counters have 64 bits. -/
def Clock.bump (c : Clock) (d : Nat) : Clock := c.set d ((Clock.get c d + 1) % 2 ^ 64)
/-- a is at least b in every counter of a die that is not lost. -/
def State.covers (s : State) (a b : Clock) : Bool :=
  (List.range 8).all (fun d => s.dev.lost.contains d || decide (Clock.get b d ≤ Clock.get a d))
def State.clock (s : State) (die : Nat) : Clock := s.dev.ms.clocks.getD die Clock.zero
def State.setClock (s : State) (die : Nat) (c : Clock) : State :=
  s.setMs { s.dev.ms with clocks := s.dev.ms.clocks.set die c }

/-- The neighbours of a die with the number of the module that joins them to it (R21). -/
def neighbours (d : Nat) : List (Nat × Nat) := [(d ^^^ 1, 0), (d ^^^ 2, 1), (d ^^^ 4, 2), (d ^^^ 7, 3)]

def adjacent (a b : Nat) : Bool := (neighbours a).any (·.1 == b)

/-- The intermediate die of a transfer between dies that are no neighbours: the lowest-numbered live common neighbour (R21). -/
def State.via (s : State) (a b : Nat) : Option Nat :=
  (List.range 8).find? (fun d => adjacent a d && adjacent d b && !s.dev.lost.contains d)

/-- A transfer between two dies has a path (R21, R451). -/
def State.linked (s : State) (a b : Nat) : Bool := a == b || adjacent a b || (s.via a b).isSome

/-- Die `d` may use a reply of home `h`: it has delivered all that the home had when it answered (R271), and the home all
that the reader's die had when it asked (R270, log 17). -/
def State.inStep (s : State) (d h : Nat) : Bool :=
  d == h || s.dev.lost.contains h || (s.linked d h && s.covers (s.clock d) (s.clock h) && s.covers (s.clock h) (s.clock d))

/-- Stamp a message of die `src` and send it: every other live die receives its body (log 17). -/
def State.stamp (s : State) (src : Nat) (body : Nat → MsgBody) : State :=
  let vc := (s.clock src).bump src
  let s := s.setClock src vc
  let dsts := (List.range 8).filter (fun d => d != src && !s.dev.lost.contains d)
  dsts.foldl (fun s d => s.setMs { s.dev.ms with
    msgs := s.dev.ms.msgs ++ [{ id := s.dev.ms.nextMsg, src := src, dst := d, stamp := vc, body := body d }]
    nextMsg := s.dev.ms.nextMsg + 1 }) s

/-- Send a write of some lines to its home on another die. No copy on the sender's die outlives it, and none on a third die
that has been told. -/
def State.sendWrite (s : State) (src dst : Nat) (lines : List Nat) (body : MsgBody) : State :=
  (s.dropLines (fun c => c / 12 == src) lines).stamp src (fun d => if d = dst then body else .announce lines)

/-- R271: the receiving die may deliver a message. -/
def State.deliverable (s : State) (m : Msg) : Bool :=
  let vc := s.clock m.dst
  s.linked m.src m.dst && (List.range 8).all (fun d => s.dev.lost.contains d ||
    (if d = m.src then (Clock.get vc d + 1) % 2 ^ 64 == Clock.get m.stamp d
     else decide (Clock.get m.stamp d ≤ Clock.get vc d)))

/-! ### Queue descriptors and signal words (R326 to R329) -/

/-- The queue of which GLOB address `a` lies in the descriptor, and the byte of it. Both registers of its die are live. -/
def State.descAt (s : State) (a : Nat) : Option (Nat × Nat) :=
  (s.dev.sched.qdbase.find? (fun e => (s.dev.sched.qsigbase.any (·.1 == e.1)) && decide (e.2 ≤ a) && decide (a < e.2 + 2 ^ 19))).map
    (fun e => (8192 * e.1 + (a - e.2) / 64, (a - e.2) % 64))

/-- The queue of which GLOB address `a` lies in the signal word. -/
def State.signalAt (s : State) (a : Nat) : Option Nat :=
  (s.dev.sched.qsigbase.find? (fun e => (s.dev.sched.qdbase.any (·.1 == e.1)) && decide (e.2 ≤ a) && decide (a < e.2 + 2 ^ 16))).map
    (fun e => 8192 * e.1 + (a - e.2) / 8)

/-- R327: software's write of a descriptor byte is ignored: STATE and CAUSE always, RD and bits [79:0] while it is mapped. -/
def State.descIgnores (s : State) (a : Nat) : Bool :=
  match s.descAt a with
  | some (q, b) => b == 21 || b == 22 || ((decide (b < 10) || (decide (16 ≤ b) && decide (b < 20))) && s.dev.sched.slots.any (·.q == q))
  | none => false

/-- What the home of a signal word or a descriptor passes on after a write of byte `a` (R328, R329). -/
def State.noteByte (s : State) (a : Nat) : State :=
  let s := match s.signalAt a with
    | some q =>
      if s.dev.sched.signals.contains q then s
      else { s with dev := { s.dev with sched := { s.dev.sched with signals := s.dev.sched.signals ++ [q] } } }
    | none => s
  match s.descAt a with
  | some (q, 6) =>
    let k := mkey .glob 0 a
    if bit (s.byte (k + 15)) 1 && !bit (s.byte (k + 15)) 0 then
      let d := s.dev.sched
      let on := bit (s.byte k) 7
      if on then
        if d.disabled.contains q then
          s.setSched { d with disabled := d.disabled.filter (· != q), restarts := d.restarts ++ [q] }
        else s
      else if d.disabled.contains q then s else s.setSched { d with disabled := d.disabled ++ [q] }
    else s
  | _ => s

/-- Bytes written at their home with the granules that they tag and mark: the home's own clusters see them at once, and a die
that holds a copy gets the home's notice (R252, R271). Cluster `clu`, where it is of the home die, keeps its copy dirty, and what
another held dirty is written back first (R253). A
tag or mark comes only with a byte of its granule, a tag with all of them (R166). -/
def State.putGlob (s : State) (h clu : Nat) (bytes : List (Nat × Byte)) (tags marks : List Nat) : State :=
  let keys := bytes.map (·.1)
  let lks := linesOf keys
  let tags := tags.filter (coveredGranules keys).contains
  let marks := marks.filter (keys.map granule).contains
  let s := s.clean (fun c l => c != clu && lks.contains l.key)
  let s := ((s.writeBytes bytes).addTags tags).addMarks marks
  let s := s.mapLines (fun c => c / 12 == h) (fun l => some (l.patch bytes tags marks))
  let s := s.setMs { s.dev.ms with lines := s.dev.ms.lines.map (fun (c, l) =>
    (c, if c = clu ∧ lks.contains l.key then { l with dirty := true } else l)) }
  let holds (d : Nat) : Bool := s.dev.ms.lines.any (fun e => e.1 / 12 == d && lks.contains e.2.key)
  if (List.range 8).any (fun d => d != h && holds d) then
    s.stamp h (fun d => if holds d then .notice lks else .announce lks)
  else s

/-- A GLOB write of software, performed at its home. -/
def State.performGlob (s : State) (h clu : Nat) (bytes : List (Nat × Byte)) (tags marks : List Nat) : State :=
  let bytes := bytes.filter (fun b => !s.descIgnores (keyOff b.1))
  (bytes.map (fun b => keyOff b.1)).foldl State.noteByte (s.putGlob h clu bytes tags marks)

/-- R345 to R347: a byte that a die's complex reads or writes in the name of a context is admitted by its page. -/
def State.complexOk (s : State) (ctx : BitVec 16) (a : Nat) : Bool := (s.ownerNext (ownerPage a)).admits ctx

/-- A denied access of a die's complex to [a, a + n) is counted once in the complex's bank, by its first denied byte (R423, R441;
log 48): pages are whole, so that byte is the first or the last page's first. -/
def State.countComplex (s : State) (die : Nat) (ctx : BitVec 16) (a n : Nat) : State :=
  let last := a + (n - 1)
  if !s.complexOk ctx a then s.mcRecord die 28 (mcContained 0x28 0 0 1 a none)
  else if !s.complexOk ctx last then s.mcRecord die 28 (mcContained 0x28 0 0 1 (last / 2 ^ 21 * 2 ^ 21) none)
  else s

/-- A write of the complex of die `src` at its home: the Wicket's check, byte by byte, then the bytes and the release that they carry. -/
def State.putComplex (s : State) (src h : Nat) (ctx : BitVec 16) (bytes : List (Nat × Byte)) (rel : Option Rel) : State :=
  let good := bytes.filter (fun b => s.complexOk ctx (keyOff b.1))
  let keys := good.map (·.1)
  let s := s.countComplex src ctx (keyOff ((bytes.map (·.1)).headD 0)) bytes.length
  let s := (s.putGlob h 96 good [] []).storeRels keys rel
  if rel.isSome then s.tellRels (· / 12 == h) keys else s

/-- A write of the complex of a die: at once where the die is its home, else in a stamped message to it (R271); none to a lost die. -/
def State.devWriteAs (s : State) (src : Nat) (ctx : BitVec 16) (addr : Nat) (bs : List Byte) (rel : Option Rel) : State :=
  let bytes := (bs.zipIdx).map (fun (b, i) => (mkey .glob 0 (addr + i), b))
  let homes := ((bytes.map (fun b => homeDie (keyOff b.1))).dedup).filter (fun h => !s.dev.lost.contains h)
  homes.foldl (fun s h =>
    let mine := bytes.filter (fun b => homeDie (keyOff b.1) == h)
    if h = src then s.putComplex src h ctx mine rel
    else s.sendWrite src h (linesOf (mine.map (·.1))) (.complex ctx mine rel)) s

/-- A GLOB write of a die's complex for the device itself: a descriptor, a journal entry. -/
def State.devWrite (s : State) (src addr n v : Nat) (rel : Option Rel := none) : State := s.devWriteAs src 0 addr (leBytes n v) rel

/-- A HOST or PEER write performed at its home; the copies of the writer's cluster take it. -/
def State.performFar (s : State) (clu : Nat) (bytes : List (Nat × Byte)) : State :=
  let lks := linesOf (bytes.map (·.1))
  ((s.clean (fun c l => c == clu && lks.contains l.key)).writeBytes bytes).mapLines (· == clu) (fun l => some (l.patch bytes [] []))

/-- A HOST or PEER store that stays in the slice of core n's cluster until it is written back (R253). -/
def State.performSlice (s : State) (n pol stream : Nat) (bytes : List (Nat × Byte)) : State :=
  (linesOf (bytes.map (·.1))).foldl (fun s k =>
    let s := (s.fill n pol k).mapLines (· == clusterOf n) (fun l => if l.key = k then some (l.patch bytes [] []) else some l)
    s.setMs { s.dev.ms with lines := s.dev.ms.lines.map (fun (c, l) =>
      (c, if c = clusterOf n ∧ l.key = k then l.soil stream bytes else l)) }) s

/-! ### Reading -/

def bytesPerSlot : Nat := 320

/-- The slot of a block; none when it is unmapped (R294, R302). -/
def State.slotOfBlock (s : State) (bankNo blk : Nat) : Option Nat :=
  lookupD (some blk) s.dev.wt.remap (2 ^ 21 * bankNo + blk)

def slotKey (bankNo slot : Nat) : Nat := mkey .wgt bankNo (bytesPerSlot * slot)

def State.slotBad (s : State) (bankNo slot : Nat) : Bool := s.dev.wt.bad.contains (2 ^ 21 * bankNo + slot)

/-- A byte of a die's weight tier with the mark that a failing MAC gives it (R296, R434). -/
def State.wgtByte (s : State) (die addr : Nat) : Byte × Bool :=
  let bankNo := 96 * die + addr / 2 ^ 29
  let off := addr % 2 ^ 29
  match s.slotOfBlock bankNo (off / 256) with
  | none => (0, false)
  | some sl => (s.byte (slotKey bankNo sl + off % 256), s.slotBad bankNo sl)

/-- A byte as a read of core n takes it, with its mark. -/
def State.readByte (s : State) (n pol k : Nat) : Byte × Bool :=
  if keySpace k = MSpace.wgt.code then s.wgtByte (keyUnit k) (keyOff k)
  else
    match s.copyFor n pol k with
    | some l => l.byteAt k
    | none => (s.byte k, KeySet.has s.marks (granule k) || s.soiled (granule k))

/-- The tag that stands with the 32 bytes at a key (R166, R169). -/
def State.readTag (s : State) (n pol k : Nat) : Bool :=
  k % 32 == 0 &&
    (match s.copyFor n pol k with
     | some l => bit l.tags ((k - l.key) / 32)
     | none => s.tagAt k)

/-- The releases that the write of a byte carries, as a read of core n takes it (R266). -/
def State.relsRead (s : State) (n pol k : Nat) : List Rel :=
  match s.copyFor n pol k with
  | some l => l.relsAt k
  | none => lookupD [] s.dev.ms.rels k

/-- A read that no copy serves goes to its home, whose reply must be in step with the reader's die (R271). -/
def State.homeReady (s : State) (n pol k : Nat) : Bool :=
  keySpace k != 0 || (s.copyFor n pol k).isSome || s.inStep (dieOf n) (homeDie (keyOff k))

/-! ### The order of a task's accesses (R175, R179, R265, R266, R272) -/

/-- Bytes that an access names, as pieces (key, length). -/
def State.pieces (s : State) (n : Nat) (a : Access) : List (Nat × Nat) :=
  match a.kind with
  | .store bytes => bytes.map (fun b => (s.place n a.cap b.1, 1))
  | .csth _ _ | .cldh _ => [(s.place n a.cap a.addr, 32)]
  | .lda _ | .amo _ _ _ _ => [(s.place n a.cap a.addr, 8)]
  | .vamo _ _ act offs _ next _ =>
    (List.range 32).filterMap (fun j =>
      if next ≤ j && act.getLsbD j then some (s.place n a.cap (capBase a.cap + offs.getD j 0), 4) else none)
  | .cflush len _ => [(s.place n a.cap a.addr, len)]

def meet (a b : List (Nat × Nat)) : Bool :=
  a.any (fun (k, l) => b.any (fun (k', l') => decide (k < k' + l') && decide (k' < k + l)))

/-- A piece of the weight tier stands for its blocks (R297). -/
def widen (p : Nat × Nat) : Nat × Nat :=
  if keySpace p.1 = MSpace.wgt.code then (lineKey p.1, lineKey (p.1 + p.2 - 1) + 256 - lineKey p.1) else p

def Access.isStore (a : Access) : Bool :=
  match a.kind with
  | .store _ | .csth _ _ | .cflush _ _ => true
  | _ => false

def Access.isFlush (a : Access) : Bool :=
  match a.kind with
  | .cflush _ _ => true
  | _ => false

/-- Every landing entry and weight fill of the core, banked ones too. -/
def Core.landings (c : Core) : List Landing :=
  c.t.landing ++ (match c.bank with | some b => b.t.landing | none => [])
def Core.fills (c : Core) : List Fill :=
  c.t.fills ++ (match c.bank with | some b => b.t.fills | none => [])

/-- Pieces that a landing entry has not taken yet. -/
def State.landingPieces (s : State) (n : Nat) (l : Landing) : List (Nat × Nat) :=
  l.left.map (fun i => let e := l.srcs.getD i (0, 0, 0); widen (s.place n l.cap e.2.1, e.2.2))

/-- Blocks that a fill has not deposited yet. -/
def Fill.pieces (die : Nat) (f : Fill) : List (Nat × Nat) :=
  ((List.range 32).filter (fun i => !f.done.contains i)).map (fun i => (mkey .wgt die (f.addr + 256 * i), 256))

/-- R265, R269: HOST and PEER stores of other cores of the cluster, which the task may have read in the slice, have reached their
homes. -/
def State.farSettled (s : State) (n : Nat) : Bool :=
  s.cores.all (fun (m, c) => m == n || clusterOf m != clusterOf n ||
    c.m.accs.all (fun a => !a.isStore || capSpace a.cap < 4 || a.done.isEmpty))

/-- The access has done what a release or fence at a scope after it waits for: a store is on its way or performed (R271); a
HOST or PEER store that the slice holds is performed only for its cluster, and at a wider scope its home has acknowledged it
(R272). -/
def Access.behind (a : Access) (sc : Scope) : Bool :=
  a.isStore && a.performed && (capSpace a.cap < 4 || sc == .cluster)

/-- Every access of core n's task before place `id` of its program order has done what a release at a scope waits for, and so has
what it may have read in its slice (R265, R269). -/
def State.settledBefore (s : State) (n id : Nat) (sc : Scope) : Bool :=
  let c := s.core n
  sc == .core ||
    (c.m.accs.all (fun a => decide (id ≤ a.id) || a.behind sc) && c.landings.all (fun l => decide (id ≤ l.id) || l.sampled) &&
      c.fills.all (fun f => decide (id ≤ f.id) || decide (32 ≤ f.done.length)) && (sc == .cluster || s.farSettled n))

/-- A new owner entry waits to take effect there: accesses are held (R347). -/
def State.ownerOwed (s : State) (key : Nat) : Bool :=
  match ownerKey key with
  | some k => s.dev.prot.owed.any (·.1 == k)
  | none => false

/-- An access at place `id` may be performed: `rd` names its pieces, `wr` whether it writes. A release at core scope has no
observer but its own core, whose accesses program order keeps (R264, R265). -/
def State.ready (s : State) (n id : Nat) (pcs : List (Nat × Nat)) (wr : Bool) (rel : Option Scope) : Bool :=
  let c := s.core n
  let pcs := pcs.map widen
  let older := c.m.accs.filter (fun a => decide (a.id < id))
  let lds := c.landings.filter (fun l => decide (l.id < id) && !l.sampled)
  let fls := c.fills.filter (fun f => decide (f.id < id) && decide (f.done.length < 32))
  -- no owner entry is changing
  pcs.all (fun p => !s.ownerOwed p.1 && !s.ownerOwed (p.1 + p.2 - 1)) &&
  -- the same bytes
  older.all (fun a => !meet (s.pieces n a) pcs || (a.isStore && (!wr || a.performed))) &&
  lds.all (fun l => !meet (s.landingPieces n l) pcs) && fls.all (fun f => !meet (f.pieces (dieOf n)) pcs) &&
  -- acquires before it
  older.all (fun a => a.acq.isNone) && lds.all (fun l => l.rank.isNone) &&
  -- its own release
  (match rel with
   | some sc => s.settledBefore n id sc
   | none => true) &&
  -- fences before it
  c.m.fences.all (fun f => decide (id ≤ f.id) ||
    ((!ordAcquires f.ord || (older.all (fun a => decide (f.id ≤ a.id) || a.isStore) && lds.all (fun l => decide (f.id ≤ l.id)) &&
        fls.all (fun l => decide (f.id ≤ l.id)))) &&
      (!(ordReleases f.ord && wr) || s.settledBefore n f.id f.scope)))

/-- A core may still be granted a rank below `r`: a position that it owns, after its last sample and no further back than any window
reaches under any throttle (R290). -/
def State.scOpen (s : State) (r : Nat) : Bool :=
  s.cores.any (fun (_, c) => c.task.isSome && ((List.range 16).map (fun d => s.wheel - d)).any (fun w =>
    decide (c.m.sample < w) && decide (w < r) && wheelOwns c.c.wheel (w % 1024)))

/-- R274: every SC operation of lower rank in the package has finished, one that waits to issue with a position it holds among them, none
can be granted a lower rank any more, and what they made known has arrived. -/
def State.scReady (s : State) (n : Nat) (rank : Option Nat) : Bool :=
  match rank with
  | none => true
  | some r =>
    s.cores.all (fun (_, c) => c.m.scHeld.all (fun q => decide (r ≤ q)) && c.m.accs.all (fun a => a.rank.all (fun q => decide (r ≤ q))) &&
      c.landings.all (fun l => l.sampled || l.rank.all (fun q => decide (r ≤ q)))) &&
      !s.scOpen r && s.covers (s.clock (dieOf n)) s.dev.ms.scClock

/-- An SC operation has finished: what its die and the homes of its bytes have made known precedes those of higher rank,
the homes' notices included. -/
def State.scDone (s : State) (n : Nat) (rank : Option Nat) (keys : List Nat) : State :=
  let homes := dieOf n :: keys.map (fun k => homeDie (keyOff k))
  if rank.isSome then
    s.setMs { s.dev.ms with scClock := homes.dedup.foldl (fun c h => Clock.join c (s.clock h)) s.dev.ms.scClock }
  else s

/-- A message carries a store of core n, or its atomic. -/
def Msg.of (m : Msg) (n id : Nat) : Bool :=
  match m.body with
  | .write c (some a) _ _ _ _ _ _ => c == n && a == id
  | .atomic c a _ => c == n && a == id
  | _ => false

/-- A part of a store's message that names a byte is still on its way. -/
def Msg.brings (m : Msg) (n id k : Nat) : Bool :=
  m.of n id && (match m.body with
    | .write _ _ _ _ bytes _ _ _ => bytes.any (·.1 == k)
    | _ => false)

/-- Units of a store that are still to be sent or performed. -/
def Access.left (a : Access) : List Nat :=
  match a.kind with
  | .store bytes => ((bytes.map (fun b => a.unitOf b.1)).dedup).filter (fun i => !a.done.contains i)
  | .csth _ _ => if a.done.isEmpty then [0] else []
  | _ => []

/-- The task's own stored byte that an earlier outstanding store will write, for a load at place `id` (R175). -/
def State.forward (s : State) (n id k : Nat) : Option Byte :=
  let due (a : Access) (i : Nat) : Bool := !a.done.contains i || s.dev.ms.msgs.any (·.brings n a.id k)
  ((s.core n).m.accs.filter (fun a => decide (a.id < id))).foldl (fun acc a =>
    match a.kind with
    | .store bytes => bytes.foldl (fun acc b =>
        if s.place n a.cap b.1 = k && due a (a.unitOf b.1) then some b.2 else acc) acc
    | .csth v _ =>
      let k0 := s.place n a.cap a.addr
      if k0 ≤ k && k < k0 + 32 && due a 0 then some (fld v (8 * (k - k0)) 8) else acc
    | _ => acc) none

/-- Fences that order nothing any more are forgotten. -/
def Core.dropFences (c : Core) : Core :=
  let low := (c.m.accs.map (·.id) ++ (c.landings.filter (!·.sampled)).map (·.id) ++
    (c.fills.filter (fun f => decide (f.done.length < 32))).map (·.id)).foldl min c.m.nextId
  { c with m := { c.m with fences := c.m.fences.filter (fun f => f.far || decide (low < f.id)) } }

/-- A fence's earlier loads and atomics have their data. -/
def Core.loaded (c : Core) (f : FenceMark) : Bool :=
  c.m.accs.all (fun a => decide (f.id ≤ a.id) || a.isStore) && c.landings.all (fun l => decide (f.id ≤ l.id) || l.sampled) &&
    c.fills.all (fun l => decide (f.id ≤ l.id) || decide (32 ≤ l.done.length))

/-- R254, R272: a fence that acquires at domain scope has ordered its earlier loads, and HOST and PEER copies go before any
later one. -/
def State.settleFences (s : State) (n : Nat) : State :=
  let c := s.core n
  let due (f : FenceMark) : Bool := f.far && c.loaded f
  if c.m.fences.any due then
    let s := s.discardFar n
    let c := s.core n
    s.setCore n (Core.dropFences { c with m := { c.m with
      fences := c.m.fences.map (fun f => if due f then { f with far := false } else f) } })
  else s.setCore n c.dropFences

/-- The access has completed: CNT.ST falls where it counted (R57). -/
def Core.retire (c : Core) (a : Access) : Core :=
  let c := { c with m := { c.m with accs := c.m.accs.filter (fun b => b.id != a.id) } }
  (if a.counted then c.subSt else c).dropFences

/-- Whether any byte of [key, key + len) may not be accessed: how it is refused. The verdict is one for each page, block or
stream, so the ends speak for the whole. -/
def State.verdicts (s : State) (n : Nat) (cap : Cap) (k len : Nat) : Verdict :=
  let v := s.verdict (s.ctxOf n) cap k
  if v = Verdict.ok then s.verdict (s.ctxOf n) cap (k + len - 1) else v

/-- Bytes as a read of core n at place `id` takes them: own stores first, marks of the granules; a refused byte is a free
value with marks (R346, log 4). -/
def State.readPieces (s : State) (n id : Nat) (cap : Cap) (pcs : List (Nat × Nat)) : List (List (Byte × Bool)) :=
  let junk := Config.freeWord s.free
  pcs.map (fun (addr, len) =>
    let k0 := s.place n cap addr
    (List.range len).map (fun i =>
      if s.verdict (s.ctxOf n) cap (k0 + i) = .ok then
        match s.forward n id (k0 + i) with
        | some b => (b, false)
        | none => s.readByte n (capPolicy cap) (k0 + i)
      else (fld junk (8 * (i % 128)) 8, true)))

/-- The releases that the bytes read carry: an own store's are in scope of themselves, a refused byte has none. -/
def State.pieceRels (s : State) (n id : Nat) (cap : Cap) (keys : List Nat) : List Rel :=
  (keys.flatMap (fun k =>
    if s.verdict (s.ctxOf n) cap k = .ok ∧ (s.forward n id k).isNone then s.relsRead n (capPolicy cap) k else [])).dedup

/-- Keys of the pieces' bytes, and the fills that reading them makes. -/
def State.pieceKeys (s : State) (n : Nat) (cap : Cap) (pcs : List (Nat × Nat)) : List Nat :=
  pcs.flatMap (fun (a, len) => (List.range len).map (fun i => s.place n cap (a + i)))

def State.fillPieces (s : State) (n : Nat) (cap : Cap) (pcs : List (Nat × Nat)) : State :=
  (linesOf (s.pieceKeys n cap pcs)).foldl (fun s k =>
    if s.verdict (s.ctxOf n) cap k = .ok then s.fill n (capPolicy cap) k else s) s

/-- The refusals that a read meets are counted (R423). -/
def State.countReads (s : State) (n : Nat) (cap : Cap) (pcs : List (Nat × Nat)) : State :=
  pcs.foldl (fun s (a, len) => s.countDenial n (s.miscOf n) (s.verdicts n cap (s.place n cap a) len) (s.place n cap a) true) s

/-- A read to a lost die raises 0xE6 too (R451), once for a load. -/
def State.lostRead (s : State) (n : Nat) (cap : Cap) (sl : Slot) (pcs : List (Nat × Nat)) : State × Bool :=
  match pcs.find? (fun (a, len) => s.verdicts n cap (s.place n cap a) len == .lost) with
  | some (a, _) => (s.setCore n ((s.core n).defer (deferred 0xE6 (Verdict.tval .lost (s.place n cap a)) sl)), true)
  | none => (s, false)

/-! ### Loads that land (R53, R263, R428, R462) -/

/-- Put bytes at places of a register value. -/
def layBytes (parts : List (Nat × List (Byte × Bool))) : Nat × List Nat :=
  parts.foldl (fun (v, ms) (off, bs) =>
    (bs.zipIdx).foldl (fun (v, ms) (b, i) => (v + b.1.toNat * 2 ^ (8 * (off + i)), if b.2 then ((off + i) / 8) :: ms else ms))
      (v, ms)) (0, [])

/-- A failing block is counted in the bank of its quadrant at each read, with whether the reader takes marks (R434,
R440). -/
def State.countMac (s : State) (n die addr : Nat) (marks : Bool) : State :=
  let b := addr / 2 ^ 29
  s.mcRecord die (20 + b / 24) { mcContained 0xA1 (b % 24) (s.loc n) 4 addr (some (s.miscOf n)) with pmark := marks }

/-- The failing blocks among the pieces of a weight-tier read are counted. -/
def State.countMacs (s : State) (n : Nat) (cap : Cap) (pcs : List (Nat × Nat)) : State :=
  if capSpace cap ≠ spWgt then s
  else
    let blks := (pcs.flatMap (fun p => [p.1 / 256 * 256, (p.1 + p.2 - 1) / 256 * 256])).dedup
    blks.foldl (fun s a =>
      let bad := match s.slotOfBlock (96 * dieOf n + a / 2 ^ 29) (a % 2 ^ 29 / 256) with
        | some sl => s.slotBad (96 * dieOf n + a / 2 ^ 29) sl
        | none => false
      if bad && s.verdict (s.ctxOf n) cap (s.place n cap a) == .ok then s.countMac n (dieOf n) a true else s) s

/-- Releases that a relaxed load at place `id` reads: kept for the fences that follow it, and checked for those that have
issued (R266). -/
def State.readRels (s : State) (n id : Nat) (rels : List Rel) : State × Bool :=
  let c := s.core n
  (s.setCore n { c with m := { c.m with seen := (c.m.seen ++ rels).dedup } },
    c.m.fences.any (fun f => decide (id < f.id) && ordAcquires f.ord && narrows n f.scope rels))

/-- The entry takes the data of some of its units: the moment of R175. A failed verdict marks every doubleword that it concerns,
all of them or `only` one, and installs no line (R428, R436). -/
def State.sampleUnits (s : State) (n : Nat) (l : Landing) (units : List Nat) (verdict : Bool) (only : Option Nat) : State × Landing :=
  let srcs := units.map (fun i => l.srcs.getD i (0, 0, 0))
  let pcs := srcs.map (fun (_, a, len) => (a, len))
  let s := if verdict then s.fillPieces n l.cap pcs else s
  let got := s.readPieces n l.id l.cap pcs
  let (v, ms) := layBytes ((srcs.map (·.1)).zip got)
  let touched := (srcs.flatMap (fun (o, _, len) => (List.range len).map (fun i => (o + i) / 8))).dedup
  let marks : BitVec 16 := (if verdict then ms else ms ++ touched.filter (fun d => only.all (· == d))).foldl (fun m d => setBit m d true) l.marks
  let rels := s.pieceRels n l.id l.cap (s.pieceKeys n l.cap pcs)
  let left := l.left.filter (fun i => !units.contains i)
  let (s, nar) := s.readRels n l.id rels
  let s := (s.countMacs n l.cap pcs).countReads n l.cap pcs
  let (s, lost) := if l.refused then (s, true) else s.lostRead n l.cap l.slot pcs
  let s := if left.isEmpty then s.scDone n l.rank (s.pieceKeys n l.cap pcs) else s
  let s := { s with free := s.free + 1 }
  (s, { l with
    data := l.data ||| BitVec.ofNat 1024 v, marks := marks, left := left, sampled := left.isEmpty, arrived := left.isEmpty
    refused := lost, narrow := l.narrow || nar || (l.rank.isSome && narrows n .package rels) })

/-- Every unit at once. -/
def State.sampleLanding (s : State) (n : Nat) (l : Landing) (verdict : Bool) : State × Landing :=
  s.sampleUnits n l l.left verdict none

/-- The unit that moves next, where R263 makes several independent: a free choice (log 4). -/
def State.pick (s : State) (units : List Nat) : Nat :=
  match units with
  | [i] => i
  | _ => units.getD ((Config.freeWord s.free).toNat % units.length) 0

def State.landingReady (s : State) (n : Nat) (l : Landing) : Bool :=
  let e := l.srcs.getD (s.pick l.left) (0, 0, 0)
  let k := s.place n l.cap e.2.1
  !l.arrived && s.ready n l.id [(k, e.2.2)] false (if l.rank.isSome then some .package else none) && s.scReady n l.rank &&
    s.homeReady n (capPolicy l.cap) k && s.homeReady n (capPolicy l.cap) (k + e.2.2 - 1)

def Core.setLanding (c : Core) (l : Landing) : Core :=
  let put (t : Timing) : Timing := { t with landing := t.landing.map (fun m => if m.id = l.id then l else m) }
  { c with t := put c.t, bank := c.bank.map (fun b => { b with t := put b.t }) }

/-! ### CLDH and LDA outside SPAD (R169, R179) -/

def State.readReady (s : State) (n : Nat) (a : Access) : Bool :=
  let pcs := s.pieces n a
  s.ready n a.id pcs false a.rel && s.scReady n a.rank &&
    pcs.all (fun (k, len) => s.homeReady n (capPolicy a.cap) k && s.homeReady n (capPolicy a.cap) (k + len - 1)) &&
    (match a.kind with
     -- a granule and its tag are read as one: the task's own stores to it come first (R166)
     | .cldh _ => (s.core n).m.accs.all (fun b => decide (a.id ≤ b.id) || !meet (s.pieces n b) pcs)
     | _ => true)

/-- Answer a CLDH or LDA. -/
def State.answerRead (s : State) (n : Nat) (a : Access) (verdict : Bool) : State :=
  let z := match a.kind with
    | .cldh _ => 32
    | _ => 8
  let pcs := [(a.addr, z)]
  let k := s.place n a.cap a.addr
  let s := if verdict then s.fillPieces n a.cap pcs else s
  let (v, ms) := layBytes (([0] : List Nat).zip (s.readPieces n a.id a.cap pcs))
  let clean := ms.isEmpty && verdict
  let rels := s.pieceRels n a.id a.cap (s.pieceKeys n a.cap pcs)
  let s := match a.kind with
    | .cldh ha =>
      let tag := s.verdicts n a.cap k 32 == Verdict.ok && s.readTag n (capPolicy a.cap) k
      let (s, nar) := s.readRels n a.id rels
      let c := (((s.core n).retire a).wh ha (BitVec.ofNat 256 v) tag).setNarrow nar
      s.setCore n (if clean then c else c.markH ha)
    | .lda xd =>
      let c := ((s.core n).retire a).wx xd (BitVec.ofNat 64 v)
      let s := s.setCore n (if clean then c else c.markX xd)
      match a.acq with
      | some sc => s.acquire n sc rels
      | none => s
    | _ => s
  let s := ((s.countReads n a.cap pcs).lostRead n a.cap a.slot pcs).1
  { s with free := s.free + 1 }

/-- Data may arrive for a landing entry, an LDA or a CLDH: R175, R179 and R271 do not hold it back. -/
def State.dataReady (s : State) (n id : Nat) : Bool :=
  match (s.core n).landings.find? (·.id == id), (s.core n).findAcc id with
  | some l, _ => s.landingReady n l
  | none, some a => !a.isStore && s.readReady n a
  | none, none => false

def State.takeData (s : State) (n id : Nat) (verdict : Bool) (only : Option Nat := none) : State :=
  match (s.core n).landings.find? (·.id == id), (s.core n).findAcc id with
  | some l, _ =>
    let (s, l) := s.sampleUnits n l [s.pick l.left] verdict only
    (s.setCore n ((s.core n).setLanding l)).settleFences n
  | none, some a => (s.answerRead n a verdict).settleFences n
  | none, none => s

/-- Keys of the bytes that the next transfer of a read of core n brings. -/
def State.transferKeys (s : State) (n id : Nat) : List Nat :=
  match (s.core n).landings.find? (·.id == id), (s.core n).findAcc id with
  | some l, _ =>
    let e := l.srcs.getD (s.pick l.left) (0, 0, 0)
    s.pieceKeys n l.cap [(e.2.1, e.2.2)]
  | none, some a => (s.pieces n a).map (·.1)
  | none, none => []

/-- The next transfer of one of these lines meets a decode error (R436). -/
def State.miscoded (s : State) (keys : List Nat) : Bool :=
  s.dev.ms.broken.any (fun e => e.2 == .decode && (keys.map lineKey).contains (lineKey (32 * e.1)))

/-- The transfer has met it: a later one decodes afresh. -/
def State.recoded (s : State) (keys : List Nat) : State :=
  s.setMs { s.dev.ms with broken := s.dev.ms.broken.filter (fun e =>
    !(e.2 == .decode && (keys.map lineKey).contains (lineKey (32 * e.1)))) }

/-- The UCIe module of a die by which a transfer from another die comes in (R21). -/
def State.moduleTo (s : State) (d h : Nat) : Nat :=
  let hop := if adjacent d h then h else (s.via d h).getD h
  ((neighbours d).find? (·.1 == hop)).elim 0 (·.2)

/-- A transfer to core n that failed its check is counted in the bank of what decodes it (R423, R436): the slice of its cluster, and
for a GLOB line of another die the UCIe module by which it comes in (log 21). -/
def State.recordTransfer (s : State) (n : Nat) (keys : List Nat) (cause : BitVec 8) (misc : BitVec 64) (marks : Bool) : State :=
  let k := lineKey (keys.headD 0)
  let kind : BitVec 4 := if keySpace k = MSpace.glob.code then 1 else if keySpace k = MSpace.clus.code then 3 else 0
  let h := homeDie (keyOff k)
  let (b, unit) := if kind = 1 ∧ h ≠ dieOf n then (24 + s.moduleTo (dieOf n) h / 2, s.moduleTo (dieOf n) h % 2) else (clusterOf n % 12, 9)
  s.mcRecord (dieOf n) b
    { mcContained cause unit (s.loc n) kind (if kind = 0 then 0 else keyOff k) (some misc) with pmark := marks }

/-- R53, R169, R179, R263: data and verdict arrive for a landing entry's next unit, an LDA or a CLDH at its place in program
order; without effect while R175, R179 or R271 holds it back. A failed verdict is a decode error of the transfer (R436). -/
def execLandingDataArrival (n id : Nat) (verdict : Bool) (s : State) : Outcome State Fault Refusal :=
  if !s.dataReady n id then .next s
  else
    let keys := s.transferKeys n id
    if verdict && !s.miscoded keys then .next (s.takeData n id true)
    else .next (((s.recoded keys).takeData n id false).recordTransfer n keys 0xA3 (s.miscOf n) true)

/-! ### Stores (R174, R253, R263, R265, R423) -/

/-- The release that an access's write carries (R265). -/
def Access.relInfo (a : Access) (n : Nat) : Option Rel := a.carries.map (fun sc => { scope := sc, pkg := none, core := n })

/-- Keys and bytes of one unit of a store, or of a CSTH. -/
def State.storeBytes (s : State) (n : Nat) (a : Access) (unit : Nat) : List (Nat × Byte) :=
  match a.kind with
  | .store bytes => (bytes.filter (fun b => a.unitOf b.1 == unit)).map (fun b => (s.place n a.cap b.1, b.2))
  | .csth v _ =>
    let k0 := s.place n a.cap a.addr
    (List.range 32).map (fun i => (k0 + i, fld v (8 * i) 8))
  | _ => []

/-- The granule whose tag a CSTH sets, with its bytes at a key (R169). DESIGN CHOICE (log 85): through a capability whose
BASE is not a multiple of 32 the bytes lie in two granules; no tag is set there, and CLDH reads none. -/
def Access.tagWrite (a : Access) (key : Nat) : List Nat :=
  match a.kind with
  | .csth _ true => if key % 32 = 0 then [granule key] else []
  | _ => []

/-- One unit of a store, by place: performed at its home or in the slice, sent to a home on another die, or refused. -/
def State.performStore (s : State) (n : Nat) (a : Access) (unit : Nat) : State :=
  let bytes := s.storeBytes n a unit
  let ok (b : Nat × Byte) : Bool := s.verdict (s.ctxOf n) a.cap b.1 == .ok
  let good := bytes.filter ok
  let rel := a.relInfo n
  let tags := a.tagWrite ((good.map (·.1)).headD 0)
  let ctx := s.ctxOf n
  let s := match bytes.find? (fun b => !ok b) with
    | some b => s.refuseStore n a (s.verdict ctx a.cap b.1) b.1
    | none => s
  let put (clus : Nat → Bool) (bs : List (Nat × Byte)) (s : State) : State :=
    let s := s.storeRels (bs.map (·.1)) rel
    (if rel.isSome then s.tellRels clus (bs.map (·.1)) else s).soilL1 n (if capPolicy a.cap = 0 then linesOf (bs.map (·.1)) else [])
  if capSpace a.cap = spGlob then
    ((good.map (fun b => homeDie (keyOff b.1))).dedup).foldl (fun s h =>
      let mine := good.filter (fun b => homeDie (keyOff b.1) == h)
      if h = dieOf n then put (· / 12 == h) mine (s.performGlob h (clusterOf n) mine tags [])
      else s.sendWrite (dieOf n) h (linesOf (mine.map (·.1))) (.write n (some a.id) none ctx mine tags [] rel)) s
  else if capSpace a.cap = spClus then
    ((s.writeBytes good).storeRels (good.map (·.1)) rel).addTags (tags.filter (coveredGranules (good.map (·.1))).contains)
  else if capPolicy a.cap ≠ 3 ∧ rel.isNone ∧ s.cacheWays (clusterOf n) ≠ 0 then
    (s.performSlice n (capPolicy a.cap) (capKey a.cap) good).soilL1 n (if capPolicy a.cap = 0 then linesOf (good.map (·.1)) else [])
  else
    let s := (s.performFar (clusterOf n) good).storeRels (good.map (·.1)) rel
    if rel.isSome then s.tellRels (· == clusterOf n) (good.map (·.1)) else s

/-- Slices whose lines a CFLUSH writes back: those up to the level that SCOPE names (R180). At core scope there are none, and the
core's own L1 is written back to its slice. -/
def flushes180 (n : Nat) (sc : Scope) (clu : Nat) : Bool :=
  match sc with
  | .core => false
  | .cluster => clu == clusterOf n
  | .die => clu / 12 == dieOf n
  | .package | .domain => true

/-- The lines of a CFLUSH range are written back and stay valid (R180). -/
def State.flushLines (s : State) (n : Nat) (a : Access) (len : Nat) (sc : Scope) : State :=
  let lo := s.place n a.cap a.addr
  let inRange (l : CLine) : Bool := decide (l.key < lo + len) && decide (lo < l.key + 256)
  (s.cleanL1 (fun m l => m == n && inRange l)).clean (fun c l => flushes180 n sc c && inRange l)

/-- A slice of the access's cluster still holds bytes that this store's home has not acknowledged (R253). -/
def State.unwritten (s : State) (n : Nat) (a : Access) : Bool :=
  let lks := linesOf ((s.pieces n a).map (·.1))
  4 ≤ capSpace a.cap && s.dev.ms.lines.any (fun e => e.1 == clusterOf n && lks.contains e.2.key && e.2.mask != 0)

/-- A write that carries a release waits for what its task may have read in its slice, a fence's release too (R265, R269). -/
def State.carriesReady (s : State) (n : Nat) (a : Access) : Bool :=
  a.carries.all (fun sc => sc == .core || sc == .cluster || s.farSettled n)

/-- A store or flush that may move: a flush once the stores to its range are acknowledged, a store in its order, and an
acknowledgement once every part has been performed. -/
def State.storeReady (s : State) (n : Nat) (a : Access) : Bool :=
  a.isStore &&
    (if a.performed then !s.dev.ms.msgs.any (·.of n a.id)
     else s.ready n a.id (s.pieces n a) true a.rel && s.carriesReady n a && s.scReady n a.rank &&
      (!a.isFlush || (s.core n).m.accs.all (fun b => decide (a.id ≤ b.id) || !meet (s.pieces n b) (s.pieces n a))))

/-- The last acknowledgement: what the slice holds of the store is written back, and CNT.ST falls (R174, R253). -/
def State.storeDone (s : State) (n : Nat) (a : Access) : State :=
  let keys := (s.pieces n a).map (·.1)
  let lks := linesOf keys
  let s := if s.unwritten n a then s.clean (fun c l => c == clusterOf n && lks.contains l.key) else s
  let s := s.scDone n a.rank keys
  (s.setCore n ((s.core n).retire a)).settleFences n

/-- The next unit of a store is performed or sent. -/
def State.storeStep (s : State) (n : Nat) (a : Access) : State :=
  let unit := s.pick a.left
  let s := { s.performStore n a unit with free := s.free + 1 }
  let a := ((s.core n).findAcc a.id).getD a
  let a := { a with done := a.done ++ [unit] }
  let a := { a with performed := a.left.isEmpty }
  let s := s.setCore n ((s.core n).setAcc a)
  if a.performed && !s.dev.ms.msgs.any (·.of n a.id) && !s.unwritten n a then s.storeDone n a else s.settleFences n

/-- R174, R253, R263: a store's next unit is performed at its home or in the slice, or sent; once every part is performed it
is acknowledged and CNT.ST falls. -/
def execStoreAck (n id : Nat) (s : State) : Outcome State Fault Refusal :=
  match (s.core n).findAcc id with
  | none => .next s
  | some a =>
    if !s.storeReady n a then .next s
    else if a.performed then .next (s.storeDone n a)
    else
      match a.kind with
      | .cflush len sc => .next ((s.flushLines n a len sc).storeDone n a)
      | _ => .next (s.storeStep n a)

/-! ### A core's own scratchpad (R345, R346) -/

/-- The owner entry of core n admits its own context. -/
def State.spadOk (s : State) (n : Nat) : Bool := (s.owner (ownerCore n)).admits (s.ctxOf n)

/-- A store of the acting core into its scratchpad, carried out by `f`; a denied one is dropped. -/
def State.spadStore (s : State) (key : Nat) (f : State → State) : State :=
  let n := s.iss.core
  if s.spadOk n then f s
  else
    let s := s.countDenial n (s.miscOf n) .denied key false
    s.setCore n ((s.core n).defer (deferred 0x28 (Verdict.tval .denied key) s.iss.slot))

/-! ### Atomics at their home (R178, R183, R184, R273, R430, R431) -/

def sminD (a b : DWord) : DWord := if a.slt b then a else b
def smaxD (a b : DWord) : DWord := if a.slt b then b else a

/-- New value of a scalar atomic (R178). -/
def amoNew (op : AmoOp) (old src cmp : DWord) : DWord :=
  match op with
  | .add => old + src
  | .swap => src
  | .min => sminD old src
  | .max => smaxD old src
  | .minu => if old < src then old else src
  | .maxu => if old < src then src else old
  | .and => old &&& src
  | .or => old ||| src
  | .xor => old ^^^ src
  | .cas => if old = cmp then src else old

/-- New value of an element atomic (R183, R184). -/
def vamoNew (op : VamoOp) (rm : Rm) (old d : Nat) : Nat :=
  match op with
  | .add => (old + d) % 2 ^ 32
  | .min => if sext old 32 < sext d 32 then old else d
  | .max => if sext old 32 < sext d 32 then d else old
  | .redst => (fp32.addR rm (fp32.decode old) (fp32.decode d)).1

/-- Bytes of a value at a key. -/
def keyBytes (k n v : Nat) : List (Nat × Byte) := ((leBytes n v).zipIdx).map (fun (b, i) => (k + i, b))

/-- The write half of an atomic at the home of its key, and the release it continues or carries (R267). -/
def State.performAtomic (s : State) (clu k n v : Nat) (rel : Option Rel) : State :=
  let bytes := keyBytes k n v
  let s := if keySpace k = MSpace.glob.code then s.performGlob (homeDie (keyOff k)) clu bytes [] []
    else if keySpace k = MSpace.peer.code then s.performFar clu bytes
    else s.writeBytes bytes
  (s.atomicRels (bytes.map (·.1)) rel).tellRels
    (fun c => if keySpace k = MSpace.glob.code then c / 12 == homeDie (keyOff k) else c == clu) (bytes.map (·.1))

/-- Apply a scalar atomic at its place: the old value, or none where its granule is poisoned (R430). -/
def State.applyAmo (s : State) (n : Nat) (a : Access) (op : AmoOp) (src cmp : DWord) : State × Option DWord :=
  let k := s.place n a.cap a.addr
  if s.marked k 8 then (s, none)
  else
    let old := BitVec.ofNat 64 (s.nat k 8)
    let new := amoNew op old src cmp
    (if op = .cas ∧ old ≠ cmp then s else s.performAtomic (clusterOf n) k 8 new.toNat (a.relInfo n), some old)

/-- Element `j` of a vector atomic at its place. -/
def State.applyVamo (s : State) (n : Nat) (a : Access) (op : VamoOp) (rm : Rm) (off data : Nat) : State × Option DWord :=
  let k := s.place n a.cap (capBase a.cap + off)
  if s.marked k 4 then (s, none)
  else
    let old := s.nat k 4
    (s.performAtomic (clusterOf n) k 4 (vamoNew op rm old data) (a.relInfo n), some (BitVec.ofNat 64 old))

/-- The next active element at or after `next`. -/
def nextActive (act : BitVec 32) (next : Nat) : Option Nat :=
  ((List.range 32).filter (fun j => decide (next ≤ j) && act.getLsbD j)).head?

/-- Key and size of what an atomic works on next; none when it has no element left. -/
def State.atomicSpot (s : State) (n : Nat) (a : Access) : Option (Nat × Nat) :=
  match a.kind with
  | .amo _ _ _ _ => some (s.place n a.cap a.addr, 8)
  | .vamo _ _ act offs _ next _ =>
    (nextActive act next).map (fun j => (s.place n a.cap (capBase a.cap + offs.getD j 0), 4))
  | _ => none

/-- The state that an atomic on some bytes works on: what slices owe the bytes' home has been written back. Its own cluster's copies of
a HOST or PEER line go, so that no later read takes an older value than the atomic's (R261). -/
def State.settled (s : State) (clu : Nat) (keys : List Nat) : State :=
  if keys.any farKey then s.dropLines (· == clu) (linesOf keys) else s.clean (fun _ l => (linesOf keys).contains l.key)

/-- Carry out an atomic's next step at its home: the old value and the releases read. -/
def State.applyAtomic (s : State) (n : Nat) (a : Access) (k z : Nat) : State × Option DWord × List Rel :=
  let keys := (List.range z).map (k + ·)
  let s := s.settled (clusterOf n) keys
  let rels := s.relsAt keys
  match a.kind with
  | .amo op _ src cmp =>
    let (s, old) := s.applyAmo n a op src cmp
    (s, old, rels)
  | .vamo op _ act offs d next rm =>
    let j := (nextActive act next).getD 0
    let (s, old) := s.applyVamo n a op rm (offs.getD j 0) (elemOf 32 d.toNat j)
    (s, old, rels)
  | _ => (s, none, rels)

/-- An acquire part of an atomic, at its completion. -/
def State.atomicAcquire (s : State) (n : Nat) (a : Access) (rels : List Rel) : State :=
  match a.acq with
  | some sc => s.acquire n sc rels
  | none => s

/-- The old value returns, or the target was poisoned: R178, R183, R430, R431. `rels` are the releases read; an acquire of a
vector atomic is one of all that its elements have read (R182). -/
def State.atomicDone (s : State) (n : Nat) (a : Access) (old : Option DWord) (rels : List Rel) : State :=
  let c := s.core n
  match a.kind, old with
  | .amo _ xd _ _, some v => (s.setCore n ((c.retire a).wx xd v)).atomicAcquire n a rels
  | .amo _ xd _ _, none =>
    let c := c.retire a
    if xd ≠ 0 then s.setCore n (c.markX xd)
    else s.setCore n (c.defer { deferred 0xA0 (BitVec.ofNat 64 a.off) a.slot with
      zero := [.granule (granule (s.place n a.cap a.addr))] })
  | .vamo op ph act offs d next rm, some v =>
    let j := (nextActive act next).getD 31
    let rels := (a.rels ++ rels).dedup
    let c := if op = .redst then c
      else c.wv ph (BitVec.ofNat 1024 ((2 ^ 32 - 1) * 2 ^ (32 * j))) (BitVec.ofNat 1024 (v.toNat * 2 ^ (32 * j)))
    let a' := { a with kind := .vamo op ph act offs d (j + 1) rm, performed := false, reply := none, rels := rels }
    if (nextActive act (j + 1)).isSome then s.setCore n (c.setAcc a')
    else (s.setCore n (c.retire a)).atomicAcquire n a rels
  | .vamo op ph act offs d next rm, none =>
    let j := (nextActive act next).getD 31
    let a' := { a with kind := .vamo op ph act offs d j rm, performed := false, reply := none }
    let off := offs.getD j 0
    let c := { c with m := { c.m with accs := c.m.accs.filter (·.id != a.id) } }
    s.setCore n (c.defer { deferred 0xA0 (BitVec.ofNat 64 off) a.slot with
      elem := j, replay := some a', zero := [.granule (granule (s.place n a.cap (capBase a.cap + off)))] })
  | _, _ => s

/-- A refused atomic is not applied; its cause is deferred, a vector atomic's with its element (R346, R423, R431). -/
def State.atomicRefused (s : State) (n : Nat) (a : Access) (v : Verdict) (k : Nat) : State :=
  let s := s.countDenial n (s.miscOf n) v k false
  let c := s.core n
  match a.kind with
  | .vamo op ph act offs d next rm =>
    let j := (nextActive act next).getD 31
    let a' := { a with kind := .vamo op ph act offs d j rm, performed := false, reply := none }
    let c := { c with m := { c.m with accs := c.m.accs.filter (·.id != a.id) } }
    let tval := if v = .lost then v.tval k else BitVec.ofNat 64 (offs.getD j 0)
    s.setCore n (c.defer { deferred v.cause tval a.slot with elem := j, replay := some a' })
  | _ => s.setCore n ((c.retire a).defer (deferred v.cause (v.tval k) a.slot))

def Access.isAtomic (a : Access) : Bool :=
  match a.kind with
  | .amo _ _ _ _ | .vamo _ _ _ _ _ _ _ => true
  | _ => false

def State.atomicReady (s : State) (n : Nat) (a : Access) : Bool :=
  a.isAtomic &&
    (match a.reply with
     | some (_, _, vc) => s.covers (s.clock (dieOf n)) vc
     | none => !a.performed && s.ready n a.id (s.pieces n a) true a.rel && s.carriesReady n a && s.scReady n a.rank)

/-- R273: an atomic, or one element of a vector atomic, is applied in its home's write queue and its old value returned;
where the home is another die, the request and the answer travel under R271. -/
def State.atomicStep (s : State) (n : Nat) (a : Access) : State :=
  match s.atomicSpot n a, a.reply with
  | none, _ => (s.setCore n ((s.core n).retire a)).atomicAcquire n a a.rels
  | some (k, _), some (old, rels, _) => (s.atomicDone n a old rels).scDone n a.rank [k]
  | some (k, z), none =>
    let v := s.verdicts n a.cap k z
    if v ≠ .ok then s.atomicRefused n a v k
    else if capSpace a.cap = spGlob ∧ homeDie (keyOff k) ≠ dieOf n then
      let s := s.sendWrite (dieOf n) (homeDie (keyOff k)) (linesOf [k, k + z - 1]) (.atomic n a.id (s.ctxOf n))
      s.setCore n ((s.core n).setAcc { a with performed := true })
    else
      let (s, old, rels) := s.applyAtomic n a k z
      (s.atomicDone n a old rels).scDone n a.rank [k]

def execHomeAtomicExecute (n id : Nat) (s : State) : Outcome State Fault Refusal :=
  match (s.core n).findAcc id with
  | none => .next s
  | some a => if !s.atomicReady n a then .next s else .next ((s.atomicStep n a).settleFences n)

/-! ### Delivery (R271) -/

/-- A job takes a cause that its row or its signal met at a home on another die. -/
def State.jobBad (s : State) (j : Nat) (cause : BitVec 8) (rowsBack : Nat) : State :=
  { s with dev := { s.dev with jobs := s.dev.jobs.map (fun b =>
    if b.id = j ∧ b.bad.isNone then { b with bad := some cause, rows := b.rows - rowsBack } else b) } }

/-- The launch and context of a job, for MISC. -/
def State.jobMisc (s : State) (j : Nat) (ctx : BitVec 16) : BitVec 64 :=
  ((s.dev.jobs.find? (·.id == j)).elim 0 Job.lid) ++ ctx ++ 0#16

/-- A row's element or a job's signal is denied at a home on another die: the denial is counted (R423, R441) and the job ends. -/
def State.jobDenied (s : State) (j : Nat) (ctx : BitVec 16) (key rowsBack : Nat) : State :=
  let core := (s.dev.jobs.find? (·.id == j)).elim 0 Job.core
  (s.countDenial core (s.jobMisc j ctx) .denied key false).jobBad j 0x28 rowsBack

/-- The page of a byte admits a context. -/
def State.pageOk (s : State) (ctx : BitVec 16) (key : Nat) : Bool := (s.owner (ownerPage (keyOff key))).admits ctx

/-- A write arrives at its home: the Wicket's check of each byte, then the bytes, their tags and their marks. -/
def State.arrive (s : State) (dst core : Nat) (acc job : Option Nat) (ctx : BitVec 16) (bytes : List (Nat × Byte))
    (tags marks : List Nat) (rel : Option Rel) : State :=
  let good := bytes.filter (fun b => s.pageOk ctx b.1)
  let s := match bytes.find? (fun b => !s.pageOk ctx b.1) with
    | none => s
    | some b =>
      match acc.bind (s.core core).findAcc, job with
      | some a, _ => s.refuseStore core a .denied b.1
      | none, some j => (s.countDenial core (s.jobMisc j ctx) .denied b.1 false).jobBad j 0x28 1
      | none, none => s
  ((s.performGlob dst 96 good tags marks).storeRels (good.map (·.1)) rel).tellRels (· / 12 == dst) (good.map (·.1))

/-! ### Elements of a REDUCE row (R241, R273) -/

/-- The element type of a card's ET. -/
def etFmt (et : Nat) : Fmt :=
  match et with
  | 0 => .f64 | 1 => .f32 | 2 => .bf16 | 3 => .f16 | 4 => .i64 | _ => .i32

/-- op(element, source element): 0 add, 1 minimum, 2 maximum. No flag is raised. -/
def reduceElem (t : Fmt) (op : Nat) (rm : Rm) (old src : Nat) : Nat :=
  if t.isFloat then
    let f := Fmt.fp t
    if op = 0 then (f.addR rm (f.decode old) (f.decode src)).1 else (f.minMax (op == 2) old src).1
  else
    let w := Fmt.width t
    if op = 0 then (old + src) % 2 ^ w
    else if (sext old w < sext src w) = (op = 1) then old else src

/-- The cause with which a job that works on [key, key + z) meets a marked granule: what its check found, or poison (R423,
R432). -/
def State.markCause (s : State) (key z : Nat) : Option (BitVec 8) :=
  let gs := granules key z
  let found (g : Nat) : Option (BitVec 8) :=
    if KeySet.has s.marks g then
      (s.dev.ms.broken.find? (fun e => e.1 == g && e.2 != .decode)).map (fun e => if e.2 = .ecc then 0xA2 else 0xA1)
    else if s.soiled g then some 0xA2 else none
  ((gs.filterMap found).head?).orElse (fun _ => if gs.any (KeySet.has s.marks) then some 0xA0 else none)

/-- The elements of a row applied at one home, one after another; a target that is poisoned or fails its check stops the
row with a cause. -/
def State.applyReduce (s : State) (clu : Nat) (t : Fmt) (op : Nat) (rm : Rm) (els : List (Nat × Nat)) :
    State × Option (BitVec 8) :=
  let z := Fmt.width t / 8
  match (els.filterMap (fun e => s.markCause e.1 z)).head? with
  | some c => (s, some c)
  | none => (els.foldl (fun s e => s.performAtomic clu e.1 z (reduceElem t op rm (s.nat e.1 z) e.2) none) s, none)

/-- A job's signal at its word: one added, or the value of a CSIGNAL stored (R245, R248). None where the word is
poisoned. -/
def State.applySignal (s : State) (clu key : Nat) (val : Option DWord) (rel : Rel) : Option State :=
  match val with
  | none => if s.spoiled key 8 then none else some (s.performAtomic clu key 8 ((s.nat key 8 + 1) % 2 ^ 64) (some rel))
  | some v =>
    let bytes := keyBytes key 8 v.toNat
    let s := if keySpace key = MSpace.glob.code then s.performGlob (homeDie (keyOff key)) clu bytes [] [] else s.writeBytes bytes
    some ((s.storeRels (bytes.map (·.1)) (some rel)).tellRels (fun c => c / 12 == homeDie (keyOff key)) (bytes.map (·.1)))

/-- R331: one is added to the word of a completion signal at its home, as an atomic with release. It is dropped where its page does not
admit the context, which is counted, or where the word is poisoned (R430). -/
def State.countSignal (s : State) (src : Nat) (ctx : BitVec 16) (key : Nat) (rel : Rel) : State :=
  if !s.complexOk ctx (keyOff key) then s.countComplex src ctx (keyOff key) 8
  else if s.spoiled key 8 then s
  else (s.settled 96 [key, key + 7]).performAtomic 96 key 8 ((s.nat key 8 + 1) % 2 ^ 64) (some rel)

/-- What a delivered message does at its die (R271). -/
def State.deliver (s : State) (m : Msg) : State :=
  match m.body with
  | .announce lines | .notice lines => s.dropLines (fun c => c / 12 == m.dst) lines
  | .write core acc job ctx bytes tags marks rel => s.arrive m.dst core acc job ctx bytes tags marks rel
  | .reduce job ctx t op rm els =>
    let z := Fmt.width t / 8
    match els.find? (fun e => !(s.pageOk ctx e.1 && s.pageOk ctx (e.1 + z - 1))) with
    | some e => s.jobDenied job ctx e.1 1
    | none =>
      let (s, bad) := s.applyReduce 96 t op rm els
      match bad with
      | none => s
      | some c => s.jobBad job c 1
  | .complex ctx bytes rel => s.putComplex m.src m.dst ctx bytes rel
  | .count ctx key rel => s.countSignal m.src ctx key rel
  | .signal job ctx key val rel =>
    if !(s.pageOk ctx key && s.pageOk ctx (key + 7)) then s.jobDenied job ctx key 0
    else (s.applySignal 96 key val rel).getD (s.jobBad job 0xA0 0)
  | .atomic core acc ctx =>
    match (s.core core).findAcc acc with
    | none => s
    | some a =>
      match s.atomicSpot core a with
      | none => s
      | some (key, z) =>
        if !(s.pageOk ctx key && s.pageOk ctx (key + z - 1)) then s.atomicRefused core a .denied key
        else
          let (s, old, rels) := s.applyAtomic core a key z
          s.setCore core ((s.core core).setAcc { a with reply := some (old, rels, s.clock m.dst) })

/-- R271: a die delivers a stamped message once its clock admits it, and then takes the stamp into its clock. -/
def execStampedMessageDelivery (k : Nat) (s : State) : Outcome State Fault Refusal :=
  match s.dev.ms.msgs.find? (·.id == k) with
  | none => .next s
  | some m =>
    if !s.deliverable m then .next s
    else
      let s := s.setMs { s.dev.ms with msgs := s.dev.ms.msgs.filter (·.id != k) }
      .next ((s.setClock m.dst (Clock.join (s.clock m.dst) m.stamp)).deliver m)

/-- R253: a home directory invalidates a line in a slice and in every L1 of its cluster. -/
def execDirectoryInvalidate (clu line : Nat) (s : State) : Outcome State Fault Refusal :=
  .next (s.dropLines (· == clu) [lineKey line])

end Sys2Proof.Machine
end

