-- ==== Sys2Proof/Machine/MemAcc.lean ====
section
/-! DEFINITION. Loads, stores, prefetch and the SC forms (R173 to R176, R181). -/

namespace Sys2Proof.Machine

open Host (Outcome)

/-! ### Making an access -/

/-- An offset register's low 48 bits. -/
def off48 (v : DWord) : Nat := v.toNat % 2 ^ 48

/-- An access of the current operation at a byte address; a store moves in units of 8 bytes unless it says otherwise
(R263). -/
def State.mkAccess (s : State) (kind : AccKind) (cap : Cap) (off : Nat) : Access :=
  { id := s.cur.m.nextId, kind := kind, cap := cap, addr := capBase cap + off, off := off, slot := s.iss.slot
    acq := none, rel := none, carries := s.cur.m.relFence, rank := none, unit := 8, done := [], performed := false
    refused := false, rels := [], reply := none, counted := true }

/-- Put an access behind the others in program order; it counts in CNT.ST where it says so. -/
def Core.issueAcc (c : Core) (a : Access) : Core :=
  let c := { c with m := { c.m with accs := c.m.accs ++ [a], nextId := c.m.nextId + 1 } }
  if a.counted then c.addSt 1 else c

/-- Landing entries of the running code (R53). -/
def maxLanding : Nat := 16

/-- The single-copy atomic units of `z` bytes at an address, in units of `u` (R263). -/
def unitsOf (u addr z : Nat) : List (Nat × Nat × Nat) := (List.range (z / u)).map (fun i => (u * i, addr + u * i, u))

/-- Bytes that a VLD, VST or VSTM moves at one moment: in HOST and PEER the 8-byte units of R263, where R175 speaks of all 128 (DEDUCED,
log 96). -/
def vecUnit (cap : Cap) : Nat := if capSpace cap = spHost ∨ capSpace cap = spPeer then 8 else 128

/-- A load under L = 1: a free entry, or the landing-full trap. SPAD data are taken at issue. -/
def State.issueLanding (s : State) (rem : Nat) (dest : LoadDest) (cap : Cap) (srcs : List (Nat × Nat × Nat)) (mask : Vec)
    (rank : Option Nat) : Except Fail State :=
  let n := s.iss.core
  let c := s.cur
  if maxLanding ≤ c.t.landing.length then .error ⟨0x27, 0⟩
  else
    let l : Landing :=
      { id := c.m.nextId, rem := rem, dest := dest, slot := s.iss.slot, cap := cap, srcs := srcs, mask := mask, data := 0
        marks := 0, left := List.range srcs.length, sampled := false, arrived := false, refused := false, rank := rank
        narrow := false }
    let s := s.setCore n { c with m := { c.m with nextId := c.m.nextId + 1 } }
    let (s, l) := if capSpace cap = spSpad then s.sampleLanding n l true else (s, l)
    let c := s.core n
    .ok (s.setCore n { c with t := { c.t with landing := c.t.landing ++ [l] } })

/-- A load under L = 0 reads SPAD at issue; its result takes three cycles, with the marks of the granules (R428). A denied
one takes a free value with marks (R346). -/
def State.spadLoad (s : State) (cap : Cap) (pcs : List (Nat × Nat × Nat)) : Nat × BitVec 16 :=
  let n := s.iss.core
  let byte (k : Nat) : Byte × Bool := if s.spadOk n then s.readByte n 3 k else (fld (Config.freeWord s.free) (8 * (k % 128)) 8, true)
  let (v, ms) := layBytes (pcs.map (fun (o, a, len) => (o, (List.range len).map (fun i => byte (s.place n cap (a + i))))))
  (v, ms.foldl (fun m d => setBit m d true) 0)

/-- A denied read of the acting core's scratchpad has used a free value, and is counted (R423). -/
def State.spadDenied (s : State) (key : Nat) : State :=
  let n := s.iss.core
  if s.spadOk n then s else { s.countDenial n (s.miscOf n) .denied key true with free := s.free + 1 }

def State.spadRead (s : State) (cap : Cap) (addr : Nat) : State := s.spadDenied (s.place s.iss.core cap addr)

/-- A vector result with marks. -/
def vWrite (phys : Nat) (mask v : Vec) (marks : BitVec 16) : Write :=
  if marks = 0 then .v phys mask v else .vMarked phys mask v marks

/-- A store: into SPAD at once, elsewhere as an access that moves in units of `unit` bytes. A VSTM with no active lane counts nothing
(R174); DESIGN CHOICE (log 94): nor does a VSCATTER with no active element. -/
def State.issueStore (s : State) (cap : Cap) (off : Nat) (bytes : List (Nat × Byte)) (unit : Nat) (rel acq : Option Scope)
    (rank : Option Nat) : State :=
  if bytes.isEmpty then s
  else if capSpace cap = spSpad then
    s.spadStore (s.place s.iss.core cap (capBase cap + off)) (fun s =>
      s.writeBytes (bytes.map (fun b => (s.place s.iss.core cap b.1, b.2))))
  else
    let a := s.mkAccess (.store bytes) cap off
    s.setCur (s.cur.issueAcc { a with
      unit := unit, rel := rel, acq := acq, rank := rank
      carries := match rel with | some sc => some (scopeWider sc a.carries) | none => a.carries })

/-- Bytes of a value at an address. -/
def bytesAt (addr n v : Nat) : List (Nat × Byte) := keyBytes addr n v

def needLoad (landing : Bool) (align : Nat) : Need := { spaces := spacesLoad landing, perm := permR, align := align }
def needStore (align : Nat) : Need := { spaces := spacesStore, perm := permW, align := align }

/-! ### VLD, VST, VSTM -/

def execVld (f : VmF) (s : State) : Outcome State Fault Refusal :=
  slotOpS (.vld f) s fun s c => do
    let off := (s.offset (.vld f)).toNat
    s.check s.iss.core c f.h (needLoad f.l 128) off 128
    let cap := c.rh f.h
    let srcs := unitsOf (vecUnit cap) (capBase cap + off) 128
    if f.l then s.issueLanding f.imm.toNat (.v (c.pv f.vt)) cap srcs (BitVec.allOnes 1024) none
    else
      let (v, ms) := s.spadLoad cap srcs
      .ok ((s.spadRead cap (capBase cap + off)).setCur (c.push (mkPend s.iss.slot 3 (vWrite (c.pv f.vt) (BitVec.allOnes 1024) (BitVec.ofNat 1024 v) ms))))

def execVst (f : VstF) (s : State) : Outcome State Fault Refusal :=
  slotOpS (.vst f) s fun s c => do
    let off := (s.offset (.vst f)).toNat
    s.check s.iss.core c f.h (needStore 128) off 128
    let cap := c.rh f.h
    .ok (s.issueStore cap off (bytesAt (capBase cap + off) 128 (c.rv f.vt).toNat) (vecUnit cap) none none none)

/-- Bytes whose lanes a predicate selects. -/
def laneBytes (addr : Nat) (v : Vec) (p : Pred) : List (Nat × Byte) :=
  (bytesAt addr 128 v.toNat).filter (fun b => p.getLsbD (b.1 - addr))

def execVstm (f : VsmF) (s : State) : Outcome State Fault Refusal :=
  slotOpS (.vstm f) s fun s c => do
    let off := (s.offset (.vstm f)).toNat
    s.check s.iss.core c f.h (needStore 128) off 128
    let cap := c.rh f.h
    .ok (s.issueStore cap off (laneBytes (capBase cap + off) (c.rv f.vt) (c.pg f.pg)) (vecUnit cap) none none none)

/-! ### VGATHER, VSCATTER -/

/-- The 32 offsets of an index vector, plus a displacement (R174). -/
def idxOffsets (v : Vec) (imm : BitVec 48) : List Nat :=
  (elems 32 v).map (fun x => (BitVec.ofNat 48 x + imm).toNat)

/-- An index vector is a static register. -/
def idxReg (x : XReg) : VReg := x.setWidth 6

/-- The active elements of an index vector, each with its offset. -/
def idxEls (offs : List Nat) (act : Nat → Bool) : List (Nat × Nat) := (offs.zipIdx.map (fun (o, j) => (j, o))).filter (fun e => act e.1)

/-- The offsets of a VGATHER. -/
def gatherOffs (f : VmF) (c : Core) : List Nat := idxOffsets (c.rv (idxReg f.xi)) (if f.l then 0 else imm16 f.imm)

def execVgather (f : VmF) (s : State) : Outcome State Fault Refusal :=
  slotOpE (.vgather f) (fun c => idxEls (gatherOffs f c) (fun _ => true)) s fun s c => do
    let offs := gatherOffs f c
    s.checkAll s.iss.core c f.h (needLoad f.l 4) offs 4
    let cap := c.rh f.h
    let srcs := offs.zipIdx.map (fun (o, j) => (4 * j, capBase cap + o, 4))
    if f.l then s.issueLanding f.imm.toNat (.v (c.pv f.vt)) cap srcs (BitVec.allOnes 1024) none
    else
      let (v, ms) := s.spadLoad cap srcs
      .ok ((s.spadRead cap (capBase cap + offs.headD 0)).setCur (c.push (mkPend s.iss.slot 3 (vWrite (c.pv f.vt) (BitVec.allOnes 1024) (BitVec.ofNat 1024 v) ms))))

def execVscatter (f : VsmF) (s : State) : Outcome State Fault Refusal :=
  slotOpE (.vscatter f) (fun c => idxEls (idxOffsets (c.rv (idxReg f.xi)) 0) ((activeList 32 (c.pg f.pg)).getD · false)) s fun s c => do
    let offs := idxOffsets (c.rv (idxReg f.xi)) 0
    let act := activeList 32 (c.pg f.pg)
    let els := ((offs.zip (elems 32 (c.rv f.vt))).zip act).filter (·.2)
    s.checkAny s.iss.core c f.h (needStore 4) (els.map (·.1.1)) 4
    let cap := c.rh f.h
    let bytes := els.flatMap (fun e => bytesAt (capBase cap + e.1.1) 4 e.1.2)
    .ok (s.issueStore cap ((els.map (·.1.1)).headD 0) bytes 4 none none none)

/-! ### LD, ST and the SC forms -/

/-- An x result with the mark of what was read. -/
def xWrite (r : XReg) (v : Nat) (marked : Bool) : Write :=
  if marked then .xMarked r (BitVec.ofNat 64 v) else .x r (BitVec.ofNat 64 v)

def execLd (f : LdF) (s : State) : Outcome State Fault Refusal :=
  slotOpS (.ld f) s fun s c => do
    let off := (s.offset (.ld f)).toNat
    s.check s.iss.core c f.h (needLoad f.l 8) off 8
    let cap := c.rh f.h
    let srcs := [(0, capBase cap + off, 8)]
    if f.l then s.issueLanding f.imm.toNat (.x f.xt) cap srcs (BitVec.ofNat 1024 (2 ^ 64 - 1)) none
    else
      let (v, ms) := s.spadLoad cap srcs
      .ok ((s.spadRead cap (capBase cap + off)).setCur (c.push (mkPend s.iss.slot 3 (xWrite f.xt v (ms != 0)))))

def execSt (f : LsF) (s : State) : Outcome State Fault Refusal :=
  slotOpS (.st f) s fun s c => do
    let off := (s.offset (.st f)).toNat
    s.check s.iss.core c f.h (needStore 8) off 8
    let cap := c.rh f.h
    .ok (s.issueStore cap off (bytesAt (capBase cap + off) 8 (c.rx f.xt).toNat) 8 none none none)

/-- The rank of an SC operation: the owned position that the wait of R290 found. -/
def State.rank (s : State) : Nat := s.cur.m.scRank.getD s.wheel

def needSc (perm : BitVec 8) : Need := { spaces := [spGlob], perm := perm, align := 8 }

def execLdSc (f : LsF) (s : State) : Outcome State Fault Refusal :=
  slotOpS (.ldSc f) s fun s c => do
    let off := (s.offset (.ldSc f)).toNat
    s.check s.iss.core c f.h (needSc permR) off 8
    let cap := c.rh f.h
    let r := s.rank
    let s ← s.issueLanding f.imm.toNat (.x f.xt) cap [(0, capBase cap + off, 8)] (BitVec.ofNat 1024 (2 ^ 64 - 1)) (some r)
    .ok s

def execStSc (f : LsF) (s : State) : Outcome State Fault Refusal :=
  slotOpS (.stSc f) s fun s c => do
    let off := (s.offset (.stSc f)).toNat
    s.check s.iss.core c f.h (needSc permW) off 8
    let cap := c.rh f.h
    let r := s.rank
    let s := s.issueStore cap off (bytesAt (capBase cap + off) 8 (c.rx f.xt).toNat) 8 (some .package) (some .package) (some r)
    .ok s

/-! ### VPREF (R176) -/

/-- The checks after the third hold for the byte at the offset, and the line can be brought. -/
def State.prefetches (s : State) (c : Core) (h : HReg) (off : Nat) : Bool :=
  let cap := c.rh h
  let k := s.place s.iss.core cap (capBase cap + off)
  ([spGlob, spHost, spPeer].contains (capSpace cap)) &&
    (match checkRights c h permR 0, s.checkRange s.iss.core cap off 1 1 with
     | .ok _, .ok _ => true
     | _, _ => false) &&
    s.verdict (s.ctxOf s.iss.core) cap k == .ok && s.homeReady s.iss.core (capPolicy cap) k

/-- A prefetch of the line transfers it from its home (R165, R257). -/
def State.installs (s : State) (n pol k : Nat) : Bool :=
  cacheable k && pol != 3 && s.cacheWays (clusterOf n) != 0 && (s.sliceLine (clusterOf n) k).isNone

/-- A line whose transfer meets a decode error is not installed (R428, R436). -/
def execVpref (f : VprefF) (s : State) : Outcome State Fault Refusal :=
  slotOpS (.vpref f) s fun s c => do
    let off := (s.offset (.vpref f)).toNat
    checkHandle c f.h spacesPref (BitVec.ofNat 64 off)
    let cap := c.rh f.h
    let k := s.place s.iss.core cap (capBase cap + off)
    if !s.prefetches c f.h off then .ok s
    else if s.installs s.iss.core (capPolicy cap) k && s.miscoded [k] then
      .ok ((s.recoded [k]).recordTransfer s.iss.core [k] 0xA3 (s.miscOf s.iss.core) false)
    else .ok (s.fill s.iss.core (capPolicy cap) k)

end Sys2Proof.Machine
end

