-- ==== Sys2Proof/Machine/Atomic.lean ====
section
/-! DEFINITION. Scalar and vector atomics, LDA, STL, VFENCE, CFLUSH and the reduction store (R177 to R184). -/

namespace Sys2Proof.Machine

open Host (Outcome)

def needAtomic (align : Nat) : Need :=
  { spaces := spacesAtomic, perm := permR ||| permW ||| permA, align := align }

/-- The element that a replay record begins with. -/
def Access.firstElem (a : Access) : Nat :=
  match a.kind with
  | .vamo _ _ _ _ _ next _ => next
  | _ => 0

/-- A refused atomic in SPAD is not applied (R346, R423). -/
def State.spadRefused (s : State) (a : Access) (replay : Option Access) : State :=
  let n := s.iss.core
  let k := s.place n a.cap a.addr
  let s := s.countDenial n (s.miscOf n) .denied k false
  s.setCore n ((s.core n).defer
    (if replay.isSome then { deferred 0x28 (BitVec.ofNat 64 a.off) a.slot with elem := replay.elim 0 Access.firstElem, replay := replay }
     else deferred 0x28 (Verdict.tval .denied k) a.slot))

/-- An atomic in SPAD is carried out at issue; its old value takes three cycles (R178, R430). -/
def State.spadAmo (s : State) (a : Access) (op : AmoOp) (xd : XReg) (src cmp : DWord) : State :=
  let n := s.iss.core
  if !s.spadOk n then s.spadRefused a none else
  let (s, old) := s.applyAmo n a op src cmp
  let c := s.core n
  match old with
  | some v => (s.setCore n (c.push (mkPend s.iss.slot 3 (.x xd v)))).atomicAcquire n a []
  | none =>
    if xd ≠ 0 then s.setCore n (c.push (mkPend s.iss.slot 3 (.xMarked xd (c.rx xd))))
    else s.setCore n (c.defer { deferred 0xA0 (BitVec.ofNat 64 a.off) a.slot with
      zero := [.granule (granule (s.place n a.cap a.addr))] })

/-- Acquire and release parts that an ORD gives an access. -/
def Access.ordered (a : Access) (ord : Ord) (sc : Scope) : Access :=
  { a with
    acq := if ordAcquires ord then some sc else none
    rel := if ordReleases ord then some sc else none
    carries := if ordReleases ord then some (scopeWider sc a.carries) else a.carries }

/-- A scalar atomic (R178). -/
def amoOp (i : Instr) (f : AmoF) (op : AmoOp) (s : State) : Outcome State Fault Refusal :=
  slotOpS i s fun s c => do
    let off := (s.offset i).toNat
    s.check s.iss.core c f.h (needAtomic 8) off 8
    let cap := c.rh f.h
    let src := c.rx f.xs
    let cmp := c.rx f.xd
    let a := (s.mkAccess (.amo op f.xd src cmp) cap off).ordered f.ord f.scope
    if capSpace cap = spSpad then .ok (s.spadAmo a op f.xd src cmp) else .ok (s.setCur (c.issueAcc a))

def execAmoadd (f : AmoF) (s : State) : Outcome State Fault Refusal := amoOp (.amoadd f) f .add s
def execAmomin (f : AmoF) (s : State) : Outcome State Fault Refusal := amoOp (.amomin f) f .min s
def execAmomax (f : AmoF) (s : State) : Outcome State Fault Refusal := amoOp (.amomax f) f .max s
def execAmominu (f : AmoF) (s : State) : Outcome State Fault Refusal := amoOp (.amominu f) f .minu s
def execAmomaxu (f : AmoF) (s : State) : Outcome State Fault Refusal := amoOp (.amomaxu f) f .maxu s
def execAmoand (f : AmoF) (s : State) : Outcome State Fault Refusal := amoOp (.amoand f) f .and s
def execAmoor (f : AmoF) (s : State) : Outcome State Fault Refusal := amoOp (.amoor f) f .or s
def execAmoxor (f : AmoF) (s : State) : Outcome State Fault Refusal := amoOp (.amoxor f) f .xor s
def execAmoswap (f : AmoF) (s : State) : Outcome State Fault Refusal := amoOp (.amoswap f) f .swap s
def execAmocas (f : AmoF) (s : State) : Outcome State Fault Refusal := amoOp (.amocas f) f .cas s

/-- AMO.SC: an add at package scope, at the wheel's rank (R181). -/
def execAmoSc (f : AmoScF) (s : State) : Outcome State Fault Refusal :=
  slotOpS (.amoSc f) s fun s c => do
    let off := (s.offset (.amoSc f)).toNat
    s.check s.iss.core c f.h (needSc (permR ||| permW ||| permA)) off 8
    let r := s.rank
    let a := (s.mkAccess (.amo .add f.xd (c.rx f.xs) (c.rx f.xd)) (c.rh f.h) off).ordered .acqRel .package
    .ok (s.setCur (c.issueAcc { a with rank := some r }))

/-- LDA: in SPAD three cycles, elsewhere on arrival (R179). It counts in no class. -/
def execLda (f : VtxF) (s : State) : Outcome State Fault Refusal :=
  slotOpS (.lda f) s fun s c => do
    let off := (s.offset (.lda f)).toNat
    s.check s.iss.core c f.h { spaces := spacesStore, perm := permR, align := 8 } off 8
    let cap := c.rh f.h
    if capSpace cap = spSpad then
      let (v, ms) := s.spadLoad cap [(0, capBase cap + off, 8)]
      let s := (s.spadRead cap (capBase cap + off)).setCur (c.push (mkPend s.iss.slot 3 (xWrite f.x v (ms != 0))))
      .ok (s.acquire s.iss.core f.scope [])
    else
      let a := { s.mkAccess (.lda f.x) cap off with acq := some f.scope, carries := none, counted := false }
      .ok (s.setCur (c.issueAcc a))

def execStl (f : VtxF) (s : State) : Outcome State Fault Refusal :=
  slotOpS (.stl f) s fun s c => do
    let off := (s.offset (.stl f)).toNat
    s.check s.iss.core c f.h (needStore 8) off 8
    let cap := c.rh f.h
    .ok (s.issueStore cap off (bytesAt (capBase cap + off) 8 (c.rx f.x).toNat) 8 (some f.scope) none none)

/-- R179; with acquire at domain scope, HOST and PEER copies go once the earlier loads have their data (R254). -/
def execVfence (f : VfenceF) (s : State) : Outcome State Fault Refusal :=
  slotOpS (.vfence f) s fun s c =>
    .ok ((s.setCur (c.fenceMark s.iss.core f.ord f.scope)).settleFences s.iss.core)

/-- R180 -/
def execCflush (f : VtxF) (s : State) : Outcome State Fault Refusal :=
  slotOpS (.cflush f) s fun s c => do
    let off := (s.offset (.cflush f)).toNat
    let len := (c.rx f.x).toNat
    s.check s.iss.core c f.h { spaces := spacesStore, perm := permR, align := 1 } off len
    let cap := c.rh f.h
    if len = 0 ∨ capSpace cap = spSpad then .ok s
    else .ok (s.setCur (c.issueAcc { s.mkAccess (.cflush len f.scope) cap off with carries := none }))

/-! ### Vector atomics (R182 to R184) -/

/-- A vector atomic in SPAD: its active elements in order, to the first that is poisoned (R431). -/
def State.spadVamo (a : Access) (op : VamoOp) (rm : Rm) (offs : List Nat) (d : Vec) :
    List Nat → State → Nat → Nat → State × Nat × Nat × Option Nat
  | [], s, mask, old => (s, mask, old, none)
  | j :: js, s, mask, old =>
    match s.applyVamo s.iss.core a op rm (offs.getD j 0) (elemOf 32 d.toNat j) with
    | (_, none) => (s, mask, old, some j)
    | (s', some v) => State.spadVamo a op rm offs d js s' (mask + (2 ^ 32 - 1) * 2 ^ (32 * j)) (old + v.toNat * 2 ^ (32 * j))

/-- Active elements of 4 bytes, as bits. -/
def lanes32 (p : Pred) : BitVec 32 :=
  BitVec.ofNat 32 (packNat 1 ((activeList 32 p).map (fun b => if b then 1 else 0)))

/-- A vector atomic over given offsets. -/
def State.issueVamo (s : State) (c : Core) (cap : Cap) (op : VamoOp) (phys : Nat) (act : BitVec 32) (offs : List Nat) (d : Vec)
    (ord : Ord) (sc : Scope) : State :=
  let n := s.iss.core
  let js := (List.range 32).filter (fun j => act.getLsbD j)
  let a := (s.mkAccess (.vamo op phys act offs d 0 c.c.rm) cap (offs.getD (js.headD 0) 0)).ordered ord sc
  if capSpace cap = spSpad ∧ !s.spadOk n then
    if js.isEmpty then s
    else s.spadRefused a (some { a with kind := .vamo op phys act offs d (js.headD 0) c.c.rm, counted := false })
  else if capSpace cap = spSpad then
    let (s, mask, old, bad) := State.spadVamo a op c.c.rm offs d js s 0 0
    let c := s.core n
    let c := if op = .redst then c else c.push (mkPend s.iss.slot 3 (.v phys (BitVec.ofNat 1024 mask) (BitVec.ofNat 1024 old)))
    match bad with
    | none => (s.setCore n c).atomicAcquire n a []
    | some j =>
      let a' := { a with kind := .vamo op phys act offs d j c.c.rm, counted := false }
      let off := offs.getD j 0
      s.setCore n (c.defer { deferred 0xA0 (BitVec.ofNat 64 off) a.slot with
        elem := j, replay := some a', zero := [.granule (granule (s.place n cap (capBase cap + off)))] })
  else s.setCur (c.issueAcc a)

def vamoInstr (i : Instr) (f : VvF) (op : VamoOp) (s : State) : Outcome State Fault Refusal :=
  slotOpE i (fun c => idxEls (idxOffsets (c.rv (idxReg f.vi)) 0) ((lanes32 (c.pg f.pg)).getLsbD ·)) s fun s c => do
    let offs := idxOffsets (c.rv (idxReg f.vi)) 0
    let act := lanes32 (c.pg f.pg)
    let live := ((List.range 32).filter (fun j => act.getLsbD j)).map (fun j => offs.getD j 0)
    s.checkAny s.iss.core c f.h (needAtomic 4) live 4
    .ok (s.issueVamo c (c.rh f.h) op (c.pv f.vt) act offs (c.rv f.vt) f.ord f.scope)

def execVamoadd (f : VvF) (s : State) : Outcome State Fault Refusal := vamoInstr (.vamoadd f) f .add s
def execVamomin (f : VvF) (s : State) : Outcome State Fault Refusal := vamoInstr (.vamomin f) f .min s
def execVamomax (f : VvF) (s : State) : Outcome State Fault Refusal := vamoInstr (.vamomax f) f .max s

/-- VREDST adds at x[VI] + 4j; the offset is 128-aligned (R182). DESIGN CHOICE (log 85): the bound check covers all 128
bytes, whichever elements are active. -/
def execVredst (f : VvF) (s : State) : Outcome State Fault Refusal :=
  slotOpS (.vredst f) s fun s c => do
    let off := (s.offset (.vredst f)).toNat
    s.check s.iss.core c f.h (needAtomic 128) off 128
    let offs := (List.range 32).map (fun j => off + 4 * j)
    .ok (s.issueVamo c (c.rh f.h) .redst (c.pv f.vt) (lanes32 (c.pg f.pg)) offs (c.rv f.vt) f.ord f.scope)

end Sys2Proof.Machine
end

