-- ==== Sys2Proof/Machine/Barrier.lean ====
section
/-! DEFINITION. Barrier objects (R279 to R288, R437): the four instructions, the unit's answers, and the arrivals and
flips that travel between objects. -/

namespace Sys2Proof.Machine

open Host (Outcome)

/-! ### Objects -/

def Arrival.none : Arrival := { rels := [], clock := Clock.zero }

def BarObj.zero : BarObj :=
  { linked := false, nchild := 0, parent := 0, parentAddr := 0, children := [], act := false, gen := 0, arrivals := []
    expect := 0, phase := 0, depth := 0, done := [] }

/-- Fields of a BARR address (R279). -/
def barPkg (addr : Nat) : Nat := addr / 2 ^ 25 % 1024
def barDie (addr : Nat) : Nat := addr / 2 ^ 22 % 8
def barKey (addr : Nat) : Nat := addr / 64 % 2 ^ 19

def State.bar (s : State) (addr : Nat) : BarObj := lookupD .zero s.dev.bars (barKey addr)
def State.setBar (s : State) (addr : Nat) (o : BarObj) : State :=
  { s with dev := { s.dev with bars := insertAt s.dev.bars (barKey addr) o } }
def State.ownPkg (s : State) (addr : Nat) : Bool := barPkg addr == s.pkgId.toNat
/-- Two addresses name one object. -/
def oneObject (a b : Nat) : Bool := barPkg a == barPkg b && barKey a == barKey b

/-- The arrival of core n's task. -/
def State.barBy (s : State) (n : Nat) : BarBy := { core := n, misc := s.miscOf n }
/-- An arrival of another package. -/
def BarBy.far : BarBy := { core := 768, misc := 0 }

def BarObj.arrived (o : BarObj) : Nat := o.arrivals.length
/-- Awaiting: the phase is complete and the parent's flip is to come (R280). -/
def BarObj.awaiting (o : BarObj) : Bool := o.linked && decide (o.expect ≤ o.arrived)

def Arrival.join (a b : Arrival) : Arrival := { rels := (a.rels ++ b.rels).dedup, clock := Clock.join a.clock b.clock }
def joinAll (l : List Arrival) : Arrival := l.foldl Arrival.join .none

/-- Send an arrival or a flip to the object at an address (R287). -/
def State.sendBar (s : State) (flip : Bool) (addr : Nat) (arr : Arrival) (who : BarBy) : State :=
  { s with dev := { s.dev with
    barMsgs := s.dev.barMsgs ++ [{ id := s.dev.nextBar, flip := flip, addr := addr, arr := arr, who := who }]
    nextBar := s.dev.nextBar + 1 } }

/-- flip(o), with what it releases; a phase already complete again completes at once (R287). -/
def State.flipBar : Nat → State → Nat → Arrival → BarBy → State
  | 0, s, _, _, _ => s
  | fuel + 1, s, addr, rel, who =>
    let o := s.bar addr
    let o := { o with
      phase := (o.phase + 1) % 65536, arrivals := o.arrivals.drop o.expect, done := insertAt o.done o.phase rel }
    let s := s.setBar addr o
    let s := o.children.foldl (fun s c => s.sendBar true c rel who) s
    if o.expect ≤ o.arrived ∧ o.expect ≠ 0 then
      if o.linked then s.sendBar false o.parentAddr (joinAll (o.arrivals.take o.expect)) who
      else State.flipBar fuel s addr (joinAll (o.arrivals.take o.expect)) who
    else s

/-- complete(o) (R287). -/
def State.completeBar (s : State) (addr : Nat) (who : BarBy) : State :=
  let o := s.bar addr
  let a := joinAll (o.arrivals.take o.expect)
  if o.linked then s.sendBar false o.parentAddr a who else State.flipBar (o.arrived + 1) s addr a who

/-- Count one arrival (R285, R287). -/
def State.countArrival (s : State) (addr : Nat) (a : Arrival) (who : BarBy) : State :=
  let o := s.bar addr
  let o := { o with arrivals := o.arrivals ++ [a] }
  let s := s.setBar addr o
  if o.arrived = o.expect then s.completeBar addr who else s

/-- An object becomes a child of an active parent of this package; none where it must be refused (R284). The spec does not say what
becomes of NCHILD past its 16 bits or ARRIVED past its 20: both are counted without bound here (DESIGN CHOICE, log 94). -/
def State.addChild (s : State) (parent child : Nat) : Option State :=
  let p := s.bar parent
  if !p.act ∨ p.depth = 7 then none
  else some (s.setBar parent { p with nchild := p.nchild + 1, children := p.children ++ [child] })

/-- A parent of this package loses a child (R283). -/
def State.dropChild (s : State) (parent child : Nat) : State :=
  let p := s.bar parent
  if p.children.any (oneObject · child) then
    s.setBar parent { p with nchild := p.nchild - 1, children := p.children.filter (fun c => !oneObject c child) }
  else s

/-! ### What the unit does with a request; none is a refusal -/

/-- R283; every waiter sees the new GEN. -/
def State.barInit (s : State) (addr : Nat) (e : Nat) (u : Bool) : Option State :=
  let o := s.bar addr
  if e = 0 ∨ 524287 < e then none
  else if o.awaiting then none
  else if u ∧ o.nchild ≠ 0 then none
  else
    let s := if u ∧ o.linked ∧ s.ownPkg o.parentAddr then s.dropChild o.parentAddr addr else s
    let o := if u then { o with linked := false, parent := 0, parentAddr := 0, depth := 0 } else o
    some (s.setBar addr { o with gen := (o.gen + 1) % 16, act := true, expect := e, arrivals := [], phase := 0, done := [] })

/-- What BLINK needs of the parent: active, and its DEPTH. A parent in another package is that package's to tell, a free
value (log 4); with no port to it, it tells nothing (R378). -/
def State.parentOf (s : State) (addr : Nat) : Bool × Nat :=
  if s.ownPkg addr then ((s.bar addr).act, (s.bar addr).depth)
  else if !s.dev.link.fabValid || !s.portTo (BitVec.ofNat 10 (barPkg addr)) then (false, 0)
  else
    let v := Config.freeWord s.free
    (v.getLsbD 0, (fld v 1 3).toNat)

/-- R284 -/
def State.barLink (s : State) (child : Nat) (cap : Cap) (parent : Nat) : Option State :=
  let o := s.bar child
  let (pact, pdepth) := s.parentOf parent
  if oneObject child parent then none
  else if !o.act ∨ !pact then none
  else if o.linked ∨ o.nchild ≠ 0 ∨ o.arrived ≠ 0 then none
  else if pdepth = 7 then none
  else
    let s := s.setBar child { o with parent := cap, parentAddr := parent, linked := true, depth := pdepth + 1 }
    let s := if s.ownPkg parent then (s.addChild parent child).getD s else s
    some { s with free := s.free + 1 }

/-- The phase token of R285. -/
def BarObj.token (o : BarObj) : DWord := BitVec.ofNat 64 (o.gen * 65536 + o.phase)

/-- R285: the counted arrival. -/
def State.barArrive (s : State) (addr n : Nat) (sc : Scope) : Option State :=
  let o := s.bar addr
  if !o.act then none
  else if 2 * o.expect ≤ o.arrived + 1 then none
  else some (s.countArrival addr { rels := [{ scope := sc, pkg := none, core := n }], clock := s.clock (dieOf n) } (s.barBy n))

/-- R285: an arrival at an active object writes its token before the second refusal is tested. -/
def State.writeToken (s : State) (n : Nat) (req : BarReq) (addr : Nat) : State :=
  match req with
  | .arrive xb _ => if (s.bar addr).act then s.setCore n ((s.core n).wx xb (s.bar addr).token) else s
  | _ => s

/-! ### Instructions (R281) -/

def needBarr : Need := { spaces := [spBarr], perm := permB, align := 64 }

/-- The checks of R167, then that the object is of this package (R279, R412); this order is log 44. -/
def State.checkBar (s : State) (c : Core) (h : HReg) (off : Nat) : Except Fail Unit := do
  s.check s.iss.core c h needBarr off 64
  if s.ownPkg (capBase (c.rh h) + off) then .ok () else .error ⟨0x21, BitVec.ofNat 64 off⟩

/-- Leave a request with the home's unit; it counts in CNT.ST until the answer (R282). -/
def State.askBar (s : State) (c : Core) (req : BarReq) (cap : Cap) (off : Nat) : State :=
  let w : BarWait := { id := c.m.nextId, req := req, cap := cap, off := off, slot := s.iss.slot, rep := s.iss.rep }
  s.setCur ({ c with m := { c.m with bar := c.m.bar ++ [w], nextId := c.m.nextId + 1 } }.addSt 1)

def execBinit (f : BinitF) (s : State) : Outcome State Fault Refusal :=
  slotOpS (.binit f) s fun s c => do
    let off := off48 (c.rx f.xa)
    s.checkBar c f.hb off
    .ok (s.askBar c (.init (c.rx f.xb) f.u) (c.rh f.hb) off)

/-- The parent's handle is checked as the child's is; the parent may be another package's (R279, R284). -/
def execBlink (f : BlinkF) (s : State) : Outcome State Fault Refusal :=
  slotOpS (.blink f) s fun s c => do
    let off := off48 (c.rx f.xa)
    let poff := off48 (c.rx f.xb)
    s.checkBar c f.hb off
    s.check s.iss.core c f.ha needBarr poff 64
    .ok (s.askBar c (.link (c.rh f.ha) poff) (c.rh f.hb) off)

def execBarrive (f : BarF) (s : State) : Outcome State Fault Refusal :=
  slotOpS (.barrive f) s fun s c => do
    let off := off48 (c.rx f.xa)
    s.checkBar c f.hb off
    .ok (s.askBar c (.arrive f.xb f.scope) (c.rh f.hb) off)

/-- Status of an object against a token: none while BWAITP holds (R286). -/
def BarObj.status (o : BarObj) (token : DWord) : Option DWord :=
  if BitVec.ofNat 4 o.gen ≠ fld token 16 4 then some (setBit o.token 63 true)
  else if BitVec.ofNat 16 o.phase ≠ fld token 0 16 then some o.token
  else none

/-- What the flip of the token's phase releases (R288). -/
def BarObj.released (o : BarObj) (token : DWord) : Arrival := lookupD .none o.done (fld token 0 16).toNat

/-- BWAITP's hold (R286): its object is active and nothing has happened to it, or what its flip makes known has not
reached this die (R271, R288). -/
def State.barHolds (s : State) (n : Nat) (c : Core) (f : BarF) : Bool :=
  let o := s.bar (capBase (c.rh f.hb) + off48 (c.rx f.xa))
  o.act && (match o.status (c.rx f.xb) with
    | none => true
    | some st => !bit st 63 && !s.covers (s.clock (dieOf n)) (o.released (c.rx f.xb)).clock)

/-- BWAITP: ACT is tested before the hold; released, it writes the status and acquires at its scope (R286, R288). While
it holds, the bundle is not issued, and here nothing changes. -/
def execBwaitp (f : BarF) (s : State) : Outcome State Fault Refusal :=
  slotOpS (.bwaitp f) s fun s c => do
    let off := off48 (c.rx f.xa)
    s.checkBar c f.hb off
    let o := s.bar (capBase (c.rh f.hb) + off)
    if !o.act then
      -- a waiter whose object has failed is released invalidated (R437)
      if c.m.waiting then .ok (s.setCur (c.push (mkPend s.iss.slot 1 (.x f.xb (setBit o.token 63 true)))))
      else .error ⟨0x65, BitVec.ofNat 64 off⟩
    else
      match o.status (c.rx f.xb) with
      | none => .ok s
      | some st =>
        let s := s.setCur (c.push (mkPend s.iss.slot 1 (.x f.xb st)))
        .ok (if bit st 63 then s else s.acquire s.iss.core f.scope (o.released (c.rx f.xb)).rels)

/-! ### Events -/

/-- R282: the unit's answer to the oldest request. An arrival is counted only once its release's conditions hold (R288). A refusal leaves the
object as it is and raises the barrier-misuse trap after the bundle; the free value that a link may have used is spent
(log 4). -/
def execBarrierAnswer (n : Nat) (s : State) : Outcome State Fault Refusal :=
  let c := s.core n
  match c.m.bar with
  | [] => .next s
  | w :: rest =>
    let addr := capBase w.cap + w.off
    if s.dev.lost.contains (barDie addr) then .next s
    else
      let rel : Option Scope := match w.req with
        | .arrive _ sc => some sc
        | _ => none
      if !s.ready n w.id [] true rel then .next s
      else
        let s := s.setCore n (({ c with m := { c.m with bar := rest } }.subSt).dropFences)
        let s := s.writeToken n w.req addr
        let done : Option State := match w.req with
          | .init xb u => s.barInit addr xb.toNat u
          | .link cap poff => s.barLink addr cap (capBase cap + poff)
          | .arrive _ sc => s.barArrive addr n sc
        match done with
        | some s => .next s
        | none =>
          let t : Trap := { cause := 0x65, kind := .completion, tval := BitVec.ofNat 64 w.off, slot := w.slot, elem := 0
                            loop := none, replay := none, rep := w.rep, zero := [] }
          .next { s.setCore n { s.core n with comp := (s.core n).comp.or (some t) } with free := s.free + 1 }

/-- The overflow record of R287. -/
def State.barOverflow (s : State) (addr : Nat) (who : BarBy) : State :=
  let here := dieOf who.core == barDie addr
  s.mcRecord (barDie addr) 29
    (mcContained 0x65 0 (if here then s.loc who.core else 0) 7 addr (some (if here then who.misc else 0)))

/-- An arrival reaches a parent of this package: an inactive one refuses it as a BARRIVE; one that would reach 2 EXPECT is
counted and logged (R287). -/
def State.arriveAt (s : State) (addr : Nat) (a : Arrival) (who : BarBy) : State :=
  let o := s.bar addr
  if !o.act ∨ s.dev.lost.contains (barDie addr) then s
  else
    let s := if 2 * o.expect ≤ o.arrived + 1 then s.barOverflow addr who else s
    s.countArrival addr a who

/-- A flip reaches a child of this package, which flips if it is awaiting (R287). The phase has counted the child's own arrivals too,
whatever the parent's flip stands for (R288). -/
def State.flipAt (s : State) (addr : Nat) (a : Arrival) (who : BarBy) : State :=
  let o := s.bar addr
  if o.awaiting ∧ !s.dev.lost.contains (barDie addr) then State.flipBar (o.arrived + 1) s addr (a.join (joinAll (o.arrivals.take o.expect))) who else s

/-- A message for another package stays with its sender until it has been acknowledged over a port to that package, which carries
nothing while it is down or stopped (R378, R459). Without an id it is denied (R377), and a lost package takes none (R452). -/
def State.held (s : State) (m : BarMsg) : Bool :=
  !s.ownPkg m.addr && s.dev.link.fabValid && !s.dev.link.lostPkgs.contains (barPkg m.addr) && !s.portTo (BitVec.ofNat 10 (barPkg m.addr))

/-- Take a message; one for another package has then been acknowledged there (R376). -/
def execBarrierArrivalReceived (k : Nat) (s : State) : Outcome State Fault Refusal :=
  match s.dev.barMsgs.find? (fun m => m.id == k && !m.flip) with
  | none => .next s
  | some m =>
    if s.held m then .next s else
    let s := { s with dev := { s.dev with barMsgs := s.dev.barMsgs.filter (·.id != k) } }
    if s.ownPkg m.addr then .next (s.arriveAt m.addr m.arr m.who) else .next s

/-- R287: a flip reaches a child. -/
def execBarrierFlipReceived (k : Nat) (s : State) : Outcome State Fault Refusal :=
  match s.dev.barMsgs.find? (fun m => m.id == k && m.flip) with
  | none => .next s
  | some m =>
    if s.held m then .next s else
    let s := { s with dev := { s.dev with barMsgs := s.dev.barMsgs.filter (·.id != k) } }
    if s.ownPkg m.addr then .next (s.flipAt m.addr m.arr m.who) else .next s

/-! ### What other packages send (R284, R287, R376, R377) -/

/-- A release that package `pkg` tells of, with the package of its core: none for this one (R264). -/
def State.relFrom (s : State) (pkg : BitVec 10) (r : Rel) : Rel :=
  { r with pkg := some (r.pkg.getD pkg) |>.filter (· != s.pkgId) }

/-- Package `pkg`'s message about a barrier object of this package; its clocks stay there (R272). -/
def State.barIn (s : State) (pkg : BitVec 10) (m : LinkIn) : State :=
  match m with
  | .arrival addr rels => if s.ownPkg addr then s.arriveAt addr { rels := rels.map (s.relFrom pkg), clock := .zero } .far else s
  | .flip addr rels => if s.ownPkg addr then s.flipAt addr { rels := rels.map (s.relFrom pkg), clock := .zero } .far else s
  | .link parent child => if s.ownPkg parent ∧ !s.ownPkg child then (s.addChild parent child).getD s else s
  | .unlink parent child => if s.ownPkg parent ∧ !s.ownPkg child then s.dropChild parent child else s
  | _ => s

end Sys2Proof.Machine
end

