-- ==== Sys2Proof/Machine/Matrix.lean ====
section
/-! DEFINITION. Operand slots, tile moves and the dense and sparse matrix forms (R186 to R204). -/

namespace Sys2Proof.Machine

open Host (Outcome)

/-! ### Operand memory (R186) -/

def osKey (n : Nat) (os : OSlot) : Nat := mkey .opmem n (8192 * os.toNat)
def sideKey (n : Nat) (os : OSlot) (line : Nat) : Nat := mkey .side n (1024 * os.toNat + 32 * line)

/-- Line `i` of a slot as a little-endian number. -/
def State.slotLine (s : State) (n : Nat) (os : OSlot) (i : Nat) : Nat := s.nat (osKey n os + 256 * i) 256

/-! ### Checks (R45, R81, R189, R196, R198) -/

def kindCode : TileKind → BitVec 3
  | .empty => 0 | .dense => 1 | .lowRank => 2 | .complex64 => 3 | .complex128 => 4

def accCode : Acc → BitVec 2
  | .f64 => 0 | .w56 => 1 | .x56 => 2

def needClaimed (c : Core) (os : OSlot) : Except Fail Unit :=
  if (c.slot os).claimed then .ok () else .error ⟨0x43, os.setWidth 64⟩

def kindFail (c : Core) (m : MReg) : Fail := ⟨0x44, BitVec.ofNat 64 (m.toNat * 256 + (kindCode (c.tile m).kind).toNat)⟩

/-- R45: the result's rank is at most RMAX. -/
def needRank (c : Core) (r : Nat) : Except Fail Unit :=
  if r ≤ c.c.rmax.toNat then .ok () else .error ⟨0x40, BitVec.ofNat 64 r⟩

/-- R45: N panels for a result in md, whose own panels count where it is no source. -/
def needPanels (c : Core) (md : MReg) (src : Bool) (n : Nat) : Except Fail Unit :=
  let f := c.freePanels.length
  if n ≤ f + (if src then 0 else (c.tile md).occ) then .ok ()
  else .error ⟨0x41, BitVec.ofNat 64 (n * 65536 + f)⟩

/-- R46: the N panels of a result: md's own where it is no source, then free ones, lowest index first (log 11). -/
def Core.reserve (c : Core) (md : MReg) (src : Bool) (n : Nat) : List Nat :=
  ((if src then [] else (c.tile md).panels) ++ c.freePanels).take n

/-- Marked rows of slot lines that an operation reads (R427, R429). -/
def rowMarks (c : Core) (lines : List (OSlot × Nat)) : List Holder :=
  lines.flatMap (fun (os, l) =>
    (([2 * l, 2 * l + 1] : List Nat).filter (fun r => bit (c.slot os).marks r)).map (Holder.row os))

/-- All lines of a slot. -/
def allLines (os : OSlot) : List (OSlot × Nat) := (List.range 32).map (fun l => (os, l))

/-! ### Claims, rows and weights (R189 to R192) -/

def execOclaim (os : OSlot) (s : State) : Outcome State Fault Refusal :=
  matOp (.oclaim os) s fun s c lit => do
    zeroLit lit
    if (c.slot os).claimed then .error ⟨0x43, os.setWidth 64⟩ else .ok (s.setCur (c.push (mkPend .m 1 (.claim os))))

def execOrelease (os : OSlot) (s : State) : Outcome State Fault Refusal :=
  matOp (.orelease os) s fun s c lit => do
    zeroLit lit
    needClaimed c os
    .ok (s.setCur (c.push (mkPend .m 1 (.release os))))

def execOload (f : OloadF) (s : State) : Outcome State Fault Refusal :=
  matOp (.oload f) s fun s c lit => do
    zeroLit lit
    needClaimed c f.os
    .ok (s.setCur (c.push (mkPend .m 1 (.row f.os f.row (c.rv f.v)))))

/-- R191: the handle must be of the weight tier (R162). -/
def needWload : Need := { spaces := [spWgt], perm := permR, align := 256 }

/-- R191. DESIGN CHOICE (log 95): the slot's state is tested before the handle; neither R402 nor R413 orders the two for WLOAD. -/
def execWload (f : MwF) (s : State) : Outcome State Fault Refusal :=
  matOp (.wload f) s fun s c lit => do
    zeroLit lit
    needClaimed c f.os
    let off := (s.offset (.wload f)).toNat
    s.check s.iss.core c f.h needWload off 8192
    .ok (s.setCur (({ c with
      m := { c.m with nextId := c.m.nextId + 1 }
      t := { c.t with
        fills := c.t.fills ++ [({ id := c.m.nextId, os := f.os, rem := f.arr.toNat, addr := capBase (c.rh f.h) + off, done := [] } : Fill)] } } : Core).addWl))

/-! ### Tile moves (R193, R194) -/

def execMzero (f : MzF) (s : State) : Outcome State Fault Refusal :=
  matOp (.mzero f) s fun s c lit => do
    zeroLit lit
    let n := occKind f.kind 0
    needPanels c f.md false n
    let e := if f.kind = .empty ∨ f.kind = .lowRank then [] else zeroElems
    .ok (s.setCur (c.push (mkPend .m 1 (.tile f.md f.kind 0 (c.reserve f.md false n) e [] []))))

def execMmov (f : M1F) (s : State) : Outcome State Fault Refusal :=
  matOp (.mmov f) s fun s c lit => do
    zeroLit lit
    let t := c.tile f.ms1
    if f.md = f.ms1 then .ok s
    else
      needRank c t.rank
      needPanels c f.md false t.occ
      .ok (s.setCur (c.push (mkPend .m (latMmov t.occ) (.tile f.md t.kind t.rank (c.reserve f.md false t.occ) t.elems t.u t.v))))

/-- Row `r` of a tile that is not low-rank; an empty tile reads as zeros. -/
def Tile.row (t : Tile) (r : Nat) : Vec := elemsVec ((t.elems.drop (16 * r)).take 16)

def execMrd (f : MrwF) (s : State) : Outcome State Fault Refusal :=
  matOp (.mrd f) s fun s c lit => do
    zeroLit lit
    let t := c.tile f.md
    if t.kind = .lowRank then .error (kindFail c f.md)
    else .ok (s.setCur (c.push (mkPend .m 4 (.v (c.pv f.v) (BitVec.allOnes 1024) (t.row f.row.toNat)))))

def execMwr (f : MrwF) (s : State) : Outcome State Fault Refusal :=
  matOp (.mwr f) s fun s c lit => do
    zeroLit lit
    let t := c.tile f.md
    if t.kind = .lowRank then .error (kindFail c f.md)
    else
      if t.kind = .empty then needPanels c f.md false 32 else .ok ()
      .ok (s.setCur (c.push (mkPend .m 1 (.tileRow f.md f.row (c.reserve f.md false 32) (c.rv f.v)))))

/-! ### The engine's timeline (R199, R209) -/

/-- Put an operation behind the engine's others: it starts at max(c + 1, f') and retires D + 8 cycles later. -/
def Core.pushEng (c : Core) (o : EngOp) : Core :=
  let prev := c.t.eng.foldl (fun m e => max m e.left) 0
  let o := { o with left := max 1 (prev - 8) + o.dur + 8 }
  { c with t := { c.t with eng := c.t.eng ++ [o] } }.addTl

/-- An engine operation with the RM of its issue (R105). -/
def mkEng (c : Core) (dur : Nat) (md : MReg) (tiles : List MReg) (slots last : List OSlot) (reserved : List Nat)
    (res : EngRes) (flags : List Flags) (atRetire : Bool) : EngOp :=
  { left := 0, dur := dur, begun := false, done := 0, md := md, tiles := tiles, slots := slots, lastRead := last, reserved := reserved, rm := c.c.rm
    res := res, flags := flags, atRetire := atRetire, xdest := none }

/-! ### Products and sums (R101, R104, R106) -/

/-- A group's products over its selected pairs of elements, in F64 or W56 mode, summed exactly. -/
def groupFp (t : Fmt) (rm : Rm) (g : List (Nat × Nat)) : FVal × Flags :=
  sumVals rm (g.map (fun (a, b) => (fmtDecode t a).mul (fmtDecode t b)))

/-- An integer or L6 product in units of 2^-24; none for NaR. -/
def prodX (t : Fmt) (a b : Nat) : Option Int :=
  if t = .l6 then l6mul a b else some (sext a (Fmt.width t) * sext b (Fmt.width t) * 2 ^ 24)

/-- The sum of some products, where NaR contributes nothing, and whether there was one. -/
def groupX (t : Fmt) (g : List (Nat × Nat)) : Int × Bool :=
  g.foldl (fun (s, nan) (a, b) => match prodX t a b with
    | some p => (s + p, nan)
    | none => (s, true)) (0, false)

/-- The selected pairs of a row and a column in groups of four by their place in the dense extent. -/
def pairGroups (row : List (Option Nat)) (col : List Nat) : List (List (Nat × Nat)) :=
  (groups4 (row.zip col)).map (fun g => g.filterMap (fun (a, b) => a.map (fun v => (v, b))))

/-- One output element (R104): the new element and the IEEE flags of F64 mode. -/
def mmaElem (t : Fmt) (acc : Acc) (rm : Rm) (gs : List (List (Nat × Nat))) (e : DWord) : DWord × Flags :=
  match acc with
  | .f64 =>
    let (r, fl) := gs.foldl (fun a g => accF64 rm a (groupFp t rm g)) (e.toNat, 0)
    (BitVec.ofNat 64 r, fl)
  | .w56 =>
    let (r, fl) := gs.foldl (fun a g => accW56 rm a (groupFp t rm g)) (elemVal e, elemFlags e)
    (mkElem fl r, 0)
  | .x56 =>
    let (r, fl) := gs.foldl (fun a g => let (p, nan) := groupX t g; accX56 a p nan) (sext (elemVal e) 56, elemFlags e)
    (mkElem fl (zext r 56), 0)

/-- The block-scaled L6 element at the port (R106): partial p with exponent x. -/
def scaleElem (rm : Rm) (p : Int) (nan : Bool) (x : Int) (e : DWord) : DWord :=
  if nan then mkElem (elemFlags e ||| efNAN) w56.canonNaN
  else
    let (w, f1) := w56.round rm (decide (p < 0)) p.natAbs (x - 24)
    let (r, f2) := w56.addR rm (w56.decode (elemVal e)) (w56.decode w)
    mkElem (elemFlags e ||| efOf w f1 ||| efOf r f2) r

/-! ### Matrix forms (R195, R202) -/

/-- A form's element type, full extent and duration. -/
structure MmaForm where
  t : Fmt
  k : Nat
  d : Nat
  deriving DecidableEq, Repr

def mmaForm : Fmt → MmaForm
  | .f64 => ⟨.f64, 32, 128⟩
  | .f32 => ⟨.f32, 64, 128⟩
  | .bf16 => ⟨.bf16, 128, 128⟩
  | .f16 => ⟨.f16, 128, 128⟩
  | .i4 => ⟨.i4, 512, 128⟩
  | .l6 => ⟨.l6, 256, 64⟩
  | _ => ⟨.i8, 256, 64⟩

/-- R103 -/
def mmaAcc (t : Fmt) (a : Acc) : Bool :=
  match t with
  | .f64 | .f32 => a == .f64
  | .bf16 | .f16 => a == .w56
  | .l6 => a == .x56 || a == .w56
  | _ => a == .x56

/-- Output element (i, j) from the rows of A and the columns of B. Row i is absent for a skipped row block, and its elements run
the order of R104 with no product (R203). -/
def mmaAll (t : Fmt) (acc : Acc) (rm : Rm) (rows : List (Option (List (Option Nat)))) (cols : List (List Nat))
    (old : List DWord) : List (DWord × Flags) :=
  ((rows.zipIdx).map (fun (row, i) => (cols.zipIdx).map (fun (col, j) =>
    let e := old.getD (32 * i + j) 0
    mmaElem t acc rm (pairGroups (row.getD (col.map (fun _ => none))) col) e))).flatten

/-- The exact partials of the block-scaled form. -/
def mmaParts (rows : List (Option (List (Option Nat)))) (cols : List (List Nat)) : List (Int × Bool) :=
  (rows.map (fun row => cols.map (fun col =>
    match row with
    | some r => groupX .l6 (pairGroups r col).flatten
    | none => (0, false)))).flatten

/-- Flags of the eight blocks of 128 elements. -/
def blockFlags (l : List Flags) : List Flags :=
  (List.range 8).map (fun b => ((l.drop (128 * b)).take 128).foldl (· ||| ·) 0)

/-- Start a matrix operation whose checks have passed: slots locked, md busy, TL risen (R199, R200). -/
def State.startMma (s : State) (c : Core) (f : MaF) (m : MmaForm) (rows : List (Option (List (Option Nat)))) (k : Nat) :
    State :=
  let n := s.iss.core
  let t := c.tile f.md
  let old := if f.za || t.kind == .empty then zeroElems else t.elems
  let cols := (List.range 32).map (fun j =>
    let l := s.slotLine n f.osb j
    (List.range k).map (elemOf (Fmt.width m.t) l))
  let last := (if f.lra then [f.osa] else []) ++ (if f.lrb then [f.osb] else [])
  let panels := c.reserve f.md false 32
  let (res, fl) : EngRes × List Flags :=
    if m.t = .l6 ∧ c.c.acc = .w56 then (.scaled (mmaParts rows cols) old, [])
    else
      let r := mmaAll m.t c.c.acc c.c.rm rows cols old
      (.blocks .dense (r.map (·.1)), blockFlags (r.map (·.2)))
  s.setCur (c.pushEng (mkEng c m.d f.md [] [f.osa, f.osb] last panels res fl false))

/-- Checks 3 to 6 of R198. -/
def mmaChecks (c : Core) (f : MaF) (m : MmaForm) : Except Fail Unit := do
  if mmaAcc m.t c.c.acc then .ok () else .error ⟨0x42, (accCode c.c.acc).setWidth 64⟩
  needClaimed c f.osa
  needClaimed c f.osb
  let kd := (c.tile f.md).kind
  if f.za ∨ kd = .dense ∨ kd = .empty then .ok () else .error (kindFail c f.md)
  needPanels c f.md false 32

/-- A dense form (R196 to R198). -/
def denseMma (i : Instr) (f : MaF) (t : Fmt) (s : State) : Outcome State Fault Refusal :=
  matOpL i s (fun c _ => rowMarks c (allLines f.osa ++ allLines f.osb)) fun s c lit => do
    let m := mmaForm t
    let kt := (fld lit 0 10).toNat
    if fld lit 10 22 ≠ 0 ∨ m.k < kt then .error ⟨0x07, lit.setWidth 64⟩ else .ok ()
    mmaChecks c f m
    let k := if kt = 0 then m.k else kt
    let rows := (List.range 32).map (fun i =>
      let l := s.slotLine s.iss.core f.osa i
      some ((List.range k).map (fun q => some (elemOf (Fmt.width t) l q))))
    .ok (s.startMma c f m rows k)

def execMmaF64 (f : MaF) (s : State) : Outcome State Fault Refusal := denseMma (.mmaF64 f) f .f64 s
def execMmaF32 (f : MaF) (s : State) : Outcome State Fault Refusal := denseMma (.mmaF32 f) f .f32 s
def execMmaBf16 (f : MaF) (s : State) : Outcome State Fault Refusal := denseMma (.mmaBf16 f) f .bf16 s
def execMmaF16 (f : MaF) (s : State) : Outcome State Fault Refusal := denseMma (.mmaF16 f) f .f16 s
def execMmaI8 (f : MaF) (s : State) : Outcome State Fault Refusal := denseMma (.mmaI8 f) f .i8 s
def execMmaI4 (f : MaF) (s : State) : Outcome State Fault Refusal := denseMma (.mmaI4 f) f .i4 s
def execMmaL6 (f : MaF) (s : State) : Outcome State Fault Refusal := denseMma (.mmaL6 f) f .l6 s

/-! ### Structured-sparse forms (R202, R203) -/

/-- The element type that a sparse literal names. -/
def sparseType (et : BitVec 4) : Option Fmt :=
  match et.toNat with
  | 0 => some .f64 | 1 => some .f32 | 2 => some .bf16 | 3 => some .f16 | 7 => some .i8 | 9 => some .l6
  | _ => none

/-- Rows of A whose row block is not skipped. -/
def keptRows (lit : Word) : List Nat := (List.range 32).filter (fun i => !bit lit (4 + i / 4))

/-- Metadata index q of a line. -/
def State.metaIdx (s : State) (n : Nat) (os : OSlot) (line q : Nat) : Nat := s.nat (sideKey n os line) 32 / 4 ^ q % 4

/-- The dense row of kept values (R203): positions of whole groups below k. -/
def State.sparseRow (s : State) (n : Nat) (os : OSlot) (per w k line : Nat) : List (Option Nat) :=
  let l := s.slotLine n os line
  (List.range k).map (fun kk =>
    if k / 4 * 4 ≤ kk then none
    else
      let g := kk / 4
      ((List.range per).filterMap (fun t =>
        if s.metaIdx n os line (per * g + t) = kk % 4 then some (elemOf w l (per * g + t)) else none)).getLast?)

/-- Checks of R203 on the lines of the row blocks that are not skipped. -/
def State.checkMeta (s : State) (c : Core) (os : OSlot) (per k : Nat) (rows : List Nat) : Except Fail Unit :=
  let tv (l : Nat) : DWord := BitVec.ofNat 64 (os.toNat * 256 + l)
  match rows.find? (fun i => !bit (c.slot os).verified i) with
  | some i => .error ⟨0x45, tv i⟩
  | none =>
    let bad (i : Nat) : Bool := (List.range (k / 4)).any (fun g =>
      decide (s.metaIdx s.iss.core os i (2 * g + 1) ≤ s.metaIdx s.iss.core os i (2 * g)))
    match (if per = 2 then rows.find? bad else none) with
    | some i => .error ⟨0x46, tv i⟩
    | none => .ok ()

/-- A sparse form keeping `per` values of each four. -/
def sparseMma (i : Instr) (f : MaF) (per : Nat) (s : State) : Outcome State Fault Refusal :=
  matOpL i s (fun c lit => rowMarks c ((keptRows lit).map (fun l => (f.osa, l)) ++ allLines f.osb)) fun s c lit => do
    let bad : Fail := ⟨0x07, lit.setWidth 64⟩
    match sparseType (fld lit 0 4) with
    | none => .error bad
    | some t =>
      let m := mmaForm t
      let kt := (fld lit 12 10).toNat
      if fld lit 22 10 ≠ 0 ∨ m.k < kt then .error bad else .ok ()
      mmaChecks c f m
      let k := if kt = 0 then m.k else kt
      s.checkMeta c f.osa per k (keptRows lit)
      let rows := (List.range 32).map (fun i =>
        if bit lit (4 + i / 4) then none else some (s.sparseRow s.iss.core f.osa per (Fmt.width t) k i))
      .ok (s.startMma c f m rows k)

def execMmaS24 (f : MaF) (s : State) : Outcome State Fault Refusal := sparseMma (.mmaS24 f) f 2 s
def execMmaS14 (f : MaF) (s : State) : Outcome State Fault Refusal := sparseMma (.mmaS14 f) f 1 s

end Sys2Proof.Machine
end

