-- ==== Sys2Proof/Machine/Butterfly.lean ====
section
/-! DEFINITION. Complex tiles and the butterfly operations (R220 to R230). -/

namespace Sys2Proof.Machine

open Host (Outcome)

/-! ### Points (R220) and the radix sequence (R221) -/

/-- Bit patterns of a point's real and imaginary parts. -/
abbrev Pt := Nat × Nat

def pointCount (wide : Bool) : Nat := if wide then 512 else 1024
def cxFmt (wide : Bool) : FpFmt := if wide then fp64 else fp32
def cxKind (wide : Bool) : TileKind := if wide then .complex128 else .complex64

/-- The points of 1,024 elements. -/
def toPoints (wide : Bool) (e : List DWord) : List Pt :=
  (List.range (pointCount wide)).map (fun n =>
    if wide then ((e.getD (2 * n) 0).toNat, (e.getD (2 * n + 1) 0).toNat)
    else let d := (e.getD n 0).toNat; (d % 2 ^ 32, d / 2 ^ 32))

def ofPoints (wide : Bool) (p : List Pt) : List DWord :=
  if wide then p.flatMap (fun (r, i) => [BitVec.ofNat 64 r, BitVec.ofNat 64 i])
  else p.map (fun (r, i) => BitVec.ofNat 64 (r % 2 ^ 32 + i * 2 ^ 32))

def radixOf (code : Nat) : Option Nat :=
  match code with
  | 1 => some 2 | 2 => some 3 | 3 => some 4 | 4 => some 5 | 5 => some 8
  | _ => none

/-- The radices of RSEQ; none where a code among the first COUNT is no radix. -/
def radices (r : BitVec 34) : Option (List Nat) :=
  (List.range (fld r 30 4).toNat).mapM (fun s => radixOf (fld r (3 * s) 3).toNat)

/-- The RSEQ checks of R223 for P points. -/
def seqOf (r : BitVec 34) (p : Nat) : Option (List Nat) :=
  match radices r with
  | some l => if l.isEmpty ∨ p < l.prod then none else some l
  | none => none

/-! ### Exact complex arithmetic (R224, R226) -/

/-- The four exact products of a point and a twiddle factor, as terms of the two parts. -/
def cmulTerms (f : FpFmt) (x : Pt) (w : FVal × FVal) : List (FVal × Flags) × List (FVal × Flags) :=
  let a := f.decode x.1
  let b := f.decode x.2
  ([a.mul w.1, b.neg.mul w.2], [a.mul w.2, b.mul w.1])

/-- A part as its exact sum. -/
def partSum (t : List (FVal × Flags)) : FVal × Flags := sumVals .rne t

/-- cround of y * 2^x / d: an exact zero is +0, or -0 under RDN (R226). -/
def cround (f : FpFmt) (rm : Rm) (d : Nat) (x : Int) (v : FVal × Flags) : Nat × Flags :=
  match v with
  | (.fin _ 0 _, fl) => (f.zeroBits (rm == .rdn), fl)
  | (.fin n m e, fl) =>
    let (m', e', st) := if d = 1 then (m, e + x, false) else divSticky (f.fb + 8) m d (e + x)
    let (b, g) := f.round rm n m' e' st
    (b, fl ||| g)
  | v => f.put rm v

/-- Exact parts of every output of a stage, by point; the tail is absent (R221, R224). -/
def stageParts (f : FpFmt) (inv : Bool) (rads : List Nat) (s : Nat) (pts : List Pt) : List ((FVal × Flags) × (FVal × Flags)) :=
  let r := rads.getD s 1
  let lp := (rads.take s).prod
  let l := lp * r
  let nn := rads.prod
  let tws := ((List.range l).map (fun m => twiddle f inv m l)).toArray
  let arr := pts.toArray
  (List.range (pts.length / nn * nn)).map (fun p =>
    let base := p / nn * nn
    let q := p % nn
    let bk := q / l
    let uu := q % l / lp
    let j := q % lp
    let terms := (List.range r).map (fun tt =>
      cmulTerms f (arr.getD (base + bk * l + tt * lp + j) (0, 0)) (tws.getD (tt * (j + uu * lp) % l) (.zero, .zero)))
    (partSum (terms.flatMap (·.1)), partSum (terms.flatMap (·.2))))

/-- R225: the least e with every part below 2^e in magnitude; 0 where a part is NaN or infinite. -/
def blockExp (parts : List FVal) : Nat :=
  let need : FVal → Option Nat
    | .fin _ m e => some (if m = 0 then 0 else ((Nat.log2 m : Int) + e + 1).toNat)
    | _ => none
  match parts.mapM need with
  | some l => l.foldl max 0
  | none => 0

/-! ### MBFLY (R223 to R225) -/

/-- A complex result on the engine. -/
def Core.startComplex (c : Core) (d : Nat) (md : MReg) (tiles : List MReg) (slots : List OSlot) (wide : Bool) (pts : List Pt)
    (fl : Flags) (xd : Option (XReg × DWord)) : Core :=
  c.pushEng { mkEng c d md tiles slots [] (c.reserve md (tiles.contains md) 32)
      (.blocks (cxKind wide) (ofPoints wide pts)) [fl] true with xdest := xd }

def needComplex (c : Core) (m : MReg) (wide : Bool) : Except Fail Unit :=
  if (c.tile m).kind = cxKind wide then .ok () else .error (kindFail c m)

def mbfly (i : Instr) (f : MbF) (wide : Bool) (s : State) : Outcome State Fault Refusal :=
  matOp i s fun s c lit => do
    let stage := (fld lit 0 4).toNat
    let scale := (fld lit 4 2).toNat
    if fld lit 7 25 ≠ 0 ∨ 10 ≤ stage then .error ⟨0x07, lit.setWidth 64⟩ else .ok ()
    needComplex c f.ms1 wide
    match seqOf c.c.rseq (pointCount wide) with
    | none => .error ⟨0x47, lit.setWidth 64⟩
    | some rads =>
      if rads.length ≤ stage then .error ⟨0x47, lit.setWidth 64⟩ else .ok ()
      needPanels c f.md (f.md = f.ms1) 32
      let fm := cxFmt wide
      let r := rads.getD stage 1
      let pts := toPoints wide (c.tile f.ms1).elems
      let ys := stageParts fm (bit lit 6) rads stage pts
      let e := if scale = 3 then blockExp (ys.flatMap (fun (a, b) => [a.1, b.1])) else 0
      let (d, x) : Nat × Int := match scale with
        | 0 => (1, 0)
        | 1 => (1, -1)
        | 2 => (r, 0)
        | _ => (1, -(e : Int))
      let out := ys.map (fun (a, b) => (cround fm c.c.rm d x a, cround fm c.c.rm d x b))
      let fl := out.foldl (fun g (a, b) => g ||| a.2 ||| b.2) 0
      let pts' := out.map (fun (a, b) => (a.1, b.1)) ++ pts.drop out.length
      .ok (s.setCur (c.startComplex (16 + 8 * r) f.md [f.ms1] [] wide pts' fl
        (if scale = 3 then some (f.xs, BitVec.ofNat 64 e) else none)))

def execMbflyC64 (f : MbF) (s : State) : Outcome State Fault Refusal := mbfly (.mbflyC64 f) f false s
def execMbflyC128 (f : MbF) (s : State) : Outcome State Fault Refusal := mbfly (.mbflyC128 f) f true s

/-! ### MBREV (R227) -/

/-- rev(pos): digits of `pos`, least first, weighed in the reverse order. -/
def revPos : List Nat → Nat → Nat
  | [], _ => 0
  | r :: rest, pos => pos % r * rest.prod + revPos rest (pos / r)

/-- The permutation of a tile's points; tail points stay. -/
def permute (inv : Bool) (rads : List Nat) (pts : List Pt) : List Pt :=
  let nn := rads.prod
  let arr := pts.toArray
  let table := (List.range nn).map (revPos rads)
  let back := (List.range nn).map (fun q => (table.findIdx? (· == q)).getD 0)
  let src := (if inv then back else table).toArray
  (List.range pts.length).map (fun p =>
    if p < pts.length / nn * nn then arr.getD (p / nn * nn + src.getD (p % nn) 0) (0, 0) else arr.getD p (0, 0))

def execMbrev (f : MbrevF) (s : State) : Outcome State Fault Refusal :=
  matOpL (.mbrev f) s (fun c lit => if bit lit 0 then rowMarks c (allLines f.os) else []) fun s c lit => do
    let slot := bit lit 0
    let wide := bit lit 2
    if fld lit 4 28 ≠ 0 then .error ⟨0x07, lit.setWidth 64⟩ else .ok ()
    if slot then needClaimed c f.os else needComplex c f.ms1 wide
    match (if bit lit 3 then some [1] else seqOf c.c.rseq (pointCount wide)) with
    | none => .error ⟨0x47, lit.setWidth 64⟩
    | some rads =>
      let src := !slot && f.md == f.ms1
      needPanels c f.md src 32
      let elems := if slot then
          (List.range 32).flatMap (fun l => (List.range 32).map (fun k => BitVec.ofNat 64 (elemOf 64 (s.slotLine s.iss.core f.os l) k)))
        else (c.tile f.ms1).elems
      let pts := permute (bit lit 1) rads (toPoints wide elems)
      .ok (s.setCur (c.startComplex 40 f.md (if slot then [] else [f.ms1]) (if slot then [f.os] else []) wide pts 0 none))

/-! ### MTWMUL (R228, R229) -/

def mtwmul (i : Instr) (f : MbF) (wide : Bool) (s : State) : Outcome State Fault Refusal :=
  matOp i s fun s c lit => do
    let logc := (fld lit 0 5).toNat
    let rowb := (fld lit 5 20).toNat
    if fld lit 26 6 ≠ 0 ∨ 10 < logc then .error ⟨0x07, lit.setWidth 64⟩ else .ok ()
    needComplex c f.ms1 wide
    let n6 := (c.rx f.xs).toNat
    if n6 = 0 ∨ 2 ^ 20 < n6 ∨ pointCount wide < 2 ^ logc then .error ⟨0x47, lit.setWidth 64⟩ else .ok ()
    needPanels c f.md (f.md = f.ms1) 32
    let fm := cxFmt wide
    let out := ((toPoints wide (c.tile f.ms1).elems).zipIdx).map (fun (x, p) =>
      let w := twiddle fm (bit lit 25) ((rowb + p / 2 ^ logc) * (p % 2 ^ logc) % n6) n6
      let (re, im) := cmulTerms fm x w
      (cround fm c.c.rm 1 0 (partSum re), cround fm c.c.rm 1 0 (partSum im)))
    let fl := out.foldl (fun g (a, b) => g ||| a.2 ||| b.2) 0
    .ok (s.setCur (c.startComplex 24 f.md [f.ms1] [] wide (out.map (fun (a, b) => (a.1, b.1))) fl none))

def execMtwmulC64 (f : MbF) (s : State) : Outcome State Fault Refusal := mtwmul (.mtwmulC64 f) f false s
def execMtwmulC128 (f : MbF) (s : State) : Outcome State Fault Refusal := mtwmul (.mtwmulC128 f) f true s

end Sys2Proof.Machine
end

