-- ==== Sys2Proof/Machine/Caps.lean ====
section
/-! DEFINITION. Capability instructions (R168 to R172). -/

namespace Sys2Proof.Machine

open Host (Outcome)

def needTag (perm : BitVec 8) : Need := { spaces := spacesTagged, perm := perm, align := 32 }

/-- CLDH: SPAD after three cycles, elsewhere on arrival (R169). -/
def execCldh (f : CmF) (s : State) : Outcome State Fault Refusal :=
  slotOpS (.cldh f) s fun s c => do
    let off := (s.offset (.cldh f)).toNat
    s.check s.iss.core c f.hb (needTag (permR ||| permL)) off 32
    let cap := c.rh f.hb
    if capSpace cap = spSpad then
      let k := s.place s.iss.core cap (capBase cap + off)
      let (v, ms) := s.spadLoad cap [(0, capBase cap + off, 32)]
      let v := BitVec.ofNat 256 v
      let t := s.spadOk s.iss.core && s.readTag s.iss.core 3 k
      .ok ((s.spadRead cap (capBase cap + off)).setCur (c.push (mkPend s.iss.slot 3 (if ms != 0 then .hMarked f.ha v t else .h f.ha v t))))
    else .ok (s.setCur (c.issueAcc { s.mkAccess (.cldh f.ha) cap off with carries := none, counted := false }))

/-- CSTH: the granule and its tag in one write (R166). -/
def execCsth (f : CmF) (s : State) : Outcome State Fault Refusal :=
  slotOpS (.csth f) s fun s c => do
    let off := (s.offset (.csth f)).toNat
    s.check s.iss.core c f.hb (needTag (permW ||| permS)) off 32
    let cap := c.rh f.hb
    let v := c.rh f.ha
    let t := c.rhtag f.ha
    let k := s.place s.iss.core cap (capBase cap + off)
    if capSpace cap = spSpad then .ok (s.spadStore k (fun s => s.storeTagged k v t))
    else .ok (s.setCur (c.issueAcc (s.mkAccess (.csth v t) cap off)))

/-- A capability with new bounds and permissions (R170). -/
def narrowed (h : Cap) (a l : Nat) (keep : BitVec 7) : Cap :=
  let perm : BitVec 8 := capPerm h &&& (bit keep 6 |> fun d => BitVec.ofBool d ++ BitVec.ofBool (bit keep 5) ++ 0#1 ++ fld keep 0 5)
  fld h 104 152 ++ perm ++ BitVec.ofNat 48 l ++ BitVec.ofNat 48 (capBase h + a)

/-- Every space but the reserved one. -/
def spacesAny : List Nat := [0, 1, 2, 3, 4, 5, 6]

def execCnarrow (f : CnF) (s : State) : Outcome State Fault Refusal :=
  slotOp (.cnarrow f) s fun c => do
    let a := c.rx f.xa
    let l := c.rx f.xb
    checkHandle c f.hb spacesAny a
    checkRights c f.hb permD a
    let h := c.rh f.hb
    if 2 ^ 48 ≤ a.toNat ∨ 2 ^ 48 ≤ l.toNat ∨ capLen h < a.toNat + l.toNat then .error ⟨0x26, a⟩
    else .ok (c.push (mkPend s.iss.slot 1 (.h f.ha (narrowed h a.toNat l.toNat f.perm) true)))

/-- The field that a CGET selector names (R171). -/
def capField (h : Cap) (tag : Bool) (sel : Nat) : DWord :=
  match sel with
  | 0 => (fld h 0 48).setWidth 64
  | 1 => (fld h 48 48).setWidth 64
  | 2 => (fld h 96 8).setWidth 64
  | 3 => (fld h 104 3).setWidth 64
  | 4 => (fld h 107 3).setWidth 64
  | 5 => (fld h 110 12).setWidth 64
  | 6 => (fld h 122 16).setWidth 64
  | 7 => (fld h 138 16).setWidth 64
  | 8 => (fld h 154 16).setWidth 64
  | _ => if tag then 1 else 0

def execCget (f : CgF) (s : State) : Outcome State Fault Refusal :=
  slotOp (.cget f) s fun c =>
    .ok (c.push (mkPend s.iss.slot 1 (.x f.xa (capField (c.rh f.hb) (c.rhtag f.hb) f.sel.toNat))))

def execCmov (f : CvF) (s : State) : Outcome State Fault Refusal :=
  slotOp (.cmov f) s fun c => .ok (c.push (mkPend s.iss.slot 1 (.h f.ha (c.rh f.hb) (c.rhtag f.hb))))

def execCclr (ha : HReg) (s : State) : Outcome State Fault Refusal :=
  slotOp (.cclr ha) s fun c => .ok (c.push (mkPend s.iss.slot 1 (.h ha 0 false)))

end Sys2Proof.Machine
end

