-- ==== Sys2Proof/Machine/Copy.lean ====
section
/-! DEFINITION. The copy engines (R239 to R248, R432, R433): cards, submission, the order of a die's jobs, rows,
completion, and the CA and CB operations. The weight programming engine's jobs share submission and order (R239, R304). -/

namespace Sys2Proof.Machine

open Host (Outcome)

/-! ### Cards (R240) -/

/-- A field of a card. -/
def cardNat (card : BitVec 512) (lo w : Nat) : Nat := card.toNat / 2 ^ lo % 2 ^ w
def cardInt (card : BitVec 512) (lo w : Nat) : Int := sext (cardNat card lo w) w

/-- A count field; 0 means 65,536. -/
def cardCount (card : BitVec 512) (lo : Nat) : Nat := if cardNat card lo 16 = 0 then 65536 else cardNat card lo 16

/-- A copy job card (R240). -/
structure CopyCard where
  kind : Nat
  et : Nat
  rop : Nat
  nd : Nat
  sig : Bool
  tags : Bool
  fpm : Nat
  sscope : Nat
  sh : Nat
  dh : Nat
  ah : Nat
  gh : Nat
  soff : Nat
  doff : Nat
  aoff : Nat
  goff : Nat
  e0 : Nat
  e1 : Nat
  e2 : Nat
  e3 : Nat
  ss1 : Int
  ss2 : Int
  ss3 : Int
  ds1 : Int
  ds2 : Int
  ds3 : Int
  deriving DecidableEq, Repr

def copyCard (k : BitVec 512) : CopyCard :=
  { kind := cardNat k 0 8, et := cardNat k 8 4, rop := cardNat k 12 2, nd := cardNat k 14 2
    sig := cardNat k 16 1 == 1, tags := cardNat k 17 1 == 1, fpm := cardNat k 18 3, sscope := cardNat k 21 3
    sh := cardNat k 24 4, dh := cardNat k 28 4, ah := cardNat k 32 4, gh := cardNat k 36 4
    soff := cardNat k 64 48, doff := cardNat k 112 48, aoff := cardNat k 160 48, goff := cardNat k 208 48
    e0 := cardCount k 256, e1 := cardCount k 272, e2 := cardCount k 288, e3 := cardCount k 304
    ss1 := cardInt k 320 32, ss2 := cardInt k 352 32, ss3 := cardInt k 384 32
    ds1 := cardInt k 416 32, ds2 := cardInt k 448 32, ds3 := cardInt k 480 32 }

def kCopy : Nat := 1
def kGather : Nat := 2
def kScatter : Nat := 3
def kReduce : Nat := 4
def kBroadcast : Nat := 5
def kFill : Nat := 6

def CopyCard.hasSrc (k : CopyCard) : Bool := k.kind != kFill
def CopyCard.indexed (k : CopyCard) : Bool := k.kind == kGather || k.kind == kScatter

/-- Bytes of an element of a REDUCE card. -/
def etBytes (et : Nat) : Nat := Fmt.width (etFmt et) / 8

def scopeOfNat (n : Nat) : Scope :=
  match n with
  | 0 => .core | 1 => .cluster | 2 => .die | 3 => .package | _ => .domain

/-- A handle that a card names: its value and tag. A COPY packet's handle 0 is none (R332). -/
abbrev Handles := Nat → Option (Cap × Bool)

def Handles.cap (hs : Handles) (n : Nat) : Cap := ((hs n).map (·.1)).getD 0

/-- All of a list of integers are multiples of z. -/
def multiples (z : Nat) (l : List Int) : Bool := l.all (fun v => v % (z : Int) == 0)

/-- The strides of a card. -/
def CopyCard.strides (k : CopyCard) : List Int := [k.ss1, k.ss2, k.ss3, k.ds1, k.ds2, k.ds3]

/-- R242: what TAGS = 1 asks. A row's address is its capability's base and its offset (log 30). -/
def CopyCard.tagsOk (k : CopyCard) (hs : Handles) : Bool :=
  let s := hs.cap k.sh
  let d := hs.cap k.dh
  [kCopy, kGather, kScatter, kBroadcast].contains k.kind &&
    multiples 32 ([(k.e0 : Int), capBase s + k.soff, capBase d + k.doff] ++ k.strides) &&
    spacesTagged.contains (capSpace s) && spacesTagged.contains (capSpace d) &&
    capPerm s &&& permL == permL && capPerm d &&& permS == permS

/-- R241: the alignment of a REDUCE card and of its capabilities. -/
def CopyCard.reduceOk (k : CopyCard) (hs : Handles) : Bool :=
  multiples (etBytes k.et)
    ([(k.e0 : Int), (k.soff : Int), (k.doff : Int), (capBase (hs.cap k.sh) : Int), (capBase (hs.cap k.dh) : Int)] ++ k.strides)

/-- Counts and strides of the dimensions above ND are 1 and 0 (R240); dimension 0 is the row. -/
def CopyCard.dimsOk (k : CopyCard) : Bool :=
  (decide (1 ≤ k.nd) || (k.e1 == 1 && k.ss1 == 0 && k.ds1 == 0)) &&
    (decide (2 ≤ k.nd) || (k.e2 == 1 && k.ss2 == 0 && k.ds2 == 0)) &&
    (decide (3 ≤ k.nd) || (k.e3 == 1 && k.ss3 == 0 && k.ds3 == 0))

/-- R240, and ND = 1 of GATHER and SCATTER (R241). -/
def CopyCard.ndOk (k : CopyCard) : Bool := (!k.indexed || k.nd == 1) && k.dimsOk

/-- Step 3 of R243. -/
def CopyCard.wellFormed (card : BitVec 512) (hs : Handles) : Bool :=
  let k := copyCard card
  cardNat card 40 24 == 0 && decide (1 ≤ k.kind) && decide (k.kind ≤ 6) && k.rop != 3 && decide (k.et ≤ 5) &&
    decide (k.sscope ≤ 4) && (k.kind != kFill || decide (k.soff < 2 ^ 32)) && (k.kind != kBroadcast || k.ss3 == 0) &&
    k.ndOk && (!k.tags || k.tagsOk hs) && (k.kind != kReduce || k.reduceOk hs)

/-! ### Intervals and handle checks (R243) -/

/-- Lowest byte and length of what rows touch. -/
def boxOf (off : Nat) (ss : List (Int × Nat)) (e0 : Nat) : Int × Nat :=
  let lo := ss.foldl (fun a (s, c) => a + min 0 (s * ((c : Int) - 1))) (off : Int)
  let hi := ss.foldl (fun a (s, c) => a + max 0 (s * ((c : Int) - 1))) (off : Int)
  (lo, (hi - lo).toNat + e0)

def CopyCard.srcBox (k : CopyCard) : Int × Nat := boxOf k.soff [(k.ss1, k.e1), (k.ss2, k.e2), (k.ss3, k.e3)] k.e0
def CopyCard.dstBox (k : CopyCard) : Int × Nat := boxOf k.doff [(k.ds1, k.e1), (k.ds2, k.e2), (k.ds3, k.e3)] k.e0

/-- R167 on a captured capability, over an interval. `n` is the submitting core; a COPY packet has none, and reaches
neither SPAD nor CLUS (R332). -/
def State.checkCap (s : State) (n : Option Nat) (ref : BitVec 16) (h : Option (Cap × Bool)) (nd : Need) (lo : Int) (z : Nat) :
    Except Fail Unit :=
  let tv := BitVec.ofInt 64 (lo % 2 ^ 48)
  match h with
  | none => .error ⟨0x81, 0⟩
  | some (cap, tag) =>
    if !tag then .error ⟨0x20, tv⟩
    else if !nd.spaces.contains (capSpace cap) || (n.isNone && capSpace cap ≤ 1) then .error ⟨0x21, tv⟩
    else if fld cap 170 86 ≠ 0 ∨ 4 ≤ capPolicy cap then .error ⟨0x22, tv⟩
    else if capCtx cap ≠ ref then .error ⟨0x23, tv⟩
    else if capPerm cap &&& nd.perm ≠ nd.perm then .error ⟨0x24, tv⟩
    else if lo % (nd.align : Int) ≠ 0 then .error ⟨0x25, tv⟩
    else if lo < 0 ∨ (capLen cap : Int) < lo + z ∨ (spaceEnd cap : Int) < capBase cap + lo + z then .error ⟨0x26, tv⟩
    else if capSpace cap = spClus ∧ (s.clusSize (clusterOf (n.getD 0)) : Int) < capBase cap + lo + z then .error ⟨0x26, tv⟩
    else .ok ()

def spacesSrc : List Nat := [0, 1, 2, 3, 4, 5]

/-- The interval of an indexed side is the whole capability. -/
def wholeBox (cap : Cap) : Int × Nat := (0, capLen cap)

/-- Step 4 of R243 for a copy card. DESIGN CHOICE (logs 85, 94): the spec names no spaces for AH and GH; the index array may lie
where a source may, and the signal word where an atomic may act. Nor does it give the order of one card's handles, which decides the
cause where two fail: here SH, DH, AH, GH. -/
def State.checkCopyHandles (s : State) (n : Option Nat) (ref : BitVec 16) (k : CopyCard) (hs : Handles) : Except Fail Unit := do
  let lperm := if k.tags then permL else 0
  let sperm := if k.tags then permS else 0
  if k.hasSrc then
    let (lo, z) := if k.kind = kGather then wholeBox (hs.cap k.sh) else k.srcBox
    s.checkCap n ref (hs k.sh) { spaces := spacesSrc, perm := permR ||| lperm, align := 1 } lo z
  let (lo, z) := if k.kind = kScatter then wholeBox (hs.cap k.dh) else k.dstBox
  let nd : Need :=
    if k.kind = kReduce then { spaces := spacesAtomic, perm := permR ||| permW ||| permA, align := 1 }
    else { spaces := spacesStore, perm := permW ||| sperm, align := 1 }
  s.checkCap n ref (hs k.dh) nd lo z
  if k.indexed then s.checkCap n ref (hs k.ah) { spaces := spacesSrc, perm := permR, align := 4 } k.aoff (4 * k.e1)
  if k.sig then s.checkCap n ref (hs k.gh) { spaces := spacesAtomic, perm := permW ||| permA, align := 8 } k.goff 8

/-- Steps 3 and 4 of R243; `coff` is the card offset that the job-card trap reports. -/
def State.checkCopyCard (s : State) (n : Option Nat) (ref : BitVec 16) (card : BitVec 512) (hs : Handles) (coff : Nat) :
    Except Fail Unit :=
  if CopyCard.wellFormed card hs then s.checkCopyHandles n ref (copyCard card) hs else .error ⟨0x81, BitVec.ofNat 64 coff⟩

/-! ### Jobs and their owners -/

def State.findJob (s : State) (id : Nat) : Option Job := s.dev.jobs.find? (·.id == id)
def State.setJob (s : State) (j : Job) : State :=
  { s with dev := { s.dev with jobs := s.dev.jobs.map (fun k => if k.id = j.id then j else k) } }
def State.dropJob (s : State) (id : Nat) : State := { s with dev := { s.dev with jobs := s.dev.jobs.filter (·.id != id) } }

/-- Change the state of a task where it stands: on its core or pre-empted. -/
def State.updTask (s : State) (uid : Nat) (f : Core → Core) : State :=
  let mine (c : Core) : Bool := c.task.any (·.uid == uid)
  { s with
    cores := s.cores.map (fun (n, c) => (n, if mine c && c.alive then f c else c))
    dev := { s.dev with sched := { s.dev.sched with
      saved := s.dev.sched.saved.map (fun v => if v.task.uid = uid then { v with core := f v.core } else v) } } }

/-- The 64 most recent tickets have an exact status (R247). -/
def ticketRecent (next num : BitVec 16) : Bool := decide (1 ≤ (next - num).toNat) && decide ((next - num).toNat ≤ 64)

/-- The task learns of the end of a job: CP falls and the ticket keeps its outcome (R245, R246). -/
def Core.jobEnd (c : Core) (t : Ticket) : Core :=
  { c.subCp with m := { c.m with tickets := (c.m.tickets.filter (fun k => ticketRecent c.m.ticket k.num)) ++ [t] } }

/-- A packet's job ends: its writes are among those that the packet's completion and a later FENCE make known (R331, R332). -/
def State.packetEnds (s : State) (j : Job) (pid : Nat) (cause : BitVec 8) : State :=
  (s.setMs { s.dev.ms with taskClock := Clock.join s.dev.ms.taskClock (s.clock j.die) }).packetOutcome pid cause

/-- A job has completed (R245). -/
def State.jobDone (s : State) (j : Job) : State :=
  let s := s.dropJob j.id
  match j.owner with
  | .task uid => s.updTask uid (fun c => c.jobEnd { num := j.ticket, rows := j.rows, state := 2, cause := 0 })
  | .packet pid => s.packetEnds j pid 0

/-- A job ends with a fault (R246): the ticket reads FAULT and the task takes the copy fault; a packet is aborted (R332). -/
def State.jobFault (s : State) (j : Job) (cause : BitVec 8) : State :=
  let s := s.dropJob j.id
  match j.owner with
  | .task uid => s.updTask uid (fun c =>
      (c.jobEnd { num := j.ticket, rows := j.rows, state := 3, cause := cause }).defer
        (deferred 0x80 (0#40 ++ cause ++ j.ticket : BitVec 64) j.slot))
  | .packet pid => s.packetEnds j pid cause

/-- A cancelled job: no signal, no trap (R248). -/
def State.jobCancelled (s : State) (j : Job) : State :=
  let s := s.dropJob j.id
  match j.owner with
  | .task uid => s.updTask uid (fun c => c.jobEnd { num := j.ticket, rows := j.rows, state := 3, cause := 0 })
  | .packet _ => s

/-- Live jobs of a task. -/
def State.taskJobs (s : State) (uid : Nat) : List Nat := (s.dev.jobs.filter (fun j => j.owner = .task uid)).map (·.id)

/-! ### Footprints and order (R244) -/

/-- A region: whether it is written, its space, unit and key slot, its addresses, and ET and ROP of a REDUCE
destination. -/
structure Region where
  wr : Bool
  space : Nat
  unit : Nat
  key : Nat
  lo : Int
  hi : Int
  red : Option (Nat × Nat)
  deriving DecidableEq, Repr

def regionOf (core die : Nat) (wr : Bool) (cap : Cap) (lo : Int) (z : Nat) (red : Option (Nat × Nat)) : Region :=
  let sp := capSpace cap
  { wr := wr, space := sp
    unit := if sp = spSpad then core else if sp = spClus then clusterOf core else if sp = spWgt then die else 0
    key := if sp = spHost ∨ sp = spPeer then capKey cap else 0
    lo := capBase cap + lo, hi := capBase cap + lo + z, red := red }

/-- The regions of a copy job that FPM selects. -/
def copyRegions (j : Job) (card : BitVec 512) : List Region :=
  let k := copyCard card
  let (sl, sz) := if k.kind = kGather then wholeBox j.sh else k.srcBox
  let (dl, dz) := if k.kind = kScatter then wholeBox j.dh else k.dstBox
  let red := if k.kind = kReduce then some (k.et, k.rop) else none
  (if bit (BitVec.ofNat 3 k.fpm) 0 && k.hasSrc then [regionOf j.core j.die false j.sh sl sz none] else []) ++
  (if bit (BitVec.ofNat 3 k.fpm) 1 then
    (if k.indexed then [regionOf j.core j.die false j.ah k.aoff (4 * k.e1) none]
     else if k.kind = kReduce then [regionOf j.core j.die false j.dh dl dz red] else []) else []) ++
  (if bit (BitVec.ofNat 3 k.fpm) 2 then [regionOf j.core j.die true j.dh dl dz red] else [])

/-! ### WPE cards (R301 to R304) -/

/-- A WPE card (R301). -/
structure WpeCard where
  kind : Nat
  count : Nat
  side : Bool
  sig : Bool
  fpm : Nat
  sscope : Nat
  sh : Nat
  dh : Nat
  mh : Nat
  gh : Nat
  soff : Nat
  doff : Nat
  moff : Nat
  goff : Nat
  deriving DecidableEq, Repr

def wpeCard (k : BitVec 512) : WpeCard :=
  { kind := cardNat k 0 8, sig := cardNat k 20 1 == 1, side := cardNat k 21 1 == 1, fpm := cardNat k 22 3
    sscope := cardNat k 25 3, sh := cardNat k 28 4, dh := cardNat k 32 4, mh := cardNat k 36 4, gh := cardNat k 40 4
    count := cardNat k 44 20, soff := cardNat k 64 48, doff := cardNat k 112 48, moff := cardNat k 160 48
    goff := cardNat k 208 48 }

def kRows : Nat := 1
def kBlocks : Nat := 2
def kInspect : Nat := 3
def kUnmap : Nat := 4

/-- Bytes of the WGT interval. -/
def WpeCard.span (k : WpeCard) : Nat := (if k.kind = kRows then 64 else 256) * k.count
/-- Blocks that the job touches, with the address DOFF forms through DH. -/
def WpeCard.blocks (k : WpeCard) (base : Nat) : Nat :=
  let a := base + k.doff
  if k.kind = kRows then (a + k.span - 1) / 256 - a / 256 + 1 else k.count

/-- Card check of R303. -/
def WpeCard.wellFormed (card : BitVec 512) : Bool :=
  let k := wpeCard card
  cardNat card 8 12 == 0 && cardNat card 256 256 == 0 && decide (1 ≤ k.kind) && decide (k.kind ≤ 4) && k.count != 0 &&
    decide (k.sscope ≤ 4) && !(k.side && decide (3 ≤ k.kind)) &&
    (k.kind != kUnmap || (k.sh == 0 && k.soff == 0 && k.mh == 0 && k.moff == 0)) &&
    k.doff % (if k.kind = kRows then 64 else 256) == 0

/-- Handle checks of R303. DESIGN CHOICE (log 94): the rule names no spaces for MH; metadata may lie where a source of ROWS or BLOCKS
may. Nor does it give the order of one card's handles: here DH, SH, MH, GH. -/
def State.checkWpeHandles (s : State) (n : Nat) (ref : BitVec 16) (k : WpeCard) (hs : Handles) : Except Fail Unit := do
  s.checkCap (some n) ref (hs k.dh) { spaces := [spWgt], perm := permR, align := 1 } k.doff k.span
  if k.kind = kInspect then
    s.checkCap (some n) ref (hs k.sh) { spaces := spacesTagged, perm := permW, align := 1 } k.soff (16 * k.count)
  if k.kind = kRows ∨ k.kind = kBlocks then
    s.checkCap (some n) ref (hs k.sh) { spaces := spacesTagged, perm := permR, align := 1 } k.soff k.span
    if k.side then
      s.checkCap (some n) ref (hs k.mh) { spaces := spacesTagged, perm := permR, align := 1 } k.moff
        (32 * k.blocks (capBase (hs.cap k.dh)))
  if k.sig then s.checkCap (some n) ref (hs k.gh) { spaces := spacesAtomic, perm := permW ||| permA, align := 8 } k.goff 8

/-- A block of a die lies in an open region that the context owns (R303). -/
def State.blockOpen (s : State) (die : Nat) (ref : BitVec 16) (addr : Nat) : Bool :=
  match s.regionOf die (addr / 2 ^ 29) (addr % 2 ^ 29 / 256) with
  | some r => fld r 0 2 == 1 && fld r 112 16 == ref
  | none => false

/-- Region check of R303: the offset of the first block outside. -/
def State.firstClosed (s : State) (die : Nat) (ref : BitVec 16) (base off : Nat) : Nat → Option Nat
  | 0 => none
  | n + 1 =>
    if !s.blockOpen die ref (base + off) then some off
    else s.firstClosed die ref base ((base + off) / 256 * 256 + 256 - base) n

/-- Steps 3 and 4 of R243 and the region check, for a WPE card. -/
def State.checkWpeCard (s : State) (n : Nat) (ref : BitVec 16) (card : BitVec 512) (hs : Handles) (coff : Nat) :
    Except Fail Unit := do
  let k := wpeCard card
  if WpeCard.wellFormed card then .ok () else .error ⟨0x81, BitVec.ofNat 64 coff⟩
  s.checkWpeHandles n ref k hs
  if k.kind ≠ kInspect then
    match s.firstClosed (dieOf n) ref (capBase (hs.cap k.dh)) k.doff (k.blocks (capBase (hs.cap k.dh))) with
    | some off => .error ⟨0x82, BitVec.ofNat 64 off⟩
    | none => .ok ()

/-- The regions of a WPE job that FPM selects (R304); the captured metadata capability stands in `ah`. -/
def wpeRegions (j : Job) (card : BitVec 512) : List Region :=
  let k := wpeCard card
  let f (n : Nat) : Bool := bit (BitVec.ofNat 3 k.fpm) n
  let target (wr : Bool) : Region := regionOf j.core j.die wr j.dh k.doff k.span none
  if k.kind = kInspect then
    (if f 0 then [target false] else []) ++ (if f 2 then [regionOf j.core j.die true j.sh k.soff (16 * k.count) none] else [])
  else if k.kind = kUnmap then (if f 2 then [target true] else [])
  else
    (if f 0 then [regionOf j.core j.die false j.sh k.soff k.span none] else []) ++
    (if f 1 && k.side then [regionOf j.core j.die false j.ah k.moff (32 * k.blocks (capBase j.dh)) none] else []) ++
    (if f 2 then [target true] else [])

def Job.regions (j : Job) : List Region :=
  match j.work with
  | .copy card => copyRegions j card
  | .wpe card => wpeRegions j card
  | .signal _ _ => []

/-- Two regions order their jobs. -/
def Region.orders (a b : Region) : Bool :=
  (a.wr || b.wr) && a.space == b.space && a.unit == b.unit && a.key == b.key && decide (a.lo < b.hi) &&
    decide (b.lo < a.hi) && !(a.red.isSome && a.red == b.red)

/-- The footprints of job `j` and of a job that the same die accepted earlier have an edge (R244). -/
def Job.waitsFor (j i : Job) : Bool :=
  i.home == j.home && j.regions.any (fun a => i.regions.any (fun b => a.orders b))

/-- R244, R248: no job that this one waits for still stands. Edges are those of its acceptance (R246). -/
def State.jobReady (s : State) (j : Job) : Bool :=
  !j.started && !j.paused && s.dev.jobs.all (fun i => !j.edges.contains i.id && !j.after.contains i.id)

/-- A job whose edges have cleared begins (R244, R304). -/
def execJobStart (id : Nat) (s : State) : Outcome State Fault Refusal :=
  match s.findJob id with
  | none => .next s
  | some j => if s.jobReady j then .next (s.setJob { j with started := true }) else .next s

/-! ### Rows (R241, R242, R432, R433) -/

/-- The job reads blocks of its die's weight tier, or writes them (R239, R293). -/
def Job.onTier (j : Job) : Bool :=
  match j.work with
  | .wpe _ => true
  | .copy _ => ([j.sh, j.dh, j.ah] : List Cap).any (fun c => capSpace c == spWgt)
  | .signal _ _ => false

/-- The flat key of a byte that a job names: weights are those of the job's die. -/
def State.jobPlace (s : State) (j : Job) (cap : Cap) (addr : Nat) : Nat :=
  if capSpace cap = spWgt then mkey .wgt j.die addr else s.place j.core cap addr

/-- The launch and context of a job, for MISC. -/
def Job.misc (j : Job) : BitVec 64 := j.lid ++ j.ctx ++ 0#16

/-- The first refused 256-byte piece of a row, and how it is refused. -/
def State.deniedPiece (s : State) (j : Job) (cap : Cap) (addr z : Nat) : Option (Nat × Verdict) :=
  let k0 := s.jobPlace j cap addr
  ((List.range ((k0 + z - 1) / 256 - k0 / 256 + 1)).filterMap (fun i =>
    let k := max k0 ((k0 / 256 + i) * 256)
    let v := s.verdict j.ctx cap k
    if v = .ok then none else some (k, v))).head?

/-- The cause that it gives the job (R423). -/
def State.pieceFault (s : State) (j : Job) (cap : Cap) (addr z : Nat) : Option (BitVec 8) :=
  (s.deniedPiece j cap addr z).map (fun e => e.2.cause)

/-- The refusal is counted (R423). -/
def State.countPiece (s : State) (j : Job) (cap : Cap) (addr z : Nat) : State :=
  match s.deniedPiece j cap addr z with
  | some (k, v) => s.countDenial j.core j.misc v k false
  | none => s

/-- R258, R432: an offset beyond the capability, or beyond the CLUS size now. -/
def State.rowBound (s : State) (j : Job) (cap : Cap) (off : Int) (z : Nat) : Bool :=
  decide (off < 0) || decide ((capLen cap : Int) < off + z) || decide ((spaceEnd cap : Int) < capBase cap + off + z) ||
    (capSpace cap == spClus && decide ((s.clusSize (clusterOf j.core) : Int) < capBase cap + off + z))

/-- A granule with an error that a read finds again (R423); plain poison is carried (R433). -/
def State.brokenCause (s : State) (key z : Nat) : Option (BitVec 8) :=
  match s.markCause key z with
  | some c => if c = 0xA0 then none else some c
  | none => none

/-- The weight blocks that a row reads whose MAC fails. -/
def State.badBlocks (s : State) (die addr z : Nat) : List Nat :=
  ((List.range ((addr + z - 1) / 256 - addr / 256 + 1)).map (fun i => (addr / 256 + i) * 256)).filter (fun a =>
    match s.slotOfBlock (96 * die + a / 2 ^ 29) (a % 2 ^ 29 / 256) with
    | some sl => s.slotBad (96 * die + a / 2 ^ 29) sl
    | none => false)

/-- Read bytes for a row: their marks, or the cause that ends the job. -/
def State.jobRead (s : State) (j : Job) (cap : Cap) (addr z : Nat) : Except (BitVec 8) (List (Byte × Bool)) :=
  let k0 := s.jobPlace j cap addr
  match s.pieceFault j cap addr z with
  | some c => .error c
  | none =>
    if capSpace cap = spWgt then
      if (s.badBlocks j.die addr z).isEmpty then .ok ((List.range z).map (fun i => s.wgtByte j.die (addr + i))) else .error 0xA1
    else if s.miscoded ((List.range z).map (k0 + ·)) then .error 0xA3
    else
      match s.brokenCause k0 z with
      | some c => .error c
      | none => .ok ((List.range z).map (fun i => (s.byte (k0 + i), KeySet.has s.marks (granule (k0 + i)))))

/-- What a job's failed read counts: the refusal (R423), the failing weight blocks (R434), or the decode error of the transfer
(R436). -/
def State.countJobRead (s : State) (j : Job) (cap : Cap) (addr z : Nat) (cause : BitVec 8) : State :=
  if cause = 0xA1 ∧ capSpace cap = spWgt then (s.badBlocks j.die addr z).foldl (fun s a => s.countMac j.core j.die a false) s
  else if cause = 0xA3 then
    let keys := (List.range z).map (s.jobPlace j cap addr + ·)
    (s.recoded keys).recordTransfer j.core keys 0xA3 j.misc false
  else s.countPiece j cap addr z

/-- A message of this job is on its way. -/
def Msg.ofJob (m : Msg) (id : Nat) : Bool :=
  match m.body with
  | .write _ _ (some j) _ _ _ _ _ => j == id
  | .reduce j _ _ _ _ _ => j == id
  | .signal j _ _ _ _ => j == id
  | _ => false

def State.jobMsgs (s : State) (id : Nat) : Bool := s.dev.ms.msgs.any (·.ofJob id)

/-- The reader's die has all that the source's home has made known (R271), and the job's own writes there are done. -/
def State.jobHomeReady (s : State) (j : Job) (cap : Cap) (addr : Nat) : Bool :=
  if capSpace cap ≠ spGlob then true
  else
    let h := homeDie addr
    s.inStep j.die h && !s.dev.ms.msgs.any (fun m => m.ofJob j.id && m.dst == h)

/-- No owner entry of these bytes is about to change: a job's row is held while one is (R347). -/
def State.rowFree (s : State) (j : Job) (cap : Cap) (addr z : Nat) : Bool :=
  !s.ownerOwed (s.jobPlace j cap addr) && !s.ownerOwed (s.jobPlace j cap (addr + z - 1))

/-- A row of z bytes may be read: every home that it touches is ready, and no owner entry there is about to change (R271, R347). -/
def State.rowReady (s : State) (j : Job) (cap : Cap) (addr z : Nat) : Bool :=
  s.jobHomeReady j cap addr && s.jobHomeReady j cap (addr + z - 1) && s.rowFree j cap addr z

/-- Where a job's marks are counted: bank, unit, address kind of a granule (R433). -/
def markBank (key : Nat) : Nat × Nat × Nat × BitVec 4 :=
  let u := keyUnit key
  let a := keyOff key
  if keySpace key = MSpace.spad.code then (dieOf u, clusterOf u % 12, u % 8, 2)
  else if keySpace key = MSpace.clus.code then (u / 12, u % 12, 8, 3)
  else (homeDie a, 12 + a / 256 % 8, 0, 1)

/-- Each granule that a job marks is recorded (R433). -/
def State.recordMarks (s : State) (j : Job) (gs : List Nat) : State :=
  gs.foldl (fun s g =>
    let (die, b, unit, kind) := markBank (g * 32)
    let loc := match j.owner with
      | .task _ => s.loc j.core
      | .packet _ => 0
    s.mcRecord die b { mcContained 0xA0 unit loc kind (keyOff (g * 32)) (some j.misc) with pmark := true }) s

/-- Write a row: bytes by key, granules that take a tag, granules that take a mark. -/
def State.jobWrite (s : State) (j : Job) (cap : Cap) (bytes : List (Nat × Byte)) (tags marks : List Nat) : State :=
  let s := s.recordMarks j marks
  let keys := bytes.map (·.1)
  if capSpace cap = spGlob then
    ((keys.map (fun k => homeDie (keyOff k))).dedup).foldl (fun s h =>
      let mine := bytes.filter (fun b => homeDie (keyOff b.1) == h)
      let here (g : Nat) : Bool := homeDie (keyOff (g * 32)) == h
      if h = j.die then (s.performGlob h 96 mine (tags.filter here) (marks.filter here)).storeRels (mine.map (·.1)) none
      else
        s.sendWrite j.die h (linesOf (mine.map (·.1)))
          (.write j.core none (some j.id) j.ctx mine (tags.filter here) (marks.filter here) none)) s
  else if capSpace cap = spHost ∨ capSpace cap = spPeer then (s.performFar 96 bytes).storeRels keys none
  else (((s.writeBytes bytes).storeRels keys none).addTags tags).addMarks marks

/-- Elements of a row, by key. -/
def rowElements (key z : Nat) (bs : List Byte) : List (Nat × Nat) :=
  (List.range (bs.length / z)).map (fun i => (key + z * i, leNat ((bs.drop (z * i)).take z)))

/-- The REDUCE of a row (R241). -/
def State.jobReduce (s : State) (j : Job) (k : CopyCard) (key : Nat) (bs : List Byte) : State × Option (BitVec 8) :=
  let t := etFmt k.et
  let z := etBytes k.et
  let els := rowElements key z bs
  if keySpace key = MSpace.glob.code then
    let homes := (els.map (fun e => homeDie (keyOff e.1))).dedup
    match ((els.filter (fun e => homeDie (keyOff e.1) == j.die)).filterMap (fun e => s.markCause e.1 z)).head? with
    | some c => (s, some c)
    | none => (homes.foldl (fun s h =>
      let mine := els.filter (fun e => homeDie (keyOff e.1) == h)
      if h = j.die then (s.applyReduce 96 t k.rop j.rm mine).1
      else s.sendWrite j.die h (linesOf (mine.flatMap (fun e => [e.1, e.1 + z - 1]))) (.reduce j.id j.ctx t k.rop j.rm mine)) s, none)
  else s.applyReduce 96 t k.rop j.rm els

/-- The coordinates i1, i2, i3 of row r. -/
def CopyCard.coords (k : CopyCard) (r : Nat) : Int × Int × Int :=
  (((r % k.e1 : Nat) : Int), ((r / k.e1 % k.e2 : Nat) : Int), ((r / (k.e1 * k.e2) : Nat) : Int))

def CopyCard.total (k : CopyCard) : Nat := k.e1 * k.e2 * k.e3

/-- Source and destination offsets of row r; `idx` is the index that GATHER and SCATTER read (R241). -/
def CopyCard.rowOffs (k : CopyCard) (r idx : Nat) : Int × Int :=
  let (a, b, c) := k.coords r
  let so := (k.soff : Int) + a * k.ss1 + b * k.ss2 + c * k.ss3
  let d := (k.doff : Int) + a * k.ds1 + b * k.ds2 + c * k.ds3
  if k.kind = kGather then ((k.soff : Int) + idx * k.ss1, d)
  else if k.kind = kScatter then (so, (k.doff : Int) + idx * k.ds1)
  else (so, d)

/-- The pattern of FILL, n bytes. -/
def fillBytes (pat n : Nat) : List Byte := (List.range n).map (fun i => BitVec.ofNat 8 (pat / 2 ^ (8 * (i % 4))))

/-- Destination granules that take a byte of a marked source granule. -/
def carried (key : Nat) (bs : List (Byte × Bool)) : List Nat :=
  ((bs.zipIdx).filterMap (fun (b, i) => if b.2 then some (granule (key + i)) else none)).dedup

/-- What a row does: wait, a cause that ends the job, or the next state. -/
inductive RowEnd where
  | wait
  | fault (cause : BitVec 8) (s : State)
  | ok (s : State)

/-- The bytes that a row takes from its source. -/
def State.rowSource (s : State) (j : Job) (k : CopyCard) (so : Int) : Except (BitVec 8) (List (Byte × Bool)) :=
  if !k.hasSrc then .ok ((fillBytes (k.soff % 2 ^ 32) k.e0).map (fun b => (b, false)))
  else s.jobRead j j.sh (capBase j.sh + so.toNat) k.e0

/-- Tags of the source granules of a row with TAGS = 1, as destination granules. -/
def State.rowTags (s : State) (j : Job) (k : CopyCard) (src dst : Nat) : List Nat :=
  if k.tags then
    (List.range (k.e0 / 32)).filterMap (fun i => if s.tagAt (s.jobPlace j j.sh src + 32 * i) then some (granule dst + i) else none)
  else []

/-- A row once its offsets are known. -/
def State.rowAt (s : State) (j : Job) (k : CopyCard) (so d : Int) : RowEnd :=
  let src := capBase j.sh + so.toNat
  let dst := capBase j.dh + d.toNat
  if k.hasSrc && s.rowBound j j.sh so k.e0 then .fault 0x26 s
  else if k.hasSrc && !s.rowReady j j.sh src k.e0 then .wait
  else
    match s.rowSource j k so with
    | .error c => .fault c (s.countJobRead j j.sh src k.e0 c)
    | .ok bs =>
      if s.rowBound j j.dh d k.e0 then .fault 0x26 s
      else if !s.rowFree j j.dh dst k.e0 then .wait
      else
        let key := s.jobPlace j j.dh dst
        match s.pieceFault j j.dh dst k.e0 with
        | some c => .fault c (s.countPiece j j.dh dst k.e0)
        | none =>
          let marks := carried key bs
          let eats := k.kind = kReduce ∨ k.tags ∨ capSpace j.dh = spHost ∨ capSpace j.dh = spPeer
          if eats ∧ marks ≠ [] then .fault 0xA0 s
          else if k.kind = kReduce then
            let (s', bad) := s.jobReduce j k key (bs.map (·.1))
            match bad with
            | none => .ok s'
            | some c => .fault c s
          else
            .ok (s.jobWrite j j.dh ((bs.zipIdx).map (fun (b, i) => (key + i, b.1))) (s.rowTags j k src key) marks)

/-- One row of a copy job, read whole and then written. -/
def State.copyRow (s : State) (j : Job) (card : BitVec 512) : RowEnd :=
  let k := copyCard card
  if k.kind = kReduce ∧ s.jobMsgs j.id then .wait
  else if k.indexed then
    let a := capBase j.ah + k.aoff + 4 * (j.rows % k.e1)
    if s.rowBound j j.ah ((k.aoff : Int) + 4 * (j.rows % k.e1 : Nat)) 4 then .fault 0x26 s
    else if !s.rowReady j j.ah a 4 then .wait
    else
      match s.jobRead j j.ah a 4 with
      | .error c => .fault c (s.countJobRead j j.ah a 4 c)
      | .ok bs =>
        if bs.any (·.2) then .fault 0xA0 s
        else
          let (so, d) := k.rowOffs j.rows (leNat (bs.map (·.1)))
          s.rowAt j k so d
  else
    let (so, d) := k.rowOffs j.rows 0
    s.rowAt j k so d

/-- Rows or blocks that a job has in all. -/
def Job.total (j : Job) : Nat :=
  match j.work with
  | .copy card => (copyCard card).total
  | .wpe card => (wpeCard card).blocks (capBase j.dh)
  | .signal _ _ => 0

/-- R59: a paused job makes no row; a job that has met a cause ends. -/
def Job.running (j : Job) : Bool := j.started && !j.paused

/-! ### Completion (R245, R307) -/

/-- The signal of a job: capability, offset, value to store or none to add, scope. -/
def Job.signal (j : Job) : Option (Cap × Nat × Option DWord × Scope) :=
  match j.work with
  | .copy card => let k := copyCard card
                  if k.sig then some (j.gh, k.goff, none, scopeOfNat k.sscope) else none
  | .wpe card => let k := wpeCard card
                 if k.sig then some (j.gh, k.goff, none, scopeOfNat k.sscope) else none
  | .signal v off => some (j.gh, off, some v, .package)

/-- A CSIGNAL's release finds every earlier access of its task made known, where the task is resident (R265, R269). -/
def State.signalReady (s : State) (j : Job) : Bool :=
  match j.work, j.owner with
  | .signal _ _, .task uid => s.cores.all (fun (n, c) => !c.task.any (·.uid == uid) || s.settledBefore n j.seq .package)
  | _, _ => true

/-- Send or apply the signal (R245, R248), once no owner entry of its word is about to change (R347), a CSIGNAL's once what it releases
is made known. -/
def State.sendSignal (s : State) (j : Job) (cap : Cap) (off : Nat) (v : Option DWord) (sc : Scope) : State :=
  let key := s.jobPlace j cap (capBase cap + off)
  let rel : Rel := { scope := sc, pkg := none, core := j.core }
  if !s.rowFree j cap (capBase cap + off) 8 || !s.signalReady j then s else
  match s.pieceFault j cap (capBase cap + off) 8 with
  | some c => (s.countPiece j cap (capBase cap + off) 8).jobFault j c
  | none =>
    if capSpace cap = spGlob ∧ homeDie (keyOff key) ≠ j.die then
      (s.sendWrite j.die (homeDie (keyOff key)) (linesOf [key, key + 7]) (.signal j.id j.ctx key v rel)).setJob
        { j with signalled := true }
    else
      match s.applySignal 96 key v rel with
      | some s => s.jobDone j
      | none => s.jobFault j 0xA0

/-- R245: every row is made and every write acknowledged; then the signal, and then CP falls. A cancelled job sends none (R248). -/
def execJobComplete (id : Nat) (s : State) : Outcome State Fault Refusal :=
  match s.findJob id with
  | none => .next s
  | some j =>
    if !j.running || j.build.isSome || decide (j.rows < j.total) || s.jobMsgs id then .next s
    else if j.cancel then .next (s.jobCancelled j)
    else
      match j.bad, j.signal with
      | some c, _ => .next (s.jobFault j c)
      | none, none => .next (s.jobDone j)
      | none, some (cap, off, v, sc) => .next (if j.signalled then s.jobDone j else s.sendSignal j cap off v sc)

/-! ### Operations (R239, R243, R247, R248) -/

/-- The handles of the submitting task, as they stand at the issue (R240). -/
def taskHandles (c : Core) : Handles := fun n => some (c.rh (BitVec.ofNat 4 n), c.rhtag (BitVec.ofNat 4 n))

/-- The job of a card, before it has a number. -/
def mkJob (die core : Nat) (owner : JobOwner) (ctx : BitVec 16) (lid : BitVec 32) (ticket : BitVec 16) (slot : Slot) (rm : Rm)
    (work : JobWork) (sh dh ah gh : Cap) (after : List Nat) : Job :=
  { id := 0, die := die, home := die, owner := owner, core := core, ctx := ctx, lid := lid, ticket := ticket, slot := slot, seq := 0
    work := work
    sh := sh, dh := dh, ah := ah, gh := gh, rm := rm, rows := 0, started := false, paused := false, after := after
    edges := [], cancel := false, bad := none, signalled := false, build := none }

/-- A job enters the die's order, behind the earlier jobs that its footprint meets. -/
def State.acceptJob (s : State) (j : Job) : State :=
  let edges := (s.dev.jobs.filter j.waitsFor).map (·.id)
  { s with dev := { s.dev with
    jobs := s.dev.jobs ++ [{ j with id := s.dev.nextJob, edges := edges }], nextJob := s.dev.nextJob + 1 } }

/-- The issue of a job by the acting core: CP rises and the ticket is written (R239, R243). -/
def State.submit (s : State) (c : Core) (work : JobWork) (sh dh ah gh : Cap) (after : List Nat) (xd : XReg) : State :=
  let n := s.iss.core
  let t := c.task
  let j := mkJob (dieOf n) n (.task ((t.map (·.uid)).getD 0)) ((t.map (·.ctx)).getD 0) ((t.map (·.lid)).getD 0) c.m.ticket
    s.iss.slot c.c.rm work sh dh ah gh (c.m.fenced ++ after)
  let c := (c.addCp).push (mkPend s.iss.slot 1 (.x xd (c.m.ticket.setWidth 64)))
  (s.setCur { c with m := { c.m with ticket := c.m.ticket + 1 } }).acceptJob { j with seq := c.m.nextId }

/-- Submit a copy card after its checks. -/
def State.submitCopy (s : State) (c : Core) (card : BitVec 512) (coff : Nat) (xd : XReg) : Except Fail State := do
  let hs := taskHandles c
  s.checkCopyCard (some s.iss.core) (capCtx (c.rh 0)) card hs coff
  let k := copyCard card
  .ok (s.submit c (.copy card) (hs.cap k.sh) (hs.cap k.dh) (hs.cap k.ah) (hs.cap k.gh) [] xd)

/-- Submit a WPE card after its checks. -/
def State.submitWpe (s : State) (c : Core) (card : BitVec 512) (coff : Nat) (xd : XReg) : Except Fail State := do
  let hs := taskHandles c
  s.checkWpeCard s.iss.core (capCtx (c.rh 0)) card hs coff
  let k := wpeCard card
  .ok (s.submit c (.wpe card) (hs.cap k.sh) (hs.cap k.dh) (hs.cap k.mh) (hs.cap k.gh) [] xd)

/-- The 64 bytes of a card in SPAD, little-endian. -/
def State.cardAt (s : State) (c : Core) (h : HReg) (off : Nat) : BitVec 512 :=
  BitVec.ofNat 512 (s.nat (s.place s.iss.core (c.rh h) (capBase (c.rh h) + off)) 64)

/-- R239: a card stands in SPAD, 64-aligned. -/
def needCard : Need := { spaces := [spSpad], perm := permR, align := 64 }

/-- Marked granules of the card (log 31). -/
def State.cardMarks (s : State) (c : Core) (h : HReg) (off : Nat) : List Holder :=
  ((granules (s.place s.iss.core (c.rh h) (capBase (c.rh h) + off)) 64).filter (KeySet.has s.marks)).map .granule

/-- Handles that the card of a job names and its kind uses (R169, R240). -/
def cardHandles (card : BitVec 512) (wpe : Bool) : List HReg :=
  let ns := if wpe then
      let k := wpeCard card
      (if k.kind = kUnmap then [] else [k.sh]) ++ [k.dh] ++ (if k.side then [k.mh] else []) ++ (if k.sig then [k.gh] else [])
    else
      let k := copyCard card
      (if k.hasSrc then [k.sh] else []) ++ [k.dh] ++ (if k.indexed then [k.ah] else []) ++ (if k.sig then [k.gh] else [])
  ns.map (BitVec.ofNat 4)

/-- The poison check on the handles that a card names, which its issue reads (R240, R429). -/
def State.handlePoison (s : State) (hs : List HReg) : Option Trap :=
  match s.cur.marks { Uses.none with hr := hs } with
  | [] => none
  | h :: t => some { mkTrap 0xA0 h.tval s.iss.slot s.cur with zero := h :: t }

/-- A job operation whose card has been read: poison of its own registers and of the handles that the card names, and then `k`. -/
def jobOp (i : Instr) (s : State) (hs : List HReg) (k : State → Core → Except Fail State) : Outcome State Fault Refusal :=
  match s.poisonTrap i 0, s.handlePoison hs with
  | none, some t => .next (s.raise t)
  | _, _ => slotOpS i s k

/-- An operation that takes its card from SPAD: the handle's checks, poison of the card and of what it names, and then `k`. -/
def cardOp (i : Instr) (f : CjF) (wpe : Bool) (s : State) (k : State → Core → BitVec 512 → Nat → Except Fail State) :
    Outcome State Fault Refusal :=
  let off := (s.offset i).toNat
  match s.poisonTrap i 0, s.check s.iss.core s.cur f.h needCard off 64 with
  | none, .ok _ =>
    match s.cardMarks s.cur f.h off with
    | h :: t => .next (s.raise { mkTrap 0xA0 (BitVec.ofNat 64 off) s.iss.slot s.cur with zero := h :: t })
    | [] => jobOp i s (cardHandles (s.cardAt s.cur f.h off) wpe) fun s c => k s c (s.cardAt c f.h off) off
  | _, _ => slotOpS i s fun s c => do
    s.check s.iss.core c f.h needCard off 64
    k s c (s.cardAt c f.h off) off

def execCjob (f : CjF) (s : State) : Outcome State Fault Refusal :=
  cardOp (.cjob f) f false s fun s c card off => s.submitCopy c card off f.xd

/-- The card stands in bits [511:0] of VS. DESIGN CHOICE (log 85): it has no offset in memory, and the job-card trap's TVAL,
which the spec gives as the card offset, is 0. -/
def execCjobv (f : CjvF) (s : State) : Outcome State Fault Refusal :=
  jobOp (.cjobv f) s (cardHandles ((s.cur.rv f.vs).setWidth 512) false) fun s c => s.submitCopy c ((c.rv f.vs).setWidth 512) 0 f.xd

def execCwpe (f : CjF) (s : State) : Outcome State Fault Refusal :=
  cardOp (.cwpe f) f true s fun s c card off => s.submitWpe c card off f.xd

/-- The live job that CQUERY and CCANCEL find: one of the 64 most recent tickets (R247, R414). -/
def State.jobOf (s : State) (c : Core) (num : DWord) : Option Job :=
  if num.toNat < 65536 && ticketRecent c.m.ticket (num.setWidth 16) then
    s.dev.jobs.find? (fun j => decide (j.owner = .task ((c.task.map (·.uid)).getD 0)) && j.ticket == num.setWidth 16)
  else none

/-- The status of a ticket (R247). -/
def State.ticketStatus (s : State) (c : Core) (num : DWord) : DWord :=
  let word (rows st : Nat) : DWord := BitVec.ofNat 64 (rows % 2 ^ 32 * 2 ^ 32 + st)
  match s.jobOf c num with
  | some j => word j.rows (if j.started then 1 else 0)
  | none =>
    match c.m.tickets.find? (fun t => decide (num.toNat < 65536) && t.num == num.setWidth 16 && ticketRecent c.m.ticket t.num) with
    | some t => word t.rows t.state.toNat
    | none => word 0 2

def execCquery (f : CqF) (s : State) : Outcome State Fault Refusal :=
  slotOpS (.cquery f) s fun s c =>
    .ok (s.setCur (c.push (mkPend s.iss.slot 1 (.x f.xd (s.ticketStatus c (c.rx f.xa))))))

/-- R248: a copy job ends between rows, which is now; a WPE job that builds ends at its switch. A job whose signal is on
its way has no row boundary left and completes. -/
def State.cancelJob (s : State) (j : Job) : State :=
  if j.signalled then s
  else match j.work with
  | .wpe _ => if j.build.isSome then s.setJob { j with cancel := true } else s.jobCancelled j
  | _ => s.jobCancelled j

def execCcancel (xa : XReg) (s : State) : Outcome State Fault Refusal :=
  slotOpS (.ccancel xa) s fun s c =>
    match s.jobOf c (c.rx xa) with
    | some j => .ok (s.cancelJob j)
    | none => .ok s

/-- R248: a store that waits for every earlier job of the task. -/
def execCsignal (f : CsF) (s : State) : Outcome State Fault Refusal :=
  slotOpS (.csignal f) s fun s c => do
    let off := off48 (c.rx f.xa)
    s.check s.iss.core c f.h { spaces := spacesTagged, perm := permW, align := 8 } off 8
    let earlier := s.taskJobs ((c.task.map (·.uid)).getD 0)
    .ok (s.submit c (.signal (c.rx f.xb) off) 0 0 0 (c.rh f.h) earlier f.xd)

/-- R248: every later job of the task waits for every earlier one. -/
def execCfence (s : State) : Outcome State Fault Refusal :=
  slotOpS .cfence s fun s c =>
    .ok (s.setCur { c with m := { c.m with fenced := s.taskJobs ((c.task.map (·.uid)).getD 0) } })

end Sys2Proof.Machine
end

