-- ==== Sys2Proof/Machine/Crypto.lean ====
section
/-! DEFINITION. The algorithms of R5 that the manual takes from their standards: SHA3-512 (FIPS 202), KMAC256 (SP 800-185)
and AES-256-GCM (FIPS 197, SP 800-38D), over byte strings. -/

namespace Sys2Proof.Machine

/-! ### Keccak (FIPS 202) -/

/-- The rotations of rho: t walks over 24 lanes from (1, 0), each step from (x, y) to (y, 2x + 3y), and lane t turns by the
triangular number (t + 1)(t + 2) / 2. -/
def rhoSteps : List (Nat × Nat) :=
  ((List.range 24).foldl (fun (l, x, y) t => ((x + 5 * y, (t + 1) * (t + 2) / 2 % 64) :: l, y, (2 * x + 3 * y) % 5))
    (([] : List (Nat × Nat)), 1, 0)).1

def keccakRot : List Nat := (List.range 25).map (fun i => ((rhoSteps.find? (·.1 == i)).map (·.2)).getD 0)

/-- The round constants: the bits of a shift register over x^8 + x^6 + x^5 + x^4 + 1 stand at the places 2^j - 1, seven of
them a round. -/
def keccakRc : List DWord :=
  ((List.range 24).foldl (fun (l, r) _ =>
    let (w, r) := (List.range 7).foldl (fun (w, r) j =>
      (if bit r 0 then w ||| BitVec.twoPow 64 (2 ^ j - 1) else w, (r <<< 1) ^^^ (if bit r 7 then 0x71 else 0)))
      ((0 : DWord), (r : Byte))
    (l ++ [w], r)) (([] : List DWord), (1 : Byte))).1

/-- One round: theta, rho with pi, chi, iota. Lane (x, y) stands at x + 5y. -/
def keccakRound (a : List DWord) (rc : DWord) : List DWord :=
  let at_ (l : List DWord) (x y : Nat) : DWord := l.getD (x % 5 + 5 * (y % 5)) 0
  let c := (List.range 5).map (fun x => at_ a x 0 ^^^ at_ a x 1 ^^^ at_ a x 2 ^^^ at_ a x 3 ^^^ at_ a x 4)
  let a := (List.range 25).map (fun i => a.getD i 0 ^^^ c.getD ((i + 4) % 5) 0 ^^^ (c.getD ((i + 1) % 5) 0).rotateLeft 1)
  let b := (List.range 25).map (fun i =>
    let j := (i % 5 + 3 * (i / 5)) % 5 + 5 * (i % 5)
    (a.getD j 0).rotateLeft (keccakRot.getD j 0))
  let chi (i : Nat) : DWord := at_ b i (i / 5) ^^^ (~~~ at_ b (i + 1) (i / 5) &&& at_ b (i + 2) (i / 5))
  (chi 0 ^^^ rc) :: (List.range 24).map (fun i => chi (i + 1))

def keccakF (a : List DWord) : List DWord := keccakRc.foldl keccakRound a

/-- KECCAK[c] has taken a message: `sfx` holds the suffix bits and the first padding bit, `rate` counts bytes. -/
def absorb (rate : Nat) (sfx : Byte) (msg : List Byte) : List DWord :=
  let short := rate - 1 - msg.length % rate
  let pad : List Byte := if short = 0 then [sfx ||| 0x80] else sfx :: (List.replicate (short - 1) 0 ++ [0x80])
  let m := msg ++ pad
  ((List.range (m.length / rate)).foldl (fun (a, m) _ =>
    (keccakF ((List.range 25).map (fun i => a.getD i 0 ^^^ BitVec.ofNat 64 (leNat (((m.take rate).drop (8 * i)).take 8)))), m.drop rate))
    (List.replicate 25 0, m)).1

/-- The output of a number of blocks. -/
def squeeze (rate : Nat) (a : List DWord) : Nat → List Byte
  | 0 => []
  | k + 1 => (a.flatMap (fun w => leBytes 8 w.toNat)).take rate ++ squeeze rate (keccakF a) k

def sponge (rate : Nat) (sfx : Byte) (msg : List Byte) (n : Nat) : List Byte :=
  (squeeze rate (absorb rate sfx msg) ((n + rate - 1) / rate)).take n

/-- SHA3-512, the first byte of the digest lowest (R300, R360). -/
def sha3 (msg : List Byte) : BitVec 512 := BitVec.ofNat 512 (leNat (sponge 72 0x06 msg 64))

/-! ### KMAC256 (SP 800-185) -/

/-- Bytes of a number, most significant first, at least one. -/
def beMin (v : Nat) : List Byte := (leBytes (Nat.log2 v / 8 + 1) v).reverse
def leftEncode (v : Nat) : List Byte := BitVec.ofNat 8 (beMin v).length :: beMin v
def rightEncode (v : Nat) : List Byte := beMin v ++ [BitVec.ofNat 8 (beMin v).length]
def encodeString (s : List Byte) : List Byte := leftEncode (8 * s.length) ++ s
def bytepad (s : List Byte) (w : Nat) : List Byte :=
  let z := leftEncode w ++ s
  z ++ List.replicate ((w - z.length % w) % w) 0

def asciiBytes (s : String) : List Byte := s.toList.map (fun c => BitVec.ofNat 8 c.toNat)

/-- The first n bytes of KMAC256 under a key and a customisation string, where L bits are asked for. -/
def kmac256 (key msg : List Byte) (L : Nat) (custom : List Byte) (n : Nat) : List Byte :=
  sponge 136 0x04 (bytepad (encodeString (asciiBytes "KMAC") ++ encodeString custom) 136 ++
    (bytepad (encodeString key) 136 ++ msg ++ rightEncode L)) n

/-! ### AES-256 (FIPS 197) -/

def xtime (b : Byte) : Byte := (b <<< 1) ^^^ (if b.getLsbD 7 then 0x1B else 0)

/-- Product in GF(2^8). -/
def gf8 (a b : Byte) : Byte :=
  ((List.range 8).foldl (fun (acc, a) i => (if b.getLsbD i then acc ^^^ a else acc, xtime a)) ((0 : Byte), a)).1

/-- The S-box: the inverse, which is the 254th power, under the affine map. -/
def aesSub (b : Byte) : Byte :=
  let i := (List.range 7).foldl (fun (acc, p) _ => (gf8 acc (gf8 p p), gf8 p p)) ((1 : Byte), b) |>.1
  i ^^^ i.rotateLeft 1 ^^^ i.rotateLeft 2 ^^^ i.rotateLeft 3 ^^^ i.rotateLeft 4 ^^^ 0x63

def xorBytes (a b : List Byte) : List Byte := List.zipWith (· ^^^ ·) a b

/-- The 60 words of the key schedule, four bytes each. -/
def aesKeys (key : List Byte) : List (List Byte) :=
  let w0 := (List.range 8).map (fun i => (key.drop (4 * i)).take 4)
  ((List.range 52).foldl (fun (w, rc) k =>
    let i := k + 8
    let t := w.getD (i - 1) []
    let t' := if i % 8 = 0 then xorBytes ((t.drop 1 ++ t.take 1).map aesSub) [rc, 0, 0, 0] else if i % 8 = 4 then t.map aesSub else t
    (w ++ [xorBytes (w.getD (i - 8) []) t'], if i % 8 = 0 then xtime rc else rc)) (w0, (1 : Byte))).1

/-- Column-major state: byte r + 4c. -/
def aesShiftRows (s : List Byte) : List Byte := (List.range 16).map (fun i => s.getD ((i % 4) + 4 * ((i / 4 + i % 4) % 4)) 0)
def aesMixColumns (s : List Byte) : List Byte :=
  (List.range 16).map (fun i =>
    let b (k : Nat) : Byte := s.getD (i / 4 * 4 + (i + k) % 4) 0
    xtime (b 0) ^^^ xtime (b 1) ^^^ b 1 ^^^ b 2 ^^^ b 3)

def aesRoundKey (ks : List (List Byte)) (r : Nat) : List Byte := ((ks.drop (4 * r)).take 4).flatten

/-- One block under a key schedule. -/
def aesBlock (ks : List (List Byte)) (b : List Byte) : List Byte :=
  let s := (List.range 13).foldl (fun s r => xorBytes (aesMixColumns (aesShiftRows (s.map aesSub))) (aesRoundKey ks (r + 1)))
    (xorBytes b (aesRoundKey ks 0))
  xorBytes (aesShiftRows (s.map aesSub)) (aesRoundKey ks 14)

/-! ### GCM (SP 800-38D) with a 96-bit IV -/

def beNat (b : List Byte) : Nat := leNat b.reverse
def beBytes (n v : Nat) : List Byte := (leBytes n v).reverse

/-- Product of two blocks, bit 0 of the standard most significant here. -/
def ghashMul (x y : BitVec 128) : BitVec 128 :=
  ((List.range 128).foldl (fun (z, v) i =>
    (if x.getLsbD (127 - i) then z ^^^ v else z,
     if v.getLsbD 0 then (v >>> 1) ^^^ ((0xE1 : BitVec 128) <<< 120) else v >>> 1)) ((0 : BitVec 128), y)).1

def padBlocks (b : List Byte) : List Byte := b ++ List.replicate ((16 - b.length % 16) % 16) 0

def ghash (h : BitVec 128) (b : List Byte) : BitVec 128 :=
  ((List.range (b.length / 16)).foldl (fun (y, b) _ =>
    (ghashMul (y ^^^ BitVec.ofNat 128 (beNat (b.take 16))) h, b.drop 16)) ((0 : BitVec 128), b)).1

/-- The counter block i: 0 of the tag, from 1 on of the text. -/
def gcmCounter (iv : List Byte) (i : Nat) : List Byte := iv ++ beBytes 4 (i + 1)

/-- Encrypt or decrypt: keys and IVs stand as little-endian numbers of their bytes. -/
def gcmCrypt (key : BitVec 256) (iv : BitVec 96) (bs : List Byte) : List Byte :=
  let ks := aesKeys (leBytes 32 key.toNat)
  xorBytes bs ((List.range ((bs.length + 15) / 16)).flatMap (fun i => aesBlock ks (gcmCounter (leBytes 12 iv.toNat) (i + 1))))

/-- The tag over additional data and ciphertext, its first byte lowest. -/
def gcmTag (key : BitVec 256) (iv : BitVec 96) (aad ct : List Byte) : BitVec 128 :=
  let ks := aesKeys (leBytes 32 key.toNat)
  let h := BitVec.ofNat 128 (beNat (aesBlock ks (List.replicate 16 0)))
  let s := ghash h (padBlocks aad ++ padBlocks ct ++ beBytes 8 (8 * aad.length) ++ beBytes 8 (8 * ct.length))
  BitVec.ofNat 128 (leNat (xorBytes (beBytes 16 s.toNat) (aesBlock ks (gcmCounter (leBytes 12 iv.toNat) 0))))

end Sys2Proof.Machine
end

