-- ==== Sys2Proof/Machine/Wpe.lean ====
section
/-! DEFINITION. The weight programming engine (R293 to R310, R434, R435): block contents and their MAC, builds, switches,
releases, UNMAP and INSPECT, and the model regions with their measurements. -/

namespace Sys2Proof.Machine

open Host (Outcome)

def State.setWt (s : State) (w : Weights) : State := { s with dev := { s.dev with wt := w } }

/-! ### Slots (R294, R295, R309) -/

/-- The number of a slot in the package. -/
def slotNo (bankNo slot : Nat) : Nat := 2 ^ 21 * bankNo + slot

/-- Home slots and slots of a bank (R294). -/
def homeSlots : Nat := 1310720
def allSlots : Nat := 1350042

def FreeList.manufacture : FreeList := { next := homeSlots, tail := [] }
def State.freeList (s : State) (bankNo : Nat) : FreeList := lookupD .manufacture s.dev.wt.free bankNo

/-- R308: slots that jobs have popped and never switched go back to their free lists. DESIGN CHOICE (log 95): to the tail. -/
def State.returnBuilds (s : State) (p : Job → Bool) : State :=
  ((s.dev.jobs.filter p).filterMap (·.build)).foldl (fun s b =>
    let f := s.freeList b.bankNo
    s.setWt { s.dev.wt with free := insertAt s.dev.wt.free b.bankNo { f with tail := f.tail ++ [b.slot] } }) s

/-- The head of a free list and what is left. -/
def FreeList.pop (f : FreeList) : Option (Nat × FreeList) :=
  if f.next < allSlots then some (f.next, { f with next := f.next + 1 })
  else
    match f.tail with
    | x :: t => some (x, { f with tail := t })
    | [] => none

/-- WPELIM.LIM of a die; 100,000 at manufacture. -/
def State.wearLimit (s : State) (die : Nat) : Nat := lookupD 100000 s.dev.wt.lim die

def State.wearOf (s : State) (bankNo slot row : Nat) : Nat := lookupD 0 s.dev.wt.wear (8 * slotNo bankNo slot + row)
def State.wears (s : State) (bankNo slot : Nat) : List Nat := (List.range 5).map (s.wearOf bankNo slot)

/-- A row of the slot has reached the limit. -/
def State.worn (s : State) (bankNo slot : Nat) : Bool :=
  (s.wears bankNo slot).any (fun w => decide (s.wearLimit (bankNo / 96) ≤ w))

/-- Contents of a slot: values, META, MP. -/
def State.slotVals (s : State) (bankNo slot : Nat) : List Byte := s.bytes (slotKey bankNo slot) 256
def State.slotSide (s : State) (bankNo slot : Nat) : List Byte := s.bytes (slotKey bankNo slot + 256) 32
def State.slotFlags (s : State) (bankNo slot : Nat) : Byte := s.byte (slotKey bankNo slot + 296)

/-- WGT address of a block. -/
def blockAddr (bankNo blk : Nat) : Nat := bankNo % 96 * 2 ^ 29 + 256 * blk

/-- The block MAC (R295). -/
def blockMac (bankNo blk : Nat) (vals side : List Byte) (flags : Byte) : BitVec 64 :=
  BitVec.ofNat 64 (leNat (kmac256 (leBytes 32 (Config.weightKey (bankNo / 96)).toNat)
    (leBytes 8 (blockAddr bankNo blk) ++ vals ++ side ++ [flags]) Config.kmacLength (asciiBytes "PN-8 WGT") 8))

/-- The MAC that a slot stores: that of its contents when it was built or, for one that no pulse has worn, manufactured. -/
def State.storedMac (s : State) (bankNo blk slot : Nat) : BitVec 64 :=
  if s.slotBad bankNo slot ∧ s.wearOf bankNo slot 0 ≠ 0 then BitVec.ofNat 64 (s.nat (slotKey bankNo slot + 288) 8)
  else blockMac bankNo blk (s.slotVals bankNo slot) (s.slotSide bankNo slot) (s.slotFlags bankNo slot)

/-- Retire a slot: a corrected event of the quadrant's bank (R305, R440), with the block that was being built. DESIGN CHOICE (log 94): a
slot retired at its release holds no block any more, so the event gives no address. -/
def State.retireSlot (s : State) (bankNo : Nat) (blk : Option Nat) : State :=
  let die := bankNo / 96
  let b := bankNo % 96
  let s := s.setWt { s.dev.wt with retired := insertAt s.dev.wt.retired bankNo (lookupD 0 s.dev.wt.retired bankNo + 1) }
  s.mcRecord die (20 + b / 24) (mcCorrected (b % 24) 0 (if blk.isSome then 4 else 0) (blk.elim 0 (blockAddr bankNo)))

/-- Name a block's slot; a block in its home slot is not listed. -/
def State.setRemap (s : State) (bankNo blk : Nat) (slot : Option Nat) : State :=
  let k := slotNo bankNo blk
  let r := if slot = some blk then s.dev.wt.remap.filter (fun e => e.1 != k) else insertAt s.dev.wt.remap k slot
  s.setWt { s.dev.wt with remap := r }

/-- release(old) waits until its readers have finished (R305). -/
def State.releaseLater (s : State) (bankNo : Nat) (slot : Option Nat) : State :=
  match slot with
  | some o => s.setWt { s.dev.wt with releasing := s.dev.wt.releasing ++ [(bankNo, o)] }
  | none => s

/-- R305: a released slot rejoins the free list's tail, or is retired. Reads of this model end within their own step, so
none holds the slot. -/
def execWpeSlotRelease (bankNo slot : Nat) (s : State) : Outcome State Fault Refusal :=
  if !s.dev.wt.releasing.contains (bankNo, slot) then .next s
  else
    let s := s.setWt { s.dev.wt with releasing := s.dev.wt.releasing.erase (bankNo, slot) }
    if s.worn bankNo slot then .next (s.retireSlot bankNo none)
    else
      let f := s.freeList bankNo
      .next (s.setWt { s.dev.wt with free := insertAt s.dev.wt.free bankNo { f with tail := f.tail ++ [slot] } })

/-- unmap(b) (R305). -/
def State.unmapBlock (s : State) (bankNo blk : Nat) : State :=
  match s.slotOfBlock bankNo blk with
  | none => s
  | some o => (s.setRemap bankNo blk none).releaseLater bankNo (some o)

/-! ### Jobs (R302 to R307) -/

/-- WGT address of the n-th block that a job touches. DESIGN CHOICE (log 94): R303 tests the alignment of DOFF alone, and with a BASE that
is not a multiple of 256 or of 64 the blocks and rows are those that hold the bytes. -/
def wpeBlockAddr (j : Job) (k : WpeCard) (n : Nat) : Nat := (capBase j.dh + k.doff) / 256 * 256 + 256 * n

/-- Bank number and block index of a WGT address of a die. -/
def bankOf (die addr : Nat) : Nat := 96 * die + addr / 2 ^ 29
def blkOf (addr : Nat) : Nat := addr % 2 ^ 29 / 256

/-- Source or metadata bytes for a build: none while the home is not ready; a marked granule ends the job (R433). -/
def State.wpeRead (s : State) (j : Job) (cap : Cap) (off z : Nat) : Option (Except (BitVec 8) (List Byte)) :=
  if z = 0 then some (.ok [])
  else if s.rowBound j cap off z then some (.error 0x26)
  else if !s.rowReady j cap (capBase cap + off) z then none
  else
    match s.jobRead j cap (capBase cap + off) z with
    | .error c => some (.error c)
    | .ok bs => some (if bs.any (·.2) then .error 0xA0 else .ok (bs.map (·.1)))

/-- What the old block gives a ROWS build (R302, R435): values, META, MP; none where it fails its MAC. -/
def State.oldBlock (s : State) (bankNo blk : Nat) : Option (List Byte × List Byte × Bool) :=
  match s.slotOfBlock bankNo blk with
  | none => some (List.replicate 256 0, List.replicate 32 0, false)
  | some sl =>
    if s.slotBad bankNo sl then none
    else some (s.slotVals bankNo sl, s.slotSide bankNo sl, bit (s.slotFlags bankNo sl) 0)

/-- First row and number of rows of a block that a ROWS job names, by the block's WGT address. -/
def rowsIn (j : Job) (k : WpeCard) (addr : Nat) : Nat × Nat :=
  let lo := capBase j.dh + k.doff
  let a := max lo addr
  let b := min (lo + k.span) (addr + 256)
  ((a - addr) / 64, (b - a) / 64)

/-- The new contents of the n-th block (R302, R306): none while a source is not ready. -/
def State.newBlock (s : State) (j : Job) (k : WpeCard) (n : Nat) : Option (Except (BitVec 8) (List Byte × List Byte × Bool)) :=
  let addr := wpeBlockAddr j k n
  let bankNo := bankOf j.die addr
  let blk := blkOf addr
  let side (old : List Byte × Bool) : Option (Except (BitVec 8) (List Byte × Bool)) :=
    if k.side then
      (s.wpeRead j j.ah (k.moff + 32 * n) 32).map (fun r => match r with
        | .ok m => .ok (m, true)
        | .error c => .error c)
    else some (.ok old)
  let build (r : Option (Except (BitVec 8) (List Byte))) (lay : List Byte → List Byte) (old : List Byte × Bool) :
      Option (Except (BitVec 8) (List Byte × List Byte × Bool)) :=
    match r with
    | none => none
    | some (.error c) => some (.error c)
    | some (.ok v) => (side old).map (fun m => match m with
      | .ok (sd, mp) => .ok (lay v, sd, mp)
      | .error c => .error c)
  if k.kind = kBlocks then build (s.wpeRead j j.sh (k.soff + 256 * n) 256) id (List.replicate 32 0, false)
  else
    let (r0, cnt) := rowsIn j k addr
    let src := k.soff + (addr + 64 * r0 - (capBase j.dh + k.doff))
    match s.oldBlock bankNo blk with
    | some (v, sd, mp) =>
      build (s.wpeRead j j.sh src (64 * cnt)) (fun new => v.take (64 * r0) ++ new ++ v.drop (64 * (r0 + cnt))) (sd, mp)
    | none =>
      if cnt < 4 then some (.error 0xA1) else build (s.wpeRead j j.sh src 256) id (List.replicate 32 0, false)

/-- The source bytes of the n-th block: offset in the source capability and length. -/
def wpeSource (j : Job) (k : WpeCard) (n : Nat) : Nat × Nat :=
  let addr := wpeBlockAddr j k n
  let (r0, cnt) := rowsIn j k addr
  if k.kind = kBlocks then (k.soff + 256 * n, 256) else (k.soff + (addr + 64 * r0 - (capBase j.dh + k.doff)), 64 * cnt)

/-- A decode error or a refusal met by the reads of a build is counted (R423, R436): the source's, or else the metadata's. -/
def State.countBuildRead (s : State) (j : Job) (k : WpeCard) (n : Nat) (cause : BitVec 8) : State :=
  let (off, z) := wpeSource j k n
  let k0 := s.jobPlace j j.sh (capBase j.sh + off)
  let here := if cause = 0xA3 then s.miscoded ((List.range z).map (k0 + ·)) else (s.pieceFault j j.sh (capBase j.sh + off) z).isSome
  if here then s.countJobRead j j.sh (capBase j.sh + off) z cause
  else s.countJobRead j j.ah (capBase j.ah + k.moff + 32 * n) 32 cause

/-- A failed build (R435): recorded in the quadrant's bank, and the job ends. -/
def State.buildFault (s : State) (j : Job) (bankNo blk : Nat) (cause : BitVec 8) : State :=
  let b := bankNo % 96
  let s := s.mcRecord (bankNo / 96) (20 + b / 24) (mcContained cause (b % 24) (s.loc j.core) 4 (blockAddr bankNo blk) (some j.misc))
  s.jobFault j cause

/-- Pop a slot for a build, or fault for want of one (R305). -/
def State.popSlot (s : State) (j : Job) (b : Build) : State :=
  match (s.freeList b.bankNo).pop with
  | none => s.buildFault j b.bankNo b.blk 0x84
  | some (sl, f) =>
    (s.setWt { s.dev.wt with free := insertAt s.dev.wt.free b.bankNo f }).setJob { j with build := some { b with slot := sl, it := 0, ok := 0 } }

/-- Banks of a die in which a build stands. -/
def State.building (s : State) (die : Nat) : List Nat :=
  s.dev.jobs.filterMap (fun j => if j.die = die then j.build.map (·.bankNo) else none)

/-- The 16-byte record of INSPECT (R302). -/
def State.inspectRecord (s : State) (bankNo blk : Nat) : List Byte :=
  match s.slotOfBlock bankNo blk with
  | none => leBytes 4 0xFFFFFFFF ++ List.replicate 12 0
  | some sl =>
    leBytes 4 sl ++ leBytes 3 ((s.wears bankNo sl).foldl max 0) ++ [s.slotFlags bankNo sl] ++
      leBytes 8 (s.storedMac bankNo blk sl).toNat

/-- One block of INSPECT: its record through SH, as a row is written. -/
def State.inspectBlock (s : State) (j : Job) (k : WpeCard) : RowEnd :=
  let addr := wpeBlockAddr j k j.rows
  let off := k.soff + 16 * j.rows
  if s.rowBound j j.sh off 16 then .fault 0x26 s
  else if !s.rowFree j j.sh (capBase j.sh + off) 16 then .wait
  else
    match s.pieceFault j j.sh (capBase j.sh + off) 16 with
    | some c => .fault c (s.countPiece j j.sh (capBase j.sh + off) 16)
    | none =>
      let key := s.jobPlace j j.sh (capBase j.sh + off)
      let bs := s.inspectRecord (bankOf j.die addr) (blkOf addr)
      .ok (s.jobWrite j j.sh ((bs.zipIdx).map (fun (b, i) => (key + i, b))) [] [])

/-- The Wicket's check of a block that a job reads or writes, under the region's OWNER as it stands now (R345): the cause of a refusal. -/
def State.blockFault (s : State) (j : Job) (addr : Nat) : Option (BitVec 8) := s.pieceFault j j.dh addr 256

/-- One block of UNMAP or INSPECT. -/
def State.wpeBlock (s : State) (j : Job) (k : WpeCard) : RowEnd :=
  let addr := wpeBlockAddr j k j.rows
  match s.blockFault j addr with
  | some c => .fault c (s.countPiece j j.dh addr 256)
  | none =>
  if k.kind = kUnmap then
    .ok (s.unmapBlock (bankOf j.die addr) (blkOf addr))
  else s.inspectBlock j k

/-- A row or block has been made, or the job has ended at it. -/
def State.rowDone (s : State) (j : Job) (r : RowEnd) : State :=
  match r with
  | .wait => s
  | .fault c s => s.jobFault j c
  | .ok s => s.setJob { j with rows := j.rows + 1 }

/-- R393, R248: a cancelled WPE job stops where no build stands. -/
def State.stopWpe (s : State) (j : Job) : State := s.jobCancelled j

/-- One row of a copy job, or one block of an INSPECT or UNMAP job, or the fault that ends the job. -/
def execCopyRow (id : Nat) (s : State) : Outcome State Fault Refusal :=
  match s.findJob id with
  | none => .next s
  | some j =>
    if !j.running then .next s
    else
      match j.bad, j.work with
      | some c, _ => .next (s.jobFault j c)
      | none, .copy card => if j.rows < j.total then .next (s.rowDone j (s.copyRow j card)) else .next s
      | none, .wpe card =>
        let k := wpeCard card
        if j.cancel && j.build.isNone then .next (s.stopWpe j)
        else if j.rows < j.total ∧ 3 ≤ k.kind then .next (s.rowDone j (s.wpeBlock j k))
        else .next s
      | none, .signal _ _ => .next s

/-- R305, R306: the build of a job's next block begins: the old block and the source are read and a slot is popped. A
bank builds one block at a time, a die 16 banks. -/
def State.startBuild (s : State) (j : Job) (k : WpeCard) : State :=
  let addr := wpeBlockAddr j k j.rows
  let bankNo := bankOf j.die addr
  let blk := blkOf addr
  let busy := s.building j.die
  if busy.contains bankNo ∨ 16 ≤ busy.length then s
  else
    match s.blockFault j addr with
    | some c => (s.countPiece j j.dh addr 256).jobFault j c
    | none =>
    match s.newBlock j k j.rows with
    | none => s
    | some (.error c) =>
      let s := if c = 0xA1 ∧ (s.oldBlock bankNo blk).isNone ∧ k.kind = kRows then s.countMac j.core j.die addr false else s
      let s := if c = 0xA3 ∨ c = 0x28 ∨ c = 0x29 then s.countBuildRead j k j.rows c else s
      s.jobFault j c
    | some (.ok (vals, side, mp)) =>
      let s := if k.kind = kRows ∧ (s.oldBlock bankNo blk).isNone then s.countMac j.core j.die addr false else s
      s.popSlot j { bankNo := bankNo, blk := blk, slot := 0, tries := 0, it := 0, ok := 0, vals := vals, side := side, mp := mp }

def execWpeBuildStart (id : Nat) (s : State) : Outcome State Fault Refusal :=
  match s.findJob id with
  | none => .next s
  | some j =>
    match j.work with
    | .wpe card =>
      let k := wpeCard card
      if !j.running || j.build.isSome || decide (j.total ≤ j.rows) then .next s
      else if j.cancel then .next (s.stopWpe j)
      else
        match j.bad with
        | some c => .next (s.jobFault j c)
        | none => if 3 ≤ k.kind then .next (s.rowDone j (s.wpeBlock j k)) else .next (s.startBuild j k)
    | _ => .next s

/-- The switch (R305): contents, MAC and FLAGS stand in the slot, the remap entry names it, the old slot waits for its
release. -/
def State.switchBlock (s : State) (j : Job) (b : Build) : State :=
  let was := s.slotOfBlock b.bankNo b.blk
  let fl : Byte := if b.mp then 1 else 0
  let mac := blockMac b.bankNo b.blk b.vals b.side fl
  let k := slotKey b.bankNo b.slot
  let s := { s with mem := Memory.writeList s.mem k (b.vals ++ b.side ++ leBytes 8 mac.toNat ++ [fl]) }
  let s := s.setWt { s.dev.wt with bad := s.dev.wt.bad.filter (· != slotNo b.bankNo b.slot) }
  let s := (s.setRemap b.bankNo b.blk (some b.slot)).releaseLater b.bankNo was
  let j := { j with build := none, rows := j.rows + 1 }
  if j.cancel then (s.setJob j).stopWpe j else s.setJob j

/-- The switch of a verified block, or its refusal (R345, R346): the block keeps its contents, the popped slot goes back, and the job ends. -/
def State.endBuild (s : State) (j : Job) (b : Build) : State :=
  let addr := blockAddr b.bankNo b.blk
  match s.blockFault j addr with
  | some c => ((s.returnBuilds (·.id == j.id)).countPiece j j.dh addr 256).jobFault j c
  | none => s.switchBlock j b

/-- R305, R306: an iteration pulses every row not verified; `ok` says which rows then sense as intended. -/
def execWpePulseIteration (id : Nat) (ok : BitVec 5) (s : State) : Outcome State Fault Refusal :=
  match s.findJob id with
  | none => .next s
  | some j =>
    match j.build with
    | none => .next s
    | some b =>
      let rows := (List.range 5).filter (fun r => !bit b.ok r)
      let s := s.setWt { s.dev.wt with wear := rows.foldl (fun w r =>
        insertAt w (8 * slotNo b.bankNo b.slot + r) (s.wearOf b.bankNo b.slot r + 1)) s.dev.wt.wear }
      let b := { b with ok := b.ok ||| ok, it := b.it + 1 }
      let worn := s.worn b.bankNo b.slot
      if !worn && b.ok == 0x1F then .next (s.endBuild j b)
      else if worn || decide (8 ≤ b.it) || b.ok == 0x1F then
        let s := s.retireSlot b.bankNo (some b.blk)
        if b.tries + 1 = 4 then .next (s.buildFault j b.bankNo b.blk 0x83)
        else .next (s.popSlot j { b with tries := b.tries + 1 })
      else .next (s.setJob { j with build := some b })

/-! ### Regions (R298 to R300) -/

def State.region (s : State) (die r : Nat) : BitVec 128 := lookupD 0 s.dev.wt.regions (64 * die + r)
def State.setRegion (s : State) (die r : Nat) (v : BitVec 128) : State :=
  s.setWt { s.dev.wt with regions := insertAt s.dev.wt.regions (64 * die + r) v }

def regionState (v : BitVec 128) : Nat := (fld v 0 2).toNat
def withState (v : BitVec 128) (st : BitVec 2) : BitVec 128 := fld v 2 126 ++ st

/-- Two regions share a block. -/
def regionsMeet (a b : BitVec 128) : Bool :=
  decide ((fld a 98 7).toNat ≤ (fld b 105 7).toNat) && decide ((fld b 98 7).toNat ≤ (fld a 105 7).toNat) &&
    decide ((fld a 56 21).toNat < (fld b 56 21).toNat + (fld b 77 21).toNat) &&
    decide ((fld b 56 21).toNat < (fld a 56 21).toNat + (fld a 77 21).toNat)

/-- R299: what opening or sealing asks of a region's fields. -/
def State.regionLegal (s : State) (die r : Nat) (v : BitVec 128) : Bool :=
  decide ((fld v 98 7).toNat ≤ (fld v 105 7).toNat) && decide ((fld v 105 7).toNat ≤ 95) && decide (1 ≤ (fld v 77 21).toNat) &&
    decide ((fld v 56 21).toNat + (fld v 77 21).toNat ≤ homeSlots) &&
    (List.range 64).all (fun k => k == r || regionState (s.region die k) == 0 || !regionsMeet v (s.region die k))

/-- R299: a write of one half of a region register; [55:2] reads zero. DESIGN CHOICE (log 94): where the STATE part of a write is ignored
while the region is free, FIRST[7:0] of the same doubleword is stored. -/
def State.writeRegion (s : State) (die r : Nat) (hi : Bool) (v : DWord) : State :=
  let old := s.region die r
  let fields : BitVec 128 :=
    if regionState old ≠ 0 then old
    else if hi then v ++ fld old 0 64
    else fld old 64 64 ++ fld v 56 8 ++ 0#54 ++ fld old 0 2
  if hi then s.setRegion die r fields
  else
    match (fld v 0 2).toNat with
    | 0 =>
      let s := s.setRegion die r (withState fields 0)
      s.setWt { s.dev.wt with digests := s.dev.wt.digests.filter (·.1 != 64 * die + r) }
    | 3 => s.setRegion die r fields
    | st =>
      if regionState old ≠ 3 ∧ s.regionLegal die r fields then s.setRegion die r (withState fields (if st = 1 then 1 else 3))
      else s.setRegion die r fields

/-- R298, R299 -/
def execWrgnWrite (die r : Nat) (hi : Bool) (v : DWord) (s : State) : Outcome State Fault Refusal :=
  if 8 ≤ die ∨ 64 ≤ r then .next s else .next (s.writeRegion die r hi v)

/-- A block as it is measured: an unmapped one as it reads. -/
def State.measuredBlock (s : State) (bankNo blk : Nat) : List Byte :=
  match s.slotOfBlock bankNo blk with
  | none => List.replicate 289 0
  | some sl => s.slotVals bankNo sl ++ s.slotSide bankNo sl ++ [s.slotFlags bankNo sl]

/-- The measurement of a region (R300). The register's 126 bits stand in 16 bytes (log 32). -/
def State.measureRegion (s : State) (die : Nat) (v : BitVec 128) : BitVec 512 :=
  let banks := (List.range 96).filter (fun b => decide ((fld v 98 7).toNat ≤ b) && decide (b ≤ (fld v 105 7).toNat))
  let blks := (List.range (fld v 77 21).toNat).map (· + (fld v 56 21).toNat)
  sha3 (leBytes 16 (v.toNat / 4) ++ banks.flatMap (fun b => blks.flatMap (fun k => s.measuredBlock (96 * die + b) k)))

/-- A WPE job accepted and not complete touches the region (R299). -/
def jobInRegion (j : Job) (die : Nat) (v : BitVec 128) : Bool :=
  match j.work with
  | .wpe card =>
    let k := wpeCard card
    j.die == die && (List.range (k.blocks (capBase j.dh))).any (fun n =>
      let a := wpeBlockAddr j k n
      regionHas v (a / 2 ^ 29) (blkOf a))
  | _ => false

/-- R299: a measuring region whose jobs have completed is measured and sealed. -/
def execRegionSealComplete (die r : Nat) (s : State) : Outcome State Fault Refusal :=
  let v := s.region die r
  if regionState v ≠ 3 ∨ s.dev.jobs.any (fun j => jobInRegion j die v) then .next s
  else
    let s := s.setRegion die r (withState v 2)
    .next (s.setWt { s.dev.wt with digests := insertAt s.dev.wt.digests (64 * die + r) (s.measureRegion die v) })

/-- R300: at power-up every region that is not free is measured, and then the die accepts launches (R379). -/
def execRegionRehashComplete (die : Nat) (s : State) : Outcome State Fault Refusal :=
  if lookupD .rehash s.dev.boot die ≠ .rehash ∨ 8 ≤ die ∨ s.dev.lost.contains die then .next s
  else
    let s := (List.range 64).foldl (fun s r =>
      if regionState (s.region die r) = 0 then s
      else s.setWt { s.dev.wt with digests := insertAt s.dev.wt.digests (64 * die + r) (s.measureRegion die (s.region die r)) }) s
    .next { s with dev := { s.dev with boot := insertAt s.dev.boot die .ready } }

/-! ### WPELIM and WBANK (R309, R310) -/

/-- WPELIM as read. -/
def State.wpelim (s : State) (die : Nat) : DWord :=
  let busy := s.dev.jobs.any (fun j => j.die == die && (match j.work with | .wpe _ => true | _ => false))
  0#32 ++ BitVec.ofBool busy ++ 0#7 ++ BitVec.ofNat 24 (s.wearLimit die)

/-- A written 0 stores 1. -/
def State.writeWpelim (s : State) (die : Nat) (v : DWord) : State :=
  s.setWt { s.dev.wt with lim := insertAt s.dev.wt.lim die (max 1 (fld v 0 24).toNat) }

/-- WBANKn as read. -/
def State.wbank (s : State) (die b : Nat) : DWord :=
  let n := 96 * die + b
  let f := s.freeList n
  let un := s.dev.wt.remap.countP (fun e => decide (e.1 / 2 ^ 21 = n) && e.2.isNone)
  0#1 ++ BitVec.ofNat 21 (lookupD 0 s.dev.wt.retired n) ++ BitVec.ofNat 21 (allSlots - f.next + f.tail.length) ++ BitVec.ofNat 21 un

end Sys2Proof.Machine
end

