-- ==== Sys2Proof/Machine/Timing.lean ====
section
/-! DEFINITION. What falls due at a core's boundary (R52 to R55, R192, R199 to R201): landing writes, results, blocks at
the port, retiring, weight fills and the format shadow. Counts are those of the running code; banked ones stand still. -/

namespace Sys2Proof.Machine

open Host (Outcome)

/-! ### Landing entries (R53) -/

def Core.landDue (c : Core) : List Landing := c.t.landing.filter (·.rem == 0)

/-- What an entry writes when its count has run out. -/
def Landing.write (l : Landing) : Write :=
  match l.dest with
  | .v k => if l.marks = 0 then .v k l.mask l.data else .vMarked k l.mask l.data l.marks
  | .x r => if l.marks = 0 then .x r (l.data.setWidth 64) else .xMarked r (l.data.setWidth 64)
  | .h r => if l.marks = 0 then .h r (l.data.setWidth 256) false else .hMarked r (l.data.setWidth 256) false

/-- Every due entry is written, the older first. -/
def State.writeLandings (s : State) (n : Nat) : State :=
  let due := (s.core n).landDue
  let s := due.foldl (fun s l => applyWrite n l.write s) s
  let c := s.core n
  s.setCore n { c.setNarrow (due.any (·.narrow)) with t := { c.t with landing := c.t.landing.filter (·.rem != 0) } }

/-- A due weight fill, and whether all of its blocks stand in the slot. -/
def Core.fillsDue (c : Core) : List Fill := c.t.fills.filter (·.rem == 0)
def Fill.full (f : Fill) : Bool := f.done.length == 32

/-- R33: a due landing entry without data, or a due fill without a block, freezes the core. -/
def Core.frozen (c : Core) : Bool := c.landDue.any (!·.arrived) || c.fillsDue.any (!·.full)

/-- R53 -/
def execLandingCountExpiry (n : Nat) (s : State) : Outcome State Fault Refusal :=
  if (s.core n).frozen then .next s else .next (s.writeLandings n)

/-! ### Results (R52, R96) -/

def Core.pendDue (c : Core) : List Pend := c.t.pend.filter (·.rem == 0)

/-- Every due result is written, and the flags raised with them are set. -/
def State.writeResults (s : State) (n : Nat) : State :=
  let due := orderPend (s.core n).pendDue
  let s := due.foldl (fun s p => applyWrite n p.w s) s
  let c := due.foldl (fun c p => c.flag p.flags) (s.core n)
  s.setCore n { c with t := { c.t with pend := c.t.pend.filter (·.rem != 0) } }

/-- R52: the boundary's results, once its landing writes are made. -/
def execResultWriteback (n : Nat) (s : State) : Outcome State Fault Refusal :=
  if (s.core n).frozen || !(s.core n).landDue.isEmpty then .next s else .next (s.writeResults n)

/-! ### The engine (R199 to R201, R209) -/

def EngOp.starts (o : EngOp) : Bool := !o.begun && decide (o.left ≤ o.dur + 8)

def Core.startEngine (c : Core) : Core :=
  { c with t := { c.t with eng := c.t.eng.map (fun o => if o.starts then { o with begun := true } else o) } }

/-- R199: an operation starts. -/
def execEngineOpStart (n : Nat) (s : State) : Outcome State Fault Refusal := .next (s.setCore n (s.core n).startEngine)

/-- The block that stood at the port in the cycle before this boundary has not been written yet. -/
def EngOp.portDue (o : EngOp) : Bool := decide (o.left < 8 - o.done) && decide (o.done < 8)

/-- The exponent of the scale adder whose execute cycle has just ended (R201). -/
def Core.scaleNow (c : Core) : Int := ((c.t.scale.find? (·.rem == 0)).map (·.e)).getD 0

/-- Elements of block `b` of an operation. -/
def EngOp.block (o : EngOp) (x : Int) (b : Nat) : List DWord :=
  match o.res with
  | .blocks _ es => (es.drop (128 * b)).take 128
  | .scaled ps acc =>
    (((ps.drop (128 * b)).take 128).zip ((acc.drop (128 * b)).take 128)).map (fun (p, e) => scaleElem o.rm p.1 p.2 x e)
  | .whole _ _ _ => []

/-- Block `done` of an operation leaves the port (R199, R96). -/
def Core.leavePort (c : Core) (o : EngOp) : Core :=
  let new := o.block c.scaleNow o.done
  let t := c.tile o.md
  let c := if new.isEmpty then c
    else c.setTile o.md { t with elems := putElems (if t.elems.length = 1024 then t.elems else zeroElems) (128 * o.done) new }
  if o.atRetire then c else c.flag (o.flags.getD o.done 0)

/-- Write the blocks that have stood at the port; a due scale entry is used up, block or not (R201). -/
def Core.portBlocks (c : Core) : Core :=
  let c := (c.t.eng.filter EngOp.portDue).foldl Core.leavePort c
  { c with t := { c.t with
    eng := c.t.eng.map (fun o => if o.portDue then { o with done := o.done + 1 } else o)
    scale := c.t.scale.filter (·.rem != 0) } }

def State.resultsDue (s : State) (n : Nat) : Bool :=
  (s.core n).frozen || !(s.core n).landDue.isEmpty || !(s.core n).pendDue.isEmpty

/-- R199: a block leaves the port, after the boundary's other results. -/
def execPortBlock (n : Nat) (s : State) : Outcome State Fault Refusal :=
  if s.resultsDue n then .next s else .next (s.setCore n (s.core n).portBlocks)

/-- R201: an exponent meets the block that stands at the port in its execute cycle, or nothing. -/
def execXscaleExecute (n : Nat) (s : State) : Outcome State Fault Refusal :=
  if s.resultsDue n || !(s.core n).t.scale.any (·.rem == 0) then .next s else .next (s.setCore n (s.core n).portBlocks)

def EngOp.retires (o : EngOp) : Bool := o.left == 0 && o.done == 8

/-- Engine operations of a core, banked ones too. -/
def Core.engOps (c : Core) : List EngOp := c.t.eng ++ (match c.bank with | some b => b.t.eng | none => [])

/-- The result stands: kind, panels, exponent, flags, TL and the slots marked last-read (R199, R200, R225). A slot that another
operation still locks is released by the last of those (R419). -/
def Core.retireOp (c : Core) (o : EngOp) : Core :=
  let t := c.tile o.md
  let c := match o.res with
    | .whole rank u v =>
      c.setTile o.md { kind := .lowRank, rank := rank, panels := o.reserved.take (2 * rank), elems := [], u := u, v := v }
    | .blocks kind _ => c.setTile o.md { kind := kind, rank := 0, panels := o.reserved.take 32, elems := t.elems, u := [], v := [] }
    | .scaled _ _ => c.setTile o.md { kind := .dense, rank := 0, panels := o.reserved.take 32, elems := t.elems, u := [], v := [] }
  let c := if o.atRetire then c.flag (o.flags.foldl (· ||| ·) 0) else c
  let c := match o.xdest with
    | some (r, e) => c.addX r e
    | none => c
  let rest := c.engOps.filter (fun k => !k.retires)
  let (held, free) := o.lastRead.partition (fun os => rest.any (fun k => k.slots.contains os))
  let c := free.foldl (fun c os => c.setSlot os { c.slot os with claimed := false }) c
  let pass (k : EngOp) : EngOp := { k with lastRead := k.lastRead ++ held.filter (fun os => k.slots.contains os && !k.lastRead.contains os) }
  { c with
    t := { c.t with eng := c.t.eng.map pass }
    bank := c.bank.map (fun b => { b with t := { b.t with eng := b.t.eng.map pass } }) }

def Core.retireEngine (c : Core) : Core :=
  let due := c.t.eng.filter EngOp.retires
  let c := due.foldl (fun c o => (c.retireOp o).subTl) c
  { c with t := { c.t with eng := c.t.eng.filter (fun o => !o.retires) } }

/-- R199: an operation retires once its last block has left the port. -/
def execEngineRetire (n : Nat) (s : State) : Outcome State Fault Refusal :=
  if s.resultsDue n then .next s else .next (s.setCore n (s.core n).retireEngine)

/-! ### Weight fills (R191, R192, R296, R297, R434) -/

def Core.setFill (c : Core) (os : OSlot) (g : Fill → Fill) : Core :=
  let put (t : Timing) : Timing := { t with fills := t.fills.map (fun f => if f.os = os then g f else f) }
  { c with t := put c.t, bank := c.bank.map (fun b => { b with t := put b.t }) }

def Core.fillOf (c : Core) (os : OSlot) : Option Fill :=
  (c.t.fills ++ (match c.bank with | some b => b.t.fills | none => [])).find? (·.os == os)

/-- The region of a block admits core n's context (R345). -/
def State.fillAllowed (s : State) (n addr : Nat) : Bool :=
  match s.regionOf (dieOf n) (addr / 2 ^ 29) (blkOf addr) with
  | some r => decide (fld r 112 16 = s.ctxOf n) || decide (fld r 112 16 = 0)
  | none => true

/-- A block as a fill takes it: values and metadata, and whether its MAC holds; a refused read delivers a free value. -/
def State.fillBlock (s : State) (n addr : Nat) : List Byte × List Byte × Bool :=
  let die := dieOf n
  let bankNo := bankOf die addr
  let junk : List Byte := (List.range 288).map (fun i => fld (Config.freeWord s.free) (8 * (i % 128)) 8)
  if !s.fillAllowed n addr then (junk.take 256, junk.drop 256, false)
  else
    match s.slotOfBlock bankNo (blkOf addr) with
    | none => (List.replicate 256 0, List.replicate 32 0, true)
    | some sl =>
      (s.slotVals bankNo sl, if bit (s.slotFlags bankNo sl) 0 then s.slotSide bankNo sl else List.replicate 32 0,
        !s.slotBad bankNo sl)

/-- Whether the block that a fill reads fails its MAC. -/
def State.fillMacFails (s : State) (n addr : Nat) : Bool :=
  match s.slotOfBlock (bankOf (dieOf n) addr) (blkOf addr) with
  | some sl => s.slotBad (bankOf (dieOf n) addr) sl
  | none => false

/-- Line `i` of a slot takes a block. -/
def State.deposit (s : State) (n : Nat) (os : OSlot) (i : Nat) (vals side : List Byte) (ok : Bool) : State :=
  let c := s.core n
  let t := c.slot os
  let s := s.setCore n (c.setSlot os { t with
    verified := setBit t.verified i ok, marks := setBit (setBit t.marks (2 * i) (!ok)) (2 * i + 1) (!ok) })
  { s with mem := Memory.writeList (Memory.writeList s.mem (osKey n os + 256 * i) vals) (sideKey n os i) side }

/-- The next block of a fill may be read: it has its place in the task's program order (R266, R297, R307). -/
def State.blockReady (s : State) (n : Nat) (f : Fill) : Bool :=
  !f.full && s.ready n f.id [(mkey .wgt (dieOf n) (f.addr + 256 * f.done.length), 256)] false none

/-- The next block of a fill goes into its line; `whole` says that its transfer passed its check. -/
def State.takeBlock (s : State) (n : Nat) (os : OSlot) (f : Fill) (whole : Bool) : State :=
  let i := f.done.length
  let addr := f.addr + 256 * i
  let (vals, side, ok) := s.fillBlock n addr
  let s := if s.fillMacFails n addr then s.countMac n (dieOf n) addr true else s
  let s := if s.fillAllowed n addr then s else s.countDenial n (s.miscOf n) .denied (mkey .wgt (dieOf n) addr) true
  let s := { s.deposit n os i vals side (ok && whole) with free := s.free + 1 }
  (s.setCore n ((s.core n).setFill os (fun f => { f with done := f.done ++ [i] }))).settleFences n

/-- R191: the next block of a fill is verified and deposited. -/
def execWloadBlockArrival (n : Nat) (os : OSlot) (s : State) : Outcome State Fault Refusal :=
  match (s.core n).fillOf os with
  | none => .next s
  | some f => if !s.blockReady n f then .next s else .next (s.takeBlock n os f true)

/-- Fills whose count has run out are complete, and WL falls. -/
def Core.endFills (c : Core) : Core :=
  let c := c.fillsDue.foldl (fun c _ => c.subWl) c
  { c with t := { c.t with fills := c.t.fills.filter (·.rem != 0) } }

/-- R192 -/
def execWloadFillExpiry (n : Nat) (os : OSlot) (s : State) : Outcome State Fault Refusal :=
  if s.resultsDue n || !(s.core n).fillsDue.any (·.os == os) then .next s else .next (s.setCore n (s.core n).endFills)

/-! ### The format shadow (R55) -/

def Core.endShadow (c : Core) : Core :=
  match c.t.shadow with
  | some f => if f.rem = 0 then { c with c := { c.c with acc := f.acc, rm := f.rm }, t := { c.t with shadow := none } } else c
  | none => c

/-- R55: the pending mode rules from the fifth advance cycle. -/
def execFmtShadowExpiry (n : Nat) (s : State) : Outcome State Fault Refusal :=
  if (s.core n).frozen then .next s else .next (s.setCore n (s.core n).endShadow)

/-! ### The boundary and the counts -/

/-- Everything that is due at the boundary before this cycle, in the order of R52; the core is not frozen. -/
def State.settle (s : State) (n : Nat) : State :=
  let s := (s.writeLandings n).writeResults n
  s.setCore n (((((s.core n).startEngine).portBlocks).retireEngine).endFills).endShadow

/-- One advance cycle of the running code's counts. -/
def Timing.tick (t : Timing) : Timing :=
  { t with
    pend := t.pend.map (fun p => { p with rem := p.rem - 1 })
    landing := t.landing.map (fun l => { l with rem := l.rem - 1 })
    eng := t.eng.map (fun o => { o with left := o.left - 1 })
    fills := t.fills.map (fun f => { f with rem := f.rem - 1 })
    scale := t.scale.map (fun e => { e with rem := e.rem - 1 })
    shadow := t.shadow.map (fun f => { f with rem := f.rem - 1 }) }

def Core.tick (c : Core) : Core := { c with t := c.t.tick, stall := c.stall - 1 }

end Sys2Proof.Machine
end

