-- ==== Sys2Proof/Machine/Overlay.lean ====
section
/-! DEFINITION. The overlay unit (R321 to R324): segments copied into IMEM, segment marks, and the fetches and literal
reads that wait for a segment. -/

namespace Sys2Proof.Machine

open Host (Outcome)

def State.segAt (s : State) (c : Core) (g : Nat) : Option Seg := (s.segs c.ctx c.c.codebase.toNat).find? (·.num == g)

/-- A copy starts: every resident segment that shares IMEM lines with it loses its resident bit (R322). -/
def State.startCopy (s : State) (n : Nat) (g : Seg) : State :=
  let c := s.core n
  let hit (k : Nat) : Bool := (s.segAt c k).any (fun h => h.overlaps g)
  s.setCore n { c with k := { c.k with
    resident := c.k.resident.filter (fun k => !hit k), segCopy := some g.num, segStale := false } }

/-- The mark of a bundle at `a` (R322): copy NEXT of its segment, unless a condition there forbids it. -/
def State.segMark (s : State) (n a : Nat) : State :=
  let c := s.core n
  match s.segOf c a with
  | none => s
  | some own =>
    match s.segAt c own.next with
    | none => s
    | some g =>
      if own.next = 0xFFF ∨ c.k.resident.contains g.num ∨ c.k.segCopy.isSome ∨ g.overlaps own then s else s.startCopy n g

/-- R322: the mark of a bundle whose last issue has been made. -/
def execSegmentMark (n : Nat) (s : State) : Outcome State Fault Refusal :=
  let c := s.core n
  match c.k.mark with
  | none => .next s
  | some a => .next ((s.setCore n { c with k := { c.k with mark := none } }).segMark n a.toNat)

/-- Arena addresses of a segment's lines. -/
def Seg.lineAddrs (g : Seg) (base : Nat) : List Nat := (List.range g.nlines).map (fun i => base + 128 * (g.aline + i))

/-- The first line of a segment that cannot be copied: its page is denied, its home lost, or a granule fails its check
(R423, R451). -/
def State.badLine (s : State) (n : Nat) (g : Seg) : Option Nat :=
  (g.lineAddrs (s.core n).c.codebase.toNat).find? (fun a =>
    !s.arenaOk (s.ctxOf n) a || s.spoiled (mkey .glob 0 a) 128 ||
      s.miscoded [mkey .glob 0 a])

/-- Stores to the code line at a key are on their way: what the line holds meanwhile may be neither old nor new (R278, log 28). -/
def State.halfStored (s : State) (k : Nat) : Bool :=
  s.cores.any (fun (n, c) => c.m.accs.any (fun a => a.isStore && meet (s.pieces n a) [(k, 128)]))

/-- The overlay unit may read the segment table of core n's arena: its homes are in step with the core's die (R271). -/
def State.tableReady (s : State) (n : Nat) : Bool :=
  let base := (s.core n).c.codebase.toNat
  ([base, base + 16 * s.globNat base 2] : List Nat).all (fun a => s.inStep (dieOf n) (homeDie a) && !s.ownerOwed (mkey .glob 0 a))

/-- The homes of the table and of a segment's lines are in step with the core's die, and no store to them is on its way
(R271, R278). -/
def State.linesReady (s : State) (n : Nat) (g : Seg) : Bool :=
  s.tableReady n && (g.lineAddrs (s.core n).c.codebase.toNat).all (fun a =>
    s.inStep (dieOf n) (homeDie a) && !s.ownerOwed (mkey .glob 0 a) && !s.halfStored (mkey .glob 0 a))

/-- Copy every line of a segment whole into IMEM, each at one moment (R278). -/
def State.copyLines (s : State) (n : Nat) (g : Seg) : State :=
  let base := (s.core n).c.codebase.toNat
  (g.lineAddrs base).foldl (fun s a =>
    { s with mem := Memory.writeList s.mem (mkey .imem n (g.imem base a)) (s.bytes (mkey .glob 0 a) 128) }) s

/-- Code at an address may be read: outside the arena there is none, a resident segment stands in IMEM, and for what is read in the arena
itself its table and its home are in step with the core's die (R271). -/
def State.codeKnown (s : State) (n a : Nat) : Bool :=
  let c := s.core n
  !c.inArena a || (s.segOf c a).any (fun g => c.k.resident.contains g.num) ||
    (s.tableReady n && s.inStep (dieOf n) (homeDie a) && !s.ownerOwed (mkey .glob 0 a))

/-- An address waits for a segment (R322); an address outside the arena or every segment waits for none. -/
def State.absent (s : State) (n a : Nat) : Option Seg :=
  let c := s.core n
  match s.segOf c a with
  | some g => if c.k.resident.contains g.num || !c.inArena a then none else some g
  | none => none

/-- R324, R424: the fetch or literal read of slot `sl` at address `a` waits on a segment whose copy failed. -/
def State.fetchFault (s : State) (n a : Nat) (sl : Slot) : Option Trap :=
  match s.absent n a, (s.core n).k.wait with
  | some g, some (k, some line) => if k = g.num then some (mkTrap 0xA4 (BitVec.ofNat 64 line) sl (s.core n)) else none
  | _, _ => none

/-- The copy of a segment ends, and with it the segment is resident or not. -/
def State.endCopy (s : State) (n : Nat) (g : Seg) (add : Bool) : State :=
  let c := s.core n
  s.setCore n { c with k := { c.k with
    segCopy := none, segStale := false
    wait := if add then c.k.wait.filter (fun w => w.1 != g.num) else c.k.wait
    resident := if add then KeySet.add c.k.resident g.num else c.k.resident } }

/-- R324, R424: the line at `a` fails its check; its segment stays not resident, and the fetch that waits on it takes 0xA4. -/
def State.segFails (s : State) (n : Nat) (g : Seg) (a : Nat) : State :=
  let s := s.endCopy n g false
  let c := s.core n
  s.setCore n { c with k := { c.k with wait := c.k.wait.map (fun w => if w.1 = g.num then (w.1, some a) else w) } }

/-- R321, R324: every line of the copied segment has landed; the segment becomes resident, and the fetch that waits on it waits no longer,
unless an IINV came or a line failed. -/
def execOverlaySegmentLanded (n : Nat) (s : State) : Outcome State Fault Refusal :=
  let c := s.core n
  match c.k.segCopy.bind (s.segAt c) with
  | none => .next s
  | some g =>
    if !s.linesReady n g then .next s else
    match s.badLine n g with
    | some a =>
      let s := s.segFails n g a
      let k := [mkey .glob 0 a]
      .next (if !s.arenaOk (s.ctxOf n) a then s.countDenial n (s.miscOf n) .denied (mkey .glob 0 a) false
        else if s.miscoded k then (s.recoded k).recordTransfer n k 0xA3 (s.miscOf n) false else s)
    | none => .next ((s.copyLines n g).endCopy n g (!c.k.segStale))

/-- Start the copy that a fetch or literal read at `a` waits for; false when nothing waits. -/
def State.fetchSeg (s : State) (n a : Nat) : State × Bool :=
  match s.absent n a with
  | none => (s, false)
  | some g =>
    let s := if (s.core n).k.segCopy.isSome then s else s.startCopy n g
    let c := s.core n
    (s.setCore n { c with k := { c.k with wait := some (g.num, none) } }, true)

/-- Copy a segment in at once, as start and restore do before the first advance cycle (R321, R324); the address of a line
that fails. -/
def State.loadSeg (s : State) (n : Nat) (g : Seg) : State :=
  let s := (s.startCopy n g).copyLines n g
  let c := s.core n
  s.setCore n { c with k := { c.k with segCopy := none, resident := KeySet.add c.k.resident g.num } }

end Sys2Proof.Machine
end

