-- ==== Sys2Proof/Machine/MemFault.lean ====
section
/-! DEFINITION. Conditions that the memory system finds (R423 to R437): a granule, a weight block, a transfer, a register or a barrier
object fails its check. The reader, the writer, the job and the atomic each meet the mark where they work. -/

namespace Sys2Proof.Machine

open Host (Outcome)

def condCause : MemCond → BitVec 8
  | .ecc => 0xA2 | .mac => 0xA1 | .decode => 0xA3 | .poisoned => 0xA0

/-- The bank, unit and address kind of a granule (R440, R442). -/
def granuleBank (key : Nat) : Nat × Nat × Nat × BitVec 4 :=
  let (die, b, unit, kind) := markBank key
  if keySpace key = MSpace.clus.code then (die, b, 8, kind) else (die, b, unit, kind)

/-- A granule of SPAD, CLUS or GLOB fails its check: it is marked, and the mark stays until a write covers it (R423, R429).
The MAC is one for a 256-byte block of LPDDR-6 (R375, R425), whose granules fail together; SPAD and CLUS have none.
A granule found already poisoned is a mark without a new error; a decode error is one of the next transfer of the line, and
the home's copy is unchanged (R436). -/
def State.granuleFails (s : State) (key : Nat) (cond : MemCond) : State :=
  let g := granule key
  if cond = .decode then s.setMs { s.dev.ms with broken := insertAt s.dev.ms.broken g cond }
  else if cond = .poisoned then s.addMarks [g]
  else if cond = .mac ∧ keySpace key ≠ MSpace.glob.code then s
  else
    let (die, b, unit, kind) := granuleBank (g * 32)
    let gs := if cond = .mac then (List.range 8).map (g / 8 * 8 + ·) else [g]
    let s := s.addMarks gs
    let s := s.setMs { s.dev.ms with broken := gs.foldl (fun l g => insertAt l g cond) s.dev.ms.broken }
    let loc := if keySpace key = MSpace.spad.code then s.loc (keyUnit key) else 0
    let misc := if keySpace key = MSpace.spad.code then some (s.miscOf (keyUnit key)) else none
    s.mcRecord die b { mcContained (condCause cond) unit loc kind (keyOff (g * 32)) misc with pmark := true }

/-- R423, R425: an uncorrectable ECC error in a line that a slice or an L1 holds. The copy's granule is marked; its home is
unchanged. The bank is the cluster's (R440): `unit` is 8 for the slice's arrays and 9 for the flit that filled the line; for an L1 it is the
core. -/
def State.lineFails (s : State) (clu : Nat) (core : Option Nat) (key : Nat) (unit : Nat := 8) : State :=
  let hit (l : CLine) : CLine :=
    if l.key = lineKey key then { l with marks := setBit l.marks ((key - l.key) / 32) true } else l
  let held := match core with
    | none => (s.sliceLine clu key).isSome
    | some n => ((s.core n).l1Line key).isSome
  if !held then s
  else
    let s := match core with
      | none => s.setMs { s.dev.ms with lines := s.dev.ms.lines.map (fun (c, l) => (c, if c = clu then hit l else l)) }
      | some n => s.setCore n { s.core n with m := { (s.core n).m with l1 := (s.core n).m.l1.map hit } }
    let kind := addrKind key
    s.mcRecord (clu / 12) (clu % 12)
      { mcContained 0xA2 (core.elim unit (· % 8)) (core.elim 0 s.loc) kind (if kind = 0 then 0 else keyOff (granule key * 32))
          (core.map s.miscOf) with pmark := true }

/-- An uncorrectable ECC error in an array of core n: what `f` marks is poisoned, and the bank of its cluster records it (R425 to R427). -/
def State.arrayFails (s : State) (n : Nat) (marked : Bool) (f : Core → Core) : State :=
  if 768 ≤ n then s
  else
    (s.setCore n (f (s.core n))).mcRecord (dieOf n) (clusterOf n % 12)
      { mcContained 0xA2 (n % 8) (s.loc n) 0 0 (some (s.miscOf n)) with pmark := marked }

def Core.markRow (c : Core) (os : OSlot) (row : Nat) : Core :=
  c.setSlot os { c.slot os with marks := setBit (c.slot os).marks row true }
/-- A doubleword of a landing entry that has it (R427). -/
def Core.markEntry (c : Core) (id d : Nat) : Core :=
  match c.landings.find? (·.id == id) with
  | some l => if l.arrived && decide (d < 16) then c.setLanding { l with marks := setBit l.marks d true } else c
  | none => c

/-- A register or array of core n fails (R425). DESIGN CHOICE (log 94): x0 and h0, which nothing writes, and tiles and predicates, which
R427 gives no mark, keep what they hold, and the error is recorded only. -/
def State.holderFails (s : State) (site : FaultSite) : State :=
  match site with
  | .slotRow n os row => s.arrayFails n true (·.markRow os row.toNat)
  | .xReg n r => s.arrayFails n (r != 0) (·.markX r)
  | .hReg n r => s.arrayFails n (r != 0) (·.markH r)
  | .vReg n k d => s.arrayFails n true (·.markV k.toNat (BitVec.twoPow 16 d.toNat))
  | .buffer n id d =>
    if (s.core n).landings.any (fun l => l.id == id && l.arrived) && decide (d < 16) then s.arrayFails n true (·.markEntry id d) else s
  | .pReg n _ | .tile n _ => s.arrayFails n false id
  | _ => s

/-- The transfer of a job's next row fails its check: the job ends with 0xA2 (R423, R432). -/
def State.jobFlitFails (s : State) (id : Nat) : State :=
  match s.findJob id with
  | none => s
  | some j =>
    if j.running && decide (j.rows < j.total) && j.build.isNone && j.bad.isNone then
      (s.setJob { j with bad := some 0xA2 }).mcRecord (dieOf j.core) (clusterOf j.core % 12)
        (mcContained 0xA2 9 (s.loc j.core) 0 0 (some j.misc))
    else s

/-- The transfer that serves an entry of core n fails in the doublewords of `only`, or in all. -/
def State.transferFails (s : State) (n id : Nat) (cond : MemCond) (only : Option Nat) : State :=
  if !s.dataReady n id then s
  else (s.takeData n id false only).recordTransfer n (s.transferKeys n id) (condCause cond) (s.miscOf n) true

/-- Bytes that a store's unit has brought are poisoned where they stand, or where they arrive (R425): HOST and PEER memory holds no mark,
the line that a slice keeps of it does (R427). -/
def State.poisonStored (s : State) (n : Nat) (a : Access) (keys : List Nat) : State :=
  let gs := (keys.map granule).dedup
  let sent (m : Msg) : Msg :=
    match m.body with
    | .write c acc j ctx bytes tags marks rel =>
      if m.of n a.id then { m with body := .write c acc j ctx bytes tags (marks ++ gs.filter ((bytes.map (fun b => granule b.1)).contains)) rel }
      else m
    | _ => m
  let s := s.setMs { s.dev.ms with msgs := s.dev.ms.msgs.map sent }
  if 4 ≤ capSpace a.cap then s.mapLines (· == clusterOf n) (fun l => some (l.poison gs))
  else
    let here := keys.filter (fun k => keySpace k != MSpace.glob.code || homeDie (keyOff k) == dieOf n)
    (s.addMarks (here.map granule).dedup).mapLines (fun c => c / 12 == dieOf n) (fun l => some (l.poison (here.map granule)))

/-- The flit of a store's next unit fails its check: the unit is performed, poisoned (R423, R425). -/
def State.storeFlitFails (s : State) (n id : Nat) : State :=
  match (s.core n).findAcc id with
  | none => s
  | some a =>
    if !s.storeReady n a || a.performed || a.isFlush then s
    else
      let keys := (s.storeBytes n a (s.pick a.left)).map (·.1)
      let good := keys.filter (fun k => s.verdict (s.ctxOf n) a.cap k == .ok)
      ((s.storeStep n a).poisonStored n a good).recordTransfer n keys 0xA2 (s.miscOf n) true

/-- What an atomic does whose request or answer has failed: it acts as on a poisoned target (R430, R431). An answer is lost after its
element was applied, a request before. -/
def State.atomicLost (s : State) (n : Nat) (a : Access) : State :=
  let c := s.core n
  match a.kind, a.reply with
  | .amo _ xd _ _, reply =>
    let c := c.retire a
    if xd ≠ 0 then s.setCore n (c.markX xd)
    else if reply.isSome then s.setCore n c
    else s.setCore n (c.defer (deferred 0xA0 (BitVec.ofNat 64 a.off) a.slot))
  | .vamo op ph act _ _ next _, some (some old, rels, _) =>
    let j := (nextActive act next).getD 31
    let s := s.atomicDone n a (some old) rels
    if op = VamoOp.redst then s else s.setCore n ((s.core n).markV ph (1 <<< (j / 2)))
  | .vamo op ph act offs d next rm, _ =>
    let j := (nextActive act next).getD 31
    let a' := { a with kind := .vamo op ph act offs d j rm, performed := false, reply := none }
    let c := { c with m := { c.m with accs := c.m.accs.filter (·.id != a.id) } }
    s.setCore n (c.defer { deferred 0xA0 (BitVec.ofNat 64 (offs.getD j 0)) a.slot with elem := j, replay := some a' })
  | _, _ => s

/-- The request or the answer of an atomic fails its check, as a poisoned target does, though no granule is marked (R425, R430, R431). -/
def State.atomicFlitFails (s : State) (n id : Nat) : State :=
  match (s.core n).findAcc id with
  | none => s
  | some a =>
    if !s.atomicReady n a then s
    else
      let k := ((s.atomicSpot n a).map (·.1)).getD 0
      ((s.atomicLost n a).settleFences n).recordTransfer n [k] 0xA2 (s.miscOf n) true

/-- The flit of a line of the segment copy in flight fails its check (R324, R424). -/
def State.segFlitFails (s : State) (n a : Nat) : State :=
  let c := s.core n
  match c.k.segCopy.bind (s.segAt c) with
  | none => s
  | some g =>
    if s.linesReady n g && (g.lineAddrs c.c.codebase.toNat).contains a then
      (s.segFails n g a).recordTransfer n [mkey .glob 0 a] 0xA2 (s.miscOf n) false
    else s

/-- The block that a fill takes next fails on its way: its flit, or its decoding (R436). -/
def State.fillFlitFails (s : State) (n : Nat) (os : OSlot) (cond : MemCond) : State :=
  match (s.core n).fillOf os with
  | none => s
  | some f =>
    if !s.blockReady n f then s
    else (s.takeBlock n os f false).recordTransfer n [mkey .wgt (dieOf n) (f.addr + 256 * f.done.length)] (condCause cond) (s.miscOf n) true

/-- The stored contents of a weight block no longer answer their MAC (R296, R434). -/
def State.weightFails (s : State) (die bank blk : Nat) : State :=
  let bankNo := 96 * die + bank
  match s.slotOfBlock bankNo blk with
  | some sl => if s.slotBad bankNo sl then s else s.setWt { s.dev.wt with bad := s.dev.wt.bad ++ [slotNo bankNo sl] }
  | none => s

/-- R437: an uncorrectable error in a barrier object clears ACT; its waiters are released invalidated (`execBwaitp`). -/
def State.barrierFails (s : State) (addr : Nat) : State :=
  let o := s.bar addr
  let s := s.setBar addr { o with act := false }
  s.mcRecord (barDie addr) 29 (mcContained 0xA2 0 0 7 addr none)

/-- The code of the BARR space in a key: barrier objects have no bytes of the flat memory. -/
def barrSpace : Nat := 9

/-- R423: the memory system finds a condition. -/
def execMemoryFaultFound (site : FaultSite) (cond : MemCond) (s : State) : Outcome State Fault Refusal :=
  match site with
  | .granule key =>
    if keySpace key = barrSpace then .next (s.barrierFails (keyOff key))
    else if keySpace key ≤ 2 then .next (s.granuleFails key cond)
    else .next s
  | .line clu key => if 96 ≤ clu ∨ cond ≠ .ecc then .next s else .next (s.lineFails clu none key)
  | .l1 n key => if 768 ≤ n ∨ cond ≠ .ecc then .next s else .next (s.lineFails (clusterOf n) (some n) key)
  | .weight die bank blk => if 8 ≤ die ∨ 96 ≤ bank then .next s else .next (s.weightFails die bank blk)
  | .landing n id => .next (s.transferFails n id cond none)
  | .lineFlit clu key => if 96 ≤ clu ∨ cond ≠ .ecc then .next s else .next (s.lineFails clu none key 9)
  | .flit n id d => if cond ≠ .ecc then .next s else .next (s.transferFails n id cond (some d))
  | .fillFlit n os => if cond ≠ .ecc ∧ cond ≠ .decode then .next s else .next (s.fillFlitFails n os cond)
  | .storeFlit n id => if cond ≠ .ecc then .next s else .next (s.storeFlitFails n id)
  | .atomicFlit n id => if cond ≠ .ecc then .next s else .next (s.atomicFlitFails n id)
  | .segFlit n a => if cond ≠ .ecc then .next s else .next (s.segFlitFails n a)
  | .jobFlit id => if cond ≠ .ecc then .next s else .next (s.jobFlitFails id)
  | .slotRow n os row => if cond ≠ .ecc then .next s else .next (s.holderFails (.slotRow n os row))
  | .xReg n r => if cond ≠ .ecc then .next s else .next (s.holderFails (.xReg n r))
  | .hReg n r => if cond ≠ .ecc then .next s else .next (s.holderFails (.hReg n r))
  | .vReg n k d => if cond ≠ .ecc then .next s else .next (s.holderFails (.vReg n k d))
  | .buffer n id d => if cond ≠ .ecc then .next s else .next (s.holderFails (.buffer n id d))
  | .pReg n p => if cond ≠ .ecc then .next s else .next (s.holderFails (.pReg n p))
  | .tile n m => if cond ≠ .ecc then .next s else .next (s.holderFails (.tile n m))

end Sys2Proof.Machine
end

