-- ==== Sys2Proof/Machine/Queue.lean ====
section
/-! DEFINITION. Queues and packets (R326 to R332, R340): signals, mapping, displacement, idle unmapping, stopping and
restarting, packet dispatch, the journal and the completion signal. -/

namespace Sys2Proof.Machine

open Host (Outcome)

/-! ### Contexts (R343, R358, R456) -/

/-- The protected context of an identifier, with its index. -/
def State.ctxEntry (s : State) (ctx : BitVec 16) : Option (Nat × Ctx) := s.dev.prot.ctxs.find? (fun e => e.2.ctx == ctx)

/-- The context is neither suspended nor being torn down. -/
def State.ctxActive (s : State) (ctx : BitVec 16) : Bool :=
  match s.ctxEntry ctx with
  | some (_, x) => x.state == .active
  | none => true

/-! ### Packet types (R331) -/

/-- A field of a packet, by byte offset. -/
def pktNat (b : BitVec 512) (byte n : Nat) : Nat := b.toNat / 2 ^ (8 * byte) % 2 ^ (8 * n)

def tLaunch : Nat := 1
def tCopy : Nat := 2
def tBarrier : Nat := 3
def tNode : Nat := 4
def tSelftest : Nat := 5
def tFence : Nat := 6

def Packet.type (p : Packet) : Nat := pktNat p.body 0 1

/-! ### Registers and descriptors (R326, R327) -/

/-- A die serves queues: it is neither lost nor without its registers. -/
def State.queueDie (s : State) (die : Nat) : Bool :=
  decide (die < 8) && !s.dev.lost.contains die && s.dev.sched.qdbase.any (·.1 == die) && s.dev.sched.qsigbase.any (·.1 == die)

def dieOfQueue (q : Nat) : Nat := q / 8192
def State.descAddr (s : State) (q : Nat) : Nat := lookupD 0 s.dev.sched.qdbase (q / 8192) + 64 * (q % 8192)
def State.sigAddr (s : State) (q : Nat) : Nat := lookupD 0 s.dev.sched.qsigbase (q / 8192) + 8 * (q % 8192)

/-! ### Reads and writes of the complex (R292, R345) -/

/-- A read by a die's complex is an acquire at package scope: the die and the home have each taken what the other has made
known (R270, R271, R292). It is held while the page's owner changes (R347). -/
def State.complexReads (s : State) (die addr : Nat) : Bool :=
  !s.ownerOwed (mkey .glob 0 addr) && (s.dev.lost.contains (homeDie addr) || s.inStep die (homeDie addr))

/-- What the complex reads for a context: a denied or lost read delivers a free value (R345, R346, log 4). -/
def State.complexNat (s : State) (ctx : BitVec 16) (a n : Nat) : Nat :=
  if s.complexOk ctx a && !s.dev.lost.contains (homeDie a) then s.globNat a n
  else (Config.freeWord s.free).toNat % 2 ^ (8 * n)

/-- A queue's descriptor and signal word may be read by its die's complex: their homes and the die are in step, so what the complex has
written there itself stands (R271). -/
def State.descReady (s : State) (q : Nat) : Bool :=
  s.complexReads (dieOfQueue q) (s.descAddr q) && s.complexReads (dieOfQueue q) (s.sigAddr q)

/-- The next free value. -/
def State.nextFree (s : State) : State := { s with free := s.free + 1 }

/-- The descriptor of a queue. -/
def State.desc (s : State) (q : Nat) : Nat := s.complexNat 0 (s.descAddr q) 64

/-- A denied read of a queue's descriptor is counted. -/
def State.countDesc (s : State) (q : Nat) : State := s.countComplex (dieOfQueue q) 0 (s.descAddr q) 64

def descEn (d : Nat) : Bool := d / 2 ^ 55 % 2 == 1
def descState (d : Nat) : Nat := d / 2 ^ 168 % 4
def stUnmapped : Nat := 0
def stMapped : Nat := 1
def stStopped : Nat := 2

/-- What the device takes from a descriptor when it maps the queue. -/
def hwQueue (q d wr W turn : Nat) : HwQueue :=
  { q := q, ring := d % 2 ^ 48, logsz := d / 2 ^ 48 % 32, prio := d / 2 ^ 53 % 4, ctx := BitVec.ofNat 16 (d / 2 ^ 64)
    rd := d / 2 ^ 128 % 2 ^ 32, wr := wr, last := turn, lastW := W }

/-- The bits of a descriptor that R327 does not list are zero (R12). -/
def descReserved (d : Nat) : Bool :=
  d / 2 ^ 56 % 2 ^ 8 == 0 && d / 2 ^ 80 % 2 ^ 48 == 0 && d / 2 ^ 160 % 2 ^ 8 == 0 && d / 2 ^ 170 % 2 ^ 6 == 0 && d / 2 ^ 184 == 0

/-- The rules of R328 on LOGSZ and RING. -/
def HwQueue.legal (k : HwQueue) : Bool :=
  decide (4 ≤ k.logsz) && decide (k.logsz ≤ 20) && k.ring % (64 * 2 ^ k.logsz) == 0 &&
    decide (k.ring + 64 * 2 ^ k.logsz ≤ 2 ^ 39)

/-- More packets than the ring holds. -/
def HwQueue.overrun (k : HwQueue) : Bool := decide (2 ^ k.logsz < (k.wr + 2 ^ 32 - k.rd) % 2 ^ 32)

/-- The device writes RD, STATE and CAUSE of a descriptor. -/
def State.writeDesc (s : State) (q rd st : Nat) (cause : BitVec 8) : State :=
  let a := s.descAddr q
  let die := dieOfQueue q
  (s.devWrite die (a + 16) 4 rd).devWrite die (a + 21) 2 (st + 256 * cause.toNat)

/-! ### Mapping and stopping (R328, R329) -/

def State.slotsOf (s : State) (die : Nat) : List HwQueue := s.dev.sched.slots.filter (fun k => dieOfQueue k.q == die)
def State.remapOf (s : State) (die : Nat) : List HwQueue := s.dev.sched.remap.filter (fun k => dieOfQueue k.q == die)

/-- Leave the slots and the remap list. -/
def State.dropQueue (s : State) (q : Nat) : State :=
  s.setSched { s.dev.sched with
    slots := s.dev.sched.slots.filter (·.q != q), remap := s.dev.sched.remap.filter (·.q != q) }

/-- Stop a queue: its slot is free at once, and a restart waits for EN = 0 and then EN = 1. -/
def State.stopQueue (s : State) (k : HwQueue) (cause : BitVec 8) : State :=
  let s := (s.dropQueue k.q).writeDesc k.q k.rd stStopped cause
  s.setSched { s.dev.sched with disabled := s.dev.sched.disabled.filter (· != k.q) }

/-- Give a queue a slot. -/
def State.mapQueue (s : State) (k : HwQueue) : State :=
  let s := s.writeDesc k.q k.rd stMapped 0
  s.setSched { s.dev.sched with slots := s.dev.sched.slots ++ [k] }

/-- The packet is in dispatch: its checks are still to be made (R330, R334). -/
def Packet.inDispatch (p : Packet) : Bool :=
  !p.acted && p.outcome.isNone && (p.type == tLaunch || p.type == tCopy || p.type == tNode)

def State.inDispatch (s : State) (q : Nat) : Bool := s.dev.sched.packets.any (fun p => p.q == q && p.inDispatch)

/-- The mapped queue of a die whose last signal is oldest. -/
def oldest : List HwQueue → Option HwQueue
  | [] => none
  | k :: t =>
    match oldest t with
    | some m => if m.last < k.last then some m else some k
    | none => some k

/-- Unmap a queue: RD is written back. -/
def State.unmapQueue (s : State) (k : HwQueue) : State := (s.dropQueue k.q).writeDesc k.q k.rd stUnmapped 0

def State.joinRemap (s : State) (k : HwQueue) : State :=
  s.setSched { s.dev.sched with remap := s.dev.sched.remap ++ [k] }

/-- The first queue of the remap list takes a free slot, as its descriptor now stands (R329). -/
def State.fillSlot (s : State) (die : Nat) : State :=
  if 16 ≤ (s.slotsOf die).length then s
  else
    match s.remapOf die with
    | [] => s
    | k :: _ =>
      let s := (s.dropQueue k.q).countDesc k.q
      let d := s.desc k.q
      if !descEn d || descState d == stStopped then s
      else
        let k := hwQueue k.q d k.wr k.lastW k.last
        if !k.legal || !descReserved d then s.stopQueue k 0xED else s.mapQueue k

/-- R329: a queue on the remap list takes a slot. -/
def execQueueRemap (die : Nat) (s : State) : Outcome State Fault Refusal :=
  if s.queueDie die && ((s.remapOf die).head?).all (fun k => s.descReady k.q) then .next (s.fillSlot die) else .next s

/-- Map a signalled queue: a free slot, or the slot of the queue whose last signal is oldest and that has no packet in
dispatch, behind the remap list. -/
def State.mapSignalled (s : State) (k : HwQueue) : State :=
  let die := dieOfQueue k.q
  let full := decide (16 ≤ (s.slotsOf die).length)
  let waits := !(s.remapOf die).isEmpty
  if !full && !waits then s.mapQueue k
  else if !full then (s.joinRemap k).fillSlot die
  else
    match oldest ((s.slotsOf die).filter (fun v => !s.inDispatch v.q)) with
    | none => s.joinRemap k
    | some v =>
      let s := s.unmapQueue v
      if waits then ((s.joinRemap v).joinRemap k).fillSlot die else (s.mapQueue k).joinRemap v

/-- R329: EN = 0 and then EN = 1 make a stopped queue unmapped again. -/
def State.restartQueue (s : State) (q : Nat) : State :=
  let s := (s.setSched { s.dev.sched with restarts := s.dev.sched.restarts.erase q }).countDesc q
  if descState (s.desc q) = stStopped then s.writeDesc q (s.desc q / 2 ^ 128 % 2 ^ 32) stUnmapped 0 else s

/-- The context of the queue is being torn down (R356). -/
def State.tearing (s : State) (ctx : BitVec 16) : Bool := (s.ctxEntry ctx).any (fun e => e.2.state == .tearing)

/-- A signal to a queue that is not mapped, as its descriptor stands now: refused with a cause, else it takes a slot, or it
keeps its place on the remap list. -/
def State.signalUnmapped (s : State) (k : HwQueue) (d : Nat) : State :=
  if !k.legal || !descReserved d then s.stopQueue k 0xED
  else if k.overrun then s.stopQueue k 0xE1
  else if s.tearing k.ctx then s.stopQueue k 0xC3
  else if s.dev.sched.remap.any (·.q == k.q) then
    s.setSched { s.dev.sched with remap := s.dev.sched.remap.map (fun m => if m.q = k.q then k else m) }
  else s.mapSignalled k

/-- What a signal does (R328): `wr` is the word's WR. -/
def State.signalQueue (s : State) (q : Nat) : State :=
  let s := (s.countComplex (dieOfQueue q) 0 (s.sigAddr q) 4).countDesc q
  let wr := s.complexNat 0 (s.sigAddr q) 4
  let turn := s.dev.sched.turn + 1
  let s := s.setSched { s.dev.sched with turn := turn }
  let d := s.desc q
  if !descEn d then s
  else
    match s.dev.sched.slots.find? (·.q == q) with
    | some k =>
      let k := { k with wr := wr, last := turn, lastW := s.wheel }
      if k.overrun then s.stopQueue k 0xE1
      else s.setSched { s.dev.sched with slots := s.dev.sched.slots.map (fun m => if m.q = q then k else m) }
    | none =>
      if descState d == stStopped then s else s.signalUnmapped (hwQueue q d wr s.wheel turn) d

/-- R328: a signal reaches its queue's die, whose complex may read what the signal calls for; a restart that software has asked for
comes first (R329). -/
def execQueueSignal (q : Nat) (s : State) : Outcome State Fault Refusal :=
  let die := dieOfQueue q
  if !s.dev.sched.signals.contains q then .next s
  else
    let s' := s.setSched { s.dev.sched with signals := s.dev.sched.signals.erase q }
    if !s.queueDie die then .next s'
    else if !s.descReady q || !((s.remapOf die).head?).all (fun k => s.descReady k.q) then .next s
    else if s.dev.sched.restarts.contains q then .next (s.restartQueue q)
    else .next (s'.signalQueue q)

/-- The time-out of a die in reference cycles of 1.5 GHz; none when it never unmaps. -/
def State.idleCycles (s : State) (die : Nat) : Option Nat :=
  match lookupD 20000 s.dev.sched.qidle die with
  | 0 => none
  | ns => some ((3 * ns + 1) / 2)

def State.idleDue (s : State) (k : HwQueue) : Bool :=
  k.rd == k.wr && (match s.idleCycles (dieOfQueue k.q) with
    | some t => decide (k.lastW + t ≤ s.wheel)
    | none => false)

/-- R329: a mapped queue without packets or signals is unmapped. -/
def execQueueIdleTimeout (q : Nat) (s : State) : Outcome State Fault Refusal :=
  match s.dev.sched.slots.find? (·.q == q) with
  | none => .next s
  | some k => if s.idleDue k then .next (s.unmapQueue k) else .next s

/-- R329 -/
def execQueueRestart (q : Nat) (s : State) : Outcome State Fault Refusal :=
  if s.dev.sched.restarts.contains q && s.descReady q then .next (s.restartQueue q) else .next s

/-! ### The journal (R340) -/

def jAccepted : Nat := 1
def jStarted : Nat := 2
def jCompleted : Nat := 3
def jAborted : Nat := 4

/-- The journal is written, and where its next entry goes. -/
def State.journals (s : State) : Bool := bit s.dev.sched.jctl 0 && !s.dev.lost.contains 0
def State.journalAddr (s : State) : Nat := (fld s.dev.sched.jctl 16 32).toNat * 65536 + 32 * (s.dev.sched.jhead.toNat % 2048)

/-- Die 0 appends an entry for a packet's transition, SEQ last and as a release at package scope. -/
def State.journal (s : State) (p : Packet) (st : Nat) (cause : BitVec 8) : State :=
  if !s.journals then s
  else
    let seq := s.dev.sched.jhead
    let a := s.journalAddr
    let v := p.q + 2 ^ 16 * st + 2 ^ 24 * cause.toNat + 2 ^ 32 * p.idx + 2 ^ 64 * (s.wheel % 2 ^ 64) + 2 ^ 128 * p.lid.toNat
    let s := (s.devWrite 0 (a + 8) 24 v).devWrite 0 a 8 seq.toNat (some { scope := .package, pkg := none, core := 0 })
    s.setSched { s.dev.sched with jhead := seq + 1 }

/-! ### Packets (R330 to R332) -/

def Packet.sig (p : Packet) : Bool := bit p.body 9
def Packet.scope (p : Packet) : Scope := scopeOfNat (pktNat p.body 0 2 / 2 ^ 10 % 8)
def Packet.sigOff (p : Packet) : Nat := pktNat p.body 8 8

/-- Bytes of the body that are named, by type. -/
def namedBytes (t : Nat) : List (Nat × Nat) :=
  if t = tLaunch then [(16, 48)]
  else if t = tCopy then [(16, 16)]
  else if t = tBarrier then [(16, 48)]
  else if t = tNode then [(16, 14), (32, 32)]
  else if t = tSelftest then [(16, 12)]
  else [(16, 1)]

/-- The three conditions of a BARRIER packet. -/
def barConds (b : BitVec 512) : List (Nat × Nat) :=
  ([16, 32, 48] : List Nat).filterMap (fun o => if pktNat b o 8 = 0 then none else some (pktNat b o 8, pktNat b (o + 8) 8))

/-- An aligned GLOB address. -/
def globAddr (a al : Nat) : Bool := a % al == 0 && decide (a < 2 ^ 39)

/-- The fields of a body that its type fixes (log 33). -/
def bodyLegal (t : Nat) (b : BitVec 512) : Bool :=
  if t = tLaunch then globAddr (pktNat b 16 8) 256
  else if t = tCopy then globAddr (pktNat b 16 8) 64 && globAddr (pktNat b 24 8) 32
  else if t = tBarrier then (barConds b).all (fun c => globAddr c.1 8)
  else if t = tNode then
    globAddr (pktNat b 16 8) 8 && decide (1 ≤ pktNat b 28 1) && decide (pktNat b 28 1 ≤ 3) &&
      (pktNat b 28 1 != 3 || (decide (1 ≤ pktNat b 29 1) && decide (pktNat b 29 1 ≤ 16)))
  else if t = tFence then decide (pktNat b 16 1 ≤ 4)
  else true

/-- R331: a packet that does not stop its queue. -/
def packetLegal (b : BitVec 512) : Bool :=
  let h := pktNat b 0 8
  let t := h % 256
  let named (i : Nat) : Bool := (namedBytes t).any (fun (o, n) => decide (o ≤ i) && decide (i < o + n))
  decide (1 ≤ t) && decide (t ≤ 6) && h / 2 ^ 13 == 0 && decide (h / 2 ^ 10 % 8 ≤ 4) &&
    (h / 2 ^ 9 % 2 == 0 || globAddr (pktNat b 8 8) 8) &&
    ((List.range 48).all (fun i => named (16 + i) || pktNat b (16 + i) 1 == 0)) && bodyLegal t b

/-- GLOB address of packet n. -/
def HwQueue.packetAddr (k : HwQueue) (n : Nat) : Nat := k.ring + 64 * (n % 2 ^ k.logsz)

/-- Packets of a queue that have not completed, the loops around its next packet apart. -/
def State.openPackets (s : State) (q : Nat) : List Packet :=
  s.dev.sched.packets.filter (fun p => p.q == q && !(p.type == tNode && p.acted && p.outcome.isNone))

/-- The bodies of running loops that end at a packet: the loop's own node goes on there. -/
def Packet.exitIdx (p : Packet) : Nat := (p.idx + 2 ^ 32 + ((fld p.body 256 16).toInt % 2 ^ 32).toNat) % 2 ^ 32

/-- A running loop of the queue whose body ends where the queue stands now. -/
def State.loopEnds (s : State) (k : HwQueue) : Bool :=
  s.dev.sched.packets.any (fun p => p.q == k.q && p.type == tNode && p.acted && p.outcome.isNone && p.exitIdx == k.rd)

/-- Die 0, which writes the journal, knows what a die does, so that an entry's release covers it (R340). -/
def State.journalKnows (s : State) (die : Nat) : Bool := !s.journals || s.covers (s.clock 0) (s.clock die)

/-- The complex may read the launch identifier of a packet that is a legal LAUNCH (R271, R340). -/
def State.lidReads (s : State) (die a : Nat) : Bool :=
  let b := BitVec.ofNat 512 (s.complexNat 0 a 64)
  !packetLegal b || pktNat b 0 1 != tLaunch || s.complexReads die (pktNat b 16 8 + 88)

/-- R330: the queue's next packet may be dispatched: the one before it has been, and a worker of the die is free (R325). -/
def State.dispatchable (s : State) (k : HwQueue) : Bool :=
  let a := k.packetAddr k.rd
  let h := s.complexNat 0 a 2
  k.rd != k.wr && s.complexReads (dieOfQueue k.q) a && s.lidReads (dieOfQueue k.q) a && s.journalKnows (dieOfQueue k.q) &&
    !s.loopEnds k &&
    !s.inDispatch k.q && decide ((s.dev.sched.packets.filter (fun p => p.die == dieOfQueue k.q && p.inDispatch)).length < 6) &&
    (!(h / 256 % 2 == 1 || h % 256 == tNode || h % 256 == tFence) || (s.openPackets k.q).isEmpty)

/-- The queue whose turn it is: highest priority first, then the one served longest ago, also before it was last mapped (R38). -/
def nextQueue (served : List (Nat × Nat)) : List HwQueue → Option HwQueue
  | [] => none
  | k :: t =>
    match nextQueue served t with
    | some m =>
      if m.prio < k.prio ∨ (m.prio = k.prio ∧ lookupD 0 served k.q ≤ lookupD 0 served m.q) then some k else some m
    | none => some k

def State.toServe (s : State) (die : Nat) : Option HwQueue :=
  if s.queueDie die && !s.replays die && !s.dev.lost.contains 0 && decide (lookupD .rehash s.dev.boot die = .ready) then
    nextQueue s.dev.sched.served ((s.slotsOf die).filter (fun k => s.ctxActive k.ctx && s.dispatchable k))
  else none

def State.setQueue (s : State) (k : HwQueue) : State :=
  s.setSched { s.dev.sched with slots := s.dev.sched.slots.map (fun m => if m.q = k.q then k else m) }

/-- Launch identifier of a LAUNCH packet, else 0. -/
def State.packetLid (s : State) (ctx : BitVec 16) (b : BitVec 512) : BitVec 32 :=
  if pktNat b 0 1 = tLaunch then BitVec.ofNat 32 (s.complexNat ctx (pktNat b 16 8 + 88) 4) else 0

def State.findPacket (s : State) (id : Nat) : Option Packet := s.dev.sched.packets.find? (·.id == id)
def State.setPacket (s : State) (p : Packet) : State :=
  s.setSched { s.dev.sched with packets := s.dev.sched.packets.map (fun k => if k.id = p.id then p else k) }

/-- Take a queue's next packet. -/
def State.dispatch (s : State) (k : HwQueue) : State :=
  let b := BitVec.ofNat 512 (s.complexNat 0 (k.packetAddr k.rd) 64)
  let s := s.countComplex (dieOfQueue k.q) 0 (k.packetAddr k.rd) 64
  if !packetLegal b then s.stopQueue k 0xE0
  else
    let s := if pktNat b 0 1 = tLaunch then s.countComplex (dieOfQueue k.q) k.ctx (pktNat b 16 8 + 88) 4 else s
    let turn := s.dev.sched.turn + 1
    let p : Packet :=
      { id := s.dev.sched.nextPacket, q := k.q, idx := k.rd, die := dieOfQueue k.q, ctx := k.ctx, prio := k.prio, body := b
        lid := s.packetLid k.ctx b, acted := false, outcome := none, passes := 0, cores := [], launch := none, pkgs := 1 }
    let k := { k with rd := (k.rd + 1) % 2 ^ 32 }
    let s := (s.setQueue k).writeDesc k.q k.rd stMapped 0
    let s := s.setSched { s.dev.sched with
      turn := turn, served := insertAt s.dev.sched.served k.q turn, packets := s.dev.sched.packets ++ [p], nextPacket := s.dev.sched.nextPacket + 1 }
    (s.journal p jAccepted 0).nextFree

/-- R330: a worker takes the next dispatchable packet; a packet that R331 forbids stops its queue. -/
def execPacketDispatch (die : Nat) (s : State) : Outcome State Fault Refusal :=
  match s.toServe die with
  | some k => .next (s.dispatch k)
  | none => .next s

/-! ### COPY, BARRIER, NODE and FENCE (R292, R332) -/

/-- The complex's read of a granule of a handle table delivers poison: it is denied, lost or marked (R346, R428, R451). -/
def State.tableBad (s : State) (ctx : BitVec 16) (a : Nat) : Bool :=
  !s.complexOk ctx a || s.dev.lost.contains (homeDie a) || s.spoiled (mkey .glob 0 a) 32

/-- The granules of a handle table, as card handles. One that is poisoned carries no tag (log 94). -/
def State.tableHandles (s : State) (ctx : BitVec 16) (a : Nat) : Handles := fun n =>
  let g := a + 32 * (n - 1)
  if n = 0 then none else some (BitVec.ofNat 256 (s.complexNat ctx g 32), !s.tableBad ctx g && s.tagAt (mkey .glob 0 g))

/-- The granules of a handle table. -/
def tableAddrs (a : Nat) : List Nat := (List.range 15).map (fun k => a + 32 * k)

/-- A COPY packet's job enters the die's order, or its failing check aborts the packet. -/
def State.actCopy (s : State) (p : Packet) : State :=
  let s := (s.setPacket { p with acted := true }).nextFree
  let s := (s.countComplex p.die 0 (pktNat p.body 16 8) 64).countComplex p.die 0 (pktNat p.body 24 8) 480
  let card := BitVec.ofNat 512 (s.complexNat 0 (pktNat p.body 16 8) 64)
  let hs := s.tableHandles 0 (pktNat p.body 24 8)
  match s.checkCopyCard none p.ctx card hs 0 with
  | .error e => s.packetOutcome p.id e.cause
  | .ok _ =>
    let k := copyCard card
    s.acceptJob (mkJob p.die (96 * p.die) (.packet p.id) p.ctx 0 0 .b .rne (.copy card) (hs.cap k.sh) (hs.cap k.dh) (hs.cap k.ah)
      (hs.cap k.gh) [])

/-- A packet of a type that has been dispatched and not acted. -/
def State.pending (s : State) (id t : Nat) : Option Packet :=
  (s.findPacket id).filter (fun p => p.type == t && !p.acted && p.outcome.isNone)

/-- The reads of a packet's body may be made (R271). -/
def State.packetReads (s : State) (p : Packet) (addrs : List Nat) : Bool := addrs.all (s.complexReads p.die)

/-- R332 -/
def execCopy (id : Nat) (s : State) : Outcome State Fault Refusal :=
  match s.pending id tCopy with
  | none => .next s
  | some p =>
    if s.packetReads p (pktNat p.body 16 8 :: tableAddrs (pktNat p.body 24 8)) then .next (s.actCopy p) else .next s

/-- R332: the packet completes when every condition is met. -/
def execBarrier (id : Nat) (s : State) : Outcome State Fault Refusal :=
  match s.pending id tBarrier with
  | none => .next s
  | some p =>
    let cs := barConds p.body
    if !s.packetReads p (cs.map (·.1)) then .next s
    else
      let open_ := cs.any (fun c => !s.complexOk 0 c.1 || s.dev.lost.contains (homeDie c.1))
      let s' := cs.foldl (fun s c => s.countComplex p.die 0 c.1 8) s
      if cs.all (fun c => decide (c.2 ≤ s.complexNat 0 c.1 8)) then
        .next (((s'.setPacket { p with acted := true }).packetOutcome id 0).nextFree)
      else .next (if open_ then s'.nextFree else s)

/-- Successor s of a node, as a packet index. -/
def Packet.succ (p : Packet) (k : Nat) : Nat :=
  (p.idx + 2 ^ 32 + ((fld p.body (256 + 16 * k) 16).toInt % 2 ^ 32).toNat) % 2 ^ 32

/-- The queue continues at a packet; one that has been unmapped meanwhile and now has packets to serve waits for a slot
(log 62). -/
def State.continueAt (s : State) (q idx : Nat) : State :=
  match s.dev.sched.slots.find? (·.q == q) with
  | some k => (s.setQueue { k with rd := idx }).writeDesc q idx stMapped 0
  | none =>
    let d := s.desc q
    let s := (s.countDesc q).writeDesc q idx (descState d) (BitVec.ofNat 8 (d / 2 ^ 176))
    if !descEn d || descState d == stStopped || s.dev.sched.remap.any (·.q == q) then s
    else
      let k : HwQueue := { hwQueue q d (s.complexNat 0 (s.sigAddr q) 4) s.wheel s.dev.sched.turn with rd := idx }
      if k.rd = k.wr then s else s.joinRemap k

/-- RD of a queue: the device's own while it is mapped, else the descriptor's. -/
def State.queueRd (s : State) (q : Nat) : Nat :=
  match s.dev.sched.slots.find? (·.q == q) with
  | some k => k.rd
  | none => s.desc q / 2 ^ 128 % 2 ^ 32

/-- R292: what a node does with its word. A loop makes a pass while the word is not zero; one pass too many aborts it, and
the queue goes on at its exit. -/
def State.actNode (s : State) (p : Packet) : State :=
  let v := s.complexNat 0 (pktNat p.body 16 8) 8
  let s := (s.countComplex p.die 0 (pktNat p.body 16 8) 8).nextFree
  let finish (s : State) (idx : Nat) (cause : BitVec 8) : State :=
    ((s.setPacket { p with acted := true }).packetOutcome p.id cause).continueAt p.q idx
  match pktNat p.body 28 1 with
  | 1 => finish s (p.succ (if v = 0 then 1 else 0)) 0
  | 2 =>
    if v = 0 then finish s (p.succ 0) 0
    else if p.passes = pktNat p.body 24 4 then finish s (p.succ 0) 0xE4
    else (s.setPacket { p with acted := true, passes := p.passes + 1 }).continueAt p.q ((p.idx + 1) % 2 ^ 32)
  | _ => finish s (p.succ (min v (pktNat p.body 29 1 - 1))) 0

/-- The pass of a running loop is complete: the queue stands at its exit and the body's packets have completed. -/
def State.passDone (s : State) (p : Packet) : Bool :=
  p.type == tNode && p.acted && p.outcome.isNone && (s.openPackets p.q).isEmpty &&
    s.queueRd p.q == p.exitIdx &&
    -- an inner loop ends before the one around it
    s.dev.sched.packets.all (fun k => !(k.q == p.q && k.type == tNode && k.acted && k.outcome.isNone) || decide (k.id ≤ p.id))

/-- R292, R332: a node's word is read when every earlier packet has completed, and again after each pass of a loop. -/
def execNode (id : Nat) (s : State) : Outcome State Fault Refusal :=
  match s.findPacket id with
  | none => .next s
  | some p =>
    if !s.packetReads p [pktNat p.body 16 8] || !s.descReady p.q then .next s
    else if (p.type == tNode && !p.acted && p.outcome.isNone) || s.passDone p then .next (s.actNode p)
    else .next s

/-- SCOPE of a FENCE packet. -/
def Packet.fenceScope (p : Packet) : Option Scope := if p.type = tFence then some (scopeOfNat (pktNat p.body 16 1)) else none

/-- What the earlier packets' tasks and jobs made known has reached a die; a release within that die waits for nothing. -/
def State.taskCovered (s : State) (die : Nat) : Bool := s.covers (s.clock die) s.dev.ms.taskClock

/-- R332: a release at SCOPE covering the writes of every earlier packet. -/
def execFencePacket (id : Nat) (s : State) : Outcome State Fault Refusal :=
  match s.pending id tFence with
  | none => .next s
  | some p =>
    if (p.fenceScope).all (fun sc => decide (scopeRank sc < 3)) || s.taskCovered p.die then .next ((s.setPacket { p with acted := true }).packetOutcome id 0)
    else .next s

/-! ### Completion (R331, R337, R340) -/

/-- The context that the complex acts for when it completes a packet (R345). -/
def Packet.actor (p : Packet) : BitVec 16 := if p.type = tLaunch then p.ctx else 0

/-- The scope of the completion signal's release: SSCOPE, the domain for a launch over several packages (R337), and at
least a FENCE's own (R332). -/
def Packet.signalScope (p : Packet) : Scope :=
  scopeWider (if 1 < p.pkgs then .domain else p.scope) (p.fenceScope)

/-- The completion signal: 1 is added to the word, as an atomic with release; where its home is another die, in a stamped message
(R271). -/
def State.packetSignal (s : State) (p : Packet) : State :=
  let h := homeDie p.sigOff
  let key := mkey .glob 0 p.sigOff
  let rel : Rel := { scope := p.signalScope, pkg := none, core := 96 * p.die }
  if !p.sig || s.dev.lost.contains h then s
  else if h = p.die then s.countSignal p.die p.actor key rel
  else s.sendWrite p.die h (linesOf [key, key + 7]) (.count p.actor key rel)

/-- Stores of a killed task of the packet's launch are still on their way (R393). -/
def State.dyingTasks (s : State) (p : Packet) : Bool :=
  s.cores.any (fun (_, c) => c.mode == .dying && c.task.any (fun t => p.launch == some t.launch))

/-- Every write of the packet is known to the dies that tell of its completion: its own, and die 0 where it writes the journal. What
they send follows those writes to its home (R271, R331, R340). -/
def State.packetKnown (s : State) (p : Packet) : Bool :=
  ([p.die] ++ (if s.journals then [0] else [])).all (fun d => s.dev.lost.contains d || s.taskCovered d)

/-- R331: every write of the packet is made known; then the journal entry, and then the signal. The packet counts as completed. -/
def execPacketComplete (id : Nat) (s : State) : Outcome State Fault Refusal :=
  match s.findPacket id with
  | none => .next s
  | some p =>
    match p.outcome with
    | none => .next s
    | some cause =>
      if !s.packetKnown p || s.dyingTasks p then .next s
      else
        let s := s.journal p (if cause = 0 then jCompleted else jAborted) cause
        let s := s.setSched { s.dev.sched with packets := s.dev.sched.packets.filter (·.id != id) }
        .next (s.packetSignal p)

end Sys2Proof.Machine
end

