-- ==== Sys2Proof/Machine/Launch.lean ====
section
/-! DEFINITION. Launches (R333 to R337, R461): the descriptor and its refusals, claims, the state of a task at its first
issue, and completion. -/

namespace Sys2Proof.Machine

open Host (Outcome)

/-! ### The descriptor (R333, R334) -/

def ldNat (d : BitVec 2048) (byte n : Nat) : Nat := d.toNat / 2 ^ (8 * byte) % 2 ^ (8 * n)

/-- The largest group of a level (R27). -/
def largestGroup (k : Nat) : Nat := if k = 1 then 8 else if k = 2 then 96 else if k = 3 then 768 else 786432

def ldLevelWord (d : BitVec 2048) (k : Nat) : Nat := ldNat d (40 + 8 * k) 8
def ldLevel (d : BitVec 2048) (k : Nat) : Level :=
  let w := ldLevelWord d k
  { decl := w % 2 == 1, gang := w / 8 % 2 == 1, pol := BitVec.ofNat 2 (w / 2), size := w / 2 ^ 8 % 2 ^ 24 }
def ldLevels (d : BitVec 2048) : List Level := ([1, 2, 3, 4] : List Nat).map (ldLevel d)

/-- Bytes that are not named, and reserved bits of named ones, are zero. -/
def ldReserved (d : BitVec 2048) : Bool :=
  ldNat d 42 1 / 4 == 0 && ldNat d 43 1 / 4 == 0 && ldNat d 45 3 == 0 && ldNat d 96 160 == 0 &&
    ([1, 2, 3, 4] : List Nat).all (fun k => ldLevelWord d k / 16 % 16 == 0)

/-- A declared level's SIZE and COUNT (R461). -/
def ldLevelOk (d : BitVec 2048) (k : Nat) : Bool :=
  let v := ldLevel d k
  let n := ldNat d 32 8
  !v.decl ||
    (v.size != 0 && decide (v.size ≤ largestGroup k) && ldLevelWord d k / 2 ^ 32 == (n + v.size - 1) / v.size &&
      ([1, 2, 3, 4] : List Nat).all (fun j =>
        decide (k ≤ j) || !(ldLevel d j).decl || ((ldLevel d j).size != 0 && v.size % (ldLevel d j).size == 0)))

/-! ### Cores that a context may use (R32, R40, R348) -/

/-- Cores that the other packages of a launch offer it: theirs to tell, at most 96 on each participating die (log 70). -/
def State.awayCores (s : State) (d : BitVec 2048) : Nat :=
  let dies := (List.range 8).countP (fun k => bit (BitVec.ofNat 8 (ldNat d 44 1)) k)
  (Config.freeWord s.free).toNat % (96 * dies * (ldNat d 94 2 - 1) + 1)

/-- The most cores that one unit of a level offers. -/
def State.available (s : State) (ctx : BitVec 16) (d : BitVec 2048) (dies : List Nat) (k : Nat) : Nat :=
  let cs := s.usable ctx dies
  if k = 4 then cs.length + s.awayCores d
  else if k = 3 then cs.length
  else ((List.range 96).map (fun u => cs.countP (fun n => unitOf k n == u))).foldl max 0

/-- The cause of the first refusal of R334; NIDX and PKGCOUNT outside their ranges come after DIEMASK (log 33). -/
def State.launchRefusal (s : State) (ctx : BitVec 16) (d : BitVec 2048) (dies : List Nat) : Option (BitVec 8) :=
  if !ldReserved d then some 0xE2
  else if ldNat d 32 8 = 0 then some 0xE2
  else if BitVec.ofNat 16 (ldNat d 40 2) ≠ ctx then some 0xC4
  else if ldNat d 44 1 = 0 then some 0xE2
  else if 2 ^ 40 < ldNat d 32 8 ∨ ldNat d 94 2 = 0 ∨ 1024 < ldNat d 94 2 then some 0xE2
  else if !([1, 2, 3, 4] : List Nat).all (ldLevelOk d) then some 0xE2
  else if ([1, 2, 3, 4] : List Nat).any (fun k =>
      let v := ldLevel d k
      v.decl && v.gang && decide (s.available ctx d dies k < min v.size (ldNat d 32 8))) then some 0xE3
  else none

/-- The complex of a die answers launches and claims: it is live, booted and not replaying (R379, R450). -/
def State.accepts (s : State) (die : Nat) : Bool :=
  decide (die < 8) && !s.dev.lost.contains die && !s.replays die && decide (lookupD .rehash s.dev.boot die = .ready)

/-- The launch of a packet, from its descriptor. -/
def State.mkLaunch (s : State) (p : Packet) (d : BitVec 2048) (dies : List Nat) : Launch :=
  let hs := s.tableHandles p.ctx (ldNat d 80 8)
  { id := s.dev.sched.nextLaunch, packet := p.id, lid := BitVec.ofNat 32 (ldNat d 88 4), ctx := p.ctx, prio := p.prio
    codebase := BitVec.ofNat 48 (ldNat d 0 8 / 128 * 128), codelim := BitVec.ofNat 48 (ldNat d 8 8 / 128 * 128)
    entry := BitVec.ofNat 48 (ldNat d 16 8), mpc := BitVec.ofNat 48 (ldNat d 24 8 / 4 * 4)
    nidx := ldNat d 32 8, logn := ldNat d 42 1 % 4, cpol := BitVec.ofNat 2 (ldNat d 43 1), levels := ldLevels d
    dies := dies, accepted := dies.filter s.accepts, args := (List.range 5).map (fun k => fld p.body (192 + 64 * k) 64)
    htab := (List.range 15).map (fun k => (hs (k + 1)).getD (0, false))
    hbad := (List.range 15).foldl (fun m k => setBit m (k + 1) (s.tableBad p.ctx (ldNat d 80 8 + 32 * k))) 0
    next := 0, returned := [], claims := [], blocked := [], again := [], live := 0, dead := [], groups := []
    begun := false, pkgFirst := ldNat d 92 2, pkgs := ldNat d 94 2, awayAccepted := [], awayIssued := [], backed := [], away := [], awayEnded := [], granted := 0
    awaySteps := [], reports := [], answered := [], pending := [], mirrors := [], mirrorNext := 0, ending := [], unacked := [] }

/-- The code arena of a launch is loaded in its protected context (R360). -/
def State.noteArena (s : State) (l : Launch) : State :=
  s.setProt { s.dev.prot with ctxs := s.dev.prot.ctxs.map (fun (k, x) =>
    (k, if x.ctx = l.ctx ∧ !x.arenas.contains (l.codebase, l.codelim) then { x with arenas := x.arenas ++ [(l.codebase, l.codelim)] } else x)) }

/-- The complex may read the descriptor and then the handle table that it names (R271, R335). -/
def State.launchReads (s : State) (p : Packet) : Bool :=
  let a := pktNat p.body 16 8
  let h := ldNat (BitVec.ofNat 2048 (s.complexNat p.ctx a 256)) 80 8
  s.packetReads p (a :: tableAddrs h)

/-- R334, R336: a launch is refused, or forwarded to the participating dies, which accept it when their complex answers. -/
def execLaunch (id : Nat) (s : State) : Outcome State Fault Refusal :=
  match s.pending id tLaunch with
  | none => .next s
  | some p =>
    let a := pktNat p.body 16 8
    if !s.launchReads p then .next s
    else
      let d := BitVec.ofNat 2048 (s.complexNat p.ctx a 256)
      let s := (s.countComplex p.die p.ctx a 256).countComplex p.die p.ctx (ldNat d 80 8) 480
      let dies := (List.range 8).filter (fun k => bit (BitVec.ofNat 8 (ldNat d 44 1)) k && !s.dev.lost.contains k)
      match s.launchRefusal p.ctx d dies with
      | some c => .next ((s.setPacket { p with acted := true }).nextFree.packetOutcome id c)
      | none =>
        let p := { p with acted := true, launch := some s.dev.sched.nextLaunch, pkgs := ldNat d 94 2 }
        let l := s.mkLaunch p d dies
        let s' := ((s.setPacket p).nextFree).noteArena l
        .next (s'.setSched { s'.dev.sched with
          launches := s'.dev.sched.launches ++ [l], nextLaunch := s'.dev.sched.nextLaunch + 1 })

/-! ### Free cores, wheel positions and save records (R291, R335) -/

/-- Tasks that hold wheel positions and a save record. -/
def State.liveTasks (s : State) : List (Task × Core) :=
  s.cores.filterMap (fun (_, c) => if c.alive then c.task.map (fun t => (t, c)) else none) ++
    s.dev.sched.saved.map (fun v => (v.task, v.core))

/-- The lowest BASE whose positions are all free. -/
def State.freeBase (s : State) (logn : Nat) : Option Nat :=
  let used := s.liveTasks.map (·.2.c.wheel)
  let gap := 1024 / 2 ^ logn
  (List.range gap).find? (fun b => (List.range (2 ^ logn)).all (fun j => used.all (fun w => !wheelOwns w (b + j * gap))))

/-- The lowest free save record of a die's pool. -/
def State.freeRecord (s : State) (die : Nat) : Option Nat :=
  let n := (fld (lookupD 0 s.dev.sched.savepool die) 52 12).toNat
  let used := s.liveTasks.map (·.1.record)
  ((List.range n).find? (fun k => !used.contains (4096 * die + k))).map (4096 * die + ·)

/-- GLOB address of a save record. -/
def State.recordAddr (s : State) (r : Nat) : Nat :=
  (fld (lookupD 0 s.dev.sched.savepool (r / 4096)) 21 27).toNat * 2 ^ 21 + r % 4096 * 2 ^ 21

/-- A member of a launch's gang is still on its way off another core (R31). -/
def State.gateShut (s : State) (n : Nat) : Bool :=
  s.dev.sched.gated.any (fun g => g.1 == n && s.cores.any (fun (_, c) =>
    c.task.any (·.launch == g.2) && (c.preempt || c.mode == .saving)))

/-- A free core that a context may use; none while its owner entry is about to change (R347). -/
def State.coreFree (s : State) (ctx : BitVec 16) (n : Nat) : Bool :=
  let c := s.core n
  c.mode == .idle && c.task.isNone && !c.testReq && !c.held && s.inService n && s.placeable ctx n && !s.gateShut n &&
    !s.dev.prot.owed.any (·.1 == ownerCore n) && decide (lookupD .rehash s.dev.boot (dieOf n) = .ready)

def State.eligible (s : State) (l : Launch) (i n : Nat) : Bool := l.inUnits i n && s.coreFree l.ctx n

/-! ### The state of a task at its first issue (R30, R41, R49, R335) -/

/-- The root capability of a context. -/
def rootCap (ctx : BitVec 16) : Cap := (ctx.setWidth 256) <<< 122

def Launch.size (l : Launch) (k : Nat) : Option Nat := (l.level k).map (·.size)

/-- TASKID of an index. -/
def Launch.taskid (l : Launch) (i : Nat) : BitVec 40 :=
  let num (k w : Nat) : BitVec w := match l.size k with
    | some z => BitVec.ofNat w (i % z)
    | none => 0
  num 1 3 ++ num 2 7 ++ num 3 10 ++ num 4 20

/-- GRPID of an index. -/
def Launch.grpid (l : Launch) (i : Nat) : BitVec 40 :=
  let num (k w : Nat) : BitVec w := match l.size k with
    | some z => BitVec.ofNat w (i / z)
    | none => 0
  num 3 10 ++ num 2 13 ++ num 1 17

/-- The registers that a launch gives. -/
def Launch.regs (l : Launch) (i : Nat) : Regs :=
  let xs : List (Nat × DWord) := (l.args.zipIdx).map (fun (v, k) => (10 + k, v)) ++
    [(15, BitVec.ofNat 64 i), (16, BitVec.ofNat 64 l.nidx)]
  { Regs.zero with
    x := xs.foldl (fun x (k, v) => if h : k < 32 then x.set k v else x) Regs.zero.x
    h := ((l.htab.zipIdx).foldl (fun h (c, k) => if p : k + 1 < 16 then h.set (k + 1) c.1 else h) Regs.zero.h).set 0 (rootCap l.ctx)
    htag := (l.htab.zipIdx).foldl (fun t (c, k) => setBit t (k + 1) c.2) 1#16
    hmark := l.hbad }

/-- The core of a task at its first issue. -/
def Launch.core (l : Launch) (old : Core) (t : Task) (base rec : Nat) : Core :=
  { old.freed with
    mode := .running, task := some t, r := l.regs t.index, tr := TrapCsrs.reset
    c := { Csrs.reset with
      mpc := l.mpc &&& ~~~ 3, wheel := BitVec.ofNat 2 l.logn ++ 0#2 ++ BitVec.ofNat 10 base, taskid := l.taskid t.index
      grpid := l.grpid t.index, codebase := l.codebase, codelim := l.codelim, tstate := BitVec.ofNat 48 rec }
    k := { CodeSide.empty with pc := l.entry, launched := true } }

/-- The segments of R321 that are copied in before the first advance cycle. DESIGN CHOICE (log 95): those with RES0 in the table's order,
then that of MPC, the entry's last, so that a later one displaces what shares its lines. -/
def State.firstSegs (s : State) (n : Nat) : List Seg :=
  let c := s.core n
  ((s.segs c.ctx c.c.codebase.toNat).filter (·.res0)) ++ (s.segOf c c.c.mpc.toNat).toList ++ (s.segOf c c.k.pc.toNat).toList

/-- The overlay unit may copy these in (R271, R278). -/
def State.segsReady (s : State) (n : Nat) (gs : List Seg) : Bool := s.tableReady n && gs.all (s.linesReady n)

/-- Copy in the segments whose lines can be copied. -/
def State.loadSegs (s : State) (n : Nat) (gs : List Seg) : State :=
  gs.foldl (fun s g => if (s.badLine n g).isNone then s.loadSeg n g else s) s

/-- R49: the storage of a core is cleared. -/
def State.clearStorage (s : State) (n : Nat) : State :=
  ((s.scrub .spad n 0 (2 ^ 20)).scrub .opmem n 0 (2 ^ 18)).scrub .side n 0 (2 ^ 15)

/-- The units of the index's groups are fixed by its core (R461). -/
def Launch.fixUnits (l : Launch) (i n : Nat) : Launch :=
  ([1, 2, 3] : List Nat).foldl (fun l k =>
    match l.level k with
    | some _ =>
      let g := l.groupSt k (l.groupOf k i)
      if g.unit.isNone then l.setGroup { g with unit := some (unitOf k n) } else l
    | none => l) l

/-- Die `d` claims index `i`, as its buddy's mirror has it (R453); a restart or a restore may move it. -/
def Launch.mirrorTo (l : Launch) (i d : Nat) : Launch :=
  let m := l.mirrors.map (fun (e, is) => (e, is.filter (· != i)))
  { l with mirrors := insertAt m d (KeySet.add (lookupD [] m d) i) }

/-- An index is no longer unstarted. -/
def Launch.take (l : Launch) (i : Nat) : Launch :=
  { l with
    again := l.again.filter (· != i)
    claims := l.claims.map (fun (d, is) => (d, is.filter (· != i))) }

/-- The task of index `i` stands on core `n`, with wheel positions and a save record, and no segment copied in yet. -/
def State.seatTask (s : State) (l : Launch) (i n base rec : Nat) : State :=
  let t : Task :=
    { uid := s.dev.sched.nextUid, launch := l.id, index := i, ctx := l.ctx, prio := l.prio, lid := l.lid, started := s.wheel
      record := rec }
  let l := ((l.take i).fixUnits i n).mirrorTo i (dieOf n)
  let s' := (s.setSched { s.dev.sched with nextUid := s.dev.sched.nextUid + 1 }).setLaunch { l with live := l.live + 1 }
  (s'.clearStorage n).setCore n (l.core (s.core n) t base (s.recordAddr rec))

/-- A seated task may start: what ended tasks have made known has reached its die (R292), its first segments can be copied in, and die 0
knows what a launch's started entry releases (R340). -/
def State.seatReady (s : State) (n : Nat) : Bool :=
  s.taskCovered (dieOf n) && s.segsReady n (s.firstSegs n) &&
    (s.journalKnows (dieOf n) || ((s.core n).task.bind (fun t => s.findLaunch t.launch)).all (·.begun))

/-- R335: the task of index `i` starts on core `n`; not before its first segments can be copied in. -/
def State.startTask (s : State) (l : Launch) (i n : Nat) : State :=
  match s.freeBase l.logn, s.freeRecord (dieOf n) with
  | some base, some rec =>
    let s' := s.seatTask l i n base rec
    if s'.seatReady n then s'.loadSegs n (s'.firstSegs n) else s
  | _, _ => s

/-- R340: the started entry, at the first bundle of a launch's first task. -/
def State.noteBegun (s : State) (n : Nat) : State :=
  match (s.core n).task.bind (fun t => s.findLaunch t.launch) with
  | some l =>
    if l.begun then s
    else
      let s := s.setLaunch { l with begun := true }
      match s.findPacket l.packet with
      | some p => s.journal p jStarted 0
      | none => s
  | none => s

/-! ### Claims (R336) -/

/-- The whole groups that a claim or return takes: SIZE of the highest declared level at or below the die. -/
def Launch.claimUnit (l : Launch) : Nat := (l.size 2).getD ((l.size 1).getD 1)

/-- The index never starts: its group has been killed (R393). -/
def Launch.isDead (l : Launch) (i : Nat) : Bool := l.dead.any (fun (k, g) => l.groupOf k i == g)

/-- The first indices of a rising list, at least 64 where there are so many, in whole groups. -/
def Launch.portion (l : Launch) (is : List Nat) : List Nat :=
  match is with
  | [] => []
  | _ =>
    let cut := (is.take 64).getLastD 0 / l.claimUnit
    is.filter (fun i => decide (i / l.claimUnit ≤ cut))

/-- Unstarted indices that a die holds. -/
def Launch.held (l : Launch) (die : Nat) : List Nat := lookupD [] l.claims die

/-- A die has a free eligible core for an unstarted or the next index. -/
def State.dieHasCore (s : State) (l : Launch) (die : Nat) (is : List Nat) : Bool :=
  is.any (fun i => (List.range 96).any (fun k => s.eligible l i (96 * die + k)))

/-- What the next claim of a package, by its unit's number, hands out: returned indices before fresh ones, and none of a group that
another package holds (R461). -/
def Launch.nextClaim (l : Launch) (unit : Nat) : List Nat × Launch :=
  let back := l.returned.filter (l.mayTake unit)
  if back ≠ [] then
    let is := l.portion back
    (is, { l with returned := l.returned.filter (fun i => !is.contains i) })
  else
    let hi := min l.nidx ((l.next + 64 + l.claimUnit - 1) / l.claimUnit * l.claimUnit)
    let is := ((List.range (hi - l.next)).map (· + l.next)).takeWhile (l.mayTake unit)
    (is, { l with next := l.next + is.length })

def State.launchOf (s : State) (pid : Nat) : Option Launch := s.dev.sched.launches.find? (·.packet == pid)

/-- Claiming may begin: every participating die has accepted or is lost (R336). -/
def State.claimsOpen (s : State) (l : Launch) : Bool :=
  (s.liveDies l).all l.accepted.contains && (s.awayPkgs l).all l.awayAccepted.contains

/-- The claim of a die counts: its mirror and that of the leader's counter are acknowledged (R453). -/
def Launch.countClaim (l : Launch) (die : Nat) (is : List Nat) : Launch :=
  let is := is.filter (fun i => !l.isDead i)
  let l := is.foldl (fun l i => l.mirrorTo i die) l
  { l with
    pending := l.pending.filter (·.1 != die), mirrorNext := l.next
    claims := insertAt l.claims die (is.foldl KeySet.add (l.held die)) }

/-- R336: the leader grants a die that has a free eligible core and no unstarted index the next ones. -/
def State.grantClaim (s : State) (l : Launch) (die : Nat) : State :=
  let (is, l') := l.nextClaim 0
  if !s.leads l || !((s.liveDies l).head?).all s.accepts || !s.claimsOpen l || !(l.held die).isEmpty || is.isEmpty ||
      !s.dieHasCore l die (is.take 1) then s
  else if s.hasBuddy l then s.setLaunch { l' with pending := l'.pending ++ [(die, is)] }
  else s.setLaunch (l'.countClaim die is)

/-- R336, R453: a participating die accepts the launch; then it claims, and the claim counts once its mirror is
acknowledged. -/
def execIndexClaim (die pid : Nat) (s : State) : Outcome State Fault Refusal :=
  match s.launchOf pid with
  | none => .next s
  | some l =>
    if !l.dies.contains die || !s.accepts die then .next s
    else if !l.accepted.contains die then .next (s.setLaunch { l with accepted := l.accepted ++ [die] })
    else
      match l.pending.find? (·.1 == die) with
      | some (_, is) => .next (s.setLaunch (l.countClaim die is))
      | none => .next (s.grantClaim l die)

/-- 10 µs of the 1.5 GHz reference. -/
def returnCycles : Nat := 15000

/-- R336: unstarted indices go back after 10 µs without a free eligible core. -/
def execIndexReturnTimeout (die pid : Nat) (s : State) : Outcome State Fault Refusal :=
  match s.launchOf pid with
  | none => .next s
  | some l =>
    match l.blocked.find? (·.1 == die) with
    | none => .next s
    | some (_, since) =>
      if (l.held die).isEmpty || s.dieHasCore l die (l.held die) || decide (s.wheel < since + returnCycles) then .next s
      else .next (s.setLaunch { l with
        claims := insertAt l.claims die [], blocked := l.blocked.filter (·.1 != die)
        mirrors := l.mirrors.map (fun (d, is) => (d, if d = die then is.filter (fun i => !(l.held die).contains i) else is))
        returned := if s.leads l then (l.held die).foldl KeySet.add l.returned else l.returned
        backed := if s.leads l then l.backed else (l.held die).foldl KeySet.add l.backed
        granted := if s.leads l then l.granted else l.granted - (l.held die).length })

/-- A core that is free now ends the span of the dies that it is eligible for, however soon it is taken again (R336). -/
def State.noteFree (s : State) : State :=
  s.dev.sched.launches.foldl (fun s l =>
    let b := l.blocked.filter (fun e => !s.dieHasCore l e.1 (l.held e.1))
    if b = l.blocked then s else s.setLaunch { l with blocked := b }) s

/-- Since when each die has held indices without a free eligible core. -/
def State.noteBlocked (s : State) : State :=
  s.dev.sched.launches.foldl (fun s l =>
    let b := l.claims.filterMap (fun (d, is) =>
      if is.isEmpty || s.dieHasCore l d is then none
      else some (d, ((l.blocked.find? (·.1 == d)).map (·.2)).getD s.wheel))
    if b = l.blocked then s else s.setLaunch { l with blocked := b }) s

/-! ### The end of a launch (R337) -/

/-- Every index has been started or never starts, as far as the leader's counter is told here. -/
def Launch.allStarted (l : Launch) : Bool :=
  l.next == l.nidx && l.returned.isEmpty && l.claims.all (fun e => e.2.isEmpty) && l.pending.all (fun e => e.2.isEmpty) && l.again.isEmpty

/-- Every index has been started or never starts, and every task has ended, those of other packages too. -/
def State.finished (s : State) (l : Launch) : Bool :=
  l.live == 0 &&
    (if s.leads l then l.allStarted && l.away.isEmpty
     else { l with next := l.nidx }.allStarted && l.awayEnded.length + l.granted == l.nidx)

/-- R337; killed tasks' ends count first, once their mirrors are acknowledged (R453). -/
def execLaunchComplete (pid : Nat) (s : State) : Outcome State Fault Refusal :=
  match s.launchOf pid with
  | none => .next s
  | some l =>
    if l.unacked ≠ [] then .next (s.setLaunch l.ackEnds)
    else if !s.finished l then .next s
    else .next ((s.setSched { s.dev.sched with launches := s.dev.sched.launches.filter (·.id != l.id) }).packetOutcome pid 0)

/-! ### Launches over several packages (R289, R336, R452) -/

/-- The launch of another package's LID that this package takes part in. -/
def State.farLaunch (s : State) (lid : BitVec 32) : Option Launch := s.dev.sched.launches.find? (fun l => l.lid == lid && decide (1 < l.pkgs))

/-- Package `unit - 1` is to hold the group of an index at the package level: the leader places it there with the claim, before its first
task issues (R461, log 70). -/
def Launch.holdAway (l : Launch) (unit i : Nat) : Launch :=
  match l.level 3 with
  | some _ =>
    let g := l.groupSt 3 (l.groupOf 3 i)
    if g.unit.isNone then l.setGroup { g with unit := some unit } else l
  | none => l

/-- The group of an index at the package level is placed anew, where no task of it has issued in another package and none of its indices
is claimed there (R461). -/
def Launch.freeAway (l : Launch) (i : Nat) : Launch :=
  let k := l.groupOf 3 i
  let g := l.groupSt 3 k
  if (l.level 3).isSome && g.unit.any (fun u => u != 0) && !l.awayIssued.contains k && l.away.all (fun e => l.groupOf 3 e.2 != k) then
    l.setGroup { g with unit := none }
  else l

/-- What package `pkg` tells of its part in a launch: it has accepted; it claims from the leader here, whose grant counts at its next
claim, once the mirror of the counter is acknowledged (R453); a claim is mirrored here, or an index comes back or has ended; the
leader there grants indices to a die of this package; it reports on a gang, or its leader answers; its tasks have reached a superstep; a group's
first task has issued there, after which the group stays (R461). -/
def State.launchIn (s : State) (pkg : Nat) (m : LinkIn) : State :=
  let on (lid : BitVec 32) (f : Launch → State) : State :=
    match s.farLaunch lid with
    | some l => if (s.awayPkgs l).contains pkg then f l else s
    | none => s
  match m with
  | .accepted lid => on lid (fun l => s.setLaunch { l with awayAccepted := KeySet.add l.awayAccepted pkg })
  | .claim lid => on lid (fun l =>
      if !s.leads l || !((s.liveDies l).head?).all s.accepts || !s.claimsOpen l then s
      else
        match l.pending.find? (·.1 == 8 + pkg) with
        | some (_, is) => s.setLaunch { l with
            away := l.away ++ (is.filter (fun i => !l.isDead i)).map (pkg, ·), pending := l.pending.filter (·.1 != 8 + pkg), mirrorNext := l.next }
        | none =>
          let (is, l') := l.nextClaim (1 + pkg)
          if is.isEmpty then s
          else s.setLaunch { is.foldl (fun l i => l.holdAway (1 + pkg) i) l' with pending := l'.pending ++ [(8 + pkg, is)] })
  | .claimed lid owner i => on lid (fun l =>
      if s.leads l || owner == s.pkgId.toNat || decide (l.nidx ≤ i) then s
      else s.setLaunch { l.holdAway (1 + owner) i with
        next := max l.next (i + 1), backed := l.backed.filter (· != i), away := l.away.filter (·.2 != i) ++ [(owner, i)], awayEnded := l.awayEnded.filter (· != i) })
  | .returns lid i => on lid (fun l =>
      if !l.away.contains (pkg, i) then s
      else s.setLaunch (({ l with
        away := l.away.filter (· != (pkg, i)), returned := if s.leads l then KeySet.add l.returned i else l.returned
        backed := if s.leads l then l.backed else KeySet.add l.backed i } : Launch).freeAway i))
  | .issued lid i => on lid (fun l => s.setLaunch { l.holdAway (1 + pkg) i with awayIssued := KeySet.add l.awayIssued (l.groupOf 3 i) })
  | .report lid g => on lid (fun l => if s.leads l then s.setLaunch { l with reports := l.reports ++ [(pkg, g)] } else s)
  | .answer lid g => on lid (fun l => if s.leads l then s else s.setLaunch { l with answered := KeySet.add l.answered g })
  | .grant lid die first count => on lid (fun l =>
      if s.leads l || !l.dies.contains die || !s.accepts die || l.pending.any (·.1 == die) || decide (l.nidx < first + count) then s
      else s.setLaunch { l with
        next := max l.next (first + count), granted := l.granted + count
        backed := l.backed.filter (fun i => decide (i < first) || decide (first + count ≤ i)), pending := l.pending ++ [(die, (List.range count).map (· + first))] })
  | .ended lid i => on lid (fun l =>
      if decide (l.nidx ≤ i) || (s.leads l && !l.away.contains (pkg, i)) then s
      else s.setLaunch { l with
        next := if s.leads l then l.next else max l.next (i + 1), away := l.away.filter (· != (pkg, i)), awayEnded := KeySet.add l.awayEnded i })
  | .superstep lid k => on lid (fun l => s.setLaunch { l with awaySteps := insertAt l.awaySteps pkg (max k (lookupD 0 l.awaySteps pkg)) })
  | _ => s

end Sys2Proof.Machine
end

