-- ==== Sys2Proof/Machine/Scalar.lean ====
section
/-! DEFINITION. The S slot: RV64IM and Zicsr (R110 to R117). Results reach their register through `Core.push` with the
latencies of R111. -/

namespace Sys2Proof.Machine

open Host (Outcome)

/-- A result of the S slot with a latency. -/
def sRes (c : Core) (rd : XReg) (lat : Nat) (v : DWord) : Core := c.push (mkPend .s lat (.x rd v))

/-- A 32-bit result, sign-extended. -/
def sext32 (v : BitVec 32) : DWord := v.signExtend 64
def lo32 (v : DWord) : BitVec 32 := v.setWidth 32

/-- Division with the ratified results of RISC-V for zero and overflow (R110). -/
def rvDiv {w : Nat} (a b : BitVec w) : BitVec w := if b = 0 then BitVec.allOnes w else a.sdiv b
def rvRem {w : Nat} (a b : BitVec w) : BitVec w := if b = 0 then a else a.srem b
def rvDivu {w : Nat} (a b : BitVec w) : BitVec w := if b = 0 then BitVec.allOnes w else a / b
def rvRemu {w : Nat} (a b : BitVec w) : BitVec w := if b = 0 then a else a % b

/-- The high half of a product of two integers. -/
def mulHi (a b : Int) : DWord := BitVec.ofInt 64 (a * b / 2 ^ 64)

def boolD (b : Bool) : DWord := if b then 1 else 0

/-- Register-register and register-immediate shapes. -/
def sRR (i : Instr) (f : RF) (lat : Nat) (op : DWord → DWord → DWord) (s : State) : Outcome State Fault Refusal :=
  slotOp i s fun c => .ok (sRes c f.rd lat (op (c.rx f.rs1) (c.rx f.rs2)))

def sRI (i : Instr) (f : IF) (op : DWord → DWord → DWord) (s : State) : Outcome State Fault Refusal :=
  slotOp i s fun c => .ok (sRes c f.rd 1 (op (c.rx f.rs1) (f.imm.signExtend 64)))

def sSh (i : Instr) (f : ShF) (op : DWord → Nat → DWord) (s : State) : Outcome State Fault Refusal :=
  slotOp i s fun c => .ok (sRes c f.rd 1 (op (c.rx f.rs1) f.sh.toNat))

def sShw (i : Instr) (f : ShwF) (op : BitVec 32 → Nat → BitVec 32) (s : State) : Outcome State Fault Refusal :=
  slotOp i s fun c => .ok (sRes c f.rd 1 (sext32 (op (lo32 (c.rx f.rs1)) f.sh.toNat)))

/-- 32-bit operations on the low words. -/
def opW (op : BitVec 32 → BitVec 32 → BitVec 32) (a b : DWord) : DWord := sext32 (op (lo32 a) (lo32 b))

/-- R110, LUI: the immediate in bits [31:12], sign-extended. -/
def execLui (f : UF) (s : State) : Outcome State Fault Refusal :=
  slotOp (.lui f) s fun c => .ok (sRes c f.rd 1 (sext32 (f.imm ++ 0#12)))
/-- R114: the immediate is added to the address of the head of the bundle. -/
def execAuipc (f : UF) (s : State) : Outcome State Fault Refusal :=
  slotOp (.auipc f) s fun c => .ok (sRes c f.rd 1 (c.k.pc.setWidth 64 + sext32 (f.imm ++ 0#12)))
def execAddi (f : IF) (s : State) : Outcome State Fault Refusal :=
  sRI (.addi f) f (· + ·) s
def execSlti (f : IF) (s : State) : Outcome State Fault Refusal :=
  sRI (.slti f) f (fun a b => boolD (a.slt b)) s
def execSltiu (f : IF) (s : State) : Outcome State Fault Refusal :=
  sRI (.sltiu f) f (fun a b => boolD (a.ult b)) s
def execXori (f : IF) (s : State) : Outcome State Fault Refusal :=
  sRI (.xori f) f (· ^^^ ·) s
def execOri (f : IF) (s : State) : Outcome State Fault Refusal :=
  sRI (.ori f) f (· ||| ·) s
def execAndi (f : IF) (s : State) : Outcome State Fault Refusal :=
  sRI (.andi f) f (· &&& ·) s
def execAddiw (f : IF) (s : State) : Outcome State Fault Refusal :=
  sRI (.addiw f) f (opW (· + ·)) s
def execSlli (f : ShF) (s : State) : Outcome State Fault Refusal :=
  sSh (.slli f) f (fun a k => a <<< k) s
def execSrli (f : ShF) (s : State) : Outcome State Fault Refusal :=
  sSh (.srli f) f (fun a k => a >>> k) s
def execSrai (f : ShF) (s : State) : Outcome State Fault Refusal :=
  sSh (.srai f) f (fun a k => a.sshiftRight k) s
def execSlliw (f : ShwF) (s : State) : Outcome State Fault Refusal :=
  sShw (.slliw f) f (fun a k => a <<< k) s
def execSrliw (f : ShwF) (s : State) : Outcome State Fault Refusal :=
  sShw (.srliw f) f (fun a k => a >>> k) s
def execSraiw (f : ShwF) (s : State) : Outcome State Fault Refusal :=
  sShw (.sraiw f) f (fun a k => a.sshiftRight k) s
def execAdd (f : RF) (s : State) : Outcome State Fault Refusal :=
  sRR (.add f) f 1 (· + ·) s
def execSub (f : RF) (s : State) : Outcome State Fault Refusal :=
  sRR (.sub f) f 1 (· - ·) s
def execSll (f : RF) (s : State) : Outcome State Fault Refusal :=
  sRR (.sll f) f 1 (fun a b => a <<< (b.toNat % 64)) s
def execSlt (f : RF) (s : State) : Outcome State Fault Refusal :=
  sRR (.slt f) f 1 (fun a b => boolD (a.slt b)) s
def execSltu (f : RF) (s : State) : Outcome State Fault Refusal :=
  sRR (.sltu f) f 1 (fun a b => boolD (a.ult b)) s
def execXor (f : RF) (s : State) : Outcome State Fault Refusal :=
  sRR (.xor f) f 1 (· ^^^ ·) s
def execSrl (f : RF) (s : State) : Outcome State Fault Refusal :=
  sRR (.srl f) f 1 (fun a b => a >>> (b.toNat % 64)) s
def execSra (f : RF) (s : State) : Outcome State Fault Refusal :=
  sRR (.sra f) f 1 (fun a b => a.sshiftRight (b.toNat % 64)) s
def execOr (f : RF) (s : State) : Outcome State Fault Refusal :=
  sRR (.or f) f 1 (· ||| ·) s
def execAnd (f : RF) (s : State) : Outcome State Fault Refusal :=
  sRR (.and f) f 1 (· &&& ·) s
def execAddw (f : RF) (s : State) : Outcome State Fault Refusal :=
  sRR (.addw f) f 1 (opW (· + ·)) s
def execSubw (f : RF) (s : State) : Outcome State Fault Refusal :=
  sRR (.subw f) f 1 (opW (· - ·)) s
def execSllw (f : RF) (s : State) : Outcome State Fault Refusal :=
  sRR (.sllw f) f 1 (opW fun a b => a <<< (b.toNat % 32)) s
def execSrlw (f : RF) (s : State) : Outcome State Fault Refusal :=
  sRR (.srlw f) f 1 (opW fun a b => a >>> (b.toNat % 32)) s
def execSraw (f : RF) (s : State) : Outcome State Fault Refusal :=
  sRR (.sraw f) f 1 (opW fun a b => a.sshiftRight (b.toNat % 32)) s
def execMul (f : RF) (s : State) : Outcome State Fault Refusal :=
  sRR (.mul f) f 3 (· * ·) s
def execMulh (f : RF) (s : State) : Outcome State Fault Refusal :=
  sRR (.mulh f) f 3 (fun a b => mulHi a.toInt b.toInt) s
def execMulhsu (f : RF) (s : State) : Outcome State Fault Refusal :=
  sRR (.mulhsu f) f 3 (fun a b => mulHi a.toInt b.toNat) s
def execMulhu (f : RF) (s : State) : Outcome State Fault Refusal :=
  sRR (.mulhu f) f 3 (fun a b => mulHi a.toNat b.toNat) s
def execDiv (f : RF) (s : State) : Outcome State Fault Refusal :=
  sRR (.div f) f 20 rvDiv s
def execDivu (f : RF) (s : State) : Outcome State Fault Refusal :=
  sRR (.divu f) f 20 rvDivu s
def execRem (f : RF) (s : State) : Outcome State Fault Refusal :=
  sRR (.rem f) f 20 rvRem s
def execRemu (f : RF) (s : State) : Outcome State Fault Refusal :=
  sRR (.remu f) f 20 rvRemu s
def execMulw (f : RF) (s : State) : Outcome State Fault Refusal :=
  sRR (.mulw f) f 3 (opW (· * ·)) s
def execDivw (f : RF) (s : State) : Outcome State Fault Refusal :=
  sRR (.divw f) f 12 (opW rvDiv) s
def execDivuw (f : RF) (s : State) : Outcome State Fault Refusal :=
  sRR (.divuw f) f 12 (opW rvDivu) s
def execRemw (f : RF) (s : State) : Outcome State Fault Refusal :=
  sRR (.remw f) f 12 (opW rvRem) s
def execRemuw (f : RF) (s : State) : Outcome State Fault Refusal :=
  sRR (.remuw f) f 12 (opW rvRemu) s

/-! ### SPAD loads and stores (R112) -/

/-- The checks of R112 on an offset of a naturally aligned access. -/
def spadCheck (off : DWord) (n : Nat) : Option Fail :=
  if off.toNat % n ≠ 0 then some ⟨0x25, off⟩
  else if 0x100000 ≤ off.toNat then some ⟨0x26, off⟩
  else none

/-- A load: the register takes its mark from the granule read (R428); a denied one is a free value with a mark (R346). -/
def sLoad (i : Instr) (f : IF) (n : Nat) (ext : Nat → DWord) (s : State) : Outcome State Fault Refusal :=
  slotOpS i s fun s c =>
    let off := c.rx f.rs1 + f.imm.signExtend 64
    match spadCheck off n with
    | some e => .error e
    | none =>
      let k := mkey .spad s.iss.core off.toNat
      let v := ext (if s.spadOk s.iss.core then s.nat k n else (Config.freeWord s.free).toNat % 2 ^ (8 * n))
      let bad := !s.spadOk s.iss.core || s.marked k n
      .ok ((s.spadDenied k).setCur (c.push (mkPend .s 3 (if bad then .xMarked f.rd v else .x f.rd v))))

def sStore (i : Instr) (f : StF) (n : Nat) (s : State) : Outcome State Fault Refusal :=
  slotOpS i s fun s c =>
    let off := c.rx f.rs1 + f.imm.signExtend 64
    match spadCheck off n with
    | some e => .error e
    | none =>
      let k := mkey .spad s.iss.core off.toNat
      .ok (s.spadStore k (fun s => s.storeNat k n (c.rx f.rs2).toNat))

/-- Sign extension of an n-bit value. -/
def sextD (n : Nat) (v : Nat) : DWord := BitVec.ofInt 64 (sext v n)

def execLb (f : IF) (s : State) : Outcome State Fault Refusal :=
  sLoad (.lb f) f 1 (sextD 8) s
def execLh (f : IF) (s : State) : Outcome State Fault Refusal :=
  sLoad (.lh f) f 2 (sextD 16) s
def execLw (f : IF) (s : State) : Outcome State Fault Refusal :=
  sLoad (.lw f) f 4 (sextD 32) s
def execSld (f : IF) (s : State) : Outcome State Fault Refusal :=
  sLoad (.sld f) f 8 (BitVec.ofNat 64) s
def execLbu (f : IF) (s : State) : Outcome State Fault Refusal :=
  sLoad (.lbu f) f 1 (BitVec.ofNat 64) s
def execLhu (f : IF) (s : State) : Outcome State Fault Refusal :=
  sLoad (.lhu f) f 2 (BitVec.ofNat 64) s
def execLwu (f : IF) (s : State) : Outcome State Fault Refusal :=
  sLoad (.lwu f) f 4 (BitVec.ofNat 64) s
def execSb (f : StF) (s : State) : Outcome State Fault Refusal :=
  sStore (.sb f) f 1 s
def execSh (f : StF) (s : State) : Outcome State Fault Refusal :=
  sStore (.sh f) f 2 s
def execSw (f : StF) (s : State) : Outcome State Fault Refusal :=
  sStore (.sw f) f 4 s
def execSd (f : StF) (s : State) : Outcome State Fault Refusal :=
  sStore (.sd f) f 8 s

/-- R115: FENCE orders as VFENCE at package scope with acquire-release, whatever its fields. -/
def execFence (f : FenceF) (s : State) : Outcome State Fault Refusal :=
  slotOp (.fence f) s fun c => .ok (c.fenceMark s.iss.core .acqRel .package)

/-- A completion trap of the bundle being carried out (R384): TPC names the bundle that follows. -/
def State.complete (s : State) (cause : BitVec 8) (tval : DWord) (sl : Slot) : Outcome State Fault Refusal :=
  let c := s.cur
  let t : Trap := { mkTrap cause tval sl c with kind := .completion, rep := s.iss.rep }
  let next := s.iss.xfer.getD s.iss.next
  let s := s.setCur { c with t := { c.t with issue := 0 }, k := { c.k with pc := next } }
  .next (s.raise t)

/-- R116: the environment-call trap. -/
def execEcall (s : State) : Outcome State Fault Refusal := s.complete 0x09 0 .s
/-- R116: the breakpoint trap. -/
def execEbreak (s : State) : Outcome State Fault Refusal := s.complete 0x0A 0 .s

/-! ### Zicsr (R50, R51, R117) -/

/-- The value of a listed CSR. -/
def Core.csr (c : Core) (num : BitVec 12) : DWord :=
  let lc (k : Fin 4) : DWord :=
    let l := c.c.lc[k]
    l.kind ++ l.stg ++ l.start ++ l.fin ++ l.iter
  match num.toNat with
  | 0x800 => c.c.rot.setWidth 64
  | 0x801 => (0#51 ++ c.c.flags ++ 0#4 ++ c.c.acc.code ++ c.c.rm.code : BitVec 64)
  | 0x802 => c.c.tol
  | 0x803 => c.c.tolabs
  | 0x804 => c.c.rmax.setWidth 64
  | 0x805 => c.c.rseq.setWidth 64
  | 0x806 => c.c.mpc.setWidth 64
  | 0x808 => lc 0
  | 0x809 => lc 1
  | 0x80A => lc 2
  | 0x80B => lc 3
  | 0x810 => (0#51 ++ BitVec.ofNat 5 c.t.landing.length ++ 0#7 ++ BitVec.ofBool c.c.narrow : BitVec 64)
  | 0x818 => c.c.tvec.setWidth 64
  | 0x819 => c.tr.cause.setWidth 64
  | 0x81A => c.tr.pc.setWidth 64
  | 0x81B => c.tr.val
  | 0x81C => c.tr.slot.setWidth 64
  | 0x81D => c.tr.elem.setWidth 64
  | 0x81E => c.tr.loop
  | 0xCC0 => (0#32 ++ BitVec.ofNat 8 c.c.wl ++ BitVec.ofNat 8 c.c.tl ++ BitVec.ofNat 8 c.c.cp ++ BitVec.ofNat 8 c.c.st : BitVec 64)
  | 0xCC1 => c.c.wheel.setWidth 64
  | 0xCC2 => c.c.taskid.setWidth 64
  | 0xCC3 => c.c.grpid.setWidth 64
  | 0xCC4 => c.c.codebase.setWidth 64
  | 0xCC5 => c.c.codelim.setWidth 64
  | 0xCC6 => c.c.tstate.setWidth 64
  | _ => 0

/-- The three ways of writing a CSR. -/
inductive CsrOp where
  | write | set | clear
  deriving DecidableEq, Repr

/-- What a Zicsr instruction writes from its source value (R117). -/
def csrPend (num : BitVec 12) (op : CsrOp) (src : DWord) : Write :=
  match op with
  | .write => .csr { num := num, mask := BitVec.allOnes 64, val := src, clear := src }
  | .set => .csr { num := num, mask := src, val := src, clear := src }
  | .clear => .csr { num := num, mask := src, val := 0, clear := 0 }

/-- A Zicsr instruction: the old value to rd, the write for the next bundle. -/
def csrOp (i : Instr) (num : BitVec 12) (rd : XReg) (op : CsrOp) (writes : Bool) (src : Core → DWord) (s : State) :
    Outcome State Fault Refusal :=
  slotOp i s fun c =>
    if csrLegal num writes then
      let c' := sRes c rd 1 (c.csr num)
      .ok (if writes then c'.push (mkPend .s 1 (csrPend num op (src c))) else c')
    else .error ⟨0x01, (encode i).getD 0⟩

def execCsrrw (f : CsrF) (s : State) : Outcome State Fault Refusal :=
  csrOp (.csrrw f) f.csr f.rd .write true (fun c => c.rx f.rs1) s
def execCsrrs (f : CsrF) (s : State) : Outcome State Fault Refusal :=
  csrOp (.csrrs f) f.csr f.rd .set (f.rs1 != 0) (fun c => c.rx f.rs1) s
def execCsrrc (f : CsrF) (s : State) : Outcome State Fault Refusal :=
  csrOp (.csrrc f) f.csr f.rd .clear (f.rs1 != 0) (fun c => c.rx f.rs1) s
def execCsrrwi (f : CsriF) (s : State) : Outcome State Fault Refusal :=
  csrOp (.csrrwi f) f.csr f.rd .write true (fun _ => f.uimm.setWidth 64) s
def execCsrrsi (f : CsriF) (s : State) : Outcome State Fault Refusal :=
  csrOp (.csrrsi f) f.csr f.rd .set (f.uimm != 0) (fun _ => f.uimm.setWidth 64) s
def execCsrrci (f : CsriF) (s : State) : Outcome State Fault Refusal :=
  csrOp (.csrrci f) f.csr f.rd .clear (f.uimm != 0) (fun _ => f.uimm.setWidth 64) s

end Sys2Proof.Machine
end

