-- ==== Sys2Proof/Machine/Save.lean ====
section
/-! DEFINITION. Pre-emption (R59, R60, R204, R352 to R355, R369, R390): the drain, the save record, the sealed image and
the restore. Where the manual gives an area and what it holds but no inner layout, the layout is the model's (log 10). -/

namespace Sys2Proof.Machine

open Host (Outcome)

/-! ### Bytes of the record (R59, R60) -/

def zeroBytes (n : Nat) : List Byte := List.replicate n 0

/-- Bytes that the manual leaves open. -/
def freeBytes (f n : Nat) : List Byte := (List.range n).map (fun i => fld (Config.freeWord (f + i / 128)) (8 * (i % 128)) 8)

/-- Eight bits a byte, the lowest first. -/
def bitBytes (n : Nat) (b : Nat → Bool) : List Byte :=
  (List.range n).map (fun i => BitVec.ofNat 8 (packNat 1 ((List.range 8).map (fun k => if b (8 * i + k) then 1 else 0))))

/-- A list of bytes made `n` long with zeros. -/
def padTo (n : Nat) (l : List Byte) : List Byte := l.take n ++ zeroBytes (n - l.length)

/-- The landing entry: data, then destination, count and arrived bit, and behind them the marks of the data (R427, log 10). -/
def Landing.image (l : Landing) : List Byte :=
  let d : Nat := match l.dest with
    | .v p => p
    | .x r => 0x100 + r.toNat
    | .h r => 0x200 + r.toNat
  padTo 144 (leBytes 128 l.data.toNat ++ leBytes 2 d ++ leBytes 2 l.rem ++ leBytes 1 (if l.arrived then 1 else 0) ++
    leBytes 2 l.marks.toNat)

/-- The destination that a landing entry names. -/
def landDest (d : Nat) : LoadDest :=
  if d < 0x100 then .v (d % 64) else if d < 0x200 then .x (BitVec.ofNat 5 d) else .h (BitVec.ofNat 4 d)

/-- A transform result on its way: what it writes, then its destination, count and flags. -/
def Pend.image (p : Pend) : List Byte :=
  let (d, v) : Nat × Nat := match p.w with
    | .v k _ v => (k, v.toNat)
    | .vMarked k _ v _ => (k, v.toNat)
    | _ => (0xFFFF, 0)
  padTo 144 (leBytes 128 v ++ leBytes 2 d ++ leBytes 2 p.rem ++ leBytes 1 p.flags.toNat ++ [1])

/-- The transform result that an entry of 144 bytes at `o` holds. -/
def Pend.fromImage (p : Pend) (rd : Nat → Nat → Nat) (o : Nat) : Pend :=
  let v : Vec := BitVec.ofNat 1024 (rd o 128)
  let d := rd (o + 128) 2 % 64
  { p with
    rem := rd (o + 130) 2, flags := BitVec.ofNat 5 (rd (o + 132) 1)
    w := match p.w with
      | .v _ m _ => .v d m v
      | .vMarked _ m _ marks => .vMarked d m v marks
      | w => w }

/-- An exponent in the scale adder. -/
def ScaleEntry.image (e : ScaleEntry) : List Byte :=
  padTo 144 (leBytes 8 (BitVec.ofInt 64 e.e).toNat ++ zeroBytes 122 ++ leBytes 2 e.rem ++ [0, 1])

/-- The blocks of a block-scaled operation that wait at the port for their exponent: exact partials, the tile, the row block
and the cycles that remain (R204). -/
def EngOp.images (o : EngOp) : List (List Byte) :=
  match o.res with
  | .scaled ps _ => ((List.range 8).filter (fun k => decide (o.done ≤ k))).map (fun k =>
      padTo 1040 (padTo 1024 (((ps.drop (128 * k)).take 128).flatMap (fun p =>
        leBytes 8 ((BitVec.ofInt 63 p.1).toNat + (if p.2 then 2 ^ 63 else 0)))) ++
        leBytes 1 o.md.toNat ++ leBytes 1 k ++ leBytes 2 (o.left + k - 8)))
  | _ => []

/-- The issue state of a sticky slot: its standing operation and stepped offset. -/
def standImage (o : Option Standing) : List Byte :=
  match o with
  | some d => padTo 32 (leBytes 8 ((encode d.op).getD 0).toNat ++ [1, if d.off.isSome then 1 else 0] ++ leBytes 6 (d.off.getD 0).toNat)
  | none => zeroBytes 32

/-- The place of a transform result's unit among the stages: expand, transpose, convert (R59). -/
def Pend.stage (p : Pend) : Nat := if p.lat = 6 then 0 else if p.lat = 12 then 1 else 2

/-- The transform results on their way, in the order of their units. -/
def Timing.stages (t : Timing) : List Pend :=
  ([0, 1, 2] : List Nat).flatMap (fun u => t.pend.filter (fun p => p.xform && p.stage == u))

/-- A timing image, 24 KiB (R59); `left` is what remains of the bundle's repeat count. -/
def timingImage (t : Timing) (left : Nat) (banked : Bool) : List Byte :=
  let ports := t.eng.flatMap EngOp.images
  let fmt : List Byte := match t.shadow with
    | some f => [1, f.acc.code.setWidth 8, f.rm.code.setWidth 8] ++ leBytes 1 f.rem
    | none => zeroBytes 4
  let head := padTo 255 ([1] ++ fmt ++ leBytes 1 left ++ leBytes 2 (2 ^ t.landing.length - 1) ++ leBytes 1 ports.length) ++
    [if banked then 1 else 0]
  let st := t.stand
  head ++ padTo 2304 (t.landing.flatMap Landing.image) ++
    padTo 3456 (t.stages.flatMap Pend.image ++ t.scale.flatMap ScaleEntry.image) ++ zeroBytes 128 ++
    padTo 16640 ports.flatten ++ ([st.va, st.vb, st.m, st.ca, st.cb, st.x].flatMap standImage) ++ zeroBytes 1600

/-- Results of the M slot on their way, banked ones too. -/
def Core.movePend (c : Core) : List Pend :=
  (c.t.pend ++ (match c.bank with | some b => b.t.pend | none => [])).filter (fun p => !p.xform)

/-- A tile with the blocks of outstanding operations written at once, those of block-scaled ones apart, for which the accumulator stands
in the tile's new panels (R204); a move's result is written at once as well (log 10). -/
def Core.imageTile (c : Core) (m : MReg) : Tile :=
  let t := c.engOps.foldl (fun t o =>
    if o.md ≠ m then t
    else
      match o.res with
      | .blocks k es => { kind := k, rank := 0, panels := o.reserved.take 32, elems := es, u := [], v := [] }
      | .whole r u v => { kind := .lowRank, rank := r, panels := o.reserved.take (2 * r), elems := [], u := u, v := v }
      | .scaled _ acc =>
        { kind := .dense, rank := 0, panels := o.reserved.take 32, elems := t.elems.take (128 * o.done) ++ acc.drop (128 * o.done)
          u := [], v := [] }) (c.tile m)
  c.movePend.foldl (fun t p =>
    match p.w with
    | .tile md k r ps es u v => if md = m then { kind := k, rank := r, panels := ps, elems := es, u := u, v := v } else t
    | .tileRow md row ps v => if md = m then t.withRow row ps v else t
    | _ => t) t

/-- The vector registers, a move's result among them (log 10). -/
def Core.imageV (c : Core) : Vector Vec 64 :=
  c.movePend.foldl (fun r p =>
    match p.w with
    | .v k m v => r.setIfInBounds k ((r.getD k 0 &&& ~~~m) ||| (v &&& m))
    | _ => r) c.r.v

/-- A move's result on its way to this vector register, or to this tile. -/
def Core.moves (c : Core) (f : Pend → Bool) : Bool := c.movePend.any f

/-- The 32 elements of a tile's q-th panel. -/
def Tile.panelElems (t : Tile) (q : Nat) : List DWord :=
  ((if t.kind = .lowRank then t.u ++ t.v else t.elems).drop (32 * q)).take 32

/-- A panel of the pool; what a free one holds is open (log 10). -/
def Core.poolPanel (c : Core) (f p : Nat) : List Byte :=
  let hit := (List.range 16).filterMap (fun m =>
    let t := c.imageTile (BitVec.ofNat 4 m)
    (t.panels.findIdx? (· == p)).map (fun q => t.panelElems q))
  match hit with
  | es :: _ => (List.range 32).flatMap (fun i => leBytes 8 (es.getD i 0).toNat)
  | [] => freeBytes (f + 2 * p) 256

/-- A transpose bank of 32 rows. -/
def rowsBytes (l : List Vec) : List Byte := (List.range 32).flatMap (fun i => leBytes 128 (l.getD i 0).toNat)

/-- The kind of a code (R44). -/
def tileKindOf (n : Nat) : TileKind :=
  if n = 1 then .dense else if n = 2 then .lowRank else if n = 3 then .complex64 else if n = 4 then .complex128 else .empty


/-- The advance cycles until the last of these operations retires. -/
def lastLeft (l : List EngOp) : Nat := (l.map (·.left)).foldl max 0

/-- A tile descriptor: kind, rank, panels in use, busy count, panel map (R204). -/
def Core.tileImage (c : Core) (m : MReg) : List Byte :=
  let t := c.imageTile m
  let busy := max (lastLeft (c.engOps.filter (·.md == m))) (((c.movePend.filter (pendTile · m)).map (·.rem)).foldl max 0)
  padTo 64 (leBytes 1 t.kind.code.toNat ++ leBytes 1 t.rank ++ leBytes 1 t.panels.length ++ [0] ++ leBytes 2 busy ++ zeroBytes 26 ++
    t.panels.flatMap (leBytes 1))

/-- The state of an operand slot: claimed, fill count, verified bits, lock count (R204). -/
def Core.slotImage (c : Core) (o : OSlot) : List Byte :=
  let fill := ((c.fills.filter (·.os == o)).map (·.rem)).foldl max 0
  padTo 64 ([if (c.slot o).claimed then 1 else 0, 0] ++ leBytes 2 fill ++ leBytes 4 (c.slot o).verified.toNat ++
    leBytes 2 (lastLeft (c.engOps.filter (fun e => e.slots.contains o))))

/-- The open footprint edges of a job to the task's own jobs, in a mask of their entries, and to other jobs. -/
def Job.ownEdges (j : Job) (jobs : List Job) : Nat :=
  packNat 1 (jobs.map (fun i => if j.edges.contains i.id then 1 else 0))

def Job.farEdges (j : Job) (jobs : List Job) : List Nat := (j.edges.filter (fun e => jobs.all (·.id != e))).take 12

/-- A job of the task: card, captured capabilities, ticket, rows completed, open footprint edges. -/
def Job.image (jobs : List Job) (j : Job) : List Byte :=
  let card : Nat := match j.work with
    | .copy c => c.toNat
    | .wpe c => c.toNat
    | .signal v off => v.toNat + 2 ^ 64 * off
  padTo 256 (leBytes 64 card ++ ([j.sh, j.dh, j.ah, j.gh].flatMap (fun c => leBytes 32 c.toNat)) ++ leBytes 2 j.ticket.toNat ++
    leBytes 7 j.rows ++ leBytes 1 j.home ++ leBytes 4 (j.ownEdges jobs) ++ leBytes 1 (j.farEdges jobs).length ++
    (j.farEdges jobs).flatMap (leBytes 4))

/-- A job as the record holds it, in the entry of its ticket; an edge is open where the entry names it, or has no room for it. -/
def Job.fromRecord (j : Job) (jobs : List Job) (rd : Nat → Nat → Nat) : Job :=
  match (List.range 32).find? (fun k => rd (0xD000 + 256 * k + 192) 2 == j.ticket.toNat) with
  | none => j
  | some k =>
    let o := 0xD000 + 256 * k
    let cap (i : Nat) : Cap := BitVec.ofNat 256 (rd (o + 64 + 32 * i) 32)
    let far := (List.range (rd (o + 206) 1)).map (fun i => rd (o + 207 + 4 * i) 4)
    let named (e : Nat) : Bool :=
      match jobs.findIdx? (·.id == e) with
      | some i => rd (o + 202) 4 / 2 ^ i % 2 == 1
      | none => !(j.farEdges jobs).contains e || far.contains (e % 2 ^ 32)
    { j with
      work := match j.work with
        | .copy _ => .copy (BitVec.ofNat 512 (rd o 64))
        | .wpe _ => .wpe (BitVec.ofNat 512 (rd o 64))
        | .signal _ _ => .signal (BitVec.ofNat 64 (rd o 8)) (rd (o + 8) 8)
      sh := cap 0, dh := cap 1, ah := cap 2, gh := cap 3, rows := rd (o + 194) 7, home := rd (o + 201) 1, edges := j.edges.filter named }

def recordCsrs : List Nat := csrRwList ++ csrRoList

/-- The parts of the record below the arrays, by offset (R60); `jobs` are the task's, `left` and `bleft` what remains of the repeat
counts of the running and the banked code's bundles. -/
def Core.recordParts (c : Core) (jobs : List Job) (left bleft f : Nat) : List (Nat × List Byte) :=
  [ (0x00000, timingImage c.t left false),
    (0x06000, match c.bank with
      | some b => timingImage b.t bleft true
      | none => zeroBytes 24576),
    (0x0C000, c.r.x.toList.flatMap (fun v => leBytes 8 v.toNat)),
    (0x0C100, c.r.p.toList.flatMap (fun v => leBytes 16 v.toNat)),
    (0x0C200, c.r.h.toList.flatMap (fun v => leBytes 32 v.toNat)),
    (0x0C400, leBytes 8 c.r.htag.toNat),
    (0x0C408, leBytes 8 (c.r.xmark.toNat + 2 ^ 32 * c.r.hmark.toNat)),
    (0x0C800, recordCsrs.flatMap (fun k => leBytes 8 (c.csr (BitVec.ofNat 12 k)).toNat)),
    (0x0CA00, bitBytes 512 (fun g => c.k.resident.contains g)),
    (0x0CC00, leBytes 2 (c.k.segCopy.getD 0xFFF)),
    (0x0CE00, leBytes 4 c.t.xtr.trc.toNat ++ leBytes 4 (if c.t.xtr.b then 1 else 0) ++ leBytes 8 c.superstep),
    (0x0D000, padTo 8192 (jobs.flatMap (Job.image jobs))),
    (0x0F000, c.imageV.toList.flatMap (fun v => leBytes 128 v.toNat)),
    (0x11000, (List.range 16).flatMap (fun k => c.tileImage (BitVec.ofNat 4 k))),
    (0x11400, (List.range 32).flatMap (fun k => c.slotImage (BitVec.ofNat 5 k))),
    (0x11C00, c.r.vmark.toList.flatMap (fun v => leBytes 2 v.toNat)),
    (0x11C80, c.r.slots.toList.flatMap (fun v => leBytes 8 v.marks.toNat)),
    (0x12000, rowsBytes c.t.xtr.bank0 ++ rowsBytes c.t.xtr.bank1),
    (0x14000, (List.range 256).flatMap (c.poolPanel f)) ]

/-- Free values that one record uses: those of the pool's free panels. -/
def recordFrees : Nat := 512

/-- The CSRs from the record, `v` by number; a loop level keeps the trip count and bound that R126 holds beside it. A field
has no place for reserved bits, and RMAX and RSEQ.COUNT take what is beyond their range as a write does (R51, log 10). -/
def Csrs.fromRecord (c : Csrs) (v : Nat → DWord) : Csrs :=
  let lv (k : Fin 4) : LoopLv :=
    let d := v (0x808 + k)
    { c.lc[k] with kind := fld d 62 2, stg := fld d 59 3, start := fld d 43 16, fin := fld d 27 16, iter := fld d 0 27 }
  let rmax : BitVec 5 := fld (v 0x804) 0 5
  let rseq : BitVec 34 := fld (v 0x805) 0 34
  { c with
    rot := fld (v 0x800) 0 5, flags := fld (v 0x801) 8 5, acc := (Acc.ofCode (fld (v 0x801) 2 2)).getD c.acc, rm := Rm.ofCode (fld (v 0x801) 0 2)
    tol := v 0x802, tolabs := v 0x803, rmax := if 16 < rmax.toNat then 16 else rmax
    rseq := if 10 < (fld rseq 30 4).toNat then 10#4 ++ fld rseq 0 30 else rseq
    mpc := fld (v 0x806) 0 48 &&& ~~~3
    lc := #v[lv 0, lv 1, lv 2, lv 3], narrow := bit (v 0x810) 0, tvec := fld (v 0x818) 0 48 &&& ~~~0x7E
    wl := (fld (v 0xCC0) 24 8).toNat, tl := (fld (v 0xCC0) 16 8).toNat, cp := (fld (v 0xCC0) 8 8).toNat, st := (fld (v 0xCC0) 0 8).toNat
    wheel := fld (v 0xCC1) 0 14, taskid := fld (v 0xCC2) 0 40, grpid := fld (v 0xCC3) 0 40, codebase := fld (v 0xCC4) 0 48
    codelim := fld (v 0xCC5) 0 48, tstate := fld (v 0xCC6) 0 48 }

def TrapCsrs.fromRecord (v : Nat → DWord) : TrapCsrs :=
  { cause := fld (v 0x819) 0 8, pc := fld (v 0x81A) 0 48, val := v 0x81B, slot := fld (v 0x81C) 0 12 &&& 0xF07
    elem := fld (v 0x81D) 0 7, loop := v 0x81E &&& 0x800000000003FFFF }

/-- A tile from its descriptor and the pool. -/
def tileFrom (rd : Nat → Nat → Nat) (k : Nat) : Tile :=
  let d (o n : Nat) : Nat := rd (0x11000 + 64 * k + o) n
  let panels := (List.range (d 2 1)).map (fun i => d (32 + i) 1)
  let es := panels.flatMap (fun p => (List.range 32).map (fun i => BitVec.ofNat 64 (rd (0x14000 + 256 * p + 8 * i) 8)))
  match tileKindOf (d 0 1) with
  | .lowRank => { kind := .lowRank, rank := d 1 1, panels := panels, elems := [], u := es.take (32 * d 1 1), v := es.drop (32 * d 1 1) }
  | kd => { kind := kd, rank := d 1 1, panels := panels, elems := es, u := [], v := [] }

/-- The standing operation of a sticky slot from its 32 bytes at `o`. -/
def standFrom (rd : Nat → Nat → Nat) (o : Nat) (sl : Slot) : Option Standing :=
  match decodeSlot sl (BitVec.ofNat 64 (rd o 8)) with
  | .ok op => if rd (o + 8) 1 = 1 then some { op := op, off := if rd (o + 9) 1 = 1 then some (BitVec.ofNat 48 (rd (o + 10) 6)) else none } else none
  | .error _ => none

/-- The exact partials of a block-scaled operation from the port-queue blocks of a timing image (R59, R204). -/
def EngOp.partsFrom (e : EngOp) (ps : List (Int × Bool)) (rd : Nat → Nat → Nat) (o : Nat) : List (Int × Bool) :=
  (List.range 8).flatMap (fun k =>
    match (List.range (rd (o + 8) 1)).find? (fun q => rd (o + 0x1800 + 1040 * q + 1024) 1 == e.md.toNat && rd (o + 0x1800 + 1040 * q + 1025) 1 == k) with
    | some q => (List.range 128).map (fun i =>
        let w : DWord := BitVec.ofNat 64 (rd (o + 0x1800 + 1040 * q + 8 * i) 8)
        ((fld w 0 63 : BitVec 63).toInt, bit w 63))
    | none => (ps.drop (128 * k)).take 128)

/-- What an engine operation is to write, from the record: its blocks and the accumulator stand in its tile's panels, a block-scaled one's
partials at the port (R204). -/
def EngOp.resFrom (e : EngOp) (rd : Nat → Nat → Nat) (o : Nat) : EngRes :=
  let t := tileFrom rd e.md.toNat
  match e.res with
  | .blocks k _ => .blocks k t.elems
  | .scaled ps _ => .scaled (e.partsFrom ps rd o) t.elems
  | .whole r _ _ => .whole r t.u t.v

/-- A result on its way, from the record: a transform's in its stage entry `k`, a move's in the tile or the vector register that it is to
write. -/
def Pend.fromRecord (p : Pend) (rd : Nat → Nat → Nat) (o k : Nat) : Pend :=
  if p.xform then p.fromImage rd (o + 0xA00 + 144 * k)
  else
    match p.w with
    | .v r m _ => { p with w := .v r m (BitVec.ofNat 1024 (rd (0xF000 + 128 * r) 128)) }
    | .tile md _ _ _ _ _ _ =>
      let t := tileFrom rd md.toNat
      { p with rem := rd (0x11004 + 64 * md.toNat) 2, w := .tile md t.kind t.rank t.panels t.elems t.u t.v }
    | _ => p

/-- A timing image at `o` of the record, over what the model keeps of the task beside it: entries, partials, counts, data and standing
operations come from the record, the counts of engine operations and fills from the tiles and slots that they clear (R204). `c` is the
saved core. -/
def Timing.fromRecord (t : Timing) (c : Core) (rd : Nat → Nat → Nat) (o : Nat) : Timing :=
  let place (p : Pend) (i : Nat) : Nat :=
    t.pend.countP (fun q => q.xform && decide (q.stage < p.stage)) + (t.pend.take i).countP (fun q => q.xform && q.stage == p.stage)
  let n := t.stages.length
  { t with
    landing := (t.landing.zipIdx.filter (fun l => rd (o + 6) 2 / 2 ^ l.2 % 2 == 1)).map (fun (l, k) =>
      let e := o + 0x100 + 144 * k
      { l with
        data := BitVec.ofNat 1024 (rd e 128), dest := landDest (rd (e + 128) 2), rem := rd (e + 130) 2
        arrived := rd (e + 132) 1 == 1, marks := BitVec.ofNat 16 (rd (e + 133) 2) })
    pend := t.pend.zipIdx.map (fun (p, i) => p.fromRecord rd o (place p i))
    scale := (List.range t.scale.length).map (fun k =>
      { rem := rd (o + 0xA00 + 144 * (n + k) + 130) 2, e := (BitVec.ofNat 64 (rd (o + 0xA00 + 144 * (n + k)) 8)).toInt })
    shadow := t.shadow.map (fun f => { f with
      acc := (Acc.ofCode (BitVec.ofNat 2 (rd (o + 2) 1))).getD f.acc, rm := Rm.ofCode (BitVec.ofNat 2 (rd (o + 3) 1)), rem := rd (o + 4) 1 })
    eng := t.eng.map (fun e => { e with
      res := e.resFrom rd o
      left := rd (0x11004 + 64 * e.md.toNat) 2 - (lastLeft (c.engOps.filter (·.md == e.md)) - e.left) })
    fills := t.fills.map (fun f => { f with
      rem := rd (0x11402 + 64 * f.os.toNat) 2 - (((c.fills.filter (·.os == f.os)).map (·.rem)).foldl max 0 - f.rem) })
    stand :=
      { va := standFrom rd (o + 0x5900) .va, vb := standFrom rd (o + 0x5920) .vb, m := standFrom rd (o + 0x5940) .m
        ca := standFrom rd (o + 0x5960) .ca, cb := standFrom rd (o + 0x5980) .cb, x := standFrom rd (o + 0x59A0) .x } }

/-- The task's state from its record, `rd` by offset and length; `c` is what the model keeps beside the bytes: where the program stands, the
forms of what is under way, and h0, the root that nothing writes (R48; log 10). A tile or vector register that an operation is to write
keeps its contents until they arrive in their cycles (R204). -/
def Core.fromRecord (c : Core) (rd : Nat → Nat → Nat) : Core :=
  let q (o i : Nat) : DWord := BitVec.ofNat 64 (rd (o + 8 * i) 8)
  let csr (num : Nat) : DWord := q 0xC800 (recordCsrs.idxOf num)
  let busy (k : Nat) : Bool := c.engOps.any (fun o => o.md.toNat == k) || c.moves (pendTile · (BitVec.ofNat 4 k))
  let seg := rd 0xCC00 2
  let rows (o : Nat) : List Vec := (List.range 32).map (fun i => BitVec.ofNat 1024 (rd (o + 128 * i) 128))
  { c with
    r :=
      { x := .ofFn (fun i => q 0xC000 i)
        v := .ofFn (fun i => if c.moves (pendV · i) then c.r.v[i] else BitVec.ofNat 1024 (rd (0xF000 + 128 * i) 128))
        p := .ofFn (fun i => BitVec.ofNat 128 (rd (0xC100 + 16 * i) 16))
        h := (Vector.ofFn (fun i => BitVec.ofNat 256 (rd (0xC200 + 32 * i) 32))).set 0 c.r.h[0]
        htag := setBit (BitVec.ofNat 16 (rd 0xC400 8)) 0 (c.r.htag.getLsbD 0)
        xmark := BitVec.ofNat 32 (rd 0xC408 4)
        hmark := BitVec.ofNat 16 (rd 0xC40C 2)
        vmark := .ofFn (fun i => BitVec.ofNat 16 (rd (0x11C00 + 2 * i) 2))
        tiles := .ofFn (fun i => if busy i then c.r.tiles[i] else tileFrom rd i)
        slots := .ofFn (fun i => { claimed := rd (0x11400 + 64 * i) 1 == 1, verified := BitVec.ofNat 32 (rd (0x11404 + 64 * i) 4)
                                   marks := BitVec.ofNat 64 (rd (0x11C80 + 8 * i) 8) }) }
    c := c.c.fromRecord csr, tr := .fromRecord csr
    t := { c.t.fromRecord c rd 0 with
      xtr := { bank0 := rows 0x12000, bank1 := rows 0x13000, trc := BitVec.ofNat 5 (rd 0xCE00 4), b := rd 0xCE04 4 == 1 } }
    bank := c.bank.map (fun b => { b with t := b.t.fromRecord c rd 0x6000 })
    k := { c.k with
      resident := (List.range 4096).filter (fun g => rd (0xCA00 + g / 8) 1 / 2 ^ (g % 8) % 2 == 1)
      segCopy := if seg = 0xFFF then none else some seg }
    superstep := rd 0xCE08 8 }

/-- The bytes of a record that may not be read: free values from number `f` on, 128 bytes each. -/
def freeRecord (f o k : Nat) : Nat :=
  leNat ((List.range k).map (fun i => fld (Config.freeWord (f + (o + i) / 128)) (8 * ((o + i) % 128)) 8))

/-- Free values that such a record uses. -/
def recordWords : Nat := 2 ^ 14

/-- `b` with every mark set, and with the timing and the code state of `c`, whose entries bring poison. -/
def Core.soiled (b c : Core) (f : Nat) : Core :=
  let soil (t : Timing) (o : Nat) : Timing := { t with landing := t.landing.zipIdx.map (fun (l, k) =>
    { l with data := BitVec.ofNat 1024 (freeRecord f (o + 0x100 + 144 * k) 128), marks := .allOnes 16 }) }
  { b with
    r := { b.r with
      xmark := .allOnes 32, hmark := .allOnes 16, vmark := .replicate 64 (.allOnes 16), htag := setBit 0 0 (c.r.htag.getLsbD 0)
      slots := b.r.slots.map (fun t => { t with marks := .allOnes 64 }) }
    t := { soil c.t 0 with xtr := b.t.xtr }, bank := c.bank.map (fun k => { k with t := soil k.t 0x6000 }), k := c.k }

/-- A record that the scheduler may not read delivers poison (R346): registers, CSRs, tiles and transpose banks are free values, and every
mark is set (log 49). Entries on their way bring poison in their cycles. -/
def Core.poisoned (c : Core) (f : Nat) : Core := (c.fromRecord (freeRecord f)).soiled c f

/-- Copy the cells of [src, src + len) to `dst`, which is clear. -/
def State.copyCells (s : State) (src dst len : Nat) : State :=
  let cells := s.mem.filter (fun c => decide (src ≤ c.1) && decide (c.1 < src + len))
  { s with mem := cells.foldl (fun m c => Memory.write m (c.1 - src + dst) c.2) s.mem }

/-- One bit for each granule of [key, key + 32 * 8 * n). -/
def granuleMap (l : List Nat) (key n : Nat) : List Byte := bitBytes n (fun g => KeySet.has l (key / 32 + g))

/-- The granules that a map names, from `key` on. -/
def mapGranules (bs : List Byte) (key : Nat) : List Nat :=
  (List.range (8 * bs.length)).filterMap (fun g => if bit (bs.getD (g / 8) 0) (g % 8) then some (key / 32 + g) else none)

/-- R345: a save or restore for a context acts in its name, in the one page of the record. -/
def State.recordOk (s : State) (ctx : BitVec 16) (a : Nat) : Bool :=
  (s.ownerNext (ownerPage a)).admits ctx && !s.dev.lost.contains (homeDie a)

/-- What remains of the repeat count of the bundle at `pc`, whose next issue is number `issue` (R59, R69). DESIGN CHOICE (log 95): it counts
the issues still to make, so that it is REP + 1 at a boundary where the bundle has not begun. -/
def State.repLeft (s : State) (n : Nat) (pc : BitVec 48) (issue : Nat) : Nat :=
  (Head.ofWord (s.codeWord n pc.toNat)).rep + 1 - issue

def State.jobsOf (s : State) (uid : Nat) : List Job := s.dev.jobs.filter (fun j => j.owner == .task uid)

/-- The record of core n's task stands at GLOB address `a`. -/
def State.writeRecord (s : State) (n : Nat) (c : Core) (a : Nat) : State :=
  let g := mkey .glob 0 a
  let sp := mkey .spad n 0
  let jobs := (c.task.map (fun t => s.jobsOf t.uid)).getD []
  let s1 := (s.scrub .glob 0 a (2 ^ 21))
  let bleft := (c.bank.map (fun b => s.repLeft n b.tpc b.t.issue)).getD 0
  let s2 := (c.recordParts jobs (s.repLeft n c.k.pc c.t.issue) bleft s.free).foldl (fun s p => s.store (g + p.1) p.2) s1
  let s3 := ((s2.copyCells (mkey .opmem n 0) (g + 0x24000) (2 ^ 18)).copyCells (mkey .side n 0) (g + 0x64000) (2 ^ 15)).copyCells
    sp (g + 0x100000) (2 ^ 20)
  let s4 := (s3.store (g + 0x6C000) (granuleMap s.tags sp 4096)).store (g + 0x6D000) (granuleMap s.marks sp 4096)
  { s4 with free := s.free + recordFrees }

/-- Arrays of core n from a record at `a`: operand memory, side stores, scratchpad with its maps. -/
def State.readRecord (s : State) (n a : Nat) : State :=
  let g := mkey .glob 0 a
  let sp := mkey .spad n 0
  let s := s.clearStorage n
  let s := ((s.copyCells (g + 0x24000) (mkey .opmem n 0) (2 ^ 18)).copyCells (g + 0x64000) (mkey .side n 0) (2 ^ 15)).copyCells
    (g + 0x100000) sp (2 ^ 20)
  { s with
    tags := (mapGranules (s.bytes (g + 0x6C000) 4096) sp).foldl KeySet.add s.tags
    marks := (mapGranules (s.bytes (g + 0x6D000) 4096) sp).foldl KeySet.add s.marks }

/-- Arrays of core n where the record may not be read: free values, each scratchpad granule marked and untagged (R346, log 49). -/
def State.readFree (s : State) (n f : Nat) : State :=
  let sp := mkey .spad n 0
  let s := s.clearStorage n
  let m := Memory.writeList s.mem (mkey .opmem n 0) (freeBytes (f + 0x24000 / 128) (2 ^ 18))
  let m := Memory.writeList m (mkey .side n 0) (freeBytes (f + 0x64000 / 128) (2 ^ 15))
  let m := Memory.writeList m sp (freeBytes (f + 0x100000 / 128) (2 ^ 20))
  { s with mem := m, marks := ((List.range (2 ^ 15)).map (sp / 32 + ·)).foldl KeySet.add s.marks }

/-- The jobs of a task as its record holds them (R60, R246). -/
def State.jobsFrom (s : State) (uid : Nat) (rd : Nat → Nat → Nat) : State :=
  let jobs := s.jobsOf uid
  { s with dev := { s.dev with jobs := s.dev.jobs.map (fun j => if j.owner = .task uid then j.fromRecord jobs rd else j) } }

/-- The number of the next issue from the remaining repeat counts of the record (R59, R69). -/
def State.repFrom (s : State) (n : Nat) (rd : Nat → Nat → Nat) : State :=
  let c := s.core n
  let at_ (t : Timing) (pc : BitVec 48) (o : Nat) : Timing := { t with issue := s.repLeft n pc 0 - rd (o + 5) 1 }
  s.setCore n { c with t := at_ c.t c.k.pc 0, bank := c.bank.map (fun b => { b with t := at_ b.t b.tpc 0x6000 }) }

/-! ### The sealed image (R352 to R355, R369) -/

def State.setCtx (s : State) (k : Nat) (c : Ctx) : State :=
  s.setProt { s.dev.prot with ctxs := insertAt s.dev.prot.ctxs k c }

def slotSize (spadlen : Nat) : Nat := 0x70000 + spadlen

/-- Image slots of a save area: 448 KiB and SPADLEN each (R351). -/
def Ctx.slots (c : Ctx) : Nat :=
  match c.area with
  | some (cap, len) => capLen cap / slotSize len
  | none => 0

/-- The image slot of a task index, with its HOST address and SPADLEN; none without a save area. -/
def Ctx.imageSlot (c : Ctx) (index : Nat) : Option (Nat × Nat × Nat) :=
  match c.area with
  | some (cap, len) =>
    if c.slots = 0 then none
    else some (index % c.slots, capBase cap + index % c.slots * slotSize len, len)
  | none => none

/-- The save key of a context. -/
def State.saveKey (s : State) (c : Ctx) : BitVec 256 :=
  Config.genKey (((s.keySlot c.skey).map (·.key)).getD 0)

def imageNonce (ctx : BitVec 16) (ctr : Nat) : BitVec 96 := BitVec.ofNat 96 (ctx.toNat + 2 ^ 32 * (ctr % 2 ^ 64))

def payloadLen (spadlen : Nat) : Nat := 0x6C000 + spadlen + spadlen / 128 + 2

/-- Header bytes 0 to 63. -/
def imageHeader (ctx : BitVec 16) (index ctr spadlen : Nat) : List Byte :=
  leBytes 4 0x01534C56 ++ leBytes 4 1 ++ leBytes 2 ctx.toNat ++ zeroBytes 6 ++ leBytes 8 index ++ leBytes 8 ctr ++
    leBytes 4 spadlen ++ leBytes 4 (payloadLen spadlen) ++ leBytes 12 (imageNonce ctx ctr).toNat ++ zeroBytes 12

/-- The plaintext payload, from the record that stands at `a`. -/
def State.payload (s : State) (n : Nat) (c : Core) (a spadlen : Nat) : List Byte :=
  let g := mkey .glob 0 a
  let sp := mkey .spad n 0
  s.bytes g 0xC400 ++ zeroBytes 8 ++ s.bytes (g + 0xC408) (0x6C000 - 0xC408) ++ s.bytes sp spadlen ++
    granuleMap s.tags sp (spadlen / 256) ++ granuleMap s.marks sp (spadlen / 256) ++ leBytes 2 (c.r.htag.toNat / 2)

/-- R341, R345, R349: an access of the device for a context to its save area passes the host link's cipher engine, on a live
stream that the area's KEYSLOT names for the context. -/
def State.areaOk (s : State) (x : Ctx) (addr : Nat) : Bool :=
  x.area.any (fun a => s.verdict x.ctx a.1 (mkey .host 0 addr) == .ok)

/-- What the sealing engine takes where it may not read the record: free bytes, every mark set (R346, log 49). -/
def poisonPayload (f spadlen : Nat) : List Byte :=
  let b := freeBytes f (payloadLen spadlen)
  let put (l : List Byte) (o n : Nat) : List Byte := l.take o ++ List.replicate n 0xFF ++ l.drop (o + n)
  let b := put (put (put (put b 0xC408 6) 0x11C00 128) 0x11C80 256) (0x6C000 + spadlen + spadlen / 256) (spadlen / 256)
  (List.range 16).foldl (fun b k => put (put b (0x185 + 144 * k) 2) (0x6185 + 144 * k) 2) b

/-- R352: the image goes to its slot and the record is zeroed; the slot with its EXPECT. A denied write is dropped, and a denied read
of the record delivers poison (R345, R346). -/
def State.sealImage (s : State) (n : Nat) (c : Core) (t : Task) (a k : Nat) (x : Ctx) (slot addr len : Nat) : State × Nat :=
  let ctr := x.savectr + 1
  let ok := s.recordOk x.ctx a
  let f := s.free
  let s := if ok then s.writeRecord n c a else { s with free := s.free + payloadLen len / 128 + 1 }
  let key := s.saveKey x
  let nonce := imageNonce x.ctx ctr
  let head := imageHeader x.ctx t.index ctr len
  let ct := gcmCrypt key nonce (if ok then s.payload n c a len else poisonPayload f len)
  let tag := gcmTag key nonce head ct
  let s := if s.areaOk x addr then
      (s.store (mkey .host 0 addr) (head ++ leBytes 16 tag.toNat ++ zeroBytes 176)).store (mkey .host 0 (addr + 256)) ct
    else s
  let s := if ok then s.scrub .glob 0 a (2 ^ 21) else s.countComplex (dieOf n) x.ctx a (2 ^ 21)
  (s.setCtx k { x with savectr := ctr, held := x.held ++ [(slot, t.uid)] }, ctr)

/-- R355: the cause of the first failing check, or the payload. A denied read delivers poison, which no check passes. Any other header
byte that has changed, reserved ones too, fails check 3 (R371). -/
def State.openImage (s : State) (x : Ctx) (t : Task) (addr len expect : Nat) : Except (BitVec 8) (List Byte) :=
  let h := mkey .host 0 addr
  let head := s.bytes h 64
  let f (o n : Nat) : Nat := s.nat (h + o) n
  let ct := s.bytes (h + 256) (payloadLen len)
  let nonce := imageNonce x.ctx (f 24 8)
  let key := s.saveKey x
  if !s.areaOk x addr ∨ s.marked h 256 then .error 0xC0
  else if f 0 4 ≠ 0x01534C56 ∨ f 4 4 ≠ 1 ∨ f 8 2 ≠ x.ctx.toNat ∨ f 16 8 ≠ t.index then .error 0xC0
  else if f 24 8 ≠ expect then .error 0xC1
  else if f 80 176 ≠ 0 ∨ BitVec.ofNat 128 (f 64 16) ≠ gcmTag key nonce head ct then .error 0xC2
  else .ok (gcmCrypt key nonce ct)

/-- Arrays of core n from a payload. -/
def State.readPayload (s : State) (n len : Nat) (p : List Byte) : State :=
  let sp := mkey .spad n 0
  let part (o k : Nat) : List Byte := (p.drop o).take k
  let s := s.clearStorage n
  let m := Memory.writeList s.mem (mkey .opmem n 0) (part 0x24000 (2 ^ 18))
  let m := Memory.writeList m (mkey .side n 0) (part 0x64000 (2 ^ 15))
  let m := Memory.writeList m sp (part 0x6C000 len)
  { s with
    mem := m
    tags := (mapGranules (part (0x6C000 + len) (len / 256)) sp).foldl KeySet.add s.tags
    marks := (mapGranules (part (0x6C000 + len + len / 256) (len / 256)) sp).foldl KeySet.add s.marks }

/-! ### Which tasks may be pre-empted (R354) -/

/-- A protected task whose image slot is held, or whose context has no save area, is not chosen. -/
def State.savable (s : State) (t : Task) : Bool :=
  match s.ctxEntry t.ctx with
  | none => true
  | some (_, x) =>
    match x.imageSlot t.index with
    | none => false
    | some (slot, _, _) => !x.held.any (fun h => h.1 == slot && h.2 != t.uid)

/-! ### Stopping and saving -/

/-- Jobs of a task pause or go on. -/
def State.pauseJobs (s : State) (uid : Nat) (p : Bool) : State :=
  { s with dev := { s.dev with jobs := s.dev.jobs.map (fun j => if j.owner = .task uid then { j with paused := p } else j) } }

/-- Issue stops at this boundary (R59). -/
def State.stopForSave (s : State) (n : Nat) : State :=
  let c := s.core n
  match c.task with
  | some t =>
    let order := s.dev.sched.stopped.filter (fun u => s.dev.sched.saved.any (·.task.uid == u) ||
      s.cores.any (fun (_, k) => k.mode == .saving && k.task.any (·.uid == u)))
    let s := s.setSched { s.dev.sched with stopped := order ++ [t.uid] }
    (s.setCore n { c with mode := .saving, preempt := false }).pauseJobs t.uid true
  | none => s

/-- The drain of R59 is over: landing data, stores, weight loads and builds. -/
def State.saveReady (s : State) (n : Nat) : Bool :=
  let c := s.core n
  c.mode == .saving && !c.owes && c.entering.isNone && c.landings.all (·.arrived) && c.m.accs.isEmpty && c.m.bar.isEmpty && c.fills.all Fill.full &&
    (match c.task with
     | none => false
     | some t =>
       s.dev.jobs.all (fun j => j.owner != .task t.uid || j.build.isNone) &&
         (match s.ctxEntry t.ctx with
          | none => true
          | some (_, x) => s.dev.link.hostUp && x.state == .active && (x.imageSlot t.index).isSome && s.savable t))

/-- What is kept of the core: its L1 is written back and dropped, its IMEM is not saved. -/
def Core.forSave (c : Core) : Core :=
  { c with mode := .running, yielding := false, m := { c.m with l1 := [], waiting := false, scHeld := none, fences := [] }, k := { c.k with lineOk := false } }

/-- R59, R225, R352: exponents of outstanding butterflies are added, the record that TSTATE names or the sealed image is
written, and the core is free. `behind` is what YIELD waits behind. -/
def State.saveCore (s : State) (n : Nat) (behind : List (Nat × Nat)) : State :=
  let s := s.cleanL1 (fun m _ => m == n)
  let c := (s.core n).writeExps
  match c.task with
  | none => s
  | some t =>
    let a := c.c.tstate.toNat
    let (s, sl) : State × Option (Nat × Nat) :=
      match s.ctxEntry t.ctx with
      | none => (if s.recordOk t.ctx a then s.writeRecord n c a else s.countComplex (dieOf n) t.ctx a (2 ^ 21), none)
      | some (k, x) =>
        match x.imageSlot t.index with
        | some (slot, addr, len) =>
          let (s, ctr) := s.sealImage n c t a k x slot addr len
          (s, some (slot, ctr))
        | none => (s, none)
    let v : Saved := { task := t, core := c.forSave, home := n, clock := s.clock (dieOf n), sealed := sl, behind := behind }
    let s := s.setCore n { c.freed with m := { MemSide.empty with sample := c.m.sample } }
    s.setSched { s.dev.sched with saved := s.dev.sched.saved ++ [v] }

/-! ### Restoring (R59, R204, R324, R355) -/

/-- The core of a restored task: everything but the service state of the new core. -/
def Core.restored (old : Core) (v : Saved) : Core :=
  { v.core with
    mode := .running, out := old.out, testReq := old.testReq, last5 := old.last5, held := false
    m := { v.core.m with l1 := keepGlob old.m.l1, sample := old.m.sample }
    k := { v.core.k with resident := [], segCopy := none, segStale := false, wait := none } }

/-- The jobs of a restored task go on from its new core. One that works on its die's weight tier goes on there, and fails with the die
(DESIGN CHOICE, log 94: the spec does not say which die's tier a job names after a restore on another). -/
def State.homeJobs (s : State) (uid n : Nat) : State :=
  { s with dev := { s.dev with jobs := s.dev.jobs.map (fun j =>
    if j.owner = .task uid then
      if !j.onTier then { j with paused := false, core := n, die := dieOf n, seq := 0 }
      else if s.dev.lost.contains j.die then { j with paused := false, core := n, die := dieOf n, seq := 0, bad := j.bad.or (some 0xE6) }
      else { j with paused := false, core := n, seq := 0 }
    else j) } }

/-- The segments that the record names. -/
def State.savedSegs (s : State) (n : Nat) (v : Saved) : List Seg :=
  (v.core.k.resident ++ v.core.k.segCopy.toList).filterMap (s.segAt (s.core n))

/-- The segments that the record names are copied in. -/
def State.restoreSegs (s : State) (n : Nat) (v : Saved) : State := s.loadSegs n (s.savedSegs n v)

/-- The task may come back on core n: its die knows what the old one knew, so that no older copy is left there, and its segments can be
copied in (R175, R271, R278). -/
def State.restorable (s : State) (v : Saved) (n : Nat) : Bool :=
  let t := s.setCore n ((s.core n).restored v)
  s.covers (s.clock (dieOf n)) v.clock && t.segsReady n (t.savedSegs n v)

/-- The HOST and PEER lines that the new core would read are dropped with it (R254). -/
def State.loadSaved (s : State) (n : Nat) (v : Saved) : State :=
  let s := s.setSched { s.dev.sched with
    saved := s.dev.sched.saved.filter (·.task.uid != v.task.uid), stopped := s.dev.sched.stopped.filter (· != v.task.uid) }
  -- the claim goes with the task (R453)
  let s := match s.findLaunch v.task.launch with
    | some l => s.setLaunch (l.mirrorTo v.task.index (dieOf n))
    | none => s
  let s := (s.setCore n ((s.core n).restored v)).unhold v.task.uid
  ((s.homeJobs v.task.uid n).restoreSegs n v).discardFar n

/-- A field of a payload. -/
def payloadNat (p : List Byte) (o n : Nat) : Nat := leNat ((p.drop o).take n)

/-- The state in a payload: a record, with the handle tags behind the maps (R369); h0 is always tagged. -/
def Core.fromPayload (c : Core) (len : Nat) (p : List Byte) : Core :=
  let c := c.fromRecord (payloadNat p)
  { c with r := { c.r with htag := setBit (BitVec.ofNat 16 (2 * payloadNat p (0x6C000 + len + len / 128) 2)) 0 (c.r.htag.getLsbD 0) } }

/-- A pre-empted task comes back on core n, or its refused image goes to containment. -/
def State.restoreTo (s : State) (v : Saved) (n : Nat) : State :=
  match v.sealed, s.ctxEntry v.task.ctx with
  | some (_, expect), some (_, x) =>
    match x.imageSlot v.task.index with
    | some (_, addr, len) =>
      match s.openImage x v.task addr len expect with
      | .ok p =>
        (((s.readPayload n len p).jobsFrom v.task.uid (payloadNat p)).loadSaved n { v with core := v.core.fromPayload len p }).repFrom n
          (payloadNat p)
      | .error cause =>
        let w : Verdict392 :=
          { die := dieOf n, loc := s.loc n, task := v.task, cause := cause, first := none, tval := 0, zero := [], replay := none }
        match s.findLaunch v.task.launch with
        | some _ => s.containTask n w
        | none => s.killSaved v
    | none => s
  | _, _ =>
    let a := v.core.c.tstate.toNat
    let rd (o k : Nat) : Nat := s.globNat (a + o) k
    if s.recordOk v.task.ctx a then
      (((s.readRecord n a).jobsFrom v.task.uid rd).loadSaved n { v with core := v.core.fromRecord rd }).repFrom n rd
    else
      let s := s.countComplex (dieOf n) v.task.ctx a (2 ^ 21)
      { (s.readFree n s.free).loadSaved n { v with core := v.core.poisoned s.free } with free := s.free + recordWords }

end Sys2Proof.Machine
end

