-- ==== Sys2Proof/Machine/Sched.lean ====
section
/-! DEFINITION. The scheduler (R29, R31, R37, R136, R289, R336, R339, R354): ready tasks in their order, placing them and
whole gangs, displacement, pre-emption, restores, supersteps and the end of a task. -/

namespace Sys2Proof.Machine

open Host (Outcome)

/-! ### Gangs (R31) -/

/-- Cores of the tasks that are pre-empted with core n's. -/
def State.gangCores (s : State) (n : Nat) : List Nat :=
  match (s.core n).task with
  | none => []
  | some t =>
    match s.findLaunch t.launch with
    | none => [n]
    | some l => s.cores.filterMap (fun (m, c) => match c.task with
        | some u => if c.alive && u.launch == t.launch && l.sameGang t.index u.index then some m else none
        | none => none)

/-! ### Which tasks may be chosen (R37, R354) -/

/-- Another core is about to seal into the task's image slot. -/
def State.slotWanted (s : State) (t : Task) : Bool :=
  match s.ctxEntry t.ctx with
  | none => false
  | some (_, x) => s.cores.any (fun (_, c) => (c.preempt || c.mode == .saving) && c.task.any (fun u =>
      u.ctx == t.ctx && u.uid != t.uid && (x.imageSlot u.index).map (·.1) == (x.imageSlot t.index).map (·.1)))

/-- The image slot that a protected task would be sealed into, with its context. -/
def State.slotOf (s : State) (t : Task) : Option (BitVec 16 × Nat) :=
  (s.ctxEntry t.ctx).bind (fun (_, x) => (x.imageSlot t.index).map (fun i => (t.ctx, i.1)))

/-- A gang above the die level waits until every die that may hold a part of it answers the leader, here and in the other packages that
hold a part of it (R336); `i` is one of its indices. -/
def State.gangAnswers (s : State) (l : Launch) (i : Nat) : Bool :=
  match l.gangLevel with
  | some k => decide (k < 3) || ((s.liveDies l).all s.accepts &&
      (if s.leads l then (s.awayPkgs l).all (fun p => !l.away.any (fun e => e.1 == p && l.sameGang i e.2) || l.reports.contains (p, l.groupOf k i))
       else l.answered.contains (l.groupOf k i)))
  | none => true

/-- The answers for an index's gang are spent: it starts, stops or comes back once for them. -/
def Launch.spend (l : Launch) (i : Nat) : Launch :=
  match l.gangLevel with
  | some k => { l with reports := l.reports.filter (·.2 != l.groupOf k i), answered := l.answered.filter (· != l.groupOf k i) }
  | none => l

/-- Members of the gangs of these cores need image slots of their own. -/
def State.apart (s : State) (ns : List Nat) : Bool :=
  (((ns.flatMap s.gangCores).dedup).filterMap (fun m => (s.core m).task.bind s.slotOf)).Nodup

/-- Of these cores, those that may be chosen together, first come first (R354). -/
def State.together (s : State) (ns : List Nat) : List Nat :=
  ns.foldl (fun l n => if s.apart (l ++ [n]) then l ++ [n] else l) []

/-- A gang is chosen whole, so no two of its members need one image slot, and its leader is asked (R31, R336). -/
def State.choosable (s : State) (n : Nat) : Bool :=
  let g := s.gangCores n
  s.apart [n] &&
  (match (s.core n).task.bind (fun t => (s.findLaunch t.launch).map (fun l => (l, t.index))) with
   | some (l, i) => s.gangAnswers l i
   | none => true) &&
  g.all (fun m =>
    let c := s.core m
    (c.mode == .running || c.mode == .saving) && c.task.all (fun t => s.savable t && !s.slotWanted t))

/-- The gangs of these cores are to stop at their next boundary. -/
def State.markPreempt (s : State) (ns : List Nat) : State :=
  let s' := (ns.flatMap s.gangCores).foldl (fun s m =>
    let c := s.core m
    if c.mode = .running then s.setCore m { c with preempt := true } else s) s
  ns.foldl (fun s n =>
    match (s.core n).task.bind (fun t => (s.findLaunch t.launch).map (fun l => (l, t.index))) with
    | some (l, i) => s.setLaunch (l.spend i)
    | none => s) s'

/-- The core is being freed. -/
def State.freeing (s : State) (n : Nat) : Bool := (s.core n).preempt || (s.core n).mode == .saving

/-! ### Ready tasks (R35, R339) -/

/-- A member of an index's gang is on its way off its core. -/
def State.gangLeaves (s : State) (l : Launch) (i : Nat) : Bool :=
  s.cores.any (fun (_, c) => (c.preempt || c.mode == .saving) && c.task.any (fun t => t.launch == l.id && l.sameGang i t.index))

/-- Members of an index's gang that are neither resident nor ended; none while one of them has not been claimed, or is still being saved:
they start and come back all at once (R31). -/
def State.todo (s : State) (l : Launch) (i : Nat) : Option (List Nat) :=
  let savedIdx := (s.dev.sched.saved.filter (fun v => v.task.launch == l.id)).map (·.task.index)
  let all := (savedIdx ++ l.again ++ l.claims.flatMap (·.2)).filter (l.sameGang i)
  let loose (j : Nat) : Bool := l.sameGang i j && !l.isDead j
  if l.gangLevel.isSome ∧
      (l.returned.any loose ∨ l.pending.any (fun e => e.2.any loose) ∨ s.gangLeaves l i ∨
        (List.range (l.nidx - l.next)).any (fun d => loose (l.next + d))) then none
  else some (all.foldl KeySet.add [])

/-- A saved task that yielded still waits behind the tasks that were ready then (R136). -/
def State.behindOthers (s : State) (v : Saved) : Bool :=
  v.behind.any (fun (lid, i) =>
    s.dev.sched.saved.any (fun u => u.task.launch == lid && u.task.index == i && u.task.uid != v.task.uid) ||
    (match s.findLaunch lid with
     | some l => l.again.contains i || l.claims.any (fun e => e.2.contains i)
     | none => false))

/-- Indices that a die may start: restarted ones first, then its claimed ones. -/
def Launch.fresh (l : Launch) (die : Nat) : List Nat := (if l.dies.contains die then l.again else []) ++ l.held die

/-- The waiting tasks of one priority, by launch and index, in the order of R339. -/
def State.waiting (s : State) (die prio : Nat) : List (Nat × Nat) :=
  let sv := (s.dev.sched.stopped.filterMap (fun uid => s.dev.sched.saved.find? (·.task.uid == uid))).filter (fun v => v.task.prio == prio)
  let key (v : Saved) : Nat × Nat := (v.task.launch, v.task.index)
  (sv.filter (fun v => !s.behindOthers v)).map key ++
    (s.dev.sched.launches.filter (fun l => l.prio == prio)).flatMap (fun l => (l.fresh die).map (fun i => (l.id, i))) ++
    (sv.filter s.behindOthers).map key

/-- Wheel positions for `m` tasks more are free, beside the sets in use (R291). -/
def wheelRoom (logn : Nat) : Nat → List (BitVec 14) → Bool
  | 0, _ => true
  | m + 1, used =>
    let gap := 1024 / 2 ^ logn
    match (List.range gap).find? (fun b => (List.range (2 ^ logn)).all (fun j => used.all (fun w => !wheelOwns w (b + j * gap)))) with
    | some b => wheelRoom logn m ((BitVec.ofNat 2 logn ++ 0#2 ++ BitVec.ofNat 10 b) :: used)
    | none => false

/-- Free records of a die's save pool. -/
def State.freeRecords (s : State) (die : Nat) : Nat :=
  let used := s.liveTasks.map (·.1.record)
  (List.range (fld (lookupD 0 s.dev.sched.savepool die) 52 12).toNat).countP (fun k => !used.contains (4096 * die + k))

/-- The die that has claimed an index. -/
def Launch.claimer (l : Launch) (i : Nat) : Option Nat := (l.claims.find? (fun e => e.2.contains i)).map (·.1)

/-- The tasks among `is` that have not started find wheel positions and, on the dies that have claimed them, save records:
else they are not ready (R35, R291, R335). -/
def State.roomFor (s : State) (l : Launch) (is : List Nat) : Bool :=
  let new := is.filter (fun i => !s.dev.sched.saved.any (fun v => v.task.launch == l.id && v.task.index == i))
  wheelRoom l.logn new.length (s.liveTasks.map (·.2.c.wheel)) &&
    l.dies.all (fun d => decide (new.countP (fun i => l.claimer i == some d) ≤ s.freeRecords d))

/-- Candidates of a die in order: a launch, a priority, and the indices that are placed together. -/
def State.candidates (s : State) (die : Nat) : List (Launch × List Nat) :=
  ([3, 2, 1, 0] : List Nat).flatMap (fun p => ((s.waiting die p).filterMap (fun (lid, i) =>
    match s.findLaunch lid with
    | some l =>
      if s.ctxActive l.ctx && s.gangAnswers l i then
        ((s.todo l i).filter (fun is => s.roomFor l is)).map (fun is => (l, is))
      else none
    | none => none)).dedup)

/-! ### Placing (R29, R336, R461) -/

/-- An index that a die has claimed and not started starts there (R336). -/
def Launch.onClaimer (l : Launch) (i n : Nat) : Bool := (l.claimer i).all (· == dieOf n)

/-- Each index takes the lowest core in the list that its groups' units allow; a group whose unit is not fixed takes a
unit with room for all of its indices that are still to be placed. -/
def Launch.plan (cores : List Nat) : List Nat → Launch → List (Nat × Nat) → Option (List (Nat × Nat))
  | [], _, acc => some acc
  | i :: rest, l, acc =>
    let left := cores.filter (fun n => !acc.any (·.2 == n))
    let room (n : Nat) : Bool := ([1, 2] : List Nat).all (fun k =>
      (l.level k).isNone || (l.groupSt k (l.groupOf k i)).unit.isSome ||
        decide ((i :: rest).countP (fun j => l.groupOf k j == l.groupOf k i) ≤ left.countP (fun m => unitOf k m == unitOf k n)))
    match left.find? (fun n => l.inUnits i n && l.onClaimer i n && room n) with
    | some n => Launch.plan cores rest (l.fixUnits i n) (acc ++ [(i, n)])
    | none => none

/-- Cores among which candidates are placed: every one whose die's complex schedules. Where the groups and the claim of an
index bind it to a unit, `Launch.plan` keeps it there. -/
def State.scope (s : State) : List Nat := (List.range 768).filter (fun n => s.accepts (dieOf n))

/-- Start or restore one index. -/
def State.begin (s : State) (lid i n : Nat) : State :=
  match s.findLaunch lid with
  | none => s
  | some l =>
    match s.dev.sched.saved.find? (fun v => v.task.launch == lid && v.task.index == i) with
    | some v => s.restoreTo v n
    | none => if l.isDead i then s else s.startTask l i n

/-- The members here of a gang over several packages stop with those that another package pre-empts (R31, R336). -/
def State.preemptIn (s : State) (pkg : Nat) (m : LinkIn) : State :=
  match m with
  | .preempts lid i =>
    match s.farLaunch lid with
    | some l =>
      if (s.awayPkgs l).contains pkg && l.gangLevel == some 4 then
        s.markPreempt ((s.cores.filterMap (fun (n, c) =>
          if c.alive && c.task.any (fun t => t.launch == l.id && l.sameGang i t.index) then some n else none)).take 1)
      else s
    | none => s
  | _ => s

/-- Carry a plan out whole, or not at all where a task finds no wheel positions, no save record, or not yet its segments. A core that it
takes has ended its die's span without one (R336). -/
def State.carryOut (s : State) (lid : Nat) (pl : List (Nat × Nat)) : Option State :=
  let s := s.noteFree
  let back (i : Nat) : Option Saved := s.dev.sched.saved.find? (fun v => v.task.launch == lid && v.task.index == i)
  let s' := pl.foldl (fun s (i, n) => s.begin lid i n) s
  if pl.all (fun (i, n) =>
      match back i with
      | some v => s.restorable v n
      | none => (s'.core n).task.isSome || (s'.findLaunch lid).all (·.isDead i)) then
    match s'.findLaunch lid, pl with
    | some l, (i, _) :: _ => if l.gangLevel.any (fun k => decide (3 ≤ k)) then some (s'.setLaunch (l.spend i)) else some s'
    | _, _ => some s'
  else none

/-! ### Displacement (R339) -/

/-- The core would take a task of the context once it is free. -/
def State.coreAllowed (s : State) (ctx : BitVec 16) (n : Nat) : Bool :=
  let c := s.core n
  !c.testReq && !c.held && s.inService n && s.placeable ctx n && decide (lookupD .rehash s.dev.boot (dieOf n) = .ready)

/-- Lowest priority first, then the most recent first issue. -/
def victimBefore (a b : Task) : Bool := decide (a.prio < b.prio) || (a.prio == b.prio && decide (b.started ≤ a.started))

/-- The cores whose tasks a candidate may displace, in order. -/
def State.victims (s : State) (l : Launch) (is : List Nat) (cores : List Nat) : List Nat :=
  let ok := cores.filterMap (fun n =>
    let c := s.core n
    match c.task with
    | some t =>
      if c.alive && c.mode == .running && !c.preempt && decide (t.prio < l.prio) && s.coreAllowed l.ctx n &&
          is.any (fun i => l.inUnits i n && l.onClaimer i n) && s.choosable n then some (n, t) else none
    | none => none)
  (ok.mergeSort (fun a b => victimBefore a.2 b.2)).map (·.1)

/-- The shortest run of victims with which the candidate can be placed: those that its plan uses. One that needs the image slot of
another is not chosen beside it (R354). -/
def State.displaced (s : State) (l : Launch) (is base : List Nat) : List Nat → List Nat → Option (List Nat)
  | _, [] => none
  | taken, v :: rest =>
    if !s.apart (taken ++ [v]) then s.displaced l is base taken rest
    else
      let taken := taken ++ [v]
      match Launch.plan ((base ++ taken).mergeSort (· ≤ ·)) is l [] with
      | some pl => some (taken.filter (fun n => pl.any (·.2 == n)))
      | none => s.displaced l is base taken rest

/-- The first candidate that can be placed is; one that waits for cores being freed keeps them; one that displaces does
so. `used` are the cores kept for earlier candidates. -/
def State.serve (s : State) : List (Launch × List Nat) → List Nat → State
  | [], _ => s
  | (l, is) :: rest, used =>
    let cores := s.scope.filter (fun n => !used.contains n)
    let free := cores.filter (s.coreFree l.ctx)
    match (Launch.plan free is l []).bind (s.carryOut l.id) with
    | some s' => s'
    | none =>
      let virt := cores.filter (fun n => s.coreFree l.ctx n || (s.freeing n && s.coreAllowed l.ctx n))
      match Launch.plan virt is l [] with
      | some pl => State.serve s rest (used ++ pl.map (·.2))
      | none =>
        match s.displaced l is virt [] (s.victims l is cores) with
        | some vs => s.markPreempt vs
        | none => State.serve s rest used

/-- R339: the scheduler starts or restores a ready task, or sets a displacement going. -/
def execScheduleReadyTask (die : Nat) (s : State) : Outcome State Fault Refusal :=
  if s.accepts die then .next (s.serve (s.candidates die) []) else .next s

/-- R31, R336: every task of a gang is started at once, on every die that holds a part of it. -/
def execGangStart (pid level group : Nat) (s : State) : Outcome State Fault Refusal :=
  match s.launchOf pid with
  | none => .next s
  | some l =>
    let first := group * (l.size level).getD 1
    if l.gangLevel ≠ some level ∨ !s.ctxActive l.ctx ∨ !(s.liveDies l).all s.accepts ∨ !s.gangAnswers l first then .next s
    else
      match s.todo l first with
      | none => .next s
      | some is =>
        let free := s.scope.filter (s.coreFree l.ctx)
        match (Launch.plan free is l []).bind (s.carryOut l.id) with
        | some s' => if is.isEmpty then .next s else .next s'
        | none => .next s

/-- R59, R355: a pre-empted task comes back on a core, with its gang. -/
def execTaskRestore (uid n : Nat) (s : State) : Outcome State Fault Refusal :=
  match s.dev.sched.saved.find? (·.task.uid == uid) with
  | none => .next s
  | some v =>
    match s.findLaunch v.task.launch with
    | none => .next s
    | some l =>
      if !s.ctxActive l.ctx ∨ !s.accepts (dieOf n) ∨ !s.gangAnswers l v.task.index then .next s
      else
        match s.todo l v.task.index with
        | none => .next s
        | some is =>
          let free := if is.length ≤ 1 then [n].filter (s.coreFree l.ctx) else s.scope.filter (s.coreFree l.ctx)
          match Launch.plan free is l [] with
          | some pl => if pl.contains (v.task.index, n) then .next ((s.carryOut l.id pl).getD s) else .next s
          | none => .next s

/-! ### Pre-emption and YIELD (R37, R59, R136, R390) -/

/-- A waiting task of core n's priority may run on core n. -/
def State.yieldsTo (s : State) (n : Nat) (t : Task) : List (Nat × Nat) :=
  ((s.waiting (dieOf n) t.prio)).filter (fun (lid, i) =>
    match s.findLaunch lid with
    | none => false
    | some l =>
      s.ctxActive l.ctx && s.coreAllowed l.ctx n && !(lid == t.launch && l.sameGang t.index i) &&
      (match s.todo l i with
       | none => false
       | some is =>
         let free := if is.length ≤ 1 then [n] else n :: s.scope.filter (s.coreFree l.ctx)
         s.roomFor l is && s.gangAnswers l i && (Launch.plan free is l []).any (fun pl => pl.any (·.2 == n))))

/-- The tasks that are ready at a task's priority level, its own gang apart, whichever core they may run on (R35, R136). -/
def State.readyAt (s : State) (t : Task) : List (Nat × Nat) :=
  (((List.range 8).flatMap (fun d => s.waiting d t.prio)).dedup).filter (fun (lid, i) =>
    match s.findLaunch lid with
    | none => false
    | some l =>
      s.ctxActive l.ctx && !(lid == t.launch && l.sameGang t.index i) && s.gangAnswers l i && ((s.todo l i).any (s.roomFor l)))

/-- YIELD finds a ready task of its priority and may be saved (R136, R354); while the pair of its die replays, nothing is (R450). -/
def State.yieldNow (s : State) (n : Nat) : Bool :=
  match (s.core n).task with
  | some t => !s.replays (dieOf n) && s.choosable n && (s.yieldsTo n t) != []
  | none => false

/-- The oldest deferred trap of a kind, and the others. -/
def takeFirst (p : Trap → Bool) (l : List Trap) : Option (Trap × List Trap) :=
  (l.find? p).map (fun t => (t, l.eraseP p))

/-- A contained cause, which does not wait for a boundary without a bank. -/
def Trap.contained (t : Trap) : Bool := causeClass t.cause != .t

/-- The core stands at a bundle boundary of its code: no entry, return or barrier answer is awaited. A task that waits at
SSTEP stands at one (R59, R289). -/
def Core.atBoundary (c : Core) : Bool :=
  c.mode == .running && c.delay == 0 && c.m.bar.isEmpty && c.tretDrain.isNone && c.entering.isNone

/-- The oldest deferred trap that may be taken: under a bank, or away from a boundary, only a contained one. A datapath failure that
meets a save stays pending with the saved state (R446). -/
def Core.nextDeferred (c : Core) : Option (Trap × Core) :=
  (takeFirst (fun t => (t.contained && !(t.cause == 0xA5 && c.mode == .saving)) || (c.atBoundary && c.bank.isNone)) c.deferred).map (fun (t, rest) => (t, { c with deferred := rest }))

/-- The trap that is taken where the core stands (R385): the completion trap of the bundle that has ended, then deferred
traps, oldest first. -/
def Core.nextTrap (c : Core) : Option (Trap × Core) :=
  match c.comp with
  | some t => if c.atBoundary ∧ c.t.issue = 0 then some (t, { c with comp := none }) else c.nextDeferred
  | none => c.nextDeferred

/-- A pre-emption may take this boundary: the task issues, no trap is due, no entry, return or answer is awaited. -/
def Core.preemptible (c : Core) : Bool :=
  c.alive && c.nextTrap.isNone && c.atBoundary

/-- Issue stops where pre-emption or YIELD asks for it; a YIELD without a ready task has no effect. -/
def State.takePreempt (s : State) (n : Nat) : State :=
  let c := s.core n
  if c.yielding ∧ !c.preempt then
    if s.yieldNow n then ((s.markPreempt [n]).stopForSave n)
    else s.setCore n { c with yielding := false }
  else (s.setCore n { c with yielding := false }).stopForSave n

/-- A boundary of core n serves a request to stop: a pre-emption waits for the end of a replay (R450), a YIELD without a ready task for
nothing. -/
def State.stopsHere (s : State) (n : Nat) : Bool :=
  let c := s.core n
  ((c.preempt && !s.replays (dieOf n)) || (c.yielding && !c.preempt)) && c.preemptible

/-- R59, R390: pre-emption at a bundle boundary. -/
def execPreempt (n : Nat) (s : State) : Outcome State Fault Refusal :=
  if s.stopsHere n then .next (s.takePreempt n) else .next s

/-- Cores that a gang leaves stay shut while a member is on its way (R31). -/
def State.gate (s : State) (n : Nat) (t : Task) : State :=
  let busy (g : Nat × Nat) : Bool :=
    s.cores.any (fun (_, c) => c.task.any (·.launch == g.2) && (c.preempt || c.mode == .saving))
  let new := if (s.findLaunch t.launch).any (·.gangLevel.isSome) then [(n, t.launch)] else []
  s.setSched { s.dev.sched with gated := (s.dev.sched.gated ++ new).filter busy }

/-- R59, R352: the drain is over; the task's state is saved and its core is free. -/
def execSaveComplete (n : Nat) (s : State) : Outcome State Fault Refusal :=
  if !s.saveReady n then .next s
  else
    match (s.core n).task with
    | none => .next s
    | some t =>
      let behind := if (s.core n).yielding then s.readyAt t else []
      .next ((s.saveCore n behind).gate n t)

/-! ### Supersteps (R135, R277, R289) -/

/-- A participant waits, with nothing outstanding. -/
def Core.atBarrier (c : Core) : Bool :=
  c.sstep && c.c.st == 0 && c.c.cp == 0 && c.m.accs.isEmpty && c.landings.all (·.arrived)

/-- The live tasks of a launch, with the die of each. -/
def State.participants (s : State) (lid : Nat) : List (Nat × Core) :=
  s.cores.filterMap (fun (n, c) => if c.alive && c.task.any (·.launch == lid) then some (dieOf n, c) else none) ++
    (s.dev.sched.saved.filter (fun v => v.task.launch == lid)).map (fun v => (dieOf v.home, v.core))

/-- The lowest superstep of the participants of this package: one that has not started is at 0. -/
def State.superstepOf (s : State) (l : Launch) : Option Nat :=
  if !l.again.isEmpty || !l.returned.isEmpty || l.claims.any (fun e => !e.2.isEmpty) || l.pending.any (fun e => !e.2.isEmpty) ||
      (s.leads l && l.next != l.nidx) then none
  else ((s.participants l.id).map (·.2.superstep)).min?

/-- Barrier k may release: every participant has executed its k-th SSTEP, in every package, those that stand at it have
nothing outstanding, and everything that any die has made known has reached their dies (R277, R289). Arrivals of another
package are denied while this one has no id (R377). -/
def State.superstepReady (s : State) (l : Launch) (k : Nat) : Bool :=
  (s.participants l.id).all (fun p => p.2.superstep != k || !p.2.sstep || (p.2.atBarrier &&
    (List.range 8).all (fun d => s.dev.lost.contains d || s.covers (s.clock p.1) (s.clock d)))) &&
    (s.awayPkgs l).all (fun p => s.dev.link.fabValid && decide (k ≤ lookupD 0 l.awaySteps p))

/-- A participant is released from barrier k. -/
def Core.passStep (c : Core) (k : Nat) : Core := if c.superstep = k then { c with sstep := false } else c

/-- R289: the barrier of a launch releases those that stand at it; they acquire at domain scope. -/
def execSuperstepRelease (lid : Nat) (s : State) : Outcome State Fault Refusal :=
  match s.findLaunch lid with
  | none => .next s
  | some l =>
    match s.superstepOf l with
    | none => .next s
    | some k =>
      if !s.superstepReady l k then .next s
      else
        let on := s.cores.filterMap (fun (n, c) =>
          if c.alive && c.sstep && c.superstep == k && c.task.any (·.launch == lid) then some n else none)
        let s := on.foldl (fun s n => (s.setCore n ((s.core n).passStep k)).discardFar n) s
        -- a participant that is saved comes back behind the cut (R277)
        let cut := (s.participants lid).foldl (fun c p => Clock.join c (s.clock p.1)) Clock.zero
        .next (s.setSched { s.dev.sched with saved := s.dev.sched.saved.map (fun v =>
          if v.task.launch = lid then { v with core := v.core.passStep k, clock := Clock.join v.clock cut } else v) })

/-! ### The end of a task (R137, R292, R337, R393) -/

/-- A halting task has drained, its bank too; a killed one has no store on its way. -/
def Core.ended (c : Core) : Bool :=
  match c.mode with
  | .halting =>
    c.bank.isNone && c.t.landing.isEmpty && c.t.pend.isEmpty && c.t.eng.isEmpty && c.t.fills.isEmpty &&
      c.c.st == 0 && c.c.cp == 0 && c.c.tl == 0 && c.c.wl == 0
  | .dying => c.m.accs.isEmpty
  | _ => false

/-- The task ends: a release at package scope, and its core is free. -/
def State.endTask (s : State) (n : Nat) : State :=
  let c := s.core n
  match c.task with
  | none => s
  | some t =>
    let s := s.setMs { s.dev.ms with taskClock := Clock.join s.dev.ms.taskClock (s.clock (dieOf n)) }
    if c.mode = .dying then (s.setCore n c.freed).killEnd (dieOf n) t else (s.setCore n c.freed).endOf t

/-- The launch to whose buddies the end of core n's task is still to be mirrored (R453). -/
def State.unmirrored (s : State) (n : Nat) : Option (Launch × Nat) :=
  match (s.core n).task with
  | some t =>
    if (s.core n).mode = .halting then
      ((s.findLaunch t.launch).filter (fun l => s.hasBuddy l && !l.ending.contains t.index)).map (·, t.index)
    else none
  | none => none

/-- R137, R453: the mirror of the end goes to the buddy; once it is acknowledged the end counts. -/
def execTaskEnd (n : Nat) (s : State) : Outcome State Fault Refusal :=
  if !(s.core n).ended then .next s
  else
    match s.unmirrored n with
    | some (l, i) => .next (s.setLaunch { l with ending := l.ending ++ [i] })
    | none => .next (s.endTask n)

end Sys2Proof.Machine
end

