-- ==== Sys2Proof/Machine/Check.lean ====
section
/-! DEFINITION. Datapath checks, fencing, self-test, the command-processor pair, and the loss of a die or a package
(R332, R445 to R454). -/

namespace Sys2Proof.Machine

open Host (Outcome)

/-! ### Datapath checks (R445 to R447) -/

/-- One second of the wheel's reference (R290). -/
def oneSecond : Nat := 1500000000

/-- A result of slot `sl` is written at this boundary (R141, R199): only then is a failure in it known (R446). A banked engine
operation has none until TRET. -/
def Core.writesNow (c : Core) (sl : Slot) : Bool :=
  !c.frozen && ((sl == .m && c.t.eng.any EngOp.portDue) || (sl != .s && sl != .b && c.pendDue.any (·.slot == sl)))

/-- R445, R446: a residue or parity check has failed in the result that an operation of core n's task writes at this boundary. A second
one within a second calls for the core's fence (R447). -/
def execDatapathCheckFail (n : Nat) (sl : Slot) (synd : DWord) (s : State) : Outcome State Fault Refusal :=
  let c := s.core n
  if 768 ≤ n ∨ c.alive = false ∨ c.writesNow sl = false then .next s
  else
    let c' := { c.defer (deferred 0xA5 (sl.code.setWidth 64) sl) with last5 := some s.wheel }
    let s := s.setCore n c'
    let local' := n % 96
    let s := s.mcRecord (dieOf n) (30 + local' / 48)
      { mcContained 0xA5 (local' % 48) (s.loc n) 0 0 (some (s.miscOf n)) with synd := some synd }
    match c.last5 with
    | some w =>
      if s.wheel < w + oneSecond then .next (s.setMc { s.dev.mc with fences := s.dev.mc.fences ++ [n] }) else .next s
    | none => .next s

/-! ### Fencing (R40, R448) -/

/-- The core is out of service; its task takes 0xE5. -/
def State.fenceCore (s : State) (n : Nat) : State :=
  let c := s.core n
  let s := s.setMc { s.dev.mc with fences := s.dev.mc.fences.filter (· != n) }
  let c := { c with out := true }
  s.setCore n (if c.alive then c.defer (deferred 0xE5 ((s.loc n).setWidth 64) .b) else c)

/-- R448: a fence that a check, a threshold or system software has called for. -/
def execCoreFence (n : Nat) (s : State) : Outcome State Fault Refusal :=
  if s.dev.mc.fences.contains n && decide (n < 768) then .next (s.fenceCore n) else .next s

/-- R448: a written OUT bit returns the core to service. -/
def execCoreReturnToService (n : Nat) (s : State) : Outcome State Fault Refusal :=
  if (s.core n).out then .next (s.setCore n { s.core n with out := false }) else .next s

/-! ### Self-test (R332, R449) -/

/-- The cores that a packet names and that may be tested: OWNER 0 or the queue's context. -/
def State.testCores (s : State) (p : Packet) : List Nat :=
  let mask := pktNat p.body 16 12
  ((List.range 96).filter (fun k => bit (BitVec.ofNat 96 mask) k)).map (· + 96 * p.die) |>.filter (fun n =>
    let o := s.owner (ownerCore n)
    o.owner == 0 || o.owner == p.ctx)

/-- Named cores whose task the packet may displace now (R37, R354). -/
def State.testVictims (s : State) (p : Packet) : List Nat :=
  s.together (p.cores.filter (fun n =>
    let c := s.core n
    c.alive && c.mode == .running && !c.preempt && c.task.all (fun t => decide (t.prio < p.prio)) && s.choosable n))

/-- R332: the named cores leave scheduling; tasks of lower priority are pre-empted, others run to their end. -/
def execSelftest (pid : Nat) (s : State) : Outcome State Fault Refusal :=
  match (s.findPacket pid).filter (fun p => p.type == tSelftest && p.outcome.isNone) with
  | none => .next s
  | some p =>
    let s :=
      if p.acted then s
      else
        let cs := s.testCores p
        let s := s.setPacket { p with acted := true, cores := cs }
        let s := cs.foldl (fun s n => s.setCore n { s.core n with testReq := true }) s
        if cs.isEmpty then s.packetOutcome pid 0 else s
    match s.findPacket pid with
    | some p => if s.accepts p.die then .next (s.markPreempt (s.testVictims p)) else .next s
    | none => .next s

/-- A core that has left scheduling and is under test. -/
def Core.underTest (c : Core) : Bool := c.testReq && c.task.isNone && c.mode == .idle

/-- R449: the test of a core ends. A passing core has every array zero; a failing one is fenced and recorded. -/
def execSelftestComplete (n : Nat) (fail : BitVec 9) (s : State) : Outcome State Fault Refusal :=
  let c := s.core n
  if 768 ≤ n ∨ c.underTest = false then .next s
  else
    match s.dev.sched.packets.find? (fun p => p.type == tSelftest && p.cores.contains n) with
    | none => .next (s.setCore n { c with testReq := false })
    | some p =>
      let rest := p.cores.filter (· != n)
      let s := s.setPacket { p with cores := rest }
      let more := s.dev.sched.packets.any (fun q => q.cores.contains n)
      let s := if rest.isEmpty then s.packetOutcome p.id 0 else s
      let s := (s.clearStorage n).scrub .imem n 0 (2 ^ 18)
      let s := s.setCore n { Core.idle with
        out := c.out || fail != 0, testReq := more, last5 := c.last5, m := { MemSide.empty with sample := c.m.sample } }
      if fail = 0 then .next s
      else .next (s.mcRecord (dieOf n) (clusterOf n % 12)
        { mcContained 0xE5 (n % 8) (s.loc n) 0 0 none with synd := some (fail.setWidth 64) })

/-! ### The command-processor pair (R450) -/

/-- R450: the halves differ; they replay, or a second mismatch within a second is fatal. -/
def execLockstepMismatch (die : Nat) (pcs : DWord) (s : State) : Outcome State Fault Refusal :=
  if 8 ≤ die ∨ s.dev.lost.contains die then .next s
  else
    let again := s.dev.mc.mismatch.any (fun e => e.1 == die && decide (s.wheel < e.2 + oneSecond))
    if again then
      .next (s.mcRecord die 28 { mcContained 0xE7 0 0 0 0 none with sev := 3, synd := some pcs })
    else .next (s.setMc { s.dev.mc with
      replaying := insertAt s.dev.mc.replaying die pcs, mismatch := insertAt s.dev.mc.mismatch die s.wheel })

/-- R450: the replay has succeeded. -/
def execLockstepReplayComplete (die : Nat) (s : State) : Outcome State Fault Refusal :=
  match s.dev.mc.replaying.find? (fun e => e.1 == die) with
  | none => .next s
  | some (_, pcs) =>
    let s := s.setMc { s.dev.mc with replaying := s.dev.mc.replaying.filter (fun e => e.1 != die) }
    .next (s.mcRecord die 28 { mcCorrected 0 0 0 0 with cause := 0xE7, synd := some pcs })

/-! ### Losing a die (R451, R453, R454) -/

/-- Each live neighbour records the loss in its UCIe bank. -/
def State.recordLoss (s : State) (die : Nat) : State :=
  (neighbours die).foldl (fun s (d, m) =>
    if s.dev.lost.contains d then s else s.mcRecord d (24 + m / 2) (mcContained 0xE6 (m % 2) 0 0 0 none)) s

/-- A live die that has lost every UCIe link records a fatal error, and is lost for it (R441). -/
def State.cutOff (s : State) : State :=
  ((List.range 8).filter (fun d => !s.dev.lost.contains d && (neighbours d).all (fun e => s.dev.lost.contains e.1))).foldl
    (fun s d => s.mcRecord d 24 { mcContained 0xE6 0 0 0 0 none with sev := 3 }) s

/-- The die that acts for a lost one. -/
def State.actingDie (s : State) : Nat := ((List.range 8).find? (fun d => !s.dev.lost.contains d)).getD 0

/-- What a task lost with 0xE6 gives containment, on the core where it last ran (R396). -/
def State.lossOf (s : State) (die n : Nat) (t : Task) : Verdict392 :=
  { die := s.actingDie, loc := s.loc n, task := t, cause := 0xE6, first := none, tval := BitVec.ofNat 64 die, zero := [], replay := none }

/-- Tasks on the lost die, and pre-empted ones whose record stands there (log 34) or whose groups it held, fault with 0xE6; what is left of its
cores goes. -/
def State.loseTasks (s : State) (die : Nat) : State :=
  let ns := s.cores.filterMap (fun (n, c) => if dieOf n = die ∧ c.alive then some n else none)
  let s := ns.foldl (fun s n =>
    match (s.core n).task with
    | some t => if (s.core n).alive then s.containTask n (s.lossOf die n t) else s
    | none => s) s
  let vs := s.dev.sched.saved.filter (fun v => (v.task.record / 4096 == die && v.sealed.isNone) ||
    (s.findLaunch v.task.launch).any (fun l => s.stranded l v.task.index))
  let s := vs.foldl (fun s v =>
    if s.dev.sched.saved.any (·.task.uid == v.task.uid) then s.containTask v.home (s.lossOf die v.home v.task) else s) s
  -- a killed task whose stores were on their way has ended with them
  let s := s.cores.foldl (fun s (n, c) =>
    match c.task with
    | some t => if dieOf n = die ∧ c.mode = .dying then s.killEnd die t else s
    | none => s) s
  { s with cores := s.cores.map (fun (n, c) => if dieOf n = die then (n, { Core.idle with out := c.out }) else (n, c)) }

/-- Messages to and from the lost die go: a write to it is dropped and raises 0xE6, a job's ends the job, an atomic is
refused when it is looked at again. -/
def State.loseMessages (s : State) (die : Nat) : State :=
  let dead (m : Msg) : Bool := m.src == die || m.dst == die
  let s := (s.dev.ms.msgs.filter (fun m => m.dst == die)).foldl (fun s m =>
    match m.body with
    | .write c (some a) _ _ _ _ _ _ =>
      match (s.core c).findAcc a with
      | some acc => s.setCore c ((s.core c).defer (deferred 0xE6 (BitVec.ofNat 64 die) acc.slot))
      | none => s
    | .write _ none (some j) _ _ _ _ _ => s.jobBad j 0xE6 1
    | .reduce j _ _ _ _ _ => s.jobBad j 0xE6 1
    | .signal j _ _ _ _ => s.jobBad j 0xE6 0
    | .atomic c a _ =>
      match (s.core c).findAcc a with
      | some acc => s.setCore c ((s.core c).setAcc { acc with performed := false })
      | none => s
    | _ => s) s
  s.setMs { s.dev.ms with
    msgs := s.dev.ms.msgs.filter (fun m => !dead m), lines := s.dev.ms.lines.filter (fun e => decide (e.1 / 12 ≠ die)) }

/-- An index that has not started, as containment and its log name it (R396, log 64). -/
def Launch.unborn (l : Launch) (i : Nat) : Task :=
  { uid := 0, launch := l.id, index := i, ctx := l.ctx, prio := l.prio, lid := l.lid, started := 0, record := 0 }

/-- An index goes back to the leader: to this package's list, or to another package, which grants it anew (R336, R454). -/
def State.giveBack (s : State) (l : Launch) (is : List Nat) : Launch :=
  if s.leads l then { l with returned := is.foldl KeySet.add l.returned }
  else { l with granted := l.granted - is.length, backed := is.foldl KeySet.add l.backed }

/-- A lost index may run again: a surviving core of this package may hold it, or another package may, to whose units its groups are not
bound yet (R451, R461). -/
def State.reissuable (s : State) (l : Launch) (i : Nat) : Bool :=
  s.canRestart l 0xE6 [i] 0 i ||
    (!(s.awayPkgs l).isEmpty && !s.stranded l i &&
      ([1, 2, 3] : List Nat).all (fun k => (l.level k).isNone || (l.groupSt k (l.groupOf k i)).unit.all (fun u => k == 3 && u != 0)))

/-- Groups that a lost unit held are killed with their indices that have not started, and so are all where no participating die is left
(R451): nothing can run them. -/
def State.killStranded (s : State) (lid : Nat) : State :=
  match s.findLaunch lid with
  | none => s
  | some l =>
    let gone := l.groups.filter (fun g => (l.level g.level).isSome && g.unit.any (s.unitLost g.level))
    let l := gone.foldl (fun l g => if l.dead.contains (g.level, g.group) then l else
      { l.dropGroup g.level g.group with dead := l.dead ++ [(g.level, g.group)] }) l
    let none' := (s.liveDies l).isEmpty && (s.awayPkgs l).isEmpty
    s.setLaunch (if none' then { l with next := l.nidx, returned := [], again := [], claims := [], pending := [] } else l)

/-- Step 3 of R454 for one index: under retry it is returned and counts a try where a core may still run it, else it counts as ended. One that is to be started again
already, or that lives on another die, is not lost; of one whose end was not yet acknowledged nothing is left to count. -/
def State.loseIndex (s : State) (lid die i : Nat) : State :=
  match s.findLaunch lid with
  | none => s
  | some l =>
    let l := { l with live := l.live - l.unacked.count i, unacked := l.unacked.filter (· != i) }
    let x := l.groupSt 0 i
    let v := s.lossOf die (96 * die) (l.unborn i)
    if l.again.contains i ∨ (s.liveIndices l).contains i then s.setLaunch (l.unmirror i)
    else if l.policy 0 = 1 ∧ x.tries < 3 ∧ s.reissuable l i then
      (s.setLaunch (s.giveBack ((l.setGroup { x with tries := x.tries + 1 }).unmirror i) [i])).logDecision v 0 1 (x.tries + 1)
    else (s.setLaunch (l.unmirror i)).logDecision v 0 2 x.tries

/-- Steps 1, 2 and 4 of R454: after the leader, the new one takes the counter of its buddy's mirror; claims that did not count
are the leader's again; the lost die's buddy reports the claimed indices whose end it holds no mirror of. -/
def State.loseClaims (s : State) (die : Nat) (l : Launch) : State :=
  let led := s.leads l && l.dies.all (fun d => decide (die ≤ d) || s.dev.lost.contains d)
  let open' := (l.pending.filter (fun e => led || e.1 == die)).flatMap (·.2)
  let next := if led then l.mirrorNext else l.next
  let gone := lookupD [] l.mirrors die
  let s := s.setLaunch (s.giveBack { l with
    next := next, pending := if led then [] else l.pending.filter (·.1 != die)
    claims := insertAt l.claims die [], blocked := l.blocked.filter (·.1 != die) } (open'.filter (fun i => decide (i < next))))
  (gone.foldl (fun s i => s.loseIndex l.id die i) s).killStranded l.id

/-- Barrier objects homed on the die release their waiters invalidated; its queues, packets other than launches, and jobs
are gone, and the slots of blocks that it was building are free again (R308). -/
def State.loseUnits (s : State) (die : Nat) : State :=
  let gone (p : Packet) : Bool := p.die == die && p.type != tLaunch
  let goes (j : Job) : Bool := j.die == die && !s.dev.sched.saved.any (fun v => j.owner == .task v.task.uid)
  let s := s.setSched { s.dev.sched with
    slots := s.dev.sched.slots.filter (fun k => dieOfQueue k.q != die)
    remap := s.dev.sched.remap.filter (fun k => dieOfQueue k.q != die)
    packets := s.dev.sched.packets.filter (fun p => !gone p) }
  let s := s.dev.sched.launches.foldl (fun s l => s.loseClaims die l) s
  let s := s.returnBuilds goes
  { s with dev := { s.dev with
    bars := s.dev.bars.map (fun (k, o) => if k / 2 ^ 16 % 8 = die then (k, { o with act := false }) else (k, o))
    barMsgs := s.dev.barMsgs.filter (fun m => barDie m.addr != die || barPkg m.addr != s.pkgId.toNat)
    jobs := s.dev.jobs.filter (fun j => !goes j) } }

/-- The ports to a lost peer, or on a lost die, are down (R378, R452). -/
def State.dropPorts (s : State) (p : Nat → Port → Bool) : State :=
  { s with dev := { s.dev with link := { s.dev.link with ports := s.dev.link.ports.map (fun e =>
    if p e.1 e.2 then (e.1, { e.2 with trained := false, keyed := false, comp := false }) else e) } } }

/-- R451: a die is lost, by its own fatal error or because its neighbours find every link to it down. -/
def execDieLost (die : Nat) (s : State) : Outcome State Fault Refusal :=
  if 8 ≤ die ∨ s.dev.lost.contains die then .next s
  else
    let s := s.recordLoss die
    let s := s.setMc { s.dev.mc with
      losses := s.dev.mc.losses.filter (· != die), replaying := s.dev.mc.replaying.filter (fun e => e.1 != die) }
    let s := { s with dev := { s.dev with lost := KeySet.add s.dev.lost die } }
    .next ((((s.loseTasks die).loseMessages die).loseUnits die).dropPorts (fun k _ => k / 2 == die)).cutOff

/-- A task that a lost package had started or was to start counts as faulted with 0xE6: containment acts here on the groups that it
shares with this package's tasks, and where the leader is here it may start again here (R392, R452). -/
def State.loseAway (s : State) (lid i : Nat) : State :=
  match s.findLaunch lid with
  | none => s
  | some l =>
    let was := s.liveIndices l ++ (if s.leads l then [i] else [])
    State.containFrom (96 * s.actingDie) (s.lossOf s.actingDie (96 * s.actingDie) (l.unborn i)) l was (l.levelsFrom 0) s

/-- The indices that a lost package has claimed count as lost with 0xE6; a grant to it that did not count is the leader's again, and a new
leader here lists what had gone back to the lost one (R454). A group that was placed there and of which no task has issued is placed
anew (R461). -/
def State.losePackage (s : State) (pkg : Nat) (l : Launch) : State :=
  let open' := (l.pending.filter (·.1 == 8 + pkg)).flatMap (·.2)
  let lost := l.away.filter (·.1 == pkg)
  let l' : Launch := { l with
    away := l.away.filter (·.1 != pkg), pending := l.pending.filter (·.1 != 8 + pkg), reports := l.reports.filter (·.1 != pkg)
    groups := l.groups.map (fun g =>
      if g.level = 3 ∧ g.unit = some (1 + pkg) ∧ !l.awayIssued.contains g.group then { g with unit := none } else g) }
  let l' := if s.leads l then { l' with returned := l'.backed.foldl KeySet.add l'.returned, backed := [] } else l'
  let s := s.setLaunch (s.giveBack l' open')
  (lost.foldl (fun s e => s.loseAway l.id e.2) s).killStranded l.id

/-- R452: a package of the domain is lost: its ports are down, PEER accesses to it raise 0x29, and its tasks of launches
that span it fault with 0xE6. -/
def execPackageLost (pkg : Nat) (s : State) : Outcome State Fault Refusal :=
  let s := { s with dev := { s.dev with link := { s.dev.link with lostPkgs := KeySet.add s.dev.link.lostPkgs pkg } } }
  let s := s.dropPorts (fun _ k => k.peer.toNat == pkg)
  .next (s.dev.sched.launches.foldl (fun s l => s.losePackage pkg l) s)

end Sys2Proof.Machine
end

