-- ==== Sys2Proof/Machine/Control.lean ====
section
/-! DEFINITION. The B slot (R118 to R138, R460): transfers, hardware loops, waiting, format, literals, and the ends of a
task's issue. A transfer is noted in the issue context and takes effect for the next bundle. -/

namespace Sys2Proof.Machine

open Host (Outcome)

/-! ### Loop levels (R124 to R130) -/

/-- The innermost active level: the active level with the highest number. -/
def Core.inner (c : Core) : Option (Nat × LoopLv) :=
  ((List.range 4).reverse.filterMap (fun k =>
    let l := c.c.lc[k]?.getD .off
    if l.kind != 0 then some (k, l) else none)).head?

/-- The lowest inactive level. -/
def Core.freeLevel (c : Core) : Option Nat :=
  (List.range 4).find? (fun k => (c.c.lc[k]?.getD .off).kind == 0)

def Core.setLevel (c : Core) (k : Nat) (l : LoopLv) : Core :=
  if h : k < 4 then { c with c := { c.c with lc := c.c.lc.set k l } } else c

/-- An IMEM word index lies in the body of an active level. -/
def LoopLv.holds (l : LoopLv) (i : BitVec 16) : Bool :=
  l.kind != 0 && decide (l.start.toNat ≤ i.toNat) && decide (i.toNat ≤ l.fin.toNat)

/-- IMEM word index of the bundle being carried out. -/
def State.here (s : State) : BitVec 16 := s.imemIdx s.cur s.cur.k.pc.toNat

/-- The bundle is the last of the innermost active body. -/
def State.atEnd (s : State) : Bool :=
  match s.cur.inner with
  | some (_, l) => l.fin == s.here
  | none => false

/-- A loop trap of R460 that names a level (R386). -/
def State.loopTrap (s : State) (cause : BitVec 8) (tval : DWord) (lv : Nat) (start : BitVec 16) :
    Outcome State Fault Refusal :=
  .next (s.raise { mkTrap cause tval .b s.cur with loop := some (BitVec.ofNat 2 lv, start) })

/-- The loop-structure trap: TLOOP names the innermost level. DESIGN CHOICE (log 85): with no level active the spec names
none, and LEVEL and START are 0 beside V = 1. -/
def State.structTrap (s : State) : Outcome State Fault Refusal :=
  match s.cur.inner with
  | some (k, l) => s.loopTrap 0x63 0 k l.start
  | none => s.loopTrap 0x63 0 0 0

/-- R130: the outermost active level whose body holds the target and not the bundle. -/
def State.entered (s : State) (tgt : Nat) : Option (Nat × LoopLv) :=
  let c := s.cur
  let ti := s.imemIdx c tgt
  ((List.range 4).filterMap (fun k =>
    let l := c.c.lc[k]?.getD .off
    if l.holds ti && !l.holds s.here then some (k, l) else none)).head?

/-- R130: every level whose body the transfer leaves becomes inactive. -/
def State.popLeft (s : State) (tgt : Nat) : State :=
  let c := s.cur
  let ti := s.imemIdx c tgt
  let h := s.here
  s.setCur { c with c := { c.c with lc := c.c.lc.map (fun l => if l.holds h && !l.holds ti then .off else l) } }

/-- Pass control to an address after the bundle. -/
def State.goto (s : State) (a : Nat) : State :=
  { s with iss := { s.iss with xfer := some (BitVec.ofNat 48 a), closed := true } }

/-- A transfer of BEQ to BPF and JMP: the checks of R120 and R130, then the levels it leaves are popped. -/
def State.jump (s : State) (tgt : Nat) : Outcome State Fault Refusal :=
  match s.targetFault s.iss.core tgt with
  | some (c, v) => s.trap c (BitVec.ofNat 64 v)
  | none =>
    match s.entered tgt with
    | some (k, l) => s.loopTrap 0x64 (BitVec.ofNat 64 tgt) k l.start
    | none => .next ((s.popLeft tgt).goto tgt)

/-- A transfer of CALL and RET, not checked against the levels; `s'` is the state with the operation's result under way. -/
def State.jumpPlain (s s' : State) (tgt : Nat) : Outcome State Fault Refusal :=
  match s.targetFault s.iss.core tgt with
  | some (c, v) => s.trap c (BitVec.ofNat 64 v)
  | none => .next (s'.goto tgt)

/-- own head address + 4 * sext(OFF) -/
def State.relTarget {w : Nat} (s : State) (off : BitVec w) : Nat :=
  (s.cur.k.pc + (off.signExtend 48 <<< 2)).toNat

/-- The poison check, then the operation. -/
def branchOp (i : Instr) (s : State) (k : State → Core → Outcome State Fault Refusal) : Outcome State Fault Refusal :=
  match s.poisonTrap i 0 with
  | some t => .next (s.raise t)
  | none => k s s.cur

/-- A conditional branch (R121). -/
def condBranch (i : Instr) (f : BrF) (cond : DWord → DWord → Bool) (s : State) : Outcome State Fault Refusal :=
  branchOp i s fun s c => if cond (c.rx f.rs1) (c.rx f.rs2) then s.jump (s.relTarget f.off) else .next s

def execBeq (f : BrF) (s : State) : Outcome State Fault Refusal := condBranch (.beq f) f (· == ·) s
def execBne (f : BrF) (s : State) : Outcome State Fault Refusal := condBranch (.bne f) f (· != ·) s
def execBlt (f : BrF) (s : State) : Outcome State Fault Refusal := condBranch (.blt f) f BitVec.slt s
def execBge (f : BrF) (s : State) : Outcome State Fault Refusal := condBranch (.bge f) f (fun a b => !a.slt b) s
def execBltu (f : BrF) (s : State) : Outcome State Fault Refusal := condBranch (.bltu f) f BitVec.ult s
def execBgeu (f : BrF) (s : State) : Outcome State Fault Refusal := condBranch (.bgeu f) f (fun a b => !a.ult b) s

/-- R122: BPT and BPF; `want` is the value of every bit with which the branch is taken. -/
def predBranch (i : Instr) (f : BpF) (want : Bool) (s : State) : Outcome State Fault Refusal :=
  branchOp i s fun s c =>
    let v := c.rp f.p
    if v = BitVec.allOnes 128 then (if want then s.jump (s.relTarget f.off) else .next s)
    else if v = 0 then (if want then .next s else s.jump (s.relTarget f.off))
    else s.trap 0x60 (v.setWidth 64)

def execBpt (f : BpF) (s : State) : Outcome State Fault Refusal := predBranch (.bpt f) f true s
def execBpf (f : BpF) (s : State) : Outcome State Fault Refusal := predBranch (.bpf f) f false s

/-- R123 -/
def execJmp (off : BitVec 21) (s : State) : Outcome State Fault Refusal :=
  branchOp (.jmp off) s fun s _ => s.jump (s.relTarget off)

/-- R123: the address of the bundle that would follow goes to x[RD]. -/
def execCall (f : BjF) (s : State) : Outcome State Fault Refusal :=
  branchOp (.call f) s fun s c =>
    if s.atEnd then s.structTrap
    else s.jumpPlain (s.setCur (c.push (mkPend .b 1 (.x f.rd (s.iss.next.setWidth 64))))) (s.relTarget f.off)

/-- R123: an address with bits above 47 raises the fetch-bound fault. DESIGN CHOICE (log 95): at a body's last bundle the structure trap of
R129 comes before every other trap of a CALL, RET or TRET, whose order the spec does not give. -/
def execRet (rs1 : XReg) (s : State) : Outcome State Fault Refusal :=
  branchOp (.ret rs1) s fun s c =>
    if s.atEnd then s.structTrap
    else
      let a := c.rx rs1
      if fld a 48 16 ≠ 0 then s.trap 0x05 a else s.jumpPlain s a.toNat

/-! ### Entering and leaving loops -/

/-- (MAXM + 1) * 2^MAXE -/
def maxTrip (f : BlF) : Nat := (f.maxm.toNat + 1) * 2 ^ f.maxe.toNat

/-- All ones into logical p8, zeros into p9 to p(8 + S - 1), for the next bundle (R125). -/
def Core.stagePreds (c : Core) (stages : Nat) : Core :=
  (List.range stages).foldl (fun c k =>
    c.push (mkPend .b 1 (.p (c.pp (BitVec.ofNat 4 (8 + k))) (BitVec.allOnes 128) (if k = 0 then BitVec.allOnes 128 else 0))))
    c

/-- R127: fall-through from inside an active body past its END; `skip` is the level being closed. -/
def State.leaks (s : State) (nxt : Nat) (skip : Option Nat) : Bool :=
  let c := s.cur
  let ni := s.imemIdx c nxt
  (List.range 4).any (fun k =>
    let l := c.c.lc[k]?.getD .off
    some k != skip && l.holds s.here && !l.holds ni)

/-- R124: the new END does not lie below that of the innermost body around the bundle. -/
def State.unnested (s : State) (c : Core) (fin : BitVec 16) : Bool :=
  c.inner.any (fun (_, l) => l.holds s.here && decide (l.fin.toNat ≤ fin.toNat))

/-- R124, R125: a loop instruction of the given KIND. DESIGN CHOICE (log 85): the spec orders no two of its traps; structure
comes first, then depth, then the bound. DESIGN CHOICE (log 95): where head + LEN lies in another segment or in none, END is the IMEM index
that the address has there, or 0. -/
def loopOp (i : Instr) (f : BlF) (kind : BitVec 2) (s : State) : Outcome State Fault Refusal :=
  branchOp i s fun s c =>
    let t := (c.rx f.rs1).toNat
    let fin := c.k.pc.toNat + 4 * f.len.toNat
    let finI := s.imemIdx c fin
    let past := s.following s.iss.core fin
    if s.atEnd || s.unnested c finI || s.leaks (if t = 0 then past else s.iss.next.toNat) none then s.structTrap
    else if t = 0 then .next (s.goto past)
    else
      match c.freeLevel with
      | none => s.loopTrap 0x61 0 3 (c.c.lc[3].start)
      | some k =>
        let start := s.imemIdx c s.iss.next.toNat
        if kind ≠ 2 ∧ maxTrip f < t then s.loopTrap 0x62 (BitVec.ofNat 64 t) k start
        else
          let stages := f.stg.toNat + 1
          let iter := if kind = 2 then maxTrip f else if kind = 3 then t + stages - 1 else t
          let lv : LoopLv :=
            { kind := kind, stg := if kind = 3 then f.stg else 0, start := start, fin := finI
              iter := BitVec.ofNat 27 iter, trip := t, max := maxTrip f }
          let c' := c.setLevel k lv
          .next { s.setCur (if kind = 3 then c'.stagePreds stages else c') with iss := { s.iss with closed := true } }

def execLoop (f : BlF) (s : State) : Outcome State Fault Refusal := loopOp (.loop f) f 1 s
def execLoopW (f : BlF) (s : State) : Outcome State Fault Refusal := loopOp (.loopW f) f 2 s
def execLoopSp (f : BlF) (s : State) : Outcome State Fault Refusal := loopOp (.loopSp f) f 3 s

/-- The closing action of R126 at the innermost level, its traps first (R460); `cond` is the condition that a LEND
names for a while loop, none without a LEND. DESIGN CHOICE (log 85): where a Zicsr operation of the same issue writes ROT, its
write acts at the boundary on the ROT that the closing has left, and p8 is mapped by the latter. -/
def closeLoop (cond : Option Bool) (s : State) : Outcome State Fault Refusal :=
  let c := s.cur
  match c.inner with
  | none => s.structTrap
  | some (k, l) =>
    if l.kind = 2 ∧ cond.isNone then s.structTrap
    else
      let cont := if l.kind = 2 then cond.getD false else decide (1 < l.iter.toNat)
      if l.kind = 2 ∧ cont ∧ l.iter = 1 then s.loopTrap 0x62 (BitVec.ofNat 64 l.max) k l.start
      else
        let startA := s.addrOfIdx c c.k.pc.toNat l.start
        let rotated (c : Core) : Core := { c with c := { c.c with rot := c.c.rot - 1 } }
        if cont then
          match s.targetFault s.iss.core startA with
          | some (e, v) => s.trap e (BitVec.ofNat 64 v)
          | none =>
            let iter := l.iter - 1
            let c := (rotated c).setLevel k { l with iter := iter }
            let i := l.trip + l.stg.toNat - iter.toNat
            let c := if l.kind = 3 then
                c.push (mkPend .b 1 (.p (c.pp 8) (BitVec.allOnes 128) (if i < l.trip then BitVec.allOnes 128 else 0)))
              else c
            .next ((s.setCur c).goto startA)
        else if s.leaks s.iss.next.toNat (some k) then s.structTrap
        else
          let s := s.setCur ((rotated c).setLevel k .off)
          .next { s with iss := { s.iss with closed := true } }

/-- The closing action at the innermost level would pop it. -/
def LoopLv.ends (l : LoopLv) (cond : Bool) : Bool := if l.kind = 2 then !cond else decide (l.iter.toNat ≤ 1)

/-- R126, R127: structure first, then the operand, then the closing action. -/
def execLend (rs1 : XReg) (s : State) : Outcome State Fault Refusal :=
  branchOp (.lend rs1) s fun s c =>
    if !s.atEnd then s.structTrap
    else
      match c.inner with
      | some (k, l) =>
        if l.ends (c.rx rs1 != 0) && s.leaks s.iss.next.toNat (some k) then s.structTrap
        else if rs1 ≠ 0 ∧ l.kind ≠ 2 then s.illegal (.lend rs1)
        else closeLoop (some (c.rx rs1 != 0)) s
      | none => s.structTrap

/-- R128: break out of the innermost loop. DESIGN CHOICE (log 94): a malformed line that a taken LBRK, or a LOOP skipped at count 0,
enters is entered as by fall-through, so R62's trap names the bundle there. DESIGN CHOICE (log 95): an untaken LBRK in a body's last bundle,
which no row of R129 names, makes the closing action there, which is the structure trap in a while loop. -/
def execLbrk (rs1 : XReg) (s : State) : Outcome State Fault Refusal :=
  branchOp (.lbrk rs1) s fun s c =>
    match c.inner with
    | none => s.structTrap
    | some (k, l) =>
      if rs1 = 0 ∨ c.rx rs1 ≠ 0 then
        let fin := s.addrOfIdx c c.k.pc.toNat l.fin
        .next ((s.setCur (c.setLevel k .off)).goto (s.following s.iss.core fin))
      else .next s

/-! ### Waiting, format, literals -/

/-- R131: every class at or below its field; a field at or above its maximum places no condition. -/
def waitMet (f : BwF) (c : Core) : Bool :=
  (decide (maxSt ≤ f.st.toNat) || decide (c.c.st ≤ f.st.toNat)) &&
  (decide (maxCp ≤ f.cp.toNat) || decide (c.c.cp ≤ f.cp.toNat)) &&
  (decide (maxTl ≤ f.tl.toNat) || decide (c.c.tl ≤ f.tl.toNat)) &&
  (decide (maxWl ≤ f.wl.toNat) || decide (c.c.wl ≤ f.wl.toNat))

/-- R131: the hold is made before the bundle's first issue (`held` in Machine/Issue.lean); the operation itself changes
nothing. -/
def execWait (f : BwF) (s : State) : Outcome State Fault Refusal := branchOp (.wait f) s fun s _ => .next s

/-- R55, R132: the new mode rules from the fifth advance cycle on. -/
def execSetfmt (acc : Acc) (rm : Rm) (s : State) : Outcome State Fault Refusal :=
  branchOp (.setfmt acc rm) s fun s c =>
    .next (s.setCur { c with t := { c.t with shadow := some { acc := acc, rm := rm, rem := 5 } } })

/-- R133 -/
def execLitset (rs1 : XReg) (s : State) : Outcome State Fault Refusal :=
  branchOp (.litset rs1) s fun s c =>
    let v := c.rx rs1
    if fld v 48 16 ≠ 0 ∨ fld v 0 2 ≠ 0 then s.trap 0x06 v
    else .next (s.setCur (c.push (mkPend .b 1 (.mpc (v.setWidth 48)))))

/-- R134: clear the resident bit of a segment; a copy of it in flight stays without effect (R324). -/
def Core.dropSegs (c : Core) (drop : Nat → Bool) : Core :=
  { c with k := { c.k with
    resident := c.k.resident.filter (fun g => !drop g)
    segStale := c.k.segStale || c.k.segCopy.any drop } }

/-- R134: IINV of one segment, or of every segment but the one that holds the bundle. -/
def execIinv (rs1 : XReg) (s : State) : Outcome State Fault Refusal :=
  branchOp (.iinv rs1) s fun s c =>
    if rs1 = 0 then
      let own := (s.segOf c c.k.pc.toNat).map (·.num)
      .next (s.setCur (c.dropSegs (fun g => some g != own)))
    else
      let a := (c.rx rs1).toNat
      if !c.inArena a then s.trap 0x05 (c.rx rs1)
      else
        match s.segOf c a with
        | some g => .next (s.setCur (c.dropSegs (· == g.num)))
        | none => .next s

/-! ### Supersteps, yield, halt and traps -/

/-- R135, R289: the task waits at the superstep barrier; in a handler it is a banked-resource double fault (R409). -/
def execSstep (s : State) : Outcome State Fault Refusal :=
  branchOp .sstep s fun s c =>
    if c.bank.isSome then s.trap 0x66 0
    else .next (s.setCur { c with sstep := true, superstep := c.superstep + 1 })

/-- R136: the task asks to be pre-empted at the boundary; the scheduler finds whether a ready task of its priority may
run here (`execPreempt`). -/
def execYield (s : State) : Outcome State Fault Refusal :=
  branchOp .yield s fun s c =>
    if s.atEnd then s.structTrap else .next (s.setCur { c with yielding := true })

/-- R137, R410: issue stops and the task drains. DESIGN CHOICE (log 85): at the END of a while loop R127 asks for a LEND and
R129 lets HALT end the task; it ends the task. -/
def execHalt (s : State) : Outcome State Fault Refusal :=
  branchOp .halt s fun s c =>
    .next { s.setCur { c with mode := .halting } with iss := { s.iss with closed := true } }

/-- R138: the software trap, after the bundle. -/
def execTrap (code : BitVec 8) (s : State) : Outcome State Fault Refusal :=
  branchOp (.trap code) s fun s _ =>
    if s.atEnd then s.structTrap else s.complete 0x0B (code.setWidth 64) .b

/-- The four checks of R389, in order; each after the first fails with a bank held. -/
def State.tretFail (s : State) (c : Core) : Option Fail :=
  match c.bank with
  | none => some ⟨0x01, (encode .tret).getD 0⟩
  | some b =>
    let a := c.tr.pc.toNat
    if b.loops < c.activeLoops then some ⟨0x63, 0⟩
    else if !c.inArena a ∨ a % 4 ≠ 0 then some ⟨0x05, c.tr.pc.setWidth 64⟩
    else if !s.maskBit s.iss.core a 0 then some ⟨0x04, c.tr.pc.setWidth 64⟩
    else none

/-- R389: the handler drains, then the bank comes back (`TRET_RESUME`). -/
def execTret (s : State) : Outcome State Fault Refusal :=
  branchOp .tret s fun s c =>
    if s.atEnd then s.structTrap
    else
      match s.tretFail c with
      | some e => s.trap e.cause e.tval
      | none =>
        .next { s.setCur { c with tretDrain := some (c.tr.pc, c.tr.elem) } with iss := { s.iss with closed := true } }

end Sys2Proof.Machine
end

