-- ==== Sys2Proof/Machine/LowRank.lean ====
section
/-! DEFINITION. Low-rank tiles (R207 to R219). -/

namespace Sys2Proof.Machine

open Host (Outcome)

/-! ### Sources (R207) -/

/-- Factor columns, each of 32 FP64 patterns. -/
abbrev Cols := List (List Nat)

def factorCols (k : Nat) (l : List DWord) : Cols :=
  (List.range k).map (fun q => (List.range 32).map (fun i => (l.getD (32 * q + i) 0).toNat))

/-- rank_of (R109). -/
def Tile.rankOf (t : Tile) : Nat := if t.kind = .lowRank then t.rank else 0

def Tile.uCols (t : Tile) : Cols := factorCols t.rankOf t.u
def Tile.vCols (t : Tile) : Cols := factorCols t.rankOf t.v
def colsFlat (c : Cols) : List DWord := c.flatten.map (BitVec.ofNat 64)

/-- Row i of a factor. -/
def rowOf (c : Cols) (i : Nat) : List Nat := c.map (fun col => col.getD i 0)

/-- Element (i, j) of a dense source; an empty tile is zeros. -/
def Tile.at (t : Tile) (i j : Nat) : Nat := (t.elems.getD (32 * i + j) 0).toNat
def Tile.denseRow (t : Tile) (i : Nat) : List Nat := (List.range 32).map (t.at i)
def Tile.denseCol (t : Tile) (j : Nat) : List Nat := (List.range 32).map (fun i => t.at i j)

/-! ### Checks (R211) -/

def needKind (c : Core) (m : MReg) (kind : TileKind) : Except Fail Unit :=
  let k := (c.tile m).kind
  if k = kind ∨ k = .empty then .ok () else .error (kindFail c m)

def needF64 (c : Core) : Except Fail Unit :=
  if c.c.acc = .f64 then .ok () else .error ⟨0x42, (accCode c.c.acc).setWidth 64⟩

/-- A low-rank result, written whole at retire (R209). -/
def Core.startWhole (c : Core) (d : Nat) (md : MReg) (tiles : List MReg) (slots : List OSlot) (n : Nat) (u v : Cols)
    (fl : Flags) : Core :=
  c.pushEng (mkEng c d md tiles slots [] (c.reserve md (tiles.contains md) n) (.whole u.length (colsFlat u) (colsFlat v))
    [fl] true)

/-! ### Sums with their flags -/

/-- Arithmetic that collects the IEEE flags it raises. -/
abbrev FpM := StateM Flags

def fpm (r : Nat × Flags) : FpM Nat := modifyGet (fun f => (r.1, f ||| r.2))
def fdot (rm : Rm) (x y : List Nat) : FpM Nat := fpm (lrdot rm x y)
def fadd (a b : Nat) : FpM Nat := fpm (fp64.addR .rne (fp64.decode a) (fp64.decode b))
def fsub (a b : Nat) : FpM Nat := fpm (fp64.addR .rne (fp64.decode a) (fp64.decode b).neg)
def fmul (a b : Nat) : FpM Nat := fpm (fp64.mulR .rne (fp64.decode a) (fp64.decode b))
def fdiv (a b : Nat) : FpM Nat := fpm (fp64.divR .rne (fp64.decode a) (fp64.decode b))
def fsqrt (a : Nat) : FpM Nat := fpm (fp64.sqrtR .rne (fp64.decode a))
/-- A comparison that is false for a NaN (R219). DESIGN CHOICE (log 95): it raises no flag, not for a signalling NaN in TOLABS either. -/
def fgt (a b : Nat) : Bool :=
  let x := fp64.decode a
  let y := fp64.decode b
  !x.isNaN && !y.isNaN && x.cmp y == .gt
def fzero (a : Nat) : Bool := a % 2 ^ 63 == 0
def fabs (a : Nat) : Nat := a % 2 ^ 63
def fone : Nat := 0x3FF0000000000000
def ftwo : Nat := 0x4000000000000000

/-! ### MLRSET to MLRADD, MDENSE, MRANK (R210, R213 to R217) -/

def execMlrset (f : MlrsetF) (s : State) : Outcome State Fault Refusal :=
  let lines (c : Core) : List (OSlot × Nat) :=
    let k := min 16 (c.rx f.xs).toNat
    (List.range k).flatMap (fun q => [(f.os, q), (f.os, 16 + q)])
  matOpL (.mlrset f) s (fun c _ => rowMarks c (lines c)) fun s c lit => do
    zeroLit lit
    needClaimed c f.os
    let k := (c.rx f.xs).toNat
    if k ≤ c.c.rmax.toNat then .ok () else .error ⟨0x40, c.rx f.xs⟩
    needPanels c f.md false (2 * k)
    let col (l : Nat) : List Nat := (List.range 32).map (elemOf 64 (s.slotLine s.iss.core f.os l))
    .ok (s.setCur (c.startWhole (4 + 2 * k) f.md [] [f.os] (2 * k) ((List.range k).map col)
      ((List.range k).map (fun q => col (16 + q))) 0))

/-- The factors of R214. -/
def lrmul (rm : Rm) (ua va ub vb : Cols) : FpM (Cols × Cols) := do
  -- core entries by column q of ub, and by row p
  let core ← ub.mapM (fun q => va.mapM (fun p => fdot rm p q))
  if va.length ≤ ub.length then
    let vn ← (List.range va.length).mapM (fun p => (List.range 32).mapM (fun j => fdot rm (rowOf vb j) (rowOf core p)))
    pure (ua, vn)
  else
    let un ← core.mapM (fun cq => (List.range 32).mapM (fun i => fdot rm (rowOf ua i) cq))
    pure (un, vb)

def execMlrmul (f : M2F) (s : State) : Outcome State Fault Refusal :=
  matOp (.mlrmul f) s fun s c lit => do
    zeroLit lit
    needKind c f.ms1 .lowRank
    needKind c f.ms2 .lowRank
    let a := c.tile f.ms1
    let b := c.tile f.ms2
    let r := min a.rankOf b.rankOf
    needRank c r
    needPanels c f.md (f.md = f.ms1 ∨ f.md = f.ms2) (2 * r)
    let ((u, v), fl) := (lrmul c.c.rm a.uCols a.vCols b.uCols b.vCols).run 0
    .ok (s.setCur (c.startWhole (8 + (a.rankOf * b.rankOf + 3) / 4) f.md [f.ms1, f.ms2] [] (2 * r) u v fl))

def execMlrdm (f : M2F) (s : State) : Outcome State Fault Refusal :=
  matOp (.mlrdm f) s fun s c lit => do
    zeroLit lit
    needF64 c
    needKind c f.ms1 .lowRank
    needKind c f.ms2 .dense
    let a := c.tile f.ms1
    let d := c.tile f.ms2
    let k := a.rankOf
    needRank c k
    needPanels c f.md (f.md = f.ms1 ∨ f.md = f.ms2) (2 * k)
    let (v, fl) := (a.vCols.mapM (fun q => (List.range 32).mapM (fun j => fdot c.c.rm (d.denseCol j) q))).run 0
    .ok (s.setCur (c.startWhole (8 + 4 * k) f.md [f.ms1, f.ms2] [] (2 * k) a.uCols v fl))

def execMdmlr (f : M2F) (s : State) : Outcome State Fault Refusal :=
  matOp (.mdmlr f) s fun s c lit => do
    zeroLit lit
    needF64 c
    needKind c f.ms1 .dense
    needKind c f.ms2 .lowRank
    let d := c.tile f.ms1
    let b := c.tile f.ms2
    let k := b.rankOf
    needRank c k
    needPanels c f.md (f.md = f.ms1 ∨ f.md = f.ms2) (2 * k)
    let (u, fl) := (b.uCols.mapM (fun q => (List.range 32).mapM (fun i => fdot c.c.rm (d.denseRow i) q))).run 0
    .ok (s.setCur (c.startWhole (8 + 4 * k) f.md [f.ms1, f.ms2] [] (2 * k) u b.vCols fl))

def execMlradd (f : M2F) (s : State) : Outcome State Fault Refusal :=
  matOp (.mlradd f) s fun s c lit => do
    zeroLit lit
    needKind c f.ms1 .lowRank
    needKind c f.ms2 .lowRank
    let a := c.tile f.ms1
    let b := c.tile f.ms2
    let k := a.rankOf + b.rankOf
    needRank c k
    needPanels c f.md (f.md = f.ms1 ∨ f.md = f.ms2) (2 * k)
    .ok (s.setCur (c.startWhole (4 + k) f.md [f.ms1, f.ms2] [] (2 * k) (a.uCols ++ b.uCols) (a.vCols ++ b.vCols) 0))

/-- The 1024 elements of a low-rank tile, each summed in rank order (R217), and their flags. -/
def expandCols (rm : Rm) (u v : Cols) : List DWord × Flags :=
  let r := ((List.range 1024).mapM (fun n => fdot rm (rowOf u (n / 32)) (rowOf v (n % 32)))).run 0
  (r.1.map (BitVec.ofNat 64), r.2)

def execMdense (f : M1F) (s : State) : Outcome State Fault Refusal :=
  matOp (.mdense f) s fun s c lit => do
    zeroLit lit
    needF64 c
    needKind c f.ms1 .lowRank
    needPanels c f.md (f.md = f.ms1) 32
    let t := c.tile f.ms1
    let r := expandCols c.c.rm t.uCols t.vCols
    .ok (s.setCur (c.pushEng (mkEng c (8 + 4 * t.rankOf) f.md [f.ms1] [] [] (c.reserve f.md (f.md = f.ms1) 32)
      (.blocks .dense r.1) [r.2] true)))

/-- R210: FREE, OCC, KIND and RANK. -/
def rankWord (c : Core) (t : Tile) : DWord :=
  0#23 ++ BitVec.ofNat 9 c.freePanels.length ++ 0#10 ++ BitVec.ofNat 10 t.occ ++ 0#1 ++ kindCode t.kind ++ 0#3 ++
    BitVec.ofNat 5 t.rankOf

def execMrank (f : MrankF) (s : State) : Outcome State Fault Refusal :=
  matOp (.mrank f) s fun s c lit => do
    zeroLit lit
    .ok (s.setCur (c.push (mkPend .m 1 (.x f.xs (rankWord c (c.tile f.ms1))))))

/-! ### Recompression (R218, R219) -/

/-- One column of mgs: `q` and the entries of the columns before it. -/
def mgsStep (q : Cols) (w : List Nat) : FpM (List Nat × List Nat) :=
  q.foldlM (fun (w, rs) qj => do
    let r ← fdot .rne qj w
    let w' ← (w.zip qj).mapM (fun (wi, qi) => do fsub wi (← fmul r qi))
    pure (w', rs ++ [r])) (w, [])

/-- Modified Gram-Schmidt: columns of Q, and columns of R filled to k entries. -/
def mgs (k : Nat) (x : Cols) : FpM (Cols × Cols) :=
  x.foldlM (fun (q, r) col => do
    let (w, rs) ← mgsStep q col
    let d ← fsqrt (← fdot .rne w w)
    let qc ← if fzero d then pure (w.map (fun _ => 0)) else w.mapM (fun wi => fdiv wi d)
    pure (q ++ [qc], r ++ [rs ++ [d] ++ List.replicate (k - rs.length - 1) 0])) ([], [])

/-- Rotate columns p and q of a matrix. -/
def rotate (cs sn : Nat) (p q : Nat) (y : Cols) : FpM Cols := do
  let yp := y.getD p []
  let yq := y.getD q []
  let r ← (yp.zip yq).mapM (fun (a, b) => do
    let x ← fsub (← fmul cs a) (← fmul sn b)
    let z ← fadd (← fmul sn a) (← fmul cs b)
    pure (x, z))
  pure ((y.set p (r.map (·.1))).set q (r.map (·.2)))

/-- One pair of a sweep. -/
def jacobi (wz : Cols × Cols) (pq : Nat × Nat) : FpM (Cols × Cols) := do
  let wp := wz.1.getD pq.1 []
  let wq := wz.1.getD pq.2 []
  let al ← fdot .rne wp wp
  let be ← fdot .rne wq wq
  let ga ← fdot .rne wp wq
  if fzero ga then pure wz
  else
    let ze ← fdiv (← fsub be al) (← fmul ftwo ga)
    let sg := if fgt ze 0 || fzero ze then fone else fone + 2 ^ 63
    let t ← fdiv sg (← fadd (fabs ze) (← fsqrt (← fadd fone (← fmul ze ze))))
    let cs ← fdiv fone (← fsqrt (← fadd fone (← fmul t t)))
    let sn ← fmul cs t
    let w ← rotate cs sn pq.1 pq.2 wz.1
    let z ← rotate cs sn pq.1 pq.2 wz.2
    pure (w, z)

/-- The pairs of one sweep, in order. -/
def sweepPairs (k : Nat) : List (Nat × Nat) :=
  (List.range (k - 1)).flatMap (fun p => (List.range (k - 1 - p)).map (fun d => (p, p + 1 + d)))

/-- Insert an index by descending value, behind its equals. -/
def insertDesc (sig : List Nat) (b : Nat) : List Nat → List Nat
  | [] => [b]
  | a :: t => if fgt (sig.getD b 0) (sig.getD a 0) then b :: a :: t else a :: insertDesc sig b t

/-- The procedure of R219. DESIGN CHOICE (log 95): TOL times the largest value is formed, with its flags, whenever k > 0, though a CAP of 0
leaves nothing to test. -/
def recompress (cap : Nat) (tol tolabs : Nat) (u v : Cols) : FpM (Cols × Cols) := do
  let k := u.length
  let (qu, ru) ← mgs k u
  let (qv, rv) ← mgs k v
  let w ← (List.range k).mapM (fun b => (List.range k).mapM (fun a => fdot .rne (rowOf ru a) (rowOf rv b)))
  let z := (List.range k).map (fun b => (List.range k).map (fun a => if a = b then fone else 0))
  let (w, z) ← ((List.replicate 6 (sweepPairs k)).flatten).foldlM jacobi (w, z)
  let sig ← w.mapM (fun c => do fsqrt (← fdot .rne c c))
  let ord := (List.range k).foldl (fun l b => insertDesc sig b l) []
  let bound ← if k = 0 then pure 0 else fmul tol (sig.getD (ord.getD 0 0) 0)
  let keep := (ord.take cap).takeWhile (fun b => fgt (sig.getD b 0) bound && fgt (sig.getD b 0) tolabs)
  let un ← keep.mapM (fun b => (List.range 32).mapM (fun i => fdot .rne (rowOf qu i) (w.getD b [])))
  let vn ← keep.mapM (fun b => (List.range 32).mapM (fun i => fdot .rne (rowOf qv i) (z.getD b [])))
  pure (un, vn)

/-- R218: finite and below 2^240 in magnitude. -/
def inRange (b : Nat) : Bool := decide (b % 2 ^ 63 < (1023 + 240) * 2 ^ 52)

/-- The cap of a literal word, or none where it is refused (R218). -/
def capOf (c : Core) (lit : Word) : Option Nat :=
  let v := (fld lit 0 5).toNat
  if fld lit 5 27 ≠ 0 ∨ 16 < v then none else some (if v = 0 then c.c.rmax.toNat else min v c.c.rmax.toNat)

/-- The factors that MRECOMP leaves under TOL and TOLABS, with its flags (R218). -/
def recompressed (cap : Nat) (k : Csrs) (u v : Cols) : (Cols × Cols) × Flags :=
  (recompress cap k.tol.toNat k.tolabs.toNat u v).run 0

def execMrecomp (f : M1F) (s : State) : Outcome State Fault Refusal :=
  matOp (.mrecomp f) s fun s c lit => do
    match capOf c lit with
    | none => .error ⟨0x07, lit.setWidth 64⟩
    | some cap =>
      needKind c f.ms1 .lowRank
      let t := c.tile f.ms1
      let k := t.rankOf
      let n := 2 * min k cap
      needPanels c f.md (f.md = f.ms1) n
      let u := t.uCols
      let v := t.vCols
      if (u ++ v).all (fun col => col.all inRange) then .ok () else .error ⟨0x48, f.ms1.setWidth 64⟩
      let r := recompressed cap c.c u v
      .ok (s.setCur (c.startWhole (64 + 12 * k + 36 * k * k) f.md [f.ms1] [] n r.1.1 r.1.2 r.2))

end Sys2Proof.Machine
end

