-- ==== Sys2Proof/Machine/Transform.lean ====
section
/-! DEFINITION. The transform slot (R231 to R238): expand, unpack and pack, convert, transpose and the scale adder. -/

namespace Sys2Proof.Machine

open Host (Outcome)

/-- A transform result of latency `lat`, mapped at this issue (R232). -/
def Core.pushX (c : Core) (vd : VReg) (lat : Nat) (v : Vec) (fl : Flags) : Core :=
  c.push { rem := lat, lat := lat, slot := .x, xform := true, w := .v (c.pv vd) (BitVec.allOnes 1024) v, flags := fl }

/-! ### Expand (R234) -/

/-- Dense elements of a type from kept values, `per` of each four (R234). Bits [7:6] of an L6 container are ignored and written
zero (R100). -/
def expandVec (t : Fmt) (per : Nat) (v : Vec) : Vec :=
  let e := Fmt.width t
  let n := 1024 / e
  let kept := n * per / 4
  let zeros := List.replicate n 0
  packVec e ((List.range kept).foldl (fun l q =>
    l.set (4 * (q / per) + (fld v (512 + 2 * q) 2).toNat) (if t = .l6 then elemOf e v.toNat q % 64 else elemOf e v.toNat q)) zeros)

def execXexpS24 (f : XexpF) (s : State) : Outcome State Fault Refusal :=
  slotOp (.xexpS24 f) s fun c => .ok (c.pushX f.vd 6 (expandVec f.dt 2 (c.rv f.vs)) 0)

def execXexpS14 (f : XexpF) (s : State) : Outcome State Fault Refusal :=
  slotOp (.xexpS14 f) s fun c => .ok (c.pushX f.vd 6 (expandVec f.dt 1 (c.rv f.vs)) 0)

/-! ### Unpack and pack (R235) -/

/-- The first 128 elements of width e of a register. -/
def first128 (e : Nat) (v : Vec) : List Nat := (List.range 128).map (elemOf e v.toNat)

def execXunpkL6 (f : XuF) (s : State) : Outcome State Fault Refusal :=
  slotOp (.xunpkL6 f) s fun c => .ok (c.pushX f.vd 4 (packVec 8 (first128 6 (c.rv f.vs))) 0)

def execXunpkI4 (f : XuF) (s : State) : Outcome State Fault Refusal :=
  slotOp (.xunpkI4 f) s fun c => .ok (c.pushX f.vd 4 (packVec 8 ((first128 4 (c.rv f.vs)).map (fun x => zext (sext x 4) 8))) 0)

def execXpackL6 (f : XuF) (s : State) : Outcome State Fault Refusal :=
  slotOp (.xpackL6 f) s fun c => .ok (c.pushX f.vd 4 (packVec 6 ((first128 8 (c.rv f.vs)).map (· % 64))) 0)

def execXpackI4 (f : XuF) (s : State) : Outcome State Fault Refusal :=
  slotOp (.xpackI4 f) s fun c =>
    let r := (first128 8 (c.rv f.vs)).map (fun x => cvtTo .i4 c.c.rm (fmtDecode .i8 x))
    .ok (c.pushX f.vd 4 (packVec 4 (r.map (·.1))) (r.foldl (fun g x => g ||| x.2) 0))

/-! ### Convert (R236) -/

/-- One element from ST to DT; a copy where they are equal, but for a signalling NaN. -/
def xcvtElem (st dt : Fmt) (rm : Rm) (x : Nat) : Nat × Flags :=
  if st = dt then
    if st = .l6 then (x % 64, 0)
    else if st.isFloat ∧ (fmtDecode st x).isSig then ((Fmt.fp st).canonNaN, flNV) else (x, 0)
  else cvtTo dt rm (fmtDecode st x)

def execXcvt (f : XcvtF) (s : State) : Outcome State Fault Refusal :=
  slotOp (.xcvt f) s fun c =>
    let ws := Fmt.width f.st
    let wd := Fmt.width f.dt
    let n := 1024 / max ws wd
    let r := (List.range n).map (fun j => xcvtElem f.st f.dt c.c.rm (elemOf ws (c.rv f.vs).toNat j))
    .ok (c.pushX f.vd 4 (packVec wd (r.map (·.1))) (r.foldl (fun g x => g ||| x.2) 0))

/-! ### Transpose (R237) -/

/-- A bank's row; rows never written are zero. -/
def bankRow (b : List Vec) (i : Nat) : Vec := b.getD i 0

/-- Bank with row `i` set. -/
def bankSet (b : List Vec) (i : Nat) (v : Vec) : List Vec := ((List.range 32).map (bankRow b)).set i v

/-- One issue: the column that comes out, and the unit after it. -/
def Xtr.issue (x : Xtr) (restart : Bool) (v : Vec) : Vec × Xtr :=
  let trc := if restart then 0 else x.trc
  let src := if x.b then x.bank0 else x.bank1
  let out := packVec 32 ((List.range 32).map (fun i => elemOf 32 (bankRow src i).toNat trc.toNat))
  let x := if x.b then { x with bank1 := bankSet x.bank1 trc.toNat v } else { x with bank0 := bankSet x.bank0 trc.toNat v }
  (out, if trc = 31 then { x with trc := 0, b := !x.b } else { x with trc := trc + 1 })

def execXtr (f : XtrF) (s : State) : Outcome State Fault Refusal :=
  slotOp (.xtr f) s fun c =>
    let (out, x) := c.t.xtr.issue f.r (c.rv f.vs)
    .ok ({ c with t := { c.t with xtr := x } }.pushX f.vd 12 out 0)

/-! ### The scale adder (R201) -/

def Core.pushScale (c : Core) (e : Int) : Core := { c with t := { c.t with scale := c.t.scale ++ [{ rem := 3, e := e }] } }

def execXscale (xs : XReg) (s : State) : Outcome State Fault Refusal :=
  slotOp (.xscale xs) s fun c => .ok (c.pushScale (max (-1024) (min 1023 (c.rx xs).toInt)))

def execXscalei (imm : BitVec 11) (s : State) : Outcome State Fault Refusal :=
  slotOp (.xscalei imm) s fun c => .ok (c.pushScale imm.toInt)

end Sys2Proof.Machine
end

