-- ==== Sys2Proof/Machine/VecPerm.lean ====
section
/-! DEFINITION. Select, permute, reductions, scans, argmax and the bitonic stage (R153 to R157). -/

namespace Sys2Proof.Machine

open Host (Outcome)

def allTrue (n : Nat) : List Bool := List.replicate n true
def nth (l : List Nat) (j : Nat) : Nat := l[j]?.getD 0

/-- Two sources permuted: element j of the result from the source lists and the active list. -/
def vPerm2 (i : Instr) (f : VrF) (lat : Nat) (whole : Bool) (g : Nat → List Bool → List Nat → List Nat → Nat → Nat)
    (s : State) : Outcome State Fault Refusal :=
  vecOp i s f.vd lat fun c =>
    let e := Fmt.width f.et
    let n := 1024 / e
    let act := c.act f.et f.pg
    let a := c.els f.et f.vs1
    let b := c.els f.et f.vs2
    vOutI e (if whole then allTrue n else act) ((List.range n).map (g n act a b))

def execVsel (f : VrF) (s : State) : Outcome State Fault Refusal :=
  vPerm2 (.vsel f) f 1 true (fun _ act a b j => if act[j]?.getD false then nth a j else nth b j) s
def execVperm (f : VrF) (s : State) : Outcome State Fault Refusal :=
  vPerm2 (.vperm f) f 3 false (fun n _ a b j => nth a (nth b j % n)) s
def execVzip (f : VrF) (s : State) : Outcome State Fault Refusal :=
  vPerm2 (.vzip f) f 3 false (fun _ _ a b j => if j % 2 = 0 then nth a (j / 2) else nth b ((j - 1) / 2)) s
def execVunzip (f : VrF) (s : State) : Outcome State Fault Refusal :=
  vPerm2 (.vunzip f) f 3 false (fun n _ a b j => if j < n / 2 then nth a (2 * j) else nth b (2 * j - n)) s

def execVslideup (f : VslF) (s : State) : Outcome State Fault Refusal :=
  vecOp (.vslideup f) s f.vd 3 fun c =>
    let e := Fmt.width f.et
    let n := 1024 / e
    let a := c.els f.et f.vs1
    let k := f.amt.toNat
    vOutI e (List.zipWith and (c.act f.et f.pg) ((List.range n).map (fun j => decide (k ≤ j))))
      ((List.range n).map (fun j => nth a (j - k)))
def execVslidedn (f : VslF) (s : State) : Outcome State Fault Refusal :=
  vecOp (.vslidedn f) s f.vd 3 fun c =>
    let e := Fmt.width f.et
    let n := 1024 / e
    let a := c.els f.et f.vs1
    let k := f.amt.toNat
    vOutI e (List.zipWith and (c.act f.et f.pg) ((List.range n).map (fun j => decide (j + k < n))))
      ((List.range n).map (fun j => nth a (j + k)))

/-- The active elements in order. -/
def activeEls (act : List Bool) (l : List Nat) : List Nat := ((act.zip l).filter (·.1)).map (·.2)

def execVcompress (f : VuF) (s : State) : Outcome State Fault Refusal :=
  vecOp (.vcompress f) s f.vd 3 fun c =>
    let e := Fmt.width f.et
    vOutI e (allTrue (1024 / e)) (activeEls (c.act f.et f.pg) (c.els f.et f.vs1))
def execVexpand (f : VuF) (s : State) : Outcome State Fault Refusal :=
  vecOp (.vexpand f) s f.vd 3 fun c =>
    let e := Fmt.width f.et
    let act := c.act f.et f.pg
    let a := c.els f.et f.vs1
    vOutI e act ((List.range (1024 / e)).map (fun j => nth a ((act.take j).countP id)))

/-! ### Reductions and scans (R154, R155) -/

/-- A live value of the tree with the flags of its operations; none is dead. -/
abbrev RedVal := Option (Nat × Flags)

def redNode (op : Nat → Nat → Nat × Flags) (a b : RedVal) : RedVal :=
  match a, b with
  | some (x, f), some (y, g) => let (r, h) := op x y; some (r, f ||| g ||| h)
  | some x, none => some x
  | none, y => y

def redLevel (op : Nat → Nat → Nat × Flags) : List RedVal → List RedVal
  | a :: b :: t => redNode op a b :: redLevel op t
  | l => l

/-- Levels of the pairwise tree. -/
def redTree (op : Nat → Nat → Nat × Flags) : Nat → List RedVal → List RedVal
  | 0, l => l
  | k + 1, l => redTree op k (redLevel op l)

def live (act : List Bool) (l : List Nat) : List RedVal := List.zipWith (fun a x => if a then some (x, 0) else none) act l

/-- red(op, ident) -/
def reduce (t : Fmt) (act : List Bool) (l : List Nat) (op : Nat → Nat → Nat × Flags) (ident : Nat) : Nat × Flags :=
  match redTree op t.log2n (live act l) with
  | some r :: _ => r
  | _ => (ident, 0)

/-- A result in element 0, whatever the predicate. -/
def vRed (i : Instr) (f : VuF) (g : Core → List Bool → List Nat → Nat × Flags) (s : State) :
    Outcome State Fault Refusal :=
  vecOp i s f.vd 8 fun c =>
    let e := Fmt.width f.et
    vOut e (lowestOnly (allTrue (1024 / e))) [g c (c.act f.et f.pg) (c.els f.et f.vs1)]

/-- Least and greatest values: the idents of VREDMAX and VREDMIN. -/
def identMax (t : Fmt) : Nat := if t.isFloat then (Fmt.fp t).infBits true else 2 ^ (Fmt.width t - 1)
def identMin (t : Fmt) : Nat := if t.isFloat then (Fmt.fp t).infBits false else 2 ^ (Fmt.width t - 1) - 1

def execVredsum (f : VuF) (s : State) : Outcome State Fault Refusal :=
  vRed (.vredsum f) f (fun c act l => reduce f.et act l (elAdd f.et c.c.rm) 0) s
def execVredmax (f : VuF) (s : State) : Outcome State Fault Refusal :=
  vRed (.vredmax f) f (fun _ act l => reduce f.et act l (elMinMax f.et true) (identMax f.et)) s
def execVredmin (f : VuF) (s : State) : Outcome State Fault Refusal :=
  vRed (.vredmin f) f (fun _ act l => reduce f.et act l (elMinMax f.et false) (identMin f.et)) s

/-- The running results of R155; an inactive element's entry is not written. -/
def scanGo (op : Nat → Nat → Nat × Flags) : RedVal → List (Bool × Nat) → List (Nat × Flags)
  | _, [] => []
  | run, (false, _) :: t => (0, 0) :: scanGo op run t
  | none, (true, x) :: t => (x, 0) :: scanGo op (some (x, 0)) t
  | some (r, _), (true, x) :: t => let y := op r x; y :: scanGo op (some y) t

def vScan (i : Instr) (f : VuF) (op : Core → Nat → Nat → Nat × Flags) (s : State) : Outcome State Fault Refusal :=
  vecOp i s f.vd 10 fun c =>
    let act := c.act f.et f.pg
    vOut (Fmt.width f.et) act (scanGo (op c) none (act.zip (c.els f.et f.vs1)))

def execVscansum (f : VuF) (s : State) : Outcome State Fault Refusal :=
  vScan (.vscansum f) f (fun c => elAdd f.et c.c.rm) s
def execVscanmax (f : VuF) (s : State) : Outcome State Fault Refusal :=
  vScan (.vscanmax f) f (fun _ => elMinMax f.et true) s

/-! ### Argmax (R156) -/

/-- a is greater than b, -0 below +0; neither is a NaN. -/
def elGt (t : Fmt) (a b : Nat) : Bool :=
  if t.isFloat then
    let x := (Fmt.fp t).decode a
    let y := (Fmt.fp t).decode b
    match x.cmp y with
    | .gt => true
    | .lt => false
    | .eq => !x.isNeg && y.isNeg
  else decide (sext b (Fmt.width t) < sext a (Fmt.width t))

def elNaN (t : Fmt) (a : Nat) : Bool := t.isFloat && ((Fmt.fp t).decode a).isNaN
def elSig (t : Fmt) (a : Nat) : Bool := t.isFloat && ((Fmt.fp t).decode a).isSig

/-- The best place so far, over the places from j on. -/
def argmaxGo (t : Fmt) : Option (Nat × Nat) → Nat → List (Bool × Nat) → Option (Nat × Nat)
  | best, _, [] => best
  | best, j, (a, x) :: rest =>
    let best' := if !a || elNaN t x then best
      else match best with
        | none => some (j, x)
        | some (_, y) => if elGt t x y then some (j, x) else best
    argmaxGo t best' (j + 1) rest

def execVargmax (f : VuF) (s : State) : Outcome State Fault Refusal :=
  vRed (.vargmax f) f (fun _ act l =>
    let fl : Flags := if (act.zip l).any (fun (a, x) => a && elSig f.et x) then flNV else 0
    match argmaxGo f.et none 0 (act.zip l) with
    | some (j, _) => (j, fl)
    | none => (2 ^ Fmt.width f.et - 1, fl)) s

/-! ### Bitonic stage (R157) -/

/-- The key whose unsigned order is totalOrder for floats and signed order for integers. -/
def orderKey (t : Fmt) (a : Nat) : Nat :=
  let n := Fmt.width t
  if t.isFloat then (if a < 2 ^ (n - 1) then a + 2 ^ (n - 1) else 2 ^ n - 1 - a)
  else (a + 2 ^ (n - 1)) % 2 ^ n

def execVbitonic (f : VbtF) (s : State) : Outcome State Fault Refusal :=
  vecOp (.vbitonic f) s f.vd 2 fun c =>
    let e := Fmt.width f.et
    let n := 1024 / e
    let act := c.act f.et f.pg
    let a := c.els f.et f.vs1
    let d := 2 ^ f.d.toNat
    let el (j : Nat) : Nat :=
      let low := if j / d % 2 = 0 then j else j - d
      let high := low + d
      let x := nth a low
      let y := nth a high
      let up := low / 2 ^ f.b.toNat % 2 == 0
      let kx := orderKey f.et x
      let ky := orderKey f.et y
      let swap := act[low]?.getD false && act[high]?.getD false && ((up && decide (ky < kx)) || (!up && decide (kx < ky)))
      if (j = low) != swap then x else y
    vOutI e (allTrue n) ((List.range n).map el)

end Sys2Proof.Machine
end

