-- ==== Sys2Proof/Machine/SlotOps.lean ====
section
/-! DEFINITION. The standing operations of the sticky slots (R68) and the meaning of an operation by its slot word, as a
bundle's issue carries it out. -/

namespace Sys2Proof.Machine

open Host (Outcome)

/-! ### Standing operations (R56, R68) -/

def StandSet.get (t : StandSet) : Slot → Option Standing
  | .va => t.va
  | .vb => t.vb
  | .m => t.m
  | .ca => t.ca
  | .cb => t.cb
  | .x => t.x
  | .b | .s => Option.none

def StandSet.put (t : StandSet) (sl : Slot) (v : Option Standing) : StandSet :=
  match sl with
  | .va => { t with va := v }
  | .vb => { t with vb := v }
  | .m => { t with m := v }
  | .ca => { t with ca := v }
  | .cb => { t with cb := v }
  | .x => { t with x := v }
  | .b | .s => t

def Core.putStand (c : Core) (sl : Slot) (v : Option Standing) : Core := { c with t := { c.t with stand := c.t.stand.put sl v } }

/-- R68: IDLE clears the slot's standing operation. -/
def execIdle (sl : Slot) (s : State) : Outcome State Fault Refusal := .next (s.setCur (s.cur.putStand sl Option.none))

/-- The operation of a slot word at the acting core; an event is no slot operation. -/
def execOp (i : Instr) (s : State) : Outcome State Fault Refusal :=
  match i with
  | .beq f => execBeq f s
  | .bne f => execBne f s
  | .blt f => execBlt f s
  | .bge f => execBge f s
  | .bltu f => execBltu f s
  | .bgeu f => execBgeu f s
  | .bpt f => execBpt f s
  | .bpf f => execBpf f s
  | .jmp off => execJmp off s
  | .call f => execCall f s
  | .ret rs1 => execRet rs1 s
  | .loop f => execLoop f s
  | .loopW f => execLoopW f s
  | .loopSp f => execLoopSp f s
  | .lend rs1 => execLend rs1 s
  | .lbrk rs1 => execLbrk rs1 s
  | .wait f => execWait f s
  | .setfmt acc rm => execSetfmt acc rm s
  | .litset rs1 => execLitset rs1 s
  | .sstep => execSstep s
  | .iinv rs1 => execIinv rs1 s
  | .yield => execYield s
  | .halt => execHalt s
  | .trap code => execTrap code s
  | .tret => execTret s
  | .lui f => execLui f s
  | .auipc f => execAuipc f s
  | .addi f => execAddi f s
  | .slti f => execSlti f s
  | .sltiu f => execSltiu f s
  | .xori f => execXori f s
  | .ori f => execOri f s
  | .andi f => execAndi f s
  | .slli f => execSlli f s
  | .srli f => execSrli f s
  | .srai f => execSrai f s
  | .add f => execAdd f s
  | .sub f => execSub f s
  | .sll f => execSll f s
  | .slt f => execSlt f s
  | .sltu f => execSltu f s
  | .xor f => execXor f s
  | .srl f => execSrl f s
  | .sra f => execSra f s
  | .or f => execOr f s
  | .and f => execAnd f s
  | .addiw f => execAddiw f s
  | .slliw f => execSlliw f s
  | .srliw f => execSrliw f s
  | .sraiw f => execSraiw f s
  | .addw f => execAddw f s
  | .subw f => execSubw f s
  | .sllw f => execSllw f s
  | .srlw f => execSrlw f s
  | .sraw f => execSraw f s
  | .lb f => execLb f s
  | .lh f => execLh f s
  | .lw f => execLw f s
  | .sld f => execSld f s
  | .lbu f => execLbu f s
  | .lhu f => execLhu f s
  | .lwu f => execLwu f s
  | .sb f => execSb f s
  | .sh f => execSh f s
  | .sw f => execSw f s
  | .sd f => execSd f s
  | .fence f => execFence f s
  | .ecall => execEcall s
  | .ebreak => execEbreak s
  | .mul f => execMul f s
  | .mulh f => execMulh f s
  | .mulhsu f => execMulhsu f s
  | .mulhu f => execMulhu f s
  | .div f => execDiv f s
  | .divu f => execDivu f s
  | .rem f => execRem f s
  | .remu f => execRemu f s
  | .mulw f => execMulw f s
  | .divw f => execDivw f s
  | .divuw f => execDivuw f s
  | .remw f => execRemw f s
  | .remuw f => execRemuw f s
  | .csrrw f => execCsrrw f s
  | .csrrs f => execCsrrs f s
  | .csrrc f => execCsrrc f s
  | .csrrwi f => execCsrrwi f s
  | .csrrsi f => execCsrrsi f s
  | .csrrci f => execCsrrci f s
  | .idle slot => execIdle slot s
  | .vadd f => execVadd f s
  | .vsub f => execVsub f s
  | .vmul f => execVmul f s
  | .vdiv f => execVdiv f s
  | .vmin f => execVmin f s
  | .vmax f => execVmax f s
  | .vabs f => execVabs f s
  | .vneg f => execVneg f s
  | .vfma f => execVfma f s
  | .vfms f => execVfms f s
  | .vsqrt f => execVsqrt f s
  | .vrcp f => execVrcp f s
  | .vrsqrt f => execVrsqrt f s
  | .vexp2 f => execVexp2 f s
  | .vlog2 f => execVlog2 f s
  | .vand f => execVand f s
  | .vor f => execVor f s
  | .vxor f => execVxor f s
  | .vnot f => execVnot f s
  | .vshl f => execVshl f s
  | .vshr f => execVshr f s
  | .vsra f => execVsra f s
  | .vadds f => execVadds f s
  | .vsubs f => execVsubs f s
  | .vmulh f => execVmulh f s
  | .vbcast f => execVbcast f s
  | .vmovx f => execVmovx f s
  | .vmov f => execVmov f s
  | .viota f => execViota f s
  | .vli f => execVli f s
  | .vcmpEq f => execVcmpEq f s
  | .vcmpNe f => execVcmpNe f s
  | .vcmpLt f => execVcmpLt f s
  | .vcmpLe f => execVcmpLe f s
  | .vcmpUn f => execVcmpUn f s
  | .vcmpLtu f => execVcmpLtu f s
  | .vcmpLeu f => execVcmpLeu f s
  | .vpand f => execVpand f s
  | .vpor f => execVpor f s
  | .vpxor f => execVpxor f s
  | .vpnot f => execVpnot f s
  | .vpset f => execVpset f s
  | .vpcnt f => execVpcnt f s
  | .vpfirst f => execVpfirst f s
  | .vsel f => execVsel f s
  | .vperm f => execVperm f s
  | .vslideup f => execVslideup f s
  | .vslidedn f => execVslidedn f s
  | .vzip f => execVzip f s
  | .vunzip f => execVunzip f s
  | .vcompress f => execVcompress f s
  | .vexpand f => execVexpand f s
  | .vredsum f => execVredsum f s
  | .vredmax f => execVredmax f s
  | .vredmin f => execVredmin f s
  | .vscansum f => execVscansum f s
  | .vscanmax f => execVscanmax f s
  | .vargmax f => execVargmax f s
  | .vbitonic f => execVbitonic f s
  | .vmulL6 f => execVmulL6 f s
  | .vdotL6 f => execVdotL6 f s
  | .vrand f => execVrand f s
  | .vld f => execVld f s
  | .vst f => execVst f s
  | .vstm f => execVstm f s
  | .vgather f => execVgather f s
  | .vscatter f => execVscatter f s
  | .ld f => execLd f s
  | .st f => execSt f s
  | .ldSc f => execLdSc f s
  | .stSc f => execStSc f s
  | .vpref f => execVpref f s
  | .amoadd f => execAmoadd f s
  | .amomin f => execAmomin f s
  | .amomax f => execAmomax f s
  | .amominu f => execAmominu f s
  | .amomaxu f => execAmomaxu f s
  | .amoand f => execAmoand f s
  | .amoor f => execAmoor f s
  | .amoxor f => execAmoxor f s
  | .amoswap f => execAmoswap f s
  | .amocas f => execAmocas f s
  | .amoSc f => execAmoSc f s
  | .lda f => execLda f s
  | .stl f => execStl f s
  | .vfence f => execVfence f s
  | .cflush f => execCflush f s
  | .vamoadd f => execVamoadd f s
  | .vamomin f => execVamomin f s
  | .vamomax f => execVamomax f s
  | .vredst f => execVredst f s
  | .cldh f => execCldh f s
  | .csth f => execCsth f s
  | .cnarrow f => execCnarrow f s
  | .cget f => execCget f s
  | .cmov f => execCmov f s
  | .cclr ha => execCclr ha s
  | .binit f => execBinit f s
  | .blink f => execBlink f s
  | .barrive f => execBarrive f s
  | .bwaitp f => execBwaitp f s
  | .oclaim os => execOclaim os s
  | .orelease os => execOrelease os s
  | .oload f => execOload f s
  | .wload f => execWload f s
  | .mzero f => execMzero f s
  | .mmov f => execMmov f s
  | .mrd f => execMrd f s
  | .mwr f => execMwr f s
  | .mmaF64 f => execMmaF64 f s
  | .mmaF32 f => execMmaF32 f s
  | .mmaBf16 f => execMmaBf16 f s
  | .mmaF16 f => execMmaF16 f s
  | .mmaI8 f => execMmaI8 f s
  | .mmaI4 f => execMmaI4 f s
  | .mmaL6 f => execMmaL6 f s
  | .mmaS24 f => execMmaS24 f s
  | .mmaS14 f => execMmaS14 f s
  | .mlrset f => execMlrset f s
  | .mlrmul f => execMlrmul f s
  | .mlrdm f => execMlrdm f s
  | .mdmlr f => execMdmlr f s
  | .mlradd f => execMlradd f s
  | .mrecomp f => execMrecomp f s
  | .mdense f => execMdense f s
  | .mrank f => execMrank f s
  | .mbflyC64 f => execMbflyC64 f s
  | .mbflyC128 f => execMbflyC128 f s
  | .mbrev f => execMbrev f s
  | .mtwmulC64 f => execMtwmulC64 f s
  | .mtwmulC128 f => execMtwmulC128 f s
  | .cjob f => execCjob f s
  | .cjobv f => execCjobv f s
  | .cwpe f => execCwpe f s
  | .cquery f => execCquery f s
  | .ccancel xa => execCcancel xa s
  | .csignal f => execCsignal f s
  | .cfence => execCfence s
  | .xexpS24 f => execXexpS24 f s
  | .xexpS14 f => execXexpS14 f s
  | .xunpkL6 f => execXunpkL6 f s
  | .xunpkI4 f => execXunpkI4 f s
  | .xpackL6 f => execXpackL6 f s
  | .xpackI4 f => execXpackI4 f s
  | .xtr f => execXtr f s
  | .xcvt f => execXcvt f s
  | .xscale xs => execXscale xs s
  | .xscalei imm => execXscalei imm s
  | _ => .next s

end Sys2Proof.Machine
end

