-- ==== Sys2Proof/Machine/Issue.lean ====
section
/-! DEFINITION. One cycle of a core (R33, R36, R52, R67 to R71, R131, R289, R290, R384 to R390, R402): the boundary, due
traps, fetching, the checks of a bundle, its issue, and the events that are one part of it. -/

namespace Sys2Proof.Machine

open Host (Outcome)

/-! ### Fetch and checks 1 to 4 (R62, R63, R65 to R67, R71) -/

def bundleHead (b : Bundle) : Head := Head.ofWord b.headWord

/-- A trap of the fetch or the head, in slot B. -/
def headTrap (cause : BitVec 8) (tval : DWord) (c : Core) : Trap := mkTrap cause tval .b c

/-- The bundle that the words at an address give: at most 12 of them, R66. -/
def State.bundleAt (s : State) (n a : Nat) : Option Bundle := readBundle ((List.range 12).map (fun k => s.codeWord n (a + 4 * k)))

/-- Where the core stands: outside the arena or every segment, or in a line that control has entered and that is not a
code line or is malformed, or at a word that starts no bundle, or at a launch's entry that is no target (R64, log 33). -/
def State.lineTrap (s : State) (n : Nat) : Option Trap :=
  let c := s.core n
  let a := c.k.pc.toNat
  let ln := s.codeLine n a
  if !c.inArena a || (s.segOf c a).isNone then some (headTrap 0x05 (BitVec.ofNat 64 a) c)
  else if c.k.lineOk then none
  else if ln[0]?.getD 0 = 0 ∨ lineWellFormed ln = false then some (headTrap 0x03 (BitVec.ofNat 64 (a / 128 * 128)) c)
  else if a % 4 ≠ 0 ∨ s.maskBit n a 0 = false ∨ (c.k.launched && !s.maskBit n a 1) then some (headTrap 0x04 (BitVec.ofNat 64 a) c)
  else none

/-- Check 3: the slot words in MASK order, and two SC operations (R290). -/
def slotTrap (c : Core) : List (Slot × DWord) → Bool → Except Trap (List (Slot × Instr))
  | [], _ => .ok []
  | (sl, w) :: t, sc =>
    match decodeSlot sl w with
    | .error _ => .error (mkTrap 0x01 w sl c)
    | .ok i =>
      if sl = .vb ∧ sc ∧ Instr.isSc i then .error (mkTrap 0x01 w sl c)
      else
        match slotTrap c t (sc || (decide (sl = .va) && Instr.isSc i)) with
        | .ok l => .ok ((sl, i) :: l)
        | .error e => .error e

/-- An operation of an issue: its slot, the operation, and the stepped offset of a re-issue. -/
structure Op where
  slot : Slot
  i : Instr
  off : Option (BitVec 48)
  deriving DecidableEq, Repr

/-- The slots that keep a standing operation. -/
def sticky : List Slot := [.va, .vb, .m, .ca, .cb, .x]

def isIdle : Instr → Bool
  | .idle _ => true
  | _ => false

/-- What a sticky slot issues (R68): its placed word at the first issue, else its standing operation one step on. -/
def Core.stickyOp (c : Core) (placed : List (Slot × Instr)) (sl : Slot) : Option Op :=
  match placed.find? (fun e => decide (e.1 = sl) && c.t.issue == 0) with
  | some (_, i) => if isIdle i then none else some { slot := sl, i := i, off := none }
  | none => (c.t.stand.get sl).map (fun st => { slot := sl, i := st.step.op, off := st.step.off })

/-- The operations of the next issue in the order of R402: S, VA, VB, M, CA, CB, X, B; S and B only in the last one
(R69). -/
def Core.issueOps (c : Core) (placed : List (Slot × Instr)) (rep : Nat) : List Op :=
  let once (sl : Slot) : List Op :=
    if c.t.issue < rep then []
    else (placed.filter (fun e => decide (e.1 = sl))).map (fun e => { slot := sl, i := e.2, off := none })
  once .s ++ sticky.filterMap (c.stickyOp placed) ++ once .b

/-- Check 4: a sticky slot demands more ports than the head gives it (R71). DESIGN CHOICE (log 85): ports are the head's, so
TSLOT names slot B; R67 says only 'the slot concerned, or B for a head fault'. -/
def portTrap (c : Core) (b : Bundle) (ops : List Op) : Option Trap :=
  if ops.any (fun o => decide ((bundleHead b).ports.countP (fun p => some p == o.slot.portCode) < Instr.demand c o.i) &&
    sticky.contains o.slot) then some (headTrap 0x02 (b.headWord.setWidth 64) c) else none

/-- Checks 1 to 4 at a bundle's first issue; the operations of this issue. -/
def State.bundleOps (s : State) (n : Nat) (b : Bundle) : Except Trap (List Op) :=
  let c := s.core n
  if headLegal b.headWord = false then .error (headTrap 0x02 (b.headWord.setWidth 64) c)
  else
    match slotTrap c b.slots false with
    | .error t => .error t
    | .ok placed =>
      let ops := c.issueOps placed (bundleHead b).rep
      match (if c.t.issue = 0 then portTrap c b ops else none) with
      | some t => .error t
      | none => .ok ops

/-! ### Phase 1: stalls (R57, R204, R205, R209) -/

/-- The state in which the operations of an issue are carried out. -/
def State.openIssue (s : State) (n rep : Nat) : State :=
  { s with iss :=
    { core := n, slot := .b, off := none, next := BitVec.ofNat 48 (s.following n (s.core n).k.pc.toNat), rep := rep
      raised := none, xfer := none, pops := 0, closed := false } }

/-- Carry out one operation of an issue. -/
def State.runOp (s : State) (o : Op) : State :=
  match execOp o.i { s with iss := { s.iss with slot := o.slot, off := o.off, raised := none } } with
  | .next s' => s'
  | _ => s

/-- The handles that a job operation reads through its card, where the card can be read. -/
def State.jobHandles (s : State) (i : Instr) : List HReg :=
  let c := s.cur
  let card (f : CjF) (wpe : Bool) : List HReg :=
    let off := (s.offset i).toNat
    match s.check s.iss.core c f.h needCard off 64 with
    | .ok _ => cardHandles (s.cardAt c f.h off) wpe
    | .error _ => []
  match i with
  | .cjob f => card f false
  | .cwpe f => card f true
  | .cjobv f => cardHandles ((c.rv f.vs).setWidth 512) false
  | _ => []

def State.opUses (s : State) (o : Op) : Uses :=
  let u := Instr.uses s.cur o.off.isSome (if Instr.takesLiteral o.i then s.literal else 0) o.i
  { u with hr := u.hr ++ ({ s with iss := { s.iss with off := o.off } } : State).jobHandles o.i }

/-- A class counter would pass its maximum (R57, R402), whatever the operations' checks would find. -/
def State.countersFull (s : State) (ops : List Op) : Bool :=
  let d := Raise.sum (ops.map (fun o => Instr.raises s.cur o.i))
  let c := s.cur.c
  decide (maxSt < c.st + d.st) || decide (maxCp < c.cp + d.cp) || decide (maxTl < c.tl + d.tl) || decide (maxWl < c.wl + d.wl)

/-- An MMA over L6 elements in W56 mode is block-scaled (R106, R202, R204); `lit` is its literal word. -/
def Instr.blockScaled (c : Core) (lit : Word) : Instr → Bool
  | .mmaL6 _ => c.c.acc == .w56
  | .mmaS24 _ | .mmaS14 _ => c.c.acc == .w56 && sparseType (fld lit 0 4) == some .l6
  | _ => false

/-- A block-scaled operation is outstanding and has not started. -/
def Timing.scaledWaits (t : Timing) : Bool :=
  t.eng.any (fun e => !e.begun && (match e.res with | .scaled _ _ => true | _ => false))

/-- A block-scaled operation waits for an outstanding one that has not started (R204). -/
def State.scaledStall (s : State) (t : Timing) (o : Op) : Bool := Instr.blockScaled s.cur s.literal o.i && t.scaledWaits

/-- A class counter that banked work keeps too high for the operations (R388). -/
def State.bankedFull (s : State) (ops : List Op) (o : Op) : Bool :=
  match s.cur.bank with
  | some b =>
    let r := Instr.raises s.cur o.i
    let d := Raise.sum (ops.map (fun o => Instr.raises s.cur o.i))
    (r.tl != 0 && decide (maxTl < b.t.eng.length + d.tl)) || (r.wl != 0 && decide (maxWl < b.t.fills.length + d.wl))
  | none => false

/-- An operation would stall on banked work (R205, R388); of X operations none does (R232). -/
def State.onBanked (s : State) (ops : List Op) (o : Op) : Bool :=
  o.slot != .x && (s.cur.stallsBanked (s.opUses o) || s.bankedFull ops o ||
    (match s.cur.bank with
     | some b => s.scaledStall b.t o
     | none => false))

/-- The literal's segment is waited for, unless the address itself is at fault (R79, R80, R322). -/
def State.literalWaits (s : State) (n : Nat) (ops : List Op) : Bool :=
  ops.any (fun o => Instr.takesLiteral o.i) && !s.mpcBad (s.core n) && !s.overlayConflict (s.core n) &&
    (s.absent n (s.core n).c.mpc.toNat).isSome

/-- Code that the issue reads beside its bundle waits until it may be read (R271, log 17): the literal, and the line of a transfer's target,
`ran` being what the issue gives, or the trap of the target's checks. -/
def State.literalUnknown (s : State) (n : Nat) (ops : List Op) : Bool :=
  ops.any (fun o => Instr.takesLiteral o.i) && !s.codeKnown n (s.core n).c.mpc.toNat

def State.targetUnknown (s : State) (n : Nat) (ran : Except Trap (State × Option Trap)) : Bool :=
  match ran with
  | .ok (s', _) => s'.iss.xfer.any (fun a => !s.codeKnown n a.toNat)
  | .error t => ([0x03, 0x04, 0x05] : List (BitVec 8)).contains t.cause && !s.codeKnown n t.tval.toNat

/-! ### Phase 2: traps (R402, R429) -/

/-- Register, slot-row and granule marks that an operation reads. -/
def State.opMarks (s : State) (o : Op) : List Holder :=
  let c := s.cur
  let clean := s.setCur { c with r := { c.r with xmark := 0, hmark := 0, vmark := .replicate 64 0 } }
  (c.marks (s.opUses o)).filter (readsHolder o.i) ++
    (match (clean.runOp o).iss.raised with
     | some t => if t.cause = 0xA0 then t.zero else []
     | none => [])

/-- A second SC operation of the issue has a rank of its own (R274, R290). -/
def State.nextRank (s : State) (i : Instr) : State :=
  if Instr.isSc i && s.cur.m.scHeld.isSome then
    s.setCur { s.cur with m := { s.cur.m with scRank := s.cur.m.scHeld, scHeld := none } }
  else s

/-- The operations one after another, or the first trap. A completion trap is kept for the end of the bundle. -/
def State.runOps : List Op → State → Option Trap → Except Trap (State × Option Trap)
  | [], s, comp => .ok (s, comp)
  | o :: t, s, comp =>
    let s' := s.runOp o
    match s'.iss.raised with
    | none => State.runOps t (s'.nextRank o.i) comp
    | some tr => if tr.kind = .completion then State.runOps t s (comp.or (some tr)) else .error tr

/-- What ends the last issue: the closing action of a body whose END the bundle is (R126, R127), or the check that no body
is left by fall-through. -/
def State.closeBundle (s : State) : Except Trap State :=
  let s := { s with iss := { s.iss with slot := .b, off := none, raised := none } }
  let done (o : Outcome State Fault Refusal) : Except Trap State :=
    match o with
    | .next s' =>
      match s'.iss.raised with
      | some t => .error t
      | none => .ok s'
    | _ => .ok s
  if s.iss.closed then .ok s
  else if s.atEnd then done (closeLoop none s)
  else if s.leaks s.iss.next.toNat none then done s.structTrap
  else .ok s

/-! ### Phase 3: waits (R131, R181, R286, R290) -/

/-- Reference cycles that the window of an advance cycle may hold: ceil(16 / (16 - DIV)). -/
def windowMax (div : BitVec 4) : Nat := (16 + (16 - div.toNat) - 1) / (16 - div.toNat)

/-- The rank of an SC operation: the latest owned reference cycle of the window. -/
def State.scRankNow (s : State) (c : Core) : Option Nat :=
  ((List.range (windowMax s.dev.power.div)).map (fun d => s.wheel - d)).find? (fun w =>
    decide (c.m.sample < w) && wheelOwns c.c.wheel (w % 1024))

/-- A wait that the bundle has asked for: WAIT before its first issue, BWAITP's hold. -/
def State.opHolds (s : State) (n : Nat) (o : Op) : Bool :=
  match o.i with
  | .bwaitp f => s.barHolds n (s.core n) f
  | _ => false

/-! ### Issue -/

/-- An advance cycle of the core: counts run, and W is sampled (R290). -/
def State.tickCore (s : State) (n : Nat) : State :=
  let c := (s.core n).tick
  s.setCore n { c with m := { c.m with sample := s.wheel } }

/-- The core samples W in a cycle in which no count runs (R290). -/
def State.sampleCore (s : State) (n : Nat) : State :=
  let c := s.core n
  s.setCore n { c with m := { c.m with sample := s.wheel } }

/-- A trap is taken at this boundary; zero substitution starts its stall cycles with this one (R394). -/
def State.enterTrap (s : State) (n : Nat) (t : Trap) : State :=
  let s := { takeTrap n t s with iss := .none }
  if (s.core n).stall = 0 then s.sampleCore n else s.tickCore n

/-- The entry of a trap that a handler takes reads the handler's line (R387), where it may be read (R271, log 17). -/
def State.handlerHeld (s : State) (n : Nat) (t : Trap) : Bool :=
  let c := s.core n
  c.bank.isNone && causeClass t.cause == .t && bit c.c.tvec 0 && !s.codeKnown n (c.c.tvec.toNat / 128 * 128 + 8)

/-- R386: the trap's entry begins. Results that are written first, and the wait for the handler's line, take stall cycles. -/
def State.trapCycle (s : State) (n : Nat) (t : Trap) : State :=
  let c := s.core n
  if c.owes || s.handlerHeld n t then ({ s with iss := .none }.setCore n { c with entering := some { trap := t, waited := 1 } }).tickCore n
  else s.enterTrap n t

/-- An issue trap; under 0xA0 every marked part that the issue reads is named (R429). -/
def State.issueTrap (s : State) (n : Nat) (ops : List Op) (t : Trap) : State :=
  let t := if t.cause = 0xA0 then { t with zero := (ops.flatMap s.opMarks).dedup } else t
  s.trapCycle n t

/-- The standing operations after an issue. -/
def Core.standAfter (c old : Core) (placed : List Op) : Core :=
  placed.foldl (fun c o =>
    if sticky.contains o.slot then c.putStand o.slot (some { op := o.i, off := o.off.or (Instr.firstOff old o.i) }) else c) c

/-- Control after a bundle's last issue (R63); its segment mark acts at once (R322). -/
def State.endBundle (s : State) (n : Nat) (seg : Bool) (comp : Option Trap) : State :=
  let c := s.core n
  let a := (s.iss.xfer.getD s.iss.next).toNat
  let ok := (c.k.lineOk && decide (a / 128 = c.k.pc.toNat / 128)) || (s.iss.xfer.isSome && (s.targetFault n a).isNone)
  let s := s.setCore n { c with
    comp := c.comp.or comp, t := { c.t with issue := 0 }
    k := { c.k with pc := BitVec.ofNat 48 a, lineOk := ok, mark := if seg then some c.k.pc else none } }
  match execSegmentMark n s with
  | .next s => s
  | _ => s

/-- The issue is made (R68, R69). -/
def State.commit (s0 : State) (n : Nat) (b : Bundle) (ops : List Op) (idle : List Slot) (s : State) (comp : Option Trap) : State :=
  let c := idle.foldl (fun c sl => c.putStand sl none) ((s.core n).standAfter (s0.core n) ops)
  let c := { c with m := { c.m with waiting := false, scRank := none, scHeld := none }, k := { c.k with lineOk := true, launched := false } }
  let s := s.setCore n c
  let s := if (s0.core n).t.issue < (bundleHead b).rep then
      s.setCore n { c with t := { c.t with issue := (s0.core n).t.issue + 1 } }
    else s.endBundle n (bundleHead b).seg comp
  let s := ({ s with iss := .none }.noteBegun n).tickCore n
  if (s.core n).tretDrain.isSome && (s.core n).t.drained then tretReturn n s else s

/-- Slots whose placed word is IDLE, at the first issue. -/
def Core.idleSlots (c : Core) (b : Bundle) : List Slot :=
  if c.t.issue = 0 then (b.slots.filter (fun e => decide (decodeSlot e.1 e.2 = .ok (.idle e.1)))).map (·.1) else []

/-- The WAIT of a bundle that is about to make its first issue. -/
def Core.waitHolds (c : Core) (b : Bundle) : Bool :=
  c.t.issue == 0 && b.slots.any (fun e =>
    match decodeSlot e.1 e.2 with
    | .ok (.wait f) => !waitMet f c
    | _ => false)

/-- A memory operation: the handle it goes through, none for the scratchpad itself (R112), whether it writes, and the scope
of its release. -/
def Instr.memUse : Instr → Option (Option HReg × Bool × Option Scope)
  | .lb _ | .lh _ | .lw _ | .sld _ | .lbu _ | .lhu _ | .lwu _ => some (none, false, none)
  | .sb _ | .sh _ | .sw _ | .sd _ => some (none, true, none)
  | .vld f | .vgather f => some (f.h, false, none)
  | .vst f => some (f.h, true, none)
  | .vstm f | .vscatter f => some (f.h, true, none)
  | .ld f => some (f.h, false, none)
  | .st f => some (f.h, true, none)
  | .amoadd f | .amomin f | .amomax f | .amominu f | .amomaxu f | .amoand f | .amoor f | .amoxor f | .amoswap f
  | .amocas f => some (f.h, true, if ordReleases f.ord then some f.scope else none)
  | .vamoadd f | .vamomin f | .vamomax f | .vredst f => some (f.h, true, if ordReleases f.ord then some f.scope else none)
  | .lda f => some (f.h, false, none)
  | .stl f => some (f.h, true, some f.scope)
  | .cldh f => some (f.hb, false, none)
  | .csth f => some (f.hb, true, none)
  | _ => none

/-- An access of the core's scratchpad is made at issue, so it waits there for what orders it: an acquire or a fence before
it, its own release, an owner entry that is changing (R179, R265, R266, R347, log 88). A prefetch is made at issue too, and is held while
an owner entry is changing (R347). -/
def State.spadHeld (s : State) (o : Op) : Bool :=
  let n := s.iss.core
  match Instr.memUse o.i with
  | some (h, wr, rel) =>
    h.all (fun h => s.cur.rhtag h && capSpace (s.cur.rh h) == spSpad) && !s.ready n s.cur.m.nextId [(mkey .spad n 0, 1)] wr rel
  | none =>
    match o.i with
    | .vpref f =>
      let cap := s.cur.rh f.h
      let off := (({ s with iss := { s.iss with off := o.off } } : State).offset o.i).toNat
      s.cur.rhtag f.h && capSpace cap == spGlob && s.ownerOwed (s.place n cap (capBase cap + off))
    | _ => false

/-- The fence that an operation of the issue is stands before the accesses of the slots behind it (R115, R175). -/
def State.withFence (s : State) (o : Op) : State :=
  match o.i with
  | .fence _ => s.setCur (s.cur.fenceMark s.iss.core .acqRel .package)
  | .vfence f => s.setCur (s.cur.fenceMark s.iss.core f.ord f.scope)
  | _ => s

/-- A scratchpad access of the issue waits for what orders it, a fence in a slot before its own among it. -/
def State.spadWaits (s : State) : List Op → Bool
  | [] => false
  | o :: t => s.spadHeld o || (s.withFence o).spadWaits t

/-- Whether an operation stalls its bundle; no X operation waits for a pending result (R232, R415), in place of what R111 and R225 say of any
slot (DEDUCED, log 96). No operation locks a vector register (R200), so an X operation meets no lock. -/
def State.stallsOp (s : State) (o : Op) : Bool :=
  o.slot != .x && (s.cur.stalls (s.opUses o) || s.scaledStall s.cur.t o)

/-- Phases 1 to 3 of R402, and the issue. Where it holds two SC operations, a placed and a standing one, it waits for a position for
each: the first is held until the window has another, and is the rank of the earlier operation (R274, R290, log 60). -/
def State.tryIssue (s : State) (n : Nat) (b : Bundle) (ops : List Op) : State :=
  let c := s.core n
  let s0 := s.openIssue n (bundleHead b).rep
  if ops.any s0.stallsOp || s0.spadWaits ops || s.literalUnknown n ops then s.tickCore n
  else if s.literalWaits n ops then
    match s.fetchFault n c.c.mpc.toNat .m with
    | some t => s.trapCycle n t
    | none => (s.fetchSeg n c.c.mpc.toNat).1.tickCore n
  else
    match ops.find? (s0.onBanked ops) with
    | some o => s.issueTrap n ops (mkTrap 0x66 0 o.slot c)
    | none =>
      if s0.countersFull ops then s.tickCore n else
      let rank := s.scRankNow c
      let two := decide (1 < ops.countP (fun o => Instr.isSc o.i))
      let s1 := s0.setCore n { c with m := { c.m with
        scRank := if two then c.m.scHeld else rank, scHeld := if two then rank else none } }
      let last := decide ((bundleHead b).rep ≤ c.t.issue)
      let ran : Except Trap (State × Option Trap) := match State.runOps ops s1 none with
        | .error t => .error t
        | .ok (s2, comp) =>
          match (if last then s2.closeBundle else .ok s2) with
          | .error t => .error t
          | .ok s3 => .ok (s3, comp)
      if s.targetUnknown n ran then s.tickCore n else
      match ran with
      | .error t => { s0.issueTrap n ops t with iss := .none }
      | .ok (s3, comp) =>
        if c.waitHolds b || (ops.any (fun o => Instr.isSc o.i) && rank.isNone) then s.tickCore n
        else if ops.any (s.opHolds n) then
          (s.setCore n { c with m := { c.m with waiting := true } }).tickCore n
        else if two ∧ c.m.scHeld = none then (s.setCore n { c with m := { c.m with scHeld := rank } }).tickCore n
        else s.commit n b ops (c.idleSlots b) s3 comp

/-- Fetch the bundle at the pc, where its code may be read (R271), and make its next issue. -/
def State.issueCycle (s : State) (n : Nat) : State :=
  let c := s.core n
  if !s.codeKnown n c.k.pc.toNat then s.tickCore n else
  match s.fetchFault n c.k.pc.toNat .b, s.fetchSeg n c.k.pc.toNat with
  | some t, _ => s.trapCycle n t
  | none, (s', true) => s'.tickCore n
  | none, (_, false) =>
    match s.lineTrap n with
    | some t => s.trapCycle n t
    | none =>
      match s.bundleAt n c.k.pc.toNat with
      | none => s.trapCycle n (headTrap 0x03 (BitVec.ofNat 64 (c.k.pc.toNat / 128 * 128)) c)
      | some b =>
        match s.bundleOps n b with
        | .error t => s.trapCycle n t
        | .ok ops => s.tryIssue n b ops

/-! ### Due traps (R384, R385, R390) -/

/-- R385: the due trap is taken; with none, nothing happens. -/
def State.takeDue (s : State) (n : Nat) : Option State :=
  (s.core n).nextTrap.map (fun (t, c) => (s.setCore n c).trapCycle n t)

/-- The core has a task whose boundary can be reached. -/
def Core.atWork (c : Core) : Bool := c.task.isSome && (c.mode == .running || c.mode == .halting || c.mode == .saving) && !c.held

/-- R384, R386: the entry of the trap that is due at core n's boundary. -/
def execTrapEntry (n : Nat) (s : State) : Outcome State Fault Refusal :=
  if !(s.core n).atWork || (s.core n).frozen then .next s else .next ((s.takeDue n).getD s)

/-- R389: the handler has drained and the bank comes back. -/
def execTretResume (n : Nat) (s : State) : Outcome State Fault Refusal :=
  let c := s.core n
  if c.atWork && c.mode == .running && c.tretDrain.isSome && c.t.drained then .next (tretReturn n s) else .next s

/-! ### The cycle -/

/-- The halting task drains; once the handler's state has drained the banked state does (R410). -/
def State.haltCycle (s : State) (n : Nat) : State :=
  let c := s.core n
  match c.bank with
  | some b => if c.t.quiet then (s.setCore n { c with bank := none, t := { b.t with stand := .none } }).tickCore n else s.tickCore n
  | none => s.tickCore n

/-- The drain of TRET has ended at this boundary, whose cycle is the first of the return's delay (R389). -/
def State.resumeCycle (s : State) (n : Nat) : State :=
  let s := tretReturn n s
  (s.setCore n { s.core n with delay := 3 }).sampleCore n

/-- A running core at a settled boundary with no trap due. The wait at SSTEP is that of the code whose state is not
banked. -/
def State.runCycle (s : State) (n : Nat) : State :=
  let c := s.core n
  if c.tretDrain.isSome then (if c.t.drained then s.resumeCycle n else s.tickCore n)
  else if 0 < c.stall ∨ (c.sstep ∧ c.bank.isNone) ∨ c.m.bar ≠ [] then s.tickCore n
  else s.issueCycle n

/-- Cycles that the results' writing took count to the four before the handler's first bundle, or to the stall of R394. -/
def Core.afterEntry (c : Core) (waited : Nat) : Core := { c with delay := c.delay - waited, stall := c.stall - waited }

/-- The first cycle after an entry that waited for results. -/
def State.firstCycle (s : State) (n : Nat) : State :=
  if 0 < (s.core n).stall then s.tickCore n
  else if (s.core n).delay == 0 && (s.core n).task.isSome && (s.core n).mode == .running then s.runCycle n
  else s.sampleCore n

/-- R386: the entry that has begun goes on. Once its results are written and the handler's line may be read the trap is taken. -/
def State.entryCycle (s : State) (n : Nat) (e : Entry) : State :=
  let c := s.core n
  if c.owes || s.handlerHeld n e.trap then (s.setCore n { c with entering := some { e with waited := e.waited + 1 } }).tickCore n
  else
    let s1 : State := { takeTrap n e.trap (s.setCore n { c with entering := none }) with iss := .none }
    (s1.setCore n ((s1.core n).afterEntry e.waited)).firstCycle n

/-- The boundary: results that are due, then the due trap, and else the cycle. -/
def State.boundary (s : State) (n : Nat) : State :=
  if (s.core n).frozen then s
  else
    let s := s.settle n
    match (s.core n).entering with
    | some e => s.entryCycle n e
    | none =>
      match s.takeDue n with
      | some s' => s'
      | none => if (s.core n).mode = .halting then s.haltCycle n else s.runCycle n

/-- A core that is being saved: results that the record must hold are written first, in stall cycles (R111, R141, R169). -/
def State.saveCycle (s : State) (n : Nat) : State :=
  if (s.core n).frozen then s
  else
    let s := s.settle n
    match (s.core n).entering with
    | some e => s.entryCycle n e
    | none => (s.takeDue n).getD (if (s.core n).owes then s.tickCore n else s)

/-- Entry and return delays run down, and the first bundle issues in the cycle that ends them (R386, R389). -/
def State.delayCycle (s : State) (n : Nat) : State :=
  let c := s.core n
  if 1 < c.delay then (s.setCore n { c with delay := c.delay - 1 }).sampleCore n
  else (s.setCore n { c with delay := 0 }).boundary n

/-- One cycle of core n. A pre-emption that waits takes this boundary. -/
def State.coreCycle (s : State) (n : Nat) : State :=
  let c := s.core n
  if !c.atWork then s
  else if c.mode = .saving then s.saveCycle n
  else
    let s := if s.stopsHere n then s.takePreempt n else s
    let c := s.core n
    if c.mode = .saving then s.saveCycle n
    else if c.deferred.any Trap.contained ∧ c.entering.isNone ∧ (c.delay ≠ 0 ∨ c.bank.isSome ∨ c.frozen) then (s.takeDue n).getD s
    else if 0 < c.delay then s.delayCycle n
    else s.boundary n

/-- R56, R69: a further issue of the current bundle. -/
def execRepeatIssue (n : Nat) (s : State) : Outcome State Fault Refusal :=
  if (s.core n).t.issue = 0 then .next s else .next (s.coreCycle n)

/-- The next issue of core n carries an SC operation. -/
def State.scNext (s : State) (n : Nat) : Bool :=
  match s.bundleAt n (s.core n).k.pc.toNat with
  | none => false
  | some b =>
    match s.bundleOps n b with
    | .ok ops => ops.any (fun o => Instr.isSc o.i)
    | .error _ => false

/-- R290: an SC operation issues in a cycle whose window holds an owned position. -/
def execScWheelIssue (n : Nat) (s : State) : Outcome State Fault Refusal :=
  if s.scNext n && (s.scRankNow (s.core n)).isSome then .next (s.coreCycle n) else .next s

end Sys2Proof.Machine
end

