-- ==== Sys2Proof/Machine/MlDsa.lean ====
section
/-! DEFINITION. ML-DSA-87 (FIPS 204) over byte strings, as R5 names it: key generation, signature and
verification. A polynomial is the list of its 256 coefficients, each below q. -/

namespace Sys2Proof.Machine.MlDsa

abbrev Poly := List Nat

def q : Nat := 8380417
/-- The 512th root of unity of the transform. -/
def zeta : Nat := 1753
def rows : Nat := 8
def cols : Nat := 7
def tau : Nat := 60
def beta : Nat := 120
def omega : Nat := 75
/-- The ranges of the mask and of the low part. -/
def gamma1 : Nat := 2 ^ 19
def gamma2 : Nat := (q - 1) / 32
/-- Bits that the public key drops. -/
def dropped : Nat := 13

/-! ### Polynomials -/

def sub (a b : Nat) : Nat := (a + (q - b % q)) % q
def polyAdd (a b : Poly) : Poly := List.zipWith (fun x y => (x + y) % q) a b
def polySub (a b : Poly) : Poly := List.zipWith sub a b
def polyMul (a b : Poly) : Poly := List.zipWith (fun x y => x * y % q) a b

/-- The representative between -q/2 and q/2. -/
def centred (a : Nat) : Int := if a ≤ (q - 1) / 2 then a else (a : Int) - q
def ofInt (a : Int) : Nat := (a % q).toNat

/-- No coefficient reaches a bound in magnitude. -/
def below (b : Nat) (p : Poly) : Bool := p.all (fun a => decide ((centred a).natAbs < b))

def powMod (b e : Nat) : Nat :=
  ((List.range 24).foldl (fun (acc, p) i => (if e.testBit i then acc * p % q else acc, p * p % q)) (1, b)).1

/-- Value of a polynomial at a point. -/
def evalAt (p : Poly) (x : Nat) : Nat := p.foldr (fun a acc => (acc * x + a) % q) 0

def bitRev8 (n : Nat) : Nat := (List.range 8).foldl (fun r i => 2 * r + n / 2 ^ i % 2) 0

/-- The values at the odd powers of the root, in the standard's order. -/
def ntt (p : Poly) : Poly := (List.range 256).map (fun j => evalAt p (powMod zeta (2 * bitRev8 j + 1)))

/-- The polynomial with those values. -/
def nttInv (v : Poly) : Poly :=
  let nat := (List.range 256).map (fun e => v.getD (bitRev8 e) 0)
  let scale := powMod 256 (q - 2)
  (List.range 256).map (fun i =>
    evalAt nat (powMod zeta ((1024 - 2 * i) % 512)) * powMod zeta (512 - i) % q * scale % q)

/-- A matrix of transforms times a vector of them. -/
def matVec (a : List (List Poly)) (v : List Poly) : List Poly :=
  a.map (fun r => (List.zipWith polyMul r v).foldl polyAdd (List.replicate 256 0))

/-! ### Rounding -/

def modPm (r m : Nat) : Int := if 2 * (r % m) ≤ m then (r % m : Nat) else ((r % m : Nat) : Int) - m

def power2Round (r : Nat) : Nat × Int :=
  let r0 := modPm r (2 ^ dropped)
  (((r : Int) - r0).toNat / 2 ^ dropped, r0)

/-- High and low part of a coefficient. -/
def decompose (r : Nat) : Nat × Int :=
  let r0 := modPm r (2 * gamma2)
  if (r : Int) - r0 = q - 1 then (0, r0 - 1) else (((r : Int) - r0).toNat / (2 * gamma2), r0)

def highBits (p : Poly) : List Nat := p.map (fun r => (decompose r).1)
def lowBits (p : Poly) : Poly := p.map (fun r => ofInt (decompose r).2)

def makeHint (z r : Nat) : Bool := (decompose r).1 != (decompose ((r + z) % q)).1

def useHint (h : Bool) (r : Nat) : Nat :=
  let (r1, r0) := decompose r
  if !h then r1 else if 0 < r0 then (r1 + 1) % 16 else (r1 + 15) % 16

/-! ### Byte strings -/

/-- Fields of w bits, one after another from bit 0 of the first byte on. -/
def pack (w : Nat) (l : List Nat) : List Byte := leBytes (l.length * w / 8) (packNat w l)
def unpack (w n : Nat) (b : List Byte) : List Nat :=
  let v := leNat b
  (List.range n).map (fun i => v / 2 ^ (w * i) % 2 ^ w)

/-- Coefficients as their distance below `top`. -/
def packBelow (w top : Nat) (p : Poly) : List Byte := pack w (p.map (fun a => sub top a))
def unpackBelow (w top : Nat) (b : List Byte) : Poly := (unpack w 256 b).map (sub top)

/-- The places of the ones of each polynomial, then where each polynomial's places end. -/
def packHint (h : List (List Bool)) : List Byte :=
  let places := h.map (fun p => (List.range 256).filter (fun j => p.getD j false))
  let all := places.flatten
  let ends := (List.range rows).map (fun i => ((places.take (i + 1)).map List.length).sum)
  (all ++ List.replicate (omega - all.length) 0 ++ ends).map (BitVec.ofNat 8)

/-- None where the places do not rise or the rest is not zero. -/
def unpackHint (b : List Byte) : Option (List (List Bool)) :=
  let v := b.map BitVec.toNat
  let ends := 0 :: v.drop omega
  let part (i : Nat) : List Nat := (v.take (ends.getD (i + 1) 0)).drop (ends.getD i 0)
  let rising (l : List Nat) : Bool := (l.zip (l.drop 1)).all (fun (a, c) => decide (a < c))
  if (List.range rows).all (fun i => decide (ends.getD i 0 ≤ ends.getD (i + 1) 0) && decide (ends.getD (i + 1) 0 ≤ omega) && rising (part i)) &&
      ((v.take omega).drop (ends.getD rows 0)).all (· == 0) then
    some ((List.range rows).map (fun i => (List.range 256).map (part i).contains))
  else none

/-! ### Expansion -/

def shake128 (m : List Byte) (n : Nat) : List Byte := sponge 168 0x1F m n
def shake256 (m : List Byte) (n : Nat) : List Byte := sponge 136 0x1F m n

/-- Bytes three by three, 23 bits each, those below q: six blocks hold more tries than the standard's limit. -/
def rejNtt (seed : List Byte) : Poly :=
  let b := shake128 seed 1008
  ((unpack 24 336 b).map (· % 2 ^ 23)).filter (fun z => decide (z < q)) |>.take 256

/-- Half bytes below 15 stand for 2 to -2. -/
def rejShort (seed : List Byte) : Poly :=
  ((unpack 4 1088 (shake256 seed 544)).filter (fun z => decide (z < 15))).take 256 |>.map (fun z => sub 2 (z % 5))

def expandA (rho : List Byte) : List (List Poly) :=
  (List.range rows).map (fun r => (List.range cols).map (fun s => rejNtt (rho ++ [BitVec.ofNat 8 s, BitVec.ofNat 8 r])))

def expandMask (seed : List Byte) (k : Nat) : List Poly :=
  (List.range cols).map (fun r => unpackBelow 20 gamma1 (shake256 (seed ++ leBytes 2 (k + r)) 640))

/-- The challenge: 60 coefficients 1 or -1. -/
def sampleInBall (seed : List Byte) : Poly :=
  let b := (shake256 seed 136).map BitVec.toNat
  let signs := leNat ((shake256 seed 136).take 8)
  ((List.range tau).foldl (fun (c, b) t =>
    let i := 256 - tau + t
    let b := b.dropWhile (fun j => decide (i < j))
    let j := b.headD 0
    (((c : Poly).set i (c.getD j 0)).set j (if signs.testBit t then q - 1 else 1), b.drop 1))
    (List.replicate 256 0, b.drop 8)).1

/-! ### Keys, signatures -/

/-- What a seed of 32 bytes expands to: the public key and the private key's parts. -/
structure Secret where
  rho : List Byte
  key : List Byte
  tr : List Byte
  s1 : List Poly
  s2 : List Poly
  t0 : List Poly
  deriving DecidableEq, Repr

def keyGen (seed : List Byte) : List Byte × Secret :=
  let h := shake256 (seed ++ [BitVec.ofNat 8 rows, BitVec.ofNat 8 cols]) 128
  let rho := h.take 32
  let short (r : Nat) : Poly := rejShort ((h.drop 32).take 64 ++ leBytes 2 r)
  let s1 := (List.range cols).map short
  let s2 := (List.range rows).map (fun r => short (cols + r))
  let t := List.zipWith polyAdd ((matVec (expandA rho) (s1.map ntt)).map nttInv) s2
  let pk := rho ++ (t.map (fun p => pack 10 (p.map (fun r => (power2Round r).1)))).flatten
  (pk, { rho := rho, key := h.drop 96, tr := shake256 pk 64, s1 := s1, s2 := s2
         t0 := t.map (fun p => p.map (fun r => ofInt (power2Round r).2)) })

/-- The message with an empty context string before it. -/
def framed (msg : List Byte) : List Byte := 0 :: 0 :: msg

def commit (mu : List Byte) (w1 : List (List Nat)) : List Byte := shake256 (mu ++ (w1.map (pack 4)).flatten) 64

/-- One try of a signature from the mask counter `k`; none where the bounds reject it. -/
def tryAt (sk : Secret) (a : List (List Poly)) (mu seed : List Byte) (k : Nat) : Option (List Byte) :=
  let y := expandMask seed k
  let w := (matVec a (y.map ntt)).map nttInv
  let cs := commit mu (w.map highBits)
  let c := ntt (sampleInBall cs)
  let by_ (v : List Poly) : List Poly := v.map (fun p => nttInv (polyMul c (ntt p)))
  let z := List.zipWith polyAdd y (by_ sk.s1)
  let r := List.zipWith polySub w (by_ sk.s2)
  let ct0 := by_ sk.t0
  let h := List.zipWith (fun r t => List.zipWith (fun r t => makeHint (sub 0 t) ((r + t) % q)) r t) r ct0
  if z.all (below (gamma1 - beta)) && r.all (fun p => below (gamma2 - beta) (lowBits p)) && ct0.all (below gamma2) &&
      decide ((h.map (fun p => p.countP id)).sum ≤ omega) then
    some (cs ++ (z.map (packBelow 20 gamma1)).flatten ++ packHint h)
  else none

/-- The first try that stands, of as many as the standard asks for at least. -/
def trySign (sk : Secret) (a : List (List Poly)) (mu seed : List Byte) : Nat → Nat → List Byte
  | 0, _ => []
  | n + 1, k => match tryAt sk a mu seed k with
    | some s => s
    | none => trySign sk a mu seed n (k + cols)

/-- The signature of a message with 32 random bytes; zeros make the deterministic one. -/
def sign (sk : Secret) (rnd msg : List Byte) : List Byte :=
  let mu := shake256 (sk.tr ++ framed msg) 64
  trySign sk (expandA sk.rho) mu (shake256 (sk.key ++ rnd ++ mu) 64) 814 0

/-- The signature of a message verifies under a public key. -/
def verify (pk msg sig : List Byte) : Bool :=
  if pk.length ≠ 2592 ∨ sig.length ≠ 4627 then false
  else
    match unpackHint (sig.drop 4544) with
    | none => false
    | some h =>
      let cs := sig.take 64
      let z := (List.range cols).map (fun i => unpackBelow 20 gamma1 ((sig.drop (64 + 640 * i)).take 640))
      let t1 := (List.range rows).map (fun i => (unpack 10 256 ((pk.drop (32 + 320 * i)).take 320)).map (· * 2 ^ dropped))
      let c := ntt (sampleInBall cs)
      let az := matVec (expandA (pk.take 32)) (z.map ntt)
      let w := List.zipWith (fun a t => nttInv (polySub a (polyMul c (ntt t)))) az t1
      let mu := shake256 (shake256 pk 64 ++ framed msg) 64
      let w1 := List.zipWith (fun h w => List.zipWith useHint h w) h w
      z.all (below (gamma1 - beta)) && cs == commit mu w1

end Sys2Proof.Machine.MlDsa

namespace Sys2Proof.Config

open Sys2Proof.Machine

/-- A signature under the package's identity key (R359, R360). -/
def identitySign (msg : List Byte) : Nat := leNat (MlDsa.sign (MlDsa.keyGen identitySeed).2 (signRandom msg) msg)

/-- The check of the boot ROM: the image's signature, over its digest, verifies under the key in the fuses (R379, log 32). -/
def imageSigned (i : Image) : Bool := MlDsa.verify fusedKey (leBytes 64 i.digest.toNat) i.signature

end Sys2Proof.Config
end

