-- ==== Sys2Proof/Machine/Way.lean ====
section
/-! DEFINITION. The partition of a cluster's slice between cache and CLUS (R255 to R259). -/

namespace Sys2Proof.Machine

open Host (Outcome)

def State.setWayp (s : State) (clu : Nat) (w : Wayp) : State :=
  s.setMs { s.dev.ms with wayp := insertAt s.dev.ms.wayp clu w }

/-- WAYP as read (R255). -/
def Wayp.reg (w : Wayp) : DWord :=
  BitVec.ofNat 64 ((if w.busy then 2 ^ 31 else 0) + w.cur * 2 ^ 24 + w.req * 2 ^ 16 + (if w.err then 2 ^ 8 else 0))

/-- A write of WAYP: ERR is write-one-to-clear; REQ is ignored and sets ERR while a change is in progress. -/
def State.writeWayp (s : State) (clu : Nat) (v : DWord) : State :=
  let w := s.wayp clu
  let err := w.err && !bit v 8
  let req := min 16 (fld v 16 5).toNat
  s.setWayp clu (if w.busy then { w with err := true } else { w with err := err, req := req, busy := req != w.cur })

/-- R256 -/
def execWaypWrite (clu : Nat) (v : DWord) (s : State) : Outcome State Fault Refusal :=
  if clu < 96 then .next (s.writeWayp clu v) else .next s

/-- CUR after a way has changed; BUSY clears when it equals REQ (R259). -/
def Wayp.now (w : Wayp) (cur : Nat) : Wayp := { w with cur := cur, busy := cur != w.req }

/-- The lines of a slice and their L1 copies go, written back before (R253, R257, log 12). -/
def State.emptySlice (s : State) (clu : Nat) : State :=
  let s := s.clean (fun c _ => c == clu)
  let s := s.setMs { s.dev.ms with lines := s.dev.ms.lines.filter (fun e => e.1 != clu) }
  { s with cores := s.cores.map (fun (n, c) => if clusterOf n = clu then (n, { c with m := { c.m with l1 := [] } }) else (n, c)) }

/-- R257: the next way is written back, invalidated and zeroed, and CLUS grows by it. -/
def execWaySurrender (clu : Nat) (s : State) : Outcome State Fault Refusal :=
  let w := s.wayp clu
  if w.busy && decide (w.cur < w.req) then
    .next (((s.emptySlice clu).scrub .clus clu (w.cur * 2 ^ 20) (2 ^ 20)).setWayp clu (w.now (w.cur + 1)))
  else .next s

/-- An access that has issued reaches the way that CLUS offset `lo` begins. -/
def State.wayInUse (s : State) (clu lo : Nat) : Bool :=
  s.cores.any (fun (n, c) => clusterOf n == clu &&
    (c.m.accs.any (fun a => capSpace a.cap == spClus && (s.pieces n a).any (fun p => decide (mkey .clus clu lo < p.1 + p.2))) ||
      c.landings.any (fun l => capSpace l.cap == spClus && !l.sampled && l.srcs.any (fun e => decide (lo < e.2.1 + e.2.2)))))

/-- R258: the next way goes back to the cache once no access reaches it. -/
def execWayReturn (clu : Nat) (s : State) : Outcome State Fault Refusal :=
  let w := s.wayp clu
  let lo := (w.cur - 1) * 2 ^ 20
  if w.busy && decide (w.req < w.cur) && !s.wayInUse clu lo then
    .next ((s.scrub .clus clu lo (2 ^ 20)).setWayp clu (w.now (w.cur - 1)))
  else .next s

end Sys2Proof.Machine
end

