-- ==== Sys2Proof/Machine/Protect.lean ====
section
/-! DEFINITION. Protected contexts (R342 to R360, R456): owner entries, the SPDM responder, the context commands, teardown
and the Louver. -/

namespace Sys2Proof.Machine

open Host (Outcome)

/-- The device answers. -/
def State.answer (s : State) (r : Reply) : State := { s with dev := { s.dev with replies := s.dev.replies ++ [r] } }

/-- The SPDM responder answers on what carried the request (R382). -/
def State.replyOn (s : State) (via : Carrier) (r : SpdmReply) : State := s.answer (.spdm via r)
def State.reply (s : State) (r : SpdmReply) : State := s.replyOn s.dev.prot.spdm.via r

/-- How far a die has booted. -/
def State.bootOf (s : State) (die : Nat) : Boot := lookupD .rehash s.dev.boot die

/-- The Uberakel of die 0 runs: the die is live and its image has passed the check (R379). -/
def State.serves (s : State) : Bool :=
  !s.dev.lost.contains 0 && (s.bootOf 0 == .rehash || s.bootOf 0 == .ready)

/-! ### Owner entries (R344, R347) -/

/-- The entry of a resource; none for a number that the package does not have. -/
def Resource.key : Resource → Option Nat
  | .core n => if n < 768 then some (ownerCore n) else none
  | .cluster n => if n < 96 then some (ownerClus n) else none
  | .page n => if n < 2 ^ 18 then some n else none

/-- The die whose Wicket holds an entry. -/
def ownerDie (k : Nat) : Nat :=
  if k < 2 ^ 20 then k / 2 ^ 15 else if k < 2 ^ 21 then (k - 2 ^ 20) / 96 else (k - 2 ^ 21) / 12

/-- Write an entry at once. -/
def State.setOwner (s : State) (k : Nat) (o : Owner) : State :=
  { s with dev := { s.dev with owners :=
    if o.owner = 0 ∧ o.scrub = false then s.dev.owners.filter (·.1 != k) else insertAt s.dev.owners k o } }

/-- The page of GLOB that a message works on. -/
def MsgBody.page : MsgBody → List Nat
  | .write _ _ _ _ bytes _ _ _ => bytes.map (fun b => ownerPage (keyOff b.1))
  | .reduce _ _ _ _ _ els => els.map (fun e => ownerPage (keyOff e.1))
  | .signal _ _ key _ _ => [ownerPage (keyOff key)]
  | _ => []

/-- Accesses that have passed the check under the old entry are still on their way. -/
def State.entryBusy (s : State) (k : Nat) : Bool :=
  s.dev.ms.msgs.any (fun m => m.body.page.contains k ||
    (match m.body with
     | .atomic c a _ => ((s.core c).findAcc a).any (fun acc => (s.pieces c acc).any (fun p => ownerKey p.1 == some k))
     | _ => false))

/-- A new entry that waits (R347); a later one for the same resource takes its place. -/
def State.oweOwner (s : State) (k : Nat) (o : Owner) : State :=
  s.setProt { s.dev.prot with owed := s.dev.prot.owed.filter (·.1 != k) ++ [(k, o)] }

/-! ### Key slots (R349) -/

/-- Zeroise a slot: it stays its context's until the teardown ends (R356, R457). -/
def State.zeroiseKey (s : State) (k : Nat) : State :=
  { s with dev := { s.dev with keys := s.dev.keys.map (fun e =>
    (e.1, if e.1 = k then { e.2 with kind := .zeroised, key := 0, live := false } else e.2)) } }

/-- The lowest slot that Uberakel may allot. -/
def State.freeKeySlot (s : State) : Option Nat :=
  (List.range 4096).find? (fun k => decide (8 ≤ k % 512) && !s.dev.keys.any (·.1 == k))

/-- Key a slot with the next key. -/
def State.keyIn (s : State) (k : Nat) (kind : KeyKind) (link : Bool) (owner : BitVec 16) (peer : BitVec 10) : State :=
  { s with dev := { s.dev with
    keys := insertAt s.dev.keys k { kind := kind, link := link, owner := owner, key := s.dev.prot.nextKey, peer := peer, live := true }
    prot := { s.dev.prot with nextKey := s.dev.prot.nextKey + 1 } } }

/-! ### The SPDM responder (R359, R360; the order of requests is that of SPDM 1.3, log 36) -/

def Spdm.reset : Spdm := { version := false, negotiated := false, handshake := false, session := false, number := 0, keyNo := 0, via := .doe }

def State.setSpdm (s : State) (p : Spdm) : State := s.setProt { s.dev.prot with spdm := p }

/-- A request reaches the responder: over DOE the host link has to be up (R359, R382). -/
def State.hears (s : State) : Bool := s.serves && (s.dev.prot.spdm.via != .doe || s.dev.link.hostUp)

/-- A request under a condition on the responder. -/
def State.spdmStep (s : State) (ok : Bool) (f : State → State) : State :=
  if !s.hears then s else if ok then f s else s.reply .refused

def execGetVersion (s : State) : Outcome State Fault Refusal :=
  .next (s.spdmStep true (fun s => (s.setSpdm { s.dev.prot.spdm with version := true }).reply .version))

def execGetCapabilities (s : State) : Outcome State Fault Refusal :=
  .next (s.spdmStep s.dev.prot.spdm.version (fun s => s.reply .capabilities))

def execNegotiateAlgorithms (s : State) : Outcome State Fault Refusal :=
  .next (s.spdmStep s.dev.prot.spdm.version (fun s =>
    (s.setSpdm { s.dev.prot.spdm with negotiated := true }).reply .algorithms))

def execGetDigests (s : State) : Outcome State Fault Refusal :=
  .next (s.spdmStep s.dev.prot.spdm.negotiated (fun s => s.reply (.digests Config.certDigest)))

def execGetCertificate (s : State) : Outcome State Fault Refusal :=
  .next (s.spdmStep s.dev.prot.spdm.negotiated (fun s => s.reply (.certificate Config.certDigest)))

/-- The signature of a challenge covers the chain's digest and the nonce (log 32). -/
def execChallenge (nonce : BitVec 256) (s : State) : Outcome State Fault Refusal :=
  .next (s.spdmStep s.dev.prot.spdm.negotiated (fun s =>
    s.reply (.challenge (Config.identitySign (leBytes 64 Config.certDigest.toNat ++ leBytes 32 nonce.toNat)))))

/-- Digest of the image that the flash holds. -/
def Flash.digest : Flash → BitVec 512
  | .manufacture => Config.flashDigest
  | .image i => i.digest
  | .torn => 0

/-- The digest that a region reports: zero while it is free or measuring. DESIGN CHOICE (log 94): an open region reports the last measurement
taken of it, and zero where none has been taken since it was opened from free. -/
def State.regionDigest (s : State) (die r : Nat) : BitVec 512 :=
  let st := regionState (s.region die r)
  if st = 0 ∨ st = 3 then 0 else lookupD 0 s.dev.wt.digests (64 * die + r)

/-- The measurement blocks (R360). -/
def State.measurement (s : State) (i : Nat) : Option (List Byte) :=
  if i = 1 then some (leBytes 64 Config.romDigest.toNat)
  else if i = 2 then some (leBytes 64 s.dev.flash.digest.toNat)
  else if i = 3 then
    some (leBytes 64 (sha3 (Config.strapsFuses ++ (List.range 8).flatMap (fun d => leBytes 8 (s.wpelim d).toNat))).toNat)
  else if 0x10 ≤ i ∧ i ≤ 0x17 then
    some ((List.range 64).flatMap (fun r =>
      leBytes 16 (s.region (i - 0x10) r).toNat ++ leBytes 64 (s.regionDigest (i - 0x10) r).toNat))
  else none

def measurementIndices : List Nat := [1, 2, 3, 0x10, 0x11, 0x12, 0x13, 0x14, 0x15, 0x16, 0x17]

/-- Index 0 asks for the number of blocks, 0xFF for all of them (log 36). -/
def execGetMeasurements (i : Nat) (s : State) : Outcome State Fault Refusal :=
  .next (s.spdmStep s.dev.prot.spdm.negotiated (fun s =>
    if i = 0 then s.reply (.measurementCount measurementIndices.length)
    else if i = 0xFF then
      s.reply (.measurements (measurementIndices.filterMap (fun k => (s.measurement k).map (fun b => (k, b)))))
    else
      match s.measurement i with
      | some b => s.reply (.measurements [(i, b)])
      | none => s.reply .refused))

/-- New session keys. -/
def State.freshSessionKey (s : State) : State :=
  s.setProt { s.dev.prot with spdm := { s.dev.prot.spdm with keyNo := s.dev.prot.nextKey }, nextKey := s.dev.prot.nextKey + 1 }

def execKeyExchange (s : State) : Outcome State Fault Refusal :=
  .next (s.spdmStep s.dev.prot.spdm.negotiated (fun s =>
    let p := s.dev.prot.spdm
    let s := (s.setSpdm { p with handshake := true, number := p.number + 1 }).freshSessionKey
    s.reply (.session s.dev.prot.spdm.number)))

def execFinish (s : State) : Outcome State Fault Refusal :=
  .next (s.spdmStep s.dev.prot.spdm.handshake (fun s =>
    (s.setSpdm { s.dev.prot.spdm with handshake := false, session := true }).reply .finished))

def execKeyUpdate (s : State) : Outcome State Fault Refusal :=
  .next (s.spdmStep s.dev.prot.spdm.session (fun s => s.freshSessionKey.reply .keyUpdated))

def execEndSession (s : State) : Outcome State Fault Refusal :=
  .next (s.spdmStep s.dev.prot.spdm.session (fun s =>
    (s.setSpdm { s.dev.prot.spdm with session := false }).reply .ended))

/-- IDE streams of a kind that the engine supports: one link stream and eight selective ones (R350, R372). -/
def ideStreams (link : Bool) : Nat := if link then 1 else 8

/-- R350: a stream key is installed; a free slot is allotted to the stream's context (log 37). -/
def execIdeKm (stream : IdeStream) (owner : BitVec 16) (s : State) : Outcome State Fault Refusal :=
  .next (s.spdmStep (s.dev.prot.spdm.session && s.dev.link.hostUp) (fun s =>
    let slot := stream.slot
    let link := stream.link
    match s.keySlot slot with
    | some e =>
      if e.kind = .ide ∧ e.link = link then (s.keyIn slot .ide link e.owner e.peer).reply .done else s.reply .refused
    | none =>
      if slot < 4096 ∧ 8 ≤ slot % 512 ∧ s.dev.keys.countP (fun e => e.2.kind == .ide && e.2.link == link) < ideStreams link then
        (s.keyIn slot .ide link owner 0).reply .done
      else s.reply .refused))

/-! ### Context commands (R351, R360, R456) -/

/-- A command, within a secured session. -/
def State.command (s : State) (f : State → State) : State := s.spdmStep s.dev.prot.spdm.session f

/-- The lowest context identifier that nothing names (R356, log 38); the register index that CREATE takes beside it is the lowest free one
(DESIGN CHOICE, log 95). -/
def State.freeCtx (s : State) : BitVec 16 :=
  let used := s.dev.prot.ctxs.map (fun e => e.2.ctx) ++ s.dev.wt.regions.map (fun e => fld e.2 112 16) ++
    s.dev.sched.slots.map (·.ctx) ++ s.dev.sched.remap.map (·.ctx) ++ s.dev.sched.launches.map (·.ctx) ++
    s.dev.owners.map (fun e => e.2.owner)
  BitVec.ofNat 16 (((List.range (used.length + 1)).find? (fun k => !used.contains (BitVec.ofNat 16 (k + 1)))).getD 0 + 1)

def execCreate (s : State) : Outcome State Fault Refusal :=
  .next (s.command (fun s =>
    match (List.range 255).find? (fun k => !s.dev.prot.ctxs.any (·.1 == k + 1)), s.freeKeySlot with
    | some k, some slot =>
      let ctx := s.freeCtx
      let s := s.keyIn slot .save false ctx 0
      (s.setCtx (k + 1) { state := .active, ctx := ctx, skey := slot, savectr := 0, area := none, held := [], arenas := [] }).reply
        (.created ctx (k + 1))
    | _, _ => s.reply .refused))

/-- A resource may be assigned: OWNER 0, SCRUB 0, no entry on its way, and no task resident on a core. -/
def State.assignable (s : State) (r : Resource) : Bool :=
  match Resource.key r with
  | none => false
  | some k =>
    s.owner k == ({ owner := 0, scrub := false } : Owner) && !s.dev.prot.owed.any (·.1 == k) && !s.dev.lost.contains (ownerDie k) &&
      (match r with
       | .core n => (s.core n).task.isNone
       | _ => true)

def execAssign (ctx : BitVec 16) (what : List Resource) (s : State) : Outcome State Fault Refusal :=
  .next (s.command (fun s =>
    match s.ctxEntry ctx with
    | some (_, x) =>
      if x.state != .tearing && what.all s.assignable then
        ((what.filterMap Resource.key).foldl (fun s k => s.oweOwner k { owner := ctx, scrub := false }) s).reply .done
      else s.reply .refused
    | none => s.reply .refused))

/-- The capability of a save area: HOST, of A = 0, with room for one image slot. -/
def areaLegal (cap : Cap) (spadlen : Nat) : Bool :=
  capSpace cap == spHost && capCtx cap == 0 && fld cap 170 86 == 0 && spadlen % 4096 == 0 && decide (spadlen ≤ 2 ^ 20) &&
    decide (slotSize spadlen ≤ capLen cap)

def execSaveArea (ctx : BitVec 16) (cap : Cap) (spadlen : Nat) (s : State) : Outcome State Fault Refusal :=
  .next (s.command (fun s =>
    match s.ctxEntry ctx with
    | some (k, x) =>
      if areaLegal cap spadlen && x.held.isEmpty && x.state != .tearing then
        (s.setCtx k { x with area := some (cap, spadlen) }).reply .done
      else s.reply .refused
    | none => s.reply .refused))

/-- A byte of a code arena as the report reads it for its context: a free value where the page is denied or lost (R345, R346, log 4). -/
def State.arenaByte (s : State) (ctx : BitVec 16) (a : Nat) : Byte :=
  if s.recordOk ctx a then s.byte (mkey .glob 0 a) else fld (Config.freeWord s.free) (8 * (a % 128)) 8

/-- The context report: identifier, index, nonce, digests of the context's code arenas and of its regions (log 32). -/
def State.reportBody (s : State) (k : Nat) (x : Ctx) (nonce : BitVec 256) : List Byte :=
  let arena (a : BitVec 48 × BitVec 48) : List Byte :=
    leBytes 64 (sha3 ((List.range (a.2.toNat - a.1.toNat)).map (fun i => s.arenaByte x.ctx (a.1.toNat + i)))).toNat
  let regions := s.dev.wt.regions.filter (fun e => fld e.2 112 16 == x.ctx)
  leBytes 2 x.ctx.toNat ++ leBytes 1 k ++ leBytes 32 nonce.toNat ++ x.arenas.flatMap arena ++
    regions.flatMap (fun e => leBytes 2 e.1 ++ leBytes 64 (s.regionDigest (e.1 / 64) (e.1 % 64)).toNat)

def execReport (ctx : BitVec 16) (nonce : BitVec 256) (s : State) : Outcome State Fault Refusal :=
  .next (s.command (fun s =>
    match s.ctxEntry ctx with
    | some (k, x) =>
      let b := s.reportBody k x nonce
      s.reply (.report b (Config.identitySign b))
    | none => s.reply .refused))

/-- Every IDE stream that the context's key slots name has its key. -/
def State.streamsKeyed (s : State) (ctx : BitVec 16) : Bool :=
  s.dev.keys.all (fun e => !(e.2.kind == .ide && e.2.owner == ctx) || e.2.live)

/-- The tasks of a context are held at their boundaries, or go on. -/
def State.holdTasks (s : State) (ctx : BitVec 16) (h : Bool) : State :=
  { s with cores := s.cores.map (fun (n, c) => (n, if c.task.any (·.ctx == ctx) then { c with held := h } else c)) }

/-- R456: a suspended context goes on. A session is always later than the last link reset, which ends it. -/
def execResume (ctx : BitVec 16) (s : State) : Outcome State Fault Refusal :=
  .next (s.command (fun s =>
    match s.ctxEntry ctx with
    | some (k, x) =>
      if x.state == .suspended && s.streamsKeyed ctx then
        ((s.setCtx k { x with state := .active }).holdTasks ctx false).reply .done
      else s.reply .refused
    | none => s.reply .refused))

/-! ### Teardown (R356, R357) -/

/-- R248: the jobs of a context are cancelled. -/
def State.cancelCtxJobs (s : State) (ctx : BitVec 16) : State :=
  { s with dev := { s.dev with jobs := s.dev.jobs.filterMap (fun j =>
    if j.ctx = ctx then
      match j.work with
      | .wpe _ => if j.build.isSome then some { j with cancel := true, paused := false } else none
      | _ => none
    else some j) } }

/-- Queues that are not mapped and that a descriptor other than zero gives to the context: it stands among the bytes that
memory lists in the descriptors' half mebibyte of each die (R326, R327). -/
def State.idleQueues (s : State) (ctx : BitVec 16) : List HwQueue :=
  let qs := (s.mem.filterMap (fun c => if keySpace c.1 = MSpace.glob.code then (s.descAt (keyOff c.1)).map (·.1) else none)).dedup
  (qs.map (fun q => (q, s.desc q))).filterMap (fun (q, d) =>
    let k := hwQueue q d 0 0 0
    if descEn d && descState d == stUnmapped && k.ctx == ctx then some k else none)

/-- Step 1: the context's queues stop, its packets are aborted, its tasks are killed, its jobs cancelled. The packets'
entries follow when what their tasks have issued is performed (R331). -/
def State.stopContext (s : State) (ctx : BitVec 16) : State :=
  let qs := (s.dev.sched.slots ++ s.dev.sched.remap).filter (·.ctx == ctx)
  let s := (qs ++ (s.idleQueues ctx).filter (fun k => !qs.any (·.q == k.q))).foldl (fun s k => s.stopQueue k 0xC3) s
  let s := (s.dev.sched.launches.filter (·.ctx == ctx)).foldl (fun s l => s.abortLaunch l 0xC3) s
  let s := (s.cores.filterMap (fun (n, c) => if c.task.any (·.ctx == ctx) then some n else none)).foldl State.killCore s
  let s := (s.dev.sched.saved.filter (·.task.ctx == ctx)).foldl State.killSaved s
  let s := (s.dev.sched.packets.filter (·.ctx == ctx)).foldl (fun s p => s.packetOutcome p.id 0xC3) s
  s.cancelCtxJobs ctx

/-- Step 1 is over: no task, packet or job of the context is left. -/
def State.ctxQuiet (s : State) (ctx : BitVec 16) : Bool :=
  !s.cores.any (fun e => e.2.task.any (·.ctx == ctx)) && !s.dev.sched.saved.any (·.task.ctx == ctx) &&
    !s.dev.sched.packets.any (·.ctx == ctx) && !s.dev.jobs.any (·.ctx == ctx)

def LvProg.zero : LvProg := { phase := 0, pidx := 0, ctx := 0, total := 0, done := 0 }
def State.lv (s : State) (die : Nat) : LvProg := lookupD .zero s.dev.prot.lvprog die
def State.setLv (s : State) (die : Nat) (l : LvProg) : State :=
  s.setProt { s.dev.prot with lvprog := insertAt s.dev.prot.lvprog die l }

/-- The context that the Louver works for; it works for one at a time (log 39). -/
def State.louverCtx (s : State) : Option (Nat × Ctx) :=
  (s.dev.prot.lvprog.find? (fun e => e.2.pidx != 0)).bind (fun e =>
    s.dev.prot.ctxs.find? (fun x => x.1 == e.2.pidx.toNat))

/-- What a die has to clear in a phase, in the order of R356: key slots, cores and clusters, or pages. -/
def State.louverList (s : State) (die : Nat) (ctx : BitVec 16) (phase : BitVec 2) : List Nat :=
  if phase = 1 then (s.dev.keys.filter (fun e => e.2.owner == ctx && e.1 / 512 == die)).map (·.1)
  else (s.dev.owners.filter (fun e => e.2.owner == ctx && ownerDie e.1 == die &&
    (if phase = 3 then decide (e.1 < 2 ^ 20) else phase == 2 && decide (2 ^ 20 ≤ e.1)))).map (·.1)

/-- Step 2 begins: the slots that the context owns, the save key's among them, are zeroised one after another. -/
def State.beginKeys (s : State) (k : Nat) (x : Ctx) : State :=
  (List.range 8).foldl (fun s d => s.setLv d
    { phase := 1, pidx := BitVec.ofNat 8 k, ctx := x.ctx, total := (s.louverList d x.ctx 1).length, done := 0 }) s

/-- Step 3: SCRUB is set in every entry of the context. -/
def State.setScrub (s : State) (ctx : BitVec 16) : State :=
  let waiting := (s.dev.prot.owed.filter (fun e => e.2.owner == ctx && !e.2.scrub)).map (·.1)
  let standing := (s.dev.owners.filter (fun e => e.2.owner == ctx && !e.2.scrub && !s.dev.prot.owed.any (·.1 == e.1))).map (·.1)
  (waiting ++ standing).foldl (fun s e => s.oweOwner e { owner := ctx, scrub := true }) s

/-- A die enters the first phase, from `phase` on, in which it has something to clear; else it is idle. -/
def State.enterPhase (s : State) (die : Nat) (phase : BitVec 2) : State :=
  let l := s.lv die
  let cs := s.louverList die l.ctx 2
  let ps := s.louverList die l.ctx 3
  if phase = 2 ∧ cs ≠ [] then s.setLv die { l with phase := 2, total := cs.length, done := 0 }
  else if phase ≠ 0 ∧ ps ≠ [] then s.setLv die { l with phase := 3, total := ps.length, done := 0 }
  else if phase = 2 then s.setLv die { l with phase := 0, total := 0, done := 0 }
  else s.setLv die { l with phase := 0 }

/-- A live die for which `p` holds of its progress. -/
def State.anyLouver (s : State) (p : LvProg → Bool) : Bool := (List.range 8).any (fun d => !s.dev.lost.contains d && p (s.lv d))

/-- Step 3 begins once every slot is zeroised, and step 4 once every new entry has taken effect. -/
def State.beginClear (s : State) : State :=
  match s.louverCtx with
  | none => s
  | some (_, x) =>
    if !s.anyLouver (fun l => l.phase == 1) || s.anyLouver (fun l => l.phase == 1 && l.done != l.total) then s
    else
      let s := s.setScrub x.ctx
      if s.dev.prot.owed.any (fun e => e.2.owner == x.ctx) then s
      else (List.range 8).foldl (fun s d => s.enterPhase d 2) s

/-- Step 5: every die is idle; all entries are released at once, the key slots and the index are freed and LVPROG is zeroed. -/
def State.endTeardown (s : State) : State :=
  match s.louverCtx with
  | none => s
  | some (k, x) =>
    if s.anyLouver (fun l => l.phase != 0) then s
    else
      let s := { s with dev := { s.dev with
        owners := s.dev.owners.filter (fun e => e.2.owner != x.ctx), keys := s.dev.keys.filter (fun e => e.2.owner != x.ctx) } }
      s.setProt { s.dev.prot with ctxs := s.dev.prot.ctxs.filter (·.1 != k), lvprog := [] }

/-- The next context that is to be torn down. -/
def State.nextTeardown (s : State) : State :=
  match s.louverCtx with
  | some _ => s
  | none =>
    match s.dev.prot.ctxs.find? (fun e => e.2.state == .tearing && s.ctxQuiet e.2.ctx) with
    | some (k, x) => s.beginKeys k x
    | none => s

/-- Go on with teardowns as far as nothing is left to wait for. -/
def State.louverRun (s : State) : State :=
  (List.range (s.dev.prot.ctxs.length + 1)).foldl (fun s _ => s.nextTeardown.beginClear.endTeardown) s

/-- R356: step 1; the others follow resource by resource. -/
def execTeardown (ctx : BitVec 16) (s : State) : Outcome State Fault Refusal :=
  let via := s.dev.prot.spdm.via
  .next (s.command (fun s =>
    match s.ctxEntry ctx with
    | some (k, x) =>
      if x.state == .tearing then s.reply .refused
      else
        let s := (s.setCtx k { x with state := .tearing }).stopContext ctx
        (s.setCtx k { x with state := .tearing, held := [], area := none }).louverRun.replyOn via .done
    | none => s.reply .refused))

/-- R347 -/
def execOwnerEntryEffect (k : Nat) (s : State) : Outcome State Fault Refusal :=
  match s.dev.prot.owed.find? (·.1 == k) with
  | none => .next s
  | some (_, o) =>
    if s.entryBusy k then .next s
    else
      let s := s.setProt { s.dev.prot with owed := s.dev.prot.owed.filter (·.1 != k) }
      .next (s.setOwner k o).louverRun

/-- The Louver clears a core: everything but its service state; its L1 is not written back. -/
def State.louverCore (s : State) (n : Nat) : State :=
  let c := s.core n
  ((s.clearStorage n).scrub .imem n 0 (2 ^ 18)).setCore n { Core.idle with out := c.out, testReq := c.testReq, last5 := c.last5 }

/-- The Louver clears a page: its bytes, tags and marks, and every cached copy without write-back. -/
def State.louverPage (s : State) (p : Nat) : State :=
  let lo := mkey .glob 0 (p * 2 ^ 21)
  let inside (k : Nat) : Bool := decide (lo ≤ k) && decide (k < lo + 2 ^ 21)
  let s := (s.scrub .glob 0 (p * 2 ^ 21) (2 ^ 21)).mapLines (fun _ => true) (fun l => if inside l.key then none else some l)
  s.setMs { s.dev.ms with
    rels := s.dev.ms.rels.filter (fun e => !inside e.1), past := s.dev.ms.past.filter (fun e => !inside e.1)
    broken := s.dev.ms.broken.filter (fun e => !inside (32 * e.1)) }

/-- Clear what a phase names: a key slot, or the resource of an entry. -/
def State.louverClear (s : State) (phase : BitVec 2) (k : Nat) : State :=
  if phase = 1 then s.zeroiseKey k
  else if k < 2 ^ 20 then s.louverPage k
  else if k < 2 ^ 21 then s.louverCore (k - 2 ^ 20)
  else s.scrub .clus (k - 2 ^ 21) 0 (2 ^ 24)

/-- R356, R357: the resource that DONE names is cleared and DONE advances; teardown goes on where all is done. -/
def execLouverResourceDone (die : Nat) (s : State) : Outcome State Fault Refusal :=
  let l := s.lv die
  if s.dev.lost.contains die ∨ l.phase = 0 then .next s.louverRun
  else
    match (s.louverList die l.ctx l.phase)[l.done]? with
    | none => .next s.louverRun
    | some k =>
      let s := (s.louverClear l.phase k).setLv die { l with done := l.done + 1 }
      .next (if l.done + 1 = l.total then
        (if l.phase = 2 then s.enterPhase die 3 else if l.phase = 3 then s.enterPhase die 0 else s) else s).louverRun

end Sys2Proof.Machine
end

