-- ==== Sys2Proof/Machine/Links.lean ====
section
/-! DEFINITION. The host link, the fabric ports, power and the management interface (R350, R372 to R382, R455, R456, R459),
and the queue bases (R326). -/

namespace Sys2Proof.Machine

open Host (Outcome)

def State.setLinks (s : State) (l : Links) : State := { s with dev := { s.dev with link := l } }

/-- The registers of a die are served. -/
def State.dieUp (s : State) (die : Nat) : Bool :=
  decide (die < 8) && !s.dev.lost.contains die && (s.bootOf die == .rehash || s.bootOf die == .ready)

/-! ### Queue bases (R326) -/

def execQdbaseWrite (die : Nat) (v : DWord) (s : State) : Outcome State Fault Refusal :=
  if s.dieUp die then
    .next (s.setSched { s.dev.sched with qdbase := insertAt s.dev.sched.qdbase die ((fld v 12 36).toNat * 4096) })
  else .next s

def execQsigbaseWrite (die : Nat) (v : DWord) (s : State) : Outcome State Fault Refusal :=
  if s.dieUp die then
    .next (s.setSched { s.dev.sched with qsigbase := insertAt s.dev.sched.qsigbase die ((fld v 12 36).toNat * 4096) })
  else .next s

/-! ### The fabric (R350, R377, R378, R459) -/

/-- R377: the package id is assigned once. -/
def State.writeFabid (s : State) (v : DWord) : State :=
  if s.dev.link.fabValid then s else s.setLinks { s.dev.link with fabValid := bit v 31, pkg := fld v 0 10 }

def execFabidWrite (v : DWord) (s : State) : Outcome State Fault Refusal :=
  if s.dieUp 0 then .next (s.writeFabid v) else .next s

def Port.reset : Port := { trained := false, keyed := false, stale := false, comp := false, stop := false, peer := 0, en := false }
def State.port (s : State) (die p : Nat) : Port := lookupD .reset s.dev.link.ports (2 * die + p)
def State.setPort (s : State) (die p : Nat) (v : Port) : State :=
  s.setLinks { s.dev.link with ports := insertAt s.dev.link.ports (2 * die + p) v }

/-- FPORT as read; UP: trained and keyed. -/
def Port.reg (p : Port) : DWord :=
  BitVec.ofBool (p.trained && p.keyed) ++ BitVec.ofBool p.comp ++ BitVec.ofBool p.stop ++ 0#19 ++ p.peer ++ 0#31 ++ BitVec.ofBool p.en

/-- A write of FPORT: EN is stored, a written STOP bit clears STOP. A port that is not enabled is down. -/
def State.writePort (s : State) (die p : Nat) (v : DWord) : State :=
  let k := s.port die p
  let k := { k with stop := k.stop && !bit v 61, en := bit v 0 }
  s.setPort die p (if k.en then k else { k with trained := false, keyed := false, comp := false })

/-- R378 -/
def execFportEnWrite (die p : Nat) (v : DWord) (s : State) : Outcome State Fault Refusal :=
  if s.dieUp die && decide (p < 2) then .next (s.writePort die p v) else .next s

/-- The stream to a peer package has its key. -/
def State.fabricKeyed (s : State) (peer : BitVec 10) : Bool :=
  s.dev.keys.any (fun e => e.2.kind == .fabric && e.2.peer == peer && e.2.live)

/-- R377, R378: an enabled port of a package with an id trains. Its stream is keyed where the two packages have a key and the
stream has not stopped since. -/
def execFabricLinkUp (die p : Nat) (peer : BitVec 10) (comp : Bool) (s : State) : Outcome State Fault Refusal :=
  let k := s.port die p
  if s.dieUp die && decide (p < 2) && s.dev.link.fabValid && k.en && !k.trained then
    .next (s.setPort die p { k with trained := true, keyed := s.fabricKeyed peer && !k.stale, comp := comp, peer := peer })
  else .next s

/-- R350, R378: a frame fails its tag and the port's stream stops; the cipher engine's failure is recorded (R440, R441, log 80). -/
def execFabricTagFailure (die p : Nat) (s : State) : Outcome State Fault Refusal :=
  let k := s.port die p
  if s.dieUp die && decide (p < 2) && k.trained && k.keyed then
    .next ((s.setPort die p { k with stop := true, keyed := false, stale := true }).mcRecord die 27 (mcContained 0x29 (2 + p) 0 0 0 none))
  else .next s

/-- A new key for the streams to a peer: its slot's, or a slot that is allotted to every context. A stopped stream to the peer is stopped no
more, and its trained ports go on. Nothing where no slot is free. -/
def State.keyFabric (s : State) (peer : BitVec 10) : Option State :=
  let on (s : State) : State := s.setLinks { s.dev.link with ports := s.dev.link.ports.map (fun e =>
    (e.1, if e.2.peer = peer then { e.2 with keyed := e.2.keyed || e.2.trained, stale := false, stop := false } else e.2)) }
  match s.dev.keys.find? (fun e => e.2.kind == .fabric && e.2.peer == peer) with
  | some (k, e) => some (on (s.keyIn k .fabric false e.owner peer))
  | none => s.freeKeySlot.map (fun k => on (s.keyIn k .fabric false 0 peer))

/-- R459: the stopped stream is keyed again and STOP clears. -/
def execStreamRekey (die p : Nat) (s : State) : Outcome State Fault Refusal :=
  let k := s.port die p
  if s.dieUp die && s.serves && decide (p < 2) && k.trained && !k.keyed then .next ((s.keyFabric k.peer).getD s) else .next s

/-- R350, R382: Uberakel of the two packages key their streams; the answer goes back on the bus that carried the exchange. -/
def execFabricKeyExchange (x : PeerExchange) (s : State) : Outcome State Fault Refusal :=
  if s.serves then .next (((s.keyFabric x.peer).getD s).answer (.fabricKeyed x.bus x.peer (s.keyFabric x.peer).isSome)) else .next s

/-! ### Power (R381) -/

def State.setPower (s : State) (p : Power) : State := { s with dev := { s.dev with power := p } }

/-- WATTS stores 1,000 to 10,000. -/
def clampWatts (v : BitVec 16) : BitVec 16 := BitVec.ofNat 16 (max 1000 (min 10000 v.toNat))

def State.writeWatts (s : State) (v : BitVec 16) : State := s.setPower { s.dev.power with watts := clampWatts v }

/-- PCAP as read. -/
def Power.reg (p : Power) : DWord := p.watts ++ 0#12 ++ p.div ++ p.pwr ++ p.amps

def execPcapWrite (v : DWord) (s : State) : Outcome State Fault Refusal :=
  if s.dieUp 0 then .next (s.writeWatts (fld v 48 16)) else .next s

/-- DIV after a window. -/
def nextDiv (p : Power) (pwr : BitVec 16) : BitVec 4 :=
  if p.watts < pwr then (if p.div = 15 then 15 else p.div + 1)
  else if 10 * pwr.toNat < 9 * p.watts.toNat then (if p.div = 0 then 0 else p.div - 1)
  else p.div

/-- R381: a 10 µs window ends. -/
def execPcapWindow (pwr amps : BitVec 16) (s : State) : Outcome State Fault Refusal :=
  if s.serves then .next (s.setPower { s.dev.power with pwr := pwr, amps := amps, div := nextDiv s.dev.power pwr }) else .next s

/-- R381: the rail controllers throttle. -/
def execVcoreOvercurrent (amps : Nat) (s : State) : Outcome State Fault Refusal :=
  if 20000 < amps then .next (s.setPower { s.dev.power with div := 15 }) else .next s

/-! ### The management interface (R379, R382) -/

/-- R382; also in recovery (R379). -/
def execMctpControl (bus : MgmtBus) (s : State) : Outcome State Fault Refusal :=
  if s.bootOf 0 = .off then .next s else .next (s.answer (.mctp bus))

/-- R382: the temperatures are the sensors' (log 40). -/
def execPldmMonitoring (bus : MgmtBus) (s : State) : Outcome State Fault Refusal :=
  if s.serves then
    let p := s.dev.power
    .next { (s.answer (.monitoring bus (Config.temperature s.free) p.pwr p.amps p.div)) with free := s.free + 1 }
  else .next s

def execCapRead (bus : MgmtBus) (s : State) : Outcome State Fault Refusal :=
  if s.serves then .next (s.answer (.cap bus s.dev.power.watts)) else .next s

def execCapWrite (bus : MgmtBus) (v : BitVec 16) (s : State) : Outcome State Fault Refusal :=
  if s.serves then
    let s := s.writeWatts v
    .next (s.answer (.cap bus s.dev.power.watts))
  else .next s

/-- The image in the flash passes the check of the boot ROM (R379). -/
def Flash.ok : Flash → Bool
  | .manufacture => true
  | .image i => Config.imageSigned i
  | .torn => false

/-- R379: in recovery a transferred image that passes the check is written over the stored one, and the dies boot. -/
def execImageTransfer (bus : MgmtBus) (image : Image) (s : State) : Outcome State Fault Refusal :=
  if s.bootOf 0 ≠ .recovery then .next s
  else
    let ok := Config.imageSigned image
    let s := s.answer (.image bus ok)
    if ok then .next { s with dev := { s.dev with flash := .image image, boot := [] } } else .next s

/-! ### The host link (R372, R455, R456) -/

/-- R372, R456: the host link has trained, in the mode and width that its ends have agreed. -/
def execHostLinkUp (s : State) : Outcome State Fault Refusal :=
  if s.bootOf 0 = .off ∨ s.dev.lost.contains 0 then .next s
  else .next (s.setLinks { s.dev.link with hostUp := true })

/-- R456: every active protected context is suspended. -/
def State.suspendAll (s : State) : State :=
  s.dev.prot.ctxs.foldl (fun s e =>
    if e.2.state = .active then (s.setCtx e.1 { e.2 with state := .suspended }).holdTasks e.2.ctx true else s) s

/-- The key of an IDE stream goes; its slot stays allotted. -/
def KeySlot.cut (e : KeySlot) : KeySlot := if e.kind = .ide then { e with live := false } else e

/-- R455: IDE streams, their keys and the SPDM session are lost. -/
def State.dropLink (s : State) : State :=
  let s : State := { s with dev := { s.dev with keys := s.dev.keys.map (fun e => (e.1, KeySlot.cut e.2)) } }
  (s.setLinks { s.dev.link with hostUp := false }).setSpdm
    { s.dev.prot.spdm with version := false, negotiated := false, handshake := false, session := false }

def execLinkReset (s : State) : Outcome State Fault Refusal :=
  if s.bootOf 0 = .off then .next s else .next s.dropLink.suspendAll

/-! ### What the links bring in (R287, R289, R336, R350, R376) -/

/-- R350: a frame of an IDE stream fails its tag; the stream stops until it is keyed again, and the IDE engine's failure is recorded (R440,
R441, log 80). -/
def State.ideStops (s : State) (slot : Nat) : State :=
  let s := if s.dev.keys.any (fun e => e.1 == slot && e.2.kind == .ide && e.2.live) then s.mcRecord 0 26 (mcContained 0x29 1 0 0 0 none) else s
  { s with dev := { s.dev with keys := s.dev.keys.map (fun e => (e.1, if e.1 = slot then e.2.cut else e.2)) } }

/-- A message of another package comes over a port to it; without an id this package takes none (R377). -/
def State.linkIn (s : State) (pkg : BitVec 10) (m : LinkIn) : State :=
  match m with
  | .ideTagFailure slot => if s.dev.link.hostUp then s.ideStops slot else s
  | .hostAgrees mode width => if s.dev.link.hostUp then s else s.setLinks { s.dev.link with mode := mode, width := width }
  | _ =>
    if !s.dev.link.fabValid || !s.portTo pkg then s
    else
      match m with
      | .arrival _ _ | .flip _ _ | .link _ _ | .unlink _ _ => s.barIn pkg m
      | .preempts _ _ => s.preemptIn pkg.toNat m
      | _ => s.launchIn pkg.toNat m

end Sys2Proof.Machine
end

