-- ==== Sys2Proof/Machine/Regs.lean ====
section
/-! DEFINITION. The control windows and the host's base address registers (R11, R12, R372, R373): every register of a die's
window by its offset, as read and as written. -/

namespace Sys2Proof.Machine

open Host (Outcome)

/-- Doubleword of a 128-bit register: offset 0 or 8. -/
def halfOf (v : BitVec 128) (hi : Bool) : DWord := if hi then fld v 64 64 else fld v 0 64

/-- CTXST of an index (R358). -/
def State.ctxst (s : State) (k : Nat) : DWord :=
  match s.dev.prot.ctxs.find? (·.1 == k) with
  | some (_, x) =>
    let st : BitVec 2 := match x.state with
      | .active => 1
      | .suspended => 2
      | .tearing => 3
    st ++ 0#14 ++ x.ctx ++ BitVec.ofNat 12 x.skey ++ 0#20
  | none => 0

/-- LVPROG (R357). -/
def LvProg.reg (l : LvProg) : DWord := l.phase ++ l.pidx ++ l.ctx ++ BitVec.ofNat 19 l.total ++ BitVec.ofNat 19 l.done

/-- MCSUM (R444): THR, and the banks that hold a record. -/
def State.mcsum (s : State) (die : Nat) : DWord :=
  lookupD 0 s.dev.mc.thr die ++
    (List.range 32).foldl (fun m b => setBit m b (bit (s.bank die b).status 63)) (0 : BitVec 32)

/-- One doubleword of CORESVC, or of the window that fences (R448). -/
def svcWord (die : Nat) (hi : Bool) (p : Nat → Bool) : DWord :=
  let base := if hi then 64 else 0
  (List.range (if hi then 32 else 64)).foldl (fun m k => setBit m k (p (96 * die + base + k))) 0

/-- The doublewords of a machine-check bank, by offset (R440). -/
def McBank.reg (k : McBank) (o : Nat) : DWord :=
  if o = 0 then k.status else if o = 8 then k.addr else if o = 16 then k.misc else if o = 24 then k.synd
  else if o = 32 then k.ctl else if o = 40 then k.thresh else 0

/-- The control registers of a window, by family and number. -/
inductive Ctrl where
  | wayp (c : Nat) | wpelim | wbank (b : Nat) | wrgn (r : Nat) (hi : Bool)
  | qdbase | qsigbase | qidle | savepool | jctl | jhead
  | ctxst (k : Nat) | lvprog | fabid | fport (p : Nat) | pcap
  | clhead | clog (k : Nat) (hi : Bool) | mc (b : Nat) (o : Nat) | mcsum | coresvc (hi : Bool) | fence (hi : Bool)
  | reserved
  deriving DecidableEq, Repr

/-- The register at an 8-aligned offset of the window. -/
def ctrlAt (off : Nat) : Ctrl :=
  if 0x20000 ≤ off ∧ off < 0x20300 ∧ off % 0x40 = 0 then .wayp ((off - 0x20000) / 0x40)
  else if off = 0x30000 then .wpelim
  else if 0x30100 ≤ off ∧ off < 0x30400 then .wbank ((off - 0x30100) / 8)
  else if 0x31000 ≤ off ∧ off < 0x31400 then .wrgn ((off - 0x31000) / 16) (off % 16 == 8)
  else if off = 0x40000 then .qdbase
  else if off = 0x40008 then .qsigbase
  else if off = 0x40010 then .qidle
  else if off = 0x40018 then .savepool
  else if off = 0x40020 then .jctl
  else if off = 0x40028 then .jhead
  else if 0x50008 ≤ off ∧ off < 0x50800 then .ctxst ((off - 0x50000) / 8)
  else if off = 0x50800 then .lvprog
  else if off = 0x60000 then .fabid
  else if off = 0x60100 ∨ off = 0x60108 then .fport ((off - 0x60100) / 8)
  else if off = 0x70000 then .pcap
  else if off = 0x80000 then .clhead
  else if 0x80100 ≤ off ∧ off < 0x80500 then .clog ((off - 0x80100) / 16) (off % 16 == 8)
  else if 0x90000 ≤ off ∧ off < 0x90800 ∧ off % 0x40 < 48 then .mc ((off - 0x90000) / 0x40) (off % 0x40)
  else if off = 0x90800 then .mcsum
  else if off = 0x90810 ∨ off = 0x90818 then .coresvc (off == 0x90818)
  else if off = 0x90820 ∨ off = 0x90828 then .fence (off == 0x90828)
  else .reserved

/-- A register as read. -/
def State.readCtrl (s : State) (die : Nat) (r : Ctrl) : DWord :=
  match r with
  | .wayp c => (s.wayp (12 * die + c)).reg
  | .wpelim => s.wpelim die
  | .wbank b => s.wbank die b
  | .wrgn r hi => halfOf (s.region die r) hi
  | .qdbase => BitVec.ofNat 64 (lookupD 0 s.dev.sched.qdbase die)
  | .qsigbase => BitVec.ofNat 64 (lookupD 0 s.dev.sched.qsigbase die)
  | .qidle => BitVec.ofNat 64 (lookupD 20000 s.dev.sched.qidle die)
  | .savepool => lookupD 0 s.dev.sched.savepool die
  | .jctl => if die = 0 then s.dev.sched.jctl else 0
  | .jhead => if die = 0 then s.dev.sched.jhead else 0
  | .ctxst k => if die = 0 then s.ctxst k else 0
  | .lvprog => (s.lv die).reg
  | .fabid => if die = 0 then 0#32 ++ BitVec.ofBool s.dev.link.fabValid ++ 0#21 ++ s.dev.link.pkg else 0
  | .fport p => (s.port die p).reg
  | .pcap => if die = 0 then s.dev.power.reg else 0
  | .clhead => (s.clog die).zcnt ++ (s.clog die).next
  | .clog k hi => halfOf (lookupD 0 (s.clog die).entries k) hi
  | .mc b o => (s.bank die b).reg o
  | .mcsum => s.mcsum die
  | .coresvc hi => svcWord die hi (fun n => (s.core n).out)
  -- W1S: fenced, or about to be (R11)
  | .fence hi => svcWord die hi (fun n => (s.core n).out || s.dev.mc.fences.contains n)
  | .reserved => 0

/-- Die-local cores that a doubleword of CORESVC names. -/
def svcCores (die : Nat) (hi : Bool) (v : DWord) : List Nat :=
  ((List.range (if hi then 32 else 64)).filter (fun k => bit v k)).map (fun k => 96 * die + (if hi then 64 else 0) + k)

/-- CTL and THRESH of a bank, and its STATUS, as written (R442). -/
def State.writeBank (s : State) (die b o : Nat) (v : DWord) : State :=
  let k := s.bank die b
  if o = 0 then
    match execMcStatusClear die b v s with
    | .next s => s
    | _ => s
  else if o = 32 then s.setBank die b { k with ctl := (fld v 0 3).setWidth 64 }
  else if o = 40 then
    let win : BitVec 16 := if fld v 16 16 = 0 then 1 else fld v 16 16
    let lim : BitVec 16 := if fld v 0 16 = 0 then 1 else fld v 0 16
    let auto := bit v 63 && decide (b < 12)
    s.setBank die b { k with thresh := BitVec.ofBool auto ++ 0#15 ++ fld k.thresh 32 16 ++ win ++ lim }
  else s

/-- A write of a register by its access codes (R11). -/
def State.writeCtrl (s : State) (die : Nat) (r : Ctrl) (v : DWord) : State :=
  match r with
  | .wayp c => s.writeWayp (12 * die + c) v
  | .wpelim => s.writeWpelim die v
  | .wrgn r hi => s.writeRegion die r hi v
  | .qdbase => s.setSched { s.dev.sched with qdbase := insertAt s.dev.sched.qdbase die ((fld v 12 36).toNat * 4096) }
  | .qsigbase => s.setSched { s.dev.sched with qsigbase := insertAt s.dev.sched.qsigbase die ((fld v 12 36).toNat * 4096) }
  | .qidle => s.setSched { s.dev.sched with qidle := insertAt s.dev.sched.qidle die (fld v 0 32).toNat }
  | .savepool => s.setSched { s.dev.sched with
      savepool := insertAt s.dev.sched.savepool die (fld v 52 12 ++ 0#4 ++ fld v 21 27 ++ 0#21) }
  | .jctl => if die = 0 then s.setSched { s.dev.sched with jctl := 0#16 ++ fld v 16 32 ++ 0#15 ++ fld v 0 1 } else s
  | .fabid => if die = 0 then s.writeFabid v else s
  | .fport p => s.writePort die p v
  | .pcap => if die = 0 then s.writeWatts (fld v 48 16) else s
  | .mc b o => s.writeBank die b o v
  | .mcsum => s.setMc { s.dev.mc with thr := insertAt s.dev.mc.thr die (lookupD 0 s.dev.mc.thr die &&& ~~~ fld v 32 32) }
  | .coresvc hi => (svcCores die hi v).foldl (fun s n => if (s.core n).out then s.setCore n { s.core n with out := false } else s) s
  | .fence hi => s.setMc { s.dev.mc with fences := s.dev.mc.fences ++ svcCores die hi v }
  | .wbank _ | .jhead | .ctxst _ | .lvprog | .clhead | .clog _ _ | .reserved => s

/-- A write of a doubleword in a die's window. -/
def State.writeWindow (s : State) (die off : Nat) (v : DWord) : State :=
  if s.dieUp die && off % 8 == 0 && decide (off < 2 ^ 20) then s.writeCtrl die (ctrlAt off) v else s

/-- R11: a register of a window is written. -/
def execControlRegisterWrite (die off : Nat) (v : DWord) (s : State) : Outcome State Fault Refusal := .next (s.writeWindow die off v)

/-! ### The host (R373) -/

/-- All ones, as malformed accesses read. -/
def onesReply (n : Nat) : Reply := .bar (List.replicate n 0xFF) false

/-- A host access to the control windows. -/
def State.bar0 (s : State) (a : BarAccess) : State :=
  let die := a.off / 2 ^ 20
  if a.size ≠ 8 ∨ a.off % 8 ≠ 0 ∨ !s.dieUp die then (if a.write then s else s.answer (onesReply a.size))
  else if a.write then s.writeCtrl die (ctrlAt (a.off % 2 ^ 20)) (BitVec.ofNat 64 a.data)
  else s.answer (.bar (leBytes 8 (s.readCtrl die (ctrlAt (a.off % 2 ^ 20))).toNat) false)

/-- The address lies in a save record of a die's pool, which the host does not reach (R60, R326). -/
def State.inRecord (s : State) (addr : Nat) : Bool :=
  s.dev.sched.savepool.any (fun (_, v) =>
    let base := (fld v 21 27).toNat * 2 ^ 21
    decide (base ≤ addr) && decide (addr < base + (fld v 52 12).toNat * 2 ^ 21))

/-- The bytes of a host access to GLOB, each with its page's home and whether it may be made. -/
def State.hostMay (s : State) (addr : Nat) : Bool :=
  (s.ownerNext (ownerPage addr)).admits 0 && !s.dev.lost.contains (homeDie addr) && !s.inRecord addr

/-- A refused host access is counted in the host port's bank, by its first byte that is (R423, R441; log 48). -/
def State.countHost (s : State) (a : BarAccess) : State :=
  match ((List.range a.size).map (a.off + ·)).find? (fun b => !(s.ownerNext (ownerPage b)).admits 0) with
  | some b => s.mcRecord 0 26 (mcContained 0x28 0 0 1 b none)
  | none => s

/-- A host write to GLOB, home by home; one to another die's GLOB travels stamped (R271). -/
def State.hostWrite (s : State) (a : BarAccess) : State :=
  let bytes := (((leBytes a.size a.data).zipIdx).filter (fun b => s.hostMay (a.off + b.2))).map
    (fun b => (mkey .glob 0 (a.off + b.2), b.1))
  ((bytes.map (fun b => homeDie (keyOff b.1))).dedup).foldl (fun s h =>
    let mine := bytes.filter (fun b => homeDie (keyOff b.1) == h)
    if h = 0 then (s.performGlob 0 96 mine [] []).storeRels (mine.map (·.1)) none
    else s.sendWrite 0 h (linesOf (mine.map (·.1))) (.write 0 none none 0 mine [] [] none)) s

/-- A host read of GLOB: a byte that it may not have is a free value with poison (R346, log 4). -/
def State.hostRead (s : State) (a : BarAccess) : State :=
  let bs := (List.range a.size).map (fun i =>
    let k := mkey .glob 0 (a.off + i)
    if s.hostMay (a.off + i) then (s.byte k, KeySet.has s.marks (granule k)) else (fld (Config.freeWord (s.free + i / 128)) (8 * (i % 128)) 8, true))
  { (s.answer (.bar (bs.map (·.1)) (bs.any (·.2)))) with free := s.free + (a.size + 127) / 128 }

/-- The host reads a home on another die once die 0's clock covers it (R271), and no entry there is changing (R347). -/
def State.hostReady (s : State) (a : BarAccess) : Bool :=
  (List.range a.size).all (fun i =>
    let h := homeDie (a.off + i)
    !s.ownerOwed (mkey .glob 0 (a.off + i)) &&
      (a.write || s.inStep 0 h))

/-- R373: BAR0 holds the control windows, BAR2 is GLOB; the host acts with context 0. -/
def execHostBarAccess (a : BarAccess) (s : State) : Outcome State Fault Refusal :=
  if !s.serves ∨ !s.dev.link.hostUp then .next s
  else if a.glob then
    if a.size = 0 ∨ 2 ^ 39 < a.off + a.size ∨ !s.hostReady a then .next s
    else if a.write then .next ((s.countHost a).hostWrite a)
    else .next ((s.countHost a).hostRead a)
  else .next (s.bar0 a)

end Sys2Proof.Machine
end

