-- ==== Sys2Proof/Machine/Reset.lean ====
section
/-! DEFINITION. Warm reset, cold reset and the loss of power (R308, R379, R455, R457). -/

namespace Sys2Proof.Machine

open Host (Outcome)

/-- Where the boot ROM leaves the dies (R379): a flash image that fails its check keeps every die in recovery. -/
def bootFrom (f : Flash) : List (Nat × Boot) := if f.ok then [] else (List.range 8).map (fun d => (d, .recovery))

/-- R455: launches of ordinary contexts are journalled as aborted. -/
def State.journalLost (s : State) : State :=
  (s.dev.sched.packets.filter (fun p => p.type == tLaunch && !s.isProtected p.ctx)).foldl (fun s p => s.journal p jAborted 0xE6) s

/-- A line as its array keeps it; what it knew of releases is gone. -/
def CLine.warm (l : CLine) : CLine := { l with rels := [] }

/-- What a warm reset keeps of a core: its array contents, registers, tiles, slot marks and L1 (R455, log 41). -/
def Core.warm (c : Core) : Core :=
  { Core.idle with out := c.out, r := c.r, m := { MemSide.empty with l1 := c.m.l1.map CLine.warm } }

/-- What a warm reset keeps of the memory system: the slices' arrays stay, messages on their way are gone, and the clocks start again. -/
def MemSys.warm (m : MemSys) : MemSys :=
  { m with lines := m.lines.map (fun e => (e.1, e.2.warm)), msgs := [], clocks := List.replicate 8 Clock.zero, rels := [], past := [], scClock := .zero, taskClock := .zero }

/-- What a warm reset keeps of queues and scheduling: registers and logs (log 41). -/
def Sched.warm (q : Sched) : Sched :=
  { q with qdbase := [], qsigbase := [], slots := [], remap := [], signals := [], disabled := [], restarts := [], packets := []
           launches := [], saved := [], stopped := [], gated := [] }

/-- R457: contexts that were active or suspended are torn down from step 2. -/
def Ctx.warm (x : Ctx) : Ctx := { x with state := .tearing, held := [], area := none }

/-- New owner entries that are no part of a teardown take effect: no access is left. -/
def State.settleOwners (s : State) : State :=
  let s' := (s.dev.prot.owed.filter (fun e => !e.2.scrub)).foldl (fun s e => s.setOwner e.1 e.2) s
  s'.setProt { s'.dev.prot with owed := [] }

/-- The teardown that LVPROG shows in its key phase is repeated from step 2. -/
def State.repeatScrub (s : State) : State :=
  match s.louverCtx with
  | some (k, x) => if (List.range 8).any (fun d => (s.lv d).phase == 1) then s.beginKeys k x else s
  | none => s

/-- R455, R457 -/
def State.warmReset (s : State) : State :=
  let s := (s.journalLost.returnBuilds (fun _ => true)).settleOwners
  let d := s.dev
  let s : State := { s with
    cores := s.cores.map (fun (n, c) => (n, c.warm))
    turns := [], iss := .none
    dev := { d with
      ms := d.ms.warm, barMsgs := [], lost := d.form.absent, jobs := [], sched := d.sched.warm
      link := { d.link with hostUp := false }
      mc := { d.mc with fences := [], losses := [], replaying := [], mismatch := [] }
      prot := { d.prot with ctxs := d.prot.ctxs.map (fun (k, x) => (k, x.warm)), spdm := Spdm.reset }
      boot := bootFrom d.flash } }
  s.repeatScrub.louverRun

def execWarmReset (s : State) : Outcome State Fault Refusal := if s.bootOf 0 = .off then .next s else .next s.warmReset

/-- Memory of the host or of another package. -/
def keyOutside (k : Nat) : Bool := keySpace k == MSpace.host.code || keySpace k == MSpace.peer.code

/-- The state without power, or as power returns: the weight tier and the flash stay, keys do not repeat. HOST and PEER are no part of the
device: they hold what they held (R455, log 35). -/
def State.powered (s : State) (flash : Flash) (boot : List (Nat × Boot)) : State :=
  let s := s.returnBuilds (fun _ => true)
  { State.reset with
    mem := s.mem.filter (fun c => keySpace c.1 == MSpace.wgt.code || keyOutside c.1)
    dev := { Device.reset with
      form := s.dev.form, lost := s.dev.form.absent, wt := s.dev.wt, flash := flash, boot := boot, prot := { Device.reset.prot with nextKey := s.dev.prot.nextKey } }
    free := s.free, agenda := s.agenda }

/-- R455: power is removed and restored. -/
def execColdReset (s : State) : Outcome State Fault Refusal := .next (s.powered s.dev.flash (bootFrom s.dev.flash))

/-- R308, R379: power is removed; `writing`: in the middle of an image write, which only recovery makes. -/
def execPowerLoss (writing : Bool) (s : State) : Outcome State Fault Refusal :=
  .next (s.powered (if writing ∧ s.bootOf 0 = .recovery then .torn else s.dev.flash) ((List.range 8).map (fun d => (d, .off))))

end Sys2Proof.Machine
end

