-- ==== Sys2Proof/Machine/Dispatch.lean ====
section
/-! DEFINITION. The meaning of every row of the opcode table, one arm a constructor. -/

namespace Sys2Proof.Machine

def exec (i : Instr) (s : State) : Host.Outcome State Fault Refusal :=
  match i with
  | .beq f => Sys2Proof.Machine.execBeq f s
  | .bne f => Sys2Proof.Machine.execBne f s
  | .blt f => Sys2Proof.Machine.execBlt f s
  | .bge f => Sys2Proof.Machine.execBge f s
  | .bltu f => Sys2Proof.Machine.execBltu f s
  | .bgeu f => Sys2Proof.Machine.execBgeu f s
  | .bpt f => Sys2Proof.Machine.execBpt f s
  | .bpf f => Sys2Proof.Machine.execBpf f s
  | .jmp off => Sys2Proof.Machine.execJmp off s
  | .call f => Sys2Proof.Machine.execCall f s
  | .ret rs1 => Sys2Proof.Machine.execRet rs1 s
  | .loop f => Sys2Proof.Machine.execLoop f s
  | .loopW f => Sys2Proof.Machine.execLoopW f s
  | .loopSp f => Sys2Proof.Machine.execLoopSp f s
  | .lend rs1 => Sys2Proof.Machine.execLend rs1 s
  | .lbrk rs1 => Sys2Proof.Machine.execLbrk rs1 s
  | .wait f => Sys2Proof.Machine.execWait f s
  | .setfmt acc rm => Sys2Proof.Machine.execSetfmt acc rm s
  | .litset rs1 => Sys2Proof.Machine.execLitset rs1 s
  | .sstep => Sys2Proof.Machine.execSstep s
  | .iinv rs1 => Sys2Proof.Machine.execIinv rs1 s
  | .yield => Sys2Proof.Machine.execYield s
  | .halt => Sys2Proof.Machine.execHalt s
  | .trap code => Sys2Proof.Machine.execTrap code s
  | .tret => Sys2Proof.Machine.execTret s
  | .lui f => Sys2Proof.Machine.execLui f s
  | .auipc f => Sys2Proof.Machine.execAuipc f s
  | .addi f => Sys2Proof.Machine.execAddi f s
  | .slti f => Sys2Proof.Machine.execSlti f s
  | .sltiu f => Sys2Proof.Machine.execSltiu f s
  | .xori f => Sys2Proof.Machine.execXori f s
  | .ori f => Sys2Proof.Machine.execOri f s
  | .andi f => Sys2Proof.Machine.execAndi f s
  | .slli f => Sys2Proof.Machine.execSlli f s
  | .srli f => Sys2Proof.Machine.execSrli f s
  | .srai f => Sys2Proof.Machine.execSrai f s
  | .add f => Sys2Proof.Machine.execAdd f s
  | .sub f => Sys2Proof.Machine.execSub f s
  | .sll f => Sys2Proof.Machine.execSll f s
  | .slt f => Sys2Proof.Machine.execSlt f s
  | .sltu f => Sys2Proof.Machine.execSltu f s
  | .xor f => Sys2Proof.Machine.execXor f s
  | .srl f => Sys2Proof.Machine.execSrl f s
  | .sra f => Sys2Proof.Machine.execSra f s
  | .or f => Sys2Proof.Machine.execOr f s
  | .and f => Sys2Proof.Machine.execAnd f s
  | .addiw f => Sys2Proof.Machine.execAddiw f s
  | .slliw f => Sys2Proof.Machine.execSlliw f s
  | .srliw f => Sys2Proof.Machine.execSrliw f s
  | .sraiw f => Sys2Proof.Machine.execSraiw f s
  | .addw f => Sys2Proof.Machine.execAddw f s
  | .subw f => Sys2Proof.Machine.execSubw f s
  | .sllw f => Sys2Proof.Machine.execSllw f s
  | .srlw f => Sys2Proof.Machine.execSrlw f s
  | .sraw f => Sys2Proof.Machine.execSraw f s
  | .lb f => Sys2Proof.Machine.execLb f s
  | .lh f => Sys2Proof.Machine.execLh f s
  | .lw f => Sys2Proof.Machine.execLw f s
  | .sld f => Sys2Proof.Machine.execSld f s
  | .lbu f => Sys2Proof.Machine.execLbu f s
  | .lhu f => Sys2Proof.Machine.execLhu f s
  | .lwu f => Sys2Proof.Machine.execLwu f s
  | .sb f => Sys2Proof.Machine.execSb f s
  | .sh f => Sys2Proof.Machine.execSh f s
  | .sw f => Sys2Proof.Machine.execSw f s
  | .sd f => Sys2Proof.Machine.execSd f s
  | .fence f => Sys2Proof.Machine.execFence f s
  | .ecall => Sys2Proof.Machine.execEcall s
  | .ebreak => Sys2Proof.Machine.execEbreak s
  | .mul f => Sys2Proof.Machine.execMul f s
  | .mulh f => Sys2Proof.Machine.execMulh f s
  | .mulhsu f => Sys2Proof.Machine.execMulhsu f s
  | .mulhu f => Sys2Proof.Machine.execMulhu f s
  | .div f => Sys2Proof.Machine.execDiv f s
  | .divu f => Sys2Proof.Machine.execDivu f s
  | .rem f => Sys2Proof.Machine.execRem f s
  | .remu f => Sys2Proof.Machine.execRemu f s
  | .mulw f => Sys2Proof.Machine.execMulw f s
  | .divw f => Sys2Proof.Machine.execDivw f s
  | .divuw f => Sys2Proof.Machine.execDivuw f s
  | .remw f => Sys2Proof.Machine.execRemw f s
  | .remuw f => Sys2Proof.Machine.execRemuw f s
  | .csrrw f => Sys2Proof.Machine.execCsrrw f s
  | .csrrs f => Sys2Proof.Machine.execCsrrs f s
  | .csrrc f => Sys2Proof.Machine.execCsrrc f s
  | .csrrwi f => Sys2Proof.Machine.execCsrrwi f s
  | .csrrsi f => Sys2Proof.Machine.execCsrrsi f s
  | .csrrci f => Sys2Proof.Machine.execCsrrci f s
  | .idle sl => Sys2Proof.Machine.execIdle sl s
  | .vadd f => Sys2Proof.Machine.execVadd f s
  | .vsub f => Sys2Proof.Machine.execVsub f s
  | .vmul f => Sys2Proof.Machine.execVmul f s
  | .vdiv f => Sys2Proof.Machine.execVdiv f s
  | .vmin f => Sys2Proof.Machine.execVmin f s
  | .vmax f => Sys2Proof.Machine.execVmax f s
  | .vabs f => Sys2Proof.Machine.execVabs f s
  | .vneg f => Sys2Proof.Machine.execVneg f s
  | .vfma f => Sys2Proof.Machine.execVfma f s
  | .vfms f => Sys2Proof.Machine.execVfms f s
  | .vsqrt f => Sys2Proof.Machine.execVsqrt f s
  | .vrcp f => Sys2Proof.Machine.execVrcp f s
  | .vrsqrt f => Sys2Proof.Machine.execVrsqrt f s
  | .vexp2 f => Sys2Proof.Machine.execVexp2 f s
  | .vlog2 f => Sys2Proof.Machine.execVlog2 f s
  | .vand f => Sys2Proof.Machine.execVand f s
  | .vor f => Sys2Proof.Machine.execVor f s
  | .vxor f => Sys2Proof.Machine.execVxor f s
  | .vnot f => Sys2Proof.Machine.execVnot f s
  | .vshl f => Sys2Proof.Machine.execVshl f s
  | .vshr f => Sys2Proof.Machine.execVshr f s
  | .vsra f => Sys2Proof.Machine.execVsra f s
  | .vadds f => Sys2Proof.Machine.execVadds f s
  | .vsubs f => Sys2Proof.Machine.execVsubs f s
  | .vmulh f => Sys2Proof.Machine.execVmulh f s
  | .vbcast f => Sys2Proof.Machine.execVbcast f s
  | .vmovx f => Sys2Proof.Machine.execVmovx f s
  | .vmov f => Sys2Proof.Machine.execVmov f s
  | .viota f => Sys2Proof.Machine.execViota f s
  | .vli f => Sys2Proof.Machine.execVli f s
  | .vcmpEq f => Sys2Proof.Machine.execVcmpEq f s
  | .vcmpNe f => Sys2Proof.Machine.execVcmpNe f s
  | .vcmpLt f => Sys2Proof.Machine.execVcmpLt f s
  | .vcmpLe f => Sys2Proof.Machine.execVcmpLe f s
  | .vcmpUn f => Sys2Proof.Machine.execVcmpUn f s
  | .vcmpLtu f => Sys2Proof.Machine.execVcmpLtu f s
  | .vcmpLeu f => Sys2Proof.Machine.execVcmpLeu f s
  | .vpand f => Sys2Proof.Machine.execVpand f s
  | .vpor f => Sys2Proof.Machine.execVpor f s
  | .vpxor f => Sys2Proof.Machine.execVpxor f s
  | .vpnot f => Sys2Proof.Machine.execVpnot f s
  | .vpset f => Sys2Proof.Machine.execVpset f s
  | .vpcnt f => Sys2Proof.Machine.execVpcnt f s
  | .vpfirst f => Sys2Proof.Machine.execVpfirst f s
  | .vsel f => Sys2Proof.Machine.execVsel f s
  | .vperm f => Sys2Proof.Machine.execVperm f s
  | .vslideup f => Sys2Proof.Machine.execVslideup f s
  | .vslidedn f => Sys2Proof.Machine.execVslidedn f s
  | .vzip f => Sys2Proof.Machine.execVzip f s
  | .vunzip f => Sys2Proof.Machine.execVunzip f s
  | .vcompress f => Sys2Proof.Machine.execVcompress f s
  | .vexpand f => Sys2Proof.Machine.execVexpand f s
  | .vredsum f => Sys2Proof.Machine.execVredsum f s
  | .vredmax f => Sys2Proof.Machine.execVredmax f s
  | .vredmin f => Sys2Proof.Machine.execVredmin f s
  | .vscansum f => Sys2Proof.Machine.execVscansum f s
  | .vscanmax f => Sys2Proof.Machine.execVscanmax f s
  | .vargmax f => Sys2Proof.Machine.execVargmax f s
  | .vbitonic f => Sys2Proof.Machine.execVbitonic f s
  | .vmulL6 f => Sys2Proof.Machine.execVmulL6 f s
  | .vdotL6 f => Sys2Proof.Machine.execVdotL6 f s
  | .vrand f => Sys2Proof.Machine.execVrand f s
  | .vld f => Sys2Proof.Machine.execVld f s
  | .vst f => Sys2Proof.Machine.execVst f s
  | .vstm f => Sys2Proof.Machine.execVstm f s
  | .vgather f => Sys2Proof.Machine.execVgather f s
  | .vscatter f => Sys2Proof.Machine.execVscatter f s
  | .ld f => Sys2Proof.Machine.execLd f s
  | .st f => Sys2Proof.Machine.execSt f s
  | .ldSc f => Sys2Proof.Machine.execLdSc f s
  | .stSc f => Sys2Proof.Machine.execStSc f s
  | .vpref f => Sys2Proof.Machine.execVpref f s
  | .amoadd f => Sys2Proof.Machine.execAmoadd f s
  | .amomin f => Sys2Proof.Machine.execAmomin f s
  | .amomax f => Sys2Proof.Machine.execAmomax f s
  | .amominu f => Sys2Proof.Machine.execAmominu f s
  | .amomaxu f => Sys2Proof.Machine.execAmomaxu f s
  | .amoand f => Sys2Proof.Machine.execAmoand f s
  | .amoor f => Sys2Proof.Machine.execAmoor f s
  | .amoxor f => Sys2Proof.Machine.execAmoxor f s
  | .amoswap f => Sys2Proof.Machine.execAmoswap f s
  | .amocas f => Sys2Proof.Machine.execAmocas f s
  | .amoSc f => Sys2Proof.Machine.execAmoSc f s
  | .lda f => Sys2Proof.Machine.execLda f s
  | .stl f => Sys2Proof.Machine.execStl f s
  | .vfence f => Sys2Proof.Machine.execVfence f s
  | .cflush f => Sys2Proof.Machine.execCflush f s
  | .vamoadd f => Sys2Proof.Machine.execVamoadd f s
  | .vamomin f => Sys2Proof.Machine.execVamomin f s
  | .vamomax f => Sys2Proof.Machine.execVamomax f s
  | .vredst f => Sys2Proof.Machine.execVredst f s
  | .cldh f => Sys2Proof.Machine.execCldh f s
  | .csth f => Sys2Proof.Machine.execCsth f s
  | .cnarrow f => Sys2Proof.Machine.execCnarrow f s
  | .cget f => Sys2Proof.Machine.execCget f s
  | .cmov f => Sys2Proof.Machine.execCmov f s
  | .cclr ha => Sys2Proof.Machine.execCclr ha s
  | .binit f => Sys2Proof.Machine.execBinit f s
  | .blink f => Sys2Proof.Machine.execBlink f s
  | .barrive f => Sys2Proof.Machine.execBarrive f s
  | .bwaitp f => Sys2Proof.Machine.execBwaitp f s
  | .oclaim os => Sys2Proof.Machine.execOclaim os s
  | .orelease os => Sys2Proof.Machine.execOrelease os s
  | .oload f => Sys2Proof.Machine.execOload f s
  | .wload f => Sys2Proof.Machine.execWload f s
  | .mzero f => Sys2Proof.Machine.execMzero f s
  | .mmov f => Sys2Proof.Machine.execMmov f s
  | .mrd f => Sys2Proof.Machine.execMrd f s
  | .mwr f => Sys2Proof.Machine.execMwr f s
  | .mmaF64 f => Sys2Proof.Machine.execMmaF64 f s
  | .mmaF32 f => Sys2Proof.Machine.execMmaF32 f s
  | .mmaBf16 f => Sys2Proof.Machine.execMmaBf16 f s
  | .mmaF16 f => Sys2Proof.Machine.execMmaF16 f s
  | .mmaI8 f => Sys2Proof.Machine.execMmaI8 f s
  | .mmaI4 f => Sys2Proof.Machine.execMmaI4 f s
  | .mmaL6 f => Sys2Proof.Machine.execMmaL6 f s
  | .mmaS24 f => Sys2Proof.Machine.execMmaS24 f s
  | .mmaS14 f => Sys2Proof.Machine.execMmaS14 f s
  | .mlrset f => Sys2Proof.Machine.execMlrset f s
  | .mlrmul f => Sys2Proof.Machine.execMlrmul f s
  | .mlrdm f => Sys2Proof.Machine.execMlrdm f s
  | .mdmlr f => Sys2Proof.Machine.execMdmlr f s
  | .mlradd f => Sys2Proof.Machine.execMlradd f s
  | .mrecomp f => Sys2Proof.Machine.execMrecomp f s
  | .mdense f => Sys2Proof.Machine.execMdense f s
  | .mrank f => Sys2Proof.Machine.execMrank f s
  | .mbflyC64 f => Sys2Proof.Machine.execMbflyC64 f s
  | .mbflyC128 f => Sys2Proof.Machine.execMbflyC128 f s
  | .mbrev f => Sys2Proof.Machine.execMbrev f s
  | .mtwmulC64 f => Sys2Proof.Machine.execMtwmulC64 f s
  | .mtwmulC128 f => Sys2Proof.Machine.execMtwmulC128 f s
  | .cjob f => Sys2Proof.Machine.execCjob f s
  | .cjobv f => Sys2Proof.Machine.execCjobv f s
  | .cwpe f => Sys2Proof.Machine.execCwpe f s
  | .cquery f => Sys2Proof.Machine.execCquery f s
  | .ccancel xa => Sys2Proof.Machine.execCcancel xa s
  | .csignal f => Sys2Proof.Machine.execCsignal f s
  | .cfence => Sys2Proof.Machine.execCfence s
  | .xexpS24 f => Sys2Proof.Machine.execXexpS24 f s
  | .xexpS14 f => Sys2Proof.Machine.execXexpS14 f s
  | .xunpkL6 f => Sys2Proof.Machine.execXunpkL6 f s
  | .xunpkI4 f => Sys2Proof.Machine.execXunpkI4 f s
  | .xpackL6 f => Sys2Proof.Machine.execXpackL6 f s
  | .xpackI4 f => Sys2Proof.Machine.execXpackI4 f s
  | .xtr f => Sys2Proof.Machine.execXtr f s
  | .xcvt f => Sys2Proof.Machine.execXcvt f s
  | .xscale xs => Sys2Proof.Machine.execXscale xs s
  | .xscalei imm => Sys2Proof.Machine.execXscalei imm s
  | .fmtShadowExpiry n => Sys2Proof.Machine.execFmtShadowExpiry n s
  | .superstepRelease lid => Sys2Proof.Machine.execSuperstepRelease lid s
  | .taskEnd n => Sys2Proof.Machine.execTaskEnd n s
  | .tretResume n => Sys2Proof.Machine.execTretResume n s
  | .repeatIssue n => Sys2Proof.Machine.execRepeatIssue n s
  | .segmentMark n => Sys2Proof.Machine.execSegmentMark n s
  | .overlaySegmentLanded n => Sys2Proof.Machine.execOverlaySegmentLanded n s
  | .scWheelIssue n => Sys2Proof.Machine.execScWheelIssue n s
  | .barrierAnswer n => Sys2Proof.Machine.execBarrierAnswer n s
  | .barrierArrivalReceived k => Sys2Proof.Machine.execBarrierArrivalReceived k s
  | .barrierFlipReceived k => Sys2Proof.Machine.execBarrierFlipReceived k s
  | .wloadBlockArrival n os => Sys2Proof.Machine.execWloadBlockArrival n os s
  | .wloadFillExpiry n os => Sys2Proof.Machine.execWloadFillExpiry n os s
  | .engineOpStart n => Sys2Proof.Machine.execEngineOpStart n s
  | .portBlock n => Sys2Proof.Machine.execPortBlock n s
  | .engineRetire n => Sys2Proof.Machine.execEngineRetire n s
  | .jobStart j => Sys2Proof.Machine.execJobStart j s
  | .copyRow j => Sys2Proof.Machine.execCopyRow j s
  | .jobComplete j => Sys2Proof.Machine.execJobComplete j s
  | .wpeBuildStart j => Sys2Proof.Machine.execWpeBuildStart j s
  | .wpePulseIteration j ok => Sys2Proof.Machine.execWpePulseIteration j ok s
  | .wpeSlotRelease bank sl => Sys2Proof.Machine.execWpeSlotRelease bank sl s
  | .xscaleExecute n => Sys2Proof.Machine.execXscaleExecute n s
  | .resultWriteback n => Sys2Proof.Machine.execResultWriteback n s
  | .landingCountExpiry n => Sys2Proof.Machine.execLandingCountExpiry n s
  | .landingDataArrival n k verdict => Sys2Proof.Machine.execLandingDataArrival n k verdict s
  | .storeAck n id => Sys2Proof.Machine.execStoreAck n id s
  | .homeAtomicExecute n id => Sys2Proof.Machine.execHomeAtomicExecute n id s
  | .stampedMessageDelivery k => Sys2Proof.Machine.execStampedMessageDelivery k s
  | .directoryInvalidate clu line => Sys2Proof.Machine.execDirectoryInvalidate clu line s
  | .memoryFaultFound site cond => Sys2Proof.Machine.execMemoryFaultFound site cond s
  | .trapEntry n => Sys2Proof.Machine.execTrapEntry n s
  | .preempt n => Sys2Proof.Machine.execPreempt n s
  | .saveComplete n => Sys2Proof.Machine.execSaveComplete n s
  | .taskRestore uid n => Sys2Proof.Machine.execTaskRestore uid n s
  | .scheduleReadyTask die => Sys2Proof.Machine.execScheduleReadyTask die s
  | .queueSignal q => Sys2Proof.Machine.execQueueSignal q s
  | .queueRemap die => Sys2Proof.Machine.execQueueRemap die s
  | .queueIdleTimeout q => Sys2Proof.Machine.execQueueIdleTimeout q s
  | .queueRestart q => Sys2Proof.Machine.execQueueRestart q s
  | .packetDispatch die => Sys2Proof.Machine.execPacketDispatch die s
  | .launch pid => Sys2Proof.Machine.execLaunch pid s
  | .copy pid => Sys2Proof.Machine.execCopy pid s
  | .barrier pid => Sys2Proof.Machine.execBarrier pid s
  | .node pid => Sys2Proof.Machine.execNode pid s
  | .selftest pid => Sys2Proof.Machine.execSelftest pid s
  | .fencePacket pid => Sys2Proof.Machine.execFencePacket pid s
  | .packetComplete pid => Sys2Proof.Machine.execPacketComplete pid s
  | .indexClaim die pid => Sys2Proof.Machine.execIndexClaim die pid s
  | .gangStart pid level group => Sys2Proof.Machine.execGangStart pid level group s
  | .indexReturnTimeout die pid => Sys2Proof.Machine.execIndexReturnTimeout die pid s
  | .launchComplete pid => Sys2Proof.Machine.execLaunchComplete pid s
  | .selftestComplete n fail => Sys2Proof.Machine.execSelftestComplete n fail s
  | .waySurrender clu => Sys2Proof.Machine.execWaySurrender clu s
  | .wayReturn clu => Sys2Proof.Machine.execWayReturn clu s
  | .waypWrite clu v => Sys2Proof.Machine.execWaypWrite clu v s
  | .wrgnWrite die r hi v => Sys2Proof.Machine.execWrgnWrite die r hi v s
  | .regionSealComplete die r => Sys2Proof.Machine.execRegionSealComplete die r s
  | .qdbaseWrite die v => Sys2Proof.Machine.execQdbaseWrite die v s
  | .qsigbaseWrite die v => Sys2Proof.Machine.execQsigbaseWrite die v s
  | .fabidWrite v => Sys2Proof.Machine.execFabidWrite v s
  | .fportEnWrite die p v => Sys2Proof.Machine.execFportEnWrite die p v s
  | .fabricLinkUp die p peer comp => Sys2Proof.Machine.execFabricLinkUp die p peer comp s
  | .fabricTagFailure die p => Sys2Proof.Machine.execFabricTagFailure die p s
  | .streamRekey die p => Sys2Proof.Machine.execStreamRekey die p s
  | .pcapWrite v => Sys2Proof.Machine.execPcapWrite v s
  | .pcapWindow pwr amps => Sys2Proof.Machine.execPcapWindow pwr amps s
  | .vcoreOvercurrent amps => Sys2Proof.Machine.execVcoreOvercurrent amps s
  | .mcErrorRecord die bank e => Sys2Proof.Machine.execMcErrorRecord die bank e s
  | .threshWindowEnd die bank => Sys2Proof.Machine.execThreshWindowEnd die bank s
  | .mcStatusClear die bank v => Sys2Proof.Machine.execMcStatusClear die bank v s
  | .datapathCheckFail n sl synd => Sys2Proof.Machine.execDatapathCheckFail n sl synd s
  | .coreFence n => Sys2Proof.Machine.execCoreFence n s
  | .coreReturnToService n => Sys2Proof.Machine.execCoreReturnToService n s
  | .lockstepMismatch die pcs => Sys2Proof.Machine.execLockstepMismatch die pcs s
  | .lockstepReplayComplete die => Sys2Proof.Machine.execLockstepReplayComplete die s
  | .dieLost die => Sys2Proof.Machine.execDieLost die s
  | .packageLost pkg => Sys2Proof.Machine.execPackageLost pkg s
  | .ownerEntryEffect k => Sys2Proof.Machine.execOwnerEntryEffect k s
  | .hostBarAccess a => Sys2Proof.Machine.execHostBarAccess a s
  | .controlRegisterWrite die off v => Sys2Proof.Machine.execControlRegisterWrite die off v s
  | .getVersion => Sys2Proof.Machine.execGetVersion s
  | .getCapabilities => Sys2Proof.Machine.execGetCapabilities s
  | .negotiateAlgorithms => Sys2Proof.Machine.execNegotiateAlgorithms s
  | .getDigests => Sys2Proof.Machine.execGetDigests s
  | .getCertificate => Sys2Proof.Machine.execGetCertificate s
  | .challenge nonce => Sys2Proof.Machine.execChallenge nonce s
  | .getMeasurements index => Sys2Proof.Machine.execGetMeasurements index s
  | .keyExchange => Sys2Proof.Machine.execKeyExchange s
  | .finish => Sys2Proof.Machine.execFinish s
  | .keyUpdate => Sys2Proof.Machine.execKeyUpdate s
  | .endSession => Sys2Proof.Machine.execEndSession s
  | .ideKm stream owner => Sys2Proof.Machine.execIdeKm stream owner s
  | .create => Sys2Proof.Machine.execCreate s
  | .assign ctx what => Sys2Proof.Machine.execAssign ctx what s
  | .saveArea ctx cap spadlen => Sys2Proof.Machine.execSaveArea ctx cap spadlen s
  | .report ctx nonce => Sys2Proof.Machine.execReport ctx nonce s
  | .teardown ctx => Sys2Proof.Machine.execTeardown ctx s
  | .resume ctx => Sys2Proof.Machine.execResume ctx s
  | .mctpControl bus => Sys2Proof.Machine.execMctpControl bus s
  | .pldmMonitoring bus => Sys2Proof.Machine.execPldmMonitoring bus s
  | .imageTransfer bus digest => Sys2Proof.Machine.execImageTransfer bus digest s
  | .capRead bus => Sys2Proof.Machine.execCapRead bus s
  | .capWrite bus v => Sys2Proof.Machine.execCapWrite bus v s
  | .fabricKeyExchange x => Sys2Proof.Machine.execFabricKeyExchange x s
  | .linkReset => Sys2Proof.Machine.execLinkReset s
  | .warmReset => Sys2Proof.Machine.execWarmReset s
  | .coldReset => Sys2Proof.Machine.execColdReset s
  | .hostLinkUp => Sys2Proof.Machine.execHostLinkUp s
  | .powerLoss writing => Sys2Proof.Machine.execPowerLoss writing s
  | .louverResourceDone die => Sys2Proof.Machine.execLouverResourceDone die s
  | .regionRehashComplete die => Sys2Proof.Machine.execRegionRehashComplete die s

end Sys2Proof.Machine
end

