-- ==== Sys2Proof/Machine/Turns.lean ====
section
/-! DEFINITION. Which agent moves (log 1): the events that the device owes, the wheel's reference cycle, the turn of an
agent, and the placing of a program for one step. -/

namespace Sys2Proof.Machine

open Host (Outcome)

/-! ### Events that the device owes -/

/-- A row of the table that is an operation of a bundle; every other row is an event. -/
def Instr.isOp (i : Instr) : Bool := (encode i).isSome

/-- An event that is owed, by the identifiers of its agent. -/
inductive Due where
  | dieLost (d : Nat)
  | coreFence (n : Nat)
  | ownerEntryEffect (k : Nat)
  | stampedMessageDelivery (k : Nat)
  | barrierFlipReceived (k : Nat)
  | barrierArrivalReceived (k : Nat)
  | landingDataArrival (n id : Nat)
  | storeAck (n id : Nat)
  | homeAtomicExecute (n id : Nat)
  | wloadBlockArrival (n : Nat) (os : OSlot)
  | barrierAnswer (n : Nat)
  | overlaySegmentLanded (n : Nat)
  | saveComplete (n : Nat)
  | taskEnd (n : Nat)
  | selftestComplete (n : Nat)
  | jobStart (j : Nat)
  | jobComplete (j : Nat)
  | wpePulseIteration (j : Nat)
  | wpeBuildStart (j : Nat)
  | copyRow (j : Nat)
  | wpeSlotRelease (b sl : Nat)
  | waySurrender (clu : Nat)
  | wayReturn (clu : Nat)
  | regionSealComplete (d r : Nat)
  | regionRehashComplete (d : Nat)
  | louverResourceDone (d : Nat)
  | queueSignal (q : Nat)
  | queueRestart (q : Nat)
  | queueRemap (d : Nat)
  | queueIdleTimeout (q : Nat)
  | packetDispatch (d : Nat)
  | launch (p : Nat)
  | copy (p : Nat)
  | barrier (p : Nat)
  | node (p : Nat)
  | selftest (p : Nat)
  | fencePacket (p : Nat)
  | packetComplete (p : Nat)
  | launchComplete (p : Nat)
  | scheduleReadyTask (d : Nat)
  | indexClaim (d p : Nat)
  | indexReturnTimeout (d p : Nat)
  | superstepRelease (l : Nat)
  | lockstepReplayComplete (d : Nat)
  deriving DecidableEq, Repr

/-- An owed event happens. Loads find their data good, a sensed iteration verifies every row and a self-test passes: what
else can happen is named by the agenda. -/
def Due.run (d : Due) (s : State) : Outcome State Fault Refusal :=
  match d with
  | .dieLost d => execDieLost d s
  | .coreFence n => execCoreFence n s
  | .ownerEntryEffect k => execOwnerEntryEffect k s
  | .stampedMessageDelivery k => execStampedMessageDelivery k s
  | .barrierFlipReceived k => execBarrierFlipReceived k s
  | .barrierArrivalReceived k => execBarrierArrivalReceived k s
  | .landingDataArrival n id => execLandingDataArrival n id true s
  | .storeAck n id => execStoreAck n id s
  | .homeAtomicExecute n id => execHomeAtomicExecute n id s
  | .wloadBlockArrival n os => execWloadBlockArrival n os s
  | .barrierAnswer n => execBarrierAnswer n s
  | .overlaySegmentLanded n => execOverlaySegmentLanded n s
  | .saveComplete n => execSaveComplete n s
  | .taskEnd n => execTaskEnd n s
  | .selftestComplete n => execSelftestComplete n 0 s
  | .jobStart j => execJobStart j s
  | .jobComplete j => execJobComplete j s
  | .wpePulseIteration j => execWpePulseIteration j 0x1F s
  | .wpeBuildStart j => execWpeBuildStart j s
  | .copyRow j => execCopyRow j s
  | .wpeSlotRelease b sl => execWpeSlotRelease b sl s
  | .waySurrender c => execWaySurrender c s
  | .wayReturn c => execWayReturn c s
  | .regionSealComplete d r => execRegionSealComplete d r s
  | .regionRehashComplete d => execRegionRehashComplete d s
  | .louverResourceDone d => execLouverResourceDone d s
  | .queueSignal q => execQueueSignal q s
  | .queueRestart q => execQueueRestart q s
  | .queueRemap d => execQueueRemap d s
  | .queueIdleTimeout q => execQueueIdleTimeout q s
  | .packetDispatch d => execPacketDispatch d s
  | .launch p => execLaunch p s
  | .copy p => execCopy p s
  | .barrier p => execBarrier p s
  | .node p => execNode p s
  | .selftest p => execSelftest p s
  | .fencePacket p => execFencePacket p s
  | .packetComplete p => execPacketComplete p s
  | .launchComplete p => execLaunchComplete p s
  | .scheduleReadyTask d => execScheduleReadyTask d s
  | .indexClaim d p => execIndexClaim d p s
  | .indexReturnTimeout d p => execIndexReturnTimeout d p s
  | .superstepRelease l => execSuperstepRelease l s
  | .lockstepReplayComplete d => execLockstepReplayComplete d s

/-- Events that a core owes. -/
def Core.owed (n : Nat) (c : Core) : List Due :=
  c.landings.map (fun l => .landingDataArrival n l.id) ++
    c.m.accs.flatMap (fun a => [.storeAck n a.id, .homeAtomicExecute n a.id, .landingDataArrival n a.id]) ++
    c.fills.map (fun f => .wloadBlockArrival n f.os) ++
    (if c.m.bar.isEmpty then [] else [.barrierAnswer n]) ++
    (if c.k.segCopy.isSome then [.overlaySegmentLanded n] else []) ++
    (if c.mode = .saving then [.saveComplete n] else []) ++
    (if c.mode = .halting ∨ c.mode = .dying then [.taskEnd n] else []) ++
    (if c.underTest then [.selftestComplete n] else [])

/-- Events of a job. -/
def Job.owed (j : Job) : List Due :=
  [.jobStart j.id, .jobComplete j.id] ++
    (match j.work with
     | .wpe _ => if j.build.isSome then [.wpePulseIteration j.id] else [.wpeBuildStart j.id, .copyRow j.id]
     | _ => [.copyRow j.id])

/-- Events of a packet. -/
def Packet.owed (p : Packet) : List Due :=
  (if p.type = tLaunch then [.launch p.id, .launchComplete p.id]
   else if p.type = tCopy then [.copy p.id]
   else if p.type = tBarrier then [.barrier p.id]
   else if p.type = tNode then [.node p.id]
   else if p.type = tSelftest then [.selftest p.id]
   else [.fencePacket p.id]) ++ [.packetComplete p.id]

/-- Events of a die. -/
def dieOwed (s : State) (d : Nat) : List Due :=
  [.regionRehashComplete d, .louverResourceDone d, .queueRemap d, .packetDispatch d, .scheduleReadyTask d] ++
    s.dev.sched.launches.flatMap (fun l => [.indexClaim d l.packet, .indexReturnTimeout d l.packet]) ++
    (if s.replays d then [.lockstepReplayComplete d] else [])

/-- Everything that the device owes now. Not every one is enabled. -/
def State.owed (s : State) : List Due :=
  s.dev.mc.losses.map .dieLost ++ s.dev.mc.fences.map .coreFence ++
    s.dev.prot.owed.map (fun e => .ownerEntryEffect e.1) ++
    s.dev.ms.msgs.map (fun m => .stampedMessageDelivery m.id) ++
    s.dev.barMsgs.map (fun m => if m.flip then .barrierFlipReceived m.id else .barrierArrivalReceived m.id) ++
    s.cores.flatMap (fun e => e.2.owed e.1) ++
    s.dev.jobs.flatMap Job.owed ++
    s.dev.wt.releasing.map (fun e => .wpeSlotRelease e.1 e.2) ++
    s.dev.ms.wayp.flatMap (fun e => if e.2.busy then [.waySurrender e.1, .wayReturn e.1] else []) ++
    s.dev.wt.regions.filterMap (fun e => if regionState e.2 = 3 then some (.regionSealComplete (e.1 / 64) (e.1 % 64)) else none) ++
    s.dev.sched.signals.map .queueSignal ++ s.dev.sched.restarts.map .queueRestart ++
    s.dev.sched.packets.flatMap Packet.owed ++
    s.dev.sched.launches.map (fun l => .superstepRelease l.id) ++
    (List.range 8).flatMap (dieOwed s) ++
    s.dev.sched.slots.map (fun k => .queueIdleTimeout k.q)

/-- The first event of a list that changes anything. -/
def firstEnabled : List Due → State → Option State
  | [], _ => none
  | d :: t, s =>
    match d.run s with
    | .next s' => if s' = s then firstEnabled t s else some s'
    | _ => firstEnabled t s

/-! ### The reference clock (R290, R381) -/

/-- Whether reference cycle W holds a core clock cycle under DIV (log 13). -/
def coreClock (div : BitVec 4) (w : Nat) : Bool := (w + 1) * (16 - div.toNat) / 16 != w * (16 - div.toNat) / 16

/-- One reference cycle: W rises, and every core at work has a cycle where DIV lets its clock run. -/
def State.clockTick (s : State) : State :=
  let s : State := { s with wheel := s.wheel + 1 }
  let s : State := { s with turns := if coreClock s.dev.power.div s.wheel then
    (s.cores.filter (fun e => e.2.atWork)).map (·.1) else [] }
  s.noteBlocked

/-! ### Turns -/

/-- What an agent does on its turn. An operation of a bundle is no event. -/
def State.take (t : Turn) (s : State) : Outcome State Fault Refusal :=
  match t with
  | .core n => if n < 768 then .next (s.coreCycle n) else .fault (.noSuchCore n)
  | .event i => if Instr.isOp i then .next s else exec i s
  | .message via i => if Instr.isOp i then .next s else exec i (s.setSpdm { s.dev.prot.spdm with via := via })
  | .clock => .next s.clockTick
  | .link pkg m => .next (s.linkIn pkg m)

/-- Without a named turn: the cores that still have their cycle, then an event that is owed, then the clock. -/
def State.defaultTurn (s : State) : State :=
  match s.turns with
  | n :: rest => { s with turns := rest }.coreCycle n
  | [] => (firstEnabled s.owed s).getD s.clockTick

/-! ### A program for one step (log 42) -/

/-- The task whose program is placed. -/
def placedTask : Task := { uid := 0, launch := 0, index := 0, ctx := 0, prio := 0, lid := 0, started := 0, record := 0 }

/-- The words of a code line that holds one bundle: masks, the bundle's own words, zeros. -/
def placedLine (nbits w : Nat) : List Word :=
  let ws := wordsOfNat 12 (w % 2 ^ nbits)
  let len := (Head.ofWord (ws[0]?.getD 0)).words
  ([4, 0] ++ ws.take len ++ List.replicate 32 (0 : Word)).take 32

/-- The segment table of the placed arena: one segment of two lines from arena line 1, at IMEM line 0, without a next. -/
def placedTable : Nat := 1 + 2 ^ 128 * (1 + 2 ^ 84 * 2 + 2 ^ 100 * 0xFFF)

/-- Core 0 runs a task whose arena stands at GLOB address 0: the bundle in line 1, zero literal words in line 2. A core that
has no task gets h0 as a launch gives it (R41). -/
def State.placeBundle (s : State) (nbits w : Nat) : State :=
  let bytes := (placedLine nbits w).flatMap (fun v => leBytes 4 v.toNat)
  let s := ((s.storeNat (mkey .glob 0 0) 32 placedTable).store (mkey .glob 0 128) bytes).store (mkey .imem 0 0) bytes
  let c := s.core 0
  let launched : Regs := { c.r with h := c.r.h.set 0 (rootCap placedTask.ctx), htag := setBit c.r.htag 0 true }
  let s := s.setCore 0 { c with
    mode := .running, task := some (c.task.getD placedTask), r := if c.task.isSome then c.r else launched
    c := { c.c with codebase := 0, codelim := 384, mpc := 264 }
    k := { c.k with pc := 136, lineOk := false, resident := [0], segCopy := none }
    t := { c.t with issue := 0 } }
  { s with agenda := .core 0 :: s.agenda }

end Sys2Proof.Machine
end

