-- ==== Sys2Proof/Machine/Step.lean ====
section
/-! DEFINITION. One step of the package: the turn that the agenda names first, or the default one (log 1). -/

namespace Sys2Proof.Machine

def step (s : State) : Host.Outcome State Fault Refusal :=
  match s.agenda with
  | t :: rest => State.take t { s with agenda := rest }
  | [] => .next s.defaultTurn

/-- The bundle whose bits are `w`, placed where the very next step fetches and runs it (log 42). -/
def State.withFetchWord (s : State) (nbits w : Nat) : State := s.placeBundle nbits w

end Sys2Proof.Machine
end

