-- ==== Sys2Proof/Laws/Bits.lean ====
section
/-! SUPPORT. What a bit field of a concatenation is, and the codes of the fields read back. -/

namespace Sys2Proof.Laws

open Sys2Proof

@[simp] theorem fld_low {n m : Nat} (a : BitVec n) (b : BitVec m) (lo k : Nat) (h : lo + k ≤ m) :
    fld (a ++ b) lo k = fld b lo k := by
  apply BitVec.eq_of_getElem_eq
  intro i hi
  have : lo + i < m := by omega
  simp [fld, BitVec.getLsbD_append, this]

@[simp] theorem fld_high {n m : Nat} (a : BitVec n) (b : BitVec m) (lo k : Nat) (h : m ≤ lo) :
    fld (a ++ b) lo k = fld a (lo - m) k := by
  apply BitVec.eq_of_getElem_eq
  intro i hi
  have : ¬ lo + i < m := by omega
  simp only [fld, BitVec.getElem_extractLsb', BitVec.getLsbD_append, this, if_false]
  congr 1
  omega

@[simp] theorem fld_whole {n : Nat} (a : BitVec n) : fld a 0 n = a := by
  apply BitVec.eq_of_getElem_eq
  intro i hi
  simp [fld, BitVec.getLsbD_eq_getElem hi]

@[simp] theorem fld_zero {n : Nat} (lo k : Nat) : fld (0#n) lo k = 0#k := by
  apply BitVec.eq_of_getElem_eq
  intro i hi
  simp [fld]

/-- A field that spans a boundary of a concatenation is zero exactly when both its parts are. -/
@[simp] theorem fld_span {n m : Nat} (a : BitVec n) (b : BitVec m) (k : Nat) (h : m < k) :
    (fld (a ++ b) 0 k == 0#k) = (fld a 0 (k - m) == 0#(k - m) && b == 0#m) := by
  rw [Bool.eq_iff_iff, Bool.and_eq_true]
  simp only [beq_iff_eq]
  constructor
  · intro hz
    have hb : ∀ i, i < k → (fld (a ++ b) 0 k).getLsbD i = false := by intro i _; rw [hz]; simp
    simp only [fld, BitVec.getLsbD_extractLsb', BitVec.getLsbD_append, Nat.zero_add] at hb
    constructor
    · apply BitVec.eq_of_getElem_eq
      intro i hi
      have h1 := hb (m + i) (by omega)
      have h2 : ¬ m + i < m := by omega
      have h3 : m + i - m = i := by omega
      have h4 : m + i < k := by omega
      simpa [fld, h2, h3, h4] using h1
    · apply BitVec.eq_of_getElem_eq
      intro i hi
      have h1 := hb i (by omega)
      have h4 : i < k := by omega
      simpa [hi, h4, BitVec.getLsbD_eq_getElem hi] using h1
  · rintro ⟨ha, hb⟩
    apply BitVec.eq_of_getElem_eq
    intro i hi
    simp only [fld, BitVec.getElem_extractLsb', BitVec.getLsbD_append, Nat.zero_add]
    by_cases hl : i < m
    · simp [hl, hb]
    · have := congrArg (fun v => v.getLsbD (i - m)) ha
      have h4 : i - m < k - m := by omega
      simpa [fld, hl, h4] using this

@[simp] theorem join_imm (v : BitVec 12) : fld v 5 7 ++ fld v 0 5 = v := by
  apply BitVec.eq_of_getElem_eq
  intro i hi
  simp only [fld, BitVec.getElem_append, BitVec.getElem_extractLsb', Nat.zero_add]
  by_cases h : i < 5
  · simp [h, BitVec.getLsbD_eq_getElem hi]
  · have : 5 + (i - 5) = i := by omega
    simp [h, this, BitVec.getLsbD_eq_getElem hi]

theorem w32_back (w : Word) : (w32 w).setWidth 32 = w := by
  simp

@[simp] theorem ofBool_back (b : Bool) : (BitVec.ofBool b == 1#1) = b := by cases b <;> rfl
@[simp] theorem scope_back (c : Scope) : Scope.ofCode c.code = some c := by cases c <;> rfl
@[simp] theorem ord_back (c : Ord) : Ord.ofCode c.code = c := by cases c <;> rfl
@[simp] theorem acc_back (c : Acc) : Acc.ofCode c.code = some c := by cases c <;> rfl
@[simp] theorem rm_back (c : Rm) : Rm.ofCode c.code = c := by cases c <;> rfl
@[simp] theorem kind_back (c : TileKind) : TileKind.ofCode c.code = some c := by cases c <;> rfl
@[simp] theorem fmt_back (c : Fmt) : Fmt.ofCode c.code = some c := by cases c <;> rfl

theorem et_vec {f : Fmt} (h : f.isVec = true) : Fmt.ofEt f.et = f := by cases f <;> first | rfl | exact absurd h (by decide)
theorem et_float {f : Fmt} (h : f.isFloat = true) : Fmt.ofEt f.et = f := by cases f <;> first | rfl | exact absurd h (by decide)
theorem et_int {f : Fmt} (h : f.isInt = true) : Fmt.ofEt f.et = f := by cases f <;> first | rfl | exact absurd h (by decide)
theorem et_exp {f : Fmt} (h : f.isExp = true) : Fmt.ofEt f.et = f := by cases f <;> first | rfl | exact absurd h (by decide)
theorem et_rand {f : Fmt} (h : f.isRand = true) : Fmt.ofEt f.et = f := by cases f <;> first | rfl | exact absurd h (by decide)

@[simp] theorem need_true (r : Except DecodeError Instr) : need true r = r := rfl
@[simp] theorem coded_some {α : Type} (a : α) (k : α → Except DecodeError Instr) : coded (some a) k = k a := rfl
theorem allow_ok {i : Instr} (h : i.wf = true) : allow i = .ok i := by simp [allow, h]

end Sys2Proof.Laws
end

