-- ==== Sys2Proof/Laws/Decode.lean ====
section
/-! SUPPORT. The decoder, opcode by opcode: what each arm of it answers. -/

namespace Sys2Proof.Laws

open Sys2Proof

theorem decodeBOp_beq (w : Word) : decodeBOp w 1 = allow (.beq ⟨fld w 21 5, fld w 16 5, fld w 0 16⟩) := rfl
theorem decodeBOp_bne (w : Word) : decodeBOp w 2 = allow (.bne ⟨fld w 21 5, fld w 16 5, fld w 0 16⟩) := rfl
theorem decodeBOp_blt (w : Word) : decodeBOp w 3 = allow (.blt ⟨fld w 21 5, fld w 16 5, fld w 0 16⟩) := rfl
theorem decodeBOp_bge (w : Word) : decodeBOp w 4 = allow (.bge ⟨fld w 21 5, fld w 16 5, fld w 0 16⟩) := rfl
theorem decodeBOp_bltu (w : Word) : decodeBOp w 5 = allow (.bltu ⟨fld w 21 5, fld w 16 5, fld w 0 16⟩) := rfl
theorem decodeBOp_bgeu (w : Word) : decodeBOp w 6 = allow (.bgeu ⟨fld w 21 5, fld w 16 5, fld w 0 16⟩) := rfl
theorem decodeBOp_bpt (w : Word) : decodeBOp w 7 =
    need (fld w 16 6 == 0) (allow (.bpt ⟨fld w 22 4, fld w 0 16⟩)) := rfl
theorem decodeBOp_bpf (w : Word) : decodeBOp w 8 =
    need (fld w 16 6 == 0) (allow (.bpf ⟨fld w 22 4, fld w 0 16⟩)) := rfl
theorem decodeBOp_jmp (w : Word) : decodeBOp w 9 = need (fld w 21 5 == 0) (allow (.jmp (fld w 0 21))) := rfl
theorem decodeBOp_call (w : Word) : decodeBOp w 10 = allow (.call ⟨fld w 21 5, fld w 0 21⟩) := rfl
theorem decodeBOp_ret (w : Word) : decodeBOp w 11 = need (fld w 0 21 == 0) (allow (.ret (fld w 21 5))) := rfl
theorem decodeBOp_loop (w : Word) : decodeBOp w 12 =
    need (fld w 18 3 == 0) (allow (.loop ⟨fld w 21 5, fld w 18 3, fld w 8 10, fld w 4 4, fld w 0 4⟩)) := rfl
theorem decodeBOp_loopW (w : Word) : decodeBOp w 13 =
    need (fld w 18 3 == 0) (allow (.loopW ⟨fld w 21 5, fld w 18 3, fld w 8 10, fld w 4 4, fld w 0 4⟩)) := rfl
theorem decodeBOp_loopSp (w : Word) : decodeBOp w 14 =
    allow (.loopSp ⟨fld w 21 5, fld w 18 3, fld w 8 10, fld w 4 4, fld w 0 4⟩) := rfl
theorem decodeBOp_lend (w : Word) : decodeBOp w 15 = need (fld w 0 21 == 0) (allow (.lend (fld w 21 5))) := rfl
theorem decodeBOp_lbrk (w : Word) : decodeBOp w 16 = need (fld w 0 21 == 0) (allow (.lbrk (fld w 21 5))) := rfl
theorem decodeBOp_wait (w : Word) : decodeBOp w 17 =
    need (fld w 0 2 == 0) (allow (.wait ⟨fld w 19 7, fld w 13 6, fld w 8 5, fld w 2 6⟩)) := rfl
theorem decodeBOp_setfmt (w : Word) : decodeBOp w 18 =
    need (fld w 4 22 == 0) (coded (Acc.ofCode (fld w 2 2)) fun a => allow (.setfmt a (Rm.ofCode (fld w 0 2)))) := rfl
theorem decodeBOp_litset (w : Word) : decodeBOp w 19 = need (fld w 0 21 == 0) (allow (.litset (fld w 21 5))) := rfl
theorem decodeBOp_sstep (w : Word) : decodeBOp w 20 = need (fld w 0 26 == 0) (allow .sstep) := rfl
theorem decodeBOp_iinv (w : Word) : decodeBOp w 21 = need (fld w 0 21 == 0) (allow (.iinv (fld w 21 5))) := rfl
theorem decodeBOp_yield (w : Word) : decodeBOp w 22 = need (fld w 0 26 == 0) (allow .yield) := rfl
theorem decodeBOp_halt (w : Word) : decodeBOp w 23 = need (fld w 0 26 == 0) (allow .halt) := rfl
theorem decodeBOp_trap (w : Word) : decodeBOp w 24 = need (fld w 8 18 == 0) (allow (.trap (fld w 0 8))) := rfl
theorem decodeBOp_tret (w : Word) : decodeBOp w 25 = need (fld w 0 26 == 0) (allow .tret) := rfl
theorem decodeVOp_vadd (sl : Slot) (w : Word) : decodeVOp sl w 0x1 =
    allow (.vadd ⟨fld w 19 6, fld w 13 6, fld w 7 6, Fmt.ofEt (fld w 4 3), fld w 0 4⟩) := rfl
theorem decodeVOp_vsub (sl : Slot) (w : Word) : decodeVOp sl w 0x2 =
    allow (.vsub ⟨fld w 19 6, fld w 13 6, fld w 7 6, Fmt.ofEt (fld w 4 3), fld w 0 4⟩) := rfl
theorem decodeVOp_vmul (sl : Slot) (w : Word) : decodeVOp sl w 0x3 =
    allow (.vmul ⟨fld w 19 6, fld w 13 6, fld w 7 6, Fmt.ofEt (fld w 4 3), fld w 0 4⟩) := rfl
theorem decodeVOp_vdiv (sl : Slot) (w : Word) : decodeVOp sl w 0x4 =
    allow (.vdiv ⟨fld w 19 6, fld w 13 6, fld w 7 6, Fmt.ofEt (fld w 4 3), fld w 0 4⟩) := rfl
theorem decodeVOp_vmin (sl : Slot) (w : Word) : decodeVOp sl w 0x5 =
    allow (.vmin ⟨fld w 19 6, fld w 13 6, fld w 7 6, Fmt.ofEt (fld w 4 3), fld w 0 4⟩) := rfl
theorem decodeVOp_vmax (sl : Slot) (w : Word) : decodeVOp sl w 0x6 =
    allow (.vmax ⟨fld w 19 6, fld w 13 6, fld w 7 6, Fmt.ofEt (fld w 4 3), fld w 0 4⟩) := rfl
theorem decodeVOp_vabs (sl : Slot) (w : Word) : decodeVOp sl w 0x7 =
    need (fld w 7 6 == 0) (allow (.vabs ⟨fld w 19 6, fld w 13 6, Fmt.ofEt (fld w 4 3), fld w 0 4⟩)) := rfl
theorem decodeVOp_vneg (sl : Slot) (w : Word) : decodeVOp sl w 0x8 =
    need (fld w 7 6 == 0) (allow (.vneg ⟨fld w 19 6, fld w 13 6, Fmt.ofEt (fld w 4 3), fld w 0 4⟩)) := rfl
theorem decodeVOp_vfma (sl : Slot) (w : Word) : decodeVOp sl w 0x9 =
    allow (.vfma ⟨fld w 19 6, fld w 13 6, fld w 7 6, Fmt.ofEt (fld w 4 3), fld w 0 4⟩) := rfl
theorem decodeVOp_vfms (sl : Slot) (w : Word) : decodeVOp sl w 0xa =
    allow (.vfms ⟨fld w 19 6, fld w 13 6, fld w 7 6, Fmt.ofEt (fld w 4 3), fld w 0 4⟩) := rfl
theorem decodeVOp_vsqrt (sl : Slot) (w : Word) : decodeVOp sl w 0xb =
    need (fld w 7 6 == 0) (allow (.vsqrt ⟨fld w 19 6, fld w 13 6, Fmt.ofEt (fld w 4 3), fld w 0 4⟩)) := rfl
theorem decodeVOp_vrcp (sl : Slot) (w : Word) : decodeVOp sl w 0xc =
    need (fld w 7 6 == 0) (allow (.vrcp ⟨fld w 19 6, fld w 13 6, Fmt.ofEt (fld w 4 3), fld w 0 4⟩)) := rfl
theorem decodeVOp_vrsqrt (sl : Slot) (w : Word) : decodeVOp sl w 0xd =
    need (fld w 7 6 == 0) (allow (.vrsqrt ⟨fld w 19 6, fld w 13 6, Fmt.ofEt (fld w 4 3), fld w 0 4⟩)) := rfl
theorem decodeVOp_vexp2 (sl : Slot) (w : Word) : decodeVOp sl w 0xe =
    need (fld w 7 6 == 0) (allow (.vexp2 ⟨fld w 19 6, fld w 13 6, Fmt.ofEt (fld w 4 3), fld w 0 4⟩)) := rfl
theorem decodeVOp_vlog2 (sl : Slot) (w : Word) : decodeVOp sl w 0xf =
    need (fld w 7 6 == 0) (allow (.vlog2 ⟨fld w 19 6, fld w 13 6, Fmt.ofEt (fld w 4 3), fld w 0 4⟩)) := rfl
theorem decodeVOp_vand (sl : Slot) (w : Word) : decodeVOp sl w 0x10 =
    allow (.vand ⟨fld w 19 6, fld w 13 6, fld w 7 6, Fmt.ofEt (fld w 4 3), fld w 0 4⟩) := rfl
theorem decodeVOp_vor (sl : Slot) (w : Word) : decodeVOp sl w 0x11 =
    allow (.vor ⟨fld w 19 6, fld w 13 6, fld w 7 6, Fmt.ofEt (fld w 4 3), fld w 0 4⟩) := rfl
theorem decodeVOp_vxor (sl : Slot) (w : Word) : decodeVOp sl w 0x12 =
    allow (.vxor ⟨fld w 19 6, fld w 13 6, fld w 7 6, Fmt.ofEt (fld w 4 3), fld w 0 4⟩) := rfl
theorem decodeVOp_vnot (sl : Slot) (w : Word) : decodeVOp sl w 0x13 =
    need (fld w 7 6 == 0) (allow (.vnot ⟨fld w 19 6, fld w 13 6, Fmt.ofEt (fld w 4 3), fld w 0 4⟩)) := rfl
theorem decodeVOp_vshl (sl : Slot) (w : Word) : decodeVOp sl w 0x14 =
    allow (.vshl ⟨fld w 19 6, fld w 13 6, fld w 7 6, Fmt.ofEt (fld w 4 3), fld w 0 4⟩) := rfl
theorem decodeVOp_vshr (sl : Slot) (w : Word) : decodeVOp sl w 0x15 =
    allow (.vshr ⟨fld w 19 6, fld w 13 6, fld w 7 6, Fmt.ofEt (fld w 4 3), fld w 0 4⟩) := rfl
theorem decodeVOp_vsra (sl : Slot) (w : Word) : decodeVOp sl w 0x16 =
    allow (.vsra ⟨fld w 19 6, fld w 13 6, fld w 7 6, Fmt.ofEt (fld w 4 3), fld w 0 4⟩) := rfl
theorem decodeVOp_vadds (sl : Slot) (w : Word) : decodeVOp sl w 0x17 =
    allow (.vadds ⟨fld w 19 6, fld w 13 6, fld w 7 6, Fmt.ofEt (fld w 4 3), fld w 0 4⟩) := rfl
theorem decodeVOp_vsubs (sl : Slot) (w : Word) : decodeVOp sl w 0x18 =
    allow (.vsubs ⟨fld w 19 6, fld w 13 6, fld w 7 6, Fmt.ofEt (fld w 4 3), fld w 0 4⟩) := rfl
theorem decodeVOp_vmulh (sl : Slot) (w : Word) : decodeVOp sl w 0x19 =
    allow (.vmulh ⟨fld w 19 6, fld w 13 6, fld w 7 6, Fmt.ofEt (fld w 4 3), fld w 0 4⟩) := rfl
theorem decodeVOp_vbcast (sl : Slot) (w : Word) : decodeVOp sl w 0x1a =
need (fld w 13 6 == 0 && fld w 12 1 == 0) (allow (.vbcast ⟨fld w 19 6, fld w 7 5, Fmt.ofEt (fld w 4 3), fld w 0 4⟩))
    := rfl
theorem decodeVOp_vmovx (sl : Slot) (w : Word) : decodeVOp sl w 0x1b =
need (fld w 13 6 == 0 && fld w 12 1 == 0) (allow (.vmovx ⟨fld w 19 6, fld w 7 5, Fmt.ofEt (fld w 4 3), fld w 0 4⟩))
    := rfl
theorem decodeVOp_vmov (sl : Slot) (w : Word) : decodeVOp sl w 0x1c =
    need (fld w 7 6 == 0) (allow (.vmov ⟨fld w 19 6, fld w 13 6, Fmt.ofEt (fld w 4 3), fld w 0 4⟩)) := rfl
theorem decodeVOp_viota (sl : Slot) (w : Word) : decodeVOp sl w 0x1d =
    need (fld w 13 6 == 0 && fld w 7 6 == 0) (allow (.viota ⟨fld w 19 6, Fmt.ofEt (fld w 4 3), fld w 0 4⟩)) := rfl
theorem decodeVOp_vli (sl : Slot) (w : Word) : decodeVOp sl w 0x1e =
    allow (.vli ⟨fld w 19 6, fld w 7 12, Fmt.ofEt (fld w 4 3), fld w 0 4⟩) := rfl
theorem decodeVOp_vcmpEq (sl : Slot) (w : Word) : decodeVOp sl w 0x20 =
need (fld w 23 2 == 0) (allow (.vcmpEq ⟨fld w 19 4, fld w 13 6, fld w 7 6, Fmt.ofEt (fld w 4 3), fld w 0 4⟩)) := rfl
theorem decodeVOp_vcmpNe (sl : Slot) (w : Word) : decodeVOp sl w 0x21 =
need (fld w 23 2 == 0) (allow (.vcmpNe ⟨fld w 19 4, fld w 13 6, fld w 7 6, Fmt.ofEt (fld w 4 3), fld w 0 4⟩)) := rfl
theorem decodeVOp_vcmpLt (sl : Slot) (w : Word) : decodeVOp sl w 0x22 =
need (fld w 23 2 == 0) (allow (.vcmpLt ⟨fld w 19 4, fld w 13 6, fld w 7 6, Fmt.ofEt (fld w 4 3), fld w 0 4⟩)) := rfl
theorem decodeVOp_vcmpLe (sl : Slot) (w : Word) : decodeVOp sl w 0x23 =
need (fld w 23 2 == 0) (allow (.vcmpLe ⟨fld w 19 4, fld w 13 6, fld w 7 6, Fmt.ofEt (fld w 4 3), fld w 0 4⟩)) := rfl
theorem decodeVOp_vcmpUn (sl : Slot) (w : Word) : decodeVOp sl w 0x24 =
need (fld w 23 2 == 0) (allow (.vcmpUn ⟨fld w 19 4, fld w 13 6, fld w 7 6, Fmt.ofEt (fld w 4 3), fld w 0 4⟩)) := rfl
theorem decodeVOp_vcmpLtu (sl : Slot) (w : Word) : decodeVOp sl w 0x25 =
need (fld w 23 2 == 0) (allow (.vcmpLtu ⟨fld w 19 4, fld w 13 6, fld w 7 6, Fmt.ofEt (fld w 4 3), fld w 0 4⟩)) :=
    rfl
theorem decodeVOp_vcmpLeu (sl : Slot) (w : Word) : decodeVOp sl w 0x26 =
need (fld w 23 2 == 0) (allow (.vcmpLeu ⟨fld w 19 4, fld w 13 6, fld w 7 6, Fmt.ofEt (fld w 4 3), fld w 0 4⟩)) :=
    rfl
theorem decodeVOp_vpand (sl : Slot) (w : Word) : decodeVOp sl w 0x28 =
need (fld w 23 2 == 0 && fld w 17 2 == 0 && fld w 11 2 == 0) (allow (.vpand ⟨fld w 19 4, fld w 13 4, fld w 7 4,
    Fmt.ofEt (fld w 4 3), fld w 0 4⟩)) := rfl
theorem decodeVOp_vpor (sl : Slot) (w : Word) : decodeVOp sl w 0x29 =
need (fld w 23 2 == 0 && fld w 17 2 == 0 && fld w 11 2 == 0) (allow (.vpor ⟨fld w 19 4, fld w 13 4, fld w 7 4,
    Fmt.ofEt (fld w 4 3), fld w 0 4⟩)) := rfl
theorem decodeVOp_vpxor (sl : Slot) (w : Word) : decodeVOp sl w 0x2a =
need (fld w 23 2 == 0 && fld w 17 2 == 0 && fld w 11 2 == 0) (allow (.vpxor ⟨fld w 19 4, fld w 13 4, fld w 7 4,
    Fmt.ofEt (fld w 4 3), fld w 0 4⟩)) := rfl
theorem decodeVOp_vpnot (sl : Slot) (w : Word) : decodeVOp sl w 0x2b =
need (fld w 23 2 == 0 && fld w 17 2 == 0 && fld w 7 6 == 0) (allow (.vpnot ⟨fld w 19 4, fld w 13 4, Fmt.ofEt (fld w
    4 3), fld w 0 4⟩)) := rfl
theorem decodeVOp_vpset (sl : Slot) (w : Word) : decodeVOp sl w 0x2c =
need (fld w 23 2 == 0 && fld w 13 6 == 0 && fld w 7 6 == 0) (allow (.vpset ⟨fld w 19 4, Fmt.ofEt (fld w 4 3), fld w
    0 4⟩)) := rfl
theorem decodeVOp_vpcnt (sl : Slot) (w : Word) : decodeVOp sl w 0x2d =
need (fld w 19 6 == 0 && fld w 17 2 == 0 && fld w 12 1 == 0) (allow (.vpcnt ⟨fld w 13 4, fld w 7 5, Fmt.ofEt (fld w
    4 3), fld w 0 4⟩)) := rfl
theorem decodeVOp_vpfirst (sl : Slot) (w : Word) : decodeVOp sl w 0x2e =
need (fld w 19 6 == 0 && fld w 17 2 == 0 && fld w 12 1 == 0) (allow (.vpfirst ⟨fld w 13 4, fld w 7 5, Fmt.ofEt (fld
    w 4 3), fld w 0 4⟩)) := rfl
theorem decodeVOp_vsel (sl : Slot) (w : Word) : decodeVOp sl w 0x30 =
    allow (.vsel ⟨fld w 19 6, fld w 13 6, fld w 7 6, Fmt.ofEt (fld w 4 3), fld w 0 4⟩) := rfl
theorem decodeVOp_vperm (sl : Slot) (w : Word) : decodeVOp sl w 0x31 =
    allow (.vperm ⟨fld w 19 6, fld w 13 6, fld w 7 6, Fmt.ofEt (fld w 4 3), fld w 0 4⟩) := rfl
theorem decodeVOp_vslideup (sl : Slot) (w : Word) : decodeVOp sl w 0x32 =
    allow (.vslideup ⟨fld w 19 6, fld w 13 6, fld w 7 6, Fmt.ofEt (fld w 4 3), fld w 0 4⟩) := rfl
theorem decodeVOp_vslidedn (sl : Slot) (w : Word) : decodeVOp sl w 0x33 =
    allow (.vslidedn ⟨fld w 19 6, fld w 13 6, fld w 7 6, Fmt.ofEt (fld w 4 3), fld w 0 4⟩) := rfl
theorem decodeVOp_vzip (sl : Slot) (w : Word) : decodeVOp sl w 0x34 =
    allow (.vzip ⟨fld w 19 6, fld w 13 6, fld w 7 6, Fmt.ofEt (fld w 4 3), fld w 0 4⟩) := rfl
theorem decodeVOp_vunzip (sl : Slot) (w : Word) : decodeVOp sl w 0x35 =
    allow (.vunzip ⟨fld w 19 6, fld w 13 6, fld w 7 6, Fmt.ofEt (fld w 4 3), fld w 0 4⟩) := rfl
theorem decodeVOp_vcompress (sl : Slot) (w : Word) : decodeVOp sl w 0x36 =
    need (fld w 7 6 == 0) (allow (.vcompress ⟨fld w 19 6, fld w 13 6, Fmt.ofEt (fld w 4 3), fld w 0 4⟩)) := rfl
theorem decodeVOp_vexpand (sl : Slot) (w : Word) : decodeVOp sl w 0x37 =
    need (fld w 7 6 == 0) (allow (.vexpand ⟨fld w 19 6, fld w 13 6, Fmt.ofEt (fld w 4 3), fld w 0 4⟩)) := rfl
theorem decodeVOp_vredsum (sl : Slot) (w : Word) : decodeVOp sl w 0x38 =
    need (fld w 7 6 == 0) (allow (.vredsum ⟨fld w 19 6, fld w 13 6, Fmt.ofEt (fld w 4 3), fld w 0 4⟩)) := rfl
theorem decodeVOp_vredmax (sl : Slot) (w : Word) : decodeVOp sl w 0x39 =
    need (fld w 7 6 == 0) (allow (.vredmax ⟨fld w 19 6, fld w 13 6, Fmt.ofEt (fld w 4 3), fld w 0 4⟩)) := rfl
theorem decodeVOp_vredmin (sl : Slot) (w : Word) : decodeVOp sl w 0x3a =
    need (fld w 7 6 == 0) (allow (.vredmin ⟨fld w 19 6, fld w 13 6, Fmt.ofEt (fld w 4 3), fld w 0 4⟩)) := rfl
theorem decodeVOp_vscansum (sl : Slot) (w : Word) : decodeVOp sl w 0x3b =
    need (fld w 7 6 == 0) (allow (.vscansum ⟨fld w 19 6, fld w 13 6, Fmt.ofEt (fld w 4 3), fld w 0 4⟩)) := rfl
theorem decodeVOp_vscanmax (sl : Slot) (w : Word) : decodeVOp sl w 0x3c =
    need (fld w 7 6 == 0) (allow (.vscanmax ⟨fld w 19 6, fld w 13 6, Fmt.ofEt (fld w 4 3), fld w 0 4⟩)) := rfl
theorem decodeVOp_vargmax (sl : Slot) (w : Word) : decodeVOp sl w 0x3d =
    need (fld w 7 6 == 0) (allow (.vargmax ⟨fld w 19 6, fld w 13 6, Fmt.ofEt (fld w 4 3), fld w 0 4⟩)) := rfl
theorem decodeVOp_vbitonic (sl : Slot) (w : Word) : decodeVOp sl w 0x3e =
    allow (.vbitonic ⟨fld w 19 6, fld w 13 6, fld w 10 3, fld w 7 3, Fmt.ofEt (fld w 4 3), fld w 0 4⟩) := rfl
theorem decodeVOp_vmulL6 (sl : Slot) (w : Word) : decodeVOp sl w 0x40 =
    need (fld w 4 3 == 0) (allow (.vmulL6 ⟨fld w 19 6, fld w 13 6, fld w 7 6, fld w 0 4⟩)) := rfl
theorem decodeVOp_vdotL6 (sl : Slot) (w : Word) : decodeVOp sl w 0x41 =
    need (fld w 4 3 == 0) (allow (.vdotL6 ⟨fld w 19 6, fld w 13 6, fld w 7 6, fld w 0 4⟩)) := rfl
theorem decodeVOp_vrand (sl : Slot) (w : Word) : decodeVOp sl w 0x42 =
    allow (.vrand ⟨fld w 19 6, fld w 13 6, fld w 7 6, Fmt.ofEt (fld w 4 3), fld w 0 4⟩) := rfl
theorem decodeVOp_vld (sl : Slot) (w : Word) : decodeVOp sl w 0x48 =
    allow (.vld ⟨fld w 19 6, fld w 15 4, fld w 10 5, (fld w 9 1 == 1 : Bool), fld w 0 9⟩) := rfl
theorem decodeVOp_vst (sl : Slot) (w : Word) : decodeVOp sl w 0x49 =
    need (!(fld w 9 1 == 1 : Bool)) (allow (.vst ⟨fld w 19 6, fld w 15 4, fld w 10 5, fld w 0 9⟩)) := rfl
theorem decodeVOp_vstm (sl : Slot) (w : Word) : decodeVOp sl w 0x4a =
need (!(fld w 9 1 == 1 : Bool) && fld w 4 5 == 0) (allow (.vstm ⟨fld w 19 6, fld w 15 4, fld w 10 5, fld w 0 4⟩)) :=
    rfl
theorem decodeVOp_vgather (sl : Slot) (w : Word) : decodeVOp sl w 0x4b =
    allow (.vgather ⟨fld w 19 6, fld w 15 4, fld w 10 5, (fld w 9 1 == 1 : Bool), fld w 0 9⟩) := rfl
theorem decodeVOp_vscatter (sl : Slot) (w : Word) : decodeVOp sl w 0x4c =
need (!(fld w 9 1 == 1 : Bool) && fld w 4 5 == 0) (allow (.vscatter ⟨fld w 19 6, fld w 15 4, fld w 10 5, fld w 0
    4⟩)) := rfl
theorem decodeVOp_ld (sl : Slot) (w : Word) : decodeVOp sl w 0x4d =
need (fld w 24 1 == 0) (allow (.ld ⟨fld w 19 5, fld w 15 4, fld w 10 5, (fld w 9 1 == 1 : Bool), fld w 0 9⟩)) := rfl
theorem decodeVOp_st (sl : Slot) (w : Word) : decodeVOp sl w 0x4e =
need (fld w 24 1 == 0 && !(fld w 9 1 == 1 : Bool)) (allow (.st ⟨fld w 19 5, fld w 15 4, fld w 10 5, fld w 0 9⟩)) :=
    rfl
theorem decodeVOp_ldSc (sl : Slot) (w : Word) : decodeVOp sl w 0x4f =
need (fld w 24 1 == 0 && (fld w 9 1 == 1 : Bool)) (allow (.ldSc ⟨fld w 19 5, fld w 15 4, fld w 10 5, fld w 0 9⟩)) :=
    rfl
theorem decodeVOp_stSc (sl : Slot) (w : Word) : decodeVOp sl w 0x50 =
need (fld w 24 1 == 0 && !(fld w 9 1 == 1 : Bool)) (allow (.stSc ⟨fld w 19 5, fld w 15 4, fld w 10 5, fld w 0 9⟩))
    := rfl
theorem decodeVOp_vpref (sl : Slot) (w : Word) : decodeVOp sl w 0x51 =
    need (fld w 19 6 == 0 && !(fld w 9 1 == 1 : Bool)) (allow (.vpref ⟨fld w 15 4, fld w 10 5, fld w 0 9⟩)) := rfl
theorem decodeVOp_amoadd (sl : Slot) (w : Word) : decodeVOp sl w 0x58 =
need (fld w 0 1 == 0) (coded (Scope.ofCode (fld w 3 3)) fun sc => allow (.amoadd ⟨fld w 20 5, fld w 15 5, fld w 11
    4, fld w 6 5, sc, (Ord.ofCode (fld w 1 2))⟩)) := rfl
theorem decodeVOp_amomin (sl : Slot) (w : Word) : decodeVOp sl w 0x59 =
need (fld w 0 1 == 0) (coded (Scope.ofCode (fld w 3 3)) fun sc => allow (.amomin ⟨fld w 20 5, fld w 15 5, fld w 11
    4, fld w 6 5, sc, (Ord.ofCode (fld w 1 2))⟩)) := rfl
theorem decodeVOp_amomax (sl : Slot) (w : Word) : decodeVOp sl w 0x5a =
need (fld w 0 1 == 0) (coded (Scope.ofCode (fld w 3 3)) fun sc => allow (.amomax ⟨fld w 20 5, fld w 15 5, fld w 11
    4, fld w 6 5, sc, (Ord.ofCode (fld w 1 2))⟩)) := rfl
theorem decodeVOp_amominu (sl : Slot) (w : Word) : decodeVOp sl w 0x5b =
need (fld w 0 1 == 0) (coded (Scope.ofCode (fld w 3 3)) fun sc => allow (.amominu ⟨fld w 20 5, fld w 15 5, fld w 11
    4, fld w 6 5, sc, (Ord.ofCode (fld w 1 2))⟩)) := rfl
theorem decodeVOp_amomaxu (sl : Slot) (w : Word) : decodeVOp sl w 0x5c =
need (fld w 0 1 == 0) (coded (Scope.ofCode (fld w 3 3)) fun sc => allow (.amomaxu ⟨fld w 20 5, fld w 15 5, fld w 11
    4, fld w 6 5, sc, (Ord.ofCode (fld w 1 2))⟩)) := rfl
theorem decodeVOp_amoand (sl : Slot) (w : Word) : decodeVOp sl w 0x5d =
need (fld w 0 1 == 0) (coded (Scope.ofCode (fld w 3 3)) fun sc => allow (.amoand ⟨fld w 20 5, fld w 15 5, fld w 11
    4, fld w 6 5, sc, (Ord.ofCode (fld w 1 2))⟩)) := rfl
theorem decodeVOp_amoor (sl : Slot) (w : Word) : decodeVOp sl w 0x5e =
need (fld w 0 1 == 0) (coded (Scope.ofCode (fld w 3 3)) fun sc => allow (.amoor ⟨fld w 20 5, fld w 15 5, fld w 11 4,
    fld w 6 5, sc, (Ord.ofCode (fld w 1 2))⟩)) := rfl
theorem decodeVOp_amoxor (sl : Slot) (w : Word) : decodeVOp sl w 0x5f =
need (fld w 0 1 == 0) (coded (Scope.ofCode (fld w 3 3)) fun sc => allow (.amoxor ⟨fld w 20 5, fld w 15 5, fld w 11
    4, fld w 6 5, sc, (Ord.ofCode (fld w 1 2))⟩)) := rfl
theorem decodeVOp_amoswap (sl : Slot) (w : Word) : decodeVOp sl w 0x60 =
need (fld w 0 1 == 0) (coded (Scope.ofCode (fld w 3 3)) fun sc => allow (.amoswap ⟨fld w 20 5, fld w 15 5, fld w 11
    4, fld w 6 5, sc, (Ord.ofCode (fld w 1 2))⟩)) := rfl
theorem decodeVOp_amocas (sl : Slot) (w : Word) : decodeVOp sl w 0x61 =
need (fld w 0 1 == 0) (coded (Scope.ofCode (fld w 3 3)) fun sc => allow (.amocas ⟨fld w 20 5, fld w 15 5, fld w 11
    4, fld w 6 5, sc, (Ord.ofCode (fld w 1 2))⟩)) := rfl
theorem decodeVOp_amoSc (sl : Slot) (w : Word) : decodeVOp sl w 0x62 =
need (fld w 0 1 == 0 && fld w 3 3 == 3 && fld w 1 2 == 3) (allow (.amoSc ⟨fld w 20 5, fld w 15 5, fld w 11 4, fld w
    6 5⟩)) := rfl
theorem decodeVOp_lda (sl : Slot) (w : Word) : decodeVOp sl w 0x63 =
need (fld w 0 1 == 0 && fld w 15 5 == 0 && fld w 1 2 == 1) (coded (Scope.ofCode (fld w 3 3)) fun sc => allow (.lda
    ⟨fld w 20 5, fld w 11 4, fld w 6 5, sc⟩)) := rfl
theorem decodeVOp_stl (sl : Slot) (w : Word) : decodeVOp sl w 0x64 =
need (fld w 0 1 == 0 && fld w 20 5 == 0 && fld w 1 2 == 2) (coded (Scope.ofCode (fld w 3 3)) fun sc => allow (.stl
    ⟨fld w 15 5, fld w 11 4, fld w 6 5, sc⟩)) := rfl
theorem decodeVOp_vfence (sl : Slot) (w : Word) : decodeVOp sl w 0x65 =
need (fld w 0 1 == 0 && fld w 6 19 == 0) (coded (Scope.ofCode (fld w 3 3)) fun sc => allow (.vfence ⟨sc, (Ord.ofCode
    (fld w 1 2))⟩)) := rfl
theorem decodeVOp_cflush (sl : Slot) (w : Word) : decodeVOp sl w 0x66 =
need (fld w 0 1 == 0 && fld w 20 5 == 0 && fld w 1 2 == 0) (coded (Scope.ofCode (fld w 3 3)) fun sc => allow
    (.cflush ⟨fld w 15 5, fld w 11 4, fld w 6 5, sc⟩)) := rfl
theorem decodeVOp_vamoadd (sl : Slot) (w : Word) : decodeVOp sl w 0x68 =
need (fld w 4 1 == 0) (coded (Scope.ofCode (fld w 7 3)) fun sc => allow (.vamoadd ⟨fld w 19 6, fld w 15 4, fld w 10
    5, sc, Ord.ofCode (fld w 5 2), fld w 0 4⟩)) := rfl
theorem decodeVOp_vamomin (sl : Slot) (w : Word) : decodeVOp sl w 0x69 =
need (fld w 4 1 == 0) (coded (Scope.ofCode (fld w 7 3)) fun sc => allow (.vamomin ⟨fld w 19 6, fld w 15 4, fld w 10
    5, sc, Ord.ofCode (fld w 5 2), fld w 0 4⟩)) := rfl
theorem decodeVOp_vamomax (sl : Slot) (w : Word) : decodeVOp sl w 0x6a =
need (fld w 4 1 == 0) (coded (Scope.ofCode (fld w 7 3)) fun sc => allow (.vamomax ⟨fld w 19 6, fld w 15 4, fld w 10
    5, sc, Ord.ofCode (fld w 5 2), fld w 0 4⟩)) := rfl
theorem decodeVOp_vredst (sl : Slot) (w : Word) : decodeVOp sl w 0x6b =
need (fld w 4 1 == 0) (coded (Scope.ofCode (fld w 7 3)) fun sc => allow (.vredst ⟨fld w 19 6, fld w 15 4, fld w 10
    5, sc, Ord.ofCode (fld w 5 2), fld w 0 4⟩)) := rfl
theorem decodeVOp_cldh (sl : Slot) (w : Word) : decodeVOp sl w 0x70 =
    need (fld w 7 5 == 0) (allow (.cldh ⟨fld w 21 4, fld w 17 4, fld w 12 5, fld w 0 7⟩)) := rfl
theorem decodeVOp_csth (sl : Slot) (w : Word) : decodeVOp sl w 0x71 =
    need (fld w 7 5 == 0) (allow (.csth ⟨fld w 21 4, fld w 17 4, fld w 12 5, fld w 0 7⟩)) := rfl
theorem decodeVOp_cnarrow (sl : Slot) (w : Word) : decodeVOp sl w 0x72 =
    allow (.cnarrow ⟨fld w 21 4, fld w 17 4, fld w 12 5, fld w 7 5, fld w 0 7⟩) := rfl
theorem decodeVOp_cget (sl : Slot) (w : Word) : decodeVOp sl w 0x73 =
    need (fld w 21 4 == 0 && fld w 7 5 == 0) (allow (.cget ⟨fld w 17 4, fld w 12 5, fld w 0 7⟩)) := rfl
theorem decodeVOp_cmov (sl : Slot) (w : Word) : decodeVOp sl w 0x74 =
    need (fld w 12 5 == 0 && fld w 7 5 == 0 && fld w 0 7 == 0) (allow (.cmov ⟨fld w 21 4, fld w 17 4⟩)) := rfl
theorem decodeVOp_cclr (sl : Slot) (w : Word) : decodeVOp sl w 0x75 =
    need (fld w 0 21 == 0) (allow (.cclr (fld w 21 4))) := rfl
theorem decodeVOp_binit (sl : Slot) (w : Word) : decodeVOp sl w 0x76 =
need (fld w 21 4 == 0 && fld w 1 6 == 0) (allow (.binit ⟨fld w 17 4, fld w 12 5, fld w 7 5, fld w 0 1 == 1⟩)) := rfl
theorem decodeVOp_blink (sl : Slot) (w : Word) : decodeVOp sl w 0x77 =
    need (fld w 0 7 == 0) (allow (.blink ⟨fld w 21 4, fld w 17 4, fld w 12 5, fld w 7 5⟩)) := rfl
theorem decodeVOp_barrive (sl : Slot) (w : Word) : decodeVOp sl w 0x78 =
need (fld w 21 4 == 0 && fld w 3 4 == 0) (coded (Scope.ofCode (fld w 0 3)) fun sc => allow (.barrive ⟨fld w 17 4,
    fld w 12 5, fld w 7 5, sc⟩)) := rfl
theorem decodeVOp_bwaitp (sl : Slot) (w : Word) : decodeVOp sl w 0x79 =
need (fld w 21 4 == 0 && fld w 3 4 == 0) (coded (Scope.ofCode (fld w 0 3)) fun sc => allow (.bwaitp ⟨fld w 17 4, fld
    w 12 5, fld w 7 5, sc⟩)) := rfl
theorem decodeMOp_oclaim (w : DWord) : decodeMOp w 0x1 = need (fld w 0 53 == 0) (allow (.oclaim (fld w 53 5))) := rfl
theorem decodeMOp_orelease (w : DWord) : decodeMOp w 0x2 =
    need (fld w 0 53 == 0) (allow (.orelease (fld w 53 5))) := rfl
theorem decodeMOp_oload (w : DWord) : decodeMOp w 0x3 =
    need (fld w 49 4 == 0 && fld w 0 31 == 0) (allow (.oload ⟨fld w 53 5, fld w 43 6, fld w 37 6, fld w 31 6⟩)) := rfl
theorem decodeMOp_wload (w : DWord) : decodeMOp w 0x4 =
need (fld w 0 14 == 0) (allow (.wload ⟨fld w 53 5, fld w 49 4, fld w 44 5, fld w 35 9, fld w 19 16, fld w 14 5⟩)) :=
    rfl
theorem decodeMOp_mzero (w : DWord) : decodeMOp w 0x5 =
need (fld w 53 1 == 0 && fld w 0 50 == 0) (coded (TileKind.ofCode (fld w 50 3)) fun k => allow (.mzero ⟨fld w 54 4,
    k⟩)) := rfl
theorem decodeMOp_mmov (w : DWord) : decodeMOp w 0x6 =
    need (fld w 0 50 == 0) (allow (.mmov ⟨fld w 54 4, fld w 50 4⟩)) := rfl
theorem decodeMOp_mrd (w : DWord) : decodeMOp w 0x7 =
    need (fld w 53 5 == 0 && fld w 0 31 == 0) (allow (.mrd ⟨fld w 49 4, fld w 43 6, fld w 37 6, fld w 31 6⟩)) := rfl
theorem decodeMOp_mwr (w : DWord) : decodeMOp w 0x8 =
    need (fld w 53 5 == 0 && fld w 0 31 == 0) (allow (.mwr ⟨fld w 49 4, fld w 43 6, fld w 37 6, fld w 31 6⟩)) := rfl
theorem decodeMOp_mmaF64 (w : DWord) : decodeMOp w 0x9 =
need (fld w 0 35 == 0) (allow (.mmaF64 ⟨fld w 54 4, fld w 49 5, fld w 44 5, fld w 43 1 == 1, fld w 42 1 == 1, fld w
    40 2, fld w 38 2, fld w 36 2, fld w 35 1 == 1⟩)) := rfl
theorem decodeMOp_mmaF32 (w : DWord) : decodeMOp w 0xa =
need (fld w 0 35 == 0) (allow (.mmaF32 ⟨fld w 54 4, fld w 49 5, fld w 44 5, fld w 43 1 == 1, fld w 42 1 == 1, fld w
    40 2, fld w 38 2, fld w 36 2, fld w 35 1 == 1⟩)) := rfl
theorem decodeMOp_mmaBf16 (w : DWord) : decodeMOp w 0xb =
need (fld w 0 35 == 0) (allow (.mmaBf16 ⟨fld w 54 4, fld w 49 5, fld w 44 5, fld w 43 1 == 1, fld w 42 1 == 1, fld w
    40 2, fld w 38 2, fld w 36 2, fld w 35 1 == 1⟩)) := rfl
theorem decodeMOp_mmaF16 (w : DWord) : decodeMOp w 0xc =
need (fld w 0 35 == 0) (allow (.mmaF16 ⟨fld w 54 4, fld w 49 5, fld w 44 5, fld w 43 1 == 1, fld w 42 1 == 1, fld w
    40 2, fld w 38 2, fld w 36 2, fld w 35 1 == 1⟩)) := rfl
theorem decodeMOp_mmaI8 (w : DWord) : decodeMOp w 0xd =
need (fld w 0 35 == 0) (allow (.mmaI8 ⟨fld w 54 4, fld w 49 5, fld w 44 5, fld w 43 1 == 1, fld w 42 1 == 1, fld w
    40 2, fld w 38 2, fld w 36 2, fld w 35 1 == 1⟩)) := rfl
theorem decodeMOp_mmaI4 (w : DWord) : decodeMOp w 0xe =
need (fld w 0 35 == 0) (allow (.mmaI4 ⟨fld w 54 4, fld w 49 5, fld w 44 5, fld w 43 1 == 1, fld w 42 1 == 1, fld w
    40 2, fld w 38 2, fld w 36 2, fld w 35 1 == 1⟩)) := rfl
theorem decodeMOp_mmaL6 (w : DWord) : decodeMOp w 0xf =
need (fld w 0 35 == 0) (allow (.mmaL6 ⟨fld w 54 4, fld w 49 5, fld w 44 5, fld w 43 1 == 1, fld w 42 1 == 1, fld w
    40 2, fld w 38 2, fld w 36 2, fld w 35 1 == 1⟩)) := rfl
theorem decodeMOp_mmaS24 (w : DWord) : decodeMOp w 0x10 =
need (fld w 0 35 == 0) (allow (.mmaS24 ⟨fld w 54 4, fld w 49 5, fld w 44 5, fld w 43 1 == 1, fld w 42 1 == 1, fld w
    40 2, fld w 38 2, fld w 36 2, fld w 35 1 == 1⟩)) := rfl
theorem decodeMOp_mmaS14 (w : DWord) : decodeMOp w 0x11 =
need (fld w 0 35 == 0) (allow (.mmaS14 ⟨fld w 54 4, fld w 49 5, fld w 44 5, fld w 43 1 == 1, fld w 42 1 == 1, fld w
    40 2, fld w 38 2, fld w 36 2, fld w 35 1 == 1⟩)) := rfl
theorem decodeMOp_mlrset (w : DWord) : decodeMOp w 0x12 =
need (fld w 50 4 == 0 && fld w 46 4 == 0 && (fld w 0 36 == 0)) (allow (.mlrset ⟨fld w 54 4, fld w 41 5, fld w 36
    5⟩)) := rfl
theorem decodeMOp_mlrmul (w : DWord) : decodeMOp w 0x13 =
    need (fld w 0 46 == 0) (allow (.mlrmul ⟨fld w 54 4, fld w 50 4, fld w 46 4⟩)) := rfl
theorem decodeMOp_mlrdm (w : DWord) : decodeMOp w 0x14 =
    need (fld w 0 46 == 0) (allow (.mlrdm ⟨fld w 54 4, fld w 50 4, fld w 46 4⟩)) := rfl
theorem decodeMOp_mdmlr (w : DWord) : decodeMOp w 0x15 =
    need (fld w 0 46 == 0) (allow (.mdmlr ⟨fld w 54 4, fld w 50 4, fld w 46 4⟩)) := rfl
theorem decodeMOp_mlradd (w : DWord) : decodeMOp w 0x16 =
    need (fld w 0 46 == 0) (allow (.mlradd ⟨fld w 54 4, fld w 50 4, fld w 46 4⟩)) := rfl
theorem decodeMOp_mrecomp (w : DWord) : decodeMOp w 0x17 =
    need (fld w 0 50 == 0) (allow (.mrecomp ⟨fld w 54 4, fld w 50 4⟩)) := rfl
theorem decodeMOp_mdense (w : DWord) : decodeMOp w 0x18 =
    need (fld w 0 50 == 0) (allow (.mdense ⟨fld w 54 4, fld w 50 4⟩)) := rfl
theorem decodeMOp_mrank (w : DWord) : decodeMOp w 0x19 =
need (fld w 54 4 == 0 && fld w 46 4 == 0 && fld w 41 5 == 0 && (fld w 0 36 == 0)) (allow (.mrank ⟨fld w 50 4, fld w
    36 5⟩)) := rfl
theorem decodeMOp_mbflyC64 (w : DWord) : decodeMOp w 0x1a =
need (fld w 46 4 == 0 && fld w 41 5 == 0 && (fld w 0 36 == 0)) (allow (.mbflyC64 ⟨fld w 54 4, fld w 50 4, fld w 36
    5⟩)) := rfl
theorem decodeMOp_mbflyC128 (w : DWord) : decodeMOp w 0x1b =
need (fld w 46 4 == 0 && fld w 41 5 == 0 && (fld w 0 36 == 0)) (allow (.mbflyC128 ⟨fld w 54 4, fld w 50 4, fld w 36
    5⟩)) := rfl
theorem decodeMOp_mbrev (w : DWord) : decodeMOp w 0x1c =
    need (fld w 46 4 == 0 && fld w 0 41 == 0) (allow (.mbrev ⟨fld w 54 4, fld w 50 4, fld w 41 5⟩)) := rfl
theorem decodeMOp_mtwmulC64 (w : DWord) : decodeMOp w 0x1d =
need (fld w 46 4 == 0 && fld w 41 5 == 0 && (fld w 0 36 == 0)) (allow (.mtwmulC64 ⟨fld w 54 4, fld w 50 4, fld w 36
    5⟩)) := rfl
theorem decodeMOp_mtwmulC128 (w : DWord) : decodeMOp w 0x1e =
need (fld w 46 4 == 0 && fld w 41 5 == 0 && (fld w 0 36 == 0)) (allow (.mtwmulC128 ⟨fld w 54 4, fld w 50 4, fld w 36
    5⟩)) := rfl
theorem decodeCOp_cjob (sl : Slot) (w : DWord) : decodeCOp sl w 1 =
    need (fld w 0 12 == 0) (allow (.cjob ⟨fld w 54 4, fld w 49 5, fld w 33 16, fld w 17 16, fld w 12 5⟩)) := rfl
theorem decodeCOp_cjobv (sl : Slot) (w : DWord) : decodeCOp sl w 2 =
    need (fld w 0 47 == 0) (allow (.cjobv ⟨fld w 52 6, fld w 47 5⟩)) := rfl
theorem decodeCOp_cwpe (sl : Slot) (w : DWord) : decodeCOp sl w 3 =
    need (fld w 0 12 == 0) (allow (.cwpe ⟨fld w 54 4, fld w 49 5, fld w 33 16, fld w 17 16, fld w 12 5⟩)) := rfl
theorem decodeCOp_cquery (sl : Slot) (w : DWord) : decodeCOp sl w 4 =
    need (fld w 54 4 == 0 && fld w 44 5 == 0 && fld w 0 39 == 0) (allow (.cquery ⟨fld w 49 5, fld w 39 5⟩)) := rfl
theorem decodeCOp_ccancel (sl : Slot) (w : DWord) : decodeCOp sl w 5 =
    need (fld w 54 4 == 0 && fld w 0 49 == 0) (allow (.ccancel (fld w 49 5))) := rfl
theorem decodeCOp_csignal (sl : Slot) (w : DWord) : decodeCOp sl w 6 =
    need (fld w 0 39 == 0) (allow (.csignal ⟨fld w 54 4, fld w 49 5, fld w 44 5, fld w 39 5⟩)) := rfl
theorem decodeCOp_cfence (sl : Slot) (w : DWord) : decodeCOp sl w 7 = need (fld w 0 58 == 0) (allow .cfence) := rfl
theorem decodeXOp_xexpS24 (w : Word) : decodeXOp w 1 =
need (fld w 7 4 == 0 && (fld w 0 7 == 0)) (coded (Fmt.ofCode (fld w 11 4)) fun d => allow (.xexpS24 ⟨fld w 21 6, fld
    w 15 6, d⟩)) := rfl
theorem decodeXOp_xexpS14 (w : Word) : decodeXOp w 2 =
need (fld w 7 4 == 0 && (fld w 0 7 == 0)) (coded (Fmt.ofCode (fld w 11 4)) fun d => allow (.xexpS14 ⟨fld w 21 6, fld
    w 15 6, d⟩)) := rfl
theorem decodeXOp_xunpkL6 (w : Word) : decodeXOp w 3 =
    need (fld w 11 4 == 0 && fld w 7 4 == 0 && (fld w 0 7 == 0)) (allow (.xunpkL6 ⟨fld w 21 6, fld w 15 6⟩)) := rfl
theorem decodeXOp_xunpkI4 (w : Word) : decodeXOp w 4 =
    need (fld w 11 4 == 0 && fld w 7 4 == 0 && (fld w 0 7 == 0)) (allow (.xunpkI4 ⟨fld w 21 6, fld w 15 6⟩)) := rfl
theorem decodeXOp_xpackL6 (w : Word) : decodeXOp w 5 =
    need (fld w 11 4 == 0 && fld w 7 4 == 0 && (fld w 0 7 == 0)) (allow (.xpackL6 ⟨fld w 21 6, fld w 15 6⟩)) := rfl
theorem decodeXOp_xpackI4 (w : Word) : decodeXOp w 6 =
    need (fld w 11 4 == 0 && fld w 7 4 == 0 && (fld w 0 7 == 0)) (allow (.xpackI4 ⟨fld w 21 6, fld w 15 6⟩)) := rfl
theorem decodeXOp_xtr (w : Word) : decodeXOp w 7 =
need (fld w 11 4 == 0 && fld w 8 3 == 0 && (fld w 0 7 == 0)) (allow (.xtr ⟨fld w 21 6, fld w 15 6, fld w 7 1 == 1⟩))
    := rfl
theorem decodeXOp_xcvt (w : Word) : decodeXOp w 8 =
need (fld w 0 7 == 0) (coded (Fmt.ofCode (fld w 11 4)) fun d => coded (Fmt.ofCode (fld w 7 4)) fun src => allow
    (.xcvt ⟨fld w 21 6, fld w 15 6, d, src⟩)) := rfl
theorem decodeXOp_xscale (w : Word) : decodeXOp w 9 = need (fld w 0 22 == 0) (allow (.xscale (fld w 22 5))) := rfl
theorem decodeXOp_xscalei (w : Word) : decodeXOp w 0xA =
    need (fld w 22 5 == 0 && fld w 0 11 == 0) (allow (.xscalei (fld w 11 11))) := rfl
theorem decodeSOp_lui (w : Word) (a b c : Nat) : decodeSOp w 0x37 a b c = allow (.lui ⟨fld w 7 5, fld w 12 20⟩) := rfl
theorem decodeSOp_auipc (w : Word) (a b c : Nat) : decodeSOp w 0x17 a b c =
    allow (.auipc ⟨fld w 7 5, fld w 12 20⟩) := rfl
theorem decodeSOp_addi (w : Word) (b c : Nat) : decodeSOp w 0x13 0 b c =
    allow (.addi ⟨fld w 7 5, fld w 15 5, fld w 20 12⟩) := rfl
theorem decodeSOp_slti (w : Word) (b c : Nat) : decodeSOp w 0x13 2 b c =
    allow (.slti ⟨fld w 7 5, fld w 15 5, fld w 20 12⟩) := rfl
theorem decodeSOp_sltiu (w : Word) (b c : Nat) : decodeSOp w 0x13 3 b c =
    allow (.sltiu ⟨fld w 7 5, fld w 15 5, fld w 20 12⟩) := rfl
theorem decodeSOp_xori (w : Word) (b c : Nat) : decodeSOp w 0x13 4 b c =
    allow (.xori ⟨fld w 7 5, fld w 15 5, fld w 20 12⟩) := rfl
theorem decodeSOp_ori (w : Word) (b c : Nat) : decodeSOp w 0x13 6 b c =
    allow (.ori ⟨fld w 7 5, fld w 15 5, fld w 20 12⟩) := rfl
theorem decodeSOp_andi (w : Word) (b c : Nat) : decodeSOp w 0x13 7 b c =
    allow (.andi ⟨fld w 7 5, fld w 15 5, fld w 20 12⟩) := rfl
theorem decodeSOp_slli (w : Word) (c : Nat) : decodeSOp w 0x13 1 0 c =
    allow (.slli ⟨fld w 7 5, fld w 15 5, fld w 20 6⟩) := rfl
theorem decodeSOp_srli (w : Word) (c : Nat) : decodeSOp w 0x13 5 0 c =
    allow (.srli ⟨fld w 7 5, fld w 15 5, fld w 20 6⟩) := rfl
theorem decodeSOp_srai (w : Word) (c : Nat) : decodeSOp w 0x13 5 0x10 c =
    allow (.srai ⟨fld w 7 5, fld w 15 5, fld w 20 6⟩) := rfl
theorem decodeSOp_add (w : Word) (b : Nat) : decodeSOp w 0x33 0 b 0 =
    allow (.add ⟨fld w 7 5, fld w 15 5, fld w 20 5⟩) := rfl
theorem decodeSOp_sub (w : Word) (b : Nat) : decodeSOp w 0x33 0 b 32 =
    allow (.sub ⟨fld w 7 5, fld w 15 5, fld w 20 5⟩) := rfl
theorem decodeSOp_sll (w : Word) (b : Nat) : decodeSOp w 0x33 1 b 0 =
    allow (.sll ⟨fld w 7 5, fld w 15 5, fld w 20 5⟩) := rfl
theorem decodeSOp_slt (w : Word) (b : Nat) : decodeSOp w 0x33 2 b 0 =
    allow (.slt ⟨fld w 7 5, fld w 15 5, fld w 20 5⟩) := rfl
theorem decodeSOp_sltu (w : Word) (b : Nat) : decodeSOp w 0x33 3 b 0 =
    allow (.sltu ⟨fld w 7 5, fld w 15 5, fld w 20 5⟩) := rfl
theorem decodeSOp_xor (w : Word) (b : Nat) : decodeSOp w 0x33 4 b 0 =
    allow (.xor ⟨fld w 7 5, fld w 15 5, fld w 20 5⟩) := rfl
theorem decodeSOp_srl (w : Word) (b : Nat) : decodeSOp w 0x33 5 b 0 =
    allow (.srl ⟨fld w 7 5, fld w 15 5, fld w 20 5⟩) := rfl
theorem decodeSOp_sra (w : Word) (b : Nat) : decodeSOp w 0x33 5 b 32 =
    allow (.sra ⟨fld w 7 5, fld w 15 5, fld w 20 5⟩) := rfl
theorem decodeSOp_or (w : Word) (b : Nat) : decodeSOp w 0x33 6 b 0 =
    allow (.or ⟨fld w 7 5, fld w 15 5, fld w 20 5⟩) := rfl
theorem decodeSOp_and (w : Word) (b : Nat) : decodeSOp w 0x33 7 b 0 =
    allow (.and ⟨fld w 7 5, fld w 15 5, fld w 20 5⟩) := rfl
theorem decodeSOp_mul (w : Word) (b : Nat) : decodeSOp w 0x33 0 b 1 =
    allow (.mul ⟨fld w 7 5, fld w 15 5, fld w 20 5⟩) := rfl
theorem decodeSOp_mulh (w : Word) (b : Nat) : decodeSOp w 0x33 1 b 1 =
    allow (.mulh ⟨fld w 7 5, fld w 15 5, fld w 20 5⟩) := rfl
theorem decodeSOp_mulhsu (w : Word) (b : Nat) : decodeSOp w 0x33 2 b 1 =
    allow (.mulhsu ⟨fld w 7 5, fld w 15 5, fld w 20 5⟩) := rfl
theorem decodeSOp_mulhu (w : Word) (b : Nat) : decodeSOp w 0x33 3 b 1 =
    allow (.mulhu ⟨fld w 7 5, fld w 15 5, fld w 20 5⟩) := rfl
theorem decodeSOp_div (w : Word) (b : Nat) : decodeSOp w 0x33 4 b 1 =
    allow (.div ⟨fld w 7 5, fld w 15 5, fld w 20 5⟩) := rfl
theorem decodeSOp_divu (w : Word) (b : Nat) : decodeSOp w 0x33 5 b 1 =
    allow (.divu ⟨fld w 7 5, fld w 15 5, fld w 20 5⟩) := rfl
theorem decodeSOp_rem (w : Word) (b : Nat) : decodeSOp w 0x33 6 b 1 =
    allow (.rem ⟨fld w 7 5, fld w 15 5, fld w 20 5⟩) := rfl
theorem decodeSOp_remu (w : Word) (b : Nat) : decodeSOp w 0x33 7 b 1 =
    allow (.remu ⟨fld w 7 5, fld w 15 5, fld w 20 5⟩) := rfl
theorem decodeSOp_addiw (w : Word) (b c : Nat) : decodeSOp w 0x1B 0 b c =
    allow (.addiw ⟨fld w 7 5, fld w 15 5, fld w 20 12⟩) := rfl
theorem decodeSOp_slliw (w : Word) (b : Nat) : decodeSOp w 0x1B 1 b 0 =
    allow (.slliw ⟨fld w 7 5, fld w 15 5, fld w 20 5⟩) := rfl
theorem decodeSOp_srliw (w : Word) (b : Nat) : decodeSOp w 0x1B 5 b 0 =
    allow (.srliw ⟨fld w 7 5, fld w 15 5, fld w 20 5⟩) := rfl
theorem decodeSOp_sraiw (w : Word) (b : Nat) : decodeSOp w 0x1B 5 b 0x20 =
    allow (.sraiw ⟨fld w 7 5, fld w 15 5, fld w 20 5⟩) := rfl
theorem decodeSOp_addw (w : Word) (b : Nat) : decodeSOp w 0x3B 0 b 0 =
    allow (.addw ⟨fld w 7 5, fld w 15 5, fld w 20 5⟩) := rfl
theorem decodeSOp_subw (w : Word) (b : Nat) : decodeSOp w 0x3B 0 b 32 =
    allow (.subw ⟨fld w 7 5, fld w 15 5, fld w 20 5⟩) := rfl
theorem decodeSOp_sllw (w : Word) (b : Nat) : decodeSOp w 0x3B 1 b 0 =
    allow (.sllw ⟨fld w 7 5, fld w 15 5, fld w 20 5⟩) := rfl
theorem decodeSOp_srlw (w : Word) (b : Nat) : decodeSOp w 0x3B 5 b 0 =
    allow (.srlw ⟨fld w 7 5, fld w 15 5, fld w 20 5⟩) := rfl
theorem decodeSOp_sraw (w : Word) (b : Nat) : decodeSOp w 0x3B 5 b 32 =
    allow (.sraw ⟨fld w 7 5, fld w 15 5, fld w 20 5⟩) := rfl
theorem decodeSOp_mulw (w : Word) (b : Nat) : decodeSOp w 0x3B 0 b 1 =
    allow (.mulw ⟨fld w 7 5, fld w 15 5, fld w 20 5⟩) := rfl
theorem decodeSOp_divw (w : Word) (b : Nat) : decodeSOp w 0x3B 4 b 1 =
    allow (.divw ⟨fld w 7 5, fld w 15 5, fld w 20 5⟩) := rfl
theorem decodeSOp_divuw (w : Word) (b : Nat) : decodeSOp w 0x3B 5 b 1 =
    allow (.divuw ⟨fld w 7 5, fld w 15 5, fld w 20 5⟩) := rfl
theorem decodeSOp_remw (w : Word) (b : Nat) : decodeSOp w 0x3B 6 b 1 =
    allow (.remw ⟨fld w 7 5, fld w 15 5, fld w 20 5⟩) := rfl
theorem decodeSOp_remuw (w : Word) (b : Nat) : decodeSOp w 0x3B 7 b 1 =
    allow (.remuw ⟨fld w 7 5, fld w 15 5, fld w 20 5⟩) := rfl
theorem decodeSOp_lb (w : Word) (b c : Nat) : decodeSOp w 0x03 0 b c =
    allow (.lb ⟨fld w 7 5, fld w 15 5, fld w 20 12⟩) := rfl
theorem decodeSOp_lh (w : Word) (b c : Nat) : decodeSOp w 0x03 1 b c =
    allow (.lh ⟨fld w 7 5, fld w 15 5, fld w 20 12⟩) := rfl
theorem decodeSOp_lw (w : Word) (b c : Nat) : decodeSOp w 0x03 2 b c =
    allow (.lw ⟨fld w 7 5, fld w 15 5, fld w 20 12⟩) := rfl
theorem decodeSOp_sld (w : Word) (b c : Nat) : decodeSOp w 0x03 3 b c =
    allow (.sld ⟨fld w 7 5, fld w 15 5, fld w 20 12⟩) := rfl
theorem decodeSOp_lbu (w : Word) (b c : Nat) : decodeSOp w 0x03 4 b c =
    allow (.lbu ⟨fld w 7 5, fld w 15 5, fld w 20 12⟩) := rfl
theorem decodeSOp_lhu (w : Word) (b c : Nat) : decodeSOp w 0x03 5 b c =
    allow (.lhu ⟨fld w 7 5, fld w 15 5, fld w 20 12⟩) := rfl
theorem decodeSOp_lwu (w : Word) (b c : Nat) : decodeSOp w 0x03 6 b c =
    allow (.lwu ⟨fld w 7 5, fld w 15 5, fld w 20 12⟩) := rfl
theorem decodeSOp_sb (w : Word) (b c : Nat) : decodeSOp w 0x23 0 b c =
    allow (.sb ⟨fld w 15 5, fld w 20 5, fld w 25 7 ++ fld w 7 5⟩) := rfl
theorem decodeSOp_sh (w : Word) (b c : Nat) : decodeSOp w 0x23 1 b c =
    allow (.sh ⟨fld w 15 5, fld w 20 5, fld w 25 7 ++ fld w 7 5⟩) := rfl
theorem decodeSOp_sw (w : Word) (b c : Nat) : decodeSOp w 0x23 2 b c =
    allow (.sw ⟨fld w 15 5, fld w 20 5, fld w 25 7 ++ fld w 7 5⟩) := rfl
theorem decodeSOp_sd (w : Word) (b c : Nat) : decodeSOp w 0x23 3 b c =
    allow (.sd ⟨fld w 15 5, fld w 20 5, fld w 25 7 ++ fld w 7 5⟩) := rfl
theorem decodeSOp_fence (w : Word) (b c : Nat) : decodeSOp w 0x0F 0 b c =
    allow (.fence ⟨fld w 28 4, fld w 24 4, fld w 20 4, fld w 15 5, fld w 7 5⟩) := rfl
theorem decodeSOp_csrrw (w : Word) (b c : Nat) : decodeSOp w 0x73 1 b c =
    allow (.csrrw ⟨fld w 7 5, fld w 15 5, fld w 20 12⟩) := rfl
theorem decodeSOp_csrrs (w : Word) (b c : Nat) : decodeSOp w 0x73 2 b c =
    allow (.csrrs ⟨fld w 7 5, fld w 15 5, fld w 20 12⟩) := rfl
theorem decodeSOp_csrrc (w : Word) (b c : Nat) : decodeSOp w 0x73 3 b c =
    allow (.csrrc ⟨fld w 7 5, fld w 15 5, fld w 20 12⟩) := rfl
theorem decodeSOp_csrrwi (w : Word) (b c : Nat) : decodeSOp w 0x73 5 b c =
    allow (.csrrwi ⟨fld w 7 5, fld w 15 5, fld w 20 12⟩) := rfl
theorem decodeSOp_csrrsi (w : Word) (b c : Nat) : decodeSOp w 0x73 6 b c =
    allow (.csrrsi ⟨fld w 7 5, fld w 15 5, fld w 20 12⟩) := rfl
theorem decodeSOp_csrrci (w : Word) (b c : Nat) : decodeSOp w 0x73 7 b c =
    allow (.csrrci ⟨fld w 7 5, fld w 15 5, fld w 20 12⟩) := rfl

end Sys2Proof.Laws
end

