-- ==== Sys2Proof/Laws/PerInstr.lean ====
section
/-! SUPPORT. The round trip, constructor by constructor: a well-formed operation has a slot word, and the decoder reads
the operation back from that word in every slot where the operation may stand. -/

namespace Sys2Proof.Laws.RoundTrip

open Sys2Proof Sys2Proof.Laws

/-- A well-formed operation has a word, which every slot it may stand in decodes to it (R66, R73 to R78). -/
def Statement (i : Instr) : Prop :=
  i.wf = true → ∃ w, encode i = some w ∧ ∀ sl ∈ i.standsIn, decodeSlot sl w = .ok i

theorem ofB {i : Instr} {w : Word} (hs : i.standsIn = [.b]) (he : encode i = some (w32 w))
    (hd : i.wf = true → decodeB w = .ok i) : Statement i := by
  intro h
  refine ⟨_, he, fun sl hsl => ?_⟩
  rw [hs, List.mem_singleton] at hsl
  subst hsl
  simpa only [decodeSlot, w32_back] using hd h

theorem ofS {i : Instr} {w : Word} (hs : i.standsIn = [.s]) (he : encode i = some (w32 w))
    (hd : i.wf = true → decodeS w = .ok i) : Statement i := by
  intro h
  refine ⟨_, he, fun sl hsl => ?_⟩
  rw [hs, List.mem_singleton] at hsl
  subst hsl
  simpa only [decodeSlot, w32_back] using hd h

theorem ofV {i : Instr} {w : Word} (hs : i.standsIn = [.va, .vb]) (he : encode i = some (w32 w))
    (hd : ∀ sl, i.wf = true → decodeV sl w = .ok i) : Statement i := by
  intro h
  refine ⟨_, he, fun sl hsl => ?_⟩
  rw [hs] at hsl
  simp only [List.mem_cons, List.not_mem_nil, or_false] at hsl
  rcases hsl with rfl | rfl <;> simpa only [decodeSlot, w32_back] using hd _ h

theorem ofM {i : Instr} {w : DWord} (hs : i.standsIn = [.m]) (he : encode i = some w)
    (hd : i.wf = true → decodeM w = .ok i) : Statement i := by
  intro h
  refine ⟨_, he, fun sl hsl => ?_⟩
  rw [hs, List.mem_singleton] at hsl
  subst hsl
  exact hd h

theorem ofC {i : Instr} {w : DWord} (hs : i.standsIn = [.ca, .cb]) (he : encode i = some w)
    (hd : ∀ sl, i.wf = true → decodeC sl w = .ok i) : Statement i := by
  intro h
  refine ⟨_, he, fun sl hsl => ?_⟩
  rw [hs] at hsl
  simp only [List.mem_cons, List.not_mem_nil, or_false] at hsl
  rcases hsl with rfl | rfl <;> exact hd _ h

theorem ofX {i : Instr} {w : Word} (hs : i.standsIn = [.x]) (he : encode i = some (w32 w))
    (hd : i.wf = true → decodeX w = .ok i) : Statement i := by
  intro h
  refine ⟨_, he, fun sl hsl => ?_⟩
  rw [hs, List.mem_singleton] at hsl
  subst hsl
  simpa only [decodeSlot, w32_back] using hd h

theorem beq (f : BrF) : Statement (.beq f) := ofB rfl rfl fun h => by
  simp (disch := decide) only [decodeB, decodeBOp_beq, encBr, fld_low, fld_high, fld_whole, Nat.reduceSub,
    Nat.sub_self, BitVec.toNat_ofNat, Nat.reducePow, Nat.reduceMod]
  exact allow_ok h
theorem bne (f : BrF) : Statement (.bne f) := ofB rfl rfl fun h => by
  simp (disch := decide) only [decodeB, decodeBOp_bne, encBr, fld_low, fld_high, fld_whole, Nat.reduceSub,
    Nat.sub_self, BitVec.toNat_ofNat, Nat.reducePow, Nat.reduceMod]
  exact allow_ok h
theorem blt (f : BrF) : Statement (.blt f) := ofB rfl rfl fun h => by
  simp (disch := decide) only [decodeB, decodeBOp_blt, encBr, fld_low, fld_high, fld_whole, Nat.reduceSub,
    Nat.sub_self, BitVec.toNat_ofNat, Nat.reducePow, Nat.reduceMod]
  exact allow_ok h
theorem bge (f : BrF) : Statement (.bge f) := ofB rfl rfl fun h => by
  simp (disch := decide) only [decodeB, decodeBOp_bge, encBr, fld_low, fld_high, fld_whole, Nat.reduceSub,
    Nat.sub_self, BitVec.toNat_ofNat, Nat.reducePow, Nat.reduceMod]
  exact allow_ok h
theorem bltu (f : BrF) : Statement (.bltu f) := ofB rfl rfl fun h => by
  simp (disch := decide) only [decodeB, decodeBOp_bltu, encBr, fld_low, fld_high, fld_whole, Nat.reduceSub,
    Nat.sub_self, BitVec.toNat_ofNat, Nat.reducePow, Nat.reduceMod]
  exact allow_ok h
theorem bgeu (f : BrF) : Statement (.bgeu f) := ofB rfl rfl fun h => by
  simp (disch := decide) only [decodeB, decodeBOp_bgeu, encBr, fld_low, fld_high, fld_whole, Nat.reduceSub,
    Nat.sub_self, BitVec.toNat_ofNat, Nat.reducePow, Nat.reduceMod]
  exact allow_ok h
theorem bpt (f : BpF) : Statement (.bpt f) := ofB rfl rfl fun h => by
  simp (disch := decide) only [decodeB, decodeBOp_bpt, encBp, fld_low, fld_high, fld_whole, fld_zero,
    Nat.reduceSub, Nat.sub_self, BitVec.toNat_ofNat, Nat.reducePow, Nat.reduceMod, BitVec.ofNat_eq_ofNat, beq_self_eq_true, need_true]
  exact allow_ok h
theorem bpf (f : BpF) : Statement (.bpf f) := ofB rfl rfl fun h => by
  simp (disch := decide) only [decodeB, decodeBOp_bpf, encBp, fld_low, fld_high, fld_whole, fld_zero,
    Nat.reduceSub, Nat.sub_self, BitVec.toNat_ofNat, Nat.reducePow, Nat.reduceMod, BitVec.ofNat_eq_ofNat, beq_self_eq_true, need_true]
  exact allow_ok h
theorem jmp (off : BitVec 21) : Statement (.jmp off) := ofB rfl rfl fun h => by
  simp (disch := decide) only [decodeB, decodeBOp_jmp, fld_low, fld_high, fld_whole, fld_zero, Nat.reduceSub,
    Nat.sub_self, BitVec.toNat_ofNat, Nat.reducePow, Nat.reduceMod, BitVec.ofNat_eq_ofNat, beq_self_eq_true, need_true]
  exact allow_ok h
theorem call (f : BjF) : Statement (.call f) := ofB rfl rfl fun h => by
  simp (disch := decide) only [decodeB, decodeBOp_call, fld_low, fld_high, fld_whole, Nat.reduceSub, Nat.sub_self,
    BitVec.toNat_ofNat, Nat.reducePow, Nat.reduceMod]
  exact allow_ok h
theorem ret (rs1 : XReg) : Statement (.ret rs1) := ofB rfl rfl fun h => by
  simp (disch := decide) only [decodeB, decodeBOp_ret, encBc, fld_low, fld_high, fld_whole, fld_zero,
    Nat.reduceSub, Nat.sub_self, BitVec.toNat_ofNat, Nat.reducePow, Nat.reduceMod, BitVec.ofNat_eq_ofNat, beq_self_eq_true, need_true]
  exact allow_ok h
theorem loop (f : BlF) : Statement (.loop f) := ofB rfl rfl fun h => by
  simp (disch := decide) only [decodeB, decodeBOp_loop, encBl, fld_low, fld_high, fld_whole, Nat.reduceSub,
    Nat.sub_self, BitVec.toNat_ofNat, Nat.reducePow, Nat.reduceMod, BitVec.ofNat_eq_ofNat, need_true, show (f.stg == 0#3) = true from (Bool.and_eq_true_iff.1 h).2]
  exact allow_ok h
theorem loopW (f : BlF) : Statement (.loopW f) := ofB rfl rfl fun h => by
  simp (disch := decide) only [decodeB, decodeBOp_loopW, encBl, fld_low, fld_high, fld_whole, Nat.reduceSub,
    Nat.sub_self, BitVec.toNat_ofNat, Nat.reducePow, Nat.reduceMod, BitVec.ofNat_eq_ofNat, need_true, show (f.stg == 0#3) = true from (Bool.and_eq_true_iff.1 h).2]
  exact allow_ok h
theorem loopSp (f : BlF) : Statement (.loopSp f) := ofB rfl rfl fun h => by
  simp (disch := decide) only [decodeB, decodeBOp_loopSp, encBl, fld_low, fld_high, fld_whole, Nat.reduceSub,
    Nat.sub_self, BitVec.toNat_ofNat, Nat.reducePow, Nat.reduceMod]
  exact allow_ok h
theorem lend (rs1 : XReg) : Statement (.lend rs1) := ofB rfl rfl fun h => by
  simp (disch := decide) only [decodeB, decodeBOp_lend, encBc, fld_low, fld_high, fld_whole, fld_zero,
    Nat.reduceSub, Nat.sub_self, BitVec.toNat_ofNat, Nat.reducePow, Nat.reduceMod, BitVec.ofNat_eq_ofNat, beq_self_eq_true, need_true]
  exact allow_ok h
theorem lbrk (rs1 : XReg) : Statement (.lbrk rs1) := ofB rfl rfl fun h => by
  simp (disch := decide) only [decodeB, decodeBOp_lbrk, encBc, fld_low, fld_high, fld_whole, fld_zero,
    Nat.reduceSub, Nat.sub_self, BitVec.toNat_ofNat, Nat.reducePow, Nat.reduceMod, BitVec.ofNat_eq_ofNat, beq_self_eq_true, need_true]
  exact allow_ok h
theorem wait (f : BwF) : Statement (.wait f) := ofB rfl rfl fun h => by
  simp (disch := decide) only [decodeB, decodeBOp_wait, fld_low, fld_high, fld_whole, fld_zero, Nat.reduceSub,
    Nat.sub_self, BitVec.toNat_ofNat, Nat.reducePow, Nat.reduceMod, BitVec.ofNat_eq_ofNat, beq_self_eq_true, need_true]
  exact allow_ok h
theorem setfmt (acc : Acc) (rm : Rm) : Statement (.setfmt acc rm) := ofB rfl rfl fun h => by
  simp (disch := decide) only [decodeB, decodeBOp_setfmt, fld_low, fld_high, fld_whole, fld_zero, Nat.reduceSub,
    Nat.sub_self, BitVec.toNat_ofNat, Nat.reducePow, Nat.reduceMod, BitVec.ofNat_eq_ofNat, beq_self_eq_true, need_true, coded_some, acc_back, rm_back]
  exact allow_ok h
theorem litset (rs1 : XReg) : Statement (.litset rs1) := ofB rfl rfl fun h => by
  simp (disch := decide) only [decodeB, decodeBOp_litset, encBc, fld_low, fld_high, fld_whole, fld_zero,
    Nat.reduceSub, Nat.sub_self, BitVec.toNat_ofNat, Nat.reducePow, Nat.reduceMod, BitVec.ofNat_eq_ofNat, beq_self_eq_true, need_true]
  exact allow_ok h
theorem sstep : Statement (.sstep) := ofB rfl rfl fun h => by
  simp (disch := decide) only [decodeB, decodeBOp_sstep, encBn, fld_low, fld_high, fld_whole, fld_zero,
    Nat.sub_self, BitVec.toNat_ofNat, Nat.reducePow, Nat.reduceMod, BitVec.ofNat_eq_ofNat, beq_self_eq_true, need_true]
  exact allow_ok h
theorem iinv (rs1 : XReg) : Statement (.iinv rs1) := ofB rfl rfl fun h => by
  simp (disch := decide) only [decodeB, decodeBOp_iinv, encBc, fld_low, fld_high, fld_whole, fld_zero,
    Nat.reduceSub, Nat.sub_self, BitVec.toNat_ofNat, Nat.reducePow, Nat.reduceMod, BitVec.ofNat_eq_ofNat, beq_self_eq_true, need_true]
  exact allow_ok h
theorem yield : Statement (.yield) := ofB rfl rfl fun h => by
  simp (disch := decide) only [decodeB, decodeBOp_yield, encBn, fld_low, fld_high, fld_whole, fld_zero,
    Nat.sub_self, BitVec.toNat_ofNat, Nat.reducePow, Nat.reduceMod, BitVec.ofNat_eq_ofNat, beq_self_eq_true, need_true]
  exact allow_ok h
theorem halt : Statement (.halt) := ofB rfl rfl fun h => by
  simp (disch := decide) only [decodeB, decodeBOp_halt, encBn, fld_low, fld_high, fld_whole, fld_zero,
    Nat.sub_self, BitVec.toNat_ofNat, Nat.reducePow, Nat.reduceMod, BitVec.ofNat_eq_ofNat, beq_self_eq_true, need_true]
  exact allow_ok h
theorem trap (code : BitVec 8) : Statement (.trap code) := ofB rfl rfl fun h => by
  simp (disch := decide) only [decodeB, decodeBOp_trap, fld_low, fld_high, fld_whole, fld_zero, Nat.reduceSub,
    Nat.sub_self, BitVec.toNat_ofNat, Nat.reducePow, Nat.reduceMod, BitVec.ofNat_eq_ofNat, beq_self_eq_true, need_true]
  exact allow_ok h
theorem tret : Statement (.tret) := ofB rfl rfl fun h => by
  simp (disch := decide) only [decodeB, decodeBOp_tret, encBn, fld_low, fld_high, fld_whole, fld_zero,
    Nat.sub_self, BitVec.toNat_ofNat, Nat.reducePow, Nat.reduceMod, BitVec.ofNat_eq_ofNat, beq_self_eq_true, need_true]
  exact allow_ok h
theorem lui (f : UF) : Statement (.lui f) := ofS rfl rfl fun h => by
  simp (disch := decide) only [decodeS, decodeSOp_lui, encU, fld_low, fld_high, fld_whole, Nat.reduceSub,
    Nat.sub_self, BitVec.toNat_ofNat, Nat.reducePow, Nat.reduceMod]
  exact allow_ok h
theorem auipc (f : UF) : Statement (.auipc f) := ofS rfl rfl fun h => by
  simp (disch := decide) only [decodeS, decodeSOp_auipc, encU, fld_low, fld_high, fld_whole, Nat.reduceSub,
    Nat.sub_self, BitVec.toNat_ofNat, Nat.reducePow, Nat.reduceMod]
  exact allow_ok h
theorem addi (f : IF) : Statement (.addi f) := ofS rfl rfl fun h => by
  simp (disch := decide) only [decodeS, decodeSOp_addi, encI, fld_low, fld_high, fld_whole, fld_zero,
    Nat.reduceSub, Nat.sub_self, BitVec.toNat_ofNat, Nat.reducePow, Nat.reduceMod]
  exact allow_ok h
theorem slti (f : IF) : Statement (.slti f) := ofS rfl rfl fun h => by
  simp (disch := decide) only [decodeS, decodeSOp_slti, encI, fld_low, fld_high, fld_whole, Nat.reduceSub,
    Nat.sub_self, BitVec.toNat_ofNat, Nat.reducePow, Nat.reduceMod]
  exact allow_ok h
theorem sltiu (f : IF) : Statement (.sltiu f) := ofS rfl rfl fun h => by
  simp (disch := decide) only [decodeS, decodeSOp_sltiu, encI, fld_low, fld_high, fld_whole, Nat.reduceSub,
    Nat.sub_self, BitVec.toNat_ofNat, Nat.reducePow, Nat.reduceMod]
  exact allow_ok h
theorem xori (f : IF) : Statement (.xori f) := ofS rfl rfl fun h => by
  simp (disch := decide) only [decodeS, decodeSOp_xori, encI, fld_low, fld_high, fld_whole, Nat.reduceSub,
    Nat.sub_self, BitVec.toNat_ofNat, Nat.reducePow, Nat.reduceMod]
  exact allow_ok h
theorem ori (f : IF) : Statement (.ori f) := ofS rfl rfl fun h => by
  simp (disch := decide) only [decodeS, decodeSOp_ori, encI, fld_low, fld_high, fld_whole, Nat.reduceSub,
    Nat.sub_self, BitVec.toNat_ofNat, Nat.reducePow, Nat.reduceMod]
  exact allow_ok h
theorem andi (f : IF) : Statement (.andi f) := ofS rfl rfl fun h => by
  simp (disch := decide) only [decodeS, decodeSOp_andi, encI, fld_low, fld_high, fld_whole, Nat.reduceSub,
    Nat.sub_self, BitVec.toNat_ofNat, Nat.reducePow, Nat.reduceMod]
  exact allow_ok h
theorem slli (f : ShF) : Statement (.slli f) := ofS rfl rfl fun h => by
  simp (disch := decide) only [decodeS, decodeSOp_slli, encSh, fld_low, fld_high, fld_whole, fld_zero,
    Nat.reduceSub, Nat.sub_self, BitVec.toNat_ofNat, Nat.reducePow, Nat.reduceMod]
  exact allow_ok h
theorem srli (f : ShF) : Statement (.srli f) := ofS rfl rfl fun h => by
  simp (disch := decide) only [decodeS, decodeSOp_srli, encSh, fld_low, fld_high, fld_whole, fld_zero,
    Nat.reduceSub, Nat.sub_self, BitVec.toNat_ofNat, Nat.reducePow, Nat.reduceMod]
  exact allow_ok h
theorem srai (f : ShF) : Statement (.srai f) := ofS rfl rfl fun h => by
  simp (disch := decide) only [decodeS, decodeSOp_srai, encSh, fld_low, fld_high, fld_whole, Nat.reduceSub,
    Nat.sub_self, BitVec.toNat_ofNat, Nat.reducePow, Nat.reduceMod]
  exact allow_ok h
theorem add (f : RF) : Statement (.add f) := ofS rfl rfl fun h => by
  simp (disch := decide) only [decodeS, decodeSOp_add, encR, fld_low, fld_high, fld_whole, fld_zero, Nat.reduceSub,
    Nat.sub_self, BitVec.toNat_ofNat, Nat.reducePow, Nat.reduceMod]
  exact allow_ok h
theorem sub (f : RF) : Statement (.sub f) := ofS rfl rfl fun h => by
  simp (disch := decide) only [decodeS, decodeSOp_sub, encR, fld_low, fld_high, fld_whole, fld_zero, Nat.reduceSub,
    Nat.sub_self, BitVec.toNat_ofNat, Nat.reducePow, Nat.reduceMod]
  exact allow_ok h
theorem sll (f : RF) : Statement (.sll f) := ofS rfl rfl fun h => by
  simp (disch := decide) only [decodeS, decodeSOp_sll, encR, fld_low, fld_high, fld_whole, fld_zero, Nat.reduceSub,
    Nat.sub_self, BitVec.toNat_ofNat, Nat.reducePow, Nat.reduceMod]
  exact allow_ok h
theorem slt (f : RF) : Statement (.slt f) := ofS rfl rfl fun h => by
  simp (disch := decide) only [decodeS, decodeSOp_slt, encR, fld_low, fld_high, fld_whole, fld_zero, Nat.reduceSub,
    Nat.sub_self, BitVec.toNat_ofNat, Nat.reducePow, Nat.reduceMod]
  exact allow_ok h
theorem sltu (f : RF) : Statement (.sltu f) := ofS rfl rfl fun h => by
  simp (disch := decide) only [decodeS, decodeSOp_sltu, encR, fld_low, fld_high, fld_whole, fld_zero,
    Nat.reduceSub, Nat.sub_self, BitVec.toNat_ofNat, Nat.reducePow, Nat.reduceMod]
  exact allow_ok h
theorem xor (f : RF) : Statement (.xor f) := ofS rfl rfl fun h => by
  simp (disch := decide) only [decodeS, decodeSOp_xor, encR, fld_low, fld_high, fld_whole, fld_zero, Nat.reduceSub,
    Nat.sub_self, BitVec.toNat_ofNat, Nat.reducePow, Nat.reduceMod]
  exact allow_ok h
theorem srl (f : RF) : Statement (.srl f) := ofS rfl rfl fun h => by
  simp (disch := decide) only [decodeS, decodeSOp_srl, encR, fld_low, fld_high, fld_whole, fld_zero, Nat.reduceSub,
    Nat.sub_self, BitVec.toNat_ofNat, Nat.reducePow, Nat.reduceMod]
  exact allow_ok h
theorem sra (f : RF) : Statement (.sra f) := ofS rfl rfl fun h => by
  simp (disch := decide) only [decodeS, decodeSOp_sra, encR, fld_low, fld_high, fld_whole, Nat.reduceSub,
    Nat.sub_self, BitVec.toNat_ofNat, Nat.reducePow, Nat.reduceMod]
  exact allow_ok h
theorem or (f : RF) : Statement (.or f) := ofS rfl rfl fun h => by
  simp (disch := decide) only [decodeS, decodeSOp_or, encR, fld_low, fld_high, fld_whole, fld_zero, Nat.reduceSub,
    Nat.sub_self, BitVec.toNat_ofNat, Nat.reducePow, Nat.reduceMod]
  exact allow_ok h
theorem and (f : RF) : Statement (.and f) := ofS rfl rfl fun h => by
  simp (disch := decide) only [decodeS, decodeSOp_and, encR, fld_low, fld_high, fld_whole, fld_zero, Nat.reduceSub,
    Nat.sub_self, BitVec.toNat_ofNat, Nat.reducePow, Nat.reduceMod]
  exact allow_ok h
theorem addiw (f : IF) : Statement (.addiw f) := ofS rfl rfl fun h => by
  simp (disch := decide) only [decodeS, decodeSOp_addiw, encI, fld_low, fld_high, fld_whole, fld_zero,
    Nat.reduceSub, Nat.sub_self, BitVec.toNat_ofNat, Nat.reducePow, Nat.reduceMod]
  exact allow_ok h
theorem slliw (f : ShwF) : Statement (.slliw f) := ofS rfl rfl fun h => by
  simp (disch := decide) only [decodeS, decodeSOp_slliw, encShw, fld_low, fld_high, fld_whole, fld_zero,
    Nat.reduceSub, Nat.sub_self, BitVec.toNat_ofNat, Nat.reducePow, Nat.reduceMod]
  exact allow_ok h
theorem srliw (f : ShwF) : Statement (.srliw f) := ofS rfl rfl fun h => by
  simp (disch := decide) only [decodeS, decodeSOp_srliw, encShw, fld_low, fld_high, fld_whole, fld_zero,
    Nat.reduceSub, Nat.sub_self, BitVec.toNat_ofNat, Nat.reducePow, Nat.reduceMod]
  exact allow_ok h
theorem sraiw (f : ShwF) : Statement (.sraiw f) := ofS rfl rfl fun h => by
  simp (disch := decide) only [decodeS, decodeSOp_sraiw, encShw, fld_low, fld_high, fld_whole, Nat.reduceSub,
    Nat.sub_self, BitVec.toNat_ofNat, Nat.reducePow, Nat.reduceMod]
  exact allow_ok h
theorem addw (f : RF) : Statement (.addw f) := ofS rfl rfl fun h => by
  simp (disch := decide) only [decodeS, decodeSOp_addw, encR, fld_low, fld_high, fld_whole, fld_zero,
    Nat.reduceSub, Nat.sub_self, BitVec.toNat_ofNat, Nat.reducePow, Nat.reduceMod]
  exact allow_ok h
theorem subw (f : RF) : Statement (.subw f) := ofS rfl rfl fun h => by
  simp (disch := decide) only [decodeS, decodeSOp_subw, encR, fld_low, fld_high, fld_whole, fld_zero,
    Nat.reduceSub, Nat.sub_self, BitVec.toNat_ofNat, Nat.reducePow, Nat.reduceMod]
  exact allow_ok h
theorem sllw (f : RF) : Statement (.sllw f) := ofS rfl rfl fun h => by
  simp (disch := decide) only [decodeS, decodeSOp_sllw, encR, fld_low, fld_high, fld_whole, fld_zero,
    Nat.reduceSub, Nat.sub_self, BitVec.toNat_ofNat, Nat.reducePow, Nat.reduceMod]
  exact allow_ok h
theorem srlw (f : RF) : Statement (.srlw f) := ofS rfl rfl fun h => by
  simp (disch := decide) only [decodeS, decodeSOp_srlw, encR, fld_low, fld_high, fld_whole, fld_zero,
    Nat.reduceSub, Nat.sub_self, BitVec.toNat_ofNat, Nat.reducePow, Nat.reduceMod]
  exact allow_ok h
theorem sraw (f : RF) : Statement (.sraw f) := ofS rfl rfl fun h => by
  simp (disch := decide) only [decodeS, decodeSOp_sraw, encR, fld_low, fld_high, fld_whole, Nat.reduceSub,
    Nat.sub_self, BitVec.toNat_ofNat, Nat.reducePow, Nat.reduceMod]
  exact allow_ok h
theorem lb (f : IF) : Statement (.lb f) := ofS rfl rfl fun h => by
  simp (disch := decide) only [decodeS, decodeSOp_lb, encI, fld_low, fld_high, fld_whole, fld_zero, Nat.reduceSub,
    Nat.sub_self, BitVec.toNat_ofNat, Nat.reducePow, Nat.reduceMod]
  exact allow_ok h
theorem lh (f : IF) : Statement (.lh f) := ofS rfl rfl fun h => by
  simp (disch := decide) only [decodeS, decodeSOp_lh, encI, fld_low, fld_high, fld_whole, Nat.reduceSub,
    Nat.sub_self, BitVec.toNat_ofNat, Nat.reducePow, Nat.reduceMod]
  exact allow_ok h
theorem lw (f : IF) : Statement (.lw f) := ofS rfl rfl fun h => by
  simp (disch := decide) only [decodeS, decodeSOp_lw, encI, fld_low, fld_high, fld_whole, Nat.reduceSub,
    Nat.sub_self, BitVec.toNat_ofNat, Nat.reducePow, Nat.reduceMod]
  exact allow_ok h
theorem sld (f : IF) : Statement (.sld f) := ofS rfl rfl fun h => by
  simp (disch := decide) only [decodeS, decodeSOp_sld, encI, fld_low, fld_high, fld_whole, Nat.reduceSub,
    Nat.sub_self, BitVec.toNat_ofNat, Nat.reducePow, Nat.reduceMod]
  exact allow_ok h
theorem lbu (f : IF) : Statement (.lbu f) := ofS rfl rfl fun h => by
  simp (disch := decide) only [decodeS, decodeSOp_lbu, encI, fld_low, fld_high, fld_whole, Nat.reduceSub,
    Nat.sub_self, BitVec.toNat_ofNat, Nat.reducePow, Nat.reduceMod]
  exact allow_ok h
theorem lhu (f : IF) : Statement (.lhu f) := ofS rfl rfl fun h => by
  simp (disch := decide) only [decodeS, decodeSOp_lhu, encI, fld_low, fld_high, fld_whole, Nat.reduceSub,
    Nat.sub_self, BitVec.toNat_ofNat, Nat.reducePow, Nat.reduceMod]
  exact allow_ok h
theorem lwu (f : IF) : Statement (.lwu f) := ofS rfl rfl fun h => by
  simp (disch := decide) only [decodeS, decodeSOp_lwu, encI, fld_low, fld_high, fld_whole, Nat.reduceSub,
    Nat.sub_self, BitVec.toNat_ofNat, Nat.reducePow, Nat.reduceMod]
  exact allow_ok h
theorem sb (f : StF) : Statement (.sb f) := ofS rfl rfl fun h => by
  simp (disch := decide) only [decodeS, decodeSOp_sb, encSt, fld_low, fld_high, fld_whole, fld_zero, Nat.reduceSub,
    Nat.sub_self, BitVec.toNat_ofNat, Nat.reducePow, Nat.reduceMod, join_imm]
  exact allow_ok h
theorem sh (f : StF) : Statement (.sh f) := ofS rfl rfl fun h => by
  simp (disch := decide) only [decodeS, decodeSOp_sh, encSt, fld_low, fld_high, fld_whole, Nat.reduceSub,
    Nat.sub_self, BitVec.toNat_ofNat, Nat.reducePow, Nat.reduceMod, join_imm]
  exact allow_ok h
theorem sw (f : StF) : Statement (.sw f) := ofS rfl rfl fun h => by
  simp (disch := decide) only [decodeS, decodeSOp_sw, encSt, fld_low, fld_high, fld_whole, Nat.reduceSub,
    Nat.sub_self, BitVec.toNat_ofNat, Nat.reducePow, Nat.reduceMod, join_imm]
  exact allow_ok h
theorem sd (f : StF) : Statement (.sd f) := ofS rfl rfl fun h => by
  simp (disch := decide) only [decodeS, decodeSOp_sd, encSt, fld_low, fld_high, fld_whole, Nat.reduceSub,
    Nat.sub_self, BitVec.toNat_ofNat, Nat.reducePow, Nat.reduceMod, join_imm]
  exact allow_ok h
theorem fence (f : FenceF) : Statement (.fence f) := ofS rfl rfl fun h => by
  simp (disch := decide) only [decodeS, decodeSOp_fence, fld_low, fld_high, fld_whole, fld_zero, Nat.reduceSub,
    Nat.sub_self, BitVec.toNat_ofNat, Nat.reducePow, Nat.reduceMod]
  exact allow_ok h
theorem mul (f : RF) : Statement (.mul f) := ofS rfl rfl fun h => by
  simp (disch := decide) only [decodeS, decodeSOp_mul, encR, fld_low, fld_high, fld_whole, fld_zero, Nat.reduceSub,
    Nat.sub_self, BitVec.toNat_ofNat, Nat.reducePow, Nat.reduceMod]
  exact allow_ok h
theorem mulh (f : RF) : Statement (.mulh f) := ofS rfl rfl fun h => by
  simp (disch := decide) only [decodeS, decodeSOp_mulh, encR, fld_low, fld_high, fld_whole, Nat.reduceSub,
    Nat.sub_self, BitVec.toNat_ofNat, Nat.reducePow, Nat.reduceMod]
  exact allow_ok h
theorem mulhsu (f : RF) : Statement (.mulhsu f) := ofS rfl rfl fun h => by
  simp (disch := decide) only [decodeS, decodeSOp_mulhsu, encR, fld_low, fld_high, fld_whole, Nat.reduceSub,
    Nat.sub_self, BitVec.toNat_ofNat, Nat.reducePow, Nat.reduceMod]
  exact allow_ok h
theorem mulhu (f : RF) : Statement (.mulhu f) := ofS rfl rfl fun h => by
  simp (disch := decide) only [decodeS, decodeSOp_mulhu, encR, fld_low, fld_high, fld_whole, Nat.reduceSub,
    Nat.sub_self, BitVec.toNat_ofNat, Nat.reducePow, Nat.reduceMod]
  exact allow_ok h
theorem div (f : RF) : Statement (.div f) := ofS rfl rfl fun h => by
  simp (disch := decide) only [decodeS, decodeSOp_div, encR, fld_low, fld_high, fld_whole, Nat.reduceSub,
    Nat.sub_self, BitVec.toNat_ofNat, Nat.reducePow, Nat.reduceMod]
  exact allow_ok h
theorem divu (f : RF) : Statement (.divu f) := ofS rfl rfl fun h => by
  simp (disch := decide) only [decodeS, decodeSOp_divu, encR, fld_low, fld_high, fld_whole, Nat.reduceSub,
    Nat.sub_self, BitVec.toNat_ofNat, Nat.reducePow, Nat.reduceMod]
  exact allow_ok h
theorem rem (f : RF) : Statement (.rem f) := ofS rfl rfl fun h => by
  simp (disch := decide) only [decodeS, decodeSOp_rem, encR, fld_low, fld_high, fld_whole, Nat.reduceSub,
    Nat.sub_self, BitVec.toNat_ofNat, Nat.reducePow, Nat.reduceMod]
  exact allow_ok h
theorem remu (f : RF) : Statement (.remu f) := ofS rfl rfl fun h => by
  simp (disch := decide) only [decodeS, decodeSOp_remu, encR, fld_low, fld_high, fld_whole, Nat.reduceSub,
    Nat.sub_self, BitVec.toNat_ofNat, Nat.reducePow, Nat.reduceMod]
  exact allow_ok h
theorem mulw (f : RF) : Statement (.mulw f) := ofS rfl rfl fun h => by
  simp (disch := decide) only [decodeS, decodeSOp_mulw, encR, fld_low, fld_high, fld_whole, fld_zero,
    Nat.reduceSub, Nat.sub_self, BitVec.toNat_ofNat, Nat.reducePow, Nat.reduceMod]
  exact allow_ok h
theorem divw (f : RF) : Statement (.divw f) := ofS rfl rfl fun h => by
  simp (disch := decide) only [decodeS, decodeSOp_divw, encR, fld_low, fld_high, fld_whole, Nat.reduceSub,
    Nat.sub_self, BitVec.toNat_ofNat, Nat.reducePow, Nat.reduceMod]
  exact allow_ok h
theorem divuw (f : RF) : Statement (.divuw f) := ofS rfl rfl fun h => by
  simp (disch := decide) only [decodeS, decodeSOp_divuw, encR, fld_low, fld_high, fld_whole, Nat.reduceSub,
    Nat.sub_self, BitVec.toNat_ofNat, Nat.reducePow, Nat.reduceMod]
  exact allow_ok h
theorem remw (f : RF) : Statement (.remw f) := ofS rfl rfl fun h => by
  simp (disch := decide) only [decodeS, decodeSOp_remw, encR, fld_low, fld_high, fld_whole, Nat.reduceSub,
    Nat.sub_self, BitVec.toNat_ofNat, Nat.reducePow, Nat.reduceMod]
  exact allow_ok h
theorem remuw (f : RF) : Statement (.remuw f) := ofS rfl rfl fun h => by
  simp (disch := decide) only [decodeS, decodeSOp_remuw, encR, fld_low, fld_high, fld_whole, Nat.reduceSub,
    Nat.sub_self, BitVec.toNat_ofNat, Nat.reducePow, Nat.reduceMod]
  exact allow_ok h
theorem csrrw (f : CsrF) : Statement (.csrrw f) := ofS rfl rfl fun h => by
  simp (disch := decide) only [decodeS, decodeSOp_csrrw, encCsr, fld_low, fld_high, fld_whole, Nat.reduceSub,
    Nat.sub_self, BitVec.toNat_ofNat, Nat.reducePow, Nat.reduceMod]
  exact allow_ok h
theorem csrrs (f : CsrF) : Statement (.csrrs f) := ofS rfl rfl fun h => by
  simp (disch := decide) only [decodeS, decodeSOp_csrrs, encCsr, fld_low, fld_high, fld_whole, Nat.reduceSub,
    Nat.sub_self, BitVec.toNat_ofNat, Nat.reducePow, Nat.reduceMod]
  exact allow_ok h
theorem csrrc (f : CsrF) : Statement (.csrrc f) := ofS rfl rfl fun h => by
  simp (disch := decide) only [decodeS, decodeSOp_csrrc, encCsr, fld_low, fld_high, fld_whole, Nat.reduceSub,
    Nat.sub_self, BitVec.toNat_ofNat, Nat.reducePow, Nat.reduceMod]
  exact allow_ok h
theorem csrrwi (f : CsriF) : Statement (.csrrwi f) := ofS rfl rfl fun h => by
  simp (disch := decide) only [decodeS, decodeSOp_csrrwi, encCsri, fld_low, fld_high, fld_whole, Nat.reduceSub,
    Nat.sub_self, BitVec.toNat_ofNat, Nat.reducePow, Nat.reduceMod]
  exact allow_ok h
theorem csrrsi (f : CsriF) : Statement (.csrrsi f) := ofS rfl rfl fun h => by
  simp (disch := decide) only [decodeS, decodeSOp_csrrsi, encCsri, fld_low, fld_high, fld_whole, Nat.reduceSub,
    Nat.sub_self, BitVec.toNat_ofNat, Nat.reducePow, Nat.reduceMod]
  exact allow_ok h
theorem csrrci (f : CsriF) : Statement (.csrrci f) := ofS rfl rfl fun h => by
  simp (disch := decide) only [decodeS, decodeSOp_csrrci, encCsri, fld_low, fld_high, fld_whole, Nat.reduceSub,
    Nat.sub_self, BitVec.toNat_ofNat, Nat.reducePow, Nat.reduceMod]
  exact allow_ok h
theorem idle (slot : Slot) : Statement (.idle slot) := by
  intro h
  cases slot
  case b | s => cases h
  all_goals exact ⟨0, rfl, fun sl hsl => by cases List.mem_singleton.1 hsl; rfl⟩
theorem vadd (f : VrF) : Statement (.vadd f) := ofV rfl rfl fun _ h => by
  simp (disch := decide) only [decodeV, decodeVOp_vadd, encVr, fld_low, fld_high, fld_whole, Nat.reduceSub,
    Nat.sub_self, BitVec.toNat_ofNat, Nat.reducePow, Nat.reduceMod, et_vec h]
  exact allow_ok h
theorem vsub (f : VrF) : Statement (.vsub f) := ofV rfl rfl fun _ h => by
  simp (disch := decide) only [decodeV, decodeVOp_vsub, encVr, fld_low, fld_high, fld_whole, Nat.reduceSub,
    Nat.sub_self, BitVec.toNat_ofNat, Nat.reducePow, Nat.reduceMod, et_vec h]
  exact allow_ok h
theorem vmul (f : VrF) : Statement (.vmul f) := ofV rfl rfl fun _ h => by
  simp (disch := decide) only [decodeV, decodeVOp_vmul, encVr, fld_low, fld_high, fld_whole, Nat.reduceSub,
    Nat.sub_self, BitVec.toNat_ofNat, Nat.reducePow, Nat.reduceMod, et_vec h]
  exact allow_ok h
theorem vdiv (f : VrF) : Statement (.vdiv f) := ofV rfl rfl fun _ h => by
  simp (disch := decide) only [decodeV, decodeVOp_vdiv, encVr, fld_low, fld_high, fld_whole, Nat.reduceSub,
    Nat.sub_self, BitVec.toNat_ofNat, Nat.reducePow, Nat.reduceMod, et_float h]
  exact allow_ok h
theorem vmin (f : VrF) : Statement (.vmin f) := ofV rfl rfl fun _ h => by
  simp (disch := decide) only [decodeV, decodeVOp_vmin, encVr, fld_low, fld_high, fld_whole, Nat.reduceSub,
    Nat.sub_self, BitVec.toNat_ofNat, Nat.reducePow, Nat.reduceMod, et_vec h]
  exact allow_ok h
theorem vmax (f : VrF) : Statement (.vmax f) := ofV rfl rfl fun _ h => by
  simp (disch := decide) only [decodeV, decodeVOp_vmax, encVr, fld_low, fld_high, fld_whole, Nat.reduceSub,
    Nat.sub_self, BitVec.toNat_ofNat, Nat.reducePow, Nat.reduceMod, et_vec h]
  exact allow_ok h
theorem vabs (f : VuF) : Statement (.vabs f) := ofV rfl rfl fun _ h => by
  simp (disch := decide) only [decodeV, decodeVOp_vabs, encVu, fld_low, fld_high, fld_whole, fld_zero,
    Nat.reduceSub, Nat.sub_self, BitVec.toNat_ofNat, Nat.reducePow, Nat.reduceMod, BitVec.ofNat_eq_ofNat, beq_self_eq_true, need_true, et_vec h]
  exact allow_ok h
theorem vneg (f : VuF) : Statement (.vneg f) := ofV rfl rfl fun _ h => by
  simp (disch := decide) only [decodeV, decodeVOp_vneg, encVu, fld_low, fld_high, fld_whole, fld_zero,
    Nat.reduceSub, Nat.sub_self, BitVec.toNat_ofNat, Nat.reducePow, Nat.reduceMod, BitVec.ofNat_eq_ofNat, beq_self_eq_true, need_true, et_vec h]
  exact allow_ok h
theorem vfma (f : VrF) : Statement (.vfma f) := ofV rfl rfl fun _ h => by
  simp (disch := decide) only [decodeV, decodeVOp_vfma, encVr, fld_low, fld_high, fld_whole, Nat.reduceSub,
    Nat.sub_self, BitVec.toNat_ofNat, Nat.reducePow, Nat.reduceMod, et_float h]
  exact allow_ok h
theorem vfms (f : VrF) : Statement (.vfms f) := ofV rfl rfl fun _ h => by
  simp (disch := decide) only [decodeV, decodeVOp_vfms, encVr, fld_low, fld_high, fld_whole, Nat.reduceSub,
    Nat.sub_self, BitVec.toNat_ofNat, Nat.reducePow, Nat.reduceMod, et_float h]
  exact allow_ok h
theorem vsqrt (f : VuF) : Statement (.vsqrt f) := ofV rfl rfl fun _ h => by
  simp (disch := decide) only [decodeV, decodeVOp_vsqrt, encVu, fld_low, fld_high, fld_whole, fld_zero,
    Nat.reduceSub, Nat.sub_self, BitVec.toNat_ofNat, Nat.reducePow, Nat.reduceMod, BitVec.ofNat_eq_ofNat, beq_self_eq_true, need_true, et_float h]
  exact allow_ok h
theorem vrcp (f : VuF) : Statement (.vrcp f) := ofV rfl rfl fun _ h => by
  simp (disch := decide) only [decodeV, decodeVOp_vrcp, encVu, fld_low, fld_high, fld_whole, fld_zero,
    Nat.reduceSub, Nat.sub_self, BitVec.toNat_ofNat, Nat.reducePow, Nat.reduceMod, BitVec.ofNat_eq_ofNat, beq_self_eq_true, need_true, et_float h]
  exact allow_ok h
theorem vrsqrt (f : VuF) : Statement (.vrsqrt f) := ofV rfl rfl fun _ h => by
  simp (disch := decide) only [decodeV, decodeVOp_vrsqrt, encVu, fld_low, fld_high, fld_whole, fld_zero,
    Nat.reduceSub, Nat.sub_self, BitVec.toNat_ofNat, Nat.reducePow, Nat.reduceMod, BitVec.ofNat_eq_ofNat, beq_self_eq_true, need_true, et_float h]
  exact allow_ok h
theorem vexp2 (f : VuF) : Statement (.vexp2 f) := ofV rfl rfl fun _ h => by
  simp (disch := decide) only [decodeV, decodeVOp_vexp2, encVu, fld_low, fld_high, fld_whole, fld_zero,
    Nat.reduceSub, Nat.sub_self, BitVec.toNat_ofNat, Nat.reducePow, Nat.reduceMod, BitVec.ofNat_eq_ofNat, beq_self_eq_true, need_true, et_exp h]
  exact allow_ok h
theorem vlog2 (f : VuF) : Statement (.vlog2 f) := ofV rfl rfl fun _ h => by
  simp (disch := decide) only [decodeV, decodeVOp_vlog2, encVu, fld_low, fld_high, fld_whole, fld_zero,
    Nat.reduceSub, Nat.sub_self, BitVec.toNat_ofNat, Nat.reducePow, Nat.reduceMod, BitVec.ofNat_eq_ofNat, beq_self_eq_true, need_true, et_exp h]
  exact allow_ok h
theorem vand (f : VrF) : Statement (.vand f) := ofV rfl rfl fun _ h => by
  simp (disch := decide) only [decodeV, decodeVOp_vand, encVr, fld_low, fld_high, fld_whole, Nat.reduceSub,
    Nat.sub_self, BitVec.toNat_ofNat, Nat.reducePow, Nat.reduceMod, et_vec h]
  exact allow_ok h
theorem vor (f : VrF) : Statement (.vor f) := ofV rfl rfl fun _ h => by
  simp (disch := decide) only [decodeV, decodeVOp_vor, encVr, fld_low, fld_high, fld_whole, Nat.reduceSub,
    Nat.sub_self, BitVec.toNat_ofNat, Nat.reducePow, Nat.reduceMod, et_vec h]
  exact allow_ok h
theorem vxor (f : VrF) : Statement (.vxor f) := ofV rfl rfl fun _ h => by
  simp (disch := decide) only [decodeV, decodeVOp_vxor, encVr, fld_low, fld_high, fld_whole, Nat.reduceSub,
    Nat.sub_self, BitVec.toNat_ofNat, Nat.reducePow, Nat.reduceMod, et_vec h]
  exact allow_ok h
theorem vnot (f : VuF) : Statement (.vnot f) := ofV rfl rfl fun _ h => by
  simp (disch := decide) only [decodeV, decodeVOp_vnot, encVu, fld_low, fld_high, fld_whole, fld_zero,
    Nat.reduceSub, Nat.sub_self, BitVec.toNat_ofNat, Nat.reducePow, Nat.reduceMod, BitVec.ofNat_eq_ofNat, beq_self_eq_true, need_true, et_vec h]
  exact allow_ok h
theorem vshl (f : VrF) : Statement (.vshl f) := ofV rfl rfl fun _ h => by
  simp (disch := decide) only [decodeV, decodeVOp_vshl, encVr, fld_low, fld_high, fld_whole, Nat.reduceSub,
    Nat.sub_self, BitVec.toNat_ofNat, Nat.reducePow, Nat.reduceMod, et_int h]
  exact allow_ok h
theorem vshr (f : VrF) : Statement (.vshr f) := ofV rfl rfl fun _ h => by
  simp (disch := decide) only [decodeV, decodeVOp_vshr, encVr, fld_low, fld_high, fld_whole, Nat.reduceSub,
    Nat.sub_self, BitVec.toNat_ofNat, Nat.reducePow, Nat.reduceMod, et_int h]
  exact allow_ok h
theorem vsra (f : VrF) : Statement (.vsra f) := ofV rfl rfl fun _ h => by
  simp (disch := decide) only [decodeV, decodeVOp_vsra, encVr, fld_low, fld_high, fld_whole, Nat.reduceSub,
    Nat.sub_self, BitVec.toNat_ofNat, Nat.reducePow, Nat.reduceMod, et_int h]
  exact allow_ok h
theorem vadds (f : VrF) : Statement (.vadds f) := ofV rfl rfl fun _ h => by
  simp (disch := decide) only [decodeV, decodeVOp_vadds, encVr, fld_low, fld_high, fld_whole, Nat.reduceSub,
    Nat.sub_self, BitVec.toNat_ofNat, Nat.reducePow, Nat.reduceMod, et_int h]
  exact allow_ok h
theorem vsubs (f : VrF) : Statement (.vsubs f) := ofV rfl rfl fun _ h => by
  simp (disch := decide) only [decodeV, decodeVOp_vsubs, encVr, fld_low, fld_high, fld_whole, Nat.reduceSub,
    Nat.sub_self, BitVec.toNat_ofNat, Nat.reducePow, Nat.reduceMod, et_int h]
  exact allow_ok h
theorem vmulh (f : VrF) : Statement (.vmulh f) := ofV rfl rfl fun _ h => by
  simp (disch := decide) only [decodeV, decodeVOp_vmulh, encVr, fld_low, fld_high, fld_whole, Nat.reduceSub,
    Nat.sub_self, BitVec.toNat_ofNat, Nat.reducePow, Nat.reduceMod, et_int h]
  exact allow_ok h
theorem vbcast (f : VxF) : Statement (.vbcast f) := ofV rfl rfl fun _ h => by
  simp (disch := decide) only [decodeV, decodeVOp_vbcast, encVx, fld_low, fld_high, fld_whole, fld_zero,
    Nat.reduceSub, Nat.sub_self, BitVec.toNat_ofNat, Nat.reducePow, Nat.reduceMod, BitVec.ofNat_eq_ofNat, beq_self_eq_true, Bool.and_self, need_true, et_vec h]
  exact allow_ok h
theorem vmovx (f : VxF) : Statement (.vmovx f) := ofV rfl rfl fun _ h => by
  simp (disch := decide) only [decodeV, decodeVOp_vmovx, encVx, fld_low, fld_high, fld_whole, fld_zero,
    Nat.reduceSub, Nat.sub_self, BitVec.toNat_ofNat, Nat.reducePow, Nat.reduceMod, BitVec.ofNat_eq_ofNat, beq_self_eq_true, Bool.and_self, need_true, et_vec h]
  exact allow_ok h
theorem vmov (f : VuF) : Statement (.vmov f) := ofV rfl rfl fun _ h => by
  simp (disch := decide) only [decodeV, decodeVOp_vmov, encVu, fld_low, fld_high, fld_whole, fld_zero,
    Nat.reduceSub, Nat.sub_self, BitVec.toNat_ofNat, Nat.reducePow, Nat.reduceMod, BitVec.ofNat_eq_ofNat, beq_self_eq_true, need_true, et_vec h]
  exact allow_ok h
theorem viota (f : VdF) : Statement (.viota f) := ofV rfl rfl fun _ h => by
  simp (disch := decide) only [decodeV, decodeVOp_viota, encVd, fld_low, fld_high, fld_whole, fld_zero,
    Nat.reduceSub, Nat.sub_self, BitVec.toNat_ofNat, Nat.reducePow, Nat.reduceMod, BitVec.ofNat_eq_ofNat, beq_self_eq_true, Bool.and_self, need_true, et_vec h]
  exact allow_ok h
theorem vli (f : ViF) : Statement (.vli f) := ofV rfl rfl fun _ h => by
  simp (disch := decide) only [decodeV, decodeVOp_vli, encVi, fld_low, fld_high, fld_whole, Nat.reduceSub,
    Nat.sub_self, BitVec.toNat_ofNat, Nat.reducePow, Nat.reduceMod, et_vec h]
  exact allow_ok h
theorem vcmpEq (f : VcF) : Statement (.vcmpEq f) := ofV rfl rfl fun _ h => by
  simp (disch := decide) only [decodeV, decodeVOp_vcmpEq, encVc, fld_low, fld_high, fld_whole, fld_zero,
    Nat.reduceSub, Nat.sub_self, BitVec.toNat_ofNat, Nat.reducePow, Nat.reduceMod, BitVec.ofNat_eq_ofNat, beq_self_eq_true, need_true, et_vec h]
  exact allow_ok h
theorem vcmpNe (f : VcF) : Statement (.vcmpNe f) := ofV rfl rfl fun _ h => by
  simp (disch := decide) only [decodeV, decodeVOp_vcmpNe, encVc, fld_low, fld_high, fld_whole, fld_zero,
    Nat.reduceSub, Nat.sub_self, BitVec.toNat_ofNat, Nat.reducePow, Nat.reduceMod, BitVec.ofNat_eq_ofNat, beq_self_eq_true, need_true, et_vec h]
  exact allow_ok h
theorem vcmpLt (f : VcF) : Statement (.vcmpLt f) := ofV rfl rfl fun _ h => by
  simp (disch := decide) only [decodeV, decodeVOp_vcmpLt, encVc, fld_low, fld_high, fld_whole, fld_zero,
    Nat.reduceSub, Nat.sub_self, BitVec.toNat_ofNat, Nat.reducePow, Nat.reduceMod, BitVec.ofNat_eq_ofNat, beq_self_eq_true, need_true, et_vec h]
  exact allow_ok h
theorem vcmpLe (f : VcF) : Statement (.vcmpLe f) := ofV rfl rfl fun _ h => by
  simp (disch := decide) only [decodeV, decodeVOp_vcmpLe, encVc, fld_low, fld_high, fld_whole, fld_zero,
    Nat.reduceSub, Nat.sub_self, BitVec.toNat_ofNat, Nat.reducePow, Nat.reduceMod, BitVec.ofNat_eq_ofNat, beq_self_eq_true, need_true, et_vec h]
  exact allow_ok h
theorem vcmpUn (f : VcF) : Statement (.vcmpUn f) := ofV rfl rfl fun _ h => by
  simp (disch := decide) only [decodeV, decodeVOp_vcmpUn, encVc, fld_low, fld_high, fld_whole, fld_zero,
    Nat.reduceSub, Nat.sub_self, BitVec.toNat_ofNat, Nat.reducePow, Nat.reduceMod, BitVec.ofNat_eq_ofNat, beq_self_eq_true, need_true, et_float h]
  exact allow_ok h
theorem vcmpLtu (f : VcF) : Statement (.vcmpLtu f) := ofV rfl rfl fun _ h => by
  simp (disch := decide) only [decodeV, decodeVOp_vcmpLtu, encVc, fld_low, fld_high, fld_whole, fld_zero,
    Nat.reduceSub, Nat.sub_self, BitVec.toNat_ofNat, Nat.reducePow, Nat.reduceMod, BitVec.ofNat_eq_ofNat, beq_self_eq_true, need_true, et_int h]
  exact allow_ok h
theorem vcmpLeu (f : VcF) : Statement (.vcmpLeu f) := ofV rfl rfl fun _ h => by
  simp (disch := decide) only [decodeV, decodeVOp_vcmpLeu, encVc, fld_low, fld_high, fld_whole, fld_zero,
    Nat.reduceSub, Nat.sub_self, BitVec.toNat_ofNat, Nat.reducePow, Nat.reduceMod, BitVec.ofNat_eq_ofNat, beq_self_eq_true, need_true, et_int h]
  exact allow_ok h
theorem vpand (f : VpF) : Statement (.vpand f) := ofV rfl rfl fun _ h => by
  simp (disch := decide) only [decodeV, decodeVOp_vpand, encVp, fld_low, fld_high, fld_whole, fld_zero,
    Nat.reduceSub, Nat.sub_self, BitVec.toNat_ofNat, Nat.reducePow, Nat.reduceMod, BitVec.ofNat_eq_ofNat, beq_self_eq_true, Bool.and_self, need_true, et_vec h]
  exact allow_ok h
theorem vpor (f : VpF) : Statement (.vpor f) := ofV rfl rfl fun _ h => by
  simp (disch := decide) only [decodeV, decodeVOp_vpor, encVp, fld_low, fld_high, fld_whole, fld_zero,
    Nat.reduceSub, Nat.sub_self, BitVec.toNat_ofNat, Nat.reducePow, Nat.reduceMod, BitVec.ofNat_eq_ofNat, beq_self_eq_true, Bool.and_self, need_true, et_vec h]
  exact allow_ok h
theorem vpxor (f : VpF) : Statement (.vpxor f) := ofV rfl rfl fun _ h => by
  simp (disch := decide) only [decodeV, decodeVOp_vpxor, encVp, fld_low, fld_high, fld_whole, fld_zero,
    Nat.reduceSub, Nat.sub_self, BitVec.toNat_ofNat, Nat.reducePow, Nat.reduceMod, BitVec.ofNat_eq_ofNat, beq_self_eq_true, Bool.and_self, need_true, et_vec h]
  exact allow_ok h
theorem vpnot (f : VpnF) : Statement (.vpnot f) := ofV rfl rfl fun _ h => by
  simp (disch := decide) only [decodeV, decodeVOp_vpnot, encVpn, fld_low, fld_high, fld_whole, fld_zero,
    Nat.reduceSub, Nat.sub_self, BitVec.toNat_ofNat, Nat.reducePow, Nat.reduceMod, BitVec.ofNat_eq_ofNat, beq_self_eq_true, Bool.and_self, need_true, et_vec h]
  exact allow_ok h
theorem vpset (f : VpsF) : Statement (.vpset f) := ofV rfl rfl fun _ h => by
  simp (disch := decide) only [decodeV, decodeVOp_vpset, encVps, fld_low, fld_high, fld_whole, fld_zero,
    Nat.reduceSub, Nat.sub_self, BitVec.toNat_ofNat, Nat.reducePow, Nat.reduceMod, BitVec.ofNat_eq_ofNat, beq_self_eq_true, Bool.and_self, need_true, et_vec h]
  exact allow_ok h
theorem vpcnt (f : VpxF) : Statement (.vpcnt f) := ofV rfl rfl fun _ h => by
  simp (disch := decide) only [decodeV, decodeVOp_vpcnt, encVpx, fld_low, fld_high, fld_whole, fld_zero,
    Nat.reduceSub, Nat.sub_self, BitVec.toNat_ofNat, Nat.reducePow, Nat.reduceMod, BitVec.ofNat_eq_ofNat, beq_self_eq_true, Bool.and_self, need_true, et_vec h]
  exact allow_ok h
theorem vpfirst (f : VpxF) : Statement (.vpfirst f) := ofV rfl rfl fun _ h => by
  simp (disch := decide) only [decodeV, decodeVOp_vpfirst, encVpx, fld_low, fld_high, fld_whole, fld_zero,
    Nat.reduceSub, Nat.sub_self, BitVec.toNat_ofNat, Nat.reducePow, Nat.reduceMod, BitVec.ofNat_eq_ofNat, beq_self_eq_true, Bool.and_self, need_true, et_vec h]
  exact allow_ok h
theorem vsel (f : VrF) : Statement (.vsel f) := ofV rfl rfl fun _ h => by
  simp (disch := decide) only [decodeV, decodeVOp_vsel, encVr, fld_low, fld_high, fld_whole, Nat.reduceSub,
    Nat.sub_self, BitVec.toNat_ofNat, Nat.reducePow, Nat.reduceMod, et_vec h]
  exact allow_ok h
theorem vperm (f : VrF) : Statement (.vperm f) := ofV rfl rfl fun _ h => by
  simp (disch := decide) only [decodeV, decodeVOp_vperm, encVr, fld_low, fld_high, fld_whole, Nat.reduceSub,
    Nat.sub_self, BitVec.toNat_ofNat, Nat.reducePow, Nat.reduceMod, et_vec h]
  exact allow_ok h
theorem vslideup (f : VslF) : Statement (.vslideup f) := ofV rfl rfl fun _ h => by
  simp (disch := decide) only [decodeV, decodeVOp_vslideup, encVsl, fld_low, fld_high, fld_whole, Nat.reduceSub,
    Nat.sub_self, BitVec.toNat_ofNat, Nat.reducePow, Nat.reduceMod, et_vec h]
  exact allow_ok h
theorem vslidedn (f : VslF) : Statement (.vslidedn f) := ofV rfl rfl fun _ h => by
  simp (disch := decide) only [decodeV, decodeVOp_vslidedn, encVsl, fld_low, fld_high, fld_whole, Nat.reduceSub,
    Nat.sub_self, BitVec.toNat_ofNat, Nat.reducePow, Nat.reduceMod, et_vec h]
  exact allow_ok h
theorem vzip (f : VrF) : Statement (.vzip f) := ofV rfl rfl fun _ h => by
  simp (disch := decide) only [decodeV, decodeVOp_vzip, encVr, fld_low, fld_high, fld_whole, Nat.reduceSub,
    Nat.sub_self, BitVec.toNat_ofNat, Nat.reducePow, Nat.reduceMod, et_vec h]
  exact allow_ok h
theorem vunzip (f : VrF) : Statement (.vunzip f) := ofV rfl rfl fun _ h => by
  simp (disch := decide) only [decodeV, decodeVOp_vunzip, encVr, fld_low, fld_high, fld_whole, Nat.reduceSub,
    Nat.sub_self, BitVec.toNat_ofNat, Nat.reducePow, Nat.reduceMod, et_vec h]
  exact allow_ok h
theorem vcompress (f : VuF) : Statement (.vcompress f) := ofV rfl rfl fun _ h => by
  simp (disch := decide) only [decodeV, decodeVOp_vcompress, encVu, fld_low, fld_high, fld_whole, fld_zero,
    Nat.reduceSub, Nat.sub_self, BitVec.toNat_ofNat, Nat.reducePow, Nat.reduceMod, BitVec.ofNat_eq_ofNat, beq_self_eq_true, need_true, et_vec h]
  exact allow_ok h
theorem vexpand (f : VuF) : Statement (.vexpand f) := ofV rfl rfl fun _ h => by
  simp (disch := decide) only [decodeV, decodeVOp_vexpand, encVu, fld_low, fld_high, fld_whole, fld_zero,
    Nat.reduceSub, Nat.sub_self, BitVec.toNat_ofNat, Nat.reducePow, Nat.reduceMod, BitVec.ofNat_eq_ofNat, beq_self_eq_true, need_true, et_vec h]
  exact allow_ok h
theorem vredsum (f : VuF) : Statement (.vredsum f) := ofV rfl rfl fun _ h => by
  simp (disch := decide) only [decodeV, decodeVOp_vredsum, encVu, fld_low, fld_high, fld_whole, fld_zero,
    Nat.reduceSub, Nat.sub_self, BitVec.toNat_ofNat, Nat.reducePow, Nat.reduceMod, BitVec.ofNat_eq_ofNat, beq_self_eq_true, need_true, et_vec h]
  exact allow_ok h
theorem vredmax (f : VuF) : Statement (.vredmax f) := ofV rfl rfl fun _ h => by
  simp (disch := decide) only [decodeV, decodeVOp_vredmax, encVu, fld_low, fld_high, fld_whole, fld_zero,
    Nat.reduceSub, Nat.sub_self, BitVec.toNat_ofNat, Nat.reducePow, Nat.reduceMod, BitVec.ofNat_eq_ofNat, beq_self_eq_true, need_true, et_vec h]
  exact allow_ok h
theorem vredmin (f : VuF) : Statement (.vredmin f) := ofV rfl rfl fun _ h => by
  simp (disch := decide) only [decodeV, decodeVOp_vredmin, encVu, fld_low, fld_high, fld_whole, fld_zero,
    Nat.reduceSub, Nat.sub_self, BitVec.toNat_ofNat, Nat.reducePow, Nat.reduceMod, BitVec.ofNat_eq_ofNat, beq_self_eq_true, need_true, et_vec h]
  exact allow_ok h
theorem vscansum (f : VuF) : Statement (.vscansum f) := ofV rfl rfl fun _ h => by
  simp (disch := decide) only [decodeV, decodeVOp_vscansum, encVu, fld_low, fld_high, fld_whole, fld_zero,
    Nat.reduceSub, Nat.sub_self, BitVec.toNat_ofNat, Nat.reducePow, Nat.reduceMod, BitVec.ofNat_eq_ofNat, beq_self_eq_true, need_true, et_vec h]
  exact allow_ok h
theorem vscanmax (f : VuF) : Statement (.vscanmax f) := ofV rfl rfl fun _ h => by
  simp (disch := decide) only [decodeV, decodeVOp_vscanmax, encVu, fld_low, fld_high, fld_whole, fld_zero,
    Nat.reduceSub, Nat.sub_self, BitVec.toNat_ofNat, Nat.reducePow, Nat.reduceMod, BitVec.ofNat_eq_ofNat, beq_self_eq_true, need_true, et_vec h]
  exact allow_ok h
theorem vargmax (f : VuF) : Statement (.vargmax f) := ofV rfl rfl fun _ h => by
  simp (disch := decide) only [decodeV, decodeVOp_vargmax, encVu, fld_low, fld_high, fld_whole, fld_zero,
    Nat.reduceSub, Nat.sub_self, BitVec.toNat_ofNat, Nat.reducePow, Nat.reduceMod, BitVec.ofNat_eq_ofNat, beq_self_eq_true, need_true, et_vec h]
  exact allow_ok h
theorem vbitonic (f : VbtF) : Statement (.vbitonic f) := ofV rfl rfl fun _ h => by
  simp (disch := decide) only [decodeV, decodeVOp_vbitonic, encVbt, fld_low, fld_high, fld_whole, Nat.reduceSub,
    Nat.sub_self, BitVec.toNat_ofNat, Nat.reducePow, Nat.reduceMod, et_vec (Bool.and_eq_true_iff.1 (Bool.and_eq_true_iff.1 h).1).1]
  exact allow_ok h
theorem vmulL6 (f : VlF) : Statement (.vmulL6 f) := ofV rfl rfl fun _ h => by
  simp (disch := decide) only [decodeV, decodeVOp_vmulL6, encVl, fld_low, fld_high, fld_whole, fld_zero,
    Nat.reduceSub, Nat.sub_self, BitVec.toNat_ofNat, Nat.reducePow, Nat.reduceMod, BitVec.ofNat_eq_ofNat, beq_self_eq_true, need_true]
  exact allow_ok h
theorem vdotL6 (f : VlF) : Statement (.vdotL6 f) := ofV rfl rfl fun _ h => by
  simp (disch := decide) only [decodeV, decodeVOp_vdotL6, encVl, fld_low, fld_high, fld_whole, fld_zero,
    Nat.reduceSub, Nat.sub_self, BitVec.toNat_ofNat, Nat.reducePow, Nat.reduceMod, BitVec.ofNat_eq_ofNat, beq_self_eq_true, need_true]
  exact allow_ok h
theorem vrand (f : VrF) : Statement (.vrand f) := ofV rfl rfl fun _ h => by
  simp (disch := decide) only [decodeV, decodeVOp_vrand, encVr, fld_low, fld_high, fld_whole, Nat.reduceSub,
    Nat.sub_self, BitVec.toNat_ofNat, Nat.reducePow, Nat.reduceMod, et_rand h]
  exact allow_ok h
theorem vld (f : VmF) : Statement (.vld f) := ofV rfl rfl fun _ h => by
  simp (disch := decide) only [decodeV, decodeVOp_vld, encVm, fld_low, fld_high, fld_whole, Nat.reduceSub,
    Nat.sub_self, BitVec.toNat_ofNat, Nat.reducePow, Nat.reduceMod, BitVec.ofNat_eq_ofNat, ofBool_back]
  exact allow_ok h
theorem vst (f : VstF) : Statement (.vst f) := ofV rfl rfl fun _ h => by
  simp (disch := decide) only [decodeV, decodeVOp_vst, encVst, fld_low, fld_high, fld_whole, fld_zero,
    Nat.reduceSub, Nat.sub_self, BitVec.toNat_ofNat, Nat.reducePow, Nat.reduceMod, BitVec.ofNat_eq_ofNat]
  exact allow_ok h
theorem vstm (f : VsmF) : Statement (.vstm f) := ofV rfl rfl fun _ h => by
  simp (disch := decide) only [decodeV, decodeVOp_vstm, encVsm, fld_low, fld_high, fld_whole, fld_zero,
    Nat.reduceSub, Nat.sub_self, BitVec.toNat_ofNat, Nat.reducePow, Nat.reduceMod, BitVec.ofNat_eq_ofNat, beq_self_eq_true]
  exact allow_ok h
theorem vgather (f : VmF) : Statement (.vgather f) := ofV rfl rfl fun _ h => by
  simp (disch := decide) only [decodeV, decodeVOp_vgather, encVm, fld_low, fld_high, fld_whole, Nat.reduceSub,
    Nat.sub_self, BitVec.toNat_ofNat, Nat.reducePow, Nat.reduceMod, BitVec.ofNat_eq_ofNat, ofBool_back]
  exact allow_ok h
theorem vscatter (f : VsmF) : Statement (.vscatter f) := ofV rfl rfl fun _ h => by
  simp (disch := decide) only [decodeV, decodeVOp_vscatter, encVsm, fld_low, fld_high, fld_whole, fld_zero,
    Nat.reduceSub, Nat.sub_self, BitVec.toNat_ofNat, Nat.reducePow, Nat.reduceMod, BitVec.ofNat_eq_ofNat, beq_self_eq_true]
  exact allow_ok h
theorem ld (f : LdF) : Statement (.ld f) := ofV rfl rfl fun _ h => by
  simp (disch := decide) only [decodeV, decodeVOp_ld, encLd, fld_low, fld_high, fld_whole, fld_zero, Nat.reduceSub,
    Nat.sub_self, BitVec.toNat_ofNat, Nat.reducePow, Nat.reduceMod, BitVec.ofNat_eq_ofNat, beq_self_eq_true, need_true, ofBool_back]
  exact allow_ok h
theorem st (f : LsF) : Statement (.st f) := ofV rfl rfl fun _ h => by
  simp (disch := decide) only [decodeV, decodeVOp_st, encLs, fld_low, fld_high, fld_whole, fld_zero, Nat.reduceSub,
    Nat.sub_self, BitVec.toNat_ofNat, Nat.reducePow, Nat.reduceMod, BitVec.ofNat_eq_ofNat, beq_self_eq_true]
  exact allow_ok h
theorem ldSc (f : LsF) : Statement (.ldSc f) := ofV rfl rfl fun _ h => by
  simp (disch := decide) only [decodeV, decodeVOp_ldSc, encLs, fld_low, fld_high, fld_whole, fld_zero,
    Nat.reduceSub, Nat.sub_self, BitVec.toNat_ofNat, Nat.reducePow, Nat.reduceMod, BitVec.ofNat_eq_ofNat, beq_self_eq_true, Bool.and_self, need_true]
  exact allow_ok h
theorem stSc (f : LsF) : Statement (.stSc f) := ofV rfl rfl fun _ h => by
  simp (disch := decide) only [decodeV, decodeVOp_stSc, encLs, fld_low, fld_high, fld_whole, fld_zero,
    Nat.reduceSub, Nat.sub_self, BitVec.toNat_ofNat, Nat.reducePow, Nat.reduceMod, BitVec.ofNat_eq_ofNat, beq_self_eq_true]
  exact allow_ok h
theorem vpref (f : VprefF) : Statement (.vpref f) := ofV rfl rfl fun _ h => by
  simp (disch := decide) only [decodeV, decodeVOp_vpref, encVpref, fld_low, fld_high, fld_whole, fld_zero,
    Nat.reduceSub, Nat.sub_self, BitVec.toNat_ofNat, Nat.reducePow, Nat.reduceMod, BitVec.ofNat_eq_ofNat, beq_self_eq_true]
  exact allow_ok h
theorem amoadd (f : AmoF) : Statement (.amoadd f) := ofV rfl rfl fun _ h => by
  simp (disch := decide) only [decodeV, decodeVOp_amoadd, encVt, fld_low, fld_high, fld_whole, fld_zero,
    Nat.reduceSub, Nat.sub_self, BitVec.toNat_ofNat, Nat.reducePow, Nat.reduceMod, BitVec.ofNat_eq_ofNat, beq_self_eq_true, need_true, coded_some, scope_back, ord_back]
  exact allow_ok h
theorem amomin (f : AmoF) : Statement (.amomin f) := ofV rfl rfl fun _ h => by
  simp (disch := decide) only [decodeV, decodeVOp_amomin, encVt, fld_low, fld_high, fld_whole, fld_zero,
    Nat.reduceSub, Nat.sub_self, BitVec.toNat_ofNat, Nat.reducePow, Nat.reduceMod, BitVec.ofNat_eq_ofNat, beq_self_eq_true, need_true, coded_some, scope_back, ord_back]
  exact allow_ok h
theorem amomax (f : AmoF) : Statement (.amomax f) := ofV rfl rfl fun _ h => by
  simp (disch := decide) only [decodeV, decodeVOp_amomax, encVt, fld_low, fld_high, fld_whole, fld_zero,
    Nat.reduceSub, Nat.sub_self, BitVec.toNat_ofNat, Nat.reducePow, Nat.reduceMod, BitVec.ofNat_eq_ofNat, beq_self_eq_true, need_true, coded_some, scope_back, ord_back]
  exact allow_ok h
theorem amominu (f : AmoF) : Statement (.amominu f) := ofV rfl rfl fun _ h => by
  simp (disch := decide) only [decodeV, decodeVOp_amominu, encVt, fld_low, fld_high, fld_whole, fld_zero,
    Nat.reduceSub, Nat.sub_self, BitVec.toNat_ofNat, Nat.reducePow, Nat.reduceMod, BitVec.ofNat_eq_ofNat, beq_self_eq_true, need_true, coded_some, scope_back, ord_back]
  exact allow_ok h
theorem amomaxu (f : AmoF) : Statement (.amomaxu f) := ofV rfl rfl fun _ h => by
  simp (disch := decide) only [decodeV, decodeVOp_amomaxu, encVt, fld_low, fld_high, fld_whole, fld_zero,
    Nat.reduceSub, Nat.sub_self, BitVec.toNat_ofNat, Nat.reducePow, Nat.reduceMod, BitVec.ofNat_eq_ofNat, beq_self_eq_true, need_true, coded_some, scope_back, ord_back]
  exact allow_ok h
theorem amoand (f : AmoF) : Statement (.amoand f) := ofV rfl rfl fun _ h => by
  simp (disch := decide) only [decodeV, decodeVOp_amoand, encVt, fld_low, fld_high, fld_whole, fld_zero,
    Nat.reduceSub, Nat.sub_self, BitVec.toNat_ofNat, Nat.reducePow, Nat.reduceMod, BitVec.ofNat_eq_ofNat, beq_self_eq_true, need_true, coded_some, scope_back, ord_back]
  exact allow_ok h
theorem amoor (f : AmoF) : Statement (.amoor f) := ofV rfl rfl fun _ h => by
  simp (disch := decide) only [decodeV, decodeVOp_amoor, encVt, fld_low, fld_high, fld_whole, fld_zero,
    Nat.reduceSub, Nat.sub_self, BitVec.toNat_ofNat, Nat.reducePow, Nat.reduceMod, BitVec.ofNat_eq_ofNat, beq_self_eq_true, need_true, coded_some, scope_back, ord_back]
  exact allow_ok h
theorem amoxor (f : AmoF) : Statement (.amoxor f) := ofV rfl rfl fun _ h => by
  simp (disch := decide) only [decodeV, decodeVOp_amoxor, encVt, fld_low, fld_high, fld_whole, fld_zero,
    Nat.reduceSub, Nat.sub_self, BitVec.toNat_ofNat, Nat.reducePow, Nat.reduceMod, BitVec.ofNat_eq_ofNat, beq_self_eq_true, need_true, coded_some, scope_back, ord_back]
  exact allow_ok h
theorem amoswap (f : AmoF) : Statement (.amoswap f) := ofV rfl rfl fun _ h => by
  simp (disch := decide) only [decodeV, decodeVOp_amoswap, encVt, fld_low, fld_high, fld_whole, fld_zero,
    Nat.reduceSub, Nat.sub_self, BitVec.toNat_ofNat, Nat.reducePow, Nat.reduceMod, BitVec.ofNat_eq_ofNat, beq_self_eq_true, need_true, coded_some, scope_back, ord_back]
  exact allow_ok h
theorem amocas (f : AmoF) : Statement (.amocas f) := ofV rfl rfl fun _ h => by
  simp (disch := decide) only [decodeV, decodeVOp_amocas, encVt, fld_low, fld_high, fld_whole, fld_zero,
    Nat.reduceSub, Nat.sub_self, BitVec.toNat_ofNat, Nat.reducePow, Nat.reduceMod, BitVec.ofNat_eq_ofNat, beq_self_eq_true, need_true, coded_some, scope_back, ord_back]
  exact allow_ok h
theorem amoSc (f : AmoScF) : Statement (.amoSc f) := ofV rfl rfl fun _ h => by
  simp (disch := decide) only [decodeV, decodeVOp_amoSc, encVt, fld_low, fld_high, fld_whole, fld_zero,
    Nat.reduceSub, Nat.sub_self, BitVec.toNat_ofNat, Nat.reducePow, Nat.reduceMod, BitVec.ofNat_eq_ofNat, beq_self_eq_true]
  exact allow_ok h
theorem lda (f : VtxF) : Statement (.lda f) := ofV rfl rfl fun _ h => by
  simp (disch := decide) only [decodeV, decodeVOp_lda, encVt, fld_low, fld_high, fld_whole, fld_zero,
    Nat.reduceSub, Nat.sub_self, BitVec.toNat_ofNat, Nat.reducePow, Nat.reduceMod, BitVec.ofNat_eq_ofNat, beq_self_eq_true, Bool.and_self, coded_some, scope_back]
  exact allow_ok h
theorem stl (f : VtxF) : Statement (.stl f) := ofV rfl rfl fun _ h => by
  simp (disch := decide) only [decodeV, decodeVOp_stl, encVt, fld_low, fld_high, fld_whole, fld_zero,
    Nat.reduceSub, Nat.sub_self, BitVec.toNat_ofNat, Nat.reducePow, Nat.reduceMod, BitVec.ofNat_eq_ofNat, beq_self_eq_true, Bool.and_self, coded_some, scope_back]
  exact allow_ok h
theorem vfence (f : VfenceF) : Statement (.vfence f) := ofV rfl rfl fun _ h => by
  simp (disch := decide) only [decodeV, decodeVOp_vfence, encVt, fld_low, fld_high, fld_whole, fld_zero, fld_span,
    Nat.reduceSub, Nat.sub_self, BitVec.toNat_ofNat, Nat.reducePow, Nat.reduceMod, BitVec.ofNat_eq_ofNat, beq_self_eq_true, Bool.and_self, need_true, coded_some, scope_back, ord_back]
  exact allow_ok h
theorem cflush (f : VtxF) : Statement (.cflush f) := ofV rfl rfl fun _ h => by
  simp (disch := decide) only [decodeV, decodeVOp_cflush, encVt, fld_low, fld_high, fld_whole, fld_zero,
    Nat.reduceSub, Nat.sub_self, BitVec.toNat_ofNat, Nat.reducePow, Nat.reduceMod, BitVec.ofNat_eq_ofNat, beq_self_eq_true, Bool.and_self, coded_some, scope_back]
  exact allow_ok h
theorem vamoadd (f : VvF) : Statement (.vamoadd f) := ofV rfl rfl fun _ h => by
  simp (disch := decide) only [decodeV, decodeVOp_vamoadd, encVv, fld_low, fld_high, fld_whole, fld_zero,
    Nat.reduceSub, Nat.sub_self, BitVec.toNat_ofNat, Nat.reducePow, Nat.reduceMod, BitVec.ofNat_eq_ofNat, beq_self_eq_true, need_true, coded_some, scope_back, ord_back]
  exact allow_ok h
theorem vamomin (f : VvF) : Statement (.vamomin f) := ofV rfl rfl fun _ h => by
  simp (disch := decide) only [decodeV, decodeVOp_vamomin, encVv, fld_low, fld_high, fld_whole, fld_zero,
    Nat.reduceSub, Nat.sub_self, BitVec.toNat_ofNat, Nat.reducePow, Nat.reduceMod, BitVec.ofNat_eq_ofNat, beq_self_eq_true, need_true, coded_some, scope_back, ord_back]
  exact allow_ok h
theorem vamomax (f : VvF) : Statement (.vamomax f) := ofV rfl rfl fun _ h => by
  simp (disch := decide) only [decodeV, decodeVOp_vamomax, encVv, fld_low, fld_high, fld_whole, fld_zero,
    Nat.reduceSub, Nat.sub_self, BitVec.toNat_ofNat, Nat.reducePow, Nat.reduceMod, BitVec.ofNat_eq_ofNat, beq_self_eq_true, need_true, coded_some, scope_back, ord_back]
  exact allow_ok h
theorem vredst (f : VvF) : Statement (.vredst f) := ofV rfl rfl fun _ h => by
  simp (disch := decide) only [decodeV, decodeVOp_vredst, encVv, fld_low, fld_high, fld_whole, fld_zero,
    Nat.reduceSub, Nat.sub_self, BitVec.toNat_ofNat, Nat.reducePow, Nat.reduceMod, BitVec.ofNat_eq_ofNat, beq_self_eq_true, need_true, coded_some, scope_back, ord_back]
  exact allow_ok h
theorem cldh (f : CmF) : Statement (.cldh f) := ofV rfl rfl fun _ h => by
  simp (disch := decide) only [decodeV, decodeVOp_cldh, encVh, fld_low, fld_high, fld_whole, fld_zero,
    Nat.reduceSub, Nat.sub_self, BitVec.toNat_ofNat, Nat.reducePow, Nat.reduceMod, BitVec.ofNat_eq_ofNat, beq_self_eq_true, need_true]
  exact allow_ok h
theorem csth (f : CmF) : Statement (.csth f) := ofV rfl rfl fun _ h => by
  simp (disch := decide) only [decodeV, decodeVOp_csth, encVh, fld_low, fld_high, fld_whole, fld_zero,
    Nat.reduceSub, Nat.sub_self, BitVec.toNat_ofNat, Nat.reducePow, Nat.reduceMod, BitVec.ofNat_eq_ofNat, beq_self_eq_true, need_true]
  exact allow_ok h
theorem cnarrow (f : CnF) : Statement (.cnarrow f) := ofV rfl rfl fun _ h => by
  simp (disch := decide) only [decodeV, decodeVOp_cnarrow, encVh, fld_low, fld_high, fld_whole, Nat.reduceSub,
    Nat.sub_self, BitVec.toNat_ofNat, Nat.reducePow, Nat.reduceMod]
  exact allow_ok h
theorem cget (f : CgF) : Statement (.cget f) := ofV rfl rfl fun _ h => by
  simp (disch := decide) only [decodeV, decodeVOp_cget, encVh, fld_low, fld_high, fld_whole, fld_zero,
    Nat.reduceSub, Nat.sub_self, BitVec.toNat_ofNat, Nat.reducePow, Nat.reduceMod, BitVec.ofNat_eq_ofNat, beq_self_eq_true, Bool.and_self, need_true]
  exact allow_ok h
theorem cmov (f : CvF) : Statement (.cmov f) := ofV rfl rfl fun _ h => by
  simp (disch := decide) only [decodeV, decodeVOp_cmov, encVh, fld_low, fld_high, fld_whole, fld_zero,
    Nat.reduceSub, Nat.sub_self, BitVec.toNat_ofNat, Nat.reducePow, Nat.reduceMod, BitVec.ofNat_eq_ofNat, beq_self_eq_true, Bool.and_self, need_true]
  exact allow_ok h
theorem cclr (ha : HReg) : Statement (.cclr ha) := ofV rfl rfl fun _ h => by
  simp (disch := decide) only [decodeV, decodeVOp_cclr, encVh, fld_low, fld_high, fld_whole, fld_zero, fld_span,
    Nat.reduceSub, Nat.sub_self, BitVec.toNat_ofNat, Nat.reducePow, Nat.reduceMod, BitVec.ofNat_eq_ofNat, beq_self_eq_true, Bool.and_self, need_true]
  exact allow_ok h
theorem binit (f : BinitF) : Statement (.binit f) := ofV rfl rfl fun _ h => by
  simp (disch := decide) only [decodeV, decodeVOp_binit, encVh, fld_low, fld_high, fld_whole, fld_zero,
    Nat.sub_self, BitVec.toNat_ofNat, Nat.reducePow, Nat.reduceMod, BitVec.ofNat_eq_ofNat, beq_self_eq_true, Bool.and_self, need_true, ofBool_back]
  exact allow_ok h
theorem blink (f : BlinkF) : Statement (.blink f) := ofV rfl rfl fun _ h => by
  simp (disch := decide) only [decodeV, decodeVOp_blink, encVh, fld_low, fld_high, fld_whole, fld_zero,
    Nat.reduceSub, Nat.sub_self, BitVec.toNat_ofNat, Nat.reducePow, Nat.reduceMod, BitVec.ofNat_eq_ofNat, beq_self_eq_true, need_true]
  exact allow_ok h
theorem barrive (f : BarF) : Statement (.barrive f) := ofV rfl rfl fun _ h => by
  simp (disch := decide) only [decodeV, decodeVOp_barrive, encVh, fld_low, fld_high, fld_whole, fld_zero,
    Nat.sub_self, BitVec.toNat_ofNat, Nat.reducePow, Nat.reduceMod, BitVec.ofNat_eq_ofNat, beq_self_eq_true, Bool.and_self, need_true, coded_some, scope_back]
  exact allow_ok h
theorem bwaitp (f : BarF) : Statement (.bwaitp f) := ofV rfl rfl fun _ h => by
  simp (disch := decide) only [decodeV, decodeVOp_bwaitp, encVh, fld_low, fld_high, fld_whole, fld_zero,
    Nat.sub_self, BitVec.toNat_ofNat, Nat.reducePow, Nat.reduceMod, BitVec.ofNat_eq_ofNat, beq_self_eq_true, Bool.and_self, need_true, coded_some, scope_back]
  exact allow_ok h
theorem oclaim (os : OSlot) : Statement (.oclaim os) := ofM rfl rfl fun h => by
  simp (disch := decide) only [decodeM, decodeMOp_oclaim, encMo, fld_low, fld_high, fld_whole, fld_zero, fld_span,
    Nat.reduceSub, Nat.sub_self, BitVec.toNat_ofNat, Nat.reducePow, Nat.reduceMod, BitVec.ofNat_eq_ofNat, beq_self_eq_true, Bool.and_self, need_true]
  exact allow_ok h
theorem orelease (os : OSlot) : Statement (.orelease os) := ofM rfl rfl fun h => by
  simp (disch := decide) only [decodeM, decodeMOp_orelease, encMo, fld_low, fld_high, fld_whole, fld_zero,
    fld_span, Nat.reduceSub, Nat.sub_self, BitVec.toNat_ofNat, Nat.reducePow, Nat.reduceMod, BitVec.ofNat_eq_ofNat, beq_self_eq_true, Bool.and_self, need_true]
  exact allow_ok h
theorem oload (f : OloadF) : Statement (.oload f) := ofM rfl rfl fun h => by
  simp (disch := decide) only [decodeM, decodeMOp_oload, encMo, fld_low, fld_high, fld_whole, fld_zero,
    Nat.reduceSub, Nat.sub_self, BitVec.toNat_ofNat, Nat.reducePow, Nat.reduceMod, BitVec.ofNat_eq_ofNat, beq_self_eq_true, Bool.and_self, need_true]
  exact allow_ok h
theorem wload (f : MwF) : Statement (.wload f) := ofM rfl rfl fun h => by
  simp (disch := decide) only [decodeM, decodeMOp_wload, encMw, fld_low, fld_high, fld_whole, fld_zero,
    Nat.reduceSub, Nat.sub_self, BitVec.toNat_ofNat, Nat.reducePow, Nat.reduceMod, BitVec.ofNat_eq_ofNat, beq_self_eq_true, need_true]
  exact allow_ok h
theorem mzero (f : MzF) : Statement (.mzero f) := ofM rfl rfl fun h => by
  simp (disch := decide) only [decodeM, decodeMOp_mzero, encMt, fld_low, fld_high, fld_whole, fld_zero, fld_span,
    Nat.reduceSub, Nat.sub_self, BitVec.toNat_ofNat, Nat.reducePow, Nat.reduceMod, BitVec.ofNat_eq_ofNat, beq_self_eq_true, Bool.and_self, need_true, coded_some, kind_back]
  exact allow_ok h
theorem mmov (f : M1F) : Statement (.mmov f) := ofM rfl rfl fun h => by
  simp (disch := decide) only [decodeM, decodeMOp_mmov, encMt, fld_low, fld_high, fld_whole, fld_zero, fld_span,
    Nat.reduceSub, Nat.sub_self, BitVec.toNat_ofNat, Nat.reducePow, Nat.reduceMod, BitVec.ofNat_eq_ofNat, beq_self_eq_true, Bool.and_self, need_true]
  exact allow_ok h
theorem mrd (f : MrwF) : Statement (.mrd f) := ofM rfl rfl fun h => by
  simp (disch := decide) only [decodeM, decodeMOp_mrd, encMo, fld_low, fld_high, fld_whole, fld_zero,
    Nat.reduceSub, Nat.sub_self, BitVec.toNat_ofNat, Nat.reducePow, Nat.reduceMod, BitVec.ofNat_eq_ofNat, beq_self_eq_true, Bool.and_self, need_true]
  exact allow_ok h
theorem mwr (f : MrwF) : Statement (.mwr f) := ofM rfl rfl fun h => by
  simp (disch := decide) only [decodeM, decodeMOp_mwr, encMo, fld_low, fld_high, fld_whole, fld_zero,
    Nat.reduceSub, Nat.sub_self, BitVec.toNat_ofNat, Nat.reducePow, Nat.reduceMod, BitVec.ofNat_eq_ofNat, beq_self_eq_true, Bool.and_self, need_true]
  exact allow_ok h
theorem mmaF64 (f : MaF) : Statement (.mmaF64 f) := ofM rfl rfl fun h => by
  simp (disch := decide) only [decodeM, decodeMOp_mmaF64, encMa, fld_low, fld_high, fld_whole, fld_zero,
    Nat.reduceSub, Nat.sub_self, BitVec.toNat_ofNat, Nat.reducePow, Nat.reduceMod, BitVec.ofNat_eq_ofNat, beq_self_eq_true, need_true, ofBool_back]
  exact allow_ok h
theorem mmaF32 (f : MaF) : Statement (.mmaF32 f) := ofM rfl rfl fun h => by
  simp (disch := decide) only [decodeM, decodeMOp_mmaF32, encMa, fld_low, fld_high, fld_whole, fld_zero,
    Nat.reduceSub, Nat.sub_self, BitVec.toNat_ofNat, Nat.reducePow, Nat.reduceMod, BitVec.ofNat_eq_ofNat, beq_self_eq_true, need_true, ofBool_back]
  exact allow_ok h
theorem mmaBf16 (f : MaF) : Statement (.mmaBf16 f) := ofM rfl rfl fun h => by
  simp (disch := decide) only [decodeM, decodeMOp_mmaBf16, encMa, fld_low, fld_high, fld_whole, fld_zero,
    Nat.reduceSub, Nat.sub_self, BitVec.toNat_ofNat, Nat.reducePow, Nat.reduceMod, BitVec.ofNat_eq_ofNat, beq_self_eq_true, need_true, ofBool_back]
  exact allow_ok h
theorem mmaF16 (f : MaF) : Statement (.mmaF16 f) := ofM rfl rfl fun h => by
  simp (disch := decide) only [decodeM, decodeMOp_mmaF16, encMa, fld_low, fld_high, fld_whole, fld_zero,
    Nat.reduceSub, Nat.sub_self, BitVec.toNat_ofNat, Nat.reducePow, Nat.reduceMod, BitVec.ofNat_eq_ofNat, beq_self_eq_true, need_true, ofBool_back]
  exact allow_ok h
theorem mmaI8 (f : MaF) : Statement (.mmaI8 f) := ofM rfl rfl fun h => by
  simp (disch := decide) only [decodeM, decodeMOp_mmaI8, encMa, fld_low, fld_high, fld_whole, fld_zero,
    Nat.reduceSub, Nat.sub_self, BitVec.toNat_ofNat, Nat.reducePow, Nat.reduceMod, BitVec.ofNat_eq_ofNat, beq_self_eq_true, need_true, ofBool_back]
  exact allow_ok h
theorem mmaI4 (f : MaF) : Statement (.mmaI4 f) := ofM rfl rfl fun h => by
  simp (disch := decide) only [decodeM, decodeMOp_mmaI4, encMa, fld_low, fld_high, fld_whole, fld_zero,
    Nat.reduceSub, Nat.sub_self, BitVec.toNat_ofNat, Nat.reducePow, Nat.reduceMod, BitVec.ofNat_eq_ofNat, beq_self_eq_true, need_true, ofBool_back]
  exact allow_ok h
theorem mmaL6 (f : MaF) : Statement (.mmaL6 f) := ofM rfl rfl fun h => by
  simp (disch := decide) only [decodeM, decodeMOp_mmaL6, encMa, fld_low, fld_high, fld_whole, fld_zero,
    Nat.reduceSub, Nat.sub_self, BitVec.toNat_ofNat, Nat.reducePow, Nat.reduceMod, BitVec.ofNat_eq_ofNat, beq_self_eq_true, need_true, ofBool_back]
  exact allow_ok h
theorem mmaS24 (f : MaF) : Statement (.mmaS24 f) := ofM rfl rfl fun h => by
  simp (disch := decide) only [decodeM, decodeMOp_mmaS24, encMa, fld_low, fld_high, fld_whole, fld_zero,
    Nat.reduceSub, Nat.sub_self, BitVec.toNat_ofNat, Nat.reducePow, Nat.reduceMod, BitVec.ofNat_eq_ofNat, beq_self_eq_true, need_true, ofBool_back]
  exact allow_ok h
theorem mmaS14 (f : MaF) : Statement (.mmaS14 f) := ofM rfl rfl fun h => by
  simp (disch := decide) only [decodeM, decodeMOp_mmaS14, encMa, fld_low, fld_high, fld_whole, fld_zero,
    Nat.reduceSub, Nat.sub_self, BitVec.toNat_ofNat, Nat.reducePow, Nat.reduceMod, BitVec.ofNat_eq_ofNat, beq_self_eq_true, need_true, ofBool_back]
  exact allow_ok h
theorem mlrset (f : MlrsetF) : Statement (.mlrset f) := ofM rfl rfl fun h => by
  simp (disch := decide) only [decodeM, decodeMOp_mlrset, encMt, fld_low, fld_high, fld_whole, fld_zero,
    Nat.reduceSub, Nat.sub_self, BitVec.toNat_ofNat, Nat.reducePow, Nat.reduceMod, BitVec.ofNat_eq_ofNat, beq_self_eq_true, Bool.and_self, need_true]
  exact allow_ok h
theorem mlrmul (f : M2F) : Statement (.mlrmul f) := ofM rfl rfl fun h => by
  simp (disch := decide) only [decodeM, decodeMOp_mlrmul, encMt, fld_low, fld_high, fld_whole, fld_zero, fld_span,
    Nat.reduceSub, Nat.sub_self, BitVec.toNat_ofNat, Nat.reducePow, Nat.reduceMod, BitVec.ofNat_eq_ofNat, beq_self_eq_true, Bool.and_self, need_true]
  exact allow_ok h
theorem mlrdm (f : M2F) : Statement (.mlrdm f) := ofM rfl rfl fun h => by
  simp (disch := decide) only [decodeM, decodeMOp_mlrdm, encMt, fld_low, fld_high, fld_whole, fld_zero, fld_span,
    Nat.reduceSub, Nat.sub_self, BitVec.toNat_ofNat, Nat.reducePow, Nat.reduceMod, BitVec.ofNat_eq_ofNat, beq_self_eq_true, Bool.and_self, need_true]
  exact allow_ok h
theorem mdmlr (f : M2F) : Statement (.mdmlr f) := ofM rfl rfl fun h => by
  simp (disch := decide) only [decodeM, decodeMOp_mdmlr, encMt, fld_low, fld_high, fld_whole, fld_zero, fld_span,
    Nat.reduceSub, Nat.sub_self, BitVec.toNat_ofNat, Nat.reducePow, Nat.reduceMod, BitVec.ofNat_eq_ofNat, beq_self_eq_true, Bool.and_self, need_true]
  exact allow_ok h
theorem mlradd (f : M2F) : Statement (.mlradd f) := ofM rfl rfl fun h => by
  simp (disch := decide) only [decodeM, decodeMOp_mlradd, encMt, fld_low, fld_high, fld_whole, fld_zero, fld_span,
    Nat.reduceSub, Nat.sub_self, BitVec.toNat_ofNat, Nat.reducePow, Nat.reduceMod, BitVec.ofNat_eq_ofNat, beq_self_eq_true, Bool.and_self, need_true]
  exact allow_ok h
theorem mrecomp (f : M1F) : Statement (.mrecomp f) := ofM rfl rfl fun h => by
  simp (disch := decide) only [decodeM, decodeMOp_mrecomp, encMt, fld_low, fld_high, fld_whole, fld_zero, fld_span,
    Nat.reduceSub, Nat.sub_self, BitVec.toNat_ofNat, Nat.reducePow, Nat.reduceMod, BitVec.ofNat_eq_ofNat, beq_self_eq_true, Bool.and_self, need_true]
  exact allow_ok h
theorem mdense (f : M1F) : Statement (.mdense f) := ofM rfl rfl fun h => by
  simp (disch := decide) only [decodeM, decodeMOp_mdense, encMt, fld_low, fld_high, fld_whole, fld_zero, fld_span,
    Nat.reduceSub, Nat.sub_self, BitVec.toNat_ofNat, Nat.reducePow, Nat.reduceMod, BitVec.ofNat_eq_ofNat, beq_self_eq_true, Bool.and_self, need_true]
  exact allow_ok h
theorem mrank (f : MrankF) : Statement (.mrank f) := ofM rfl rfl fun h => by
  simp (disch := decide) only [decodeM, decodeMOp_mrank, encMt, fld_low, fld_high, fld_whole, fld_zero,
    Nat.reduceSub, Nat.sub_self, BitVec.toNat_ofNat, Nat.reducePow, Nat.reduceMod, BitVec.ofNat_eq_ofNat, beq_self_eq_true, Bool.and_self, need_true]
  exact allow_ok h
theorem mbflyC64 (f : MbF) : Statement (.mbflyC64 f) := ofM rfl rfl fun h => by
  simp (disch := decide) only [decodeM, decodeMOp_mbflyC64, encMt, fld_low, fld_high, fld_whole, fld_zero,
    Nat.reduceSub, Nat.sub_self, BitVec.toNat_ofNat, Nat.reducePow, Nat.reduceMod, BitVec.ofNat_eq_ofNat, beq_self_eq_true, Bool.and_self, need_true]
  exact allow_ok h
theorem mbflyC128 (f : MbF) : Statement (.mbflyC128 f) := ofM rfl rfl fun h => by
  simp (disch := decide) only [decodeM, decodeMOp_mbflyC128, encMt, fld_low, fld_high, fld_whole, fld_zero,
    Nat.reduceSub, Nat.sub_self, BitVec.toNat_ofNat, Nat.reducePow, Nat.reduceMod, BitVec.ofNat_eq_ofNat, beq_self_eq_true, Bool.and_self, need_true]
  exact allow_ok h
theorem mbrev (f : MbrevF) : Statement (.mbrev f) := ofM rfl rfl fun h => by
  simp (disch := decide) only [decodeM, decodeMOp_mbrev, encMt, fld_low, fld_high, fld_whole, fld_zero, fld_span,
    Nat.reduceSub, Nat.sub_self, BitVec.toNat_ofNat, Nat.reducePow, Nat.reduceMod, BitVec.ofNat_eq_ofNat, beq_self_eq_true, Bool.and_self, need_true]
  exact allow_ok h
theorem mtwmulC64 (f : MbF) : Statement (.mtwmulC64 f) := ofM rfl rfl fun h => by
  simp (disch := decide) only [decodeM, decodeMOp_mtwmulC64, encMt, fld_low, fld_high, fld_whole, fld_zero,
    Nat.reduceSub, Nat.sub_self, BitVec.toNat_ofNat, Nat.reducePow, Nat.reduceMod, BitVec.ofNat_eq_ofNat, beq_self_eq_true, Bool.and_self, need_true]
  exact allow_ok h
theorem mtwmulC128 (f : MbF) : Statement (.mtwmulC128 f) := ofM rfl rfl fun h => by
  simp (disch := decide) only [decodeM, decodeMOp_mtwmulC128, encMt, fld_low, fld_high, fld_whole, fld_zero,
    Nat.reduceSub, Nat.sub_self, BitVec.toNat_ofNat, Nat.reducePow, Nat.reduceMod, BitVec.ofNat_eq_ofNat, beq_self_eq_true, Bool.and_self, need_true]
  exact allow_ok h
theorem cjob (f : CjF) : Statement (.cjob f) := ofC rfl rfl fun _ h => by
  simp (disch := decide) only [decodeC, decodeCOp_cjob, encCj, fld_low, fld_high, fld_whole, fld_zero,
    Nat.reduceSub, Nat.sub_self, BitVec.toNat_ofNat, Nat.reducePow, Nat.reduceMod, BitVec.ofNat_eq_ofNat, beq_self_eq_true, need_true]
  exact allow_ok h
theorem cjobv (f : CjvF) : Statement (.cjobv f) := ofC rfl rfl fun _ h => by
  simp (disch := decide) only [decodeC, decodeCOp_cjobv, fld_low, fld_high, fld_whole, fld_zero, Nat.reduceSub,
    Nat.sub_self, BitVec.toNat_ofNat, Nat.reducePow, Nat.reduceMod, BitVec.ofNat_eq_ofNat, beq_self_eq_true, need_true]
  exact allow_ok h
theorem cwpe (f : CjF) : Statement (.cwpe f) := ofC rfl rfl fun _ h => by
  simp (disch := decide) only [decodeC, decodeCOp_cwpe, encCj, fld_low, fld_high, fld_whole, fld_zero,
    Nat.reduceSub, Nat.sub_self, BitVec.toNat_ofNat, Nat.reducePow, Nat.reduceMod, BitVec.ofNat_eq_ofNat, beq_self_eq_true, need_true]
  exact allow_ok h
theorem cquery (f : CqF) : Statement (.cquery f) := ofC rfl rfl fun _ h => by
  simp (disch := decide) only [decodeC, decodeCOp_cquery, encCx, fld_low, fld_high, fld_whole, fld_zero,
    Nat.reduceSub, Nat.sub_self, BitVec.toNat_ofNat, Nat.reducePow, Nat.reduceMod, BitVec.ofNat_eq_ofNat, beq_self_eq_true, Bool.and_self, need_true]
  exact allow_ok h
theorem ccancel (xa : XReg) : Statement (.ccancel xa) := ofC rfl rfl fun _ h => by
  simp (disch := decide) only [decodeC, decodeCOp_ccancel, encCx, fld_low, fld_high, fld_whole, fld_zero, fld_span,
    Nat.reduceSub, Nat.sub_self, BitVec.toNat_ofNat, Nat.reducePow, Nat.reduceMod, BitVec.ofNat_eq_ofNat, beq_self_eq_true, Bool.and_self, need_true]
  exact allow_ok h
theorem csignal (f : CsF) : Statement (.csignal f) := ofC rfl rfl fun _ h => by
  simp (disch := decide) only [decodeC, decodeCOp_csignal, encCx, fld_low, fld_high, fld_whole, fld_zero,
    Nat.reduceSub, Nat.sub_self, BitVec.toNat_ofNat, Nat.reducePow, Nat.reduceMod, BitVec.ofNat_eq_ofNat, beq_self_eq_true, need_true]
  exact allow_ok h
theorem cfence : Statement (.cfence) := ofC rfl rfl fun _ h => by
  simp (disch := decide) only [decodeC, decodeCOp_cfence, encCx, fld_low, fld_high, fld_whole, fld_zero, fld_span,
    Nat.reduceSub, Nat.sub_self, BitVec.toNat_ofNat, Nat.reducePow, Nat.reduceMod, BitVec.ofNat_eq_ofNat, beq_self_eq_true, Bool.and_self, need_true]
  exact allow_ok h
theorem xexpS24 (f : XexpF) : Statement (.xexpS24 f) := ofX rfl rfl fun h => by
  simp (disch := decide) only [decodeX, decodeXOp_xexpS24, encXr, fld_low, fld_high, fld_whole, fld_zero,
    Nat.reduceSub, Nat.sub_self, BitVec.toNat_ofNat, Nat.reducePow, Nat.reduceMod, BitVec.ofNat_eq_ofNat, beq_self_eq_true, Bool.and_self, need_true, coded_some, fmt_back]
  exact allow_ok h
theorem xexpS14 (f : XexpF) : Statement (.xexpS14 f) := ofX rfl rfl fun h => by
  simp (disch := decide) only [decodeX, decodeXOp_xexpS14, encXr, fld_low, fld_high, fld_whole, fld_zero,
    Nat.reduceSub, Nat.sub_self, BitVec.toNat_ofNat, Nat.reducePow, Nat.reduceMod, BitVec.ofNat_eq_ofNat, beq_self_eq_true, Bool.and_self, need_true, coded_some, fmt_back]
  exact allow_ok h
theorem xunpkL6 (f : XuF) : Statement (.xunpkL6 f) := ofX rfl rfl fun h => by
  simp (disch := decide) only [decodeX, decodeXOp_xunpkL6, encXr, fld_low, fld_high, fld_whole, fld_zero,
    Nat.reduceSub, Nat.sub_self, BitVec.toNat_ofNat, Nat.reducePow, Nat.reduceMod, BitVec.ofNat_eq_ofNat, beq_self_eq_true, Bool.and_self, need_true]
  exact allow_ok h
theorem xunpkI4 (f : XuF) : Statement (.xunpkI4 f) := ofX rfl rfl fun h => by
  simp (disch := decide) only [decodeX, decodeXOp_xunpkI4, encXr, fld_low, fld_high, fld_whole, fld_zero,
    Nat.reduceSub, Nat.sub_self, BitVec.toNat_ofNat, Nat.reducePow, Nat.reduceMod, BitVec.ofNat_eq_ofNat, beq_self_eq_true, Bool.and_self, need_true]
  exact allow_ok h
theorem xpackL6 (f : XuF) : Statement (.xpackL6 f) := ofX rfl rfl fun h => by
  simp (disch := decide) only [decodeX, decodeXOp_xpackL6, encXr, fld_low, fld_high, fld_whole, fld_zero,
    Nat.reduceSub, Nat.sub_self, BitVec.toNat_ofNat, Nat.reducePow, Nat.reduceMod, BitVec.ofNat_eq_ofNat, beq_self_eq_true, Bool.and_self, need_true]
  exact allow_ok h
theorem xpackI4 (f : XuF) : Statement (.xpackI4 f) := ofX rfl rfl fun h => by
  simp (disch := decide) only [decodeX, decodeXOp_xpackI4, encXr, fld_low, fld_high, fld_whole, fld_zero,
    Nat.reduceSub, Nat.sub_self, BitVec.toNat_ofNat, Nat.reducePow, Nat.reduceMod, BitVec.ofNat_eq_ofNat, beq_self_eq_true, Bool.and_self, need_true]
  exact allow_ok h
theorem xtr (f : XtrF) : Statement (.xtr f) := ofX rfl rfl fun h => by
  simp (disch := decide) only [decodeX, decodeXOp_xtr, encXr, fld_low, fld_high, fld_whole, fld_zero,
    Nat.reduceSub, Nat.sub_self, BitVec.toNat_ofNat, Nat.reducePow, Nat.reduceMod, BitVec.ofNat_eq_ofNat, beq_self_eq_true, Bool.and_self, need_true, ofBool_back]
  exact allow_ok h
theorem xcvt (f : XcvtF) : Statement (.xcvt f) := ofX rfl rfl fun h => by
  simp (disch := decide) only [decodeX, decodeXOp_xcvt, encXr, fld_low, fld_high, fld_whole, fld_zero,
    Nat.reduceSub, Nat.sub_self, BitVec.toNat_ofNat, Nat.reducePow, Nat.reduceMod, BitVec.ofNat_eq_ofNat, beq_self_eq_true, need_true, coded_some, fmt_back]
  exact allow_ok h
theorem xscale (xs : XReg) : Statement (.xscale xs) := ofX rfl rfl fun h => by
  simp (disch := decide) only [decodeX, decodeXOp_xscale, fld_low, fld_high, fld_whole, fld_zero, Nat.reduceSub,
    Nat.sub_self, BitVec.toNat_ofNat, Nat.reducePow, Nat.reduceMod, BitVec.ofNat_eq_ofNat, beq_self_eq_true, need_true]
  exact allow_ok h
theorem xscalei (imm : BitVec 11) : Statement (.xscalei imm) := ofX rfl rfl fun h => by
  simp (disch := decide) only [decodeX, decodeXOp_xscalei, fld_low, fld_high, fld_whole, fld_zero, Nat.reduceSub,
    Nat.sub_self, BitVec.toNat_ofNat, Nat.reducePow, Nat.reduceMod, BitVec.ofNat_eq_ofNat, beq_self_eq_true, Bool.and_self, need_true]
  exact allow_ok h
theorem fmtShadowExpiry (n : Nat) : Statement (.fmtShadowExpiry n) := fun h => Bool.noConfusion h
theorem superstepRelease (lid : Nat) : Statement (.superstepRelease lid) := fun h => Bool.noConfusion h
theorem taskEnd (n : Nat) : Statement (.taskEnd n) := fun h => Bool.noConfusion h
theorem tretResume (n : Nat) : Statement (.tretResume n) := fun h => Bool.noConfusion h
theorem repeatIssue (n : Nat) : Statement (.repeatIssue n) := fun h => Bool.noConfusion h
theorem segmentMark (n : Nat) : Statement (.segmentMark n) := fun h => Bool.noConfusion h
theorem overlaySegmentLanded (n : Nat) : Statement (.overlaySegmentLanded n) := fun h => Bool.noConfusion h
theorem scWheelIssue (n : Nat) : Statement (.scWheelIssue n) := fun h => Bool.noConfusion h
theorem barrierAnswer (n : Nat) : Statement (.barrierAnswer n) := fun h => Bool.noConfusion h
theorem barrierArrivalReceived (k : Nat) : Statement (.barrierArrivalReceived k) := fun h => Bool.noConfusion h
theorem barrierFlipReceived (k : Nat) : Statement (.barrierFlipReceived k) := fun h => Bool.noConfusion h
theorem wloadBlockArrival (n : Nat) (os : OSlot) : Statement (.wloadBlockArrival n os) := fun h => Bool.noConfusion h
theorem wloadFillExpiry (n : Nat) (os : OSlot) : Statement (.wloadFillExpiry n os) := fun h => Bool.noConfusion h
theorem engineOpStart (n : Nat) : Statement (.engineOpStart n) := fun h => Bool.noConfusion h
theorem portBlock (n : Nat) : Statement (.portBlock n) := fun h => Bool.noConfusion h
theorem engineRetire (n : Nat) : Statement (.engineRetire n) := fun h => Bool.noConfusion h
theorem jobStart (j : Nat) : Statement (.jobStart j) := fun h => Bool.noConfusion h
theorem copyRow (j : Nat) : Statement (.copyRow j) := fun h => Bool.noConfusion h
theorem jobComplete (j : Nat) : Statement (.jobComplete j) := fun h => Bool.noConfusion h
theorem wpeBuildStart (j : Nat) : Statement (.wpeBuildStart j) := fun h => Bool.noConfusion h
theorem wpePulseIteration (j : Nat) (ok : BitVec 5) : Statement (.wpePulseIteration j ok) := fun h => Bool.noConfusion h
theorem wpeSlotRelease (bank : Nat) (slot : Nat) : Statement (.wpeSlotRelease bank slot) := fun h => Bool.noConfusion h
theorem xscaleExecute (n : Nat) : Statement (.xscaleExecute n) := fun h => Bool.noConfusion h
theorem resultWriteback (n : Nat) : Statement (.resultWriteback n) := fun h => Bool.noConfusion h
theorem landingCountExpiry (n : Nat) : Statement (.landingCountExpiry n) := fun h => Bool.noConfusion h
theorem landingDataArrival (n : Nat) (k : Nat) (verdict : Bool) : Statement (.landingDataArrival n k verdict) := fun h => Bool.noConfusion h
theorem storeAck (n : Nat) (id : Nat) : Statement (.storeAck n id) := fun h => Bool.noConfusion h
theorem homeAtomicExecute (n : Nat) (id : Nat) : Statement (.homeAtomicExecute n id) := fun h => Bool.noConfusion h
theorem stampedMessageDelivery (k : Nat) : Statement (.stampedMessageDelivery k) := fun h => Bool.noConfusion h
theorem directoryInvalidate (clu : Nat) (line : Nat) : Statement (.directoryInvalidate clu line) := fun h => Bool.noConfusion h
theorem memoryFaultFound (site : FaultSite) (cond : MemCond) : Statement (.memoryFaultFound site cond) := fun h => Bool.noConfusion h
theorem trapEntry (n : Nat) : Statement (.trapEntry n) := fun h => Bool.noConfusion h
theorem preempt (n : Nat) : Statement (.preempt n) := fun h => Bool.noConfusion h
theorem saveComplete (n : Nat) : Statement (.saveComplete n) := fun h => Bool.noConfusion h
theorem taskRestore (uid : Nat) (n : Nat) : Statement (.taskRestore uid n) := fun h => Bool.noConfusion h
theorem scheduleReadyTask (die : Nat) : Statement (.scheduleReadyTask die) := fun h => Bool.noConfusion h
theorem queueSignal (q : Nat) : Statement (.queueSignal q) := fun h => Bool.noConfusion h
theorem queueRemap (die : Nat) : Statement (.queueRemap die) := fun h => Bool.noConfusion h
theorem queueIdleTimeout (q : Nat) : Statement (.queueIdleTimeout q) := fun h => Bool.noConfusion h
theorem queueRestart (q : Nat) : Statement (.queueRestart q) := fun h => Bool.noConfusion h
theorem packetDispatch (die : Nat) : Statement (.packetDispatch die) := fun h => Bool.noConfusion h
theorem launch (pid : Nat) : Statement (.launch pid) := fun h => Bool.noConfusion h
theorem copy (pid : Nat) : Statement (.copy pid) := fun h => Bool.noConfusion h
theorem barrier (pid : Nat) : Statement (.barrier pid) := fun h => Bool.noConfusion h
theorem node (pid : Nat) : Statement (.node pid) := fun h => Bool.noConfusion h
theorem selftest (pid : Nat) : Statement (.selftest pid) := fun h => Bool.noConfusion h
theorem fencePacket (pid : Nat) : Statement (.fencePacket pid) := fun h => Bool.noConfusion h
theorem packetComplete (pid : Nat) : Statement (.packetComplete pid) := fun h => Bool.noConfusion h
theorem indexClaim (die : Nat) (pid : Nat) : Statement (.indexClaim die pid) := fun h => Bool.noConfusion h
theorem gangStart (pid : Nat) (level : Nat) (group : Nat) : Statement (.gangStart pid level group) := fun h => Bool.noConfusion h
theorem indexReturnTimeout (die : Nat) (pid : Nat) : Statement (.indexReturnTimeout die pid) := fun h => Bool.noConfusion h
theorem launchComplete (pid : Nat) : Statement (.launchComplete pid) := fun h => Bool.noConfusion h
theorem selftestComplete (n : Nat) (fail : BitVec 9) : Statement (.selftestComplete n fail) := fun h => Bool.noConfusion h
theorem waySurrender (clu : Nat) : Statement (.waySurrender clu) := fun h => Bool.noConfusion h
theorem wayReturn (clu : Nat) : Statement (.wayReturn clu) := fun h => Bool.noConfusion h
theorem waypWrite (clu : Nat) (v : DWord) : Statement (.waypWrite clu v) := fun h => Bool.noConfusion h
theorem wrgnWrite (die : Nat) (r : Nat) (hi : Bool) (v : DWord) : Statement (.wrgnWrite die r hi v) := fun h => Bool.noConfusion h
theorem regionSealComplete (die : Nat) (r : Nat) : Statement (.regionSealComplete die r) := fun h => Bool.noConfusion h
theorem qdbaseWrite (die : Nat) (v : DWord) : Statement (.qdbaseWrite die v) := fun h => Bool.noConfusion h
theorem qsigbaseWrite (die : Nat) (v : DWord) : Statement (.qsigbaseWrite die v) := fun h => Bool.noConfusion h
theorem fabidWrite (v : DWord) : Statement (.fabidWrite v) := fun h => Bool.noConfusion h
theorem fportEnWrite (die : Nat) (p : Nat) (v : DWord) : Statement (.fportEnWrite die p v) := fun h => Bool.noConfusion h
theorem fabricLinkUp (die : Nat) (p : Nat) (peer : BitVec 10) (comp : Bool) : Statement (.fabricLinkUp die p peer comp) := fun h => Bool.noConfusion h
theorem fabricTagFailure (die : Nat) (p : Nat) : Statement (.fabricTagFailure die p) := fun h => Bool.noConfusion h
theorem streamRekey (die : Nat) (p : Nat) : Statement (.streamRekey die p) := fun h => Bool.noConfusion h
theorem pcapWrite (v : DWord) : Statement (.pcapWrite v) := fun h => Bool.noConfusion h
theorem pcapWindow (pwr : BitVec 16) (amps : BitVec 16) : Statement (.pcapWindow pwr amps) := fun h => Bool.noConfusion h
theorem vcoreOvercurrent (amps : Nat) : Statement (.vcoreOvercurrent amps) := fun h => Bool.noConfusion h
theorem mcErrorRecord (die : Nat) (bank : Nat) (e : McErr) : Statement (.mcErrorRecord die bank e) := fun h => Bool.noConfusion h
theorem threshWindowEnd (die : Nat) (bank : Nat) : Statement (.threshWindowEnd die bank) := fun h => Bool.noConfusion h
theorem mcStatusClear (die : Nat) (bank : Nat) (v : DWord) : Statement (.mcStatusClear die bank v) := fun h => Bool.noConfusion h
theorem datapathCheckFail (n : Nat) (slot : Slot) (synd : DWord) : Statement (.datapathCheckFail n slot synd) := fun h => Bool.noConfusion h
theorem coreFence (n : Nat) : Statement (.coreFence n) := fun h => Bool.noConfusion h
theorem coreReturnToService (n : Nat) : Statement (.coreReturnToService n) := fun h => Bool.noConfusion h
theorem lockstepMismatch (die : Nat) (pcs : DWord) : Statement (.lockstepMismatch die pcs) := fun h => Bool.noConfusion h
theorem lockstepReplayComplete (die : Nat) : Statement (.lockstepReplayComplete die) := fun h => Bool.noConfusion h
theorem dieLost (die : Nat) : Statement (.dieLost die) := fun h => Bool.noConfusion h
theorem packageLost (pkg : Nat) : Statement (.packageLost pkg) := fun h => Bool.noConfusion h
theorem ownerEntryEffect (k : Nat) : Statement (.ownerEntryEffect k) := fun h => Bool.noConfusion h
theorem hostBarAccess (a : BarAccess) : Statement (.hostBarAccess a) := fun h => Bool.noConfusion h
theorem controlRegisterWrite (die : Nat) (off : Nat) (v : DWord) : Statement (.controlRegisterWrite die off v) := fun h => Bool.noConfusion h
theorem getVersion : Statement (.getVersion) := fun h => Bool.noConfusion h
theorem getCapabilities : Statement (.getCapabilities) := fun h => Bool.noConfusion h
theorem negotiateAlgorithms : Statement (.negotiateAlgorithms) := fun h => Bool.noConfusion h
theorem getDigests : Statement (.getDigests) := fun h => Bool.noConfusion h
theorem getCertificate : Statement (.getCertificate) := fun h => Bool.noConfusion h
theorem challenge (nonce : BitVec 256) : Statement (.challenge nonce) := fun h => Bool.noConfusion h
theorem getMeasurements (index : Nat) : Statement (.getMeasurements index) := fun h => Bool.noConfusion h
theorem keyExchange : Statement (.keyExchange) := fun h => Bool.noConfusion h
theorem finish : Statement (.finish) := fun h => Bool.noConfusion h
theorem keyUpdate : Statement (.keyUpdate) := fun h => Bool.noConfusion h
theorem endSession : Statement (.endSession) := fun h => Bool.noConfusion h
theorem ideKm (stream : IdeStream) (owner : BitVec 16) : Statement (.ideKm stream owner) := fun h => Bool.noConfusion h
theorem create : Statement (.create) := fun h => Bool.noConfusion h
theorem assign (ctx : BitVec 16) (what : List Resource) : Statement (.assign ctx what) := fun h => Bool.noConfusion h
theorem saveArea (ctx : BitVec 16) (cap : Cap) (spadlen : Nat) : Statement (.saveArea ctx cap spadlen) := fun h => Bool.noConfusion h
theorem report (ctx : BitVec 16) (nonce : BitVec 256) : Statement (.report ctx nonce) := fun h => Bool.noConfusion h
theorem teardown (ctx : BitVec 16) : Statement (.teardown ctx) := fun h => Bool.noConfusion h
theorem resume (ctx : BitVec 16) : Statement (.resume ctx) := fun h => Bool.noConfusion h
theorem mctpControl (bus : MgmtBus) : Statement (.mctpControl bus) := fun h => Bool.noConfusion h
theorem pldmMonitoring (bus : MgmtBus) : Statement (.pldmMonitoring bus) := fun h => Bool.noConfusion h
theorem imageTransfer (bus : MgmtBus) (image : Image) : Statement (.imageTransfer bus image) := fun h => Bool.noConfusion h
theorem capRead (bus : MgmtBus) : Statement (.capRead bus) := fun h => Bool.noConfusion h
theorem capWrite (bus : MgmtBus) (v : BitVec 16) : Statement (.capWrite bus v) := fun h => Bool.noConfusion h
theorem fabricKeyExchange (x : PeerExchange) : Statement (.fabricKeyExchange x) := fun h => Bool.noConfusion h
theorem linkReset : Statement (.linkReset) := fun h => Bool.noConfusion h
theorem warmReset : Statement (.warmReset) := fun h => Bool.noConfusion h
theorem coldReset : Statement (.coldReset) := fun h => Bool.noConfusion h
theorem hostLinkUp : Statement (.hostLinkUp) := fun h => Bool.noConfusion h
theorem powerLoss (writing : Bool) : Statement (.powerLoss writing) := fun h => Bool.noConfusion h
theorem louverResourceDone (die : Nat) : Statement (.louverResourceDone die) := fun h => Bool.noConfusion h
theorem regionRehashComplete (die : Nat) : Statement (.regionRehashComplete die) := fun h => Bool.noConfusion h
theorem ecall : Statement .ecall := ofS rfl rfl fun _ => rfl
theorem ebreak : Statement .ebreak := ofS rfl rfl fun _ => rfl

end Sys2Proof.Laws.RoundTrip
end

