-- ==== Sys2Proof/Safety.lean ====
section
/-! DEFINITION. What holds in every run: the reserved fields of the CSRs, the context root in h0, the canonical form of
memory, of its tags and marks and of the cores' table; and the terms in which statements about instructions are made. -/

namespace Sys2Proof.Machine

/-- Fields of a core that the manual constrains: RMAX holds at most 16 and RSEQ.COUNT at most 10, the reserved bits of MPC,
TVEC, TSLOT and TLOOP read zero (R51, R12), and while a task is resident its h0 is the tagged root of the task's context
(R41, R48). -/
def FieldsOk (rmax : BitVec 5) (rseq : BitVec 34) (mpc tvec : BitVec 48) (tslot : BitVec 12) (tloop : DWord)
    (ctx : Option (BitVec 16)) (h0 : Cap) (tag0 : Bool) : Prop :=
  rmax.toNat ≤ 16 ∧ (fld rseq 30 4).toNat ≤ 10 ∧ mpc &&& 3 = 0 ∧ tvec &&& 0x7E = 0 ∧ tslot &&& 0x0F8 = 0 ∧
    tloop &&& 0x7FFFFFFFFFFC0000 = 0 ∧ ∀ k, ctx = some k → h0 = rootCap k ∧ tag0 = true

abbrev Core.Ok (c : Core) : Prop :=
  FieldsOk c.c.rmax c.c.rseq c.c.mpc c.c.tvec c.tr.slot c.tr.loop (c.task.map (·.ctx)) c.r.h[0] (c.r.htag.getLsbD 0)

/-- The numbers of a table rise strictly. -/
def rising {α : Type} : List (Nat × α) → Bool
  | [] => true
  | [_] => true
  | a :: b :: t => decide (a.1 < b.1) && rising (b :: t)

/-- The lists of a state are in their canonical forms, and every core, and every saved task's core, is sound. -/
def ListsOk (mem : List Host.Cell) (tags marks : List Nat) (cores : List (Nat × Core)) (saved : List Saved) : Prop :=
  Memory.wf mem = true ∧ KeySet.wf tags = true ∧ KeySet.wf marks = true ∧ rising cores = true ∧
    (∀ e ∈ cores, e.2.Ok) ∧ ∀ v ∈ saved, v.core.Ok

abbrev State.Ok (s : State) : Prop := ListsOk s.mem s.tags s.marks s.cores s.dev.sched.saved

/-- What an answer of the machine has to satisfy: a next state is sound. -/
structure OutOk (o : Host.Outcome State Fault Refusal) : Prop where
  next : ∀ s, o = .next s → s.Ok

/-! ### Terms of the statements about slot operations -/

/-- No register that the operation reads carries a poison mark that it would consume (R429). -/
abbrev Clean (s : State) (i : Instr) : Prop := s.poisonTrap i 0 = none

/-- The operation's whole effect is one result on its way to its register, due `lat` boundaries later, with the flags
raised there (R52, R96). -/
def Gives (s : State) (i : Instr) (sl : Slot) (lat : Nat) (w : Write) (fl : Flags := 0) : Prop :=
  exec i s = .next (s.setCur (s.cur.push (mkPend sl lat w fl)))

/-- Element j, of width e bits, of the vector register that `v` names (R42, R139). -/
def Core.el (c : Core) (e : Nat) (v : VReg) (j : Nat) : Nat := elemOf e (c.rv v).toNat j

/-- R43, R140: element j of width e is active under PG, the lowest bit of its lanes; every one is where PG is 0. -/
def Core.active (c : Core) (e : Nat) (pg : PReg) (j : Nat) : Bool := pg == 0 || (c.rp pg).getLsbD (j * e / 8)

/-- The truth of element j in a predicate register (R43). -/
def Core.truth (c : Core) (e : Nat) (p : PReg) (j : Nat) : Bool := (c.rp p).getLsbD (j * e / 8)

/-- The flags of the selected elements of n, together (R96, R140). -/
def raisedBy (n : Nat) (sel : Nat → Bool) (fl : Nat → Flags) : Flags :=
  (List.range n).foldl (fun f j => if sel j then f ||| fl j else f) 0

/-- The operation's whole effect is one vector result: each selected element of width e takes its value, cut to e bits, and
every other element of the register keeps what it holds when the result is written (R140). -/
def VecGives (s : State) (i : Instr) (vd : VReg) (lat e : Nat) (sel : Nat → Bool) (r : Nat → Nat) (fl : Flags := 0) : Prop :=
  ∃ mask val : Vec, Gives s i s.iss.slot lat (.v (s.cur.pv vd) mask val) fl ∧
    ∀ (old : Vec) (j : Nat), j < 1024 / e →
      elemOf e (merge mask val old).toNat j = if sel j then r j % 2 ^ e else elemOf e old.toNat j

/-- The same of a predicate result: each lane of a selected element takes the element's truth. -/
def PredGives (s : State) (i : Instr) (pd : PReg) (lat e : Nat) (sel r : Nat → Bool) (fl : Flags := 0) : Prop :=
  ∃ mask val : Pred, Gives s i s.iss.slot lat (.p (s.cur.pp pd) mask val) fl ∧
    ∀ (old : Pred) (k : Nat), k < 128 →
      (merge mask val old).getLsbD k = if sel (k / (e / 8)) then r (k / (e / 8)) else old.getLsbD k

/-- The trap of an operation that names its cause and TVAL. -/
abbrev Traps (s : State) (i : Instr) (cause : BitVec 8) (tval : DWord) : Prop :=
  exec i s = .next (s.raise (mkTrap cause tval s.iss.slot s.cur))

/-- The trap of element j of a vector operation (R386). -/
abbrev TrapsAt (s : State) (i : Instr) (cause : BitVec 8) (tval : DWord) (j : Nat) : Prop :=
  exec i s = .next (s.raise { mkTrap cause tval s.iss.slot s.cur with elem := j })

/-- The trap of a loop or transfer operation that names a level: TLOOP takes its number and START (R386). -/
abbrev LoopTraps (s : State) (i : Instr) (cause : BitVec 8) (tval : DWord) (k : Nat) (start : BitVec 16) : Prop :=
  exec i s = .next (s.raise { mkTrap cause tval .b s.cur with loop := some (BitVec.ofNat 2 k, start) })

/-- The address 4 * off from the bundle's head (R118). -/
def State.rel (s : State) (off : Int) : Nat := ((s.cur.k.pc.toNat + 4 * off) % 2 ^ 48).toNat

/-- `t` is `s` but for the acting core and the record of the issue. -/
def OnlyCore (s t : State) (c : Core) : Prop :=
  t.mem = s.mem ∧ t.tags = s.tags ∧ t.marks = s.marks ∧ t.dev = s.dev ∧ t.wheel = s.wheel ∧ t.free = s.free ∧
    t.agenda = s.agenda ∧ t.turns = s.turns ∧ t.iss.core = s.iss.core ∧ t.cur = c ∧ ∀ n, n ≠ s.iss.core → t.core n = s.core n

/-- The operation passes control to `tgt` after the bundle, the core being left as `c` (R63, R119). -/
def GoesTo (s : State) (i : Instr) (tgt : Nat) (c : Core) : Prop :=
  ∃ t, exec i s = .next t ∧ t.iss.xfer = some (BitVec.ofNat 48 tgt) ∧ t.iss.raised = s.iss.raised ∧ OnlyCore s t c

/-- The operation leaves control to the bundle that follows, the core being left as `c`. -/
def FallsThrough (s : State) (i : Instr) (c : Core) : Prop :=
  ∃ t, exec i s = .next t ∧ t.iss.xfer = s.iss.xfer ∧ t.iss.raised = s.iss.raised ∧ OnlyCore s t c

/-- The levels after a transfer: one whose body holds the bundle and not the target becomes inactive (R130). -/
def State.leaving (s : State) (tgt : Nat) : Core :=
  { s.cur with c := { s.cur.c with
    lc := s.cur.c.lc.map (fun l => if l.holds s.here && !l.holds (s.imemIdx s.cur tgt) then .off else l) } }

/-- A transfer of BEQ to BPF and JMP: the target's fault (R120), then entry into a body from outside (R130), then the
transfer. -/
def Jumps (s : State) (i : Instr) (tgt : Nat) : Prop :=
  match s.targetFault s.iss.core tgt, s.entered tgt with
  | some (c, v), _ => Traps s i c (BitVec.ofNat 64 v)
  | none, some (k, l) => LoopTraps s i 0x64 (BitVec.ofNat 64 tgt) k l.start
  | none, none => GoesTo s i tgt (s.leaving tgt)

/-! ### Terms of the statements about memory -/

/-- R167: the checks of an access of z bytes at an offset through h, in order: each one's cause, and whether it fails. -/
def State.accessChecks (s : State) (h : HReg) (spaces : List Nat) (perm : BitVec 8) (align off z : Nat) :
    List (BitVec 8 × Bool) :=
  let c := s.cur
  let cap := c.rh h
  [(0x20, !c.rhtag h), (0x21, !spaces.contains (capSpace cap)),
    (0x22, decide (fld cap 170 86 ≠ 0 ∨ 4 ≤ capPolicy cap)),
    (0x23, decide (h ≠ 0 ∧ capCtx cap ≠ capCtx (c.rh 0))), (0x24, decide (capPerm cap &&& perm ≠ perm)),
    (0x25, decide (off % align ≠ 0)), (0x26, decide (capLen cap < off + z)),
    (0x26, decide (spaceEnd cap < capBase cap + off + z)),
    (0x26, decide (capSpace cap = spClus ∧ s.clusSize (clusterOf s.iss.core) < capBase cap + off + z))]

/-- The cause of the first that fails. -/
def State.refuses (s : State) (h : HReg) (spaces : List Nat) (perm : BitVec 8) (align off z : Nat) : Option (BitVec 8) :=
  ((s.accessChecks h spaces perm align off z).find? (·.2)).map (·.1)

/-- The same of elements in order: the cause and the offset of the first that fails. -/
def State.refusesAny (s : State) (h : HReg) (spaces : List Nat) (perm : BitVec 8) (align : Nat) (offs : List Nat) (z : Nat) :
    Option (BitVec 8 × Nat) :=
  offs.findSome? (fun o => (s.refuses h spaces perm align o z).map (fun e => (e, o)))

/-- The cause of the first of R167's checks of the handle alone that fails. -/
def State.refusesHandle (s : State) (h : HReg) (spaces : List Nat) (perm : BitVec 8) : Option (BitVec 8) :=
  (((s.accessChecks h spaces perm 1 0 0).take 5).find? (·.2)).map (·.1)

/-- The cause for active elements, of which there may be none: then the handle's alone. -/
def State.refusesLive (s : State) (h : HReg) (spaces : List Nat) (perm : BitVec 8) (align : Nat) (offs : List Nat) (z : Nat) :
    Option (BitVec 8) :=
  if offs = [] then s.refusesHandle h spaces perm else (s.refusesAny h spaces perm align offs z).map (·.1)

/-- Permissions of R164. -/
def pR : BitVec 8 := 1
def pW : BitVec 8 := 2
def pRWA : BitVec 8 := 7

/-- The operation leaves an access outstanding behind the task's others, counted in CNT.ST where it counts (R57, R174). -/
def Queues (s : State) (i : Instr) (a : Access) : Prop :=
  let c := s.cur
  FallsThrough s i { c with
    m := { c.m with accs := c.m.accs ++ [a], nextId := c.m.nextId + 1 }
    c := { c.c with st := c.c.st + if a.counted then 1 else 0 } }

/-- A load under L = 1 leaves a landing entry; with sixteen live it traps instead (R53, R173). -/
def Lands (s : State) (i : Instr) (rem : Nat) (dest : LoadDest) (cap : Cap) (srcs : List (Nat × Nat × Nat)) (mask : Vec)
    (rank : Option Nat) : Prop :=
  let c := s.cur
  if 16 ≤ c.t.landing.length then Traps s i 0x27 0
  else
    FallsThrough s i { c with
      m := { c.m with nextId := c.m.nextId + 1 }
      t := { c.t with landing := c.t.landing ++ [{
        id := c.m.nextId, rem := rem, dest := dest, slot := s.iss.slot, cap := cap, srcs := srcs, mask := mask, data := 0
        marks := 0, left := List.range srcs.length, sampled := false, arrived := false, refused := false, rank := rank
        narrow := false }] } }

/-- A byte of the own SPAD as a read of the acting core takes it, with its mark. -/
def State.spadByte (s : State) (cap : Cap) (off : Nat) : Byte × Bool :=
  s.readByte s.iss.core 3 (mkey .spad s.iss.core (capBase cap + off))

/-- A load under L = 0: byte k of the register is the SPAD byte at offset `place k`, and a doubleword with a marked byte is
marked (R173, R428); where the core's entry does not admit the task, every doubleword is a marked one (R345, R346). -/
def LoadsVec (s : State) (i : Instr) (vt : VReg) (cap : Cap) (place : Nat → Nat) : Prop :=
  (s.spadOk s.iss.core = true → ∃ (v : Vec) (marks : BitVec 16),
    Gives s i s.iss.slot 3 (if marks = 0 then .v (s.cur.pv vt) (BitVec.allOnes 1024) v
      else .vMarked (s.cur.pv vt) (BitVec.allOnes 1024) v marks) ∧
    (∀ k, k < 128 → v.extractLsb' (8 * k) 8 = (s.spadByte cap (place k)).1) ∧
    ∀ d, d < 16 → marks.getLsbD d = (List.range 8).any (fun b => (s.spadByte cap (place (8 * d + b))).2)) ∧
  (s.spadOk s.iss.core = false → ∃ (v : Vec) (t : State), t.mem = s.mem ∧ t.tags = s.tags ∧ t.marks = s.marks ∧
    exec i s = .next (t.setCur (s.cur.push
      (mkPend s.iss.slot 3 (.vMarked (s.cur.pv vt) (BitVec.allOnes 1024) v (BitVec.allOnes 16))))))

/-- The byte that a list of writes, in order, leaves at a key. -/
def lastAt (bytes : List (Nat × Byte)) (a : Nat) : Option Byte := ((bytes.filter (fun b => b.1 == a)).getLast?).map (·.2)

/-- Bytes go to SPAD at once: every other byte stays, the tag of each granule written clears, the mark of one written whole
too, and nothing else changes (R166, R174, R429). -/
def WritesSpad (s : State) (i : Instr) (bytes : List (Nat × Byte)) : Prop :=
  ∃ t, exec i s = .next t ∧ (∀ a, t.byte a = (lastAt bytes a).getD (s.byte a)) ∧
    (∀ g, KeySet.has t.tags g = (KeySet.has s.tags g && !bytes.any (fun b => b.1 / 32 == g))) ∧
    (∀ g, KeySet.has t.marks g =
      (KeySet.has s.marks g && !(List.range 32).all (fun k => bytes.any (fun b => b.1 == 32 * g + k)))) ∧
    t.cores = s.cores ∧ t.dev = s.dev ∧ t.iss = s.iss

/-- A write that the entry of the own scratchpad denies is dropped: no byte, tag or mark changes, and 0x28 is deferred with
the address (R346, R423). -/
def DropsSpad (s : State) (i : Instr) (addr : Nat) : Prop :=
  ∃ t, exec i s = .next t ∧ t.mem = s.mem ∧ t.tags = s.tags ∧ t.marks = s.marks ∧ t.iss = s.iss ∧
    t.cur = { s.cur with deferred := s.cur.deferred ++ [deferred 0x28 (BitVec.ofNat 64 addr) s.iss.slot] } ∧
    ∀ n, n ≠ s.iss.core → t.core n = s.core n

/-- Byte k of a value. -/
def byteOf {w : Nat} (v : BitVec w) (k : Nat) : Byte := v.extractLsb' (8 * k) 8

/-- A store of bytes, given by offset: to SPAD at once, elsewhere an access that moves in units of `unit` bytes (R263); with no
byte it does nothing (R174). -/
def Stores (s : State) (i : Instr) (h : HReg) (off : Nat) (bytes : List (Nat × Byte)) (unit : Nat)
    (rel acq : Option Scope := none) (rank : Option Nat := none) : Prop :=
  let cap := s.cur.rh h
  (capSpace cap = spSpad → s.spadOk s.iss.core = true →
    WritesSpad s i (bytes.map (fun b => (mkey .spad s.iss.core (capBase cap + b.1), b.2)))) ∧
  (capSpace cap = spSpad → s.spadOk s.iss.core = false → bytes ≠ [] → DropsSpad s i (capBase cap + off)) ∧
  (capSpace cap ≠ spSpad → bytes ≠ [] → Queues s i
    { s.mkAccess (.store (bytes.map (fun b => (capBase cap + b.1, b.2)))) cap off with
      unit := unit, rel := rel, acq := acq, rank := rank
      carries := match rel with
        | some sc => some (scopeWider sc s.cur.m.relFence)
        | none => s.cur.m.relFence }) ∧
  (bytes = [] → exec i s = .next s)

/-- A held line has a mark on granule g. -/
def CLine.marksGranule (l : CLine) (g : Nat) : Bool := (List.range 8).any (fun i => bit l.marks i && granule l.key + i == g)

/-- The slice or an L1 of a cluster holds a byte that its home is still to get, or a mark of its granule, which goes home with it (R253,
R427): that of one cluster, that of the acting core's, any. -/
def State.owedBy (s : State) (clu a : Nat) : Bool :=
  s.dev.ms.lines.any (fun e => e.1 == clu && (e.2.owing.any (·.1 == a) || e.2.marksGranule (a / 32))) ||
    s.cores.any (fun e => clusterOf e.1 == clu && e.2.m.l1.any (·.marksGranule (a / 32)))
def State.owes (s : State) (a : Nat) : Bool := s.owedBy (clusterOf s.iss.core) a
def State.owedAny (s : State) (a : Nat) : Bool :=
  s.dev.ms.lines.any (fun e => e.2.owing.any (·.1 == a) || e.2.marksGranule (a / 32)) ||
    s.cores.any (fun e => e.2.m.l1.any (·.marksGranule (a / 32)))

/-- The links are open that what a cluster's slice owes would take: no write-back is refused (R253, R423). -/
def State.owesOpen (s : State) (clu : Nat) : Bool :=
  s.dev.ms.lines.all (fun e => e.1 != clu || e.2.owing.isEmpty || s.lineOpen e.2)

/-- Memory with its tags and marks stays, but for granules of which `owes` names a byte: those may be written back (R253). -/
def KeepsMemory (s t : State) (owes : Nat → Bool) : Prop :=
  ∀ a, (∀ k, k / 32 = a / 32 → owes k = false) → t.byte a = s.byte a ∧
    KeySet.has t.tags (a / 32) = KeySet.has s.tags (a / 32) ∧ KeySet.has t.marks (a / 32) = KeySet.has s.marks (a / 32)

/-- The index vector's offsets with a displacement (R174). -/
def State.spots (s : State) (xi : XReg) (imm : Int) (j : Nat) : Nat :=
  (((s.cur.el 32 (xi.setWidth 6) j : Nat) + imm) % 2 ^ 48).toNat

/-! ### Terms of the statements about the matrix slot -/

/-- The literal word can be read and no register operand is poisoned (R80, R322, R429). -/
def MatReady (s : State) (i : Instr) : Prop :=
  s.poisonTrap i s.literal = none ∧ s.mpcBad s.cur = false ∧ s.overlayConflict s.cur = false

/-- The operation leaves the core as `c`, with MPC past the literal word: four bytes on, or to word 2 of the next line
(R79). -/
def MatGives (s : State) (i : Instr) (c : Core) : Prop :=
  let m := s.cur.c.mpc
  exec i s = .next (s.setCur { c with c := { c.c with mpc := m + if m.toNat % 128 / 4 = 31 then 12 else 4 } })

/-- The checks of an M-slot operation in order, each with its cause, its TVAL and whether it fails; then poison on the slot
lines that it reads; then its effect (R198, R211). -/
def MatActs (s : State) (i : Instr) (checks : List (BitVec 8 × DWord × Bool)) (lines : List (OSlot × Nat)) (effect : Prop) :
    Prop :=
  MatReady s i →
    match checks.find? (fun k => k.2.2), rowMarks s.cur lines with
    | some (e, v, _), _ => Traps s i e v
    | none, h :: t => exec i s = .next (s.raise { mkTrap 0xA0 h.tval s.iss.slot s.cur with zero := h :: t })
    | none, [] => effect

/-- The check of R81: no particulars. -/
def State.noParticulars (s : State) : BitVec 8 × DWord × Bool := (0x07, s.literal.setWidth 64, decide (s.literal ≠ 0))

/-- The check of R189: the slot is claimed. -/
def Core.unclaimed (c : Core) (os : OSlot) : BitVec 8 × DWord × Bool := (0x43, os.setWidth 64, !(c.slot os).claimed)

/-- The pool check of R45 for N panels, with md among the sources or not. -/
def Core.noPanels (c : Core) (md : MReg) (src : Bool) (n : Nat) : BitVec 8 × DWord × Bool :=
  let f := c.freePanels.length
  (0x41, BitVec.ofNat 64 (n * 65536 + f), decide (f + (if src then 0 else (c.tile md).occ) < n))

/-- The rank check of R45. -/
def Core.overRank (c : Core) (r : Nat) : BitVec 8 × DWord × Bool := (0x40, BitVec.ofNat 64 r, decide (c.c.rmax.toNat < r))

/-- The code of a tile's kind (R44). -/
def kindNo : TileKind → Nat
  | .empty => 0 | .dense => 1 | .lowRank => 2 | .complex64 => 3 | .complex128 => 4

/-- A tile-kind check: the tile is of one of the kinds. -/
def Core.wrongKind (c : Core) (m : MReg) (kinds : List TileKind) : BitVec 8 × DWord × Bool :=
  (0x44, BitVec.ofNat 64 (m.toNat * 256 + kindNo (c.tile m).kind), !kinds.contains (c.tile m).kind)

/-- The code of an accumulator mode (R51). -/
def accNo : Acc → Nat
  | .f64 => 0 | .w56 => 1 | .x56 => 2

/-- The accumulator-mode check of R103. -/
def Core.wrongAcc (c : Core) (modes : List Acc) : BitVec 8 × DWord × Bool :=
  (0x42, BitVec.ofNat 64 (accNo c.c.acc), !modes.contains c.c.acc)

/-- An engine operation enters behind the others: it starts when the one before it has finished, runs `d` cycles and retires
eight cycles later; TL rises, N panels are reserved, and the slots and tiles that it reads are held (R46, R199, R209). -/
def Starts (s : State) (i : Instr) (d : Nat) (md : MReg) (tiles : List MReg) (slots last : List OSlot) (n : Nat)
    (res : EngRes) (flags : List Flags) (atRetire : Bool) (xd : Option (XReg × DWord) := none) : Prop :=
  let c := s.cur
  let prev := c.t.eng.foldl (fun m e => max m e.left) 0
  MatGives s i { c with
    c := { c.c with tl := c.c.tl + 1 }
    t := { c.t with eng := c.t.eng ++ [{
      left := max 1 (prev - 8) + d + 8, dur := d, begun := false, done := 0, md := md, tiles := tiles, slots := slots
      lastRead := last, reserved := c.reserve md (tiles.contains md) n, rm := c.c.rm, res := res, flags := flags
      atRetire := atRetire, xdest := xd }] } }

/-- Element q, of width w, of line i of a slot (R186). -/
def State.slotEl (s : State) (os : OSlot) (w i q : Nat) : Nat :=
  s.nat (mkey .opmem s.iss.core (8192 * os.toNat + 256 * i)) 256 / 2 ^ (w * q) % 2 ^ w

/-- Index q of side-store entry i of a slot (R203). -/
def State.sideIdx (s : State) (os : OSlot) (i q : Nat) : Nat :=
  s.nat (mkey .side s.iss.core (1024 * os.toNat + 32 * i)) 32 / 4 ^ q % 4

/-- The kept element at place k of row i of a structured-sparse A (R203): none where no kept value stands, or where its group
of four is not whole within the extent. -/
def State.keptEl (s : State) (os : OSlot) (per w ext i k : Nat) : Option Nat :=
  if ext / 4 ≤ k / 4 then none
  else ((List.range per).filter (fun t => s.sideIdx os i (per * (k / 4) + t) = k % 4)).getLast?.map
    (fun t => s.slotEl os w i (per * (k / 4) + t))

/-- Group g of the products of a row and a column below the extent (R104): the pairs that contribute. -/
def groupAt (ext : Nat) (a : Nat → Option Nat) (b : Nat → Nat) (g : Nat) : List (Nat × Nat) :=
  (((List.range 4).map (4 * g + ·)).filter (· < ext)).filterMap (fun k => (a k).map (fun v => (v, b k)))

/-- Column q of a stored factor, row by row (R207). -/
def factorEl (l : List DWord) (q i : Nat) : Nat := (l.getD (32 * q + i) 0).toNat

/-- The rank that a low-rank source counts with: an empty tile is of rank 0 (R207). -/
def Core.rankIn (c : Core) (m : MReg) : Nat := if (c.tile m).kind = .lowRank then (c.tile m).rank else 0

/-- lrdot of two n-element vectors (R212). -/
def dotOf (rm : Rm) (n : Nat) (x y : Nat → Nat) : Nat := (lrdot rm ((List.range n).map x) ((List.range n).map y)).1

/-- Point p of a list of 1,024 elements, as bit patterns (R220). -/
def pointAt (wide : Bool) (e : List DWord) (p : Nat) : Nat × Nat :=
  if wide then ((e.getD (2 * p) 0).toNat, (e.getD (2 * p + 1) 0).toNat)
  else ((e.getD p 0).toNat % 2 ^ 32, (e.getD p 0).toNat / 2 ^ 32)

/-- The radices of RSEQ, where COUNT is not 0, every code is a radix, and NN is at most the points of a tile (R223). -/
def radicesOf (r : BitVec 34) (points : Nat) : Option (List Nat) :=
  let n := (fld r 30 4).toNat
  let code (s : Nat) : Nat := (fld r (3 * s) 3).toNat
  let rads := (List.range n).map (fun s => if code s = 5 then 8 else code s + 1)
  if n = 0 ∨ (List.range n).any (fun s => code s == 0 || decide (5 < code s)) ∨ points < rads.prod then none else some rads

/-! ### Terms of the statements about events -/

/-- `t` is `s` but for core n, which is now `c`. -/
def CoreBecomes (s t : State) (n : Nat) (c : Core) : Prop :=
  t.mem = s.mem ∧ t.tags = s.tags ∧ t.marks = s.marks ∧ t.dev = s.dev ∧ t.wheel = s.wheel ∧ t.free = s.free ∧
    t.agenda = s.agenda ∧ t.turns = s.turns ∧ t.iss = s.iss ∧ t.core n = c ∧ ∀ m, m ≠ n → t.core m = s.core m

/-- The event's whole effect is on core n. -/
def Becomes (s : State) (i : Instr) (n : Nat) (c : Core) : Prop := ∃ t, exec i s = .next t ∧ CoreBecomes s t n c

/-- R396: the die of core n has logged one containment decision about a fault of task k: the level and action, and the tries after it. -/
def LogsDecision (s t : State) (n : Nat) (k : Task) (tr : Trap) (double : Bool) (level : Nat) (action : BitVec 2) (tries : Nat) : Prop :=
  let q := s.clog (dieOf n)
  let r := t.clog (dieOf n)
  let e := lookupD 0 r.entries (q.next.toNat % 64)
  r.next = q.next + 1 ∧ fld e 96 32 = k.lid ∧ fld e 64 32 = fld tr.tval 0 32 ∧ fld e 56 8 = tr.cause ∧
    fld e 48 8 = (if double then fld tr.tval 8 8 else 0) ∧ fld e 45 3 = BitVec.ofNat 3 level ∧ fld e 43 2 = action ∧
    fld e 41 2 = BitVec.ofNat 2 tries ∧ fld e 0 20 = s.loc n

/-- The event finds nothing to do. -/
abbrev Stays (s : State) (i : Instr) : Prop := exec i s = .next s

/-- R271: bytes that the complex of die `src` writes for itself at GLOB addresses, none above 2^39: at a home of its own they stand where
their page admits the device; to another die they go in a message. -/
def ComplexWrites (s t : State) (src : Nat) (bytes : List (Nat × Byte)) : Prop :=
  (∀ e ∈ bytes, e.1 < 2 ^ 39) → ∀ e ∈ bytes, s.dev.lost.contains (homeDie e.1) = false →
    (homeDie e.1 = src → s.complexOk 0 e.1 = true → t.byte (mkey .glob 0 e.1) = e.2) ∧
    (homeDie e.1 ≠ src → ∃ m ∈ t.dev.ms.msgs, m.src = src ∧ m.dst = homeDie e.1 ∧
      ∃ sent rel, m.body = .complex 0 sent rel ∧ (mkey .glob 0 e.1, e.2) ∈ sent)

/-- R327, R329: RD, STATE and CAUSE of a queue's descriptor. -/
def WritesDesc (s t : State) (q rd st : Nat) (cause : BitVec 8) : Prop :=
  ComplexWrites s t (dieOfQueue q) ((leBytes 4 rd).zipIdx.map (fun (b, i) => (s.descAddr q + 16 + i, b)) ++
    [(s.descAddr q + 21, BitVec.ofNat 8 st), (s.descAddr q + 22, cause)])

/-- R340: the entry of the journal for a packet's transition, and JHEAD after it. -/
def Journals (s t : State) (q st : Nat) (cause : BitVec 8) (idx : Nat) (lid : BitVec 32) : Prop :=
  t.dev.sched.jhead = s.dev.sched.jhead + 1 ∧
  (q < 2 ^ 16 → idx < 2 ^ 32 →
    ComplexWrites s t 0 ((leBytes 8 s.dev.sched.jhead.toNat ++ leBytes 2 q ++ [BitVec.ofNat 8 st, cause] ++ leBytes 4 idx ++
      leBytes 8 s.wheel ++ leBytes 4 lid.toNat ++ zeroBytes 4).zipIdx.map (fun (b, i) => (s.journalAddr + i, b))))

/-- The event's whole effect is on the package outside its cores and memories. -/
abbrev DeviceBecomes (s : State) (i : Instr) (d : Device) : Prop := exec i s = .next { s with dev := d }

/-- The place of a due result in its boundary: transform results, then by slot (R52). -/
def dueRank (p : Pend) : Nat :=
  if p.xform then 0
  else match p.slot with
    | .b => 1 | .s => 2 | .va => 3 | .vb => 4 | .m => 5 | .ca => 6 | .cb => 7 | .x => 8

/-- What a write does to one x, h, V or P register: a new value, or a change of some bits. -/
def Write.onX (r : XReg) : Write → Option DWord
  | .x k d => if k = r ∧ r ≠ 0 then some d else Option.none
  | .xMarked k d => if k = r ∧ r ≠ 0 then some d else Option.none
  | _ => Option.none

def Write.onH (r : HReg) : Write → Option (Cap × Bool)
  | .h k d t => if k = r ∧ r ≠ 0 then some (d, t) else Option.none
  | .hMarked k d t => if k = r ∧ r ≠ 0 then some (d, t) else Option.none
  | _ => Option.none

def Write.onV (phys : Nat) (w : Write) (old : Vec) : Vec :=
  match w with
  | .v k m d => if k = phys then merge m d old else old
  | .vMarked k m d _ => if k = phys then merge m d old else old
  | _ => old

def Write.onP (phys : Nat) (w : Write) (old : Pred) : Pred :=
  match w with
  | .p k m d => if k = phys then merge m d old else old
  | _ => old

/-- The flags that a CSR write clears, and whether the write is one to operand memory. -/
def Write.clears : Write → Flags
  | .csr w => if w.num = 0x801 then fld w.clear 8 5 else 0
  | _ => 0

def Write.isRow : Write → Bool
  | .row _ _ _ => true
  | _ => false

/-- What a CSR holds after a write of `new`: the legal bits, RMAX at most 16, RSEQ.COUNT at most 10 (R51). -/
def csrLegalise (num : BitVec 12) (new : DWord) : DWord :=
  match num.toNat with
  | 0x800 => new &&& 0x1F
  | 0x802 | 0x803 | 0x81B => new
  | 0x804 => if 16 < new.toNat % 32 then 16 else new &&& 0x1F
  | 0x805 => if 10 < new.toNat / 2 ^ 30 % 16 then (new &&& 0x3FFFFFFF) ||| 0x280000000 else new &&& 0x3FFFFFFFF
  | 0x806 => new &&& 0xFFFFFFFFFFFC
  | 0x818 => new &&& 0xFFFFFFFFFF81
  | 0x819 => new &&& 0xFF
  | 0x81A => new &&& 0xFFFFFFFFFFFF
  | 0x81C => new &&& 0xF07
  | 0x81D => new &&& 0x7F
  | _ => new &&& 0x800000000003FFFF

/-- The CSRs that a write reaches whole; 0x801 and 0x810 hold write-one-to-clear bits. -/
def csrPlain : List (BitVec 12) := [0x800, 0x802, 0x803, 0x804, 0x805, 0x806, 0x818, 0x819, 0x81A, 0x81B, 0x81C, 0x81D, 0x81E]

/-- One operation after another, each at the state that the one before it has left, and none raises a trap. Where the issue has
two positions of W, the first SC operation takes the one and the next the other (R274). -/
inductive Runs : List Op → State → State → Prop where
  | nil (s : State) : Runs [] s s
  | cons {o : Op} {l : List Op} {s t u : State} :
      exec o.i { s with iss := { s.iss with slot := o.slot, off := o.off, raised := none } } = .next t →
      t.iss.raised = none → Runs l (t.nextRank o.i) u → Runs (o :: l) s u

/-! ### Terms of the statements about vector operations -/

/-- R154, by places: the value of node j of level k of the pairwise tree, with the flags of its operations; none is dead. -/
def redAt (op : Nat → Nat → Nat × Flags) (act : Nat → Bool) (a : Nat → Nat) : Nat → Nat → RedVal
  | 0, j => if act j then some (a j, 0) else none
  | k + 1, j => redNode op (redAt op act a k (2 * j)) (redAt op act a k (2 * j + 1))

/-- R155, by places: the running result before element j, with the flags of its last operation. -/
def runAt (op : Nat → Nat → Nat × Flags) (act : Nat → Bool) (a : Nat → Nat) : Nat → RedVal
  | 0 => none
  | j + 1 =>
    if act j then
      match runAt op act a j with
      | none => some (a j, 0)
      | some x => some (op x.1 (a j))
    else runAt op act a j

/-- R156, by places: the place of the greatest element before element j, the lowest of equals. -/
def bestAt (gt : Nat → Nat → Bool) (counts : Nat → Bool) (a : Nat → Nat) : Nat → Option Nat
  | 0 => none
  | j + 1 =>
    if counts j then
      match bestAt gt counts a j with
      | none => some j
      | some b => if gt (a j) (a b) then some j else some b
    else bestAt gt counts a j

end Sys2Proof.Machine
end

