-- ==== Sys2Proof/Certificates/Slice0/Obligations.lean ====
section
/-! DEFINITION. Statements about the PN-8 for the provers, from the numbered rules of the manual: what each slot operation
and each event does, what it leaves alone, where it traps, and what every step keeps. -/

open Sys2Proof Sys2Proof.Machine
open Host (Outcome)

/-! ### The S slot (R110 to R117) -/

/-- R110, R111: each 64-bit register form has RISC-V's result, due one boundary later; a shift takes the low six bits of
its second source. Nothing else of the state changes. R114: the immediate forms, whose immediate is sign-extended; LUI, and AUIPC,
which adds to the address of the bundle's head. -/
def Obligations.RegisterArithmetic : Prop :=
  (∀ (s : State) (f : RF),
    let a := s.cur.rx f.rs1
    let b := s.cur.rx f.rs2
    let gives (i : Instr) (v : DWord) : Prop := Clean s i → Gives s i .s 1 (.x f.rd v)
    gives (.add f) (BitVec.ofInt 64 (a.toInt + b.toInt)) ∧ gives (.sub f) (BitVec.ofInt 64 (a.toInt - b.toInt)) ∧
    gives (.sll f) (BitVec.ofNat 64 (a.toNat * 2 ^ (b.toNat % 64))) ∧
    gives (.srl f) (BitVec.ofNat 64 (a.toNat / 2 ^ (b.toNat % 64))) ∧
    gives (.sra f) (BitVec.ofInt 64 (a.toInt / 2 ^ (b.toNat % 64))) ∧
    gives (.slt f) (if a.toInt < b.toInt then 1 else 0) ∧ gives (.sltu f) (if a.toNat < b.toNat then 1 else 0) ∧
    gives (.xor f) (a ^^^ b) ∧ gives (.or f) (a ||| b) ∧ gives (.and f) (a &&& b)) ∧
  ∀ (s : State) (f : IF) (h : ShF) (u : UF),
    let a := s.cur.rx f.rs1
    let m := f.imm.toInt
    let b := s.cur.rx h.rs1
    let gives (i : Instr) (rd : XReg) (v : DWord) : Prop := Clean s i → Gives s i .s 1 (.x rd v)
    gives (.addi f) f.rd (BitVec.ofInt 64 (a.toInt + m)) ∧ gives (.slti f) f.rd (if a.toInt < m then 1 else 0) ∧
    gives (.sltiu f) f.rd (if a.toNat < (BitVec.ofInt 64 m).toNat then 1 else 0) ∧
    gives (.xori f) f.rd (a ^^^ BitVec.ofInt 64 m) ∧ gives (.ori f) f.rd (a ||| BitVec.ofInt 64 m) ∧
    gives (.andi f) f.rd (a &&& BitVec.ofInt 64 m) ∧
    gives (.slli h) h.rd (BitVec.ofNat 64 (b.toNat * 2 ^ h.sh.toNat)) ∧
    gives (.srli h) h.rd (BitVec.ofNat 64 (b.toNat / 2 ^ h.sh.toNat)) ∧
    gives (.srai h) h.rd (BitVec.ofInt 64 (b.toInt / 2 ^ h.sh.toNat)) ∧
    gives (.lui u) u.rd (BitVec.ofInt 64 (u.imm.toInt * 4096)) ∧
    gives (.auipc u) u.rd (BitVec.ofInt 64 (s.cur.k.pc.toNat + u.imm.toInt * 4096))

/-- R110, R111: the W forms compute on the low 32 bits and sign-extend their 32-bit result. R110, R111: products after
three boundaries, quotients and remainders after twenty, or twelve for the W forms. Division by zero gives all ones
and leaves the dividend as remainder; the quotient of overflow is the dividend. -/
def Obligations.WordAndMultiplyDivide : Prop :=
  (∀ (s : State) (f : RF) (m : IF) (h : ShwF),
     let lo (r : XReg) : BitVec 32 := (s.cur.rx r).setWidth 32
     let a := lo f.rs1
     let b := lo f.rs2
     let k := b.toNat % 32
     let gives (i : Instr) (rd : XReg) (v : BitVec 32) : Prop := Clean s i → Gives s i .s 1 (.x rd (v.signExtend 64))
     gives (.addw f) f.rd (BitVec.ofInt 32 (a.toInt + b.toInt)) ∧ gives (.subw f) f.rd (BitVec.ofInt 32 (a.toInt - b.toInt)) ∧
     gives (.sllw f) f.rd (BitVec.ofNat 32 (a.toNat * 2 ^ k)) ∧ gives (.srlw f) f.rd (BitVec.ofNat 32 (a.toNat / 2 ^ k)) ∧
     gives (.sraw f) f.rd (BitVec.ofInt 32 (a.toInt / 2 ^ k)) ∧
     gives (.addiw m) m.rd (BitVec.ofInt 32 ((lo m.rs1).toInt + m.imm.toInt)) ∧
     gives (.slliw h) h.rd (BitVec.ofNat 32 ((lo h.rs1).toNat * 2 ^ h.sh.toNat)) ∧
     gives (.srliw h) h.rd (BitVec.ofNat 32 ((lo h.rs1).toNat / 2 ^ h.sh.toNat)) ∧
     gives (.sraiw h) h.rd (BitVec.ofInt 32 ((lo h.rs1).toInt / 2 ^ h.sh.toNat))) ∧
  ∀ (s : State) (f : RF),
    let a := s.cur.rx f.rs1
    let b := s.cur.rx f.rs2
    let p : BitVec 32 := a.setWidth 32
    let q : BitVec 32 := b.setWidth 32
    let gives (i : Instr) (lat : Nat) (v : DWord) : Prop := Clean s i → Gives s i .s lat (.x f.rd v)
    let givesW (i : Instr) (lat : Nat) (v : BitVec 32) : Prop := Clean s i → Gives s i .s lat (.x f.rd (v.signExtend 64))
    gives (.mul f) 3 (BitVec.ofInt 64 (a.toInt * b.toInt)) ∧
    gives (.mulh f) 3 (BitVec.ofInt 64 (a.toInt * b.toInt / 2 ^ 64)) ∧
    gives (.mulhsu f) 3 (BitVec.ofInt 64 (a.toInt * b.toNat / 2 ^ 64)) ∧
    gives (.mulhu f) 3 (BitVec.ofNat 64 (a.toNat * b.toNat / 2 ^ 64)) ∧
    gives (.div f) 20 (if b = 0 then BitVec.ofInt 64 (-1) else BitVec.ofInt 64 (a.toInt.tdiv b.toInt)) ∧
    gives (.divu f) 20 (if b = 0 then BitVec.ofInt 64 (-1) else BitVec.ofNat 64 (a.toNat / b.toNat)) ∧
    gives (.rem f) 20 (if b = 0 then a else BitVec.ofInt 64 (a.toInt.tmod b.toInt)) ∧
    gives (.remu f) 20 (BitVec.ofNat 64 (a.toNat % b.toNat)) ∧
    givesW (.mulw f) 3 (BitVec.ofInt 32 (p.toInt * q.toInt)) ∧
    givesW (.divw f) 12 (if q = 0 then BitVec.ofInt 32 (-1) else BitVec.ofInt 32 (p.toInt.tdiv q.toInt)) ∧
    givesW (.divuw f) 12 (if q = 0 then BitVec.ofInt 32 (-1) else BitVec.ofNat 32 (p.toNat / q.toNat)) ∧
    givesW (.remw f) 12 (if q = 0 then p else BitVec.ofInt 32 (p.toInt.tmod q.toInt)) ∧
    givesW (.remuw f) 12 (BitVec.ofNat 32 (p.toNat % q.toNat))

/-- R112, R428: a naturally aligned load inside the SPAD gives its bytes, sign- or zero-extended, after three boundaries,
with a mark where a granule read carries one. R345, R346: where the core's entry does not admit the task a load takes a free value with a mark, and a store
is dropped. R112: a SPAD load or store that is not naturally aligned takes trap
0x25, and one that is aligned and begins at or beyond 1 MiB takes trap 0x26, with the offset as TVAL. R112, R166: a
naturally aligned store inside the SPAD writes the low bytes of rs2, least first, at the offset. Every other byte of
memory, every register and the rest of the package stay; the granule's tag is cleared. -/
def Obligations.SpadLoadsAndStores : Prop :=
  ((∀ (s : State) (f : IF),
     let off := (s.cur.rx f.rs1 + BitVec.ofInt 64 f.imm.toInt).toNat
     let key := mkey .spad s.iss.core off
     let gives (i : Instr) (n : Nat) (v : Nat → DWord) : Prop :=
       Clean s i → off % n = 0 → off < 0x100000 →
         (s.spadOk s.iss.core = true →
           Gives s i .s 3 (if s.marked key n then .xMarked f.rd (v (s.nat key n)) else .x f.rd (v (s.nat key n)))) ∧
         (s.spadOk s.iss.core = false → ∃ (w : Nat) (t : State), t.mem = s.mem ∧ t.tags = s.tags ∧ t.marks = s.marks ∧
           exec i s = .next (t.setCur (s.cur.push (mkPend .s 3 (.xMarked f.rd (v w))))))
     gives (.lb f) 1 (fun v => (BitVec.ofNat 8 v).signExtend 64) ∧ gives (.lh f) 2 (fun v => (BitVec.ofNat 16 v).signExtend 64) ∧
     gives (.lw f) 4 (fun v => (BitVec.ofNat 32 v).signExtend 64) ∧ gives (.sld f) 8 (BitVec.ofNat 64) ∧
     gives (.lbu f) 1 (BitVec.ofNat 64) ∧ gives (.lhu f) 2 (BitVec.ofNat 64) ∧ gives (.lwu f) 4 (BitVec.ofNat 64)) ∧
   ∀ (s : State) (f : IF) (g : StF),
     let traps (i : Instr) (off : DWord) (n : Nat) : Prop := Clean s i →
       (off.toNat % n ≠ 0 → exec i s = .next (s.raise (mkTrap 0x25 off s.iss.slot s.cur))) ∧
       (off.toNat % n = 0 → 0x100000 ≤ off.toNat → exec i s = .next (s.raise (mkTrap 0x26 off s.iss.slot s.cur)))
     let a := s.cur.rx f.rs1 + BitVec.ofInt 64 f.imm.toInt
     let b := s.cur.rx g.rs1 + BitVec.ofInt 64 g.imm.toInt
     traps (.lb f) a 1 ∧ traps (.lh f) a 2 ∧ traps (.lw f) a 4 ∧ traps (.sld f) a 8 ∧ traps (.lbu f) a 1 ∧ traps (.lhu f) a 2 ∧
     traps (.lwu f) a 4 ∧ traps (.sb g) b 1 ∧ traps (.sh g) b 2 ∧ traps (.sw g) b 4 ∧ traps (.sd g) b 8) ∧
  ∀ (s : State) (f : StF), s.Ok →
    let off := (s.cur.rx f.rs1 + BitVec.ofInt 64 f.imm.toInt).toNat
    let key := mkey .spad s.iss.core off
    let stores (i : Instr) (n : Nat) : Prop :=
      Clean s i → off % n = 0 → off < 0x100000 →
        (s.spadOk s.iss.core = false → DropsSpad s i off) ∧
        (s.spadOk s.iss.core = true → ∃ t, exec i s = .next t ∧ (∀ k, k < n → t.byte (key + k) = (s.cur.rx f.rs2).extractLsb' (8 * k) 8) ∧
          (∀ a, a < key ∨ key + n ≤ a → t.byte a = s.byte a) ∧
          KeySet.has t.tags (key / 32) = false ∧
          (∀ g, g ≠ key / 32 → KeySet.has t.tags g = KeySet.has s.tags g) ∧
          t.marks = s.marks ∧ t.cores = s.cores ∧ t.dev = s.dev ∧ t.iss = s.iss)
    stores (.sb f) 1 ∧ stores (.sh f) 2 ∧ stores (.sw f) 4 ∧ stores (.sd f) 8

/-- R50, R117: a Zicsr form on a listed CSR gives the CSR's old value to rd, and where it writes, leaves the source, or the
old bits set or cleared under it, for the next boundary; on an unlisted CSR, or writing a read-only one, it takes the
illegal-instruction trap with the slot word. A write-one-to-clear field is cleared where the source has ones. -/
def Obligations.CsrAccess : Prop :=
  ∀ (s : State) (f : CsrF) (g : CsriF),
    let acts (i : Instr) (num : BitVec 12) (rd : XReg) (writes : Bool) (mask val clear : DWord) : Prop := Clean s i →
      (csrLegal num writes = true →
        let c := s.cur.push (mkPend .s 1 (.x rd (s.cur.csr num)))
        exec i s = .next (s.setCur
          (if writes then c.push (mkPend .s 1 (.csr { num := num, mask := mask, val := val, clear := clear })) else c))) ∧
      (csrLegal num writes = false → exec i s = .next (s.raise (mkTrap 0x01 ((encode i).getD 0) s.iss.slot s.cur)))
    let x := s.cur.rx f.rs1
    let u : DWord := g.uimm.setWidth 64
    let ones : DWord := BitVec.allOnes 64
    acts (.csrrw f) f.csr f.rd true ones x x ∧ acts (.csrrs f) f.csr f.rd (f.rs1 != 0) x x x ∧
    acts (.csrrc f) f.csr f.rd (f.rs1 != 0) x 0 0 ∧ acts (.csrrwi g) g.csr g.rd true ones u u ∧
    acts (.csrrsi g) g.csr g.rd (g.uimm != 0) u u u ∧ acts (.csrrci g) g.csr g.rd (g.uimm != 0) u 0 0

/-! ### The B slot (R118 to R138) -/

/-- R121, R122, R123: a conditional branch is taken when its comparison holds, BPT where every bit of the predicate is one,
BPF where every bit is zero, JMP always; a predicate with both kinds of bits traps with its low 64 bits. A branch not taken
changes nothing. -/
def Obligations.BranchesAndJumps : Prop :=
  ∀ (s : State) (f : BrF) (g : BpF) (off : BitVec 21),
    let a := s.cur.rx f.rs1
    let b := s.cur.rx f.rs2
    let branches (i : Instr) (off : Int) (taken : Prop) : Prop := Clean s i →
      (taken → Jumps s i (s.rel off)) ∧ (¬taken → exec i s = .next s)
    let p := s.cur.rp g.p
    let ones : Pred := BitVec.allOnes 128
    branches (.beq f) f.off.toInt (a = b) ∧ branches (.bne f) f.off.toInt (a ≠ b) ∧
    branches (.blt f) f.off.toInt (a.toInt < b.toInt) ∧ branches (.bge f) f.off.toInt (b.toInt ≤ a.toInt) ∧
    branches (.bltu f) f.off.toInt (a.toNat < b.toNat) ∧ branches (.bgeu f) f.off.toInt (b.toNat ≤ a.toNat) ∧
    (p = ones ∨ p = 0 → branches (.bpt g) g.off.toInt (p = ones) ∧ branches (.bpf g) g.off.toInt (p = 0)) ∧
    (p ≠ ones → p ≠ 0 → (Clean s (.bpt g) → Traps s (.bpt g) 0x60 (p.extractLsb' 0 64)) ∧
      (Clean s (.bpf g) → Traps s (.bpf g) 0x60 (p.extractLsb' 0 64))) ∧
    branches (.jmp off) off.toInt True

/-- R123: CALL passes control to its target and leaves the address of the bundle that would follow for x[RD]; RET passes
control to the address in its register, which has no bits above 47. Neither may stand at the end of a body (R127); both
check their target, and no loop level changes. -/
def Obligations.CallAndReturn : Prop :=
  ∀ (s : State) (f : BjF) (r : XReg),
    let goes (i : Instr) (tgt : Nat) (c : Core) : Prop :=
      match s.targetFault s.iss.core tgt with
      | some (e, v) => Traps s i e (BitVec.ofNat 64 v)
      | none => GoesTo s i tgt c
    let a := s.cur.rx r
    (Clean s (.call f) → s.atEnd = false →
      goes (.call f) (s.rel f.off.toInt) (s.cur.push (mkPend .b 1 (.x f.rd (s.iss.next.setWidth 64))))) ∧
    (Clean s (.ret r) → s.atEnd = false →
      (2 ^ 48 ≤ a.toNat → Traps s (.ret r) 0x05 a) ∧ (a.toNat < 2 ^ 48 → goes (.ret r) a.toNat s.cur)) ∧
    (∀ k l, s.atEnd = true → s.cur.inner = some (k, l) →
      (Clean s (.call f) → LoopTraps s (.call f) 0x63 0 k l.start) ∧ (Clean s (.ret r) → LoopTraps s (.ret r) 0x63 0 k l.start))

/-- R124, R125: a loop instruction with a trip count other than zero, a free level and a body that its enclosing body holds
makes the lowest free level active, with START at the next bundle, END at the bundle LEN words on and ITER as its kind says;
LOOP.SP also sets its stage predicates, the first to ones and the others to zeros. A trip count of zero passes control beyond
END. A body that the enclosing one does not hold, a way on that leaves an active body, or a body's last bundle is a structure
trap (R127, R129). The model's choices here: structure comes before the other traps (log 85), a trip count of zero needs no free
level and meets no bound (log 25), it enters a malformed line as by fall-through (log 94), and END where no segment holds it (log
95). -/
def Obligations.LoopEntry : Prop :=
  ∀ (s : State) (f : BlF),
    let c := s.cur
    let t := (c.rx f.rs1).toNat
    let max := (f.maxm.toNat + 1) * 2 ^ f.maxe.toNat
    let stages := f.stg.toNat + 1
    let start := s.imemIdx c s.iss.next.toNat
    let fin := c.k.pc.toNat + 4 * f.len.toNat
    let finI := s.imemIdx c fin
    let past := s.following s.iss.core fin
    let outside : Prop := (∃ k l, c.inner = some (k, l) ∧ l.holds s.here = true ∧ l.fin.toNat ≤ finI.toNat) ∨
      s.leaks (if t = 0 then past else s.iss.next.toNat) none = true
    let level (kind : BitVec 2) (stg : BitVec 3) (iter : Nat) : LoopLv :=
      { kind := kind, stg := stg, start := start, fin := finI, iter := BitVec.ofNat 27 iter, trip := t, max := max }
    let stage (k : Nat) : Pend :=
      mkPend .b 1 (.p (c.pp (BitVec.ofNat 4 (8 + k))) (BitVec.allOnes 128) (if k = 0 then BitVec.allOnes 128 else 0))
    let enters (i : Instr) (bounded : Bool) (lv : LoopLv) (preds : List Pend) : Prop :=
      Clean s i → s.atEnd = false →
      (outside → ∃ j l, c.inner = some (j, l) ∧ LoopTraps s i 0x63 0 j l.start) ∧
      (¬outside →
        (t = 0 → GoesTo s i past c) ∧
        (t ≠ 0 → c.freeLevel = none → LoopTraps s i 0x61 0 3 c.c.lc[3].start) ∧
        (∀ k, t ≠ 0 → c.freeLevel = some k →
          (bounded = true → max < t → LoopTraps s i 0x62 (BitVec.ofNat 64 t) k start) ∧
          ((bounded = true → t ≤ max) →
            FallsThrough s i { c.setLevel k lv with t := { c.t with pend := c.t.pend ++ preds } })))
    let closes (i : Instr) : Prop := ∀ k l, Clean s i → s.atEnd = true → c.inner = some (k, l) → LoopTraps s i 0x63 0 k l.start
    enters (.loop f) true (level 1 0 t) [] ∧ enters (.loopW f) false (level 2 0 max) [] ∧
    enters (.loopSp f) true (level 3 f.stg (t + stages - 1)) ((List.range stages).map stage) ∧
    closes (.loop f) ∧ closes (.loopW f) ∧ closes (.loopSp f)

/-- R126: at the END of the innermost body LEND counts the level down, turns ROT back by one and passes control to START while
iterations remain, a while loop as long as its register is not zero; else the level becomes inactive and control goes on. Under
LOOP.SP the stage predicate of the next iteration is set while trips remain. A register named where the loop is no while loop is
an illegal instruction, a while loop that would pass its bound traps, and so does a return to a START that fails its target's
checks (R460); LEND away from the innermost body's END, or with no loop active, is a structure trap (R127). R128: LBRK, where it names no register or one that is
not zero, ends the innermost loop and passes control beyond its END; else it changes nothing; with no loop active it is a
structure trap. What a structure trap with no level active writes to TLOOP (V = 1, LEVEL 0, START 0) is the model's choice (log
85). -/
def Obligations.LoopEnd : Prop :=
  (∀ (s : State) (r : XReg) (k : Nat) (l : LoopLv), s.cur.inner = some (k, l) → s.atEnd = true → Clean s (.lend r) →
    let c := s.cur
    let start := s.addrOfIdx c c.k.pc.toNat l.start
    let more := if l.kind = 2 then c.rx r ≠ 0 else 1 < l.iter.toNat
    let back : Core := { c with c := { c.c with rot := c.c.rot - 1 } }
    let next : Core := back.setLevel k { l with iter := l.iter - 1 }
    let trips := l.trip + l.stg.toNat - (l.iter - 1).toNat
    let staged := if l.kind = 3 then
        next.push (mkPend .b 1 (.p (next.pp 8) (BitVec.allOnes 128) (if trips < l.trip then BitVec.allOnes 128 else 0)))
      else next
    (¬more → s.leaks s.iss.next.toNat (some k) = true → LoopTraps s (.lend r) 0x63 0 k l.start) ∧
    ((more ∨ s.leaks s.iss.next.toNat (some k) = false) → r ≠ 0 → l.kind ≠ 2 → exec (.lend r) s = s.illegal (.lend r)) ∧
    ((r = 0 ∨ l.kind = 2) →
      (l.kind = 2 → more → l.iter = 1 → LoopTraps s (.lend r) 0x62 (BitVec.ofNat 64 l.max) k l.start) ∧
      (more → (l.kind = 2 → l.iter ≠ 1) → s.targetFault s.iss.core start = none → GoesTo s (.lend r) start staged) ∧
      (∀ e v, more → (l.kind = 2 → l.iter ≠ 1) → s.targetFault s.iss.core start = some (e, v) →
        Traps s (.lend r) e (BitVec.ofNat 64 v)) ∧
      (¬more → s.leaks s.iss.next.toNat (some k) = false → FallsThrough s (.lend r) (back.setLevel k .off)))) ∧
  (∀ (s : State) (r : XReg), Clean s (.lend r) →
    (∀ k l, s.cur.inner = some (k, l) → s.atEnd = false → LoopTraps s (.lend r) 0x63 0 k l.start) ∧
    (s.cur.inner = none → LoopTraps s (.lend r) 0x63 0 0 0)) ∧
  ∀ (s : State) (r : XReg), Clean s (.lbrk r) →
    (s.cur.inner = none → LoopTraps s (.lbrk r) 0x63 0 0 0) ∧
    (∀ k l, s.cur.inner = some (k, l) →
      (r = 0 ∨ s.cur.rx r ≠ 0 → GoesTo s (.lbrk r)
        (s.following s.iss.core (s.addrOfIdx s.cur s.cur.k.pc.toNat l.fin)) (s.cur.setLevel k .off)) ∧
      (r ≠ 0 → s.cur.rx r = 0 → exec (.lbrk r) s = .next s))

/-- R131 to R137: WAIT's own operation changes nothing (the hold comes before the issue); SETFMT's mode is pending for five
cycles; LITSET's address reaches MPC with the next bundle, and one with bits 63 to 48, 1 or 0 traps; IINV drops a segment, or
every one but the bundle's own, a copy in flight included; SSTEP waits for the superstep and is a double fault in a handler;
YIELD asks the scheduler, and is a structure trap at the end of a body (R129); HALT ends issue. -/
def Obligations.WaitFormatHalt : Prop :=
  ∀ (s : State) (w : BwF) (acc : Acc) (rm : Rm) (r : XReg),
    let c := s.cur
    let v := c.rx r
    let dropped (p : Nat → Bool) : Core := { c with k := { c.k with
      resident := c.k.resident.filter (fun g => !p g), segStale := c.k.segStale || c.k.segCopy.any p } }
    (Clean s (.wait w) → exec (.wait w) s = .next s) ∧
    (Clean s (.setfmt acc rm) → FallsThrough s (.setfmt acc rm)
      { c with t := { c.t with shadow := some { acc := acc, rm := rm, rem := 5 } } }) ∧
    (Clean s (.litset r) →
      (v.toNat < 2 ^ 48 ∧ v.toNat % 4 = 0 →
        FallsThrough s (.litset r) (c.push (mkPend .b 1 (.mpc (v.setWidth 48))))) ∧
      (¬(v.toNat < 2 ^ 48 ∧ v.toNat % 4 = 0) → Traps s (.litset r) 0x06 v)) ∧
    (Clean s (.iinv r) → r = 0 →
      FallsThrough s (.iinv r) (dropped (fun g => some g != (s.segOf c c.k.pc.toNat).map (·.num)))) ∧
    (Clean s (.iinv r) → r ≠ 0 →
      (c.inArena v.toNat = false → Traps s (.iinv r) 0x05 v) ∧
      (∀ g, c.inArena v.toNat = true → s.segOf c v.toNat = some g → FallsThrough s (.iinv r) (dropped (· == g.num)))) ∧
    (Clean s .sstep →
      (c.bank = none → FallsThrough s .sstep { c with sstep := true, superstep := c.superstep + 1 }) ∧
      (c.bank ≠ none → Traps s .sstep 0x66 0)) ∧
    (Clean s .yield → s.atEnd = false → FallsThrough s .yield { c with yielding := true }) ∧
    (∀ k l, Clean s .yield → s.atEnd = true → c.inner = some (k, l) → LoopTraps s .yield 0x63 0 k l.start) ∧
    (Clean s .halt → FallsThrough s .halt { c with mode := .halting })

/-- R116, R138, R384: ECALL, EBREAK and TRAP take their completion traps, causes 0x09, 0x0A and 0x0B: TPC names the bundle
that follows and, for TRAP, TVAL is the code. The entry itself is that of `TrapEntry`. R389: TRET outside a handler is an illegal
instruction; in one, with no more loop levels active than entry found, a TPC inside the arena and on a start bit, it lets the
handler drain; else it raises the trap of the first check that fails. R129: TRAP and TRET at the end of a body are structure
traps; that TRET's comes before its own checks is the model's choice (log 95). -/
def Obligations.TrapsAndReturn : Prop :=
  (∀ (s : State) (code : BitVec 8),
    let follow := s.iss.xfer.getD s.iss.next
    let ended := s.setCur { s.cur with t := { s.cur.t with issue := 0 }, k := { s.cur.k with pc := follow } }
    let tr (cause : BitVec 8) (v : DWord) (sl : Slot) : Trap :=
      { cause := cause, kind := .completion, tval := v, slot := sl, elem := 0, loop := none, replay := none
        rep := s.iss.rep, zero := [] }
    exec .ecall s = .next (ended.raise (tr 0x09 0 .s)) ∧ exec .ebreak s = .next (ended.raise (tr 0x0A 0 .s)) ∧
    (Clean s (.trap code) → s.atEnd = false →
      exec (.trap code) s = .next (ended.raise (tr 0x0B (code.setWidth 64) .b))) ∧
    ∀ k l, s.atEnd = true → s.cur.inner = some (k, l) →
      (Clean s (.trap code) → LoopTraps s (.trap code) 0x63 0 k l.start) ∧ (Clean s .tret → LoopTraps s .tret 0x63 0 k l.start)) ∧
  ∀ s : State, Clean s .tret → s.atEnd = false →
    let c := s.cur
    let pc := c.tr.pc
    (c.bank = none → exec .tret s = s.illegal .tret) ∧
    (∀ b, c.bank = some b →
      (b.loops < c.activeLoops → Traps s .tret 0x63 0) ∧
      (c.activeLoops ≤ b.loops → (c.inArena pc.toNat = false ∨ pc.toNat % 4 ≠ 0) → Traps s .tret 0x05 (pc.setWidth 64)) ∧
      (c.activeLoops ≤ b.loops → c.inArena pc.toNat = true → pc.toNat % 4 = 0 →
        (s.maskBit s.iss.core pc.toNat 0 = false → Traps s .tret 0x04 (pc.setWidth 64)) ∧
        (s.maskBit s.iss.core pc.toNat 0 = true → FallsThrough s .tret { c with tretDrain := some (pc, c.tr.elem) })))

/-! ### Vector operations (R139 to R160) -/

/-- R140, R144, R147: float and integer arithmetic, element by element, one rounding under RM for floats and wrapping for
integers, with the flags of the active elements; VMIN and VMAX of floats are minimumNumber and maximumNumber. The model's
choices here: invalid of VFMA and VFMS for infinity times zero with a quiet NaN addend (log 86), and how VEXP2 and VLOG2 are
computed (log 15). -/
def Obligations.VectorArithmetic : Prop :=
  ∀ (s : State) (f : VrF) (g : VuF),
    let c := s.cur
    let rm := c.c.rm
    let gives (i : Instr) (vd : VReg) (t : Fmt) (pg : PReg) (lat : Nat) (r : Nat → Nat × Flags) : Prop := Clean s i →
      VecGives s i vd lat (Fmt.width t) (c.active (Fmt.width t) pg) (fun j => (r j).1)
        (raisedBy (1024 / Fmt.width t) (c.active (Fmt.width t) pg) (fun j => (r j).2))
    let t := f.et
    let w := Fmt.width t
    let a := c.el w f.vs1
    let b := c.el w f.vs2
    let d := c.el w f.vd
    let fp := Fmt.fp t
    let flt (i : Instr) (fl int : Nat) (x : Nat → Nat × Flags) (y : Nat → Nat) : Prop :=
      gives i f.vd t f.pg (if t.isFloat then fl else int) (fun j => if t.isFloat then x j else (y j, 0))
    let u := g.et
    let v := Fmt.width u
    let e := c.el v g.vs1
    let fu := Fmt.fp u
    let slow (t : Fmt) : Nat := if t = .f64 then 24 else if t = .f32 then 12 else 8
    let one (i : Instr) (lat : Nat) (x : Nat → Nat × Flags) : Prop := gives i g.vd u g.pg lat (fun j => x (e j))
    flt (.vadd f) 4 2 (fun j => fp.addR rm (fp.decode (a j)) (fp.decode (b j))) (fun j => a j + b j) ∧
    flt (.vsub f) 4 2 (fun j => fp.addR rm (fp.decode (a j)) (fp.decode (b j)).neg)
      (fun j => (((a j : Int) - b j) % (2 ^ w : Nat)).toNat) ∧
    flt (.vmul f) 4 3 (fun j => fp.mulR rm (fp.decode (a j)) (fp.decode (b j))) (fun j => a j * b j) ∧
    flt (.vmin f) 4 2 (fun j => fp.minMax false (a j) (b j)) (fun j => if sext (a j) w < sext (b j) w then a j else b j) ∧
    flt (.vmax f) 4 2 (fun j => fp.minMax true (a j) (b j)) (fun j => if sext (a j) w < sext (b j) w then b j else a j) ∧
    gives (.vdiv f) f.vd t f.pg (slow t) (fun j => fp.divR rm (fp.decode (a j)) (fp.decode (b j))) ∧
    gives (.vfma f) f.vd t f.pg 4 (fun j => fp.fmaR rm (fp.decode (a j)) (fp.decode (b j)) (fp.decode (d j))) ∧
    gives (.vfms f) f.vd t f.pg 4 (fun j => fp.fmaR rm (fp.decode (a j)).neg (fp.decode (b j)) (fp.decode (d j))) ∧
    one (.vabs g) 2 (fun x => (if u.isFloat then x % 2 ^ (v - 1) else zext (sext x v).natAbs v, 0)) ∧
    one (.vneg g) 2 (fun x => (if u.isFloat then (x + 2 ^ (v - 1)) % 2 ^ v else zext (-sext x v) v, 0)) ∧
    one (.vsqrt g) (slow u) (fun x => fu.sqrtR rm (fu.decode x)) ∧
    one (.vrcp g) (slow u) (fun x => fu.divR rm (fu.decode (oneBits fu)) (fu.decode x)) ∧
    one (.vrsqrt g) (slow u) (fun x => fu.rsqrtR rm (fu.decode x)) ∧
    one (.vexp2 g) 10 (fun x => fu.exp2R rm (fu.decode x)) ∧ one (.vlog2 g) 10 (fun x => fu.log2R rm (fu.decode x))

/-- R147, R148: bitwise operations, shifts by the amount modulo the width, saturating sums and the high half of the signed
product, element by element, without flags. R149: VBCAST fills the active elements with the low bits of an x register,
VMOVX the lowest active one alone; VIOTA writes each element's number in the type, VLI an immediate, which floats
round and integers saturate. -/
def Obligations.VectorBitsAndFills : Prop :=
  (∀ (s : State) (f : VrF) (g : VuF),
     let c := s.cur
     let w := Fmt.width f.et
     let two (i : Instr) (lat : Nat) (r : Nat → Nat → Nat) : Prop := Clean s i →
       VecGives s i f.vd lat w (c.active w f.pg) (fun j => r (c.el w f.vs1 j) (c.el w f.vs2 j))
     let v := Fmt.width g.et
     let one (i : Instr) (r : Nat → Nat) : Prop := Clean s i →
       VecGives s i g.vd 1 v (c.active v g.pg) (fun j => r (c.el v g.vs1 j))
     two (.vand f) 1 Nat.land ∧ two (.vor f) 1 Nat.lor ∧ two (.vxor f) 1 Nat.xor ∧
     one (.vnot g) (fun x => 2 ^ v - 1 - x) ∧ one (.vmov g) id ∧
     two (.vshl f) 2 (fun a b => a * 2 ^ (b % w)) ∧ two (.vshr f) 2 (fun a b => a / 2 ^ (b % w)) ∧
     two (.vsra f) 2 (fun a b => zext (sext a w / 2 ^ (b % w)) w) ∧
     two (.vadds f) 2 (fun a b => zext (sat (sext a w + sext b w) w) w) ∧
     two (.vsubs f) 2 (fun a b => zext (sat (sext a w - sext b w) w) w) ∧
     two (.vmulh f) 3 (fun a b => zext (sext a w * sext b w / 2 ^ w) w)) ∧
  ∀ (s : State) (f : VxF) (g : VdF) (h : ViF),
    let c := s.cur
    let w := Fmt.width f.et
    let act := c.active w f.pg
    let v := Fmt.width g.et
    let u := Fmt.width h.et
    let actU := c.active u h.pg
    let m := cvtTo h.et c.c.rm (.ofInt h.imm.toInt 0)
    (Clean s (.vbcast f) → VecGives s (.vbcast f) f.vd 1 w act (fun _ => (c.rx f.x).toNat)) ∧
    (Clean s (.vmovx f) →
      VecGives s (.vmovx f) f.vd 1 w (fun j => act j && (List.range j).all (fun k => !act k)) (fun _ => (c.rx f.x).toNat)) ∧
    (Clean s (.viota g) →
      VecGives s (.viota g) g.vd 1 v (c.active v g.pg) (fun j => (cvtTo g.et .rne (.ofInt (j : Nat) 0)).1)) ∧
    (Clean s (.vli h) → h.et.isFloat = true →
      VecGives s (.vli h) h.vd 1 u actU (fun _ => m.1) (raisedBy (1024 / u) actU (fun _ => m.2))) ∧
    (Clean s (.vli h) → h.et.isFloat = false →
      VecGives s (.vli h) h.vd 1 u actU (fun _ => zext (sat h.imm.toInt u) u))

/-- R150: a compare gives each active element's outcome to its lanes. With a NaN only VCMP.NE and VCMP.UN are true; a
signalling NaN, and any NaN under VCMP.LT and VCMP.LE, is invalid. Integers compare as signed, but in the U forms.
R151, R152: predicate logic on the truth of each active element, and the count and the first place of the elements
true in a predicate and active. -/
def Obligations.ComparesAndPredicates : Prop :=
  (∀ (s : State) (f : VcF), f.et.isVec = true →
     let c := s.cur
     let t := f.et
     let w := Fmt.width t
     let act := c.active w f.pg
     let a := c.el w f.vs1
     let b := c.el w f.vs2
     let x (j : Nat) := (Fmt.fp t).decode (a j)
     let y (j : Nat) := (Fmt.fp t).decode (b j)
     let unord (j : Nat) : Bool := (x j).isNaN || (y j).isNaN
     let sig (j : Nat) : Flags := if (x j).isSig || (y j).isSig then flNV else 0
     let any (j : Nat) : Flags := if unord j then flNV else 0
     let gives (i : Instr) (r : Nat → Bool) (fl : Nat → Flags) : Prop := Clean s i →
       PredGives s i f.pd 2 w act r (raisedBy (1024 / w) act fl)
     let cmp (i : Instr) (nan : Bool) (fl : Nat → Flags) (p : Ordering → Bool) : Prop :=
       (t.isFloat = true → gives i (fun j => if unord j then nan else p ((x j).cmp (y j))) fl) ∧
       (t.isFloat = false → gives i (fun j => p (compare (sext (a j) w) (sext (b j) w))) (fun _ => 0))
     cmp (.vcmpEq f) false sig (· == .eq) ∧ cmp (.vcmpNe f) true sig (· != .eq) ∧
     cmp (.vcmpLt f) false any (· == .lt) ∧ cmp (.vcmpLe f) false any (· != .gt) ∧
     gives (.vcmpUn f) unord sig ∧
     gives (.vcmpLtu f) (fun j => decide (a j < b j)) (fun _ => 0) ∧
     gives (.vcmpLeu f) (fun j => decide (a j ≤ b j)) (fun _ => 0)) ∧
  ∀ (s : State) (f : VpF) (g : VpnF) (h : VpsF) (q : VpxF), f.et.isVec = true → g.et.isVec = true → h.et.isVec = true →
    q.et.isVec = true →
    let c := s.cur
    let two (i : Instr) (r : Bool → Bool → Bool) : Prop := Clean s i →
      PredGives s i f.pd 1 (Fmt.width f.et) (c.active (Fmt.width f.et) f.pg)
        (fun j => r (c.truth (Fmt.width f.et) f.ps1 j) (c.truth (Fmt.width f.et) f.ps2 j))
    let w := Fmt.width q.et
    let counts (j : Nat) : Bool := c.truth w q.ps j && c.active w q.pg j
    let places := (List.range (1024 / w)).filter counts
    two (.vpand f) and ∧ two (.vpor f) or ∧ two (.vpxor f) xor ∧
    (Clean s (.vpnot g) → PredGives s (.vpnot g) g.pd 1 (Fmt.width g.et) (c.active (Fmt.width g.et) g.pg)
      (fun j => !c.truth (Fmt.width g.et) g.ps1 j)) ∧
    (Clean s (.vpset h) → PredGives s (.vpset h) h.pd 1 (Fmt.width h.et) (c.active (Fmt.width h.et) h.pg) (fun _ => true)) ∧
    (Clean s (.vpcnt q) → Gives s (.vpcnt q) s.iss.slot 2 (.x q.x (BitVec.ofNat 64 places.length))) ∧
    (Clean s (.vpfirst q) → Gives s (.vpfirst q) s.iss.slot 2 (.x q.x
      (match places with
       | j :: _ => BitVec.ofNat 64 j
       | [] => BitVec.allOnes 64)))

/-- R153: select and permute, place by place: which source element goes to each place, and which places are written. -/
def Obligations.SelectAndPermute : Prop :=
  ∀ (s : State) (f : VrF) (g : VslF) (h : VuF),
    let c := s.cur
    let w := Fmt.width f.et
    let n := 1024 / w
    let a := c.el w f.vs1
    let b := c.el w f.vs2
    let act := c.active w f.pg
    let gives (i : Instr) (lat : Nat) (sel : Nat → Bool) (r : Nat → Nat) : Prop := Clean s i → VecGives s i f.vd lat w sel r
    let v := Fmt.width g.et
    let m := 1024 / v
    let k := g.amt.toNat
    let u := Fmt.width h.et
    let x := c.el u h.vs1
    let on := c.active u h.pg
    gives (.vsel f) 1 (fun _ => true) (fun j => if act j then a j else b j) ∧
    gives (.vperm f) 3 act (fun j => a (b j % n)) ∧
    gives (.vzip f) 3 act (fun j => if j % 2 = 0 then a (j / 2) else b ((j - 1) / 2)) ∧
    gives (.vunzip f) 3 act (fun j => if j < n / 2 then a (2 * j) else b (2 * j - n)) ∧
    (Clean s (.vslideup g) →
      VecGives s (.vslideup g) g.vd 3 v (fun j => c.active v g.pg j && decide (k ≤ j)) (fun j => c.el v g.vs1 (j - k))) ∧
    (Clean s (.vslidedn g) →
      VecGives s (.vslidedn g) g.vd 3 v (fun j => c.active v g.pg j && decide (j + k < m)) (fun j => c.el v g.vs1 (j + k))) ∧
    (Clean s (.vcompress h) → VecGives s (.vcompress h) h.vd 3 u (fun _ => true)
      (fun j => (((List.range (1024 / u)).filter on).map x).getD j 0)) ∧
    (Clean s (.vexpand h) → VecGives s (.vexpand h) h.vd 3 u on (fun j => x ((List.range j).filter on).length))

/-- R154 to R157: the pairwise tree of the reductions, the running results of the scans, the place of the greatest element,
and one compare-exchange stage, in which every element is written. -/
def Obligations.ReduceScanSort : Prop :=
  ∀ (s : State) (f : VuF) (q : VbtF), f.et.isVec = true → q.et.isVec = true → q.d.toNat < q.et.log2n →
    let c := s.cur
    let t := f.et
    let w := Fmt.width t
    let n := 1024 / w
    let fp := Fmt.fp t
    let act := c.active w f.pg
    let a := c.el w f.vs1
    let first (j : Nat) : Bool := j == 0
    let add (x y : Nat) : Nat × Flags :=
      if t.isFloat then fp.addR c.c.rm (fp.decode x) (fp.decode y) else ((x + y) % 2 ^ w, 0)
    let pick (isMax : Bool) (x y : Nat) : Nat × Flags :=
      if t.isFloat then fp.minMax isMax x y else (if isMax = decide (sext x w < sext y w) then y else x, 0)
    let reduces (i : Instr) (op : Nat → Nat → Nat × Flags) (ident : Nat) : Prop := Clean s i →
      let r := (redAt op act a t.log2n 0).getD (ident, 0)
      VecGives s i f.vd 8 w first (fun _ => r.1) r.2
    let scans (i : Instr) (op : Nat → Nat → Nat × Flags) : Prop := Clean s i →
      let r (j : Nat) := (runAt op act a (j + 1)).getD (0, 0)
      VecGives s i f.vd 10 w act (fun j => (r j).1) (raisedBy n act (fun j => (r j).2))
    let nan (x : Nat) : Bool := t.isFloat && (fp.decode x).isNaN
    let sig (x : Nat) : Bool := t.isFloat && (fp.decode x).isSig
    let best := bestAt (elGt t) (fun j => act j && !nan (a j)) a n
    let v := Fmt.width q.et
    let d := 2 ^ q.d.toNat
    let el := c.el v q.vs1
    let key (j : Nat) : Nat := orderKey q.et (el j)
    let swaps (j : Nat) : Bool := c.active v q.pg j && c.active v q.pg (j + d) &&
      (if j / 2 ^ q.b.toNat % 2 = 0 then decide (key (j + d) < key j) else decide (key j < key (j + d)))
    reduces (.vredsum f) add 0 ∧
    reduces (.vredmax f) (pick true) (if t.isFloat then fp.infBits true else 2 ^ (w - 1)) ∧
    reduces (.vredmin f) (pick false) (if t.isFloat then fp.infBits false else 2 ^ (w - 1) - 1) ∧
    scans (.vscansum f) add ∧ scans (.vscanmax f) (pick true) ∧
    (Clean s (.vargmax f) → VecGives s (.vargmax f) f.vd 8 w first (fun _ => best.getD (2 ^ w - 1))
      (if (List.range n).any (fun j => act j && sig (a j)) then flNV else 0)) ∧
    (Clean s (.vbitonic q) → ∃ r, VecGives s (.vbitonic q) q.vd 2 v (fun _ => true) r ∧
      ∀ j, j < 1024 / v → j / d % 2 = 0 →
        (r j, r (j + d)) = if swaps j then (el (j + d), el j) else (el j, el (j + d)))

/-- R154, R155: over integers a sum reduction is the sum of the active elements, and a scan's element the sum of the
active elements up to it, both modulo the element's range: the tree and the running order do not show. R158 to R160:
products of L6 codes rounded to L6, NaR where a source is; the four exact products of each 32-bit element added to it
with one rounding, a NaN where one is NaR; and the Philox words of a counter and a seed. -/
def Obligations.SumsLogarithmicRandom : Prop :=
  (∀ (s : State) (f : VuF), f.et.isVec = true → f.et.isFloat = false →
     let c := s.cur
     let w := Fmt.width f.et
     let n := 1024 / w
     let act := c.active w f.pg
     let total (j : Nat) : Nat := (((List.range j).filter act).map (c.el w f.vs1)).sum
     (Clean s (.vredsum f) → VecGives s (.vredsum f) f.vd 8 w (fun j => j == 0) (fun _ => total n)) ∧
     (Clean s (.vscansum f) → VecGives s (.vscansum f) f.vd 10 w act (fun j => total (j + 1)))) ∧
  ∀ (s : State) (f : VlF) (g : VrF),
    let c := s.cur
    let rm := c.c.rm
    let a (j : Nat) : Nat := c.el 8 f.vs1 j % 64
    let b (j : Nat) : Nat := c.el 8 f.vs2 j % 64
    let prod (j : Nat) : Nat × Flags :=
      match l6mul (a j) (b j) with
      | none => (0x20, 0)
      | some t => l6Round rm (decide (t < 0)) t.natAbs (-24)
    let terms (j : Nat) : List (Option Int) := [0, 1, 2, 3].map (fun k => l6mul (a (4 * j + k)) (b (4 * j + k)))
    let dot (j : Nat) : Nat × Flags :=
      let x := fp32.decode (c.el 32 f.vd j)
      if x.isNaN || (terms j).any (·.isNone) then (fp32.canonNaN, if x.isSig then flNV else 0)
      else fp32.addR rm x (.ofInt ((terms j).filterMap id).sum (-24))
    let w := Fmt.width g.et
    let seed := (c.rv g.vs1).toNat % 2 ^ 64
    let count := (c.rv g.vs2).toNat % 2 ^ 128
    (Clean s (.vmulL6 f) → VecGives s (.vmulL6 f) f.vd 2 8 (c.active 8 f.pg) (fun j => (prod j).1)
      (raisedBy 128 (c.active 8 f.pg) (fun j => (prod j).2))) ∧
    (Clean s (.vdotL6 f) → VecGives s (.vdotL6 f) f.vd 4 32 (c.active 32 f.pg) (fun j => (dot j).1)
      (raisedBy 32 (c.active 32 f.pg) (fun j => (dot j).2))) ∧
    (Clean s (.vrand g) → VecGives s (.vrand g) g.vd 12 w (c.active w g.pg)
      (fun j => randEl g.et (philox ((count + j * w / 128) % 2 ^ 128) seed / 2 ^ (j * w % 128) % 2 ^ w)))

/-! ### Loads, stores and atomics (R161 to R184) -/

/-- R167: a memory instruction whose access fails a check takes the trap of the first one that fails, with the offset as
TVAL, at a re-issue the one that the slot's first issue gave (R70). Of several elements the trap is that of the lowest active one
that fails any check, with its number in TELEM (R386): that the lowest decides is the model's choice (log 95). That with no element
active the checks of the handle are made all the same is a reading (DEDUCED, log 55), and that VREDST's bound covers 128 bytes the
model's choice (log 85). -/
def Obligations.HandleChecks : Prop :=
  ∀ (s : State) (vm : VmF) (vs : VstF) (sm : VsmF) (ld : LdF) (ls : LsF) (am : AmoF) (sc : AmoScF) (vt : VtxF) (vv : VvF)
      (cm : CmF) (e : BitVec 8),
    let c := s.cur
    let traps (i : Instr) (h : HReg) (spaces : List Nat) (perm : BitVec 8) (align off z : Nat) : Prop :=
      Clean s i → s.refuses h spaces perm align off z = some e → Traps s i e (BitVec.ofNat 64 off)
    let any (i : Instr) (h : HReg) (spaces : List Nat) (perm : BitVec 8) (js : List Nat) (place : Nat → Nat) : Prop :=
      (∀ j ∈ js, Clean s i → (∀ k ∈ js, k < j → s.refuses h spaces perm 4 (place k) 4 = none) →
        s.refuses h spaces perm 4 (place j) 4 = some e → TrapsAt s i e (BitVec.ofNat 64 (place j)) j) ∧
      (js = [] → Clean s i → s.refusesHandle h spaces perm = some e → ∃ v, Traps s i e v)
    let loads (l : Bool) : List Nat := if l then [0, 1, 2, 3, 4, 5] else [0]
    let off (i : Instr) : Nat := (s.offset i).toNat
    let writes : List Nat := [0, 1, 2, 4, 5]
    let amo (i : Instr) : Prop := traps i am.h [0, 1, 2, 5] pRWA 8 (off i) 8
    let on (p : PReg) (n : Nat) : List Nat := (List.range n).filter (c.active 32 p)
    traps (.vld vm) vm.h (loads vm.l) pR 128 (off (.vld vm)) 128 ∧ traps (.vst vs) vs.h writes pW 128 (off (.vst vs)) 128 ∧
    traps (.vstm sm) sm.h writes pW 128 (off (.vstm sm)) 128 ∧ traps (.ld ld) ld.h (loads ld.l) pR 8 (off (.ld ld)) 8 ∧
    traps (.st ls) ls.h writes pW 8 (off (.st ls)) 8 ∧ traps (.ldSc ls) ls.h [2] pR 8 (off (.ldSc ls)) 8 ∧
    traps (.stSc ls) ls.h [2] pW 8 (off (.stSc ls)) 8 ∧
    amo (.amoadd am) ∧ amo (.amomin am) ∧ amo (.amomax am) ∧ amo (.amominu am) ∧ amo (.amomaxu am) ∧ amo (.amoand am) ∧
    amo (.amoor am) ∧ amo (.amoxor am) ∧ amo (.amoswap am) ∧ amo (.amocas am) ∧
    traps (.amoSc sc) sc.h [2] pRWA 8 (off (.amoSc sc)) 8 ∧
    traps (.lda vt) vt.h writes pR 8 (off (.lda vt)) 8 ∧ traps (.stl vt) vt.h writes pW 8 (off (.stl vt)) 8 ∧
    traps (.cflush vt) vt.h writes pR 1 (off (.cflush vt)) (c.rx vt.x).toNat ∧
    traps (.vredst vv) vv.h [0, 1, 2, 5] pRWA 128 (off (.vredst vv)) 128 ∧
    traps (.cldh cm) cm.hb [0, 1, 2] 0x09 32 (off (.cldh cm)) 32 ∧ traps (.csth cm) cm.hb [0, 1, 2] 0x12 32 (off (.csth cm)) 32 ∧
    any (.vgather vm) vm.h (loads vm.l) pR (List.range 32) (s.spots vm.xi (if vm.l then 0 else 16 * vm.imm.toInt)) ∧
    any (.vscatter sm) sm.h writes pW (on sm.pg 32) (s.spots sm.xi 0) ∧
    any (.vamoadd vv) vv.h [0, 1, 2, 5] pRWA (on vv.pg 32) (s.spots vv.vi 0) ∧
    any (.vamomin vv) vv.h [0, 1, 2, 5] pRWA (on vv.pg 32) (s.spots vv.vi 0) ∧
    any (.vamomax vv) vv.h [0, 1, 2, 5] pRWA (on vv.pg 32) (s.spots vv.vi 0)

/-- R70, R173, R174, R181: under L = 0 a load takes its bytes from SPAD, due after three boundaries; under L = 1 it leaves a
landing entry whose count is its immediate and whose pieces are the units of R263: all of a VLD, its doublewords in HOST or
PEER (DEDUCED, log 96: R175 speaks of all 128 bytes), each element of a VGATHER. LD.SC's entry carries its rank. A load of SPAD under
L = 1 has its data at once: the entry holds the bytes of its pieces, where no earlier store of the task still writes them, and marks each
doubleword that takes a marked byte; one that the core's entry does not admit holds a free value and marks all of them (R345, R346,
R428). -/
def Obligations.HandleLoads : Prop :=
  ∀ (s : State) (f : VmF) (g : LdF) (q : LsF),
    let c := s.cur
    let vo := (s.offset (.vld f)).toNat
    let lo := (s.offset (.ld g)).toNat
    let qo := (s.offset (.ldSc q)).toNat
    let go := s.spots f.xi (if f.l then 0 else 16 * f.imm.toInt)
    let goes := (List.range 32).map go
    let unit := if capSpace (c.rh f.h) = spHost ∨ capSpace (c.rh f.h) = spPeer then 8 else 128
    let vsrc : List (Nat × Nat × Nat) := (List.range (128 / unit)).map (fun k => (unit * k, capBase (c.rh f.h) + vo + unit * k, unit))
    let lsrc : List (Nat × Nat × Nat) := [(0, capBase (c.rh g.h) + lo, 8)]
    let gsrc : List (Nat × Nat × Nat) := (List.range 32).map (fun j => (4 * j, capBase (c.rh f.h) + go j, 4))
    let all : List Nat := [0, 1, 2, 3, 4, 5]
    let ones := BitVec.allOnes 1024
    let low : Vec := BitVec.ofNat 1024 (2 ^ 64 - 1)
    let own (e : Nat × Nat × Nat) (k : Nat) : Nat := mkey .spad s.iss.core (e.2.1 + k)
    let lands (i : Instr) (h : HReg) (rem : Nat) (dest : LoadDest) (srcs : List (Nat × Nat × Nat)) (mask : Vec) : Prop :=
      (capSpace (c.rh h) ≠ spSpad → Lands s i rem dest (c.rh h) srcs mask none) ∧
      (capSpace (c.rh h) = spSpad → (16 ≤ c.t.landing.length → Traps s i 0x27 0) ∧
        (c.t.landing.length < 16 → ∃ t l, exec i s = .next t ∧ t.mem = s.mem ∧ t.tags = s.tags ∧ t.marks = s.marks ∧
          t.iss = s.iss ∧ t.cur.r = c.r ∧ t.cur.t.pend = c.t.pend ∧ t.cur.t.landing = c.t.landing ++ [l] ∧ l.rem = rem ∧
          l.dest = dest ∧ l.srcs = srcs ∧ l.mask = mask ∧ l.sampled = true ∧ l.arrived = true ∧
          (s.iss.core < 768 → s.spadOk s.iss.core = true →
            (∀ e ∈ srcs, ∀ k, k < e.2.2 → s.forward s.iss.core c.m.nextId (own e k) = none) →
            (∀ e ∈ srcs, ∀ k, k < e.2.2 → byteOf l.data (e.1 + k) = (s.readByte s.iss.core 3 (own e k)).1) ∧
            ∀ d, d < 16 → l.marks.getLsbD d = srcs.any (fun e => (List.range e.2.2).any (fun k =>
              (e.1 + k) / 8 == d && (s.readByte s.iss.core 3 (own e k)).2))) ∧
          (s.iss.core < 768 → s.spadOk s.iss.core = false →
            (∀ e ∈ srcs, ∀ k, k < e.2.2 → byteOf l.data (e.1 + k) = fld (Config.freeWord s.free) (8 * (k % 128)) 8) ∧
            ∀ d, d < 16 → l.marks.getLsbD d = srcs.any (fun e => (List.range e.2.2).any (fun k => (e.1 + k) / 8 == d)))))
    (Clean s (.vld f) → f.l = false → s.refuses f.h [0] pR 128 vo 128 = none →
      LoadsVec s (.vld f) f.vt (c.rh f.h) (fun k => vo + k)) ∧
    (Clean s (.vgather f) → f.l = false → s.refusesAny f.h [0] pR 4 goes 4 = none →
      LoadsVec s (.vgather f) f.vt (c.rh f.h) (fun k => go (k / 4) + k % 4)) ∧
    (Clean s (.ld g) → g.l = false → s.refuses g.h [0] pR 8 lo 8 = none → ∃ v : DWord,
      (s.spadOk s.iss.core = true →
        Gives s (.ld g) s.iss.slot 3
          (if (List.range 8).any (fun b => (s.spadByte (c.rh g.h) (lo + b)).2) then .xMarked g.xt v else .x g.xt v) ∧
        ∀ k, k < 8 → byteOf v k = (s.spadByte (c.rh g.h) (lo + k)).1) ∧
      (s.spadOk s.iss.core = false → ∃ t : State, t.mem = s.mem ∧ t.tags = s.tags ∧ t.marks = s.marks ∧
        exec (.ld g) s = .next (t.setCur (c.push (mkPend s.iss.slot 3 (.xMarked g.xt v)))))) ∧
    (Clean s (.vld f) → f.l = true → s.refuses f.h all pR 128 vo 128 = none →
      lands (.vld f) f.h f.imm.toNat (.v (c.pv f.vt)) vsrc ones) ∧
    (Clean s (.vgather f) → f.l = true → s.refusesAny f.h all pR 4 goes 4 = none →
      lands (.vgather f) f.h f.imm.toNat (.v (c.pv f.vt)) gsrc ones) ∧
    (Clean s (.ld g) → g.l = true → s.refuses g.h all pR 8 lo 8 = none →
      lands (.ld g) g.h g.imm.toNat (.x g.xt) lsrc low) ∧
    (Clean s (.ldSc q) → s.refuses q.h [2] pR 8 qo 8 = none →
      Lands s (.ldSc q) q.imm.toNat (.x q.xt) (c.rh q.h) [(0, capBase (c.rh q.h) + qo, 8)] low
        (some (c.m.scRank.getD s.wheel)))

/-- R165, R174, R179, R181, R263: a store writes its bytes, the lowest first, to SPAD at once, and elsewhere leaves an access:
all 128 bytes of VST, the lanes of VSTM, the active elements of VSCATTER, in element order. Bytes of one unit move together: all
of a VST or VSTM, but eight in HOST and PEER (DEDUCED, log 96); an element of a VSCATTER; a doubleword. STL is a release at its scope and
ST.SC at package scope with its rank. That a VSCATTER with no element active leaves no access is the model's choice (DESIGN CHOICE, log 94;
R174 says it of VSTM), and that a store carries the widest of its own release and the fences' before it a reading (DEDUCED, log 51). -/
def Obligations.HandleStores : Prop :=
  ∀ (s : State) (f : VstF) (g : VsmF) (q : LsF) (r : VtxF), s.Ok →
    let c := s.cur
    let w : List Nat := [0, 1, 2, 4, 5]
    let fo := (s.offset (.vst f)).toNat
    let go := (s.offset (.vstm g)).toNat
    let qo := (s.offset (.st q)).toNat
    let co := (s.offset (.stSc q)).toNat
    let ro := (s.offset (.stl r)).toNat
    let els := (List.range 32).filter (c.active 32 g.pg)
    let spot := s.spots g.xi 0
    let vec (v : Vec) (off : Nat) (l : List Nat) : List (Nat × Byte) := l.map (fun k => (off + k, byteOf v k))
    let word (x : XReg) (off : Nat) : List (Nat × Byte) := (List.range 8).map (fun k => (off + k, byteOf (c.rx x) k))
    let unit (h : HReg) : Nat := if capSpace (c.rh h) = spHost ∨ capSpace (c.rh h) = spPeer then 8 else 128
    (Clean s (.vst f) → s.refuses f.h w pW 128 fo 128 = none →
      Stores s (.vst f) f.h fo (vec (c.rv f.vt) fo (List.range 128)) (unit f.h)) ∧
    (Clean s (.vstm g) → s.refuses g.h w pW 128 go 128 = none →
      Stores s (.vstm g) g.h go (vec (c.rv g.vt) go ((List.range 128).filter (c.active 8 g.pg))) (unit g.h)) ∧
    (Clean s (.vscatter g) → s.refusesLive g.h w pW 4 (els.map spot) 4 = none →
      Stores s (.vscatter g) g.h (spot (els.headD 0))
        (els.flatMap (fun j => (List.range 4).map (fun k => (spot j + k, byteOf (c.rv g.vt) (4 * j + k))))) 4) ∧
    (Clean s (.st q) → s.refuses q.h w pW 8 qo 8 = none → Stores s (.st q) q.h qo (word q.xt qo) 8) ∧
    (Clean s (.stl r) → s.refuses r.h w pW 8 ro 8 = none → Stores s (.stl r) r.h ro (word r.x ro) 8 (rel := some r.scope)) ∧
    (Clean s (.stSc q) → s.refuses q.h [2] pW 8 co 8 = none →
      Stores s (.stSc q) q.h co (word q.xt co) 8 (rel := some .package) (acq := some .package)
        (rank := some (c.m.scRank.getD s.wheel)))

/-- R178, R181, R266: a scalar atomic outside SPAD is an access with its operation and operands, the acquire and the
release of its ORD at its scope; AMO.SC adds at package scope with its rank. In SPAD it happens at once: the old value
reaches the register after three boundaries and the eight bytes hold the operation's result, every other byte of
memory as before, but that an acquire at domain scope writes back what the slice owes, a store whose link refuses that being
refused (R254, R423); a poisoned granule (R430) is left
as it is and marks the register; where the core's entry does not admit the task nothing is applied and 0x28 is deferred (R346).
R182 to R184: a vector atomic
outside SPAD is one access over its active elements, at the offsets of its index vector or, for VREDST, at consecutive
words. In SPAD, where no active element is poisoned and their words are distinct, each word takes its operation's
result and VAMO returns the old words to VT after three boundaries; VREDST returns none. With a poisoned element or words that
coincide it is carried out all the same, without a trap at issue. The offset is that of the slot's first issue (R70). That an atomic
carries the widest of its own release and the fences' before it is a reading (DEDUCED, log 51). -/
def Obligations.Atomics : Prop :=
  (∀ (s : State) (f : AmoF) (g : AmoScF), s.Ok →
     let c := s.cur
     let src := c.rx f.xs
     let cmp := c.rx f.xd
     let cap := c.rh f.h
     let smaller (a b : DWord) : DWord := if a.toInt < b.toInt then a else b
     let greater (a b : DWord) : DWord := if a.toInt < b.toInt then b else a
     let acquires : Bool := f.ord = .acquire ∨ f.ord = .acqRel
     let kept (a : Nat) : Prop := acquires = true → f.scope = .domain → s.owes a = false
     let amo (i : Instr) (op : AmoOp) (new : DWord → DWord) : Prop :=
       let off := (s.offset i).toNat
       let key := mkey .spad s.iss.core (capBase cap + off)
       Clean s i → s.refuses f.h [0, 1, 2, 5] pRWA 8 off 8 = none →
         (capSpace cap ≠ spSpad → Queues s i
           { s.mkAccess (.amo op f.xd src cmp) cap off with
             acq := if f.ord = .acquire ∨ f.ord = .acqRel then some f.scope else none
             rel := if f.ord = .release ∨ f.ord = .acqRel then some f.scope else none
             carries := if f.ord = .release ∨ f.ord = .acqRel then some (scopeWider f.scope c.m.relFence) else c.m.relFence }) ∧
         (capSpace cap = spSpad → s.spadOk s.iss.core = false → DropsSpad s i (capBase cap + off)) ∧
         (capSpace cap = spSpad → s.spadOk s.iss.core = true → s.marked key 8 = false → ∃ t old, exec i s = .next t ∧
           (∀ k, k < 8 → byteOf old k = s.byte (key + k)) ∧
           (∀ k, k < 8 → kept (key + k) → t.byte (key + k) = byteOf (new old) k) ∧
           (∀ a, a < key ∨ key + 8 ≤ a → kept a → t.byte a = s.byte a) ∧ t.iss = s.iss ∧ t.cur.r = c.r ∧
           t.cur.t.pend = c.t.pend ++ [mkPend s.iss.slot 3 (.x f.xd old)] ∧
           ((acquires = true → f.scope = .domain → s.owesOpen (clusterOf s.iss.core) = true) →
             t.cur.m.accs = c.m.accs ∧ t.cur.deferred = c.deferred)) ∧
         (capSpace cap = spSpad → s.spadOk s.iss.core = true → s.marked key 8 = true →
           (f.xd ≠ 0 → exec i s = .next (s.setCur (c.push (mkPend s.iss.slot 3 (.xMarked f.xd cmp))))) ∧
           (f.xd = 0 → ∃ d, exec i s = .next (s.setCur { c with deferred := c.deferred ++ [d] }) ∧
             d.cause = 0xA0 ∧ d.tval = BitVec.ofNat 64 off ∧ d.kind = .deferred))
     let go := (s.offset (.amoSc g)).toNat
     amo (.amoadd f) .add (fun o => o + src) ∧ amo (.amomin f) .min (fun o => smaller o src) ∧
     amo (.amomax f) .max (fun o => greater o src) ∧ amo (.amominu f) .minu (fun o => if o.toNat < src.toNat then o else src) ∧
     amo (.amomaxu f) .maxu (fun o => if o.toNat < src.toNat then src else o) ∧ amo (.amoand f) .and (fun o => o &&& src) ∧
     amo (.amoor f) .or (fun o => o ||| src) ∧ amo (.amoxor f) .xor (fun o => o ^^^ src) ∧
     amo (.amoswap f) .swap (fun _ => src) ∧ amo (.amocas f) .cas (fun o => if o = cmp then src else o) ∧
     (Clean s (.amoSc g) → s.refuses g.h [2] pRWA 8 go 8 = none → Queues s (.amoSc g)
       { s.mkAccess (.amo .add g.xd (c.rx g.xs) (c.rx g.xd)) (c.rh g.h) go with
         acq := some .package, rel := some .package, carries := some (scopeWider .package c.m.relFence)
         rank := some (c.m.scRank.getD s.wheel) })) ∧
  ∀ (s : State) (f : VvF), s.Ok →
    let c := s.cur
    let rm := c.c.rm
    let cap := c.rh f.h
    let act := (List.range 32).filter (c.active 32 f.pg)
    let d := c.el 32 f.vt
    let start := (s.offset (.vredst f)).toNat
    let acquires : Bool := f.ord = .acquire ∨ f.ord = .acqRel
    let kept (a : Nat) : Prop := acquires = true → f.scope = .domain → s.owes a = false
    let vec (i : Instr) (op : VamoOp) (at' : Nat → Nat) (back : Bool) (new : Nat → Nat → Nat) : Prop :=
      let key (j : Nat) : Nat := mkey .spad s.iss.core (capBase cap + at' j)
      (capSpace cap ≠ spSpad → ∃ m : BitVec 32, (∀ j, j < 32 → m.getLsbD j = c.active 32 f.pg j) ∧ Queues s i
        { s.mkAccess (.vamo op (c.pv f.vt) m ((List.range 32).map at') (c.rv f.vt) 0 rm) cap (at' (act.headD 0)) with
          acq := if f.ord = .acquire ∨ f.ord = .acqRel then some f.scope else none
          rel := if f.ord = .release ∨ f.ord = .acqRel then some f.scope else none
          carries := if f.ord = .release ∨ f.ord = .acqRel then some (scopeWider f.scope c.m.relFence) else c.m.relFence }) ∧
      (capSpace cap = spSpad → ∃ t, exec i s = .next t ∧ t.iss = s.iss ∧ t.cur.r = c.r) ∧
      (capSpace cap = spSpad → s.spadOk s.iss.core = false → act ≠ [] → ∃ t tr, exec i s = .next t ∧ t.mem = s.mem ∧
        t.tags = s.tags ∧ t.marks = s.marks ∧ t.cur = { c with deferred := c.deferred ++ [tr] } ∧ tr.cause = 0x28 ∧
        tr.tval = BitVec.ofNat 64 (at' (act.headD 0)) ∧ tr.elem = act.headD 0 ∧ tr.replay.isSome = true) ∧
      (capSpace cap = spSpad → s.spadOk s.iss.core = true → (∀ j ∈ act, s.marked (key j) 4 = false) → (act.map at').Nodup →
        (∀ j ∈ act, at' j % 4 = 0) →
        ∃ t mask old, exec i s = .next t ∧ t.iss = s.iss ∧ t.cur.r = c.r ∧
          (∀ j ∈ act, (∀ k, k < 4 → kept (key j + k)) → t.nat (key j) 4 = new (s.nat (key j) 4) (d j) % 2 ^ 32) ∧
          (∀ a, (∀ j ∈ act, a < key j ∨ key j + 4 ≤ a) → kept a → t.byte a = s.byte a) ∧
          t.cur.t.pend = c.t.pend ++ (if back then [mkPend s.iss.slot 3 (.v (c.pv f.vt) mask old)] else []) ∧
          ∀ (was : Vec) (j : Nat), j < 32 →
            elemOf 32 (merge mask old was).toNat j = if c.active 32 f.pg j then s.nat (key j) 4 else elemOf 32 was.toNat j)
    let amo (i : Instr) (op : VamoOp) (new : Nat → Nat → Nat) : Prop :=
      Clean s i → s.refusesLive f.h [0, 1, 2, 5] pRWA 4 (act.map (s.spots f.vi 0)) 4 = none →
        vec i op (s.spots f.vi 0) true new
    amo (.vamoadd f) .add (fun o x => o + x) ∧ amo (.vamomin f) .min (fun o x => if sext o 32 < sext x 32 then o else x) ∧
    amo (.vamomax f) .max (fun o x => if sext o 32 < sext x 32 then x else o) ∧
    (Clean s (.vredst f) → s.refuses f.h [0, 1, 2, 5] pRWA 128 start 128 = none →
      vec (.vredst f) .redst (fun j => start + 4 * j) false (fun o x => (fp32.addR rm (fp32.decode o) (fp32.decode x)).1))

/-- R176, R179, R180, R115: LDA reads SPAD in three boundaries and elsewhere leaves an access that acquires at its scope and
counts in no class; a VFENCE, and FENCE at package scope with both orders, is placed behind the task's accesses, and one that
orders nothing is forgotten. Once the loads before an acquiring fence of domain scope have their data the HOST and PEER copies
go (R254, R272), what they owe being written back; a store whose link refuses that is refused (R423). CFLUSH of some bytes outside SPAD leaves an access, else nothing; VPREF never
traps after the handle's first three checks and leaves every register and byte of memory as they are, but that a line which
makes room is written back. The offset of LDA and CFLUSH is that of the slot's first issue (R70). That the stores after several
releasing fences carry the widest of their scopes is a reading (DEDUCED, log 51). -/
def Obligations.FencesAndFlushes : Prop :=
  ∀ (s : State) (r : VtxF) (v : VfenceF) (n : FenceF) (p : VprefF), s.Ok →
    let c := s.cur
    let off := (s.offset (.lda r)).toNat
    let fo := (s.offset (.cflush r)).toNat
    let cap := c.rh r.h
    let len := (c.rx r.x).toNat
    let w : List Nat := [0, 1, 2, 4, 5]
    let fenced (ord : Ord) (sc : Scope) : Core :=
      { c with
        c := { c.c with narrow := c.c.narrow || ((ord == .acquire || ord == .acqRel) && narrows s.iss.core sc c.m.seen) }
        m := { c.m with
          fences := c.m.fences ++ [{ id := c.m.nextId, ord := ord, scope := sc, far := (ord == .acquire || ord == .acqRel) && sc == .domain }]
          nextId := c.m.nextId + 1
          relFence := if ord = .release ∨ ord = .acqRel then some (scopeWider sc c.m.relFence) else c.m.relFence } }
    (Clean s (.lda r) → s.refuses r.h w pR 8 off 8 = none →
      (capSpace cap ≠ spSpad → Queues s (.lda r)
        { s.mkAccess (.lda r.x) cap off with acq := some r.scope, carries := none, counted := false }) ∧
      (capSpace cap = spSpad → s.spadOk s.iss.core = false → ∃ t v, exec (.lda r) s = .next t ∧
        KeepsMemory s t (fun a => r.scope == .domain && s.owes a) ∧ t.iss = s.iss ∧ t.cur.r = c.r ∧
        t.cur.t.pend = c.t.pend ++ [mkPend s.iss.slot 3 (.xMarked r.x v)]) ∧
      (capSpace cap = spSpad → s.spadOk s.iss.core = true → ∃ t v, exec (.lda r) s = .next t ∧
        KeepsMemory s t (fun a => r.scope == .domain && s.owes a) ∧ t.iss = s.iss ∧ t.cur.r = c.r ∧
        (∀ k, k < 8 → byteOf v k = (s.spadByte cap (off + k)).1) ∧
        t.cur.t.pend = c.t.pend ++ [mkPend s.iss.slot 3
          (if (List.range 8).any (fun b => (s.spadByte cap (off + b)).2) then .xMarked r.x v else .x r.x v)])) ∧
    (Clean s (.cflush r) → s.refuses r.h w pR 1 fo len = none →
      (len = 0 ∨ capSpace cap = spSpad → exec (.cflush r) s = .next s) ∧
      (len ≠ 0 → capSpace cap ≠ spSpad →
        Queues s (.cflush r) { s.mkAccess (.cflush len r.scope) cap fo with carries := none })) ∧
    (Clean s (.fence n) → FallsThrough s (.fence n) (fenced .acqRel .package)) ∧
    (Clean s (.vfence v) →
      let m := fenced v.ord v.scope
      let ripe : Bool := m.m.fences.any (fun g => g.far && m.loaded g)
      (ripe = false → FallsThrough s (.vfence v) m.dropFences) ∧
      (ripe = true → ∃ t, exec (.vfence v) s = .next t ∧ KeepsMemory s t s.owes ∧ t.iss = s.iss ∧ t.cur.r = c.r ∧ t.cur.t = c.t ∧
        t.cur.c = m.c ∧ (s.owesOpen (clusterOf s.iss.core) = true → t.cur.m.accs = c.m.accs) ∧ t.cur.m.relFence = m.m.relFence ∧
        (∀ l ∈ t.cur.m.l1, keySpace l.key = 0) ∧
        ∀ e ∈ t.dev.ms.lines, e.1 = clusterOf s.iss.core → keySpace e.2.key = 0)) ∧
    (Clean s (.vpref p) → (s.refuses p.h [0, 1, 2, 3, 4, 5] 0 1 0 0 = none ∨
        ∃ e, s.refuses p.h [0, 1, 2, 3, 4, 5] 0 1 0 0 = some e ∧ e ≠ 0x20 ∧ e ≠ 0x21 ∧ e ≠ 0x22) →
      ∃ t, exec (.vpref p) s = .next t ∧ KeepsMemory s t s.owes ∧ t.iss = s.iss ∧
        t.cur.r = c.r ∧ t.cur.t = c.t ∧ (s.owesOpen (clusterOf s.iss.core) = true → t.cur.deferred = c.deferred)) ∧
    (Clean s (.vpref p) → ∀ e, s.refuses p.h [0, 1, 2, 3, 4, 5] 0 1 0 0 = some e → e = 0x20 ∨ e = 0x21 ∨ e = 0x22 →
      Traps s (.vpref p) e (BitVec.ofNat 64 (s.offset (.vpref p)).toNat))

/-- R57, R161, R167, R173, R174, R178 to R184, R231, R243: every event and every operation ends in a next state. An operation on
memory, a capability, a barrier object or a job takes no trap at its issue where no register that it reads is poisoned, its
handle, its offset and the core's entry admit it, a landing load finds a free entry, a SPAD atomic meets no mark, and a job's card and
the handles that it names pass their checks: that is when its own effect takes place. -/
def Obligations.MemoryFormsComplete : Prop :=
  (∀ (s : State) (i : Instr), ∃ t, exec i s = .next t) ∧
  ∀ (s : State), s.Ok →
    let c := s.cur
    let x (r : XReg) : Nat := (c.rx r).toNat % 2 ^ 48
    let off (i : Instr) : Nat := (s.offset i).toNat
    let w : List Nat := [0, 1, 2, 4, 5]
    let on (p : PReg) : List Nat := (List.range 32).filter (c.active 32 p)
    let admits (h : HReg) : Prop := capSpace (c.rh h) = spSpad → s.spadOk s.iss.core = true
    let room (l : Bool) : Prop := l = true → c.t.landing.length < 16
    let reads (l : Bool) : List Nat := if l then [0, 1, 2, 3, 4, 5] else [0]
    let done (i : Instr) : Prop := ∃ t, exec i s = .next t ∧ t.iss.raised = s.iss.raised
    let when_ (i : Instr) (h : HReg) (spaces : List Nat) (perm : BitVec 8) (al o z : Nat) (p : Prop) : Prop :=
      Clean s i → s.refuses h spaces perm al o z = none → admits h → p → done i
    let whole (i : Instr) (h : HReg) (o z : Nat) : Prop :=
      when_ i h [0, 1, 2, 5] pRWA (if z = 128 then 128 else 8) o z
        (capSpace (c.rh h) = spSpad → s.marked (mkey .spad s.iss.core (capBase (c.rh h) + o)) z = false)
    let each (i : Instr) (h : HReg) (spaces : List Nat) (perm : BitVec 8) (offs : List Nat) (p : Prop) : Prop :=
      Clean s i → s.refusesLive h spaces perm 4 offs 4 = none → admits h → p → done i
    let clear (h : HReg) (offs : List Nat) : Prop := capSpace (c.rh h) = spSpad →
      ∀ o ∈ offs, s.marked (mkey .spad s.iss.core (capBase (c.rh h) + o)) 4 = false
    let own (h : HReg) (o : Nat) : Prop := (capBase (c.rh h) + o) / 2 ^ 25 % 1024 = s.pkgId.toNat
    let ob (h : HReg) (o : Nat) : Prop := s.refuses h [6] 0x40 64 o 64 = none
    (∀ f : VmF, when_ (.vld f) f.h (reads f.l) pR 128 (off (.vld f)) 128 (room f.l) ∧
      each (.vgather f) f.h (reads f.l) pR ((List.range 32).map (s.spots f.xi (if f.l then 0 else 16 * f.imm.toInt))) (room f.l)) ∧
    (∀ f : LdF, when_ (.ld f) f.h (reads f.l) pR 8 (off (.ld f)) 8 (room f.l)) ∧
    (∀ f : VstF, when_ (.vst f) f.h w pW 128 (off (.vst f)) 128 True) ∧
    (∀ f : VsmF, when_ (.vstm f) f.h w pW 128 (off (.vstm f)) 128 True ∧
      each (.vscatter f) f.h w pW ((on f.pg).map (s.spots f.xi 0)) True) ∧
    (∀ f : LsF, when_ (.st f) f.h w pW 8 (off (.st f)) 8 True ∧ when_ (.stSc f) f.h [2] pW 8 (off (.stSc f)) 8 True ∧
      when_ (.ldSc f) f.h [2] pR 8 (off (.ldSc f)) 8 (room true)) ∧
    (∀ f : AmoF, whole (.amoadd f) f.h (off (.amoadd f)) 8 ∧ whole (.amomin f) f.h (off (.amomin f)) 8 ∧ whole (.amomax f) f.h (off (.amomax f)) 8 ∧
      whole (.amominu f) f.h (off (.amominu f)) 8 ∧ whole (.amomaxu f) f.h (off (.amomaxu f)) 8 ∧ whole (.amoand f) f.h (off (.amoand f)) 8 ∧
      whole (.amoor f) f.h (off (.amoor f)) 8 ∧ whole (.amoxor f) f.h (off (.amoxor f)) 8 ∧ whole (.amoswap f) f.h (off (.amoswap f)) 8 ∧
      whole (.amocas f) f.h (off (.amocas f)) 8) ∧
    (∀ f : AmoScF, when_ (.amoSc f) f.h [2] pRWA 8 (off (.amoSc f)) 8 True) ∧
    (∀ f : VtxF, when_ (.lda f) f.h w pR 8 (off (.lda f)) 8 True ∧ when_ (.stl f) f.h w pW 8 (off (.stl f)) 8 True ∧
      when_ (.cflush f) f.h w pR 1 (off (.cflush f)) (c.rx f.x).toNat True) ∧
    (∀ f : VvF, each (.vamoadd f) f.h [0, 1, 2, 5] pRWA ((on f.pg).map (s.spots f.vi 0)) (clear f.h ((on f.pg).map (s.spots f.vi 0))) ∧
      each (.vamomin f) f.h [0, 1, 2, 5] pRWA ((on f.pg).map (s.spots f.vi 0)) (clear f.h ((on f.pg).map (s.spots f.vi 0))) ∧
      each (.vamomax f) f.h [0, 1, 2, 5] pRWA ((on f.pg).map (s.spots f.vi 0)) (clear f.h ((on f.pg).map (s.spots f.vi 0))) ∧
      whole (.vredst f) f.h (off (.vredst f)) 128) ∧
    (∀ f : CmF, when_ (.cldh f) f.hb [0, 1, 2] 0x09 32 (off (.cldh f)) 32 True ∧
      when_ (.csth f) f.hb [0, 1, 2] 0x12 32 (off (.csth f)) 32 True) ∧
    (∀ f : CnF, Clean s (.cnarrow f) → s.refuses f.hb [0, 1, 2, 3, 4, 5, 6] 0x80 1 0 0 = none →
      (c.rx f.xa).toNat < 2 ^ 48 → (c.rx f.xb).toNat < 2 ^ 48 → (c.rx f.xa).toNat + (c.rx f.xb).toNat ≤ capLen (c.rh f.hb) →
      done (.cnarrow f)) ∧
    (∀ f : CgF, Clean s (.cget f) → done (.cget f)) ∧ (∀ f : CvF, Clean s (.cmov f) → done (.cmov f)) ∧
    (∀ h : HReg, Clean s (.cclr h) → done (.cclr h)) ∧
    (∀ f : BinitF, Clean s (.binit f) → ob f.hb (x f.xa) → own f.hb (x f.xa) → done (.binit f)) ∧
    (∀ f : BlinkF, Clean s (.blink f) → ob f.hb (x f.xa) → own f.hb (x f.xa) → ob f.ha (x f.xb) → done (.blink f)) ∧
    (∀ f : BarF, Clean s (.barrive f) → ob f.hb (x f.xa) → own f.hb (x f.xa) → done (.barrive f)) ∧
    (∀ f : BarF, Clean s (.bwaitp f) → ob f.hb (x f.xa) → own f.hb (x f.xa) →
      (s.bar (capBase (c.rh f.hb) + x f.xa)).act = true → done (.bwaitp f)) ∧
    (∀ f : FenceF, Clean s (.fence f) → done (.fence f)) ∧ (∀ f : VfenceF, Clean s (.vfence f) → done (.vfence f)) ∧
    (∀ f : VprefF, Clean s (.vpref f) → s.refuses f.h [0, 1, 2, 3, 4, 5] 0 1 0 0 = none → done (.vpref f)) ∧
    (∀ f : CjF,
      let card (i : Instr) : BitVec 512 := s.cardAt c f.h (off i)
      let fetches (i : Instr) : Prop := Clean s i ∧ s.refuses f.h [0] pR 64 (off i) 64 = none ∧ s.cardMarks c f.h (off i) = []
      (fetches (.cjob f) → s.handlePoison (cardHandles (card (.cjob f)) false) = none →
        s.checkCopyCard (some s.iss.core) (capCtx (c.rh 0)) (card (.cjob f)) (taskHandles c) (off (.cjob f)) = .ok () → done (.cjob f)) ∧
      (fetches (.cwpe f) → s.handlePoison (cardHandles (card (.cwpe f)) true) = none →
        s.checkWpeCard s.iss.core (capCtx (c.rh 0)) (card (.cwpe f)) (taskHandles c) (off (.cwpe f)) = .ok () → done (.cwpe f))) ∧
    (∀ f : CjvF, Clean s (.cjobv f) → s.handlePoison (cardHandles ((c.rv f.vs).setWidth 512) false) = none →
      s.checkCopyCard (some s.iss.core) (capCtx (c.rh 0)) ((c.rv f.vs).setWidth 512) (taskHandles c) 0 = .ok () → done (.cjobv f)) ∧
    (∀ f : CsF, when_ (.csignal f) f.h [0, 1, 2] pW 8 (x f.xa) 8 True) ∧
    (∀ f : CqF, Clean s (.cquery f) → done (.cquery f)) ∧ (∀ r : XReg, Clean s (.ccancel r) → done (.ccancel r)) ∧
    (Clean s .cfence → done .cfence)

/-! ### Capabilities, barriers, jobs and transforms (R168 to R172, R231 to R248, R281 to R288) -/

/-- R168 to R172: CLDH gives 32 bytes and their tag, from SPAD after three boundaries and else through an access; CSTH writes
both in one write, the tag where the bytes are one granule; where the core's entry does not admit the task CLDH gives a marked
free value without a tag, and CSTH writes nothing (R346); CNARROW gives narrower bounds and a subset of the permissions, or its
bound fault; CGET gives a field of its selector; CMOV copies a capability and CCLR gives none. R279, R281 to R286: BINIT, BLINK
and BARRIVE on an object of this package leave a request with its unit, counted in CNT.ST. BWAITP on an active object gives the
status word once the object differs from its token, bit 63 set where the generation does; a wait whose object is not active
takes the barrier-misuse trap. A handle or package that is not right traps. R412: an object in another package takes 0x21, but
for BLINK's parent; that the handle's checks come first is the model's reading (log 44). -/
def Obligations.CapabilitiesAndBarriers : Prop :=
  (∀ (s : State) (f : CmF) (n : CnF) (g : CgF) (m : CvF) (ha : HReg), s.Ok →
     let c := s.cur
     let cap := c.rh f.hb
     let lo := (s.offset (.cldh f)).toNat
     let so := (s.offset (.csth f)).toNat
     let lkey := mkey .spad s.iss.core (capBase cap + lo)
     let skey := mkey .spad s.iss.core (capBase cap + so)
     let old := c.rh n.hb
     let a := c.rx n.xa
     let l := c.rx n.xb
     let fits : Prop := a.toNat < 2 ^ 48 ∧ l.toNat < 2 ^ 48 ∧ a.toNat + l.toNat ≤ capLen old
     let q := c.rh g.hb
     let part (lo n : Nat) : DWord := BitVec.ofNat 64 (q.toNat / 2 ^ lo % 2 ^ n)
     (Clean s (.cldh f) → s.refuses f.hb [0, 1, 2] 0x09 32 lo 32 = none →
       (capSpace cap = spSpad → s.spadOk s.iss.core = true → ∃ (v : Cap) (tag : Bool),
         (∀ k, k < 32 → byteOf v k = s.byte (lkey + k)) ∧ (lkey % 32 = 0 → tag = KeySet.has s.tags (lkey / 32)) ∧
         Gives s (.cldh f) s.iss.slot 3 (if s.marked lkey 32 then .hMarked f.ha v tag else .h f.ha v tag)) ∧
       (capSpace cap = spSpad → s.spadOk s.iss.core = false → ∃ (v : Cap) (t : State), t.mem = s.mem ∧ t.tags = s.tags ∧
         t.marks = s.marks ∧ exec (.cldh f) s = .next (t.setCur (c.push (mkPend s.iss.slot 3 (.hMarked f.ha v false))))) ∧
       (capSpace cap ≠ spSpad →
         Queues s (.cldh f) { s.mkAccess (.cldh f.ha) cap lo with carries := none, counted := false })) ∧
     (Clean s (.csth f) → s.refuses f.hb [0, 1, 2] 0x12 32 so 32 = none →
       (capSpace cap = spSpad → s.spadOk s.iss.core = false → DropsSpad s (.csth f) (capBase cap + so)) ∧
       (capSpace cap = spSpad → s.spadOk s.iss.core = true → ∃ t, exec (.csth f) s = .next t ∧
         (∀ k, k < 32 → t.byte (skey + k) = byteOf (c.rh f.ha) k) ∧ (∀ x, x < skey ∨ skey + 32 ≤ x → t.byte x = s.byte x) ∧
         (skey % 32 = 0 →
           ∀ x, KeySet.has t.tags x = if x = skey / 32 then c.rhtag f.ha else KeySet.has s.tags x) ∧
         t.cores = s.cores ∧ t.dev = s.dev ∧ t.iss = s.iss) ∧
       (capSpace cap ≠ spSpad → Queues s (.csth f) (s.mkAccess (.csth (c.rh f.ha) (c.rhtag f.ha)) cap so))) ∧
     (Clean s (.cnarrow n) → s.refuses n.hb [0, 1, 2, 3, 4, 5, 6] 0x80 1 0 0 = none →
       (¬fits → Traps s (.cnarrow n) 0x26 a) ∧
       (fits → ∃ new : Cap, Gives s (.cnarrow n) s.iss.slot 1 (.h n.ha new true) ∧
         capBase new = (capBase old + a.toNat) % 2 ^ 48 ∧ capLen new = l.toNat ∧ fld new 104 152 = fld old 104 152 ∧
         ∀ b, b < 8 → (capPerm new).getLsbD b = ((capPerm old).getLsbD b &&
           (if b = 5 then false else if b < 5 then n.perm.getLsbD b else n.perm.getLsbD (b - 1))))) ∧
     (Clean s (.cget g) → Gives s (.cget g) s.iss.slot 1 (.x g.xa
       (match g.sel.toNat with
        | 0 => part 0 48 | 1 => part 48 48 | 2 => part 96 8 | 3 => part 104 3 | 4 => part 107 3 | 5 => part 110 12
        | 6 => part 122 16 | 7 => part 138 16 | 8 => part 154 16
        | _ => if c.rhtag g.hb then 1 else 0))) ∧
     (Clean s (.cmov m) → Gives s (.cmov m) s.iss.slot 1 (.h m.ha (c.rh m.hb) (c.rhtag m.hb))) ∧
     (Clean s (.cclr ha) → Gives s (.cclr ha) s.iss.slot 1 (.h ha 0 false))) ∧
  ∀ (s : State) (f : BinitF) (l : BlinkF) (b : BarF), s.Ok →
    let c := s.cur
    let x (r : XReg) : Nat := (c.rx r).toNat % 2 ^ 48
    let bad (h : HReg) (off : Nat) : Option (BitVec 8) := s.refuses h [6] 0x40 64 off 64
    let addr (h : HReg) (off : Nat) : Nat := capBase (c.rh h) + off
    let own (h : HReg) (off : Nat) : Prop := addr h off / 2 ^ 25 % 1024 = s.pkgId.toNat
    let asks (i : Instr) (h : HReg) (off : Nat) (req : BarReq) : Prop :=
      (∀ e, Clean s i → bad h off = some e → Traps s i e (BitVec.ofNat 64 off)) ∧
      (Clean s i → bad h off = none → ¬own h off → Traps s i 0x21 (BitVec.ofNat 64 off)) ∧
      (Clean s i → bad h off = none → own h off → (∀ r, i = .blink r → bad r.ha (x r.xb) = none) →
        FallsThrough s i { c with
          m := { c.m with
            bar := c.m.bar ++ [{ id := c.m.nextId, req := req, cap := c.rh h, off := off, slot := s.iss.slot, rep := s.iss.rep }]
            nextId := c.m.nextId + 1 }
          c := { c.c with st := c.c.st + 1 } })
    let o := s.bar (addr b.hb (x b.xa))
    let tok := c.rx b.xb
    let now : DWord := BitVec.ofNat 64 (o.gen * 65536 + o.phase)
    let newGen : Prop := o.gen % 16 ≠ (fld tok 16 4).toNat
    let newPhase : Prop := o.phase % 65536 ≠ (fld tok 0 16).toNat
    asks (.binit f) f.hb (x f.xa) (.init (c.rx f.xb) f.u) ∧
    asks (.blink l) l.hb (x l.xa) (.link (c.rh l.ha) (x l.xb)) ∧
    asks (.barrive b) b.hb (x b.xa) (.arrive b.xb b.scope) ∧
    (∀ e, Clean s (.blink l) → bad l.hb (x l.xa) = none → own l.hb (x l.xa) → bad l.ha (x l.xb) = some e →
      Traps s (.blink l) e (BitVec.ofNat 64 (x l.xb))) ∧
    (∀ e, Clean s (.bwaitp b) → bad b.hb (x b.xa) = some e → Traps s (.bwaitp b) e (BitVec.ofNat 64 (x b.xa))) ∧
    (Clean s (.bwaitp b) → bad b.hb (x b.xa) = none →
      (¬own b.hb (x b.xa) → Traps s (.bwaitp b) 0x21 (BitVec.ofNat 64 (x b.xa))) ∧
      (own b.hb (x b.xa) → o.act = false → c.m.waiting = false → Traps s (.bwaitp b) 0x65 (BitVec.ofNat 64 (x b.xa))) ∧
      (own b.hb (x b.xa) → o.act = true → newGen → Gives s (.bwaitp b) s.iss.slot 1 (.x b.xb (now ||| 0x8000000000000000))) ∧
      (own b.hb (x b.xa) → o.act = true → ¬newGen → newPhase → ∃ t, exec (.bwaitp b) s = .next t ∧
        KeepsMemory s t (fun a => b.scope == .domain && s.owes a) ∧ t.iss = s.iss ∧ t.cur.r = c.r ∧ t.cur.t.pend = c.t.pend ++ [mkPend s.iss.slot 1 (.x b.xb now)]) ∧
      (own b.hb (x b.xa) → o.act = true → ¬newGen → ¬newPhase → exec (.bwaitp b) s = .next s))

/-- R239, R240, R243, R244, R248, R429: a job whose card names a handle register that is poisoned takes cause 0xA0 before its
other checks; one whose card and handles pass enters its die's order behind the others, with an edge to each earlier one that
its footprint meets and with the capabilities of its handles; the ticket goes to x[XD], and CP rises. A card with a field that
R243 refuses takes the job-card trap with the card's offset. CSIGNAL is a job that waits for every earlier one of the task.
R247, R248, R414: CQUERY gives the rows and state of a live job of the task, the outcome kept for an ended one, and 0b10 for a ticket
it does not know; CCANCEL removes a copy job, whose ticket reads 0b11, marks a WPE job that builds, and leaves everything as it is where
none of the 64 latest tickets is a live job's with this number or the job's signal is on its way; CFENCE makes later
jobs wait for those that the task has. The model's choices here: TVAL 0 of CJOBV's job-card trap (log 85), a cancelled copy job
ends in the step of its CCANCEL (log 54), and CQUERY of 65,536 or more reads as of no ticket (log 57). -/
def Obligations.JobInstructions : Prop :=
  (∀ (s : State) (f : CjF) (g : CjvF) (q : CsF),
     let c := s.cur
     let n := s.iss.core
     let accepts (i : Instr) (xd : XReg) (work : JobWork) (sh dh ah gh : Cap) (after : List Nat) : Prop :=
       ∃ t j, exec i s = .next t ∧ t.mem = s.mem ∧ t.tags = s.tags ∧ t.iss = s.iss ∧ t.dev.jobs = s.dev.jobs ++ [j] ∧
         j.id = s.dev.nextJob ∧ t.dev.nextJob = s.dev.nextJob + 1 ∧ j.die = n / 96 ∧ j.home = n / 96 ∧ j.core = n ∧
         j.edges = (s.dev.jobs.filter j.waitsFor).map (·.id) ∧ j.work = work ∧
         j.ticket = c.m.ticket ∧ j.rm = c.c.rm ∧ j.sh = sh ∧ j.dh = dh ∧ j.ah = ah ∧ j.gh = gh ∧ j.rows = 0 ∧
         j.started = false ∧ j.seq = c.m.nextId ∧ j.after = c.m.fenced ++ after ∧
         (∀ k, c.task = some k → j.owner = .task k.uid ∧ j.ctx = k.ctx) ∧
         t.cur = { c with
           c := { c.c with cp := c.c.cp + 1 }, m := { c.m with ticket := c.m.ticket + 1 }
           t := { c.t with pend := c.t.pend ++ [mkPend s.iss.slot 1 (.x xd (c.m.ticket.setWidth 64))] } }
     let bits (card : BitVec 512) (lo w : Nat) : Nat := card.toNat / 2 ^ lo % 2 ^ w
     let badCopy (card : BitVec 512) : Prop := bits card 40 24 ≠ 0 ∨ bits card 0 8 = 0 ∨ 6 < bits card 0 8 ∨
       bits card 12 2 = 3 ∨ 5 < bits card 8 4 ∨ 4 < bits card 21 3
     let badWpe (card : BitVec 512) : Prop := bits card 8 12 ≠ 0 ∨ bits card 256 256 ≠ 0 ∨ bits card 0 8 = 0 ∨
       4 < bits card 0 8 ∨ bits card 44 20 = 0 ∨ 4 < bits card 25 3
     let handle (k : Nat) : Cap := c.rh (BitVec.ofNat 4 k)
     let off (i : Instr) : Nat := (s.offset i).toNat
     let card (i : Instr) : BitVec 512 := BitVec.ofNat 512 (s.nat (mkey .spad n (capBase (c.rh f.h) + off i)) 64)
     let unmarked (i : Instr) : Prop := ∀ k, k < 64 → KeySet.has s.marks ((mkey .spad n (capBase (c.rh f.h) + off i) + k) / 32) = false
     let fetches (i : Instr) : Prop := Clean s i ∧ s.refuses f.h [0] pR 64 (off i) 64 = none ∧ unmarked i
     let use (k : BitVec 512) (lo : Nat) (p : Prop) [Decidable p] : List Nat := if p then [bits k lo 4] else []
     let copyNames (k : BitVec 512) : List Nat := use k 24 (bits k 0 8 ≠ 6) ++ use k 28 True ++
       use k 32 (bits k 0 8 = 2 ∨ bits k 0 8 = 3) ++ use k 36 (bits k 16 1 = 1)
     let wpeNames (k : BitVec 512) : List Nat := use k 28 (bits k 0 8 ≠ 4) ++ use k 32 True ++ use k 36 (bits k 21 1 = 1) ++
       use k 40 (bits k 20 1 = 1)
     let marked (r : Nat) : Prop := c.r.hmark.getLsbD r = true
     let consumes (i : Instr) (l : List Nat) : Prop := (∃ r ∈ l, marked r) →
       ∃ tr, exec i s = .next (s.raise tr) ∧ tr.cause = 0xA0 ∧ tr.kind = .issue ∧
         ∀ z, z ∈ tr.zero ↔ ∃ r ∈ l, marked r ∧ z = .h (BitVec.ofNat 4 r)
     let copies (i : Instr) (k : BitVec 512) (coff : Nat) (xd : XReg) : Prop :=
       consumes i (copyNames k) ∧ ((∀ r ∈ copyNames k, ¬marked r) →
       (badCopy k → Traps s i 0x81 (BitVec.ofNat 64 coff)) ∧
       (s.checkCopyCard (some n) (capCtx (c.rh 0)) k (taskHandles c) coff = .ok () →
         accepts i xd (.copy k) (handle (bits k 24 4)) (handle (bits k 28 4)) (handle (bits k 32 4)) (handle (bits k 36 4)) []))
     let so := (c.rx q.xa).toNat % 2 ^ 48
     (fetches (.cjob f) → copies (.cjob f) (card (.cjob f)) (off (.cjob f)) f.xd) ∧
     (Clean s (.cjobv g) → copies (.cjobv g) ((c.rv g.vs).setWidth 512) 0 g.xd) ∧
     (fetches (.cwpe f) → consumes (.cwpe f) (wpeNames (card (.cwpe f))) ∧ ((∀ r ∈ wpeNames (card (.cwpe f)), ¬marked r) →
       (badWpe (card (.cwpe f)) → Traps s (.cwpe f) 0x81 (BitVec.ofNat 64 (off (.cwpe f)))) ∧
       (s.checkWpeCard n (capCtx (c.rh 0)) (card (.cwpe f)) (taskHandles c) (off (.cwpe f)) = .ok () →
         accepts (.cwpe f) f.xd (.wpe (card (.cwpe f))) (handle (bits (card (.cwpe f)) 28 4))
           (handle (bits (card (.cwpe f)) 32 4)) (handle (bits (card (.cwpe f)) 36 4)) (handle (bits (card (.cwpe f)) 40 4)) []))) ∧
     (∀ e, Clean s (.cjob f) → s.refuses f.h [0] pR 64 (off (.cjob f)) 64 = some e →
       Traps s (.cjob f) e (BitVec.ofNat 64 (off (.cjob f)))) ∧
     (∀ e, Clean s (.cwpe f) → s.refuses f.h [0] pR 64 (off (.cwpe f)) 64 = some e →
       Traps s (.cwpe f) e (BitVec.ofNat 64 (off (.cwpe f)))) ∧
     (∀ e, Clean s (.csignal q) → s.refuses q.h [0, 1, 2] pW 8 so 8 = some e → Traps s (.csignal q) e (BitVec.ofNat 64 so)) ∧
     (Clean s (.csignal q) → s.refuses q.h [0, 1, 2] pW 8 so 8 = none →
       accepts (.csignal q) q.xd (.signal (c.rx q.xb) so) 0 0 0 (c.rh q.h)
         ((s.dev.jobs.filter (fun j => j.owner = .task ((c.task.map (·.uid)).getD 0))).map (·.id)))) ∧
  ∀ (s : State) (f : CqF) (xa : XReg),
    let c := s.cur
    let uid := (c.task.map (·.uid)).getD 0
    let recent (v : DWord) : Bool :=
      decide (v.toNat < 65536) && decide (1 ≤ (c.m.ticket - v.setWidth 16).toNat) && decide ((c.m.ticket - v.setWidth 16).toNat ≤ 64)
    let live (v : DWord) : Option Job :=
      if recent v then s.dev.jobs.find? (fun j => decide (j.owner = .task uid) && j.ticket == v.setWidth 16) else none
    let ended (v : DWord) : Option Ticket := if recent v then c.m.tickets.find? (fun t => t.num == v.setWidth 16) else none
    let a := c.rx f.xa
    let x := c.rx xa
    let gives (rows st : Nat) : Prop := Gives s (.cquery f) s.iss.slot 1 (.x f.xd (BitVec.ofNat 64 (rows % 2 ^ 32 * 2 ^ 32 + st)))
    let builds (j : Job) : Prop := j.build.isSome = true ∧ ∃ k, j.work = .wpe k
    (Clean s (.cquery f) →
      (∀ j, live a = some j → gives j.rows (if j.started then 1 else 0)) ∧
      (∀ t, live a = none → ended a = some t → gives t.rows t.state.toNat) ∧
      (live a = none → ended a = none → gives 0 2)) ∧
    (Clean s (.ccancel xa) →
      (live x = none → exec (.ccancel xa) s = .next s) ∧
      (∀ j, live x = some j → j.signalled = true → exec (.ccancel xa) s = .next s) ∧
      (∀ j, live x = some j → j.signalled = false → builds j → exec (.ccancel xa) s = .next
        { s with dev := { s.dev with jobs := s.dev.jobs.map (fun k => if k.id = j.id then { j with cancel := true } else k) } }) ∧
      (∀ j, live x = some j → j.signalled = false → ¬builds j → ∃ t, exec (.ccancel xa) s = .next t ∧ t.mem = s.mem ∧ t.iss = s.iss ∧
        t.dev.jobs = s.dev.jobs.filter (fun k => k.id != j.id) ∧ t.cur.r = c.r ∧ t.cur.t = c.t ∧
        (∀ k, c.task = some k → c.mode ≠ .dying → t.cur.c.cp = c.c.cp - 1 ∧
          t.cur.m.tickets.getLast? = some { num := j.ticket, rows := j.rows, state := 3, cause := 0 }))) ∧
    (Clean s .cfence → FallsThrough s .cfence { c with m := { c.m with
      fenced := (s.dev.jobs.filter (fun j => j.owner = .task uid)).map (·.id) } })

/-- R232 to R237: each transform gives its vector, place by place, after its latency; XPACK.I4
and XCVT round and saturate as cvt does and raise its flags. R68, R201: XSCALE and XSCALEI enter the scale adder's exponent,
clamped to -1,024 to 1,023; IDLE clears its slot's standing operation, where the slot is sticky, and nothing else. R100: bits
7:6 of an L6 container are zero in every result. -/
def Obligations.TransformOperations : Prop :=
  (∀ (s : State) (f : XexpF) (g : XuF) (h : XcvtF) (t : XtrF),
    let c := s.cur
    let rm := c.c.rm
    let gives (i : Instr) (vd : VReg) (lat : Nat) (fl : Flags) (x : Xtr) (p : Vec → Prop) : Prop := Clean s i →
      ∃ v, p v ∧ exec i s = .next (s.setCur { c with t := { c.t with
        xtr := x
        pend := c.t.pend ++ [{ rem := lat, lat := lat, slot := .x, xform := true, w := .v (c.pv vd) (BitVec.allOnes 1024) v, flags := fl }] } })
    let same := c.t.xtr
    let e := Fmt.width f.dt
    let vf := c.rv f.vs
    -- the value of the last kept element of group k at place j of it; six bits of an L6 container (R100)
    let part (x : Nat) : Nat := if f.dt = .l6 then x % 64 else x
    let kept (per : Nat) (j : Nat) : Nat := ((List.range per).foldl (fun r q =>
      if (fld vf (512 + 2 * (per * (j / 4) + q)) 2).toNat = j % 4 then part (elemOf e vf.toNat (per * (j / 4) + q)) else r) 0)
    let expands (per : Nat) (v : Vec) : Prop := ∀ j, j < 1024 / e → elemOf e v.toNat j = kept per j
    let src := (c.rv g.vs).toNat
    let nib (j : Nat) := cvtTo .i4 rm (fmtDecode .i8 (elemOf 8 src j))
    let raised (l : List Flags) : Flags := l.foldl (· ||| ·) 0
    let ws := Fmt.width h.st
    let wd := Fmt.width h.dt
    let n := 1024 / max ws wd
    let elem (j : Nat) : Nat × Flags := elemOf ws (c.rv h.vs).toNat j |> fun x =>
      if h.st = h.dt then
        if h.st = .l6 then (x % 64, 0)
        else if h.st.isFloat ∧ (fmtDecode h.st x).isSig then ((Fmt.fp h.st).canonNaN, flNV) else (x, 0)
      else cvtTo h.dt rm (fmtDecode h.st x)
    let u := c.t.xtr
    let trc := if t.r then 0 else u.trc
    let bank (b : Bool) (i : Nat) : Vec := (if b then u.bank1 else u.bank0).getD i 0
    (f.dt.isVec = true ∨ f.dt = .l6 →
      gives (.xexpS24 f) f.vd 6 0 same (expands 2) ∧ gives (.xexpS14 f) f.vd 6 0 same (expands 1)) ∧
    gives (.xunpkL6 g) g.vd 4 0 same (fun v => ∀ j, j < 128 → elemOf 8 v.toNat j = elemOf 6 src j) ∧
    gives (.xunpkI4 g) g.vd 4 0 same (fun v => ∀ j, j < 128 → sext (elemOf 8 v.toNat j) 8 = sext (elemOf 4 src j) 4) ∧
    gives (.xpackL6 g) g.vd 4 0 same
      (fun v => v.toNat < 2 ^ 768 ∧ ∀ j, j < 128 → elemOf 6 v.toNat j = elemOf 8 src j % 64) ∧
    gives (.xpackI4 g) g.vd 4 (raised ((List.range 128).map (fun j => (nib j).2))) same
      (fun v => v.toNat < 2 ^ 512 ∧ ∀ j, j < 128 → elemOf 4 v.toNat j = (nib j).1 % 16) ∧
    ((h.dt.isVec = true ∨ h.dt = .l6) → (h.st.isVec = true ∨ h.st = .l6) →
      gives (.xcvt h) h.vd 4 (raised ((List.range n).map (fun j => (elem j).2))) same
        (fun v => v.toNat < 2 ^ (n * wd) ∧ ∀ j, j < n → elemOf wd v.toNat j = (elem j).1 % 2 ^ wd)) ∧
    (∃ x : Xtr, x.trc = trc + 1 ∧ (x.b = (u.b != decide (trc = 31))) ∧
      (∀ i, i < 32 → (if u.b then x.bank1 else x.bank0).getD i 0 = if i = trc.toNat then c.rv t.vs else bank u.b i) ∧
      (if u.b then x.bank0 = u.bank0 else x.bank1 = u.bank1) ∧
      gives (.xtr t) t.vd 12 0 x (fun v => ∀ i, i < 32 → elemOf 32 v.toNat i = elemOf 32 (bank (!u.b) i).toNat trc.toNat))) ∧
  ∀ (s : State) (xs : XReg) (imm : BitVec 11) (sl : Slot),
    let c := s.cur
    let a := (c.rx xs).toInt
    let scales (i : Instr) (e : Int) : Prop := Clean s i →
      FallsThrough s i { c with t := { c.t with scale := c.t.scale ++ [{ rem := 3, e := e }] } }
    let st := c.t.stand
    let rest : StandSet :=
      match sl with
      | .va => { st with va := none } | .vb => { st with vb := none } | .m => { st with m := none }
      | .ca => { st with ca := none } | .cb => { st with cb := none } | .x => { st with x := none }
      | .b | .s => st
    scales (.xscale xs) (if a < -1024 then -1024 else if 1023 < a then 1023 else a) ∧ scales (.xscalei imm) imm.toInt ∧
    FallsThrough s (.idle sl) { c with t := { c.t with stand := rest } }
/-! ### The matrix slot (R44 to R47, R79 to R81, R186 to R229) -/

/-- R80, R322: every operation that takes a literal word traps where MPC names none (word 0 or 1 of a line, outside the arena,
in no segment), and then where its segment shares IMEM lines with the bundle's. -/
def Obligations.LiteralChecks : Prop :=
  ∀ (s : State) (i : Instr), Instr.takesLiteral i = true → s.poisonTrap i s.literal = none →
    let c := s.cur
    let a := c.c.mpc.toNat
    let bad : Prop := a % 128 / 4 < 2 ∨ ¬(c.c.codebase.toNat ≤ a ∧ a < c.c.codelim.toNat) ∨ s.segOf c a = none
    let clash : Prop := ∃ g h, s.segOf c a = some g ∧ s.segOf c c.k.pc.toNat = some h ∧ g.num ≠ h.num ∧
      g.iline < h.iline + h.nlines ∧ h.iline < g.iline + g.nlines
    (bad → Traps s i 0x06 (c.c.mpc.setWidth 64)) ∧ (¬bad → clash → Traps s i 0x08 (c.c.mpc.setWidth 64))

/-- R189 to R192: OCLAIM of a free slot claims it, ORELEASE of a claimed one frees it, OLOAD writes a row of a claimed one
from a vector register, each at the next boundary; WLOAD begins a fill of a claimed one from 8 KiB of the weight tier, and
WL rises. Checks come in order, and a failing one traps. -/
def Obligations.OperandSlots : Prop :=
  ∀ (s : State) (os : OSlot) (f : OloadF) (w : MwF),
    let c := s.cur
    let put (wr : Write) : Core := { c with t := { c.t with pend := c.t.pend ++ [mkPend .m 1 wr] } }
    let off := (s.offset (.wload w)).toNat
    MatActs s (.oclaim os) [s.noParticulars, (0x43, os.setWidth 64, (c.slot os).claimed)] []
      (MatGives s (.oclaim os) (put (.claim os))) ∧
    MatActs s (.orelease os) [s.noParticulars, c.unclaimed os] [] (MatGives s (.orelease os) (put (.release os))) ∧
    MatActs s (.oload f) [s.noParticulars, c.unclaimed f.os] [] (MatGives s (.oload f) (put (.row f.os f.row (c.rv f.v)))) ∧
    MatActs s (.wload w)
      ([s.noParticulars, c.unclaimed w.os] ++
        ((s.accessChecks w.h [3] pR 256 off 8192).map (fun k => (k.1, BitVec.ofNat 64 off, k.2)))) []
      (MatGives s (.wload w) { c with
        c := { c.c with wl := c.c.wl + 1 }
        m := { c.m with nextId := c.m.nextId + 1 }
        t := { c.t with fills := c.t.fills ++ [{ id := c.m.nextId, os := w.os, rem := w.arr.toNat, addr := capBase (c.rh w.h) + off, done := [] }] } })

/-- R45, R193, R194, R210: MZERO leaves a tile of its kind with every element zero; MMOV a copy, after a quarter of the
panels' number of cycles, at least one (R188; that occ / 4 is rounded down is the model's choice: DESIGN CHOICE, log 94), or nothing onto itself; MRD gives a row of 16 elements, bit for bit; MWR writes one, and an empty
tile becomes dense; MRANK gives the pool's free panels and the tile's panels, kind and rank. -/
def Obligations.TileMoves : Prop :=
  ∀ (s : State) (z : MzF) (m : M1F) (r : MrwF) (k : MrankF),
    let c := s.cur
    let put (lat : Nat) (wr : Write) : Core := { c with t := { c.t with pend := c.t.pend ++ [mkPend .m lat wr] } }
    let n := match z.kind with
      | .empty | .lowRank => 0
      | _ => 32
    let t := c.tile m.ms1
    let q := c.tile r.md
    let u := c.tile k.ms1
    MatActs s (.mzero z) [s.noParticulars, c.noPanels z.md false n] []
      (MatGives s (.mzero z) (put 1 (.tile z.md z.kind 0 (c.reserve z.md false n)
        (if n = 0 then [] else List.replicate 1024 0) [] []))) ∧
    MatActs s (.mmov m)
      (s.noParticulars :: (if m.md = m.ms1 then [] else [c.overRank t.rank, c.noPanels m.md false t.occ])) []
      (if m.md = m.ms1 then MatGives s (.mmov m) c
       else MatGives s (.mmov m) (put (max 1 (t.occ / 4)) (.tile m.md t.kind t.rank (c.reserve m.md false t.occ) t.elems t.u t.v))) ∧
    MatActs s (.mrd r) [s.noParticulars, (0x44, BitVec.ofNat 64 (r.md.toNat * 256 + 2), q.kind == .lowRank)] []
      (∃ v : Vec, (∀ j, j < 16 → elemOf 64 v.toNat j = (q.elems.getD (16 * r.row.toNat + j) 0).toNat) ∧
        MatGives s (.mrd r) (put 4 (.v (c.pv r.v) (BitVec.allOnes 1024) v))) ∧
    MatActs s (.mwr r)
      [s.noParticulars, (0x44, BitVec.ofNat 64 (r.md.toNat * 256 + 2), q.kind == .lowRank),
        if q.kind = .empty then c.noPanels r.md false 32 else (0, 0, false)] []
      (MatGives s (.mwr r) (put 1 (.tileRow r.md r.row (c.reserve r.md false 32) (c.rv r.v)))) ∧
    MatActs s (.mrank k) [s.noParticulars] []
      (MatGives s (.mrank k) (put 1 (.x k.xs (BitVec.ofNat 64
        (c.freePanels.length * 2 ^ 32 + u.occ % 1024 * 2 ^ 12 + kindNo u.kind * 2 ^ 8 + c.rankIn k.ms1 % 32)))))

/-- R103, R104, R106, R195 to R200: a dense product of claimed slots, its literal K-trim within the form's extent and the
accumulator in a mode of the form, enters the engine for the form's time. Element (i, j) is the sum, in groups of four, of
the products of row i of OSA and column j of OSB onto the element of md, or onto 0; under W56, MMA.L6 leaves exact partials
for the port. -/
def Obligations.DenseProducts : Prop :=
  ∀ (s : State) (f : MaF),
    let c := s.cur
    let rm := c.c.rm
    let lit := s.literal
    let form (i : Instr) (t : Fmt) (full d : Nat) (modes : List Acc) : Prop :=
      let w := Fmt.width t
      let kt := (fld lit 0 10).toNat
      let ext := if kt = 0 then full else kt
      let groups (i j : Nat) : List (List (Nat × Nat)) := (List.range ((ext + 3) / 4)).map
        (groupAt ext (fun k => some (s.slotEl f.osa w i k)) (fun k => s.slotEl f.osb w j k))
      let old (n : Nat) : DWord := if f.za = true ∨ (c.tile f.md).kind = .empty then 0 else (c.tile f.md).elems.getD n 0
      let elem (n : Nat) : DWord × Flags := mmaElem t c.c.acc rm (groups (n / 32) (n % 32)) (old n)
      MatActs s i
        [(0x07, lit.setWidth 64, decide (lit.toNat / 2 ^ 10 ≠ 0 ∨ full < kt)), c.wrongAcc modes, c.unclaimed f.osa,
          c.unclaimed f.osb, if f.za then (0, 0, false) else c.wrongKind f.md [.dense, .empty], c.noPanels f.md false 32]
        ((List.range 32).map (fun l => (f.osa, l)) ++ (List.range 32).map (fun l => (f.osb, l)))
        (∃ res flags, Starts s i d f.md [] [f.osa, f.osb] ((if f.lra then [f.osa] else []) ++ if f.lrb then [f.osb] else [])
            32 res flags false ∧
          (t = .l6 ∧ c.c.acc = .w56 → ∃ parts acc, res = .scaled parts acc ∧ flags = [] ∧
            ∀ n, n < 1024 → parts.getD n (0, false) = groupX .l6 (groups (n / 32) (n % 32)).flatten ∧ acc.getD n 0 = old n) ∧
          (¬(t = .l6 ∧ c.c.acc = .w56) → ∃ els, res = .blocks .dense els ∧ els.length = 1024 ∧
            (∀ n, n < 1024 → els.getD n 0 = (elem n).1) ∧ flags.length = 8 ∧
            ∀ b, b < 8 → flags.getD b 0 = ((List.range 128).map (fun k => (elem (128 * b + k)).2)).foldl (· ||| ·) 0))
    form (.mmaF64 f) .f64 32 128 [.f64] ∧ form (.mmaF32 f) .f32 64 128 [.f64] ∧ form (.mmaBf16 f) .bf16 128 128 [.w56] ∧
    form (.mmaF16 f) .f16 128 128 [.w56] ∧ form (.mmaI8 f) .i8 256 64 [.x56] ∧ form (.mmaI4 f) .i4 512 128 [.x56] ∧
    form (.mmaL6 f) .l6 256 64 [.x56, .w56]

/-- R202, R203: the structured-sparse forms, keeping two or one of each four values of A, over the rows whose block the literal
does not skip: those lines must be verified, and under S24 each pair's indices must rise. A skipped row's elements run the order
of R104 with no product. The rest is the dense form of the literal's type. That only groups of four that lie whole below the
extent count, for the pairs and for what is kept, is a reading (DEDUCED, log 53). -/
def Obligations.SparseProducts : Prop :=
  ∀ (s : State) (f : MaF) (t : Fmt) (full d : Nat) (modes : List Acc),
    (t, full, d, modes) ∈ [(Fmt.f64, 32, 128, [Acc.f64]), (.f32, 64, 128, [.f64]), (.bf16, 128, 128, [.w56]),
      (.f16, 128, 128, [.w56]), (.i8, 256, 64, [.x56]), (.l6, 256, 64, [.x56, .w56])] →
    let c := s.cur
    let rm := c.c.rm
    let lit := s.literal
    let et := match t with
      | .f64 => 0 | .f32 => 1 | .bf16 => 2 | .f16 => 3 | .i8 => 7
      | _ => 9
    let kept := (List.range 32).filter (fun i => !lit.getLsbD (4 + i / 4))
    let w := Fmt.width t
    let kt := (fld lit 12 10).toNat
    let ext := if kt = 0 then full else kt
    let tv (l : Nat) : DWord := BitVec.ofNat 64 (f.osa.toNat * 256 + l)
    let form (i : Instr) (per : Nat) : Prop :=
      let groups (i j : Nat) : List (List (Nat × Nat)) :=
        if lit.getLsbD (4 + i / 4) then List.replicate ((ext + 3) / 4) []
        else (List.range ((ext + 3) / 4)).map (groupAt ext (s.keptEl f.osa per w ext i) (fun k => s.slotEl f.osb w j k))
      let old (n : Nat) : DWord := if f.za = true ∨ (c.tile f.md).kind = .empty then 0 else (c.tile f.md).elems.getD n 0
      let elem (n : Nat) : DWord × Flags := mmaElem t c.c.acc rm (groups (n / 32) (n % 32)) (old n)
      let badPair (l : Nat) : Bool := decide (per = 2) &&
        (List.range (ext / 4)).any (fun g => decide (s.sideIdx f.osa l (2 * g + 1) ≤ s.sideIdx f.osa l (2 * g)))
      MatActs s i
        ([(0x07, lit.setWidth 64, decide (lit.toNat / 2 ^ 22 ≠ 0 ∨ full < kt)), c.wrongAcc modes, c.unclaimed f.osa,
            c.unclaimed f.osb, if f.za then (0, 0, false) else c.wrongKind f.md [.dense, .empty], c.noPanels f.md false 32] ++
          kept.map (fun l => (0x45, tv l, !(c.slot f.osa).verified.getLsbD l)) ++ kept.map (fun l => (0x46, tv l, badPair l)))
        (kept.map (fun l => (f.osa, l)) ++ (List.range 32).map (fun l => (f.osb, l)))
        (∃ res flags, Starts s i d f.md [] [f.osa, f.osb] ((if f.lra then [f.osa] else []) ++ if f.lrb then [f.osb] else [])
            32 res flags false ∧
          (t = .l6 ∧ c.c.acc = .w56 → ∃ parts acc, res = .scaled parts acc ∧ flags = [] ∧ ∀ n, n < 1024 →
            parts.getD n (0, false) = groupX .l6 (groups (n / 32) (n % 32)).flatten ∧
            acc.getD n 0 = old n) ∧
          (¬(t = .l6 ∧ c.c.acc = .w56) → ∃ els, res = .blocks .dense els ∧ els.length = 1024 ∧
            (∀ n, n < 1024 → els.getD n 0 = (elem n).1) ∧ flags.length = 8 ∧
            ∀ b, b < 8 → flags.getD b 0 = ((List.range 128).map (fun k => (elem (128 * b + k)).2)).foldl (· ||| ·) 0))
    let untyped (i : Instr) : Prop := lit.toNat % 16 ∉ [0, 1, 2, 3, 7, 9] → MatReady s i → Traps s i 0x07 (lit.setWidth 64)
    (lit.toNat % 16 = et → form (.mmaS24 f) 2 ∧ form (.mmaS14 f) 1) ∧ untyped (.mmaS24 f) ∧ untyped (.mmaS14 f)

/-- R207 to R218: the low-rank operations, their checks in order, their times and their factors: MLRSET takes columns from a
slot's lines, MLRMUL the smaller rank of a product, MLRDM and MDMLR a dense side, MLRADD both sources' columns, MDENSE
expands; MRECOMP gives the factors of R219 under RMAX or a cap below it. -/
def Obligations.LowRankOperations : Prop :=
  ∀ (s : State) (f : MlrsetF) (g : M2F) (h : M1F),
    let c := s.cur
    let rm := c.c.rm
    let k := (c.rx f.xs).toNat
    let a := c.tile g.ms1
    let b := c.tile g.ms2
    let ka := c.rankIn g.ms1
    let kb := c.rankIn g.ms2
    let src := g.md = g.ms1 ∨ g.md = g.ms2
    let lr : List TileKind := [.lowRank, .empty]
    let ds : List TileKind := [.dense, .empty]
    let whole (i : Instr) (d : Nat) (md : MReg) (tiles : List MReg) (slots : List OSlot) (n r : Nat)
        (u v : Nat → Nat → DWord → Prop) : Prop :=
      ∃ us vs fl, Starts s i d md tiles slots [] n (.whole r us vs) [fl] true ∧
        ∀ q i, q < r → i < 32 → u q i (us.getD (32 * q + i) 0) ∧ v q i (vs.getD (32 * q + i) 0)
    let is (n : Nat) (x : DWord) : Prop := x = BitVec.ofNat 64 n
    let core (p q : Nat) : Nat := dotOf rm 32 (factorEl a.v p) (factorEl b.u q)
    let t := c.tile h.ms1
    let kt := c.rankIn h.ms1
    let lit := s.literal
    let cv := (fld lit 0 5).toNat
    let cap := if cv = 0 then c.c.rmax.toNat else min cv c.c.rmax.toNat
    let cols (l : List DWord) : List (List Nat) := (List.range kt).map (fun q => (List.range 32).map (factorEl l q))
    let far (x : DWord) : Bool := decide (1263 * 2 ^ 52 ≤ x.toNat % 2 ^ 63)
    MatActs s (.mlrset f)
      [s.noParticulars, c.unclaimed f.os, (0x40, c.rx f.xs, decide (c.c.rmax.toNat < k)), c.noPanels f.md false (2 * k)]
      ((List.range (min 16 k)).flatMap (fun q => [(f.os, q), (f.os, 16 + q)]))
      (whole (.mlrset f) (4 + 2 * k) f.md [] [f.os] (2 * k) k
        (fun q i => is (s.slotEl f.os 64 q i)) (fun q i => is (s.slotEl f.os 64 (16 + q) i))) ∧
    MatActs s (.mlrmul g)
      [s.noParticulars, c.wrongKind g.ms1 lr, c.wrongKind g.ms2 lr, c.overRank (min ka kb), c.noPanels g.md src (2 * min ka kb)] []
      (whole (.mlrmul g) (8 + (ka * kb + 3) / 4) g.md [g.ms1, g.ms2] [] (2 * min ka kb) (min ka kb)
        (fun q i => is (if ka ≤ kb then factorEl a.u q i else dotOf rm ka (fun p => factorEl a.u p i) (fun p => core p q)))
        (fun q i => is (if ka ≤ kb then dotOf rm kb (fun p => factorEl b.v p i) (fun p => core q p) else factorEl b.v q i))) ∧
    MatActs s (.mlrdm g)
      [s.noParticulars, c.wrongAcc [.f64], c.wrongKind g.ms1 lr, c.wrongKind g.ms2 ds, c.overRank ka, c.noPanels g.md src (2 * ka)] []
      (whole (.mlrdm g) (8 + 4 * ka) g.md [g.ms1, g.ms2] [] (2 * ka) ka (fun q i => is (factorEl a.u q i))
        (fun q j => is (dotOf rm 32 (fun r => (b.elems.getD (32 * r + j) 0).toNat) (factorEl a.v q)))) ∧
    MatActs s (.mdmlr g)
      [s.noParticulars, c.wrongAcc [.f64], c.wrongKind g.ms1 ds, c.wrongKind g.ms2 lr, c.overRank kb, c.noPanels g.md src (2 * kb)] []
      (whole (.mdmlr g) (8 + 4 * kb) g.md [g.ms1, g.ms2] [] (2 * kb) kb
        (fun q i => is (dotOf rm 32 (fun r => (a.elems.getD (32 * i + r) 0).toNat) (factorEl b.u q)))
        (fun q j => is (factorEl b.v q j))) ∧
    MatActs s (.mlradd g)
      [s.noParticulars, c.wrongKind g.ms1 lr, c.wrongKind g.ms2 lr, c.overRank (ka + kb), c.noPanels g.md src (2 * (ka + kb))] []
      (whole (.mlradd g) (4 + (ka + kb)) g.md [g.ms1, g.ms2] [] (2 * (ka + kb)) (ka + kb)
        (fun q i => is (if q < ka then factorEl a.u q i else factorEl b.u (q - ka) i))
        (fun q i => is (if q < ka then factorEl a.v q i else factorEl b.v (q - ka) i))) ∧
    MatActs s (.mdense h) [s.noParticulars, c.wrongAcc [.f64], c.wrongKind h.ms1 lr, c.noPanels h.md (h.md = h.ms1) 32] []
      (∃ els fl, Starts s (.mdense h) (8 + 4 * kt) h.md [h.ms1] [] [] 32 (.blocks .dense els) [fl] true ∧ els.length = 1024 ∧
        ∀ n, n < 1024 → els.getD n 0 = BitVec.ofNat 64
          (dotOf rm kt (fun q => factorEl t.u q (n / 32)) (fun q => factorEl t.v q (n % 32)))) ∧
    MatActs s (.mrecomp h)
      [(0x07, lit.setWidth 64, decide (lit.toNat / 2 ^ 5 ≠ 0 ∨ 16 < cv)), c.wrongKind h.ms1 lr,
        c.noPanels h.md (h.md = h.ms1) (2 * min kt cap),
        (0x48, h.ms1.setWidth 64, ((cols t.u ++ cols t.v).any (fun col => col.any (fun x => far (BitVec.ofNat 64 x)))))] []
      (let r := (recompress cap c.c.tol.toNat c.c.tolabs.toNat (cols t.u) (cols t.v)).run 0
       Starts s (.mrecomp h) (64 + 12 * kt + 36 * kt * kt) h.md [h.ms1] [] [] (2 * min kt cap)
         (.whole r.1.1.length (r.1.1.flatten.map (BitVec.ofNat 64)) (r.1.2.flatten.map (BitVec.ofNat 64))) [r.2] true)

/-- R220 to R229: MBFLY forms a stage, each output the exact sum over the radix of input times twiddle, scaled and rounded
once, under block-exponent scaling with the least exponent that bounds every part; MBREV permutes points by digit reversal,
or reads them from a slot; MTWMUL multiplies each point by its twiddle. Points beyond the last whole sequence stay. -/
def Obligations.ButterflyOperations : Prop :=
  ∀ (s : State) (f : MbF) (g : MbrevF) (wide : Bool),
    let c := s.cur
    let rm := c.c.rm
    let lit := s.literal
    let points := if wide then 512 else 1024
    let fm := if wide then fp64 else fp32
    let cut := if wide then 2 ^ 64 else 2 ^ 32
    let kind : TileKind := if wide then .complex128 else .complex64
    let x (p : Nat) : Nat × Nat := pointAt wide (c.tile f.ms1).elems p
    let stage := (fld lit 0 4).toNat
    let scale := (fld lit 4 2).toNat
    let seq := radicesOf c.c.rseq points
    let parts (rads : List Nat) (p : Nat) : (FVal × Flags) × (FVal × Flags) :=
      let r := rads.getD stage 1
      let lp := (rads.take stage).prod
      let l := lp * r
      let at' := p % rads.prod
      let j := at' % lp
      let uu := at' % l / lp
      let terms := (List.range r).map (fun t =>
        cmulTerms fm (x (p / rads.prod * rads.prod + at' / l * l + t * lp + j)) (twiddle fm (lit.getLsbD 6) (t * (j + uu * lp) % l) l))
      (sumVals .rne (terms.flatMap (·.1)), sumVals .rne (terms.flatMap (·.2)))
    let whole (rads : List Nat) : Nat := points / rads.prod * rads.prod
    let small (e : Nat) : FVal → Prop
      | .fin _ m k => m = 0 ∨ ((Nat.log2 m : Int) + k + 1 ≤ e)
      | _ => False
    let number : FVal → Prop
      | .fin _ _ _ => True
      | _ => False
    let bounds (rads : List Nat) (e : Nat) : Prop := ∀ p, p < whole rads → small e (parts rads p).1.1 ∧ small e (parts rads p).2.1
    let numbers (rads : List Nat) : Prop := ∀ p, p < whole rads → number (parts rads p).1.1 ∧ number (parts rads p).2.1
    let bfly (i : Instr) : Prop := MatActs s i
      [(0x07, lit.setWidth 64, decide (lit.toNat / 2 ^ 7 ≠ 0 ∨ 10 ≤ stage)), c.wrongKind f.ms1 [kind],
        (0x47, lit.setWidth 64, (seq.all (fun rads => decide (rads.length ≤ stage)))), c.noPanels f.md (f.md = f.ms1) 32] []
      (∀ rads, seq = some rads → ∃ els fl e, els.length = 1024 ∧
        Starts s i (16 + 8 * rads.getD stage 1) f.md [f.ms1] [] [] 32 (.blocks kind els) [fl] true
          (xd := if scale = 3 then some (f.xs, BitVec.ofNat 64 e) else none) ∧
        (scale ≠ 3 → e = 0) ∧ (scale = 3 → numbers rads → bounds rads e ∧ ∀ e', bounds rads e' → e ≤ e') ∧
        (scale = 3 → ¬numbers rads → e = 0) ∧
        ∀ p, p < points → pointAt wide els p =
          if p < whole rads then
            let d := if scale = 2 then rads.getD stage 1 else 1
            let by2 : Int := if scale = 1 then -1 else if scale = 3 then -(e : Int) else 0
            ((cround fm rm d by2 (parts rads p).1).1 % cut, (cround fm rm d by2 (parts rads p).2).1 % cut)
          else x p)
    let slot := lit.getLsbD 0
    let wideB := lit.getLsbD 2
    let pointsB := if wideB then 512 else 1024
    let kindB : TileKind := if wideB then .complex128 else .complex64
    let seqB := if lit.getLsbD 3 then some [1] else radicesOf c.c.rseq pointsB
    let slotEls : List DWord := (List.range 1024).map (fun e => BitVec.ofNat 64 (s.slotEl g.os 64 (e / 32) (e % 32)))
    let y (p : Nat) : Nat × Nat := pointAt wideB (if slot then slotEls else (c.tile g.ms1).elems) p
    let brev : Prop := MatActs s (.mbrev g)
      [(0x07, lit.setWidth 64, decide (lit.toNat / 2 ^ 4 ≠ 0)), if slot then c.unclaimed g.os else c.wrongKind g.ms1 [kindB],
        (0x47, lit.setWidth 64, seqB.isNone), c.noPanels g.md (!slot && g.md == g.ms1) 32]
      (if slot then (List.range 32).map (fun l => (g.os, l)) else [])
      (∀ rads, seqB = some rads → ∃ els, els.length = 1024 ∧
        Starts s (.mbrev g) 40 g.md (if slot then [] else [g.ms1]) (if slot then [g.os] else []) [] 32 (.blocks kindB els) [0] true ∧
        (∀ base pos, (base + 1) * rads.prod ≤ pointsB → pos < rads.prod →
          let n := base * rads.prod
          if lit.getLsbD 1 then pointAt wideB els (n + revPos rads pos) = y (n + pos)
          else pointAt wideB els (n + pos) = y (n + revPos rads pos)) ∧
        ∀ p, pointsB / rads.prod * rads.prod ≤ p → p < pointsB → pointAt wideB els p = y p)
    let logc := (fld lit 0 5).toNat
    let rowb := (fld lit 5 20).toNat
    let n6 := (c.rx f.xs).toNat
    let twmul (i : Instr) : Prop := MatActs s i
      [(0x07, lit.setWidth 64, decide (lit.toNat / 2 ^ 26 ≠ 0 ∨ 10 < logc)), c.wrongKind f.ms1 [kind],
        (0x47, lit.setWidth 64, decide (n6 = 0 ∨ 2 ^ 20 < n6 ∨ points < 2 ^ logc)), c.noPanels f.md (f.md = f.ms1) 32] []
      (∃ els fl, els.length = 1024 ∧ Starts s i 24 f.md [f.ms1] [] [] 32 (.blocks kind els) [fl] true ∧
        ∀ p, p < points → pointAt wide els p =
          let t := cmulTerms fm (x p) (twiddle fm (lit.getLsbD 25) ((rowb + p / 2 ^ logc) * (p % 2 ^ logc) % n6) n6)
          ((cround fm rm 1 0 (sumVals .rne t.1)).1 % cut, (cround fm rm 1 0 (sumVals .rne t.2)).1 % cut))
    (wide = false → bfly (.mbflyC64 f) ∧ twmul (.mtwmulC64 f)) ∧ (wide = true → bfly (.mbflyC128 f) ∧ twmul (.mtwmulC128 f)) ∧ brev

/-! ### Every core (R33 to R71, R384 to R390, R402, R429) -/

/-- R52, R96: a result is written at its boundary, in the order of its slots with transform results first; x0 and h0 discard.
Flags that a CSR write clears are cleared before those raised at the boundary are set. The other cores, the device, the tags
and the marks stay, and memory where no operand row is written. Before the boundary's landing writes are made, or while the
core is frozen, nothing is written. -/
def Obligations.ResultWriteback : Prop :=
  ∀ (s : State) (n : Nat),
    let c := s.core n
    let due := c.t.pend.filter (·.rem == 0)
    let ws := (orderPend due).map (·.w)
    (orderPend due).Perm due ∧ (orderPend due).Pairwise (fun p q => dueRank p ≤ dueRank q) ∧
    (c.frozen = true ∨ c.landDue ≠ [] → Stays s (.resultWriteback n)) ∧
    (c.frozen = false → c.landDue = [] →
      ∃ t, exec (.resultWriteback n) s = .next t ∧
        (t.core n).t = { c.t with pend := c.t.pend.filter (·.rem != 0) } ∧
        (∀ r, (t.core n).rx r = ((ws.filterMap (Write.onX r)).getLast?).getD (c.rx r)) ∧
        (∀ r, ((t.core n).rh r, (t.core n).rhtag r) = ((ws.filterMap (Write.onH r)).getLast?).getD (c.rh r, c.rhtag r)) ∧
        (∀ k, (t.core n).r.v[k]? = (c.r.v[k]?).map (ws.foldl (fun v w => Write.onV k w v))) ∧
        (∀ k, (t.core n).r.p[k]? = (c.r.p[k]?).map (ws.foldl (fun v w => Write.onP k w v))) ∧
        (t.core n).c.flags = ((c.c.flags &&& ~~~ (ws.map Write.clears).foldl (· ||| ·) 0) |||
          (due.map (·.flags)).foldl (· ||| ·) 0) ∧
        (∀ m, m ≠ n → t.core m = s.core m) ∧ t.dev = s.dev ∧ t.wheel = s.wheel ∧ t.agenda = s.agenda ∧
        (ws.any Write.isRow = false → t.mem = s.mem ∧ t.tags = s.tags ∧ t.marks = s.marks))

/-- R51, R117: a CSR's write reaches it at the boundary: its legal bits under the mask, with RMAX and RSEQ.COUNT held to
their greatest values; FLAGS and NARROW lose the bits written as one. No other CSR, register or byte changes. -/
def Obligations.CsrWrites : Prop :=
  ∀ (s : State) (n : Nat) (w : CsrWrite),
    let c := s.core n
    let t := applyWrite n (.csr w) s
    let c' := t.core n
    (w.num ∈ csrPlain → c'.csr w.num = csrLegalise w.num ((c.csr w.num &&& ~~~ w.mask) ||| (w.val &&& w.mask))) ∧
    (w.num = 0x801 → c'.c.flags = c.c.flags &&& ~~~ fld w.clear 8 5) ∧
    (w.num = 0x810 → c'.c.narrow = (c.c.narrow && !bit w.clear 0)) ∧
    (∀ k, k ≠ w.num → c'.csr k = c.csr k) ∧
    CoreBecomes s t n { c with c := c'.c, tr := c'.tr }

/-- R384, R386, R387: with a handler in force and no bank held, a trap of class T writes TCAUSE, TPC, TVAL, TSLOT, TELEM and
TLOOP, banks the timing state, and passes control to word 2 of the line that TVEC names. An issue or completion trap
while a bank is held, and a class T trap with a handler line that fails its check, is the double fault 0x67, with both causes
as TVAL; every other one goes to containment, without a write of the trap CSRs where a class Z cause is absorbed by zero substitution
(R394). Here no result of S, VA or VB is pending (entry writes those first). R391 to R396: containment takes the declared levels from the
core level up. Below the level that decides every policy is kill parent. Ignore of a class Z cause that is no double fault makes the
consumed parts zero and clears their marks, ZCNT rises and the bundle issues after four cycles; retry with fewer than three tries, where
the group may be started again, kills the group's tasks and starts those that lived again, with one try more; any other policy but kill
parent kills the group; kill parent at the highest level aborts the launch with the cause. Each decision is one entry of the die's log. -/
def Obligations.TrapEntry : Prop :=
  (∀ (s : State) (n : Nat) (t : Trap),
    let c := s.core n
    let csrs (u : Trap) : TrapCsrs :=
      { cause := u.cause, pc := c.k.pc, val := u.tval, slot := BitVec.ofNat 12 (u.rep % 16 * 256) ||| u.slot.code.setWidth 12
        elem := BitVec.ofNat 7 u.elem
        loop := match u.loop with
          | some (k, st) => 0x8000000000000000 ||| k.setWidth 64 <<< 16 ||| st.setWidth 64
          | none => 0 }
    let contains (u : Trap) (double : Bool) : Prop :=
      ∃ s', CoreBecomes s s' n { c with tr := csrs u } ∧ takeTrap n t s = s'.contain n u double
    let double (a b : BitVec 8) : Trap := { t with cause := 0x67, tval := (a.setWidth 64 <<< 8) ||| b.setWidth 64 }
    (∀ p ∈ c.t.pend, flushes p = false) → (∀ o ∈ c.t.eng, o.xdest = none) →
      (c.bank = none → causeClass t.cause = .t → bit c.c.tvec 0 = true → s.handlerFault n = none →
        CoreBecomes s (takeTrap n t s) n { c with
          tr := csrs t
          bank := some { t := c.t, loops := c.activeLoops, tpc := c.k.pc, replay := t.replay, cause := t.cause }
          t := .empty
          k := { c.k with pc := BitVec.ofNat 48 (c.c.tvec.toNat / 128 * 128 + 8), lineOk := true, launched := false, wait := none }
          m := { c.m with waiting := false, scHeld := none }
          delay := 4, entering := none }) ∧
      (c.bank = none → causeClass t.cause = .t → bit c.c.tvec 0 = true →
        ∀ code, s.handlerFault n = some code → contains (double t.cause code) true) ∧
      (c.bank = none → causeClass t.cause ≠ .z → (causeClass t.cause ≠ .t ∨ bit c.c.tvec 0 = false) → contains t false) ∧
      (∀ b, c.bank = some b → t.kind = .deferred → causeClass t.cause ≠ .z → contains t false) ∧
      ((c.bank = none ∨ t.kind = .deferred) → causeClass t.cause = .z → s.absorbs n = false → contains t false) ∧
      ((c.bank = none ∨ t.kind = .deferred) → causeClass t.cause = .z → s.absorbs n = true →
        ∃ s', CoreBecomes s s' n c ∧ takeTrap n t s = s'.contain n t false) ∧
      (∀ b, c.bank = some b → t.kind ≠ .deferred → contains (double b.cause t.cause) true)) ∧
  (∀ (s : State) (n : Nat) (t : Trap) (dbl : Bool) (k : Task), s.Ok → (s.core n).alive = true → (s.core n).task = some k →
    let c := s.core n
    let s' := s.contain n t dbl
    let logs (level : Nat) (action : BitVec 2) (tries : Nat) : Prop := LogsDecision s s' n k t dbl level action tries
    (s.findLaunch k.launch = none → (s'.core n).alive = false ∧ logs 0 2 0) ∧
    ∀ l, s.findLaunch k.launch = some l →
      let g (j : Nat) : Nat := l.groupOf j k.index
      let tries (j : Nat) : Nat := (l.groupSt j (g j)).tries
      let decides (j : Nat) : Prop := j ∈ l.levelsFrom 0 ∧ ∀ i ∈ l.levelsFrom 0, i < j → l.policy i = 3
      let restarts (j : Nat) : Prop := l.policy j = 1 ∧ tries j < 3 ∧ s.canRestart l t.cause (s.liveIndices l) j (g j) = true
      let gone (j : Nat) : Prop := ∀ m u, (s.core m).alive = true → (s.core m).task = some u → inGroup l j (g j) u = true →
        (s'.core m).alive = false
      (l.policy 0 = 0 → t.cause = 0xA0 → dbl = false → logs 0 0 (tries 0) ∧
        (s'.clog (dieOf n)).zcnt = (s.clog (dieOf n)).zcnt + 1 ∧
        (s'.core n).stall = 4 ∧ (s'.core n).task = c.task ∧ (s'.core n).mode = c.mode ∧ (s'.core n).tr = c.tr ∧
        (∀ r : XReg, Holder.x r ∈ t.zero → r ≠ 0 → (s'.core n).rx r = 0 ∧ (s'.core n).r.xmark.getLsbD r.toNat = false) ∧
        (∀ r : HReg, Holder.h r ∈ t.zero → r ≠ 0 → (s'.core n).rh r = 0 ∧ (s'.core n).rhtag r = false ∧
          (s'.core n).r.hmark.getLsbD r.toNat = false) ∧
        ∀ gr, Holder.granule gr ∈ t.zero → s.granuleOpen n gr = true →
          (∀ a, a / 32 = gr → s'.byte a = 0) ∧ KeySet.has s'.marks gr = false) ∧
      (∀ j, decides j → restarts j → logs j 1 (tries j + 1) ∧ gone j ∧ ∃ l', s'.findLaunch l.id = some l' ∧
        (l'.groupSt j (g j)).tries = tries j + 1 ∧ ∀ i ∈ s.liveIndices l, l.groupOf j i = g j → i ∈ l'.again) ∧
      (∀ j, decides j → l.policy j ≠ 3 → ¬restarts j → ¬(l.policy j = 0 ∧ t.cause = 0xA0 ∧ dbl = false) → logs j 2 (tries j) ∧ gone j ∧
        (∀ v ∈ s'.dev.sched.saved, inGroup l j (g j) v.task = false) ∧
        (∀ m, (∀ u, (s.core m).task = some u → ∀ i ∈ l.levelsFrom 0, i ≤ j → inGroup l i (g i) u = false) →
          (s'.core m).task = (s.core m).task) ∧
        ∃ l', s'.findLaunch l.id = some l' ∧ ∀ i ∈ l'.again, i ∈ l.again) ∧
      (∀ j, (l.levelsFrom 0).getLast? = some j → (∀ i ∈ l.levelsFrom 0, l.policy i = 3) → logs 7 3 (tries j) ∧
        (∀ m u, (s.core m).alive = true → (s.core m).task = some u → u.launch = l.id → (s'.core m).alive = false) ∧
        s'.findLaunch l.id = none ∧
        ∀ p ∈ s.dev.sched.packets, p.id = l.packet → p.outcome = none →
          ∃ p' ∈ s'.dev.sched.packets, p'.id = p.id ∧ p'.outcome = some t.cause))

/-- R384, R385, R386: at a bundle boundary the completion trap of the bundle that has ended is taken first, then deferred traps,
the oldest first; while a handler's bank is held, or away from a boundary, only a contained cause is taken. A task that waits at
SSTEP stands at a boundary (R289). R389: a handler that has drained gives back its bank at the TPC as TRET found it, after four
cycles; its results that fall due before then are written, the others stay due, and a vector atomic to be carried out again
comes back with it, from the element that TELEM names. The model's readings here: a halting task takes only contained traps (log
58), class T traps wait while a barrier unit's answer is awaited (log 59), and the delay and the results at TRET's resume (log
26). -/
def Obligations.TrapEventsAtBoundary : Prop :=
  ∀ (s : State) (n : Nat),
    let c := s.core n
    let takes (t : Trap) (left : Core) : Prop :=
      ∃ s1, CoreBecomes s s1 n left ∧ exec (.trapEntry n) s = .next (s1.trapCycle n t)
    let here : Prop := c.mode = .running ∧ c.delay = 0 ∧ c.m.bar = [] ∧ c.tretDrain = none ∧ c.entering = none
    let completes : Prop := c.comp.isSome = true ∧ here ∧ c.t.issue = 0
    c.atWork = true →
      (c.frozen = true → Stays s (.trapEntry n)) ∧
      (c.frozen = false → ∀ t, c.comp = some t → here → c.t.issue = 0 → takes t { c with comp := none }) ∧
      (c.frozen = false → ¬completes → here → c.bank = none → ∀ t rest, c.deferred = t :: rest →
        takes t { c with deferred := rest }) ∧
      (c.frozen = false → ¬completes → (¬here ∨ c.bank ≠ none) → ∀ pre t post, c.deferred = pre ++ t :: post →
        causeClass t.cause ≠ .t → (∀ u ∈ pre, causeClass u.cause = .t) → takes t { c with deferred := pre ++ post }) ∧
      (c.frozen = false → ¬completes → (c.deferred = [] ∨ ((¬here ∨ c.bank ≠ none) ∧ ∀ u ∈ c.deferred, causeClass u.cause = .t)) →
        Stays s (.trapEntry n)) ∧
      (c.mode = .running → ∀ pc el b, c.tretDrain = some (pc, el) → c.bank = some b → c.t.drained = true →
        let s' := s.writePend n Pend.early
        let c' := s'.core n
        exec (.tretResume n) s = .next (s'.setCore n { c' with
          t := (if pc = b.tpc then b.t else { b.t with issue := 0 }).withPend c'.t.pend
          bank := none, tretDrain := none, delay := 4
          m := { c'.m with accs := (match b.replay with
            | some a => [match a.kind with
              | .vamo op ph act offs d _ rm => { a with kind := .vamo op ph act offs d el.toNat rm, reply := none, performed := false }
              | _ => a]
            | none => []) ++ c'.m.accs }
          k := { c'.k with pc := pc, lineOk := false } }))

/-- R429: an operation that reads a register part with a poison mark takes cause 0xA0 before any other check, and has no
other effect; the trap names every marked part that the operation reads. -/
def Obligations.PoisonTaken : Prop :=
  ∀ (s : State) (i : Instr) (t : Trap),
    s.poisonTrap i (if Instr.takesLiteral i then s.literal else 0) = some t →
      exec i s = .next (s.raise t) ∧ t.cause = 0xA0 ∧ t.kind = .issue ∧ t.zero ≠ [] ∧
        ∀ h, h ∈ t.zero ↔ readsHolder i h = true ∧
          h ∈ s.cur.marks (Instr.uses s.cur s.iss.off.isSome (if Instr.takesLiteral i then s.literal else 0) i)

/-- A step whose turn is core n's, at a boundary where nothing is due and no trap waits: the bundle at the pc is read from
memory and checked, each of its operations is the one that its slot word encodes or stands from an earlier bundle, and the
operations are carried out, each by `exec`, where the code that the issue reads may be read. Then loops close, and the issue is committed: the
bundle's next issue, or the next bundle. `settle` and `commit` are what the step adds around `exec`. The model's here: the operations of an
issue are carried out one after another (DESIGN CHOICE, log 6), two SC operations of one issue have a position of W each (DEDUCED, log
60), and code waits for the clock of its home (DEDUCED, log 17). -/
def Obligations.StepRunsBundle : Prop :=
  ∀ (s0 s : State) (n : Nat) (rest : List Turn) (b : Bundle) (ops : List Op) (s2 s3 : State),
    s0.agenda = .core n :: rest → n < 768 → (s0.core n).atWork = true → (s0.core n).mode = .running →
    (s0.core n).preempt = false → (s0.core n).yielding = false → (s0.core n).deferred = [] → (s0.core n).delay = 0 →
    (s0.core n).frozen = false → s = { s0 with agenda := rest }.settle n →
    let c := s.core n
    let rank := s.scRankNow c
    let open_ := s.openIssue n (bundleHead b).rep
    let two := decide (1 < ops.countP (fun o => Instr.isSc o.i))
    let start := open_.setCore n { c with m := { c.m with
      scRank := if two then c.m.scHeld else rank, scHeld := if two then rank else none } }
    c.entering = none → s.takeDue n = none → c.mode = .running → c.tretDrain = none → c.stall = 0 →
    (c.sstep = false ∨ c.bank ≠ none) → c.m.bar = [] → s.absent n c.k.pc.toNat = none → s.lineTrap n = none →
    s.bundleAt n c.k.pc.toNat = some b → s.bundleOps n b = .ok ops → (∀ o ∈ ops, Instr.isOp o.i = true) →
    (∀ o ∈ ops, open_.stallsOp o = false ∧ open_.onBanked ops o = false) → open_.spadWaits ops = false →
    s.codeKnown n c.k.pc.toNat = true → s.literalUnknown n ops = false →
    s.literalWaits n ops = false → open_.countersFull ops = false →
    Runs ops start s2 →
    (if (bundleHead b).rep ≤ c.t.issue then s2.closeBundle = .ok s3 else s3 = s2) →
    (∀ a, s3.iss.xfer = some a → s.codeKnown n a.toNat = true) →
    c.waitHolds b = false → (rank = none → ∀ o ∈ ops, Instr.isSc o.i = false) → (∀ o ∈ ops, s.opHolds n o = false) →
    (two = true → c.m.scHeld ≠ none) →
      step s0 = .next (s.commit n b ops (c.idleSlots b) s3 none) ∧
      ∀ o ∈ ops, (∃ w, (o.slot, w) ∈ b.slots ∧ decodeSlot o.slot w = .ok o.i) ∨
        ∃ st, c.t.stand.get o.slot = some st ∧ o.i = st.step.op

/-- R56, R69: a bundle's further issue is the core's next cycle, and a bundle with none left has none. R290: an SC
operation's issue is the core's cycle where its window holds a position that the task owns. R322: a segment mark starts the
copy of the segment's NEXT where that is neither none, resident, nor in the own segment's lines, and no copy is in flight.
R321: when the copied segment's lines have landed they stand in IMEM, the segment is resident and nothing waits for it, unless an IINV came. R324: where
a line fails, the segment is not resident and what waits for it has the line that failed. -/
def Obligations.IssueEvents : Prop :=
  ∀ (s : State) (n : Nat),
    let c := s.core n
    (c.t.issue ≠ 0 → exec (.repeatIssue n) s = .next (s.coreCycle n)) ∧ (c.t.issue = 0 → Stays s (.repeatIssue n)) ∧
    (∀ b ops o d, s.bundleAt n c.k.pc.toNat = some b → s.bundleOps n b = .ok ops → o ∈ ops → Instr.isSc o.i = true →
      c.m.sample < s.wheel - d → d * (16 - s.dev.power.div.toNat) < 16 → wheelOwns c.c.wheel ((s.wheel - d) % 1024) = true →
      exec (.scWheelIssue n) s = .next (s.coreCycle n)) ∧
    (∀ a own g, c.k.mark = some a → s.segOf c a.toNat = some own → s.segAt c own.next = some g →
      own.next ≠ 0xFFF → g.num ∉ c.k.resident → c.k.segCopy = none → g.overlaps own = false →
      Becomes s (.segmentMark n) n { c with k := { c.k with
        mark := none, segCopy := some g.num, segStale := false
        resident := c.k.resident.filter (fun k => !(s.segAt c k).any (fun h => h.overlaps g)) } }) ∧
    (∀ g, c.k.segCopy = some g.num → s.segAt c g.num = some g → s.linesReady n g = false → Stays s (.overlaySegmentLanded n)) ∧
    (∀ g a, c.k.segCopy = some g.num → s.segAt c g.num = some g → s.linesReady n g = true → s.badLine n g = some a →
      ∃ t, exec (.overlaySegmentLanded n) s = .next t ∧ t.mem = s.mem ∧ t.tags = s.tags ∧ t.marks = s.marks ∧
        t.core n = { c with k := { c.k with
          segCopy := none, segStale := false
          wait := c.k.wait.map (fun w => if w.1 = g.num then (w.1, some a) else w) } } ∧
        ∀ m, m ≠ n → t.core m = s.core m) ∧
    (∀ g, s.Ok → c.k.segCopy = some g.num → s.segAt c g.num = some g → s.linesReady n g = true → s.badLine n g = none →
      g.nlines ≤ 2048 →
      ∃ t, exec (.overlaySegmentLanded n) s = .next t ∧
        (∀ i k, i < g.nlines → k < 128 →
          t.byte (mkey .imem n (128 * (g.iline + i) + k)) =
            s.byte (mkey .glob 0 (c.c.codebase.toNat + 128 * (g.aline + i) + k))) ∧
        (∀ a, a < mkey .imem n (128 * g.iline) ∨ mkey .imem n (128 * (g.iline + g.nlines)) ≤ a → t.byte a = s.byte a) ∧
        t.core n = { c with k := { c.k with
          segCopy := none, segStale := false
          wait := if c.k.segStale then c.k.wait else c.k.wait.filter (fun w => w.1 ≠ g.num)
          resident := if c.k.segStale then c.k.resident else KeySet.add c.k.resident g.num } } ∧
        (∀ m, m ≠ n → t.core m = s.core m) ∧ t.dev = s.dev ∧ t.tags = s.tags ∧ t.marks = s.marks)

/-- R53, R55, R199 to R201: at a boundary of a core that is not frozen, each landing entry whose count has run out is
written, the older first, and leaves the buffer; the pending format mode rules from its fifth advance cycle; an engine
operation starts; each block that has stood at the port is written into its tile with its flags, scaled by the
exponent that meets it; an operation whose last block has left retires: the tile has its kind and panels, TL falls,
and the operand slots marked as last read are released, one that another operation still locks by the last of those (R419). A frozen core does none of these, and blocks and retiring wait
for the boundary's other results. R191, R192, R296: the next block of a weight fill goes into its line of the slot:
256 bytes of values and 32 of side store, as the remap entry's slot holds them, with the line verified where the MAC
holds and its two rows marked poisoned where it does not, in the order of the task's accesses (R266, R297). R298: a block of
another context's region delivers nothing of its contents: a free value, unverified and marked (R346). R192: a fill that is whole when its count has run out is complete, and WL falls. -/
def Obligations.EngineAndFillEvents : Prop :=
  (∀ (s : State) (n : Nat),
     let c := s.core n
     let due := c.t.landing.filter (·.rem == 0)
     (c.frozen = true → ∀ i ∈ ([.landingCountExpiry n, .fmtShadowExpiry n, .portBlock n, .xscaleExecute n, .engineRetire n] : List Instr),
       Stays s i) ∧
     (c.frozen = false →
       (∃ t, exec (.landingCountExpiry n) s = .next t ∧
         (t.core n).t = { c.t with landing := c.t.landing.filter (·.rem != 0) } ∧
         (t.core n).c = { c.c with narrow := c.c.narrow || due.any (·.narrow) } ∧
         (∀ k, (t.core n).r.v[k]? = (c.r.v[k]?).map (due.foldl (fun v l => Write.onV k l.write v))) ∧
         (∀ r, (t.core n).rx r = ((due.filterMap (fun l => Write.onX r l.write)).getLast?).getD (c.rx r)) ∧
         (∀ r, (t.core n).rh r = (((due.filterMap (fun l => Write.onH r l.write)).getLast?).map (·.1)).getD (c.rh r)) ∧
         (∀ m, m ≠ n → t.core m = s.core m) ∧ t.dev = s.dev ∧ t.mem = s.mem ∧ t.tags = s.tags ∧ t.marks = s.marks) ∧
       (∀ f, c.t.shadow = some f → Becomes s (.fmtShadowExpiry n) n
         (if f.rem = 0 then { c with c := { c.c with acc := f.acc, rm := f.rm }, t := { c.t with shadow := none } } else c)) ∧
       (c.t.shadow = none → Becomes s (.fmtShadowExpiry n) n c)) ∧
     Becomes s (.engineOpStart n) n { c with t := { c.t with
       eng := c.t.eng.map (fun o => if o.begun = false ∧ o.left ≤ o.dur + 8 then { o with begun := true } else o) } } ∧
     (s.resultsDue n = false → ∀ (pre : List EngOp) (o : EngOp) (post : List EngOp), c.t.eng = pre ++ o :: post →
       (∀ e ∈ pre ++ post, e.portDue = false) → o.left < 8 - o.done → o.done < 8 →
       let t0 := c.tile o.md
       let old (i : Nat) : DWord := if t0.elems.length = 1024 then t0.elems.getD i 0 else 0
       let left (es : List DWord) : Core := { c with
         r := { c.r with tiles := c.r.tiles.set o.md.toNat { t0 with elems := es } }
         c := { c.c with flags := if o.atRetire then c.c.flags else c.c.flags ||| o.flags.getD o.done 0 }
         t := { c.t with
           eng := pre ++ { o with done := o.done + 1 } :: post
           scale := c.t.scale.filter (·.rem != 0) } }
       let writes (i : Instr) (new : Nat → DWord) : Prop :=
         ∃ es : List DWord, es.length = 1024 ∧
           (∀ k, k < 1024 → es.getD k 0 = if k / 128 = o.done then new k else old k) ∧ Becomes s i n (left es)
       (∀ kind es, o.res = .blocks kind es → es.length = 1024 → writes (.portBlock n) (fun k => es.getD k 0)) ∧
       (∀ ps acc e, o.res = .scaled ps acc → ps.length = 1024 → acc.length = 1024 → c.t.scale.filter (·.rem == 0) = [e] →
         writes (.xscaleExecute n) (fun k => scaleElem o.rm (ps.getD k (0, false)).1 (ps.getD k (0, false)).2 e.e (acc.getD k 0)))) ∧
     (s.resultsDue n = false → ∀ (pre : List EngOp) (o : EngOp) (post : List EngOp), c.t.eng = pre ++ o :: post → o.left = 0 →
       o.done = 8 → (∀ e ∈ pre ++ post, e.retires = false) →
       let others := pre ++ post ++ (match c.bank with
         | some b => b.t.eng.filter (fun e => !e.retires)
         | none => [])
       let passed (e : EngOp) : EngOp :=
         { e with lastRead := e.lastRead ++ o.lastRead.filter (fun k => e.slots.contains k && !e.lastRead.contains k) }
       ∃ c', Becomes s (.engineRetire n) n c' ∧ c'.c.tl = c.c.tl - 1 ∧ c'.t = { c.t with eng := (pre ++ post).map passed } ∧
         c'.c.flags = (if o.atRetire then c.c.flags ||| o.flags.foldl (· ||| ·) 0 else c.c.flags) ∧
         (∀ k : OSlot, c'.slot k =
           if k ∈ o.lastRead ∧ ∀ e ∈ others, k ∉ e.slots then { c.slot k with claimed := false } else c.slot k) ∧
         (∀ m : MReg, m ≠ o.md → c'.tile m = c.tile m) ∧
         c'.tile o.md = (match o.res with
           | .whole rank u v => { kind := .lowRank, rank := rank, panels := o.reserved.take (2 * rank), elems := [], u := u, v := v }
           | .blocks kind _ => { kind := kind, rank := 0, panels := o.reserved.take 32, elems := (c.tile o.md).elems, u := [], v := [] }
           | .scaled _ _ => { kind := .dense, rank := 0, panels := o.reserved.take 32, elems := (c.tile o.md).elems, u := [], v := [] }) ∧
         (∀ r : XReg, c'.rx r = match o.xdest with
           | some (k, e) => if r = k ∧ r ≠ 0 then c.rx r + e else c.rx r
           | none => c.rx r))) ∧
  ∀ (s : State) (n : Nat) (os : OSlot), s.Ok →
    let c := s.core n
    let bank := bankOf (dieOf n)
    (c.fillOf os = none → Stays s (.wloadBlockArrival n os)) ∧
    (∀ f, c.fillOf os = some f → s.blockReady n f = false → Stays s (.wloadBlockArrival n os)) ∧
    (∀ f, c.fillOf os = some f → f.done.length = 32 → s.blockReady n f = false) ∧
    (∀ f, c.fillOf os = some f → f.done.length < 32 → s.blockReady n f = true →
      let i := f.done.length
      let a := f.addr + 256 * i
      let barred := match s.regionOf (dieOf n) (a / 2 ^ 29) (blkOf a) with
        | some r => r.toNat / 2 ^ 112 % 2 ^ 16 ≠ (s.ctxOf n).toNat ∧ r.toNat / 2 ^ 112 % 2 ^ 16 ≠ 0
        | none => False
      ∃ t, exec (.wloadBlockArrival n os) s = .next t ∧
        (∀ k, k ≠ os → (t.core n).slot k = c.slot k) ∧
        (∀ x, s.owedBy (clusterOf n) x = false →
          (x < mkey .opmem n (8192 * os.toNat + 256 * i) ∨ mkey .opmem n (8192 * os.toNat + 256 * i + 256) ≤ x) →
          (x < mkey .side n (1024 * os.toNat + 32 * i) ∨ mkey .side n (1024 * os.toNat + 32 * i + 32) ≤ x) → t.byte x = s.byte x) ∧
        (∀ g, (t.core n).fillOf os = some g → g.done = f.done ++ [i]) ∧
        (barred → bit ((t.core n).slot os).verified i = false ∧ bit ((t.core n).slot os).marks (2 * i) = true ∧
          bit ((t.core n).slot os).marks (2 * i + 1) = true ∧
          (∀ k, k < 256 → s.owedBy (clusterOf n) (mkey .opmem n (8192 * os.toNat + 256 * i) + k) = false →
            t.byte (mkey .opmem n (8192 * os.toNat + 256 * i) + k) = fld (Config.freeWord s.free) (8 * (k % 128)) 8) ∧
          (∀ k, k < 32 → s.owedBy (clusterOf n) (mkey .side n (1024 * os.toNat + 32 * i) + k) = false →
            t.byte (mkey .side n (1024 * os.toNat + 32 * i) + k) = fld (Config.freeWord s.free) (8 * k) 8)) ∧
        (¬barred → ∀ sl, s.slotOfBlock (bank a) (blkOf a) = some sl →
          (∀ k, k < 256 → s.owedBy (clusterOf n) (mkey .opmem n (8192 * os.toNat + 256 * i) + k) = false →
            t.byte (mkey .opmem n (8192 * os.toNat + 256 * i) + k) = (s.slotVals (bank a) sl).getD k 0) ∧
          (∀ k, k < 32 → s.owedBy (clusterOf n) (mkey .side n (1024 * os.toNat + 32 * i) + k) = false →
            t.byte (mkey .side n (1024 * os.toNat + 32 * i) + k) =
            if bit (s.slotFlags (bank a) sl) 0 then (s.slotSide (bank a) sl).getD k 0 else 0) ∧
          bit ((t.core n).slot os).verified i = !s.slotBad (bank a) sl ∧
          bit ((t.core n).slot os).marks (2 * i) = s.slotBad (bank a) sl ∧
          bit ((t.core n).slot os).marks (2 * i + 1) = s.slotBad (bank a) sl)) ∧
    (s.resultsDue n = false → (∃ f ∈ c.t.fills, f.os = os ∧ f.rem = 0) →
      Becomes s (.wloadFillExpiry n os) n { c with
        c := { c.c with wl := c.c.wl - (c.t.fills.filter (·.rem == 0)).length }
        t := { c.t with fills := c.t.fills.filter (·.rem != 0) } }) ∧
    (s.resultsDue n = true → Stays s (.wloadFillExpiry n os))


/-! ### The memory system's events (R174 to R183, R252, R265 to R273, R423 to R437) -/

/-- R53, R175, R263, R428, R436: data arrive for a landing entry, unit by unit: each byte is the task's own earlier store, else
what its place reads once its line has been brought, and a doubleword with a marked byte is marked; where the transfer fails its
check every doubleword is. R174, R263: a store's next unit is performed at its home, where its bytes stand and their tags clear, is
sent there, or stays in the slice, which then owes it (R253); one that the Wicket or a link refuses writes nothing and its cause is
deferred. Once performed and written back it is acknowledged and CNT.ST falls. R178, R183, R273: an atomic is one read and one
write at its home, or a request to a home on another die; its register takes the old value, and a poisoned target is not changed.
An access that the order of R175 and R179 holds back waits. -/
def Obligations.AccessEvents : Prop :=
  ∀ (s : State) (n id : Nat), s.Ok →
    let c := s.core n
    let clu := clusterOf n
    let calm : Prop := ∀ f ∈ c.m.fences, f.far = false
    (s.dataReady n id = false → ∀ v, Stays s (.landingDataArrival n id v)) ∧
    (∀ l o a z, c.landings.find? (·.id == id) = some l → s.landingReady n l = true → l.srcs.getD (s.pick l.left) (0, 0, 0) = (o, a, z) →
      o + z ≤ 128 → s.miscoded (s.transferKeys n id) = false →
      let k := s.place n l.cap a
      (∀ i, i < z → s.verdict (s.ctxOf n) l.cap (k + i) = .ok) → s.verdict (s.ctxOf n) l.cap (k + z - 1) = .ok →
      s.verdict (s.ctxOf n) l.cap k = .ok →
      ∀ v : Bool, ∃ t, exec (.landingDataArrival n id v) s = .next t ∧ KeepsMemory s t (s.owedBy clu) ∧
        (∀ m, (t.core m).r = (s.core m).r) ∧ (s.owesOpen clu = true → (t.core n).m.accs = c.m.accs) ∧
        let own (i : Nat) : Option Byte := s.forward n id (k + i)
        let mem (i : Nat) : Byte × Bool := (s.fillPieces n l.cap [(a, z)]).readByte n (capPolicy l.cap) (k + i)
        ∃ l' ∈ (t.core n).landings, l'.id = id ∧ l'.left = l.left.filter (· != s.pick l.left) ∧ l'.arrived = l'.left.isEmpty ∧
          l'.dest = l.dest ∧ l'.mask = l.mask ∧ l'.rem = l.rem ∧
          (v = true → ∀ i, i < z → byteOf l'.data (o + i) = byteOf l.data (o + i) ||| (own i).getD (mem i).1) ∧
          (∀ d, d < 16 → l'.marks.getLsbD d = (l.marks.getLsbD d || (List.range z).any (fun i => (o + i) / 8 == d &&
            (!v || ((own i).isNone && (mem i).2)))))) ∧
    (∀ a, c.findAcc id = some a → a.isStore = true → a.performed = true → (∀ m ∈ s.dev.ms.msgs, m.of n id = false) →
      ∃ t, exec (.storeAck n id) s = .next t ∧ KeepsMemory s t (s.owedBy clu) ∧ (t.core n).r = c.r ∧ t.unwritten n a = false ∧
        (t.core n).findAcc id = none ∧ (t.core n).c = (c.retire a).c) ∧
    (∀ a bytes, c.findAcc id = some a → a.kind = .store bytes → a.performed = false → s.storeReady n a = true →
      a.left ≠ [] → calm →
      let unit := s.pick a.left
      let at_ := (bytes.filter (fun b => a.unitOf b.1 == unit)).map (fun b => (s.place n a.cap b.1, b.2))
      let low : Prop := ∀ b ∈ bytes, b.1 < 2 ^ 48
      let last : Prop := a.done = [] ∧ a.left = [unit] ∧ ∀ m ∈ s.dev.ms.msgs, m.of n id = false
      let ends (t : State) : Prop := (t.core n).r = c.r ∧ (last → (t.core n).findAcc id = none) ∧
        (1 < a.left.length → (t.core n).findAcc id = some { a with done := a.done ++ [unit] })
      (∀ b ∈ at_, s.verdict (s.ctxOf n) a.cap b.1 = .ok) →
      (capSpace a.cap = spClus →
        ∃ t, exec (.storeAck n id) s = .next t ∧ (∀ x, t.byte x = (lastAt at_ x).getD (s.byte x)) ∧
          (∀ g, KeySet.has t.tags g = (KeySet.has s.tags g && !at_.any (fun b => b.1 / 32 == g))) ∧ ends t) ∧
      (capSpace a.cap = spHost ∨ capSpace a.cap = spPeer →
        let stays : Prop := capPolicy a.cap ≠ 3 ∧ a.carries = none ∧ s.cacheWays clu ≠ 0
        (¬stays → s.owesOpen clu = true → ∃ t, exec (.storeAck n id) s = .next t ∧ ends t ∧
          ∀ x, (lastAt at_ x).isSome = true ∨ s.owedBy clu x = false → t.byte x = (lastAt at_ x).getD (s.byte x)) ∧
        (stays → ∃ t, exec (.storeAck n id) s = .next t ∧ KeepsMemory s t (s.owedBy clu) ∧ (t.core n).r = c.r ∧
          (last → (∀ e ∈ s.dev.ms.lines, e.2.bytes.length = 256) → low → (∀ b ∈ at_, lineKey b.1 = lineKey ((at_.map (·.1)).headD 0)) →
            (t.core n).findAcc id = some { a with done := [unit], performed := true } ∧
            ∀ x v, lastAt at_ x = some v → ∃ l, t.sliceLine clu x = some l ∧ (l.byteAt x).1 = v ∧ t.owedBy clu x = true))) ∧
      (capSpace a.cap = spGlob → low → (∀ b ∈ at_, homeDie (keyOff b.1) = dieOf n) →
        ∃ t, exec (.storeAck n id) s = .next t ∧ ends t ∧
          ∀ x, t.byte x = (lastAt (at_.filter (fun b => !s.descIgnores (keyOff b.1))) x).getD (s.byte x)) ∧
      (∀ h, capSpace a.cap = spGlob → low → h ≠ dieOf n → h < 8 → s.dev.lost.contains h = false →
        (∀ b ∈ at_, homeDie (keyOff b.1) = h) →
        ∃ t, exec (.storeAck n id) s = .next t ∧ KeepsMemory s t s.owedAny ∧
          (t.core n).findAcc id = some { a with done := a.done ++ [unit], performed := decide (a.left.length = 1) } ∧
          ∃ m ∈ t.dev.ms.msgs, m.src = dieOf n ∧ m.dst = h ∧ m.body = .write n (some a.id) none (s.ctxOf n) at_ [] [] (a.relInfo n))) ∧
    (∀ a b, c.findAcc id = some a → a.kind = .store [b] → a.performed = false → a.done = [] → a.refused = false →
      s.storeReady n a = true → calm → s.verdict (s.ctxOf n) a.cap (s.place n a.cap b.1) ≠ .ok →
      ∃ t, exec (.storeAck n id) s = .next t ∧ t.mem = s.mem ∧ t.tags = s.tags ∧ t.marks = s.marks ∧
        ∃ u, (t.core n).deferred = c.deferred ++ [u] ∧
          u.cause = (s.verdict (s.ctxOf n) a.cap (s.place n a.cap b.1)).cause) ∧
    (∀ a op xd src cmp, c.findAcc id = some a → a.kind = .amo op xd src cmp → a.reply = none → s.atomicReady n a = true →
      let k := s.place n a.cap a.addr
      let keys := (List.range 8).map (k + ·)
      let s1 := s.settled clu keys
      let old := BitVec.ofNat 64 (s1.nat k 8)
      let quiet : Prop := calm ∧ a.acq ≠ some .domain
      s.verdict (s.ctxOf n) a.cap k = .ok → s.verdict (s.ctxOf n) a.cap (k + 7) = .ok →
      (capSpace a.cap = spGlob → homeDie (keyOff k) ≠ dieOf n → homeDie (keyOff k) < 8 →
        s.dev.lost.contains (homeDie (keyOff k)) = false →
        ∃ t, exec (.homeAtomicExecute n id) s = .next t ∧ (t.core n).r = c.r ∧
          (t.core n).findAcc id = some { a with performed := true } ∧
          ∃ m ∈ t.dev.ms.msgs, m.src = dieOf n ∧ m.dst = homeDie (keyOff k) ∧ m.body = .atomic n a.id (s.ctxOf n)) ∧
      ((capSpace a.cap = spGlob → homeDie (keyOff k) = dieOf n) → (∀ i, i < 8 → s.descIgnores (keyOff (k + i)) = false) →
        (s1.marked k 8 = false → ∃ t, exec (.homeAtomicExecute n id) s = .next t ∧
          (∀ r, (t.core n).rx r = if r = xd ∧ r ≠ 0 then old else c.rx r) ∧ (t.core n).findAcc id = none ∧
          (quiet → (∀ i, i < 8 → t.byte (k + i) = byteOf (amoNew op old src cmp) i) ∧
            ∀ x, (x < k ∨ k + 8 ≤ x) → s.owedBy clu x = false → t.byte x = s.byte x)) ∧
        (s1.marked k 8 = true → ∃ t, exec (.homeAtomicExecute n id) s = .next t ∧ (t.core n).findAcc id = none ∧
          (calm → t.mem = s1.mem) ∧ (xd ≠ 0 → (t.core n).r = { c.r with xmark := setBit c.r.xmark xd.toNat true })))) ∧
    (∀ a op ph act offs d next rm j, c.findAcc id = some a → a.kind = .vamo op ph act offs d next rm → a.reply = none →
      s.atomicReady n a = true → nextActive act next = some j →
      let k := s.place n a.cap (capBase a.cap + offs.getD j 0)
      let keys := (List.range 4).map (k + ·)
      let s1 := s.settled clu keys
      s.verdict (s.ctxOf n) a.cap k = .ok → s.verdict (s.ctxOf n) a.cap (k + 3) = .ok →
      (capSpace a.cap = spGlob → homeDie (keyOff k) = dieOf n) →
      (∀ i, i < 4 → s.descIgnores (keyOff (k + i)) = false) → s1.marked k 4 = false →
      ∃ t, exec (.homeAtomicExecute n id) s = .next t ∧
        (calm → a.acq ≠ some .domain →
          (∀ i, i < 4 → t.byte (k + i) = byteOf (BitVec.ofNat 32 (vamoNew op rm (s1.nat k 4) (elemOf 32 d.toNat j))) i) ∧
          ∀ x, (x < k ∨ k + 4 ≤ x) → s.owedBy clu x = false → t.byte x = s.byte x) ∧
        (∀ v, c.r.v[ph]? = some v → ∃ v' : Vec, (t.core n).r.v[ph]? = some v' ∧
          ∀ i, i < 32 → elemOf 32 v'.toNat i = if i = j ∧ op ≠ .redst then s1.nat k 4 else elemOf 32 v.toNat i))

/-- R271: a stamped message is delivered once the receiver's clock admits it, and the clock takes its stamp; a store that it
carries stands at its home from then. R253: a line invalidated by its home leaves a slice and every L1 of its cluster.
R423, R425, R429, R434, R436, R437: a granule that fails its check is marked, its bytes stay, and the error is recorded; a MAC is
one of eight granules of GLOB; a line that a slice or an L1 holds fails in its copy; a register, a row of an operand slot or a
doubleword of a landing entry is marked, while a predicate or a tile, which has no mark, is the model's choice (DESIGN CHOICE, log 94);
a decode error is one of the next transfer of its line, which it poisons whole (DEDUCED, log 21); a weight block whose MAC fails is bad; a
failing barrier object loses ACT. R423, R424, R425: a flit that fails poisons what follows it: every doubleword of the load that it
serves, the line that a weight fill takes, the granules that a store's unit writes; an atomic whose request fails acts as on a poisoned
target (R430, R431); a segment copy's line leaves the segment not resident and fails the fetch that waits on it. The banks of a lost die
record nothing (R451). -/
def Obligations.CoherenceEvents : Prop :=
  ∀ (s : State), s.Ok →
    (∀ k m, s.dev.ms.msgs.find? (·.id == k) = some m →
      (s.deliverable m = false → Stays s (.stampedMessageDelivery k)) ∧
      (s.deliverable m = true →
        let ms : MemSys := { s.dev.ms with
          msgs := s.dev.ms.msgs.filter (·.id != k)
          clocks := s.dev.ms.clocks.set m.dst (Clock.join (s.clock m.dst) m.stamp) }
        (∀ keys, m.body = .announce keys ∨ m.body = .notice keys → ∃ t, exec (.stampedMessageDelivery k) s = .next t ∧
          t.dev.ms.clocks = ms.clocks ∧ t.dev.ms.msgs = ms.msgs ∧ KeepsMemory s t s.owedAny ∧
          (∀ n, (t.core n).r = (s.core n).r) ∧ ∀ e ∈ t.dev.ms.lines, e.1 / 12 = m.dst → e.2.key ∉ keys) ∧
        (∀ core acc job ctx bytes tags marks rel, m.body = .write core acc job ctx bytes tags marks rel →
          (∀ b ∈ bytes, keySpace b.1 = 0) →
          let admitted (b : Nat × Byte) : Bool := (s.owner (ownerPage (keyOff b.1))).admits ctx
          (∃ t, exec (.stampedMessageDelivery k) s = .next t ∧
            (∀ x, t.byte x = (lastAt (bytes.filter (fun b => admitted b && !s.descIgnores (keyOff b.1))) x).getD (s.byte x)) ∧
            ∀ n, (t.core n).r = (s.core n).r) ∧
          ((∀ b ∈ bytes, admitted b = false) →
            ∃ t, exec (.stampedMessageDelivery k) s = .next t ∧ t.mem = s.mem ∧ t.tags = s.tags ∧ t.marks = s.marks)))) ∧
    (∀ clu line, ∃ t, exec (.directoryInvalidate clu line) s = .next t ∧ KeepsMemory s t (s.owedBy clu) ∧
      (∀ l, s.dev.ms.lines.filter (fun e => e.1 == clu && e.2.key == lineKey line) = [(clu, l)] → s.lineOpen l = true →
        ∀ b ∈ l.owing, t.byte b.1 = b.2) ∧
      t.dev.ms.lines = s.dev.ms.lines.filter (fun e => !(e.1 == clu && e.2.key == lineKey line)) ∧
      ((∀ e ∈ s.dev.ms.lines, e.1 = clu → e.2.key = lineKey line → e.2.owing = [] ∨ s.lineOpen e.2 = true) →
        ∀ n, t.core n = { s.core n with m := { (s.core n).m with
          l1 := (s.core n).m.l1.filter (fun l => !(clusterOf n == clu && l.key == lineKey line)) } })) ∧
    (∀ key cond, keySpace key ≤ 2 →
      ∃ t, exec (.memoryFaultFound (.granule key) cond) s = .next t ∧ t.mem = s.mem ∧ t.tags = s.tags ∧ t.cores = s.cores ∧
        (∀ g, KeySet.has t.marks g = (KeySet.has s.marks g || (match cond with
          | .decode => false
          | .poisoned | .ecc => g == key / 32
          | .mac => keySpace key == 0 && g / 8 == key / 32 / 8))) ∧
        (cond = .ecc ∨ cond = .decode ∨ (cond = .mac ∧ keySpace key = 0) → (key / 32, cond) ∈ t.dev.ms.broken) ∧
        (cond = .ecc ∨ (cond = .mac ∧ keySpace key = 0) →
          s.dev.lost.contains (markBank key).1 = false →
          (t.bank (markBank key).1 (markBank key).2.1).status.getLsbD 63 = true)) ∧
    (∀ clu key l, clu < 96 → s.sliceLine clu key = some l →
      ∃ t, exec (.memoryFaultFound (.line clu key) .ecc) s = .next t ∧ t.mem = s.mem ∧ t.tags = s.tags ∧ t.marks = s.marks ∧
        (t.sliceLine clu key).map (fun l => l.marks.getLsbD ((key - l.key) / 32)) = some true ∧
        (s.dev.lost.contains (clu / 12) = false → (t.bank (clu / 12) (clu % 12)).status.getLsbD 63 = true)) ∧
    (∀ n key l, n < 768 → (s.core n).l1Line key = some l →
      ∃ t, exec (.memoryFaultFound (.l1 n key) .ecc) s = .next t ∧ t.mem = s.mem ∧ t.tags = s.tags ∧ t.marks = s.marks ∧
        ((t.core n).l1Line key).map (fun l => l.marks.getLsbD ((key - l.key) / 32)) = some true ∧
        (s.dev.lost.contains (n / 96) = false → (t.bank (n / 96) (n / 8 % 12)).status.getLsbD 63 = true)) ∧
    (∀ key cond, keySpace key = 9 →
      ∃ t, exec (.memoryFaultFound (.granule key) cond) s = .next t ∧ t.mem = s.mem ∧ t.cores = s.cores ∧
        t.bar (keyOff key) = { s.bar (keyOff key) with act := false }) ∧
    (∀ die bank blk sl cond, die < 8 → bank < 96 → s.slotOfBlock (96 * die + bank) blk = some sl →
      ∃ t, exec (.memoryFaultFound (.weight die bank blk) cond) s = .next t ∧ t.mem = s.mem ∧ t.cores = s.cores ∧
        t.slotBad (96 * die + bank) sl = true) ∧
    (∀ n id cond l, (s.core n).landings.find? (·.id == id) = some l → s.landingReady n l = true →
      let e := l.srcs.getD (s.pick l.left) (0, 0, 0)
      ∃ t, exec (.memoryFaultFound (.landing n id) cond) s = .next t ∧ KeepsMemory s t (s.owedBy (clusterOf n)) ∧
        ∃ l' ∈ (t.core n).landings, l'.id = id ∧ l'.left = l.left.filter (· != s.pick l.left) ∧ l'.arrived = l'.left.isEmpty ∧
          ∀ i, i < e.2.2 → e.1 + i < 128 → l'.marks.getLsbD ((e.1 + i) / 8) = true) ∧
    (∀ n id v l, (s.core n).landings.find? (·.id == id) = some l → s.landingReady n l = true →
      s.miscoded (s.transferKeys n id) = true →
      let e := l.srcs.getD (s.pick l.left) (0, 0, 0)
      ∃ t, exec (.landingDataArrival n id v) s = .next t ∧ KeepsMemory s t (s.owedBy (clusterOf n)) ∧
        t.miscoded (s.transferKeys n id) = false ∧
        ∃ l' ∈ (t.core n).landings, l'.id = id ∧ l'.left = l.left.filter (· != s.pick l.left) ∧ l'.arrived = l'.left.isEmpty ∧
          ∀ i, i < e.2.2 → e.1 + i < 128 → l'.marks.getLsbD ((e.1 + i) / 8) = true) ∧
    (∀ n os cond f, cond = .ecc ∨ cond = .decode → (s.core n).fillOf os = some f → s.blockReady n f = true → f.done.length < 32 →
      ∃ t, exec (.memoryFaultFound (.fillFlit n os) cond) s = .next t ∧
        (∀ g, (t.core n).fillOf os = some g → g.done = f.done ++ [f.done.length]) ∧
        bit ((t.core n).slot os).verified f.done.length = false ∧ bit ((t.core n).slot os).marks (2 * f.done.length) = true ∧
        bit ((t.core n).slot os).marks (2 * f.done.length + 1) = true) ∧
    (∀ n id, (∀ f ∈ (s.core n).m.fences, f.far = false) →
      (∀ a bytes, (s.core n).findAcc id = some a → a.kind = .store bytes → a.performed = false → s.storeReady n a = true →
        a.left ≠ [] → capSpace a.cap = spClus →
        let at_ := (bytes.filter (fun b => a.unitOf b.1 == s.pick a.left)).map (fun b => (s.place n a.cap b.1, b.2))
        (∀ b ∈ at_, s.verdict (s.ctxOf n) a.cap b.1 = .ok) →
        ∃ t, exec (.memoryFaultFound (.storeFlit n id) .ecc) s = .next t ∧ (∀ x, t.byte x = (lastAt at_ x).getD (s.byte x)) ∧
          ∀ b ∈ at_, KeySet.has t.marks (b.1 / 32) = true) ∧
      (∀ a op xd src cmp, (s.core n).findAcc id = some a → a.kind = .amo op xd src cmp → a.reply = none → s.atomicReady n a = true →
        ∃ t, exec (.memoryFaultFound (.atomicFlit n id) .ecc) s = .next t ∧ t.mem = s.mem ∧ t.tags = s.tags ∧ t.marks = s.marks ∧
          (t.core n).findAcc id = none ∧
          (xd ≠ 0 → (t.core n).r = { (s.core n).r with xmark := setBit (s.core n).r.xmark xd.toNat true }) ∧
          (xd = 0 → ∃ u, (t.core n).deferred = (s.core n).deferred ++ [u] ∧ u.cause = 0xA0 ∧ u.tval = BitVec.ofNat 64 a.off)) ∧
      (∀ a op ph act offs d next rm j, (s.core n).findAcc id = some a → a.kind = .vamo op ph act offs d next rm → a.reply = none →
        s.atomicReady n a = true → nextActive act next = some j →
        ∃ t u, exec (.memoryFaultFound (.atomicFlit n id) .ecc) s = .next t ∧ t.mem = s.mem ∧ t.tags = s.tags ∧ t.marks = s.marks ∧
          (t.core n).deferred = (s.core n).deferred ++ [u] ∧ u.cause = 0xA0 ∧ u.tval = BitVec.ofNat 64 (offs.getD j 0) ∧
          u.elem = j ∧ u.replay.isSome = true)) ∧
    (∀ n g a, (s.core n).k.segCopy = some g.num → s.segAt (s.core n) g.num = some g → s.linesReady n g = true →
      a ∈ g.lineAddrs (s.core n).c.codebase.toNat →
      ∃ t, exec (.memoryFaultFound (.segFlit n a) .ecc) s = .next t ∧ t.mem = s.mem ∧ t.tags = s.tags ∧ t.marks = s.marks ∧
        t.core n = { s.core n with k := { (s.core n).k with
          segCopy := none, segStale := false
          wait := (s.core n).k.wait.map (fun w => if w.1 = g.num then (w.1, some a) else w) } }) ∧
    (∀ n id d l, (s.core n).landings.find? (·.id == id) = some l → s.landingReady n l = true → d < 16 →
      let e := l.srcs.getD (s.pick l.left) (0, 0, 0)
      e.1 ≤ 8 * d → 8 * d < e.1 + e.2.2 → ∃ t, exec (.memoryFaultFound (.flit n id d) .ecc) s = .next t ∧
        KeepsMemory s t (s.owedBy (clusterOf n)) ∧
        ∃ l' ∈ (t.core n).landings, l'.id = id ∧ l'.left = l.left.filter (· != s.pick l.left) ∧ l'.marks.getLsbD d = true) ∧
    (∀ n, n < 768 →
      let finds (site : FaultSite) (p : Core → Prop) : Prop :=
        (∀ cond, cond ≠ .ecc → Stays s (.memoryFaultFound site cond)) ∧
        ∃ t, exec (.memoryFaultFound site .ecc) s = .next t ∧ t.mem = s.mem ∧ t.tags = s.tags ∧ t.marks = s.marks ∧ p (t.core n) ∧
          (∀ m, m ≠ n → t.core m = s.core m) ∧
          (s.dev.lost.contains (n / 96) = false → (t.bank (n / 96) (n / 8 % 12)).status.getLsbD 63 = true)
      (∀ os row, finds (.slotRow n os row) (fun d => (d.slot os).marks.getLsbD row.toNat = true)) ∧
      (∀ r, r ≠ 0 → finds (.xReg n r) (fun d => d.r.xmark.getLsbD r.toNat = true)) ∧
      (∀ r, r ≠ 0 → finds (.hReg n r) (fun d => d.r.hmark.getLsbD r.toNat = true)) ∧
      (∀ k w, finds (.vReg n k w) (fun d => (d.r.vmark[k.toNat]?).any (·.getLsbD w.toNat) = true)) ∧
      (∀ p, finds (.pReg n p) (fun d => d = s.core n)) ∧ (∀ m, finds (.tile n m) (fun d => d = s.core n)) ∧
      ∀ id w l, (s.core n).landings.find? (·.id == id) = some l → l.arrived = true → w < 16 →
        finds (.buffer n id w) (fun d => ∃ l' ∈ d.landings, l'.id = id ∧ l'.marks.getLsbD w = true))

/-- R282 to R285: the barrier unit answers the oldest request once what a release waits for has happened; CNT.ST falls. BINIT
sets EXPECT, turns GEN, and clears PHASE and the arrivals; BLINK makes an object a child of another; an arrival writes the
token and counts. A refused request leaves the object as it is and raises 0x65 when the bundle ends. R287: the arrival that
completes a phase flips an object without a parent, and every child takes a flip; with a parent it goes on to it. A parent
counts an arrival that reaches it, and logs one that overflows; an inactive one refuses it; an awaiting child that a flip reaches
flips, its phase standing for its own arrivals too (R288). -/
def Obligations.BarrierEvents : Prop :=
  (∀ (s : State) (n : Nat) (w : BarWait) (rest : List BarWait),
    let c := s.core n
    let a := capBase w.cap + w.off
    let o := s.bar a
    let answered := ({ c with m := { c.m with bar := rest } }.subSt).dropFences
    let rel := match w.req with
      | .arrive _ sc => some sc
      | _ => none
    (c.m.bar = [] → Stays s (.barrierAnswer n)) ∧
    (c.m.bar = w :: rest → s.dev.lost.contains (barDie a) = false → s.ready n w.id [] true rel = true →
      let accepts (c' : Core) (o' : BarObj) (msgs : List (Bool × Nat)) : Prop :=
        ∃ t, exec (.barrierAnswer n) s = .next t ∧ t.mem = s.mem ∧ t.core n = c' ∧ t.bar a = o' ∧
          (∀ m ∈ msgs, ∃ e ∈ t.dev.barMsgs, e.flip = m.1 ∧ e.addr = m.2) ∧
          (msgs = [] → t.dev.barMsgs = s.dev.barMsgs)
      let refuses (c' : Core) : Prop :=
        c.comp = none → ∃ t u, exec (.barrierAnswer n) s = .next t ∧ t.mem = s.mem ∧ t.dev = s.dev ∧
          t.core n = { c' with comp := some u } ∧ u.cause = 0x65 ∧ u.tval = BitVec.ofNat 64 w.off ∧ u.slot = w.slot
      (∀ (xb : DWord) (u : Bool), w.req = .init xb u →
        let bad := xb.toNat = 0 ∨ 524287 < xb.toNat ∨ o.awaiting = true ∨ (u = true ∧ o.nchild ≠ 0)
        (bad → refuses answered) ∧
        (¬bad → u = false → accepts answered { o with
          gen := (o.gen + 1) % 16, act := true, expect := xb.toNat, arrivals := [], phase := 0, done := [] } []) ∧
        (¬bad → u = true → o.linked = false → accepts answered { o with
          linked := false, parent := 0, parentAddr := 0, depth := 0
          gen := (o.gen + 1) % 16, act := true, expect := xb.toNat, arrivals := [], phase := 0, done := [] } []) ∧
        (¬bad → u = true → o.linked = true → s.ownPkg o.parentAddr = true → barKey a ≠ barKey o.parentAddr →
          let q := s.bar o.parentAddr
          ∃ t, exec (.barrierAnswer n) s = .next t ∧ t.mem = s.mem ∧ t.core n = answered ∧
            t.bar a = { o with
              linked := false, parent := 0, parentAddr := 0, depth := 0
              gen := (o.gen + 1) % 16, act := true, expect := xb.toNat, arrivals := [], phase := 0, done := [] } ∧
            t.bar o.parentAddr = if q.children.any (fun k => oneObject k a) then
                { q with nchild := q.nchild - 1, children := q.children.filter (fun k => !oneObject k a) }
              else q)) ∧
      (∀ (p : Cap) (poff : Nat), w.req = .link p poff →
        let b := capBase p + poff
        let q := s.bar b
        (oneObject a b = true → refuses answered) ∧
        (s.ownPkg b = true → barKey a ≠ barKey b →
          let bad := o.act = false ∨ q.act = false ∨ o.linked = true ∨ o.nchild ≠ 0 ∨ o.arrived ≠ 0 ∨ q.depth = 7
          (bad → refuses answered) ∧
          (¬bad → ∃ t, exec (.barrierAnswer n) s = .next t ∧ t.core n = answered ∧
            t.bar a = { o with parent := p, parentAddr := b, linked := true, depth := q.depth + 1 } ∧
            t.bar b = { q with nchild := q.nchild + 1, children := q.children ++ [a] }))) ∧
      (∀ (xb : XReg) (sc : Scope), w.req = .arrive xb sc →
        let arr : Arrival := { rels := [{ scope := sc, pkg := none, core := n }], clock := s.clock (dieOf n) }
        let told := answered.wx xb (BitVec.ofNat 64 (o.gen * 65536 + o.phase))
        (o.act = false → refuses answered) ∧
        (o.act = true → 2 * o.expect ≤ o.arrived + 1 → refuses told) ∧
        (o.act = true → o.arrived + 1 < 2 * o.expect →
          (o.arrived + 1 ≠ o.expect → accepts told { o with arrivals := o.arrivals ++ [arr] } []) ∧
          (o.arrived + 1 = o.expect → o.linked = true →
            accepts told { o with arrivals := o.arrivals ++ [arr] } [(false, o.parentAddr)]) ∧
          (o.arrived + 1 = o.expect → o.linked = false →
            accepts told { o with
              phase := (o.phase + 1) % 65536, arrivals := [], done := insertAt o.done o.phase (joinAll (o.arrivals ++ [arr])) }
              (o.children.map (fun k => (true, k)))))))) ∧
  ∀ (s : State) (m : BarMsg) (pre post : List BarMsg), s.dev.barMsgs = pre ++ m :: post →
    (∀ e ∈ pre ++ post, e.id ≠ m.id) → s.ownPkg m.addr = true → s.dev.lost.contains (barDie m.addr) = false →
    let o := s.bar m.addr
    (m.flip = false → o.act = false →
      DeviceBecomes s (.barrierArrivalReceived m.id) { s.dev with barMsgs := pre ++ post }) ∧
    (m.flip = false → o.act = true → 2 * o.expect ≤ o.arrived + 1 → o.arrived + 1 ≠ o.expect →
      ∃ t, exec (.barrierArrivalReceived m.id) s = .next t ∧ t.cores = s.cores ∧ t.mem = s.mem ∧
        t.bar m.addr = { o with arrivals := o.arrivals ++ [m.arr] } ∧
        (t.bank (barDie m.addr) 29).status.getLsbD 63 = true) ∧
    (m.flip = false → o.act = true → o.arrived + 1 = o.expect → o.linked = false →
      ∃ t, exec (.barrierArrivalReceived m.id) s = .next t ∧ t.cores = s.cores ∧ t.mem = s.mem ∧
        t.bar m.addr = { o with
          phase := (o.phase + 1) % 65536, arrivals := [], done := insertAt o.done o.phase (joinAll (o.arrivals ++ [m.arr])) }) ∧
    (m.flip = false → o.act = true → o.arrived + 1 < 2 * o.expect → o.arrived + 1 ≠ o.expect →
      DeviceBecomes s (.barrierArrivalReceived m.id) { s.dev with
        barMsgs := pre ++ post
        bars := insertAt s.dev.bars (barKey m.addr) { o with arrivals := o.arrivals ++ [m.arr] } }) ∧
    (m.flip = true → o.awaiting = true → o.arrived < 2 * o.expect →
      ∃ t, exec (.barrierFlipReceived m.id) s = .next t ∧ t.cores = s.cores ∧ t.mem = s.mem ∧
        t.bar m.addr = { o with
          phase := (o.phase + 1) % 65536, arrivals := o.arrivals.drop o.expect
          done := insertAt o.done o.phase (m.arr.join (joinAll (o.arrivals.take o.expect))) } ∧
        ∀ k ∈ o.children, ∃ e ∈ t.dev.barMsgs, e.flip = true ∧ e.addr = k) ∧
    (m.flip = true → o.awaiting = false →
      DeviceBecomes s (.barrierFlipReceived m.id) { s.dev with barMsgs := pre ++ post })

/-- R244: a job starts once no earlier job's footprint and no job it was told to wait for stands before it. R241: a row whose checks
pass takes its bytes from its source, or from FILL's pattern, and writes them at its destination, and counts: GATHER and SCATTER find the
one and the other by the index of the row. In SPAD and CLUS the bytes stand at once, and so they do in GLOB of the job's die, in HOST and
in PEER; to GLOB of another die they go in a message (R271). R242: with TAGS a granule comes with its tag, else it loses it. REDUCE
applies each element to the one at its place. R245, R246: with every row made and acknowledged a job without signal is done, CP falls and
its ticket reads so; a job that has met a cause faults, and its task takes 0x80. -/
def Obligations.JobEvents : Prop :=
  ∀ (s : State) (j : Job), s.Ok → s.findJob j.id = some j →
    let now (j' : Job) : List Job := s.dev.jobs.map (fun k => if k.id = j.id then j' else k)
    let gone := s.dev.jobs.filter (fun k => k.id != j.id)
    (s.jobReady j = true → DeviceBecomes s (.jobStart j.id) { s.dev with jobs := now { j with started := true } }) ∧
    (s.jobReady j = false → Stays s (.jobStart j.id)) ∧
    (∀ card, j.work = .copy card → j.running = true → j.bad = none → j.rows < (copyCard card).total →
      let k := copyCard card
      let reads (cap : Cap) (o : Int) (a z : Nat) : Prop :=
        capSpace cap ≠ spWgt ∧ s.rowBound j cap o z = false ∧ s.rowReady j cap a z = true ∧ s.pieceFault j cap a z = none ∧
          s.miscoded ((List.range z).map (s.place j.core cap a + ·)) = false ∧ s.spoiled (s.place j.core cap a) z = false
      let ia := capBase j.ah + k.aoff + 4 * (j.rows % k.e1)
      let idx : Int := (s.nat (s.place j.core j.ah ia) 4 : Nat)
      let row (i e : Nat) : Int := ((j.rows / i % e : Nat) : Int)
      let plane : Int := ((j.rows / (k.e1 * k.e2) : Nat) : Int)
      let d := if k.kind = kScatter then (k.doff : Int) + idx * k.ds1
        else (k.doff : Int) + row 1 k.e1 * k.ds1 + row k.e1 k.e2 * k.ds2 + plane * k.ds3
      let so := if k.kind = kGather then (k.soff : Int) + idx * k.ss1
        else (k.soff : Int) + row 1 k.e1 * k.ss1 + row k.e1 k.e2 * k.ss2 + plane * k.ss3
      let dst := s.place j.core j.dh (capBase j.dh + d.toNat)
      let src := s.place j.core j.sh (capBase j.sh + so.toNat)
      let b (i : Nat) : Byte := if k.kind = kFill then BitVec.ofNat 8 (k.soff % 2 ^ 32 / 2 ^ (8 * (i % 4))) else s.byte (src + i)
      let at_ : List (Nat × Byte) := (List.range k.e0).map (fun i => (dst + i, b i))
      let counts (t : State) : Prop := t.dev.jobs = now { j with rows := j.rows + 1 } ∧ ∀ n, (t.core n).r = (s.core n).r
      let near : Prop := capSpace j.dh = spGlob ∧ ∀ i, i < k.e0 → homeDie (keyOff (dst + i)) = j.die
      (k.kind = kGather ∨ k.kind = kScatter → reads j.ah ((k.aoff : Int) + 4 * (j.rows % k.e1 : Nat)) ia 4) →
      (k.kind ≠ kFill → reads j.sh so (capBase j.sh + so.toNat) k.e0) → s.rowBound j j.dh d k.e0 = false →
      s.rowFree j j.dh (capBase j.dh + d.toNat) k.e0 = true → s.pieceFault j j.dh (capBase j.dh + d.toNat) k.e0 = none →
      (k.kind ≠ kReduce →
        (capSpace j.dh = spSpad ∨ capSpace j.dh = spClus → ∃ t, exec (.copyRow j.id) s = .next t ∧ counts t ∧ t.cores = s.cores ∧
          (∀ i, i < k.e0 → t.byte (dst + i) = b i) ∧ (∀ x, x < dst ∨ dst + k.e0 ≤ x → t.byte x = s.byte x) ∧
          (k.tags = false → ∀ i, i < k.e0 → KeySet.has t.tags ((dst + i) / 32) = false) ∧
          (k.tags = true → dst % 32 = 0 → ∀ i, i < k.e0 / 32 → KeySet.has t.tags (dst / 32 + i) = s.tagAt (src + 32 * i))) ∧
        (near → ∃ t, exec (.copyRow j.id) s = .next t ∧ counts t ∧
          (∀ x, t.byte x = (lastAt (at_.filter (fun e => !s.descIgnores (keyOff e.1))) x).getD (s.byte x)) ∧
          (k.tags = true → dst % 32 = 0 → (∀ i, i < k.e0 → s.descIgnores (keyOff (dst + i)) = false) →
            ∀ i, i < k.e0 / 32 → KeySet.has t.tags (dst / 32 + i) = s.tagAt (src + 32 * i))) ∧
        (∀ h, capSpace j.dh = spGlob → h ≠ j.die → h < 8 → s.dev.lost.contains h = false →
          (∀ i, i < k.e0 → homeDie (keyOff (dst + i)) = h) → k.tags = false →
          ∃ t, exec (.copyRow j.id) s = .next t ∧ counts t ∧ KeepsMemory s t s.owedAny ∧
            ∃ m ∈ t.dev.ms.msgs, m.src = j.die ∧ m.dst = h ∧ m.body = .write j.core none (some j.id) j.ctx at_ [] [] none) ∧
        (capSpace j.dh = spHost ∨ capSpace j.dh = spPeer → (∀ e ∈ s.dev.ms.lines, e.1 < 96) → k.tags = false →
          ∃ t, exec (.copyRow j.id) s = .next t ∧ counts t ∧ (∀ i, i < k.e0 → t.byte (dst + i) = b i) ∧
            ∀ x, x < dst ∨ dst + k.e0 ≤ x → t.byte x = s.byte x)) ∧
      (k.kind = kReduce → s.jobMsgs j.id = false → s.spoiled dst k.e0 = false → (∀ e ∈ s.dev.ms.lines, e.1 < 96) →
        (capSpace j.dh = spSpad ∨ capSpace j.dh = spClus ∨ capSpace j.dh = spPeer ∨ near) →
        (∀ i, i < k.e0 → capSpace j.dh = spGlob → s.descIgnores (keyOff (dst + i)) = false) →
        let f := etFmt k.et
        let w := Fmt.width f
        let red (o x : Nat) : Nat :=
          if f.isFloat then
            (if k.rop = 0 then ((Fmt.fp f).addR j.rm ((Fmt.fp f).decode o) ((Fmt.fp f).decode x)).1 else ((Fmt.fp f).minMax (k.rop == 2) o x).1)
          else if k.rop = 0 then o + x
          else if k.rop = 1 then (if sext o w < sext x w then o else x)
          else if sext o w < sext x w then x else o
        ∃ t, exec (.copyRow j.id) s = .next t ∧ counts t ∧ (∀ x, x < dst ∨ dst + k.e0 ≤ x → t.byte x = s.byte x) ∧
          ∀ i, i < k.e0 / (w / 8) →
            t.nat (dst + w / 8 * i) (w / 8) = red (s.nat (dst + w / 8 * i) (w / 8)) (s.nat (src + w / 8 * i) (w / 8)) % 2 ^ w)) ∧
    (∀ uid n, j.owner = .task uid → (s.core n).alive = true → (s.core n).task.any (·.uid == uid) = true →
      let c := s.core n
      let ended (state : BitVec 2) (cause : BitVec 8) (extra : List Trap) (c' : Core) : Prop :=
        c'.c.cp = c.c.cp - 1 ∧ c'.r = c.r ∧ c'.deferred = c.deferred ++ extra ∧
          (({ num := j.ticket, rows := j.rows, state := state, cause := cause } : Ticket) ∈ c'.m.tickets)
      j.running = true → j.build = none → j.total ≤ j.rows → s.jobMsgs j.id = false →
        (j.cancel = true → ∃ t, exec (.jobComplete j.id) s = .next t ∧ t.mem = s.mem ∧ t.dev.jobs = gone ∧ ended 3 0 [] (t.core n)) ∧
        (j.cancel = false → j.bad = none → j.signal = none → ∃ t, exec (.jobComplete j.id) s = .next t ∧ t.mem = s.mem ∧ t.dev.jobs = gone ∧
          ended 2 0 [] (t.core n)) ∧
        (∀ cause, j.cancel = false → j.bad = some cause → ∃ t, exec (.jobComplete j.id) s = .next t ∧ t.mem = s.mem ∧ t.dev.jobs = gone ∧
          ended 3 cause [deferred 0x80 ((cause.setWidth 64 <<< 16) ||| j.ticket.setWidth 64) j.slot] (t.core n))) ∧
    (j.running = false → Stays s (.copyRow j.id) ∧ Stays s (.jobComplete j.id) ∧ Stays s (.wpeBuildStart j.id))

/-- R302, R305, R306: the build of a block takes the head of its bank's free list; an iteration pulses the rows that have not
verified, and each wears by one; once every row has verified in time the slot holds the block's values, metadata, MAC and
flag, the remap entry names it, and the old slot is released: to the free list's tail, or retired where a row has reached the
limit. A slot that does not verify in eight iterations or wears out is retired and another is taken, four at most. R345, R346: a block
in a region of another context is refused, when the build starts and again when it is switched: the block keeps its slot, a popped slot
goes back (at the free list's tail: log 95) and the job ends. -/
def Obligations.WeightBuildEvents : Prop :=
  ∀ (s : State), s.Ok →
    (∀ (j : Job) (card : BitVec 512) (vals side : List Byte) (mp : Bool) (f : FreeList) (sl : Nat),
      s.findJob j.id = some j → j.work = .wpe card → j.running = true → j.build = none → j.cancel = false → j.bad = none →
      j.rows < j.total → (wpeCard card).kind = kBlocks →
      let a := wpeBlockAddr j (wpeCard card) j.rows
      let bank := bankOf j.die a
      bank ∉ s.building j.die → (s.building j.die).length < 16 → s.blockFault j a = none →
      s.newBlock j (wpeCard card) j.rows = some (.ok (vals, side, mp)) → (s.freeList bank).pop = some (sl, f) →
      let popped : Build :=
        { bankNo := bank, blk := blkOf a, slot := sl, tries := 0, it := 0, ok := 0, vals := vals, side := side, mp := mp }
      ∃ t, exec (.wpeBuildStart j.id) s = .next t ∧ t.mem = s.mem ∧ t.cores = s.cores ∧ t.freeList bank = f ∧
        t.findJob j.id = some { j with build := some popped }) ∧
    (∀ (j : Job) (card : BitVec 512) (uid : Nat) (cause : BitVec 8),
      s.findJob j.id = some j → j.work = .wpe card → j.running = true → j.build = none → j.cancel = false → j.bad = none →
      j.rows < j.total → (wpeCard card).kind = kBlocks → j.owner = .task uid →
      let a := wpeBlockAddr j (wpeCard card) j.rows
      bankOf j.die a ∉ s.building j.die → (s.building j.die).length < 16 → s.blockFault j a = some cause →
      ∃ t, exec (.wpeBuildStart j.id) s = .next t ∧ t.mem = s.mem ∧ t.findJob j.id = none ∧
        t.freeList (bankOf j.die a) = s.freeList (bankOf j.die a) ∧
        t.slotOfBlock (bankOf j.die a) (blkOf a) = s.slotOfBlock (bankOf j.die a) (blkOf a)) ∧
    (∀ (j : Job) (b : Build) (ok : BitVec 5), s.findJob j.id = some j → j.build = some b → j.cancel = false →
      let pulsed (r : Nat) : Nat := s.wearOf b.bankNo b.slot r + if b.ok.getLsbD r then 0 else 1
      let worn := ∃ r, r < 5 ∧ s.wearLimit (b.bankNo / 96) ≤ pulsed r
      let all := b.ok ||| ok
      let key := slotKey b.bankNo b.slot
      let image := b.vals ++ b.side ++
        leBytes 8 (blockMac b.bankNo b.blk b.vals b.side (if b.mp then 1 else 0)).toNat ++ [if b.mp then 1 else 0]
      (¬worn → all = 0x1F → ∀ (uid : Nat) (cause : BitVec 8), j.owner = .task uid →
        s.blockFault j (blockAddr b.bankNo b.blk) = some cause →
        ∃ t, exec (.wpePulseIteration j.id ok) s = .next t ∧ t.mem = s.mem ∧ t.findJob j.id = none ∧
          t.slotOfBlock b.bankNo b.blk = s.slotOfBlock b.bankNo b.blk ∧ b.slot ∈ (t.freeList b.bankNo).tail) ∧
      (¬worn → all = 0x1F → s.blockFault j (blockAddr b.bankNo b.blk) = none → ∃ t, exec (.wpePulseIteration j.id ok) s = .next t ∧
        (∀ i, i < image.length → t.byte (key + i) = image.getD i 0) ∧
        (∀ x, x < key ∨ key + image.length ≤ x → t.byte x = s.byte x) ∧ t.cores = s.cores ∧
        t.slotOfBlock b.bankNo b.blk = some b.slot ∧ t.slotBad b.bankNo b.slot = false ∧
        (∀ r, r < 5 → t.wearOf b.bankNo b.slot r = pulsed r) ∧
        (∀ old, s.slotOfBlock b.bankNo b.blk = some old → (b.bankNo, old) ∈ t.dev.wt.releasing) ∧
        t.findJob j.id = some { j with build := none, rows := j.rows + 1 }) ∧
      (¬worn → all ≠ 0x1F → b.it + 1 < 8 → ∃ t, exec (.wpePulseIteration j.id ok) s = .next t ∧ t.mem = s.mem ∧
        (∀ r, r < 5 → t.wearOf b.bankNo b.slot r = pulsed r) ∧
        t.findJob j.id = some { j with build := some { b with ok := all, it := b.it + 1 } }) ∧
      (worn ∨ (all ≠ 0x1F ∧ 8 ≤ b.it + 1) → ∃ t, exec (.wpePulseIteration j.id ok) s = .next t ∧ t.mem = s.mem ∧
        lookupD 0 t.dev.wt.retired b.bankNo = lookupD 0 s.dev.wt.retired b.bankNo + 1 ∧
        (b.tries + 1 < 4 → ∀ sl f, (s.freeList b.bankNo).pop = some (sl, f) →
          t.findJob j.id = some { j with build := some { b with slot := sl, tries := b.tries + 1, it := 0, ok := 0 } }) ∧
        (b.tries + 1 = 4 → t.findJob j.id = none))) ∧
    (∀ bank sl, (bank, sl) ∈ s.dev.wt.releasing → ∃ t, exec (.wpeSlotRelease bank sl) s = .next t ∧ t.mem = s.mem ∧
      t.cores = s.cores ∧ t.dev.wt.releasing = s.dev.wt.releasing.erase (bank, sl) ∧
      ((∃ r, r < 5 ∧ s.wearLimit (bank / 96) ≤ s.wearOf bank sl r) →
        lookupD 0 t.dev.wt.retired bank = lookupD 0 s.dev.wt.retired bank + 1 ∧ t.freeList bank = s.freeList bank) ∧
      ((∀ r, r < 5 → s.wearOf bank sl r < s.wearLimit (bank / 96)) →
        (t.freeList bank = { s.freeList bank with tail := (s.freeList bank).tail ++ [sl] })))

/-! ### Tasks, launches and queues (R26 to R40, R59, R135, R289, R325 to R340) -/

/-- R137, R393, R453: a halting task that has drained ends, once the mirror of its end has been sent where a buddy stands: its
core is free, its registers stay, and its launch has one task less; a killed one ends with its last store. R59, R390: a
pre-emption takes a boundary that is free for it: issue stops and the task's jobs pause; a YIELD that finds no task to run is
over. R59, R225, R345: the drained task is saved: the record that TSTATE names holds its scratchpad, nothing else of memory
changes, and the core is free; a denied record stays as it is. R355, R346: the task comes back on a free core with the registers
and the scratchpad of its record, or with poison. R135, R289: a superstep releases those that stand at it. The model's choices
here: the registers stay after the end (log 18) and a killed task ends with its last store (log 56), a denied record restores free
values with every mark set (log 49), a mirrored end takes two steps (log 64), what a record brings back beside its list (log 10), and
the exponent of an outstanding MBFLY at a save (log 23). -/
def Obligations.TaskEvents : Prop :=
  ∀ (s : State) (n : Nat), s.Ok →
    let c := s.core n
    (∀ t l, c.mode = .halting → c.task = some t → s.findLaunch t.launch = some l → c.bank = none → c.t.landing = [] →
      c.t.pend = [] → c.t.eng = [] → c.t.fills = [] → c.c.st = 0 → c.c.cp = 0 → c.c.tl = 0 → c.c.wl = 0 →
      (s.hasBuddy l = false ∨ t.index ∈ l.ending →
        ∃ s' l', exec (.taskEnd n) s = .next s' ∧ (s'.core n).mode = .idle ∧ (s'.core n).task = none ∧ (s'.core n).r = c.r ∧
          (∀ m, m ≠ n → s'.core m = s.core m) ∧ s'.mem = s.mem ∧ s'.findLaunch t.launch = some l' ∧ l'.live = l.live - 1 ∧
          t.index ∉ l'.ending ∧ ∀ e ∈ l'.mirrors, t.index ∉ e.2) ∧
      (s.hasBuddy l = true → t.index ∉ l.ending → ∃ s', exec (.taskEnd n) s = .next s' ∧ s'.cores = s.cores ∧ s'.mem = s.mem ∧
        s'.findLaunch t.launch = some { l with ending := l.ending ++ [t.index] })) ∧
    (∀ t, c.mode = .dying → c.task = some t → c.m.accs = [] → ∃ s', exec (.taskEnd n) s = .next s' ∧ s'.mem = s.mem ∧
      (s'.core n).mode = .idle ∧ (s'.core n).task = none ∧ ∀ m, m ≠ n → s'.core m = s.core m) ∧
    ((c.mode = .running ∨ c.mode = .saving ∨ c.mode = .idle) → Stays s (.taskEnd n)) ∧
    (∀ t, c.task = some t → c.preemptible = true →
      (c.preempt = true → s.replays (dieOf n) = false → ∃ s' order, exec (.preempt n) s = .next s' ∧
        s'.core n = { c with mode := .saving, preempt := false, yielding := false } ∧
        (∀ m, m ≠ n → s'.core m = s.core m) ∧ s'.mem = s.mem ∧ (∀ u ∈ order, u ∈ s.dev.sched.stopped) ∧
        s'.dev = { s.dev with
          jobs := s.dev.jobs.map (fun j => if j.owner = .task t.uid then { j with paused := true } else j)
          sched := { s.dev.sched with stopped := order ++ [t.uid] } }) ∧
      (c.preempt = false → c.yielding = true → s.yieldNow n = false → Becomes s (.preempt n) n { c with yielding := false })) ∧
    ((c.preempt = false ∧ c.yielding = false) ∨ c.preemptible = false ∨ (c.preempt = true ∧ s.replays (dieOf n) = true) →
      Stays s (.preempt n)) ∧
    (∀ t, c.task = some t → s.saveReady n = true → s.ctxEntry t.ctx = none → n < 768 →
      let a := c.c.tstate.toNat
      ∃ s', exec (.saveComplete n) s = .next s' ∧ (s'.core n).task = none ∧ (s'.core n).mode = .idle ∧
        (∀ m, m ≠ n → s'.core m = s.core m) ∧
        (s.recordOk t.ctx a = true → ∀ k, k < 2 ^ 20 → s'.byte (mkey .glob 0 (a + 0x100000 + k)) = s.byte (mkey .spad n k)) ∧
        (s.recordOk t.ctx a = false → s'.mem = s.mem) ∧
        (∀ x, x < mkey .glob 0 a ∨ mkey .glob 0 a + 2 ^ 21 ≤ x → s'.byte x = s.byte x) ∧
        ∃ v, s'.dev.sched.saved = s.dev.sched.saved ++ [v] ∧ v.task = t ∧ v.core.r = c.writeExps.r ∧ v.core.c = c.c ∧
          v.core.bank = c.bank ∧ v.home = n ∧ v.clock = s.clock (dieOf n) ∧ v.sealed = none) ∧
    (s.saveReady n = false → Stays s (.saveComplete n)) ∧
    (∀ (pre : List Saved) (v : Saved) (post : List Saved) (l : Launch), s.dev.sched.saved = pre ++ v :: post →
      (∀ u ∈ pre ++ post, u.task.uid ≠ v.task.uid ∧ ¬(u.task.launch = v.task.launch ∧ u.task.index = v.task.index)) →
      v.sealed = none → s.findLaunch v.task.launch = some l → s.ctxActive l.ctx = true → s.accepts (dieOf n) = true →
      s.gangAnswers l v.task.index = true → s.restorable v n = true →
      s.todo l v.task.index = some [v.task.index] → s.coreFree l.ctx n = true → l.id = v.task.launch →
      Launch.plan [n] [v.task.index] l [] = some [(v.task.index, n)] →
      let a := v.core.c.tstate.toNat
      let back := v.core.fromRecord (fun o k => s.globNat (a + o) k)
      ∃ s', exec (.taskRestore v.task.uid n) s = .next s' ∧ (s'.core n).mode = .running ∧ (s'.core n).task = v.core.task ∧
        (s'.core n).k.pc = v.core.k.pc ∧ s'.dev.sched.saved = pre ++ post ∧
        (s.recordOk v.task.ctx a = true → (s'.core n).r = back.r ∧ (s'.core n).c = back.c ∧ (s'.core n).tr = back.tr ∧
          ∀ k, k < 2 ^ 20 → s'.byte (mkey .spad n k) = s.byte (mkey .glob 0 (a + 0x100000 + k))) ∧
        (s.recordOk v.task.ctx a = false → (s'.core n).r = (v.core.poisoned s.free).r ∧
          (s'.core n).r.xmark = .allOnes 32 ∧ (s'.core n).r.hmark = .allOnes 16 ∧ (∀ i, (s'.core n).r.vmark.toList.getD i 0xFFFF = 0xFFFF) ∧
          (∀ k, k < 2 ^ 20 → s'.byte (mkey .spad n k) = fld (Config.freeWord (s.free + 8192 + k / 128)) (8 * (k % 128)) 8) ∧
          ∀ k, k < 2 ^ 20 → KeySet.has s'.marks (mkey .spad n k / 32) = true)) ∧
    (∀ lid l, s.findLaunch lid = some l → l.id = lid →
      (∀ k, s.superstepOf l = some k → s.superstepReady l k = true →
        ∃ s', exec (.superstepRelease lid) s = .next s' ∧ KeepsMemory s s' s.owedAny ∧
          (∀ m, (s'.core m).r = (s.core m).r ∧ (s'.core m).sstep =
            if (s.core m).alive = true ∧ (s.core m).superstep = k ∧ (s.core m).task.any (·.launch == lid) = true then false
            else (s.core m).sstep) ∧
          ∀ v ∈ s'.dev.sched.saved, v.task.launch = lid → v.core.superstep = k → v.core.sstep = false) ∧
      ((∀ k, s.superstepOf l = some k → s.superstepReady l k = false) → Stays s (.superstepRelease lid)))

/-- R335, R339: the scheduler of a booted die starts the first candidate that has a free core: the scratchpad is zero, the
arguments stand in x10 to x14, the index in x15 and the number of indices in x16, h0 is the tagged root of the context, TSTATE
names the save record, and the pc is the launch's entry. R31, R336: a gang is started whole, on every die, or not at all. R336:
a die accepts the launch, and then claims whole groups of at least 64 indices; R453: with a buddy the claim counts at the next
of its events. Indices that it has had no core for in 10 µs go back. R337: a launch whose indices have all been started and
whose tasks have ended, in other packages too, is complete. The model's choices here: the mirrored claim counts at the next
event of its row (log 64), acceptance is one step and claims later ones (log 91), other packages tell their part by link inputs
(log 70), and tasks start on the lowest core (log 71). -/
def Obligations.LaunchEvents : Prop :=
  ∀ (s : State), s.Ok →
    (∀ die, s.accepts die = false → Stays s (.scheduleReadyTask die)) ∧
    (∀ die l i n rest base rec, s.accepts die = true → s.candidates die = (l, [i]) :: rest → s.findLaunch l.id = some l →
      Launch.plan (s.scope.filter (s.coreFree l.ctx)) [i] l [] = some [(i, n)] →
      (∀ v ∈ s.dev.sched.saved, ¬(v.task.launch = l.id ∧ v.task.index = i)) → l.isDead i = false →
      s.freeBase l.logn = some base → s.freeRecord (dieOf n) = some rec → (s.seatTask l i n base rec).seatReady n = true →
      ∃ s' t, exec (.scheduleReadyTask die) s = .next s' ∧ (s'.core n).mode = .running ∧ (s'.core n).task = some t ∧
        t.launch = l.id ∧ t.index = i ∧ t.ctx = l.ctx ∧ t.prio = l.prio ∧ t.started = s.wheel ∧
        (s'.core n).k.pc = l.entry ∧ (s'.core n).rh 0 = rootCap l.ctx ∧ (s'.core n).rhtag 0 = true ∧
        (∀ r : XReg, l.args.length = 5 → (s'.core n).rx r =
          if r.toNat = 15 then BitVec.ofNat 64 i
          else if r.toNat = 16 then BitVec.ofNat 64 l.nidx
          else if 10 ≤ r.toNat ∧ r.toNat < 15 then l.args.getD (r.toNat - 10) 0
          else 0) ∧
        (∀ v, (s'.core n).rv v = 0) ∧ (s'.core n).c.codebase = l.codebase ∧ (s'.core n).c.codelim = l.codelim ∧
        (s'.core n).c.tol = 0x3CB0000000000000 ∧ (s'.core n).c.rmax = 16 ∧ (s'.core n).c.tvec = 0 ∧
        (s'.core n).c.tstate = BitVec.ofNat 48 (s.recordAddr rec) ∧
        (s'.core n).t = .empty ∧ (∀ k, k < 2 ^ 20 → s'.byte (mkey .spad n k) = 0) ∧
        ∀ m, m ≠ n → s'.core m = s.core m) ∧
    (∀ pid l level group is pl s', s.launchOf pid = some l → l.gangLevel = some level → s.ctxActive l.ctx = true →
      (∀ d ∈ l.dies, s.dev.lost.contains d = true ∨ s.accepts d = true) →
      s.gangAnswers l (group * (l.size level).getD 1) = true → s.todo l (group * (l.size level).getD 1) = some is → is ≠ [] →
      Launch.plan (s.scope.filter (s.coreFree l.ctx)) is l [] = some pl →
      (s.carryOut l.id pl = some s' → exec (.gangStart pid level group) s = .next s' ∧
        ∀ p ∈ pl, (∀ v ∈ s.dev.sched.saved, ¬(v.task.launch = l.id ∧ v.task.index = p.1)) →
          (s'.core p.2).task.isSome = true ∨ ∀ l', s'.findLaunch l.id = some l' → l'.isDead p.1 = true) ∧
      (s.carryOut l.id pl = none → Stays s (.gangStart pid level group))) ∧
    (∀ pid l level group, s.launchOf pid = some l → s.gangAnswers l (group * (l.size level).getD 1) = false →
      Stays s (.gangStart pid level group)) ∧
    (∀ pid die l, s.launchOf pid = some l →
      let makes (l' : Launch) : Prop := ∃ s', exec (.indexClaim die pid) s = .next s' ∧ s'.cores = s.cores ∧ s'.mem = s.mem ∧
        s'.launchOf pid = some l'
      (die ∉ l.dies ∨ s.accepts die = false → Stays s (.indexClaim die pid)) ∧
      (die ∈ l.dies → s.accepts die = true → die ∉ l.accepted → makes { l with accepted := l.accepted ++ [die] }) ∧
      (die ∈ l.dies → s.accepts die = true → die ∈ l.accepted →
        (∀ is, l.pending.find? (·.1 == die) = some (die, is) →
          ∃ l', makes l' ∧ l'.pending = l.pending.filter (·.1 != die) ∧ l'.next = l.next ∧ l'.mirrorNext = l.next ∧
            (∀ i ∈ is, l.isDead i = false → i ∈ l'.held die ∧ i ∈ lookupD [] l'.mirrors die) ∧
            ∀ d, d ≠ die → l'.held d = l.held d) ∧
        (l.pending.find? (·.1 == die) = none → l.returned = [] → l.next < l.nidx → l.held die = [] → s.leads l = true →
          ((s.liveDies l).head?).all s.accepts = true → s.claimsOpen l = true → s.dieHasCore l die [l.next] = true →
          0 < l.claimUnit →
          let u := l.claimUnit
          let hi := min l.nidx ((l.next + 64 + u - 1) / u * u)
          let is := (List.range (hi - l.next)).map (· + l.next)
          (∀ i ∈ is, l.mayTake 0 i = true) →
          (s.hasBuddy l = true → makes { l with next := hi, pending := l.pending ++ [(die, is)] }) ∧
          (s.hasBuddy l = false → l.dead = [] → ∃ l', makes l' ∧ l'.next = hi ∧ l'.held die = is ∧
            ∀ d, d ≠ die → l'.held d = l.held d)) ∧
        (l.pending.find? (·.1 == die) = none → (s.leads l = false ∨ s.claimsOpen l = false ∨ l.held die ≠ []) →
          Stays s (.indexClaim die pid)))) ∧
    (∀ pid die l since, s.launchOf pid = some l → l.blocked.find? (·.1 == die) = some (die, since) → l.held die ≠ [] →
      s.dieHasCore l die (l.held die) = false →
      (since + 15000 ≤ s.wheel → ∃ s' l', exec (.indexReturnTimeout die pid) s = .next s' ∧ s'.cores = s.cores ∧
        s'.mem = s.mem ∧ s'.launchOf pid = some l' ∧ l'.held die = [] ∧
        (s.leads l = true → ∀ i, i ∈ l'.returned ↔ i ∈ l.returned ∨ i ∈ l.held die) ∧
        (s.leads l = false → l'.returned = l.returned ∧ l'.granted = l.granted - (l.held die).length)) ∧
      (s.wheel < since + 15000 → Stays s (.indexReturnTimeout die pid))) ∧
    (∀ pid l, s.launchOf pid = some l →
      (l.next = l.nidx → l.returned = [] → (∀ e ∈ l.claims, e.2 = []) → (∀ e ∈ l.pending, e.2 = []) → l.again = [] →
        l.live = 0 → s.leads l = true → l.away = [] → l.unacked = [] →
        ∃ s', exec (.launchComplete pid) s = .next s' ∧ s'.cores = s.cores ∧ s'.mem = s.mem ∧
          s'.dev.sched.launches = s.dev.sched.launches.filter (·.id != l.id) ∧
          ∀ p, s.findPacket pid = some p → p.outcome = none → s'.findPacket pid = some { p with outcome := some 0 }) ∧
      (l.unacked ≠ [] → ∃ s' l', exec (.launchComplete pid) s = .next s' ∧ s'.cores = s.cores ∧ s'.mem = s.mem ∧
        s'.launchOf pid = some l' ∧ l'.live = l.live - l.unacked.length ∧ l'.unacked = [] ∧
        (∀ i ∈ l.unacked, i ∉ l'.ending ∧ ∀ e ∈ l'.mirrors, i ∉ e.2)) ∧
      (l.unacked = [] → l.live ≠ 0 ∨ (s.leads l = true ∧ l.away ≠ []) ∨
        (s.leads l = false ∧ l.awayEnded.length + l.granted ≠ l.nidx) → Stays s (.launchComplete pid)))

/-- R328, R329: a signal of a queue maps it, with STATE 0b01 and CAUSE 0 beside its RD in its descriptor, into a free slot, or into
that of the queue without a packet in dispatch whose last signal is oldest: that one's RD is written back with STATE 0b00, and it goes
to the remap list. A mapped one takes its WR. A signal stops its queue, with STATE 0b10 and RD kept in the descriptor, at an illegal
descriptor (R12: CAUSE 0xED; that a reserved bit set makes it illegal is log 33), at more packets than the ring holds (0xE1) and where its
context is being torn down (R356: 0xC3). A mapped queue without packets is unmapped once its time is up; a queue on the remap list
takes a free slot, or is refused; a stopped queue restarts by EN: STATE 0b00 and CAUSE 0. A restart that has been asked for comes before
the queue's signal, which stays. The complex writes a descriptor at its home at once, or in a message to another die (log 17). -/
def Obligations.QueueEvents : Prop :=
  ∀ (s : State),
    let keeps (t : State) : Prop := t.cores.length = s.cores.length ∧ (∀ n, (t.core n).r = (s.core n).r) ∧ t.dev.jobs = s.dev.jobs
    let ready (q : Nat) : Prop := s.descReady q = true ∧ ∀ k, (s.remapOf (dieOfQueue q)).head? = some k → s.descReady k.q = true
    (∀ q, q ∉ s.dev.sched.signals → Stays s (.queueSignal q)) ∧
    (∀ q, s.queueDie (dieOfQueue q) = true → ¬ready q → Stays s (.queueSignal q)) ∧
    (∀ q, q ∈ s.dev.sched.signals → s.queueDie (dieOfQueue q) = true → ready q →
      q ∉ s.dev.sched.restarts → (∀ k ∈ s.dev.sched.slots ++ s.dev.sched.remap, k.q ≠ q) → descEn (s.desc q) = true → descState (s.desc q) ≠ 2 →
      let wr := s.complexNat 0 (s.sigAddr q) 4
      let k := hwQueue q (s.desc q) wr s.wheel (s.dev.sched.turn + 1)
      let free := (s.slotsOf (dieOfQueue q)).length < 16
      let ends (x : Option HwQueue) (remap : List HwQueue) (p : State → Prop) : Prop :=
        ∃ t, exec (.queueSignal q) s = .next t ∧ keeps t ∧ t.dev.sched.remap = remap ∧ t.dev.sched.signals = s.dev.sched.signals.erase q ∧
          (∀ k', x = some k' → k' ∈ t.dev.sched.slots) ∧ (x = none → ∀ j ∈ t.dev.sched.slots, j.q ≠ q) ∧ p t
      let stops (cause : BitVec 8) : Prop := ends none s.dev.sched.remap (fun t => WritesDesc s t q k.rd 2 cause)
      let legal := k.legal = true ∧ descReserved (s.desc q) = true
      let fits := (wr + 2 ^ 32 - k.rd) % 2 ^ 32 ≤ 2 ^ k.logsz
      (¬legal → stops 0xED) ∧
      (legal → ¬fits → stops 0xE1) ∧
      (legal → fits → s.tearing k.ctx = true → stops 0xC3) ∧
      (legal → fits → s.tearing k.ctx = false → s.remapOf (dieOfQueue q) = [] →
        (free → ends (some k) s.dev.sched.remap (fun t => WritesDesc s t q k.rd 1 0)) ∧
        (¬free → (∀ v ∈ s.slotsOf (dieOfQueue q), s.inDispatch v.q = true) → ends none (s.dev.sched.remap ++ [k]) (fun t => t.mem = s.mem)) ∧
        (¬free → (∃ v ∈ s.slotsOf (dieOfQueue q), s.inDispatch v.q = false) →
          ∃ v ∈ s.slotsOf (dieOfQueue q), s.inDispatch v.q = false ∧
            (∀ j ∈ s.slotsOf (dieOfQueue q), s.inDispatch j.q = false → v.last ≤ j.last) ∧
            ends (some k) ((s.dev.sched.remap.filter (·.q != v.q)) ++ [v]) (fun t => WritesDesc s t q k.rd 1 0 ∧ WritesDesc s t v.q v.rd 0 0)))) ∧
    (∀ k (pre post : List HwQueue), s.dev.sched.slots = pre ++ k :: post → (∀ j ∈ pre ++ post, j.q ≠ k.q) →
      k.q ∈ s.dev.sched.signals → k.q ∉ s.dev.sched.restarts → s.queueDie (dieOfQueue k.q) = true → ready k.q → descEn (s.desc k.q) = true →
      let k' := { k with wr := s.complexNat 0 (s.sigAddr k.q) 4, last := s.dev.sched.turn + 1, lastW := s.wheel }
      (k'.overrun = false → ∃ t, exec (.queueSignal k.q) s = .next t ∧ t.mem = s.mem ∧ t.cores = s.cores ∧
        t.dev.sched.slots = pre ++ k' :: post ∧ t.dev.sched.signals = s.dev.sched.signals.erase k.q) ∧
      (k'.overrun = true → ∃ t, exec (.queueSignal k.q) s = .next t ∧ keeps t ∧ WritesDesc s t k.q k.rd 2 0xE1 ∧
        ∀ j ∈ t.dev.sched.slots ++ t.dev.sched.remap, j.q ≠ k.q)) ∧
    (∀ k (pre post : List HwQueue), s.dev.sched.slots = pre ++ k :: post → (∀ j ∈ pre ++ post, j.q ≠ k.q) →
      let limit := lookupD 20000 s.dev.sched.qidle (dieOfQueue k.q)
      (k.rd = k.wr → limit ≠ 0 → k.lastW + (3 * limit + 1) / 2 ≤ s.wheel →
        ∃ t, exec (.queueIdleTimeout k.q) s = .next t ∧ keeps t ∧ t.dev.sched.slots = pre ++ post ∧ WritesDesc s t k.q k.rd 0 0) ∧
      (k.rd ≠ k.wr ∨ limit = 0 ∨ s.wheel < k.lastW + (3 * limit + 1) / 2 → Stays s (.queueIdleTimeout k.q))) ∧
    (∀ die k rest, s.queueDie die = true → (s.slotsOf die).length < 16 → s.remapOf die = k :: rest →
      (s.descReady k.q = false → Stays s (.queueRemap die)) ∧
      (s.descReady k.q = true → ∀ d, d = s.desc k.q →
        let k' := hwQueue k.q d k.wr k.lastW k.last
        let ends (p : State → Prop) : Prop := ∃ t, exec (.queueRemap die) s = .next t ∧ keeps t ∧
          t.dev.sched.remap = s.dev.sched.remap.filter (·.q != k.q) ∧ p t
        let legal := k'.legal = true ∧ descReserved d = true
        (descEn d = true → descState d ≠ 2 → legal → ends (fun t => k' ∈ t.dev.sched.slots ∧ WritesDesc s t k.q k'.rd 1 0)) ∧
        (descEn d = true → descState d ≠ 2 → ¬legal → ends (fun t => WritesDesc s t k.q k'.rd 2 0xED)) ∧
        (descEn d = false ∨ descState d = 2 → ends (fun t => t.mem = s.mem)))) ∧
    (∀ die, s.queueDie die = false ∨ 16 ≤ (s.slotsOf die).length ∨ s.remapOf die = [] → Stays s (.queueRemap die)) ∧
    (∀ q, q ∉ s.dev.sched.restarts ∨ s.descReady q = false → Stays s (.queueRestart q)) ∧
    (∀ q, q ∈ s.dev.sched.restarts → s.descReady q = true →
      let again (i : Instr) : Prop := ∃ t, exec i s = .next t ∧ keeps t ∧ t.dev.sched.signals = s.dev.sched.signals ∧
        t.dev.sched.slots = s.dev.sched.slots ∧ t.dev.sched.remap = s.dev.sched.remap ∧ t.dev.sched.restarts = s.dev.sched.restarts.erase q ∧
        (descState (s.desc q) = 2 → WritesDesc s t q (s.desc q / 2 ^ 128 % 2 ^ 32) 0 0) ∧ (descState (s.desc q) ≠ 2 → t.mem = s.mem)
      again (.queueRestart q) ∧ (q ∈ s.dev.sched.signals → s.queueDie (dieOfQueue q) = true → ready q → again (.queueSignal q)))


/-- R330, R331: a queue's next packet is taken in priority order, its RD rises, in its descriptor too, and the packet is accepted; one that
the rules forbid stops its queue, with STATE 0b10, CAUSE 0xE0 and the RD that names it. R332 to R334: a LAUNCH is refused with the first cause or becomes a launch; a COPY packet becomes a job
or is refused with the cause of its failing check; a BARRIER waits until its words have reached their values; a node's queue
goes on at the successor that its word chooses, at its first reading and at the end of each pass of a loop; a FENCE of package
or domain scope waits until what earlier packets made known has reached its die. R331, R340: a packet with an outcome is
complete, and is gone, once its tasks' writes have reached its die and its killed tasks have none left; its signal then adds 1
to the word. R340: with the journal on, an acceptance and an end each make its entry, and JHEAD rises. The model's choices here: a FENCE
packet and a completion wait for the clock of the die that tells of them, and stand at once then, and what goes to another die goes in a
message (log 17); a node loop past its passes goes on at the exit successor with 0xE4 (log 62), dispatch
reads, advances RD and accepts in one step (log 63), and which packets stop a queue and the order of refusals where the rules
name none (log 33). -/
def Obligations.PacketEvents : Prop :=
  ∀ (s : State),
    let acted (id : Nat) (o : Option (BitVec 8)) (t : State) : Prop :=
      (∀ n, (t.core n).r = (s.core n).r) ∧
      ∀ p, s.findPacket id = some p → t.findPacket id = some { p with acted := true, outcome := o }
    (∀ die, s.toServe die = none → Stays s (.packetDispatch die)) ∧
    (∀ die k, s.toServe die = some k → s.dev.sched.slots.filter (·.q == k.q) = [k] →
      let b := BitVec.ofNat 512 (s.complexNat 0 (k.packetAddr k.rd) 64)
      (packetLegal b = true → ∃ t p, exec (.packetDispatch die) s = .next t ∧
        t.dev.sched.packets = s.dev.sched.packets ++ [p] ∧ p.q = k.q ∧ p.idx = k.rd ∧ p.body = b ∧ p.ctx = k.ctx ∧
        p.prio = k.prio ∧ p.acted = false ∧ p.outcome = none ∧
        p.lid = (if pktNat b 0 1 = tLaunch then BitVec.ofNat 32 (s.complexNat k.ctx (pktNat b 16 8 + 88) 4) else 0) ∧
        (∀ j ∈ t.dev.sched.slots, j.q = k.q → j.rd = (k.rd + 1) % 2 ^ 32) ∧
        (s.journals = false → WritesDesc s t k.q ((k.rd + 1) % 2 ^ 32) 1 0 ∧ t.dev.sched.jhead = s.dev.sched.jhead) ∧
        (s.journals = true → Journals s t k.q 1 0 k.rd p.lid)) ∧
      (packetLegal b = false → ∃ t, exec (.packetDispatch die) s = .next t ∧
        t.dev.sched.packets = s.dev.sched.packets ∧ t.dev.sched.jhead = s.dev.sched.jhead ∧ WritesDesc s t k.q k.rd 2 0xE0 ∧
        ∀ j ∈ t.dev.sched.slots, j.q ≠ k.q)) ∧
    (∀ id p, s.pending id tLaunch = some p → s.launchReads p = true →
      let d := BitVec.ofNat 2048 (s.complexNat p.ctx (pktNat p.body 16 8) 256)
      let dies := (List.range 8).filter (fun k => (ldNat d 44 1).testBit k && !s.dev.lost.contains k)
      (∀ cause, s.launchRefusal p.ctx d dies = some cause → ∃ t, exec (.launch id) s = .next t ∧ acted id (some cause) t ∧
        t.dev.sched.launches = s.dev.sched.launches ∧ t.mem = s.mem) ∧
      (s.launchRefusal p.ctx d dies = none → ∃ t l, exec (.launch id) s = .next t ∧ t.mem = s.mem ∧ t.cores = s.cores ∧
        t.findPacket id = some { p with acted := true, launch := some s.dev.sched.nextLaunch, pkgs := ldNat d 94 2 } ∧
        t.dev.sched.launches = s.dev.sched.launches ++ [l] ∧ l.packet = p.id ∧ l.ctx = p.ctx ∧ l.prio = p.prio ∧
        l.id = s.dev.sched.nextLaunch ∧ l.accepted = dies.filter s.accepts ∧ l.pkgs = ldNat d 94 2 ∧ l.nidx = ldNat d 32 8 ∧ l.entry.toNat = ldNat d 16 8 % 2 ^ 48 ∧ l.dies = dies ∧ l.next = 0 ∧ l.live = 0)) ∧
    (∀ id p, s.pending id tCopy = some p → s.packetReads p (pktNat p.body 16 8 :: tableAddrs (pktNat p.body 24 8)) = true →
      let card := BitVec.ofNat 512 (s.complexNat 0 (pktNat p.body 16 8) 64)
      let hs := s.nextFree.tableHandles 0 (pktNat p.body 24 8)
      let card' := BitVec.ofNat 512 (s.nextFree.complexNat 0 (pktNat p.body 16 8) 64)
      (s.ownerNext (ownerPage (pktNat p.body 16 8))).admits 0 = true → s.dev.lost.contains (homeDie (pktNat p.body 16 8)) = false →
      card' = card ∧
      (∀ e, s.checkCopyCard none p.ctx card hs 0 = .error e → ∃ t, exec (.copy id) s = .next t ∧ acted id (some e.cause) t ∧
        t.dev.jobs = s.dev.jobs ∧ t.mem = s.mem) ∧
      (s.checkCopyCard none p.ctx card hs 0 = .ok () → ∃ t j, exec (.copy id) s = .next t ∧ acted id none t ∧ t.mem = s.mem ∧
        t.dev.jobs = s.dev.jobs ++ [j] ∧ j.work = .copy card ∧ j.owner = .packet p.id ∧ j.ctx = p.ctx ∧ j.die = p.die ∧
        j.home = p.die ∧ j.started = false ∧ j.rows = 0)) ∧
    (∀ id p, s.pending id tBarrier = some p →
      let met := ∀ c ∈ barConds p.body, c.2 ≤ s.complexNat 0 c.1 8
      let denied := ∃ c ∈ barConds p.body, s.complexOk 0 c.1 = false ∨ s.dev.lost.contains (homeDie c.1) = true
      (s.packetReads p ((barConds p.body).map (·.1)) = false → Stays s (.barrier id)) ∧
      (s.packetReads p ((barConds p.body).map (·.1)) = true →
        (met → ∃ t, exec (.barrier id) s = .next t ∧ acted id (some 0) t ∧ t.mem = s.mem) ∧
        (¬met → ¬denied → Stays s (.barrier id)) ∧
        (¬met → denied → ∃ t, exec (.barrier id) s = .next t ∧ t.mem = s.mem ∧ t.cores = s.cores ∧
          t.dev.sched.packets = s.dev.sched.packets ∧ t.free = s.free + 1))) ∧
    (∀ id p, s.pending id tFence = some p →
      let rank := scopeRank (scopeOfNat (pktNat p.body 16 1))
      let known := s.covers (s.clock p.die) s.dev.ms.taskClock
      (rank < 3 ∨ known = true → ∃ t, exec (.fencePacket id) s = .next t ∧ acted id (some 0) t ∧ t.mem = s.mem) ∧
      (3 ≤ rank → known = false → Stays s (.fencePacket id))) ∧
    (∀ id p k, s.findPacket id = some p → (p.type = tNode ∧ p.acted = false ∧ p.outcome = none) ∨ s.passDone p = true →
      s.packetReads p [pktNat p.body 16 8] = true → s.descReady p.q = true → s.dev.sched.slots.filter (·.q == p.q) = [k] →
      let v := s.complexNat 0 (pktNat p.body 16 8) 8
      let succ (x : Nat) : Nat := (((p.idx : Int) + (fld p.body (256 + 16 * x) 16).toInt) % 2 ^ 32).toNat
      let goes (o : Option (BitVec 8)) (idx : Nat) : Prop :=
        ∃ t, exec (.node id) s = .next t ∧ (∀ n, (t.core n).r = (s.core n).r) ∧
          (∀ p', t.findPacket id = some p' → p'.acted = true ∧ p'.outcome = o) ∧ WritesDesc s t p.q idx 1 0 ∧
          ∀ j ∈ t.dev.sched.slots, j.q = p.q → j.rd = idx
      (pktNat p.body 28 1 = 1 → goes (some 0) (succ (if v = 0 then 1 else 0))) ∧
      (pktNat p.body 28 1 = 2 → v = 0 → goes (some 0) (succ 0)) ∧
      (pktNat p.body 28 1 = 2 → v ≠ 0 → p.passes = pktNat p.body 24 4 → goes (some 0xE4) (succ 0)) ∧
      (pktNat p.body 28 1 = 2 → v ≠ 0 → p.passes ≠ pktNat p.body 24 4 → goes none ((p.idx + 1) % 2 ^ 32)) ∧
      (pktNat p.body 28 1 = 3 → goes (some 0) (succ (min v (pktNat p.body 29 1 - 1))))) ∧
    (∀ id p, s.findPacket id = some p → s.packetReads p [pktNat p.body 16 8] = false ∨ s.descReady p.q = false → Stays s (.node id)) ∧
    (∀ id p cause, s.findPacket id = some p → p.outcome = some cause →
      let known := s.packetKnown p = true ∧ s.dyingTasks p = false
      (¬known → Stays s (.packetComplete id)) ∧
      (known → ∃ t, exec (.packetComplete id) s = .next t ∧ (∀ n, (t.core n).r = (s.core n).r) ∧
        t.dev.sched.packets = s.dev.sched.packets.filter (·.id != id) ∧
        (s.journals = true → p.sig = false → Journals s t p.q (if cause = 0 then 3 else 4) cause p.idx p.lid) ∧
        (s.journals = true → t.dev.sched.jhead = s.dev.sched.jhead + 1) ∧
        (p.sig = true → homeDie p.sigOff ≠ p.die → homeDie p.sigOff < 8 → s.dev.lost.contains (homeDie p.sigOff) = false →
          ∃ m ∈ t.dev.ms.msgs, m.src = p.die ∧ m.dst = homeDie p.sigOff ∧
            m.body = .count p.actor (mkey .glob 0 p.sigOff) { scope := p.signalScope, pkg := none, core := 96 * p.die }) ∧
        (p.sig = false → s.journals = false → t.mem = s.mem) ∧
        (p.sig = true → s.journals = false → s.Ok → homeDie p.sigOff = p.die → p.sigOff < 2 ^ 39 →
          let k := mkey .glob 0 p.sigOff
          s.complexOk p.actor p.sigOff = true → s.dev.lost.contains p.die = false → s.spoiled k 8 = false → (∀ i, i < 8 → s.descIgnores (p.sigOff + i) = false) →
          t.nat k 8 = (s.nat k 8 + 1) % 2 ^ 64 ∧ ∀ x, x < k ∨ k + 8 ≤ x → t.byte x = s.byte x))) ∧
    (∀ id p, s.findPacket id = some p → p.outcome = none → Stays s (.packetComplete id))

/-! ### Registers, links and power (R11, R255 to R259, R298 to R300, R326, R372 to R382, R455, R456, R459) -/

/-- R256 to R259: a write of WAYP asks for a number of ways; each way that CLUS takes is zero there, and each that it gives
back. R298 to R300, R379: a free region's fields are written, a legal one opens or is measured and sealed, a written 0 frees
it; at power-up every region is measured before the die is ready. R381: WATTS keeps to its range; DIV rises by one above it
and falls by one below nine tenths of it; over-current sets it to 15. -/
def Obligations.WeightAndWayEvents : Prop :=
  ∀ (s : State), s.Ok →
    (∀ clu v, clu < 96 →
      let w := s.wayp clu
      let req := min 16 (v.toNat / 2 ^ 16 % 32)
      ∃ t, exec (.waypWrite clu v) s = .next t ∧ t.mem = s.mem ∧ t.cores = s.cores ∧ (∀ k, k ≠ clu → t.wayp k = s.wayp k) ∧
        t.wayp clu = if w.busy then { w with err := true }
          else { w with err := w.err && !v.getLsbD 8, req := req, busy := decide (req ≠ w.cur) }) ∧
    (∀ clu, clu < 96 →
      let w := s.wayp clu
      let changes (i : Instr) (way cur : Nat) : Prop :=
        ∃ t, exec i s = .next t ∧ t.wayp clu = { w with cur := cur, busy := decide (cur ≠ w.req) } ∧
          (∀ x, t.byte x = if mkey .clus clu (way * 2 ^ 20) ≤ x ∧ x < mkey .clus clu (way * 2 ^ 20) + 2 ^ 20 then 0 else s.byte x) ∧
          ∀ n, (t.core n).r = (s.core n).r
      (w.busy = true → w.cur < w.req → changes (.waySurrender clu) w.cur (w.cur + 1)) ∧
      (w.busy = true → w.req < w.cur → s.wayInUse clu ((w.cur - 1) * 2 ^ 20) = false → changes (.wayReturn clu) (w.cur - 1) (w.cur - 1)) ∧
      (w.busy = false ∨ w.req ≤ w.cur → Stays s (.waySurrender clu)) ∧
      (w.busy = false ∨ w.cur ≤ w.req → Stays s (.wayReturn clu))) ∧
    (∀ die r hi v, die < 8 → r < 64 →
      let old := s.region die r
      let st := old.toNat % 4
      let low : BitVec 128 := fld old 64 64 ++ fld v 56 8 ++ 0#56
      let fields := if st = 0 then low else old &&& ~~~ 3
      let writes (new : BitVec 128) : Prop :=
        ∃ t, exec (.wrgnWrite die r hi v) s = .next t ∧ t.mem = s.mem ∧ t.cores = s.cores ∧ t.region die r = new ∧
          ∀ d k, (d, k) ≠ (die, r) → k < 64 → t.region d k = s.region d k
      (hi = true → writes (if st = 0 then v ++ fld old 0 64 else old)) ∧
      (hi = false → v.toNat % 4 = 0 → writes fields) ∧
      (hi = false → (v.toNat % 4 = 1 ∨ v.toNat % 4 = 2) → st ≠ 3 → s.regionLegal die r fields = true →
        writes (fields ||| (if v.toNat % 4 = 1 then 1 else 3)))) ∧
    (∀ die r, die < 8 → r < 64 →
      let v := s.region die r
      (v.toNat % 4 = 3 → (∀ j ∈ s.dev.jobs, jobInRegion j die v = false) →
        ∃ t, exec (.regionSealComplete die r) s = .next t ∧ t.mem = s.mem ∧ t.cores = s.cores ∧
          t.region die r = (v &&& ~~~ 3) ||| 2 ∧ lookupD 0 t.dev.wt.digests (64 * die + r) = s.measureRegion die v) ∧
      (v.toNat % 4 ≠ 3 ∨ (∃ j ∈ s.dev.jobs, jobInRegion j die v = true) → Stays s (.regionSealComplete die r))) ∧
    (∀ die, die < 8 → s.bootOf die = .rehash → s.dev.lost.contains die = false →
      ∃ t, exec (.regionRehashComplete die) s = .next t ∧ t.mem = s.mem ∧ t.cores = s.cores ∧ t.bootOf die = .ready ∧
        ∀ r, r < 64 → (s.region die r).toNat % 4 ≠ 0 →
          lookupD 0 t.dev.wt.digests (64 * die + r) = s.measureRegion die (s.region die r)) ∧
    (∀ v : DWord, s.dieUp 0 = true → DeviceBecomes s (.pcapWrite v) { s.dev with power := { s.dev.power with
      watts := BitVec.ofNat 16 (max 1000 (min 10000 (v.toNat / 2 ^ 48))) } }) ∧
    (∀ pwr amps : BitVec 16, s.serves = true →
      let p := s.dev.power
      DeviceBecomes s (.pcapWindow pwr amps) { s.dev with power := { p with
        pwr := pwr, amps := amps
        div := if p.watts.toNat < pwr.toNat then BitVec.ofNat 4 (min 15 (p.div.toNat + 1))
          else if 10 * pwr.toNat < 9 * p.watts.toNat then BitVec.ofNat 4 (p.div.toNat - 1) else p.div } }) ∧
    (∀ amps, (20000 < amps → DeviceBecomes s (.vcoreOvercurrent amps) { s.dev with power := { s.dev.power with div := 15 } }) ∧
      (amps ≤ 20000 → Stays s (.vcoreOvercurrent amps)))

/-- R11, R12, R326, R373: a register of a live die's window is written by software or by the host through BAR0, and reads so
afterwards: the bases keep whole pages, a bit written 1 to the fence window joins those that stand (W1S), reserved registers
and reserved bits read zero and ignore writes. The host reads GLOB
bytes that its context may read, those of no save record (R60); a malformed access to BAR0 reads ones and writes nothing. -/
def Obligations.RegisterEvents : Prop :=
  ∀ (s : State) (die : Nat) (v : DWord),
    let reads (i : Instr) (r : Ctrl) (x : DWord) : Prop :=
      ∃ t, exec i s = .next t ∧ t.mem = s.mem ∧ t.cores = s.cores ∧ t.readCtrl die r = x
    let page : DWord := v &&& 0xFFFFFFFFF000
    s.dieUp die = true →
      reads (.qdbaseWrite die v) .qdbase page ∧ reads (.qsigbaseWrite die v) .qsigbase page ∧
      reads (.controlRegisterWrite die 0x40000 v) .qdbase page ∧ reads (.controlRegisterWrite die 0x40008 v) .qsigbase page ∧
      reads (.controlRegisterWrite die 0x40010 v) .qidle (v &&& 0xFFFFFFFF) ∧
      reads (.controlRegisterWrite die 0x40018 v) .savepool (v &&& 0xFFF0FFFFFFE00000) ∧
      (die = 0 → reads (.controlRegisterWrite 0 0x40020 v) .jctl (v &&& 0x0000FFFFFFFF0001)) ∧
      (∀ b, b < 32 → reads (.controlRegisterWrite die (0x90000 + 0x40 * b + 32) v) (.mc b 32) (v &&& 7)) ∧
      (∀ off, off % 8 = 0 → off < 2 ^ 20 → ctrlAt off = .reserved →
        Stays s (.controlRegisterWrite die off v) ∧ s.readCtrl die .reserved = 0) ∧
      (∀ off, off % 8 ≠ 0 ∨ 2 ^ 20 ≤ off → Stays s (.controlRegisterWrite die off v)) ∧
      (∀ hi : Bool, reads (.controlRegisterWrite die (if hi then 0x90828 else 0x90820) v) (.fence hi)
        (s.readCtrl die (.fence hi) ||| (if hi then v &&& 0xFFFFFFFF else v))) ∧
      (s.serves = true → s.dev.link.hostUp = true →
        (∀ off, off < 2 ^ 20 → off % 8 = 0 →
          exec (.hostBarAccess { glob := false, off := die * 2 ^ 20 + off, size := 8, write := true, data := v.toNat }) s =
            exec (.controlRegisterWrite die off v) s ∧
          DeviceBecomes s (.hostBarAccess { glob := false, off := die * 2 ^ 20 + off, size := 8, write := false, data := v.toNat })
            { s.dev with replies := s.dev.replies ++ [.bar (leBytes 8 (s.readCtrl die (ctrlAt off)).toNat) false] }) ∧
        (∀ off size, off % 8 ≠ 0 ∨ size ≠ 8 →
          Stays s (.hostBarAccess { glob := false, off := off, size := size, write := true, data := v.toNat }) ∧
          DeviceBecomes s (.hostBarAccess { glob := false, off := off, size := size, write := false, data := v.toNat })
            { s.dev with replies := s.dev.replies ++ [.bar (List.replicate size 0xFF) false] }) ∧
        (∀ off w, off < 2 ^ 39 → s.inRecord off = true → s.ownerOwed (mkey .glob 0 off) = false → homeDie off = 0 →
          (∃ t, exec (.hostBarAccess { glob := true, off := off, size := 1, write := true, data := w }) s = .next t ∧ t.mem = s.mem) ∧
          ∃ t, exec (.hostBarAccess { glob := true, off := off, size := 1, write := false, data := w }) s = .next t ∧
            t.dev.replies = s.dev.replies ++ [.bar [fld (Config.freeWord s.free) 0 8] true] ∧ t.free = s.free + 1) ∧
        (∀ off size w, 1 ≤ size → off + size ≤ 2 ^ 39 →
          (∀ i, i < size → s.hostMay (off + i) = true ∧ s.ownerOwed (mkey .glob 0 (off + i)) = false ∧ homeDie (off + i) = 0) →
          (∃ t, exec (.hostBarAccess { glob := true, off := off, size := size, write := false, data := w }) s = .next t ∧
            t.mem = s.mem ∧ t.cores = s.cores ∧
            t.dev.replies = s.dev.replies ++ [.bar ((List.range size).map (fun i => s.byte (mkey .glob 0 (off + i))))
              ((List.range size).any (fun i => KeySet.has s.marks (granule (mkey .glob 0 (off + i)))))]) ∧
          (s.Ok → (∀ i, i < size → s.descIgnores (off + i) = false) →
            ∃ t, exec (.hostBarAccess { glob := true, off := off, size := size, write := true, data := w }) s = .next t ∧
              (∀ i, i < size → t.byte (mkey .glob 0 (off + i)) = BitVec.ofNat 8 (w / 2 ^ (8 * i))) ∧
              (∀ x, x < mkey .glob 0 off ∨ mkey .glob 0 off + size ≤ x → t.byte x = s.byte x))))

/-- R377, R378, R350, R459: the package id is assigned once; an enabled port trains, and its stream is keyed where the two
packages have a key and it has not stopped since; a tag failure stops it and a new key starts it again; a port that is not
enabled is down; the bus that carried a key exchange takes the answer. R372, R455, R456: the host link comes up; its reset loses
the IDE keys and the session, and suspends every active protected context: its CTXST.STATE says so, and its tasks are held. R379, R382: the management interface
answers; in recovery it takes an image that passes the check. The model's choices here: a fabric key is a key slot of owner 0
and UP is training with key (log 77), EN = 0 clears UP and COMP and a stopped stream stays stopped (log 76), and a tag failure is recorded
in bank 27 (log 80). -/
def Obligations.LinkEvents : Prop :=
  ∀ (s : State),
    let tells (r : Reply) : Device := { s.dev with replies := s.dev.replies ++ [r] }
    let port (die p : Nat) (k : Port) : Device := { s.dev with link := { s.dev.link with
      ports := insertAt s.dev.link.ports (2 * die + p) k } }
    (∀ v, s.dieUp 0 = true →
      (s.dev.link.fabValid = false → DeviceBecomes s (.fabidWrite v) { s.dev with link := { s.dev.link with
        fabValid := v.getLsbD 31, pkg := v.setWidth 10 } }) ∧
      (s.dev.link.fabValid = true → Stays s (.fabidWrite v))) ∧
    (∀ die p, s.dieUp die = true → p < 2 →
      let k := s.port die p
      (∀ v : DWord, DeviceBecomes s (.fportEnWrite die p v) (port die p
        (if v.getLsbD 0 then { k with stop := k.stop && !v.getLsbD 61, en := true }
          else { trained := false, keyed := false, stale := k.stale, comp := false, stop := k.stop && !v.getLsbD 61, peer := k.peer, en := false }))) ∧
      (∀ peer comp, s.dev.link.fabValid = true → k.en = true → k.trained = false →
        DeviceBecomes s (.fabricLinkUp die p peer comp)
          (port die p { k with trained := true, keyed := s.fabricKeyed peer && !k.stale, comp := comp, peer := peer })) ∧
      (∀ peer comp, s.dev.link.fabValid = false ∨ k.en = false ∨ k.trained = true → Stays s (.fabricLinkUp die p peer comp)) ∧
      (k.trained = true → k.keyed = true → ∃ t, exec (.fabricTagFailure die p) s = .next t ∧ t.mem = s.mem ∧ t.cores = s.cores ∧
        t.port die p = { k with stop := true, keyed := false, stale := true } ∧ (t.bank die 27).status.getLsbD 63 = true) ∧
      (k.trained = false ∨ k.keyed = false → Stays s (.fabricTagFailure die p)) ∧
      (s.serves = true → k.trained = true → k.keyed = false →
        let slot := s.dev.keys.any (fun e => e.2.kind == .fabric && e.2.peer == k.peer) || s.freeKeySlot.isSome
        (slot = true → ∃ t, exec (.streamRekey die p) s = .next t ∧ t.mem = s.mem ∧ t.cores = s.cores ∧
          t.port die p = { k with stop := false, keyed := true, stale := false }) ∧
        (slot = false → Stays s (.streamRekey die p)))) ∧
    (∀ x : PeerExchange, s.serves = true →
      let bus := x.bus
      let peer := x.peer
      let rekeys (slot : Nat) (owner : BitVec 16) : Prop :=
        ∃ t, exec (.fabricKeyExchange x) s = .next t ∧ t.mem = s.mem ∧ t.cores = s.cores ∧
          t.dev.keys = insertAt s.dev.keys slot
            { kind := .fabric, link := false, owner := owner, key := s.dev.prot.nextKey, peer := peer, live := true } ∧
          t.dev.prot.nextKey = s.dev.prot.nextKey + 1 ∧ t.dev.replies = s.dev.replies ++ [.fabricKeyed bus peer true] ∧
          ∀ e ∈ t.dev.link.ports, e.2.peer = peer → e.2.stop = false ∧ e.2.stale = false ∧ (e.2.trained = true → e.2.keyed = true)
      (∀ k e, s.dev.keys.find? (fun e => e.2.kind == .fabric && e.2.peer == peer) = some (k, e) → rekeys k e.owner) ∧
      (s.dev.keys.find? (fun e => e.2.kind == .fabric && e.2.peer == peer) = none →
        (∀ k, s.freeKeySlot = some k → rekeys k 0 ∧ 8 ≤ k % 512 ∧ k < 4096 ∧ ∀ e ∈ s.dev.keys, e.1 ≠ k) ∧
        (s.freeKeySlot = none → DeviceBecomes s (.fabricKeyExchange x) (tells (.fabricKeyed bus peer false))))) ∧
    (s.bootOf 0 ≠ .off → s.dev.lost.contains 0 = false →
      DeviceBecomes s .hostLinkUp { s.dev with link := { s.dev.link with hostUp := true } }) ∧
    (s.bootOf 0 ≠ .off → ∃ t, exec .linkReset s = .next t ∧ t.mem = s.mem ∧ t.dev.link.hostUp = false ∧
      t.dev.prot.spdm.session = false ∧ (∀ e ∈ t.dev.keys, e.2.kind = .ide → e.2.live = false) ∧
      (∀ n, (t.core n).r = (s.core n).r ∧ (t.core n).task = (s.core n).task) ∧
      (rising s.dev.prot.ctxs = true → t.dev.prot.ctxs = s.dev.prot.ctxs.map (fun e =>
        (e.1, if e.2.state = .active then { e.2 with state := .suspended } else e.2))) ∧
      ∀ e ∈ s.dev.prot.ctxs, e.2.state = .active → ∀ n k, (s.core n).task = some k → k.ctx = e.2.ctx → (t.core n).held = true) ∧
    (∀ bus, s.bootOf 0 ≠ .off → DeviceBecomes s (.mctpControl bus) (tells (.mctp bus))) ∧
    (∀ bus, s.serves = true →
      let p := s.dev.power
      (∃ t temp, exec (.pldmMonitoring bus) s = .next t ∧ t.mem = s.mem ∧ t.cores = s.cores ∧
        t.dev = tells (.monitoring bus temp p.pwr p.amps p.div)) ∧
      DeviceBecomes s (.capRead bus) (tells (.cap bus p.watts)) ∧
      ∀ v : BitVec 16,
        let w := BitVec.ofNat 16 (max 1000 (min 10000 v.toNat))
        DeviceBecomes s (.capWrite bus v) { tells (.cap bus w) with power := { p with watts := w } }) ∧
    (∀ bus digest, s.bootOf 0 = .recovery →
      (Config.imageSigned digest = true → DeviceBecomes s (.imageTransfer bus digest)
        { tells (.image bus true) with flash := .image digest, boot := [] }) ∧
      (Config.imageSigned digest = false → DeviceBecomes s (.imageTransfer bus digest) (tells (.image bus false)))) ∧
    (∀ bus digest, s.bootOf 0 ≠ .recovery → Stays s (.imageTransfer bus digest))

/-! ### Machine checks, recovery and resets (R40, R308, R332, R440 to R457) -/

/-- R441 to R444: an error fills an empty bank; a worse one takes its place, another sets OVF; a corrected one is counted.
A fatal one calls for the loss of its die; R440: bank 26 of
a die without a host port is never written. R442: a written VAL clears the record, CECNT as written; R443: a window's end
clears COUNT. R445, R447: a datapath check gives the task 0xA5, and a second within a second calls for the core's fence.
R448: a fence takes the core out of service and its task takes 0xE5; a written OUT bit brings it back. R450: a mismatch of
the command-processor pair is replayed, which bank 28 then shows as corrected with 0xE7, and a second within a second is fatal. R451: the
banks of a lost die keep what they hold. -/
def Obligations.MachineCheckEvents : Prop :=
  ∀ (s : State),
    (∀ die e, die ≠ 0 → Stays s (.mcErrorRecord die 26 e)) ∧
    -- R440: the number of UNIT codes of each bank
    let units (b : Nat) : Nat := if b < 12 then 10 else if b < 20 then 2 else if b < 24 then 25 else if b < 27 then 2
      else if b = 27 then 4 else if b = 28 then 7 else if b = 29 then 4 else 48
    (∀ die b e, (b < 32 ∧ units b ≤ e.unit.toNat) ∨ 8 ≤ die ∨ e.sev = 0 ∨ 8 ≤ e.akind.toNat → Stays s (.mcErrorRecord die b e)) ∧
    (∀ die b e v, s.dev.lost.contains die = true →
      Stays s (.mcErrorRecord die b e) ∧ Stays s (.threshWindowEnd die b) ∧ Stays s (.mcStatusClear die b v)) ∧
    (∀ die b e, s.dev.lost.contains die = false → die < 8 → b < 32 → e.unit.toNat < units b → e.sev ≠ 0 → e.akind.toNat < 8 →
      (b = 26 → die = 0) →
      let k := s.bank die b
      let held := k.status.toNat / 2 ^ 60 % 4
      let full := k.status.getLsbD 63
      ∃ t, exec (.mcErrorRecord die b e) s = .next t ∧ t.mem = s.mem ∧ t.cores = s.cores ∧
        (∀ d c, c < 32 → (d, c) ≠ (die, b) → t.bank d c = s.bank d c) ∧
        (e.sev ≠ 1 → (full = false ∨ (e.sev = 3 ∧ held ≠ 3) ∨ (e.sev = 2 ∧ held = 1)) →
          (t.bank die b).status = (1#2 <<< 1 : BitVec 2) ++ e.sev ++ BitVec.ofBool (e.akind != 0) ++ BitVec.ofBool e.misc.isSome ++
            BitVec.ofBool e.synd.isSome ++ BitVec.ofBool e.pmark ++ e.cause ++ fld k.status 32 16 ++ e.loc ++ 0#4 ++ e.unit ∧
          (t.bank die b).addr = e.akind ++ 0#12 ++ e.addr ∧ (t.bank die b).misc = e.misc.getD 0 &&& 0xFFFFFFFFFFFF0000 ∧
          (t.bank die b).synd = e.synd.getD 0) ∧
        (e.sev = 2 → full = true → held ≠ 1 → (t.bank die b).status = k.status ||| 0x4000000000000000 ∧
          (t.bank die b).addr = k.addr) ∧
        (e.sev = 1 → full = false → k.ctl.getLsbD 2 = true → fld (t.bank die b).status 60 4 = 0b1001 ∧ fld (t.bank die b).status 48 8 = 0 ∧
          fld (t.bank die b).status 0 32 = e.loc ++ 0#4 ++ e.unit) ∧
        (e.sev = 1 → (t.bank die b).thresh.toNat / 2 ^ 32 % 2 ^ 16 = min 0xFFFF (k.thresh.toNat / 2 ^ 32 % 2 ^ 16 + 1)) ∧
        (e.sev = 3 → die ∈ t.dev.mc.losses)) ∧
    (∀ die b, s.dev.lost.contains die = false → ∃ t, exec (.threshWindowEnd die b) s = .next t ∧ t.mem = s.mem ∧ t.cores = s.cores ∧
      t.bank die b = { s.bank die b with thresh := (s.bank die b).thresh &&& 0xFFFF0000FFFFFFFF, acted := false }) ∧
    (∀ die b (v : DWord), s.dev.lost.contains die = false → ∃ t, exec (.mcStatusClear die b v) s = .next t ∧ t.mem = s.mem ∧ t.cores = s.cores ∧
      t.bank die b = if v.getLsbD 63 then { s.bank die b with status := v &&& 0x0000FFFF00000000, addr := 0, misc := 0, synd := 0 }
        else { s.bank die b with
          status := ((s.bank die b).status &&& 0xFFFF0000FFFFFFFF) ||| (v &&& 0x0000FFFF00000000) }) ∧
    (∀ n sl synd, n < 768 →
      let c := s.core n
      (c.alive = true → c.writesNow sl = true → ∃ t, exec (.datapathCheckFail n sl synd) s = .next t ∧ t.mem = s.mem ∧
        t.core n = { c with deferred := c.deferred ++ [deferred 0xA5 (sl.code.setWidth 64) sl], last5 := some s.wheel } ∧
        (∀ m, m ≠ n → t.core m = s.core m) ∧
        (s.dev.lost.contains (n / 96) = false → (t.bank (n / 96) (30 + n % 96 / 48)).status.getLsbD 63 = true) ∧
        (∀ w, c.last5 = some w → s.wheel < w + 1500000000 → n ∈ t.dev.mc.fences)) ∧
      (c.alive = false ∨ c.writesNow sl = false → Stays s (.datapathCheckFail n sl synd)) ∧
      (n ∈ s.dev.mc.fences → ∃ t, exec (.coreFence n) s = .next t ∧ t.mem = s.mem ∧ n ∉ t.dev.mc.fences ∧
        t.core n = (if c.alive then
          { c with out := true, deferred := c.deferred ++ [deferred 0xE5 ((s.loc n).setWidth 64) .b] } else { c with out := true }) ∧
        ∀ m, m ≠ n → t.core m = s.core m) ∧
      (n ∉ s.dev.mc.fences → Stays s (.coreFence n)) ∧
      (c.out = true → Becomes s (.coreReturnToService n) n { c with out := false }) ∧
      (c.out = false → Stays s (.coreReturnToService n))) ∧
    (∀ die pcs, die < 8 → s.dev.lost.contains die = false →
      let again := ∃ e ∈ s.dev.mc.mismatch, e.1 = die ∧ s.wheel < e.2 + 1500000000
      (¬again → DeviceBecomes s (.lockstepMismatch die pcs) { s.dev with mc := { s.dev.mc with
        replaying := insertAt s.dev.mc.replaying die pcs, mismatch := insertAt s.dev.mc.mismatch die s.wheel } }) ∧
      (again → ∃ t, exec (.lockstepMismatch die pcs) s = .next t ∧ t.mem = s.mem ∧ t.cores = s.cores ∧ die ∈ t.dev.mc.losses ∧
        fld (t.bank die 28).status 60 2 = 3 ∧ ((s.bank die 28).status.getLsbD 63 = false → fld (t.bank die 28).status 48 8 = 0xE7))) ∧
    (∀ die, (∀ e ∈ s.dev.mc.replaying, e.1 ≠ die) → Stays s (.lockstepReplayComplete die)) ∧
    (∀ die, (∃ e ∈ s.dev.mc.replaying, e.1 = die) → ∃ t, exec (.lockstepReplayComplete die) s = .next t ∧ t.mem = s.mem ∧
      t.cores = s.cores ∧ t.replays die = false ∧
      (s.dev.lost.contains die = false → (s.bank die 28).status.getLsbD 63 = false → (s.bank die 28).ctl.getLsbD 2 = true →
        fld (t.bank die 28).status 60 2 = 1 ∧ fld (t.bank die 28).status 48 8 = 0xE7 ∧
        ∀ pcs, s.dev.mc.replaying.find? (·.1 == die) = some (die, pcs) → (t.bank die 28).synd = pcs))

/-- R332, R449: a SELFTEST packet takes the cores it may test out of scheduling, and pre-empts tasks of lower priority there; a core
under test comes back with every array zero, and out of service where the test fails. R451 to R454: a lost die has no task and no
message left, and another package's loss takes its ports and the indices that it claimed. R455: a warm reset ends every task and
queue, and keeps the arrays; a cold reset and a loss of power leave the weight tier, the flash and what a reset sets, and HOST and PEER
memory, which is no part of the device (log 35); without power
no die runs. The model's choices here: what R455 does not name stays over a warm reset (log 41), which ends the SPDM session
(log 78); a self-test clears no OUT (log 74); a die that the form does not have counts as lost (log 89); GLOB reads zero once power has
gone (log 2). -/
def Obligations.RecoveryEvents : Prop :=
  ∀ (s : State), s.Ok →
    (∀ id p, s.findPacket id = some p → p.type = tSelftest → p.acted = false → p.outcome = none →
      let named (n : Nat) : Prop := n / 96 = p.die ∧ (pktNat p.body 16 12).testBit (n % 96) = true ∧
        ((s.owner (ownerCore n)).owner = 0 ∨ (s.owner (ownerCore n)).owner = p.ctx)
      ∃ t, exec (.selftest id) s = .next t ∧ t.mem = s.mem ∧
        ∀ n, n < 768 →
          { t.core n with testReq := false, preempt := false } = { s.core n with testReq := false, preempt := false } ∧
          (named n → (t.core n).testReq = true) ∧ (¬named n → (t.core n).testReq = (s.core n).testReq) ∧
          ((s.core n).preempt = true → (t.core n).preempt = true) ∧
          (s.accepts p.die = false → (t.core n).preempt = (s.core n).preempt) ∧
          (∀ k, s.accepts p.die = true → s.dev.prot.ctxs = [] → named n → (s.core n).task = some k → k.prio < p.prio →
            (s.core n).mode = .running → s.choosable n = true → (t.core n).preempt = true)) ∧
    (∀ n fail p, n < 768 → (s.core n).underTest = true →
      s.dev.sched.packets.find? (fun p => p.type == tSelftest && p.cores.contains n) = some p →
      ∃ t, exec (.selftestComplete n fail) s = .next t ∧ (∀ k, k < 2 ^ 20 → t.byte (mkey .spad n k) = 0) ∧
        (∀ k, k < 2 ^ 18 → t.byte (mkey .opmem n k) = 0) ∧ (t.core n).r = .zero ∧ (t.core n).task = none ∧
        (t.core n).out = ((s.core n).out || decide (fail ≠ 0)) ∧ (∀ m, m ≠ n → t.core m = s.core m) ∧
        (fail ≠ 0 → s.dev.lost.contains (n / 96) = false → (t.bank (n / 96) (n / 8 % 12)).status.getLsbD 63 = true)) ∧
    (∀ n fail, n < 768 → (s.core n).underTest = true →
      s.dev.sched.packets.find? (fun p => p.type == tSelftest && p.cores.contains n) = none →
      Becomes s (.selftestComplete n fail) n { s.core n with testReq := false }) ∧
    (∀ n fail, (s.core n).underTest = false → Stays s (.selftestComplete n fail)) ∧
    (∀ die, die < 8 → s.dev.lost.contains die = false → ∃ t, exec (.dieLost die) s = .next t ∧ t.dev.lost.contains die = true ∧
      (∀ n, n / 96 = die → (t.core n).task = none ∧ (t.core n).mode = .idle ∧ (t.core n).out = (s.core n).out) ∧
      (∀ m ∈ t.dev.ms.msgs, m.src ≠ die ∧ m.dst ≠ die) ∧ ∀ k ∈ t.dev.sched.slots, k.q / 8192 ≠ die) ∧
    (∀ die, 8 ≤ die ∨ s.dev.lost.contains die = true → Stays s (.dieLost die)) ∧
    (∀ pkg, ∃ t, exec (.packageLost pkg) s = .next t ∧ t.mem = s.mem ∧
      ((∀ l ∈ s.dev.sched.launches, ∀ e ∈ l.away, e.1 ≠ pkg) → t.cores = s.cores) ∧
      t.dev.link.lostPkgs = KeySet.add s.dev.link.lostPkgs pkg ∧
      (∀ e ∈ t.dev.link.ports, e.2.peer.toNat = pkg → e.2.trained = false ∧ e.2.keyed = false) ∧
      ∀ l ∈ t.dev.sched.launches, ∀ e ∈ l.away, e.1 ≠ pkg) ∧
    (s.bootOf 0 ≠ .off → ∃ t, exec .warmReset s = .next t ∧
      (∀ n, (t.core n).task = none ∧ (t.core n).mode = .idle ∧ (t.core n).r = (s.core n).r ∧ (t.core n).out = (s.core n).out) ∧
      (s.journals = false → t.mem = s.mem ∧ t.marks = s.marks ∧ t.dev.ms.lines.map (·.2.bytes) = s.dev.ms.lines.map (·.2.bytes) ∧
        ∀ n, (t.core n).m.l1.map (·.bytes) = (s.core n).m.l1.map (·.bytes)) ∧
      t.dev.sched.slots = [] ∧ t.dev.sched.launches = [] ∧ t.dev.sched.saved = [] ∧ t.dev.jobs = [] ∧ t.dev.lost = s.dev.form.absent ∧
      t.dev.link.hostUp = false ∧ t.dev.prot.spdm.session = false ∧ t.dev.wt.remap = s.dev.wt.remap ∧ t.wheel = s.wheel ∧
      ∀ e ∈ t.dev.prot.ctxs, e.2.state = .tearing) ∧
    (s.bootOf 0 = .off → Stays s .warmReset) ∧
    (∀ writing : Bool,
      let restarts (i : Instr) (boot : List (Nat × Boot)) (flash : Flash) : Prop :=
        ∃ t, exec i s = .next t ∧
          (∀ x, t.byte x = if keySpace x = 3 ∨ keySpace x = 4 ∨ keySpace x = 5 then s.byte x else 0) ∧ t.tags = [] ∧ t.marks = [] ∧
          t.cores = [] ∧ t.wheel = 0 ∧ t.dev.form = s.dev.form ∧ t.dev.lost = s.dev.form.absent ∧ t.dev.boot = boot ∧ t.dev.flash = flash ∧ t.dev.wt.remap = s.dev.wt.remap ∧
          t.dev.wt.wear = s.dev.wt.wear ∧ t.dev.wt.regions = s.dev.wt.regions ∧ t.dev.owners = [] ∧ t.dev.keys = [] ∧
          t.dev.prot.ctxs = [] ∧ t.dev.prot.nextKey = s.dev.prot.nextKey ∧ t.dev.sched = Device.reset.sched ∧
          t.dev.mc = Device.reset.mc ∧ t.dev.power = Device.reset.power
      let off := (List.range 8).map (fun d => (d, Boot.off))
      restarts .coldReset (if s.dev.flash.ok then [] else (List.range 8).map (fun d => (d, .recovery))) s.dev.flash ∧
      restarts (.powerLoss writing) off (if writing = true ∧ s.bootOf 0 = .recovery then .torn else s.dev.flash))

/-! ### Protected contexts (R342 to R360, R456) -/

/-- R359, R360: each request is answered where the responder has been led up to it, in the order of SPDM 1.3 (log 36), and
refused else, on what carried it (R382); without a running Uberakel of die 0, or over DOE without the host link, nothing is
answered. R350, R372: one link stream and eight selective ones can be keyed. The model's choices here: a signature covers its parts in the
order that they are named (log 32), IDE_KM names a key slot, and a free one becomes an IDE slot of the named owner (log 37). -/
def Obligations.SpdmEvents : Prop :=
  ∀ (s : State),
    let via := s.dev.prot.spdm.via
    let p := s.dev.prot.spdm
    let ends (i : Instr) (ok : Bool) (p' : Spdm) (key : Nat) (r : SpdmReply) : Prop :=
      (s.hears = false → Stays s i) ∧
      (s.hears = true → ok = true → DeviceBecomes s i { s.dev with
        replies := s.dev.replies ++ [.spdm via r], prot := { s.dev.prot with spdm := p', nextKey := s.dev.prot.nextKey + key } }) ∧
      (s.hears = true → ok = false → DeviceBecomes s i { s.dev with replies := s.dev.replies ++ [.spdm via .refused] })
    let says_ (i : Instr) (r : SpdmReply) : Prop := ends i p.negotiated p 0 r
    ends (.getVersion) true { p with version := true } 0 .version ∧ ends (.getCapabilities) p.version p 0 .capabilities ∧
    ends (.negotiateAlgorithms) p.version { p with negotiated := true } 0 .algorithms ∧
    says_ (.getDigests) (.digests Config.certDigest) ∧ says_ (.getCertificate) (.certificate Config.certDigest) ∧
    (∀ nonce, says_ (.challenge nonce)
      (.challenge (Config.identitySign (leBytes 64 Config.certDigest.toNat ++ leBytes 32 nonce.toNat)))) ∧
    says_ (.getMeasurements 0) (.measurementCount 11) ∧
    says_ (.getMeasurements 1) (.measurements [(1, leBytes 64 Config.romDigest.toNat)]) ∧
    says_ (.getMeasurements 2) (.measurements [(2, leBytes 64 s.dev.flash.digest.toNat)]) ∧
    (∀ d, d < 8 → says_ (.getMeasurements (0x10 + d)) (.measurements [(0x10 + d, (List.range 64).flatMap (fun r =>
      leBytes 16 (s.region d r).toNat ++ leBytes 64 (s.regionDigest d r).toNat))])) ∧
    (∀ i, 4 ≤ i → (i < 0x10 ∨ 0x18 ≤ i) → i ≠ 0xFF → says_ (.getMeasurements i) .refused) ∧
    ends (.keyExchange) p.negotiated { p with handshake := true, number := p.number + 1, keyNo := s.dev.prot.nextKey } 1
      (.session (p.number + 1)) ∧
    ends (.finish) p.handshake { p with handshake := false, session := true } 0 .finished ∧
    ends (.keyUpdate) p.session { p with keyNo := s.dev.prot.nextKey } 1 .keyUpdated ∧
    ends (.endSession) p.session { p with session := false } 0 .ended ∧
    (∀ (st : IdeStream) owner, s.hears = true →
      let slot := st.slot
      let link := st.link
      let keyed (e : KeySlot) : Device := { s.dev with
        replies := s.dev.replies ++ [.spdm via .done]
        keys := insertAt s.dev.keys slot e
        prot := { s.dev.prot with nextKey := s.dev.prot.nextKey + 1 } }
      let refused : Prop := DeviceBecomes s (.ideKm st owner) { s.dev with replies := s.dev.replies ++ [.spdm via .refused] }
      let used := s.dev.keys.countP (fun e => e.2.kind == .ide && e.2.link == link)
      (p.session = false ∨ s.dev.link.hostUp = false → refused) ∧
      (p.session = true → s.dev.link.hostUp = true →
        (∀ e, s.keySlot slot = some e → e.kind = .ide → e.link = link → DeviceBecomes s (.ideKm st owner)
          (keyed { e with key := s.dev.prot.nextKey, live := true })) ∧
        (∀ e, s.keySlot slot = some e → e.kind ≠ .ide ∨ e.link ≠ link → refused) ∧
        (s.keySlot slot = none → 8 ≤ slot % 512 → slot < 4096 → used < (if link then 1 else 8) →
          DeviceBecomes s (.ideKm st owner)
            (keyed { kind := .ide, link := link, owner := owner, key := s.dev.prot.nextKey, peer := 0, live := true })) ∧
        (s.keySlot slot = none → slot % 512 < 8 ∨ (if link then 1 else 8) ≤ used → refused)))

/-- R351 to R358, R456: within a session a context is created with the lowest free index and a save key, takes resources that
nobody owns and a save area, is reported, and goes on after a suspension; its teardown stops its queues and kills its tasks.
R347: a new owner entry takes effect once no access under the old one is left; where no teardown goes on, nothing else changes then. That
CREATE takes the lowest free index is the model's choice (log 95). R356, R357: the Louver zeroises each key slot,
and clears each core, CLUS and page. -/
def Obligations.ContextEvents : Prop :=
  ∀ (s : State),
    let via := s.dev.prot.spdm.via
    (s.hears = true → s.dev.prot.spdm.session = true →
      let says_ (i : Instr) (r : SpdmReply) : Prop := DeviceBecomes s i { s.dev with replies := s.dev.replies ++ [.spdm via r] }
      (∀ k slot, k < 255 → (∀ e ∈ s.dev.prot.ctxs, e.1 ≠ k + 1) →
        (∀ j, j < k → ∃ e ∈ s.dev.prot.ctxs, e.1 = j + 1) → s.freeKeySlot = some slot →
        ∃ t ctx, exec (.create) s = .next t ∧ t.mem = s.mem ∧ t.cores = s.cores ∧
          t.dev.replies = s.dev.replies ++ [.spdm via (.created ctx (k + 1))] ∧
          lookupD { state := .tearing, ctx := 0, skey := 0, savectr := 0, area := none, held := [], arenas := [] } t.dev.prot.ctxs (k + 1) =
            { state := .active, ctx := ctx, skey := slot, savectr := 0, area := none, held := [], arenas := [] }) ∧
      (∀ ctx, s.ctxEntry ctx = none →
        (∀ what, says_ (.assign ctx what) .refused) ∧ (∀ cap len, says_ (.saveArea ctx cap len) .refused) ∧
        (∀ nonce, says_ (.report ctx nonce) .refused) ∧ says_ (.teardown ctx) .refused ∧ says_ (.resume ctx) .refused) ∧
      (∀ ctx k x, s.ctxEntry ctx = some (k, x) →
        (∀ what, x.state ≠ .tearing → what.all s.assignable = true → ∃ t, exec (.assign ctx what) s = .next t ∧ t.mem = s.mem ∧
          t.cores = s.cores ∧ t.dev.replies = s.dev.replies ++ [.spdm via .done] ∧ t.dev.owners = s.dev.owners ∧
          ∀ r ∈ what, ∀ e, Resource.key r = some e → (e, ({ owner := ctx, scrub := false } : Owner)) ∈ t.dev.prot.owed) ∧
        (∀ what, what.all s.assignable = false → says_ (.assign ctx what) .refused) ∧
        (∀ cap len, areaLegal cap len = true → x.held = [] → x.state ≠ .tearing →
          DeviceBecomes s (.saveArea ctx cap len) { s.dev with
            replies := s.dev.replies ++ [.spdm via .done]
            prot := { s.dev.prot with ctxs := insertAt s.dev.prot.ctxs k { x with area := some (cap, len) } } }) ∧
        (∀ nonce, says_ (.report ctx nonce) (.report (s.reportBody k x nonce) (Config.identitySign (s.reportBody k x nonce)))) ∧
        (x.state = .suspended → s.streamsKeyed ctx = true → ∃ t, exec (.resume ctx) s = .next t ∧ t.mem = s.mem ∧
          t.dev.replies = s.dev.replies ++ [.spdm via .done] ∧
          t.dev.prot.ctxs = insertAt s.dev.prot.ctxs k { x with state := .active } ∧
          ∀ n, t.core n = if (s.core n).task.any (·.ctx == ctx) = true then { s.core n with held := false } else s.core n) ∧
        (x.state ≠ .suspended → says_ (.resume ctx) .refused) ∧
        (x.state = .tearing → says_ (.teardown ctx) .refused) ∧
        (x.state ≠ .tearing → ∃ t, exec (.teardown ctx) s = .next t ∧ t.dev.replies = s.dev.replies ++ [.spdm via .done] ∧
          (∀ q ∈ t.dev.sched.slots ++ t.dev.sched.remap, q.ctx ≠ ctx) ∧
          (∀ e ∈ t.dev.prot.ctxs, e.1 = k → rising s.dev.prot.ctxs = true → e.2.state = .tearing) ∧
          (s.Ok → ∀ n, (t.core n).task.any (·.ctx == ctx) = true → (t.core n).mode = .dying)))) ∧
    (s.louverCtx = none → (∀ e ∈ s.dev.prot.ctxs, e.2.state ≠ .tearing) → rising s.dev.owners = true → ∀ k o, s.dev.prot.owed.find? (·.1 == k) = some (k, o) →
      (s.entryBusy k = true → Stays s (.ownerEntryEffect k)) ∧
      (s.entryBusy k = false → ∃ t, exec (.ownerEntryEffect k) s = .next t ∧ t.mem = s.mem ∧ t.cores = s.cores ∧ t.owner k = o ∧
        (∀ j, j ≠ k → t.owner j = s.owner j) ∧ ∀ e ∈ t.dev.prot.owed, e.1 ≠ k)) ∧
    (s.Ok → ∀ die k,
      let l := s.lv die
      s.dev.lost.contains die = false → l.phase ≠ 0 → (s.louverList die l.ctx l.phase)[l.done]? = some k → l.done + 1 < l.total →
      (l.phase = 1 → ∃ t, exec (.louverResourceDone die) s = .next t ∧ t.mem = s.mem ∧ t.cores = s.cores ∧
        ∀ e ∈ t.dev.keys, e.1 = k → e.2.kind = .zeroised ∧ e.2.live = false) ∧
      (l.phase ≠ 1 → ∃ t, exec (.louverResourceDone die) s = .next t ∧
        (k < 2 ^ 20 → ∀ x, t.byte x = if mkey .glob 0 (k * 2 ^ 21) ≤ x ∧ x < mkey .glob 0 (k * 2 ^ 21) + 2 ^ 21 then 0 else s.byte x) ∧
        (2 ^ 21 ≤ k → ∀ x, t.byte x =
          if mkey .clus (k - 2 ^ 21) 0 ≤ x ∧ x < mkey .clus (k - 2 ^ 21) 0 + 2 ^ 24 then 0 else s.byte x) ∧
        (2 ^ 20 ≤ k → k < 2 ^ 21 → (t.core (k - 2 ^ 20)).r = .zero ∧
          ∀ x, x < 2 ^ 20 → t.byte (mkey .spad (k - 2 ^ 20) x) = 0)))

/-! ### The whole machine -/

/-- Reset: no task anywhere, every core's registers at the values of R51 where it gives one (TOL, RMAX) and zero elsewhere
(log 3), W zero (R290), memory with nothing listed (log 2), the machine-check, queue, idle and power registers at the values
of their Reset columns (R309, R326, R381, R442), every die in the re-hash of R379, since the flash holds a signed image (log 8: the model's
choice), and the state sound. -/
def Obligations.ResetState : Prop :=
  State.reset.Ok ∧ State.reset.wheel = 0 ∧ State.reset.mem = [] ∧ State.reset.tags = [] ∧ State.reset.marks = [] ∧
  (∀ n, (State.reset.core n).task = none ∧ (State.reset.core n).r = .zero ∧ (State.reset.core n).c.tol = 0x3CB0000000000000 ∧
    (State.reset.core n).c.rmax = 16 ∧ (State.reset.core n).c.flags = 0 ∧ (State.reset.core n).c.acc = .f64 ∧
    (State.reset.core n).c.rm = .rne ∧ (State.reset.core n).c.tvec = 0 ∧ (State.reset.core n).c.rot = 0) ∧
  (∀ die b o, State.reset.readCtrl die (.mc b o) = if o = 32 then 7 else if o = 40 then 0x03E80100 else 0) ∧
  (∀ die, State.reset.readCtrl die .qidle = 20000 ∧ State.reset.readCtrl die .wpelim = 100000 ∧
    State.reset.readCtrl die .savepool = 0) ∧
  State.reset.readCtrl 0 .pcap = 0x2710000000000000 ∧ State.reset.readCtrl 0 .fabid = 0 ∧
  (∀ die, State.reset.bootOf die = .rehash)

/-- Every step keeps the state sound: memory, tags, marks and the cores' table stay in their canonical forms, the reserved
fields of the CSRs read zero, RMAX and RSEQ.COUNT keep to their ranges (R51, R12), and while a task is on a core, or
saved from one, its h0 is the tagged root of the task's context (R41, R48). A step of the machine always ends in a
next state, unless the turn names a core that no package has (R18). -/
def Obligations.StepKeepsSound : Prop :=
  (∀ s t : State, s.Ok → step s = .next t → t.Ok) ∧
  ∀ s : State, (∀ n rest, s.agenda = .core n :: rest → n < 768) → ∃ t, step s = .next t

/-- Every well-formed operation has a slot word, and each slot in which it may stand decodes that word to it: no bit of an
encoding is dropped (R66, R73 to R78). -/
def Obligations.EncodingRoundTrip : Prop := ∀ i : Instr, Laws.RoundTrip.Statement i

/-- Words written out bit by bit from the encodings of R73 to R78 decode to what they stand for: three of slot S, and one each
of B, VA (two), M, CA and X. -/
def Obligations.DecodeWords : Prop :=
  decodeSlot .s 0x00700293 = .ok (.addi { rd := 5, rs1 := 0, imm := 7 }) ∧
  decodeSlot .s 0x40B50633 = .ok (.sub { rd := 12, rs1 := 10, rs2 := 11 }) ∧
  decodeSlot .s 0x00000073 = .ok .ecall ∧
  decodeSlot .b 0x38A8092F = .ok (.loopSp { rs1 := 5, stg := 2, len := 9, maxe := 2, maxm := 15 }) ∧
  decodeSlot .va 0xF0086283 = .ok (.barrive { hb := 4, xa := 6, xb := 5, scope := .package }) ∧
  decodeSlot .va 0x70450010 = .ok (.vredsum { vd := 8, vs1 := 40, et := .f32, pg := 0 }) ∧
  decodeSlot .m 0x58C4800000000000 = .ok (.mlradd { md := 3, ms1 := 1, ms2 := 2 }) ∧
  decodeSlot .x 0x45341080 = .ok (.xcvt { vd := 41, vs := 40, dt := .bf16, st := .f32 }) ∧
  decodeSlot .ca 0x048E000000005000 = .ok (.cjob { h := 2, xi := 7, off := 0, step := 0, xd := 5 })
end

