-- ==== Sys2Proof/Laws/Exec.lean ====
section
/-! SUPPORT. Which meaning each arm of `exec`, and of the issue of a bundle, calls: so that no proof unfolds either. -/

namespace Sys2Proof.Machine

/-! ### `exec` -/

@[simp] theorem exec_beq (f : BrF) (s : State) : exec (.beq f) s = execBeq f s := rfl
@[simp] theorem exec_bne (f : BrF) (s : State) : exec (.bne f) s = execBne f s := rfl
@[simp] theorem exec_blt (f : BrF) (s : State) : exec (.blt f) s = execBlt f s := rfl
@[simp] theorem exec_bge (f : BrF) (s : State) : exec (.bge f) s = execBge f s := rfl
@[simp] theorem exec_bltu (f : BrF) (s : State) : exec (.bltu f) s = execBltu f s := rfl
@[simp] theorem exec_bgeu (f : BrF) (s : State) : exec (.bgeu f) s = execBgeu f s := rfl
@[simp] theorem exec_bpt (f : BpF) (s : State) : exec (.bpt f) s = execBpt f s := rfl
@[simp] theorem exec_bpf (f : BpF) (s : State) : exec (.bpf f) s = execBpf f s := rfl
@[simp] theorem exec_jmp (off : BitVec 21) (s : State) : exec (.jmp off) s = execJmp off s := rfl
@[simp] theorem exec_call (f : BjF) (s : State) : exec (.call f) s = execCall f s := rfl
@[simp] theorem exec_ret (rs1 : XReg) (s : State) : exec (.ret rs1) s = execRet rs1 s := rfl
@[simp] theorem exec_loop (f : BlF) (s : State) : exec (.loop f) s = execLoop f s := rfl
@[simp] theorem exec_loopW (f : BlF) (s : State) : exec (.loopW f) s = execLoopW f s := rfl
@[simp] theorem exec_loopSp (f : BlF) (s : State) : exec (.loopSp f) s = execLoopSp f s := rfl
@[simp] theorem exec_lend (rs1 : XReg) (s : State) : exec (.lend rs1) s = execLend rs1 s := rfl
@[simp] theorem exec_lbrk (rs1 : XReg) (s : State) : exec (.lbrk rs1) s = execLbrk rs1 s := rfl
@[simp] theorem exec_wait (f : BwF) (s : State) : exec (.wait f) s = execWait f s := rfl
@[simp] theorem exec_setfmt (acc : Acc) (rm : Rm) (s : State) : exec (.setfmt acc rm) s = execSetfmt acc rm s := rfl
@[simp] theorem exec_litset (rs1 : XReg) (s : State) : exec (.litset rs1) s = execLitset rs1 s := rfl
@[simp] theorem exec_sstep (s : State) : exec (.sstep) s = execSstep s := rfl
@[simp] theorem exec_iinv (rs1 : XReg) (s : State) : exec (.iinv rs1) s = execIinv rs1 s := rfl
@[simp] theorem exec_yield (s : State) : exec (.yield) s = execYield s := rfl
@[simp] theorem exec_halt (s : State) : exec (.halt) s = execHalt s := rfl
@[simp] theorem exec_trap (code : BitVec 8) (s : State) : exec (.trap code) s = execTrap code s := rfl
@[simp] theorem exec_tret (s : State) : exec (.tret) s = execTret s := rfl
@[simp] theorem exec_lui (f : UF) (s : State) : exec (.lui f) s = execLui f s := rfl
@[simp] theorem exec_auipc (f : UF) (s : State) : exec (.auipc f) s = execAuipc f s := rfl
@[simp] theorem exec_addi (f : IF) (s : State) : exec (.addi f) s = execAddi f s := rfl
@[simp] theorem exec_slti (f : IF) (s : State) : exec (.slti f) s = execSlti f s := rfl
@[simp] theorem exec_sltiu (f : IF) (s : State) : exec (.sltiu f) s = execSltiu f s := rfl
@[simp] theorem exec_xori (f : IF) (s : State) : exec (.xori f) s = execXori f s := rfl
@[simp] theorem exec_ori (f : IF) (s : State) : exec (.ori f) s = execOri f s := rfl
@[simp] theorem exec_andi (f : IF) (s : State) : exec (.andi f) s = execAndi f s := rfl
@[simp] theorem exec_slli (f : ShF) (s : State) : exec (.slli f) s = execSlli f s := rfl
@[simp] theorem exec_srli (f : ShF) (s : State) : exec (.srli f) s = execSrli f s := rfl
@[simp] theorem exec_srai (f : ShF) (s : State) : exec (.srai f) s = execSrai f s := rfl
@[simp] theorem exec_add (f : RF) (s : State) : exec (.add f) s = execAdd f s := rfl
@[simp] theorem exec_sub (f : RF) (s : State) : exec (.sub f) s = execSub f s := rfl
@[simp] theorem exec_sll (f : RF) (s : State) : exec (.sll f) s = execSll f s := rfl
@[simp] theorem exec_slt (f : RF) (s : State) : exec (.slt f) s = execSlt f s := rfl
@[simp] theorem exec_sltu (f : RF) (s : State) : exec (.sltu f) s = execSltu f s := rfl
@[simp] theorem exec_xor (f : RF) (s : State) : exec (.xor f) s = execXor f s := rfl
@[simp] theorem exec_srl (f : RF) (s : State) : exec (.srl f) s = execSrl f s := rfl
@[simp] theorem exec_sra (f : RF) (s : State) : exec (.sra f) s = execSra f s := rfl
@[simp] theorem exec_or (f : RF) (s : State) : exec (.or f) s = execOr f s := rfl
@[simp] theorem exec_and (f : RF) (s : State) : exec (.and f) s = execAnd f s := rfl
@[simp] theorem exec_addiw (f : IF) (s : State) : exec (.addiw f) s = execAddiw f s := rfl
@[simp] theorem exec_slliw (f : ShwF) (s : State) : exec (.slliw f) s = execSlliw f s := rfl
@[simp] theorem exec_srliw (f : ShwF) (s : State) : exec (.srliw f) s = execSrliw f s := rfl
@[simp] theorem exec_sraiw (f : ShwF) (s : State) : exec (.sraiw f) s = execSraiw f s := rfl
@[simp] theorem exec_addw (f : RF) (s : State) : exec (.addw f) s = execAddw f s := rfl
@[simp] theorem exec_subw (f : RF) (s : State) : exec (.subw f) s = execSubw f s := rfl
@[simp] theorem exec_sllw (f : RF) (s : State) : exec (.sllw f) s = execSllw f s := rfl
@[simp] theorem exec_srlw (f : RF) (s : State) : exec (.srlw f) s = execSrlw f s := rfl
@[simp] theorem exec_sraw (f : RF) (s : State) : exec (.sraw f) s = execSraw f s := rfl
@[simp] theorem exec_lb (f : IF) (s : State) : exec (.lb f) s = execLb f s := rfl
@[simp] theorem exec_lh (f : IF) (s : State) : exec (.lh f) s = execLh f s := rfl
@[simp] theorem exec_lw (f : IF) (s : State) : exec (.lw f) s = execLw f s := rfl
@[simp] theorem exec_sld (f : IF) (s : State) : exec (.sld f) s = execSld f s := rfl
@[simp] theorem exec_lbu (f : IF) (s : State) : exec (.lbu f) s = execLbu f s := rfl
@[simp] theorem exec_lhu (f : IF) (s : State) : exec (.lhu f) s = execLhu f s := rfl
@[simp] theorem exec_lwu (f : IF) (s : State) : exec (.lwu f) s = execLwu f s := rfl
@[simp] theorem exec_sb (f : StF) (s : State) : exec (.sb f) s = execSb f s := rfl
@[simp] theorem exec_sh (f : StF) (s : State) : exec (.sh f) s = execSh f s := rfl
@[simp] theorem exec_sw (f : StF) (s : State) : exec (.sw f) s = execSw f s := rfl
@[simp] theorem exec_sd (f : StF) (s : State) : exec (.sd f) s = execSd f s := rfl
@[simp] theorem exec_fence (f : FenceF) (s : State) : exec (.fence f) s = execFence f s := rfl
@[simp] theorem exec_ecall (s : State) : exec (.ecall) s = execEcall s := rfl
@[simp] theorem exec_ebreak (s : State) : exec (.ebreak) s = execEbreak s := rfl
@[simp] theorem exec_mul (f : RF) (s : State) : exec (.mul f) s = execMul f s := rfl
@[simp] theorem exec_mulh (f : RF) (s : State) : exec (.mulh f) s = execMulh f s := rfl
@[simp] theorem exec_mulhsu (f : RF) (s : State) : exec (.mulhsu f) s = execMulhsu f s := rfl
@[simp] theorem exec_mulhu (f : RF) (s : State) : exec (.mulhu f) s = execMulhu f s := rfl
@[simp] theorem exec_div (f : RF) (s : State) : exec (.div f) s = execDiv f s := rfl
@[simp] theorem exec_divu (f : RF) (s : State) : exec (.divu f) s = execDivu f s := rfl
@[simp] theorem exec_rem (f : RF) (s : State) : exec (.rem f) s = execRem f s := rfl
@[simp] theorem exec_remu (f : RF) (s : State) : exec (.remu f) s = execRemu f s := rfl
@[simp] theorem exec_mulw (f : RF) (s : State) : exec (.mulw f) s = execMulw f s := rfl
@[simp] theorem exec_divw (f : RF) (s : State) : exec (.divw f) s = execDivw f s := rfl
@[simp] theorem exec_divuw (f : RF) (s : State) : exec (.divuw f) s = execDivuw f s := rfl
@[simp] theorem exec_remw (f : RF) (s : State) : exec (.remw f) s = execRemw f s := rfl
@[simp] theorem exec_remuw (f : RF) (s : State) : exec (.remuw f) s = execRemuw f s := rfl
@[simp] theorem exec_csrrw (f : CsrF) (s : State) : exec (.csrrw f) s = execCsrrw f s := rfl
@[simp] theorem exec_csrrs (f : CsrF) (s : State) : exec (.csrrs f) s = execCsrrs f s := rfl
@[simp] theorem exec_csrrc (f : CsrF) (s : State) : exec (.csrrc f) s = execCsrrc f s := rfl
@[simp] theorem exec_csrrwi (f : CsriF) (s : State) : exec (.csrrwi f) s = execCsrrwi f s := rfl
@[simp] theorem exec_csrrsi (f : CsriF) (s : State) : exec (.csrrsi f) s = execCsrrsi f s := rfl
@[simp] theorem exec_csrrci (f : CsriF) (s : State) : exec (.csrrci f) s = execCsrrci f s := rfl
@[simp] theorem exec_idle (slot : Slot) (s : State) : exec (.idle slot) s = execIdle slot s := rfl
@[simp] theorem exec_vadd (f : VrF) (s : State) : exec (.vadd f) s = execVadd f s := rfl
@[simp] theorem exec_vsub (f : VrF) (s : State) : exec (.vsub f) s = execVsub f s := rfl
@[simp] theorem exec_vmul (f : VrF) (s : State) : exec (.vmul f) s = execVmul f s := rfl
@[simp] theorem exec_vdiv (f : VrF) (s : State) : exec (.vdiv f) s = execVdiv f s := rfl
@[simp] theorem exec_vmin (f : VrF) (s : State) : exec (.vmin f) s = execVmin f s := rfl
@[simp] theorem exec_vmax (f : VrF) (s : State) : exec (.vmax f) s = execVmax f s := rfl
@[simp] theorem exec_vabs (f : VuF) (s : State) : exec (.vabs f) s = execVabs f s := rfl
@[simp] theorem exec_vneg (f : VuF) (s : State) : exec (.vneg f) s = execVneg f s := rfl
@[simp] theorem exec_vfma (f : VrF) (s : State) : exec (.vfma f) s = execVfma f s := rfl
@[simp] theorem exec_vfms (f : VrF) (s : State) : exec (.vfms f) s = execVfms f s := rfl
@[simp] theorem exec_vsqrt (f : VuF) (s : State) : exec (.vsqrt f) s = execVsqrt f s := rfl
@[simp] theorem exec_vrcp (f : VuF) (s : State) : exec (.vrcp f) s = execVrcp f s := rfl
@[simp] theorem exec_vrsqrt (f : VuF) (s : State) : exec (.vrsqrt f) s = execVrsqrt f s := rfl
@[simp] theorem exec_vexp2 (f : VuF) (s : State) : exec (.vexp2 f) s = execVexp2 f s := rfl
@[simp] theorem exec_vlog2 (f : VuF) (s : State) : exec (.vlog2 f) s = execVlog2 f s := rfl
@[simp] theorem exec_vand (f : VrF) (s : State) : exec (.vand f) s = execVand f s := rfl
@[simp] theorem exec_vor (f : VrF) (s : State) : exec (.vor f) s = execVor f s := rfl
@[simp] theorem exec_vxor (f : VrF) (s : State) : exec (.vxor f) s = execVxor f s := rfl
@[simp] theorem exec_vnot (f : VuF) (s : State) : exec (.vnot f) s = execVnot f s := rfl
@[simp] theorem exec_vshl (f : VrF) (s : State) : exec (.vshl f) s = execVshl f s := rfl
@[simp] theorem exec_vshr (f : VrF) (s : State) : exec (.vshr f) s = execVshr f s := rfl
@[simp] theorem exec_vsra (f : VrF) (s : State) : exec (.vsra f) s = execVsra f s := rfl
@[simp] theorem exec_vadds (f : VrF) (s : State) : exec (.vadds f) s = execVadds f s := rfl
@[simp] theorem exec_vsubs (f : VrF) (s : State) : exec (.vsubs f) s = execVsubs f s := rfl
@[simp] theorem exec_vmulh (f : VrF) (s : State) : exec (.vmulh f) s = execVmulh f s := rfl
@[simp] theorem exec_vbcast (f : VxF) (s : State) : exec (.vbcast f) s = execVbcast f s := rfl
@[simp] theorem exec_vmovx (f : VxF) (s : State) : exec (.vmovx f) s = execVmovx f s := rfl
@[simp] theorem exec_vmov (f : VuF) (s : State) : exec (.vmov f) s = execVmov f s := rfl
@[simp] theorem exec_viota (f : VdF) (s : State) : exec (.viota f) s = execViota f s := rfl
@[simp] theorem exec_vli (f : ViF) (s : State) : exec (.vli f) s = execVli f s := rfl
@[simp] theorem exec_vcmpEq (f : VcF) (s : State) : exec (.vcmpEq f) s = execVcmpEq f s := rfl
@[simp] theorem exec_vcmpNe (f : VcF) (s : State) : exec (.vcmpNe f) s = execVcmpNe f s := rfl
@[simp] theorem exec_vcmpLt (f : VcF) (s : State) : exec (.vcmpLt f) s = execVcmpLt f s := rfl
@[simp] theorem exec_vcmpLe (f : VcF) (s : State) : exec (.vcmpLe f) s = execVcmpLe f s := rfl
@[simp] theorem exec_vcmpUn (f : VcF) (s : State) : exec (.vcmpUn f) s = execVcmpUn f s := rfl
@[simp] theorem exec_vcmpLtu (f : VcF) (s : State) : exec (.vcmpLtu f) s = execVcmpLtu f s := rfl
@[simp] theorem exec_vcmpLeu (f : VcF) (s : State) : exec (.vcmpLeu f) s = execVcmpLeu f s := rfl
@[simp] theorem exec_vpand (f : VpF) (s : State) : exec (.vpand f) s = execVpand f s := rfl
@[simp] theorem exec_vpor (f : VpF) (s : State) : exec (.vpor f) s = execVpor f s := rfl
@[simp] theorem exec_vpxor (f : VpF) (s : State) : exec (.vpxor f) s = execVpxor f s := rfl
@[simp] theorem exec_vpnot (f : VpnF) (s : State) : exec (.vpnot f) s = execVpnot f s := rfl
@[simp] theorem exec_vpset (f : VpsF) (s : State) : exec (.vpset f) s = execVpset f s := rfl
@[simp] theorem exec_vpcnt (f : VpxF) (s : State) : exec (.vpcnt f) s = execVpcnt f s := rfl
@[simp] theorem exec_vpfirst (f : VpxF) (s : State) : exec (.vpfirst f) s = execVpfirst f s := rfl
@[simp] theorem exec_vsel (f : VrF) (s : State) : exec (.vsel f) s = execVsel f s := rfl
@[simp] theorem exec_vperm (f : VrF) (s : State) : exec (.vperm f) s = execVperm f s := rfl
@[simp] theorem exec_vslideup (f : VslF) (s : State) : exec (.vslideup f) s = execVslideup f s := rfl
@[simp] theorem exec_vslidedn (f : VslF) (s : State) : exec (.vslidedn f) s = execVslidedn f s := rfl
@[simp] theorem exec_vzip (f : VrF) (s : State) : exec (.vzip f) s = execVzip f s := rfl
@[simp] theorem exec_vunzip (f : VrF) (s : State) : exec (.vunzip f) s = execVunzip f s := rfl
@[simp] theorem exec_vcompress (f : VuF) (s : State) : exec (.vcompress f) s = execVcompress f s := rfl
@[simp] theorem exec_vexpand (f : VuF) (s : State) : exec (.vexpand f) s = execVexpand f s := rfl
@[simp] theorem exec_vredsum (f : VuF) (s : State) : exec (.vredsum f) s = execVredsum f s := rfl
@[simp] theorem exec_vredmax (f : VuF) (s : State) : exec (.vredmax f) s = execVredmax f s := rfl
@[simp] theorem exec_vredmin (f : VuF) (s : State) : exec (.vredmin f) s = execVredmin f s := rfl
@[simp] theorem exec_vscansum (f : VuF) (s : State) : exec (.vscansum f) s = execVscansum f s := rfl
@[simp] theorem exec_vscanmax (f : VuF) (s : State) : exec (.vscanmax f) s = execVscanmax f s := rfl
@[simp] theorem exec_vargmax (f : VuF) (s : State) : exec (.vargmax f) s = execVargmax f s := rfl
@[simp] theorem exec_vbitonic (f : VbtF) (s : State) : exec (.vbitonic f) s = execVbitonic f s := rfl
@[simp] theorem exec_vmulL6 (f : VlF) (s : State) : exec (.vmulL6 f) s = execVmulL6 f s := rfl
@[simp] theorem exec_vdotL6 (f : VlF) (s : State) : exec (.vdotL6 f) s = execVdotL6 f s := rfl
@[simp] theorem exec_vrand (f : VrF) (s : State) : exec (.vrand f) s = execVrand f s := rfl
@[simp] theorem exec_vld (f : VmF) (s : State) : exec (.vld f) s = execVld f s := rfl
@[simp] theorem exec_vst (f : VstF) (s : State) : exec (.vst f) s = execVst f s := rfl
@[simp] theorem exec_vstm (f : VsmF) (s : State) : exec (.vstm f) s = execVstm f s := rfl
@[simp] theorem exec_vgather (f : VmF) (s : State) : exec (.vgather f) s = execVgather f s := rfl
@[simp] theorem exec_vscatter (f : VsmF) (s : State) : exec (.vscatter f) s = execVscatter f s := rfl
@[simp] theorem exec_ld (f : LdF) (s : State) : exec (.ld f) s = execLd f s := rfl
@[simp] theorem exec_st (f : LsF) (s : State) : exec (.st f) s = execSt f s := rfl
@[simp] theorem exec_ldSc (f : LsF) (s : State) : exec (.ldSc f) s = execLdSc f s := rfl
@[simp] theorem exec_stSc (f : LsF) (s : State) : exec (.stSc f) s = execStSc f s := rfl
@[simp] theorem exec_vpref (f : VprefF) (s : State) : exec (.vpref f) s = execVpref f s := rfl
@[simp] theorem exec_amoadd (f : AmoF) (s : State) : exec (.amoadd f) s = execAmoadd f s := rfl
@[simp] theorem exec_amomin (f : AmoF) (s : State) : exec (.amomin f) s = execAmomin f s := rfl
@[simp] theorem exec_amomax (f : AmoF) (s : State) : exec (.amomax f) s = execAmomax f s := rfl
@[simp] theorem exec_amominu (f : AmoF) (s : State) : exec (.amominu f) s = execAmominu f s := rfl
@[simp] theorem exec_amomaxu (f : AmoF) (s : State) : exec (.amomaxu f) s = execAmomaxu f s := rfl
@[simp] theorem exec_amoand (f : AmoF) (s : State) : exec (.amoand f) s = execAmoand f s := rfl
@[simp] theorem exec_amoor (f : AmoF) (s : State) : exec (.amoor f) s = execAmoor f s := rfl
@[simp] theorem exec_amoxor (f : AmoF) (s : State) : exec (.amoxor f) s = execAmoxor f s := rfl
@[simp] theorem exec_amoswap (f : AmoF) (s : State) : exec (.amoswap f) s = execAmoswap f s := rfl
@[simp] theorem exec_amocas (f : AmoF) (s : State) : exec (.amocas f) s = execAmocas f s := rfl
@[simp] theorem exec_amoSc (f : AmoScF) (s : State) : exec (.amoSc f) s = execAmoSc f s := rfl
@[simp] theorem exec_lda (f : VtxF) (s : State) : exec (.lda f) s = execLda f s := rfl
@[simp] theorem exec_stl (f : VtxF) (s : State) : exec (.stl f) s = execStl f s := rfl
@[simp] theorem exec_vfence (f : VfenceF) (s : State) : exec (.vfence f) s = execVfence f s := rfl
@[simp] theorem exec_cflush (f : VtxF) (s : State) : exec (.cflush f) s = execCflush f s := rfl
@[simp] theorem exec_vamoadd (f : VvF) (s : State) : exec (.vamoadd f) s = execVamoadd f s := rfl
@[simp] theorem exec_vamomin (f : VvF) (s : State) : exec (.vamomin f) s = execVamomin f s := rfl
@[simp] theorem exec_vamomax (f : VvF) (s : State) : exec (.vamomax f) s = execVamomax f s := rfl
@[simp] theorem exec_vredst (f : VvF) (s : State) : exec (.vredst f) s = execVredst f s := rfl
@[simp] theorem exec_cldh (f : CmF) (s : State) : exec (.cldh f) s = execCldh f s := rfl
@[simp] theorem exec_csth (f : CmF) (s : State) : exec (.csth f) s = execCsth f s := rfl
@[simp] theorem exec_cnarrow (f : CnF) (s : State) : exec (.cnarrow f) s = execCnarrow f s := rfl
@[simp] theorem exec_cget (f : CgF) (s : State) : exec (.cget f) s = execCget f s := rfl
@[simp] theorem exec_cmov (f : CvF) (s : State) : exec (.cmov f) s = execCmov f s := rfl
@[simp] theorem exec_cclr (ha : HReg) (s : State) : exec (.cclr ha) s = execCclr ha s := rfl
@[simp] theorem exec_binit (f : BinitF) (s : State) : exec (.binit f) s = execBinit f s := rfl
@[simp] theorem exec_blink (f : BlinkF) (s : State) : exec (.blink f) s = execBlink f s := rfl
@[simp] theorem exec_barrive (f : BarF) (s : State) : exec (.barrive f) s = execBarrive f s := rfl
@[simp] theorem exec_bwaitp (f : BarF) (s : State) : exec (.bwaitp f) s = execBwaitp f s := rfl
@[simp] theorem exec_oclaim (os : OSlot) (s : State) : exec (.oclaim os) s = execOclaim os s := rfl
@[simp] theorem exec_orelease (os : OSlot) (s : State) : exec (.orelease os) s = execOrelease os s := rfl
@[simp] theorem exec_oload (f : OloadF) (s : State) : exec (.oload f) s = execOload f s := rfl
@[simp] theorem exec_wload (f : MwF) (s : State) : exec (.wload f) s = execWload f s := rfl
@[simp] theorem exec_mzero (f : MzF) (s : State) : exec (.mzero f) s = execMzero f s := rfl
@[simp] theorem exec_mmov (f : M1F) (s : State) : exec (.mmov f) s = execMmov f s := rfl
@[simp] theorem exec_mrd (f : MrwF) (s : State) : exec (.mrd f) s = execMrd f s := rfl
@[simp] theorem exec_mwr (f : MrwF) (s : State) : exec (.mwr f) s = execMwr f s := rfl
@[simp] theorem exec_mmaF64 (f : MaF) (s : State) : exec (.mmaF64 f) s = execMmaF64 f s := rfl
@[simp] theorem exec_mmaF32 (f : MaF) (s : State) : exec (.mmaF32 f) s = execMmaF32 f s := rfl
@[simp] theorem exec_mmaBf16 (f : MaF) (s : State) : exec (.mmaBf16 f) s = execMmaBf16 f s := rfl
@[simp] theorem exec_mmaF16 (f : MaF) (s : State) : exec (.mmaF16 f) s = execMmaF16 f s := rfl
@[simp] theorem exec_mmaI8 (f : MaF) (s : State) : exec (.mmaI8 f) s = execMmaI8 f s := rfl
@[simp] theorem exec_mmaI4 (f : MaF) (s : State) : exec (.mmaI4 f) s = execMmaI4 f s := rfl
@[simp] theorem exec_mmaL6 (f : MaF) (s : State) : exec (.mmaL6 f) s = execMmaL6 f s := rfl
@[simp] theorem exec_mmaS24 (f : MaF) (s : State) : exec (.mmaS24 f) s = execMmaS24 f s := rfl
@[simp] theorem exec_mmaS14 (f : MaF) (s : State) : exec (.mmaS14 f) s = execMmaS14 f s := rfl
@[simp] theorem exec_mlrset (f : MlrsetF) (s : State) : exec (.mlrset f) s = execMlrset f s := rfl
@[simp] theorem exec_mlrmul (f : M2F) (s : State) : exec (.mlrmul f) s = execMlrmul f s := rfl
@[simp] theorem exec_mlrdm (f : M2F) (s : State) : exec (.mlrdm f) s = execMlrdm f s := rfl
@[simp] theorem exec_mdmlr (f : M2F) (s : State) : exec (.mdmlr f) s = execMdmlr f s := rfl
@[simp] theorem exec_mlradd (f : M2F) (s : State) : exec (.mlradd f) s = execMlradd f s := rfl
@[simp] theorem exec_mrecomp (f : M1F) (s : State) : exec (.mrecomp f) s = execMrecomp f s := rfl
@[simp] theorem exec_mdense (f : M1F) (s : State) : exec (.mdense f) s = execMdense f s := rfl
@[simp] theorem exec_mrank (f : MrankF) (s : State) : exec (.mrank f) s = execMrank f s := rfl
@[simp] theorem exec_mbflyC64 (f : MbF) (s : State) : exec (.mbflyC64 f) s = execMbflyC64 f s := rfl
@[simp] theorem exec_mbflyC128 (f : MbF) (s : State) : exec (.mbflyC128 f) s = execMbflyC128 f s := rfl
@[simp] theorem exec_mbrev (f : MbrevF) (s : State) : exec (.mbrev f) s = execMbrev f s := rfl
@[simp] theorem exec_mtwmulC64 (f : MbF) (s : State) : exec (.mtwmulC64 f) s = execMtwmulC64 f s := rfl
@[simp] theorem exec_mtwmulC128 (f : MbF) (s : State) : exec (.mtwmulC128 f) s = execMtwmulC128 f s := rfl
@[simp] theorem exec_cjob (f : CjF) (s : State) : exec (.cjob f) s = execCjob f s := rfl
@[simp] theorem exec_cjobv (f : CjvF) (s : State) : exec (.cjobv f) s = execCjobv f s := rfl
@[simp] theorem exec_cwpe (f : CjF) (s : State) : exec (.cwpe f) s = execCwpe f s := rfl
@[simp] theorem exec_cquery (f : CqF) (s : State) : exec (.cquery f) s = execCquery f s := rfl
@[simp] theorem exec_ccancel (xa : XReg) (s : State) : exec (.ccancel xa) s = execCcancel xa s := rfl
@[simp] theorem exec_csignal (f : CsF) (s : State) : exec (.csignal f) s = execCsignal f s := rfl
@[simp] theorem exec_cfence (s : State) : exec (.cfence) s = execCfence s := rfl
@[simp] theorem exec_xexpS24 (f : XexpF) (s : State) : exec (.xexpS24 f) s = execXexpS24 f s := rfl
@[simp] theorem exec_xexpS14 (f : XexpF) (s : State) : exec (.xexpS14 f) s = execXexpS14 f s := rfl
@[simp] theorem exec_xunpkL6 (f : XuF) (s : State) : exec (.xunpkL6 f) s = execXunpkL6 f s := rfl
@[simp] theorem exec_xunpkI4 (f : XuF) (s : State) : exec (.xunpkI4 f) s = execXunpkI4 f s := rfl
@[simp] theorem exec_xpackL6 (f : XuF) (s : State) : exec (.xpackL6 f) s = execXpackL6 f s := rfl
@[simp] theorem exec_xpackI4 (f : XuF) (s : State) : exec (.xpackI4 f) s = execXpackI4 f s := rfl
@[simp] theorem exec_xtr (f : XtrF) (s : State) : exec (.xtr f) s = execXtr f s := rfl
@[simp] theorem exec_xcvt (f : XcvtF) (s : State) : exec (.xcvt f) s = execXcvt f s := rfl
@[simp] theorem exec_xscale (xs : XReg) (s : State) : exec (.xscale xs) s = execXscale xs s := rfl
@[simp] theorem exec_xscalei (imm : BitVec 11) (s : State) : exec (.xscalei imm) s = execXscalei imm s := rfl
@[simp] theorem exec_fmtShadowExpiry (n : Nat) (s : State) : exec (.fmtShadowExpiry n) s = execFmtShadowExpiry n s := rfl
@[simp] theorem exec_superstepRelease (lid : Nat) (s : State) : exec (.superstepRelease lid) s = execSuperstepRelease lid s := rfl
@[simp] theorem exec_taskEnd (n : Nat) (s : State) : exec (.taskEnd n) s = execTaskEnd n s := rfl
@[simp] theorem exec_tretResume (n : Nat) (s : State) : exec (.tretResume n) s = execTretResume n s := rfl
@[simp] theorem exec_repeatIssue (n : Nat) (s : State) : exec (.repeatIssue n) s = execRepeatIssue n s := rfl
@[simp] theorem exec_segmentMark (n : Nat) (s : State) : exec (.segmentMark n) s = execSegmentMark n s := rfl
@[simp] theorem exec_overlaySegmentLanded (n : Nat) (s : State) : exec (.overlaySegmentLanded n) s = execOverlaySegmentLanded n s := rfl
@[simp] theorem exec_scWheelIssue (n : Nat) (s : State) : exec (.scWheelIssue n) s = execScWheelIssue n s := rfl
@[simp] theorem exec_barrierAnswer (n : Nat) (s : State) : exec (.barrierAnswer n) s = execBarrierAnswer n s := rfl
@[simp] theorem exec_barrierArrivalReceived (k : Nat) (s : State) : exec (.barrierArrivalReceived k) s = execBarrierArrivalReceived k s := rfl
@[simp] theorem exec_barrierFlipReceived (k : Nat) (s : State) : exec (.barrierFlipReceived k) s = execBarrierFlipReceived k s := rfl
@[simp] theorem exec_wloadBlockArrival (n : Nat) (os : OSlot) (s : State) : exec (.wloadBlockArrival n os) s = execWloadBlockArrival n os s := rfl
@[simp] theorem exec_wloadFillExpiry (n : Nat) (os : OSlot) (s : State) : exec (.wloadFillExpiry n os) s = execWloadFillExpiry n os s := rfl
@[simp] theorem exec_engineOpStart (n : Nat) (s : State) : exec (.engineOpStart n) s = execEngineOpStart n s := rfl
@[simp] theorem exec_portBlock (n : Nat) (s : State) : exec (.portBlock n) s = execPortBlock n s := rfl
@[simp] theorem exec_engineRetire (n : Nat) (s : State) : exec (.engineRetire n) s = execEngineRetire n s := rfl
@[simp] theorem exec_jobStart (j : Nat) (s : State) : exec (.jobStart j) s = execJobStart j s := rfl
@[simp] theorem exec_copyRow (j : Nat) (s : State) : exec (.copyRow j) s = execCopyRow j s := rfl
@[simp] theorem exec_jobComplete (j : Nat) (s : State) : exec (.jobComplete j) s = execJobComplete j s := rfl
@[simp] theorem exec_wpeBuildStart (j : Nat) (s : State) : exec (.wpeBuildStart j) s = execWpeBuildStart j s := rfl
@[simp] theorem exec_wpePulseIteration (j : Nat) (ok : BitVec 5) (s : State) : exec (.wpePulseIteration j ok) s = execWpePulseIteration j ok s := rfl
@[simp] theorem exec_wpeSlotRelease (bank : Nat) (slot : Nat) (s : State) : exec (.wpeSlotRelease bank slot) s = execWpeSlotRelease bank slot s := rfl
@[simp] theorem exec_xscaleExecute (n : Nat) (s : State) : exec (.xscaleExecute n) s = execXscaleExecute n s := rfl
@[simp] theorem exec_resultWriteback (n : Nat) (s : State) : exec (.resultWriteback n) s = execResultWriteback n s := rfl
@[simp] theorem exec_landingCountExpiry (n : Nat) (s : State) : exec (.landingCountExpiry n) s = execLandingCountExpiry n s := rfl
@[simp] theorem exec_landingDataArrival (n : Nat) (k : Nat) (verdict : Bool) (s : State) : exec (.landingDataArrival n k verdict) s = execLandingDataArrival n k verdict s := rfl
@[simp] theorem exec_storeAck (n : Nat) (id : Nat) (s : State) : exec (.storeAck n id) s = execStoreAck n id s := rfl
@[simp] theorem exec_homeAtomicExecute (n : Nat) (id : Nat) (s : State) : exec (.homeAtomicExecute n id) s = execHomeAtomicExecute n id s := rfl
@[simp] theorem exec_stampedMessageDelivery (k : Nat) (s : State) : exec (.stampedMessageDelivery k) s = execStampedMessageDelivery k s := rfl
@[simp] theorem exec_directoryInvalidate (clu : Nat) (line : Nat) (s : State) : exec (.directoryInvalidate clu line) s = execDirectoryInvalidate clu line s := rfl
@[simp] theorem exec_memoryFaultFound (site : FaultSite) (cond : MemCond) (s : State) : exec (.memoryFaultFound site cond) s = execMemoryFaultFound site cond s := rfl
@[simp] theorem exec_trapEntry (n : Nat) (s : State) : exec (.trapEntry n) s = execTrapEntry n s := rfl
@[simp] theorem exec_preempt (n : Nat) (s : State) : exec (.preempt n) s = execPreempt n s := rfl
@[simp] theorem exec_saveComplete (n : Nat) (s : State) : exec (.saveComplete n) s = execSaveComplete n s := rfl
@[simp] theorem exec_taskRestore (uid : Nat) (n : Nat) (s : State) : exec (.taskRestore uid n) s = execTaskRestore uid n s := rfl
@[simp] theorem exec_scheduleReadyTask (die : Nat) (s : State) : exec (.scheduleReadyTask die) s = execScheduleReadyTask die s := rfl
@[simp] theorem exec_queueSignal (q : Nat) (s : State) : exec (.queueSignal q) s = execQueueSignal q s := rfl
@[simp] theorem exec_queueRemap (die : Nat) (s : State) : exec (.queueRemap die) s = execQueueRemap die s := rfl
@[simp] theorem exec_queueIdleTimeout (q : Nat) (s : State) : exec (.queueIdleTimeout q) s = execQueueIdleTimeout q s := rfl
@[simp] theorem exec_queueRestart (q : Nat) (s : State) : exec (.queueRestart q) s = execQueueRestart q s := rfl
@[simp] theorem exec_packetDispatch (die : Nat) (s : State) : exec (.packetDispatch die) s = execPacketDispatch die s := rfl
@[simp] theorem exec_launch (pid : Nat) (s : State) : exec (.launch pid) s = execLaunch pid s := rfl
@[simp] theorem exec_copy (pid : Nat) (s : State) : exec (.copy pid) s = execCopy pid s := rfl
@[simp] theorem exec_barrier (pid : Nat) (s : State) : exec (.barrier pid) s = execBarrier pid s := rfl
@[simp] theorem exec_node (pid : Nat) (s : State) : exec (.node pid) s = execNode pid s := rfl
@[simp] theorem exec_selftest (pid : Nat) (s : State) : exec (.selftest pid) s = execSelftest pid s := rfl
@[simp] theorem exec_fencePacket (pid : Nat) (s : State) : exec (.fencePacket pid) s = execFencePacket pid s := rfl
@[simp] theorem exec_packetComplete (pid : Nat) (s : State) : exec (.packetComplete pid) s = execPacketComplete pid s := rfl
@[simp] theorem exec_indexClaim (die : Nat) (pid : Nat) (s : State) : exec (.indexClaim die pid) s = execIndexClaim die pid s := rfl
@[simp] theorem exec_gangStart (pid : Nat) (level : Nat) (group : Nat) (s : State) : exec (.gangStart pid level group) s = execGangStart pid level group s := rfl
@[simp] theorem exec_indexReturnTimeout (die : Nat) (pid : Nat) (s : State) : exec (.indexReturnTimeout die pid) s = execIndexReturnTimeout die pid s := rfl
@[simp] theorem exec_launchComplete (pid : Nat) (s : State) : exec (.launchComplete pid) s = execLaunchComplete pid s := rfl
@[simp] theorem exec_selftestComplete (n : Nat) (fail : BitVec 9) (s : State) : exec (.selftestComplete n fail) s = execSelftestComplete n fail s := rfl
@[simp] theorem exec_waySurrender (clu : Nat) (s : State) : exec (.waySurrender clu) s = execWaySurrender clu s := rfl
@[simp] theorem exec_wayReturn (clu : Nat) (s : State) : exec (.wayReturn clu) s = execWayReturn clu s := rfl
@[simp] theorem exec_waypWrite (clu : Nat) (v : DWord) (s : State) : exec (.waypWrite clu v) s = execWaypWrite clu v s := rfl
@[simp] theorem exec_wrgnWrite (die : Nat) (r : Nat) (hi : Bool) (v : DWord) (s : State) : exec (.wrgnWrite die r hi v) s = execWrgnWrite die r hi v s := rfl
@[simp] theorem exec_regionSealComplete (die : Nat) (r : Nat) (s : State) : exec (.regionSealComplete die r) s = execRegionSealComplete die r s := rfl
@[simp] theorem exec_qdbaseWrite (die : Nat) (v : DWord) (s : State) : exec (.qdbaseWrite die v) s = execQdbaseWrite die v s := rfl
@[simp] theorem exec_qsigbaseWrite (die : Nat) (v : DWord) (s : State) : exec (.qsigbaseWrite die v) s = execQsigbaseWrite die v s := rfl
@[simp] theorem exec_fabidWrite (v : DWord) (s : State) : exec (.fabidWrite v) s = execFabidWrite v s := rfl
@[simp] theorem exec_fportEnWrite (die : Nat) (p : Nat) (v : DWord) (s : State) : exec (.fportEnWrite die p v) s = execFportEnWrite die p v s := rfl
@[simp] theorem exec_fabricLinkUp (die : Nat) (p : Nat) (peer : BitVec 10) (comp : Bool) (s : State) : exec (.fabricLinkUp die p peer comp) s = execFabricLinkUp die p peer comp s := rfl
@[simp] theorem exec_fabricTagFailure (die : Nat) (p : Nat) (s : State) : exec (.fabricTagFailure die p) s = execFabricTagFailure die p s := rfl
@[simp] theorem exec_streamRekey (die : Nat) (p : Nat) (s : State) : exec (.streamRekey die p) s = execStreamRekey die p s := rfl
@[simp] theorem exec_pcapWrite (v : DWord) (s : State) : exec (.pcapWrite v) s = execPcapWrite v s := rfl
@[simp] theorem exec_pcapWindow (pwr : BitVec 16) (amps : BitVec 16) (s : State) : exec (.pcapWindow pwr amps) s = execPcapWindow pwr amps s := rfl
@[simp] theorem exec_vcoreOvercurrent (amps : Nat) (s : State) : exec (.vcoreOvercurrent amps) s = execVcoreOvercurrent amps s := rfl
@[simp] theorem exec_mcErrorRecord (die : Nat) (bank : Nat) (e : McErr) (s : State) : exec (.mcErrorRecord die bank e) s = execMcErrorRecord die bank e s := rfl
@[simp] theorem exec_threshWindowEnd (die : Nat) (bank : Nat) (s : State) : exec (.threshWindowEnd die bank) s = execThreshWindowEnd die bank s := rfl
@[simp] theorem exec_mcStatusClear (die : Nat) (bank : Nat) (v : DWord) (s : State) : exec (.mcStatusClear die bank v) s = execMcStatusClear die bank v s := rfl
@[simp] theorem exec_datapathCheckFail (n : Nat) (slot : Slot) (synd : DWord) (s : State) : exec (.datapathCheckFail n slot synd) s = execDatapathCheckFail n slot synd s := rfl
@[simp] theorem exec_coreFence (n : Nat) (s : State) : exec (.coreFence n) s = execCoreFence n s := rfl
@[simp] theorem exec_coreReturnToService (n : Nat) (s : State) : exec (.coreReturnToService n) s = execCoreReturnToService n s := rfl
@[simp] theorem exec_lockstepMismatch (die : Nat) (pcs : DWord) (s : State) : exec (.lockstepMismatch die pcs) s = execLockstepMismatch die pcs s := rfl
@[simp] theorem exec_lockstepReplayComplete (die : Nat) (s : State) : exec (.lockstepReplayComplete die) s = execLockstepReplayComplete die s := rfl
@[simp] theorem exec_dieLost (die : Nat) (s : State) : exec (.dieLost die) s = execDieLost die s := rfl
@[simp] theorem exec_packageLost (pkg : Nat) (s : State) : exec (.packageLost pkg) s = execPackageLost pkg s := rfl
@[simp] theorem exec_ownerEntryEffect (k : Nat) (s : State) : exec (.ownerEntryEffect k) s = execOwnerEntryEffect k s := rfl
@[simp] theorem exec_hostBarAccess (a : BarAccess) (s : State) : exec (.hostBarAccess a) s = execHostBarAccess a s := rfl
@[simp] theorem exec_controlRegisterWrite (die : Nat) (off : Nat) (v : DWord) (s : State) : exec (.controlRegisterWrite die off v) s = execControlRegisterWrite die off v s := rfl
@[simp] theorem exec_getVersion (s : State) : exec (.getVersion) s = execGetVersion s := rfl
@[simp] theorem exec_getCapabilities (s : State) : exec (.getCapabilities) s = execGetCapabilities s := rfl
@[simp] theorem exec_negotiateAlgorithms (s : State) : exec (.negotiateAlgorithms) s = execNegotiateAlgorithms s := rfl
@[simp] theorem exec_getDigests (s : State) : exec (.getDigests) s = execGetDigests s := rfl
@[simp] theorem exec_getCertificate (s : State) : exec (.getCertificate) s = execGetCertificate s := rfl
@[simp] theorem exec_challenge (nonce : BitVec 256) (s : State) : exec (.challenge nonce) s = execChallenge nonce s := rfl
@[simp] theorem exec_getMeasurements (index : Nat) (s : State) : exec (.getMeasurements index) s = execGetMeasurements index s := rfl
@[simp] theorem exec_keyExchange (s : State) : exec (.keyExchange) s = execKeyExchange s := rfl
@[simp] theorem exec_finish (s : State) : exec (.finish) s = execFinish s := rfl
@[simp] theorem exec_keyUpdate (s : State) : exec (.keyUpdate) s = execKeyUpdate s := rfl
@[simp] theorem exec_endSession (s : State) : exec (.endSession) s = execEndSession s := rfl
@[simp] theorem exec_ideKm (stream : IdeStream) (owner : BitVec 16) (s : State) : exec (.ideKm stream owner) s = execIdeKm stream owner s := rfl
@[simp] theorem exec_create (s : State) : exec (.create) s = execCreate s := rfl
@[simp] theorem exec_assign (ctx : BitVec 16) (what : List Resource) (s : State) : exec (.assign ctx what) s = execAssign ctx what s := rfl
@[simp] theorem exec_saveArea (ctx : BitVec 16) (cap : Cap) (spadlen : Nat) (s : State) : exec (.saveArea ctx cap spadlen) s = execSaveArea ctx cap spadlen s := rfl
@[simp] theorem exec_report (ctx : BitVec 16) (nonce : BitVec 256) (s : State) : exec (.report ctx nonce) s = execReport ctx nonce s := rfl
@[simp] theorem exec_teardown (ctx : BitVec 16) (s : State) : exec (.teardown ctx) s = execTeardown ctx s := rfl
@[simp] theorem exec_resume (ctx : BitVec 16) (s : State) : exec (.resume ctx) s = execResume ctx s := rfl
@[simp] theorem exec_mctpControl (bus : MgmtBus) (s : State) : exec (.mctpControl bus) s = execMctpControl bus s := rfl
@[simp] theorem exec_pldmMonitoring (bus : MgmtBus) (s : State) : exec (.pldmMonitoring bus) s = execPldmMonitoring bus s := rfl
@[simp] theorem exec_imageTransfer (bus : MgmtBus) (image : Image) (s : State) : exec (.imageTransfer bus image) s = execImageTransfer bus image s := rfl
@[simp] theorem exec_capRead (bus : MgmtBus) (s : State) : exec (.capRead bus) s = execCapRead bus s := rfl
@[simp] theorem exec_capWrite (bus : MgmtBus) (v : BitVec 16) (s : State) : exec (.capWrite bus v) s = execCapWrite bus v s := rfl
@[simp] theorem exec_fabricKeyExchange (x : PeerExchange) (s : State) : exec (.fabricKeyExchange x) s = execFabricKeyExchange x s := rfl
@[simp] theorem exec_linkReset (s : State) : exec (.linkReset) s = execLinkReset s := rfl
@[simp] theorem exec_warmReset (s : State) : exec (.warmReset) s = execWarmReset s := rfl
@[simp] theorem exec_coldReset (s : State) : exec (.coldReset) s = execColdReset s := rfl
@[simp] theorem exec_hostLinkUp (s : State) : exec (.hostLinkUp) s = execHostLinkUp s := rfl
@[simp] theorem exec_powerLoss (writing : Bool) (s : State) : exec (.powerLoss writing) s = execPowerLoss writing s := rfl
@[simp] theorem exec_louverResourceDone (die : Nat) (s : State) : exec (.louverResourceDone die) s = execLouverResourceDone die s := rfl
@[simp] theorem exec_regionRehashComplete (die : Nat) (s : State) : exec (.regionRehashComplete die) s = execRegionRehashComplete die s := rfl

/-! ### `execOp` -/

@[simp] theorem execOp_beq (f : BrF) (s : State) : execOp (.beq f) s = execBeq f s := rfl
@[simp] theorem execOp_bne (f : BrF) (s : State) : execOp (.bne f) s = execBne f s := rfl
@[simp] theorem execOp_blt (f : BrF) (s : State) : execOp (.blt f) s = execBlt f s := rfl
@[simp] theorem execOp_bge (f : BrF) (s : State) : execOp (.bge f) s = execBge f s := rfl
@[simp] theorem execOp_bltu (f : BrF) (s : State) : execOp (.bltu f) s = execBltu f s := rfl
@[simp] theorem execOp_bgeu (f : BrF) (s : State) : execOp (.bgeu f) s = execBgeu f s := rfl
@[simp] theorem execOp_bpt (f : BpF) (s : State) : execOp (.bpt f) s = execBpt f s := rfl
@[simp] theorem execOp_bpf (f : BpF) (s : State) : execOp (.bpf f) s = execBpf f s := rfl
@[simp] theorem execOp_jmp (off : BitVec 21) (s : State) : execOp (.jmp off) s = execJmp off s := rfl
@[simp] theorem execOp_call (f : BjF) (s : State) : execOp (.call f) s = execCall f s := rfl
@[simp] theorem execOp_ret (rs1 : XReg) (s : State) : execOp (.ret rs1) s = execRet rs1 s := rfl
@[simp] theorem execOp_loop (f : BlF) (s : State) : execOp (.loop f) s = execLoop f s := rfl
@[simp] theorem execOp_loopW (f : BlF) (s : State) : execOp (.loopW f) s = execLoopW f s := rfl
@[simp] theorem execOp_loopSp (f : BlF) (s : State) : execOp (.loopSp f) s = execLoopSp f s := rfl
@[simp] theorem execOp_lend (rs1 : XReg) (s : State) : execOp (.lend rs1) s = execLend rs1 s := rfl
@[simp] theorem execOp_lbrk (rs1 : XReg) (s : State) : execOp (.lbrk rs1) s = execLbrk rs1 s := rfl
@[simp] theorem execOp_wait (f : BwF) (s : State) : execOp (.wait f) s = execWait f s := rfl
@[simp] theorem execOp_setfmt (acc : Acc) (rm : Rm) (s : State) : execOp (.setfmt acc rm) s = execSetfmt acc rm s := rfl
@[simp] theorem execOp_litset (rs1 : XReg) (s : State) : execOp (.litset rs1) s = execLitset rs1 s := rfl
@[simp] theorem execOp_sstep (s : State) : execOp (.sstep) s = execSstep s := rfl
@[simp] theorem execOp_iinv (rs1 : XReg) (s : State) : execOp (.iinv rs1) s = execIinv rs1 s := rfl
@[simp] theorem execOp_yield (s : State) : execOp (.yield) s = execYield s := rfl
@[simp] theorem execOp_halt (s : State) : execOp (.halt) s = execHalt s := rfl
@[simp] theorem execOp_trap (code : BitVec 8) (s : State) : execOp (.trap code) s = execTrap code s := rfl
@[simp] theorem execOp_tret (s : State) : execOp (.tret) s = execTret s := rfl
@[simp] theorem execOp_lui (f : UF) (s : State) : execOp (.lui f) s = execLui f s := rfl
@[simp] theorem execOp_auipc (f : UF) (s : State) : execOp (.auipc f) s = execAuipc f s := rfl
@[simp] theorem execOp_addi (f : IF) (s : State) : execOp (.addi f) s = execAddi f s := rfl
@[simp] theorem execOp_slti (f : IF) (s : State) : execOp (.slti f) s = execSlti f s := rfl
@[simp] theorem execOp_sltiu (f : IF) (s : State) : execOp (.sltiu f) s = execSltiu f s := rfl
@[simp] theorem execOp_xori (f : IF) (s : State) : execOp (.xori f) s = execXori f s := rfl
@[simp] theorem execOp_ori (f : IF) (s : State) : execOp (.ori f) s = execOri f s := rfl
@[simp] theorem execOp_andi (f : IF) (s : State) : execOp (.andi f) s = execAndi f s := rfl
@[simp] theorem execOp_slli (f : ShF) (s : State) : execOp (.slli f) s = execSlli f s := rfl
@[simp] theorem execOp_srli (f : ShF) (s : State) : execOp (.srli f) s = execSrli f s := rfl
@[simp] theorem execOp_srai (f : ShF) (s : State) : execOp (.srai f) s = execSrai f s := rfl
@[simp] theorem execOp_add (f : RF) (s : State) : execOp (.add f) s = execAdd f s := rfl
@[simp] theorem execOp_sub (f : RF) (s : State) : execOp (.sub f) s = execSub f s := rfl
@[simp] theorem execOp_sll (f : RF) (s : State) : execOp (.sll f) s = execSll f s := rfl
@[simp] theorem execOp_slt (f : RF) (s : State) : execOp (.slt f) s = execSlt f s := rfl
@[simp] theorem execOp_sltu (f : RF) (s : State) : execOp (.sltu f) s = execSltu f s := rfl
@[simp] theorem execOp_xor (f : RF) (s : State) : execOp (.xor f) s = execXor f s := rfl
@[simp] theorem execOp_srl (f : RF) (s : State) : execOp (.srl f) s = execSrl f s := rfl
@[simp] theorem execOp_sra (f : RF) (s : State) : execOp (.sra f) s = execSra f s := rfl
@[simp] theorem execOp_or (f : RF) (s : State) : execOp (.or f) s = execOr f s := rfl
@[simp] theorem execOp_and (f : RF) (s : State) : execOp (.and f) s = execAnd f s := rfl
@[simp] theorem execOp_addiw (f : IF) (s : State) : execOp (.addiw f) s = execAddiw f s := rfl
@[simp] theorem execOp_slliw (f : ShwF) (s : State) : execOp (.slliw f) s = execSlliw f s := rfl
@[simp] theorem execOp_srliw (f : ShwF) (s : State) : execOp (.srliw f) s = execSrliw f s := rfl
@[simp] theorem execOp_sraiw (f : ShwF) (s : State) : execOp (.sraiw f) s = execSraiw f s := rfl
@[simp] theorem execOp_addw (f : RF) (s : State) : execOp (.addw f) s = execAddw f s := rfl
@[simp] theorem execOp_subw (f : RF) (s : State) : execOp (.subw f) s = execSubw f s := rfl
@[simp] theorem execOp_sllw (f : RF) (s : State) : execOp (.sllw f) s = execSllw f s := rfl
@[simp] theorem execOp_srlw (f : RF) (s : State) : execOp (.srlw f) s = execSrlw f s := rfl
@[simp] theorem execOp_sraw (f : RF) (s : State) : execOp (.sraw f) s = execSraw f s := rfl
@[simp] theorem execOp_lb (f : IF) (s : State) : execOp (.lb f) s = execLb f s := rfl
@[simp] theorem execOp_lh (f : IF) (s : State) : execOp (.lh f) s = execLh f s := rfl
@[simp] theorem execOp_lw (f : IF) (s : State) : execOp (.lw f) s = execLw f s := rfl
@[simp] theorem execOp_sld (f : IF) (s : State) : execOp (.sld f) s = execSld f s := rfl
@[simp] theorem execOp_lbu (f : IF) (s : State) : execOp (.lbu f) s = execLbu f s := rfl
@[simp] theorem execOp_lhu (f : IF) (s : State) : execOp (.lhu f) s = execLhu f s := rfl
@[simp] theorem execOp_lwu (f : IF) (s : State) : execOp (.lwu f) s = execLwu f s := rfl
@[simp] theorem execOp_sb (f : StF) (s : State) : execOp (.sb f) s = execSb f s := rfl
@[simp] theorem execOp_sh (f : StF) (s : State) : execOp (.sh f) s = execSh f s := rfl
@[simp] theorem execOp_sw (f : StF) (s : State) : execOp (.sw f) s = execSw f s := rfl
@[simp] theorem execOp_sd (f : StF) (s : State) : execOp (.sd f) s = execSd f s := rfl
@[simp] theorem execOp_fence (f : FenceF) (s : State) : execOp (.fence f) s = execFence f s := rfl
@[simp] theorem execOp_ecall (s : State) : execOp (.ecall) s = execEcall s := rfl
@[simp] theorem execOp_ebreak (s : State) : execOp (.ebreak) s = execEbreak s := rfl
@[simp] theorem execOp_mul (f : RF) (s : State) : execOp (.mul f) s = execMul f s := rfl
@[simp] theorem execOp_mulh (f : RF) (s : State) : execOp (.mulh f) s = execMulh f s := rfl
@[simp] theorem execOp_mulhsu (f : RF) (s : State) : execOp (.mulhsu f) s = execMulhsu f s := rfl
@[simp] theorem execOp_mulhu (f : RF) (s : State) : execOp (.mulhu f) s = execMulhu f s := rfl
@[simp] theorem execOp_div (f : RF) (s : State) : execOp (.div f) s = execDiv f s := rfl
@[simp] theorem execOp_divu (f : RF) (s : State) : execOp (.divu f) s = execDivu f s := rfl
@[simp] theorem execOp_rem (f : RF) (s : State) : execOp (.rem f) s = execRem f s := rfl
@[simp] theorem execOp_remu (f : RF) (s : State) : execOp (.remu f) s = execRemu f s := rfl
@[simp] theorem execOp_mulw (f : RF) (s : State) : execOp (.mulw f) s = execMulw f s := rfl
@[simp] theorem execOp_divw (f : RF) (s : State) : execOp (.divw f) s = execDivw f s := rfl
@[simp] theorem execOp_divuw (f : RF) (s : State) : execOp (.divuw f) s = execDivuw f s := rfl
@[simp] theorem execOp_remw (f : RF) (s : State) : execOp (.remw f) s = execRemw f s := rfl
@[simp] theorem execOp_remuw (f : RF) (s : State) : execOp (.remuw f) s = execRemuw f s := rfl
@[simp] theorem execOp_csrrw (f : CsrF) (s : State) : execOp (.csrrw f) s = execCsrrw f s := rfl
@[simp] theorem execOp_csrrs (f : CsrF) (s : State) : execOp (.csrrs f) s = execCsrrs f s := rfl
@[simp] theorem execOp_csrrc (f : CsrF) (s : State) : execOp (.csrrc f) s = execCsrrc f s := rfl
@[simp] theorem execOp_csrrwi (f : CsriF) (s : State) : execOp (.csrrwi f) s = execCsrrwi f s := rfl
@[simp] theorem execOp_csrrsi (f : CsriF) (s : State) : execOp (.csrrsi f) s = execCsrrsi f s := rfl
@[simp] theorem execOp_csrrci (f : CsriF) (s : State) : execOp (.csrrci f) s = execCsrrci f s := rfl
@[simp] theorem execOp_idle (slot : Slot) (s : State) : execOp (.idle slot) s = execIdle slot s := rfl
@[simp] theorem execOp_vadd (f : VrF) (s : State) : execOp (.vadd f) s = execVadd f s := rfl
@[simp] theorem execOp_vsub (f : VrF) (s : State) : execOp (.vsub f) s = execVsub f s := rfl
@[simp] theorem execOp_vmul (f : VrF) (s : State) : execOp (.vmul f) s = execVmul f s := rfl
@[simp] theorem execOp_vdiv (f : VrF) (s : State) : execOp (.vdiv f) s = execVdiv f s := rfl
@[simp] theorem execOp_vmin (f : VrF) (s : State) : execOp (.vmin f) s = execVmin f s := rfl
@[simp] theorem execOp_vmax (f : VrF) (s : State) : execOp (.vmax f) s = execVmax f s := rfl
@[simp] theorem execOp_vabs (f : VuF) (s : State) : execOp (.vabs f) s = execVabs f s := rfl
@[simp] theorem execOp_vneg (f : VuF) (s : State) : execOp (.vneg f) s = execVneg f s := rfl
@[simp] theorem execOp_vfma (f : VrF) (s : State) : execOp (.vfma f) s = execVfma f s := rfl
@[simp] theorem execOp_vfms (f : VrF) (s : State) : execOp (.vfms f) s = execVfms f s := rfl
@[simp] theorem execOp_vsqrt (f : VuF) (s : State) : execOp (.vsqrt f) s = execVsqrt f s := rfl
@[simp] theorem execOp_vrcp (f : VuF) (s : State) : execOp (.vrcp f) s = execVrcp f s := rfl
@[simp] theorem execOp_vrsqrt (f : VuF) (s : State) : execOp (.vrsqrt f) s = execVrsqrt f s := rfl
@[simp] theorem execOp_vexp2 (f : VuF) (s : State) : execOp (.vexp2 f) s = execVexp2 f s := rfl
@[simp] theorem execOp_vlog2 (f : VuF) (s : State) : execOp (.vlog2 f) s = execVlog2 f s := rfl
@[simp] theorem execOp_vand (f : VrF) (s : State) : execOp (.vand f) s = execVand f s := rfl
@[simp] theorem execOp_vor (f : VrF) (s : State) : execOp (.vor f) s = execVor f s := rfl
@[simp] theorem execOp_vxor (f : VrF) (s : State) : execOp (.vxor f) s = execVxor f s := rfl
@[simp] theorem execOp_vnot (f : VuF) (s : State) : execOp (.vnot f) s = execVnot f s := rfl
@[simp] theorem execOp_vshl (f : VrF) (s : State) : execOp (.vshl f) s = execVshl f s := rfl
@[simp] theorem execOp_vshr (f : VrF) (s : State) : execOp (.vshr f) s = execVshr f s := rfl
@[simp] theorem execOp_vsra (f : VrF) (s : State) : execOp (.vsra f) s = execVsra f s := rfl
@[simp] theorem execOp_vadds (f : VrF) (s : State) : execOp (.vadds f) s = execVadds f s := rfl
@[simp] theorem execOp_vsubs (f : VrF) (s : State) : execOp (.vsubs f) s = execVsubs f s := rfl
@[simp] theorem execOp_vmulh (f : VrF) (s : State) : execOp (.vmulh f) s = execVmulh f s := rfl
@[simp] theorem execOp_vbcast (f : VxF) (s : State) : execOp (.vbcast f) s = execVbcast f s := rfl
@[simp] theorem execOp_vmovx (f : VxF) (s : State) : execOp (.vmovx f) s = execVmovx f s := rfl
@[simp] theorem execOp_vmov (f : VuF) (s : State) : execOp (.vmov f) s = execVmov f s := rfl
@[simp] theorem execOp_viota (f : VdF) (s : State) : execOp (.viota f) s = execViota f s := rfl
@[simp] theorem execOp_vli (f : ViF) (s : State) : execOp (.vli f) s = execVli f s := rfl
@[simp] theorem execOp_vcmpEq (f : VcF) (s : State) : execOp (.vcmpEq f) s = execVcmpEq f s := rfl
@[simp] theorem execOp_vcmpNe (f : VcF) (s : State) : execOp (.vcmpNe f) s = execVcmpNe f s := rfl
@[simp] theorem execOp_vcmpLt (f : VcF) (s : State) : execOp (.vcmpLt f) s = execVcmpLt f s := rfl
@[simp] theorem execOp_vcmpLe (f : VcF) (s : State) : execOp (.vcmpLe f) s = execVcmpLe f s := rfl
@[simp] theorem execOp_vcmpUn (f : VcF) (s : State) : execOp (.vcmpUn f) s = execVcmpUn f s := rfl
@[simp] theorem execOp_vcmpLtu (f : VcF) (s : State) : execOp (.vcmpLtu f) s = execVcmpLtu f s := rfl
@[simp] theorem execOp_vcmpLeu (f : VcF) (s : State) : execOp (.vcmpLeu f) s = execVcmpLeu f s := rfl
@[simp] theorem execOp_vpand (f : VpF) (s : State) : execOp (.vpand f) s = execVpand f s := rfl
@[simp] theorem execOp_vpor (f : VpF) (s : State) : execOp (.vpor f) s = execVpor f s := rfl
@[simp] theorem execOp_vpxor (f : VpF) (s : State) : execOp (.vpxor f) s = execVpxor f s := rfl
@[simp] theorem execOp_vpnot (f : VpnF) (s : State) : execOp (.vpnot f) s = execVpnot f s := rfl
@[simp] theorem execOp_vpset (f : VpsF) (s : State) : execOp (.vpset f) s = execVpset f s := rfl
@[simp] theorem execOp_vpcnt (f : VpxF) (s : State) : execOp (.vpcnt f) s = execVpcnt f s := rfl
@[simp] theorem execOp_vpfirst (f : VpxF) (s : State) : execOp (.vpfirst f) s = execVpfirst f s := rfl
@[simp] theorem execOp_vsel (f : VrF) (s : State) : execOp (.vsel f) s = execVsel f s := rfl
@[simp] theorem execOp_vperm (f : VrF) (s : State) : execOp (.vperm f) s = execVperm f s := rfl
@[simp] theorem execOp_vslideup (f : VslF) (s : State) : execOp (.vslideup f) s = execVslideup f s := rfl
@[simp] theorem execOp_vslidedn (f : VslF) (s : State) : execOp (.vslidedn f) s = execVslidedn f s := rfl
@[simp] theorem execOp_vzip (f : VrF) (s : State) : execOp (.vzip f) s = execVzip f s := rfl
@[simp] theorem execOp_vunzip (f : VrF) (s : State) : execOp (.vunzip f) s = execVunzip f s := rfl
@[simp] theorem execOp_vcompress (f : VuF) (s : State) : execOp (.vcompress f) s = execVcompress f s := rfl
@[simp] theorem execOp_vexpand (f : VuF) (s : State) : execOp (.vexpand f) s = execVexpand f s := rfl
@[simp] theorem execOp_vredsum (f : VuF) (s : State) : execOp (.vredsum f) s = execVredsum f s := rfl
@[simp] theorem execOp_vredmax (f : VuF) (s : State) : execOp (.vredmax f) s = execVredmax f s := rfl
@[simp] theorem execOp_vredmin (f : VuF) (s : State) : execOp (.vredmin f) s = execVredmin f s := rfl
@[simp] theorem execOp_vscansum (f : VuF) (s : State) : execOp (.vscansum f) s = execVscansum f s := rfl
@[simp] theorem execOp_vscanmax (f : VuF) (s : State) : execOp (.vscanmax f) s = execVscanmax f s := rfl
@[simp] theorem execOp_vargmax (f : VuF) (s : State) : execOp (.vargmax f) s = execVargmax f s := rfl
@[simp] theorem execOp_vbitonic (f : VbtF) (s : State) : execOp (.vbitonic f) s = execVbitonic f s := rfl
@[simp] theorem execOp_vmulL6 (f : VlF) (s : State) : execOp (.vmulL6 f) s = execVmulL6 f s := rfl
@[simp] theorem execOp_vdotL6 (f : VlF) (s : State) : execOp (.vdotL6 f) s = execVdotL6 f s := rfl
@[simp] theorem execOp_vrand (f : VrF) (s : State) : execOp (.vrand f) s = execVrand f s := rfl
@[simp] theorem execOp_vld (f : VmF) (s : State) : execOp (.vld f) s = execVld f s := rfl
@[simp] theorem execOp_vst (f : VstF) (s : State) : execOp (.vst f) s = execVst f s := rfl
@[simp] theorem execOp_vstm (f : VsmF) (s : State) : execOp (.vstm f) s = execVstm f s := rfl
@[simp] theorem execOp_vgather (f : VmF) (s : State) : execOp (.vgather f) s = execVgather f s := rfl
@[simp] theorem execOp_vscatter (f : VsmF) (s : State) : execOp (.vscatter f) s = execVscatter f s := rfl
@[simp] theorem execOp_ld (f : LdF) (s : State) : execOp (.ld f) s = execLd f s := rfl
@[simp] theorem execOp_st (f : LsF) (s : State) : execOp (.st f) s = execSt f s := rfl
@[simp] theorem execOp_ldSc (f : LsF) (s : State) : execOp (.ldSc f) s = execLdSc f s := rfl
@[simp] theorem execOp_stSc (f : LsF) (s : State) : execOp (.stSc f) s = execStSc f s := rfl
@[simp] theorem execOp_vpref (f : VprefF) (s : State) : execOp (.vpref f) s = execVpref f s := rfl
@[simp] theorem execOp_amoadd (f : AmoF) (s : State) : execOp (.amoadd f) s = execAmoadd f s := rfl
@[simp] theorem execOp_amomin (f : AmoF) (s : State) : execOp (.amomin f) s = execAmomin f s := rfl
@[simp] theorem execOp_amomax (f : AmoF) (s : State) : execOp (.amomax f) s = execAmomax f s := rfl
@[simp] theorem execOp_amominu (f : AmoF) (s : State) : execOp (.amominu f) s = execAmominu f s := rfl
@[simp] theorem execOp_amomaxu (f : AmoF) (s : State) : execOp (.amomaxu f) s = execAmomaxu f s := rfl
@[simp] theorem execOp_amoand (f : AmoF) (s : State) : execOp (.amoand f) s = execAmoand f s := rfl
@[simp] theorem execOp_amoor (f : AmoF) (s : State) : execOp (.amoor f) s = execAmoor f s := rfl
@[simp] theorem execOp_amoxor (f : AmoF) (s : State) : execOp (.amoxor f) s = execAmoxor f s := rfl
@[simp] theorem execOp_amoswap (f : AmoF) (s : State) : execOp (.amoswap f) s = execAmoswap f s := rfl
@[simp] theorem execOp_amocas (f : AmoF) (s : State) : execOp (.amocas f) s = execAmocas f s := rfl
@[simp] theorem execOp_amoSc (f : AmoScF) (s : State) : execOp (.amoSc f) s = execAmoSc f s := rfl
@[simp] theorem execOp_lda (f : VtxF) (s : State) : execOp (.lda f) s = execLda f s := rfl
@[simp] theorem execOp_stl (f : VtxF) (s : State) : execOp (.stl f) s = execStl f s := rfl
@[simp] theorem execOp_vfence (f : VfenceF) (s : State) : execOp (.vfence f) s = execVfence f s := rfl
@[simp] theorem execOp_cflush (f : VtxF) (s : State) : execOp (.cflush f) s = execCflush f s := rfl
@[simp] theorem execOp_vamoadd (f : VvF) (s : State) : execOp (.vamoadd f) s = execVamoadd f s := rfl
@[simp] theorem execOp_vamomin (f : VvF) (s : State) : execOp (.vamomin f) s = execVamomin f s := rfl
@[simp] theorem execOp_vamomax (f : VvF) (s : State) : execOp (.vamomax f) s = execVamomax f s := rfl
@[simp] theorem execOp_vredst (f : VvF) (s : State) : execOp (.vredst f) s = execVredst f s := rfl
@[simp] theorem execOp_cldh (f : CmF) (s : State) : execOp (.cldh f) s = execCldh f s := rfl
@[simp] theorem execOp_csth (f : CmF) (s : State) : execOp (.csth f) s = execCsth f s := rfl
@[simp] theorem execOp_cnarrow (f : CnF) (s : State) : execOp (.cnarrow f) s = execCnarrow f s := rfl
@[simp] theorem execOp_cget (f : CgF) (s : State) : execOp (.cget f) s = execCget f s := rfl
@[simp] theorem execOp_cmov (f : CvF) (s : State) : execOp (.cmov f) s = execCmov f s := rfl
@[simp] theorem execOp_cclr (ha : HReg) (s : State) : execOp (.cclr ha) s = execCclr ha s := rfl
@[simp] theorem execOp_binit (f : BinitF) (s : State) : execOp (.binit f) s = execBinit f s := rfl
@[simp] theorem execOp_blink (f : BlinkF) (s : State) : execOp (.blink f) s = execBlink f s := rfl
@[simp] theorem execOp_barrive (f : BarF) (s : State) : execOp (.barrive f) s = execBarrive f s := rfl
@[simp] theorem execOp_bwaitp (f : BarF) (s : State) : execOp (.bwaitp f) s = execBwaitp f s := rfl
@[simp] theorem execOp_oclaim (os : OSlot) (s : State) : execOp (.oclaim os) s = execOclaim os s := rfl
@[simp] theorem execOp_orelease (os : OSlot) (s : State) : execOp (.orelease os) s = execOrelease os s := rfl
@[simp] theorem execOp_oload (f : OloadF) (s : State) : execOp (.oload f) s = execOload f s := rfl
@[simp] theorem execOp_wload (f : MwF) (s : State) : execOp (.wload f) s = execWload f s := rfl
@[simp] theorem execOp_mzero (f : MzF) (s : State) : execOp (.mzero f) s = execMzero f s := rfl
@[simp] theorem execOp_mmov (f : M1F) (s : State) : execOp (.mmov f) s = execMmov f s := rfl
@[simp] theorem execOp_mrd (f : MrwF) (s : State) : execOp (.mrd f) s = execMrd f s := rfl
@[simp] theorem execOp_mwr (f : MrwF) (s : State) : execOp (.mwr f) s = execMwr f s := rfl
@[simp] theorem execOp_mmaF64 (f : MaF) (s : State) : execOp (.mmaF64 f) s = execMmaF64 f s := rfl
@[simp] theorem execOp_mmaF32 (f : MaF) (s : State) : execOp (.mmaF32 f) s = execMmaF32 f s := rfl
@[simp] theorem execOp_mmaBf16 (f : MaF) (s : State) : execOp (.mmaBf16 f) s = execMmaBf16 f s := rfl
@[simp] theorem execOp_mmaF16 (f : MaF) (s : State) : execOp (.mmaF16 f) s = execMmaF16 f s := rfl
@[simp] theorem execOp_mmaI8 (f : MaF) (s : State) : execOp (.mmaI8 f) s = execMmaI8 f s := rfl
@[simp] theorem execOp_mmaI4 (f : MaF) (s : State) : execOp (.mmaI4 f) s = execMmaI4 f s := rfl
@[simp] theorem execOp_mmaL6 (f : MaF) (s : State) : execOp (.mmaL6 f) s = execMmaL6 f s := rfl
@[simp] theorem execOp_mmaS24 (f : MaF) (s : State) : execOp (.mmaS24 f) s = execMmaS24 f s := rfl
@[simp] theorem execOp_mmaS14 (f : MaF) (s : State) : execOp (.mmaS14 f) s = execMmaS14 f s := rfl
@[simp] theorem execOp_mlrset (f : MlrsetF) (s : State) : execOp (.mlrset f) s = execMlrset f s := rfl
@[simp] theorem execOp_mlrmul (f : M2F) (s : State) : execOp (.mlrmul f) s = execMlrmul f s := rfl
@[simp] theorem execOp_mlrdm (f : M2F) (s : State) : execOp (.mlrdm f) s = execMlrdm f s := rfl
@[simp] theorem execOp_mdmlr (f : M2F) (s : State) : execOp (.mdmlr f) s = execMdmlr f s := rfl
@[simp] theorem execOp_mlradd (f : M2F) (s : State) : execOp (.mlradd f) s = execMlradd f s := rfl
@[simp] theorem execOp_mrecomp (f : M1F) (s : State) : execOp (.mrecomp f) s = execMrecomp f s := rfl
@[simp] theorem execOp_mdense (f : M1F) (s : State) : execOp (.mdense f) s = execMdense f s := rfl
@[simp] theorem execOp_mrank (f : MrankF) (s : State) : execOp (.mrank f) s = execMrank f s := rfl
@[simp] theorem execOp_mbflyC64 (f : MbF) (s : State) : execOp (.mbflyC64 f) s = execMbflyC64 f s := rfl
@[simp] theorem execOp_mbflyC128 (f : MbF) (s : State) : execOp (.mbflyC128 f) s = execMbflyC128 f s := rfl
@[simp] theorem execOp_mbrev (f : MbrevF) (s : State) : execOp (.mbrev f) s = execMbrev f s := rfl
@[simp] theorem execOp_mtwmulC64 (f : MbF) (s : State) : execOp (.mtwmulC64 f) s = execMtwmulC64 f s := rfl
@[simp] theorem execOp_mtwmulC128 (f : MbF) (s : State) : execOp (.mtwmulC128 f) s = execMtwmulC128 f s := rfl
@[simp] theorem execOp_cjob (f : CjF) (s : State) : execOp (.cjob f) s = execCjob f s := rfl
@[simp] theorem execOp_cjobv (f : CjvF) (s : State) : execOp (.cjobv f) s = execCjobv f s := rfl
@[simp] theorem execOp_cwpe (f : CjF) (s : State) : execOp (.cwpe f) s = execCwpe f s := rfl
@[simp] theorem execOp_cquery (f : CqF) (s : State) : execOp (.cquery f) s = execCquery f s := rfl
@[simp] theorem execOp_ccancel (xa : XReg) (s : State) : execOp (.ccancel xa) s = execCcancel xa s := rfl
@[simp] theorem execOp_csignal (f : CsF) (s : State) : execOp (.csignal f) s = execCsignal f s := rfl
@[simp] theorem execOp_cfence (s : State) : execOp (.cfence) s = execCfence s := rfl
@[simp] theorem execOp_xexpS24 (f : XexpF) (s : State) : execOp (.xexpS24 f) s = execXexpS24 f s := rfl
@[simp] theorem execOp_xexpS14 (f : XexpF) (s : State) : execOp (.xexpS14 f) s = execXexpS14 f s := rfl
@[simp] theorem execOp_xunpkL6 (f : XuF) (s : State) : execOp (.xunpkL6 f) s = execXunpkL6 f s := rfl
@[simp] theorem execOp_xunpkI4 (f : XuF) (s : State) : execOp (.xunpkI4 f) s = execXunpkI4 f s := rfl
@[simp] theorem execOp_xpackL6 (f : XuF) (s : State) : execOp (.xpackL6 f) s = execXpackL6 f s := rfl
@[simp] theorem execOp_xpackI4 (f : XuF) (s : State) : execOp (.xpackI4 f) s = execXpackI4 f s := rfl
@[simp] theorem execOp_xtr (f : XtrF) (s : State) : execOp (.xtr f) s = execXtr f s := rfl
@[simp] theorem execOp_xcvt (f : XcvtF) (s : State) : execOp (.xcvt f) s = execXcvt f s := rfl
@[simp] theorem execOp_xscale (xs : XReg) (s : State) : execOp (.xscale xs) s = execXscale xs s := rfl
@[simp] theorem execOp_xscalei (imm : BitVec 11) (s : State) : execOp (.xscalei imm) s = execXscalei imm s := rfl
@[simp] theorem execOp_fmtShadowExpiry (n : Nat) (s : State) : execOp (.fmtShadowExpiry n) s = .next s := rfl
@[simp] theorem execOp_superstepRelease (lid : Nat) (s : State) : execOp (.superstepRelease lid) s = .next s := rfl
@[simp] theorem execOp_taskEnd (n : Nat) (s : State) : execOp (.taskEnd n) s = .next s := rfl
@[simp] theorem execOp_tretResume (n : Nat) (s : State) : execOp (.tretResume n) s = .next s := rfl
@[simp] theorem execOp_repeatIssue (n : Nat) (s : State) : execOp (.repeatIssue n) s = .next s := rfl
@[simp] theorem execOp_segmentMark (n : Nat) (s : State) : execOp (.segmentMark n) s = .next s := rfl
@[simp] theorem execOp_overlaySegmentLanded (n : Nat) (s : State) : execOp (.overlaySegmentLanded n) s = .next s := rfl
@[simp] theorem execOp_scWheelIssue (n : Nat) (s : State) : execOp (.scWheelIssue n) s = .next s := rfl
@[simp] theorem execOp_barrierAnswer (n : Nat) (s : State) : execOp (.barrierAnswer n) s = .next s := rfl
@[simp] theorem execOp_barrierArrivalReceived (k : Nat) (s : State) : execOp (.barrierArrivalReceived k) s = .next s := rfl
@[simp] theorem execOp_barrierFlipReceived (k : Nat) (s : State) : execOp (.barrierFlipReceived k) s = .next s := rfl
@[simp] theorem execOp_wloadBlockArrival (n : Nat) (os : OSlot) (s : State) : execOp (.wloadBlockArrival n os) s = .next s := rfl
@[simp] theorem execOp_wloadFillExpiry (n : Nat) (os : OSlot) (s : State) : execOp (.wloadFillExpiry n os) s = .next s := rfl
@[simp] theorem execOp_engineOpStart (n : Nat) (s : State) : execOp (.engineOpStart n) s = .next s := rfl
@[simp] theorem execOp_portBlock (n : Nat) (s : State) : execOp (.portBlock n) s = .next s := rfl
@[simp] theorem execOp_engineRetire (n : Nat) (s : State) : execOp (.engineRetire n) s = .next s := rfl
@[simp] theorem execOp_jobStart (j : Nat) (s : State) : execOp (.jobStart j) s = .next s := rfl
@[simp] theorem execOp_copyRow (j : Nat) (s : State) : execOp (.copyRow j) s = .next s := rfl
@[simp] theorem execOp_jobComplete (j : Nat) (s : State) : execOp (.jobComplete j) s = .next s := rfl
@[simp] theorem execOp_wpeBuildStart (j : Nat) (s : State) : execOp (.wpeBuildStart j) s = .next s := rfl
@[simp] theorem execOp_wpePulseIteration (j : Nat) (ok : BitVec 5) (s : State) : execOp (.wpePulseIteration j ok) s = .next s := rfl
@[simp] theorem execOp_wpeSlotRelease (bank : Nat) (slot : Nat) (s : State) : execOp (.wpeSlotRelease bank slot) s = .next s := rfl
@[simp] theorem execOp_xscaleExecute (n : Nat) (s : State) : execOp (.xscaleExecute n) s = .next s := rfl
@[simp] theorem execOp_resultWriteback (n : Nat) (s : State) : execOp (.resultWriteback n) s = .next s := rfl
@[simp] theorem execOp_landingCountExpiry (n : Nat) (s : State) : execOp (.landingCountExpiry n) s = .next s := rfl
@[simp] theorem execOp_landingDataArrival (n : Nat) (k : Nat) (verdict : Bool) (s : State) : execOp (.landingDataArrival n k verdict) s = .next s := rfl
@[simp] theorem execOp_storeAck (n : Nat) (id : Nat) (s : State) : execOp (.storeAck n id) s = .next s := rfl
@[simp] theorem execOp_homeAtomicExecute (n : Nat) (id : Nat) (s : State) : execOp (.homeAtomicExecute n id) s = .next s := rfl
@[simp] theorem execOp_stampedMessageDelivery (k : Nat) (s : State) : execOp (.stampedMessageDelivery k) s = .next s := rfl
@[simp] theorem execOp_directoryInvalidate (clu : Nat) (line : Nat) (s : State) : execOp (.directoryInvalidate clu line) s = .next s := rfl
@[simp] theorem execOp_memoryFaultFound (site : FaultSite) (cond : MemCond) (s : State) : execOp (.memoryFaultFound site cond) s = .next s := rfl
@[simp] theorem execOp_trapEntry (n : Nat) (s : State) : execOp (.trapEntry n) s = .next s := rfl
@[simp] theorem execOp_preempt (n : Nat) (s : State) : execOp (.preempt n) s = .next s := rfl
@[simp] theorem execOp_saveComplete (n : Nat) (s : State) : execOp (.saveComplete n) s = .next s := rfl
@[simp] theorem execOp_taskRestore (uid : Nat) (n : Nat) (s : State) : execOp (.taskRestore uid n) s = .next s := rfl
@[simp] theorem execOp_scheduleReadyTask (die : Nat) (s : State) : execOp (.scheduleReadyTask die) s = .next s := rfl
@[simp] theorem execOp_queueSignal (q : Nat) (s : State) : execOp (.queueSignal q) s = .next s := rfl
@[simp] theorem execOp_queueRemap (die : Nat) (s : State) : execOp (.queueRemap die) s = .next s := rfl
@[simp] theorem execOp_queueIdleTimeout (q : Nat) (s : State) : execOp (.queueIdleTimeout q) s = .next s := rfl
@[simp] theorem execOp_queueRestart (q : Nat) (s : State) : execOp (.queueRestart q) s = .next s := rfl
@[simp] theorem execOp_packetDispatch (die : Nat) (s : State) : execOp (.packetDispatch die) s = .next s := rfl
@[simp] theorem execOp_launch (pid : Nat) (s : State) : execOp (.launch pid) s = .next s := rfl
@[simp] theorem execOp_copy (pid : Nat) (s : State) : execOp (.copy pid) s = .next s := rfl
@[simp] theorem execOp_barrier (pid : Nat) (s : State) : execOp (.barrier pid) s = .next s := rfl
@[simp] theorem execOp_node (pid : Nat) (s : State) : execOp (.node pid) s = .next s := rfl
@[simp] theorem execOp_selftest (pid : Nat) (s : State) : execOp (.selftest pid) s = .next s := rfl
@[simp] theorem execOp_fencePacket (pid : Nat) (s : State) : execOp (.fencePacket pid) s = .next s := rfl
@[simp] theorem execOp_packetComplete (pid : Nat) (s : State) : execOp (.packetComplete pid) s = .next s := rfl
@[simp] theorem execOp_indexClaim (die : Nat) (pid : Nat) (s : State) : execOp (.indexClaim die pid) s = .next s := rfl
@[simp] theorem execOp_gangStart (pid : Nat) (level : Nat) (group : Nat) (s : State) : execOp (.gangStart pid level group) s = .next s := rfl
@[simp] theorem execOp_indexReturnTimeout (die : Nat) (pid : Nat) (s : State) : execOp (.indexReturnTimeout die pid) s = .next s := rfl
@[simp] theorem execOp_launchComplete (pid : Nat) (s : State) : execOp (.launchComplete pid) s = .next s := rfl
@[simp] theorem execOp_selftestComplete (n : Nat) (fail : BitVec 9) (s : State) : execOp (.selftestComplete n fail) s = .next s := rfl
@[simp] theorem execOp_waySurrender (clu : Nat) (s : State) : execOp (.waySurrender clu) s = .next s := rfl
@[simp] theorem execOp_wayReturn (clu : Nat) (s : State) : execOp (.wayReturn clu) s = .next s := rfl
@[simp] theorem execOp_waypWrite (clu : Nat) (v : DWord) (s : State) : execOp (.waypWrite clu v) s = .next s := rfl
@[simp] theorem execOp_wrgnWrite (die : Nat) (r : Nat) (hi : Bool) (v : DWord) (s : State) : execOp (.wrgnWrite die r hi v) s = .next s := rfl
@[simp] theorem execOp_regionSealComplete (die : Nat) (r : Nat) (s : State) : execOp (.regionSealComplete die r) s = .next s := rfl
@[simp] theorem execOp_qdbaseWrite (die : Nat) (v : DWord) (s : State) : execOp (.qdbaseWrite die v) s = .next s := rfl
@[simp] theorem execOp_qsigbaseWrite (die : Nat) (v : DWord) (s : State) : execOp (.qsigbaseWrite die v) s = .next s := rfl
@[simp] theorem execOp_fabidWrite (v : DWord) (s : State) : execOp (.fabidWrite v) s = .next s := rfl
@[simp] theorem execOp_fportEnWrite (die : Nat) (p : Nat) (v : DWord) (s : State) : execOp (.fportEnWrite die p v) s = .next s := rfl
@[simp] theorem execOp_fabricLinkUp (die : Nat) (p : Nat) (peer : BitVec 10) (comp : Bool) (s : State) : execOp (.fabricLinkUp die p peer comp) s = .next s := rfl
@[simp] theorem execOp_fabricTagFailure (die : Nat) (p : Nat) (s : State) : execOp (.fabricTagFailure die p) s = .next s := rfl
@[simp] theorem execOp_streamRekey (die : Nat) (p : Nat) (s : State) : execOp (.streamRekey die p) s = .next s := rfl
@[simp] theorem execOp_pcapWrite (v : DWord) (s : State) : execOp (.pcapWrite v) s = .next s := rfl
@[simp] theorem execOp_pcapWindow (pwr : BitVec 16) (amps : BitVec 16) (s : State) : execOp (.pcapWindow pwr amps) s = .next s := rfl
@[simp] theorem execOp_vcoreOvercurrent (amps : Nat) (s : State) : execOp (.vcoreOvercurrent amps) s = .next s := rfl
@[simp] theorem execOp_mcErrorRecord (die : Nat) (bank : Nat) (e : McErr) (s : State) : execOp (.mcErrorRecord die bank e) s = .next s := rfl
@[simp] theorem execOp_threshWindowEnd (die : Nat) (bank : Nat) (s : State) : execOp (.threshWindowEnd die bank) s = .next s := rfl
@[simp] theorem execOp_mcStatusClear (die : Nat) (bank : Nat) (v : DWord) (s : State) : execOp (.mcStatusClear die bank v) s = .next s := rfl
@[simp] theorem execOp_datapathCheckFail (n : Nat) (slot : Slot) (synd : DWord) (s : State) : execOp (.datapathCheckFail n slot synd) s = .next s := rfl
@[simp] theorem execOp_coreFence (n : Nat) (s : State) : execOp (.coreFence n) s = .next s := rfl
@[simp] theorem execOp_coreReturnToService (n : Nat) (s : State) : execOp (.coreReturnToService n) s = .next s := rfl
@[simp] theorem execOp_lockstepMismatch (die : Nat) (pcs : DWord) (s : State) : execOp (.lockstepMismatch die pcs) s = .next s := rfl
@[simp] theorem execOp_lockstepReplayComplete (die : Nat) (s : State) : execOp (.lockstepReplayComplete die) s = .next s := rfl
@[simp] theorem execOp_dieLost (die : Nat) (s : State) : execOp (.dieLost die) s = .next s := rfl
@[simp] theorem execOp_packageLost (pkg : Nat) (s : State) : execOp (.packageLost pkg) s = .next s := rfl
@[simp] theorem execOp_ownerEntryEffect (k : Nat) (s : State) : execOp (.ownerEntryEffect k) s = .next s := rfl
@[simp] theorem execOp_hostBarAccess (a : BarAccess) (s : State) : execOp (.hostBarAccess a) s = .next s := rfl
@[simp] theorem execOp_controlRegisterWrite (die : Nat) (off : Nat) (v : DWord) (s : State) : execOp (.controlRegisterWrite die off v) s = .next s := rfl
@[simp] theorem execOp_getVersion (s : State) : execOp (.getVersion) s = .next s := rfl
@[simp] theorem execOp_getCapabilities (s : State) : execOp (.getCapabilities) s = .next s := rfl
@[simp] theorem execOp_negotiateAlgorithms (s : State) : execOp (.negotiateAlgorithms) s = .next s := rfl
@[simp] theorem execOp_getDigests (s : State) : execOp (.getDigests) s = .next s := rfl
@[simp] theorem execOp_getCertificate (s : State) : execOp (.getCertificate) s = .next s := rfl
@[simp] theorem execOp_challenge (nonce : BitVec 256) (s : State) : execOp (.challenge nonce) s = .next s := rfl
@[simp] theorem execOp_getMeasurements (index : Nat) (s : State) : execOp (.getMeasurements index) s = .next s := rfl
@[simp] theorem execOp_keyExchange (s : State) : execOp (.keyExchange) s = .next s := rfl
@[simp] theorem execOp_finish (s : State) : execOp (.finish) s = .next s := rfl
@[simp] theorem execOp_keyUpdate (s : State) : execOp (.keyUpdate) s = .next s := rfl
@[simp] theorem execOp_endSession (s : State) : execOp (.endSession) s = .next s := rfl
@[simp] theorem execOp_ideKm (stream : IdeStream) (owner : BitVec 16) (s : State) : execOp (.ideKm stream owner) s = .next s := rfl
@[simp] theorem execOp_create (s : State) : execOp (.create) s = .next s := rfl
@[simp] theorem execOp_assign (ctx : BitVec 16) (what : List Resource) (s : State) : execOp (.assign ctx what) s = .next s := rfl
@[simp] theorem execOp_saveArea (ctx : BitVec 16) (cap : Cap) (spadlen : Nat) (s : State) : execOp (.saveArea ctx cap spadlen) s = .next s := rfl
@[simp] theorem execOp_report (ctx : BitVec 16) (nonce : BitVec 256) (s : State) : execOp (.report ctx nonce) s = .next s := rfl
@[simp] theorem execOp_teardown (ctx : BitVec 16) (s : State) : execOp (.teardown ctx) s = .next s := rfl
@[simp] theorem execOp_resume (ctx : BitVec 16) (s : State) : execOp (.resume ctx) s = .next s := rfl
@[simp] theorem execOp_mctpControl (bus : MgmtBus) (s : State) : execOp (.mctpControl bus) s = .next s := rfl
@[simp] theorem execOp_pldmMonitoring (bus : MgmtBus) (s : State) : execOp (.pldmMonitoring bus) s = .next s := rfl
@[simp] theorem execOp_imageTransfer (bus : MgmtBus) (image : Image) (s : State) : execOp (.imageTransfer bus image) s = .next s := rfl
@[simp] theorem execOp_capRead (bus : MgmtBus) (s : State) : execOp (.capRead bus) s = .next s := rfl
@[simp] theorem execOp_capWrite (bus : MgmtBus) (v : BitVec 16) (s : State) : execOp (.capWrite bus v) s = .next s := rfl
@[simp] theorem execOp_fabricKeyExchange (x : PeerExchange) (s : State) : execOp (.fabricKeyExchange x) s = .next s := rfl
@[simp] theorem execOp_linkReset (s : State) : execOp (.linkReset) s = .next s := rfl
@[simp] theorem execOp_warmReset (s : State) : execOp (.warmReset) s = .next s := rfl
@[simp] theorem execOp_coldReset (s : State) : execOp (.coldReset) s = .next s := rfl
@[simp] theorem execOp_hostLinkUp (s : State) : execOp (.hostLinkUp) s = .next s := rfl
@[simp] theorem execOp_powerLoss (writing : Bool) (s : State) : execOp (.powerLoss writing) s = .next s := rfl
@[simp] theorem execOp_louverResourceDone (die : Nat) (s : State) : execOp (.louverResourceDone die) s = .next s := rfl
@[simp] theorem execOp_regionRehashComplete (die : Nat) (s : State) : execOp (.regionRehashComplete die) s = .next s := rfl

end Sys2Proof.Machine
end

