-- ==== Sys2Proof/Laws/Issue.lean ====
section
/-! SUPPORT. The operations of an issue: each is carried out as `exec` does it, and is the one that its slot word encodes. -/

namespace Sys2Proof.Machine

/-- In a bundle an operation does what `exec` does. -/
theorem exec_eq_execOp (i : Instr) (s : State) (h : Instr.isOp i = true) : exec i s = execOp i s := by
  match i with
  | .beq _ => rfl
  | .bne _ => rfl
  | .blt _ => rfl
  | .bge _ => rfl
  | .bltu _ => rfl
  | .bgeu _ => rfl
  | .bpt _ => rfl
  | .bpf _ => rfl
  | .jmp _ => rfl
  | .call _ => rfl
  | .ret _ => rfl
  | .loop _ => rfl
  | .loopW _ => rfl
  | .loopSp _ => rfl
  | .lend _ => rfl
  | .lbrk _ => rfl
  | .wait _ => rfl
  | .setfmt _ _ => rfl
  | .litset _ => rfl
  | .sstep  => rfl
  | .iinv _ => rfl
  | .yield  => rfl
  | .halt  => rfl
  | .trap _ => rfl
  | .tret  => rfl
  | .lui _ => rfl
  | .auipc _ => rfl
  | .addi _ => rfl
  | .slti _ => rfl
  | .sltiu _ => rfl
  | .xori _ => rfl
  | .ori _ => rfl
  | .andi _ => rfl
  | .slli _ => rfl
  | .srli _ => rfl
  | .srai _ => rfl
  | .add _ => rfl
  | .sub _ => rfl
  | .sll _ => rfl
  | .slt _ => rfl
  | .sltu _ => rfl
  | .xor _ => rfl
  | .srl _ => rfl
  | .sra _ => rfl
  | .or _ => rfl
  | .and _ => rfl
  | .addiw _ => rfl
  | .slliw _ => rfl
  | .srliw _ => rfl
  | .sraiw _ => rfl
  | .addw _ => rfl
  | .subw _ => rfl
  | .sllw _ => rfl
  | .srlw _ => rfl
  | .sraw _ => rfl
  | .lb _ => rfl
  | .lh _ => rfl
  | .lw _ => rfl
  | .sld _ => rfl
  | .lbu _ => rfl
  | .lhu _ => rfl
  | .lwu _ => rfl
  | .sb _ => rfl
  | .sh _ => rfl
  | .sw _ => rfl
  | .sd _ => rfl
  | .fence _ => rfl
  | .ecall  => rfl
  | .ebreak  => rfl
  | .mul _ => rfl
  | .mulh _ => rfl
  | .mulhsu _ => rfl
  | .mulhu _ => rfl
  | .div _ => rfl
  | .divu _ => rfl
  | .rem _ => rfl
  | .remu _ => rfl
  | .mulw _ => rfl
  | .divw _ => rfl
  | .divuw _ => rfl
  | .remw _ => rfl
  | .remuw _ => rfl
  | .csrrw _ => rfl
  | .csrrs _ => rfl
  | .csrrc _ => rfl
  | .csrrwi _ => rfl
  | .csrrsi _ => rfl
  | .csrrci _ => rfl
  | .idle _ => rfl
  | .vadd _ => rfl
  | .vsub _ => rfl
  | .vmul _ => rfl
  | .vdiv _ => rfl
  | .vmin _ => rfl
  | .vmax _ => rfl
  | .vabs _ => rfl
  | .vneg _ => rfl
  | .vfma _ => rfl
  | .vfms _ => rfl
  | .vsqrt _ => rfl
  | .vrcp _ => rfl
  | .vrsqrt _ => rfl
  | .vexp2 _ => rfl
  | .vlog2 _ => rfl
  | .vand _ => rfl
  | .vor _ => rfl
  | .vxor _ => rfl
  | .vnot _ => rfl
  | .vshl _ => rfl
  | .vshr _ => rfl
  | .vsra _ => rfl
  | .vadds _ => rfl
  | .vsubs _ => rfl
  | .vmulh _ => rfl
  | .vbcast _ => rfl
  | .vmovx _ => rfl
  | .vmov _ => rfl
  | .viota _ => rfl
  | .vli _ => rfl
  | .vcmpEq _ => rfl
  | .vcmpNe _ => rfl
  | .vcmpLt _ => rfl
  | .vcmpLe _ => rfl
  | .vcmpUn _ => rfl
  | .vcmpLtu _ => rfl
  | .vcmpLeu _ => rfl
  | .vpand _ => rfl
  | .vpor _ => rfl
  | .vpxor _ => rfl
  | .vpnot _ => rfl
  | .vpset _ => rfl
  | .vpcnt _ => rfl
  | .vpfirst _ => rfl
  | .vsel _ => rfl
  | .vperm _ => rfl
  | .vslideup _ => rfl
  | .vslidedn _ => rfl
  | .vzip _ => rfl
  | .vunzip _ => rfl
  | .vcompress _ => rfl
  | .vexpand _ => rfl
  | .vredsum _ => rfl
  | .vredmax _ => rfl
  | .vredmin _ => rfl
  | .vscansum _ => rfl
  | .vscanmax _ => rfl
  | .vargmax _ => rfl
  | .vbitonic _ => rfl
  | .vmulL6 _ => rfl
  | .vdotL6 _ => rfl
  | .vrand _ => rfl
  | .vld _ => rfl
  | .vst _ => rfl
  | .vstm _ => rfl
  | .vgather _ => rfl
  | .vscatter _ => rfl
  | .ld _ => rfl
  | .st _ => rfl
  | .ldSc _ => rfl
  | .stSc _ => rfl
  | .vpref _ => rfl
  | .amoadd _ => rfl
  | .amomin _ => rfl
  | .amomax _ => rfl
  | .amominu _ => rfl
  | .amomaxu _ => rfl
  | .amoand _ => rfl
  | .amoor _ => rfl
  | .amoxor _ => rfl
  | .amoswap _ => rfl
  | .amocas _ => rfl
  | .amoSc _ => rfl
  | .lda _ => rfl
  | .stl _ => rfl
  | .vfence _ => rfl
  | .cflush _ => rfl
  | .vamoadd _ => rfl
  | .vamomin _ => rfl
  | .vamomax _ => rfl
  | .vredst _ => rfl
  | .cldh _ => rfl
  | .csth _ => rfl
  | .cnarrow _ => rfl
  | .cget _ => rfl
  | .cmov _ => rfl
  | .cclr _ => rfl
  | .binit _ => rfl
  | .blink _ => rfl
  | .barrive _ => rfl
  | .bwaitp _ => rfl
  | .oclaim _ => rfl
  | .orelease _ => rfl
  | .oload _ => rfl
  | .wload _ => rfl
  | .mzero _ => rfl
  | .mmov _ => rfl
  | .mrd _ => rfl
  | .mwr _ => rfl
  | .mmaF64 _ => rfl
  | .mmaF32 _ => rfl
  | .mmaBf16 _ => rfl
  | .mmaF16 _ => rfl
  | .mmaI8 _ => rfl
  | .mmaI4 _ => rfl
  | .mmaL6 _ => rfl
  | .mmaS24 _ => rfl
  | .mmaS14 _ => rfl
  | .mlrset _ => rfl
  | .mlrmul _ => rfl
  | .mlrdm _ => rfl
  | .mdmlr _ => rfl
  | .mlradd _ => rfl
  | .mrecomp _ => rfl
  | .mdense _ => rfl
  | .mrank _ => rfl
  | .mbflyC64 _ => rfl
  | .mbflyC128 _ => rfl
  | .mbrev _ => rfl
  | .mtwmulC64 _ => rfl
  | .mtwmulC128 _ => rfl
  | .cjob _ => rfl
  | .cjobv _ => rfl
  | .cwpe _ => rfl
  | .cquery _ => rfl
  | .ccancel _ => rfl
  | .csignal _ => rfl
  | .cfence  => rfl
  | .xexpS24 _ => rfl
  | .xexpS14 _ => rfl
  | .xunpkL6 _ => rfl
  | .xunpkI4 _ => rfl
  | .xpackL6 _ => rfl
  | .xpackI4 _ => rfl
  | .xtr _ => rfl
  | .xcvt _ => rfl
  | .xscale _ => rfl
  | .xscalei _ => rfl
  | .fmtShadowExpiry _ => nomatch h
  | .superstepRelease _ => nomatch h
  | .taskEnd _ => nomatch h
  | .tretResume _ => nomatch h
  | .repeatIssue _ => nomatch h
  | .segmentMark _ => nomatch h
  | .overlaySegmentLanded _ => nomatch h
  | .scWheelIssue _ => nomatch h
  | .barrierAnswer _ => nomatch h
  | .barrierArrivalReceived _ => nomatch h
  | .barrierFlipReceived _ => nomatch h
  | .wloadBlockArrival _ _ => nomatch h
  | .wloadFillExpiry _ _ => nomatch h
  | .engineOpStart _ => nomatch h
  | .portBlock _ => nomatch h
  | .engineRetire _ => nomatch h
  | .jobStart _ => nomatch h
  | .copyRow _ => nomatch h
  | .jobComplete _ => nomatch h
  | .wpeBuildStart _ => nomatch h
  | .wpePulseIteration _ _ => nomatch h
  | .wpeSlotRelease _ _ => nomatch h
  | .xscaleExecute _ => nomatch h
  | .resultWriteback _ => nomatch h
  | .landingCountExpiry _ => nomatch h
  | .landingDataArrival _ _ _ => nomatch h
  | .storeAck _ _ => nomatch h
  | .homeAtomicExecute _ _ => nomatch h
  | .stampedMessageDelivery _ => nomatch h
  | .directoryInvalidate _ _ => nomatch h
  | .memoryFaultFound _ _ => nomatch h
  | .trapEntry _ => nomatch h
  | .preempt _ => nomatch h
  | .saveComplete _ => nomatch h
  | .taskRestore _ _ => nomatch h
  | .scheduleReadyTask _ => nomatch h
  | .queueSignal _ => nomatch h
  | .queueRemap _ => nomatch h
  | .queueIdleTimeout _ => nomatch h
  | .queueRestart _ => nomatch h
  | .packetDispatch _ => nomatch h
  | .launch _ => nomatch h
  | .copy _ => nomatch h
  | .barrier _ => nomatch h
  | .node _ => nomatch h
  | .selftest _ => nomatch h
  | .fencePacket _ => nomatch h
  | .packetComplete _ => nomatch h
  | .indexClaim _ _ => nomatch h
  | .gangStart _ _ _ => nomatch h
  | .indexReturnTimeout _ _ => nomatch h
  | .launchComplete _ => nomatch h
  | .selftestComplete _ _ => nomatch h
  | .waySurrender _ => nomatch h
  | .wayReturn _ => nomatch h
  | .waypWrite _ _ => nomatch h
  | .wrgnWrite _ _ _ _ => nomatch h
  | .regionSealComplete _ _ => nomatch h
  | .qdbaseWrite _ _ => nomatch h
  | .qsigbaseWrite _ _ => nomatch h
  | .fabidWrite _ => nomatch h
  | .fportEnWrite _ _ _ => nomatch h
  | .fabricLinkUp _ _ _ _ => nomatch h
  | .fabricTagFailure _ _ => nomatch h
  | .streamRekey _ _ => nomatch h
  | .pcapWrite _ => nomatch h
  | .pcapWindow _ _ => nomatch h
  | .vcoreOvercurrent _ => nomatch h
  | .mcErrorRecord _ _ _ => nomatch h
  | .threshWindowEnd _ _ => nomatch h
  | .mcStatusClear _ _ _ => nomatch h
  | .datapathCheckFail _ _ _ => nomatch h
  | .coreFence _ => nomatch h
  | .coreReturnToService _ => nomatch h
  | .lockstepMismatch _ _ => nomatch h
  | .lockstepReplayComplete _ => nomatch h
  | .dieLost _ => nomatch h
  | .packageLost _ => nomatch h
  | .ownerEntryEffect _ => nomatch h
  | .hostBarAccess _ => nomatch h
  | .controlRegisterWrite _ _ _ => nomatch h
  | .getVersion => nomatch h
  | .getCapabilities => nomatch h
  | .negotiateAlgorithms => nomatch h
  | .getDigests => nomatch h
  | .getCertificate => nomatch h
  | .challenge _ => nomatch h
  | .getMeasurements _ => nomatch h
  | .keyExchange => nomatch h
  | .finish => nomatch h
  | .keyUpdate => nomatch h
  | .endSession => nomatch h
  | .ideKm _ _ => nomatch h
  | .create => nomatch h
  | .assign _ _ => nomatch h
  | .saveArea _ _ _ => nomatch h
  | .report _ _ => nomatch h
  | .teardown _ => nomatch h
  | .resume _ => nomatch h
  | .mctpControl _ => nomatch h
  | .pldmMonitoring _ => nomatch h
  | .imageTransfer _ _ => nomatch h
  | .capRead _ => nomatch h
  | .capWrite _ _ => nomatch h
  | .fabricKeyExchange _ => nomatch h
  | .linkReset  => nomatch h
  | .warmReset  => nomatch h
  | .coldReset  => nomatch h
  | .hostLinkUp => nomatch h
  | .powerLoss _ => nomatch h
  | .louverResourceDone _ => nomatch h
  | .regionRehashComplete _ => nomatch h

/-- Operations that run without a trap leave what the last of them leaves. -/
theorem runOps_of_runs {ops : List Op} {s s2 : State} {comp} (hr : Runs ops s s2) (ho : ∀ o ∈ ops, Instr.isOp o.i = true) :
    State.runOps ops s comp = .ok (s2, comp) := by
  induction hr with
  | nil => rfl
  | cons he hn hr ih =>
    rename_i o l s t u
    have : s.runOp o = t := by
      unfold State.runOp; rw [← exec_eq_execOp _ _ (ho o (by simp)), he]
    simp only [State.runOps, this, hn]
    exact ih (fun o h => ho o (by simp [h]))

/-- Every operation that check 3 passes is the one that its slot word decodes to. -/
theorem slotTrap_mem {c : Core} {l sc p} (h : slotTrap c l sc = .ok p) : ∀ e ∈ p, ∃ w, (e.1, w) ∈ l ∧ decodeSlot e.1 w = .ok e.2 := by
  induction l generalizing sc p with
  | nil => cases h; simp
  | cons a t ih =>
    obtain ⟨sl, w⟩ := a
    unfold slotTrap at h
    split at h
    · cases h
    · next i hd =>
      split at h
      · cases h
      · split at h
        · next l hl =>
          cases h
          intro e he
          rcases List.mem_cons.1 he with rfl | he
          · exact ⟨w, by simp, hd⟩
          · obtain ⟨w', h1, h2⟩ := ih hl e he
            exact ⟨w', by simp [h1], h2⟩
        · cases h

end Sys2Proof.Machine
end

