-- ==== Sys2Proof/Laws/Memory.lean ====
section
/-! SUPPORT. Memory, its tags and marks and the numbered tables: reading after writing, and the canonical forms that every
operation keeps. -/

namespace Sys2Proof.Machine

/-! ### Memory -/

namespace Memory

theorem wfFrom_mono {lo hi : Nat} {m : List Host.Cell} (h : wfFrom hi m = true) (le : lo ≤ hi) : wfFrom lo m = true := by
  cases m with
  | nil => rfl
  | cons c t =>
    simp only [wfFrom, Bool.and_eq_true, decide_eq_true_eq] at h ⊢
    exact ⟨⟨le.trans h.1.1, h.1.2⟩, h.2⟩

theorem write_wfFrom {lo : Nat} {m : List Host.Cell} (k : Nat) (b : Byte) (h : wfFrom lo m = true) (hk : lo ≤ k) :
    wfFrom lo (write m k b) = true := by
  induction m generalizing lo with
  | nil => simp only [write]; split <;> simp_all [wfFrom]
  | cons c t ih =>
    obtain ⟨a, v⟩ := c
    simp only [wfFrom, Bool.and_eq_true, decide_eq_true_eq, bne_iff_ne] at h
    obtain ⟨⟨hlo, hv⟩, ht⟩ := h
    unfold write
    split
    · split
      · simp [wfFrom, hlo, hv, ht]
      · rename_i hka hb
        simp [wfFrom, hk, hb, hv, ht]; omega
    · split
      · split
        · exact wfFrom_mono ht (by omega)
        · rename_i hb
          subst_vars; simp_all [wfFrom]
      · simp only [wfFrom, Bool.and_eq_true, decide_eq_true_eq, bne_iff_ne]
        exact ⟨⟨hlo, hv⟩, ih ht (by omega)⟩

theorem write_wf {m : List Host.Cell} (k : Nat) (b : Byte) (h : wf m = true) : wf (write m k b) = true :=
  write_wfFrom k b h (Nat.zero_le _)

theorem writeList_wf {m : List Host.Cell} (k : Nat) (bs : List Byte) (h : wf m = true) : wf (writeList m k bs) = true := by
  induction bs generalizing m k with
  | nil => exact h
  | cons b bs ih => exact ih (k + 1) (write_wf k b h)

theorem filter_wfFrom {lo : Nat} {m : List Host.Cell} (p : Host.Cell → Bool) (h : wfFrom lo m = true) :
    wfFrom lo (m.filter p) = true := by
  induction m generalizing lo with
  | nil => exact h
  | cons c t ih =>
    simp only [wfFrom, Bool.and_eq_true, decide_eq_true_eq, bne_iff_ne] at h
    rw [List.filter_cons]
    split
    · simp only [wfFrom, Bool.and_eq_true, decide_eq_true_eq, bne_iff_ne]
      exact ⟨h.1, ih h.2⟩
    · exact wfFrom_mono (ih h.2) (by omega)

theorem filter_wf {m : List Host.Cell} (p : Host.Cell → Bool) (h : wf m = true) : wf (m.filter p) = true := filter_wfFrom p h

theorem clear_wf {m : List Host.Cell} (lo len : Nat) (h : wf m = true) : wf (clear m lo len) = true := filter_wf _ h

theorem foldl_write_wf {α : Type} {m : List Host.Cell} (l : List α) (k : α → Nat) (b : α → Byte) (h : wf m = true) :
    wf (l.foldl (fun m c => write m (k c) (b c)) m) = true := by
  induction l generalizing m with
  | nil => exact h
  | cons c t ih => exact ih (write_wf _ _ h)

theorem read_below {lo : Nat} {m : List Host.Cell} {k : Nat} (h : wfFrom lo m = true) (hk : k < lo) : read m k = default := by
  cases m with
  | nil => rfl
  | cons c t =>
    simp only [wfFrom, Bool.and_eq_true, decide_eq_true_eq] at h
    simp only [read, if_neg (show k ≠ c.1 by omega), if_pos (show k < c.1 by omega)]

/-- A read after a write of the same byte. -/
theorem read_write_same {lo : Nat} {m : List Host.Cell} (k : Nat) (b : Byte) (h : wfFrom lo m = true) :
    read (write m k b) k = b := by
  induction m generalizing lo with
  | nil => simp only [write]; split <;> simp_all [read]
  | cons c t ih =>
    obtain ⟨a, v⟩ := c
    simp only [wfFrom, Bool.and_eq_true, decide_eq_true_eq, bne_iff_ne] at h
    unfold write
    split
    · split
      · rename_i h1 h2
        simp [read, h1, Nat.ne_of_lt h1, h2]
      · simp [read]
    · split
      · split
        · rename_i h1 h2 h3
          subst h2; rw [read_below h.2 (by omega), h3]
        · simp [read]
      · rename_i h1 h2
        simp only [read, if_neg (show k ≠ a from fun e => h2 e), if_neg h1]
        exact ih h.2

/-- A write leaves every other byte alone. -/
theorem read_write_other {lo : Nat} {m : List Host.Cell} {k j : Nat} (b : Byte) (h : wfFrom lo m = true) (hj : j ≠ k) :
    read (write m k b) j = read m j := by
  induction m generalizing lo with
  | nil => simp only [write]; split <;> simp [read, hj]
  | cons c t ih =>
    obtain ⟨a, v⟩ := c
    simp only [wfFrom, Bool.and_eq_true, decide_eq_true_eq, bne_iff_ne] at h
    unfold write
    split
    · split
      · rfl
      · rename_i h1 h2
        simp only [read, if_neg hj]
        split
        · rw [if_neg (by omega), if_pos (by omega)]
        · rfl
    · split
      · split
        · rename_i h1 h2 h3
          subst h2
          simp only [read, if_neg hj]
          split
          · exact read_below h.2 (by omega)
          · rfl
        · rename_i h1 h2 h3
          subst h2; simp [read, hj]
      · simp only [read]
        split
        · rfl
        · split
          · rfl
          · exact ih h.2

theorem read_writeList_outside {m : List Host.Cell} {k j : Nat} (bs : List Byte) (h : wf m = true)
    (hj : j < k ∨ k + bs.length ≤ j) : read (writeList m k bs) j = read m j := by
  induction bs generalizing m k with
  | nil => rfl
  | cons b bs ih =>
    simp only [List.length_cons] at hj
    simp only [writeList]
    rw [ih (write_wf k b h) (by omega)]
    exact read_write_other b h (by omega)

theorem readList_writeList_same {m : List Host.Cell} (k : Nat) (bs : List Byte) (h : wf m = true) :
    readList (writeList m k bs) k bs.length = bs := by
  induction bs generalizing m k with
  | nil => rfl
  | cons b bs ih =>
    simp only [List.length_cons, readList, writeList]
    rw [ih (k + 1) (write_wf k b h), read_writeList_outside bs (write_wf k b h) (by omega), read_write_same k b h]

end Memory

/-! ### Sets of granules -/

namespace KeySet

theorem wf_iff (l : List Nat) : wf l = true ↔ l.Pairwise (· < ·) := by
  induction l with
  | nil => simp [wf]
  | cons a t ih =>
    cases t with
    | nil => simp [wf]
    | cons b u =>
      rw [wf, Bool.and_eq_true, ih, decide_eq_true_eq]
      constructor
      · rintro ⟨hab, hb⟩
        refine List.pairwise_cons.2 ⟨?_, hb⟩
        intro c hc
        rcases List.mem_cons.1 hc with rfl | hc
        · exact hab
        · exact hab.trans ((List.pairwise_cons.1 hb).1 c hc)
      · intro h
        exact ⟨(List.pairwise_cons.1 h).1 b (by simp), (List.pairwise_cons.1 h).2⟩

theorem mem_add {l : List Nat} {k a : Nat} (h : a ∈ add l k) : a = k ∨ a ∈ l := by
  induction l with
  | nil => simpa [add] using h
  | cons b t ih =>
    simp only [add] at h
    split at h
    · simpa using h
    · split at h
      · exact .inr h
      · rcases List.mem_cons.1 h with rfl | h
        · exact .inr (by simp)
        · rcases ih h with h | h <;> simp [h]

theorem add_wf {l : List Nat} (k : Nat) (h : wf l = true) : wf (add l k) = true := by
  rw [wf_iff] at h ⊢
  induction l with
  | nil => simp [add]
  | cons b t ih =>
    have hb := List.pairwise_cons.1 h
    simp only [add]
    split
    · rename_i hk
      refine List.pairwise_cons.2 ⟨fun c hc => ?_, h⟩
      rcases List.mem_cons.1 hc with rfl | hc
      · exact hk
      · exact hk.trans (hb.1 c hc)
    · split
      · exact h
      · refine List.pairwise_cons.2 ⟨fun c hc => ?_, ih hb.2⟩
        rcases mem_add hc with rfl | hc
        · omega
        · exact hb.1 c hc

theorem filter_wf {l : List Nat} (p : Nat → Bool) (h : wf l = true) : wf (l.filter p) = true := by
  rw [wf_iff] at h ⊢
  exact h.filter p

theorem del_wf {l : List Nat} (k : Nat) (h : wf l = true) : wf (del l k) = true := filter_wf _ h
theorem clear_wf {l : List Nat} (lo len : Nat) (h : wf l = true) : wf (clear l lo len) = true := filter_wf _ h

theorem foldl_del_wf {l : List Nat} (ks : List Nat) (h : wf l = true) : wf (ks.foldl del l) = true := by
  induction ks generalizing l with
  | nil => exact h
  | cons k t ih => exact ih (del_wf k h)

theorem foldl_add_wf {l : List Nat} (ks : List Nat) (h : wf l = true) : wf (ks.foldl add l) = true := by
  induction ks generalizing l with
  | nil => exact h
  | cons k t ih => exact ih (add_wf k h)

end KeySet

/-! ### Numbered tables -/

theorem mem_insertAt {α : Type} {l : List (Nat × α)} {n : Nat} {a : α} {e : Nat × α} (h : e ∈ insertAt l n a) :
    e = (n, a) ∨ e ∈ l := by
  induction l with
  | nil => simpa [insertAt] using h
  | cons b t ih =>
    obtain ⟨k, b⟩ := b
    simp only [insertAt] at h
    split at h
    · simpa using h
    · split at h
      · rcases List.mem_cons.1 h with h | h <;> simp [h]
      · rcases List.mem_cons.1 h with rfl | h
        · simp
        · rcases ih h with h | h <;> simp [h]

theorem lookupD_mem {α : Type} (d : α) (l : List (Nat × α)) (n : Nat) : lookupD d l n = d ∨ ∃ k, (k, lookupD d l n) ∈ l := by
  induction l with
  | nil => exact .inl rfl
  | cons b t ih =>
    obtain ⟨k, b⟩ := b
    simp only [lookupD]
    split
    · exact .inr ⟨k, by simp⟩
    · split
      · exact .inl rfl
      · rcases ih with h | ⟨j, h⟩
        · exact .inl h
        · exact .inr ⟨j, by simp [h]⟩

/-- An entry is read where it was put. -/
theorem lookupD_insertAt_same {α : Type} (d : α) (l : List (Nat × α)) (n : Nat) (a : α) : lookupD d (insertAt l n a) n = a := by
  induction l with
  | nil => simp [insertAt, lookupD]
  | cons b t ih =>
    obtain ⟨k, b⟩ := b
    simp only [insertAt]
    split
    · simp [lookupD]
    · split
      · simp [lookupD]
      · rename_i h1 h2
        simp only [lookupD, if_neg h2, if_neg h1]
        exact ih

/-- Putting an entry into a table leaves every other one alone. -/
theorem lookupD_insertAt_other {α : Type} (d : α) (l : List (Nat × α)) {n m : Nat} (a : α) (h : m ≠ n) :
    lookupD d (insertAt l n a) m = lookupD d l m := by
  induction l with
  | nil => simp [insertAt, lookupD, h]
  | cons b t ih =>
    obtain ⟨k, b⟩ := b
    simp only [insertAt]
    split
    · rename_i h1
      simp only [lookupD, if_neg h]
      by_cases h2 : m < n
      · rw [if_pos h2, if_neg (by omega), if_pos (by omega)]
      · rw [if_neg h2]
    · split
      · rename_i h1 h2
        subst h2
        simp [lookupD, h]
      · simp only [lookupD]
        split
        · rfl
        · split
          · rfl
          · exact ih

/-! ### Cores of a state -/

@[simp] theorem State.core_setCore_same (s : State) (n : Nat) (c : Core) : (s.setCore n c).core n = c :=
  lookupD_insertAt_same _ _ _ _

theorem State.core_setCore_other (s : State) {n m : Nat} (c : Core) (h : m ≠ n) : (s.setCore n c).core m = s.core m :=
  lookupD_insertAt_other _ _ _ h

@[simp] theorem State.cur_setCur (s : State) (c : Core) : (s.setCur c).cur = c := State.core_setCore_same _ _ _

end Sys2Proof.Machine
end

