-- ==== Sys2Proof/Laws/OkBase.lean ====
section
/-! SUPPORT. Soundness (`State.Ok`, `Core.Ok`, `OutOk`) of the operations that the other lemmas rest on. -/

namespace Sys2Proof.Machine

open Host (Outcome)

/-! ### Answers that carry a state -/

/-- The core of a slot operation's answer is sound. -/
def CoreExOk {ε : Type} : Except ε Core → Prop
  | .ok c => c.Ok
  | .error _ => True

/-- The state of an answer is sound. -/
def ExOk {ε : Type} : Except ε State → Prop
  | .ok s => s.Ok
  | .error _ => True

theorem outOk_next {s : State} (h : s.Ok) : OutOk (.next s) := ⟨fun _ e => Outcome.next.inj e ▸ h⟩
theorem coreExOk_ok {ε : Type} {c : Core} (h : c.Ok) : CoreExOk (.ok c : Except ε Core) := h
theorem coreExOk_error {ε : Type} (e : ε) : CoreExOk (.error e) := trivial
theorem exOk_ok {ε : Type} {s : State} (h : s.Ok) : ExOk (.ok s : Except ε State) := h
theorem exOk_error {ε : Type} (e : ε) : ExOk (.error e) := trivial

theorem coreExOk_bind {ε α : Type} {x : Except ε α} {f : α → Except ε Core} (h : ∀ a, CoreExOk (f a)) : CoreExOk (x >>= f) := by
  cases x with
  | ok a => exact h a
  | error e => trivial

theorem exOk_bind {ε α : Type} {x : Except ε α} {f : α → Except ε State} (h : ∀ a, ExOk (f a)) : ExOk (x >>= f) := by
  cases x with
  | ok a => exact h a
  | error e => trivial

theorem exOk_bind_state {ε : Type} {x : Except ε State} {f : State → Except ε State} (hx : ExOk x) (h : ∀ s : State, s.Ok → ExOk (f s)) :
    ExOk (x >>= f) := by
  cases x with
  | ok a => exact h a hx
  | error e => trivial

/-- The state of an answer that may be absent is sound. -/
def OptOk : Option State → Prop
  | some s => s.Ok
  | none => True

theorem optOk_some {s : State} (h : s.Ok) : OptOk (some s) := h
theorem optOk_none : OptOk none := trivial

theorem State.Ok.ofPair {α : Type} {p : State × α} {s : State} {b : α} (e : p = (s, b)) (h : p.1.Ok) : s.Ok := by subst e; exact h
theorem State.Ok.ofSome {o : Option State} {s : State} (e : o = some s) (h : OptOk o) : s.Ok := by subst e; exact h
theorem State.Ok.ofExcept {ε : Type} {o : Except ε State} {s : State} (e : o = .ok s) (h : ExOk o) : s.Ok := by subst e; exact h
theorem State.Ok.ofNext {o : Outcome State Fault Refusal} {s : State} (e : o = .next s) (h : OutOk o) : s.Ok := h.next s e
theorem Core.Ok.ofExcept {ε : Type} {o : Except ε Core} {c : Core} (e : o = .ok c) (h : CoreExOk o) : c.Ok := by subst e; exact h

theorem optOk_bind {α : Type} {o : Option α} {f : α → Option State} (h : ∀ a, OptOk (f a)) : OptOk (o.bind f) := by
  cases o with
  | none => trivial
  | some a => exact h a

theorem State.Ok.getD {o : Option State} {s : State} (ho : OptOk o) (h : s.Ok) : (o.getD s).Ok := by
  cases o with
  | none => exact h
  | some a => exact ho

/-- A saved task that is found is sound. -/
theorem State.Ok.ofFind {s : State} {p : Saved → Bool} {v : Saved} (e : s.dev.sched.saved.find? p = some v) (h : s.Ok) :
    v.core.Ok := h.2.2.2.2.2 v (List.mem_of_find?_eq_some e)

/-- The state of a row's end is sound. -/
def RowOk : RowEnd → Prop
  | .wait => True
  | .fault _ s => s.Ok
  | .ok s => s.Ok

theorem rowOk_wait : RowOk .wait := trivial
theorem rowOk_fault {s : State} (c : BitVec 8) (h : s.Ok) : RowOk (.fault c s) := h
theorem rowOk_ok {s : State} (h : s.Ok) : RowOk (.ok s) := h

theorem State.Ok.ite {p : Prop} [Decidable p] {a b : State} (ha : p → a.Ok) (hb : ¬p → b.Ok) : (if p then a else b).Ok := by
  split
  · exact ha ‹_›
  · exact hb ‹_›

theorem Core.Ok.ite {p : Prop} [Decidable p] {a b : Core} (ha : p → a.Ok) (hb : ¬p → b.Ok) : (if p then a else b).Ok := by
  split
  · exact ha ‹_›
  · exact hb ‹_›

/-! ### Folds -/

theorem State.Ok.foldl {α : Type} {f : State → α → State} (l : List α) {s : State} (h : s.Ok)
    (hf : ∀ (s : State) (a : α), s.Ok → (f s a).Ok) : (l.foldl f s).Ok := by
  induction l generalizing s with
  | nil => exact h
  | cons a t ih => exact ih (hf s a h)

theorem Core.Ok.foldl {α : Type} {f : Core → α → Core} (l : List α) {c : Core} (h : c.Ok)
    (hf : ∀ (c : Core) (a : α), c.Ok → (f c a).Ok) : (l.foldl f c).Ok := by
  induction l generalizing c with
  | nil => exact h
  | cons a t ih => exact ih (hf c a h)

/-! ### Cores -/

theorem Core.idle_ok : Core.idle.Ok := by
  refine ⟨Nat.le_refl 16, ?_, ?_, ?_, ?_, ?_, fun k h => nomatch h⟩ <;>
    simp [Core.idle, Csrs.reset, TrapCsrs.reset, fld]

section Fields
variable {rmax : BitVec 5} {rseq : BitVec 34} {mpc tvec : BitVec 48} {tslot : BitVec 12} {tloop : DWord} {ctx : Option (BitVec 16)}
  {h0 : Cap} {tag0 : Bool}

theorem FieldsOk.withRmax {a : BitVec 5} (h : FieldsOk rmax rseq mpc tvec tslot tloop ctx h0 tag0) (ha : a.toNat ≤ 16) :
    FieldsOk a rseq mpc tvec tslot tloop ctx h0 tag0 := ⟨ha, h.2⟩
theorem FieldsOk.withRseq {a : BitVec 34} (h : FieldsOk rmax rseq mpc tvec tslot tloop ctx h0 tag0) (ha : (fld a 30 4).toNat ≤ 10) :
    FieldsOk rmax a mpc tvec tslot tloop ctx h0 tag0 := ⟨h.1, ha, h.2.2⟩
theorem FieldsOk.withMpc {a : BitVec 48} (h : FieldsOk rmax rseq mpc tvec tslot tloop ctx h0 tag0) (ha : a &&& 3 = 0) :
    FieldsOk rmax rseq a tvec tslot tloop ctx h0 tag0 := ⟨h.1, h.2.1, ha, h.2.2.2⟩
theorem FieldsOk.withTvec {a : BitVec 48} (h : FieldsOk rmax rseq mpc tvec tslot tloop ctx h0 tag0) (ha : a &&& 0x7E = 0) :
    FieldsOk rmax rseq mpc a tslot tloop ctx h0 tag0 := ⟨h.1, h.2.1, h.2.2.1, ha, h.2.2.2.2⟩
theorem FieldsOk.withTslot {a : BitVec 12} (h : FieldsOk rmax rseq mpc tvec tslot tloop ctx h0 tag0) (ha : a &&& 0x0F8 = 0) :
    FieldsOk rmax rseq mpc tvec a tloop ctx h0 tag0 := ⟨h.1, h.2.1, h.2.2.1, h.2.2.2.1, ha, h.2.2.2.2.2⟩
theorem FieldsOk.withTloop {a : DWord} (h : FieldsOk rmax rseq mpc tvec tslot tloop ctx h0 tag0)
    (ha : a &&& 0x7FFFFFFFFFFC0000 = 0) : FieldsOk rmax rseq mpc tvec tslot a ctx h0 tag0 :=
  ⟨h.1, h.2.1, h.2.2.1, h.2.2.2.1, h.2.2.2.2.1, ha, h.2.2.2.2.2.2⟩

end Fields

/-- Masked bits are clear of every mask beside them. -/
theorem and_and_zero {w : Nat} (x m k : BitVec w) (h : m &&& k = 0) : x &&& m &&& k = 0 := by
  rw [BitVec.and_assoc, h]; simp

theorem State.Ok.core {s : State} (h : s.Ok) (n : Nat) : (s.core n).Ok := by
  rcases lookupD_mem Core.idle s.cores n with e | ⟨k, e⟩
  · show (lookupD Core.idle s.cores n).Ok
    rw [e]; exact Core.idle_ok
  · exact h.2.2.2.2.1 _ e

theorem State.Ok.cur {s : State} (h : s.Ok) : s.cur.Ok := h.core _

theorem rising_iff {α : Type} (l : List (Nat × α)) : rising l = true ↔ l.Pairwise (fun a b => a.1 < b.1) := by
  induction l with
  | nil => simp [rising]
  | cons a t ih =>
    cases t with
    | nil => simp [rising]
    | cons b u =>
      rw [rising, Bool.and_eq_true, ih, decide_eq_true_eq]
      constructor
      · rintro ⟨hab, hb⟩
        refine List.pairwise_cons.2 ⟨fun c hc => ?_, hb⟩
        rcases List.mem_cons.1 hc with rfl | hc
        · exact hab
        · exact hab.trans ((List.pairwise_cons.1 hb).1 c hc)
      · intro h
        exact ⟨(List.pairwise_cons.1 h).1 b (by simp), (List.pairwise_cons.1 h).2⟩

theorem insertAt_rising {α : Type} {l : List (Nat × α)} (n : Nat) (a : α) (h : rising l = true) : rising (insertAt l n a) = true := by
  rw [rising_iff] at h ⊢
  induction l with
  | nil => simp [insertAt]
  | cons b t ih =>
    have hb := List.pairwise_cons.1 h
    obtain ⟨k, b⟩ := b
    simp only [insertAt]
    split
    · rename_i hk
      refine List.pairwise_cons.2 ⟨fun c hc => ?_, h⟩
      rcases List.mem_cons.1 hc with rfl | hc
      · exact hk
      · exact Nat.lt_trans hk (hb.1 c hc)
    · split
      · rename_i hk hn
        subst hn
        exact List.pairwise_cons.2 ⟨hb.1, hb.2⟩
      · refine List.pairwise_cons.2 ⟨fun c hc => ?_, ih hb.2⟩
        rcases mem_insertAt hc with rfl | hc
        · show k < n; omega
        · exact hb.1 c hc

theorem map_rising {α β : Type} {l : List (Nat × α)} (f : Nat × α → Nat × β) (hf : ∀ e, (f e).1 = e.1) (h : rising l = true) :
    rising (l.map f) = true := by
  rw [rising_iff] at h ⊢
  rw [List.pairwise_map]
  exact h.imp (by simp [hf])

theorem State.setCore_ok {s : State} {c : Core} (n : Nat) (h : s.Ok) (hc : c.Ok) : (s.setCore n c).Ok := by
  obtain ⟨h1, h2, h3, h4, h5, h6⟩ := h
  refine ⟨h1, h2, h3, insertAt_rising n c h4, fun e he => ?_, h6⟩
  rcases mem_insertAt he with rfl | he
  · exact hc
  · exact h5 e he

theorem State.setCur_ok {s : State} {c : Core} (h : s.Ok) (hc : c.Ok) : (s.setCur c).Ok := State.setCore_ok _ h hc

/-- Replacing every core, number by number. -/
theorem ListsOk.mapCores {mem : List Host.Cell} {tags marks : List Nat} {cores : List (Nat × Core)} {saved : List Saved}
    {f : Nat × Core → Nat × Core} (h : ListsOk mem tags marks cores saved) (h1 : ∀ e, (f e).1 = e.1)
    (h2 : ∀ e : Nat × Core, e.2.Ok → (f e).2.Ok) : ListsOk mem tags marks (cores.map f) saved := by
  obtain ⟨a, b, c, d, e, g⟩ := h
  refine ⟨a, b, c, map_rising f h1 d, fun x hx => ?_, g⟩
  obtain ⟨y, hy, rfl⟩ := List.mem_map.1 hx
  exact h2 y (e y hy)

theorem ListsOk.filterSaved {mem : List Host.Cell} {tags marks : List Nat} {cores : List (Nat × Core)} {saved : List Saved}
    {p : Saved → Bool} (h : ListsOk mem tags marks cores saved) : ListsOk mem tags marks cores (saved.filter p) :=
  ⟨h.1, h.2.1, h.2.2.1, h.2.2.2.1, h.2.2.2.2.1, fun v hv => h.2.2.2.2.2 v (List.mem_filter.1 hv).1⟩

theorem ListsOk.mapSaved {mem : List Host.Cell} {tags marks : List Nat} {cores : List (Nat × Core)} {saved : List Saved}
    {f : Saved → Saved} (h : ListsOk mem tags marks cores saved) (hf : ∀ v : Saved, v.core.Ok → (f v).core.Ok) :
    ListsOk mem tags marks cores (saved.map f) := by
  refine ⟨h.1, h.2.1, h.2.2.1, h.2.2.2.1, h.2.2.2.2.1, fun v hv => ?_⟩
  obtain ⟨w, hw, rfl⟩ := List.mem_map.1 hv
  exact hf w (h.2.2.2.2.2 w hw)

section Lists
variable {mem : List Host.Cell} {tags marks : List Nat} {cores : List (Nat × Core)} {saved : List Saved}

theorem ListsOk.withMem {mem' : List Host.Cell} (h : ListsOk mem tags marks cores saved) (h' : Memory.wf mem' = true) :
    ListsOk mem' tags marks cores saved := ⟨h', h.2⟩
theorem ListsOk.noSaved (h : ListsOk mem tags marks cores saved) : ListsOk mem tags marks cores [] :=
  ⟨h.1, h.2.1, h.2.2.1, h.2.2.2.1, h.2.2.2.2.1, fun _ hv => nomatch hv⟩
theorem ListsOk.addMarks {l : List Nat} (h : ListsOk mem tags marks cores saved) :
    ListsOk mem tags (l.foldl KeySet.add marks) cores saved := ⟨h.1, h.2.1, KeySet.foldl_add_wf _ h.2.2.1, h.2.2.2⟩
theorem ListsOk.addMark {k : Nat} (h : ListsOk mem tags marks cores saved) : ListsOk mem tags (KeySet.add marks k) cores saved :=
  ⟨h.1, h.2.1, KeySet.add_wf _ h.2.2.1, h.2.2.2⟩
theorem ListsOk.delMark {k : Nat} (h : ListsOk mem tags marks cores saved) : ListsOk mem tags (KeySet.del marks k) cores saved :=
  ⟨h.1, h.2.1, KeySet.del_wf _ h.2.2.1, h.2.2.2⟩
theorem ListsOk.writeList {k : Nat} {bs : List Byte} (h : ListsOk mem tags marks cores saved) :
    ListsOk (Memory.writeList mem k bs) tags marks cores saved := h.withMem (Memory.writeList_wf _ _ h.1)
theorem ListsOk.delMarks {l : List Nat} (h : ListsOk mem tags marks cores saved) :
    ListsOk mem tags (l.foldl KeySet.del marks) cores saved := ⟨h.1, h.2.1, KeySet.foldl_del_wf _ h.2.2.1, h.2.2.2⟩
theorem ListsOk.addTags {l : List Nat} (h : ListsOk mem tags marks cores saved) :
    ListsOk mem (l.foldl KeySet.add tags) marks cores saved := ⟨h.1, KeySet.foldl_add_wf _ h.2.1, h.2.2⟩

end Lists

/-! ### Arrays -/

theorem State.store_ok {s : State} (k : Nat) (bs : List Byte) (h : s.Ok) : (s.store k bs).Ok :=
  ⟨Memory.writeList_wf _ _ h.1, KeySet.foldl_del_wf _ h.2.1, KeySet.foldl_del_wf _ h.2.2.1, h.2.2.2⟩

theorem State.storeNat_ok {s : State} (k n v : Nat) (h : s.Ok) : (s.storeNat k n v).Ok := State.store_ok _ _ h

theorem State.storeEach_ok {s : State} (l : List (Nat × Byte)) (h : s.Ok) : (s.storeEach l).Ok := by
  induction l generalizing s with
  | nil => exact h
  | cons a t ih => exact ih ⟨Memory.write_wf _ _ h.1, KeySet.del_wf _ h.2.1, h.2.2⟩

theorem State.mark_ok {s : State} (k n : Nat) (h : s.Ok) : (s.mark k n).Ok :=
  ⟨h.1, h.2.1, KeySet.foldl_add_wf _ h.2.2.1, h.2.2.2⟩

theorem State.Ok.addTag {s : State} (h : s.Ok) (g : Nat) : ({ s with tags := KeySet.add s.tags g } : State).Ok :=
  ⟨h.1, KeySet.add_wf _ h.2.1, h.2.2⟩

theorem State.Ok.withFree {s : State} (h : s.Ok) (f : Nat) : ({ s with free := f } : State).Ok := h

theorem State.storeTagged_ok {s : State} (k : Nat) (v : Cap) (t : Bool) (h : s.Ok) : (s.storeTagged k v t).Ok := by
  have h' := State.storeNat_ok k 32 v.toNat h
  unfold State.storeTagged
  dsimp only
  split
  · exact h'.addTag _
  · exact h'

theorem State.scrub_ok {s : State} (sp : MSpace) (u o l : Nat) (h : s.Ok) : (s.scrub sp u o l).Ok :=
  ⟨Memory.clear_wf _ _ h.1, KeySet.clear_wf _ _ h.2.1, KeySet.clear_wf _ _ h.2.2.1, h.2.2.2⟩

/-! ### Registers of a core -/

theorem Core.wx_ok {c : Core} (r : XReg) (v : DWord) (h : c.Ok) : (c.wx r v).Ok := by
  unfold Core.wx; split <;> exact h
theorem Core.markX_ok {c : Core} (r : XReg) (h : c.Ok) : (c.markX r).Ok := by
  unfold Core.markX; split <;> exact h
theorem Core.wv_ok {c : Core} (k : Nat) (m v : Vec) (h : c.Ok) : (c.wv k m v).Ok := by
  unfold Core.wv; split <;> exact h
theorem Core.markV_ok {c : Core} (k : Nat) (m : BitVec 16) (h : c.Ok) : (c.markV k m).Ok := by
  unfold Core.markV; split <;> exact h
theorem Core.wp_ok {c : Core} (k : Nat) (m v : Pred) (h : c.Ok) : (c.wp k m v).Ok := by
  unfold Core.wp; split <;> exact h
theorem Core.markH_ok {c : Core} (r : HReg) (h : c.Ok) : (c.markH r).Ok := by
  unfold Core.markH; split <;> exact h
theorem Core.setTile_ok {c : Core} (m : MReg) (t : Tile) (h : c.Ok) : (c.setTile m t).Ok := h
theorem Core.setSlot_ok {c : Core} (o : OSlot) (t : SlotSt) (h : c.Ok) : (c.setSlot o t).Ok := h
theorem Core.flag_ok {c : Core} (f : Flags) (h : c.Ok) : (c.flag f).Ok := h
theorem Core.push_ok {c : Core} (p : Pend) (h : c.Ok) : (c.push p).Ok := h

theorem setBit_other {w : Nat} (x : BitVec w) {n k : Nat} (b : Bool) (h : n ≠ k) : (setBit x n b).getLsbD k = x.getLsbD k := by
  unfold setBit
  split
  · simp [BitVec.getLsbD_or, BitVec.getLsbD_twoPow, h]
  · by_cases hk : k < w
    · have : ¬k = n := fun e => h e.symm
      simp [hk, this]
    · simp [BitVec.getLsbD_of_ge _ _ (Nat.le_of_not_lt hk)]

theorem setBit_self {w : Nat} (x : BitVec w) (n : Nat) (b : Bool) (h : n < w) : (setBit x n b).getLsbD n = b := by
  unfold setBit
  split <;> rename_i hb <;> simp [BitVec.getLsbD_or, BitVec.getLsbD_twoPow, h, hb]

/-- h0 is never written (R48). -/
theorem Core.wh_ok {c : Core} (r : HReg) (v : Cap) (t : Bool) (h : c.Ok) : (c.wh r v t).Ok := by
  unfold Core.wh
  split
  · exact h
  · rename_i hr
    have hr' : r.toNat ≠ 0 := fun e => hr (BitVec.eq_of_toNat_eq e)
    have e1 : (c.r.h.set r.toNat v)[0] = c.r.h[0] := Vector.getElem_set_ne (by omega) (by omega) hr'
    have e2 : (setBit c.r.htag r.toNat t).getLsbD 0 = c.r.htag.getLsbD 0 := setBit_other _ _ hr'
    show FieldsOk _ _ _ _ _ _ _ ((c.r.h.set r.toNat v)[0]) ((setBit c.r.htag r.toNat t).getLsbD 0)
    rw [e1, e2]; exact h

end Sys2Proof.Machine
end

