-- ==== Sys2Proof/Laws/OkContain.lean ====
section
/-! SUPPORT. Every operation of Machine/Contain.lean keeps a sound state sound. -/

namespace Sys2Proof.Machine

theorem State.setSched_ok' {s : State} {q : Sched} (h : s.Ok) (hq : ∀ v ∈ q.saved, v.core.Ok) : (s.setSched q).Ok :=
  ⟨h.1, h.2.1, h.2.2.1, h.2.2.2.1, h.2.2.2.2.1, hq⟩

theorem State.setSched_ok {s : State} {q : Sched} (h : s.Ok) (e : q.saved = s.dev.sched.saved) : (s.setSched q).Ok :=
  State.setSched_ok' h (by rw [e]; exact h.2.2.2.2.2)

theorem State.setLaunch_ok {s : State} (l : Launch) (hs : s.Ok) : (State.setLaunch s l).Ok := by
  unfold State.setLaunch
  repeat' first
    | with_reducible assumption | with_reducible apply State.setSched_ok | with_reducible rfl

theorem State.setMs_ok {s : State} (m : MemSys) (hs : s.Ok) : (State.setMs s m).Ok := by
  unfold State.setMs
  with_reducible assumption

theorem State.cleanL1_ok {s : State} (sel : Nat → CLine → Bool) (hs : s.Ok) :
    (State.cleanL1 s sel).Ok := by
  unfold State.cleanL1
  repeat' first
    | with_reducible assumption
    | with_reducible apply State.setMs_ok
    | with_reducible apply State.Ok.foldl
    | with_reducible apply Core.Ok.foldl
    | with_reducible apply ListsOk.mapCores
    | with_reducible rfl
    | with_reducible apply State.Ok.core
    | with_reducible apply State.Ok.cur
    | with_reducible refine State.Ok.ofPair (by with_reducible assumption) ?_
    | with_reducible refine State.Ok.ofSome (by with_reducible assumption) ?_
    | intro _
    | extract_lets
    | split
    | with_reducible apply State.Ok.ite
    | with_reducible apply Core.Ok.ite

theorem Core.freed_ok {c : Core} (h : c.Ok) : c.freed.Ok :=
  ⟨h.1, h.2.1, h.2.2.1, h.2.2.2.1, h.2.2.2.2.1, h.2.2.2.2.2.1, fun _ e => nomatch e⟩

theorem Core.emptied_ok {c : Core} (hc : c.Ok) :
    (Core.emptied c).Ok := by
  unfold Core.emptied
  repeat' first
    | with_reducible assumption
    | intro _
    | extract_lets
    | split
    | with_reducible apply State.Ok.ite
    | with_reducible apply Core.Ok.ite

theorem Core.killed_ok {c : Core} (h : c.Ok) : c.killed.Ok := by
  unfold Core.killed
  extract_lets
  split
  · exact Core.freed_ok h
  · exact h

theorem State.cancelJobs_ok {s : State} (uid : Nat) (hs : s.Ok) : (State.cancelJobs s uid).Ok := by
  unfold State.cancelJobs
  with_reducible assumption

theorem State.endOf_ok {s : State} (t : Task) (hs : s.Ok) : (State.endOf s t).Ok := by
  unfold State.endOf
  repeat' first
    | with_reducible assumption | with_reducible apply State.setLaunch_ok | split

theorem State.killEnd_ok {s : State} (die : Nat) (t : Task) (hs : s.Ok) :
    (State.killEnd s die t).Ok := by
  unfold State.killEnd
  repeat' first
    | with_reducible assumption
    | with_reducible apply State.setLaunch_ok
    | with_reducible apply State.endOf_ok
    | with_reducible apply State.Ok.getD
    | with_reducible refine State.Ok.ofPair (by with_reducible assumption) ?_
    | with_reducible refine State.Ok.ofSome (by with_reducible assumption) ?_
    | intro _
    | extract_lets
    | split
    | with_reducible apply State.Ok.ite
    | with_reducible apply Core.Ok.ite

theorem State.unhold_ok {s : State} (uid : Nat) (hs : s.Ok) : (State.unhold s uid).Ok := by
  unfold State.unhold
  with_reducible assumption

theorem State.dropRequests_ok {s : State} (n : Nat) (kept : List Access) (hs : s.Ok) : (State.dropRequests s n kept).Ok := by
  unfold State.dropRequests
  with_reducible assumption

theorem State.killCore_ok {s : State} (n : Nat) (hs : s.Ok) :
    (State.killCore s n).Ok := by
  unfold State.killCore
  repeat' first
    | with_reducible assumption
    | with_reducible apply Launch.core_ok
    | with_reducible apply State.cleanL1_ok
    | with_reducible apply Core.killed_ok
    | with_reducible apply State.dropRequests_ok
    | with_reducible apply State.cancelJobs_ok
    | with_reducible apply State.killEnd_ok
    | with_reducible apply State.setCore_ok
    | with_reducible apply State.Ok.core
    | with_reducible apply State.Ok.cur
    | with_reducible refine State.Ok.ofPair (by with_reducible assumption) ?_
    | with_reducible refine State.Ok.ofSome (by with_reducible assumption) ?_
    | intro _
    | extract_lets
    | split
    | with_reducible apply State.Ok.ite
    | with_reducible apply Core.Ok.ite

theorem State.killSaved_ok {s : State} (v : Saved) (h : s.Ok) : (s.killSaved v).Ok := by
  unfold State.killSaved
  apply State.killEnd_ok
  apply State.cancelJobs_ok
  apply State.unhold_ok
  exact ListsOk.filterSaved h

theorem State.killGroup_ok {s : State} (l : Launch) (k : Nat) (g : Nat) (hs : s.Ok) : (State.killGroup s l k g).Ok := by
  unfold State.killGroup
  repeat' first
    | with_reducible assumption
    | with_reducible apply State.killCore_ok
    | with_reducible apply State.killSaved_ok
    | with_reducible apply State.setLaunch_ok
    | with_reducible apply State.Ok.foldl
    | extract_lets
    | split

theorem State.restartGroup_ok {s : State} (l0 : Launch) (l : Launch) (was : List Nat) (k : Nat) (g : Nat) (hs : s.Ok) : (State.restartGroup s l0 l was k g).Ok := by
  unfold State.restartGroup
  repeat' first
    | with_reducible assumption
    | with_reducible apply State.killCore_ok
    | with_reducible apply State.killSaved_ok
    | with_reducible apply State.setLaunch_ok
    | with_reducible apply State.Ok.foldl
    | extract_lets
    | split

theorem State.packetOutcome_ok {s : State} (pid : Nat) (cause : BitVec 8) (hs : s.Ok) : (State.packetOutcome s pid cause).Ok := by
  unfold State.packetOutcome
  repeat' first
    | with_reducible assumption | with_reducible apply State.setSched_ok | with_reducible rfl

theorem State.abortLaunch_ok {s : State} (l : Launch) (cause : BitVec 8) (hs : s.Ok) : (State.abortLaunch s l cause).Ok := by
  unfold State.abortLaunch
  repeat' first
    | with_reducible assumption
    | with_reducible apply State.killCore_ok
    | with_reducible apply State.killSaved_ok
    | with_reducible apply State.packetOutcome_ok
    | with_reducible apply State.setSched_ok
    | with_reducible rfl
    | with_reducible apply State.Ok.foldl

theorem State.zeroHolder_ok {s : State} (n : Nat) (h : Holder) (hs : s.Ok) : (State.zeroHolder s n h).Ok := by
  unfold State.zeroHolder
  repeat' first
    | with_reducible assumption
    | with_reducible apply Core.setSlot_ok
    | with_reducible apply Core.wh_ok
    | with_reducible apply Core.wv_ok
    | with_reducible apply Core.wx_ok
    | with_reducible apply State.storeNat_ok
    | with_reducible apply State.setCore_ok
    | with_reducible apply ListsOk.mapCores
    | with_reducible rfl
    | with_reducible apply State.Ok.core
    | intro _
    | extract_lets
    | split

theorem State.setClog_ok {s : State} (die : Nat) (l : CLog) (hs : s.Ok) : (State.setClog s die l).Ok := by
  unfold State.setClog
  repeat' first
    | with_reducible assumption | with_reducible apply State.setSched_ok | with_reducible rfl

theorem State.logDecision_ok {s : State} (v : Verdict392) (level : Nat) (action : BitVec 2) (tries : Nat) (hs : s.Ok) : (State.logDecision s v level action tries).Ok := by
  unfold State.logDecision
  repeat' first
    | with_reducible assumption | with_reducible apply State.setClog_ok

theorem State.zeroSubst_ok {s : State} (n : Nat) (v : Verdict392) (hs : s.Ok) : (State.zeroSubst s n v).Ok := by
  unfold State.zeroSubst
  repeat' first
    | with_reducible assumption
    | with_reducible apply State.setClog_ok
    | with_reducible apply State.zeroHolder_ok
    | with_reducible apply State.setCore_ok
    | with_reducible apply State.Ok.core
    | with_reducible apply State.Ok.foldl
    | intro _

theorem State.containFrom_ok (n : Nat) (v : Verdict392) (l0 : Launch) (was : List Nat) (ks : List Nat) {s : State} (h : s.Ok) :
    (State.containFrom n v l0 was ks s).Ok := by
  induction ks generalizing s with
  | nil => exact h
  | cons k up ih =>
    unfold State.containFrom
    dsimp only
    split
    · exact State.logDecision_ok _ _ _ _ (State.zeroSubst_ok _ _ h)
    · split
      · exact State.logDecision_ok _ _ _ _ (State.restartGroup_ok _ _ _ _ _ (State.setLaunch_ok _ h))
      · split
        · exact State.logDecision_ok _ _ _ _ (State.killGroup_ok _ _ _ h)
        · split
          · exact State.logDecision_ok _ _ _ _ (State.abortLaunch_ok _ _ (State.killGroup_ok _ _ _ h))
          · exact ih (State.killGroup_ok _ _ _ h)

theorem State.containTask_ok {s : State} (n : Nat) (v : Verdict392) (hs : s.Ok) : (State.containTask s n v).Ok := by
  unfold State.containTask
  repeat' first
    | with_reducible assumption
    | with_reducible apply State.containFrom_ok
    | with_reducible apply State.killCore_ok
    | with_reducible apply State.logDecision_ok
    | split

theorem State.contain_ok {s : State} (n : Nat) (t : Trap) (double : Bool) (hs : s.Ok) : (State.contain s n t double).Ok := by
  unfold State.contain
  repeat' first
    | with_reducible assumption | with_reducible apply State.containTask_ok | split

end Sys2Proof.Machine
end

