-- ==== Sys2Proof/Laws/OkOps.lean ====
section
/-! SUPPORT. Every operation of Machine/Ops.lean keeps a sound state sound. -/

namespace Sys2Proof.Machine

theorem ite_le_sixteen (k : BitVec 5) : (if 16 < k.toNat then 16 else k : BitVec 5).toNat ≤ 16 := by
  split
  · exact Nat.le_refl 16
  · omega

theorem ite_count_ok (k : BitVec 34) :
    (fld (if 10 < (fld k 30 4).toNat then 10#4 ++ fld k 0 30 else k : BitVec 34) 30 4).toNat ≤ 10 := by
  split
  · have e : fld (10#4 ++ fld k 0 30 : BitVec 34) 30 4 = 10#4 := by
      apply BitVec.eq_of_getLsbD_eq
      intro i hi
      simp only [fld, BitVec.getLsbD_extractLsb', BitVec.getLsbD_append]
      rw [if_neg (by omega)]
      simp [hi]
    rw [e]; decide
  · omega

/-- The writable masks of R51. -/
theorem masks_apart :
    (~~~3 &&& 3 : BitVec 48) = 0 ∧ (~~~0x7E &&& 0x7E : BitVec 48) = 0 ∧ (0xF07 &&& 0x0F8 : BitVec 12) = 0 ∧
      (0x800000000003FFFF &&& 0x7FFFFFFFFFFC0000 : DWord) = 0 := by
  refine ⟨?_, ?_, ?_, ?_⟩ <;> rfl

theorem Core.applyCsr_ok {c : Core} (w : CsrWrite) (hc : c.Ok) : (c.applyCsr w).Ok := by
  unfold Core.applyCsr
  extract_lets v m put k5 k34 cnt
  split
  case h_5 => exact hc.withRmax (ite_le_sixteen _)
  case h_6 => exact hc.withRseq (ite_count_ok _)
  case h_7 => exact hc.withMpc (and_and_zero _ _ _ masks_apart.1)
  case h_9 => exact hc.withTvec (and_and_zero _ _ _ masks_apart.2.1)
  case h_13 => exact hc.withTslot (and_and_zero _ _ _ masks_apart.2.2.1)
  case h_15 => exact hc.withTloop (and_and_zero _ _ _ masks_apart.2.2.2)
  all_goals exact hc

theorem applyWrite_ok (n : Nat) (w : Write) {s : State} (hs : s.Ok) : (applyWrite n w s).Ok := by
  have hc : (s.core n).Ok := hs.core n
  unfold applyWrite
  dsimp only
  split
  case h_9 => exact State.setCore_ok n hs (hc.withMpc (and_and_zero _ _ _ masks_apart.1))
  all_goals
    repeat' first
      | with_reducible assumption
      | with_reducible apply State.storeNat_ok
      | with_reducible apply State.setCore_ok
      | with_reducible apply Core.wx_ok
      | with_reducible apply Core.wv_ok
      | with_reducible apply Core.wp_ok
      | with_reducible apply Core.wh_ok
      | with_reducible apply Core.markX_ok
      | with_reducible apply Core.markV_ok
      | with_reducible apply Core.markH_ok
      | with_reducible apply Core.applyCsr_ok
      | with_reducible apply Core.setSlot_ok
      | with_reducible apply Core.setTile_ok

theorem State.writePend_ok {s : State} (n : Nat) (p : Pend → Bool) (hs : s.Ok) : (State.writePend s n p).Ok := by
  unfold State.writePend
  extract_lets due s1 c
  have h1 : s1.Ok := hs.foldl _ fun s p h => applyWrite_ok n p.w h
  exact State.setCore_ok n h1 (Core.Ok.foldl _ (h1.core n) fun c p h => Core.flag_ok p.flags h)

theorem Core.addX_ok {c : Core} (r : XReg) (e : DWord) (hc : c.Ok) :
    (Core.addX c r e).Ok := by
  unfold Core.addX
  repeat' first
    | with_reducible assumption
    | with_reducible apply Core.wx_ok
    | with_reducible apply Core.markX_ok
    | intro _
    | extract_lets
    | split
    | with_reducible apply State.Ok.ite
    | with_reducible apply Core.Ok.ite

theorem Core.writeExps_ok {c : Core} (hc : c.Ok) :
    (Core.writeExps c).Ok := by
  unfold Core.writeExps
  repeat' first
    | with_reducible assumption
    | with_reducible apply Core.addX_ok
    | with_reducible apply State.Ok.foldl
    | with_reducible apply Core.Ok.foldl
    | with_reducible refine State.Ok.ofPair (by with_reducible assumption) ?_
    | with_reducible refine State.Ok.ofSome (by with_reducible assumption) ?_
    | intro _
    | extract_lets
    | split
    | with_reducible apply State.Ok.ite
    | with_reducible apply Core.Ok.ite

theorem State.flushEntry_ok {s : State} (n : Nat) (hs : s.Ok) : (State.flushEntry s n).Ok :=
  State.setCore_ok n (State.writePend_ok n _ hs) (Core.writeExps_ok ((State.writePend_ok n _ hs).core n))

theorem slot_code_and (r : BitVec 4) (sl : Slot) : (r ++ 0#5 ++ sl.code : BitVec 12) &&& 0x0F8 = 0 := by
  revert r
  cases sl <;> decide

theorem loop_field_and (lv : BitVec 2) (st : BitVec 16) :
    (1#1 ++ 0#45 ++ lv ++ st : BitVec 64) &&& 0x7FFFFFFFFFFC0000 = 0 := by
  apply BitVec.eq_of_getLsbD_eq
  intro i hi
  have hk : ∀ j < 64, (0x7FFFFFFFFFFC0000 : DWord).getLsbD j = (decide (18 ≤ j) && decide (j < 63)) := by decide
  simp only [BitVec.getLsbD_and, BitVec.getLsbD_append, BitVec.getLsbD_zero]
  rw [hk i hi]
  by_cases h1 : 18 ≤ i
  · by_cases h2 : i < 63
    · rw [if_neg (by omega), if_neg (by omega), if_pos (by omega)]
      simp
    · simp [h2]
  · simp [h1]

/-- Entry writes zero into the reserved fields of TSLOT and TLOOP (R386). -/
theorem FieldsOk.ofTrapCsrs {c : Core} (hc : c.Ok) (c' : Core) (t : Trap) :
    FieldsOk c.c.rmax c.c.rseq c.c.mpc c.c.tvec (trapCsrs c' t).slot (trapCsrs c' t).loop (c.task.map (·.ctx)) c.r.h[0]
      (c.r.htag.getLsbD 0) := by
  refine (hc.withTslot (slot_code_and _ _)).withTloop ?_
  unfold trapCsrs
  dsimp only
  split
  · exact loop_field_and _ _
  · simp

theorem takeTrap_ok (n : Nat) (t : Trap) {s : State} (hs : s.Ok) : (takeTrap n t s).Ok := by
  have h1 : (s.flushEntry n).Ok := State.flushEntry_ok n hs
  have hc : ((s.flushEntry n).core n).Ok := h1.core n
  unfold takeTrap
  dsimp only
  repeat' first
    | with_reducible assumption
    | with_reducible apply State.contain_ok
    | with_reducible apply State.setCore_ok
    | with_reducible exact FieldsOk.ofTrapCsrs hc _ _
    | split

theorem State.raise_ok {s : State} (t : Trap) (hs : s.Ok) : (State.raise s t).Ok := by
  unfold State.raise
  repeat' first
    | with_reducible assumption | with_reducible apply takeTrap_ok

theorem State.trap_ok {s : State} (cause : BitVec 8) (tval : DWord) (hs : s.Ok) : OutOk (State.trap s cause tval) := by
  unfold State.trap
  repeat' first
    | with_reducible assumption | with_reducible apply outOk_next | with_reducible apply State.raise_ok

theorem State.illegal_ok {s : State} (i : Instr) (hs : s.Ok) : OutOk (State.illegal s i) := by
  unfold State.illegal
  repeat' first
    | with_reducible assumption | with_reducible apply State.trap_ok

theorem slotOp_ok (i : Instr) {s : State} {k : Core → Except Fail Core} (hs : s.Ok) (hk : ∀ c : Core, c.Ok → CoreExOk (k c)) :
    OutOk (slotOp i s k) := by
  unfold slotOp
  split
  · exact outOk_next (State.raise_ok _ hs)
  · split
    · rename_i e
      exact outOk_next (State.setCur_ok hs (Core.Ok.ofExcept e (hk _ hs.cur)))
    · exact State.trap_ok _ _ hs

theorem slotOpS_ok (i : Instr) {s : State} {k : State → Core → Except Fail State} (hs : s.Ok)
    (hk : ∀ (s : State) (c : Core), s.Ok → c.Ok → ExOk (k s c)) : OutOk (slotOpS i s k) := by
  unfold slotOpS
  split
  · exact outOk_next (State.raise_ok _ hs)
  · split
    · rename_i e
      exact outOk_next (State.Ok.ofExcept e (hk _ _ hs hs.cur))
    · exact State.trap_ok _ _ hs

theorem slotOpE_ok (i : Instr) (els : Core → List (Nat × Nat)) {s : State} {k : State → Core → Except Fail State} (hs : s.Ok)
    (hk : ∀ (s : State) (c : Core), s.Ok → c.Ok → ExOk (k s c)) : OutOk (slotOpE i els s k) := by
  unfold slotOpE
  split
  · exact outOk_next (State.raise_ok _ hs)
  · split
    · rename_i e
      exact outOk_next (State.Ok.ofExcept e (hk _ _ hs hs.cur))
    · exact outOk_next (State.raise_ok _ hs)

theorem tretReturn_ok (n : Nat) {s : State} (hs : s.Ok) : (tretReturn n s).Ok := by
  unfold tretReturn
  extract_lets s1 c
  have h1 : s1.Ok := State.writePend_ok n _ hs
  have hc : c.Ok := h1.core n
  split
  · exact State.setCore_ok n h1 hc
  · exact h1

theorem mpcNext_and (m : BitVec 48) (h : m &&& 3 = 0) : mpcNext m &&& 3 = 0 := by
  have key : ∀ a : BitVec 48, a.toNat % 4 = 0 ↔ a &&& 3 = 0 := by
    intro a
    have e : (a &&& 3#48).toNat = a.toNat % 4 := by
      rw [BitVec.toNat_and]
      exact Nat.and_two_pow_sub_one_eq_mod a.toNat 2
    constructor
    · intro ha; exact BitVec.eq_of_toNat_eq (by simpa [ha] using e)
    · intro ha; rw [← e]; exact congrArg BitVec.toNat ha
  rw [← key] at h ⊢
  unfold mpcNext
  split
  · rw [BitVec.toNat_add]; simp; omega
  · rw [BitVec.toNat_add]; simp; omega

theorem matOpL_ok (i : Instr) {s : State} {marks : Core → Word → List Holder} {k : State → Core → Word → Except Fail State}
    (hs : s.Ok) (hk : ∀ (s : State) (c : Core) (l : Word), s.Ok → c.Ok → ExOk (k s c l)) : OutOk (matOpL i s marks k) := by
  unfold matOpL
  extract_lets c lit
  split
  · exact outOk_next (State.raise_ok _ hs)
  · split
    · exact State.trap_ok _ _ hs
    · split
      · exact State.trap_ok _ _ hs
      · split
        · exact State.trap_ok _ _ hs
        · exact outOk_next (State.raise_ok _ hs)
        · rename_i s' e _
          have h' : s'.Ok := State.Ok.ofExcept e (hk _ _ _ hs hs.cur)
          exact outOk_next (State.setCur_ok h' (h'.cur.withMpc (mpcNext_and _ hs.cur.2.2.1)))

theorem matOp_ok (i : Instr) {s : State} {k : State → Core → Word → Except Fail State} (hs : s.Ok)
    (hk : ∀ (s : State) (c : Core) (l : Word), s.Ok → c.Ok → ExOk (k s c l)) : OutOk (matOp i s k) := matOpL_ok i hs hk

end Sys2Proof.Machine
end

