-- ==== Sys2Proof/Laws/OkFlags.lean ====
section
/-! SUPPORT. Every operation of Machine/Flags.lean keeps a sound state sound. -/

namespace Sys2Proof.Machine

theorem Core.setNarrow_ok {c : Core} (b : Bool) (hc : c.Ok) : (Core.setNarrow c b).Ok := by
  unfold Core.setNarrow
  with_reducible assumption

theorem Core.fenceMark_ok {c : Core} (n : Nat) (ord : Ord) (sc : Scope) (hc : c.Ok) : (Core.fenceMark c n ord sc).Ok := by
  unfold Core.fenceMark
  repeat' first
    | with_reducible assumption | with_reducible apply Core.setNarrow_ok

theorem Core.addSt_ok {c : Core} (d : Nat) (hc : c.Ok) : (Core.addSt c d).Ok := by
  unfold Core.addSt
  with_reducible assumption

theorem Core.subSt_ok {c : Core} (hc : c.Ok) : (Core.subSt c).Ok := by
  unfold Core.subSt
  with_reducible assumption

theorem Core.addTl_ok {c : Core} (hc : c.Ok) : (Core.addTl c).Ok := by
  unfold Core.addTl
  with_reducible assumption

theorem Core.subTl_ok {c : Core} (hc : c.Ok) : (Core.subTl c).Ok := by
  unfold Core.subTl
  with_reducible assumption

theorem Core.addWl_ok {c : Core} (hc : c.Ok) : (Core.addWl c).Ok := by
  unfold Core.addWl
  with_reducible assumption

theorem Core.subWl_ok {c : Core} (hc : c.Ok) : (Core.subWl c).Ok := by
  unfold Core.subWl
  with_reducible assumption

theorem Core.addCp_ok {c : Core} (hc : c.Ok) : (Core.addCp c).Ok := by
  unfold Core.addCp
  with_reducible assumption

theorem Core.subCp_ok {c : Core} (hc : c.Ok) : (Core.subCp c).Ok := by
  unfold Core.subCp
  with_reducible assumption

end Sys2Proof.Machine
end

