-- ==== Sys2Proof/Laws/OkMcheck.lean ====
section
/-! SUPPORT. Every operation of Machine/Mcheck.lean keeps a sound state sound. -/

namespace Sys2Proof.Machine

theorem State.setMc_ok {s : State} (m : Mcheck) (hs : s.Ok) : (State.setMc s m).Ok := by
  unfold State.setMc
  with_reducible assumption

theorem State.setBank_ok {s : State} (die : Nat) (b : Nat) (v : McBank) (hs : s.Ok) : (State.setBank s die b v).Ok := by
  unfold State.setBank
  repeat' first
    | with_reducible assumption | with_reducible apply State.setMc_ok

theorem State.signalHost_ok {s : State} (v : Nat) (hs : s.Ok) : (State.signalHost s v).Ok := by
  unfold State.signalHost
  with_reducible assumption

theorem State.countCorrected_ok {s : State} (die : Nat) (b : Nat) (e : McErr) (hs : s.Ok) : (State.countCorrected s die b e).Ok := by
  unfold State.countCorrected
  repeat' first
    | with_reducible assumption
    | with_reducible apply State.setBank_ok
    | with_reducible apply State.setMc_ok
    | with_reducible apply State.signalHost_ok
    | intro _
    | extract_lets
    | split
    | with_reducible apply State.Ok.ite

theorem State.mcRecord_ok {s : State} (die : Nat) (b : Nat) (e : McErr) (hs : s.Ok) : (State.mcRecord s die b e).Ok := by
  unfold State.mcRecord
  repeat' first
    | with_reducible assumption
    | with_reducible apply State.countCorrected_ok
    | with_reducible apply State.setBank_ok
    | with_reducible apply State.setMc_ok
    | with_reducible apply State.signalHost_ok
    | intro _
    | extract_lets
    | split
    | with_reducible apply State.Ok.ite

theorem execMcErrorRecord_ok (die : Nat) (b : Nat) (e : McErr) {s : State} (hs : s.Ok) : OutOk (execMcErrorRecord die b e s) := by
  unfold execMcErrorRecord
  repeat' first
    | with_reducible assumption | with_reducible apply outOk_next | with_reducible apply State.mcRecord_ok | split

theorem execThreshWindowEnd_ok (die : Nat) (b : Nat) {s : State} (hs : s.Ok) :
    OutOk (execThreshWindowEnd die b s) := by
  unfold execThreshWindowEnd
  repeat' first
    | with_reducible assumption
    | with_reducible apply outOk_next
    | with_reducible apply State.setBank_ok
    | intro _
    | extract_lets
    | split
    | with_reducible apply State.Ok.ite
    | with_reducible apply Core.Ok.ite

theorem execMcStatusClear_ok (die : Nat) (b : Nat) (v : DWord) {s : State} (hs : s.Ok) :
    OutOk (execMcStatusClear die b v s) := by
  unfold execMcStatusClear
  repeat' first
    | with_reducible assumption
    | with_reducible apply outOk_next
    | with_reducible apply State.setBank_ok
    | intro _
    | extract_lets
    | split
    | with_reducible apply State.Ok.ite
    | with_reducible apply Core.Ok.ite

end Sys2Proof.Machine
end

