-- ==== Sys2Proof/Laws/OkVecAlu.lean ====
section
/-! SUPPORT. Every operation of Machine/VecAlu.lean keeps a sound state sound. -/

namespace Sys2Proof.Machine

theorem vecOp_ok (i : Instr) {s : State} (vd : VReg) (lat : Nat) (k : Core → VOut) (hs : s.Ok) : OutOk (vecOp i s vd lat k) := by
  unfold vecOp
  repeat' first
    | with_reducible assumption
    | with_reducible apply Core.push_ok
    | with_reducible apply slotOp_ok
    | with_reducible apply coreExOk_ok
    | intro _

theorem vBin_ok (i : Instr) (f : VrF) (lat : Nat) (op : Rm → Nat → Nat → Nat × Flags) {s : State} (hs : s.Ok) : OutOk (vBin i f lat op s) := by
  unfold vBin
  repeat' first
    | with_reducible assumption | with_reducible apply vecOp_ok

theorem vUn_ok (i : Instr) (f : VuF) (lat : Nat) (op : Rm → Nat → Nat × Flags) {s : State} (hs : s.Ok) : OutOk (vUn i f lat op s) := by
  unfold vUn
  repeat' first
    | with_reducible assumption | with_reducible apply vecOp_ok

theorem vTer_ok (i : Instr) (f : VrF) (lat : Nat) (op : Rm → Nat → Nat → Nat → Nat × Flags) {s : State} (hs : s.Ok) : OutOk (vTer i f lat op s) := by
  unfold vTer
  repeat' first
    | with_reducible assumption | with_reducible apply vecOp_ok

theorem execVadd_ok (f : VrF) {s : State} (hs : s.Ok) : OutOk (execVadd f s) := by
  unfold execVadd
  repeat' first
    | with_reducible assumption | with_reducible apply vBin_ok

theorem execVsub_ok (f : VrF) {s : State} (hs : s.Ok) : OutOk (execVsub f s) := by
  unfold execVsub
  repeat' first
    | with_reducible assumption | with_reducible apply vBin_ok

theorem execVmul_ok (f : VrF) {s : State} (hs : s.Ok) : OutOk (execVmul f s) := by
  unfold execVmul
  repeat' first
    | with_reducible assumption | with_reducible apply vBin_ok

theorem execVdiv_ok (f : VrF) {s : State} (hs : s.Ok) : OutOk (execVdiv f s) := by
  unfold execVdiv
  repeat' first
    | with_reducible assumption | with_reducible apply vBin_ok

theorem execVmin_ok (f : VrF) {s : State} (hs : s.Ok) : OutOk (execVmin f s) := by
  unfold execVmin
  repeat' first
    | with_reducible assumption | with_reducible apply vBin_ok

theorem execVmax_ok (f : VrF) {s : State} (hs : s.Ok) : OutOk (execVmax f s) := by
  unfold execVmax
  repeat' first
    | with_reducible assumption | with_reducible apply vBin_ok

theorem execVabs_ok (f : VuF) {s : State} (hs : s.Ok) : OutOk (execVabs f s) := by
  unfold execVabs
  repeat' first
    | with_reducible assumption | with_reducible apply vUn_ok

theorem execVneg_ok (f : VuF) {s : State} (hs : s.Ok) : OutOk (execVneg f s) := by
  unfold execVneg
  repeat' first
    | with_reducible assumption | with_reducible apply vUn_ok

theorem execVfma_ok (f : VrF) {s : State} (hs : s.Ok) : OutOk (execVfma f s) := by
  unfold execVfma
  repeat' first
    | with_reducible assumption | with_reducible apply vTer_ok

theorem execVfms_ok (f : VrF) {s : State} (hs : s.Ok) : OutOk (execVfms f s) := by
  unfold execVfms
  repeat' first
    | with_reducible assumption | with_reducible apply vTer_ok

theorem execVsqrt_ok (f : VuF) {s : State} (hs : s.Ok) : OutOk (execVsqrt f s) := by
  unfold execVsqrt
  repeat' first
    | with_reducible assumption | with_reducible apply vUn_ok

theorem execVrcp_ok (f : VuF) {s : State} (hs : s.Ok) : OutOk (execVrcp f s) := by
  unfold execVrcp
  repeat' first
    | with_reducible assumption | with_reducible apply vUn_ok

theorem execVrsqrt_ok (f : VuF) {s : State} (hs : s.Ok) : OutOk (execVrsqrt f s) := by
  unfold execVrsqrt
  repeat' first
    | with_reducible assumption | with_reducible apply vUn_ok

theorem execVexp2_ok (f : VuF) {s : State} (hs : s.Ok) : OutOk (execVexp2 f s) := by
  unfold execVexp2
  repeat' first
    | with_reducible assumption | with_reducible apply vUn_ok

theorem execVlog2_ok (f : VuF) {s : State} (hs : s.Ok) : OutOk (execVlog2 f s) := by
  unfold execVlog2
  repeat' first
    | with_reducible assumption | with_reducible apply vUn_ok

theorem execVand_ok (f : VrF) {s : State} (hs : s.Ok) : OutOk (execVand f s) := by
  unfold execVand
  repeat' first
    | with_reducible assumption | with_reducible apply vBin_ok

theorem execVor_ok (f : VrF) {s : State} (hs : s.Ok) : OutOk (execVor f s) := by
  unfold execVor
  repeat' first
    | with_reducible assumption | with_reducible apply vBin_ok

theorem execVxor_ok (f : VrF) {s : State} (hs : s.Ok) : OutOk (execVxor f s) := by
  unfold execVxor
  repeat' first
    | with_reducible assumption | with_reducible apply vBin_ok

theorem execVnot_ok (f : VuF) {s : State} (hs : s.Ok) : OutOk (execVnot f s) := by
  unfold execVnot
  repeat' first
    | with_reducible assumption | with_reducible apply vUn_ok

theorem execVmov_ok (f : VuF) {s : State} (hs : s.Ok) : OutOk (execVmov f s) := by
  unfold execVmov
  repeat' first
    | with_reducible assumption | with_reducible apply vUn_ok

theorem execVshl_ok (f : VrF) {s : State} (hs : s.Ok) : OutOk (execVshl f s) := by
  unfold execVshl
  repeat' first
    | with_reducible assumption | with_reducible apply vBin_ok

theorem execVshr_ok (f : VrF) {s : State} (hs : s.Ok) : OutOk (execVshr f s) := by
  unfold execVshr
  repeat' first
    | with_reducible assumption | with_reducible apply vBin_ok

theorem execVsra_ok (f : VrF) {s : State} (hs : s.Ok) : OutOk (execVsra f s) := by
  unfold execVsra
  repeat' first
    | with_reducible assumption | with_reducible apply vBin_ok

theorem execVadds_ok (f : VrF) {s : State} (hs : s.Ok) : OutOk (execVadds f s) := by
  unfold execVadds
  repeat' first
    | with_reducible assumption | with_reducible apply vBin_ok

theorem execVsubs_ok (f : VrF) {s : State} (hs : s.Ok) : OutOk (execVsubs f s) := by
  unfold execVsubs
  repeat' first
    | with_reducible assumption | with_reducible apply vBin_ok

theorem execVmulh_ok (f : VrF) {s : State} (hs : s.Ok) : OutOk (execVmulh f s) := by
  unfold execVmulh
  repeat' first
    | with_reducible assumption | with_reducible apply vBin_ok

theorem execVbcast_ok (f : VxF) {s : State} (hs : s.Ok) : OutOk (execVbcast f s) := by
  unfold execVbcast
  repeat' first
    | with_reducible assumption | with_reducible apply vecOp_ok

theorem execVmovx_ok (f : VxF) {s : State} (hs : s.Ok) : OutOk (execVmovx f s) := by
  unfold execVmovx
  repeat' first
    | with_reducible assumption | with_reducible apply vecOp_ok

theorem execViota_ok (f : VdF) {s : State} (hs : s.Ok) : OutOk (execViota f s) := by
  unfold execViota
  repeat' first
    | with_reducible assumption | with_reducible apply vecOp_ok

theorem execVli_ok (f : ViF) {s : State} (hs : s.Ok) : OutOk (execVli f s) := by
  unfold execVli
  repeat' first
    | with_reducible assumption | with_reducible apply vecOp_ok

theorem vCmp_ok (i : Instr) (f : VcF) (op : Nat → Nat → Bool × Flags) {s : State} (hs : s.Ok) : OutOk (vCmp i f op s) := by
  unfold vCmp
  repeat' first
    | with_reducible assumption
    | with_reducible apply Core.push_ok
    | with_reducible apply slotOp_ok
    | with_reducible apply coreExOk_ok
    | intro _

theorem execVcmpEq_ok (f : VcF) {s : State} (hs : s.Ok) : OutOk (execVcmpEq f s) := by
  unfold execVcmpEq
  repeat' first
    | with_reducible assumption | with_reducible apply vCmp_ok

theorem execVcmpNe_ok (f : VcF) {s : State} (hs : s.Ok) : OutOk (execVcmpNe f s) := by
  unfold execVcmpNe
  repeat' first
    | with_reducible assumption | with_reducible apply vCmp_ok

theorem execVcmpLt_ok (f : VcF) {s : State} (hs : s.Ok) : OutOk (execVcmpLt f s) := by
  unfold execVcmpLt
  repeat' first
    | with_reducible assumption | with_reducible apply vCmp_ok

theorem execVcmpLe_ok (f : VcF) {s : State} (hs : s.Ok) : OutOk (execVcmpLe f s) := by
  unfold execVcmpLe
  repeat' first
    | with_reducible assumption | with_reducible apply vCmp_ok

theorem execVcmpUn_ok (f : VcF) {s : State} (hs : s.Ok) : OutOk (execVcmpUn f s) := by
  unfold execVcmpUn
  repeat' first
    | with_reducible assumption | with_reducible apply vCmp_ok

theorem execVcmpLtu_ok (f : VcF) {s : State} (hs : s.Ok) : OutOk (execVcmpLtu f s) := by
  unfold execVcmpLtu
  repeat' first
    | with_reducible assumption | with_reducible apply vCmp_ok

theorem execVcmpLeu_ok (f : VcF) {s : State} (hs : s.Ok) : OutOk (execVcmpLeu f s) := by
  unfold execVcmpLeu
  repeat' first
    | with_reducible assumption | with_reducible apply vCmp_ok

theorem vPred_ok (i : Instr) {s : State} (pd : PReg) (et : Fmt) (pg : PReg) (r : Core → List Bool) (hs : s.Ok) : OutOk (vPred i s pd et pg r) := by
  unfold vPred
  repeat' first
    | with_reducible assumption
    | with_reducible apply Core.push_ok
    | with_reducible apply slotOp_ok
    | with_reducible apply coreExOk_ok
    | intro _

theorem vPred2_ok (i : Instr) (f : VpF) (op : Bool → Bool → Bool) {s : State} (hs : s.Ok) : OutOk (vPred2 i f op s) := by
  unfold vPred2
  repeat' first
    | with_reducible assumption | with_reducible apply vPred_ok

theorem execVpand_ok (f : VpF) {s : State} (hs : s.Ok) : OutOk (execVpand f s) := by
  unfold execVpand
  repeat' first
    | with_reducible assumption | with_reducible apply vPred2_ok

theorem execVpor_ok (f : VpF) {s : State} (hs : s.Ok) : OutOk (execVpor f s) := by
  unfold execVpor
  repeat' first
    | with_reducible assumption | with_reducible apply vPred2_ok

theorem execVpxor_ok (f : VpF) {s : State} (hs : s.Ok) : OutOk (execVpxor f s) := by
  unfold execVpxor
  repeat' first
    | with_reducible assumption | with_reducible apply vPred2_ok

theorem execVpnot_ok (f : VpnF) {s : State} (hs : s.Ok) : OutOk (execVpnot f s) := by
  unfold execVpnot
  repeat' first
    | with_reducible assumption | with_reducible apply vPred_ok

theorem execVpset_ok (f : VpsF) {s : State} (hs : s.Ok) : OutOk (execVpset f s) := by
  unfold execVpset
  repeat' first
    | with_reducible assumption | with_reducible apply vPred_ok

theorem execVpcnt_ok (f : VpxF) {s : State} (hs : s.Ok) : OutOk (execVpcnt f s) := by
  unfold execVpcnt
  repeat' first
    | with_reducible assumption
    | with_reducible apply Core.push_ok
    | with_reducible apply slotOp_ok
    | with_reducible apply coreExOk_ok
    | intro _

theorem execVpfirst_ok (f : VpxF) {s : State} (hs : s.Ok) : OutOk (execVpfirst f s) := by
  unfold execVpfirst
  repeat' first
    | with_reducible assumption
    | with_reducible apply Core.push_ok
    | with_reducible apply slotOp_ok
    | with_reducible apply coreExOk_ok
    | intro _

theorem execVmulL6_ok (f : VlF) {s : State} (hs : s.Ok) : OutOk (execVmulL6 f s) := by
  unfold execVmulL6
  repeat' first
    | with_reducible assumption | with_reducible apply vecOp_ok

theorem execVdotL6_ok (f : VlF) {s : State} (hs : s.Ok) : OutOk (execVdotL6 f s) := by
  unfold execVdotL6
  repeat' first
    | with_reducible assumption | with_reducible apply vecOp_ok

theorem execVrand_ok (f : VrF) {s : State} (hs : s.Ok) : OutOk (execVrand f s) := by
  unfold execVrand
  repeat' first
    | with_reducible assumption | with_reducible apply vecOp_ok

end Sys2Proof.Machine
end

