-- ==== Sys2Proof/Laws/OkMemSys.lean ====
section
/-! SUPPORT. Every operation of Machine/MemSys.lean keeps a sound state sound. -/

namespace Sys2Proof.Machine

theorem Core.defer_ok {c : Core} (t : Trap) (hc : c.Ok) : (Core.defer c t).Ok := by
  unfold Core.defer
  with_reducible assumption

theorem State.countDenial_ok {s : State} (n : Nat) (misc : BitVec 64) (v : Verdict) (key : Nat) (marks : Bool) (hs : s.Ok) :
    (State.countDenial s n misc v key marks).Ok := by
  unfold State.countDenial
  repeat' first
    | with_reducible assumption
    | with_reducible apply State.mcRecord_ok
    | with_reducible refine State.Ok.ofPair (by with_reducible assumption) ?_
    | with_reducible refine State.Ok.ofSome (by with_reducible assumption) ?_
    | intro _
    | extract_lets
    | split

theorem State.storeRels_ok {s : State} (keys : List Nat) (rel : Option Rel) (hs : s.Ok) :
    (State.storeRels s keys rel).Ok := by
  unfold State.storeRels
  repeat' first
    | with_reducible assumption
    | with_reducible apply State.setMs_ok

theorem State.atomicRels_ok {s : State} (keys : List Nat) (rel : Option Rel) (hs : s.Ok) :
    (State.atomicRels s keys rel).Ok := by
  unfold State.atomicRels
  repeat' first
    | with_reducible assumption
    | with_reducible apply State.setMs_ok

theorem State.writeBytes_ok {s : State} (bytes : List (Nat × Byte)) (hs : s.Ok) : (State.writeBytes s bytes).Ok := by
  unfold State.writeBytes
  repeat' first
    | with_reducible assumption
    | with_reducible apply State.storeEach_ok
    | with_reducible apply ListsOk.delMarks

theorem State.addTags_ok {s : State} (tags : List Nat) (hs : s.Ok) :
    (State.addTags s tags).Ok := by
  unfold State.addTags
  repeat' first
    | with_reducible assumption
    | with_reducible apply State.Ok.foldl
    | with_reducible apply Core.Ok.foldl
    | with_reducible apply ListsOk.addTags

theorem State.addMarks_ok {s : State} (gs : List Nat) (hs : s.Ok) :
    (State.addMarks s gs).Ok := by
  unfold State.addMarks
  repeat' first
    | with_reducible assumption
    | with_reducible apply State.Ok.foldl
    | with_reducible apply Core.Ok.foldl
    | with_reducible apply ListsOk.addMarks

theorem State.mapLines_ok {s : State} (clus : Nat → Bool) (g : CLine → Option CLine) (hs : s.Ok) : (State.mapLines s clus g).Ok := by
  unfold State.mapLines
  repeat' first
    | with_reducible assumption
    | with_reducible apply State.setMs_ok
    | with_reducible apply ListsOk.mapCores
    | with_reducible rfl
    | intro _
    | extract_lets
    | split

theorem State.tellRels_ok {s : State} (clus : Nat → Bool) (keys : List Nat) (hs : s.Ok) :
    (State.tellRels s clus keys).Ok := by
  unfold State.tellRels
  repeat' first
    | with_reducible assumption
    | with_reducible apply State.mapLines_ok
    | with_reducible refine State.Ok.ofPair (by with_reducible assumption) ?_
    | with_reducible refine State.Ok.ofSome (by with_reducible assumption) ?_
    | intro _
    | extract_lets
    | split
    | with_reducible apply State.Ok.ite
    | with_reducible apply Core.Ok.ite

theorem Core.setAcc_ok {c : Core} (a : Access) (hc : c.Ok) : (Core.setAcc c a).Ok := by
  unfold Core.setAcc
  with_reducible assumption

theorem State.refuseStore_ok {s : State} (n : Nat) (a : Access) (v : Verdict) (key : Nat) (hs : s.Ok) :
    (State.refuseStore s n a v key).Ok := by
  unfold State.refuseStore
  repeat' first
    | with_reducible assumption
    | with_reducible apply State.countDenial_ok
    | with_reducible apply Launch.core_ok
    | with_reducible apply Core.setAcc_ok
    | with_reducible apply Core.defer_ok
    | with_reducible apply State.setCore_ok
    | with_reducible apply State.Ok.core
    | with_reducible apply State.Ok.cur
    | intro _
    | extract_lets
    | split

theorem State.failOwed_ok {s : State} (clu : Nat) (l : CLine) (hs : s.Ok) :
    (State.failOwed s clu l).Ok := by
  unfold State.failOwed
  repeat' first
    | with_reducible assumption
    | with_reducible apply State.refuseStore_ok
    | with_reducible apply State.Ok.foldl
    | with_reducible apply Core.Ok.foldl
    | with_reducible apply State.Ok.core
    | with_reducible apply State.Ok.cur
    | with_reducible refine State.Ok.ofPair (by with_reducible assumption) ?_
    | with_reducible refine State.Ok.ofSome (by with_reducible assumption) ?_
    | intro _
    | extract_lets
    | split
    | with_reducible apply State.Ok.ite
    | with_reducible apply Core.Ok.ite

theorem State.clean_ok {s : State} (sel : Nat → CLine → Bool) (hs : s.Ok) :
    (State.clean s sel).Ok := by
  unfold State.clean
  repeat' first
    | with_reducible assumption
    | with_reducible apply State.cleanL1_ok
    | with_reducible apply State.writeBytes_ok
    | with_reducible apply State.storeRels_ok
    | with_reducible apply State.addMarks_ok
    | with_reducible apply State.failOwed_ok
    | with_reducible apply State.mapLines_ok
    | with_reducible apply State.setMs_ok
    | with_reducible apply State.Ok.foldl
    | with_reducible apply Core.Ok.foldl
    | with_reducible refine State.Ok.ofPair (by with_reducible assumption) ?_
    | with_reducible refine State.Ok.ofSome (by with_reducible assumption) ?_
    | intro _
    | extract_lets
    | split
    | with_reducible apply State.Ok.ite
    | with_reducible apply Core.Ok.ite

theorem State.dropWhere_ok {s : State} (clus : Nat → Bool) (p : Nat → Bool) (hs : s.Ok) :
    (State.dropWhere s clus p).Ok := by
  unfold State.dropWhere
  repeat' first
    | with_reducible assumption
    | with_reducible apply State.clean_ok
    | with_reducible apply State.mapLines_ok
    | with_reducible refine State.Ok.ofPair (by with_reducible assumption) ?_
    | with_reducible refine State.Ok.ofSome (by with_reducible assumption) ?_
    | intro _
    | extract_lets
    | split
    | with_reducible apply State.Ok.ite
    | with_reducible apply Core.Ok.ite

theorem State.dropLines_ok {s : State} (clus : Nat → Bool) (keys : List Nat) (hs : s.Ok) :
    (State.dropLines s clus keys).Ok := by
  unfold State.dropLines
  repeat' first
    | with_reducible assumption
    | with_reducible apply State.mapLines_ok
    | with_reducible apply State.clean_ok
    | with_reducible apply State.dropWhere_ok
    | intro _
    | extract_lets
    | split
    | with_reducible apply State.Ok.ite
    | with_reducible apply Core.Ok.ite

theorem State.discardFar_ok {s : State} (n : Nat) (hs : s.Ok) :
    (State.discardFar s n).Ok := by
  unfold State.discardFar
  repeat' first
    | with_reducible assumption
    | with_reducible apply State.Ok.core
    | with_reducible apply State.setCore_ok
    | with_reducible apply Launch.core_ok
    | with_reducible apply State.setMs_ok
    | with_reducible apply State.clean_ok
    | with_reducible apply State.dropWhere_ok
    | intro _
    | extract_lets
    | split
    | with_reducible apply State.Ok.ite
    | with_reducible apply Core.Ok.ite

theorem State.evict_ok {s : State} (clu : Nat) (k : Nat) (hs : s.Ok) :
    (State.evict s clu k).Ok := by
  unfold State.evict
  repeat' first
    | with_reducible assumption
    | with_reducible apply State.dropLines_ok

theorem State.evictL1_ok {s : State} (n : Nat) (k : Nat) (hs : s.Ok) :
    (State.evictL1 s n k).Ok := by
  unfold State.evictL1
  repeat' first
    | with_reducible assumption
    | with_reducible apply Launch.core_ok
    | with_reducible apply State.cleanL1_ok
    | with_reducible apply State.setCore_ok
    | with_reducible apply State.Ok.core
    | with_reducible apply State.Ok.cur
    | intro _
    | extract_lets
    | split
    | with_reducible apply State.Ok.ite
    | with_reducible apply Core.Ok.ite

theorem State.fill_ok {s : State} (n : Nat) (pol : Nat) (k : Nat) (hs : s.Ok) :
    (State.fill s n pol k).Ok := by
  unfold State.fill
  repeat' first
    | with_reducible assumption
    | with_reducible apply State.dropLines_ok
    | with_reducible apply State.evict_ok
    | with_reducible apply State.setMs_ok
    | with_reducible apply Launch.core_ok
    | with_reducible apply State.evictL1_ok
    | with_reducible apply State.setCore_ok
    | with_reducible apply State.Ok.getD
    | with_reducible apply State.Ok.core
    | with_reducible apply State.Ok.cur
    | intro _
    | extract_lets
    | split
    | with_reducible apply State.Ok.ite
    | with_reducible apply Core.Ok.ite

theorem State.soilL1_ok {s : State} (n : Nat) (lines : List Nat) (hs : s.Ok) :
    (State.soilL1 s n lines).Ok := by
  unfold State.soilL1
  repeat' first
    | with_reducible assumption
    | with_reducible apply Launch.core_ok
    | with_reducible apply State.setCore_ok
    | with_reducible apply State.Ok.core
    | with_reducible apply State.Ok.cur
    | intro _
    | extract_lets
    | split
    | with_reducible apply State.Ok.ite
    | with_reducible apply Core.Ok.ite

theorem State.acquire_ok {s : State} (n : Nat) (sc : Scope) (rels : List Rel) (hs : s.Ok) : (State.acquire s n sc rels).Ok := by
  unfold State.acquire
  repeat' first
    | with_reducible assumption
    | with_reducible apply Core.setNarrow_ok
    | with_reducible apply State.discardFar_ok
    | with_reducible apply State.setCore_ok
    | with_reducible apply State.Ok.core
    | extract_lets
    | split

theorem State.setClock_ok {s : State} (die : Nat) (c : Clock) (hs : s.Ok) : (State.setClock s die c).Ok := by
  unfold State.setClock
  repeat' first
    | with_reducible assumption | with_reducible apply State.setMs_ok

theorem State.stamp_ok {s : State} (src : Nat) (body : Nat → MsgBody) (hs : s.Ok) : (State.stamp s src body).Ok := by
  unfold State.stamp
  repeat' first
    | with_reducible assumption
    | with_reducible apply State.setClock_ok
    | with_reducible apply State.setMs_ok
    | with_reducible apply State.Ok.foldl
    | intro _

theorem State.sendWrite_ok {s : State} (src : Nat) (dst : Nat) (lines : List Nat) (body : MsgBody) (hs : s.Ok) :
    (State.sendWrite s src dst lines body).Ok := by
  unfold State.sendWrite
  repeat' first
    | with_reducible assumption
    | with_reducible apply State.dropLines_ok
    | with_reducible apply State.stamp_ok

theorem State.noteByte_ok {s : State} (a : Nat) (hs : s.Ok) : (State.noteByte s a).Ok := by
  unfold State.noteByte
  repeat' first
    | with_reducible assumption
    | with_reducible apply State.setSched_ok
    | with_reducible rfl
    | extract_lets
    | split
    | dsimp +zetaDelta only

theorem State.putGlob_ok {s : State} (h : Nat) (clu : Nat) (bytes : List (Nat × Byte)) (tags : List Nat) (marks : List Nat) (hs : s.Ok) :
    (State.putGlob s h clu bytes tags marks).Ok := by
  unfold State.putGlob
  repeat' first
    | with_reducible assumption
    | with_reducible apply State.clean_ok
    | with_reducible apply State.writeBytes_ok
    | with_reducible apply State.addTags_ok
    | with_reducible apply State.addMarks_ok
    | with_reducible apply State.mapLines_ok
    | with_reducible apply State.setMs_ok
    | with_reducible apply State.stamp_ok
    | with_reducible refine State.Ok.ofPair (by with_reducible assumption) ?_
    | with_reducible refine State.Ok.ofSome (by with_reducible assumption) ?_
    | intro _
    | extract_lets
    | split
    | with_reducible apply State.Ok.ite
    | with_reducible apply Core.Ok.ite

theorem State.performGlob_ok {s : State} (h : Nat) (clu : Nat) (bytes : List (Nat × Byte)) (tags : List Nat) (marks : List Nat) (hs : s.Ok) :
    (State.performGlob s h clu bytes tags marks).Ok := by
  unfold State.performGlob
  repeat' first
    | with_reducible assumption
    | with_reducible apply State.noteByte_ok
    | with_reducible apply State.putGlob_ok
    | with_reducible apply State.Ok.foldl

theorem State.countComplex_ok {s : State} (die : Nat) (ctx : BitVec 16) (a : Nat) (n : Nat) (hs : s.Ok) :
    (State.countComplex s die ctx a n).Ok := by
  unfold State.countComplex
  repeat' first
    | with_reducible assumption
    | with_reducible apply State.mcRecord_ok
    | intro _
    | extract_lets
    | split
    | with_reducible apply State.Ok.ite
    | with_reducible apply Core.Ok.ite

theorem State.putComplex_ok {s : State} (src : Nat) (h : Nat) (ctx : BitVec 16) (bytes : List (Nat × Byte)) (rel : Option Rel) (hs : s.Ok) :
    (State.putComplex s src h ctx bytes rel).Ok := by
  unfold State.putComplex
  repeat' first
    | with_reducible assumption
    | with_reducible apply State.countComplex_ok
    | with_reducible apply State.putGlob_ok
    | with_reducible apply State.storeRels_ok
    | with_reducible apply State.tellRels_ok
    | with_reducible refine State.Ok.ofPair (by with_reducible assumption) ?_
    | with_reducible refine State.Ok.ofSome (by with_reducible assumption) ?_
    | intro _
    | extract_lets
    | split
    | with_reducible apply State.Ok.ite
    | with_reducible apply Core.Ok.ite

theorem State.devWriteAs_ok {s : State} (src : Nat) (ctx : BitVec 16) (addr : Nat) (bs : List Byte) (rel : Option Rel) (hs : s.Ok) :
    (State.devWriteAs s src ctx addr bs rel).Ok := by
  unfold State.devWriteAs
  repeat' first
    | with_reducible assumption
    | with_reducible apply State.storeRels_ok
    | with_reducible apply State.putGlob_ok
    | with_reducible apply State.putComplex_ok
    | with_reducible apply State.sendWrite_ok
    | with_reducible apply State.Ok.foldl
    | with_reducible apply Core.Ok.foldl
    | with_reducible refine State.Ok.ofPair (by with_reducible assumption) ?_
    | with_reducible refine State.Ok.ofSome (by with_reducible assumption) ?_
    | intro _
    | extract_lets
    | split
    | with_reducible apply State.Ok.ite
    | with_reducible apply Core.Ok.ite

theorem State.devWrite_ok {s : State} (src : Nat) (addr : Nat) (n : Nat) (v : Nat) (rel : Option Rel) (hs : s.Ok) :
    (State.devWrite s src addr n v rel).Ok := by
  unfold State.devWrite
  repeat' first
    | with_reducible assumption
    | with_reducible apply State.devWriteAs_ok
    | intro _
    | extract_lets
    | split
    | with_reducible apply State.Ok.ite
    | with_reducible apply Core.Ok.ite

theorem State.performFar_ok {s : State} (clu : Nat) (bytes : List (Nat × Byte)) (hs : s.Ok) :
    (State.performFar s clu bytes).Ok := by
  unfold State.performFar
  repeat' first
    | with_reducible assumption
    | with_reducible apply State.clean_ok
    | with_reducible apply State.writeBytes_ok
    | with_reducible apply State.mapLines_ok

theorem State.performSlice_ok {s : State} (n : Nat) (pol : Nat) (stream : Nat) (bytes : List (Nat × Byte)) (hs : s.Ok) :
    (State.performSlice s n pol stream bytes).Ok := by
  unfold State.performSlice
  repeat' first
    | with_reducible assumption
    | with_reducible apply State.fill_ok
    | with_reducible apply State.mapLines_ok
    | with_reducible apply State.setMs_ok
    | with_reducible apply State.Ok.foldl
    | with_reducible apply Core.Ok.foldl
    | with_reducible refine State.Ok.ofPair (by with_reducible assumption) ?_
    | with_reducible refine State.Ok.ofSome (by with_reducible assumption) ?_
    | intro _
    | extract_lets
    | split
    | with_reducible apply State.Ok.ite
    | with_reducible apply Core.Ok.ite

theorem State.scDone_ok {s : State} (n : Nat) (rank : Option Nat) (keys : List Nat) (hs : s.Ok) :
    (State.scDone s n rank keys).Ok := by
  unfold State.scDone
  repeat' first
    | with_reducible assumption
    | with_reducible apply State.setMs_ok
    | with_reducible apply State.Ok.foldl
    | with_reducible apply Core.Ok.foldl
    | intro _
    | extract_lets
    | split

theorem Core.dropFences_ok {c : Core} (hc : c.Ok) : (Core.dropFences c).Ok := by
  unfold Core.dropFences
  with_reducible assumption

theorem State.settleFences_ok {s : State} (n : Nat) (hs : s.Ok) :
    (State.settleFences s n).Ok := by
  unfold State.settleFences
  repeat' first
    | with_reducible assumption
    | with_reducible apply Launch.core_ok
    | with_reducible apply State.discardFar_ok
    | with_reducible apply Core.dropFences_ok
    | with_reducible apply State.setCore_ok
    | with_reducible apply State.Ok.core
    | with_reducible apply State.Ok.cur
    | intro _
    | extract_lets
    | split

theorem Core.retire_ok {c : Core} (a : Access) (hc : c.Ok) : (Core.retire c a).Ok := by
  unfold Core.retire
  repeat' first
    | with_reducible assumption
    | with_reducible apply Core.dropFences_ok
    | with_reducible apply Core.subSt_ok
    | extract_lets
    | split

theorem State.fillPieces_ok {s : State} (n : Nat) (cap : Cap) (pcs : List (Nat × Nat)) (hs : s.Ok) : (State.fillPieces s n cap pcs).Ok := by
  unfold State.fillPieces
  repeat' first
    | with_reducible assumption
    | with_reducible apply State.fill_ok
    | with_reducible apply State.Ok.foldl
    | intro _
    | extract_lets
    | split

theorem State.countReads_ok {s : State} (n : Nat) (cap : Cap) (pcs : List (Nat × Nat)) (hs : s.Ok) :
    (State.countReads s n cap pcs).Ok := by
  unfold State.countReads
  repeat' first
    | with_reducible assumption
    | with_reducible apply State.countDenial_ok
    | with_reducible apply State.Ok.foldl
    | with_reducible apply Core.Ok.foldl
    | intro _

theorem State.lostRead_ok {s : State} (n : Nat) (cap : Cap) (sl : Slot) (pcs : List (Nat × Nat)) (hs : s.Ok) :
    (State.lostRead s n cap sl pcs).1.Ok := by
  unfold State.lostRead
  repeat' first
    | with_reducible assumption
    | with_reducible apply Launch.core_ok
    | with_reducible apply Core.defer_ok
    | with_reducible apply State.setCore_ok
    | with_reducible apply State.Ok.core
    | with_reducible apply State.Ok.cur
    | with_reducible refine State.Ok.ofPair (by with_reducible assumption) ?_
    | with_reducible refine State.Ok.ofSome (by with_reducible assumption) ?_
    | intro _
    | extract_lets
    | split

theorem State.countMac_ok {s : State} (n : Nat) (die : Nat) (addr : Nat) (marks : Bool) (hs : s.Ok) : (State.countMac s n die addr marks).Ok := by
  unfold State.countMac
  repeat' first
    | with_reducible assumption | with_reducible apply State.mcRecord_ok

theorem State.countMacs_ok {s : State} (n : Nat) (cap : Cap) (pcs : List (Nat × Nat)) (hs : s.Ok) : (State.countMacs s n cap pcs).Ok := by
  unfold State.countMacs
  repeat' first
    | with_reducible assumption
    | with_reducible apply State.countMac_ok
    | with_reducible apply State.Ok.foldl
    | intro _
    | extract_lets
    | split

theorem State.readRels_ok {s : State} (n : Nat) (id : Nat) (rels : List Rel) (hs : s.Ok) :
    (State.readRels s n id rels).1.Ok := by
  unfold State.readRels
  repeat' first
    | with_reducible assumption
    | with_reducible apply Launch.core_ok
    | with_reducible apply State.setCore_ok
    | with_reducible apply State.Ok.core

theorem State.sampleUnits_ok {s : State} (n : Nat) (l : Landing) (units : List Nat) (verdict : Bool) (only : Option Nat) (hs : s.Ok) :
    (State.sampleUnits s n l units verdict only).1.Ok := by
  unfold State.sampleUnits
  repeat' first
    | with_reducible assumption
    | with_reducible apply State.fillPieces_ok
    | with_reducible apply State.readRels_ok
    | with_reducible apply State.countMacs_ok
    | with_reducible apply State.countReads_ok
    | with_reducible apply State.lostRead_ok
    | with_reducible apply State.scDone_ok
    | with_reducible apply State.Ok.foldl
    | with_reducible apply Core.Ok.foldl
    | with_reducible apply State.Ok.getD
    | with_reducible refine State.Ok.ofPair (by with_reducible assumption) ?_
    | with_reducible refine State.Ok.ofSome (by with_reducible assumption) ?_
    | intro _
    | extract_lets
    | split
    | with_reducible apply State.Ok.ite
    | with_reducible apply Core.Ok.ite

theorem State.sampleLanding_ok {s : State} (n : Nat) (l : Landing) (verdict : Bool) (hs : s.Ok) :
    (State.sampleLanding s n l verdict).1.Ok := by
  unfold State.sampleLanding
  repeat' first
    | with_reducible assumption
    | with_reducible apply State.sampleUnits_ok
    | intro _
    | extract_lets
    | split
    | with_reducible apply State.Ok.ite
    | with_reducible apply Core.Ok.ite

theorem Core.setLanding_ok {c : Core} (l : Landing) (hc : c.Ok) : (Core.setLanding c l).Ok := by
  unfold Core.setLanding
  with_reducible assumption

theorem State.answerRead_ok {s : State} (n : Nat) (a : Access) (verdict : Bool) (hs : s.Ok) :
    (State.answerRead s n a verdict).Ok := by
  unfold State.answerRead
  repeat' first
    | with_reducible assumption
    | with_reducible apply State.fillPieces_ok
    | with_reducible apply State.clean_ok
    | with_reducible apply State.readRels_ok
    | with_reducible apply Launch.core_ok
    | with_reducible apply Core.retire_ok
    | with_reducible apply Core.wh_ok
    | with_reducible apply Core.setNarrow_ok
    | with_reducible apply Core.markH_ok
    | with_reducible apply Core.wx_ok
    | with_reducible apply Core.markX_ok
    | with_reducible apply State.acquire_ok
    | with_reducible apply State.countReads_ok
    | with_reducible apply State.lostRead_ok
    | with_reducible apply State.setCore_ok
    | with_reducible apply State.Ok.core
    | with_reducible apply State.Ok.cur
    | with_reducible refine State.Ok.ofPair (by with_reducible assumption) ?_
    | with_reducible refine State.Ok.ofSome (by with_reducible assumption) ?_
    | intro _
    | extract_lets
    | split

theorem State.takeData_ok {s : State} (n : Nat) (id : Nat) (verdict : Bool) (only : Option Nat) (hs : s.Ok) :
    (State.takeData s n id verdict only).Ok := by
  unfold State.takeData
  repeat' first
    | with_reducible assumption
    | with_reducible apply Launch.core_ok
    | with_reducible apply State.sampleUnits_ok
    | with_reducible apply Core.setLanding_ok
    | with_reducible apply State.settleFences_ok
    | with_reducible apply State.answerRead_ok
    | with_reducible apply State.setCore_ok
    | with_reducible apply State.Ok.core
    | with_reducible apply State.Ok.cur
    | with_reducible refine State.Ok.ofPair (by with_reducible assumption) ?_
    | with_reducible refine State.Ok.ofSome (by with_reducible assumption) ?_
    | intro _
    | extract_lets
    | split
    | with_reducible apply State.Ok.ite
    | with_reducible apply Core.Ok.ite

theorem State.recoded_ok {s : State} (keys : List Nat) (hs : s.Ok) : (State.recoded s keys).Ok := by
  unfold State.recoded
  repeat' first
    | with_reducible assumption | with_reducible apply State.setMs_ok

theorem State.recordTransfer_ok {s : State} (n : Nat) (keys : List Nat) (cause : BitVec 8) (misc : BitVec 64) (marks : Bool) (hs : s.Ok) : (State.recordTransfer s n keys cause misc marks).Ok := by
  unfold State.recordTransfer
  repeat' first
    | with_reducible assumption | with_reducible apply State.mcRecord_ok

theorem execLandingDataArrival_ok (n : Nat) (id : Nat) (verdict : Bool) {s : State} (hs : s.Ok) : OutOk (execLandingDataArrival n id verdict s) := by
  unfold execLandingDataArrival
  repeat' first
    | with_reducible assumption
    | with_reducible apply outOk_next
    | with_reducible apply State.recoded_ok
    | with_reducible apply State.recordTransfer_ok
    | with_reducible apply State.takeData_ok
    | extract_lets
    | split

theorem State.Ok.foldlPair {α β : Type} {f : State × β → α → State × β} (l : List α) {p : State × β} (h : p.1.Ok)
    (hf : ∀ (p : State × β) (a : α), p.1.Ok → (f p a).1.Ok) : (l.foldl f p).1.Ok := by
  induction l generalizing p with
  | nil => exact h
  | cons a t ih => exact ih (hf p a h)

theorem State.performStore_ok {s : State} (n : Nat) (a : Access) (unit : Nat) (hs : s.Ok) :
    (State.performStore s n a unit).Ok := by
  unfold State.performStore
  extract_lets _ _ _ _ _ _ s1
  have h1 : s1.Ok := by
    dsimp only [s1]
    split
    · exact State.refuseStore_ok _ _ _ _ hs
    · exact hs
  clear_value s1
  repeat' first
    | with_reducible assumption
    | with_reducible apply State.storeRels_ok
    | with_reducible apply State.tellRels_ok
    | with_reducible apply State.soilL1_ok
    | with_reducible apply State.performGlob_ok
    | with_reducible apply State.sendWrite_ok
    | with_reducible apply State.writeBytes_ok
    | with_reducible apply State.addTags_ok
    | with_reducible apply State.performSlice_ok
    | with_reducible apply State.performFar_ok
    | with_reducible apply State.Ok.foldl
    | intro _
    | extract_lets
    | split

theorem State.flushLines_ok {s : State} (n : Nat) (a : Access) (len : Nat) (sc : Scope) (hs : s.Ok) :
    (State.flushLines s n a len sc).Ok := by
  unfold State.flushLines
  repeat' first
    | with_reducible assumption
    | with_reducible apply State.cleanL1_ok
    | with_reducible apply State.clean_ok
    | intro _
    | extract_lets
    | split
    | with_reducible apply State.Ok.ite
    | with_reducible apply Core.Ok.ite

theorem State.storeDone_ok {s : State} (n : Nat) (a : Access) (hs : s.Ok) :
    (State.storeDone s n a).Ok := by
  unfold State.storeDone
  repeat' first
    | with_reducible assumption
    | with_reducible apply State.clean_ok
    | with_reducible apply State.scDone_ok
    | with_reducible apply Launch.core_ok
    | with_reducible apply Core.retire_ok
    | with_reducible apply State.settleFences_ok
    | with_reducible apply State.setCore_ok
    | with_reducible apply State.Ok.core
    | with_reducible apply State.Ok.cur
    | with_reducible refine State.Ok.ofPair (by with_reducible assumption) ?_
    | with_reducible refine State.Ok.ofSome (by with_reducible assumption) ?_
    | intro _
    | extract_lets
    | split

theorem State.storeStep_ok {s : State} (n : Nat) (a : Access) (hs : s.Ok) :
    (State.storeStep s n a).Ok := by
  unfold State.storeStep
  repeat' first
    | with_reducible assumption
    | with_reducible apply State.performStore_ok
    | with_reducible apply Launch.core_ok
    | with_reducible apply Core.setAcc_ok
    | with_reducible apply State.storeDone_ok
    | with_reducible apply State.settleFences_ok
    | with_reducible apply State.setCore_ok
    | with_reducible apply State.Ok.core
    | with_reducible apply State.Ok.cur
    | intro _
    | extract_lets
    | split

theorem execStoreAck_ok (n : Nat) (id : Nat) {s : State} (hs : s.Ok) :
    OutOk (execStoreAck n id s) := by
  unfold execStoreAck
  repeat' first
    | with_reducible assumption
    | with_reducible apply outOk_next
    | with_reducible apply Launch.core_ok
    | with_reducible apply State.storeDone_ok
    | with_reducible apply State.flushLines_ok
    | with_reducible apply State.storeStep_ok
    | with_reducible apply State.Ok.core
    | with_reducible apply State.Ok.cur
    | with_reducible refine State.Ok.ofPair (by with_reducible assumption) ?_
    | with_reducible refine State.Ok.ofSome (by with_reducible assumption) ?_
    | intro _
    | extract_lets
    | split

theorem State.spadStore_ok {s : State} (key : Nat) {f : State → State} (hs : s.Ok) (hf : ∀ s : State, s.Ok → (f s).Ok) :
    (State.spadStore s key f).Ok := by
  unfold State.spadStore
  extract_lets n s1
  have h1 : s1.Ok := State.countDenial_ok _ _ _ _ _ hs
  split
  · exact hf _ hs
  · exact State.setCore_ok _ h1 (Core.defer_ok _ (h1.core _))

theorem State.performAtomic_ok {s : State} (clu : Nat) (k : Nat) (n : Nat) (v : Nat) (rel : Option Rel) (hs : s.Ok) :
    (State.performAtomic s clu k n v rel).Ok := by
  unfold State.performAtomic
  repeat' first
    | with_reducible assumption
    | with_reducible apply State.performGlob_ok
    | with_reducible apply State.performFar_ok
    | with_reducible apply State.writeBytes_ok
    | with_reducible apply State.atomicRels_ok
    | with_reducible apply State.tellRels_ok
    | with_reducible refine State.Ok.ofPair (by with_reducible assumption) ?_
    | with_reducible refine State.Ok.ofSome (by with_reducible assumption) ?_
    | intro _
    | extract_lets
    | split
    | with_reducible apply State.Ok.ite
    | with_reducible apply Core.Ok.ite

theorem State.applyAmo_ok {s : State} (n : Nat) (a : Access) (op : AmoOp) (src : DWord) (cmp : DWord) (hs : s.Ok) : (State.applyAmo s n a op src cmp).1.Ok := by
  unfold State.applyAmo
  repeat' first
    | with_reducible assumption | with_reducible apply State.performAtomic_ok | extract_lets | split

theorem State.applyVamo_ok {s : State} (n : Nat) (a : Access) (op : VamoOp) (rm : Rm) (off : Nat) (data : Nat) (hs : s.Ok) : (State.applyVamo s n a op rm off data).1.Ok := by
  unfold State.applyVamo
  repeat' first
    | with_reducible assumption | with_reducible apply State.performAtomic_ok | extract_lets | split

theorem State.settled_ok {s : State} (clu : Nat) (keys : List Nat) (hs : s.Ok) :
    (State.settled s clu keys).Ok := by
  unfold State.settled
  repeat' first
    | with_reducible assumption
    | with_reducible apply State.dropLines_ok
    | with_reducible apply State.clean_ok
    | intro _
    | extract_lets
    | split
    | with_reducible apply State.Ok.ite
    | with_reducible apply Core.Ok.ite

theorem State.applyAtomic_ok {s : State} (n : Nat) (a : Access) (k : Nat) (z : Nat) (hs : s.Ok) :
    (State.applyAtomic s n a k z).1.Ok := by
  unfold State.applyAtomic
  repeat' first
    | with_reducible assumption
    | with_reducible apply State.clean_ok
    | with_reducible apply State.settled_ok
    | with_reducible apply State.applyAmo_ok
    | with_reducible apply State.applyVamo_ok
    | with_reducible apply State.Ok.getD
    | with_reducible refine State.Ok.ofPair (by with_reducible assumption) ?_
    | with_reducible refine State.Ok.ofSome (by with_reducible assumption) ?_
    | intro _
    | extract_lets
    | split
    | with_reducible apply State.Ok.ite
    | with_reducible apply Core.Ok.ite

theorem State.atomicAcquire_ok {s : State} (n : Nat) (a : Access) (rels : List Rel) (hs : s.Ok) : (State.atomicAcquire s n a rels).Ok := by
  unfold State.atomicAcquire
  repeat' first
    | with_reducible assumption | with_reducible apply State.acquire_ok | split

theorem State.atomicDone_ok {s : State} (n : Nat) (a : Access) (old : Option DWord) (rels : List Rel) (hs : s.Ok) : (State.atomicDone s n a old rels).Ok := by
  unfold State.atomicDone
  repeat' first
    | with_reducible assumption
    | with_reducible apply Core.defer_ok
    | with_reducible apply Core.markX_ok
    | with_reducible apply Core.retire_ok
    | with_reducible apply Core.setAcc_ok
    | with_reducible apply Core.wv_ok
    | with_reducible apply Core.wx_ok
    | with_reducible apply State.atomicAcquire_ok
    | with_reducible apply State.setCore_ok
    | with_reducible apply State.Ok.core
    | intro _
    | extract_lets
    | split
    | with_reducible apply Core.Ok.ite

theorem State.atomicRefused_ok {s : State} (n : Nat) (a : Access) (v : Verdict) (k : Nat) (hs : s.Ok) :
    (State.atomicRefused s n a v k).Ok := by
  unfold State.atomicRefused
  repeat' first
    | with_reducible assumption
    | with_reducible apply State.countDenial_ok
    | with_reducible apply Launch.core_ok
    | with_reducible apply Core.defer_ok
    | with_reducible apply Core.retire_ok
    | with_reducible apply State.setCore_ok
    | with_reducible apply State.Ok.core
    | with_reducible apply State.Ok.cur
    | with_reducible refine State.Ok.ofPair (by with_reducible assumption) ?_
    | with_reducible refine State.Ok.ofSome (by with_reducible assumption) ?_
    | intro _
    | extract_lets
    | split

theorem State.atomicStep_ok {s : State} (n : Nat) (a : Access) (hs : s.Ok) :
    (State.atomicStep s n a).Ok := by
  unfold State.atomicStep
  repeat' first
    | with_reducible assumption
    | with_reducible apply Launch.core_ok
    | with_reducible apply Core.retire_ok
    | with_reducible apply State.atomicAcquire_ok
    | with_reducible apply State.atomicDone_ok
    | with_reducible apply State.scDone_ok
    | with_reducible apply State.atomicRefused_ok
    | with_reducible apply State.sendWrite_ok
    | with_reducible apply Core.setAcc_ok
    | with_reducible apply State.applyAtomic_ok
    | with_reducible apply State.setCore_ok
    | with_reducible apply State.Ok.core
    | with_reducible apply State.Ok.cur
    | with_reducible refine State.Ok.ofPair (by with_reducible assumption) ?_
    | with_reducible refine State.Ok.ofSome (by with_reducible assumption) ?_
    | intro _
    | extract_lets
    | split

theorem execHomeAtomicExecute_ok (n : Nat) (id : Nat) {s : State} (hs : s.Ok) :
    OutOk (execHomeAtomicExecute n id s) := by
  unfold execHomeAtomicExecute
  repeat' first
    | with_reducible assumption
    | with_reducible apply outOk_next
    | with_reducible apply Launch.core_ok
    | with_reducible apply State.atomicStep_ok
    | with_reducible apply State.settleFences_ok
    | with_reducible apply State.Ok.core
    | with_reducible apply State.Ok.cur
    | with_reducible refine State.Ok.ofPair (by with_reducible assumption) ?_
    | with_reducible refine State.Ok.ofSome (by with_reducible assumption) ?_
    | intro _
    | extract_lets
    | split

theorem State.jobBad_ok {s : State} (j : Nat) (cause : BitVec 8) (rowsBack : Nat) (hs : s.Ok) : (State.jobBad s j cause rowsBack).Ok := by
  unfold State.jobBad
  with_reducible assumption

theorem State.jobDenied_ok {s : State} (j : Nat) (ctx : BitVec 16) (key : Nat) (rowsBack : Nat) (hs : s.Ok) :
    (State.jobDenied s j ctx key rowsBack).Ok := by
  unfold State.jobDenied
  repeat' first
    | with_reducible assumption
    | with_reducible apply Launch.core_ok
    | with_reducible apply State.countDenial_ok
    | with_reducible apply State.jobBad_ok
    | with_reducible apply State.Ok.core
    | with_reducible apply State.Ok.cur
    | intro _
    | extract_lets
    | split
    | with_reducible apply State.Ok.ite
    | with_reducible apply Core.Ok.ite

theorem State.arrive_ok {s : State} (dst : Nat) (core : Nat) (acc : Option Nat) (job : Option Nat) (ctx : BitVec 16) (bytes : List (Nat × Byte)) (tags : List Nat) (marks : List Nat) (rel : Option Rel) (hs : s.Ok) :
    (State.arrive s dst core acc job ctx bytes tags marks rel).Ok := by
  unfold State.arrive
  repeat' first
    | with_reducible assumption
    | with_reducible apply Launch.core_ok
    | with_reducible apply State.refuseStore_ok
    | with_reducible apply State.countDenial_ok
    | with_reducible apply State.jobBad_ok
    | with_reducible apply State.performGlob_ok
    | with_reducible apply State.storeRels_ok
    | with_reducible apply State.tellRels_ok
    | with_reducible apply State.Ok.core
    | with_reducible apply State.Ok.cur
    | with_reducible refine State.Ok.ofPair (by with_reducible assumption) ?_
    | with_reducible refine State.Ok.ofSome (by with_reducible assumption) ?_
    | intro _
    | extract_lets
    | split
    | with_reducible apply State.Ok.ite
    | with_reducible apply Core.Ok.ite

theorem State.applyReduce_ok {s : State} (clu : Nat) (t : Fmt) (op : Nat) (rm : Rm) (els : List (Nat × Nat)) (hs : s.Ok) : (State.applyReduce s clu t op rm els).1.Ok := by
  unfold State.applyReduce
  repeat' first
    | with_reducible assumption
    | with_reducible apply State.performAtomic_ok
    | with_reducible apply State.Ok.foldl
    | intro _
    | extract_lets
    | split

theorem State.applySignal_ok {s : State} (clu : Nat) (key : Nat) (val : Option DWord) (rel : Rel) (hs : s.Ok) :
    OptOk (State.applySignal s clu key val rel) := by
  unfold State.applySignal
  repeat' first
    | with_reducible assumption
    | with_reducible apply optOk_some
    | with_reducible exact optOk_none
    | with_reducible apply State.performAtomic_ok
    | with_reducible apply State.performGlob_ok
    | with_reducible apply State.writeBytes_ok
    | with_reducible apply State.storeRels_ok
    | with_reducible apply State.tellRels_ok
    | with_reducible refine State.Ok.ofPair (by with_reducible assumption) ?_
    | with_reducible refine State.Ok.ofSome (by with_reducible assumption) ?_
    | intro _
    | extract_lets
    | split
    | with_reducible apply State.Ok.ite
    | with_reducible apply Core.Ok.ite

theorem State.countSignal_ok {s : State} (src : Nat) (ctx : BitVec 16) (key : Nat) (rel : Rel) (hs : s.Ok) :
    (State.countSignal s src ctx key rel).Ok := by
  unfold State.countSignal
  repeat' first
    | with_reducible assumption
    | with_reducible apply State.countComplex_ok
    | with_reducible apply State.settled_ok
    | with_reducible apply State.performAtomic_ok
    | with_reducible refine State.Ok.ofPair (by with_reducible assumption) ?_
    | with_reducible refine State.Ok.ofSome (by with_reducible assumption) ?_
    | intro _
    | extract_lets
    | split
    | with_reducible apply State.Ok.ite
    | with_reducible apply Core.Ok.ite

theorem State.deliver_ok {s : State} (m : Msg) (hs : s.Ok) :
    (State.deliver s m).Ok := by
  unfold State.deliver
  repeat' first
    | with_reducible assumption
    | with_reducible apply State.dropLines_ok
    | with_reducible apply Launch.core_ok
    | with_reducible apply State.arrive_ok
    | with_reducible apply State.jobDenied_ok
    | with_reducible apply State.applyReduce_ok
    | with_reducible apply State.jobBad_ok
    | with_reducible apply State.putComplex_ok
    | with_reducible apply State.countSignal_ok
    | with_reducible apply State.applySignal_ok
    | with_reducible apply State.atomicRefused_ok
    | with_reducible apply State.applyAtomic_ok
    | with_reducible apply Core.setAcc_ok
    | with_reducible apply State.reply_ok
    | with_reducible apply State.setCore_ok
    | with_reducible apply State.Ok.getD
    | with_reducible apply State.Ok.core
    | with_reducible apply State.Ok.cur
    | with_reducible refine State.Ok.ofPair (by with_reducible assumption) ?_
    | with_reducible refine State.Ok.ofSome (by with_reducible assumption) ?_
    | intro _
    | extract_lets
    | split
    | with_reducible apply State.Ok.ite
    | with_reducible apply Core.Ok.ite

theorem execStampedMessageDelivery_ok (k : Nat) {s : State} (hs : s.Ok) :
    OutOk (execStampedMessageDelivery k s) := by
  unfold execStampedMessageDelivery
  repeat' first
    | with_reducible assumption
    | with_reducible apply outOk_next
    | with_reducible apply State.setMs_ok
    | with_reducible apply State.setClock_ok
    | with_reducible apply State.stamp_ok
    | with_reducible apply State.deliver_ok
    | with_reducible refine State.Ok.ofPair (by with_reducible assumption) ?_
    | with_reducible refine State.Ok.ofSome (by with_reducible assumption) ?_
    | intro _
    | extract_lets
    | split

theorem execDirectoryInvalidate_ok (clu : Nat) (line : Nat) {s : State} (hs : s.Ok) : OutOk (execDirectoryInvalidate clu line s) := by
  unfold execDirectoryInvalidate
  repeat' first
    | with_reducible assumption | with_reducible apply outOk_next | with_reducible apply State.dropLines_ok

end Sys2Proof.Machine
end

