-- ==== Sys2Proof/Laws/OkMemAcc.lean ====
section
/-! SUPPORT. Every operation of Machine/MemAcc.lean keeps a sound state sound. -/

namespace Sys2Proof.Machine

theorem Core.issueAcc_ok {c : Core} (a : Access) (hc : c.Ok) : (Core.issueAcc c a).Ok := by
  unfold Core.issueAcc
  repeat' first
    | with_reducible assumption | with_reducible apply Core.addSt_ok | extract_lets | split

theorem State.issueLanding_ok {s : State} (rem : Nat) (dest : LoadDest) (cap : Cap) (srcs : List (Nat × Nat × Nat)) (mask : Vec) (rank : Option Nat) (hs : s.Ok) : ExOk (State.issueLanding s rem dest cap srcs mask rank) := by
  unfold State.issueLanding
  repeat' first
    | with_reducible assumption
    | with_reducible apply State.sampleLanding_ok
    | with_reducible apply State.setCore_ok
    | with_reducible apply State.Ok.cur
    | with_reducible apply State.Ok.core
    | with_reducible apply exOk_ok
    | with_reducible apply exOk_error
    | extract_lets
    | split

theorem State.spadDenied_ok {s : State} (key : Nat) (hs : s.Ok) :
    (State.spadDenied s key).Ok := by
  unfold State.spadDenied
  repeat' first
    | with_reducible assumption
    | with_reducible apply Launch.core_ok
    | with_reducible apply State.countDenial_ok
    | with_reducible apply State.Ok.core
    | with_reducible apply State.Ok.cur
    | intro _
    | extract_lets
    | split

theorem State.spadRead_ok {s : State} (cap : Cap) (addr : Nat) (hs : s.Ok) :
    (State.spadRead s cap addr).Ok := by
  unfold State.spadRead
  repeat' first
    | with_reducible assumption
    | with_reducible apply State.spadDenied_ok

theorem State.issueStore_ok {s : State} (cap : Cap) (off : Nat) (bytes : List (Nat × Byte)) (unit : Nat) (rel : Option Scope) (acq : Option Scope) (rank : Option Nat) (hs : s.Ok) :
    (State.issueStore s cap off bytes unit rel acq rank).Ok := by
  unfold State.issueStore
  repeat' first
    | with_reducible assumption
    | with_reducible apply State.spadStore_ok
    | with_reducible apply Launch.core_ok
    | with_reducible apply State.writeBytes_ok
    | with_reducible apply State.store_ok
    | with_reducible apply State.setCur_ok
    | with_reducible apply Core.issueAcc_ok
    | with_reducible apply State.Ok.core
    | with_reducible apply State.Ok.cur
    | with_reducible refine State.Ok.ofPair (by with_reducible assumption) ?_
    | with_reducible refine State.Ok.ofSome (by with_reducible assumption) ?_
    | intro _
    | extract_lets
    | split

theorem execVld_ok (f : VmF) {s : State} (hs : s.Ok) :
    OutOk (execVld f s) := by
  unfold execVld
  repeat' first
    | with_reducible assumption
    | with_reducible apply outOk_next
    | with_reducible apply slotOpS_ok
    | with_reducible apply Launch.core_ok
    | with_reducible apply State.issueLanding_ok
    | with_reducible apply State.spadRead_ok
    | with_reducible apply State.setCur_ok
    | with_reducible apply Core.push_ok
    | with_reducible apply State.Ok.core
    | with_reducible apply State.Ok.cur
    | with_reducible apply exOk_ok
    | with_reducible apply exOk_error
    | with_reducible apply exOk_bind_state
    | with_reducible apply exOk_bind
    | intro _
    | extract_lets
    | split

theorem execVst_ok (f : VstF) {s : State} (hs : s.Ok) :
    OutOk (execVst f s) := by
  unfold execVst
  repeat' first
    | with_reducible assumption
    | with_reducible apply outOk_next
    | with_reducible apply slotOpS_ok
    | with_reducible apply Launch.core_ok
    | with_reducible apply State.issueStore_ok
    | with_reducible apply State.Ok.core
    | with_reducible apply State.Ok.cur
    | with_reducible apply exOk_ok
    | with_reducible apply exOk_error
    | with_reducible apply exOk_bind_state
    | with_reducible apply exOk_bind
    | intro _

theorem execVstm_ok (f : VsmF) {s : State} (hs : s.Ok) :
    OutOk (execVstm f s) := by
  unfold execVstm
  repeat' first
    | with_reducible assumption
    | with_reducible apply outOk_next
    | with_reducible apply slotOpS_ok
    | with_reducible apply Launch.core_ok
    | with_reducible apply State.issueStore_ok
    | with_reducible apply State.Ok.core
    | with_reducible apply State.Ok.cur
    | with_reducible apply exOk_ok
    | with_reducible apply exOk_error
    | with_reducible apply exOk_bind_state
    | with_reducible apply exOk_bind
    | intro _

theorem execVgather_ok (f : VmF) {s : State} (hs : s.Ok) :
    OutOk (execVgather f s) := by
  unfold execVgather
  repeat' first
    | with_reducible assumption
    | with_reducible apply exOk_bind
    | with_reducible apply exOk_bind_state
    | with_reducible apply exOk_error
    | with_reducible apply exOk_ok
    | with_reducible apply slotOpS_ok
    | with_reducible apply outOk_next
    | with_reducible apply slotOpE_ok
    | with_reducible apply Launch.core_ok
    | with_reducible apply State.issueLanding_ok
    | with_reducible apply State.spadRead_ok
    | with_reducible apply State.setCur_ok
    | with_reducible apply Core.push_ok
    | with_reducible apply State.Ok.core
    | with_reducible apply State.Ok.cur
    | intro _
    | extract_lets
    | split
    | with_reducible apply State.Ok.ite
    | with_reducible apply Core.Ok.ite

theorem execVscatter_ok (f : VsmF) {s : State} (hs : s.Ok) :
    OutOk (execVscatter f s) := by
  unfold execVscatter
  repeat' first
    | with_reducible assumption
    | with_reducible apply exOk_bind
    | with_reducible apply exOk_bind_state
    | with_reducible apply exOk_error
    | with_reducible apply exOk_ok
    | with_reducible apply slotOpS_ok
    | with_reducible apply outOk_next
    | with_reducible apply slotOpE_ok
    | with_reducible apply Launch.core_ok
    | with_reducible apply State.issueStore_ok
    | with_reducible apply State.Ok.getD
    | with_reducible apply State.Ok.core
    | with_reducible apply State.Ok.cur
    | with_reducible refine State.Ok.ofPair (by with_reducible assumption) ?_
    | with_reducible refine State.Ok.ofSome (by with_reducible assumption) ?_
    | intro _
    | extract_lets
    | split
    | with_reducible apply State.Ok.ite
    | with_reducible apply Core.Ok.ite

theorem execLd_ok (f : LdF) {s : State} (hs : s.Ok) :
    OutOk (execLd f s) := by
  unfold execLd
  repeat' first
    | with_reducible assumption
    | with_reducible apply outOk_next
    | with_reducible apply slotOpS_ok
    | with_reducible apply Launch.core_ok
    | with_reducible apply State.issueLanding_ok
    | with_reducible apply State.spadRead_ok
    | with_reducible apply State.setCur_ok
    | with_reducible apply Core.push_ok
    | with_reducible apply State.Ok.core
    | with_reducible apply State.Ok.cur
    | with_reducible apply exOk_ok
    | with_reducible apply exOk_error
    | with_reducible apply exOk_bind_state
    | with_reducible apply exOk_bind
    | intro _
    | extract_lets
    | split

theorem execSt_ok (f : LsF) {s : State} (hs : s.Ok) :
    OutOk (execSt f s) := by
  unfold execSt
  repeat' first
    | with_reducible assumption
    | with_reducible apply outOk_next
    | with_reducible apply slotOpS_ok
    | with_reducible apply Launch.core_ok
    | with_reducible apply State.issueStore_ok
    | with_reducible apply State.Ok.core
    | with_reducible apply State.Ok.cur
    | with_reducible apply exOk_ok
    | with_reducible apply exOk_error
    | with_reducible apply exOk_bind_state
    | with_reducible apply exOk_bind
    | intro _

theorem execLdSc_ok (f : LsF) {s : State} (hs : s.Ok) : OutOk (execLdSc f s) := by
  unfold execLdSc
  repeat' first
    | with_reducible assumption
    | with_reducible apply State.issueLanding_ok
    | with_reducible apply slotOpS_ok
    | with_reducible apply exOk_ok
    | with_reducible apply exOk_bind_state
    | with_reducible apply exOk_bind
    | intro _

theorem execStSc_ok (f : LsF) {s : State} (hs : s.Ok) :
    OutOk (execStSc f s) := by
  unfold execStSc
  repeat' first
    | with_reducible assumption
    | with_reducible apply outOk_next
    | with_reducible apply slotOpS_ok
    | with_reducible apply Launch.core_ok
    | with_reducible apply State.issueStore_ok
    | with_reducible apply State.Ok.core
    | with_reducible apply State.Ok.cur
    | with_reducible apply exOk_ok
    | with_reducible apply exOk_error
    | with_reducible apply exOk_bind_state
    | with_reducible apply exOk_bind
    | with_reducible refine State.Ok.ofPair (by with_reducible assumption) ?_
    | with_reducible refine State.Ok.ofSome (by with_reducible assumption) ?_
    | intro _

theorem execVpref_ok (f : VprefF) {s : State} (hs : s.Ok) :
    OutOk (execVpref f s) := by
  unfold execVpref
  repeat' first
    | with_reducible assumption
    | with_reducible apply outOk_next
    | with_reducible apply slotOpS_ok
    | with_reducible apply Launch.core_ok
    | with_reducible apply State.recoded_ok
    | with_reducible apply State.recordTransfer_ok
    | with_reducible apply State.fill_ok
    | with_reducible apply State.Ok.core
    | with_reducible apply State.Ok.cur
    | with_reducible apply exOk_ok
    | with_reducible apply exOk_error
    | with_reducible apply exOk_bind_state
    | with_reducible apply exOk_bind
    | intro _
    | extract_lets
    | split
    | with_reducible apply State.Ok.ite
    | with_reducible apply Core.Ok.ite

end Sys2Proof.Machine
end

