-- ==== Sys2Proof/Laws/OkAtomic.lean ====
section
/-! SUPPORT. Every operation of Machine/Atomic.lean keeps a sound state sound. -/

namespace Sys2Proof.Machine

theorem State.spadRefused_ok {s : State} (a : Access) (replay : Option Access) (hs : s.Ok) :
    (State.spadRefused s a replay).Ok := by
  unfold State.spadRefused
  repeat' first
    | with_reducible assumption
    | with_reducible apply Launch.core_ok
    | with_reducible apply State.countDenial_ok
    | with_reducible apply Core.defer_ok
    | with_reducible apply State.setCore_ok
    | with_reducible apply State.Ok.core

theorem State.spadAmo_ok {s : State} (a : Access) (op : AmoOp) (xd : XReg) (src : DWord) (cmp : DWord) (hs : s.Ok) :
    (State.spadAmo s a op xd src cmp).Ok := by
  unfold State.spadAmo
  repeat' first
    | with_reducible assumption
    | with_reducible apply Launch.core_ok
    | with_reducible apply State.spadRefused_ok
    | with_reducible apply State.applyAmo_ok
    | with_reducible apply Core.push_ok
    | with_reducible apply State.atomicAcquire_ok
    | with_reducible apply Core.defer_ok
    | with_reducible apply State.setCore_ok
    | with_reducible apply State.Ok.core
    | with_reducible apply State.Ok.cur
    | with_reducible refine State.Ok.ofPair (by with_reducible assumption) ?_
    | with_reducible refine State.Ok.ofSome (by with_reducible assumption) ?_
    | intro _
    | extract_lets
    | split

theorem amoOp_ok (i : Instr) (f : AmoF) (op : AmoOp) {s : State} (hs : s.Ok) : OutOk (amoOp i f op s) := by
  unfold amoOp
  repeat' first
    | with_reducible assumption
    | with_reducible apply Core.issueAcc_ok
    | with_reducible apply State.spadAmo_ok
    | with_reducible apply slotOpS_ok
    | with_reducible apply State.setCur_ok
    | with_reducible apply exOk_ok
    | with_reducible apply exOk_bind
    | intro _
    | extract_lets
    | split

theorem execAmoadd_ok (f : AmoF) {s : State} (hs : s.Ok) : OutOk (execAmoadd f s) := by
  unfold execAmoadd
  repeat' first
    | with_reducible assumption | with_reducible apply amoOp_ok

theorem execAmomin_ok (f : AmoF) {s : State} (hs : s.Ok) : OutOk (execAmomin f s) := by
  unfold execAmomin
  repeat' first
    | with_reducible assumption | with_reducible apply amoOp_ok

theorem execAmomax_ok (f : AmoF) {s : State} (hs : s.Ok) : OutOk (execAmomax f s) := by
  unfold execAmomax
  repeat' first
    | with_reducible assumption | with_reducible apply amoOp_ok

theorem execAmominu_ok (f : AmoF) {s : State} (hs : s.Ok) : OutOk (execAmominu f s) := by
  unfold execAmominu
  repeat' first
    | with_reducible assumption | with_reducible apply amoOp_ok

theorem execAmomaxu_ok (f : AmoF) {s : State} (hs : s.Ok) : OutOk (execAmomaxu f s) := by
  unfold execAmomaxu
  repeat' first
    | with_reducible assumption | with_reducible apply amoOp_ok

theorem execAmoand_ok (f : AmoF) {s : State} (hs : s.Ok) : OutOk (execAmoand f s) := by
  unfold execAmoand
  repeat' first
    | with_reducible assumption | with_reducible apply amoOp_ok

theorem execAmoor_ok (f : AmoF) {s : State} (hs : s.Ok) : OutOk (execAmoor f s) := by
  unfold execAmoor
  repeat' first
    | with_reducible assumption | with_reducible apply amoOp_ok

theorem execAmoxor_ok (f : AmoF) {s : State} (hs : s.Ok) : OutOk (execAmoxor f s) := by
  unfold execAmoxor
  repeat' first
    | with_reducible assumption | with_reducible apply amoOp_ok

theorem execAmoswap_ok (f : AmoF) {s : State} (hs : s.Ok) : OutOk (execAmoswap f s) := by
  unfold execAmoswap
  repeat' first
    | with_reducible assumption | with_reducible apply amoOp_ok

theorem execAmocas_ok (f : AmoF) {s : State} (hs : s.Ok) : OutOk (execAmocas f s) := by
  unfold execAmocas
  repeat' first
    | with_reducible assumption | with_reducible apply amoOp_ok

theorem execAmoSc_ok (f : AmoScF) {s : State} (hs : s.Ok) : OutOk (execAmoSc f s) := by
  unfold execAmoSc
  repeat' first
    | with_reducible assumption
    | with_reducible apply Core.issueAcc_ok
    | with_reducible apply slotOpS_ok
    | with_reducible apply State.setCur_ok
    | with_reducible apply exOk_ok
    | with_reducible apply exOk_bind
    | intro _

theorem execLda_ok (f : VtxF) {s : State} (hs : s.Ok) :
    OutOk (execLda f s) := by
  unfold execLda
  repeat' first
    | with_reducible assumption
    | with_reducible apply outOk_next
    | with_reducible apply slotOpS_ok
    | with_reducible apply Launch.core_ok
    | with_reducible apply State.spadRead_ok
    | with_reducible apply State.setCur_ok
    | with_reducible apply Core.push_ok
    | with_reducible apply State.acquire_ok
    | with_reducible apply Core.issueAcc_ok
    | with_reducible apply State.Ok.core
    | with_reducible apply State.Ok.cur
    | with_reducible apply exOk_ok
    | with_reducible apply exOk_error
    | with_reducible apply exOk_bind_state
    | with_reducible apply exOk_bind
    | with_reducible refine State.Ok.ofPair (by with_reducible assumption) ?_
    | with_reducible refine State.Ok.ofSome (by with_reducible assumption) ?_
    | intro _
    | extract_lets
    | split

theorem execStl_ok (f : VtxF) {s : State} (hs : s.Ok) : OutOk (execStl f s) := by
  unfold execStl
  repeat' first
    | with_reducible assumption
    | with_reducible apply State.issueStore_ok
    | with_reducible apply slotOpS_ok
    | with_reducible apply exOk_ok
    | with_reducible apply exOk_bind
    | intro _

theorem execVfence_ok (f : VfenceF) {s : State} (hs : s.Ok) :
    OutOk (execVfence f s) := by
  unfold execVfence
  repeat' first
    | with_reducible assumption
    | with_reducible apply State.discardFar_ok
    | with_reducible apply outOk_next
    | with_reducible apply slotOpS_ok
    | with_reducible apply State.setCur_ok
    | with_reducible apply Core.fenceMark_ok
    | with_reducible apply Launch.core_ok
    | with_reducible apply State.settleFences_ok
    | with_reducible apply State.Ok.core
    | with_reducible apply State.Ok.cur
    | with_reducible apply exOk_ok
    | with_reducible apply exOk_error
    | with_reducible apply exOk_bind_state
    | with_reducible apply exOk_bind
    | intro _

theorem execCflush_ok (f : VtxF) {s : State} (hs : s.Ok) : OutOk (execCflush f s) := by
  unfold execCflush
  repeat' first
    | with_reducible assumption
    | with_reducible apply Core.issueAcc_ok
    | with_reducible apply slotOpS_ok
    | with_reducible apply State.setCur_ok
    | with_reducible apply exOk_ok
    | with_reducible apply exOk_bind
    | intro _
    | extract_lets
    | split

theorem State.spadVamo_ok (a : Access) (op : VamoOp) (rm : Rm) (offs : List Nat) (d : Vec) (js : List Nat) {s : State} (m o : Nat)
    (hs : s.Ok) : (State.spadVamo a op rm offs d js s m o).1.Ok := by
  induction js generalizing s m o with
  | nil => exact hs
  | cons j js ih =>
    unfold State.spadVamo
    split
    · exact hs
    · rename_i s' v e
      exact ih _ _ (State.Ok.ofPair e (State.applyVamo_ok _ _ _ _ _ _ hs))

theorem State.issueVamo_ok {s : State} {c : Core} (cap : Cap) (op : VamoOp) (phys : Nat) (act : BitVec 32) (offs : List Nat) (d : Vec) (ord : Ord) (sc : Scope) (hs : s.Ok) (hc : c.Ok) :
    (State.issueVamo s c cap op phys act offs d ord sc).Ok := by
  unfold State.issueVamo
  repeat' first
    | with_reducible assumption
    | with_reducible apply Launch.core_ok
    | with_reducible apply State.spadRefused_ok
    | with_reducible apply State.spadVamo_ok
    | with_reducible apply Core.push_ok
    | with_reducible apply State.atomicAcquire_ok
    | with_reducible apply Core.defer_ok
    | with_reducible apply State.setCur_ok
    | with_reducible apply Core.issueAcc_ok
    | with_reducible apply State.setCore_ok
    | with_reducible apply State.Ok.getD
    | with_reducible apply State.Ok.core
    | with_reducible apply State.Ok.cur
    | with_reducible refine State.Ok.ofPair (by with_reducible assumption) ?_
    | with_reducible refine State.Ok.ofSome (by with_reducible assumption) ?_
    | intro _
    | extract_lets
    | split
    | with_reducible apply State.Ok.ite
    | with_reducible apply Core.Ok.ite

theorem vamoInstr_ok (i : Instr) (f : VvF) (op : VamoOp) {s : State} (hs : s.Ok) :
    OutOk (vamoInstr i f op s) := by
  unfold vamoInstr
  repeat' first
    | with_reducible assumption
    | with_reducible apply exOk_bind
    | with_reducible apply exOk_ok
    | with_reducible apply slotOpS_ok
    | with_reducible apply outOk_next
    | with_reducible apply slotOpE_ok
    | with_reducible apply Launch.core_ok
    | with_reducible apply State.issueVamo_ok
    | with_reducible apply State.Ok.getD
    | with_reducible apply State.Ok.core
    | with_reducible apply State.Ok.cur
    | intro _
    | extract_lets
    | split
    | with_reducible apply State.Ok.ite
    | with_reducible apply Core.Ok.ite

theorem execVamoadd_ok (f : VvF) {s : State} (hs : s.Ok) : OutOk (execVamoadd f s) := by
  unfold execVamoadd
  repeat' first
    | with_reducible assumption | with_reducible apply vamoInstr_ok

theorem execVamomin_ok (f : VvF) {s : State} (hs : s.Ok) : OutOk (execVamomin f s) := by
  unfold execVamomin
  repeat' first
    | with_reducible assumption | with_reducible apply vamoInstr_ok

theorem execVamomax_ok (f : VvF) {s : State} (hs : s.Ok) : OutOk (execVamomax f s) := by
  unfold execVamomax
  repeat' first
    | with_reducible assumption | with_reducible apply vamoInstr_ok

theorem execVredst_ok (f : VvF) {s : State} (hs : s.Ok) : OutOk (execVredst f s) := by
  unfold execVredst
  repeat' first
    | with_reducible assumption
    | with_reducible apply State.issueVamo_ok
    | with_reducible apply slotOpS_ok
    | with_reducible apply exOk_ok
    | with_reducible apply exOk_bind
    | intro _

end Sys2Proof.Machine
end

