-- ==== Sys2Proof/Laws/OkBarrier.lean ====
section
/-! SUPPORT. Every operation of Machine/Barrier.lean keeps a sound state sound. -/

namespace Sys2Proof.Machine

theorem State.setBar_ok {s : State} (addr : Nat) (o : BarObj) (hs : s.Ok) : (State.setBar s addr o).Ok := by
  unfold State.setBar
  with_reducible assumption

theorem State.sendBar_ok {s : State} (flip : Bool) (addr : Nat) (arr : Arrival) (who : BarBy) (hs : s.Ok) :
    (State.sendBar s flip addr arr who).Ok := by
  unfold State.sendBar
  repeat' first
    | with_reducible assumption

theorem State.flipBar_ok (fuel : Nat) {s : State} (addr : Nat) (rel : Arrival) (who : BarBy) (hs : s.Ok) :
    (State.flipBar fuel s addr rel who).Ok := by
  induction fuel generalizing s addr rel who with
  | zero => exact hs
  | succ fuel ih =>
    unfold State.flipBar
    extract_lets o o' s1 s2
    have h1 : s1.Ok := State.setBar_ok _ _ hs
    have h2 : s2.Ok := State.Ok.foldl _ h1 (fun _ _ h => State.sendBar_ok _ _ _ _ h)
    split
    · split
      · exact State.sendBar_ok _ _ _ _ h2
      · exact ih _ _ _ h2
    · exact h2

theorem State.completeBar_ok {s : State} (addr : Nat) (who : BarBy) (hs : s.Ok) :
    (State.completeBar s addr who).Ok := by
  unfold State.completeBar
  repeat' first
    | with_reducible assumption
    | with_reducible apply State.sendBar_ok
    | with_reducible apply State.flipBar_ok
    | intro _
    | extract_lets
    | split

theorem State.countArrival_ok {s : State} (addr : Nat) (a : Arrival) (who : BarBy) (hs : s.Ok) :
    (State.countArrival s addr a who).Ok := by
  unfold State.countArrival
  repeat' first
    | with_reducible assumption
    | with_reducible apply State.setBar_ok
    | with_reducible apply State.completeBar_ok
    | intro _
    | extract_lets
    | split

theorem State.addChild_ok {s : State} (parent : Nat) (child : Nat) (hs : s.Ok) :
    OptOk (State.addChild s parent child) := by
  unfold State.addChild
  repeat' first
    | with_reducible assumption
    | with_reducible apply optOk_some
    | with_reducible exact optOk_none
    | with_reducible apply State.setBar_ok
    | with_reducible refine State.Ok.ofPair (by with_reducible assumption) ?_
    | with_reducible refine State.Ok.ofSome (by with_reducible assumption) ?_
    | intro _
    | extract_lets
    | split

theorem State.dropChild_ok {s : State} (parent : Nat) (child : Nat) (hs : s.Ok) :
    (State.dropChild s parent child).Ok := by
  unfold State.dropChild
  repeat' first
    | with_reducible assumption
    | with_reducible apply State.setBar_ok
    | intro _
    | extract_lets
    | split

theorem State.barInit_ok {s : State} (addr : Nat) (e : Nat) (u : Bool) (hs : s.Ok) :
    OptOk (State.barInit s addr e u) := by
  unfold State.barInit
  repeat' first
    | with_reducible assumption
    | with_reducible apply optOk_some
    | with_reducible exact optOk_none
    | with_reducible apply State.dropChild_ok
    | with_reducible apply State.setBar_ok
    | with_reducible refine State.Ok.ofPair (by with_reducible assumption) ?_
    | with_reducible refine State.Ok.ofSome (by with_reducible assumption) ?_
    | intro _
    | extract_lets
    | split
    | with_reducible apply State.Ok.ite

theorem State.barLink_ok {s : State} (child : Nat) (cap : Cap) (parent : Nat) (hs : s.Ok) :
    OptOk (State.barLink s child cap parent) := by
  unfold State.barLink
  repeat' first
    | with_reducible assumption
    | with_reducible apply optOk_some
    | with_reducible exact optOk_none
    | with_reducible apply State.setBar_ok
    | with_reducible apply State.addChild_ok
    | with_reducible apply State.Ok.getD
    | with_reducible refine State.Ok.ofPair (by with_reducible assumption) ?_
    | with_reducible refine State.Ok.ofSome (by with_reducible assumption) ?_
    | intro _
    | extract_lets
    | split
    | with_reducible apply State.Ok.ite

theorem State.barArrive_ok {s : State} (addr : Nat) (n : Nat) (sc : Scope) (hs : s.Ok) :
    OptOk (State.barArrive s addr n sc) := by
  unfold State.barArrive
  repeat' first
    | with_reducible assumption
    | with_reducible apply optOk_some
    | with_reducible exact optOk_none
    | with_reducible apply State.countArrival_ok
    | with_reducible apply Launch.core_ok
    | with_reducible apply State.Ok.core
    | with_reducible apply State.Ok.cur
    | with_reducible refine State.Ok.ofPair (by with_reducible assumption) ?_
    | with_reducible refine State.Ok.ofSome (by with_reducible assumption) ?_
    | intro _
    | extract_lets
    | split

theorem State.writeToken_ok {s : State} (n : Nat) (req : BarReq) (addr : Nat) (hs : s.Ok) : (State.writeToken s n req addr).Ok := by
  unfold State.writeToken
  repeat' first
    | with_reducible assumption
    | with_reducible apply Core.wx_ok
    | with_reducible apply State.setCore_ok
    | with_reducible apply State.Ok.core
    | split

theorem State.askBar_ok {s : State} {c : Core} (req : BarReq) (cap : Cap) (off : Nat) (hs : s.Ok) (hc : c.Ok) : (State.askBar s c req cap off).Ok := by
  unfold State.askBar
  repeat' first
    | with_reducible assumption | with_reducible apply Core.addSt_ok | with_reducible apply State.setCur_ok

theorem execBinit_ok (f : BinitF) {s : State} (hs : s.Ok) : OutOk (execBinit f s) := by
  unfold execBinit
  repeat' first
    | with_reducible assumption
    | with_reducible apply State.askBar_ok
    | with_reducible apply slotOpS_ok
    | with_reducible apply exOk_ok
    | with_reducible apply exOk_bind
    | intro _

theorem execBlink_ok (f : BlinkF) {s : State} (hs : s.Ok) : OutOk (execBlink f s) := by
  unfold execBlink
  repeat' first
    | with_reducible assumption
    | with_reducible apply State.askBar_ok
    | with_reducible apply slotOpS_ok
    | with_reducible apply exOk_ok
    | with_reducible apply exOk_bind
    | intro _

theorem execBarrive_ok (f : BarF) {s : State} (hs : s.Ok) : OutOk (execBarrive f s) := by
  unfold execBarrive
  repeat' first
    | with_reducible assumption
    | with_reducible apply State.askBar_ok
    | with_reducible apply slotOpS_ok
    | with_reducible apply exOk_ok
    | with_reducible apply exOk_bind
    | intro _

theorem execBwaitp_ok (f : BarF) {s : State} (hs : s.Ok) : OutOk (execBwaitp f s) := by
  unfold execBwaitp
  repeat' first
    | with_reducible assumption
    | with_reducible apply Core.push_ok
    | with_reducible apply State.acquire_ok
    | with_reducible apply slotOpS_ok
    | with_reducible apply State.setCur_ok
    | with_reducible apply exOk_ok
    | with_reducible apply exOk_error
    | with_reducible apply exOk_bind
    | intro _
    | extract_lets
    | split

theorem execBarrierAnswer_ok (n : Nat) {s : State} (hs : s.Ok) : OutOk (execBarrierAnswer n s) := by
  unfold execBarrierAnswer
  extract_lets c
  have hc : c.Ok := hs.core n
  clear_value c
  split
  · exact outOk_next hs
  · rename_i w rest hbar
    extract_lets addr rel s1 s2 done
    have h1 : s1.Ok := State.setCore_ok n hs (Core.dropFences_ok (Core.subSt_ok hc))
    clear_value s1
    have h2 : s2.Ok := State.writeToken_ok n w.req addr h1
    clear_value s2
    have hd : OptOk done := by
      show OptOk (match w.req with
        | .init xb u => s2.barInit addr xb.toNat u
        | .link cap poff => s2.barLink addr cap (capBase cap + poff)
        | .arrive _ sc => s2.barArrive addr n sc)
      split
      · exact State.barInit_ok _ _ _ h2
      · exact State.barLink_ok _ _ _ h2
      · exact State.barArrive_ok _ _ _ h2
    clear_value done
    split
    · exact outOk_next hs
    · split
      · exact outOk_next hs
      · cases done with
        | some s' => exact outOk_next hd
        | none =>
          refine outOk_next (State.Ok.withFree (State.setCore_ok n h2 ?_) _)
          exact h2.core n

theorem State.barOverflow_ok {s : State} (addr : Nat) (who : BarBy) (hs : s.Ok) :
    (State.barOverflow s addr who).Ok := by
  unfold State.barOverflow
  repeat' first
    | with_reducible assumption
    | with_reducible apply Launch.core_ok
    | with_reducible apply State.mcRecord_ok

theorem State.arriveAt_ok {s : State} (addr : Nat) (a : Arrival) (who : BarBy) (hs : s.Ok) :
    (State.arriveAt s addr a who).Ok := by
  unfold State.arriveAt
  repeat' first
    | with_reducible assumption
    | with_reducible apply State.barOverflow_ok
    | with_reducible apply State.countArrival_ok
    | intro _
    | extract_lets
    | split
    | with_reducible apply State.Ok.ite

theorem State.flipAt_ok {s : State} (addr : Nat) (a : Arrival) (who : BarBy) (hs : s.Ok) :
    (State.flipAt s addr a who).Ok := by
  unfold State.flipAt
  repeat' first
    | with_reducible assumption
    | with_reducible apply State.flipBar_ok
    | intro _
    | extract_lets
    | split

theorem execBarrierArrivalReceived_ok (k : Nat) {s : State} (hs : s.Ok) :
    OutOk (execBarrierArrivalReceived k s) := by
  unfold execBarrierArrivalReceived
  repeat' first
    | with_reducible assumption
    | with_reducible apply State.countArrival_ok
    | with_reducible apply outOk_next
    | with_reducible apply State.arriveAt_ok
    | with_reducible refine State.Ok.ofPair (by with_reducible assumption) ?_
    | with_reducible refine State.Ok.ofSome (by with_reducible assumption) ?_
    | intro _
    | extract_lets
    | split

theorem execBarrierFlipReceived_ok (k : Nat) {s : State} (hs : s.Ok) :
    OutOk (execBarrierFlipReceived k s) := by
  unfold execBarrierFlipReceived
  repeat' first
    | with_reducible assumption
    | with_reducible apply State.flipBar_ok
    | with_reducible apply outOk_next
    | with_reducible apply State.flipAt_ok
    | with_reducible refine State.Ok.ofPair (by with_reducible assumption) ?_
    | with_reducible refine State.Ok.ofSome (by with_reducible assumption) ?_
    | intro _
    | extract_lets
    | split

theorem State.barIn_ok {s : State} (pkg : BitVec 10) (m : LinkIn) (hs : s.Ok) :
    (State.barIn s pkg m).Ok := by
  unfold State.barIn
  repeat' first
    | with_reducible assumption
    | with_reducible apply State.arriveAt_ok
    | with_reducible apply State.flipAt_ok
    | with_reducible apply State.addChild_ok
    | with_reducible apply State.dropChild_ok
    | with_reducible apply State.Ok.getD
    | with_reducible refine State.Ok.ofPair (by with_reducible assumption) ?_
    | with_reducible refine State.Ok.ofSome (by with_reducible assumption) ?_
    | intro _
    | extract_lets
    | split
    | with_reducible apply State.Ok.ite
    | with_reducible apply Core.Ok.ite

end Sys2Proof.Machine
end

