-- ==== Sys2Proof/Laws/OkMatrix.lean ====
section
/-! SUPPORT. Every operation of Machine/Matrix.lean keeps a sound state sound. -/

namespace Sys2Proof.Machine

theorem execOclaim_ok (os : OSlot) {s : State} (hs : s.Ok) : OutOk (execOclaim os s) := by
  unfold execOclaim
  repeat' first
    | with_reducible assumption
    | with_reducible apply Core.push_ok
    | with_reducible apply matOp_ok
    | with_reducible apply State.setCur_ok
    | with_reducible apply exOk_ok
    | with_reducible apply exOk_error
    | with_reducible apply exOk_bind
    | intro _
    | extract_lets
    | split

theorem execOrelease_ok (os : OSlot) {s : State} (hs : s.Ok) : OutOk (execOrelease os s) := by
  unfold execOrelease
  repeat' first
    | with_reducible assumption
    | with_reducible apply Core.push_ok
    | with_reducible apply matOp_ok
    | with_reducible apply State.setCur_ok
    | with_reducible apply exOk_ok
    | with_reducible apply exOk_bind
    | intro _

theorem execOload_ok (f : OloadF) {s : State} (hs : s.Ok) : OutOk (execOload f s) := by
  unfold execOload
  repeat' first
    | with_reducible assumption
    | with_reducible apply Core.push_ok
    | with_reducible apply matOp_ok
    | with_reducible apply State.setCur_ok
    | with_reducible apply exOk_ok
    | with_reducible apply exOk_bind
    | intro _

theorem execWload_ok (f : MwF) {s : State} (hs : s.Ok) : OutOk (execWload f s) := by
  unfold execWload
  repeat' first
    | with_reducible assumption
    | with_reducible apply Core.addWl_ok
    | with_reducible apply matOp_ok
    | with_reducible apply State.setCur_ok
    | with_reducible apply exOk_ok
    | with_reducible apply exOk_bind
    | intro _

theorem execMzero_ok (f : MzF) {s : State} (hs : s.Ok) : OutOk (execMzero f s) := by
  unfold execMzero
  repeat' first
    | with_reducible assumption
    | with_reducible apply Core.push_ok
    | with_reducible apply matOp_ok
    | with_reducible apply State.setCur_ok
    | with_reducible apply exOk_ok
    | with_reducible apply exOk_bind
    | intro _

theorem execMmov_ok (f : M1F) {s : State} (hs : s.Ok) : OutOk (execMmov f s) := by
  unfold execMmov
  repeat' first
    | with_reducible assumption
    | with_reducible apply Core.push_ok
    | with_reducible apply matOp_ok
    | with_reducible apply State.setCur_ok
    | with_reducible apply exOk_ok
    | with_reducible apply exOk_bind
    | intro _
    | extract_lets
    | split

theorem execMrd_ok (f : MrwF) {s : State} (hs : s.Ok) : OutOk (execMrd f s) := by
  unfold execMrd
  repeat' first
    | with_reducible assumption
    | with_reducible apply Core.push_ok
    | with_reducible apply matOp_ok
    | with_reducible apply State.setCur_ok
    | with_reducible apply exOk_ok
    | with_reducible apply exOk_error
    | with_reducible apply exOk_bind
    | intro _
    | extract_lets
    | split

theorem execMwr_ok (f : MrwF) {s : State} (hs : s.Ok) : OutOk (execMwr f s) := by
  unfold execMwr
  repeat' first
    | with_reducible assumption
    | with_reducible apply Core.push_ok
    | with_reducible apply matOp_ok
    | with_reducible apply State.setCur_ok
    | with_reducible apply exOk_ok
    | with_reducible apply exOk_error
    | with_reducible apply exOk_bind
    | intro _
    | extract_lets
    | split

theorem Core.pushEng_ok {c : Core} (o : EngOp) (hc : c.Ok) : (Core.pushEng c o).Ok := by
  unfold Core.pushEng
  repeat' first
    | with_reducible assumption | with_reducible apply Core.addTl_ok

theorem State.startMma_ok {s : State} {c : Core} (f : MaF) (m : MmaForm) (rows : List (Option (List (Option Nat)))) (k : Nat) (hs : s.Ok) (hc : c.Ok) : (State.startMma s c f m rows k).Ok := by
  unfold State.startMma
  repeat' first
    | with_reducible assumption | with_reducible apply Core.pushEng_ok | with_reducible apply State.setCur_ok

theorem denseMma_ok (i : Instr) (f : MaF) (t : Fmt) {s : State} (hs : s.Ok) : OutOk (denseMma i f t s) := by
  unfold denseMma
  repeat' first
    | with_reducible assumption
    | with_reducible apply State.startMma_ok
    | with_reducible apply matOpL_ok
    | with_reducible apply exOk_ok
    | with_reducible apply exOk_bind
    | intro _
    | extract_lets
    | split

theorem execMmaF64_ok (f : MaF) {s : State} (hs : s.Ok) : OutOk (execMmaF64 f s) := by
  unfold execMmaF64
  repeat' first
    | with_reducible assumption | with_reducible apply denseMma_ok

theorem execMmaF32_ok (f : MaF) {s : State} (hs : s.Ok) : OutOk (execMmaF32 f s) := by
  unfold execMmaF32
  repeat' first
    | with_reducible assumption | with_reducible apply denseMma_ok

theorem execMmaBf16_ok (f : MaF) {s : State} (hs : s.Ok) : OutOk (execMmaBf16 f s) := by
  unfold execMmaBf16
  repeat' first
    | with_reducible assumption | with_reducible apply denseMma_ok

theorem execMmaF16_ok (f : MaF) {s : State} (hs : s.Ok) : OutOk (execMmaF16 f s) := by
  unfold execMmaF16
  repeat' first
    | with_reducible assumption | with_reducible apply denseMma_ok

theorem execMmaI8_ok (f : MaF) {s : State} (hs : s.Ok) : OutOk (execMmaI8 f s) := by
  unfold execMmaI8
  repeat' first
    | with_reducible assumption | with_reducible apply denseMma_ok

theorem execMmaI4_ok (f : MaF) {s : State} (hs : s.Ok) : OutOk (execMmaI4 f s) := by
  unfold execMmaI4
  repeat' first
    | with_reducible assumption | with_reducible apply denseMma_ok

theorem execMmaL6_ok (f : MaF) {s : State} (hs : s.Ok) : OutOk (execMmaL6 f s) := by
  unfold execMmaL6
  repeat' first
    | with_reducible assumption | with_reducible apply denseMma_ok

theorem sparseMma_ok (i : Instr) (f : MaF) (per : Nat) {s : State} (hs : s.Ok) : OutOk (sparseMma i f per s) := by
  unfold sparseMma
  repeat' first
    | with_reducible assumption
    | with_reducible apply State.startMma_ok
    | with_reducible apply matOpL_ok
    | with_reducible apply exOk_ok
    | with_reducible apply exOk_error
    | with_reducible apply exOk_bind
    | intro _
    | extract_lets
    | split

theorem execMmaS24_ok (f : MaF) {s : State} (hs : s.Ok) : OutOk (execMmaS24 f s) := by
  unfold execMmaS24
  repeat' first
    | with_reducible assumption | with_reducible apply sparseMma_ok

theorem execMmaS14_ok (f : MaF) {s : State} (hs : s.Ok) : OutOk (execMmaS14 f s) := by
  unfold execMmaS14
  repeat' first
    | with_reducible assumption | with_reducible apply sparseMma_ok

end Sys2Proof.Machine
end

