-- ==== Sys2Proof/Laws/OkButterfly.lean ====
section
/-! SUPPORT. Every operation of Machine/Butterfly.lean keeps a sound state sound. -/

namespace Sys2Proof.Machine

theorem Core.startComplex_ok {c : Core} (d : Nat) (md : MReg) (tiles : List MReg) (slots : List OSlot) (wide : Bool) (pts : List Pt) (fl : Flags) (xd : Option (XReg × DWord)) (hc : c.Ok) : (Core.startComplex c d md tiles slots wide pts fl xd).Ok := by
  unfold Core.startComplex
  repeat' first
    | with_reducible assumption | with_reducible apply Core.pushEng_ok

theorem mbfly_ok (i : Instr) (f : MbF) (wide : Bool) {s : State} (hs : s.Ok) : OutOk (mbfly i f wide s) := by
  unfold mbfly
  repeat' first
    | with_reducible assumption
    | with_reducible apply Core.startComplex_ok
    | with_reducible apply matOp_ok
    | with_reducible apply State.setCur_ok
    | with_reducible apply exOk_ok
    | with_reducible apply exOk_error
    | with_reducible apply exOk_bind
    | intro _
    | extract_lets
    | split

theorem execMbflyC64_ok (f : MbF) {s : State} (hs : s.Ok) : OutOk (execMbflyC64 f s) := by
  unfold execMbflyC64
  repeat' first
    | with_reducible assumption | with_reducible apply mbfly_ok

theorem execMbflyC128_ok (f : MbF) {s : State} (hs : s.Ok) : OutOk (execMbflyC128 f s) := by
  unfold execMbflyC128
  repeat' first
    | with_reducible assumption | with_reducible apply mbfly_ok

theorem execMbrev_ok (f : MbrevF) {s : State} (hs : s.Ok) : OutOk (execMbrev f s) := by
  unfold execMbrev
  repeat' first
    | with_reducible assumption
    | with_reducible apply Core.startComplex_ok
    | with_reducible apply matOpL_ok
    | with_reducible apply State.setCur_ok
    | with_reducible apply exOk_ok
    | with_reducible apply exOk_error
    | with_reducible apply exOk_bind
    | intro _
    | extract_lets
    | split
    | dsimp +zetaDelta only

theorem mtwmul_ok (i : Instr) (f : MbF) (wide : Bool) {s : State} (hs : s.Ok) : OutOk (mtwmul i f wide s) := by
  unfold mtwmul
  repeat' first
    | with_reducible assumption
    | with_reducible apply Core.startComplex_ok
    | with_reducible apply matOp_ok
    | with_reducible apply State.setCur_ok
    | with_reducible apply exOk_ok
    | with_reducible apply exOk_bind
    | intro _
    | extract_lets
    | split

theorem execMtwmulC64_ok (f : MbF) {s : State} (hs : s.Ok) : OutOk (execMtwmulC64 f s) := by
  unfold execMtwmulC64
  repeat' first
    | with_reducible assumption | with_reducible apply mtwmul_ok

theorem execMtwmulC128_ok (f : MbF) {s : State} (hs : s.Ok) : OutOk (execMtwmulC128 f s) := by
  unfold execMtwmulC128
  repeat' first
    | with_reducible assumption | with_reducible apply mtwmul_ok

end Sys2Proof.Machine
end

