-- ==== Sys2Proof/Laws/OkCaps.lean ====
section
/-! SUPPORT. Every operation of Machine/Caps.lean keeps a sound state sound. -/

namespace Sys2Proof.Machine

theorem execCldh_ok (f : CmF) {s : State} (hs : s.Ok) : OutOk (execCldh f s) := by
  unfold execCldh
  repeat' first
    | with_reducible assumption
    | with_reducible apply Core.issueAcc_ok
    | with_reducible apply State.spadRead_ok
    | with_reducible apply Core.push_ok
    | with_reducible apply slotOpS_ok
    | with_reducible apply State.setCur_ok
    | with_reducible apply exOk_ok
    | with_reducible apply exOk_bind
    | intro _
    | extract_lets
    | split

theorem execCsth_ok (f : CmF) {s : State} (hs : s.Ok) : OutOk (execCsth f s) := by
  unfold execCsth
  repeat' first
    | with_reducible assumption
    | with_reducible apply Core.issueAcc_ok
    | with_reducible apply State.spadStore_ok
    | with_reducible apply State.storeTagged_ok
    | with_reducible apply slotOpS_ok
    | with_reducible apply State.setCur_ok
    | with_reducible apply exOk_ok
    | with_reducible apply exOk_bind
    | intro _
    | extract_lets
    | split

theorem execCnarrow_ok (f : CnF) {s : State} (hs : s.Ok) : OutOk (execCnarrow f s) := by
  unfold execCnarrow
  repeat' first
    | with_reducible assumption
    | with_reducible apply Core.push_ok
    | with_reducible apply slotOp_ok
    | with_reducible apply coreExOk_ok
    | with_reducible apply coreExOk_error
    | with_reducible apply coreExOk_bind
    | intro _
    | extract_lets
    | split

theorem execCget_ok (f : CgF) {s : State} (hs : s.Ok) : OutOk (execCget f s) := by
  unfold execCget
  repeat' first
    | with_reducible assumption
    | with_reducible apply Core.push_ok
    | with_reducible apply slotOp_ok
    | with_reducible apply coreExOk_ok
    | intro _

theorem execCmov_ok (f : CvF) {s : State} (hs : s.Ok) : OutOk (execCmov f s) := by
  unfold execCmov
  repeat' first
    | with_reducible assumption
    | with_reducible apply Core.push_ok
    | with_reducible apply slotOp_ok
    | with_reducible apply coreExOk_ok
    | intro _

theorem execCclr_ok (ha : HReg) {s : State} (hs : s.Ok) : OutOk (execCclr ha s) := by
  unfold execCclr
  repeat' first
    | with_reducible assumption
    | with_reducible apply Core.push_ok
    | with_reducible apply slotOp_ok
    | with_reducible apply coreExOk_ok
    | intro _

end Sys2Proof.Machine
end

