-- ==== Sys2Proof/Laws/OkCopy.lean ====
section
/-! SUPPORT. Every operation of Machine/Copy.lean keeps a sound state sound. -/

namespace Sys2Proof.Machine

theorem State.setJob_ok {s : State} (j : Job) (hs : s.Ok) : (State.setJob s j).Ok := by
  unfold State.setJob
  with_reducible assumption

theorem State.dropJob_ok {s : State} (id : Nat) (hs : s.Ok) : (State.dropJob s id).Ok := by
  unfold State.dropJob
  with_reducible assumption

theorem State.updTask_ok {s : State} (uid : Nat) (f : Core → Core) (hs : s.Ok) (hf : ∀ x, x.Ok → (f x).Ok) : (State.updTask s uid f).Ok := by
  unfold State.updTask
  repeat' first
    | with_reducible assumption
    | with_reducible apply hf
    | with_reducible apply ListsOk.mapCores
    | with_reducible rfl
    | with_reducible apply ListsOk.mapSaved
    | intro _
    | extract_lets
    | split

theorem Core.jobEnd_ok {c : Core} (t : Ticket) (hc : c.Ok) : (Core.jobEnd c t).Ok := by
  unfold Core.jobEnd
  repeat' first
    | with_reducible assumption | with_reducible apply Core.subCp_ok

theorem State.packetEnds_ok {s : State} (j : Job) (pid : Nat) (cause : BitVec 8) (hs : s.Ok) :
    (State.packetEnds s j pid cause).Ok := by
  unfold State.packetEnds
  repeat' first
    | with_reducible assumption
    | with_reducible apply State.setMs_ok
    | with_reducible apply State.packetOutcome_ok
    | intro _
    | extract_lets
    | split
    | with_reducible apply State.Ok.ite
    | with_reducible apply Core.Ok.ite

theorem State.jobDone_ok {s : State} (j : Job) (hs : s.Ok) :
    (State.jobDone s j).Ok := by
  unfold State.jobDone
  repeat' first
    | with_reducible assumption
    | with_reducible apply State.packetOutcome_ok
    | with_reducible apply State.dropJob_ok
    | with_reducible apply State.updTask_ok
    | with_reducible apply Core.jobEnd_ok
    | with_reducible apply State.packetEnds_ok
    | with_reducible refine State.Ok.ofPair (by with_reducible assumption) ?_
    | with_reducible refine State.Ok.ofSome (by with_reducible assumption) ?_
    | intro _
    | extract_lets
    | split
    | with_reducible apply State.Ok.ite
    | with_reducible apply Core.Ok.ite

theorem State.jobFault_ok {s : State} (j : Job) (cause : BitVec 8) (hs : s.Ok) :
    (State.jobFault s j cause).Ok := by
  unfold State.jobFault
  repeat' first
    | with_reducible assumption
    | with_reducible apply State.packetOutcome_ok
    | with_reducible apply State.dropJob_ok
    | with_reducible apply State.updTask_ok
    | with_reducible apply Core.jobEnd_ok
    | with_reducible apply Core.defer_ok
    | with_reducible apply State.packetEnds_ok
    | with_reducible refine State.Ok.ofPair (by with_reducible assumption) ?_
    | with_reducible refine State.Ok.ofSome (by with_reducible assumption) ?_
    | intro _
    | extract_lets
    | split
    | with_reducible apply State.Ok.ite
    | with_reducible apply Core.Ok.ite

theorem State.jobCancelled_ok {s : State} (j : Job) (hs : s.Ok) : (State.jobCancelled s j).Ok := by
  unfold State.jobCancelled
  repeat' first
    | with_reducible assumption
    | with_reducible apply Core.jobEnd_ok
    | with_reducible apply State.dropJob_ok
    | with_reducible apply State.updTask_ok
    | intro _
    | extract_lets
    | split

theorem execJobStart_ok (id : Nat) {s : State} (hs : s.Ok) : OutOk (execJobStart id s) := by
  unfold execJobStart
  repeat' first
    | with_reducible assumption | with_reducible apply outOk_next | with_reducible apply State.setJob_ok | split

theorem State.countPiece_ok {s : State} (j : Job) (cap : Cap) (addr : Nat) (z : Nat) (hs : s.Ok) :
    (State.countPiece s j cap addr z).Ok := by
  unfold State.countPiece
  repeat' first
    | with_reducible assumption
    | with_reducible apply State.countDenial_ok
    | with_reducible apply Launch.core_ok
    | with_reducible apply State.Ok.core
    | with_reducible apply State.Ok.cur
    | with_reducible refine State.Ok.ofPair (by with_reducible assumption) ?_
    | with_reducible refine State.Ok.ofSome (by with_reducible assumption) ?_
    | intro _
    | extract_lets
    | split

theorem State.countJobRead_ok {s : State} (j : Job) (cap : Cap) (addr : Nat) (z : Nat) (cause : BitVec 8) (hs : s.Ok) :
    (State.countJobRead s j cap addr z cause).Ok := by
  unfold State.countJobRead
  repeat' first
    | with_reducible assumption
    | with_reducible apply State.countMac_ok
    | with_reducible apply Launch.core_ok
    | with_reducible apply State.recoded_ok
    | with_reducible apply State.recordTransfer_ok
    | with_reducible apply State.countPiece_ok
    | with_reducible apply State.Ok.foldl
    | with_reducible apply Core.Ok.foldl
    | with_reducible apply State.Ok.core
    | with_reducible apply State.Ok.cur
    | intro _
    | extract_lets
    | split

theorem State.recordMarks_ok {s : State} (j : Job) (gs : List Nat) (hs : s.Ok) : (State.recordMarks s j gs).Ok := by
  unfold State.recordMarks
  repeat' first
    | with_reducible assumption
    | with_reducible apply State.mcRecord_ok
    | with_reducible apply State.Ok.foldl
    | intro _

theorem State.jobWrite_ok {s : State} (j : Job) (cap : Cap) (bytes : List (Nat × Byte)) (tags : List Nat) (marks : List Nat) (hs : s.Ok) :
    (State.jobWrite s j cap bytes tags marks).Ok := by
  unfold State.jobWrite
  repeat' first
    | with_reducible assumption
    | with_reducible apply ListsOk.addMarks
    | with_reducible apply State.stamp_ok
    | with_reducible apply State.setRels_ok
    | with_reducible apply State.putTags_ok
    | with_reducible apply State.recordMarks_ok
    | with_reducible apply State.performGlob_ok
    | with_reducible apply State.storeRels_ok
    | with_reducible apply State.sendWrite_ok
    | with_reducible apply Launch.core_ok
    | with_reducible apply State.performFar_ok
    | with_reducible apply State.writeBytes_ok
    | with_reducible apply State.addTags_ok
    | with_reducible apply State.addMarks_ok
    | with_reducible apply State.Ok.foldl
    | with_reducible apply Core.Ok.foldl
    | with_reducible apply State.Ok.core
    | with_reducible apply State.Ok.cur
    | with_reducible refine State.Ok.ofPair (by with_reducible assumption) ?_
    | with_reducible refine State.Ok.ofSome (by with_reducible assumption) ?_
    | intro _
    | extract_lets
    | split

theorem State.jobReduce_ok {s : State} (j : Job) (k : CopyCard) (key : Nat) (bs : List Byte) (hs : s.Ok) :
    (State.jobReduce s j k key bs).1.Ok := by
  unfold State.jobReduce
  repeat' first
    | with_reducible assumption
    | with_reducible apply State.stamp_ok
    | with_reducible apply State.applyReduce_ok
    | with_reducible apply State.sendWrite_ok
    | with_reducible apply State.Ok.foldl
    | with_reducible apply Core.Ok.foldl
    | with_reducible refine State.Ok.ofPair (by with_reducible assumption) ?_
    | with_reducible refine State.Ok.ofSome (by with_reducible assumption) ?_
    | intro _
    | extract_lets
    | split

theorem State.rowAt_ok {s : State} (j : Job) (k : CopyCard) (so : Int) (d : Int) (hs : s.Ok) :
    RowOk (State.rowAt s j k so d) := by
  unfold State.rowAt
  repeat' first
    | with_reducible assumption
    | with_reducible exact rowOk_wait
    | with_reducible apply rowOk_fault
    | with_reducible apply rowOk_ok
    | with_reducible apply State.countJobRead_ok
    | with_reducible apply Launch.core_ok
    | with_reducible apply State.countPiece_ok
    | with_reducible apply State.jobReduce_ok
    | with_reducible apply State.jobWrite_ok
    | with_reducible apply State.Ok.core
    | with_reducible apply State.Ok.cur
    | with_reducible refine State.Ok.ofPair (by with_reducible assumption) ?_
    | with_reducible refine State.Ok.ofSome (by with_reducible assumption) ?_
    | intro _
    | extract_lets
    | split

theorem State.copyRow_ok {s : State} (j : Job) (card : BitVec 512) (hs : s.Ok) : RowOk (State.copyRow s j card) := by
  unfold State.copyRow
  repeat' first
    | with_reducible assumption
    | with_reducible apply State.countJobRead_ok
    | with_reducible apply State.rowAt_ok
    | with_reducible exact rowOk_wait
    | with_reducible apply rowOk_fault
    | extract_lets
    | split

theorem State.sendSignal_ok {s : State} (j : Job) (cap : Cap) (off : Nat) (v : Option DWord) (sc : Scope) (hs : s.Ok) :
    (State.sendSignal s j cap off v sc).Ok := by
  unfold State.sendSignal
  repeat' first
    | with_reducible assumption
    | with_reducible apply State.stamp_ok
    | with_reducible apply Launch.core_ok
    | with_reducible apply State.countPiece_ok
    | with_reducible apply State.jobFault_ok
    | with_reducible apply State.sendWrite_ok
    | with_reducible apply State.setJob_ok
    | with_reducible apply State.applySignal_ok
    | with_reducible apply State.jobDone_ok
    | with_reducible apply State.Ok.core
    | with_reducible apply State.Ok.cur
    | with_reducible refine State.Ok.ofPair (by with_reducible assumption) ?_
    | with_reducible refine State.Ok.ofSome (by with_reducible assumption) ?_
    | intro _
    | extract_lets
    | split

theorem execJobComplete_ok (id : Nat) {s : State} (hs : s.Ok) :
    OutOk (execJobComplete id s) := by
  unfold execJobComplete
  repeat' first
    | with_reducible assumption
    | with_reducible apply outOk_next
    | with_reducible apply State.jobCancelled_ok
    | with_reducible apply State.jobFault_ok
    | with_reducible apply State.jobDone_ok
    | with_reducible apply State.sendSignal_ok
    | with_reducible refine State.Ok.ofPair (by with_reducible assumption) ?_
    | with_reducible refine State.Ok.ofSome (by with_reducible assumption) ?_
    | intro _
    | extract_lets
    | split
    | with_reducible apply State.Ok.ite
    | with_reducible apply Core.Ok.ite

theorem State.acceptJob_ok {s : State} (j : Job) (hs : s.Ok) : (State.acceptJob s j).Ok := by
  unfold State.acceptJob
  with_reducible assumption

theorem State.submit_ok {s : State} {c : Core} (work : JobWork) (sh : Cap) (dh : Cap) (ah : Cap) (gh : Cap) (after : List Nat) (xd : XReg) (hs : s.Ok) (hc : c.Ok) : (State.submit s c work sh dh ah gh after xd).Ok := by
  unfold State.submit
  repeat' first
    | with_reducible assumption
    | with_reducible apply Core.addCp_ok
    | with_reducible apply Core.push_ok
    | with_reducible apply State.acceptJob_ok
    | with_reducible apply State.setCur_ok

theorem State.submitCopy_ok {s : State} {c : Core} (card : BitVec 512) (coff : Nat) (xd : XReg) (hs : s.Ok) (hc : c.Ok) : ExOk (State.submitCopy s c card coff xd) := by
  unfold State.submitCopy
  repeat' first
    | with_reducible assumption
    | with_reducible apply State.submit_ok
    | with_reducible apply exOk_ok
    | with_reducible apply exOk_bind
    | intro _

theorem State.submitWpe_ok {s : State} {c : Core} (card : BitVec 512) (coff : Nat) (xd : XReg) (hs : s.Ok) (hc : c.Ok) : ExOk (State.submitWpe s c card coff xd) := by
  unfold State.submitWpe
  repeat' first
    | with_reducible assumption
    | with_reducible apply State.submit_ok
    | with_reducible apply exOk_ok
    | with_reducible apply exOk_bind
    | intro _

theorem jobOp_ok (i : Instr) (l : List HReg) {s : State} (k : State → Core → Except Fail State) (hs : s.Ok)
    (hk : ∀ (s : State) (c : Core), s.Ok → c.Ok → ExOk (k s c)) : OutOk (jobOp i s l k) := by
  unfold jobOp
  split
  · exact outOk_next (State.raise_ok _ hs)
  · exact slotOpS_ok _ hs hk

theorem cardOp_ok (i : Instr) (f : CjF) (wpe : Bool) {s : State} (k : State → Core → BitVec 512 → Nat → Except Fail State) (hs : s.Ok) (hk : ∀ (s : State) (c : Core) (d : BitVec 512) (o : Nat), s.Ok → c.Ok → ExOk (k s c d o)) : OutOk (cardOp i f wpe s k) := by
  unfold cardOp
  repeat' first
    | with_reducible assumption
    | with_reducible apply outOk_next
    | with_reducible apply State.raise_ok
    | with_reducible apply jobOp_ok
    | with_reducible apply slotOpS_ok
    | with_reducible apply hk
    | with_reducible apply exOk_bind
    | intro _
    | extract_lets
    | split

theorem execCjob_ok (f : CjF) {s : State} (hs : s.Ok) :
    OutOk (execCjob f s) := by
  unfold execCjob
  repeat' first
    | with_reducible assumption
    | with_reducible apply outOk_next
    | with_reducible apply cardOp_ok
    | with_reducible apply State.submitCopy_ok
    | intro _
    | extract_lets
    | split
    | with_reducible apply State.Ok.ite
    | with_reducible apply Core.Ok.ite

theorem execCjobv_ok (f : CjvF) {s : State} (hs : s.Ok) :
    OutOk (execCjobv f s) := by
  unfold execCjobv
  repeat' first
    | with_reducible assumption
    | with_reducible apply slotOpS_ok
    | with_reducible apply outOk_next
    | with_reducible apply jobOp_ok
    | with_reducible apply State.submitCopy_ok
    | with_reducible apply State.Ok.core
    | with_reducible apply State.Ok.cur
    | intro _
    | extract_lets
    | split
    | with_reducible apply State.Ok.ite
    | with_reducible apply Core.Ok.ite

theorem execCwpe_ok (f : CjF) {s : State} (hs : s.Ok) :
    OutOk (execCwpe f s) := by
  unfold execCwpe
  repeat' first
    | with_reducible assumption
    | with_reducible apply outOk_next
    | with_reducible apply cardOp_ok
    | with_reducible apply State.submitWpe_ok
    | intro _
    | extract_lets
    | split
    | with_reducible apply State.Ok.ite
    | with_reducible apply Core.Ok.ite

theorem execCquery_ok (f : CqF) {s : State} (hs : s.Ok) : OutOk (execCquery f s) := by
  unfold execCquery
  repeat' first
    | with_reducible assumption
    | with_reducible apply Core.push_ok
    | with_reducible apply slotOpS_ok
    | with_reducible apply State.setCur_ok
    | with_reducible apply exOk_ok
    | intro _

theorem State.cancelJob_ok {s : State} (j : Job) (hs : s.Ok) : (State.cancelJob s j).Ok := by
  unfold State.cancelJob
  repeat' first
    | with_reducible assumption
    | with_reducible apply State.jobCancelled_ok
    | with_reducible apply State.setJob_ok
    | split

theorem execCcancel_ok (xa : XReg) {s : State} (hs : s.Ok) : OutOk (execCcancel xa s) := by
  unfold execCcancel
  repeat' first
    | with_reducible assumption
    | with_reducible apply State.cancelJob_ok
    | with_reducible apply slotOpS_ok
    | with_reducible apply exOk_ok
    | intro _
    | extract_lets
    | split

theorem execCsignal_ok (f : CsF) {s : State} (hs : s.Ok) : OutOk (execCsignal f s) := by
  unfold execCsignal
  repeat' first
    | with_reducible assumption
    | with_reducible apply State.submit_ok
    | with_reducible apply slotOpS_ok
    | with_reducible apply exOk_ok
    | with_reducible apply exOk_bind
    | intro _

theorem execCfence_ok {s : State} (hs : s.Ok) : OutOk (execCfence s) := by
  unfold execCfence
  repeat' first
    | with_reducible assumption
    | with_reducible apply slotOpS_ok
    | with_reducible apply State.setCur_ok
    | with_reducible apply exOk_ok
    | intro _

end Sys2Proof.Machine
end

