-- ==== Sys2Proof/Laws/OkWpe.lean ====
section
/-! SUPPORT. Every operation of Machine/Wpe.lean keeps a sound state sound. -/

namespace Sys2Proof.Machine

theorem State.setWt_ok {s : State} (w : Weights) (hs : s.Ok) : (State.setWt s w).Ok := by
  unfold State.setWt
  with_reducible assumption

theorem State.returnBuilds_ok {s : State} (p : Job → Bool) (hs : s.Ok) :
    (State.returnBuilds s p).Ok := by
  unfold State.returnBuilds
  repeat' first
    | with_reducible assumption
    | with_reducible apply State.setWt_ok
    | with_reducible apply State.Ok.foldl
    | with_reducible apply Core.Ok.foldl
    | intro _

theorem State.retireSlot_ok {s : State} (bankNo : Nat) (blk : Option Nat) (hs : s.Ok) : (State.retireSlot s bankNo blk).Ok := by
  unfold State.retireSlot
  repeat' first
    | with_reducible assumption | with_reducible apply State.mcRecord_ok | with_reducible apply State.setWt_ok

theorem State.setRemap_ok {s : State} (bankNo : Nat) (blk : Nat) (slot : Option Nat) (hs : s.Ok) : (State.setRemap s bankNo blk slot).Ok := by
  unfold State.setRemap
  repeat' first
    | with_reducible assumption | with_reducible apply State.setWt_ok

theorem State.releaseLater_ok {s : State} (bankNo : Nat) (slot : Option Nat) (hs : s.Ok) : (State.releaseLater s bankNo slot).Ok := by
  unfold State.releaseLater
  repeat' first
    | with_reducible assumption | with_reducible apply State.setWt_ok | extract_lets | split

theorem execWpeSlotRelease_ok (bankNo : Nat) (slot : Nat) {s : State} (hs : s.Ok) : OutOk (execWpeSlotRelease bankNo slot s) := by
  unfold execWpeSlotRelease
  repeat' first
    | with_reducible assumption
    | with_reducible apply outOk_next
    | with_reducible apply State.retireSlot_ok
    | with_reducible apply State.setWt_ok
    | extract_lets
    | split

theorem State.unmapBlock_ok {s : State} (bankNo : Nat) (blk : Nat) (hs : s.Ok) : (State.unmapBlock s bankNo blk).Ok := by
  unfold State.unmapBlock
  repeat' first
    | with_reducible assumption
    | with_reducible apply State.releaseLater_ok
    | with_reducible apply State.setRemap_ok
    | split

theorem State.countBuildRead_ok {s : State} (j : Job) (k : WpeCard) (n : Nat) (cause : BitVec 8) (hs : s.Ok) :
    (State.countBuildRead s j k n cause).Ok := by
  unfold State.countBuildRead
  repeat' first
    | with_reducible assumption
    | with_reducible apply Launch.core_ok
    | with_reducible apply State.countJobRead_ok
    | with_reducible apply State.Ok.core
    | with_reducible apply State.Ok.cur
    | intro _
    | extract_lets
    | split

theorem State.buildFault_ok {s : State} (j : Job) (bankNo : Nat) (blk : Nat) (cause : BitVec 8) (hs : s.Ok) : (State.buildFault s j bankNo blk cause).Ok := by
  unfold State.buildFault
  repeat' first
    | with_reducible assumption
    | with_reducible apply State.jobFault_ok
    | with_reducible apply State.mcRecord_ok

theorem State.popSlot_ok {s : State} (j : Job) (b : Build) (hs : s.Ok) : (State.popSlot s j b).Ok := by
  unfold State.popSlot
  repeat' first
    | with_reducible assumption
    | with_reducible apply State.buildFault_ok
    | with_reducible apply State.setJob_ok
    | with_reducible apply State.setWt_ok
    | extract_lets
    | split

theorem State.inspectBlock_ok {s : State} (j : Job) (k : WpeCard) (hs : s.Ok) :
    RowOk (State.inspectBlock s j k) := by
  unfold State.inspectBlock
  repeat' first
    | with_reducible assumption
    | with_reducible exact rowOk_wait
    | with_reducible apply rowOk_fault
    | with_reducible apply rowOk_ok
    | with_reducible apply State.countPiece_ok
    | with_reducible apply Launch.core_ok
    | with_reducible apply State.jobWrite_ok
    | with_reducible apply State.Ok.core
    | with_reducible apply State.Ok.cur
    | with_reducible refine State.Ok.ofPair (by with_reducible assumption) ?_
    | with_reducible refine State.Ok.ofSome (by with_reducible assumption) ?_
    | intro _
    | extract_lets
    | split

theorem State.wpeBlock_ok {s : State} (j : Job) (k : WpeCard) (hs : s.Ok) :
    RowOk (State.wpeBlock s j k) := by
  unfold State.wpeBlock
  repeat' first
    | with_reducible assumption
    | with_reducible apply State.inspectBlock_ok
    | with_reducible exact rowOk_wait
    | with_reducible apply rowOk_fault
    | with_reducible apply rowOk_ok
    | with_reducible apply State.countPiece_ok
    | with_reducible apply State.unmapBlock_ok
    | with_reducible refine State.Ok.ofPair (by with_reducible assumption) ?_
    | with_reducible refine State.Ok.ofSome (by with_reducible assumption) ?_
    | intro _
    | extract_lets
    | split
    | with_reducible apply State.Ok.ite
    | with_reducible apply Core.Ok.ite

theorem State.rowDone_ok {s : State} (j : Job) {r : RowEnd} (hs : s.Ok) (hr : RowOk r) : (s.rowDone j r).Ok := by
  cases r with
  | wait => exact hs
  | fault c s => exact State.jobFault_ok _ _ hr
  | ok s => exact State.setJob_ok _ hr

theorem State.stopWpe_ok {s : State} (j : Job) (hs : s.Ok) : (State.stopWpe s j).Ok := by
  unfold State.stopWpe
  repeat' first
    | with_reducible assumption | with_reducible apply State.jobCancelled_ok

theorem execCopyRow_ok (id : Nat) {s : State} (hs : s.Ok) : OutOk (execCopyRow id s) := by
  unfold execCopyRow
  repeat' first
    | with_reducible assumption
    | with_reducible apply outOk_next
    | with_reducible apply State.copyRow_ok
    | with_reducible apply State.jobFault_ok
    | with_reducible apply State.rowDone_ok
    | with_reducible apply State.stopWpe_ok
    | with_reducible apply State.wpeBlock_ok
    | extract_lets
    | split

theorem State.startBuild_ok {s : State} (j : Job) (k : WpeCard) (hs : s.Ok) :
    (State.startBuild s j k).Ok := by
  unfold State.startBuild
  repeat' first
    | with_reducible assumption
    | with_reducible apply State.countPiece_ok
    | with_reducible apply State.jobFault_ok
    | with_reducible apply State.countMac_ok
    | with_reducible apply Launch.core_ok
    | with_reducible apply State.countBuildRead_ok
    | with_reducible apply State.popSlot_ok
    | with_reducible apply State.Ok.core
    | with_reducible apply State.Ok.cur
    | with_reducible refine State.Ok.ofPair (by with_reducible assumption) ?_
    | with_reducible refine State.Ok.ofSome (by with_reducible assumption) ?_
    | intro _
    | extract_lets
    | split
    | with_reducible apply State.Ok.ite
    | with_reducible apply Core.Ok.ite

theorem execWpeBuildStart_ok (id : Nat) {s : State} (hs : s.Ok) : OutOk (execWpeBuildStart id s) := by
  unfold execWpeBuildStart
  repeat' first
    | with_reducible assumption
    | with_reducible apply outOk_next
    | with_reducible apply State.jobFault_ok
    | with_reducible apply State.rowDone_ok
    | with_reducible apply State.startBuild_ok
    | with_reducible apply State.stopWpe_ok
    | with_reducible apply State.wpeBlock_ok
    | extract_lets
    | split

theorem State.switchBlock_ok {s : State} (j : Job) (b : Build) (hs : s.Ok) : (s.switchBlock j b).Ok := by
  unfold State.switchBlock
  extract_lets was fl mac k s1 src s2 s3 j'
  have h1 : s1.Ok := ListsOk.withMem hs (Memory.writeList_wf _ _ hs.1)
  have h3 : s3.Ok := State.releaseLater_ok _ _ (State.setRemap_ok _ _ _ (State.setWt_ok _ h1))
  split
  · exact State.stopWpe_ok _ (State.setJob_ok _ h3)
  · exact State.setJob_ok _ h3

theorem State.endBuild_ok {s : State} (j : Job) (b : Build) (hs : s.Ok) :
    (State.endBuild s j b).Ok := by
  unfold State.endBuild
  repeat' first
    | with_reducible assumption
    | with_reducible apply State.returnBuilds_ok
    | with_reducible apply State.countPiece_ok
    | with_reducible apply State.jobFault_ok
    | with_reducible apply State.switchBlock_ok
    | with_reducible refine State.Ok.ofPair (by with_reducible assumption) ?_
    | with_reducible refine State.Ok.ofSome (by with_reducible assumption) ?_
    | intro _
    | extract_lets
    | split
    | with_reducible apply State.Ok.ite
    | with_reducible apply Core.Ok.ite

theorem execWpePulseIteration_ok (id : Nat) (ok : BitVec 5) {s : State} (hs : s.Ok) :
    OutOk (execWpePulseIteration id ok s) := by
  unfold execWpePulseIteration
  repeat' first
    | with_reducible assumption
    | with_reducible apply State.switchBlock_ok
    | with_reducible apply outOk_next
    | with_reducible apply State.setWt_ok
    | with_reducible apply State.endBuild_ok
    | with_reducible apply State.retireSlot_ok
    | with_reducible apply State.buildFault_ok
    | with_reducible apply State.popSlot_ok
    | with_reducible apply State.setJob_ok
    | with_reducible apply State.Ok.foldl
    | with_reducible apply Core.Ok.foldl
    | with_reducible refine State.Ok.ofPair (by with_reducible assumption) ?_
    | with_reducible refine State.Ok.ofSome (by with_reducible assumption) ?_
    | intro _
    | extract_lets
    | split
    | with_reducible apply State.Ok.ite
    | with_reducible apply Core.Ok.ite

theorem State.setRegion_ok {s : State} (die : Nat) (r : Nat) (v : BitVec 128) (hs : s.Ok) : (State.setRegion s die r v).Ok := by
  unfold State.setRegion
  repeat' first
    | with_reducible assumption | with_reducible apply State.setWt_ok

theorem State.writeRegion_ok {s : State} (die : Nat) (r : Nat) (hi : Bool) (v : DWord) (hs : s.Ok) : (State.writeRegion s die r hi v).Ok := by
  unfold State.writeRegion
  repeat' first
    | with_reducible assumption
    | with_reducible apply State.setRegion_ok
    | with_reducible apply State.setWt_ok
    | extract_lets
    | split

theorem execWrgnWrite_ok (die : Nat) (r : Nat) (hi : Bool) (v : DWord) {s : State} (hs : s.Ok) : OutOk (execWrgnWrite die r hi v s) := by
  unfold execWrgnWrite
  repeat' first
    | with_reducible assumption
    | with_reducible apply outOk_next
    | with_reducible apply State.writeRegion_ok
    | split

theorem execRegionSealComplete_ok (die : Nat) (r : Nat) {s : State} (hs : s.Ok) : OutOk (execRegionSealComplete die r s) := by
  unfold execRegionSealComplete
  repeat' first
    | with_reducible assumption
    | with_reducible apply outOk_next
    | with_reducible apply State.setRegion_ok
    | with_reducible apply State.setWt_ok
    | extract_lets
    | split

theorem execRegionRehashComplete_ok (die : Nat) {s : State} (hs : s.Ok) : OutOk (execRegionRehashComplete die s) := by
  unfold execRegionRehashComplete
  repeat' first
    | with_reducible assumption
    | with_reducible apply outOk_next
    | with_reducible apply State.setWt_ok
    | with_reducible apply State.Ok.foldl
    | intro _
    | extract_lets
    | split

theorem State.writeWpelim_ok {s : State} (die : Nat) (v : DWord) (hs : s.Ok) : (State.writeWpelim s die v).Ok := by
  unfold State.writeWpelim
  repeat' first
    | with_reducible assumption | with_reducible apply State.setWt_ok

end Sys2Proof.Machine
end

