-- ==== Sys2Proof/Laws/OkTiming.lean ====
section
/-! SUPPORT. Every operation of Machine/Timing.lean keeps a sound state sound. -/

namespace Sys2Proof.Machine

theorem State.writeLandings_ok {s : State} (n : Nat) (hs : s.Ok) : (State.writeLandings s n).Ok := by
  unfold State.writeLandings
  repeat' first
    | with_reducible assumption
    | with_reducible apply Core.setNarrow_ok
    | with_reducible apply applyWrite_ok
    | with_reducible apply State.setCore_ok
    | with_reducible apply State.Ok.core
    | with_reducible apply State.Ok.foldl
    | intro _

theorem execLandingCountExpiry_ok (n : Nat) {s : State} (hs : s.Ok) : OutOk (execLandingCountExpiry n s) := by
  unfold execLandingCountExpiry
  repeat' first
    | with_reducible assumption
    | with_reducible apply outOk_next
    | with_reducible apply State.writeLandings_ok
    | split

theorem State.writeResults_ok {s : State} (n : Nat) (hs : s.Ok) : (State.writeResults s n).Ok := by
  unfold State.writeResults
  repeat' first
    | with_reducible assumption
    | with_reducible apply Core.flag_ok
    | with_reducible apply applyWrite_ok
    | with_reducible apply State.setCore_ok
    | with_reducible apply State.Ok.core
    | with_reducible apply State.Ok.foldl
    | with_reducible apply Core.Ok.foldl
    | intro _

theorem execResultWriteback_ok (n : Nat) {s : State} (hs : s.Ok) : OutOk (execResultWriteback n s) := by
  unfold execResultWriteback
  repeat' first
    | with_reducible assumption
    | with_reducible apply outOk_next
    | with_reducible apply State.writeResults_ok
    | split

theorem Core.startEngine_ok {c : Core} (hc : c.Ok) : (Core.startEngine c).Ok := by
  unfold Core.startEngine
  with_reducible assumption

theorem execEngineOpStart_ok (n : Nat) {s : State} (hs : s.Ok) : OutOk (execEngineOpStart n s) := by
  unfold execEngineOpStart
  repeat' first
    | with_reducible assumption
    | with_reducible apply outOk_next
    | with_reducible apply Core.startEngine_ok
    | with_reducible apply State.setCore_ok
    | with_reducible apply State.Ok.core

theorem Core.leavePort_ok {c : Core} (o : EngOp) (hc : c.Ok) : (Core.leavePort c o).Ok := by
  unfold Core.leavePort
  repeat' first
    | with_reducible assumption
    | with_reducible apply Core.flag_ok
    | with_reducible apply Core.setTile_ok
    | intro _
    | extract_lets
    | split
    | with_reducible apply Core.Ok.ite

theorem Core.portBlocks_ok {c : Core} (hc : c.Ok) : (Core.portBlocks c).Ok := by
  unfold Core.portBlocks
  repeat' first
    | with_reducible assumption | with_reducible apply Core.leavePort_ok | with_reducible apply Core.Ok.foldl

theorem execPortBlock_ok (n : Nat) {s : State} (hs : s.Ok) : OutOk (execPortBlock n s) := by
  unfold execPortBlock
  repeat' first
    | with_reducible assumption
    | with_reducible apply outOk_next
    | with_reducible apply Core.portBlocks_ok
    | with_reducible apply State.setCore_ok
    | with_reducible apply State.Ok.core
    | split

theorem execXscaleExecute_ok (n : Nat) {s : State} (hs : s.Ok) : OutOk (execXscaleExecute n s) := by
  unfold execXscaleExecute
  repeat' first
    | with_reducible assumption
    | with_reducible apply outOk_next
    | with_reducible apply Core.portBlocks_ok
    | with_reducible apply State.setCore_ok
    | with_reducible apply State.Ok.core
    | split

theorem Core.retireOp_ok {c : Core} (o : EngOp) (hc : c.Ok) :
    (Core.retireOp c o).Ok := by
  unfold Core.retireOp
  repeat' first
    | with_reducible assumption
    | with_reducible apply Core.wx_ok
    | with_reducible apply Core.setTile_ok
    | with_reducible apply Core.flag_ok
    | with_reducible apply Core.addX_ok
    | with_reducible apply Core.setSlot_ok
    | with_reducible apply State.Ok.foldl
    | with_reducible apply Core.Ok.foldl
    | with_reducible refine State.Ok.ofPair (by with_reducible assumption) ?_
    | with_reducible refine State.Ok.ofSome (by with_reducible assumption) ?_
    | intro _
    | extract_lets
    | split
    | with_reducible apply State.Ok.ite
    | with_reducible apply Core.Ok.ite

theorem Core.retireEngine_ok {c : Core} (hc : c.Ok) : (Core.retireEngine c).Ok := by
  unfold Core.retireEngine
  repeat' first
    | with_reducible assumption
    | with_reducible apply Core.retireOp_ok
    | with_reducible apply Core.subTl_ok
    | with_reducible apply Core.Ok.foldl
    | intro _

theorem execEngineRetire_ok (n : Nat) {s : State} (hs : s.Ok) : OutOk (execEngineRetire n s) := by
  unfold execEngineRetire
  repeat' first
    | with_reducible assumption
    | with_reducible apply outOk_next
    | with_reducible apply Core.retireEngine_ok
    | with_reducible apply State.setCore_ok
    | with_reducible apply State.Ok.core
    | split

theorem Core.setFill_ok {c : Core} (os : OSlot) (g : Fill → Fill) (hc : c.Ok) : (Core.setFill c os g).Ok := by
  unfold Core.setFill
  with_reducible assumption

theorem State.deposit_ok {s : State} (n : Nat) (os : OSlot) (i : Nat) (vals : List Byte) (side : List Byte) (ok : Bool) (hs : s.Ok) : (State.deposit s n os i vals side ok).Ok := by
  unfold State.deposit
  repeat' first
    | with_reducible assumption
    | with_reducible apply Core.setSlot_ok
    | with_reducible apply State.setCore_ok
    | with_reducible apply ListsOk.writeList
    | with_reducible apply State.Ok.core

theorem State.takeBlock_ok {s : State} (n : Nat) (os : OSlot) (f : Fill) (whole : Bool) (hs : s.Ok) :
    (State.takeBlock s n os f whole).Ok := by
  unfold State.takeBlock
  repeat' first
    | with_reducible assumption
    | with_reducible apply State.countMac_ok
    | with_reducible apply State.countDenial_ok
    | with_reducible apply State.deposit_ok
    | with_reducible apply Launch.core_ok
    | with_reducible apply Core.setFill_ok
    | with_reducible apply State.settleFences_ok
    | with_reducible apply State.setCore_ok
    | with_reducible apply State.Ok.core
    | with_reducible apply State.Ok.cur
    | intro _
    | extract_lets
    | split
    | with_reducible apply State.Ok.ite
    | with_reducible apply Core.Ok.ite

theorem execWloadBlockArrival_ok (n : Nat) (os : OSlot) {s : State} (hs : s.Ok) :
    OutOk (execWloadBlockArrival n os s) := by
  unfold execWloadBlockArrival
  repeat' first
    | with_reducible assumption
    | with_reducible apply State.setCore_ok
    | with_reducible apply State.settleFences_ok
    | with_reducible apply Core.setFill_ok
    | with_reducible apply State.deposit_ok
    | with_reducible apply State.countDenial_ok
    | with_reducible apply State.countMac_ok
    | with_reducible apply outOk_next
    | with_reducible apply Launch.core_ok
    | with_reducible apply State.takeBlock_ok
    | with_reducible apply State.Ok.core
    | with_reducible apply State.Ok.cur
    | with_reducible refine State.Ok.ofPair (by with_reducible assumption) ?_
    | with_reducible refine State.Ok.ofSome (by with_reducible assumption) ?_
    | intro _
    | extract_lets
    | split
    | with_reducible apply State.Ok.ite
    | with_reducible apply Core.Ok.ite

theorem Core.endFills_ok {c : Core} (hc : c.Ok) : (Core.endFills c).Ok := by
  unfold Core.endFills
  repeat' first
    | with_reducible assumption | with_reducible apply Core.subWl_ok | with_reducible apply Core.Ok.foldl | intro _

theorem execWloadFillExpiry_ok (n : Nat) (os : OSlot) {s : State} (hs : s.Ok) : OutOk (execWloadFillExpiry n os s) := by
  unfold execWloadFillExpiry
  repeat' first
    | with_reducible assumption
    | with_reducible apply outOk_next
    | with_reducible apply Core.endFills_ok
    | with_reducible apply State.setCore_ok
    | with_reducible apply State.Ok.core
    | split

theorem Core.endShadow_ok {c : Core} (hc : c.Ok) : (Core.endShadow c).Ok := by
  unfold Core.endShadow
  repeat' first
    | with_reducible assumption | extract_lets | split

theorem execFmtShadowExpiry_ok (n : Nat) {s : State} (hs : s.Ok) : OutOk (execFmtShadowExpiry n s) := by
  unfold execFmtShadowExpiry
  repeat' first
    | with_reducible assumption
    | with_reducible apply outOk_next
    | with_reducible apply Core.endShadow_ok
    | with_reducible apply State.setCore_ok
    | with_reducible apply State.Ok.core
    | split

theorem State.settle_ok {s : State} (n : Nat) (hs : s.Ok) : (State.settle s n).Ok := by
  unfold State.settle
  repeat' first
    | with_reducible assumption
    | with_reducible apply Core.endFills_ok
    | with_reducible apply Core.endShadow_ok
    | with_reducible apply Core.portBlocks_ok
    | with_reducible apply Core.retireEngine_ok
    | with_reducible apply Core.startEngine_ok
    | with_reducible apply State.writeLandings_ok
    | with_reducible apply State.writeResults_ok
    | with_reducible apply State.setCore_ok
    | with_reducible apply State.Ok.core

theorem Core.tick_ok {c : Core} (hc : c.Ok) : (Core.tick c).Ok := by
  unfold Core.tick
  with_reducible assumption

end Sys2Proof.Machine
end

