-- ==== Sys2Proof/Laws/OkOverlay.lean ====
section
/-! SUPPORT. Every operation of Machine/Overlay.lean keeps a sound state sound. -/

namespace Sys2Proof.Machine

theorem State.startCopy_ok {s : State} (n : Nat) (g : Seg) (hs : s.Ok) : (State.startCopy s n g).Ok := by
  unfold State.startCopy
  repeat' first
    | with_reducible assumption | with_reducible apply State.setCore_ok | with_reducible apply State.Ok.core

theorem State.segMark_ok {s : State} (n : Nat) (a : Nat) (hs : s.Ok) : (State.segMark s n a).Ok := by
  unfold State.segMark
  repeat' first
    | with_reducible assumption | with_reducible apply State.startCopy_ok | extract_lets | split

theorem execSegmentMark_ok (n : Nat) {s : State} (hs : s.Ok) : OutOk (execSegmentMark n s) := by
  unfold execSegmentMark
  repeat' first
    | with_reducible assumption
    | with_reducible apply outOk_next
    | with_reducible apply State.segMark_ok
    | with_reducible apply State.setCore_ok
    | with_reducible apply State.Ok.core
    | extract_lets
    | split

theorem State.copyLines_ok {s : State} (n : Nat) (g : Seg) (hs : s.Ok) : (State.copyLines s n g).Ok := by
  unfold State.copyLines
  repeat' first
    | with_reducible assumption
    | with_reducible apply ListsOk.writeList
    | with_reducible apply State.Ok.foldl
    | intro _

theorem State.endCopy_ok {s : State} (n : Nat) (g : Seg) (add : Bool) (hs : s.Ok) :
    (State.endCopy s n g add).Ok := by
  unfold State.endCopy
  repeat' first
    | with_reducible assumption
    | with_reducible apply Launch.core_ok
    | with_reducible apply State.setCore_ok
    | with_reducible apply State.Ok.core
    | with_reducible apply State.Ok.cur
    | with_reducible refine State.Ok.ofPair (by with_reducible assumption) ?_
    | with_reducible refine State.Ok.ofSome (by with_reducible assumption) ?_
    | intro _
    | extract_lets
    | split
    | with_reducible apply State.Ok.ite
    | with_reducible apply Core.Ok.ite

theorem State.segFails_ok {s : State} (n : Nat) (g : Seg) (a : Nat) (hs : s.Ok) :
    (State.segFails s n g a).Ok := by
  unfold State.segFails
  repeat' first
    | with_reducible assumption
    | with_reducible apply State.endCopy_ok
    | with_reducible apply Launch.core_ok
    | with_reducible apply State.setCore_ok
    | with_reducible apply State.Ok.core
    | with_reducible apply State.Ok.cur
    | with_reducible refine State.Ok.ofPair (by with_reducible assumption) ?_
    | with_reducible refine State.Ok.ofSome (by with_reducible assumption) ?_
    | intro _
    | extract_lets
    | split
    | with_reducible apply State.Ok.ite
    | with_reducible apply Core.Ok.ite

theorem execOverlaySegmentLanded_ok (n : Nat) {s : State} (hs : s.Ok) :
    OutOk (execOverlaySegmentLanded n s) := by
  unfold execOverlaySegmentLanded
  repeat' first
    | with_reducible assumption
    | with_reducible apply State.setCore_ok
    | with_reducible apply Core.defer_ok
    | with_reducible apply outOk_next
    | with_reducible apply Launch.core_ok
    | with_reducible apply State.segFails_ok
    | with_reducible apply State.countDenial_ok
    | with_reducible apply State.recoded_ok
    | with_reducible apply State.recordTransfer_ok
    | with_reducible apply State.copyLines_ok
    | with_reducible apply State.endCopy_ok
    | with_reducible apply State.Ok.core
    | with_reducible apply State.Ok.cur
    | with_reducible refine State.Ok.ofPair (by with_reducible assumption) ?_
    | with_reducible refine State.Ok.ofSome (by with_reducible assumption) ?_
    | intro _
    | extract_lets
    | split
    | with_reducible apply State.Ok.ite
    | with_reducible apply Core.Ok.ite

theorem State.fetchSeg_ok {s : State} (n : Nat) (a : Nat) (hs : s.Ok) :
    (State.fetchSeg s n a).1.Ok := by
  unfold State.fetchSeg
  repeat' first
    | with_reducible assumption
    | with_reducible apply Launch.core_ok
    | with_reducible apply State.startCopy_ok
    | with_reducible apply State.setCore_ok
    | with_reducible apply State.Ok.core
    | with_reducible apply State.Ok.cur
    | with_reducible refine State.Ok.ofPair (by with_reducible assumption) ?_
    | with_reducible refine State.Ok.ofSome (by with_reducible assumption) ?_
    | intro _
    | extract_lets
    | split

theorem State.loadSeg_ok {s : State} (n : Nat) (g : Seg) (hs : s.Ok) : (State.loadSeg s n g).Ok := by
  unfold State.loadSeg
  repeat' first
    | with_reducible assumption
    | with_reducible apply State.copyLines_ok
    | with_reducible apply State.startCopy_ok
    | with_reducible apply State.setCore_ok
    | with_reducible apply State.Ok.core

end Sys2Proof.Machine
end

