-- ==== Sys2Proof/Laws/OkMemFault.lean ====
section
/-! SUPPORT. Every operation of Machine/MemFault.lean keeps a sound state sound. -/

namespace Sys2Proof.Machine

theorem State.granuleFails_ok {s : State} (key : Nat) (cond : MemCond) (hs : s.Ok) :
    (State.granuleFails s key cond).Ok := by
  unfold State.granuleFails
  repeat' first
    | with_reducible assumption
    | with_reducible apply ListsOk.addMark
    | with_reducible apply State.setMs_ok
    | with_reducible apply Core.poisoned_ok
    | with_reducible apply State.addMarks_ok
    | with_reducible apply State.mcRecord_ok
    | with_reducible apply State.Ok.foldl
    | with_reducible apply Core.Ok.foldl
    | with_reducible refine State.Ok.ofPair (by with_reducible assumption) ?_
    | with_reducible refine State.Ok.ofSome (by with_reducible assumption) ?_
    | intro _
    | extract_lets
    | split

theorem State.lineFails_ok {s : State} (clu : Nat) (core : Option Nat) (key unit : Nat) (hs : s.Ok) :
    (State.lineFails s clu core key unit).Ok := by
  unfold State.lineFails
  cases core with
  | none => exact State.Ok.ite (fun _ => hs) fun _ => State.mcRecord_ok _ _ _ (State.setMs_ok _ hs)
  | some n => exact State.Ok.ite (fun _ => hs) fun _ => State.mcRecord_ok _ _ _ (State.setCore_ok _ hs (hs.core _))

theorem State.arrayFails_ok {s : State} (n : Nat) (marked : Bool) {f : Core → Core} (hs : s.Ok) (hf : ∀ c : Core, c.Ok → (f c).Ok) :
    (State.arrayFails s n marked f).Ok := by
  unfold State.arrayFails
  split
  · exact hs
  · exact State.mcRecord_ok _ _ _ (State.setCore_ok _ hs (hf _ (hs.core n)))

theorem Core.markRow_ok {c : Core} (os : OSlot) (row : Nat) (hc : c.Ok) : (Core.markRow c os row).Ok :=
  Core.setSlot_ok _ _ hc

theorem Core.markEntry_ok {c : Core} (id : Nat) (d : Nat) (hc : c.Ok) : (Core.markEntry c id d).Ok := by
  unfold Core.markEntry
  repeat' first | with_reducible assumption | with_reducible apply Core.setLanding_ok | split

theorem State.holderFails_ok {s : State} (site : FaultSite) (hs : s.Ok) : (State.holderFails s site).Ok := by
  unfold State.holderFails
  repeat' first
    | with_reducible assumption
    | with_reducible apply State.arrayFails_ok
    | with_reducible apply Core.markRow_ok
    | with_reducible apply Core.markX_ok
    | with_reducible apply Core.markH_ok
    | with_reducible apply Core.markV_ok
    | with_reducible apply Core.markEntry_ok
    | intro _
    | split
    | (dsimp only [id]; with_reducible assumption)

theorem State.jobFlitFails_ok {s : State} (id : Nat) (hs : s.Ok) : (State.jobFlitFails s id).Ok := by
  unfold State.jobFlitFails
  repeat' first
    | with_reducible assumption
    | with_reducible apply State.mcRecord_ok
    | with_reducible apply State.setJob_ok
    | split

theorem State.transferFails_ok {s : State} (n : Nat) (id : Nat) (cond : MemCond) (only : Option Nat) (hs : s.Ok) :
    (State.transferFails s n id cond only).Ok := by
  unfold State.transferFails
  split
  · exact hs
  · exact State.recordTransfer_ok _ _ _ _ _ (State.takeData_ok _ _ _ _ hs)

theorem State.poisonStored_ok {s : State} (n : Nat) (a : Access) (keys : List Nat) (hs : s.Ok) :
    (State.poisonStored s n a keys).Ok := by
  unfold State.poisonStored
  repeat' first
    | with_reducible assumption
    | with_reducible apply State.setMs_ok
    | with_reducible apply State.mapLines_ok
    | with_reducible apply State.addMarks_ok
    | with_reducible refine State.Ok.ofPair (by with_reducible assumption) ?_
    | with_reducible refine State.Ok.ofSome (by with_reducible assumption) ?_
    | intro _
    | extract_lets
    | split
    | with_reducible apply State.Ok.ite
    | with_reducible apply Core.Ok.ite

theorem State.storeFlitFails_ok {s : State} (n : Nat) (id : Nat) (hs : s.Ok) :
    (State.storeFlitFails s n id).Ok := by
  unfold State.storeFlitFails
  repeat' first
    | with_reducible assumption
    | with_reducible apply Launch.core_ok
    | with_reducible apply State.storeStep_ok
    | with_reducible apply State.poisonStored_ok
    | with_reducible apply State.recordTransfer_ok
    | with_reducible apply State.Ok.core
    | with_reducible apply State.Ok.cur
    | with_reducible refine State.Ok.ofPair (by with_reducible assumption) ?_
    | with_reducible refine State.Ok.ofSome (by with_reducible assumption) ?_
    | intro _
    | extract_lets
    | split
    | with_reducible apply State.Ok.ite
    | with_reducible apply Core.Ok.ite

theorem State.atomicLost_ok {s : State} (n : Nat) (a : Access) (hs : s.Ok) :
    (State.atomicLost s n a).Ok := by
  unfold State.atomicLost
  repeat' first
    | with_reducible assumption
    | with_reducible apply Launch.core_ok
    | with_reducible apply State.reply_ok
    | with_reducible apply Core.retire_ok
    | with_reducible apply Core.markX_ok
    | with_reducible apply Core.defer_ok
    | with_reducible apply State.atomicDone_ok
    | with_reducible apply Core.markV_ok
    | with_reducible apply State.setCore_ok
    | with_reducible apply State.Ok.getD
    | with_reducible apply State.Ok.core
    | with_reducible apply State.Ok.cur
    | with_reducible refine State.Ok.ofPair (by with_reducible assumption) ?_
    | with_reducible refine State.Ok.ofSome (by with_reducible assumption) ?_
    | intro _
    | extract_lets
    | split
    | with_reducible apply State.Ok.ite
    | with_reducible apply Core.Ok.ite

theorem State.atomicFlitFails_ok {s : State} (n : Nat) (id : Nat) (hs : s.Ok) :
    (State.atomicFlitFails s n id).Ok := by
  unfold State.atomicFlitFails
  repeat' first
    | with_reducible assumption
    | with_reducible apply State.setCore_ok
    | with_reducible apply Core.markV_ok
    | with_reducible apply State.atomicDone_ok
    | with_reducible apply Core.defer_ok
    | with_reducible apply Core.markX_ok
    | with_reducible apply Core.retire_ok
    | with_reducible apply State.reply_ok
    | with_reducible apply Launch.core_ok
    | with_reducible apply State.atomicLost_ok
    | with_reducible apply State.settleFences_ok
    | with_reducible apply State.recordTransfer_ok
    | with_reducible apply State.Ok.getD
    | with_reducible apply State.Ok.core
    | with_reducible apply State.Ok.cur
    | with_reducible refine State.Ok.ofPair (by with_reducible assumption) ?_
    | with_reducible refine State.Ok.ofSome (by with_reducible assumption) ?_
    | intro _
    | extract_lets
    | split
    | with_reducible apply State.Ok.ite
    | with_reducible apply Core.Ok.ite

theorem State.segFlitFails_ok {s : State} (n : Nat) (a : Nat) (hs : s.Ok) :
    (State.segFlitFails s n a).Ok := by
  unfold State.segFlitFails
  repeat' first
    | with_reducible assumption
    | with_reducible apply Launch.core_ok
    | with_reducible apply State.segFails_ok
    | with_reducible apply State.recordTransfer_ok
    | with_reducible apply State.Ok.core
    | with_reducible apply State.Ok.cur
    | with_reducible refine State.Ok.ofPair (by with_reducible assumption) ?_
    | with_reducible refine State.Ok.ofSome (by with_reducible assumption) ?_
    | intro _
    | extract_lets
    | split
    | with_reducible apply State.Ok.ite
    | with_reducible apply Core.Ok.ite

theorem State.fillFlitFails_ok {s : State} (n : Nat) (os : OSlot) (cond : MemCond) (hs : s.Ok) :
    (State.fillFlitFails s n os cond).Ok := by
  unfold State.fillFlitFails
  repeat' first
    | with_reducible assumption
    | with_reducible apply Launch.core_ok
    | with_reducible apply State.takeBlock_ok
    | with_reducible apply State.recordTransfer_ok
    | with_reducible apply State.Ok.core
    | with_reducible apply State.Ok.cur
    | with_reducible refine State.Ok.ofPair (by with_reducible assumption) ?_
    | with_reducible refine State.Ok.ofSome (by with_reducible assumption) ?_
    | intro _
    | extract_lets
    | split
    | with_reducible apply State.Ok.ite
    | with_reducible apply Core.Ok.ite

theorem State.weightFails_ok {s : State} (die : Nat) (bank : Nat) (blk : Nat) (hs : s.Ok) : (State.weightFails s die bank blk).Ok := by
  unfold State.weightFails
  repeat' first
    | with_reducible assumption | with_reducible apply State.setWt_ok | extract_lets | split

theorem State.barrierFails_ok {s : State} (addr : Nat) (hs : s.Ok) : (State.barrierFails s addr).Ok := by
  unfold State.barrierFails
  repeat' first
    | with_reducible assumption | with_reducible apply State.mcRecord_ok | with_reducible apply State.setBar_ok

theorem execMemoryFaultFound_ok (site : FaultSite) (cond : MemCond) {s : State} (hs : s.Ok) :
    OutOk (execMemoryFaultFound site cond s) := by
  unfold execMemoryFaultFound
  repeat' first
    | with_reducible assumption
    | with_reducible apply outOk_next
    | with_reducible apply State.barrierFails_ok
    | with_reducible apply State.granuleFails_ok
    | with_reducible apply State.lineFails_ok
    | with_reducible apply State.weightFails_ok
    | with_reducible apply State.transferFails_ok
    | with_reducible apply State.fillFlitFails_ok
    | with_reducible apply State.storeFlitFails_ok
    | with_reducible apply State.atomicFlitFails_ok
    | with_reducible apply State.segFlitFails_ok
    | with_reducible apply State.jobFlitFails_ok
    | with_reducible apply State.holderFails_ok
    | with_reducible refine State.Ok.ofPair (by with_reducible assumption) ?_
    | with_reducible refine State.Ok.ofSome (by with_reducible assumption) ?_
    | intro _
    | extract_lets
    | split
    | with_reducible apply State.Ok.ite
    | with_reducible apply Core.Ok.ite

end Sys2Proof.Machine
end

