-- ==== Sys2Proof/Laws/OkQueue.lean ====
section
/-! SUPPORT. Every operation of Machine/Queue.lean keeps a sound state sound. -/

namespace Sys2Proof.Machine

theorem State.nextFree_ok {s : State} (hs : s.Ok) : (State.nextFree s).Ok := by
  unfold State.nextFree
  with_reducible assumption

theorem State.countDesc_ok {s : State} (q : Nat) (hs : s.Ok) :
    (State.countDesc s q).Ok := by
  unfold State.countDesc
  repeat' first
    | with_reducible assumption
    | with_reducible apply State.countComplex_ok
    | intro _
    | extract_lets
    | split
    | with_reducible apply State.Ok.ite
    | with_reducible apply Core.Ok.ite

theorem State.writeDesc_ok {s : State} (q : Nat) (rd : Nat) (st : Nat) (cause : BitVec 8) (hs : s.Ok) :
    (State.writeDesc s q rd st cause).Ok := by
  unfold State.writeDesc
  repeat' first
    | with_reducible assumption
    | with_reducible apply State.countComplex_ok
    | with_reducible apply State.devWrite_ok
    | intro _
    | extract_lets
    | split
    | with_reducible apply State.Ok.ite
    | with_reducible apply Core.Ok.ite

theorem State.dropQueue_ok {s : State} (q : Nat) (hs : s.Ok) : (State.dropQueue s q).Ok := by
  unfold State.dropQueue
  repeat' first
    | with_reducible assumption | with_reducible apply State.setSched_ok | with_reducible rfl

theorem State.stopQueue_ok {s : State} (k : HwQueue) (cause : BitVec 8) (hs : s.Ok) : (State.stopQueue s k cause).Ok := by
  unfold State.stopQueue
  repeat' first
    | with_reducible assumption
    | with_reducible apply State.dropQueue_ok
    | with_reducible apply State.setSched_ok
    | with_reducible apply State.writeDesc_ok
    | with_reducible rfl

theorem State.mapQueue_ok {s : State} (k : HwQueue) (hs : s.Ok) : (State.mapQueue s k).Ok := by
  unfold State.mapQueue
  repeat' first
    | with_reducible assumption
    | with_reducible apply State.setSched_ok
    | with_reducible apply State.writeDesc_ok
    | with_reducible rfl

theorem State.unmapQueue_ok {s : State} (k : HwQueue) (hs : s.Ok) : (State.unmapQueue s k).Ok := by
  unfold State.unmapQueue
  repeat' first
    | with_reducible assumption
    | with_reducible apply State.dropQueue_ok
    | with_reducible apply State.writeDesc_ok

theorem State.joinRemap_ok {s : State} (k : HwQueue) (hs : s.Ok) : (State.joinRemap s k).Ok := by
  unfold State.joinRemap
  repeat' first
    | with_reducible assumption | with_reducible apply State.setSched_ok | with_reducible rfl

theorem State.fillSlot_ok {s : State} (die : Nat) (hs : s.Ok) :
    (State.fillSlot s die).Ok := by
  unfold State.fillSlot
  repeat' first
    | with_reducible assumption
    | with_reducible apply State.dropQueue_ok
    | with_reducible apply State.countDesc_ok
    | with_reducible apply State.stopQueue_ok
    | with_reducible apply State.mapQueue_ok
    | with_reducible refine State.Ok.ofPair (by with_reducible assumption) ?_
    | with_reducible refine State.Ok.ofSome (by with_reducible assumption) ?_
    | intro _
    | extract_lets
    | split
    | with_reducible apply State.Ok.ite
    | with_reducible apply Core.Ok.ite

theorem execQueueRemap_ok (die : Nat) {s : State} (hs : s.Ok) : OutOk (execQueueRemap die s) := by
  unfold execQueueRemap
  repeat' first
    | with_reducible assumption | with_reducible apply outOk_next | with_reducible apply State.fillSlot_ok | split

theorem State.mapSignalled_ok {s : State} (k : HwQueue) (hs : s.Ok) : (State.mapSignalled s k).Ok := by
  unfold State.mapSignalled
  repeat' first
    | with_reducible assumption
    | with_reducible apply State.fillSlot_ok
    | with_reducible apply State.joinRemap_ok
    | with_reducible apply State.mapQueue_ok
    | with_reducible apply State.unmapQueue_ok
    | extract_lets
    | split

theorem State.restartQueue_ok {s : State} (q : Nat) (hs : s.Ok) : (State.restartQueue s q).Ok := by
  unfold State.restartQueue
  extract_lets q1 s1
  have h1 : s1.Ok := State.countDesc_ok _ (State.setSched_ok hs rfl)
  split
  · exact State.writeDesc_ok _ _ _ _ h1
  · exact h1

theorem State.signalUnmapped_ok {s : State} (k : HwQueue) (d : Nat) (hs : s.Ok) : (State.signalUnmapped s k d).Ok := by
  unfold State.signalUnmapped
  refine State.Ok.ite (fun _ => State.stopQueue_ok _ _ hs) fun _ => ?_
  refine State.Ok.ite (fun _ => State.stopQueue_ok _ _ hs) fun _ => ?_
  refine State.Ok.ite (fun _ => State.stopQueue_ok _ _ hs) fun _ => ?_
  exact State.Ok.ite (fun _ => State.setSched_ok hs rfl) fun _ => State.mapSignalled_ok _ hs

theorem State.signalQueue_ok {s : State} (q : Nat) (hs : s.Ok) : (State.signalQueue s q).Ok := by
  unfold State.signalQueue
  extract_lets s1 wr turn q1 s2 d
  have h1 : s1.Ok := State.countDesc_ok _ (State.countComplex_ok _ _ _ _ hs)
  have h2 : s2.Ok := State.setSched_ok h1 rfl
  clear_value s2
  refine State.Ok.ite (fun _ => h2) fun _ => ?_
  split
  · exact State.Ok.ite (fun _ => State.stopQueue_ok _ _ h2) fun _ => State.setSched_ok h2 rfl
  · exact State.Ok.ite (fun _ => h2) fun _ => State.signalUnmapped_ok _ _ h2

theorem execQueueSignal_ok (q : Nat) {s : State} (hs : s.Ok) :
    OutOk (execQueueSignal q s) := by
  unfold execQueueSignal
  repeat' first
    | with_reducible assumption
    | with_reducible apply outOk_next
    | with_reducible apply State.setSched_ok
    | with_reducible apply State.restartQueue_ok
    | with_reducible apply State.signalQueue_ok
    | intro _
    | extract_lets
    | split
    | with_reducible apply State.Ok.ite
    | with_reducible apply Core.Ok.ite
    | with_reducible rfl

theorem execQueueIdleTimeout_ok (q : Nat) {s : State} (hs : s.Ok) : OutOk (execQueueIdleTimeout q s) := by
  unfold execQueueIdleTimeout
  repeat' first
    | with_reducible assumption
    | with_reducible apply outOk_next
    | with_reducible apply State.unmapQueue_ok
    | split

theorem execQueueRestart_ok (q : Nat) {s : State} (hs : s.Ok) :
    OutOk (execQueueRestart q s) := by
  unfold execQueueRestart
  repeat' first
    | with_reducible assumption
    | with_reducible apply State.setSched_ok
    | with_reducible apply outOk_next
    | with_reducible apply State.restartQueue_ok
    | intro _
    | extract_lets
    | split

theorem State.journal_ok {s : State} (p : Packet) (st : Nat) (cause : BitVec 8) (hs : s.Ok) :
    (State.journal s p st cause).Ok := by
  unfold State.journal
  repeat' first
    | with_reducible assumption
    | with_reducible apply State.countComplex_ok
    | with_reducible apply State.devWrite_ok
    | with_reducible apply State.setSched_ok
    | intro _
    | extract_lets
    | split
    | with_reducible apply State.Ok.ite
    | with_reducible apply Core.Ok.ite
    | with_reducible rfl

theorem State.setQueue_ok {s : State} (k : HwQueue) (hs : s.Ok) : (State.setQueue s k).Ok := by
  unfold State.setQueue
  repeat' first
    | with_reducible assumption | with_reducible apply State.setSched_ok | with_reducible rfl

theorem State.setPacket_ok {s : State} (p : Packet) (hs : s.Ok) : (State.setPacket s p).Ok := by
  unfold State.setPacket
  repeat' first
    | with_reducible assumption | with_reducible apply State.setSched_ok | with_reducible rfl

theorem State.dispatch_ok {s : State} (k : HwQueue) (hs : s.Ok) :
    (State.dispatch s k).Ok := by
  unfold State.dispatch
  repeat' first
    | with_reducible assumption
    | with_reducible apply State.countComplex_ok
    | with_reducible apply State.stopQueue_ok
    | with_reducible apply State.setQueue_ok
    | with_reducible apply State.writeDesc_ok
    | with_reducible apply State.setSched_ok
    | with_reducible apply State.journal_ok
    | with_reducible apply State.nextFree_ok
    | with_reducible apply State.Ok.core
    | with_reducible apply State.Ok.cur
    | intro _
    | extract_lets
    | split
    | with_reducible apply State.Ok.ite
    | with_reducible apply Core.Ok.ite
    | with_reducible rfl

theorem execPacketDispatch_ok (die : Nat) {s : State} (hs : s.Ok) : OutOk (execPacketDispatch die s) := by
  unfold execPacketDispatch
  repeat' first
    | with_reducible assumption | with_reducible apply outOk_next | with_reducible apply State.dispatch_ok | split

theorem State.actCopy_ok {s : State} (p : Packet) (hs : s.Ok) :
    (State.actCopy s p).Ok := by
  unfold State.actCopy
  repeat' first
    | with_reducible assumption
    | with_reducible apply State.setPacket_ok
    | with_reducible apply State.nextFree_ok
    | with_reducible apply State.countComplex_ok
    | with_reducible apply State.packetOutcome_ok
    | with_reducible apply State.acceptJob_ok
    | with_reducible apply State.Ok.foldl
    | with_reducible apply Core.Ok.foldl
    | with_reducible refine State.Ok.ofPair (by with_reducible assumption) ?_
    | with_reducible refine State.Ok.ofSome (by with_reducible assumption) ?_
    | intro _
    | extract_lets
    | split
    | with_reducible apply State.Ok.ite
    | with_reducible apply Core.Ok.ite

theorem execCopy_ok (id : Nat) {s : State} (hs : s.Ok) : OutOk (execCopy id s) := by
  unfold execCopy
  repeat' first
    | with_reducible assumption | with_reducible apply outOk_next | with_reducible apply State.actCopy_ok | split

theorem execBarrier_ok (id : Nat) {s : State} (hs : s.Ok) :
    OutOk (execBarrier id s) := by
  unfold execBarrier
  repeat' first
    | with_reducible assumption
    | with_reducible apply outOk_next
    | with_reducible apply State.countComplex_ok
    | with_reducible apply State.setPacket_ok
    | with_reducible apply State.packetOutcome_ok
    | with_reducible apply State.nextFree_ok
    | with_reducible apply State.Ok.foldl
    | with_reducible apply Core.Ok.foldl
    | with_reducible refine State.Ok.ofPair (by with_reducible assumption) ?_
    | with_reducible refine State.Ok.ofSome (by with_reducible assumption) ?_
    | intro _
    | extract_lets
    | split
    | with_reducible apply State.Ok.ite
    | with_reducible apply Core.Ok.ite

theorem State.continueAt_ok {s : State} (q : Nat) (idx : Nat) (hs : s.Ok) :
    (State.continueAt s q idx).Ok := by
  unfold State.continueAt
  repeat' first
    | with_reducible assumption
    | with_reducible apply State.setQueue_ok
    | with_reducible apply State.writeDesc_ok
    | with_reducible apply State.countDesc_ok
    | with_reducible apply State.joinRemap_ok
    | with_reducible refine State.Ok.ofPair (by with_reducible assumption) ?_
    | with_reducible refine State.Ok.ofSome (by with_reducible assumption) ?_
    | intro _
    | extract_lets
    | split
    | with_reducible apply State.Ok.ite
    | with_reducible apply Core.Ok.ite

theorem State.actNode_ok {s : State} (p : Packet) (hs : s.Ok) :
    (State.actNode s p).Ok := by
  unfold State.actNode
  repeat' first
    | with_reducible assumption
    | with_reducible apply State.countComplex_ok
    | with_reducible apply State.nextFree_ok
    | with_reducible apply State.setPacket_ok
    | with_reducible apply State.packetOutcome_ok
    | with_reducible apply State.continueAt_ok
    | with_reducible refine State.Ok.ofPair (by with_reducible assumption) ?_
    | with_reducible refine State.Ok.ofSome (by with_reducible assumption) ?_
    | intro _
    | extract_lets
    | split
    | with_reducible apply State.Ok.ite
    | with_reducible apply Core.Ok.ite

theorem execNode_ok (id : Nat) {s : State} (hs : s.Ok) : OutOk (execNode id s) := by
  unfold execNode
  repeat' first
    | with_reducible assumption | with_reducible apply outOk_next | with_reducible apply State.actNode_ok | split

theorem execFencePacket_ok (id : Nat) {s : State} (hs : s.Ok) : OutOk (execFencePacket id s) := by
  unfold execFencePacket
  repeat' first
    | with_reducible assumption
    | with_reducible apply outOk_next
    | with_reducible apply State.packetOutcome_ok
    | with_reducible apply State.setPacket_ok
    | split

theorem State.packetSignal_ok {s : State} (p : Packet) (hs : s.Ok) :
    (State.packetSignal s p).Ok := by
  unfold State.packetSignal
  repeat' first
    | with_reducible assumption
    | with_reducible apply State.performAtomic_ok
    | with_reducible apply State.settled_ok
    | with_reducible apply State.countComplex_ok
    | with_reducible apply State.setRels_ok
    | with_reducible apply State.performGlob_ok
    | with_reducible apply State.atomicRels_ok
    | with_reducible apply Launch.core_ok
    | with_reducible apply State.countSignal_ok
    | with_reducible apply State.sendWrite_ok
    | with_reducible apply State.Ok.core
    | with_reducible apply State.Ok.cur
    | intro _
    | extract_lets
    | split
    | with_reducible apply State.Ok.ite
    | with_reducible apply Core.Ok.ite

theorem execPacketComplete_ok (id : Nat) {s : State} (hs : s.Ok) : OutOk (execPacketComplete id s) := by
  unfold execPacketComplete
  repeat' first
    | with_reducible assumption
    | with_reducible apply outOk_next
    | with_reducible apply State.journal_ok
    | with_reducible apply State.packetSignal_ok
    | with_reducible apply State.setSched_ok
    | with_reducible rfl
    | extract_lets
    | split

end Sys2Proof.Machine
end

