-- ==== Sys2Proof/Laws/OkLaunch.lean ====
section
/-! SUPPORT. Every operation of Machine/Launch.lean keeps a sound state sound. -/

namespace Sys2Proof.Machine

theorem State.setProt_ok {s : State} (p : Prot) (hs : s.Ok) : (s.setProt p).Ok := hs

theorem State.noteArena_ok {s : State} (l : Launch) (hs : s.Ok) :
    (State.noteArena s l).Ok := by
  unfold State.noteArena
  repeat' first
    | with_reducible assumption
    | with_reducible apply State.setProt_ok

theorem execLaunch_ok (id : Nat) {s : State} (hs : s.Ok) :
    OutOk (execLaunch id s) := by
  unfold execLaunch
  repeat' first
    | with_reducible assumption
    | with_reducible apply outOk_next
    | with_reducible apply State.countComplex_ok
    | with_reducible apply State.setPacket_ok
    | with_reducible apply State.packetOutcome_ok
    | with_reducible apply State.nextFree_ok
    | with_reducible apply State.noteArena_ok
    | with_reducible apply State.setSched_ok
    | with_reducible refine State.Ok.ofPair (by with_reducible assumption) ?_
    | with_reducible refine State.Ok.ofSome (by with_reducible assumption) ?_
    | intro _
    | extract_lets
    | split
    | with_reducible apply State.Ok.ite
    | with_reducible apply Core.Ok.ite
    | with_reducible rfl

/-- The launch's table of handles leaves h0's tag alone. -/
theorem tags_from_one (l : List ((Cap × Bool) × Nat)) (t : BitVec 16) :
    (l.foldl (fun t (c, k) => setBit t (k + 1) c.2) t).getLsbD 0 = t.getLsbD 0 := by
  induction l generalizing t with
  | nil => rfl
  | cons x l ih =>
    rw [List.foldl_cons, ih]
    exact setBit_other _ _ (Nat.succ_ne_zero _)

/-- Placing a group leaves the launch's context alone. -/
theorem Launch.placed_ctx (l : Launch) (i n : Nat) : l.ctx = (((l.take i).fixUnits i n).mirrorTo i (dieOf n)).ctx := by
  have h : ∀ (ks : List Nat) (m : Launch), (ks.foldl (fun l k =>
      match l.level k with
      | some _ => (fun g => if g.unit.isNone then l.setGroup { g with unit := some (unitOf k n) } else l) (l.groupSt k (l.groupOf k i))
      | none => l) m).ctx = m.ctx := by
    intro ks
    induction ks with
    | nil => exact fun _ => rfl
    | cons k ks ih =>
      intro m
      rw [List.foldl_cons, ih]
      split
      · dsimp only
        split <;> rfl
      · rfl
  exact (h [1, 2, 3] (l.take i)).symm

theorem Launch.core_ok (l : Launch) {old : Core} (t : Task) (base rec : Nat) (hold : old.Ok) (ht : t.ctx = l.ctx) :
    (l.core old t base rec).Ok := by
  refine ⟨Core.idle_ok.1, Core.idle_ok.2.1, and_and_zero _ _ _ masks_apart.1, Core.idle_ok.2.2.2.1, Core.idle_ok.2.2.2.2.1,
    Core.idle_ok.2.2.2.2.2.1, fun k hk => ?_⟩
  have e : t.ctx = k := Option.some.inj hk
  refine ⟨?_, tags_from_one _ _⟩
  rw [← e, ht]
  exact Vector.getElem_set_self _

theorem State.loadSegs_ok {s : State} (n : Nat) (gs : List Seg) (hs : s.Ok) : (State.loadSegs s n gs).Ok := by
  unfold State.loadSegs
  repeat' first
    | with_reducible assumption
    | with_reducible apply State.loadSeg_ok
    | with_reducible apply State.Ok.foldl
    | intro _
    | extract_lets
    | split

theorem State.clearStorage_ok {s : State} (n : Nat) (hs : s.Ok) : (State.clearStorage s n).Ok := by
  unfold State.clearStorage
  repeat' first
    | with_reducible assumption | with_reducible apply State.scrub_ok

theorem State.seatTask_ok {s : State} (l : Launch) (i n base rec : Nat) (hs : s.Ok) :
    (State.seatTask s l i n base rec).Ok := by
  unfold State.seatTask
  repeat' first
    | with_reducible assumption
    | with_reducible exact Launch.placed_ctx _ _ _
    | with_reducible apply State.setSched_ok
    | with_reducible apply State.setLaunch_ok
    | with_reducible apply State.clearStorage_ok
    | with_reducible apply Launch.core_ok
    | with_reducible apply State.loadSegs_ok
    | with_reducible apply State.setCore_ok
    | with_reducible apply State.Ok.core
    | with_reducible apply State.Ok.cur
    | with_reducible refine State.Ok.ofPair (by with_reducible assumption) ?_
    | with_reducible refine State.Ok.ofSome (by with_reducible assumption) ?_
    | intro _
    | extract_lets
    | split
    | with_reducible apply State.Ok.ite
    | with_reducible apply Core.Ok.ite
    | with_reducible rfl

theorem State.startTask_ok {s : State} (l : Launch) (i : Nat) (n : Nat) (hs : s.Ok) :
    (State.startTask s l i n).Ok := by
  unfold State.startTask
  repeat' first
    | with_reducible assumption
    | with_reducible exact Launch.placed_ctx _ _ _
    | with_reducible apply State.seatTask_ok
    | with_reducible apply State.setLaunch_ok
    | with_reducible apply State.clearStorage_ok
    | with_reducible apply Launch.core_ok
    | with_reducible apply State.loadSegs_ok
    | with_reducible apply State.setCore_ok
    | with_reducible apply State.Ok.core
    | with_reducible apply State.Ok.cur
    | with_reducible refine State.Ok.ofPair (by with_reducible assumption) ?_
    | with_reducible refine State.Ok.ofSome (by with_reducible assumption) ?_
    | intro _
    | extract_lets
    | split
    | with_reducible apply State.Ok.ite
    | with_reducible apply Core.Ok.ite
    | with_reducible rfl

theorem State.noteBegun_ok {s : State} (n : Nat) (hs : s.Ok) : (State.noteBegun s n).Ok := by
  unfold State.noteBegun
  repeat' first
    | with_reducible assumption
    | with_reducible apply State.journal_ok
    | with_reducible apply State.setLaunch_ok
    | extract_lets
    | split

theorem State.grantClaim_ok {s : State} (l : Launch) (die : Nat) (hs : s.Ok) :
    (State.grantClaim s l die).Ok := by
  unfold State.grantClaim
  repeat' first
    | with_reducible assumption
    | with_reducible apply State.setLaunch_ok
    | intro _
    | extract_lets
    | split

theorem execIndexClaim_ok (die : Nat) (pid : Nat) {s : State} (hs : s.Ok) :
    OutOk (execIndexClaim die pid s) := by
  unfold execIndexClaim
  repeat' first
    | with_reducible assumption
    | with_reducible apply outOk_next
    | with_reducible apply State.setLaunch_ok
    | with_reducible apply State.grantClaim_ok
    | with_reducible refine State.Ok.ofPair (by with_reducible assumption) ?_
    | with_reducible refine State.Ok.ofSome (by with_reducible assumption) ?_
    | intro _
    | extract_lets
    | split

theorem execIndexReturnTimeout_ok (die : Nat) (pid : Nat) {s : State} (hs : s.Ok) : OutOk (execIndexReturnTimeout die pid s) := by
  unfold execIndexReturnTimeout
  repeat' first
    | with_reducible assumption | with_reducible apply outOk_next | with_reducible apply State.setLaunch_ok | split

theorem State.noteFree_ok {s : State} (hs : s.Ok) :
    (State.noteFree s).Ok := by
  unfold State.noteFree
  repeat' first
    | with_reducible assumption
    | with_reducible apply State.setLaunch_ok
    | with_reducible apply State.Ok.foldl
    | with_reducible apply Core.Ok.foldl
    | with_reducible refine State.Ok.ofPair (by with_reducible assumption) ?_
    | with_reducible refine State.Ok.ofSome (by with_reducible assumption) ?_
    | intro _
    | extract_lets
    | split
    | with_reducible apply State.Ok.ite
    | with_reducible apply Core.Ok.ite

theorem State.noteBlocked_ok {s : State} (hs : s.Ok) : (State.noteBlocked s).Ok := by
  unfold State.noteBlocked
  repeat' first
    | with_reducible assumption
    | with_reducible apply State.setLaunch_ok
    | with_reducible apply State.Ok.foldl
    | intro _
    | extract_lets
    | split

theorem execLaunchComplete_ok (pid : Nat) {s : State} (hs : s.Ok) :
    OutOk (execLaunchComplete pid s) := by
  unfold execLaunchComplete
  repeat' first
    | with_reducible assumption
    | with_reducible apply outOk_next
    | with_reducible apply State.setLaunch_ok
    | with_reducible apply State.setSched_ok
    | with_reducible apply State.packetOutcome_ok
    | with_reducible refine State.Ok.ofPair (by with_reducible assumption) ?_
    | with_reducible refine State.Ok.ofSome (by with_reducible assumption) ?_
    | intro _
    | extract_lets
    | split
    | with_reducible apply State.Ok.ite
    | with_reducible apply Core.Ok.ite
    | with_reducible rfl

theorem State.launchIn_ok {s : State} (pkg : Nat) (m : LinkIn) (hs : s.Ok) :
    (State.launchIn s pkg m).Ok := by
  unfold State.launchIn
  extract_lets on
  have hon : ∀ (lid : BitVec 32) (f : Launch → State), (∀ l, (f l).Ok) → (on lid f).Ok := fun lid f hf => by
    dsimp only [on]
    split
    · exact State.Ok.ite (fun _ => hf _) fun _ => hs
    · exact hs
  have hl : ∀ l, (s.setLaunch l).Ok := fun l => State.setLaunch_ok l hs
  clear_value on
  split
  all_goals repeat' first
    | with_reducible assumption
    | with_reducible apply hl
    | with_reducible apply hon
    | intro _
    | extract_lets
    | split

end Sys2Proof.Machine
end

