-- ==== Sys2Proof/Laws/OkScalar.lean ====
section
/-! SUPPORT. Every operation of Machine/Scalar.lean keeps a sound state sound. -/

namespace Sys2Proof.Machine

theorem sRes_ok {c : Core} (rd : XReg) (lat : Nat) (v : DWord) (hc : c.Ok) : (sRes c rd lat v).Ok := by
  unfold sRes
  repeat' first
    | with_reducible assumption | with_reducible apply Core.push_ok

theorem sRR_ok (i : Instr) (f : RF) (lat : Nat) (op : DWord → DWord → DWord) {s : State} (hs : s.Ok) : OutOk (sRR i f lat op s) := by
  unfold sRR
  repeat' first
    | with_reducible assumption
    | with_reducible apply sRes_ok
    | with_reducible apply slotOp_ok
    | with_reducible apply coreExOk_ok
    | intro _

theorem sRI_ok (i : Instr) (f : IF) (op : DWord → DWord → DWord) {s : State} (hs : s.Ok) : OutOk (sRI i f op s) := by
  unfold sRI
  repeat' first
    | with_reducible assumption
    | with_reducible apply sRes_ok
    | with_reducible apply slotOp_ok
    | with_reducible apply coreExOk_ok
    | intro _

theorem sSh_ok (i : Instr) (f : ShF) (op : DWord → Nat → DWord) {s : State} (hs : s.Ok) : OutOk (sSh i f op s) := by
  unfold sSh
  repeat' first
    | with_reducible assumption
    | with_reducible apply sRes_ok
    | with_reducible apply slotOp_ok
    | with_reducible apply coreExOk_ok
    | intro _

theorem sShw_ok (i : Instr) (f : ShwF) (op : BitVec 32 → Nat → BitVec 32) {s : State} (hs : s.Ok) : OutOk (sShw i f op s) := by
  unfold sShw
  repeat' first
    | with_reducible assumption
    | with_reducible apply sRes_ok
    | with_reducible apply slotOp_ok
    | with_reducible apply coreExOk_ok
    | intro _

theorem execLui_ok (f : UF) {s : State} (hs : s.Ok) : OutOk (execLui f s) := by
  unfold execLui
  repeat' first
    | with_reducible assumption
    | with_reducible apply sRes_ok
    | with_reducible apply slotOp_ok
    | with_reducible apply coreExOk_ok
    | intro _

theorem execAuipc_ok (f : UF) {s : State} (hs : s.Ok) : OutOk (execAuipc f s) := by
  unfold execAuipc
  repeat' first
    | with_reducible assumption
    | with_reducible apply sRes_ok
    | with_reducible apply slotOp_ok
    | with_reducible apply coreExOk_ok
    | intro _

theorem execAddi_ok (f : IF) {s : State} (hs : s.Ok) : OutOk (execAddi f s) := by
  unfold execAddi
  repeat' first
    | with_reducible assumption | with_reducible apply sRI_ok

theorem execSlti_ok (f : IF) {s : State} (hs : s.Ok) : OutOk (execSlti f s) := by
  unfold execSlti
  repeat' first
    | with_reducible assumption | with_reducible apply sRI_ok

theorem execSltiu_ok (f : IF) {s : State} (hs : s.Ok) : OutOk (execSltiu f s) := by
  unfold execSltiu
  repeat' first
    | with_reducible assumption | with_reducible apply sRI_ok

theorem execXori_ok (f : IF) {s : State} (hs : s.Ok) : OutOk (execXori f s) := by
  unfold execXori
  repeat' first
    | with_reducible assumption | with_reducible apply sRI_ok

theorem execOri_ok (f : IF) {s : State} (hs : s.Ok) : OutOk (execOri f s) := by
  unfold execOri
  repeat' first
    | with_reducible assumption | with_reducible apply sRI_ok

theorem execAndi_ok (f : IF) {s : State} (hs : s.Ok) : OutOk (execAndi f s) := by
  unfold execAndi
  repeat' first
    | with_reducible assumption | with_reducible apply sRI_ok

theorem execAddiw_ok (f : IF) {s : State} (hs : s.Ok) : OutOk (execAddiw f s) := by
  unfold execAddiw
  repeat' first
    | with_reducible assumption | with_reducible apply sRI_ok

theorem execSlli_ok (f : ShF) {s : State} (hs : s.Ok) : OutOk (execSlli f s) := by
  unfold execSlli
  repeat' first
    | with_reducible assumption | with_reducible apply sSh_ok

theorem execSrli_ok (f : ShF) {s : State} (hs : s.Ok) : OutOk (execSrli f s) := by
  unfold execSrli
  repeat' first
    | with_reducible assumption | with_reducible apply sSh_ok

theorem execSrai_ok (f : ShF) {s : State} (hs : s.Ok) : OutOk (execSrai f s) := by
  unfold execSrai
  repeat' first
    | with_reducible assumption | with_reducible apply sSh_ok

theorem execSlliw_ok (f : ShwF) {s : State} (hs : s.Ok) : OutOk (execSlliw f s) := by
  unfold execSlliw
  repeat' first
    | with_reducible assumption | with_reducible apply sShw_ok

theorem execSrliw_ok (f : ShwF) {s : State} (hs : s.Ok) : OutOk (execSrliw f s) := by
  unfold execSrliw
  repeat' first
    | with_reducible assumption | with_reducible apply sShw_ok

theorem execSraiw_ok (f : ShwF) {s : State} (hs : s.Ok) : OutOk (execSraiw f s) := by
  unfold execSraiw
  repeat' first
    | with_reducible assumption | with_reducible apply sShw_ok

theorem execAdd_ok (f : RF) {s : State} (hs : s.Ok) : OutOk (execAdd f s) := by
  unfold execAdd
  repeat' first
    | with_reducible assumption | with_reducible apply sRR_ok

theorem execSub_ok (f : RF) {s : State} (hs : s.Ok) : OutOk (execSub f s) := by
  unfold execSub
  repeat' first
    | with_reducible assumption | with_reducible apply sRR_ok

theorem execSll_ok (f : RF) {s : State} (hs : s.Ok) : OutOk (execSll f s) := by
  unfold execSll
  repeat' first
    | with_reducible assumption | with_reducible apply sRR_ok

theorem execSlt_ok (f : RF) {s : State} (hs : s.Ok) : OutOk (execSlt f s) := by
  unfold execSlt
  repeat' first
    | with_reducible assumption | with_reducible apply sRR_ok

theorem execSltu_ok (f : RF) {s : State} (hs : s.Ok) : OutOk (execSltu f s) := by
  unfold execSltu
  repeat' first
    | with_reducible assumption | with_reducible apply sRR_ok

theorem execXor_ok (f : RF) {s : State} (hs : s.Ok) : OutOk (execXor f s) := by
  unfold execXor
  repeat' first
    | with_reducible assumption | with_reducible apply sRR_ok

theorem execSrl_ok (f : RF) {s : State} (hs : s.Ok) : OutOk (execSrl f s) := by
  unfold execSrl
  repeat' first
    | with_reducible assumption | with_reducible apply sRR_ok

theorem execSra_ok (f : RF) {s : State} (hs : s.Ok) : OutOk (execSra f s) := by
  unfold execSra
  repeat' first
    | with_reducible assumption | with_reducible apply sRR_ok

theorem execOr_ok (f : RF) {s : State} (hs : s.Ok) : OutOk (execOr f s) := by
  unfold execOr
  repeat' first
    | with_reducible assumption | with_reducible apply sRR_ok

theorem execAnd_ok (f : RF) {s : State} (hs : s.Ok) : OutOk (execAnd f s) := by
  unfold execAnd
  repeat' first
    | with_reducible assumption | with_reducible apply sRR_ok

theorem execAddw_ok (f : RF) {s : State} (hs : s.Ok) : OutOk (execAddw f s) := by
  unfold execAddw
  repeat' first
    | with_reducible assumption | with_reducible apply sRR_ok

theorem execSubw_ok (f : RF) {s : State} (hs : s.Ok) : OutOk (execSubw f s) := by
  unfold execSubw
  repeat' first
    | with_reducible assumption | with_reducible apply sRR_ok

theorem execSllw_ok (f : RF) {s : State} (hs : s.Ok) : OutOk (execSllw f s) := by
  unfold execSllw
  repeat' first
    | with_reducible assumption | with_reducible apply sRR_ok

theorem execSrlw_ok (f : RF) {s : State} (hs : s.Ok) : OutOk (execSrlw f s) := by
  unfold execSrlw
  repeat' first
    | with_reducible assumption | with_reducible apply sRR_ok

theorem execSraw_ok (f : RF) {s : State} (hs : s.Ok) : OutOk (execSraw f s) := by
  unfold execSraw
  repeat' first
    | with_reducible assumption | with_reducible apply sRR_ok

theorem execMul_ok (f : RF) {s : State} (hs : s.Ok) : OutOk (execMul f s) := by
  unfold execMul
  repeat' first
    | with_reducible assumption | with_reducible apply sRR_ok

theorem execMulh_ok (f : RF) {s : State} (hs : s.Ok) : OutOk (execMulh f s) := by
  unfold execMulh
  repeat' first
    | with_reducible assumption | with_reducible apply sRR_ok

theorem execMulhsu_ok (f : RF) {s : State} (hs : s.Ok) : OutOk (execMulhsu f s) := by
  unfold execMulhsu
  repeat' first
    | with_reducible assumption | with_reducible apply sRR_ok

theorem execMulhu_ok (f : RF) {s : State} (hs : s.Ok) : OutOk (execMulhu f s) := by
  unfold execMulhu
  repeat' first
    | with_reducible assumption | with_reducible apply sRR_ok

theorem execDiv_ok (f : RF) {s : State} (hs : s.Ok) : OutOk (execDiv f s) := by
  unfold execDiv
  repeat' first
    | with_reducible assumption | with_reducible apply sRR_ok

theorem execDivu_ok (f : RF) {s : State} (hs : s.Ok) : OutOk (execDivu f s) := by
  unfold execDivu
  repeat' first
    | with_reducible assumption | with_reducible apply sRR_ok

theorem execRem_ok (f : RF) {s : State} (hs : s.Ok) : OutOk (execRem f s) := by
  unfold execRem
  repeat' first
    | with_reducible assumption | with_reducible apply sRR_ok

theorem execRemu_ok (f : RF) {s : State} (hs : s.Ok) : OutOk (execRemu f s) := by
  unfold execRemu
  repeat' first
    | with_reducible assumption | with_reducible apply sRR_ok

theorem execMulw_ok (f : RF) {s : State} (hs : s.Ok) : OutOk (execMulw f s) := by
  unfold execMulw
  repeat' first
    | with_reducible assumption | with_reducible apply sRR_ok

theorem execDivw_ok (f : RF) {s : State} (hs : s.Ok) : OutOk (execDivw f s) := by
  unfold execDivw
  repeat' first
    | with_reducible assumption | with_reducible apply sRR_ok

theorem execDivuw_ok (f : RF) {s : State} (hs : s.Ok) : OutOk (execDivuw f s) := by
  unfold execDivuw
  repeat' first
    | with_reducible assumption | with_reducible apply sRR_ok

theorem execRemw_ok (f : RF) {s : State} (hs : s.Ok) : OutOk (execRemw f s) := by
  unfold execRemw
  repeat' first
    | with_reducible assumption | with_reducible apply sRR_ok

theorem execRemuw_ok (f : RF) {s : State} (hs : s.Ok) : OutOk (execRemuw f s) := by
  unfold execRemuw
  repeat' first
    | with_reducible assumption | with_reducible apply sRR_ok

theorem sLoad_ok (i : Instr) (f : IF) (n : Nat) (ext : Nat → DWord) {s : State} (hs : s.Ok) :
    OutOk (sLoad i f n ext s) := by
  unfold sLoad
  repeat' first
    | with_reducible assumption
    | with_reducible apply outOk_next
    | with_reducible apply slotOpS_ok
    | with_reducible apply Launch.core_ok
    | with_reducible apply State.spadDenied_ok
    | with_reducible apply State.setCur_ok
    | with_reducible apply Core.push_ok
    | with_reducible apply State.Ok.core
    | with_reducible apply State.Ok.cur
    | with_reducible apply exOk_ok
    | with_reducible apply exOk_error
    | with_reducible apply exOk_bind_state
    | with_reducible apply exOk_bind
    | with_reducible refine State.Ok.ofPair (by with_reducible assumption) ?_
    | with_reducible refine State.Ok.ofSome (by with_reducible assumption) ?_
    | intro _
    | extract_lets
    | split

theorem sStore_ok (i : Instr) (f : StF) (n : Nat) {s : State} (hs : s.Ok) :
    OutOk (sStore i f n s) := by
  unfold sStore
  repeat' first
    | with_reducible assumption
    | with_reducible apply outOk_next
    | with_reducible apply slotOpS_ok
    | with_reducible apply Launch.core_ok
    | with_reducible apply State.spadStore_ok
    | with_reducible apply State.storeNat_ok
    | with_reducible apply State.Ok.core
    | with_reducible apply State.Ok.cur
    | with_reducible apply exOk_ok
    | with_reducible apply exOk_error
    | with_reducible apply exOk_bind_state
    | with_reducible apply exOk_bind
    | with_reducible refine State.Ok.ofPair (by with_reducible assumption) ?_
    | with_reducible refine State.Ok.ofSome (by with_reducible assumption) ?_
    | intro _
    | extract_lets
    | split

theorem execLb_ok (f : IF) {s : State} (hs : s.Ok) : OutOk (execLb f s) := by
  unfold execLb
  repeat' first
    | with_reducible assumption | with_reducible apply sLoad_ok

theorem execLh_ok (f : IF) {s : State} (hs : s.Ok) : OutOk (execLh f s) := by
  unfold execLh
  repeat' first
    | with_reducible assumption | with_reducible apply sLoad_ok

theorem execLw_ok (f : IF) {s : State} (hs : s.Ok) : OutOk (execLw f s) := by
  unfold execLw
  repeat' first
    | with_reducible assumption | with_reducible apply sLoad_ok

theorem execSld_ok (f : IF) {s : State} (hs : s.Ok) : OutOk (execSld f s) := by
  unfold execSld
  repeat' first
    | with_reducible assumption | with_reducible apply sLoad_ok

theorem execLbu_ok (f : IF) {s : State} (hs : s.Ok) : OutOk (execLbu f s) := by
  unfold execLbu
  repeat' first
    | with_reducible assumption | with_reducible apply sLoad_ok

theorem execLhu_ok (f : IF) {s : State} (hs : s.Ok) : OutOk (execLhu f s) := by
  unfold execLhu
  repeat' first
    | with_reducible assumption | with_reducible apply sLoad_ok

theorem execLwu_ok (f : IF) {s : State} (hs : s.Ok) : OutOk (execLwu f s) := by
  unfold execLwu
  repeat' first
    | with_reducible assumption | with_reducible apply sLoad_ok

theorem execSb_ok (f : StF) {s : State} (hs : s.Ok) : OutOk (execSb f s) := by
  unfold execSb
  repeat' first
    | with_reducible assumption | with_reducible apply sStore_ok

theorem execSh_ok (f : StF) {s : State} (hs : s.Ok) : OutOk (execSh f s) := by
  unfold execSh
  repeat' first
    | with_reducible assumption | with_reducible apply sStore_ok

theorem execSw_ok (f : StF) {s : State} (hs : s.Ok) : OutOk (execSw f s) := by
  unfold execSw
  repeat' first
    | with_reducible assumption | with_reducible apply sStore_ok

theorem execSd_ok (f : StF) {s : State} (hs : s.Ok) : OutOk (execSd f s) := by
  unfold execSd
  repeat' first
    | with_reducible assumption | with_reducible apply sStore_ok

theorem execFence_ok (f : FenceF) {s : State} (hs : s.Ok) : OutOk (execFence f s) := by
  unfold execFence
  repeat' first
    | with_reducible assumption
    | with_reducible apply Core.fenceMark_ok
    | with_reducible apply slotOp_ok
    | with_reducible apply coreExOk_ok
    | intro _

theorem State.complete_ok {s : State} (cause : BitVec 8) (tval : DWord) (sl : Slot) (hs : s.Ok) : OutOk (State.complete s cause tval sl) := by
  unfold State.complete
  repeat' first
    | with_reducible assumption
    | with_reducible apply outOk_next
    | with_reducible apply State.raise_ok
    | with_reducible apply State.setCur_ok
    | with_reducible apply State.Ok.cur

theorem execEcall_ok {s : State} (hs : s.Ok) : OutOk (execEcall s) := by
  unfold execEcall
  repeat' first
    | with_reducible assumption | with_reducible apply State.complete_ok

theorem execEbreak_ok {s : State} (hs : s.Ok) : OutOk (execEbreak s) := by
  unfold execEbreak
  repeat' first
    | with_reducible assumption | with_reducible apply State.complete_ok

theorem csrOp_ok (i : Instr) (num : BitVec 12) (rd : XReg) (op : CsrOp) (writes : Bool) (src : Core → DWord) {s : State} (hs : s.Ok) : OutOk (csrOp i num rd op writes src s) := by
  unfold csrOp
  repeat' first
    | with_reducible assumption
    | with_reducible apply Core.push_ok
    | with_reducible apply sRes_ok
    | with_reducible apply slotOp_ok
    | with_reducible apply coreExOk_ok
    | with_reducible apply coreExOk_error
    | intro _
    | extract_lets
    | split

theorem execCsrrw_ok (f : CsrF) {s : State} (hs : s.Ok) : OutOk (execCsrrw f s) := by
  unfold execCsrrw
  repeat' first
    | with_reducible assumption | with_reducible apply csrOp_ok

theorem execCsrrs_ok (f : CsrF) {s : State} (hs : s.Ok) : OutOk (execCsrrs f s) := by
  unfold execCsrrs
  repeat' first
    | with_reducible assumption | with_reducible apply csrOp_ok

theorem execCsrrc_ok (f : CsrF) {s : State} (hs : s.Ok) : OutOk (execCsrrc f s) := by
  unfold execCsrrc
  repeat' first
    | with_reducible assumption | with_reducible apply csrOp_ok

theorem execCsrrwi_ok (f : CsriF) {s : State} (hs : s.Ok) : OutOk (execCsrrwi f s) := by
  unfold execCsrrwi
  repeat' first
    | with_reducible assumption | with_reducible apply csrOp_ok

theorem execCsrrsi_ok (f : CsriF) {s : State} (hs : s.Ok) : OutOk (execCsrrsi f s) := by
  unfold execCsrrsi
  repeat' first
    | with_reducible assumption | with_reducible apply csrOp_ok

theorem execCsrrci_ok (f : CsriF) {s : State} (hs : s.Ok) : OutOk (execCsrrci f s) := by
  unfold execCsrrci
  repeat' first
    | with_reducible assumption | with_reducible apply csrOp_ok

end Sys2Proof.Machine
end

