-- ==== Sys2Proof/Laws/OkSave.lean ====
section
/-! SUPPORT. Every operation of Machine/Save.lean keeps a sound state sound. -/

namespace Sys2Proof.Machine

/-- h0 is the root that the core held, and every constrained CSR field is masked or clamped (R48, R51). -/
theorem Core.fromRecord_ok {c : Core} (rd : Nat → Nat → Nat) (hc : c.Ok) : (c.fromRecord rd).Ok := by
  have e1 : ∀ f : Nat → DWord, (c.c.fromRecord f).rmax.toNat ≤ 16 ∧ (fld (c.c.fromRecord f).rseq 30 4).toNat ≤ 10 ∧
      (c.c.fromRecord f).mpc &&& 3 = 0 ∧ (c.c.fromRecord f).tvec &&& 0x7E = 0 := fun f => by
    unfold Csrs.fromRecord
    dsimp only
    exact ⟨ite_le_sixteen _, ite_count_ok _, and_and_zero _ _ _ masks_apart.1, and_and_zero _ _ _ masks_apart.2.1⟩
  have e2 : ∀ f : Nat → DWord, (TrapCsrs.fromRecord f).slot &&& 0x0F8 = 0 ∧
      (TrapCsrs.fromRecord f).loop &&& 0x7FFFFFFFFFFC0000 = 0 := fun f => by
    unfold TrapCsrs.fromRecord
    dsimp only
    exact ⟨and_and_zero _ _ _ masks_apart.2.2.1, and_and_zero _ _ _ masks_apart.2.2.2⟩
  unfold Core.fromRecord
  extract_lets q csr busy seg rows
  have e3 := e1 csr
  have e4 := e2 csr
  clear_value csr
  refine ⟨e3.1, e3.2.1, e3.2.2.1, e3.2.2.2, e4.1, e4.2, fun k hk => ?_⟩
  obtain ⟨r1, r2⟩ := hc.2.2.2.2.2.2 k hk
  exact ⟨(Vector.getElem_set_self _).trans r1, (setBit_self _ _ _ (by decide)).trans r2⟩

theorem Core.soiled_ok {b c : Core} (f : Nat) (hb : b.Ok) (hc : c.Ok) (ht : b.task = c.task) : (b.soiled c f).Ok := by
  unfold Core.soiled
  extract_lets soil
  refine ⟨hb.1, hb.2.1, hb.2.2.1, hb.2.2.2.1, hb.2.2.2.2.1, hb.2.2.2.2.2.1, fun k hk => ?_⟩
  have hk : b.task.map (·.ctx) = some k := hk
  exact ⟨(hb.2.2.2.2.2.2 k hk).1, (setBit_self _ _ _ (by decide)).trans (hc.2.2.2.2.2.2 k (ht ▸ hk)).2⟩

theorem Core.fromRecord_task (c : Core) (rd : Nat → Nat → Nat) : (c.fromRecord rd).task = c.task := by
  unfold Core.fromRecord
  rfl

theorem Core.poisoned_ok {c : Core} (f : Nat) (hc : c.Ok) : (c.poisoned f).Ok :=
  Core.soiled_ok f (Core.fromRecord_ok _ hc) hc (Core.fromRecord_task c _)

theorem State.copyCells_ok {s : State} (src dst len : Nat) (hs : s.Ok) : (s.copyCells src dst len).Ok :=
  ListsOk.withMem hs (Memory.foldl_write_wf _ (fun c : Host.Cell => c.1 - src + dst) (fun c : Host.Cell => c.2) hs.1)

theorem State.writeRecord_ok {s : State} (n : Nat) (c : Core) (a : Nat) (hs : s.Ok) : (s.writeRecord n c a).Ok := by
  unfold State.writeRecord
  extract_lets g sp jobs s1 bleft s2 s3 s4
  have h1 : s1.Ok := State.scrub_ok _ _ _ _ hs
  have h2 : s2.Ok := State.Ok.foldl _ h1 (fun _ _ h => State.store_ok _ _ h)
  have h3 : s3.Ok := State.copyCells_ok _ _ _ (State.copyCells_ok _ _ _ (State.copyCells_ok _ _ _ h2))
  have h4 : s4.Ok := State.store_ok _ _ (State.store_ok _ _ h3)
  exact h4.withFree _

theorem State.readRecord_ok {s : State} (n : Nat) (a : Nat) (hs : s.Ok) : (State.readRecord s n a).Ok := by
  unfold State.readRecord
  repeat' first
    | with_reducible assumption
    | with_reducible apply State.clearStorage_ok
    | with_reducible apply State.copyCells_ok
    | with_reducible apply ListsOk.addMarks
    | with_reducible apply ListsOk.addTags

theorem State.readFree_ok {s : State} (n : Nat) (f : Nat) (hs : s.Ok) : (State.readFree s n f).Ok := by
  unfold State.readFree
  extract_lets sp s1 m1 m2 m3
  have h : s1.Ok := State.clearStorage_ok _ hs
  have hm : Memory.wf m3 = true := by
    dsimp only [m3, m2, m1]
    exact Memory.writeList_wf _ _ (Memory.writeList_wf _ _ (Memory.writeList_wf _ _ h.1))
  clear_value m3 s1
  generalize List.map (sp / 32 + ·) (List.range (2 ^ 15)) = l
  exact ListsOk.addMarks (ListsOk.withMem h hm)

theorem State.jobsFrom_ok {s : State} (uid : Nat) (rd : Nat → Nat → Nat) (hs : s.Ok) :
    (State.jobsFrom s uid rd).Ok := by
  unfold State.jobsFrom
  repeat' first
    | with_reducible assumption
    | with_reducible apply Core.fromRecord_ok
    | intro _
    | extract_lets
    | split
    | with_reducible apply State.Ok.ite
    | with_reducible apply Core.Ok.ite

theorem State.repFrom_ok {s : State} (n : Nat) (rd : Nat → Nat → Nat) (hs : s.Ok) :
    (State.repFrom s n rd).Ok := by
  unfold State.repFrom
  repeat' first
    | with_reducible assumption
    | with_reducible apply Launch.core_ok
    | with_reducible apply State.setCore_ok
    | with_reducible apply State.Ok.core
    | with_reducible apply State.Ok.cur
    | intro _
    | extract_lets
    | split
    | with_reducible apply State.Ok.ite
    | with_reducible apply Core.Ok.ite

theorem State.setCtx_ok {s : State} (k : Nat) (c : Ctx) (hs : s.Ok) : (State.setCtx s k c).Ok := by
  unfold State.setCtx
  repeat' first
    | with_reducible assumption | with_reducible apply State.setProt_ok

theorem State.sealImage_ok {s : State} (n : Nat) {c : Core} (t : Task) (a : Nat) (k : Nat) (x : Ctx) (slot : Nat) (addr : Nat) (len : Nat) (hs : s.Ok) (hc : c.Ok) :
    (State.sealImage s n c t a k x slot addr len).1.Ok := by
  unfold State.sealImage
  repeat' first
    | with_reducible assumption
    | with_reducible apply State.writeRecord_ok
    | with_reducible apply State.store_ok
    | with_reducible apply State.scrub_ok
    | with_reducible apply State.countComplex_ok
    | with_reducible apply State.setCtx_ok
    | intro _
    | extract_lets
    | split
    | with_reducible apply State.Ok.ite
    | with_reducible apply Core.Ok.ite

theorem State.readPayload_ok {s : State} (n : Nat) (len : Nat) (p : List Byte) (hs : s.Ok) : (State.readPayload s n len p).Ok := by
  unfold State.readPayload
  repeat' first
    | with_reducible assumption
    | with_reducible apply State.clearStorage_ok
    | with_reducible apply ListsOk.addMarks
    | with_reducible apply ListsOk.addTags
    | with_reducible apply ListsOk.writeList

theorem State.pauseJobs_ok {s : State} (uid : Nat) (p : Bool) (hs : s.Ok) : (State.pauseJobs s uid p).Ok := by
  unfold State.pauseJobs
  with_reducible assumption

theorem State.stopForSave_ok {s : State} (n : Nat) (hs : s.Ok) : (s.stopForSave n).Ok := by
  unfold State.stopForSave
  extract_lets c
  split
  · exact State.pauseJobs_ok _ _ (State.setCore_ok _ (State.setSched_ok hs rfl) (hs.core n))
  · exact hs

theorem Core.forSave_ok {c : Core} (hc : c.Ok) : c.forSave.Ok := hc

theorem State.saveCore_ok {s : State} (n : Nat) (behind : List (Nat × Nat)) (hs : s.Ok) : (s.saveCore n behind).Ok := by
  unfold State.saveCore
  extract_lets s0 c a
  have h0 : s0.Ok := State.cleanL1_ok _ hs
  have hc : c.Ok := Core.writeExps_ok (h0.core n)
  clear_value a c s0
  split
  · exact h0
  · rename_i t e
    split
    rename_i s1 sl e1
    have h1 : s1.Ok := by
      refine State.Ok.ofPair e1 ?_
      split
      · exact State.Ok.ite (fun _ => State.writeRecord_ok _ _ _ h0) fun _ => State.countComplex_ok _ _ _ _ h0
      · split
        · exact State.sealImage_ok _ _ _ _ _ _ _ _ h0 hc
        · exact h0
    have hf : (s1.setCore n { c.freed with m := { MemSide.empty with sample := c.m.sample } }).Ok := State.setCore_ok n h1 (Core.freed_ok (c := c) hc)
    refine State.setSched_ok' hf fun v hv => ?_
    rcases List.mem_append.1 hv with hv | hv
    · exact hf.2.2.2.2.2 v hv
    · obtain rfl := List.mem_singleton.1 hv
      exact Core.forSave_ok hc

theorem Core.restored_ok {old : Core} {v : Saved} (hold : old.Ok) (hv : v.core.Ok) : (Core.restored old v).Ok := by
  unfold Core.restored
  with_reducible assumption

theorem State.homeJobs_ok {s : State} (uid : Nat) (n : Nat) (hs : s.Ok) : (State.homeJobs s uid n).Ok := by
  unfold State.homeJobs
  with_reducible assumption

theorem State.restoreSegs_ok {s : State} (n : Nat) {v : Saved} (hs : s.Ok) (hv : v.core.Ok) : (State.restoreSegs s n v).Ok := by
  unfold State.restoreSegs
  repeat' first
    | with_reducible assumption | with_reducible apply State.loadSegs_ok

theorem State.loadSaved_ok {s : State} (n : Nat) {v : Saved} (hs : s.Ok) (hv : v.core.Ok) : (s.loadSaved n v).Ok := by
  unfold State.loadSaved
  extract_lets q s1 s2 s3
  have h1 : s1.Ok := State.setSched_ok' hs fun w hw => hs.2.2.2.2.2 w (List.mem_filter.1 hw).1
  clear_value s1
  have h2 : s2.Ok := by
    dsimp only [s2]
    split
    · exact State.setLaunch_ok _ h1
    · exact h1
  clear_value s2
  have h3 : s3.Ok := State.unhold_ok _ (State.setCore_ok _ h2 (Core.restored_ok (h2.core n) hv))
  exact State.discardFar_ok _ (State.restoreSegs_ok _ (State.homeJobs_ok _ _ h3) hv)

theorem Core.fromPayload_ok {c : Core} (len : Nat) (p : List Byte) (hc : c.Ok) : (c.fromPayload len p).Ok := by
  unfold Core.fromPayload
  extract_lets c1 r
  have h : c1.Ok := Core.fromRecord_ok _ hc
  clear_value c1
  refine ⟨h.1, h.2.1, h.2.2.1, h.2.2.2.1, h.2.2.2.2.1, h.2.2.2.2.2.1, fun k hk => ?_⟩
  obtain ⟨h1, h2⟩ := h.2.2.2.2.2.2 k hk
  exact ⟨h1, (setBit_self _ _ _ (by decide)).trans h2⟩

theorem State.restoreTo_ok {s : State} {v : Saved} (n : Nat) (hs : s.Ok) (hv : v.core.Ok) : (State.restoreTo s v n).Ok := by
  have hl : ∀ {t : State} {c : Core}, t.Ok → c.Ok → (t.loadSaved n { v with core := c }).Ok := fun ht hc =>
    State.loadSaved_ok (v := { v with core := _ }) n ht hc
  have hp : ∀ {t : State} {c : Core} (f : Nat), t.Ok → c.Ok → ({ t.loadSaved n { v with core := c } with free := f } : State).Ok :=
    fun f ht hc => (hl ht hc).withFree f
  unfold State.restoreTo
  split
  · split
    · split
      · exact State.repFrom_ok _ _ (hl (State.jobsFrom_ok _ _ (State.readPayload_ok _ _ _ hs)) (Core.fromPayload_ok _ _ hv))
      · extract_lets w
        split
        · exact State.containTask_ok _ _ hs
        · exact State.killSaved_ok _ hs
    · exact hs
  · extract_lets a rd s1
    refine State.Ok.ite (fun _ => ?_) fun _ => ?_
    · exact State.repFrom_ok _ _ (hl (State.jobsFrom_ok _ _ (State.readRecord_ok _ _ hs)) (Core.fromRecord_ok _ hv))
    · have h1 : s1.Ok := State.countComplex_ok _ _ _ _ hs
      clear_value s1
      exact hp _ (State.readFree_ok _ _ h1) (Core.poisoned_ok _ hv)

end Sys2Proof.Machine
end

