-- ==== Sys2Proof/Laws/OkSched.lean ====
section
/-! SUPPORT. Every operation of Machine/Sched.lean keeps a sound state sound. -/

namespace Sys2Proof.Machine

theorem State.markPreempt_ok {s : State} (ns : List Nat) (hs : s.Ok) :
    (State.markPreempt s ns).Ok := by
  unfold State.markPreempt
  repeat' first
    | with_reducible assumption
    | with_reducible apply Launch.core_ok
    | with_reducible apply State.setLaunch_ok
    | with_reducible apply State.setCore_ok
    | with_reducible apply State.Ok.foldl
    | with_reducible apply Core.Ok.foldl
    | with_reducible apply State.Ok.core
    | with_reducible apply State.Ok.cur
    | with_reducible refine State.Ok.ofPair (by with_reducible assumption) ?_
    | with_reducible refine State.Ok.ofSome (by with_reducible assumption) ?_
    | intro _
    | extract_lets
    | split
    | with_reducible apply State.Ok.ite
    | with_reducible apply Core.Ok.ite

theorem State.begin_ok {s : State} (lid : Nat) (i : Nat) (n : Nat) (hs : s.Ok) : (State.begin s lid i n).Ok := by
  unfold State.begin
  repeat' first
    | with_reducible assumption
    | with_reducible apply State.restoreTo_ok
    | with_reducible apply State.startTask_ok
    | with_reducible refine State.Ok.ofFind (by with_reducible assumption) ?_
    | split

theorem State.preemptIn_ok {s : State} (pkg : Nat) (m : LinkIn) (hs : s.Ok) :
    (State.preemptIn s pkg m).Ok := by
  unfold State.preemptIn
  repeat' first
    | with_reducible assumption
    | with_reducible apply State.markPreempt_ok
    | with_reducible apply State.Ok.core
    | with_reducible apply State.Ok.cur
    | with_reducible refine State.Ok.ofPair (by with_reducible assumption) ?_
    | with_reducible refine State.Ok.ofSome (by with_reducible assumption) ?_
    | intro _
    | extract_lets
    | split
    | with_reducible apply State.Ok.ite
    | with_reducible apply Core.Ok.ite

theorem State.carryOut_ok {s : State} (lid : Nat) (pl : List (Nat × Nat)) (hs : s.Ok) :
    OptOk (State.carryOut s lid pl) := by
  unfold State.carryOut
  repeat' first
    | with_reducible assumption
    | with_reducible apply optOk_some
    | with_reducible exact optOk_none
    | with_reducible apply State.noteFree_ok
    | with_reducible apply State.begin_ok
    | with_reducible apply Launch.core_ok
    | with_reducible apply State.setLaunch_ok
    | with_reducible apply State.Ok.foldl
    | with_reducible apply Core.Ok.foldl
    | with_reducible apply State.Ok.core
    | with_reducible apply State.Ok.cur
    | with_reducible refine State.Ok.ofPair (by with_reducible assumption) ?_
    | with_reducible refine State.Ok.ofSome (by with_reducible assumption) ?_
    | intro _
    | extract_lets
    | split
    | with_reducible apply State.Ok.ite
    | with_reducible apply Core.Ok.ite

theorem State.serve_ok (l : List (Launch × List Nat)) (used : List Nat) {s : State} (hs : s.Ok) : (s.serve l used).Ok := by
  induction l generalizing used with
  | nil => exact hs
  | cons x rest ih =>
    obtain ⟨l, is⟩ := x
    unfold State.serve
    dsimp only
    split
    · rename_i e
      obtain ⟨pl, _, e⟩ := Option.bind_eq_some_iff.1 e
      exact State.Ok.ofSome e (State.carryOut_ok _ _ hs)
    · split
      · exact ih _
      · split
        · exact State.markPreempt_ok _ hs
        · exact ih _

theorem execScheduleReadyTask_ok (die : Nat) {s : State} (hs : s.Ok) :
    OutOk (execScheduleReadyTask die s) := by
  unfold execScheduleReadyTask
  repeat' first
    | with_reducible assumption
    | with_reducible apply outOk_next
    | with_reducible apply State.serve_ok
    | intro _
    | extract_lets
    | split

theorem execGangStart_ok (pid : Nat) (level : Nat) (group : Nat) {s : State} (hs : s.Ok) : OutOk (execGangStart pid level group s) := by
  unfold execGangStart
  repeat' first
    | with_reducible assumption
    | with_reducible apply outOk_next
    | with_reducible apply State.carryOut_ok
    | with_reducible refine State.Ok.ofSome (by with_reducible assumption) ?_
    | with_reducible apply optOk_bind
    | intro _
    | extract_lets
    | split

theorem execTaskRestore_ok (uid : Nat) (n : Nat) {s : State} (hs : s.Ok) : OutOk (execTaskRestore uid n s) := by
  unfold execTaskRestore
  repeat' first
    | with_reducible assumption
    | with_reducible apply outOk_next
    | with_reducible apply State.carryOut_ok
    | with_reducible apply State.Ok.getD
    | extract_lets
    | split

theorem State.takePreempt_ok {s : State} (n : Nat) (hs : s.Ok) : (State.takePreempt s n).Ok := by
  unfold State.takePreempt
  repeat' first
    | with_reducible assumption
    | with_reducible apply State.markPreempt_ok
    | with_reducible apply State.stopForSave_ok
    | with_reducible apply State.setCore_ok
    | with_reducible apply State.Ok.core
    | extract_lets
    | split

theorem execPreempt_ok (n : Nat) {s : State} (hs : s.Ok) : OutOk (execPreempt n s) := by
  unfold execPreempt
  repeat' first
    | with_reducible assumption
    | with_reducible apply outOk_next
    | with_reducible apply State.takePreempt_ok
    | extract_lets
    | split

theorem State.gate_ok {s : State} (n : Nat) (t : Task) (hs : s.Ok) : (State.gate s n t).Ok := by
  unfold State.gate
  repeat' first
    | with_reducible assumption | with_reducible apply State.setSched_ok | with_reducible rfl

theorem execSaveComplete_ok (n : Nat) {s : State} (hs : s.Ok) : OutOk (execSaveComplete n s) := by
  unfold execSaveComplete
  repeat' first
    | with_reducible assumption
    | with_reducible apply outOk_next
    | with_reducible apply State.gate_ok
    | with_reducible apply State.saveCore_ok
    | split

theorem Core.passStep_ok {c : Core} (k : Nat) (hc : c.Ok) :
    (Core.passStep c k).Ok := by
  unfold Core.passStep
  repeat' first
    | with_reducible assumption
    | intro _
    | extract_lets
    | split

theorem execSuperstepRelease_ok (lid : Nat) {s : State} (hs : s.Ok) : OutOk (execSuperstepRelease lid s) := by
  unfold execSuperstepRelease
  split
  · exact outOk_next hs
  · split
    · exact outOk_next hs
    · split
      · exact outOk_next hs
      · extract_lets on s1
        have h1 : s1.Ok :=
          State.Ok.foldl on hs fun s n h => State.discardFar_ok n (State.setCore_ok n h (Core.passStep_ok _ (h.core n)))
        clear_value s1
        refine outOk_next (State.setSched_ok' h1 fun v hv => ?_)
        obtain ⟨w, hw, rfl⟩ := List.mem_map.1 hv
        split
        · exact Core.passStep_ok _ (h1.2.2.2.2.2 w hw)
        · exact h1.2.2.2.2.2 w hw

theorem State.endTask_ok {s : State} (n : Nat) (hs : s.Ok) :
    (State.endTask s n).Ok := by
  unfold State.endTask
  repeat' first
    | with_reducible assumption
    | with_reducible apply Launch.core_ok
    | with_reducible apply State.setMs_ok
    | with_reducible apply Core.freed_ok
    | with_reducible apply State.killEnd_ok
    | with_reducible apply State.endOf_ok
    | with_reducible apply State.setCore_ok
    | with_reducible apply State.Ok.core
    | with_reducible apply State.Ok.cur
    | with_reducible refine State.Ok.ofPair (by with_reducible assumption) ?_
    | with_reducible refine State.Ok.ofSome (by with_reducible assumption) ?_
    | intro _
    | extract_lets
    | split
    | with_reducible apply State.Ok.ite
    | with_reducible apply Core.Ok.ite

theorem execTaskEnd_ok (n : Nat) {s : State} (hs : s.Ok) :
    OutOk (execTaskEnd n s) := by
  unfold execTaskEnd
  repeat' first
    | with_reducible assumption
    | with_reducible apply outOk_next
    | with_reducible apply Launch.core_ok
    | with_reducible apply State.setLaunch_ok
    | with_reducible apply State.endTask_ok
    | with_reducible apply State.Ok.core
    | with_reducible apply State.Ok.cur
    | with_reducible refine State.Ok.ofPair (by with_reducible assumption) ?_
    | with_reducible refine State.Ok.ofSome (by with_reducible assumption) ?_
    | intro _
    | extract_lets
    | split

end Sys2Proof.Machine
end

