-- ==== Sys2Proof/Laws/OkCheck.lean ====
section
/-! SUPPORT. Every operation of Machine/Check.lean keeps a sound state sound. -/

namespace Sys2Proof.Machine

theorem execDatapathCheckFail_ok (n : Nat) (sl : Slot) (synd : DWord) {s : State} (hs : s.Ok) : OutOk (execDatapathCheckFail n sl synd s) := by
  unfold execDatapathCheckFail
  repeat' first
    | with_reducible assumption
    | with_reducible apply outOk_next
    | with_reducible apply Core.defer_ok
    | with_reducible apply State.mcRecord_ok
    | with_reducible apply State.setMc_ok
    | with_reducible apply State.setCore_ok
    | with_reducible apply State.Ok.core
    | extract_lets
    | split

theorem State.fenceCore_ok {s : State} (n : Nat) (hs : s.Ok) : (State.fenceCore s n).Ok := by
  unfold State.fenceCore
  repeat' first
    | with_reducible assumption
    | with_reducible apply Core.defer_ok
    | with_reducible apply State.setMc_ok
    | with_reducible apply State.setCore_ok
    | with_reducible apply State.Ok.core
    | extract_lets
    | split

theorem execCoreFence_ok (n : Nat) {s : State} (hs : s.Ok) : OutOk (execCoreFence n s) := by
  unfold execCoreFence
  repeat' first
    | with_reducible assumption | with_reducible apply outOk_next | with_reducible apply State.fenceCore_ok | split

theorem execCoreReturnToService_ok (n : Nat) {s : State} (hs : s.Ok) : OutOk (execCoreReturnToService n s) := by
  unfold execCoreReturnToService
  repeat' first
    | with_reducible assumption
    | with_reducible apply outOk_next
    | with_reducible apply State.setCore_ok
    | with_reducible apply State.Ok.core
    | extract_lets
    | split

theorem execSelftest_ok (pid : Nat) {s : State} (hs : s.Ok) : OutOk (execSelftest pid s) := by
  unfold execSelftest
  repeat' first
    | with_reducible assumption
    | with_reducible apply outOk_next
    | with_reducible apply State.markPreempt_ok
    | with_reducible apply State.packetOutcome_ok
    | with_reducible apply State.setPacket_ok
    | with_reducible apply State.setCore_ok
    | with_reducible apply State.Ok.core
    | with_reducible apply State.Ok.foldl
    | intro _
    | extract_lets
    | split
    | with_reducible apply State.Ok.ite

theorem execSelftestComplete_ok (n : Nat) (fail : BitVec 9) {s : State} (hs : s.Ok) : OutOk (execSelftestComplete n fail s) := by
  unfold execSelftestComplete
  repeat' first
    | with_reducible assumption
    | with_reducible apply outOk_next
    | with_reducible apply Core.idle_ok
    | with_reducible apply State.clearStorage_ok
    | with_reducible apply State.mcRecord_ok
    | with_reducible apply State.packetOutcome_ok
    | with_reducible apply State.scrub_ok
    | with_reducible apply State.setPacket_ok
    | with_reducible apply State.setCore_ok
    | with_reducible apply State.Ok.core
    | intro _
    | extract_lets
    | split
    | with_reducible apply State.Ok.ite

theorem execLockstepMismatch_ok (die : Nat) (pcs : DWord) {s : State} (hs : s.Ok) : OutOk (execLockstepMismatch die pcs s) := by
  unfold execLockstepMismatch
  repeat' first
    | with_reducible assumption
    | with_reducible apply outOk_next
    | with_reducible apply State.mcRecord_ok
    | with_reducible apply State.setMc_ok
    | extract_lets
    | split

theorem execLockstepReplayComplete_ok (die : Nat) {s : State} (hs : s.Ok) : OutOk (execLockstepReplayComplete die s) := by
  unfold execLockstepReplayComplete
  repeat' first
    | with_reducible assumption
    | with_reducible apply outOk_next
    | with_reducible apply State.mcRecord_ok
    | with_reducible apply State.setMc_ok
    | extract_lets
    | split

theorem State.recordLoss_ok {s : State} (die : Nat) (hs : s.Ok) : (State.recordLoss s die).Ok := by
  unfold State.recordLoss
  repeat' first
    | with_reducible assumption
    | with_reducible apply State.mcRecord_ok
    | with_reducible apply State.Ok.foldl
    | intro _
    | extract_lets
    | split

theorem State.cutOff_ok {s : State} (hs : s.Ok) :
    (State.cutOff s).Ok := by
  unfold State.cutOff
  repeat' first
    | with_reducible assumption
    | with_reducible apply State.mcRecord_ok
    | with_reducible apply State.Ok.foldl
    | with_reducible apply Core.Ok.foldl
    | with_reducible refine State.Ok.ofPair (by with_reducible assumption) ?_
    | with_reducible refine State.Ok.ofSome (by with_reducible assumption) ?_
    | intro _

theorem State.loseTasks_ok {s : State} (die : Nat) (hs : s.Ok) :
    (State.loseTasks s die).Ok := by
  unfold State.loseTasks
  repeat' first
    | with_reducible assumption
    | with_reducible apply Launch.core_ok
    | with_reducible apply State.containTask_ok
    | with_reducible apply Core.killed_ok
    | with_reducible apply State.killEnd_ok
    | with_reducible apply Core.idle_ok
    | with_reducible apply State.Ok.foldl
    | with_reducible apply Core.Ok.foldl
    | with_reducible apply ListsOk.mapCores
    | with_reducible rfl
    | with_reducible apply ListsOk.filterSaved
    | with_reducible apply State.Ok.core
    | with_reducible apply State.Ok.cur
    | with_reducible refine State.Ok.ofPair (by with_reducible assumption) ?_
    | with_reducible refine State.Ok.ofSome (by with_reducible assumption) ?_
    | intro _
    | extract_lets
    | split
    | with_reducible apply State.Ok.ite
    | with_reducible apply Core.Ok.ite

theorem State.loseMessages_ok {s : State} (die : Nat) (hs : s.Ok) : (State.loseMessages s die).Ok := by
  unfold State.loseMessages
  repeat' first
    | with_reducible assumption
    | with_reducible apply Core.defer_ok
    | with_reducible apply Core.setAcc_ok
    | with_reducible apply State.jobBad_ok
    | with_reducible apply State.setMs_ok
    | with_reducible apply State.setCore_ok
    | with_reducible apply State.Ok.core
    | with_reducible apply State.Ok.foldl
    | intro _
    | extract_lets
    | split

theorem State.killStranded_ok {s : State} (lid : Nat) (hs : s.Ok) :
    (State.killStranded s lid).Ok := by
  unfold State.killStranded
  repeat' first
    | with_reducible assumption
    | with_reducible apply State.setLaunch_ok
    | with_reducible apply State.Ok.foldl
    | with_reducible apply Core.Ok.foldl
    | with_reducible refine State.Ok.ofPair (by with_reducible assumption) ?_
    | with_reducible refine State.Ok.ofSome (by with_reducible assumption) ?_
    | intro _
    | extract_lets
    | split
    | with_reducible apply State.Ok.ite
    | with_reducible apply Core.Ok.ite

theorem State.loseIndex_ok {s : State} (lid : Nat) (die : Nat) (i : Nat) (hs : s.Ok) :
    (State.loseIndex s lid die i).Ok := by
  unfold State.loseIndex
  repeat' first
    | with_reducible assumption
    | with_reducible apply State.setLaunch_ok
    | with_reducible apply State.logDecision_ok
    | with_reducible refine State.Ok.ofPair (by with_reducible assumption) ?_
    | with_reducible refine State.Ok.ofSome (by with_reducible assumption) ?_
    | intro _
    | extract_lets
    | split

theorem State.loseClaims_ok {s : State} (die : Nat) (l : Launch) (hs : s.Ok) :
    (State.loseClaims s die l).Ok := by
  unfold State.loseClaims
  repeat' first
    | with_reducible assumption
    | with_reducible apply State.setLaunch_ok
    | with_reducible apply State.loseIndex_ok
    | with_reducible apply State.killStranded_ok
    | with_reducible apply State.Ok.foldl
    | with_reducible apply Core.Ok.foldl
    | with_reducible refine State.Ok.ofPair (by with_reducible assumption) ?_
    | with_reducible refine State.Ok.ofSome (by with_reducible assumption) ?_
    | intro _
    | extract_lets
    | split
    | with_reducible apply State.Ok.ite
    | with_reducible apply Core.Ok.ite

theorem State.loseUnits_ok {s : State} (die : Nat) (hs : s.Ok) :
    (State.loseUnits s die).Ok := by
  unfold State.loseUnits
  repeat' first
    | with_reducible assumption
    | with_reducible apply State.setSched_ok
    | with_reducible apply State.loseClaims_ok
    | with_reducible apply State.returnBuilds_ok
    | with_reducible apply State.Ok.foldl
    | with_reducible apply Core.Ok.foldl
    | intro _
    | extract_lets
    | split
    | with_reducible apply State.Ok.ite
    | with_reducible apply Core.Ok.ite
    | with_reducible rfl

theorem State.dropPorts_ok {s : State} (p : Nat → Port → Bool) (hs : s.Ok) :
    (State.dropPorts s p).Ok := by
  unfold State.dropPorts
  repeat' first
    | with_reducible assumption

theorem execDieLost_ok (die : Nat) {s : State} (hs : s.Ok) :
    OutOk (execDieLost die s) := by
  unfold execDieLost
  repeat' first
    | with_reducible assumption
    | with_reducible apply outOk_next
    | with_reducible apply State.recordLoss_ok
    | with_reducible apply State.setMc_ok
    | with_reducible apply State.loseTasks_ok
    | with_reducible apply State.loseMessages_ok
    | with_reducible apply State.loseUnits_ok
    | with_reducible apply State.dropPorts_ok
    | with_reducible apply State.cutOff_ok
    | with_reducible refine State.Ok.ofPair (by with_reducible assumption) ?_
    | with_reducible refine State.Ok.ofSome (by with_reducible assumption) ?_
    | intro _
    | extract_lets
    | split

theorem State.loseAway_ok {s : State} (lid : Nat) (i : Nat) (hs : s.Ok) :
    (State.loseAway s lid i).Ok := by
  unfold State.loseAway
  repeat' first
    | with_reducible assumption
    | with_reducible apply State.containFrom_ok
    | with_reducible refine State.Ok.ofPair (by with_reducible assumption) ?_
    | with_reducible refine State.Ok.ofSome (by with_reducible assumption) ?_
    | intro _
    | extract_lets
    | split
    | with_reducible apply State.Ok.ite
    | with_reducible apply Core.Ok.ite

theorem State.losePackage_ok {s : State} (pkg : Nat) (l : Launch) (hs : s.Ok) :
    (State.losePackage s pkg l).Ok := by
  unfold State.losePackage
  repeat' first
    | with_reducible assumption
    | with_reducible apply State.loseIndex_ok
    | with_reducible apply State.setLaunch_ok
    | with_reducible apply State.loseAway_ok
    | with_reducible apply State.killStranded_ok
    | with_reducible apply State.Ok.foldl
    | with_reducible apply Core.Ok.foldl
    | with_reducible refine State.Ok.ofPair (by with_reducible assumption) ?_
    | with_reducible refine State.Ok.ofSome (by with_reducible assumption) ?_
    | intro _
    | extract_lets
    | split
    | with_reducible apply State.Ok.ite
    | with_reducible apply Core.Ok.ite

theorem execPackageLost_ok (pkg : Nat) {s : State} (hs : s.Ok) :
    OutOk (execPackageLost pkg s) := by
  unfold execPackageLost
  repeat' first
    | with_reducible assumption
    | with_reducible apply outOk_next
    | with_reducible apply State.dropPorts_ok
    | with_reducible apply State.losePackage_ok
    | with_reducible apply State.Ok.foldl
    | with_reducible apply Core.Ok.foldl
    | intro _

end Sys2Proof.Machine
end

