-- ==== Sys2Proof/Laws/OkControl.lean ====
section
/-! SUPPORT. Every operation of Machine/Control.lean keeps a sound state sound. -/

namespace Sys2Proof.Machine

theorem Core.setLevel_ok {c : Core} (k : Nat) (l : LoopLv) (hc : c.Ok) : (Core.setLevel c k l).Ok := by
  unfold Core.setLevel
  repeat' first
    | with_reducible assumption | extract_lets | split

theorem State.loopTrap_ok {s : State} (cause : BitVec 8) (tval : DWord) (lv : Nat) (start : BitVec 16) (hs : s.Ok) : OutOk (State.loopTrap s cause tval lv start) := by
  unfold State.loopTrap
  repeat' first
    | with_reducible assumption | with_reducible apply outOk_next | with_reducible apply State.raise_ok

theorem State.structTrap_ok {s : State} (hs : s.Ok) : OutOk (State.structTrap s) := by
  unfold State.structTrap
  repeat' first
    | with_reducible assumption | with_reducible apply State.loopTrap_ok | split

theorem State.popLeft_ok {s : State} (tgt : Nat) (hs : s.Ok) : (State.popLeft s tgt).Ok := by
  unfold State.popLeft
  repeat' first
    | with_reducible assumption | with_reducible apply State.setCur_ok | with_reducible apply State.Ok.cur

theorem State.goto_ok {s : State} (a : Nat) (hs : s.Ok) : (State.goto s a).Ok := by
  unfold State.goto
  with_reducible assumption

theorem State.jump_ok {s : State} (tgt : Nat) (hs : s.Ok) : OutOk (State.jump s tgt) := by
  unfold State.jump
  repeat' first
    | with_reducible assumption
    | with_reducible apply outOk_next
    | with_reducible apply State.goto_ok
    | with_reducible apply State.loopTrap_ok
    | with_reducible apply State.popLeft_ok
    | with_reducible apply State.trap_ok
    | split

theorem State.jumpPlain_ok {s s' : State} (tgt : Nat) (hs : s.Ok) (hs' : s'.Ok) : OutOk (State.jumpPlain s s' tgt) := by
  unfold State.jumpPlain
  repeat' first
    | with_reducible assumption
    | with_reducible apply outOk_next
    | with_reducible apply State.goto_ok
    | with_reducible apply State.trap_ok
    | split

theorem branchOp_ok (i : Instr) {s : State} (k : State → Core → Host.Outcome State Fault Refusal) (hs : s.Ok) (hk : ∀ (s : State) (c : Core), s.Ok → c.Ok → OutOk (k s c)) : OutOk (branchOp i s k) := by
  unfold branchOp
  repeat' first
    | with_reducible assumption
    | with_reducible apply outOk_next
    | with_reducible apply State.raise_ok
    | with_reducible apply hk
    | with_reducible apply State.Ok.cur
    | split

theorem condBranch_ok (i : Instr) (f : BrF) (cond : DWord → DWord → Bool) {s : State} (hs : s.Ok) : OutOk (condBranch i f cond s) := by
  unfold condBranch
  repeat' first
    | with_reducible assumption
    | with_reducible apply outOk_next
    | with_reducible apply State.jump_ok
    | with_reducible apply branchOp_ok
    | intro _
    | extract_lets
    | split

theorem execBeq_ok (f : BrF) {s : State} (hs : s.Ok) : OutOk (execBeq f s) := by
  unfold execBeq
  repeat' first
    | with_reducible assumption | with_reducible apply condBranch_ok

theorem execBne_ok (f : BrF) {s : State} (hs : s.Ok) : OutOk (execBne f s) := by
  unfold execBne
  repeat' first
    | with_reducible assumption | with_reducible apply condBranch_ok

theorem execBlt_ok (f : BrF) {s : State} (hs : s.Ok) : OutOk (execBlt f s) := by
  unfold execBlt
  repeat' first
    | with_reducible assumption | with_reducible apply condBranch_ok

theorem execBge_ok (f : BrF) {s : State} (hs : s.Ok) : OutOk (execBge f s) := by
  unfold execBge
  repeat' first
    | with_reducible assumption | with_reducible apply condBranch_ok

theorem execBltu_ok (f : BrF) {s : State} (hs : s.Ok) : OutOk (execBltu f s) := by
  unfold execBltu
  repeat' first
    | with_reducible assumption | with_reducible apply condBranch_ok

theorem execBgeu_ok (f : BrF) {s : State} (hs : s.Ok) : OutOk (execBgeu f s) := by
  unfold execBgeu
  repeat' first
    | with_reducible assumption | with_reducible apply condBranch_ok

theorem predBranch_ok (i : Instr) (f : BpF) (want : Bool) {s : State} (hs : s.Ok) : OutOk (predBranch i f want s) := by
  unfold predBranch
  repeat' first
    | with_reducible assumption
    | with_reducible apply outOk_next
    | with_reducible apply State.jump_ok
    | with_reducible apply State.trap_ok
    | with_reducible apply branchOp_ok
    | intro _
    | extract_lets
    | split

theorem execBpt_ok (f : BpF) {s : State} (hs : s.Ok) : OutOk (execBpt f s) := by
  unfold execBpt
  repeat' first
    | with_reducible assumption | with_reducible apply predBranch_ok

theorem execBpf_ok (f : BpF) {s : State} (hs : s.Ok) : OutOk (execBpf f s) := by
  unfold execBpf
  repeat' first
    | with_reducible assumption | with_reducible apply predBranch_ok

theorem execJmp_ok (off : BitVec 21) {s : State} (hs : s.Ok) : OutOk (execJmp off s) := by
  unfold execJmp
  repeat' first
    | with_reducible assumption | with_reducible apply State.jump_ok | with_reducible apply branchOp_ok | intro _

theorem execCall_ok (f : BjF) {s : State} (hs : s.Ok) : OutOk (execCall f s) := by
  unfold execCall
  repeat' first
    | with_reducible assumption
    | with_reducible apply Core.push_ok
    | with_reducible apply State.jumpPlain_ok
    | with_reducible apply State.structTrap_ok
    | with_reducible apply branchOp_ok
    | with_reducible apply State.setCur_ok
    | intro _
    | extract_lets
    | split

theorem execRet_ok (rs1 : XReg) {s : State} (hs : s.Ok) : OutOk (execRet rs1 s) := by
  unfold execRet
  repeat' first
    | with_reducible assumption
    | with_reducible apply State.jumpPlain_ok
    | with_reducible apply State.structTrap_ok
    | with_reducible apply State.trap_ok
    | with_reducible apply branchOp_ok
    | intro _
    | extract_lets
    | split

theorem Core.stagePreds_ok {c : Core} (stages : Nat) (hc : c.Ok) : (Core.stagePreds c stages).Ok := by
  unfold Core.stagePreds
  repeat' first
    | with_reducible assumption | with_reducible apply Core.push_ok | with_reducible apply Core.Ok.foldl | intro _

theorem loopOp_ok (i : Instr) (f : BlF) (kind : BitVec 2) {s : State} (hs : s.Ok) : OutOk (loopOp i f kind s) := by
  unfold loopOp
  repeat' first
    | with_reducible assumption
    | with_reducible apply outOk_next
    | with_reducible apply Core.setLevel_ok
    | with_reducible apply Core.stagePreds_ok
    | with_reducible apply State.goto_ok
    | with_reducible apply State.loopTrap_ok
    | with_reducible apply State.structTrap_ok
    | with_reducible apply branchOp_ok
    | with_reducible apply State.setCur_ok
    | intro _
    | extract_lets
    | split

theorem execLoop_ok (f : BlF) {s : State} (hs : s.Ok) : OutOk (execLoop f s) := by
  unfold execLoop
  repeat' first
    | with_reducible assumption | with_reducible apply loopOp_ok

theorem execLoopW_ok (f : BlF) {s : State} (hs : s.Ok) : OutOk (execLoopW f s) := by
  unfold execLoopW
  repeat' first
    | with_reducible assumption | with_reducible apply loopOp_ok

theorem execLoopSp_ok (f : BlF) {s : State} (hs : s.Ok) : OutOk (execLoopSp f s) := by
  unfold execLoopSp
  repeat' first
    | with_reducible assumption | with_reducible apply loopOp_ok

theorem closeLoop_ok (cond : Option Bool) {s : State} (hs : s.Ok) : OutOk (closeLoop cond s) := by
  unfold closeLoop
  repeat' first
    | with_reducible assumption
    | with_reducible apply outOk_next
    | with_reducible apply Core.push_ok
    | with_reducible apply Core.setLevel_ok
    | with_reducible apply State.goto_ok
    | with_reducible apply State.loopTrap_ok
    | with_reducible apply State.structTrap_ok
    | with_reducible apply State.trap_ok
    | with_reducible apply State.setCur_ok
    | with_reducible apply State.Ok.cur
    | intro _
    | extract_lets
    | split
    | with_reducible apply Core.Ok.ite

theorem execLend_ok (rs1 : XReg) {s : State} (hs : s.Ok) : OutOk (execLend rs1 s) := by
  unfold execLend
  repeat' first
    | with_reducible assumption
    | with_reducible apply State.illegal_ok
    | with_reducible apply State.structTrap_ok
    | with_reducible apply branchOp_ok
    | with_reducible apply closeLoop_ok
    | intro _
    | extract_lets
    | split

theorem execLbrk_ok (rs1 : XReg) {s : State} (hs : s.Ok) : OutOk (execLbrk rs1 s) := by
  unfold execLbrk
  repeat' first
    | with_reducible assumption
    | with_reducible apply outOk_next
    | with_reducible apply Core.setLevel_ok
    | with_reducible apply State.goto_ok
    | with_reducible apply State.structTrap_ok
    | with_reducible apply branchOp_ok
    | with_reducible apply State.setCur_ok
    | intro _
    | extract_lets
    | split

theorem execWait_ok (f : BwF) {s : State} (hs : s.Ok) : OutOk (execWait f s) := by
  unfold execWait
  repeat' first
    | with_reducible assumption | with_reducible apply outOk_next | with_reducible apply branchOp_ok | intro _

theorem execSetfmt_ok (acc : Acc) (rm : Rm) {s : State} (hs : s.Ok) : OutOk (execSetfmt acc rm s) := by
  unfold execSetfmt
  repeat' first
    | with_reducible assumption
    | with_reducible apply outOk_next
    | with_reducible apply branchOp_ok
    | with_reducible apply State.setCur_ok
    | intro _

theorem execLitset_ok (rs1 : XReg) {s : State} (hs : s.Ok) : OutOk (execLitset rs1 s) := by
  unfold execLitset
  repeat' first
    | with_reducible assumption
    | with_reducible apply outOk_next
    | with_reducible apply Core.push_ok
    | with_reducible apply State.trap_ok
    | with_reducible apply branchOp_ok
    | with_reducible apply State.setCur_ok
    | intro _
    | extract_lets
    | split

theorem Core.dropSegs_ok {c : Core} (drop : Nat → Bool) (hc : c.Ok) : (Core.dropSegs c drop).Ok := by
  unfold Core.dropSegs
  with_reducible assumption

theorem execIinv_ok (rs1 : XReg) {s : State} (hs : s.Ok) : OutOk (execIinv rs1 s) := by
  unfold execIinv
  repeat' first
    | with_reducible assumption
    | with_reducible apply outOk_next
    | with_reducible apply Core.dropSegs_ok
    | with_reducible apply State.trap_ok
    | with_reducible apply branchOp_ok
    | with_reducible apply State.setCur_ok
    | intro _
    | extract_lets
    | split

theorem execSstep_ok {s : State} (hs : s.Ok) : OutOk (execSstep s) := by
  unfold execSstep
  repeat' first
    | with_reducible assumption
    | with_reducible apply outOk_next
    | with_reducible apply State.trap_ok
    | with_reducible apply branchOp_ok
    | with_reducible apply State.setCur_ok
    | intro _
    | extract_lets
    | split

theorem execYield_ok {s : State} (hs : s.Ok) : OutOk (execYield s) := by
  unfold execYield
  repeat' first
    | with_reducible assumption
    | with_reducible apply outOk_next
    | with_reducible apply State.structTrap_ok
    | with_reducible apply branchOp_ok
    | with_reducible apply State.setCur_ok
    | intro _
    | extract_lets
    | split

theorem execHalt_ok {s : State} (hs : s.Ok) : OutOk (execHalt s) := by
  unfold execHalt
  repeat' first
    | with_reducible assumption
    | with_reducible apply outOk_next
    | with_reducible apply branchOp_ok
    | with_reducible apply State.setCur_ok
    | intro _

theorem execTrap_ok (code : BitVec 8) {s : State} (hs : s.Ok) : OutOk (execTrap code s) := by
  unfold execTrap
  repeat' first
    | with_reducible assumption
    | with_reducible apply State.complete_ok
    | with_reducible apply State.structTrap_ok
    | with_reducible apply branchOp_ok
    | intro _
    | extract_lets
    | split

theorem execTret_ok {s : State} (hs : s.Ok) : OutOk (execTret s) := by
  unfold execTret
  repeat' first
    | with_reducible assumption
    | with_reducible apply outOk_next
    | with_reducible apply State.structTrap_ok
    | with_reducible apply State.trap_ok
    | with_reducible apply branchOp_ok
    | with_reducible apply State.setCur_ok
    | intro _
    | extract_lets
    | split

end Sys2Proof.Machine
end

