-- ==== Sys2Proof/Laws/OkLowRank.lean ====
section
/-! SUPPORT. Every operation of Machine/LowRank.lean keeps a sound state sound. -/

namespace Sys2Proof.Machine

theorem Core.startWhole_ok {c : Core} (d : Nat) (md : MReg) (tiles : List MReg) (slots : List OSlot) (n : Nat) (u : Cols) (v : Cols) (fl : Flags) (hc : c.Ok) : (Core.startWhole c d md tiles slots n u v fl).Ok := by
  unfold Core.startWhole
  repeat' first
    | with_reducible assumption | with_reducible apply Core.pushEng_ok

theorem execMlrset_ok (f : MlrsetF) {s : State} (hs : s.Ok) : OutOk (execMlrset f s) := by
  unfold execMlrset
  repeat' first
    | with_reducible assumption
    | with_reducible apply Core.startWhole_ok
    | with_reducible apply matOpL_ok
    | with_reducible apply State.setCur_ok
    | with_reducible apply exOk_ok
    | with_reducible apply exOk_bind
    | intro _
    | extract_lets
    | split

theorem execMlrmul_ok (f : M2F) {s : State} (hs : s.Ok) : OutOk (execMlrmul f s) := by
  unfold execMlrmul
  repeat' first
    | with_reducible assumption
    | with_reducible apply Core.startWhole_ok
    | with_reducible apply matOp_ok
    | with_reducible apply State.setCur_ok
    | with_reducible apply exOk_ok
    | with_reducible apply exOk_bind
    | intro _
    | extract_lets
    | split

theorem execMlrdm_ok (f : M2F) {s : State} (hs : s.Ok) : OutOk (execMlrdm f s) := by
  unfold execMlrdm
  repeat' first
    | with_reducible assumption
    | with_reducible apply Core.startWhole_ok
    | with_reducible apply matOp_ok
    | with_reducible apply State.setCur_ok
    | with_reducible apply exOk_ok
    | with_reducible apply exOk_bind
    | intro _
    | extract_lets
    | split

theorem execMdmlr_ok (f : M2F) {s : State} (hs : s.Ok) : OutOk (execMdmlr f s) := by
  unfold execMdmlr
  repeat' first
    | with_reducible assumption
    | with_reducible apply Core.startWhole_ok
    | with_reducible apply matOp_ok
    | with_reducible apply State.setCur_ok
    | with_reducible apply exOk_ok
    | with_reducible apply exOk_bind
    | intro _
    | extract_lets
    | split

theorem execMlradd_ok (f : M2F) {s : State} (hs : s.Ok) : OutOk (execMlradd f s) := by
  unfold execMlradd
  repeat' first
    | with_reducible assumption
    | with_reducible apply Core.startWhole_ok
    | with_reducible apply matOp_ok
    | with_reducible apply State.setCur_ok
    | with_reducible apply exOk_ok
    | with_reducible apply exOk_bind
    | intro _

theorem execMdense_ok (f : M1F) {s : State} (hs : s.Ok) : OutOk (execMdense f s) := by
  unfold execMdense
  repeat' first
    | with_reducible assumption
    | with_reducible apply Core.pushEng_ok
    | with_reducible apply matOp_ok
    | with_reducible apply State.setCur_ok
    | with_reducible apply exOk_ok
    | with_reducible apply exOk_bind
    | intro _

theorem execMrank_ok (f : MrankF) {s : State} (hs : s.Ok) : OutOk (execMrank f s) := by
  unfold execMrank
  repeat' first
    | with_reducible assumption
    | with_reducible apply Core.push_ok
    | with_reducible apply matOp_ok
    | with_reducible apply State.setCur_ok
    | with_reducible apply exOk_ok
    | with_reducible apply exOk_bind
    | intro _

theorem execMrecomp_ok (f : M1F) {s : State} (hs : s.Ok) : OutOk (execMrecomp f s) := by
  unfold execMrecomp
  repeat' first
    | with_reducible assumption
    | with_reducible apply Core.startWhole_ok
    | with_reducible apply matOp_ok
    | with_reducible apply State.setCur_ok
    | with_reducible apply exOk_ok
    | with_reducible apply exOk_error
    | with_reducible apply exOk_bind
    | intro _
    | extract_lets
    | split

end Sys2Proof.Machine
end

