-- ==== Sys2Proof/Laws/OkTransform.lean ====
section
/-! SUPPORT. Every operation of Machine/Transform.lean keeps a sound state sound. -/

namespace Sys2Proof.Machine

theorem Core.pushX_ok {c : Core} (vd : VReg) (lat : Nat) (v : Vec) (fl : Flags) (hc : c.Ok) : (Core.pushX c vd lat v fl).Ok := by
  unfold Core.pushX
  repeat' first
    | with_reducible assumption | with_reducible apply Core.push_ok

theorem execXexpS24_ok (f : XexpF) {s : State} (hs : s.Ok) : OutOk (execXexpS24 f s) := by
  unfold execXexpS24
  repeat' first
    | with_reducible assumption
    | with_reducible apply Core.pushX_ok
    | with_reducible apply slotOp_ok
    | with_reducible apply coreExOk_ok
    | intro _

theorem execXexpS14_ok (f : XexpF) {s : State} (hs : s.Ok) : OutOk (execXexpS14 f s) := by
  unfold execXexpS14
  repeat' first
    | with_reducible assumption
    | with_reducible apply Core.pushX_ok
    | with_reducible apply slotOp_ok
    | with_reducible apply coreExOk_ok
    | intro _

theorem execXunpkL6_ok (f : XuF) {s : State} (hs : s.Ok) : OutOk (execXunpkL6 f s) := by
  unfold execXunpkL6
  repeat' first
    | with_reducible assumption
    | with_reducible apply Core.pushX_ok
    | with_reducible apply slotOp_ok
    | with_reducible apply coreExOk_ok
    | intro _

theorem execXunpkI4_ok (f : XuF) {s : State} (hs : s.Ok) : OutOk (execXunpkI4 f s) := by
  unfold execXunpkI4
  repeat' first
    | with_reducible assumption
    | with_reducible apply Core.pushX_ok
    | with_reducible apply slotOp_ok
    | with_reducible apply coreExOk_ok
    | intro _

theorem execXpackL6_ok (f : XuF) {s : State} (hs : s.Ok) : OutOk (execXpackL6 f s) := by
  unfold execXpackL6
  repeat' first
    | with_reducible assumption
    | with_reducible apply Core.pushX_ok
    | with_reducible apply slotOp_ok
    | with_reducible apply coreExOk_ok
    | intro _

theorem execXpackI4_ok (f : XuF) {s : State} (hs : s.Ok) : OutOk (execXpackI4 f s) := by
  unfold execXpackI4
  repeat' first
    | with_reducible assumption
    | with_reducible apply Core.pushX_ok
    | with_reducible apply slotOp_ok
    | with_reducible apply coreExOk_ok
    | intro _

theorem execXcvt_ok (f : XcvtF) {s : State} (hs : s.Ok) : OutOk (execXcvt f s) := by
  unfold execXcvt
  repeat' first
    | with_reducible assumption
    | with_reducible apply Core.pushX_ok
    | with_reducible apply slotOp_ok
    | with_reducible apply coreExOk_ok
    | intro _

theorem execXtr_ok (f : XtrF) {s : State} (hs : s.Ok) : OutOk (execXtr f s) := by
  unfold execXtr
  repeat' first
    | with_reducible assumption
    | with_reducible apply Core.pushX_ok
    | with_reducible apply slotOp_ok
    | with_reducible apply coreExOk_ok
    | intro _

theorem Core.pushScale_ok {c : Core} (e : Int) (hc : c.Ok) : (Core.pushScale c e).Ok := by
  unfold Core.pushScale
  with_reducible assumption

theorem execXscale_ok (xs : XReg) {s : State} (hs : s.Ok) : OutOk (execXscale xs s) := by
  unfold execXscale
  repeat' first
    | with_reducible assumption
    | with_reducible apply Core.pushScale_ok
    | with_reducible apply slotOp_ok
    | with_reducible apply coreExOk_ok
    | intro _

theorem execXscalei_ok (imm : BitVec 11) {s : State} (hs : s.Ok) : OutOk (execXscalei imm s) := by
  unfold execXscalei
  repeat' first
    | with_reducible assumption
    | with_reducible apply Core.pushScale_ok
    | with_reducible apply slotOp_ok
    | with_reducible apply coreExOk_ok
    | intro _

end Sys2Proof.Machine
end

