-- ==== Sys2Proof/Laws/OkVecPerm.lean ====
section
/-! SUPPORT. Every operation of Machine/VecPerm.lean keeps a sound state sound. -/

namespace Sys2Proof.Machine

theorem vPerm2_ok (i : Instr) (f : VrF) (lat : Nat) (whole : Bool) (g : Nat → List Bool → List Nat → List Nat → Nat → Nat) {s : State} (hs : s.Ok) : OutOk (vPerm2 i f lat whole g s) := by
  unfold vPerm2
  repeat' first
    | with_reducible assumption | with_reducible apply vecOp_ok

theorem execVsel_ok (f : VrF) {s : State} (hs : s.Ok) : OutOk (execVsel f s) := by
  unfold execVsel
  repeat' first
    | with_reducible assumption | with_reducible apply vPerm2_ok

theorem execVperm_ok (f : VrF) {s : State} (hs : s.Ok) : OutOk (execVperm f s) := by
  unfold execVperm
  repeat' first
    | with_reducible assumption | with_reducible apply vPerm2_ok

theorem execVzip_ok (f : VrF) {s : State} (hs : s.Ok) : OutOk (execVzip f s) := by
  unfold execVzip
  repeat' first
    | with_reducible assumption | with_reducible apply vPerm2_ok

theorem execVunzip_ok (f : VrF) {s : State} (hs : s.Ok) : OutOk (execVunzip f s) := by
  unfold execVunzip
  repeat' first
    | with_reducible assumption | with_reducible apply vPerm2_ok

theorem execVslideup_ok (f : VslF) {s : State} (hs : s.Ok) : OutOk (execVslideup f s) := by
  unfold execVslideup
  repeat' first
    | with_reducible assumption | with_reducible apply vecOp_ok

theorem execVslidedn_ok (f : VslF) {s : State} (hs : s.Ok) : OutOk (execVslidedn f s) := by
  unfold execVslidedn
  repeat' first
    | with_reducible assumption | with_reducible apply vecOp_ok

theorem execVcompress_ok (f : VuF) {s : State} (hs : s.Ok) : OutOk (execVcompress f s) := by
  unfold execVcompress
  repeat' first
    | with_reducible assumption | with_reducible apply vecOp_ok

theorem execVexpand_ok (f : VuF) {s : State} (hs : s.Ok) : OutOk (execVexpand f s) := by
  unfold execVexpand
  repeat' first
    | with_reducible assumption | with_reducible apply vecOp_ok

theorem vRed_ok (i : Instr) (f : VuF) (g : Core → List Bool → List Nat → Nat × Flags) {s : State} (hs : s.Ok) : OutOk (vRed i f g s) := by
  unfold vRed
  repeat' first
    | with_reducible assumption | with_reducible apply vecOp_ok

theorem execVredsum_ok (f : VuF) {s : State} (hs : s.Ok) : OutOk (execVredsum f s) := by
  unfold execVredsum
  repeat' first
    | with_reducible assumption | with_reducible apply vRed_ok

theorem execVredmax_ok (f : VuF) {s : State} (hs : s.Ok) : OutOk (execVredmax f s) := by
  unfold execVredmax
  repeat' first
    | with_reducible assumption | with_reducible apply vRed_ok

theorem execVredmin_ok (f : VuF) {s : State} (hs : s.Ok) : OutOk (execVredmin f s) := by
  unfold execVredmin
  repeat' first
    | with_reducible assumption | with_reducible apply vRed_ok

theorem vScan_ok (i : Instr) (f : VuF) (op : Core → Nat → Nat → Nat × Flags) {s : State} (hs : s.Ok) : OutOk (vScan i f op s) := by
  unfold vScan
  repeat' first
    | with_reducible assumption | with_reducible apply vecOp_ok

theorem execVscansum_ok (f : VuF) {s : State} (hs : s.Ok) : OutOk (execVscansum f s) := by
  unfold execVscansum
  repeat' first
    | with_reducible assumption | with_reducible apply vScan_ok

theorem execVscanmax_ok (f : VuF) {s : State} (hs : s.Ok) : OutOk (execVscanmax f s) := by
  unfold execVscanmax
  repeat' first
    | with_reducible assumption | with_reducible apply vScan_ok

theorem execVargmax_ok (f : VuF) {s : State} (hs : s.Ok) : OutOk (execVargmax f s) := by
  unfold execVargmax
  repeat' first
    | with_reducible assumption | with_reducible apply vRed_ok

theorem execVbitonic_ok (f : VbtF) {s : State} (hs : s.Ok) : OutOk (execVbitonic f s) := by
  unfold execVbitonic
  repeat' first
    | with_reducible assumption | with_reducible apply vecOp_ok

end Sys2Proof.Machine
end

