-- ==== Sys2Proof/Laws/OkSlotOps.lean ====
section
/-! SUPPORT. Every operation of Machine/SlotOps.lean keeps a sound state sound. -/

namespace Sys2Proof.Machine

open Host (Outcome)

theorem Core.putStand_ok {c : Core} (sl : Slot) (v : Option Standing) (hc : c.Ok) : (Core.putStand c sl v).Ok := by
  unfold Core.putStand
  with_reducible assumption

theorem execIdle_ok (sl : Slot) {s : State} (hs : s.Ok) : OutOk (execIdle sl s) := by
  unfold execIdle
  repeat' first
    | with_reducible assumption
    | with_reducible apply outOk_next
    | with_reducible apply Core.putStand_ok
    | with_reducible apply State.setCur_ok
    | with_reducible apply State.Ok.cur

theorem okVia {a b : Outcome State Fault Refusal} (e : a = b) (h : OutOk b) : OutOk a := e ▸ h

theorem execOp_ok (i : Instr) {s : State} (hs : s.Ok) : OutOk (execOp i s) :=
  match i with
  | .beq f => okVia (execOp_beq f s) (execBeq_ok f hs)
  | .bne f => okVia (execOp_bne f s) (execBne_ok f hs)
  | .blt f => okVia (execOp_blt f s) (execBlt_ok f hs)
  | .bge f => okVia (execOp_bge f s) (execBge_ok f hs)
  | .bltu f => okVia (execOp_bltu f s) (execBltu_ok f hs)
  | .bgeu f => okVia (execOp_bgeu f s) (execBgeu_ok f hs)
  | .bpt f => okVia (execOp_bpt f s) (execBpt_ok f hs)
  | .bpf f => okVia (execOp_bpf f s) (execBpf_ok f hs)
  | .jmp off => okVia (execOp_jmp off s) (execJmp_ok off hs)
  | .call f => okVia (execOp_call f s) (execCall_ok f hs)
  | .ret rs1 => okVia (execOp_ret rs1 s) (execRet_ok rs1 hs)
  | .loop f => okVia (execOp_loop f s) (execLoop_ok f hs)
  | .loopW f => okVia (execOp_loopW f s) (execLoopW_ok f hs)
  | .loopSp f => okVia (execOp_loopSp f s) (execLoopSp_ok f hs)
  | .lend rs1 => okVia (execOp_lend rs1 s) (execLend_ok rs1 hs)
  | .lbrk rs1 => okVia (execOp_lbrk rs1 s) (execLbrk_ok rs1 hs)
  | .wait f => okVia (execOp_wait f s) (execWait_ok f hs)
  | .setfmt acc rm => okVia (execOp_setfmt acc rm s) (execSetfmt_ok acc rm hs)
  | .litset rs1 => okVia (execOp_litset rs1 s) (execLitset_ok rs1 hs)
  | .sstep => okVia (execOp_sstep s) (execSstep_ok hs)
  | .iinv rs1 => okVia (execOp_iinv rs1 s) (execIinv_ok rs1 hs)
  | .yield => okVia (execOp_yield s) (execYield_ok hs)
  | .halt => okVia (execOp_halt s) (execHalt_ok hs)
  | .trap code => okVia (execOp_trap code s) (execTrap_ok code hs)
  | .tret => okVia (execOp_tret s) (execTret_ok hs)
  | .lui f => okVia (execOp_lui f s) (execLui_ok f hs)
  | .auipc f => okVia (execOp_auipc f s) (execAuipc_ok f hs)
  | .addi f => okVia (execOp_addi f s) (execAddi_ok f hs)
  | .slti f => okVia (execOp_slti f s) (execSlti_ok f hs)
  | .sltiu f => okVia (execOp_sltiu f s) (execSltiu_ok f hs)
  | .xori f => okVia (execOp_xori f s) (execXori_ok f hs)
  | .ori f => okVia (execOp_ori f s) (execOri_ok f hs)
  | .andi f => okVia (execOp_andi f s) (execAndi_ok f hs)
  | .slli f => okVia (execOp_slli f s) (execSlli_ok f hs)
  | .srli f => okVia (execOp_srli f s) (execSrli_ok f hs)
  | .srai f => okVia (execOp_srai f s) (execSrai_ok f hs)
  | .add f => okVia (execOp_add f s) (execAdd_ok f hs)
  | .sub f => okVia (execOp_sub f s) (execSub_ok f hs)
  | .sll f => okVia (execOp_sll f s) (execSll_ok f hs)
  | .slt f => okVia (execOp_slt f s) (execSlt_ok f hs)
  | .sltu f => okVia (execOp_sltu f s) (execSltu_ok f hs)
  | .xor f => okVia (execOp_xor f s) (execXor_ok f hs)
  | .srl f => okVia (execOp_srl f s) (execSrl_ok f hs)
  | .sra f => okVia (execOp_sra f s) (execSra_ok f hs)
  | .or f => okVia (execOp_or f s) (execOr_ok f hs)
  | .and f => okVia (execOp_and f s) (execAnd_ok f hs)
  | .addiw f => okVia (execOp_addiw f s) (execAddiw_ok f hs)
  | .slliw f => okVia (execOp_slliw f s) (execSlliw_ok f hs)
  | .srliw f => okVia (execOp_srliw f s) (execSrliw_ok f hs)
  | .sraiw f => okVia (execOp_sraiw f s) (execSraiw_ok f hs)
  | .addw f => okVia (execOp_addw f s) (execAddw_ok f hs)
  | .subw f => okVia (execOp_subw f s) (execSubw_ok f hs)
  | .sllw f => okVia (execOp_sllw f s) (execSllw_ok f hs)
  | .srlw f => okVia (execOp_srlw f s) (execSrlw_ok f hs)
  | .sraw f => okVia (execOp_sraw f s) (execSraw_ok f hs)
  | .lb f => okVia (execOp_lb f s) (execLb_ok f hs)
  | .lh f => okVia (execOp_lh f s) (execLh_ok f hs)
  | .lw f => okVia (execOp_lw f s) (execLw_ok f hs)
  | .sld f => okVia (execOp_sld f s) (execSld_ok f hs)
  | .lbu f => okVia (execOp_lbu f s) (execLbu_ok f hs)
  | .lhu f => okVia (execOp_lhu f s) (execLhu_ok f hs)
  | .lwu f => okVia (execOp_lwu f s) (execLwu_ok f hs)
  | .sb f => okVia (execOp_sb f s) (execSb_ok f hs)
  | .sh f => okVia (execOp_sh f s) (execSh_ok f hs)
  | .sw f => okVia (execOp_sw f s) (execSw_ok f hs)
  | .sd f => okVia (execOp_sd f s) (execSd_ok f hs)
  | .fence f => okVia (execOp_fence f s) (execFence_ok f hs)
  | .ecall => okVia (execOp_ecall s) (execEcall_ok hs)
  | .ebreak => okVia (execOp_ebreak s) (execEbreak_ok hs)
  | .mul f => okVia (execOp_mul f s) (execMul_ok f hs)
  | .mulh f => okVia (execOp_mulh f s) (execMulh_ok f hs)
  | .mulhsu f => okVia (execOp_mulhsu f s) (execMulhsu_ok f hs)
  | .mulhu f => okVia (execOp_mulhu f s) (execMulhu_ok f hs)
  | .div f => okVia (execOp_div f s) (execDiv_ok f hs)
  | .divu f => okVia (execOp_divu f s) (execDivu_ok f hs)
  | .rem f => okVia (execOp_rem f s) (execRem_ok f hs)
  | .remu f => okVia (execOp_remu f s) (execRemu_ok f hs)
  | .mulw f => okVia (execOp_mulw f s) (execMulw_ok f hs)
  | .divw f => okVia (execOp_divw f s) (execDivw_ok f hs)
  | .divuw f => okVia (execOp_divuw f s) (execDivuw_ok f hs)
  | .remw f => okVia (execOp_remw f s) (execRemw_ok f hs)
  | .remuw f => okVia (execOp_remuw f s) (execRemuw_ok f hs)
  | .csrrw f => okVia (execOp_csrrw f s) (execCsrrw_ok f hs)
  | .csrrs f => okVia (execOp_csrrs f s) (execCsrrs_ok f hs)
  | .csrrc f => okVia (execOp_csrrc f s) (execCsrrc_ok f hs)
  | .csrrwi f => okVia (execOp_csrrwi f s) (execCsrrwi_ok f hs)
  | .csrrsi f => okVia (execOp_csrrsi f s) (execCsrrsi_ok f hs)
  | .csrrci f => okVia (execOp_csrrci f s) (execCsrrci_ok f hs)
  | .idle slot => okVia (execOp_idle slot s) (execIdle_ok slot hs)
  | .vadd f => okVia (execOp_vadd f s) (execVadd_ok f hs)
  | .vsub f => okVia (execOp_vsub f s) (execVsub_ok f hs)
  | .vmul f => okVia (execOp_vmul f s) (execVmul_ok f hs)
  | .vdiv f => okVia (execOp_vdiv f s) (execVdiv_ok f hs)
  | .vmin f => okVia (execOp_vmin f s) (execVmin_ok f hs)
  | .vmax f => okVia (execOp_vmax f s) (execVmax_ok f hs)
  | .vabs f => okVia (execOp_vabs f s) (execVabs_ok f hs)
  | .vneg f => okVia (execOp_vneg f s) (execVneg_ok f hs)
  | .vfma f => okVia (execOp_vfma f s) (execVfma_ok f hs)
  | .vfms f => okVia (execOp_vfms f s) (execVfms_ok f hs)
  | .vsqrt f => okVia (execOp_vsqrt f s) (execVsqrt_ok f hs)
  | .vrcp f => okVia (execOp_vrcp f s) (execVrcp_ok f hs)
  | .vrsqrt f => okVia (execOp_vrsqrt f s) (execVrsqrt_ok f hs)
  | .vexp2 f => okVia (execOp_vexp2 f s) (execVexp2_ok f hs)
  | .vlog2 f => okVia (execOp_vlog2 f s) (execVlog2_ok f hs)
  | .vand f => okVia (execOp_vand f s) (execVand_ok f hs)
  | .vor f => okVia (execOp_vor f s) (execVor_ok f hs)
  | .vxor f => okVia (execOp_vxor f s) (execVxor_ok f hs)
  | .vnot f => okVia (execOp_vnot f s) (execVnot_ok f hs)
  | .vshl f => okVia (execOp_vshl f s) (execVshl_ok f hs)
  | .vshr f => okVia (execOp_vshr f s) (execVshr_ok f hs)
  | .vsra f => okVia (execOp_vsra f s) (execVsra_ok f hs)
  | .vadds f => okVia (execOp_vadds f s) (execVadds_ok f hs)
  | .vsubs f => okVia (execOp_vsubs f s) (execVsubs_ok f hs)
  | .vmulh f => okVia (execOp_vmulh f s) (execVmulh_ok f hs)
  | .vbcast f => okVia (execOp_vbcast f s) (execVbcast_ok f hs)
  | .vmovx f => okVia (execOp_vmovx f s) (execVmovx_ok f hs)
  | .vmov f => okVia (execOp_vmov f s) (execVmov_ok f hs)
  | .viota f => okVia (execOp_viota f s) (execViota_ok f hs)
  | .vli f => okVia (execOp_vli f s) (execVli_ok f hs)
  | .vcmpEq f => okVia (execOp_vcmpEq f s) (execVcmpEq_ok f hs)
  | .vcmpNe f => okVia (execOp_vcmpNe f s) (execVcmpNe_ok f hs)
  | .vcmpLt f => okVia (execOp_vcmpLt f s) (execVcmpLt_ok f hs)
  | .vcmpLe f => okVia (execOp_vcmpLe f s) (execVcmpLe_ok f hs)
  | .vcmpUn f => okVia (execOp_vcmpUn f s) (execVcmpUn_ok f hs)
  | .vcmpLtu f => okVia (execOp_vcmpLtu f s) (execVcmpLtu_ok f hs)
  | .vcmpLeu f => okVia (execOp_vcmpLeu f s) (execVcmpLeu_ok f hs)
  | .vpand f => okVia (execOp_vpand f s) (execVpand_ok f hs)
  | .vpor f => okVia (execOp_vpor f s) (execVpor_ok f hs)
  | .vpxor f => okVia (execOp_vpxor f s) (execVpxor_ok f hs)
  | .vpnot f => okVia (execOp_vpnot f s) (execVpnot_ok f hs)
  | .vpset f => okVia (execOp_vpset f s) (execVpset_ok f hs)
  | .vpcnt f => okVia (execOp_vpcnt f s) (execVpcnt_ok f hs)
  | .vpfirst f => okVia (execOp_vpfirst f s) (execVpfirst_ok f hs)
  | .vsel f => okVia (execOp_vsel f s) (execVsel_ok f hs)
  | .vperm f => okVia (execOp_vperm f s) (execVperm_ok f hs)
  | .vslideup f => okVia (execOp_vslideup f s) (execVslideup_ok f hs)
  | .vslidedn f => okVia (execOp_vslidedn f s) (execVslidedn_ok f hs)
  | .vzip f => okVia (execOp_vzip f s) (execVzip_ok f hs)
  | .vunzip f => okVia (execOp_vunzip f s) (execVunzip_ok f hs)
  | .vcompress f => okVia (execOp_vcompress f s) (execVcompress_ok f hs)
  | .vexpand f => okVia (execOp_vexpand f s) (execVexpand_ok f hs)
  | .vredsum f => okVia (execOp_vredsum f s) (execVredsum_ok f hs)
  | .vredmax f => okVia (execOp_vredmax f s) (execVredmax_ok f hs)
  | .vredmin f => okVia (execOp_vredmin f s) (execVredmin_ok f hs)
  | .vscansum f => okVia (execOp_vscansum f s) (execVscansum_ok f hs)
  | .vscanmax f => okVia (execOp_vscanmax f s) (execVscanmax_ok f hs)
  | .vargmax f => okVia (execOp_vargmax f s) (execVargmax_ok f hs)
  | .vbitonic f => okVia (execOp_vbitonic f s) (execVbitonic_ok f hs)
  | .vmulL6 f => okVia (execOp_vmulL6 f s) (execVmulL6_ok f hs)
  | .vdotL6 f => okVia (execOp_vdotL6 f s) (execVdotL6_ok f hs)
  | .vrand f => okVia (execOp_vrand f s) (execVrand_ok f hs)
  | .vld f => okVia (execOp_vld f s) (execVld_ok f hs)
  | .vst f => okVia (execOp_vst f s) (execVst_ok f hs)
  | .vstm f => okVia (execOp_vstm f s) (execVstm_ok f hs)
  | .vgather f => okVia (execOp_vgather f s) (execVgather_ok f hs)
  | .vscatter f => okVia (execOp_vscatter f s) (execVscatter_ok f hs)
  | .ld f => okVia (execOp_ld f s) (execLd_ok f hs)
  | .st f => okVia (execOp_st f s) (execSt_ok f hs)
  | .ldSc f => okVia (execOp_ldSc f s) (execLdSc_ok f hs)
  | .stSc f => okVia (execOp_stSc f s) (execStSc_ok f hs)
  | .vpref f => okVia (execOp_vpref f s) (execVpref_ok f hs)
  | .amoadd f => okVia (execOp_amoadd f s) (execAmoadd_ok f hs)
  | .amomin f => okVia (execOp_amomin f s) (execAmomin_ok f hs)
  | .amomax f => okVia (execOp_amomax f s) (execAmomax_ok f hs)
  | .amominu f => okVia (execOp_amominu f s) (execAmominu_ok f hs)
  | .amomaxu f => okVia (execOp_amomaxu f s) (execAmomaxu_ok f hs)
  | .amoand f => okVia (execOp_amoand f s) (execAmoand_ok f hs)
  | .amoor f => okVia (execOp_amoor f s) (execAmoor_ok f hs)
  | .amoxor f => okVia (execOp_amoxor f s) (execAmoxor_ok f hs)
  | .amoswap f => okVia (execOp_amoswap f s) (execAmoswap_ok f hs)
  | .amocas f => okVia (execOp_amocas f s) (execAmocas_ok f hs)
  | .amoSc f => okVia (execOp_amoSc f s) (execAmoSc_ok f hs)
  | .lda f => okVia (execOp_lda f s) (execLda_ok f hs)
  | .stl f => okVia (execOp_stl f s) (execStl_ok f hs)
  | .vfence f => okVia (execOp_vfence f s) (execVfence_ok f hs)
  | .cflush f => okVia (execOp_cflush f s) (execCflush_ok f hs)
  | .vamoadd f => okVia (execOp_vamoadd f s) (execVamoadd_ok f hs)
  | .vamomin f => okVia (execOp_vamomin f s) (execVamomin_ok f hs)
  | .vamomax f => okVia (execOp_vamomax f s) (execVamomax_ok f hs)
  | .vredst f => okVia (execOp_vredst f s) (execVredst_ok f hs)
  | .cldh f => okVia (execOp_cldh f s) (execCldh_ok f hs)
  | .csth f => okVia (execOp_csth f s) (execCsth_ok f hs)
  | .cnarrow f => okVia (execOp_cnarrow f s) (execCnarrow_ok f hs)
  | .cget f => okVia (execOp_cget f s) (execCget_ok f hs)
  | .cmov f => okVia (execOp_cmov f s) (execCmov_ok f hs)
  | .cclr ha => okVia (execOp_cclr ha s) (execCclr_ok ha hs)
  | .binit f => okVia (execOp_binit f s) (execBinit_ok f hs)
  | .blink f => okVia (execOp_blink f s) (execBlink_ok f hs)
  | .barrive f => okVia (execOp_barrive f s) (execBarrive_ok f hs)
  | .bwaitp f => okVia (execOp_bwaitp f s) (execBwaitp_ok f hs)
  | .oclaim os => okVia (execOp_oclaim os s) (execOclaim_ok os hs)
  | .orelease os => okVia (execOp_orelease os s) (execOrelease_ok os hs)
  | .oload f => okVia (execOp_oload f s) (execOload_ok f hs)
  | .wload f => okVia (execOp_wload f s) (execWload_ok f hs)
  | .mzero f => okVia (execOp_mzero f s) (execMzero_ok f hs)
  | .mmov f => okVia (execOp_mmov f s) (execMmov_ok f hs)
  | .mrd f => okVia (execOp_mrd f s) (execMrd_ok f hs)
  | .mwr f => okVia (execOp_mwr f s) (execMwr_ok f hs)
  | .mmaF64 f => okVia (execOp_mmaF64 f s) (execMmaF64_ok f hs)
  | .mmaF32 f => okVia (execOp_mmaF32 f s) (execMmaF32_ok f hs)
  | .mmaBf16 f => okVia (execOp_mmaBf16 f s) (execMmaBf16_ok f hs)
  | .mmaF16 f => okVia (execOp_mmaF16 f s) (execMmaF16_ok f hs)
  | .mmaI8 f => okVia (execOp_mmaI8 f s) (execMmaI8_ok f hs)
  | .mmaI4 f => okVia (execOp_mmaI4 f s) (execMmaI4_ok f hs)
  | .mmaL6 f => okVia (execOp_mmaL6 f s) (execMmaL6_ok f hs)
  | .mmaS24 f => okVia (execOp_mmaS24 f s) (execMmaS24_ok f hs)
  | .mmaS14 f => okVia (execOp_mmaS14 f s) (execMmaS14_ok f hs)
  | .mlrset f => okVia (execOp_mlrset f s) (execMlrset_ok f hs)
  | .mlrmul f => okVia (execOp_mlrmul f s) (execMlrmul_ok f hs)
  | .mlrdm f => okVia (execOp_mlrdm f s) (execMlrdm_ok f hs)
  | .mdmlr f => okVia (execOp_mdmlr f s) (execMdmlr_ok f hs)
  | .mlradd f => okVia (execOp_mlradd f s) (execMlradd_ok f hs)
  | .mrecomp f => okVia (execOp_mrecomp f s) (execMrecomp_ok f hs)
  | .mdense f => okVia (execOp_mdense f s) (execMdense_ok f hs)
  | .mrank f => okVia (execOp_mrank f s) (execMrank_ok f hs)
  | .mbflyC64 f => okVia (execOp_mbflyC64 f s) (execMbflyC64_ok f hs)
  | .mbflyC128 f => okVia (execOp_mbflyC128 f s) (execMbflyC128_ok f hs)
  | .mbrev f => okVia (execOp_mbrev f s) (execMbrev_ok f hs)
  | .mtwmulC64 f => okVia (execOp_mtwmulC64 f s) (execMtwmulC64_ok f hs)
  | .mtwmulC128 f => okVia (execOp_mtwmulC128 f s) (execMtwmulC128_ok f hs)
  | .cjob f => okVia (execOp_cjob f s) (execCjob_ok f hs)
  | .cjobv f => okVia (execOp_cjobv f s) (execCjobv_ok f hs)
  | .cwpe f => okVia (execOp_cwpe f s) (execCwpe_ok f hs)
  | .cquery f => okVia (execOp_cquery f s) (execCquery_ok f hs)
  | .ccancel xa => okVia (execOp_ccancel xa s) (execCcancel_ok xa hs)
  | .csignal f => okVia (execOp_csignal f s) (execCsignal_ok f hs)
  | .cfence => okVia (execOp_cfence s) (execCfence_ok hs)
  | .xexpS24 f => okVia (execOp_xexpS24 f s) (execXexpS24_ok f hs)
  | .xexpS14 f => okVia (execOp_xexpS14 f s) (execXexpS14_ok f hs)
  | .xunpkL6 f => okVia (execOp_xunpkL6 f s) (execXunpkL6_ok f hs)
  | .xunpkI4 f => okVia (execOp_xunpkI4 f s) (execXunpkI4_ok f hs)
  | .xpackL6 f => okVia (execOp_xpackL6 f s) (execXpackL6_ok f hs)
  | .xpackI4 f => okVia (execOp_xpackI4 f s) (execXpackI4_ok f hs)
  | .xtr f => okVia (execOp_xtr f s) (execXtr_ok f hs)
  | .xcvt f => okVia (execOp_xcvt f s) (execXcvt_ok f hs)
  | .xscale xs => okVia (execOp_xscale xs s) (execXscale_ok xs hs)
  | .xscalei imm => okVia (execOp_xscalei imm s) (execXscalei_ok imm hs)
  | .fmtShadowExpiry n => okVia (execOp_fmtShadowExpiry n s) (outOk_next hs)
  | .superstepRelease lid => okVia (execOp_superstepRelease lid s) (outOk_next hs)
  | .taskEnd n => okVia (execOp_taskEnd n s) (outOk_next hs)
  | .tretResume n => okVia (execOp_tretResume n s) (outOk_next hs)
  | .repeatIssue n => okVia (execOp_repeatIssue n s) (outOk_next hs)
  | .segmentMark n => okVia (execOp_segmentMark n s) (outOk_next hs)
  | .overlaySegmentLanded n => okVia (execOp_overlaySegmentLanded n s) (outOk_next hs)
  | .scWheelIssue n => okVia (execOp_scWheelIssue n s) (outOk_next hs)
  | .barrierAnswer n => okVia (execOp_barrierAnswer n s) (outOk_next hs)
  | .barrierArrivalReceived k => okVia (execOp_barrierArrivalReceived k s) (outOk_next hs)
  | .barrierFlipReceived k => okVia (execOp_barrierFlipReceived k s) (outOk_next hs)
  | .wloadBlockArrival n os => okVia (execOp_wloadBlockArrival n os s) (outOk_next hs)
  | .wloadFillExpiry n os => okVia (execOp_wloadFillExpiry n os s) (outOk_next hs)
  | .engineOpStart n => okVia (execOp_engineOpStart n s) (outOk_next hs)
  | .portBlock n => okVia (execOp_portBlock n s) (outOk_next hs)
  | .engineRetire n => okVia (execOp_engineRetire n s) (outOk_next hs)
  | .jobStart j => okVia (execOp_jobStart j s) (outOk_next hs)
  | .copyRow j => okVia (execOp_copyRow j s) (outOk_next hs)
  | .jobComplete j => okVia (execOp_jobComplete j s) (outOk_next hs)
  | .wpeBuildStart j => okVia (execOp_wpeBuildStart j s) (outOk_next hs)
  | .wpePulseIteration j ok => okVia (execOp_wpePulseIteration j ok s) (outOk_next hs)
  | .wpeSlotRelease bank slot => okVia (execOp_wpeSlotRelease bank slot s) (outOk_next hs)
  | .xscaleExecute n => okVia (execOp_xscaleExecute n s) (outOk_next hs)
  | .resultWriteback n => okVia (execOp_resultWriteback n s) (outOk_next hs)
  | .landingCountExpiry n => okVia (execOp_landingCountExpiry n s) (outOk_next hs)
  | .landingDataArrival n k verdict => okVia (execOp_landingDataArrival n k verdict s) (outOk_next hs)
  | .storeAck n id => okVia (execOp_storeAck n id s) (outOk_next hs)
  | .homeAtomicExecute n id => okVia (execOp_homeAtomicExecute n id s) (outOk_next hs)
  | .stampedMessageDelivery k => okVia (execOp_stampedMessageDelivery k s) (outOk_next hs)
  | .directoryInvalidate clu line => okVia (execOp_directoryInvalidate clu line s) (outOk_next hs)
  | .memoryFaultFound site cond => okVia (execOp_memoryFaultFound site cond s) (outOk_next hs)
  | .trapEntry n => okVia (execOp_trapEntry n s) (outOk_next hs)
  | .preempt n => okVia (execOp_preempt n s) (outOk_next hs)
  | .saveComplete n => okVia (execOp_saveComplete n s) (outOk_next hs)
  | .taskRestore uid n => okVia (execOp_taskRestore uid n s) (outOk_next hs)
  | .scheduleReadyTask die => okVia (execOp_scheduleReadyTask die s) (outOk_next hs)
  | .queueSignal q => okVia (execOp_queueSignal q s) (outOk_next hs)
  | .queueRemap die => okVia (execOp_queueRemap die s) (outOk_next hs)
  | .queueIdleTimeout q => okVia (execOp_queueIdleTimeout q s) (outOk_next hs)
  | .queueRestart q => okVia (execOp_queueRestart q s) (outOk_next hs)
  | .packetDispatch die => okVia (execOp_packetDispatch die s) (outOk_next hs)
  | .launch pid => okVia (execOp_launch pid s) (outOk_next hs)
  | .copy pid => okVia (execOp_copy pid s) (outOk_next hs)
  | .barrier pid => okVia (execOp_barrier pid s) (outOk_next hs)
  | .node pid => okVia (execOp_node pid s) (outOk_next hs)
  | .selftest pid => okVia (execOp_selftest pid s) (outOk_next hs)
  | .fencePacket pid => okVia (execOp_fencePacket pid s) (outOk_next hs)
  | .packetComplete pid => okVia (execOp_packetComplete pid s) (outOk_next hs)
  | .indexClaim die pid => okVia (execOp_indexClaim die pid s) (outOk_next hs)
  | .gangStart pid level group => okVia (execOp_gangStart pid level group s) (outOk_next hs)
  | .indexReturnTimeout die pid => okVia (execOp_indexReturnTimeout die pid s) (outOk_next hs)
  | .launchComplete pid => okVia (execOp_launchComplete pid s) (outOk_next hs)
  | .selftestComplete n fail => okVia (execOp_selftestComplete n fail s) (outOk_next hs)
  | .waySurrender clu => okVia (execOp_waySurrender clu s) (outOk_next hs)
  | .wayReturn clu => okVia (execOp_wayReturn clu s) (outOk_next hs)
  | .waypWrite clu v => okVia (execOp_waypWrite clu v s) (outOk_next hs)
  | .wrgnWrite die r hi v => okVia (execOp_wrgnWrite die r hi v s) (outOk_next hs)
  | .regionSealComplete die r => okVia (execOp_regionSealComplete die r s) (outOk_next hs)
  | .qdbaseWrite die v => okVia (execOp_qdbaseWrite die v s) (outOk_next hs)
  | .qsigbaseWrite die v => okVia (execOp_qsigbaseWrite die v s) (outOk_next hs)
  | .fabidWrite v => okVia (execOp_fabidWrite v s) (outOk_next hs)
  | .fportEnWrite die p v => okVia (execOp_fportEnWrite die p v s) (outOk_next hs)
  | .fabricLinkUp die p peer comp => okVia (execOp_fabricLinkUp die p peer comp s) (outOk_next hs)
  | .fabricTagFailure die p => okVia (execOp_fabricTagFailure die p s) (outOk_next hs)
  | .streamRekey die p => okVia (execOp_streamRekey die p s) (outOk_next hs)
  | .pcapWrite v => okVia (execOp_pcapWrite v s) (outOk_next hs)
  | .pcapWindow pwr amps => okVia (execOp_pcapWindow pwr amps s) (outOk_next hs)
  | .vcoreOvercurrent amps => okVia (execOp_vcoreOvercurrent amps s) (outOk_next hs)
  | .mcErrorRecord die bank e => okVia (execOp_mcErrorRecord die bank e s) (outOk_next hs)
  | .threshWindowEnd die bank => okVia (execOp_threshWindowEnd die bank s) (outOk_next hs)
  | .mcStatusClear die bank v => okVia (execOp_mcStatusClear die bank v s) (outOk_next hs)
  | .datapathCheckFail n slot synd => okVia (execOp_datapathCheckFail n slot synd s) (outOk_next hs)
  | .coreFence n => okVia (execOp_coreFence n s) (outOk_next hs)
  | .coreReturnToService n => okVia (execOp_coreReturnToService n s) (outOk_next hs)
  | .lockstepMismatch die pcs => okVia (execOp_lockstepMismatch die pcs s) (outOk_next hs)
  | .lockstepReplayComplete die => okVia (execOp_lockstepReplayComplete die s) (outOk_next hs)
  | .dieLost die => okVia (execOp_dieLost die s) (outOk_next hs)
  | .packageLost pkg => okVia (execOp_packageLost pkg s) (outOk_next hs)
  | .ownerEntryEffect k => okVia (execOp_ownerEntryEffect k s) (outOk_next hs)
  | .hostBarAccess a => okVia (execOp_hostBarAccess a s) (outOk_next hs)
  | .controlRegisterWrite die off v => okVia (execOp_controlRegisterWrite die off v s) (outOk_next hs)
  | .getVersion => okVia (execOp_getVersion s) (outOk_next hs)
  | .getCapabilities => okVia (execOp_getCapabilities s) (outOk_next hs)
  | .negotiateAlgorithms => okVia (execOp_negotiateAlgorithms s) (outOk_next hs)
  | .getDigests => okVia (execOp_getDigests s) (outOk_next hs)
  | .getCertificate => okVia (execOp_getCertificate s) (outOk_next hs)
  | .challenge nonce => okVia (execOp_challenge nonce s) (outOk_next hs)
  | .getMeasurements index => okVia (execOp_getMeasurements index s) (outOk_next hs)
  | .keyExchange => okVia (execOp_keyExchange s) (outOk_next hs)
  | .finish => okVia (execOp_finish s) (outOk_next hs)
  | .keyUpdate => okVia (execOp_keyUpdate s) (outOk_next hs)
  | .endSession => okVia (execOp_endSession s) (outOk_next hs)
  | .ideKm stream owner => okVia (execOp_ideKm stream owner s) (outOk_next hs)
  | .create => okVia (execOp_create s) (outOk_next hs)
  | .assign ctx what => okVia (execOp_assign ctx what s) (outOk_next hs)
  | .saveArea ctx cap spadlen => okVia (execOp_saveArea ctx cap spadlen s) (outOk_next hs)
  | .report ctx nonce => okVia (execOp_report ctx nonce s) (outOk_next hs)
  | .teardown ctx => okVia (execOp_teardown ctx s) (outOk_next hs)
  | .resume ctx => okVia (execOp_resume ctx s) (outOk_next hs)
  | .mctpControl bus => okVia (execOp_mctpControl bus s) (outOk_next hs)
  | .pldmMonitoring bus => okVia (execOp_pldmMonitoring bus s) (outOk_next hs)
  | .imageTransfer bus digest => okVia (execOp_imageTransfer bus digest s) (outOk_next hs)
  | .capRead bus => okVia (execOp_capRead bus s) (outOk_next hs)
  | .capWrite bus v => okVia (execOp_capWrite bus v s) (outOk_next hs)
  | .fabricKeyExchange x => okVia (execOp_fabricKeyExchange x s) (outOk_next hs)
  | .linkReset => okVia (execOp_linkReset s) (outOk_next hs)
  | .warmReset => okVia (execOp_warmReset s) (outOk_next hs)
  | .coldReset => okVia (execOp_coldReset s) (outOk_next hs)
  | .hostLinkUp => okVia (execOp_hostLinkUp s) (outOk_next hs)
  | .powerLoss writing => okVia (execOp_powerLoss writing s) (outOk_next hs)
  | .louverResourceDone die => okVia (execOp_louverResourceDone die s) (outOk_next hs)
  | .regionRehashComplete die => okVia (execOp_regionRehashComplete die s) (outOk_next hs)

end Sys2Proof.Machine
end

