-- ==== Sys2Proof/Laws/OkIssue.lean ====
section
/-! SUPPORT. Every operation of Machine/Issue.lean keeps a sound state sound. -/

namespace Sys2Proof.Machine

theorem Core.nextDeferred_ok {c c' : Core} {t : Trap} (hc : c.Ok) (e : c.nextDeferred = some (t, c')) : c'.Ok := by
  unfold Core.nextDeferred at e
  obtain ⟨⟨a, rest⟩, _, e⟩ := Option.map_eq_some_iff.1 e
  cases e; exact hc

theorem Core.nextTrap_ok {c c' : Core} {t : Trap} (hc : c.Ok) (e : c.nextTrap = some (t, c')) : c'.Ok := by
  unfold Core.nextTrap at e
  split at e
  · split at e
    · cases e; exact hc
    · exact Core.nextDeferred_ok hc e
  · exact Core.nextDeferred_ok hc e

theorem State.openIssue_ok {s : State} (n : Nat) (rep : Nat) (hs : s.Ok) : (State.openIssue s n rep).Ok := by
  unfold State.openIssue
  with_reducible assumption

theorem State.runOp_ok {s : State} (o : Op) (hs : s.Ok) : (State.runOp s o).Ok := by
  unfold State.runOp
  repeat' first
    | with_reducible assumption
    | with_reducible apply execOp_ok
    | with_reducible refine State.Ok.ofNext (by with_reducible assumption) ?_
    | extract_lets
    | split

theorem State.nextRank_ok {s : State} (i : Instr) (hs : s.Ok) : (State.nextRank s i).Ok := by
  unfold State.nextRank
  split
  · exact State.setCur_ok hs hs.cur
  · exact hs

theorem State.runOps_ok (ops : List Op) {s t : State} {comp comp' : Option Trap} (hs : s.Ok)
    (e : State.runOps ops s comp = .ok (t, comp')) : t.Ok := by
  induction ops generalizing s comp with
  | nil => cases e; exact hs
  | cons o ops ih =>
    unfold State.runOps at e
    dsimp only at e
    split at e
    · exact ih (State.nextRank_ok _ (State.runOp_ok o hs)) e
    · split at e
      · exact ih hs e
      · cases e

theorem State.closeBundle_ok {s : State} (hs : s.Ok) : ExOk (State.closeBundle s) := by
  unfold State.closeBundle
  repeat' first
    | with_reducible assumption
    | with_reducible apply State.structTrap_ok
    | with_reducible apply closeLoop_ok
    | with_reducible refine State.Ok.ofNext (by with_reducible assumption) ?_
    | with_reducible apply exOk_ok
    | with_reducible apply exOk_error
    | extract_lets
    | split
    | dsimp +zetaDelta only

theorem State.tickCore_ok {s : State} (n : Nat) (hs : s.Ok) : (State.tickCore s n).Ok := by
  unfold State.tickCore
  repeat' first
    | with_reducible assumption
    | with_reducible apply Core.tick_ok
    | with_reducible apply State.setCore_ok
    | with_reducible apply State.Ok.core

theorem State.sampleCore_ok {s : State} (n : Nat) (hs : s.Ok) :
    (State.sampleCore s n).Ok := by
  unfold State.sampleCore
  repeat' first
    | with_reducible assumption
    | with_reducible apply Launch.core_ok
    | with_reducible apply State.setCore_ok
    | with_reducible apply State.Ok.core

theorem State.enterTrap_ok {s : State} (n : Nat) (t : Trap) (hs : s.Ok) :
    (State.enterTrap s n t).Ok := by
  unfold State.enterTrap
  repeat' first
    | with_reducible assumption
    | with_reducible apply takeTrap_ok
    | with_reducible apply Launch.core_ok
    | with_reducible apply State.sampleCore_ok
    | with_reducible apply State.tickCore_ok
    | with_reducible apply State.Ok.core
    | with_reducible apply State.Ok.cur
    | intro _
    | extract_lets
    | split

theorem State.trapCycle_ok {s : State} (n : Nat) (t : Trap) (hs : s.Ok) :
    (State.trapCycle s n t).Ok := by
  unfold State.trapCycle
  repeat' first
    | with_reducible assumption
    | with_reducible apply takeTrap_ok
    | with_reducible apply Launch.core_ok
    | with_reducible apply State.trap_ok
    | with_reducible apply State.tickCore_ok
    | with_reducible apply State.enterTrap_ok
    | with_reducible apply State.setCore_ok
    | with_reducible apply State.Ok.core
    | with_reducible apply State.Ok.cur
    | with_reducible refine State.Ok.ofPair (by with_reducible assumption) ?_
    | with_reducible refine State.Ok.ofSome (by with_reducible assumption) ?_
    | intro _
    | extract_lets
    | split

theorem State.issueTrap_ok {s : State} (n : Nat) (ops : List Op) (t : Trap) (hs : s.Ok) : (State.issueTrap s n ops t).Ok := by
  unfold State.issueTrap
  repeat' first
    | with_reducible assumption | with_reducible apply State.trapCycle_ok

theorem Core.standAfter_ok {c : Core} {old : Core} (placed : List Op) (hc : c.Ok) (hold : old.Ok) : (Core.standAfter c old placed).Ok := by
  unfold Core.standAfter
  repeat' first
    | with_reducible assumption
    | with_reducible apply Core.putStand_ok
    | with_reducible apply Core.Ok.foldl
    | intro _
    | extract_lets
    | split

theorem State.endBundle_ok {s : State} (n : Nat) (seg : Bool) (comp : Option Trap) (hs : s.Ok) : (State.endBundle s n seg comp).Ok := by
  unfold State.endBundle
  repeat' first
    | with_reducible assumption
    | with_reducible apply execSegmentMark_ok
    | with_reducible apply State.setCore_ok
    | with_reducible refine State.Ok.ofNext (by with_reducible assumption) ?_
    | with_reducible apply State.Ok.core
    | extract_lets
    | split

theorem State.commit_ok {s0 : State} (n : Nat) (b : Bundle) (ops : List Op) (idle : List Slot) {s : State} (comp : Option Trap) (hs0 : s0.Ok) (hs : s.Ok) : (State.commit s0 n b ops idle s comp).Ok := by
  unfold State.commit
  repeat' first
    | with_reducible assumption
    | with_reducible apply Core.putStand_ok
    | with_reducible apply Core.standAfter_ok
    | with_reducible apply State.endBundle_ok
    | with_reducible apply State.noteBegun_ok
    | with_reducible apply State.tickCore_ok
    | with_reducible apply tretReturn_ok
    | with_reducible apply State.setCore_ok
    | with_reducible apply State.Ok.core
    | with_reducible apply Core.Ok.foldl
    | intro _
    | extract_lets
    | split
    | with_reducible apply State.Ok.ite

theorem State.withFence_ok {s : State} (o : Op) (hs : s.Ok) :
    (State.withFence s o).Ok := by
  unfold State.withFence
  repeat' first
    | with_reducible assumption
    | with_reducible apply State.setCur_ok
    | with_reducible apply Core.fenceMark_ok
    | with_reducible apply Launch.core_ok
    | with_reducible apply State.Ok.core
    | with_reducible apply State.Ok.cur
    | with_reducible refine State.Ok.ofPair (by with_reducible assumption) ?_
    | with_reducible refine State.Ok.ofSome (by with_reducible assumption) ?_
    | intro _
    | extract_lets
    | split
    | with_reducible apply State.Ok.ite
    | with_reducible apply Core.Ok.ite

theorem State.tryIssue_ok {s : State} (n : Nat) (b : Bundle) (ops : List Op) (hs : s.Ok) : (s.tryIssue n b ops).Ok := by
  unfold State.tryIssue
  extract_lets c s0 rank two src s1 last ran
  have h0 : s0.Ok := State.openIssue_ok n _ hs
  have h1 : s1.Ok := State.setCore_ok n h0 (hs.core n)
  have hr : ∀ s3 comp, ran = .ok (s3, comp) → s3.Ok := by
    intro s3 comp e
    dsimp only [ran] at e
    split at e
    · cases e
    · rename_i s2 comp' e2
      have h2 := State.runOps_ok ops h1 e2
      split at e
      · cases e
      · rename_i e3
        cases e
        split at e3
        · exact State.Ok.ofExcept e3 (State.closeBundle_ok h2)
        · cases e3; exact h2
  clear_value ran
  split
  · exact State.tickCore_ok n hs
  · split
    · split
      · exact State.trapCycle_ok n _ hs
      · exact State.tickCore_ok n (State.fetchSeg_ok n _ hs)
    · split
      · exact State.issueTrap_ok n _ _ hs
      · split
        · exact State.tickCore_ok n hs
        · refine State.Ok.ite (fun _ => State.tickCore_ok n hs) fun _ => ?_
          split
          · exact State.issueTrap_ok n _ _ h0
          · split
            · exact State.tickCore_ok n hs
            · split
              · exact State.tickCore_ok n (State.setCore_ok n hs (hs.core n))
              · split
                · exact State.tickCore_ok n (State.setCore_ok n hs (hs.core n))
                · exact State.commit_ok n _ _ _ _ hs (hr _ _ rfl)

theorem State.issueCycle_ok {s : State} (n : Nat) (hs : s.Ok) : (State.issueCycle s n).Ok := by
  unfold State.issueCycle
  repeat' first
    | with_reducible assumption
    | with_reducible apply State.fetchSeg_ok
    | with_reducible apply State.tickCore_ok
    | with_reducible apply State.trapCycle_ok
    | with_reducible apply State.tryIssue_ok
    | with_reducible refine State.Ok.ofPair (by with_reducible assumption) ?_
    | extract_lets
    | split

theorem State.takeDue_ok {s : State} (n : Nat) (hs : s.Ok) : OptOk (s.takeDue n) := by
  unfold State.takeDue
  cases e : (s.core n).nextTrap with
  | none => trivial
  | some x => exact State.trapCycle_ok n _ (State.setCore_ok n hs (Core.nextTrap_ok (hs.core n) e))

theorem execTrapEntry_ok (n : Nat) {s : State} (hs : s.Ok) : OutOk (execTrapEntry n s) := by
  unfold execTrapEntry
  repeat' first
    | with_reducible assumption
    | with_reducible apply outOk_next
    | with_reducible apply State.takeDue_ok
    | with_reducible apply State.Ok.getD
    | split

theorem execTretResume_ok (n : Nat) {s : State} (hs : s.Ok) : OutOk (execTretResume n s) := by
  unfold execTretResume
  repeat' first
    | with_reducible assumption
    | with_reducible apply outOk_next
    | with_reducible apply tretReturn_ok
    | extract_lets
    | split

theorem State.haltCycle_ok {s : State} (n : Nat) (hs : s.Ok) : (State.haltCycle s n).Ok := by
  unfold State.haltCycle
  repeat' first
    | with_reducible assumption
    | with_reducible apply State.tickCore_ok
    | with_reducible apply State.setCore_ok
    | with_reducible apply State.Ok.core
    | extract_lets
    | split

theorem State.resumeCycle_ok {s : State} (n : Nat) (hs : s.Ok) :
    (State.resumeCycle s n).Ok := by
  unfold State.resumeCycle
  repeat' first
    | with_reducible assumption
    | with_reducible apply tretReturn_ok
    | with_reducible apply Launch.core_ok
    | with_reducible apply State.sampleCore_ok
    | with_reducible apply State.setCore_ok
    | with_reducible apply State.Ok.core

theorem State.runCycle_ok {s : State} (n : Nat) (hs : s.Ok) :
    (State.runCycle s n).Ok := by
  unfold State.runCycle
  repeat' first
    | with_reducible assumption
    | with_reducible apply tretReturn_ok
    | with_reducible apply Launch.core_ok
    | with_reducible apply State.resumeCycle_ok
    | with_reducible apply State.tickCore_ok
    | with_reducible apply State.issueCycle_ok
    | with_reducible apply State.Ok.core
    | with_reducible apply State.Ok.cur
    | intro _
    | extract_lets
    | split

theorem Core.afterEntry_ok {c : Core} (waited : Nat) (hc : c.Ok) :
    (Core.afterEntry c waited).Ok := by
  unfold Core.afterEntry
  repeat' first
    | with_reducible assumption

theorem State.firstCycle_ok {s : State} (n : Nat) (hs : s.Ok) :
    (State.firstCycle s n).Ok := by
  unfold State.firstCycle
  repeat' first
    | with_reducible assumption
    | with_reducible apply Launch.core_ok
    | with_reducible apply State.tickCore_ok
    | with_reducible apply State.runCycle_ok
    | with_reducible apply State.sampleCore_ok
    | with_reducible apply State.Ok.core
    | with_reducible apply State.Ok.cur
    | intro _
    | extract_lets
    | split

theorem State.entryCycle_ok {s : State} (n : Nat) (e : Entry) (hs : s.Ok) :
    (State.entryCycle s n e).Ok := by
  unfold State.entryCycle
  repeat' first
    | with_reducible assumption
    | with_reducible apply Launch.core_ok
    | with_reducible apply State.tickCore_ok
    | with_reducible apply takeTrap_ok
    | with_reducible apply State.trap_ok
    | with_reducible apply Core.afterEntry_ok
    | with_reducible apply State.firstCycle_ok
    | with_reducible apply State.setCore_ok
    | with_reducible apply State.Ok.core
    | with_reducible apply State.Ok.cur
    | with_reducible refine State.Ok.ofPair (by with_reducible assumption) ?_
    | with_reducible refine State.Ok.ofSome (by with_reducible assumption) ?_
    | intro _
    | extract_lets
    | split

theorem State.boundary_ok {s : State} (n : Nat) (hs : s.Ok) :
    (State.boundary s n).Ok := by
  unfold State.boundary
  repeat' first
    | with_reducible assumption
    | with_reducible apply Launch.core_ok
    | with_reducible apply State.settle_ok
    | with_reducible apply State.entryCycle_ok
    | with_reducible apply State.takeDue_ok
    | with_reducible apply State.haltCycle_ok
    | with_reducible apply State.runCycle_ok
    | with_reducible apply State.Ok.core
    | with_reducible apply State.Ok.cur
    | with_reducible refine State.Ok.ofPair (by with_reducible assumption) ?_
    | with_reducible refine State.Ok.ofSome (by with_reducible assumption) ?_
    | intro _
    | extract_lets
    | split

theorem State.saveCycle_ok {s : State} (n : Nat) (hs : s.Ok) :
    (State.saveCycle s n).Ok := by
  unfold State.saveCycle
  repeat' first
    | with_reducible assumption
    | with_reducible apply Launch.core_ok
    | with_reducible apply State.settle_ok
    | with_reducible apply State.entryCycle_ok
    | with_reducible apply State.takeDue_ok
    | with_reducible apply State.tickCore_ok
    | with_reducible apply State.Ok.getD
    | with_reducible apply State.Ok.core
    | with_reducible apply State.Ok.cur
    | with_reducible refine State.Ok.ofPair (by with_reducible assumption) ?_
    | with_reducible refine State.Ok.ofSome (by with_reducible assumption) ?_
    | intro _
    | extract_lets
    | split

theorem State.delayCycle_ok {s : State} (n : Nat) (hs : s.Ok) :
    (State.delayCycle s n).Ok := by
  unfold State.delayCycle
  repeat' first
    | with_reducible assumption
    | with_reducible apply Launch.core_ok
    | with_reducible apply State.sampleCore_ok
    | with_reducible apply State.boundary_ok
    | with_reducible apply State.setCore_ok
    | with_reducible apply State.Ok.core
    | with_reducible apply State.Ok.cur
    | intro _
    | extract_lets
    | split

theorem State.coreCycle_ok {s : State} (n : Nat) (hs : s.Ok) :
    (State.coreCycle s n).Ok := by
  unfold State.coreCycle
  repeat' first
    | with_reducible assumption
    | with_reducible apply Launch.core_ok
    | with_reducible apply State.saveCycle_ok
    | with_reducible apply State.takePreempt_ok
    | with_reducible apply State.takeDue_ok
    | with_reducible apply State.delayCycle_ok
    | with_reducible apply State.boundary_ok
    | with_reducible apply State.Ok.getD
    | with_reducible apply State.Ok.core
    | with_reducible apply State.Ok.cur
    | intro _
    | extract_lets
    | split
    | with_reducible apply State.Ok.ite

theorem execRepeatIssue_ok (n : Nat) {s : State} (hs : s.Ok) : OutOk (execRepeatIssue n s) := by
  unfold execRepeatIssue
  repeat' first
    | with_reducible assumption | with_reducible apply outOk_next | with_reducible apply State.coreCycle_ok | split

theorem execScWheelIssue_ok (n : Nat) {s : State} (hs : s.Ok) : OutOk (execScWheelIssue n s) := by
  unfold execScWheelIssue
  repeat' first
    | with_reducible assumption | with_reducible apply outOk_next | with_reducible apply State.coreCycle_ok | split

end Sys2Proof.Machine
end

