-- ==== Sys2Proof/Laws/OkWay.lean ====
section
/-! SUPPORT. Every operation of Machine/Way.lean keeps a sound state sound. -/

namespace Sys2Proof.Machine

theorem State.setWayp_ok {s : State} (clu : Nat) (w : Wayp) (hs : s.Ok) : (State.setWayp s clu w).Ok := by
  unfold State.setWayp
  repeat' first
    | with_reducible assumption | with_reducible apply State.setMs_ok

theorem State.writeWayp_ok {s : State} (clu : Nat) (v : DWord) (hs : s.Ok) : (State.writeWayp s clu v).Ok := by
  unfold State.writeWayp
  repeat' first
    | with_reducible assumption | with_reducible apply State.setWayp_ok

theorem execWaypWrite_ok (clu : Nat) (v : DWord) {s : State} (hs : s.Ok) : OutOk (execWaypWrite clu v s) := by
  unfold execWaypWrite
  repeat' first
    | with_reducible assumption | with_reducible apply outOk_next | with_reducible apply State.writeWayp_ok | split

theorem State.emptySlice_ok {s : State} (clu : Nat) (hs : s.Ok) :
    (State.emptySlice s clu).Ok := by
  unfold State.emptySlice
  repeat' first
    | with_reducible assumption
    | with_reducible apply State.clean_ok
    | with_reducible apply State.setMs_ok
    | with_reducible apply ListsOk.mapCores
    | with_reducible rfl
    | with_reducible apply State.Ok.core
    | with_reducible apply State.Ok.cur
    | with_reducible refine State.Ok.ofPair (by with_reducible assumption) ?_
    | with_reducible refine State.Ok.ofSome (by with_reducible assumption) ?_
    | intro _
    | extract_lets
    | split

theorem execWaySurrender_ok (clu : Nat) {s : State} (hs : s.Ok) : OutOk (execWaySurrender clu s) := by
  unfold execWaySurrender
  repeat' first
    | with_reducible assumption
    | with_reducible apply outOk_next
    | with_reducible apply State.emptySlice_ok
    | with_reducible apply State.scrub_ok
    | with_reducible apply State.setWayp_ok
    | extract_lets
    | split

theorem execWayReturn_ok (clu : Nat) {s : State} (hs : s.Ok) : OutOk (execWayReturn clu s) := by
  unfold execWayReturn
  repeat' first
    | with_reducible assumption
    | with_reducible apply outOk_next
    | with_reducible apply State.scrub_ok
    | with_reducible apply State.setWayp_ok
    | extract_lets
    | split

end Sys2Proof.Machine
end

