-- ==== Sys2Proof/Laws/OkProtect.lean ====
section
/-! SUPPORT. Every operation of Machine/Protect.lean keeps a sound state sound. -/

namespace Sys2Proof.Machine

theorem State.answer_ok {s : State} (r : Reply) (hs : s.Ok) : (State.answer s r).Ok := by
  unfold State.answer
  with_reducible assumption

theorem State.replyOn_ok {s : State} (via : Carrier) (r : SpdmReply) (hs : s.Ok) : (State.replyOn s via r).Ok :=
  State.answer_ok _ hs

theorem State.reply_ok {s : State} (r : SpdmReply) (hs : s.Ok) :
    (State.reply s r).Ok := by
  unfold State.reply State.replyOn
  repeat' first
    | with_reducible assumption
    | with_reducible apply State.answer_ok

theorem State.setOwner_ok {s : State} (k : Nat) (o : Owner) (hs : s.Ok) : (State.setOwner s k o).Ok := by
  unfold State.setOwner
  with_reducible assumption

theorem State.oweOwner_ok {s : State} (k : Nat) (o : Owner) (hs : s.Ok) : (State.oweOwner s k o).Ok := by
  unfold State.oweOwner
  repeat' first
    | with_reducible assumption | with_reducible apply State.setProt_ok

theorem State.zeroiseKey_ok {s : State} (k : Nat) (hs : s.Ok) :
    (State.zeroiseKey s k).Ok := by
  unfold State.zeroiseKey
  repeat' first
    | with_reducible assumption

theorem State.keyIn_ok {s : State} (k : Nat) (kind : KeyKind) (link : Bool) (owner : BitVec 16) (peer : BitVec 10) (hs : s.Ok) :
    (State.keyIn s k kind link owner peer).Ok := by
  unfold State.keyIn
  repeat' first
    | with_reducible assumption

theorem State.setSpdm_ok {s : State} (p : Spdm) (hs : s.Ok) : (State.setSpdm s p).Ok := by
  unfold State.setSpdm
  repeat' first
    | with_reducible assumption | with_reducible apply State.setProt_ok

theorem State.spdmStep_ok {s : State} (ok : Bool) (f : State → State) (hs : s.Ok) (hf : ∀ x : State, x.Ok → (f x).Ok) :
    (State.spdmStep s ok f).Ok := by
  unfold State.spdmStep
  repeat' first
    | with_reducible assumption
    | with_reducible apply State.answer_ok
    | with_reducible apply hf
    | with_reducible apply State.reply_ok
    | intro _
    | extract_lets
    | split

theorem execGetVersion_ok {s : State} (hs : s.Ok) :
    OutOk (execGetVersion s) := by
  unfold execGetVersion
  repeat' first
    | with_reducible assumption
    | with_reducible apply State.answer_ok
    | with_reducible apply outOk_next
    | with_reducible apply State.spdmStep_ok
    | with_reducible apply State.setSpdm_ok
    | with_reducible apply State.reply_ok
    | intro _

theorem execGetCapabilities_ok {s : State} (hs : s.Ok) :
    OutOk (execGetCapabilities s) := by
  unfold execGetCapabilities
  repeat' first
    | with_reducible assumption
    | with_reducible apply State.answer_ok
    | with_reducible apply outOk_next
    | with_reducible apply State.spdmStep_ok
    | with_reducible apply State.reply_ok
    | intro _

theorem execNegotiateAlgorithms_ok {s : State} (hs : s.Ok) :
    OutOk (execNegotiateAlgorithms s) := by
  unfold execNegotiateAlgorithms
  repeat' first
    | with_reducible assumption
    | with_reducible apply State.answer_ok
    | with_reducible apply outOk_next
    | with_reducible apply State.spdmStep_ok
    | with_reducible apply State.setSpdm_ok
    | with_reducible apply State.reply_ok
    | intro _

theorem execGetDigests_ok {s : State} (hs : s.Ok) :
    OutOk (execGetDigests s) := by
  unfold execGetDigests
  repeat' first
    | with_reducible assumption
    | with_reducible apply State.answer_ok
    | with_reducible apply outOk_next
    | with_reducible apply State.spdmStep_ok
    | with_reducible apply State.reply_ok
    | intro _

theorem execGetCertificate_ok {s : State} (hs : s.Ok) :
    OutOk (execGetCertificate s) := by
  unfold execGetCertificate
  repeat' first
    | with_reducible assumption
    | with_reducible apply State.answer_ok
    | with_reducible apply outOk_next
    | with_reducible apply State.spdmStep_ok
    | with_reducible apply State.reply_ok
    | intro _

theorem execChallenge_ok (nonce : BitVec 256) {s : State} (hs : s.Ok) :
    OutOk (execChallenge nonce s) := by
  unfold execChallenge
  repeat' first
    | with_reducible assumption
    | with_reducible apply State.answer_ok
    | with_reducible apply outOk_next
    | with_reducible apply State.spdmStep_ok
    | with_reducible apply State.reply_ok
    | intro _

theorem execGetMeasurements_ok (i : Nat) {s : State} (hs : s.Ok) :
    OutOk (execGetMeasurements i s) := by
  unfold execGetMeasurements
  repeat' first
    | with_reducible assumption
    | with_reducible apply State.answer_ok
    | with_reducible apply outOk_next
    | with_reducible apply State.spdmStep_ok
    | with_reducible apply State.reply_ok
    | with_reducible refine State.Ok.ofPair (by with_reducible assumption) ?_
    | with_reducible refine State.Ok.ofSome (by with_reducible assumption) ?_
    | intro _
    | extract_lets
    | split

theorem State.freshSessionKey_ok {s : State} (hs : s.Ok) : (State.freshSessionKey s).Ok := by
  unfold State.freshSessionKey
  repeat' first
    | with_reducible assumption | with_reducible apply State.setProt_ok

theorem execKeyExchange_ok {s : State} (hs : s.Ok) :
    OutOk (execKeyExchange s) := by
  unfold execKeyExchange
  repeat' first
    | with_reducible assumption
    | with_reducible apply State.answer_ok
    | with_reducible apply outOk_next
    | with_reducible apply State.spdmStep_ok
    | with_reducible apply State.setSpdm_ok
    | with_reducible apply State.freshSessionKey_ok
    | with_reducible apply State.reply_ok
    | intro _

theorem execFinish_ok {s : State} (hs : s.Ok) :
    OutOk (execFinish s) := by
  unfold execFinish
  repeat' first
    | with_reducible assumption
    | with_reducible apply State.answer_ok
    | with_reducible apply outOk_next
    | with_reducible apply State.spdmStep_ok
    | with_reducible apply State.setSpdm_ok
    | with_reducible apply State.reply_ok
    | intro _

theorem execKeyUpdate_ok {s : State} (hs : s.Ok) :
    OutOk (execKeyUpdate s) := by
  unfold execKeyUpdate
  repeat' first
    | with_reducible assumption
    | with_reducible apply State.freshSessionKey_ok
    | with_reducible apply State.answer_ok
    | with_reducible apply outOk_next
    | with_reducible apply State.spdmStep_ok
    | with_reducible apply State.reply_ok
    | intro _

theorem execEndSession_ok {s : State} (hs : s.Ok) :
    OutOk (execEndSession s) := by
  unfold execEndSession
  repeat' first
    | with_reducible assumption
    | with_reducible apply State.answer_ok
    | with_reducible apply outOk_next
    | with_reducible apply State.spdmStep_ok
    | with_reducible apply State.setSpdm_ok
    | with_reducible apply State.reply_ok
    | intro _

theorem execIdeKm_ok (stream : IdeStream) (owner : BitVec 16) {s : State} (hs : s.Ok) :
    OutOk (execIdeKm stream owner s) := by
  unfold execIdeKm
  repeat' first
    | with_reducible assumption
    | with_reducible apply State.answer_ok
    | with_reducible apply outOk_next
    | with_reducible apply State.spdmStep_ok
    | with_reducible apply State.keyIn_ok
    | with_reducible apply State.reply_ok
    | with_reducible refine State.Ok.ofPair (by with_reducible assumption) ?_
    | with_reducible refine State.Ok.ofSome (by with_reducible assumption) ?_
    | intro _
    | extract_lets
    | split

theorem State.command_ok {s : State} (f : State → State) (hs : s.Ok) (hf : ∀ x : State, x.Ok → (f x).Ok) :
    (State.command s f).Ok := by
  unfold State.command
  repeat' first
    | with_reducible assumption
    | with_reducible apply State.spdmStep_ok

theorem execCreate_ok {s : State} (hs : s.Ok) :
    OutOk (execCreate s) := by
  unfold execCreate
  repeat' first
    | with_reducible assumption
    | with_reducible apply State.answer_ok
    | with_reducible apply outOk_next
    | with_reducible apply State.command_ok
    | with_reducible apply State.keyIn_ok
    | with_reducible apply State.setCtx_ok
    | with_reducible apply State.reply_ok
    | with_reducible refine State.Ok.ofPair (by with_reducible assumption) ?_
    | with_reducible refine State.Ok.ofSome (by with_reducible assumption) ?_
    | intro _
    | extract_lets
    | split

theorem execAssign_ok (ctx : BitVec 16) (what : List Resource) {s : State} (hs : s.Ok) :
    OutOk (execAssign ctx what s) := by
  unfold execAssign
  repeat' first
    | with_reducible assumption
    | with_reducible apply State.answer_ok
    | with_reducible apply outOk_next
    | with_reducible apply State.command_ok
    | with_reducible apply State.oweOwner_ok
    | with_reducible apply State.scrub_ok
    | with_reducible apply State.reply_ok
    | with_reducible apply State.Ok.foldl
    | with_reducible apply Core.Ok.foldl
    | with_reducible refine State.Ok.ofPair (by with_reducible assumption) ?_
    | with_reducible refine State.Ok.ofSome (by with_reducible assumption) ?_
    | intro _
    | extract_lets
    | split

theorem execSaveArea_ok (ctx : BitVec 16) (cap : Cap) (spadlen : Nat) {s : State} (hs : s.Ok) :
    OutOk (execSaveArea ctx cap spadlen s) := by
  unfold execSaveArea
  repeat' first
    | with_reducible assumption
    | with_reducible apply State.answer_ok
    | with_reducible apply outOk_next
    | with_reducible apply State.command_ok
    | with_reducible apply State.setCtx_ok
    | with_reducible apply State.reply_ok
    | with_reducible refine State.Ok.ofPair (by with_reducible assumption) ?_
    | with_reducible refine State.Ok.ofSome (by with_reducible assumption) ?_
    | intro _
    | extract_lets
    | split

theorem execReport_ok (ctx : BitVec 16) (nonce : BitVec 256) {s : State} (hs : s.Ok) :
    OutOk (execReport ctx nonce s) := by
  unfold execReport
  repeat' first
    | with_reducible assumption
    | with_reducible apply State.answer_ok
    | with_reducible apply outOk_next
    | with_reducible apply State.command_ok
    | with_reducible apply State.reply_ok
    | with_reducible refine State.Ok.ofPair (by with_reducible assumption) ?_
    | with_reducible refine State.Ok.ofSome (by with_reducible assumption) ?_
    | intro _
    | extract_lets
    | split

theorem State.holdTasks_ok {s : State} (ctx : BitVec 16) (h : Bool) (hs : s.Ok) : (State.holdTasks s ctx h).Ok := by
  unfold State.holdTasks
  repeat' first
    | with_reducible assumption
    | with_reducible apply ListsOk.mapCores
    | with_reducible rfl
    | intro _
    | extract_lets
    | split

theorem execResume_ok (ctx : BitVec 16) {s : State} (hs : s.Ok) :
    OutOk (execResume ctx s) := by
  unfold execResume
  repeat' first
    | with_reducible assumption
    | with_reducible apply State.answer_ok
    | with_reducible apply outOk_next
    | with_reducible apply State.command_ok
    | with_reducible apply State.setCtx_ok
    | with_reducible apply State.holdTasks_ok
    | with_reducible apply State.reply_ok
    | with_reducible refine State.Ok.ofPair (by with_reducible assumption) ?_
    | with_reducible refine State.Ok.ofSome (by with_reducible assumption) ?_
    | intro _
    | extract_lets
    | split

theorem State.cancelCtxJobs_ok {s : State} (ctx : BitVec 16) (hs : s.Ok) : (State.cancelCtxJobs s ctx).Ok := by
  unfold State.cancelCtxJobs
  with_reducible assumption

theorem State.stopContext_ok {s : State} (ctx : BitVec 16) (hs : s.Ok) :
    (State.stopContext s ctx).Ok := by
  unfold State.stopContext
  repeat' first
    | with_reducible assumption
    | with_reducible apply State.abortPacket_ok
    | with_reducible apply State.stopQueue_ok
    | with_reducible apply State.abortLaunch_ok
    | with_reducible apply State.killCore_ok
    | with_reducible apply State.killSaved_ok
    | with_reducible apply State.packetOutcome_ok
    | with_reducible apply State.cancelCtxJobs_ok
    | with_reducible apply State.Ok.foldl
    | with_reducible apply Core.Ok.foldl
    | with_reducible apply ListsOk.filterSaved
    | with_reducible apply State.Ok.core
    | with_reducible apply State.Ok.cur
    | with_reducible refine State.Ok.ofPair (by with_reducible assumption) ?_
    | with_reducible refine State.Ok.ofSome (by with_reducible assumption) ?_
    | intro _

theorem State.setLv_ok {s : State} (die : Nat) (l : LvProg) (hs : s.Ok) : (State.setLv s die l).Ok := by
  unfold State.setLv
  repeat' first
    | with_reducible assumption | with_reducible apply State.setProt_ok

theorem State.beginKeys_ok {s : State} (k : Nat) (x : Ctx) (hs : s.Ok) :
    (State.beginKeys s k x).Ok := by
  unfold State.beginKeys
  repeat' first
    | with_reducible assumption
    | with_reducible apply State.setLv_ok
    | with_reducible apply State.Ok.foldl
    | with_reducible apply Core.Ok.foldl
    | intro _

theorem State.setScrub_ok {s : State} (ctx : BitVec 16) (hs : s.Ok) :
    (State.setScrub s ctx).Ok := by
  unfold State.setScrub
  repeat' first
    | with_reducible assumption
    | with_reducible apply State.scrub_ok
    | with_reducible apply State.oweOwner_ok
    | with_reducible apply State.Ok.foldl
    | with_reducible apply Core.Ok.foldl
    | with_reducible refine State.Ok.ofPair (by with_reducible assumption) ?_
    | with_reducible refine State.Ok.ofSome (by with_reducible assumption) ?_
    | intro _

theorem State.enterPhase_ok {s : State} (die : Nat) (phase : BitVec 2) (hs : s.Ok) : (State.enterPhase s die phase).Ok := by
  unfold State.enterPhase
  repeat' first
    | with_reducible assumption | with_reducible apply State.setLv_ok | extract_lets | split

theorem State.beginClear_ok {s : State} (hs : s.Ok) :
    (State.beginClear s).Ok := by
  unfold State.beginClear
  repeat' first
    | with_reducible assumption
    | with_reducible apply State.setScrub_ok
    | with_reducible apply State.enterPhase_ok
    | with_reducible apply State.Ok.foldl
    | with_reducible apply Core.Ok.foldl
    | with_reducible refine State.Ok.ofPair (by with_reducible assumption) ?_
    | with_reducible refine State.Ok.ofSome (by with_reducible assumption) ?_
    | intro _
    | extract_lets
    | split

theorem State.endTeardown_ok {s : State} (hs : s.Ok) : (State.endTeardown s).Ok := by
  unfold State.endTeardown
  repeat' first
    | with_reducible assumption | with_reducible apply State.setProt_ok | extract_lets | split

theorem State.nextTeardown_ok {s : State} (hs : s.Ok) :
    (State.nextTeardown s).Ok := by
  unfold State.nextTeardown
  repeat' first
    | with_reducible assumption
    | with_reducible apply State.beginScrub_ok
    | with_reducible apply State.beginKeys_ok
    | with_reducible refine State.Ok.ofPair (by with_reducible assumption) ?_
    | with_reducible refine State.Ok.ofSome (by with_reducible assumption) ?_
    | intro _
    | extract_lets
    | split

theorem State.louverRun_ok {s : State} (hs : s.Ok) : (State.louverRun s).Ok := by
  unfold State.louverRun
  repeat' first
    | with_reducible assumption
    | with_reducible apply State.beginClear_ok
    | with_reducible apply State.endTeardown_ok
    | with_reducible apply State.nextTeardown_ok
    | with_reducible apply State.Ok.foldl
    | intro _

theorem execTeardown_ok (ctx : BitVec 16) {s : State} (hs : s.Ok) :
    OutOk (execTeardown ctx s) := by
  unfold execTeardown
  repeat' first
    | with_reducible assumption
    | with_reducible apply State.zeroiseKeys_ok
    | with_reducible apply State.louverRun_ok
    | with_reducible apply State.answer_ok
    | with_reducible apply outOk_next
    | with_reducible apply State.command_ok
    | with_reducible apply State.reply_ok
    | with_reducible apply State.replyOn_ok
    | with_reducible apply State.setCtx_ok
    | with_reducible apply State.stopContext_ok
    | with_reducible refine State.Ok.ofPair (by with_reducible assumption) ?_
    | with_reducible refine State.Ok.ofSome (by with_reducible assumption) ?_
    | intro _
    | extract_lets
    | split

theorem execOwnerEntryEffect_ok (k : Nat) {s : State} (hs : s.Ok) : OutOk (execOwnerEntryEffect k s) := by
  unfold execOwnerEntryEffect
  repeat' first
    | with_reducible assumption
    | with_reducible apply outOk_next
    | with_reducible apply State.louverRun_ok
    | with_reducible apply State.setOwner_ok
    | with_reducible apply State.setProt_ok
    | extract_lets
    | split

theorem State.louverCore_ok {s : State} (n : Nat) (hs : s.Ok) : (State.louverCore s n).Ok := by
  unfold State.louverCore
  repeat' first
    | with_reducible assumption
    | with_reducible apply Core.idle_ok
    | with_reducible apply State.clearStorage_ok
    | with_reducible apply State.scrub_ok
    | with_reducible apply State.setCore_ok

theorem State.louverPage_ok {s : State} (p : Nat) (hs : s.Ok) : (State.louverPage s p).Ok := by
  unfold State.louverPage
  repeat' first
    | with_reducible assumption
    | with_reducible apply State.mapLines_ok
    | with_reducible apply State.scrub_ok
    | with_reducible apply State.setMs_ok

theorem State.louverClear_ok {s : State} (phase : BitVec 2) (k : Nat) (hs : s.Ok) :
    (State.louverClear s phase k).Ok := by
  unfold State.louverClear
  repeat' first
    | with_reducible assumption
    | with_reducible apply State.zeroiseKey_ok
    | with_reducible apply State.louverPage_ok
    | with_reducible apply State.louverCore_ok
    | with_reducible apply State.scrub_ok
    | intro _
    | extract_lets
    | split

theorem execLouverResourceDone_ok (die : Nat) {s : State} (hs : s.Ok) :
    OutOk (execLouverResourceDone die s) := by
  unfold execLouverResourceDone
  repeat' first
    | with_reducible assumption
    | with_reducible apply outOk_next
    | with_reducible apply State.louverRun_ok
    | with_reducible apply State.louverClear_ok
    | with_reducible apply State.setLv_ok
    | with_reducible apply State.enterPhase_ok
    | with_reducible refine State.Ok.ofPair (by with_reducible assumption) ?_
    | with_reducible refine State.Ok.ofSome (by with_reducible assumption) ?_
    | intro _
    | extract_lets
    | split

end Sys2Proof.Machine
end

