-- ==== Sys2Proof/Laws/OkLinks.lean ====
section
/-! SUPPORT. Every operation of Machine/Links.lean keeps a sound state sound. -/

namespace Sys2Proof.Machine

theorem State.setLinks_ok {s : State} (l : Links) (hs : s.Ok) : (State.setLinks s l).Ok := by
  unfold State.setLinks
  with_reducible assumption

theorem execQdbaseWrite_ok (die : Nat) (v : DWord) {s : State} (hs : s.Ok) : OutOk (execQdbaseWrite die v s) := by
  unfold execQdbaseWrite
  repeat' first
    | with_reducible assumption
    | with_reducible apply outOk_next
    | with_reducible apply State.setSched_ok
    | with_reducible rfl
    | extract_lets
    | split

theorem execQsigbaseWrite_ok (die : Nat) (v : DWord) {s : State} (hs : s.Ok) : OutOk (execQsigbaseWrite die v s) := by
  unfold execQsigbaseWrite
  repeat' first
    | with_reducible assumption
    | with_reducible apply outOk_next
    | with_reducible apply State.setSched_ok
    | with_reducible rfl
    | extract_lets
    | split

theorem State.writeFabid_ok {s : State} (v : DWord) (hs : s.Ok) : (State.writeFabid s v).Ok := by
  unfold State.writeFabid
  repeat' first
    | with_reducible assumption | with_reducible apply State.setLinks_ok | extract_lets | split

theorem execFabidWrite_ok (v : DWord) {s : State} (hs : s.Ok) : OutOk (execFabidWrite v s) := by
  unfold execFabidWrite
  repeat' first
    | with_reducible assumption
    | with_reducible apply outOk_next
    | with_reducible apply State.writeFabid_ok
    | split

theorem State.setPort_ok {s : State} (die : Nat) (p : Nat) (v : Port) (hs : s.Ok) : (State.setPort s die p v).Ok := by
  unfold State.setPort
  repeat' first
    | with_reducible assumption | with_reducible apply State.setLinks_ok

theorem State.writePort_ok {s : State} (die : Nat) (p : Nat) (v : DWord) (hs : s.Ok) : (State.writePort s die p v).Ok := by
  unfold State.writePort
  repeat' first
    | with_reducible assumption | with_reducible apply State.setPort_ok

theorem execFportEnWrite_ok (die : Nat) (p : Nat) (v : DWord) {s : State} (hs : s.Ok) : OutOk (execFportEnWrite die p v s) := by
  unfold execFportEnWrite
  repeat' first
    | with_reducible assumption | with_reducible apply outOk_next | with_reducible apply State.writePort_ok | split

theorem execFabricLinkUp_ok (die : Nat) (p : Nat) (peer : BitVec 10) (comp : Bool) {s : State} (hs : s.Ok) : OutOk (execFabricLinkUp die p peer comp s) := by
  unfold execFabricLinkUp
  repeat' first
    | with_reducible assumption
    | with_reducible apply outOk_next
    | with_reducible apply State.setPort_ok
    | extract_lets
    | split

theorem execFabricTagFailure_ok (die : Nat) (p : Nat) {s : State} (hs : s.Ok) :
    OutOk (execFabricTagFailure die p s) := by
  unfold execFabricTagFailure
  repeat' first
    | with_reducible assumption
    | with_reducible apply outOk_next
    | with_reducible apply State.setPort_ok
    | with_reducible apply State.mcRecord_ok
    | intro _
    | extract_lets
    | split
    | with_reducible apply State.Ok.ite
    | with_reducible apply Core.Ok.ite

theorem State.keyFabric_ok {s : State} (peer : BitVec 10) (hs : s.Ok) : OptOk (s.keyFabric peer) := by
  unfold State.keyFabric
  extract_lets on
  have h : ∀ {t : State}, t.Ok → (on t).Ok := fun ht => State.setLinks_ok _ ht
  clear_value on
  split
  · exact optOk_some (h (State.keyIn_ok _ _ _ _ _ hs))
  · cases s.freeKeySlot with
    | none => exact optOk_none
    | some k => exact optOk_some (h (State.keyIn_ok _ _ _ _ _ hs))

theorem execStreamRekey_ok (die : Nat) (p : Nat) {s : State} (hs : s.Ok) :
    OutOk (execStreamRekey die p s) := by
  unfold execStreamRekey
  repeat' first
    | with_reducible assumption
    | with_reducible apply State.setPort_ok
    | with_reducible apply outOk_next
    | with_reducible apply State.keyFabric_ok
    | with_reducible apply State.Ok.getD
    | intro _
    | extract_lets
    | split

theorem execFabricKeyExchange_ok (x : PeerExchange) {s : State} (hs : s.Ok) :
    OutOk (execFabricKeyExchange x s) := by
  unfold execFabricKeyExchange
  repeat' first
    | with_reducible assumption
    | with_reducible apply outOk_next
    | with_reducible apply State.keyFabric_ok
    | with_reducible apply State.answer_ok
    | with_reducible apply State.Ok.getD
    | intro _
    | extract_lets
    | split

theorem State.setPower_ok {s : State} (p : Power) (hs : s.Ok) : (State.setPower s p).Ok := by
  unfold State.setPower
  with_reducible assumption

theorem State.writeWatts_ok {s : State} (v : BitVec 16) (hs : s.Ok) : (State.writeWatts s v).Ok := by
  unfold State.writeWatts
  repeat' first
    | with_reducible assumption | with_reducible apply State.setPower_ok

theorem execPcapWrite_ok (v : DWord) {s : State} (hs : s.Ok) : OutOk (execPcapWrite v s) := by
  unfold execPcapWrite
  repeat' first
    | with_reducible assumption
    | with_reducible apply outOk_next
    | with_reducible apply State.writeWatts_ok
    | split

theorem execPcapWindow_ok (pwr : BitVec 16) (amps : BitVec 16) {s : State} (hs : s.Ok) : OutOk (execPcapWindow pwr amps s) := by
  unfold execPcapWindow
  repeat' first
    | with_reducible assumption
    | with_reducible apply outOk_next
    | with_reducible apply State.setPower_ok
    | extract_lets
    | split

theorem execVcoreOvercurrent_ok (amps : Nat) {s : State} (hs : s.Ok) : OutOk (execVcoreOvercurrent amps s) := by
  unfold execVcoreOvercurrent
  repeat' first
    | with_reducible assumption
    | with_reducible apply outOk_next
    | with_reducible apply State.setPower_ok
    | extract_lets
    | split

theorem execMctpControl_ok (bus : MgmtBus) {s : State} (hs : s.Ok) : OutOk (execMctpControl bus s) := by
  unfold execMctpControl
  repeat' first
    | with_reducible assumption | with_reducible apply outOk_next | with_reducible apply State.answer_ok | split

theorem execPldmMonitoring_ok (bus : MgmtBus) {s : State} (hs : s.Ok) : OutOk (execPldmMonitoring bus s) := by
  unfold execPldmMonitoring
  repeat' first
    | with_reducible assumption
    | with_reducible apply outOk_next
    | with_reducible apply State.answer_ok
    | extract_lets
    | split

theorem execCapRead_ok (bus : MgmtBus) {s : State} (hs : s.Ok) : OutOk (execCapRead bus s) := by
  unfold execCapRead
  repeat' first
    | with_reducible assumption | with_reducible apply outOk_next | with_reducible apply State.answer_ok | split

theorem execCapWrite_ok (bus : MgmtBus) (v : BitVec 16) {s : State} (hs : s.Ok) : OutOk (execCapWrite bus v s) := by
  unfold execCapWrite
  repeat' first
    | with_reducible assumption
    | with_reducible apply outOk_next
    | with_reducible apply State.answer_ok
    | with_reducible apply State.writeWatts_ok
    | extract_lets
    | split

theorem execImageTransfer_ok (bus : MgmtBus) (image : Image) {s : State} (hs : s.Ok) : OutOk (execImageTransfer bus image s) := by
  unfold execImageTransfer
  repeat' first
    | with_reducible assumption
    | with_reducible apply outOk_next
    | with_reducible apply State.answer_ok
    | extract_lets
    | split

theorem execHostLinkUp_ok {s : State} (hs : s.Ok) :
    OutOk (execHostLinkUp s) := by
  unfold execHostLinkUp
  repeat' first
    | with_reducible assumption
    | with_reducible apply outOk_next
    | with_reducible apply State.setLinks_ok
    | intro _
    | extract_lets
    | split

theorem State.suspendAll_ok {s : State} (hs : s.Ok) : (State.suspendAll s).Ok := by
  unfold State.suspendAll
  repeat' first
    | with_reducible assumption
    | with_reducible apply State.holdTasks_ok
    | with_reducible apply State.setCtx_ok
    | with_reducible apply State.Ok.foldl
    | intro _
    | extract_lets
    | split

theorem State.dropLink_ok {s : State} (hs : s.Ok) : (State.dropLink s).Ok := by
  unfold State.dropLink
  repeat' first
    | with_reducible assumption | with_reducible apply State.setLinks_ok | with_reducible apply State.setSpdm_ok

theorem execLinkReset_ok {s : State} (hs : s.Ok) : OutOk (execLinkReset s) := by
  unfold execLinkReset
  repeat' first
    | with_reducible assumption
    | with_reducible apply outOk_next
    | with_reducible apply State.dropLink_ok
    | with_reducible apply State.suspendAll_ok
    | split

theorem State.ideStops_ok {s : State} (slot : Nat) (hs : s.Ok) :
    (State.ideStops s slot).Ok := by
  unfold State.ideStops
  repeat' first
    | with_reducible assumption
    | with_reducible apply State.mcRecord_ok
    | with_reducible refine State.Ok.ofPair (by with_reducible assumption) ?_
    | with_reducible refine State.Ok.ofSome (by with_reducible assumption) ?_
    | intro _
    | extract_lets
    | split
    | with_reducible apply State.Ok.ite
    | with_reducible apply Core.Ok.ite

theorem State.linkIn_ok {s : State} (pkg : BitVec 10) (m : LinkIn) (hs : s.Ok) :
    (State.linkIn s pkg m).Ok := by
  unfold State.linkIn
  repeat' first
    | with_reducible assumption
    | with_reducible apply State.ideStops_ok
    | with_reducible apply State.setLinks_ok
    | with_reducible apply State.barIn_ok
    | with_reducible apply State.preemptIn_ok
    | with_reducible apply State.launchIn_ok
    | with_reducible refine State.Ok.ofPair (by with_reducible assumption) ?_
    | with_reducible refine State.Ok.ofSome (by with_reducible assumption) ?_
    | intro _
    | extract_lets
    | split
    | with_reducible apply State.Ok.ite
    | with_reducible apply Core.Ok.ite

end Sys2Proof.Machine
end

