-- ==== Sys2Proof/Laws/OkRegs.lean ====
section
/-! SUPPORT. Every operation of Machine/Regs.lean keeps a sound state sound. -/

namespace Sys2Proof.Machine

theorem State.writeBank_ok {s : State} (die : Nat) (b : Nat) (o : Nat) (v : DWord) (hs : s.Ok) : (State.writeBank s die b o v).Ok := by
  unfold State.writeBank
  repeat' first
    | with_reducible assumption
    | with_reducible apply State.setBank_ok
    | with_reducible apply execMcStatusClear_ok
    | with_reducible refine State.Ok.ofNext (by with_reducible assumption) ?_
    | extract_lets
    | split

theorem State.writeCtrl_ok {s : State} (die : Nat) (r : Ctrl) (v : DWord) (hs : s.Ok) : (State.writeCtrl s die r v).Ok := by
  unfold State.writeCtrl
  repeat' first
    | with_reducible assumption
    | with_reducible apply State.setMc_ok
    | with_reducible apply State.setSched_ok
    | with_reducible apply State.writeBank_ok
    | with_reducible apply State.writeFabid_ok
    | with_reducible apply State.writePort_ok
    | with_reducible apply State.writeRegion_ok
    | with_reducible apply State.writeWatts_ok
    | with_reducible apply State.writeWayp_ok
    | with_reducible apply State.writeWpelim_ok
    | with_reducible apply State.setCore_ok
    | with_reducible rfl
    | with_reducible apply State.Ok.core
    | with_reducible apply State.Ok.foldl
    | intro _
    | extract_lets
    | split

theorem State.writeWindow_ok {s : State} (die : Nat) (off : Nat) (v : DWord) (hs : s.Ok) : (State.writeWindow s die off v).Ok := by
  unfold State.writeWindow
  repeat' first
    | with_reducible assumption | with_reducible apply State.writeCtrl_ok | split

theorem execControlRegisterWrite_ok (die : Nat) (off : Nat) (v : DWord) {s : State} (hs : s.Ok) : OutOk (execControlRegisterWrite die off v s) := by
  unfold execControlRegisterWrite
  repeat' first
    | with_reducible assumption | with_reducible apply outOk_next | with_reducible apply State.writeWindow_ok

theorem State.bar0_ok {s : State} (a : BarAccess) (hs : s.Ok) : (State.bar0 s a).Ok := by
  unfold State.bar0
  repeat' first
    | with_reducible assumption
    | with_reducible apply State.answer_ok
    | with_reducible apply State.writeCtrl_ok
    | extract_lets
    | split

theorem State.countHost_ok {s : State} (a : BarAccess) (hs : s.Ok) :
    (State.countHost s a).Ok := by
  unfold State.countHost
  repeat' first
    | with_reducible assumption
    | with_reducible apply State.mcRecord_ok
    | with_reducible refine State.Ok.ofPair (by with_reducible assumption) ?_
    | with_reducible refine State.Ok.ofSome (by with_reducible assumption) ?_
    | intro _
    | extract_lets
    | split
    | with_reducible apply State.Ok.ite
    | with_reducible apply Core.Ok.ite

theorem State.hostWrite_ok {s : State} (a : BarAccess) (hs : s.Ok) :
    (State.hostWrite s a).Ok := by
  unfold State.hostWrite
  repeat' first
    | with_reducible assumption
    | with_reducible apply State.stamp_ok
    | with_reducible apply State.setRels_ok
    | with_reducible apply State.performGlob_ok
    | with_reducible apply State.storeRels_ok
    | with_reducible apply State.sendWrite_ok
    | with_reducible apply State.Ok.foldl
    | with_reducible apply Core.Ok.foldl
    | with_reducible refine State.Ok.ofPair (by with_reducible assumption) ?_
    | with_reducible refine State.Ok.ofSome (by with_reducible assumption) ?_
    | intro _
    | extract_lets
    | split

theorem State.hostRead_ok {s : State} (a : BarAccess) (hs : s.Ok) : (State.hostRead s a).Ok := by
  unfold State.hostRead
  repeat' first
    | with_reducible assumption | with_reducible apply State.answer_ok

theorem execHostBarAccess_ok (a : BarAccess) {s : State} (hs : s.Ok) :
    OutOk (execHostBarAccess a s) := by
  unfold execHostBarAccess
  repeat' first
    | with_reducible assumption
    | with_reducible apply outOk_next
    | with_reducible apply State.countHost_ok
    | with_reducible apply State.hostWrite_ok
    | with_reducible apply State.hostRead_ok
    | with_reducible apply State.bar0_ok
    | intro _
    | extract_lets
    | split
    | with_reducible apply State.Ok.ite
    | with_reducible apply Core.Ok.ite

end Sys2Proof.Machine
end

