-- ==== Sys2Proof/Laws/OkReset.lean ====
section
/-! SUPPORT. Every operation of Machine/Reset.lean keeps a sound state sound. -/

namespace Sys2Proof.Machine

theorem State.journalLost_ok {s : State} (hs : s.Ok) : (State.journalLost s).Ok := by
  unfold State.journalLost
  repeat' first
    | with_reducible assumption
    | with_reducible apply State.journal_ok
    | with_reducible apply State.Ok.foldl
    | intro _

/-- A core that a warm reset has cleared is sound, whatever its arrays hold. -/
theorem Core.warm_ok (c : Core) : c.warm.Ok :=
  have h := Core.idle_ok
  ⟨h.1, h.2.1, h.2.2.1, h.2.2.2.1, h.2.2.2.2.1, h.2.2.2.2.2.1, fun _ e => nomatch e⟩

theorem State.settleOwners_ok {s : State} (hs : s.Ok) : (State.settleOwners s).Ok := by
  unfold State.settleOwners
  repeat' first
    | with_reducible assumption
    | with_reducible apply State.setOwner_ok
    | with_reducible apply State.setProt_ok
    | with_reducible apply State.Ok.foldl
    | intro _

theorem State.repeatScrub_ok {s : State} (hs : s.Ok) :
    (State.repeatScrub s).Ok := by
  unfold State.repeatScrub
  repeat' first
    | with_reducible assumption
    | with_reducible apply State.beginScrub_ok
    | with_reducible apply State.beginKeys_ok
    | with_reducible refine State.Ok.ofPair (by with_reducible assumption) ?_
    | with_reducible refine State.Ok.ofSome (by with_reducible assumption) ?_
    | intro _
    | extract_lets
    | split

theorem State.warmReset_ok {s : State} (hs : s.Ok) : s.warmReset.Ok := by
  unfold State.warmReset
  extract_lets s1 d src1 src2 src3 s2
  have h1 : s1.Ok := State.settleOwners_ok (State.returnBuilds_ok _ (State.journalLost_ok hs))
  clear_value s1
  have h2 : s2.Ok := ListsOk.noSaved (ListsOk.mapCores h1 (fun _ => rfl) fun _ _ => Core.warm_ok _)
  exact State.louverRun_ok (State.repeatScrub_ok h2)

theorem execWarmReset_ok {s : State} (hs : s.Ok) : OutOk (execWarmReset s) := by
  unfold execWarmReset
  repeat' first
    | with_reducible assumption | with_reducible apply outOk_next | with_reducible apply State.warmReset_ok | split

theorem State.powered_ok {s : State} (flash : Flash) (boot : List (Nat × Boot)) (hs : s.Ok) : (s.powered flash boot).Ok :=
  ⟨Memory.filter_wf _ (State.returnBuilds_ok _ hs).1, rfl, rfl, rfl, List.forall_mem_nil _, List.forall_mem_nil _⟩

theorem execColdReset_ok {s : State} (hs : s.Ok) : OutOk (execColdReset s) := by
  unfold execColdReset
  repeat' first
    | with_reducible assumption | with_reducible apply outOk_next | with_reducible apply State.powered_ok

theorem execPowerLoss_ok (writing : Bool) {s : State} (hs : s.Ok) : OutOk (execPowerLoss writing s) := by
  unfold execPowerLoss
  repeat' first
    | with_reducible assumption | with_reducible apply outOk_next | with_reducible apply State.powered_ok

end Sys2Proof.Machine
end

