-- ==== Sys2Proof/Laws/OkDispatch.lean ====
section
/-! SUPPORT. Every operation of Machine/Dispatch.lean keeps a sound state sound. -/

namespace Sys2Proof.Machine

theorem exec_ok (i : Instr) {s : State} (hs : s.Ok) : OutOk (exec i s) :=
  match i with
  | .beq f => okVia (exec_beq f s) (execBeq_ok f hs)
  | .bne f => okVia (exec_bne f s) (execBne_ok f hs)
  | .blt f => okVia (exec_blt f s) (execBlt_ok f hs)
  | .bge f => okVia (exec_bge f s) (execBge_ok f hs)
  | .bltu f => okVia (exec_bltu f s) (execBltu_ok f hs)
  | .bgeu f => okVia (exec_bgeu f s) (execBgeu_ok f hs)
  | .bpt f => okVia (exec_bpt f s) (execBpt_ok f hs)
  | .bpf f => okVia (exec_bpf f s) (execBpf_ok f hs)
  | .jmp off => okVia (exec_jmp off s) (execJmp_ok off hs)
  | .call f => okVia (exec_call f s) (execCall_ok f hs)
  | .ret rs1 => okVia (exec_ret rs1 s) (execRet_ok rs1 hs)
  | .loop f => okVia (exec_loop f s) (execLoop_ok f hs)
  | .loopW f => okVia (exec_loopW f s) (execLoopW_ok f hs)
  | .loopSp f => okVia (exec_loopSp f s) (execLoopSp_ok f hs)
  | .lend rs1 => okVia (exec_lend rs1 s) (execLend_ok rs1 hs)
  | .lbrk rs1 => okVia (exec_lbrk rs1 s) (execLbrk_ok rs1 hs)
  | .wait f => okVia (exec_wait f s) (execWait_ok f hs)
  | .setfmt acc rm => okVia (exec_setfmt acc rm s) (execSetfmt_ok acc rm hs)
  | .litset rs1 => okVia (exec_litset rs1 s) (execLitset_ok rs1 hs)
  | .sstep => okVia (exec_sstep s) (execSstep_ok hs)
  | .iinv rs1 => okVia (exec_iinv rs1 s) (execIinv_ok rs1 hs)
  | .yield => okVia (exec_yield s) (execYield_ok hs)
  | .halt => okVia (exec_halt s) (execHalt_ok hs)
  | .trap code => okVia (exec_trap code s) (execTrap_ok code hs)
  | .tret => okVia (exec_tret s) (execTret_ok hs)
  | .lui f => okVia (exec_lui f s) (execLui_ok f hs)
  | .auipc f => okVia (exec_auipc f s) (execAuipc_ok f hs)
  | .addi f => okVia (exec_addi f s) (execAddi_ok f hs)
  | .slti f => okVia (exec_slti f s) (execSlti_ok f hs)
  | .sltiu f => okVia (exec_sltiu f s) (execSltiu_ok f hs)
  | .xori f => okVia (exec_xori f s) (execXori_ok f hs)
  | .ori f => okVia (exec_ori f s) (execOri_ok f hs)
  | .andi f => okVia (exec_andi f s) (execAndi_ok f hs)
  | .slli f => okVia (exec_slli f s) (execSlli_ok f hs)
  | .srli f => okVia (exec_srli f s) (execSrli_ok f hs)
  | .srai f => okVia (exec_srai f s) (execSrai_ok f hs)
  | .add f => okVia (exec_add f s) (execAdd_ok f hs)
  | .sub f => okVia (exec_sub f s) (execSub_ok f hs)
  | .sll f => okVia (exec_sll f s) (execSll_ok f hs)
  | .slt f => okVia (exec_slt f s) (execSlt_ok f hs)
  | .sltu f => okVia (exec_sltu f s) (execSltu_ok f hs)
  | .xor f => okVia (exec_xor f s) (execXor_ok f hs)
  | .srl f => okVia (exec_srl f s) (execSrl_ok f hs)
  | .sra f => okVia (exec_sra f s) (execSra_ok f hs)
  | .or f => okVia (exec_or f s) (execOr_ok f hs)
  | .and f => okVia (exec_and f s) (execAnd_ok f hs)
  | .addiw f => okVia (exec_addiw f s) (execAddiw_ok f hs)
  | .slliw f => okVia (exec_slliw f s) (execSlliw_ok f hs)
  | .srliw f => okVia (exec_srliw f s) (execSrliw_ok f hs)
  | .sraiw f => okVia (exec_sraiw f s) (execSraiw_ok f hs)
  | .addw f => okVia (exec_addw f s) (execAddw_ok f hs)
  | .subw f => okVia (exec_subw f s) (execSubw_ok f hs)
  | .sllw f => okVia (exec_sllw f s) (execSllw_ok f hs)
  | .srlw f => okVia (exec_srlw f s) (execSrlw_ok f hs)
  | .sraw f => okVia (exec_sraw f s) (execSraw_ok f hs)
  | .lb f => okVia (exec_lb f s) (execLb_ok f hs)
  | .lh f => okVia (exec_lh f s) (execLh_ok f hs)
  | .lw f => okVia (exec_lw f s) (execLw_ok f hs)
  | .sld f => okVia (exec_sld f s) (execSld_ok f hs)
  | .lbu f => okVia (exec_lbu f s) (execLbu_ok f hs)
  | .lhu f => okVia (exec_lhu f s) (execLhu_ok f hs)
  | .lwu f => okVia (exec_lwu f s) (execLwu_ok f hs)
  | .sb f => okVia (exec_sb f s) (execSb_ok f hs)
  | .sh f => okVia (exec_sh f s) (execSh_ok f hs)
  | .sw f => okVia (exec_sw f s) (execSw_ok f hs)
  | .sd f => okVia (exec_sd f s) (execSd_ok f hs)
  | .fence f => okVia (exec_fence f s) (execFence_ok f hs)
  | .ecall => okVia (exec_ecall s) (execEcall_ok hs)
  | .ebreak => okVia (exec_ebreak s) (execEbreak_ok hs)
  | .mul f => okVia (exec_mul f s) (execMul_ok f hs)
  | .mulh f => okVia (exec_mulh f s) (execMulh_ok f hs)
  | .mulhsu f => okVia (exec_mulhsu f s) (execMulhsu_ok f hs)
  | .mulhu f => okVia (exec_mulhu f s) (execMulhu_ok f hs)
  | .div f => okVia (exec_div f s) (execDiv_ok f hs)
  | .divu f => okVia (exec_divu f s) (execDivu_ok f hs)
  | .rem f => okVia (exec_rem f s) (execRem_ok f hs)
  | .remu f => okVia (exec_remu f s) (execRemu_ok f hs)
  | .mulw f => okVia (exec_mulw f s) (execMulw_ok f hs)
  | .divw f => okVia (exec_divw f s) (execDivw_ok f hs)
  | .divuw f => okVia (exec_divuw f s) (execDivuw_ok f hs)
  | .remw f => okVia (exec_remw f s) (execRemw_ok f hs)
  | .remuw f => okVia (exec_remuw f s) (execRemuw_ok f hs)
  | .csrrw f => okVia (exec_csrrw f s) (execCsrrw_ok f hs)
  | .csrrs f => okVia (exec_csrrs f s) (execCsrrs_ok f hs)
  | .csrrc f => okVia (exec_csrrc f s) (execCsrrc_ok f hs)
  | .csrrwi f => okVia (exec_csrrwi f s) (execCsrrwi_ok f hs)
  | .csrrsi f => okVia (exec_csrrsi f s) (execCsrrsi_ok f hs)
  | .csrrci f => okVia (exec_csrrci f s) (execCsrrci_ok f hs)
  | .idle slot => okVia (exec_idle slot s) (execIdle_ok slot hs)
  | .vadd f => okVia (exec_vadd f s) (execVadd_ok f hs)
  | .vsub f => okVia (exec_vsub f s) (execVsub_ok f hs)
  | .vmul f => okVia (exec_vmul f s) (execVmul_ok f hs)
  | .vdiv f => okVia (exec_vdiv f s) (execVdiv_ok f hs)
  | .vmin f => okVia (exec_vmin f s) (execVmin_ok f hs)
  | .vmax f => okVia (exec_vmax f s) (execVmax_ok f hs)
  | .vabs f => okVia (exec_vabs f s) (execVabs_ok f hs)
  | .vneg f => okVia (exec_vneg f s) (execVneg_ok f hs)
  | .vfma f => okVia (exec_vfma f s) (execVfma_ok f hs)
  | .vfms f => okVia (exec_vfms f s) (execVfms_ok f hs)
  | .vsqrt f => okVia (exec_vsqrt f s) (execVsqrt_ok f hs)
  | .vrcp f => okVia (exec_vrcp f s) (execVrcp_ok f hs)
  | .vrsqrt f => okVia (exec_vrsqrt f s) (execVrsqrt_ok f hs)
  | .vexp2 f => okVia (exec_vexp2 f s) (execVexp2_ok f hs)
  | .vlog2 f => okVia (exec_vlog2 f s) (execVlog2_ok f hs)
  | .vand f => okVia (exec_vand f s) (execVand_ok f hs)
  | .vor f => okVia (exec_vor f s) (execVor_ok f hs)
  | .vxor f => okVia (exec_vxor f s) (execVxor_ok f hs)
  | .vnot f => okVia (exec_vnot f s) (execVnot_ok f hs)
  | .vshl f => okVia (exec_vshl f s) (execVshl_ok f hs)
  | .vshr f => okVia (exec_vshr f s) (execVshr_ok f hs)
  | .vsra f => okVia (exec_vsra f s) (execVsra_ok f hs)
  | .vadds f => okVia (exec_vadds f s) (execVadds_ok f hs)
  | .vsubs f => okVia (exec_vsubs f s) (execVsubs_ok f hs)
  | .vmulh f => okVia (exec_vmulh f s) (execVmulh_ok f hs)
  | .vbcast f => okVia (exec_vbcast f s) (execVbcast_ok f hs)
  | .vmovx f => okVia (exec_vmovx f s) (execVmovx_ok f hs)
  | .vmov f => okVia (exec_vmov f s) (execVmov_ok f hs)
  | .viota f => okVia (exec_viota f s) (execViota_ok f hs)
  | .vli f => okVia (exec_vli f s) (execVli_ok f hs)
  | .vcmpEq f => okVia (exec_vcmpEq f s) (execVcmpEq_ok f hs)
  | .vcmpNe f => okVia (exec_vcmpNe f s) (execVcmpNe_ok f hs)
  | .vcmpLt f => okVia (exec_vcmpLt f s) (execVcmpLt_ok f hs)
  | .vcmpLe f => okVia (exec_vcmpLe f s) (execVcmpLe_ok f hs)
  | .vcmpUn f => okVia (exec_vcmpUn f s) (execVcmpUn_ok f hs)
  | .vcmpLtu f => okVia (exec_vcmpLtu f s) (execVcmpLtu_ok f hs)
  | .vcmpLeu f => okVia (exec_vcmpLeu f s) (execVcmpLeu_ok f hs)
  | .vpand f => okVia (exec_vpand f s) (execVpand_ok f hs)
  | .vpor f => okVia (exec_vpor f s) (execVpor_ok f hs)
  | .vpxor f => okVia (exec_vpxor f s) (execVpxor_ok f hs)
  | .vpnot f => okVia (exec_vpnot f s) (execVpnot_ok f hs)
  | .vpset f => okVia (exec_vpset f s) (execVpset_ok f hs)
  | .vpcnt f => okVia (exec_vpcnt f s) (execVpcnt_ok f hs)
  | .vpfirst f => okVia (exec_vpfirst f s) (execVpfirst_ok f hs)
  | .vsel f => okVia (exec_vsel f s) (execVsel_ok f hs)
  | .vperm f => okVia (exec_vperm f s) (execVperm_ok f hs)
  | .vslideup f => okVia (exec_vslideup f s) (execVslideup_ok f hs)
  | .vslidedn f => okVia (exec_vslidedn f s) (execVslidedn_ok f hs)
  | .vzip f => okVia (exec_vzip f s) (execVzip_ok f hs)
  | .vunzip f => okVia (exec_vunzip f s) (execVunzip_ok f hs)
  | .vcompress f => okVia (exec_vcompress f s) (execVcompress_ok f hs)
  | .vexpand f => okVia (exec_vexpand f s) (execVexpand_ok f hs)
  | .vredsum f => okVia (exec_vredsum f s) (execVredsum_ok f hs)
  | .vredmax f => okVia (exec_vredmax f s) (execVredmax_ok f hs)
  | .vredmin f => okVia (exec_vredmin f s) (execVredmin_ok f hs)
  | .vscansum f => okVia (exec_vscansum f s) (execVscansum_ok f hs)
  | .vscanmax f => okVia (exec_vscanmax f s) (execVscanmax_ok f hs)
  | .vargmax f => okVia (exec_vargmax f s) (execVargmax_ok f hs)
  | .vbitonic f => okVia (exec_vbitonic f s) (execVbitonic_ok f hs)
  | .vmulL6 f => okVia (exec_vmulL6 f s) (execVmulL6_ok f hs)
  | .vdotL6 f => okVia (exec_vdotL6 f s) (execVdotL6_ok f hs)
  | .vrand f => okVia (exec_vrand f s) (execVrand_ok f hs)
  | .vld f => okVia (exec_vld f s) (execVld_ok f hs)
  | .vst f => okVia (exec_vst f s) (execVst_ok f hs)
  | .vstm f => okVia (exec_vstm f s) (execVstm_ok f hs)
  | .vgather f => okVia (exec_vgather f s) (execVgather_ok f hs)
  | .vscatter f => okVia (exec_vscatter f s) (execVscatter_ok f hs)
  | .ld f => okVia (exec_ld f s) (execLd_ok f hs)
  | .st f => okVia (exec_st f s) (execSt_ok f hs)
  | .ldSc f => okVia (exec_ldSc f s) (execLdSc_ok f hs)
  | .stSc f => okVia (exec_stSc f s) (execStSc_ok f hs)
  | .vpref f => okVia (exec_vpref f s) (execVpref_ok f hs)
  | .amoadd f => okVia (exec_amoadd f s) (execAmoadd_ok f hs)
  | .amomin f => okVia (exec_amomin f s) (execAmomin_ok f hs)
  | .amomax f => okVia (exec_amomax f s) (execAmomax_ok f hs)
  | .amominu f => okVia (exec_amominu f s) (execAmominu_ok f hs)
  | .amomaxu f => okVia (exec_amomaxu f s) (execAmomaxu_ok f hs)
  | .amoand f => okVia (exec_amoand f s) (execAmoand_ok f hs)
  | .amoor f => okVia (exec_amoor f s) (execAmoor_ok f hs)
  | .amoxor f => okVia (exec_amoxor f s) (execAmoxor_ok f hs)
  | .amoswap f => okVia (exec_amoswap f s) (execAmoswap_ok f hs)
  | .amocas f => okVia (exec_amocas f s) (execAmocas_ok f hs)
  | .amoSc f => okVia (exec_amoSc f s) (execAmoSc_ok f hs)
  | .lda f => okVia (exec_lda f s) (execLda_ok f hs)
  | .stl f => okVia (exec_stl f s) (execStl_ok f hs)
  | .vfence f => okVia (exec_vfence f s) (execVfence_ok f hs)
  | .cflush f => okVia (exec_cflush f s) (execCflush_ok f hs)
  | .vamoadd f => okVia (exec_vamoadd f s) (execVamoadd_ok f hs)
  | .vamomin f => okVia (exec_vamomin f s) (execVamomin_ok f hs)
  | .vamomax f => okVia (exec_vamomax f s) (execVamomax_ok f hs)
  | .vredst f => okVia (exec_vredst f s) (execVredst_ok f hs)
  | .cldh f => okVia (exec_cldh f s) (execCldh_ok f hs)
  | .csth f => okVia (exec_csth f s) (execCsth_ok f hs)
  | .cnarrow f => okVia (exec_cnarrow f s) (execCnarrow_ok f hs)
  | .cget f => okVia (exec_cget f s) (execCget_ok f hs)
  | .cmov f => okVia (exec_cmov f s) (execCmov_ok f hs)
  | .cclr ha => okVia (exec_cclr ha s) (execCclr_ok ha hs)
  | .binit f => okVia (exec_binit f s) (execBinit_ok f hs)
  | .blink f => okVia (exec_blink f s) (execBlink_ok f hs)
  | .barrive f => okVia (exec_barrive f s) (execBarrive_ok f hs)
  | .bwaitp f => okVia (exec_bwaitp f s) (execBwaitp_ok f hs)
  | .oclaim os => okVia (exec_oclaim os s) (execOclaim_ok os hs)
  | .orelease os => okVia (exec_orelease os s) (execOrelease_ok os hs)
  | .oload f => okVia (exec_oload f s) (execOload_ok f hs)
  | .wload f => okVia (exec_wload f s) (execWload_ok f hs)
  | .mzero f => okVia (exec_mzero f s) (execMzero_ok f hs)
  | .mmov f => okVia (exec_mmov f s) (execMmov_ok f hs)
  | .mrd f => okVia (exec_mrd f s) (execMrd_ok f hs)
  | .mwr f => okVia (exec_mwr f s) (execMwr_ok f hs)
  | .mmaF64 f => okVia (exec_mmaF64 f s) (execMmaF64_ok f hs)
  | .mmaF32 f => okVia (exec_mmaF32 f s) (execMmaF32_ok f hs)
  | .mmaBf16 f => okVia (exec_mmaBf16 f s) (execMmaBf16_ok f hs)
  | .mmaF16 f => okVia (exec_mmaF16 f s) (execMmaF16_ok f hs)
  | .mmaI8 f => okVia (exec_mmaI8 f s) (execMmaI8_ok f hs)
  | .mmaI4 f => okVia (exec_mmaI4 f s) (execMmaI4_ok f hs)
  | .mmaL6 f => okVia (exec_mmaL6 f s) (execMmaL6_ok f hs)
  | .mmaS24 f => okVia (exec_mmaS24 f s) (execMmaS24_ok f hs)
  | .mmaS14 f => okVia (exec_mmaS14 f s) (execMmaS14_ok f hs)
  | .mlrset f => okVia (exec_mlrset f s) (execMlrset_ok f hs)
  | .mlrmul f => okVia (exec_mlrmul f s) (execMlrmul_ok f hs)
  | .mlrdm f => okVia (exec_mlrdm f s) (execMlrdm_ok f hs)
  | .mdmlr f => okVia (exec_mdmlr f s) (execMdmlr_ok f hs)
  | .mlradd f => okVia (exec_mlradd f s) (execMlradd_ok f hs)
  | .mrecomp f => okVia (exec_mrecomp f s) (execMrecomp_ok f hs)
  | .mdense f => okVia (exec_mdense f s) (execMdense_ok f hs)
  | .mrank f => okVia (exec_mrank f s) (execMrank_ok f hs)
  | .mbflyC64 f => okVia (exec_mbflyC64 f s) (execMbflyC64_ok f hs)
  | .mbflyC128 f => okVia (exec_mbflyC128 f s) (execMbflyC128_ok f hs)
  | .mbrev f => okVia (exec_mbrev f s) (execMbrev_ok f hs)
  | .mtwmulC64 f => okVia (exec_mtwmulC64 f s) (execMtwmulC64_ok f hs)
  | .mtwmulC128 f => okVia (exec_mtwmulC128 f s) (execMtwmulC128_ok f hs)
  | .cjob f => okVia (exec_cjob f s) (execCjob_ok f hs)
  | .cjobv f => okVia (exec_cjobv f s) (execCjobv_ok f hs)
  | .cwpe f => okVia (exec_cwpe f s) (execCwpe_ok f hs)
  | .cquery f => okVia (exec_cquery f s) (execCquery_ok f hs)
  | .ccancel xa => okVia (exec_ccancel xa s) (execCcancel_ok xa hs)
  | .csignal f => okVia (exec_csignal f s) (execCsignal_ok f hs)
  | .cfence => okVia (exec_cfence s) (execCfence_ok hs)
  | .xexpS24 f => okVia (exec_xexpS24 f s) (execXexpS24_ok f hs)
  | .xexpS14 f => okVia (exec_xexpS14 f s) (execXexpS14_ok f hs)
  | .xunpkL6 f => okVia (exec_xunpkL6 f s) (execXunpkL6_ok f hs)
  | .xunpkI4 f => okVia (exec_xunpkI4 f s) (execXunpkI4_ok f hs)
  | .xpackL6 f => okVia (exec_xpackL6 f s) (execXpackL6_ok f hs)
  | .xpackI4 f => okVia (exec_xpackI4 f s) (execXpackI4_ok f hs)
  | .xtr f => okVia (exec_xtr f s) (execXtr_ok f hs)
  | .xcvt f => okVia (exec_xcvt f s) (execXcvt_ok f hs)
  | .xscale xs => okVia (exec_xscale xs s) (execXscale_ok xs hs)
  | .xscalei imm => okVia (exec_xscalei imm s) (execXscalei_ok imm hs)
  | .fmtShadowExpiry n => okVia (exec_fmtShadowExpiry n s) (execFmtShadowExpiry_ok n hs)
  | .superstepRelease lid => okVia (exec_superstepRelease lid s) (execSuperstepRelease_ok lid hs)
  | .taskEnd n => okVia (exec_taskEnd n s) (execTaskEnd_ok n hs)
  | .tretResume n => okVia (exec_tretResume n s) (execTretResume_ok n hs)
  | .repeatIssue n => okVia (exec_repeatIssue n s) (execRepeatIssue_ok n hs)
  | .segmentMark n => okVia (exec_segmentMark n s) (execSegmentMark_ok n hs)
  | .overlaySegmentLanded n => okVia (exec_overlaySegmentLanded n s) (execOverlaySegmentLanded_ok n hs)
  | .scWheelIssue n => okVia (exec_scWheelIssue n s) (execScWheelIssue_ok n hs)
  | .barrierAnswer n => okVia (exec_barrierAnswer n s) (execBarrierAnswer_ok n hs)
  | .barrierArrivalReceived k => okVia (exec_barrierArrivalReceived k s) (execBarrierArrivalReceived_ok k hs)
  | .barrierFlipReceived k => okVia (exec_barrierFlipReceived k s) (execBarrierFlipReceived_ok k hs)
  | .wloadBlockArrival n os => okVia (exec_wloadBlockArrival n os s) (execWloadBlockArrival_ok n os hs)
  | .wloadFillExpiry n os => okVia (exec_wloadFillExpiry n os s) (execWloadFillExpiry_ok n os hs)
  | .engineOpStart n => okVia (exec_engineOpStart n s) (execEngineOpStart_ok n hs)
  | .portBlock n => okVia (exec_portBlock n s) (execPortBlock_ok n hs)
  | .engineRetire n => okVia (exec_engineRetire n s) (execEngineRetire_ok n hs)
  | .jobStart j => okVia (exec_jobStart j s) (execJobStart_ok j hs)
  | .copyRow j => okVia (exec_copyRow j s) (execCopyRow_ok j hs)
  | .jobComplete j => okVia (exec_jobComplete j s) (execJobComplete_ok j hs)
  | .wpeBuildStart j => okVia (exec_wpeBuildStart j s) (execWpeBuildStart_ok j hs)
  | .wpePulseIteration j ok => okVia (exec_wpePulseIteration j ok s) (execWpePulseIteration_ok j ok hs)
  | .wpeSlotRelease bank slot => okVia (exec_wpeSlotRelease bank slot s) (execWpeSlotRelease_ok bank slot hs)
  | .xscaleExecute n => okVia (exec_xscaleExecute n s) (execXscaleExecute_ok n hs)
  | .resultWriteback n => okVia (exec_resultWriteback n s) (execResultWriteback_ok n hs)
  | .landingCountExpiry n => okVia (exec_landingCountExpiry n s) (execLandingCountExpiry_ok n hs)
  | .landingDataArrival n k verdict => okVia (exec_landingDataArrival n k verdict s) (execLandingDataArrival_ok n k verdict hs)
  | .storeAck n id => okVia (exec_storeAck n id s) (execStoreAck_ok n id hs)
  | .homeAtomicExecute n id => okVia (exec_homeAtomicExecute n id s) (execHomeAtomicExecute_ok n id hs)
  | .stampedMessageDelivery k => okVia (exec_stampedMessageDelivery k s) (execStampedMessageDelivery_ok k hs)
  | .directoryInvalidate clu line => okVia (exec_directoryInvalidate clu line s) (execDirectoryInvalidate_ok clu line hs)
  | .memoryFaultFound site cond => okVia (exec_memoryFaultFound site cond s) (execMemoryFaultFound_ok site cond hs)
  | .trapEntry n => okVia (exec_trapEntry n s) (execTrapEntry_ok n hs)
  | .preempt n => okVia (exec_preempt n s) (execPreempt_ok n hs)
  | .saveComplete n => okVia (exec_saveComplete n s) (execSaveComplete_ok n hs)
  | .taskRestore uid n => okVia (exec_taskRestore uid n s) (execTaskRestore_ok uid n hs)
  | .scheduleReadyTask die => okVia (exec_scheduleReadyTask die s) (execScheduleReadyTask_ok die hs)
  | .queueSignal q => okVia (exec_queueSignal q s) (execQueueSignal_ok q hs)
  | .queueRemap die => okVia (exec_queueRemap die s) (execQueueRemap_ok die hs)
  | .queueIdleTimeout q => okVia (exec_queueIdleTimeout q s) (execQueueIdleTimeout_ok q hs)
  | .queueRestart q => okVia (exec_queueRestart q s) (execQueueRestart_ok q hs)
  | .packetDispatch die => okVia (exec_packetDispatch die s) (execPacketDispatch_ok die hs)
  | .launch pid => okVia (exec_launch pid s) (execLaunch_ok pid hs)
  | .copy pid => okVia (exec_copy pid s) (execCopy_ok pid hs)
  | .barrier pid => okVia (exec_barrier pid s) (execBarrier_ok pid hs)
  | .node pid => okVia (exec_node pid s) (execNode_ok pid hs)
  | .selftest pid => okVia (exec_selftest pid s) (execSelftest_ok pid hs)
  | .fencePacket pid => okVia (exec_fencePacket pid s) (execFencePacket_ok pid hs)
  | .packetComplete pid => okVia (exec_packetComplete pid s) (execPacketComplete_ok pid hs)
  | .indexClaim die pid => okVia (exec_indexClaim die pid s) (execIndexClaim_ok die pid hs)
  | .gangStart pid level group => okVia (exec_gangStart pid level group s) (execGangStart_ok pid level group hs)
  | .indexReturnTimeout die pid => okVia (exec_indexReturnTimeout die pid s) (execIndexReturnTimeout_ok die pid hs)
  | .launchComplete pid => okVia (exec_launchComplete pid s) (execLaunchComplete_ok pid hs)
  | .selftestComplete n fail => okVia (exec_selftestComplete n fail s) (execSelftestComplete_ok n fail hs)
  | .waySurrender clu => okVia (exec_waySurrender clu s) (execWaySurrender_ok clu hs)
  | .wayReturn clu => okVia (exec_wayReturn clu s) (execWayReturn_ok clu hs)
  | .waypWrite clu v => okVia (exec_waypWrite clu v s) (execWaypWrite_ok clu v hs)
  | .wrgnWrite die r hi v => okVia (exec_wrgnWrite die r hi v s) (execWrgnWrite_ok die r hi v hs)
  | .regionSealComplete die r => okVia (exec_regionSealComplete die r s) (execRegionSealComplete_ok die r hs)
  | .qdbaseWrite die v => okVia (exec_qdbaseWrite die v s) (execQdbaseWrite_ok die v hs)
  | .qsigbaseWrite die v => okVia (exec_qsigbaseWrite die v s) (execQsigbaseWrite_ok die v hs)
  | .fabidWrite v => okVia (exec_fabidWrite v s) (execFabidWrite_ok v hs)
  | .fportEnWrite die p v => okVia (exec_fportEnWrite die p v s) (execFportEnWrite_ok die p v hs)
  | .fabricLinkUp die p peer comp => okVia (exec_fabricLinkUp die p peer comp s) (execFabricLinkUp_ok die p peer comp hs)
  | .fabricTagFailure die p => okVia (exec_fabricTagFailure die p s) (execFabricTagFailure_ok die p hs)
  | .streamRekey die p => okVia (exec_streamRekey die p s) (execStreamRekey_ok die p hs)
  | .pcapWrite v => okVia (exec_pcapWrite v s) (execPcapWrite_ok v hs)
  | .pcapWindow pwr amps => okVia (exec_pcapWindow pwr amps s) (execPcapWindow_ok pwr amps hs)
  | .vcoreOvercurrent amps => okVia (exec_vcoreOvercurrent amps s) (execVcoreOvercurrent_ok amps hs)
  | .mcErrorRecord die bank e => okVia (exec_mcErrorRecord die bank e s) (execMcErrorRecord_ok die bank e hs)
  | .threshWindowEnd die bank => okVia (exec_threshWindowEnd die bank s) (execThreshWindowEnd_ok die bank hs)
  | .mcStatusClear die bank v => okVia (exec_mcStatusClear die bank v s) (execMcStatusClear_ok die bank v hs)
  | .datapathCheckFail n slot synd => okVia (exec_datapathCheckFail n slot synd s) (execDatapathCheckFail_ok n slot synd hs)
  | .coreFence n => okVia (exec_coreFence n s) (execCoreFence_ok n hs)
  | .coreReturnToService n => okVia (exec_coreReturnToService n s) (execCoreReturnToService_ok n hs)
  | .lockstepMismatch die pcs => okVia (exec_lockstepMismatch die pcs s) (execLockstepMismatch_ok die pcs hs)
  | .lockstepReplayComplete die => okVia (exec_lockstepReplayComplete die s) (execLockstepReplayComplete_ok die hs)
  | .dieLost die => okVia (exec_dieLost die s) (execDieLost_ok die hs)
  | .packageLost pkg => okVia (exec_packageLost pkg s) (execPackageLost_ok pkg hs)
  | .ownerEntryEffect k => okVia (exec_ownerEntryEffect k s) (execOwnerEntryEffect_ok k hs)
  | .hostBarAccess a => okVia (exec_hostBarAccess a s) (execHostBarAccess_ok a hs)
  | .controlRegisterWrite die off v => okVia (exec_controlRegisterWrite die off v s) (execControlRegisterWrite_ok die off v hs)
  | .getVersion => okVia (exec_getVersion s) (execGetVersion_ok hs)
  | .getCapabilities => okVia (exec_getCapabilities s) (execGetCapabilities_ok hs)
  | .negotiateAlgorithms => okVia (exec_negotiateAlgorithms s) (execNegotiateAlgorithms_ok hs)
  | .getDigests => okVia (exec_getDigests s) (execGetDigests_ok hs)
  | .getCertificate => okVia (exec_getCertificate s) (execGetCertificate_ok hs)
  | .challenge nonce => okVia (exec_challenge nonce s) (execChallenge_ok nonce hs)
  | .getMeasurements index => okVia (exec_getMeasurements index s) (execGetMeasurements_ok index hs)
  | .keyExchange => okVia (exec_keyExchange s) (execKeyExchange_ok hs)
  | .finish => okVia (exec_finish s) (execFinish_ok hs)
  | .keyUpdate => okVia (exec_keyUpdate s) (execKeyUpdate_ok hs)
  | .endSession => okVia (exec_endSession s) (execEndSession_ok hs)
  | .ideKm stream owner => okVia (exec_ideKm stream owner s) (execIdeKm_ok stream owner hs)
  | .create => okVia (exec_create s) (execCreate_ok hs)
  | .assign ctx what => okVia (exec_assign ctx what s) (execAssign_ok ctx what hs)
  | .saveArea ctx cap spadlen => okVia (exec_saveArea ctx cap spadlen s) (execSaveArea_ok ctx cap spadlen hs)
  | .report ctx nonce => okVia (exec_report ctx nonce s) (execReport_ok ctx nonce hs)
  | .teardown ctx => okVia (exec_teardown ctx s) (execTeardown_ok ctx hs)
  | .resume ctx => okVia (exec_resume ctx s) (execResume_ok ctx hs)
  | .mctpControl bus => okVia (exec_mctpControl bus s) (execMctpControl_ok bus hs)
  | .pldmMonitoring bus => okVia (exec_pldmMonitoring bus s) (execPldmMonitoring_ok bus hs)
  | .imageTransfer bus digest => okVia (exec_imageTransfer bus digest s) (execImageTransfer_ok bus digest hs)
  | .capRead bus => okVia (exec_capRead bus s) (execCapRead_ok bus hs)
  | .capWrite bus v => okVia (exec_capWrite bus v s) (execCapWrite_ok bus v hs)
  | .fabricKeyExchange x => okVia (exec_fabricKeyExchange x s) (execFabricKeyExchange_ok x hs)
  | .linkReset => okVia (exec_linkReset s) (execLinkReset_ok hs)
  | .warmReset => okVia (exec_warmReset s) (execWarmReset_ok hs)
  | .coldReset => okVia (exec_coldReset s) (execColdReset_ok hs)
  | .hostLinkUp => okVia (exec_hostLinkUp s) (execHostLinkUp_ok hs)
  | .powerLoss writing => okVia (exec_powerLoss writing s) (execPowerLoss_ok writing hs)
  | .louverResourceDone die => okVia (exec_louverResourceDone die s) (execLouverResourceDone_ok die hs)
  | .regionRehashComplete die => okVia (exec_regionRehashComplete die s) (execRegionRehashComplete_ok die hs)

end Sys2Proof.Machine
end

