-- ==== Sys2Proof/Laws/Ops.lean ====
section
/-! SUPPORT. What each shared operation can answer: with no mark among its operands and its own checks passed, its effect;
else the entry of one trap. Statements cite these and unfold none of the shapes. -/

namespace Sys2Proof.Machine

open Host (Outcome)

/-! ### Slot operations on the core -/

theorem slotOp_clean {i : Instr} {s : State} {k : Core → Except Fail Core} {c : Core} (h : s.poisonTrap i 0 = none)
    (hk : k s.cur = .ok c) : slotOp i s k = .next (s.setCur c) := by
  unfold slotOp; rw [h]; simp only; rw [hk]

theorem slotOp_poison {i : Instr} {s : State} {k : Core → Except Fail Core} {t : Trap} (h : s.poisonTrap i 0 = some t) :
    slotOp i s k = .next (s.raise t) := by
  unfold slotOp; rw [h]

theorem slotOp_fail {i : Instr} {s : State} {k : Core → Except Fail Core} {e : Fail} (h : s.poisonTrap i 0 = none)
    (hk : k s.cur = .error e) : slotOp i s k = s.trap e.cause e.tval := by
  unfold slotOp; rw [h]; simp only; rw [hk]

/-- All that a slot operation can do. -/
theorem slotOp_cases {i : Instr} {s t : State} {k : Core → Except Fail Core} (h : slotOp i s k = .next t) :
    (∃ p, s.poisonTrap i 0 = some p ∧ t = s.raise p) ∨
      (∃ c, s.poisonTrap i 0 = none ∧ k s.cur = .ok c ∧ t = s.setCur c) ∨
      (∃ e, s.poisonTrap i 0 = none ∧ k s.cur = .error e ∧ t = s.raise (mkTrap e.cause e.tval s.iss.slot s.cur)) := by
  unfold slotOp at h
  cases hp : s.poisonTrap i 0 with
  | some p => rw [hp] at h; exact .inl ⟨p, rfl, (Outcome.next.inj h).symm⟩
  | none =>
    rw [hp] at h
    cases hk : k s.cur with
    | ok c => simp only [hk] at h; exact .inr (.inl ⟨c, rfl, rfl, (Outcome.next.inj h).symm⟩)
    | error e => simp only [hk, State.trap] at h; exact .inr (.inr ⟨e, rfl, rfl, (Outcome.next.inj h).symm⟩)

/-! ### Slot operations on the state -/

theorem slotOpS_clean {i : Instr} {s t : State} {k : State → Core → Except Fail State} (h : s.poisonTrap i 0 = none)
    (hk : k s s.cur = .ok t) : slotOpS i s k = .next t := by
  unfold slotOpS; rw [h]; simp only; rw [hk]

theorem slotOpS_poison {i : Instr} {s : State} {k : State → Core → Except Fail State} {t : Trap}
    (h : s.poisonTrap i 0 = some t) : slotOpS i s k = .next (s.raise t) := by
  unfold slotOpS; rw [h]

theorem slotOpS_fail {i : Instr} {s : State} {k : State → Core → Except Fail State} {e : Fail}
    (h : s.poisonTrap i 0 = none) (hk : k s s.cur = .error e) : slotOpS i s k = s.trap e.cause e.tval := by
  unfold slotOpS; rw [h]; simp only; rw [hk]

/-- All that a slot operation over the state can do. -/
theorem slotOpS_cases {i : Instr} {s t : State} {k : State → Core → Except Fail State} (h : slotOpS i s k = .next t) :
    (∃ p, s.poisonTrap i 0 = some p ∧ t = s.raise p) ∨
      (s.poisonTrap i 0 = none ∧ k s s.cur = .ok t) ∨
      (∃ e, s.poisonTrap i 0 = none ∧ k s s.cur = .error e ∧ t = s.raise (mkTrap e.cause e.tval s.iss.slot s.cur)) := by
  unfold slotOpS at h
  cases hp : s.poisonTrap i 0 with
  | some p => rw [hp] at h; exact .inl ⟨p, rfl, (Outcome.next.inj h).symm⟩
  | none =>
    rw [hp] at h
    cases hk : k s s.cur with
    | ok c => simp only [hk] at h; exact .inr (.inl ⟨rfl, congrArg _ (Outcome.next.inj h)⟩)
    | error e => simp only [hk, State.trap] at h; exact .inr (.inr ⟨e, rfl, rfl, (Outcome.next.inj h).symm⟩)

/-! ### B-slot operations -/

theorem branchOp_clean {i : Instr} {s : State} {k : State → Core → Outcome State Fault Refusal}
    (h : s.poisonTrap i 0 = none) : branchOp i s k = k s s.cur := by
  unfold branchOp; rw [h]

theorem branchOp_poison {i : Instr} {s : State} {k : State → Core → Outcome State Fault Refusal} {t : Trap}
    (h : s.poisonTrap i 0 = some t) : branchOp i s k = .next (s.raise t) := by
  unfold branchOp; rw [h]

/-! ### M-slot operations -/

/-- R79, R80: the literal consumed, MPC moves on. -/
def State.literalUsed (s t : State) : State := t.setCur { t.cur with c := { t.cur.c with mpc := mpcNext s.cur.c.mpc } }

theorem matOpL_clean {i : Instr} {s t : State} {marks : Core → Word → List Holder}
    {k : State → Core → Word → Except Fail State} (h : s.poisonTrap i s.literal = none) (hb : s.mpcBad s.cur = false)
    (ho : s.overlayConflict s.cur = false) (hk : k s s.cur s.literal = .ok t) (hm : marks s.cur s.literal = []) :
    matOpL i s marks k = .next (s.literalUsed t) := by
  simp [matOpL, h, hb, ho, hk, hm, State.literalUsed]

theorem matOp_clean {i : Instr} {s t : State} {k : State → Core → Word → Except Fail State}
    (h : s.poisonTrap i s.literal = none) (hb : s.mpcBad s.cur = false) (ho : s.overlayConflict s.cur = false)
    (hk : k s s.cur s.literal = .ok t) : matOp i s k = .next (s.literalUsed t) :=
  matOpL_clean h hb ho hk rfl

theorem matOpL_poison {i : Instr} {s : State} {marks : Core → Word → List Holder}
    {k : State → Core → Word → Except Fail State} {t : Trap} (h : s.poisonTrap i s.literal = some t) :
    matOpL i s marks k = .next (s.raise t) := by
  simp [matOpL, h]

/-- All that an M-slot operation can do. -/
theorem matOpL_cases {i : Instr} {s t : State} {marks : Core → Word → List Holder}
    {k : State → Core → Word → Except Fail State} (h : matOpL i s marks k = .next t) :
    (∃ p, t = s.raise p) ∨ ∃ t', k s s.cur s.literal = .ok t' ∧ t = s.literalUsed t' := by
  simp only [matOpL] at h
  cases hp : s.poisonTrap i s.literal with
  | some p => rw [hp] at h; exact .inl ⟨p, (Outcome.next.inj h).symm⟩
  | none =>
    rw [hp] at h
    simp only at h
    split at h
    · exact .inl ⟨_, (Outcome.next.inj h).symm⟩
    · split at h
      · exact .inl ⟨_, (Outcome.next.inj h).symm⟩
      · split at h
        · exact .inl ⟨_, (Outcome.next.inj h).symm⟩
        · exact .inl ⟨_, (Outcome.next.inj h).symm⟩
        · next hk _ => exact .inr ⟨_, hk, (Outcome.next.inj h).symm⟩

/-! ### What a trap's entry leaves in the issue -/

@[simp] theorem State.raise_raised (s : State) (t : Trap) : (s.raise t).iss.raised = some t := rfl

end Sys2Proof.Machine
end

