-- ==== Sys2Proof/Laws/State.lean ====
section
/-! SUPPORT. What each update of a record leaves, one lemma a field, true by unfolding the update once: the updates of the
state by a core or a part of the device, and those of a core by a result, flags, a tile, a slot, a standing operation. -/

namespace Sys2Proof.Machine

/-! ### The state -/

@[simp] theorem State.setCore_mem (s : State) (n : Nat) (c : Core) : (s.setCore n c).mem = s.mem := rfl
@[simp] theorem State.setCore_tags (s : State) (n : Nat) (c : Core) : (s.setCore n c).tags = s.tags := rfl
@[simp] theorem State.setCore_marks (s : State) (n : Nat) (c : Core) : (s.setCore n c).marks = s.marks := rfl
@[simp] theorem State.setCore_dev (s : State) (n : Nat) (c : Core) : (s.setCore n c).dev = s.dev := rfl
@[simp] theorem State.setCore_wheel (s : State) (n : Nat) (c : Core) : (s.setCore n c).wheel = s.wheel := rfl
@[simp] theorem State.setCore_free (s : State) (n : Nat) (c : Core) : (s.setCore n c).free = s.free := rfl
@[simp] theorem State.setCore_agenda (s : State) (n : Nat) (c : Core) : (s.setCore n c).agenda = s.agenda := rfl
@[simp] theorem State.setCore_turns (s : State) (n : Nat) (c : Core) : (s.setCore n c).turns = s.turns := rfl
@[simp] theorem State.setCore_iss (s : State) (n : Nat) (c : Core) : (s.setCore n c).iss = s.iss := rfl
@[simp] theorem State.setCur_mem (s : State) (c : Core) : (s.setCur c).mem = s.mem := rfl
@[simp] theorem State.setCur_tags (s : State) (c : Core) : (s.setCur c).tags = s.tags := rfl
@[simp] theorem State.setCur_marks (s : State) (c : Core) : (s.setCur c).marks = s.marks := rfl
@[simp] theorem State.setCur_dev (s : State) (c : Core) : (s.setCur c).dev = s.dev := rfl
@[simp] theorem State.setCur_wheel (s : State) (c : Core) : (s.setCur c).wheel = s.wheel := rfl
@[simp] theorem State.setCur_free (s : State) (c : Core) : (s.setCur c).free = s.free := rfl
@[simp] theorem State.setCur_agenda (s : State) (c : Core) : (s.setCur c).agenda = s.agenda := rfl
@[simp] theorem State.setCur_turns (s : State) (c : Core) : (s.setCur c).turns = s.turns := rfl
@[simp] theorem State.setCur_iss (s : State) (c : Core) : (s.setCur c).iss = s.iss := rfl

/-! ### `State.setMs` -/

@[simp] theorem State.setMs_mem (s : State) (v : MemSys) : (s.setMs v).mem = s.mem := rfl
@[simp] theorem State.setMs_tags (s : State) (v : MemSys) : (s.setMs v).tags = s.tags := rfl
@[simp] theorem State.setMs_marks (s : State) (v : MemSys) : (s.setMs v).marks = s.marks := rfl
@[simp] theorem State.setMs_cores (s : State) (v : MemSys) : (s.setMs v).cores = s.cores := rfl
@[simp] theorem State.setMs_wheel (s : State) (v : MemSys) : (s.setMs v).wheel = s.wheel := rfl
@[simp] theorem State.setMs_free (s : State) (v : MemSys) : (s.setMs v).free = s.free := rfl
@[simp] theorem State.setMs_agenda (s : State) (v : MemSys) : (s.setMs v).agenda = s.agenda := rfl
@[simp] theorem State.setMs_turns (s : State) (v : MemSys) : (s.setMs v).turns = s.turns := rfl
@[simp] theorem State.setMs_iss (s : State) (v : MemSys) : (s.setMs v).iss = s.iss := rfl
@[simp] theorem State.setMs_dev_ms (s : State) (v : MemSys) : (s.setMs v).dev.ms = v := rfl
@[simp] theorem State.setMs_dev_owners (s : State) (v : MemSys) : (s.setMs v).dev.owners = s.dev.owners := rfl
@[simp] theorem State.setMs_dev_keys (s : State) (v : MemSys) : (s.setMs v).dev.keys = s.dev.keys := rfl
@[simp] theorem State.setMs_dev_wt (s : State) (v : MemSys) : (s.setMs v).dev.wt = s.dev.wt := rfl
@[simp] theorem State.setMs_dev_link (s : State) (v : MemSys) : (s.setMs v).dev.link = s.dev.link := rfl
@[simp] theorem State.setMs_dev_bars (s : State) (v : MemSys) : (s.setMs v).dev.bars = s.dev.bars := rfl
@[simp] theorem State.setMs_dev_barMsgs (s : State) (v : MemSys) : (s.setMs v).dev.barMsgs = s.dev.barMsgs := rfl
@[simp] theorem State.setMs_dev_nextBar (s : State) (v : MemSys) : (s.setMs v).dev.nextBar = s.dev.nextBar := rfl
@[simp] theorem State.setMs_dev_lost (s : State) (v : MemSys) : (s.setMs v).dev.lost = s.dev.lost := rfl
@[simp] theorem State.setMs_dev_mc (s : State) (v : MemSys) : (s.setMs v).dev.mc = s.dev.mc := rfl
@[simp] theorem State.setMs_dev_msi (s : State) (v : MemSys) : (s.setMs v).dev.msi = s.dev.msi := rfl
@[simp] theorem State.setMs_dev_jobs (s : State) (v : MemSys) : (s.setMs v).dev.jobs = s.dev.jobs := rfl
@[simp] theorem State.setMs_dev_nextJob (s : State) (v : MemSys) : (s.setMs v).dev.nextJob = s.dev.nextJob := rfl
@[simp] theorem State.setMs_dev_sched (s : State) (v : MemSys) : (s.setMs v).dev.sched = s.dev.sched := rfl
@[simp] theorem State.setMs_dev_prot (s : State) (v : MemSys) : (s.setMs v).dev.prot = s.dev.prot := rfl
@[simp] theorem State.setMs_dev_replies (s : State) (v : MemSys) : (s.setMs v).dev.replies = s.dev.replies := rfl
@[simp] theorem State.setMs_dev_boot (s : State) (v : MemSys) : (s.setMs v).dev.boot = s.dev.boot := rfl
@[simp] theorem State.setMs_dev_flash (s : State) (v : MemSys) : (s.setMs v).dev.flash = s.dev.flash := rfl
@[simp] theorem State.setMs_dev_power (s : State) (v : MemSys) : (s.setMs v).dev.power = s.dev.power := rfl
@[simp] theorem State.setMs_core (s : State) (v : MemSys) (n : Nat) : (s.setMs v).core n = s.core n := rfl
@[simp] theorem State.setMs_byte (s : State) (v : MemSys) (k : Nat) : (s.setMs v).byte k = s.byte k := rfl

/-! ### `State.setSched` -/

@[simp] theorem State.setSched_mem (s : State) (v : Sched) : (s.setSched v).mem = s.mem := rfl
@[simp] theorem State.setSched_tags (s : State) (v : Sched) : (s.setSched v).tags = s.tags := rfl
@[simp] theorem State.setSched_marks (s : State) (v : Sched) : (s.setSched v).marks = s.marks := rfl
@[simp] theorem State.setSched_cores (s : State) (v : Sched) : (s.setSched v).cores = s.cores := rfl
@[simp] theorem State.setSched_wheel (s : State) (v : Sched) : (s.setSched v).wheel = s.wheel := rfl
@[simp] theorem State.setSched_free (s : State) (v : Sched) : (s.setSched v).free = s.free := rfl
@[simp] theorem State.setSched_agenda (s : State) (v : Sched) : (s.setSched v).agenda = s.agenda := rfl
@[simp] theorem State.setSched_turns (s : State) (v : Sched) : (s.setSched v).turns = s.turns := rfl
@[simp] theorem State.setSched_iss (s : State) (v : Sched) : (s.setSched v).iss = s.iss := rfl
@[simp] theorem State.setSched_dev_ms (s : State) (v : Sched) : (s.setSched v).dev.ms = s.dev.ms := rfl
@[simp] theorem State.setSched_dev_owners (s : State) (v : Sched) : (s.setSched v).dev.owners = s.dev.owners := rfl
@[simp] theorem State.setSched_dev_keys (s : State) (v : Sched) : (s.setSched v).dev.keys = s.dev.keys := rfl
@[simp] theorem State.setSched_dev_wt (s : State) (v : Sched) : (s.setSched v).dev.wt = s.dev.wt := rfl
@[simp] theorem State.setSched_dev_link (s : State) (v : Sched) : (s.setSched v).dev.link = s.dev.link := rfl
@[simp] theorem State.setSched_dev_bars (s : State) (v : Sched) : (s.setSched v).dev.bars = s.dev.bars := rfl
@[simp] theorem State.setSched_dev_barMsgs (s : State) (v : Sched) : (s.setSched v).dev.barMsgs = s.dev.barMsgs := rfl
@[simp] theorem State.setSched_dev_nextBar (s : State) (v : Sched) : (s.setSched v).dev.nextBar = s.dev.nextBar := rfl
@[simp] theorem State.setSched_dev_lost (s : State) (v : Sched) : (s.setSched v).dev.lost = s.dev.lost := rfl
@[simp] theorem State.setSched_dev_mc (s : State) (v : Sched) : (s.setSched v).dev.mc = s.dev.mc := rfl
@[simp] theorem State.setSched_dev_msi (s : State) (v : Sched) : (s.setSched v).dev.msi = s.dev.msi := rfl
@[simp] theorem State.setSched_dev_jobs (s : State) (v : Sched) : (s.setSched v).dev.jobs = s.dev.jobs := rfl
@[simp] theorem State.setSched_dev_nextJob (s : State) (v : Sched) : (s.setSched v).dev.nextJob = s.dev.nextJob := rfl
@[simp] theorem State.setSched_dev_sched (s : State) (v : Sched) : (s.setSched v).dev.sched = v := rfl
@[simp] theorem State.setSched_dev_prot (s : State) (v : Sched) : (s.setSched v).dev.prot = s.dev.prot := rfl
@[simp] theorem State.setSched_dev_replies (s : State) (v : Sched) : (s.setSched v).dev.replies = s.dev.replies := rfl
@[simp] theorem State.setSched_dev_boot (s : State) (v : Sched) : (s.setSched v).dev.boot = s.dev.boot := rfl
@[simp] theorem State.setSched_dev_flash (s : State) (v : Sched) : (s.setSched v).dev.flash = s.dev.flash := rfl
@[simp] theorem State.setSched_dev_power (s : State) (v : Sched) : (s.setSched v).dev.power = s.dev.power := rfl
@[simp] theorem State.setSched_core (s : State) (v : Sched) (n : Nat) : (s.setSched v).core n = s.core n := rfl
@[simp] theorem State.setSched_byte (s : State) (v : Sched) (k : Nat) : (s.setSched v).byte k = s.byte k := rfl

/-! ### `State.setProt` -/

@[simp] theorem State.setProt_mem (s : State) (v : Prot) : (s.setProt v).mem = s.mem := rfl
@[simp] theorem State.setProt_tags (s : State) (v : Prot) : (s.setProt v).tags = s.tags := rfl
@[simp] theorem State.setProt_marks (s : State) (v : Prot) : (s.setProt v).marks = s.marks := rfl
@[simp] theorem State.setProt_cores (s : State) (v : Prot) : (s.setProt v).cores = s.cores := rfl
@[simp] theorem State.setProt_wheel (s : State) (v : Prot) : (s.setProt v).wheel = s.wheel := rfl
@[simp] theorem State.setProt_free (s : State) (v : Prot) : (s.setProt v).free = s.free := rfl
@[simp] theorem State.setProt_agenda (s : State) (v : Prot) : (s.setProt v).agenda = s.agenda := rfl
@[simp] theorem State.setProt_turns (s : State) (v : Prot) : (s.setProt v).turns = s.turns := rfl
@[simp] theorem State.setProt_iss (s : State) (v : Prot) : (s.setProt v).iss = s.iss := rfl
@[simp] theorem State.setProt_dev_ms (s : State) (v : Prot) : (s.setProt v).dev.ms = s.dev.ms := rfl
@[simp] theorem State.setProt_dev_owners (s : State) (v : Prot) : (s.setProt v).dev.owners = s.dev.owners := rfl
@[simp] theorem State.setProt_dev_keys (s : State) (v : Prot) : (s.setProt v).dev.keys = s.dev.keys := rfl
@[simp] theorem State.setProt_dev_wt (s : State) (v : Prot) : (s.setProt v).dev.wt = s.dev.wt := rfl
@[simp] theorem State.setProt_dev_link (s : State) (v : Prot) : (s.setProt v).dev.link = s.dev.link := rfl
@[simp] theorem State.setProt_dev_bars (s : State) (v : Prot) : (s.setProt v).dev.bars = s.dev.bars := rfl
@[simp] theorem State.setProt_dev_barMsgs (s : State) (v : Prot) : (s.setProt v).dev.barMsgs = s.dev.barMsgs := rfl
@[simp] theorem State.setProt_dev_nextBar (s : State) (v : Prot) : (s.setProt v).dev.nextBar = s.dev.nextBar := rfl
@[simp] theorem State.setProt_dev_lost (s : State) (v : Prot) : (s.setProt v).dev.lost = s.dev.lost := rfl
@[simp] theorem State.setProt_dev_mc (s : State) (v : Prot) : (s.setProt v).dev.mc = s.dev.mc := rfl
@[simp] theorem State.setProt_dev_msi (s : State) (v : Prot) : (s.setProt v).dev.msi = s.dev.msi := rfl
@[simp] theorem State.setProt_dev_jobs (s : State) (v : Prot) : (s.setProt v).dev.jobs = s.dev.jobs := rfl
@[simp] theorem State.setProt_dev_nextJob (s : State) (v : Prot) : (s.setProt v).dev.nextJob = s.dev.nextJob := rfl
@[simp] theorem State.setProt_dev_sched (s : State) (v : Prot) : (s.setProt v).dev.sched = s.dev.sched := rfl
@[simp] theorem State.setProt_dev_prot (s : State) (v : Prot) : (s.setProt v).dev.prot = v := rfl
@[simp] theorem State.setProt_dev_replies (s : State) (v : Prot) : (s.setProt v).dev.replies = s.dev.replies := rfl
@[simp] theorem State.setProt_dev_boot (s : State) (v : Prot) : (s.setProt v).dev.boot = s.dev.boot := rfl
@[simp] theorem State.setProt_dev_flash (s : State) (v : Prot) : (s.setProt v).dev.flash = s.dev.flash := rfl
@[simp] theorem State.setProt_dev_power (s : State) (v : Prot) : (s.setProt v).dev.power = s.dev.power := rfl
@[simp] theorem State.setProt_core (s : State) (v : Prot) (n : Nat) : (s.setProt v).core n = s.core n := rfl
@[simp] theorem State.setProt_byte (s : State) (v : Prot) (k : Nat) : (s.setProt v).byte k = s.byte k := rfl

/-! ### `State.setWt` -/

@[simp] theorem State.setWt_mem (s : State) (v : Weights) : (s.setWt v).mem = s.mem := rfl
@[simp] theorem State.setWt_tags (s : State) (v : Weights) : (s.setWt v).tags = s.tags := rfl
@[simp] theorem State.setWt_marks (s : State) (v : Weights) : (s.setWt v).marks = s.marks := rfl
@[simp] theorem State.setWt_cores (s : State) (v : Weights) : (s.setWt v).cores = s.cores := rfl
@[simp] theorem State.setWt_wheel (s : State) (v : Weights) : (s.setWt v).wheel = s.wheel := rfl
@[simp] theorem State.setWt_free (s : State) (v : Weights) : (s.setWt v).free = s.free := rfl
@[simp] theorem State.setWt_agenda (s : State) (v : Weights) : (s.setWt v).agenda = s.agenda := rfl
@[simp] theorem State.setWt_turns (s : State) (v : Weights) : (s.setWt v).turns = s.turns := rfl
@[simp] theorem State.setWt_iss (s : State) (v : Weights) : (s.setWt v).iss = s.iss := rfl
@[simp] theorem State.setWt_dev_ms (s : State) (v : Weights) : (s.setWt v).dev.ms = s.dev.ms := rfl
@[simp] theorem State.setWt_dev_owners (s : State) (v : Weights) : (s.setWt v).dev.owners = s.dev.owners := rfl
@[simp] theorem State.setWt_dev_keys (s : State) (v : Weights) : (s.setWt v).dev.keys = s.dev.keys := rfl
@[simp] theorem State.setWt_dev_wt (s : State) (v : Weights) : (s.setWt v).dev.wt = v := rfl
@[simp] theorem State.setWt_dev_link (s : State) (v : Weights) : (s.setWt v).dev.link = s.dev.link := rfl
@[simp] theorem State.setWt_dev_bars (s : State) (v : Weights) : (s.setWt v).dev.bars = s.dev.bars := rfl
@[simp] theorem State.setWt_dev_barMsgs (s : State) (v : Weights) : (s.setWt v).dev.barMsgs = s.dev.barMsgs := rfl
@[simp] theorem State.setWt_dev_nextBar (s : State) (v : Weights) : (s.setWt v).dev.nextBar = s.dev.nextBar := rfl
@[simp] theorem State.setWt_dev_lost (s : State) (v : Weights) : (s.setWt v).dev.lost = s.dev.lost := rfl
@[simp] theorem State.setWt_dev_mc (s : State) (v : Weights) : (s.setWt v).dev.mc = s.dev.mc := rfl
@[simp] theorem State.setWt_dev_msi (s : State) (v : Weights) : (s.setWt v).dev.msi = s.dev.msi := rfl
@[simp] theorem State.setWt_dev_jobs (s : State) (v : Weights) : (s.setWt v).dev.jobs = s.dev.jobs := rfl
@[simp] theorem State.setWt_dev_nextJob (s : State) (v : Weights) : (s.setWt v).dev.nextJob = s.dev.nextJob := rfl
@[simp] theorem State.setWt_dev_sched (s : State) (v : Weights) : (s.setWt v).dev.sched = s.dev.sched := rfl
@[simp] theorem State.setWt_dev_prot (s : State) (v : Weights) : (s.setWt v).dev.prot = s.dev.prot := rfl
@[simp] theorem State.setWt_dev_replies (s : State) (v : Weights) : (s.setWt v).dev.replies = s.dev.replies := rfl
@[simp] theorem State.setWt_dev_boot (s : State) (v : Weights) : (s.setWt v).dev.boot = s.dev.boot := rfl
@[simp] theorem State.setWt_dev_flash (s : State) (v : Weights) : (s.setWt v).dev.flash = s.dev.flash := rfl
@[simp] theorem State.setWt_dev_power (s : State) (v : Weights) : (s.setWt v).dev.power = s.dev.power := rfl
@[simp] theorem State.setWt_core (s : State) (v : Weights) (n : Nat) : (s.setWt v).core n = s.core n := rfl
@[simp] theorem State.setWt_byte (s : State) (v : Weights) (k : Nat) : (s.setWt v).byte k = s.byte k := rfl

/-! ### `State.setMc` -/

@[simp] theorem State.setMc_mem (s : State) (v : Mcheck) : (s.setMc v).mem = s.mem := rfl
@[simp] theorem State.setMc_tags (s : State) (v : Mcheck) : (s.setMc v).tags = s.tags := rfl
@[simp] theorem State.setMc_marks (s : State) (v : Mcheck) : (s.setMc v).marks = s.marks := rfl
@[simp] theorem State.setMc_cores (s : State) (v : Mcheck) : (s.setMc v).cores = s.cores := rfl
@[simp] theorem State.setMc_wheel (s : State) (v : Mcheck) : (s.setMc v).wheel = s.wheel := rfl
@[simp] theorem State.setMc_free (s : State) (v : Mcheck) : (s.setMc v).free = s.free := rfl
@[simp] theorem State.setMc_agenda (s : State) (v : Mcheck) : (s.setMc v).agenda = s.agenda := rfl
@[simp] theorem State.setMc_turns (s : State) (v : Mcheck) : (s.setMc v).turns = s.turns := rfl
@[simp] theorem State.setMc_iss (s : State) (v : Mcheck) : (s.setMc v).iss = s.iss := rfl
@[simp] theorem State.setMc_dev_ms (s : State) (v : Mcheck) : (s.setMc v).dev.ms = s.dev.ms := rfl
@[simp] theorem State.setMc_dev_owners (s : State) (v : Mcheck) : (s.setMc v).dev.owners = s.dev.owners := rfl
@[simp] theorem State.setMc_dev_keys (s : State) (v : Mcheck) : (s.setMc v).dev.keys = s.dev.keys := rfl
@[simp] theorem State.setMc_dev_wt (s : State) (v : Mcheck) : (s.setMc v).dev.wt = s.dev.wt := rfl
@[simp] theorem State.setMc_dev_link (s : State) (v : Mcheck) : (s.setMc v).dev.link = s.dev.link := rfl
@[simp] theorem State.setMc_dev_bars (s : State) (v : Mcheck) : (s.setMc v).dev.bars = s.dev.bars := rfl
@[simp] theorem State.setMc_dev_barMsgs (s : State) (v : Mcheck) : (s.setMc v).dev.barMsgs = s.dev.barMsgs := rfl
@[simp] theorem State.setMc_dev_nextBar (s : State) (v : Mcheck) : (s.setMc v).dev.nextBar = s.dev.nextBar := rfl
@[simp] theorem State.setMc_dev_lost (s : State) (v : Mcheck) : (s.setMc v).dev.lost = s.dev.lost := rfl
@[simp] theorem State.setMc_dev_mc (s : State) (v : Mcheck) : (s.setMc v).dev.mc = v := rfl
@[simp] theorem State.setMc_dev_msi (s : State) (v : Mcheck) : (s.setMc v).dev.msi = s.dev.msi := rfl
@[simp] theorem State.setMc_dev_jobs (s : State) (v : Mcheck) : (s.setMc v).dev.jobs = s.dev.jobs := rfl
@[simp] theorem State.setMc_dev_nextJob (s : State) (v : Mcheck) : (s.setMc v).dev.nextJob = s.dev.nextJob := rfl
@[simp] theorem State.setMc_dev_sched (s : State) (v : Mcheck) : (s.setMc v).dev.sched = s.dev.sched := rfl
@[simp] theorem State.setMc_dev_prot (s : State) (v : Mcheck) : (s.setMc v).dev.prot = s.dev.prot := rfl
@[simp] theorem State.setMc_dev_replies (s : State) (v : Mcheck) : (s.setMc v).dev.replies = s.dev.replies := rfl
@[simp] theorem State.setMc_dev_boot (s : State) (v : Mcheck) : (s.setMc v).dev.boot = s.dev.boot := rfl
@[simp] theorem State.setMc_dev_flash (s : State) (v : Mcheck) : (s.setMc v).dev.flash = s.dev.flash := rfl
@[simp] theorem State.setMc_dev_power (s : State) (v : Mcheck) : (s.setMc v).dev.power = s.dev.power := rfl
@[simp] theorem State.setMc_core (s : State) (v : Mcheck) (n : Nat) : (s.setMc v).core n = s.core n := rfl
@[simp] theorem State.setMc_byte (s : State) (v : Mcheck) (k : Nat) : (s.setMc v).byte k = s.byte k := rfl

/-! ### `State.setLinks` -/

@[simp] theorem State.setLinks_mem (s : State) (v : Links) : (s.setLinks v).mem = s.mem := rfl
@[simp] theorem State.setLinks_tags (s : State) (v : Links) : (s.setLinks v).tags = s.tags := rfl
@[simp] theorem State.setLinks_marks (s : State) (v : Links) : (s.setLinks v).marks = s.marks := rfl
@[simp] theorem State.setLinks_cores (s : State) (v : Links) : (s.setLinks v).cores = s.cores := rfl
@[simp] theorem State.setLinks_wheel (s : State) (v : Links) : (s.setLinks v).wheel = s.wheel := rfl
@[simp] theorem State.setLinks_free (s : State) (v : Links) : (s.setLinks v).free = s.free := rfl
@[simp] theorem State.setLinks_agenda (s : State) (v : Links) : (s.setLinks v).agenda = s.agenda := rfl
@[simp] theorem State.setLinks_turns (s : State) (v : Links) : (s.setLinks v).turns = s.turns := rfl
@[simp] theorem State.setLinks_iss (s : State) (v : Links) : (s.setLinks v).iss = s.iss := rfl
@[simp] theorem State.setLinks_dev_ms (s : State) (v : Links) : (s.setLinks v).dev.ms = s.dev.ms := rfl
@[simp] theorem State.setLinks_dev_owners (s : State) (v : Links) : (s.setLinks v).dev.owners = s.dev.owners := rfl
@[simp] theorem State.setLinks_dev_keys (s : State) (v : Links) : (s.setLinks v).dev.keys = s.dev.keys := rfl
@[simp] theorem State.setLinks_dev_wt (s : State) (v : Links) : (s.setLinks v).dev.wt = s.dev.wt := rfl
@[simp] theorem State.setLinks_dev_link (s : State) (v : Links) : (s.setLinks v).dev.link = v := rfl
@[simp] theorem State.setLinks_dev_bars (s : State) (v : Links) : (s.setLinks v).dev.bars = s.dev.bars := rfl
@[simp] theorem State.setLinks_dev_barMsgs (s : State) (v : Links) : (s.setLinks v).dev.barMsgs = s.dev.barMsgs := rfl
@[simp] theorem State.setLinks_dev_nextBar (s : State) (v : Links) : (s.setLinks v).dev.nextBar = s.dev.nextBar := rfl
@[simp] theorem State.setLinks_dev_lost (s : State) (v : Links) : (s.setLinks v).dev.lost = s.dev.lost := rfl
@[simp] theorem State.setLinks_dev_mc (s : State) (v : Links) : (s.setLinks v).dev.mc = s.dev.mc := rfl
@[simp] theorem State.setLinks_dev_msi (s : State) (v : Links) : (s.setLinks v).dev.msi = s.dev.msi := rfl
@[simp] theorem State.setLinks_dev_jobs (s : State) (v : Links) : (s.setLinks v).dev.jobs = s.dev.jobs := rfl
@[simp] theorem State.setLinks_dev_nextJob (s : State) (v : Links) : (s.setLinks v).dev.nextJob = s.dev.nextJob := rfl
@[simp] theorem State.setLinks_dev_sched (s : State) (v : Links) : (s.setLinks v).dev.sched = s.dev.sched := rfl
@[simp] theorem State.setLinks_dev_prot (s : State) (v : Links) : (s.setLinks v).dev.prot = s.dev.prot := rfl
@[simp] theorem State.setLinks_dev_replies (s : State) (v : Links) : (s.setLinks v).dev.replies = s.dev.replies := rfl
@[simp] theorem State.setLinks_dev_boot (s : State) (v : Links) : (s.setLinks v).dev.boot = s.dev.boot := rfl
@[simp] theorem State.setLinks_dev_flash (s : State) (v : Links) : (s.setLinks v).dev.flash = s.dev.flash := rfl
@[simp] theorem State.setLinks_dev_power (s : State) (v : Links) : (s.setLinks v).dev.power = s.dev.power := rfl
@[simp] theorem State.setLinks_core (s : State) (v : Links) (n : Nat) : (s.setLinks v).core n = s.core n := rfl
@[simp] theorem State.setLinks_byte (s : State) (v : Links) (k : Nat) : (s.setLinks v).byte k = s.byte k := rfl

/-! ### `State.setPower` -/

@[simp] theorem State.setPower_mem (s : State) (v : Power) : (s.setPower v).mem = s.mem := rfl
@[simp] theorem State.setPower_tags (s : State) (v : Power) : (s.setPower v).tags = s.tags := rfl
@[simp] theorem State.setPower_marks (s : State) (v : Power) : (s.setPower v).marks = s.marks := rfl
@[simp] theorem State.setPower_cores (s : State) (v : Power) : (s.setPower v).cores = s.cores := rfl
@[simp] theorem State.setPower_wheel (s : State) (v : Power) : (s.setPower v).wheel = s.wheel := rfl
@[simp] theorem State.setPower_free (s : State) (v : Power) : (s.setPower v).free = s.free := rfl
@[simp] theorem State.setPower_agenda (s : State) (v : Power) : (s.setPower v).agenda = s.agenda := rfl
@[simp] theorem State.setPower_turns (s : State) (v : Power) : (s.setPower v).turns = s.turns := rfl
@[simp] theorem State.setPower_iss (s : State) (v : Power) : (s.setPower v).iss = s.iss := rfl
@[simp] theorem State.setPower_dev_ms (s : State) (v : Power) : (s.setPower v).dev.ms = s.dev.ms := rfl
@[simp] theorem State.setPower_dev_owners (s : State) (v : Power) : (s.setPower v).dev.owners = s.dev.owners := rfl
@[simp] theorem State.setPower_dev_keys (s : State) (v : Power) : (s.setPower v).dev.keys = s.dev.keys := rfl
@[simp] theorem State.setPower_dev_wt (s : State) (v : Power) : (s.setPower v).dev.wt = s.dev.wt := rfl
@[simp] theorem State.setPower_dev_link (s : State) (v : Power) : (s.setPower v).dev.link = s.dev.link := rfl
@[simp] theorem State.setPower_dev_bars (s : State) (v : Power) : (s.setPower v).dev.bars = s.dev.bars := rfl
@[simp] theorem State.setPower_dev_barMsgs (s : State) (v : Power) : (s.setPower v).dev.barMsgs = s.dev.barMsgs := rfl
@[simp] theorem State.setPower_dev_nextBar (s : State) (v : Power) : (s.setPower v).dev.nextBar = s.dev.nextBar := rfl
@[simp] theorem State.setPower_dev_lost (s : State) (v : Power) : (s.setPower v).dev.lost = s.dev.lost := rfl
@[simp] theorem State.setPower_dev_mc (s : State) (v : Power) : (s.setPower v).dev.mc = s.dev.mc := rfl
@[simp] theorem State.setPower_dev_msi (s : State) (v : Power) : (s.setPower v).dev.msi = s.dev.msi := rfl
@[simp] theorem State.setPower_dev_jobs (s : State) (v : Power) : (s.setPower v).dev.jobs = s.dev.jobs := rfl
@[simp] theorem State.setPower_dev_nextJob (s : State) (v : Power) : (s.setPower v).dev.nextJob = s.dev.nextJob := rfl
@[simp] theorem State.setPower_dev_sched (s : State) (v : Power) : (s.setPower v).dev.sched = s.dev.sched := rfl
@[simp] theorem State.setPower_dev_prot (s : State) (v : Power) : (s.setPower v).dev.prot = s.dev.prot := rfl
@[simp] theorem State.setPower_dev_replies (s : State) (v : Power) : (s.setPower v).dev.replies = s.dev.replies := rfl
@[simp] theorem State.setPower_dev_boot (s : State) (v : Power) : (s.setPower v).dev.boot = s.dev.boot := rfl
@[simp] theorem State.setPower_dev_flash (s : State) (v : Power) : (s.setPower v).dev.flash = s.dev.flash := rfl
@[simp] theorem State.setPower_dev_power (s : State) (v : Power) : (s.setPower v).dev.power = v := rfl
@[simp] theorem State.setPower_core (s : State) (v : Power) (n : Nat) : (s.setPower v).core n = s.core n := rfl
@[simp] theorem State.setPower_byte (s : State) (v : Power) (k : Nat) : (s.setPower v).byte k = s.byte k := rfl

/-! ### A reply, a free value -/

@[simp] theorem State.answer_mem (s : State) (r : Reply) : (s.answer r).mem = s.mem := rfl
@[simp] theorem State.answer_tags (s : State) (r : Reply) : (s.answer r).tags = s.tags := rfl
@[simp] theorem State.answer_marks (s : State) (r : Reply) : (s.answer r).marks = s.marks := rfl
@[simp] theorem State.answer_cores (s : State) (r : Reply) : (s.answer r).cores = s.cores := rfl
@[simp] theorem State.answer_wheel (s : State) (r : Reply) : (s.answer r).wheel = s.wheel := rfl
@[simp] theorem State.answer_free (s : State) (r : Reply) : (s.answer r).free = s.free := rfl
@[simp] theorem State.answer_agenda (s : State) (r : Reply) : (s.answer r).agenda = s.agenda := rfl
@[simp] theorem State.answer_turns (s : State) (r : Reply) : (s.answer r).turns = s.turns := rfl
@[simp] theorem State.answer_iss (s : State) (r : Reply) : (s.answer r).iss = s.iss := rfl
@[simp] theorem State.nextFree_mem (s : State) : s.nextFree.mem = s.mem := rfl
@[simp] theorem State.nextFree_tags (s : State) : s.nextFree.tags = s.tags := rfl
@[simp] theorem State.nextFree_marks (s : State) : s.nextFree.marks = s.marks := rfl
@[simp] theorem State.nextFree_cores (s : State) : s.nextFree.cores = s.cores := rfl
@[simp] theorem State.nextFree_dev (s : State) : s.nextFree.dev = s.dev := rfl
@[simp] theorem State.nextFree_wheel (s : State) : s.nextFree.wheel = s.wheel := rfl
@[simp] theorem State.nextFree_free (s : State) : s.nextFree.free = s.free + 1 := rfl
@[simp] theorem State.nextFree_agenda (s : State) : s.nextFree.agenda = s.agenda := rfl
@[simp] theorem State.nextFree_turns (s : State) : s.nextFree.turns = s.turns := rfl
@[simp] theorem State.nextFree_iss (s : State) : s.nextFree.iss = s.iss := rfl

/-! ### `Core.push` -/

@[simp] theorem Core.push_mode (c : Core) (p : Pend) : (c.push p).mode = c.mode := rfl
@[simp] theorem Core.push_task (c : Core) (p : Pend) : (c.push p).task = c.task := rfl
@[simp] theorem Core.push_r (c : Core) (p : Pend) : (c.push p).r = c.r := rfl
@[simp] theorem Core.push_c (c : Core) (p : Pend) : (c.push p).c = c.c := rfl
@[simp] theorem Core.push_tr (c : Core) (p : Pend) : (c.push p).tr = c.tr := rfl
@[simp] theorem Core.push_t (c : Core) (p : Pend) : (c.push p).t = { c.t with pend := c.t.pend ++ [p] } := rfl
@[simp] theorem Core.push_bank (c : Core) (p : Pend) : (c.push p).bank = c.bank := rfl
@[simp] theorem Core.push_m (c : Core) (p : Pend) : (c.push p).m = c.m := rfl
@[simp] theorem Core.push_k (c : Core) (p : Pend) : (c.push p).k = c.k := rfl
@[simp] theorem Core.push_deferred (c : Core) (p : Pend) : (c.push p).deferred = c.deferred := rfl
@[simp] theorem Core.push_comp (c : Core) (p : Pend) : (c.push p).comp = c.comp := rfl
@[simp] theorem Core.push_delay (c : Core) (p : Pend) : (c.push p).delay = c.delay := rfl
@[simp] theorem Core.push_stall (c : Core) (p : Pend) : (c.push p).stall = c.stall := rfl
@[simp] theorem Core.push_entering (c : Core) (p : Pend) : (c.push p).entering = c.entering := rfl
@[simp] theorem Core.push_tretDrain (c : Core) (p : Pend) : (c.push p).tretDrain = c.tretDrain := rfl
@[simp] theorem Core.push_sstep (c : Core) (p : Pend) : (c.push p).sstep = c.sstep := rfl
@[simp] theorem Core.push_superstep (c : Core) (p : Pend) : (c.push p).superstep = c.superstep := rfl
@[simp] theorem Core.push_preempt (c : Core) (p : Pend) : (c.push p).preempt = c.preempt := rfl
@[simp] theorem Core.push_yielding (c : Core) (p : Pend) : (c.push p).yielding = c.yielding := rfl
@[simp] theorem Core.push_held (c : Core) (p : Pend) : (c.push p).held = c.held := rfl
@[simp] theorem Core.push_out (c : Core) (p : Pend) : (c.push p).out = c.out := rfl
@[simp] theorem Core.push_testReq (c : Core) (p : Pend) : (c.push p).testReq = c.testReq := rfl
@[simp] theorem Core.push_last5 (c : Core) (p : Pend) : (c.push p).last5 = c.last5 := rfl

/-! ### `Core.flag` -/

@[simp] theorem Core.flag_mode (c : Core) (f : Flags) : (c.flag f).mode = c.mode := rfl
@[simp] theorem Core.flag_task (c : Core) (f : Flags) : (c.flag f).task = c.task := rfl
@[simp] theorem Core.flag_r (c : Core) (f : Flags) : (c.flag f).r = c.r := rfl
@[simp] theorem Core.flag_c (c : Core) (f : Flags) : (c.flag f).c = { c.c with flags := c.c.flags ||| f } := rfl
@[simp] theorem Core.flag_tr (c : Core) (f : Flags) : (c.flag f).tr = c.tr := rfl
@[simp] theorem Core.flag_t (c : Core) (f : Flags) : (c.flag f).t = c.t := rfl
@[simp] theorem Core.flag_bank (c : Core) (f : Flags) : (c.flag f).bank = c.bank := rfl
@[simp] theorem Core.flag_m (c : Core) (f : Flags) : (c.flag f).m = c.m := rfl
@[simp] theorem Core.flag_k (c : Core) (f : Flags) : (c.flag f).k = c.k := rfl
@[simp] theorem Core.flag_deferred (c : Core) (f : Flags) : (c.flag f).deferred = c.deferred := rfl
@[simp] theorem Core.flag_comp (c : Core) (f : Flags) : (c.flag f).comp = c.comp := rfl
@[simp] theorem Core.flag_delay (c : Core) (f : Flags) : (c.flag f).delay = c.delay := rfl
@[simp] theorem Core.flag_stall (c : Core) (f : Flags) : (c.flag f).stall = c.stall := rfl
@[simp] theorem Core.flag_entering (c : Core) (f : Flags) : (c.flag f).entering = c.entering := rfl
@[simp] theorem Core.flag_tretDrain (c : Core) (f : Flags) : (c.flag f).tretDrain = c.tretDrain := rfl
@[simp] theorem Core.flag_sstep (c : Core) (f : Flags) : (c.flag f).sstep = c.sstep := rfl
@[simp] theorem Core.flag_superstep (c : Core) (f : Flags) : (c.flag f).superstep = c.superstep := rfl
@[simp] theorem Core.flag_preempt (c : Core) (f : Flags) : (c.flag f).preempt = c.preempt := rfl
@[simp] theorem Core.flag_yielding (c : Core) (f : Flags) : (c.flag f).yielding = c.yielding := rfl
@[simp] theorem Core.flag_held (c : Core) (f : Flags) : (c.flag f).held = c.held := rfl
@[simp] theorem Core.flag_out (c : Core) (f : Flags) : (c.flag f).out = c.out := rfl
@[simp] theorem Core.flag_testReq (c : Core) (f : Flags) : (c.flag f).testReq = c.testReq := rfl
@[simp] theorem Core.flag_last5 (c : Core) (f : Flags) : (c.flag f).last5 = c.last5 := rfl

/-! ### `Core.setNarrow` -/

@[simp] theorem Core.setNarrow_mode (c : Core) (b : Bool) : (c.setNarrow b).mode = c.mode := rfl
@[simp] theorem Core.setNarrow_task (c : Core) (b : Bool) : (c.setNarrow b).task = c.task := rfl
@[simp] theorem Core.setNarrow_r (c : Core) (b : Bool) : (c.setNarrow b).r = c.r := rfl
@[simp] theorem Core.setNarrow_c (c : Core) (b : Bool) : (c.setNarrow b).c = { c.c with narrow := c.c.narrow || b } := rfl
@[simp] theorem Core.setNarrow_tr (c : Core) (b : Bool) : (c.setNarrow b).tr = c.tr := rfl
@[simp] theorem Core.setNarrow_t (c : Core) (b : Bool) : (c.setNarrow b).t = c.t := rfl
@[simp] theorem Core.setNarrow_bank (c : Core) (b : Bool) : (c.setNarrow b).bank = c.bank := rfl
@[simp] theorem Core.setNarrow_m (c : Core) (b : Bool) : (c.setNarrow b).m = c.m := rfl
@[simp] theorem Core.setNarrow_k (c : Core) (b : Bool) : (c.setNarrow b).k = c.k := rfl
@[simp] theorem Core.setNarrow_deferred (c : Core) (b : Bool) : (c.setNarrow b).deferred = c.deferred := rfl
@[simp] theorem Core.setNarrow_comp (c : Core) (b : Bool) : (c.setNarrow b).comp = c.comp := rfl
@[simp] theorem Core.setNarrow_delay (c : Core) (b : Bool) : (c.setNarrow b).delay = c.delay := rfl
@[simp] theorem Core.setNarrow_stall (c : Core) (b : Bool) : (c.setNarrow b).stall = c.stall := rfl
@[simp] theorem Core.setNarrow_entering (c : Core) (b : Bool) : (c.setNarrow b).entering = c.entering := rfl
@[simp] theorem Core.setNarrow_tretDrain (c : Core) (b : Bool) : (c.setNarrow b).tretDrain = c.tretDrain := rfl
@[simp] theorem Core.setNarrow_sstep (c : Core) (b : Bool) : (c.setNarrow b).sstep = c.sstep := rfl
@[simp] theorem Core.setNarrow_superstep (c : Core) (b : Bool) : (c.setNarrow b).superstep = c.superstep := rfl
@[simp] theorem Core.setNarrow_preempt (c : Core) (b : Bool) : (c.setNarrow b).preempt = c.preempt := rfl
@[simp] theorem Core.setNarrow_yielding (c : Core) (b : Bool) : (c.setNarrow b).yielding = c.yielding := rfl
@[simp] theorem Core.setNarrow_held (c : Core) (b : Bool) : (c.setNarrow b).held = c.held := rfl
@[simp] theorem Core.setNarrow_out (c : Core) (b : Bool) : (c.setNarrow b).out = c.out := rfl
@[simp] theorem Core.setNarrow_testReq (c : Core) (b : Bool) : (c.setNarrow b).testReq = c.testReq := rfl
@[simp] theorem Core.setNarrow_last5 (c : Core) (b : Bool) : (c.setNarrow b).last5 = c.last5 := rfl

/-! ### `Core.setTile` -/

@[simp] theorem Core.setTile_mode (c : Core) (m : MReg) (v : Tile) : (c.setTile m v).mode = c.mode := rfl
@[simp] theorem Core.setTile_task (c : Core) (m : MReg) (v : Tile) : (c.setTile m v).task = c.task := rfl
@[simp] theorem Core.setTile_r (c : Core) (m : MReg) (v : Tile) : (c.setTile m v).r = { c.r with tiles := c.r.tiles.set m.toNat v } := rfl
@[simp] theorem Core.setTile_c (c : Core) (m : MReg) (v : Tile) : (c.setTile m v).c = c.c := rfl
@[simp] theorem Core.setTile_tr (c : Core) (m : MReg) (v : Tile) : (c.setTile m v).tr = c.tr := rfl
@[simp] theorem Core.setTile_t (c : Core) (m : MReg) (v : Tile) : (c.setTile m v).t = c.t := rfl
@[simp] theorem Core.setTile_bank (c : Core) (m : MReg) (v : Tile) : (c.setTile m v).bank = c.bank := rfl
@[simp] theorem Core.setTile_m (c : Core) (m : MReg) (v : Tile) : (c.setTile m v).m = c.m := rfl
@[simp] theorem Core.setTile_k (c : Core) (m : MReg) (v : Tile) : (c.setTile m v).k = c.k := rfl
@[simp] theorem Core.setTile_deferred (c : Core) (m : MReg) (v : Tile) : (c.setTile m v).deferred = c.deferred := rfl
@[simp] theorem Core.setTile_comp (c : Core) (m : MReg) (v : Tile) : (c.setTile m v).comp = c.comp := rfl
@[simp] theorem Core.setTile_delay (c : Core) (m : MReg) (v : Tile) : (c.setTile m v).delay = c.delay := rfl
@[simp] theorem Core.setTile_stall (c : Core) (m : MReg) (v : Tile) : (c.setTile m v).stall = c.stall := rfl
@[simp] theorem Core.setTile_entering (c : Core) (m : MReg) (v : Tile) : (c.setTile m v).entering = c.entering := rfl
@[simp] theorem Core.setTile_tretDrain (c : Core) (m : MReg) (v : Tile) : (c.setTile m v).tretDrain = c.tretDrain := rfl
@[simp] theorem Core.setTile_sstep (c : Core) (m : MReg) (v : Tile) : (c.setTile m v).sstep = c.sstep := rfl
@[simp] theorem Core.setTile_superstep (c : Core) (m : MReg) (v : Tile) : (c.setTile m v).superstep = c.superstep := rfl
@[simp] theorem Core.setTile_preempt (c : Core) (m : MReg) (v : Tile) : (c.setTile m v).preempt = c.preempt := rfl
@[simp] theorem Core.setTile_yielding (c : Core) (m : MReg) (v : Tile) : (c.setTile m v).yielding = c.yielding := rfl
@[simp] theorem Core.setTile_held (c : Core) (m : MReg) (v : Tile) : (c.setTile m v).held = c.held := rfl
@[simp] theorem Core.setTile_out (c : Core) (m : MReg) (v : Tile) : (c.setTile m v).out = c.out := rfl
@[simp] theorem Core.setTile_testReq (c : Core) (m : MReg) (v : Tile) : (c.setTile m v).testReq = c.testReq := rfl
@[simp] theorem Core.setTile_last5 (c : Core) (m : MReg) (v : Tile) : (c.setTile m v).last5 = c.last5 := rfl

/-! ### `Core.setSlot` -/

@[simp] theorem Core.setSlot_mode (c : Core) (o : OSlot) (v : SlotSt) : (c.setSlot o v).mode = c.mode := rfl
@[simp] theorem Core.setSlot_task (c : Core) (o : OSlot) (v : SlotSt) : (c.setSlot o v).task = c.task := rfl
@[simp] theorem Core.setSlot_r (c : Core) (o : OSlot) (v : SlotSt) : (c.setSlot o v).r = { c.r with slots := c.r.slots.set o.toNat v } := rfl
@[simp] theorem Core.setSlot_c (c : Core) (o : OSlot) (v : SlotSt) : (c.setSlot o v).c = c.c := rfl
@[simp] theorem Core.setSlot_tr (c : Core) (o : OSlot) (v : SlotSt) : (c.setSlot o v).tr = c.tr := rfl
@[simp] theorem Core.setSlot_t (c : Core) (o : OSlot) (v : SlotSt) : (c.setSlot o v).t = c.t := rfl
@[simp] theorem Core.setSlot_bank (c : Core) (o : OSlot) (v : SlotSt) : (c.setSlot o v).bank = c.bank := rfl
@[simp] theorem Core.setSlot_m (c : Core) (o : OSlot) (v : SlotSt) : (c.setSlot o v).m = c.m := rfl
@[simp] theorem Core.setSlot_k (c : Core) (o : OSlot) (v : SlotSt) : (c.setSlot o v).k = c.k := rfl
@[simp] theorem Core.setSlot_deferred (c : Core) (o : OSlot) (v : SlotSt) : (c.setSlot o v).deferred = c.deferred := rfl
@[simp] theorem Core.setSlot_comp (c : Core) (o : OSlot) (v : SlotSt) : (c.setSlot o v).comp = c.comp := rfl
@[simp] theorem Core.setSlot_delay (c : Core) (o : OSlot) (v : SlotSt) : (c.setSlot o v).delay = c.delay := rfl
@[simp] theorem Core.setSlot_stall (c : Core) (o : OSlot) (v : SlotSt) : (c.setSlot o v).stall = c.stall := rfl
@[simp] theorem Core.setSlot_entering (c : Core) (o : OSlot) (v : SlotSt) : (c.setSlot o v).entering = c.entering := rfl
@[simp] theorem Core.setSlot_tretDrain (c : Core) (o : OSlot) (v : SlotSt) : (c.setSlot o v).tretDrain = c.tretDrain := rfl
@[simp] theorem Core.setSlot_sstep (c : Core) (o : OSlot) (v : SlotSt) : (c.setSlot o v).sstep = c.sstep := rfl
@[simp] theorem Core.setSlot_superstep (c : Core) (o : OSlot) (v : SlotSt) : (c.setSlot o v).superstep = c.superstep := rfl
@[simp] theorem Core.setSlot_preempt (c : Core) (o : OSlot) (v : SlotSt) : (c.setSlot o v).preempt = c.preempt := rfl
@[simp] theorem Core.setSlot_yielding (c : Core) (o : OSlot) (v : SlotSt) : (c.setSlot o v).yielding = c.yielding := rfl
@[simp] theorem Core.setSlot_held (c : Core) (o : OSlot) (v : SlotSt) : (c.setSlot o v).held = c.held := rfl
@[simp] theorem Core.setSlot_out (c : Core) (o : OSlot) (v : SlotSt) : (c.setSlot o v).out = c.out := rfl
@[simp] theorem Core.setSlot_testReq (c : Core) (o : OSlot) (v : SlotSt) : (c.setSlot o v).testReq = c.testReq := rfl
@[simp] theorem Core.setSlot_last5 (c : Core) (o : OSlot) (v : SlotSt) : (c.setSlot o v).last5 = c.last5 := rfl

/-! ### `Core.putStand` -/

@[simp] theorem Core.putStand_mode (c : Core) (sl : Slot) (v : Option Standing) : (c.putStand sl v).mode = c.mode := rfl
@[simp] theorem Core.putStand_task (c : Core) (sl : Slot) (v : Option Standing) : (c.putStand sl v).task = c.task := rfl
@[simp] theorem Core.putStand_r (c : Core) (sl : Slot) (v : Option Standing) : (c.putStand sl v).r = c.r := rfl
@[simp] theorem Core.putStand_c (c : Core) (sl : Slot) (v : Option Standing) : (c.putStand sl v).c = c.c := rfl
@[simp] theorem Core.putStand_tr (c : Core) (sl : Slot) (v : Option Standing) : (c.putStand sl v).tr = c.tr := rfl
@[simp] theorem Core.putStand_t (c : Core) (sl : Slot) (v : Option Standing) : (c.putStand sl v).t = { c.t with stand := c.t.stand.put sl v } := rfl
@[simp] theorem Core.putStand_bank (c : Core) (sl : Slot) (v : Option Standing) : (c.putStand sl v).bank = c.bank := rfl
@[simp] theorem Core.putStand_m (c : Core) (sl : Slot) (v : Option Standing) : (c.putStand sl v).m = c.m := rfl
@[simp] theorem Core.putStand_k (c : Core) (sl : Slot) (v : Option Standing) : (c.putStand sl v).k = c.k := rfl
@[simp] theorem Core.putStand_deferred (c : Core) (sl : Slot) (v : Option Standing) : (c.putStand sl v).deferred = c.deferred := rfl
@[simp] theorem Core.putStand_comp (c : Core) (sl : Slot) (v : Option Standing) : (c.putStand sl v).comp = c.comp := rfl
@[simp] theorem Core.putStand_delay (c : Core) (sl : Slot) (v : Option Standing) : (c.putStand sl v).delay = c.delay := rfl
@[simp] theorem Core.putStand_stall (c : Core) (sl : Slot) (v : Option Standing) : (c.putStand sl v).stall = c.stall := rfl
@[simp] theorem Core.putStand_entering (c : Core) (sl : Slot) (v : Option Standing) : (c.putStand sl v).entering = c.entering := rfl
@[simp] theorem Core.putStand_tretDrain (c : Core) (sl : Slot) (v : Option Standing) : (c.putStand sl v).tretDrain = c.tretDrain := rfl
@[simp] theorem Core.putStand_sstep (c : Core) (sl : Slot) (v : Option Standing) : (c.putStand sl v).sstep = c.sstep := rfl
@[simp] theorem Core.putStand_superstep (c : Core) (sl : Slot) (v : Option Standing) : (c.putStand sl v).superstep = c.superstep := rfl
@[simp] theorem Core.putStand_preempt (c : Core) (sl : Slot) (v : Option Standing) : (c.putStand sl v).preempt = c.preempt := rfl
@[simp] theorem Core.putStand_yielding (c : Core) (sl : Slot) (v : Option Standing) : (c.putStand sl v).yielding = c.yielding := rfl
@[simp] theorem Core.putStand_held (c : Core) (sl : Slot) (v : Option Standing) : (c.putStand sl v).held = c.held := rfl
@[simp] theorem Core.putStand_out (c : Core) (sl : Slot) (v : Option Standing) : (c.putStand sl v).out = c.out := rfl
@[simp] theorem Core.putStand_testReq (c : Core) (sl : Slot) (v : Option Standing) : (c.putStand sl v).testReq = c.testReq := rfl
@[simp] theorem Core.putStand_last5 (c : Core) (sl : Slot) (v : Option Standing) : (c.putStand sl v).last5 = c.last5 := rfl

/-! ### `Core.pushScale` -/

@[simp] theorem Core.pushScale_mode (c : Core) (e : Int) : (c.pushScale e).mode = c.mode := rfl
@[simp] theorem Core.pushScale_task (c : Core) (e : Int) : (c.pushScale e).task = c.task := rfl
@[simp] theorem Core.pushScale_r (c : Core) (e : Int) : (c.pushScale e).r = c.r := rfl
@[simp] theorem Core.pushScale_c (c : Core) (e : Int) : (c.pushScale e).c = c.c := rfl
@[simp] theorem Core.pushScale_tr (c : Core) (e : Int) : (c.pushScale e).tr = c.tr := rfl
@[simp] theorem Core.pushScale_t (c : Core) (e : Int) : (c.pushScale e).t = { c.t with scale := c.t.scale ++ [{ rem := 3, e := e }] } := rfl
@[simp] theorem Core.pushScale_bank (c : Core) (e : Int) : (c.pushScale e).bank = c.bank := rfl
@[simp] theorem Core.pushScale_m (c : Core) (e : Int) : (c.pushScale e).m = c.m := rfl
@[simp] theorem Core.pushScale_k (c : Core) (e : Int) : (c.pushScale e).k = c.k := rfl
@[simp] theorem Core.pushScale_deferred (c : Core) (e : Int) : (c.pushScale e).deferred = c.deferred := rfl
@[simp] theorem Core.pushScale_comp (c : Core) (e : Int) : (c.pushScale e).comp = c.comp := rfl
@[simp] theorem Core.pushScale_delay (c : Core) (e : Int) : (c.pushScale e).delay = c.delay := rfl
@[simp] theorem Core.pushScale_stall (c : Core) (e : Int) : (c.pushScale e).stall = c.stall := rfl
@[simp] theorem Core.pushScale_entering (c : Core) (e : Int) : (c.pushScale e).entering = c.entering := rfl
@[simp] theorem Core.pushScale_tretDrain (c : Core) (e : Int) : (c.pushScale e).tretDrain = c.tretDrain := rfl
@[simp] theorem Core.pushScale_sstep (c : Core) (e : Int) : (c.pushScale e).sstep = c.sstep := rfl
@[simp] theorem Core.pushScale_superstep (c : Core) (e : Int) : (c.pushScale e).superstep = c.superstep := rfl
@[simp] theorem Core.pushScale_preempt (c : Core) (e : Int) : (c.pushScale e).preempt = c.preempt := rfl
@[simp] theorem Core.pushScale_yielding (c : Core) (e : Int) : (c.pushScale e).yielding = c.yielding := rfl
@[simp] theorem Core.pushScale_held (c : Core) (e : Int) : (c.pushScale e).held = c.held := rfl
@[simp] theorem Core.pushScale_out (c : Core) (e : Int) : (c.pushScale e).out = c.out := rfl
@[simp] theorem Core.pushScale_testReq (c : Core) (e : Int) : (c.pushScale e).testReq = c.testReq := rfl
@[simp] theorem Core.pushScale_last5 (c : Core) (e : Int) : (c.pushScale e).last5 = c.last5 := rfl

/-! ### `Core.setAcc` -/

@[simp] theorem Core.setAcc_mode (c : Core) (a : Access) : (c.setAcc a).mode = c.mode := rfl
@[simp] theorem Core.setAcc_task (c : Core) (a : Access) : (c.setAcc a).task = c.task := rfl
@[simp] theorem Core.setAcc_r (c : Core) (a : Access) : (c.setAcc a).r = c.r := rfl
@[simp] theorem Core.setAcc_c (c : Core) (a : Access) : (c.setAcc a).c = c.c := rfl
@[simp] theorem Core.setAcc_tr (c : Core) (a : Access) : (c.setAcc a).tr = c.tr := rfl
@[simp] theorem Core.setAcc_t (c : Core) (a : Access) : (c.setAcc a).t = c.t := rfl
@[simp] theorem Core.setAcc_bank (c : Core) (a : Access) : (c.setAcc a).bank = c.bank := rfl
@[simp] theorem Core.setAcc_m (c : Core) (a : Access) : (c.setAcc a).m = { c.m with accs := c.m.accs.map (fun b => if b.id = a.id then a else b) } := rfl
@[simp] theorem Core.setAcc_k (c : Core) (a : Access) : (c.setAcc a).k = c.k := rfl
@[simp] theorem Core.setAcc_deferred (c : Core) (a : Access) : (c.setAcc a).deferred = c.deferred := rfl
@[simp] theorem Core.setAcc_comp (c : Core) (a : Access) : (c.setAcc a).comp = c.comp := rfl
@[simp] theorem Core.setAcc_delay (c : Core) (a : Access) : (c.setAcc a).delay = c.delay := rfl
@[simp] theorem Core.setAcc_stall (c : Core) (a : Access) : (c.setAcc a).stall = c.stall := rfl
@[simp] theorem Core.setAcc_entering (c : Core) (a : Access) : (c.setAcc a).entering = c.entering := rfl
@[simp] theorem Core.setAcc_tretDrain (c : Core) (a : Access) : (c.setAcc a).tretDrain = c.tretDrain := rfl
@[simp] theorem Core.setAcc_sstep (c : Core) (a : Access) : (c.setAcc a).sstep = c.sstep := rfl
@[simp] theorem Core.setAcc_superstep (c : Core) (a : Access) : (c.setAcc a).superstep = c.superstep := rfl
@[simp] theorem Core.setAcc_preempt (c : Core) (a : Access) : (c.setAcc a).preempt = c.preempt := rfl
@[simp] theorem Core.setAcc_yielding (c : Core) (a : Access) : (c.setAcc a).yielding = c.yielding := rfl
@[simp] theorem Core.setAcc_held (c : Core) (a : Access) : (c.setAcc a).held = c.held := rfl
@[simp] theorem Core.setAcc_out (c : Core) (a : Access) : (c.setAcc a).out = c.out := rfl
@[simp] theorem Core.setAcc_testReq (c : Core) (a : Access) : (c.setAcc a).testReq = c.testReq := rfl
@[simp] theorem Core.setAcc_last5 (c : Core) (a : Access) : (c.setAcc a).last5 = c.last5 := rfl

/-! ### `Core.warm` -/

@[simp] theorem Core.warm_r (c : Core) : c.warm.r = c.r := rfl
@[simp] theorem Core.warm_out (c : Core) : c.warm.out = c.out := rfl
@[simp] theorem Core.warm_l1 (c : Core) : c.warm.m.l1 = c.m.l1.map CLine.warm := rfl
@[simp] theorem Core.warm_task (c : Core) : c.warm.task = none := rfl
@[simp] theorem Core.warm_mode (c : Core) : c.warm.mode = .idle := rfl

end Sys2Proof.Machine
end

