-- ==== Sys2Proof/Laws/Store.lean ====
section
/-! SUPPORT. A store read back: bytes, tags and marks after a write of plain bytes and after a write of a granule with its
tag. -/

namespace Sys2Proof.Machine

theorem Memory.read_writeList_inside {m : List Host.Cell} (k : Nat) (bs : List Byte) (h : Memory.wf m = true) {i : Nat}
    (hi : i < bs.length) : Memory.read (Memory.writeList m k bs) (k + i) = bs[i] := by
  induction bs generalizing m k i with
  | nil => simp at hi
  | cons b bs ih =>
    cases i with
    | zero =>
      simp only [Memory.writeList, Nat.add_zero, List.getElem_cons_zero]
      rw [Memory.read_writeList_outside bs (Memory.write_wf k b h) (by omega), Memory.read_write_same k b h]
    | succ i =>
      have := ih (k + 1) (Memory.write_wf k b h) (i := i) (by simpa using hi)
      simp only [Memory.writeList, List.getElem_cons_succ]
      rw [← this]; congr 1; omega

theorem KeySet.has_iff {l : List Nat} (h : KeySet.wf l = true) (k : Nat) : KeySet.has l k = true ↔ k ∈ l := by
  rw [KeySet.wf_iff] at h
  induction l with
  | nil => simp [KeySet.has]
  | cons a t ih =>
    have ht := (List.pairwise_cons.1 h).1
    simp only [KeySet.has, List.mem_cons]
    split
    · next e => simp [e]
    · next e =>
      split
      · next e' =>
        simp only [Bool.false_eq_true, e, false_or, false_iff]
        intro hk; have := ht k hk; omega
      · rw [ih (List.pairwise_cons.1 h).2]; simp [e]

theorem KeySet.has_del {l : List Nat} (h : KeySet.wf l = true) (k j : Nat) :
    KeySet.has (KeySet.del l k) j = (j != k && KeySet.has l j) := by
  rw [Bool.eq_iff_iff, KeySet.has_iff (KeySet.del_wf k h), Bool.and_eq_true, KeySet.has_iff h, KeySet.del, List.mem_filter]
  tauto

theorem KeySet.has_foldl_del {l : List Nat} (ks : List Nat) (h : KeySet.wf l = true) (j : Nat) :
    KeySet.has (ks.foldl KeySet.del l) j = (!ks.contains j && KeySet.has l j) := by
  induction ks generalizing l with
  | nil => simp
  | cons k ks ih =>
    rw [List.foldl_cons, ih (KeySet.del_wf k h), KeySet.has_del h, List.contains_cons]
    cases ks.contains j <;> cases h' : (j == k) <;> simp [h', bne]

theorem KeySet.mem_add_iff (l : List Nat) (k j : Nat) : j ∈ KeySet.add l k ↔ j = k ∨ j ∈ l := by
  induction l with
  | nil => simp [KeySet.add]
  | cons a t ih =>
    simp only [KeySet.add]
    split
    · simp
    · split
      · next e => subst e; simp
      · simp only [List.mem_cons, ih]; tauto

theorem KeySet.has_add {l : List Nat} (h : KeySet.wf l = true) (k j : Nat) :
    KeySet.has (KeySet.add l k) j = (j == k || KeySet.has l j) := by
  rw [Bool.eq_iff_iff, KeySet.has_iff (KeySet.add_wf k h), Bool.or_eq_true, KeySet.has_iff h, KeySet.mem_add_iff, beq_iff_eq]

theorem leBytes_length (n v : Nat) : (leBytes n v).length = n := by
  induction n generalizing v with
  | zero => rfl
  | succ n ih => simp [leBytes, ih]

theorem leBytes_getElem (n v : Nat) {i : Nat} (hi : i < (leBytes n v).length) :
    (leBytes n v)[i] = BitVec.ofNat 8 (v / 256 ^ i) := by
  induction n generalizing v i with
  | zero => simp [leBytes] at hi
  | succ n ih =>
    cases i with
    | zero => simp [leBytes]
    | succ i =>
      simp only [leBytes, List.getElem_cons_succ]
      rw [ih, Nat.div_div_eq_div_mul, Nat.pow_succ']

/-- Byte i of an n-byte value. -/
theorem leBytes_byte {w n : Nat} (v : BitVec w) {i : Nat} (hi : i < (leBytes n v.toNat).length) :
    (leBytes n v.toNat)[i] = v.extractLsb' (8 * i) 8 := by
  rw [leBytes_getElem, show (256 : Nat) ^ i = 2 ^ (8 * i) by rw [Nat.pow_mul]]
  apply BitVec.eq_of_toNat_eq
  simp [Nat.shiftRight_eq_div_pow]

theorem mem_granules {key n g : Nat} (h : 0 < n) : g ∈ granules key n ↔ key / 32 ≤ g ∧ g ≤ (key + n - 1) / 32 := by
  rw [granules, if_neg (by omega), List.mem_map]
  simp only [List.mem_range]
  constructor
  · rintro ⟨a, ha, rfl⟩; omega
  · rintro ⟨h1, h2⟩; exact ⟨g - key / 32, by omega, by omega⟩

/-- A store of bytes: those bytes, no others; the tags of the granules touched go, and the marks of those covered (R166,
R429). -/
theorem State.store_spec {s : State} (hs : s.Ok) (key : Nat) (bs : List Byte) :
    (∀ i (h : i < bs.length), (s.store key bs).byte (key + i) = bs[i]) ∧
      (∀ a, (a < key ∨ key + bs.length ≤ a) → (s.store key bs).byte a = s.byte a) ∧
      (∀ g, KeySet.has (s.store key bs).tags g = (!(granules key bs.length).contains g && KeySet.has s.tags g)) ∧
      (∀ g, KeySet.has (s.store key bs).marks g = (!(wholeGranules key bs.length).contains g && KeySet.has s.marks g)) :=
  ⟨fun _ h => Memory.read_writeList_inside key bs hs.1 h, fun _ h => Memory.read_writeList_outside bs hs.1 h,
    fun g => KeySet.has_foldl_del _ hs.2.1 g, fun g => KeySet.has_foldl_del _ hs.2.2.1 g⟩

/-- A write of a granule with its tag: 32 bytes, and its tag as given. -/
theorem State.storeTagged_spec {s : State} (hs : s.Ok) {key : Nat} (ha : key % 32 = 0) (v : Cap) (tag : Bool) :
    (∀ i, i < 32 → (s.storeTagged key v tag).byte (key + i) = v.extractLsb' (8 * i) 8) ∧
      (∀ a, (a < key ∨ key + 32 ≤ a) → (s.storeTagged key v tag).byte a = s.byte a) ∧
      (∀ g, KeySet.has (s.storeTagged key v tag).tags g = if g = key / 32 then tag else KeySet.has s.tags g) := by
  have hl : (leBytes 32 v.toNat).length = 32 := leBytes_length _ _
  have hv : ∀ i (h : i < (leBytes 32 v.toNat).length), (leBytes 32 v.toNat)[i] = v.extractLsb' (8 * i) 8 :=
    fun _ h => leBytes_byte v h
  unfold State.storeTagged State.storeNat
  generalize leBytes 32 v.toNat = bs at hl hv
  obtain ⟨h1, h2, h3, -⟩ := State.store_spec hs key bs
  have hw : KeySet.wf (s.store key bs).tags = true := KeySet.foldl_del_wf _ hs.2.1
  have hg : ∀ g, (granules key bs.length).contains g = decide (g = key / 32) := by
    intro g
    rw [hl, Bool.eq_iff_iff, List.contains_iff_mem, mem_granules (by omega), decide_eq_true_eq]; omega
  generalize s.store key bs = u at h1 h2 h3 hw
  refine ⟨fun i hi => ?_, fun a h => ?_, fun g => ?_⟩
  · rw [← hv i (by omega), ← h1 i (by omega)]; cases tag <;> simp [ha, State.byte]
  · rw [← h2 a (by omega)]; cases tag <;> simp [ha, State.byte]
  · have ht := h3 g
    rw [hg] at ht
    cases tag
    · simp only [Bool.false_eq_true, false_and, if_false]
      rw [ht]
      by_cases e : g = key / 32 <;> simp [e]
    · simp only [ha, and_self, if_true]
      rw [KeySet.has_add hw, ht, granule]
      by_cases e : g = key / 32 <;> simp [e]

end Sys2Proof.Machine
end

