-- ==== Sys2Proof/Laws/Vec.lean ====
section
/-! SUPPORT. Vector and predicate results element by element: what the packed masks and values of Machine/VecAlu.lean write,
and one lemma for each shape of a vector operation. -/

namespace Sys2Proof.Machine

open Host (Outcome)

/-! ### Elements of packed registers -/

theorem packNat_testBit {e : Nat} (he : 0 < e) (l : List Nat) (k : Nat) :
    (packNat e l).testBit k = (l.getD (k / e) 0).testBit (k % e) := by
  induction l generalizing k with
  | nil => simp [packNat]
  | cons x xs ih =>
    have hx : x % 2 ^ e < 2 ^ e := Nat.mod_lt _ (Nat.two_pow_pos e)
    rw [packNat, Nat.add_comm, Nat.testBit_two_pow_mul_add _ hx]
    by_cases hk : k < e
    · simp [hk, Nat.div_eq_of_lt hk, Nat.mod_eq_of_lt hk, Nat.testBit_mod_two_pow]
    · obtain ⟨m, rfl⟩ := Nat.exists_eq_add_of_le (Nat.le_of_not_lt hk)
      simp [ih, Nat.add_div_left _ he]

theorem packVec_getLsbD {e : Nat} (he : 0 < e) (l : List Nat) {k : Nat} (hk : k < 1024) :
    (packVec e l).getLsbD k = (l.getD (k / e) 0).testBit (k % e) := by
  rw [packVec, BitVec.getLsbD_ofNat, packNat_testBit he]; simp [hk]

/-- Bit `i` of element `j`. -/
theorem elemOf_testBit (e v j i : Nat) : (elemOf e v j).testBit i = (decide (i < e) && v.testBit (e * j + i)) := by
  simp [elemOf, Nat.testBit_mod_two_pow, Nat.testBit_div_two_pow, Nat.add_comm]

theorem maskVec_getLsbD {e : Nat} (he : 0 < e) (act : List Bool) {k : Nat} (hk : k < 1024) :
    (maskVec e act).getLsbD k = act.getD (k / e) false := by
  rw [maskVec, packVec_getLsbD he _ hk, List.getD_eq_getElem?_getD, List.getElem?_map, List.getD_eq_getElem?_getD]
  cases act[k / e]? with
  | none => simp
  | some b => cases b <;> simp [Nat.testBit_two_pow_sub_one, Nat.mod_lt _ he]

/-- An element of a merged register. -/
theorem elemOf_merge {e : Nat} (he : 0 < e) (act : List Bool) (l : List Nat) (old : Vec) {j : Nat} (hj : e * (j + 1) ≤ 1024) :
    elemOf e (merge (maskVec e act) (packVec e l) old).toNat j =
      if act.getD j false then l.getD j 0 % 2 ^ e else elemOf e old.toNat j := by
  apply Nat.eq_of_testBit_eq
  intro i
  rw [elemOf_testBit]
  by_cases hi : i < e
  · have hk : e * j + i < 1024 := by rw [Nat.mul_succ] at hj; omega
    have hd : (e * j + i) / e = j := by rw [Nat.mul_add_div he, Nat.div_eq_of_lt hi]; rfl
    have hm : (e * j + i) % e = i := by rw [Nat.mul_add_mod, Nat.mod_eq_of_lt hi]
    rw [← BitVec.getLsbD, merge, BitVec.getLsbD_or, BitVec.getLsbD_and, BitVec.getLsbD_and, BitVec.getLsbD_not,
      maskVec_getLsbD he _ hk, packVec_getLsbD he _ hk, hd, hm]
    cases act.getD j false
    · simp [hi, hk, elemOf_testBit, BitVec.getLsbD]
    · simp [hi, Nat.testBit_mod_two_pow]
  · simp only [hi, decide_false, Bool.false_and]
    split
    · rw [Nat.testBit_mod_two_pow]; simp [hi]
    · rw [elemOf_testBit]; simp [hi]

theorem Fmt.width_pos (t : Fmt) : 0 < Fmt.width t := by cases t <;> decide
theorem Fmt.width_mul (t : Fmt) {j : Nat} (h : j < 1024 / Fmt.width t) : Fmt.width t * (j + 1) ≤ 1024 := by
  have : Fmt.width t * (1024 / Fmt.width t) ≤ 1024 := Nat.mul_div_le _ _
  exact Nat.le_trans (Nat.mul_le_mul_left _ h) this

/-! ### Predicates -/

theorem predOf_getLsbD {e : Nat} (he : 0 < e / 8) (l : List Bool) {k : Nat} (hk : k < 128) :
    (predOf e l).getLsbD k = l.getD (k / (e / 8)) false := by
  rw [predOf, BitVec.getLsbD_ofNat, packNat_testBit he, List.getD_eq_getElem?_getD, List.getElem?_map,
    List.getD_eq_getElem?_getD]
  cases l[k / (e / 8)]? with
  | none => simp
  | some b => cases b <;> simp [hk, Nat.testBit_two_pow_sub_one, Nat.mod_lt _ he]

theorem merge_pred {e : Nat} (he : 0 < e / 8) (act r : List Bool) (old : Pred) {k : Nat} (hk : k < 128) :
    (merge (predOf e act) (predOf e r) old).getLsbD k =
      if act.getD (k / (e / 8)) false then r.getD (k / (e / 8)) false else old.getLsbD k := by
  rw [merge, BitVec.getLsbD_or, BitVec.getLsbD_and, BitVec.getLsbD_and, BitVec.getLsbD_not, predOf_getLsbD he _ hk,
    predOf_getLsbD he _ hk]
  cases act.getD (k / (e / 8)) false <;> simp [hk]

/-! ### Lists over the elements of a register -/

theorem getD_map_range {α : Type} (n : Nat) (f : Nat → α) (d : α) {j : Nat} (h : j < n) :
    ((List.range n).map f).getD j d = f j := by
  rw [List.getD_eq_getElem?_getD, List.getElem?_map, List.getElem?_range h]; rfl

theorem zipWith_map_range {α β γ : Type} (n : Nat) (g : α → β → γ) (a : Nat → α) (b : Nat → β) :
    List.zipWith g ((List.range n).map a) ((List.range n).map b) = (List.range n).map (fun j => g (a j) (b j)) := by
  rw [List.zipWith_map, List.zipWith_self]

theorem zip_map_range {α β : Type} (n : Nat) (a : Nat → α) (b : Nat → β) :
    ((List.range n).map a).zip ((List.range n).map b) = (List.range n).map (fun j => (a j, b j)) := by
  rw [List.zip, zipWith_map_range]

theorem foldl_flags (n : Nat) (sel : Nat → Bool) {α : Type} (r : Nat → α × Flags) :
    (((List.range n).map sel).zip ((List.range n).map r)).foldl (fun f (a, x) => if a then f ||| x.2 else f) (0 : Flags) =
      raisedBy n sel (fun j => (r j).2) := by
  rw [zip_map_range, List.foldl_map, raisedBy]

/-! ### Shapes -/

theorem act_eq (c : Core) (et : Fmt) (pg : PReg) :
    c.act et pg = (List.range (1024 / Fmt.width et)).map (c.active (Fmt.width et) pg) := by
  rw [Core.act, activeList]
  refine List.map_congr_left fun j hj => ?_
  have hw : j * Fmt.width et / 8 < 128 := by
    have h := Fmt.width_mul et (List.mem_range.1 hj)
    have := Fmt.width_pos et
    rw [Nat.mul_succ, Nat.mul_comm] at h
    omega
  unfold Core.active Core.pg
  by_cases h : pg = 0
  · rw [if_pos h, h, BitVec.getLsbD_allOnes]
    simp [hw]
  · rw [if_neg h, beq_false_of_ne h, Bool.false_or]

theorem els_eq (c : Core) (et : Fmt) (v : VReg) :
    c.els et v = (List.range (1024 / Fmt.width et)).map (c.el (Fmt.width et) v) := rfl

theorem vecOp_gives {i : Instr} {s : State} {vd : VReg} {lat : Nat} {k : Core → VOut} (he : exec i s = vecOp i s vd lat k)
    (h : Clean s i) : Gives s i s.iss.slot lat (.v (s.cur.pv vd) (k s.cur).mask (k s.cur).val) (k s.cur).flags :=
  he.trans (slotOp_clean h rfl)

/-- A vector result whose elements are given one by one. -/
theorem vecOp_vec {i : Instr} {s : State} {vd : VReg} {lat e : Nat} {k : Core → VOut} (he : exec i s = vecOp i s vd lat k)
    (h : Clean s i) (hp : 0 < e) {sel : Nat → Bool} {r : Nat → Nat}
    {fl : Flags} (hk : k s.cur = { mask := maskVec e ((List.range (1024 / e)).map sel), val := packVec e ((List.range (1024 / e)).map r), flags := fl }) :
    VecGives s i vd lat e sel r fl := by
  refine ⟨_, _, by have := vecOp_gives he h; rw [hk] at this; exact this, fun old j hj => ?_⟩
  have hm : e * (j + 1) ≤ 1024 := Nat.le_trans (Nat.mul_le_mul_left _ hj) (Nat.mul_div_le _ _)
  rw [elemOf_merge hp _ _ _ hm, getD_map_range _ _ _ hj, getD_map_range _ _ _ hj]

theorem vOut_eq (e n : Nat) (sel : Nat → Bool) (r : Nat → Nat × Flags) :
    vOut e ((List.range n).map sel) ((List.range n).map r) =
      { mask := maskVec e ((List.range n).map sel), val := packVec e ((List.range n).map (fun j => (r j).1))
        flags := raisedBy n sel (fun j => (r j).2) } := by
  rw [vOut, foldl_flags, List.map_map]; rfl

theorem vBin_gives {i : Instr} {s : State} {f : VrF} {lat : Nat} {op : Rm → Nat → Nat → Nat × Flags}
    (he : exec i s = vBin i f lat op s) (h : Clean s i) :
    VecGives s i f.vd lat (Fmt.width f.et) (s.cur.active (Fmt.width f.et) f.pg)
      (fun j => (op s.cur.c.rm (s.cur.el (Fmt.width f.et) f.vs1 j) (s.cur.el (Fmt.width f.et) f.vs2 j)).1)
      (raisedBy (1024 / Fmt.width f.et) (s.cur.active (Fmt.width f.et) f.pg)
        (fun j => (op s.cur.c.rm (s.cur.el (Fmt.width f.et) f.vs1 j) (s.cur.el (Fmt.width f.et) f.vs2 j)).2)) :=
  vecOp_vec he h (Fmt.width_pos _) (by rw [act_eq, els_eq, els_eq, zipWith_map_range, vOut_eq])

theorem vUn_gives {i : Instr} {s : State} {f : VuF} {lat : Nat} {op : Rm → Nat → Nat × Flags}
    (he : exec i s = vUn i f lat op s) (h : Clean s i) :
    VecGives s i f.vd lat (Fmt.width f.et) (s.cur.active (Fmt.width f.et) f.pg)
      (fun j => (op s.cur.c.rm (s.cur.el (Fmt.width f.et) f.vs1 j)).1)
      (raisedBy (1024 / Fmt.width f.et) (s.cur.active (Fmt.width f.et) f.pg)
        (fun j => (op s.cur.c.rm (s.cur.el (Fmt.width f.et) f.vs1 j)).2)) :=
  vecOp_vec he h (Fmt.width_pos _) (by
    rw [act_eq, els_eq, List.map_map, show (op s.cur.c.rm ∘ s.cur.el (Fmt.width f.et) f.vs1) = fun j => op s.cur.c.rm (s.cur.el (Fmt.width f.et) f.vs1 j) from rfl, vOut_eq])

theorem vTer_gives {i : Instr} {s : State} {f : VrF} {lat : Nat} {op : Rm → Nat → Nat → Nat → Nat × Flags}
    (he : exec i s = vTer i f lat op s) (h : Clean s i) :
    VecGives s i f.vd lat (Fmt.width f.et) (s.cur.active (Fmt.width f.et) f.pg)
      (fun j => (op s.cur.c.rm (s.cur.el (Fmt.width f.et) f.vs1 j) (s.cur.el (Fmt.width f.et) f.vs2 j) (s.cur.el (Fmt.width f.et) f.vd j)).1)
      (raisedBy (1024 / Fmt.width f.et) (s.cur.active (Fmt.width f.et) f.pg)
        (fun j => (op s.cur.c.rm (s.cur.el (Fmt.width f.et) f.vs1 j) (s.cur.el (Fmt.width f.et) f.vs2 j) (s.cur.el (Fmt.width f.et) f.vd j)).2)) :=
  vecOp_vec he h (Fmt.width_pos _) (by rw [act_eq, els_eq, els_eq, els_eq, zip_map_range, zipWith_map_range, vOut_eq])

theorem vOutI_gives {i : Instr} {s : State} {vd : VReg} {lat e : Nat} {k : Core → VOut} {sel : Nat → Bool} {r : Nat → Nat}
    (he : exec i s = vecOp i s vd lat k) (h : Clean s i) (hp : 0 < e)
    (hk : k s.cur = vOutI e ((List.range (1024 / e)).map sel) ((List.range (1024 / e)).map r)) :
    VecGives s i vd lat e sel r :=
  vecOp_vec he h hp hk

theorem vPred_gives {i : Instr} {s : State} {pd : PReg} {et : Fmt} {pg : PReg} {k : Core → List Bool} {r : Nat → Bool}
    (he : exec i s = vPred i s pd et pg k) (h : Clean s i) (hw : 8 ≤ Fmt.width et)
    (hk : k s.cur = (List.range (1024 / Fmt.width et)).map r) :
    PredGives s i pd 1 (Fmt.width et) (s.cur.active (Fmt.width et) pg) r := by
  refine ⟨_, _, he.trans (slotOp_clean h rfl), fun old b hb => ?_⟩
  have hn : b / (Fmt.width et / 8) < 1024 / Fmt.width et := by cases et <;> simp_all [Fmt.width] <;> omega
  rw [merge_pred (by omega) _ _ _ hb, hk, act_eq, getD_map_range _ _ _ hn, getD_map_range _ _ _ hn]

/-! ### Equal results -/

theorem raisedBy_congr {n : Nat} {sel : Nat → Bool} {f g : Nat → Flags} (h : ∀ j, j < n → sel j = true → f j = g j) :
    raisedBy n sel f = raisedBy n sel g := by
  unfold raisedBy
  have : ∀ (l : List Nat) (x : Flags), (∀ j ∈ l, j < n) →
      l.foldl (fun x j => if sel j then x ||| f j else x) x = l.foldl (fun x j => if sel j then x ||| g j else x) x := by
    intro l
    induction l with
    | nil => intros; rfl
    | cons a t ih =>
      intro x hl
      have ha := hl a (by simp)
      simp only [List.foldl_cons]
      rw [ih _ (fun j hj => hl j (by simp [hj]))]
      cases hs : sel a
      · rfl
      · simp only [if_true, h a ha hs]
  exact this _ _ (fun j hj => List.mem_range.1 hj)

theorem raisedBy_zero (n : Nat) (sel : Nat → Bool) : raisedBy n sel (fun _ => 0) = 0 := by
  unfold raisedBy
  generalize List.range n = l
  induction l with
  | nil => rfl
  | cons a t ih =>
    rw [List.foldl_cons, show (if sel a then (0 : Flags) ||| (fun _ => 0) a else 0) = 0 by split <;> simp]
    exact ih

theorem VecGives.congr {s : State} {i : Instr} {vd : VReg} {lat e : Nat} {sel sel' : Nat → Bool} {r r' : Nat → Nat}
    {fl fl' : Flags} (h : VecGives s i vd lat e sel r fl) (hs : ∀ j, j < 1024 / e → sel j = sel' j)
    (hr : ∀ j, j < 1024 / e → sel' j = true → r j % 2 ^ e = r' j % 2 ^ e) (hf : fl = fl') :
    VecGives s i vd lat e sel' r' fl' := by
  subst hf
  obtain ⟨mask, val, h1, h2⟩ := h
  refine ⟨mask, val, h1, fun old j hj => ?_⟩
  rw [h2 old j hj, hs j hj]
  cases hh : sel' j
  · rfl
  · simp only [if_true]; exact hr j hj hh

theorem PredGives.congr {s : State} {i : Instr} {pd : PReg} {lat e : Nat} {sel : Nat → Bool} {r r' : Nat → Bool}
    {fl fl' : Flags} (h : PredGives s i pd lat e sel r fl) (hr : ∀ j, r j = r' j) (hf : fl = fl') :
    PredGives s i pd lat e sel r' fl' := by
  rw [← hf, ← funext hr]; exact h

/-! ### The other shapes -/

theorem vCmp_gives {i : Instr} {s : State} {f : VcF} {op : Nat → Nat → Bool × Flags} (he : exec i s = vCmp i f op s)
    (h : Clean s i) (hw : 8 ≤ Fmt.width f.et) :
    PredGives s i f.pd 2 (Fmt.width f.et) (s.cur.active (Fmt.width f.et) f.pg)
      (fun j => (op (s.cur.el (Fmt.width f.et) f.vs1 j) (s.cur.el (Fmt.width f.et) f.vs2 j)).1)
      (raisedBy (1024 / Fmt.width f.et) (s.cur.active (Fmt.width f.et) f.pg)
        (fun j => (op (s.cur.el (Fmt.width f.et) f.vs1 j) (s.cur.el (Fmt.width f.et) f.vs2 j)).2)) := by
  have hk : List.zipWith op (s.cur.els f.et f.vs1) (s.cur.els f.et f.vs2) =
      (List.range (1024 / Fmt.width f.et)).map
        (fun j => op (s.cur.el (Fmt.width f.et) f.vs1 j) (s.cur.el (Fmt.width f.et) f.vs2 j)) := by
    rw [els_eq, els_eq, zipWith_map_range]
  refine ⟨predOf (Fmt.width f.et) (s.cur.act f.et f.pg), predOf (Fmt.width f.et) ((List.range (1024 / Fmt.width f.et)).map
      (fun j => (op (s.cur.el (Fmt.width f.et) f.vs1 j) (s.cur.el (Fmt.width f.et) f.vs2 j)).1)),
      he.trans (slotOp_clean h ?_), fun old b hb => ?_⟩
  · simp only [hk, List.map_map]
    rw [act_eq, foldl_flags]
    rfl
  · have hn : b / (Fmt.width f.et / 8) < 1024 / Fmt.width f.et := by cases hf : f.et <;> simp_all [Fmt.width] <;> omega
    rw [merge_pred (by omega) _ _ _ hb, act_eq, getD_map_range _ _ _ hn, getD_map_range _ _ _ hn]

theorem vPerm2_gives {i : Instr} {s : State} {f : VrF} {lat : Nat} {whole : Bool}
    {g : Nat → List Bool → List Nat → List Nat → Nat → Nat} (he : exec i s = vPerm2 i f lat whole g s) (h : Clean s i) :
    VecGives s i f.vd lat (Fmt.width f.et) (fun j => whole || s.cur.active (Fmt.width f.et) f.pg j)
      (g (1024 / Fmt.width f.et) (s.cur.act f.et f.pg) (s.cur.els f.et f.vs1) (s.cur.els f.et f.vs2)) := by
  refine vOutI_gives he h (Fmt.width_pos _) ?_
  simp only
  congr 1
  cases whole
  · simp only [Bool.false_eq_true, if_false, Bool.false_or]; exact act_eq _ _ _
  · simp [allTrue]

theorem lowestOnly_allTrue {n : Nat} (hn : 0 < n) : lowestOnly (allTrue n) = (List.range n).map (fun j => j == 0) := by
  obtain ⟨m, rfl⟩ : ∃ m, n = m + 1 := ⟨n - 1, by omega⟩
  rw [allTrue, List.replicate_succ, lowestOnly, List.range_succ_eq_map, List.map_cons, List.map_map, List.map_replicate]
  congr 1
  refine List.ext_getElem (by simp) fun k h1 h2 => ?_
  simp

theorem vRed_gives {i : Instr} {s : State} {f : VuF} {g : Core → List Bool → List Nat → Nat × Flags}
    (he : exec i s = vRed i f g s) (h : Clean s i) :
    VecGives s i f.vd 8 (Fmt.width f.et) (fun j => j == 0) (fun _ => (g s.cur (s.cur.act f.et f.pg) (s.cur.els f.et f.vs1)).1)
      (g s.cur (s.cur.act f.et f.pg) (s.cur.els f.et f.vs1)).2 := by
  have hn : 0 < 1024 / Fmt.width f.et := by cases f.et <;> decide
  have hg := vecOp_gives he h
  refine ⟨maskVec (Fmt.width f.et) ((List.range (1024 / Fmt.width f.et)).map (fun j => j == 0)),
    packVec (Fmt.width f.et) [(g s.cur (s.cur.act f.et f.pg) (s.cur.els f.et f.vs1)).1], ?_, fun old j hj => ?_⟩
  rotate_left
  · rw [elemOf_merge (Fmt.width_pos _) _ _ _ (Fmt.width_mul _ hj), getD_map_range _ _ _ hj]
    cases j with
    | zero => rfl
    | succ j => rfl
  · simp only [vOut, lowestOnly_allTrue hn, List.map_cons, List.map_nil] at hg
    have hf : ∀ x : Nat × Flags, (((List.range (1024 / Fmt.width f.et)).map (fun j => j == 0)).zip [x]).foldl
        (fun f (a, x) => if a then f ||| x.2 else f) (0 : Flags) = x.2 := by
      intro x
      obtain ⟨m, hm⟩ : ∃ m, 1024 / Fmt.width f.et = m + 1 := ⟨_, (Nat.succ_pred_eq_of_pos hn).symm⟩
      rw [hm, List.range_succ_eq_map]
      simp
    rw [hf] at hg
    exact hg

/-! ### The tree, the running result and the greatest element by places -/

theorem live_eq (act : Nat → Bool) (a : Nat → Nat) (n : Nat) (op : Nat → Nat → Nat × Flags) :
    live ((List.range n).map act) ((List.range n).map a) = (List.range n).map (redAt op act a 0) := by
  rw [live, zipWith_map_range]; rfl

theorem redLevel_range (op : Nat → Nat → Nat × Flags) (f : Nat → RedVal) (m : Nat) :
    redLevel op ((List.range (2 * m)).map f) = (List.range m).map (fun j => redNode op (f (2 * j)) (f (2 * j + 1))) := by
  induction m generalizing f with
  | zero => rfl
  | succ m ih =>
    rw [show 2 * (m + 1) = 2 * m + 1 + 1 by omega, List.range_succ_eq_map, List.range_succ_eq_map]
    simp only [List.map_cons, List.map_map, redLevel]
    rw [show (f ∘ Nat.succ ∘ Nat.succ) = fun j => f (j + 2) from rfl, ih, List.range_succ_eq_map]
    simp only [List.map_cons, List.map_map]
    congr 1

theorem redTree_range (op : Nat → Nat → Nat × Flags) (act : Nat → Bool) (a : Nat → Nat) (k l : Nat) :
    redTree op k ((List.range (2 ^ k)).map (redAt op act a l)) = [redAt op act a (l + k) 0] := by
  induction k generalizing l with
  | zero => rfl
  | succ k ih =>
    rw [redTree, Nat.pow_succ', redLevel_range, show l + (k + 1) = l + 1 + k by omega, ← ih (l + 1)]
    rfl

theorem log2n_pow {t : Fmt} (h : t.isVec = true) : 1024 / Fmt.width t = 2 ^ t.log2n := by
  cases t <;> first | rfl | simp [Fmt.isVec, Fmt.isFloat, Fmt.isInt] at h

theorem vec_width {t : Fmt} (h : t.isVec = true) : 8 ≤ Fmt.width t := by
  cases t <;> first | decide | simp [Fmt.isVec, Fmt.isFloat, Fmt.isInt] at h

/-- A reduction is the node at the root of its tree. -/
theorem reduce_eq {t : Fmt} (ht : t.isVec = true) (c : Core) (pg : PReg) (v : VReg) (op : Nat → Nat → Nat × Flags) (ident : Nat) :
    reduce t (c.act t pg) (c.els t v) op ident =
      (redAt op (c.active (Fmt.width t) pg) (c.el (Fmt.width t) v) t.log2n 0).getD (ident, 0) := by
  rw [reduce, act_eq, els_eq, live_eq _ _ _ op, log2n_pow ht, redTree_range, Nat.zero_add]
  cases redAt op (c.active (Fmt.width t) pg) (c.el (Fmt.width t) v) t.log2n 0 <;> rfl

theorem scanGo_eq (op : Nat → Nat → Nat × Flags) (act : Nat → Bool) (a : Nat → Nat) (m k : Nat) :
    scanGo op (runAt op act a k) ((List.range' k m).map (fun j => (act j, a j))) =
      (List.range' k m).map (fun j => if act j then (runAt op act a (j + 1)).getD (0, 0) else (0, 0)) := by
  induction m generalizing k with
  | zero => rfl
  | succ m ih =>
    rw [List.range'_succ, List.map_cons, List.map_cons, ← ih (k + 1)]
    cases h : act k with
    | false =>
      have hr : runAt op act a (k + 1) = runAt op act a k := by simp [runAt, h]
      rw [hr]; simp [scanGo]
    | true =>
      cases hk : runAt op act a k with
      | none =>
        have hr : runAt op act a (k + 1) = some (a k, 0) := by simp [runAt, h, hk]
        rw [hr]; simp [scanGo]
      | some x =>
        have hr : runAt op act a (k + 1) = some (op x.1 (a k)) := by simp [runAt, h, hk]
        rw [hr]; obtain ⟨x1, x2⟩ := x; simp [scanGo]

theorem vScan_gives {i : Instr} {s : State} {f : VuF} {op : Core → Nat → Nat → Nat × Flags}
    (he : exec i s = vScan i f op s) (h : Clean s i) :
    VecGives s i f.vd 10 (Fmt.width f.et) (s.cur.active (Fmt.width f.et) f.pg)
      (fun j => ((runAt (op s.cur) (s.cur.active (Fmt.width f.et) f.pg) (s.cur.el (Fmt.width f.et) f.vs1) (j + 1)).getD (0, 0)).1)
      (raisedBy (1024 / Fmt.width f.et) (s.cur.active (Fmt.width f.et) f.pg) (fun j =>
        ((runAt (op s.cur) (s.cur.active (Fmt.width f.et) f.pg) (s.cur.el (Fmt.width f.et) f.vs1) (j + 1)).getD (0, 0)).2)) := by
  have hk : scanGo (op s.cur) none ((s.cur.act f.et f.pg).zip (s.cur.els f.et f.vs1)) =
      (List.range (1024 / Fmt.width f.et)).map (fun j => if s.cur.active (Fmt.width f.et) f.pg j then
        (runAt (op s.cur) (s.cur.active (Fmt.width f.et) f.pg) (s.cur.el (Fmt.width f.et) f.vs1) (j + 1)).getD (0, 0) else (0, 0)) := by
    rw [act_eq, els_eq, zip_map_range, List.range_eq_range']
    exact scanGo_eq (op s.cur) _ _ _ 0
  have hv := vecOp_vec (sel := s.cur.active (Fmt.width f.et) f.pg) he h (Fmt.width_pos _)
    (by simp only; rw [hk, act_eq, vOut_eq])
  refine hv.congr (fun _ _ => rfl) (fun j _ hj => by rw [if_pos hj]) (raisedBy_congr fun j _ hj => by rw [if_pos hj])

theorem argmaxGo_eq (t : Fmt) (act : Nat → Bool) (a : Nat → Nat) (m k : Nat) :
    argmaxGo t ((bestAt (elGt t) (fun j => act j && !elNaN t (a j)) a k).map (fun b => (b, a b))) k
        ((List.range' k m).map (fun j => (act j, a j))) =
      (bestAt (elGt t) (fun j => act j && !elNaN t (a j)) a (k + m)).map (fun b => (b, a b)) := by
  induction m generalizing k with
  | zero => rfl
  | succ m ih =>
    rw [List.range'_succ, List.map_cons, show k + (m + 1) = k + 1 + m by omega, ← ih (k + 1)]
    simp only [argmaxGo, bestAt]
    congr 1
    generalize bestAt (elGt t) (fun j => act j && !elNaN t (a j)) a k = b
    by_cases hx : act k = true <;> by_cases hy : elNaN t (a k) = true <;> cases b <;> simp [hx, hy]
    split <;> rfl

end Sys2Proof.Machine
end

