-- ==== Sys2Proof/Machine/Compress.lean ====
section
/-! DEFINITION. The compression of chunks on the on-die network and the UCIe links (R249 to R251): what a coder sends for the
64 words of a chunk, and what a decoder delivers. It changes no value; the transfers of this model carry words. -/

namespace Sys2Proof.Machine.Compress

/-- The tag of a word after the previous word of its sub-stream: the first that applies (R249). -/
def tagOf (prev w : Word) : BitVec 2 :=
  if w = 0 then 0
  else if (w.setWidth 8).signExtend 32 = w then 1
  else if ((w - prev).setWidth 16).signExtend 32 = w - prev then 2
  else 3

/-- The payload that a tag gives a word, little-endian. -/
def payload (tag : BitVec 2) (prev w : Word) : List Byte :=
  if tag = 0 then [] else if tag = 1 then leBytes 1 w.toNat
  else if tag = 2 then leBytes 2 (w - prev).toNat else leBytes 4 w.toNat

/-- Payload bytes that a tag implies. -/
def payloadLen (tag : BitVec 2) : Nat := if tag = 0 then 0 else if tag = 1 then 1 else if tag = 2 then 2 else 4

/-- Tags and payloads of a sub-stream's words. -/
def codeWords : Word → List Word → List (BitVec 2) × List Byte
  | _, [] => ([], [])
  | prev, w :: ws =>
    let (ts, bs) := codeWords w ws
    (tagOf prev w :: ts, payload (tagOf prev w) prev w ++ bs)

/-- The tag word: tag q in bits 2q + 1 and 2q. -/
def tagWord : List (BitVec 2) → Nat
  | [] => 0
  | t :: ts => t.toNat + 4 * tagWord ts

def tagsOf (v : Nat) : Nat → List (BitVec 2)
  | 0 => []
  | n + 1 => BitVec.ofNat 2 v :: tagsOf (v / 4) n

/-- Sub-stream j of a chunk: words j, j + 4, and so on. -/
def subStream (ws : List Word) (j : Nat) : List Word := (List.range 16).map (fun q => ws.getD (j + 4 * q) 0)

/-- A coded sub-stream (R250). -/
def codeSub (ws : List Word) : List Byte :=
  let (ts, bs) := codeWords 0 ws
  leBytes 4 (tagWord ts) ++ bs

/-- The coded chunk without its padding. -/
def codeChunk (ws : List Word) : List Byte :=
  let subs := (List.range 4).map (fun j => codeSub (subStream ws j))
  subs.map (fun b => BitVec.ofNat 8 b.length) ++ subs.flatten

/-- Flits of 32 bytes. -/
def flits (n : Nat) : Nat := (n + 31) / 32

/-- What travels: the mode bit and the bytes (R250). -/
def send (ws : List Word) : Bool × List Byte :=
  let b := codeChunk ws
  if 8 ≤ flits b.length then (false, ws.flatMap (fun w => leBytes 4 w.toNat))
  else (true, b ++ List.replicate (32 * flits b.length - b.length) 0)

/-- The word that a payload gives. -/
def wordOf (tag : BitVec 2) (prev : Word) (bs : List Byte) : Word :=
  if tag = 0 then 0
  else if tag = 1 then (BitVec.ofNat 8 (leNat bs)).signExtend 32
  else if tag = 2 then prev + (BitVec.ofNat 16 (leNat bs)).signExtend 32
  else BitVec.ofNat 32 (leNat bs)

/-- Words of a sub-stream from its tags and payload bytes, which must be used up; each word is the next one's prev. -/
def decodeWords : Word → List (BitVec 2) → List Byte → Option (List Word)
  | _, [], bs => if bs.isEmpty then some [] else none
  | prev, t :: ts, bs =>
    let w := wordOf t prev (bs.take (payloadLen t))
    if bs.length < payloadLen t then none
    else (decodeWords w ts (bs.drop (payloadLen t))).map (w :: ·)

/-- A sub-stream: a length other than 4 plus the payload bytes that its tags imply is an error (R251). -/
def decodeSub (bs : List Byte) : Option (List Word) :=
  if bs.length < 4 then none else decodeWords 0 (tagsOf (leNat (bs.take 4)) 16) (bs.drop 4)

/-- The sub-streams of the lengths given, one after another. -/
def decodeSubs : List Nat → List Byte → Option (List (List Word))
  | [], _ => some []
  | n :: ns, bs =>
    match decodeSub (bs.take n), decodeSubs ns (bs.drop n) with
    | some w, some ws => if bs.length < n then none else some (w :: ws)
    | _, _ => none

/-- Word k of the chunk is word k / 4 of sub-stream k mod 4. -/
def interleave (subs : List (List Word)) : List Word :=
  (List.range 64).map (fun k => (subs.getD (k % 4) []).getD (k / 4) 0)

def wordsOf : Nat → List Byte → List Word
  | 0, _ => []
  | n + 1, bs => BitVec.ofNat 32 (leNat (bs.take 4)) :: wordsOf n (bs.drop 4)

/-- What a decoder delivers: the whole chunk, or nothing where R251 finds an error. -/
def receive (mode : Bool) (bs : List Byte) : Option (List Word) :=
  if mode then
    let lens := (bs.take 4).map (·.toNat)
    let len := 4 + lens.sum
    if bs.length % 32 ≠ 0 ∨ 256 ≤ bs.length ∨ bs.length ≠ 32 * flits len then none
    else if (bs.drop len).any (· != 0) then none
    else (decodeSubs lens (bs.drop 4)).map interleave
  else if bs.length = 256 then some (wordsOf 64 bs) else none

end Sys2Proof.Machine.Compress
end

