-- ==== Sys2Proof/Tests/Slice0.lean ====
section
/-! SUPPORT. Tests: ill-formed terms that the check refuses, words written out from the manual's formats that decode to what
they stand for, single steps with results worked out from the manual, and for each statement of
`Sys2Proof/Certificates/Slice0/Obligations.lean` states that meet its hypotheses (`wit_…`, named as the statement). -/

namespace Sys2Proof.Tests

set_option Elab.async false

open Sys2Proof Sys2Proof.Machine
open Host (Outcome)

/-! ### Small states -/

/-- A capability by its fields (R164). -/
def capOf (space base len : Nat) (perm : BitVec 8) : Cap :=
  BitVec.ofNat 256 (base + 2 ^ 48 * len + 2 ^ 96 * perm.toNat + 2 ^ 104 * space)

/-- A core that runs a task of context 0: h0 is the root; h1 SPAD, h2 GLOB, h3 WGT, h4 a barrier page, h6 CLUS, each with
every permission; h5 has no tag. -/
def busy : Core :=
  { State.reset.core 0 with
    mode := .running, task := some placedTask
    r := { Regs.zero with
      h := #v[rootCap 0, capOf 0 0 0x100000 0xFF, capOf 2 0 0x10000 0xFF, capOf 3 0 0x10000 0xFF, capOf 6 0 0x1000 0xFF,
        0, capOf 1 0 0x1000 0xFF, 0, 0, 0, 0, 0, 0, 0, 0, 0]
      htag := 0x005F } }

/-- Core 0 is `c` and acts; nothing else has happened. -/
def at0 (c : Core) : State := { State.reset with cores := [(0, c)], iss := { Issue.none with slot := .va } }

def quiet : State := at0 busy

/-- x[r] holds v. -/
def Core.withX (c : Core) (r : XReg) (v : DWord) : Core := c.wx r v

/-- No register carries a poison mark. -/
abbrev Unmarked (c : Core) : Prop := c.r.xmark = 0 ∧ c.r.hmark = 0 ∧ c.r.vmark = .replicate 64 0

theorem marks_unmarked {c : Core} (h : Unmarked c) (u : Uses) : c.marks u = [] := by
  obtain ⟨h1, h2, h3⟩ := h
  have e : ∀ k d : Nat, (c.r.vmark[k]?.getD 0).getLsbD d = false := by
    intro k d
    rw [h3]
    by_cases hk : k < 64
    · simp [hk]
    · simp [hk]
  simp [Core.marks, h1, h2, bit]
  exact fun x _ d _ => e x d

theorem poisonTrap_unmarked {s : State} (h : Unmarked s.cur) (i : Instr) (lit : Word) : s.poisonTrap i lit = none := by
  simp [State.poisonTrap, marks_unmarked h]

/-- Where no register is marked every operation is clean. -/
theorem clean {s : State} (h : Unmarked s.cur) (i : Instr) : Clean s i := poisonTrap_unmarked h i 0

theorem quiet_clean (i : Instr) : Clean quiet i := clean (by decide) i

theorem busy_ok : busy.Ok := by
  refine ⟨by decide, by decide, by decide, by decide, by decide, by decide, ?_⟩
  intro k h
  cases h
  exact by decide

/-- A sound core in the state of `at0` makes a sound state. -/
theorem at0_ok {c : Core} (h : c.Ok) : (at0 c).Ok :=
  ⟨rfl, rfl, rfl, rfl, by simpa [at0] using h, by simp [at0, State.reset, Device.reset]⟩

theorem quiet_ok : quiet.Ok := at0_ok busy_ok

/-- A core with other registers, h0 still its root, is sound as well. -/
theorem busy_r_ok {r : Regs} (h : r.h = busy.r.h) (ht : r.htag = busy.r.htag) : ({ busy with r := r } : Core).Ok := by
  obtain ⟨h1, h2, h3, h4, h5, h6, h7⟩ := busy_ok
  refine ⟨h1, h2, h3, h4, h5, h6, ?_⟩
  dsimp only
  rw [h, ht]
  exact h7

/-- The entry `k` names context `ctx`. -/
def ownedBy (ctx : BitVec 16) (k : Nat) (s : State) : State :=
  { s with dev := { s.dev with owners := [(k, { owner := ctx, scrub := false })] } }

/-! ### Ill-formed terms, one for each check of `Instr.wf` -/

theorem test_wf_refuses_loop_length : Instr.wf (.loop { rs1 := 5, stg := 0, len := 0, maxe := 0, maxm := 0 }) = false := by decide
theorem test_wf_refuses_loop_stage : Instr.wf (.loop { rs1 := 5, stg := 1, len := 3, maxe := 0, maxm := 0 }) = false := by decide
theorem test_wf_refuses_loopW_length : Instr.wf (.loopW { rs1 := 5, stg := 0, len := 0, maxe := 0, maxm := 0 }) = false := by decide
theorem test_wf_refuses_loopW_stage : Instr.wf (.loopW { rs1 := 5, stg := 4, len := 3, maxe := 0, maxm := 0 }) = false := by decide
theorem test_wf_refuses_loopSp_length : Instr.wf (.loopSp { rs1 := 5, stg := 2, len := 0, maxe := 0, maxm := 0 }) = false := by decide
theorem test_wf_refuses_csrrw_unlisted : Instr.wf (.csrrw { rd := 5, rs1 := 6, csr := 0x81F }) = false := by decide
theorem test_wf_refuses_csrrw_read_only : Instr.wf (.csrrw { rd := 5, rs1 := 0, csr := 0xCC0 }) = false := by decide
theorem test_wf_refuses_csrrs_read_only : Instr.wf (.csrrs { rd := 5, rs1 := 6, csr := 0xCC6 }) = false := by decide
theorem test_wf_refuses_csrrc_unlisted : Instr.wf (.csrrc { rd := 5, rs1 := 0, csr := 0x807 }) = false := by decide
theorem test_wf_refuses_csrrwi_read_only : Instr.wf (.csrrwi { rd := 5, uimm := 0, csr := 0xCC0 }) = false := by decide
theorem test_wf_refuses_csrrsi_read_only : Instr.wf (.csrrsi { rd := 5, uimm := 1, csr := 0xCC3 }) = false := by decide
theorem test_wf_refuses_csrrci_unlisted : Instr.wf (.csrrci { rd := 5, uimm := 0, csr := 0xCC7 }) = false := by decide
theorem test_wf_refuses_idle_b : Instr.wf (.idle .b) = false := by decide
theorem test_wf_refuses_idle_s : Instr.wf (.idle .s) = false := by decide
theorem test_wf_refuses_vadd_type : Instr.wf (.vadd { vd := 40, vs1 := 41, vs2 := 42, et := .l6, pg := 0 }) = false := by decide
theorem test_wf_refuses_vdiv_type : Instr.wf (.vdiv { vd := 40, vs1 := 41, vs2 := 42, et := .i32, pg := 0 }) = false := by decide
theorem test_wf_refuses_vfma_type : Instr.wf (.vfma { vd := 40, vs1 := 41, vs2 := 42, et := .i8, pg := 0 }) = false := by decide
theorem test_wf_refuses_vshl_type : Instr.wf (.vshl { vd := 40, vs1 := 41, vs2 := 42, et := .f32, pg := 0 }) = false := by decide
theorem test_wf_refuses_vmulh_type : Instr.wf (.vmulh { vd := 40, vs1 := 41, vs2 := 42, et := .bf16, pg := 0 }) = false := by decide
theorem test_wf_refuses_vrand_type : Instr.wf (.vrand { vd := 40, vs1 := 41, vs2 := 42, et := .i16, pg := 0 }) = false := by decide
theorem test_wf_refuses_vneg_type : Instr.wf (.vneg { vd := 40, vs1 := 41, et := .i4, pg := 0 }) = false := by decide
theorem test_wf_refuses_vsqrt_type : Instr.wf (.vsqrt { vd := 40, vs1 := 41, et := .i64, pg := 0 }) = false := by decide
theorem test_wf_refuses_vexp2_type : Instr.wf (.vexp2 { vd := 40, vs1 := 41, et := .f64, pg := 0 }) = false := by decide
theorem test_wf_refuses_vlog2_type : Instr.wf (.vlog2 { vd := 40, vs1 := 41, et := .i32, pg := 0 }) = false := by decide
theorem test_wf_refuses_vbcast_type : Instr.wf (.vbcast { vd := 40, x := 5, et := .i4, pg := 0 }) = false := by decide
theorem test_wf_refuses_viota_type : Instr.wf (.viota { vd := 40, et := .l6, pg := 0 }) = false := by decide
theorem test_wf_refuses_vli_type : Instr.wf (.vli { vd := 40, imm := 1, et := .l6, pg := 0 }) = false := by decide
theorem test_wf_refuses_vcmpEq_type : Instr.wf (.vcmpEq { pd := 1, vs1 := 41, vs2 := 42, et := .i4, pg := 0 }) = false := by decide
theorem test_wf_refuses_vcmpUn_type : Instr.wf (.vcmpUn { pd := 1, vs1 := 41, vs2 := 42, et := .i32, pg := 0 }) = false := by decide
theorem test_wf_refuses_vcmpLtu_type : Instr.wf (.vcmpLtu { pd := 1, vs1 := 41, vs2 := 42, et := .f16, pg := 0 }) = false := by decide
theorem test_wf_refuses_vpand_type : Instr.wf (.vpand { pd := 1, ps1 := 2, ps2 := 3, et := .l6, pg := 0 }) = false := by decide
theorem test_wf_refuses_vpnot_type : Instr.wf (.vpnot { pd := 1, ps1 := 2, et := .l6, pg := 0 }) = false := by decide
theorem test_wf_refuses_vpset_type : Instr.wf (.vpset { pd := 1, et := .l6, pg := 0 }) = false := by decide
theorem test_wf_refuses_vpcnt_type : Instr.wf (.vpcnt { ps := 1, x := 5, et := .l6, pg := 0 }) = false := by decide
theorem test_wf_refuses_vslideup_type : Instr.wf (.vslideup { vd := 40, vs1 := 41, amt := 1, et := .l6, pg := 0 }) = false := by decide
theorem test_wf_refuses_vbitonic_type : Instr.wf (.vbitonic { vd := 40, vs1 := 41, b := 3, d := 2, et := .l6, pg := 0 }) = false := by decide
theorem test_wf_refuses_vbitonic_distance : Instr.wf (.vbitonic { vd := 40, vs1 := 41, b := 5, d := 4, et := .f64, pg := 0 }) = false := by decide
theorem test_wf_refuses_vbitonic_block : Instr.wf (.vbitonic { vd := 40, vs1 := 41, b := 2, d := 2, et := .f64, pg := 0 }) = false := by decide
theorem test_wf_refuses_vld_latency : Instr.wf (.vld { vt := 40, h := 2, xi := 6, l := true, imm := 0 }) = false := by decide
theorem test_wf_refuses_vgather_latency : Instr.wf (.vgather { vt := 40, h := 2, xi := 6, l := true, imm := 0 }) = false := by decide
theorem test_wf_refuses_ld_latency : Instr.wf (.ld { xt := 5, h := 2, xi := 6, l := true, imm := 0 }) = false := by decide
theorem test_wf_refuses_ldSc_latency : Instr.wf (.ldSc { xt := 5, h := 2, xi := 6, imm := 0 }) = false := by decide
theorem test_wf_refuses_vfence_relaxed : Instr.wf (.vfence { scope := .die, ord := .relaxed }) = false := by decide
theorem test_wf_refuses_cldh_h0 : Instr.wf (.cldh { ha := 0, hb := 2, xa := 6, imm := 0 }) = false := by decide
theorem test_wf_refuses_cnarrow_h0 : Instr.wf (.cnarrow { ha := 0, hb := 2, xa := 6, xb := 7, perm := 0 }) = false := by decide
theorem test_wf_refuses_cget_selector : Instr.wf (.cget { xa := 5, hb := 2, sel := 10 }) = false := by decide
theorem test_wf_refuses_cmov_h0 : Instr.wf (.cmov { ha := 0, hb := 2 }) = false := by decide
theorem test_wf_refuses_cclr_h0 : Instr.wf (.cclr 0) = false := by decide
theorem test_wf_refuses_wload_arrival : Instr.wf (.wload { os := 1, h := 3, xi := 6, arr := 0, step := 0, ostep := 0 }) = false := by decide
theorem test_wf_refuses_xexpS24_type : Instr.wf (.xexpS24 { vd := 41, vs := 40, dt := .i4 }) = false := by decide
theorem test_wf_refuses_xcvt_destination : Instr.wf (.xcvt { vd := 41, vs := 40, dt := .i4, st := .f32 }) = false := by decide
theorem test_wf_refuses_xcvt_source : Instr.wf (.xcvt { vd := 41, vs := 40, dt := .f32, st := .i4 }) = false := by decide
theorem test_wf_refuses_event : Instr.wf .hostLinkUp = false := by decide

/-! ### Words written out from the formats of R73 to R78 -/

/-- B slot (R73, R118). -/
def branchesAWords : List (DWord × Instr) :=
  [(w32 (1#6 ++ 5#5 ++ 9#5 ++ 65534#16 : BitVec 32), .beq { rs1 := 5, rs2 := 9, off := 65534 }),
    (w32 (2#6 ++ 6#5 ++ 10#5 ++ 65533#16 : BitVec 32), .bne { rs1 := 6, rs2 := 10, off := 65533 }),
    (w32 (3#6 ++ 7#5 ++ 11#5 ++ 65532#16 : BitVec 32), .blt { rs1 := 7, rs2 := 11, off := 65532 }),
    (w32 (4#6 ++ 8#5 ++ 12#5 ++ 65531#16 : BitVec 32), .bge { rs1 := 8, rs2 := 12, off := 65531 }),
    (w32 (5#6 ++ 9#5 ++ 13#5 ++ 65530#16 : BitVec 32), .bltu { rs1 := 9, rs2 := 13, off := 65530 }),
    (w32 (6#6 ++ 10#5 ++ 14#5 ++ 65529#16 : BitVec 32), .bgeu { rs1 := 10, rs2 := 14, off := 65529 }),
    (w32 (7#6 ++ 3#4 ++ 0#6 ++ 12#16 : BitVec 32), .bpt { p := 3, off := 12 }),
    (w32 (8#6 ++ 4#4 ++ 0#6 ++ 13#16 : BitVec 32), .bpf { p := 4, off := 13 }),
    (w32 (9#6 ++ 0#5 ++ 2097136#21 : BitVec 32), .jmp 0x1FFFF0),
    (w32 (10#6 ++ 1#5 ++ 40#21 : BitVec 32), .call { rd := 1, off := 40 }),
    (w32 (11#6 ++ 1#5 ++ 0#21 : BitVec 32), .ret 1),
    (w32 (12#6 ++ 7#5 ++ 0#3 ++ 33#10 ++ 2#4 ++ 15#4 : BitVec 32),
      .loop { rs1 := 7, stg := 0, len := 33, maxe := 2, maxm := 15 }),
    (w32 (13#6 ++ 8#5 ++ 0#3 ++ 34#10 ++ 3#4 ++ 1#4 : BitVec 32),
      .loopW { rs1 := 8, stg := 0, len := 34, maxe := 3, maxm := 1 }),
    (w32 (14#6 ++ 9#5 ++ 4#3 ++ 1023#10 ++ 0#4 ++ 9#4 : BitVec 32),
      .loopSp { rs1 := 9, stg := 4, len := 1023, maxe := 0, maxm := 9 }),
    (w32 (15#6 ++ 6#5 ++ 0#21 : BitVec 32), .lend 6),
    (w32 (16#6 ++ 4#5 ++ 0#21 : BitVec 32), .lbrk 4),
    (w32 (17#6 ++ 1#7 ++ 2#6 ++ 3#5 ++ 4#6 ++ 0#2 : BitVec 32), .wait { st := 1, cp := 2, tl := 3, wl := 4 }),
    (w32 (18#6 ++ 0#22 ++ 1#2 ++ 3#2 : BitVec 32), .setfmt .w56 .rdn),
    (w32 (19#6 ++ 2#5 ++ 0#21 : BitVec 32), .litset 2),
    (w32 (20#6 ++ 0#26 : BitVec 32), .sstep)]

theorem test_decode_branchesA : branchesAWords.all (fun e => decide (decodeSlot .b e.1 = .ok e.2)) = true := by decide

/-- B slot (R73, R118). -/
def branchesBWords : List (DWord × Instr) :=
  [(w32 (21#6 ++ 3#5 ++ 0#21 : BitVec 32), .iinv 3),
    (w32 (22#6 ++ 0#26 : BitVec 32), .yield),
    (w32 (23#6 ++ 0#26 : BitVec 32), .halt),
    (w32 (24#6 ++ 0#18 ++ 165#8 : BitVec 32), .trap 0xA5),
    (w32 (25#6 ++ 0#26 : BitVec 32), .tret)]

theorem test_decode_branchesB : branchesBWords.all (fun e => decide (decodeSlot .b e.1 = .ok e.2)) = true := by decide

/-- S slot, integer (R74, R110). -/
def integerAWords : List (DWord × Instr) :=
  [(w32 (703710#20 ++ 5#5 ++ 55#7 : BitVec 32), .lui { rd := 5, imm := 0xABCDE }),
    (w32 (703710#20 ++ 5#5 ++ 23#7 : BitVec 32), .auipc { rd := 5, imm := 0xABCDE }),
    (w32 (4080#12 ++ 6#5 ++ 0#3 ++ 5#5 ++ 19#7 : BitVec 32), .addi { rd := 5, rs1 := 6, imm := 4080 }),
    (w32 (4082#12 ++ 6#5 ++ 2#3 ++ 5#5 ++ 19#7 : BitVec 32), .slti { rd := 5, rs1 := 6, imm := 4082 }),
    (w32 (4083#12 ++ 6#5 ++ 3#3 ++ 5#5 ++ 19#7 : BitVec 32), .sltiu { rd := 5, rs1 := 6, imm := 4083 }),
    (w32 (4084#12 ++ 6#5 ++ 4#3 ++ 5#5 ++ 19#7 : BitVec 32), .xori { rd := 5, rs1 := 6, imm := 4084 }),
    (w32 (4086#12 ++ 6#5 ++ 6#3 ++ 5#5 ++ 19#7 : BitVec 32), .ori { rd := 5, rs1 := 6, imm := 4086 }),
    (w32 (4087#12 ++ 6#5 ++ 7#3 ++ 5#5 ++ 19#7 : BitVec 32), .andi { rd := 5, rs1 := 6, imm := 4087 }),
    (w32 (0#6 ++ 43#6 ++ 6#5 ++ 1#3 ++ 5#5 ++ 19#7 : BitVec 32), .slli { rd := 5, rs1 := 6, sh := 43 }),
    (w32 (0#6 ++ 43#6 ++ 6#5 ++ 5#3 ++ 5#5 ++ 19#7 : BitVec 32), .srli { rd := 5, rs1 := 6, sh := 43 }),
    (w32 (16#6 ++ 43#6 ++ 6#5 ++ 5#3 ++ 5#5 ++ 19#7 : BitVec 32), .srai { rd := 5, rs1 := 6, sh := 43 }),
    (w32 (0#7 ++ 11#5 ++ 10#5 ++ 0#3 ++ 12#5 ++ 51#7 : BitVec 32), .add { rd := 12, rs1 := 10, rs2 := 11 }),
    (w32 (32#7 ++ 11#5 ++ 10#5 ++ 0#3 ++ 12#5 ++ 51#7 : BitVec 32), .sub { rd := 12, rs1 := 10, rs2 := 11 }),
    (w32 (0#7 ++ 11#5 ++ 10#5 ++ 1#3 ++ 12#5 ++ 51#7 : BitVec 32), .sll { rd := 12, rs1 := 10, rs2 := 11 }),
    (w32 (0#7 ++ 11#5 ++ 10#5 ++ 2#3 ++ 12#5 ++ 51#7 : BitVec 32), .slt { rd := 12, rs1 := 10, rs2 := 11 }),
    (w32 (0#7 ++ 11#5 ++ 10#5 ++ 3#3 ++ 12#5 ++ 51#7 : BitVec 32), .sltu { rd := 12, rs1 := 10, rs2 := 11 }),
    (w32 (0#7 ++ 11#5 ++ 10#5 ++ 4#3 ++ 12#5 ++ 51#7 : BitVec 32), .xor { rd := 12, rs1 := 10, rs2 := 11 }),
    (w32 (0#7 ++ 11#5 ++ 10#5 ++ 5#3 ++ 12#5 ++ 51#7 : BitVec 32), .srl { rd := 12, rs1 := 10, rs2 := 11 }),
    (w32 (32#7 ++ 11#5 ++ 10#5 ++ 5#3 ++ 12#5 ++ 51#7 : BitVec 32), .sra { rd := 12, rs1 := 10, rs2 := 11 }),
    (w32 (0#7 ++ 11#5 ++ 10#5 ++ 6#3 ++ 12#5 ++ 51#7 : BitVec 32), .or { rd := 12, rs1 := 10, rs2 := 11 })]

theorem test_decode_integerA : integerAWords.all (fun e => decide (decodeSlot .s e.1 = .ok e.2)) = true := by decide

/-- S slot, integer (R74, R110). -/
def integerBWords : List (DWord × Instr) :=
  [(w32 (0#7 ++ 11#5 ++ 10#5 ++ 7#3 ++ 12#5 ++ 51#7 : BitVec 32), .and { rd := 12, rs1 := 10, rs2 := 11 }),
    (w32 (2049#12 ++ 6#5 ++ 0#3 ++ 5#5 ++ 27#7 : BitVec 32), .addiw { rd := 5, rs1 := 6, imm := 0x801 }),
    (w32 (0#7 ++ 21#5 ++ 6#5 ++ 1#3 ++ 5#5 ++ 27#7 : BitVec 32), .slliw { rd := 5, rs1 := 6, sh := 21 }),
    (w32 (0#7 ++ 21#5 ++ 6#5 ++ 5#3 ++ 5#5 ++ 27#7 : BitVec 32), .srliw { rd := 5, rs1 := 6, sh := 21 }),
    (w32 (32#7 ++ 21#5 ++ 6#5 ++ 5#3 ++ 5#5 ++ 27#7 : BitVec 32), .sraiw { rd := 5, rs1 := 6, sh := 21 }),
    (w32 (0#7 ++ 11#5 ++ 10#5 ++ 0#3 ++ 12#5 ++ 59#7 : BitVec 32), .addw { rd := 12, rs1 := 10, rs2 := 11 }),
    (w32 (32#7 ++ 11#5 ++ 10#5 ++ 0#3 ++ 12#5 ++ 59#7 : BitVec 32), .subw { rd := 12, rs1 := 10, rs2 := 11 }),
    (w32 (0#7 ++ 11#5 ++ 10#5 ++ 1#3 ++ 12#5 ++ 59#7 : BitVec 32), .sllw { rd := 12, rs1 := 10, rs2 := 11 }),
    (w32 (0#7 ++ 11#5 ++ 10#5 ++ 5#3 ++ 12#5 ++ 59#7 : BitVec 32), .srlw { rd := 12, rs1 := 10, rs2 := 11 }),
    (w32 (32#7 ++ 11#5 ++ 10#5 ++ 5#3 ++ 12#5 ++ 59#7 : BitVec 32), .sraw { rd := 12, rs1 := 10, rs2 := 11 })]

theorem test_decode_integerB : integerBWords.all (fun e => decide (decodeSlot .s e.1 = .ok e.2)) = true := by decide

/-- S slot, the other groups. -/
def scalarRestAWords : List (DWord × Instr) :=
  [(w32 (1#7 ++ 11#5 ++ 10#5 ++ 0#3 ++ 12#5 ++ 51#7 : BitVec 32), .mul { rd := 12, rs1 := 10, rs2 := 11 }),
    (w32 (1#7 ++ 11#5 ++ 10#5 ++ 1#3 ++ 12#5 ++ 51#7 : BitVec 32), .mulh { rd := 12, rs1 := 10, rs2 := 11 }),
    (w32 (1#7 ++ 11#5 ++ 10#5 ++ 2#3 ++ 12#5 ++ 51#7 : BitVec 32), .mulhsu { rd := 12, rs1 := 10, rs2 := 11 }),
    (w32 (1#7 ++ 11#5 ++ 10#5 ++ 3#3 ++ 12#5 ++ 51#7 : BitVec 32), .mulhu { rd := 12, rs1 := 10, rs2 := 11 }),
    (w32 (1#7 ++ 11#5 ++ 10#5 ++ 4#3 ++ 12#5 ++ 51#7 : BitVec 32), .div { rd := 12, rs1 := 10, rs2 := 11 }),
    (w32 (1#7 ++ 11#5 ++ 10#5 ++ 5#3 ++ 12#5 ++ 51#7 : BitVec 32), .divu { rd := 12, rs1 := 10, rs2 := 11 }),
    (w32 (1#7 ++ 11#5 ++ 10#5 ++ 6#3 ++ 12#5 ++ 51#7 : BitVec 32), .rem { rd := 12, rs1 := 10, rs2 := 11 }),
    (w32 (1#7 ++ 11#5 ++ 10#5 ++ 7#3 ++ 12#5 ++ 51#7 : BitVec 32), .remu { rd := 12, rs1 := 10, rs2 := 11 }),
    (w32 (1#7 ++ 11#5 ++ 10#5 ++ 0#3 ++ 12#5 ++ 59#7 : BitVec 32), .mulw { rd := 12, rs1 := 10, rs2 := 11 }),
    (w32 (1#7 ++ 11#5 ++ 10#5 ++ 4#3 ++ 12#5 ++ 59#7 : BitVec 32), .divw { rd := 12, rs1 := 10, rs2 := 11 }),
    (w32 (1#7 ++ 11#5 ++ 10#5 ++ 5#3 ++ 12#5 ++ 59#7 : BitVec 32), .divuw { rd := 12, rs1 := 10, rs2 := 11 }),
    (w32 (1#7 ++ 11#5 ++ 10#5 ++ 6#3 ++ 12#5 ++ 59#7 : BitVec 32), .remw { rd := 12, rs1 := 10, rs2 := 11 }),
    (w32 (1#7 ++ 11#5 ++ 10#5 ++ 7#3 ++ 12#5 ++ 59#7 : BitVec 32), .remuw { rd := 12, rs1 := 10, rs2 := 11 }),
    (w32 (2040#12 ++ 6#5 ++ 0#3 ++ 5#5 ++ 3#7 : BitVec 32), .lb { rd := 5, rs1 := 6, imm := 0x7F8 }),
    (w32 (2040#12 ++ 6#5 ++ 1#3 ++ 5#5 ++ 3#7 : BitVec 32), .lh { rd := 5, rs1 := 6, imm := 0x7F8 }),
    (w32 (2040#12 ++ 6#5 ++ 2#3 ++ 5#5 ++ 3#7 : BitVec 32), .lw { rd := 5, rs1 := 6, imm := 0x7F8 }),
    (w32 (2040#12 ++ 6#5 ++ 3#3 ++ 5#5 ++ 3#7 : BitVec 32), .sld { rd := 5, rs1 := 6, imm := 0x7F8 }),
    (w32 (2040#12 ++ 6#5 ++ 4#3 ++ 5#5 ++ 3#7 : BitVec 32), .lbu { rd := 5, rs1 := 6, imm := 0x7F8 }),
    (w32 (2040#12 ++ 6#5 ++ 5#3 ++ 5#5 ++ 3#7 : BitVec 32), .lhu { rd := 5, rs1 := 6, imm := 0x7F8 }),
    (w32 (2040#12 ++ 6#5 ++ 6#3 ++ 5#5 ++ 3#7 : BitVec 32), .lwu { rd := 5, rs1 := 6, imm := 0x7F8 })]

theorem test_decode_scalarRestA : scalarRestAWords.all (fun e => decide (decodeSlot .s e.1 = .ok e.2)) = true := by decide

/-- S slot, the other groups. -/
def scalarRestBWords : List (DWord × Instr) :=
  [(w32 (127#7 ++ 7#5 ++ 6#5 ++ 0#3 ++ 24#5 ++ 35#7 : BitVec 32), .sb { rs1 := 6, rs2 := 7, imm := 0xFF8 }),
    (w32 (127#7 ++ 7#5 ++ 6#5 ++ 1#3 ++ 24#5 ++ 35#7 : BitVec 32), .sh { rs1 := 6, rs2 := 7, imm := 0xFF8 }),
    (w32 (127#7 ++ 7#5 ++ 6#5 ++ 2#3 ++ 24#5 ++ 35#7 : BitVec 32), .sw { rs1 := 6, rs2 := 7, imm := 0xFF8 }),
    (w32 (127#7 ++ 7#5 ++ 6#5 ++ 3#3 ++ 24#5 ++ 35#7 : BitVec 32), .sd { rs1 := 6, rs2 := 7, imm := 0xFF8 }),
    (w32 (8#4 ++ 3#4 ++ 3#4 ++ 0#5 ++ 0#3 ++ 0#5 ++ 15#7 : BitVec 32),
      .fence { fm := 8, pred := 3, succ := 3, rs1 := 0, rd := 0 }),
    (w32 (0#12 ++ 0#5 ++ 0#3 ++ 0#5 ++ 115#7 : BitVec 32), .ecall),
    (w32 (1#12 ++ 0#5 ++ 0#3 ++ 0#5 ++ 115#7 : BitVec 32), .ebreak),
    (w32 (2050#12 ++ 6#5 ++ 1#3 ++ 5#5 ++ 115#7 : BitVec 32), .csrrw { rd := 5, rs1 := 6, csr := 0x802 }),
    (w32 (2050#12 ++ 6#5 ++ 2#3 ++ 5#5 ++ 115#7 : BitVec 32), .csrrs { rd := 5, rs1 := 6, csr := 0x802 }),
    (w32 (2050#12 ++ 6#5 ++ 3#3 ++ 5#5 ++ 115#7 : BitVec 32), .csrrc { rd := 5, rs1 := 6, csr := 0x802 }),
    (w32 (2049#12 ++ 17#5 ++ 5#3 ++ 5#5 ++ 115#7 : BitVec 32), .csrrwi { rd := 5, uimm := 17, csr := 0x801 }),
    (w32 (2049#12 ++ 17#5 ++ 6#3 ++ 5#5 ++ 115#7 : BitVec 32), .csrrsi { rd := 5, uimm := 17, csr := 0x801 }),
    (w32 (2049#12 ++ 17#5 ++ 7#3 ++ 5#5 ++ 115#7 : BitVec 32), .csrrci { rd := 5, uimm := 17, csr := 0x801 })]

theorem test_decode_scalarRestB : scalarRestBWords.all (fun e => decide (decodeSlot .s e.1 = .ok e.2)) = true := by decide

/-- VA slot, arithmetic (R75, R83). -/
def vectorArithmeticAWords : List (DWord × Instr) :=
  [(w32 (1#7 ++ 40#6 ++ 41#6 ++ 42#6 ++ 1#3 ++ 3#4 : BitVec 32),
      .vadd { vd := 40, vs1 := 41, vs2 := 42, et := .f32, pg := 3 }),
    (w32 (2#7 ++ 41#6 ++ 41#6 ++ 42#6 ++ 1#3 ++ 3#4 : BitVec 32),
      .vsub { vd := 41, vs1 := 41, vs2 := 42, et := .f32, pg := 3 }),
    (w32 (3#7 ++ 42#6 ++ 41#6 ++ 42#6 ++ 1#3 ++ 3#4 : BitVec 32),
      .vmul { vd := 42, vs1 := 41, vs2 := 42, et := .f32, pg := 3 }),
    (w32 (4#7 ++ 43#6 ++ 41#6 ++ 42#6 ++ 1#3 ++ 3#4 : BitVec 32),
      .vdiv { vd := 43, vs1 := 41, vs2 := 42, et := .f32, pg := 3 }),
    (w32 (5#7 ++ 44#6 ++ 41#6 ++ 42#6 ++ 1#3 ++ 3#4 : BitVec 32),
      .vmin { vd := 44, vs1 := 41, vs2 := 42, et := .f32, pg := 3 }),
    (w32 (6#7 ++ 45#6 ++ 41#6 ++ 42#6 ++ 1#3 ++ 3#4 : BitVec 32),
      .vmax { vd := 45, vs1 := 41, vs2 := 42, et := .f32, pg := 3 }),
    (w32 (7#7 ++ 40#6 ++ 41#6 ++ 0#6 ++ 2#3 ++ 3#4 : BitVec 32), .vabs { vd := 40, vs1 := 41, et := .bf16, pg := 3 }),
    (w32 (8#7 ++ 40#6 ++ 41#6 ++ 0#6 ++ 7#3 ++ 3#4 : BitVec 32), .vneg { vd := 40, vs1 := 41, et := .i8, pg := 3 }),
    (w32 (9#7 ++ 40#6 ++ 41#6 ++ 42#6 ++ 0#3 ++ 3#4 : BitVec 32),
      .vfma { vd := 40, vs1 := 41, vs2 := 42, et := .f64, pg := 3 }),
    (w32 (10#7 ++ 40#6 ++ 41#6 ++ 42#6 ++ 3#3 ++ 3#4 : BitVec 32),
      .vfms { vd := 40, vs1 := 41, vs2 := 42, et := .f16, pg := 3 }),
    (w32 (11#7 ++ 40#6 ++ 41#6 ++ 0#6 ++ 1#3 ++ 3#4 : BitVec 32), .vsqrt { vd := 40, vs1 := 41, et := .f32, pg := 3 }),
    (w32 (12#7 ++ 41#6 ++ 41#6 ++ 0#6 ++ 1#3 ++ 3#4 : BitVec 32), .vrcp { vd := 41, vs1 := 41, et := .f32, pg := 3 }),
    (w32 (13#7 ++ 42#6 ++ 41#6 ++ 0#6 ++ 1#3 ++ 3#4 : BitVec 32),
      .vrsqrt { vd := 42, vs1 := 41, et := .f32, pg := 3 }),
    (w32 (14#7 ++ 43#6 ++ 41#6 ++ 0#6 ++ 1#3 ++ 3#4 : BitVec 32), .vexp2 { vd := 43, vs1 := 41, et := .f32, pg := 3 }),
    (w32 (15#7 ++ 44#6 ++ 41#6 ++ 0#6 ++ 1#3 ++ 3#4 : BitVec 32), .vlog2 { vd := 44, vs1 := 41, et := .f32, pg := 3 }),
    (w32 (16#7 ++ 40#6 ++ 41#6 ++ 42#6 ++ 6#3 ++ 3#4 : BitVec 32),
      .vand { vd := 40, vs1 := 41, vs2 := 42, et := .i16, pg := 3 }),
    (w32 (17#7 ++ 41#6 ++ 41#6 ++ 42#6 ++ 6#3 ++ 3#4 : BitVec 32),
      .vor { vd := 41, vs1 := 41, vs2 := 42, et := .i16, pg := 3 }),
    (w32 (18#7 ++ 42#6 ++ 41#6 ++ 42#6 ++ 6#3 ++ 3#4 : BitVec 32),
      .vxor { vd := 42, vs1 := 41, vs2 := 42, et := .i16, pg := 3 }),
    (w32 (19#7 ++ 40#6 ++ 41#6 ++ 0#6 ++ 5#3 ++ 3#4 : BitVec 32), .vnot { vd := 40, vs1 := 41, et := .i32, pg := 3 }),
    (w32 (20#7 ++ 40#6 ++ 41#6 ++ 42#6 ++ 4#3 ++ 3#4 : BitVec 32),
      .vshl { vd := 40, vs1 := 41, vs2 := 42, et := .i64, pg := 3 })]

theorem test_decode_vectorArithmeticA : vectorArithmeticAWords.all (fun e => decide (decodeSlot .va e.1 = .ok e.2)) = true := by decide

/-- VA slot, arithmetic (R75, R83). -/
def vectorArithmeticBWords : List (DWord × Instr) :=
  [(w32 (21#7 ++ 41#6 ++ 41#6 ++ 42#6 ++ 4#3 ++ 3#4 : BitVec 32),
      .vshr { vd := 41, vs1 := 41, vs2 := 42, et := .i64, pg := 3 }),
    (w32 (22#7 ++ 42#6 ++ 41#6 ++ 42#6 ++ 4#3 ++ 3#4 : BitVec 32),
      .vsra { vd := 42, vs1 := 41, vs2 := 42, et := .i64, pg := 3 }),
    (w32 (23#7 ++ 43#6 ++ 41#6 ++ 42#6 ++ 4#3 ++ 3#4 : BitVec 32),
      .vadds { vd := 43, vs1 := 41, vs2 := 42, et := .i64, pg := 3 }),
    (w32 (24#7 ++ 44#6 ++ 41#6 ++ 42#6 ++ 4#3 ++ 3#4 : BitVec 32),
      .vsubs { vd := 44, vs1 := 41, vs2 := 42, et := .i64, pg := 3 }),
    (w32 (25#7 ++ 45#6 ++ 41#6 ++ 42#6 ++ 4#3 ++ 3#4 : BitVec 32),
      .vmulh { vd := 45, vs1 := 41, vs2 := 42, et := .i64, pg := 3 }),
    (w32 (26#7 ++ 33#6 ++ 0#6 ++ 0#1 ++ 17#5 ++ 5#3 ++ 2#4 : BitVec 32),
      .vbcast { vd := 33, x := 17, et := .i32, pg := 2 }),
    (w32 (27#7 ++ 33#6 ++ 0#6 ++ 0#1 ++ 17#5 ++ 5#3 ++ 2#4 : BitVec 32),
      .vmovx { vd := 33, x := 17, et := .i32, pg := 2 }),
    (w32 (28#7 ++ 40#6 ++ 41#6 ++ 0#6 ++ 0#3 ++ 3#4 : BitVec 32), .vmov { vd := 40, vs1 := 41, et := .f64, pg := 3 }),
    (w32 (29#7 ++ 33#6 ++ 0#6 ++ 0#6 ++ 7#3 ++ 2#4 : BitVec 32), .viota { vd := 33, et := .i8, pg := 2 }),
    (w32 (30#7 ++ 33#6 ++ 3841#12 ++ 3#3 ++ 2#4 : BitVec 32), .vli { vd := 33, imm := 0xF01, et := .f16, pg := 2 })]

theorem test_decode_vectorArithmeticB : vectorArithmeticBWords.all (fun e => decide (decodeSlot .va e.1 = .ok e.2)) = true := by decide

/-- VB slot: compares, predicates, permutes, reductions. -/
def vectorOrderAWords : List (DWord × Instr) :=
  [(w32 (32#7 ++ 0#2 ++ 9#4 ++ 41#6 ++ 42#6 ++ 1#3 ++ 3#4 : BitVec 32),
      .vcmpEq { pd := 9, vs1 := 41, vs2 := 42, et := .f32, pg := 3 }),
    (w32 (33#7 ++ 0#2 ++ 9#4 ++ 41#6 ++ 42#6 ++ 1#3 ++ 3#4 : BitVec 32),
      .vcmpNe { pd := 9, vs1 := 41, vs2 := 42, et := .f32, pg := 3 }),
    (w32 (34#7 ++ 0#2 ++ 9#4 ++ 41#6 ++ 42#6 ++ 1#3 ++ 3#4 : BitVec 32),
      .vcmpLt { pd := 9, vs1 := 41, vs2 := 42, et := .f32, pg := 3 }),
    (w32 (35#7 ++ 0#2 ++ 9#4 ++ 41#6 ++ 42#6 ++ 1#3 ++ 3#4 : BitVec 32),
      .vcmpLe { pd := 9, vs1 := 41, vs2 := 42, et := .f32, pg := 3 }),
    (w32 (36#7 ++ 0#2 ++ 9#4 ++ 41#6 ++ 42#6 ++ 1#3 ++ 3#4 : BitVec 32),
      .vcmpUn { pd := 9, vs1 := 41, vs2 := 42, et := .f32, pg := 3 }),
    (w32 (37#7 ++ 0#2 ++ 9#4 ++ 41#6 ++ 42#6 ++ 5#3 ++ 3#4 : BitVec 32),
      .vcmpLtu { pd := 9, vs1 := 41, vs2 := 42, et := .i32, pg := 3 }),
    (w32 (38#7 ++ 0#2 ++ 9#4 ++ 41#6 ++ 42#6 ++ 5#3 ++ 3#4 : BitVec 32),
      .vcmpLeu { pd := 9, vs1 := 41, vs2 := 42, et := .i32, pg := 3 }),
    (w32 (40#7 ++ 0#2 ++ 9#4 ++ 0#2 ++ 10#4 ++ 0#2 ++ 11#4 ++ 6#3 ++ 3#4 : BitVec 32),
      .vpand { pd := 9, ps1 := 10, ps2 := 11, et := .i16, pg := 3 }),
    (w32 (41#7 ++ 0#2 ++ 9#4 ++ 0#2 ++ 10#4 ++ 0#2 ++ 11#4 ++ 6#3 ++ 3#4 : BitVec 32),
      .vpor { pd := 9, ps1 := 10, ps2 := 11, et := .i16, pg := 3 }),
    (w32 (42#7 ++ 0#2 ++ 9#4 ++ 0#2 ++ 10#4 ++ 0#2 ++ 11#4 ++ 6#3 ++ 3#4 : BitVec 32),
      .vpxor { pd := 9, ps1 := 10, ps2 := 11, et := .i16, pg := 3 }),
    (w32 (43#7 ++ 0#2 ++ 9#4 ++ 0#2 ++ 10#4 ++ 0#6 ++ 6#3 ++ 3#4 : BitVec 32),
      .vpnot { pd := 9, ps1 := 10, et := .i16, pg := 3 }),
    (w32 (44#7 ++ 0#2 ++ 9#4 ++ 0#6 ++ 0#6 ++ 6#3 ++ 3#4 : BitVec 32), .vpset { pd := 9, et := .i16, pg := 3 }),
    (w32 (45#7 ++ 0#6 ++ 0#2 ++ 10#4 ++ 0#1 ++ 17#5 ++ 7#3 ++ 3#4 : BitVec 32),
      .vpcnt { ps := 10, x := 17, et := .i8, pg := 3 }),
    (w32 (46#7 ++ 0#6 ++ 0#2 ++ 10#4 ++ 0#1 ++ 17#5 ++ 7#3 ++ 3#4 : BitVec 32),
      .vpfirst { ps := 10, x := 17, et := .i8, pg := 3 }),
    (w32 (48#7 ++ 40#6 ++ 41#6 ++ 42#6 ++ 0#3 ++ 3#4 : BitVec 32),
      .vsel { vd := 40, vs1 := 41, vs2 := 42, et := .f64, pg := 3 }),
    (w32 (49#7 ++ 40#6 ++ 41#6 ++ 42#6 ++ 7#3 ++ 3#4 : BitVec 32),
      .vperm { vd := 40, vs1 := 41, vs2 := 42, et := .i8, pg := 3 }),
    (w32 (50#7 ++ 40#6 ++ 41#6 ++ 63#6 ++ 6#3 ++ 3#4 : BitVec 32),
      .vslideup { vd := 40, vs1 := 41, amt := 63, et := .i16, pg := 3 }),
    (w32 (51#7 ++ 40#6 ++ 41#6 ++ 63#6 ++ 6#3 ++ 3#4 : BitVec 32),
      .vslidedn { vd := 40, vs1 := 41, amt := 63, et := .i16, pg := 3 }),
    (w32 (52#7 ++ 40#6 ++ 41#6 ++ 42#6 ++ 0#3 ++ 3#4 : BitVec 32),
      .vzip { vd := 40, vs1 := 41, vs2 := 42, et := .f64, pg := 3 }),
    (w32 (53#7 ++ 40#6 ++ 41#6 ++ 42#6 ++ 7#3 ++ 3#4 : BitVec 32),
      .vunzip { vd := 40, vs1 := 41, vs2 := 42, et := .i8, pg := 3 })]

theorem test_decode_vectorOrderA : vectorOrderAWords.all (fun e => decide (decodeSlot .vb e.1 = .ok e.2)) = true := by decide

/-- VB slot: compares, predicates, permutes, reductions. -/
def vectorOrderBWords : List (DWord × Instr) :=
  [(w32 (54#7 ++ 40#6 ++ 41#6 ++ 0#6 ++ 3#3 ++ 3#4 : BitVec 32),
      .vcompress { vd := 40, vs1 := 41, et := .f16, pg := 3 }),
    (w32 (55#7 ++ 40#6 ++ 41#6 ++ 0#6 ++ 4#3 ++ 3#4 : BitVec 32),
      .vexpand { vd := 40, vs1 := 41, et := .i64, pg := 3 }),
    (w32 (56#7 ++ 40#6 ++ 41#6 ++ 0#6 ++ 1#3 ++ 3#4 : BitVec 32),
      .vredsum { vd := 40, vs1 := 41, et := .f32, pg := 3 }),
    (w32 (57#7 ++ 41#6 ++ 41#6 ++ 0#6 ++ 1#3 ++ 3#4 : BitVec 32),
      .vredmax { vd := 41, vs1 := 41, et := .f32, pg := 3 }),
    (w32 (58#7 ++ 42#6 ++ 41#6 ++ 0#6 ++ 1#3 ++ 3#4 : BitVec 32),
      .vredmin { vd := 42, vs1 := 41, et := .f32, pg := 3 }),
    (w32 (59#7 ++ 43#6 ++ 41#6 ++ 0#6 ++ 1#3 ++ 3#4 : BitVec 32),
      .vscansum { vd := 43, vs1 := 41, et := .f32, pg := 3 }),
    (w32 (60#7 ++ 44#6 ++ 41#6 ++ 0#6 ++ 1#3 ++ 3#4 : BitVec 32),
      .vscanmax { vd := 44, vs1 := 41, et := .f32, pg := 3 }),
    (w32 (61#7 ++ 45#6 ++ 41#6 ++ 0#6 ++ 1#3 ++ 3#4 : BitVec 32),
      .vargmax { vd := 45, vs1 := 41, et := .f32, pg := 3 }),
    (w32 (62#7 ++ 40#6 ++ 41#6 ++ 5#3 ++ 4#3 ++ 5#3 ++ 3#4 : BitVec 32),
      .vbitonic { vd := 40, vs1 := 41, b := 5, d := 4, et := .i32, pg := 3 }),
    (w32 (64#7 ++ 40#6 ++ 41#6 ++ 42#6 ++ 0#3 ++ 3#4 : BitVec 32),
      .vmulL6 { vd := 40, vs1 := 41, vs2 := 42, pg := 3 }),
    (w32 (65#7 ++ 40#6 ++ 41#6 ++ 42#6 ++ 0#3 ++ 3#4 : BitVec 32),
      .vdotL6 { vd := 40, vs1 := 41, vs2 := 42, pg := 3 }),
    (w32 (66#7 ++ 40#6 ++ 41#6 ++ 42#6 ++ 5#3 ++ 3#4 : BitVec 32),
      .vrand { vd := 40, vs1 := 41, vs2 := 42, et := .i32, pg := 3 })]

theorem test_decode_vectorOrderB : vectorOrderBWords.all (fun e => decide (decodeSlot .vb e.1 = .ok e.2)) = true := by decide

/-- VA slot: memory (R75, R177). -/
def memoryAWords : List (DWord × Instr) :=
  [(w32 (72#7 ++ 40#6 ++ 2#4 ++ 7#5 ++ 1#1 ++ 100#9 : BitVec 32),
      .vld { vt := 40, h := 2, xi := 7, l := true, imm := 100 }),
    (w32 (73#7 ++ 40#6 ++ 2#4 ++ 7#5 ++ 0#1 ++ 511#9 : BitVec 32), .vst { vt := 40, h := 2, xi := 7, imm := 0x1FF }),
    (w32 (74#7 ++ 40#6 ++ 2#4 ++ 7#5 ++ 0#1 ++ 0#5 ++ 9#4 : BitVec 32), .vstm { vt := 40, h := 2, xi := 7, pg := 9 }),
    (w32 (76#7 ++ 40#6 ++ 2#4 ++ 7#5 ++ 0#1 ++ 0#5 ++ 9#4 : BitVec 32),
      .vscatter { vt := 40, h := 2, xi := 7, pg := 9 }),
    (w32 (75#7 ++ 40#6 ++ 2#4 ++ 7#5 ++ 0#1 ++ 257#9 : BitVec 32),
      .vgather { vt := 40, h := 2, xi := 7, l := false, imm := 0x101 }),
    (w32 (77#7 ++ 17#6 ++ 2#4 ++ 7#5 ++ 1#1 ++ 9#9 : BitVec 32),
      .ld { xt := 17, h := 2, xi := 7, l := true, imm := 9 }),
    (w32 (78#7 ++ 17#6 ++ 2#4 ++ 7#5 ++ 0#1 ++ 9#9 : BitVec 32), .st { xt := 17, h := 2, xi := 7, imm := 9 }),
    (w32 (79#7 ++ 17#6 ++ 2#4 ++ 7#5 ++ 1#1 ++ 9#9 : BitVec 32), .ldSc { xt := 17, h := 2, xi := 7, imm := 9 }),
    (w32 (80#7 ++ 17#6 ++ 2#4 ++ 7#5 ++ 0#1 ++ 9#9 : BitVec 32), .stSc { xt := 17, h := 2, xi := 7, imm := 9 }),
    (w32 (81#7 ++ 0#6 ++ 2#4 ++ 7#5 ++ 0#1 ++ 9#9 : BitVec 32), .vpref { h := 2, xi := 7, imm := 9 }),
    (w32 (88#7 ++ 5#5 ++ 6#5 ++ 3#4 ++ 7#5 ++ 2#3 ++ 2#2 ++ 0#1 : BitVec 32),
      .amoadd { xd := 5, xs := 6, h := 3, xi := 7, scope := .die, ord := .release }),
    (w32 (89#7 ++ 5#5 ++ 6#5 ++ 3#4 ++ 7#5 ++ 2#3 ++ 2#2 ++ 0#1 : BitVec 32),
      .amomin { xd := 5, xs := 6, h := 3, xi := 7, scope := .die, ord := .release }),
    (w32 (90#7 ++ 5#5 ++ 6#5 ++ 3#4 ++ 7#5 ++ 2#3 ++ 2#2 ++ 0#1 : BitVec 32),
      .amomax { xd := 5, xs := 6, h := 3, xi := 7, scope := .die, ord := .release }),
    (w32 (91#7 ++ 5#5 ++ 6#5 ++ 3#4 ++ 7#5 ++ 2#3 ++ 2#2 ++ 0#1 : BitVec 32),
      .amominu { xd := 5, xs := 6, h := 3, xi := 7, scope := .die, ord := .release }),
    (w32 (92#7 ++ 5#5 ++ 6#5 ++ 3#4 ++ 7#5 ++ 2#3 ++ 2#2 ++ 0#1 : BitVec 32),
      .amomaxu { xd := 5, xs := 6, h := 3, xi := 7, scope := .die, ord := .release }),
    (w32 (93#7 ++ 5#5 ++ 6#5 ++ 3#4 ++ 7#5 ++ 2#3 ++ 2#2 ++ 0#1 : BitVec 32),
      .amoand { xd := 5, xs := 6, h := 3, xi := 7, scope := .die, ord := .release }),
    (w32 (94#7 ++ 5#5 ++ 6#5 ++ 3#4 ++ 7#5 ++ 2#3 ++ 2#2 ++ 0#1 : BitVec 32),
      .amoor { xd := 5, xs := 6, h := 3, xi := 7, scope := .die, ord := .release }),
    (w32 (95#7 ++ 5#5 ++ 6#5 ++ 3#4 ++ 7#5 ++ 2#3 ++ 2#2 ++ 0#1 : BitVec 32),
      .amoxor { xd := 5, xs := 6, h := 3, xi := 7, scope := .die, ord := .release }),
    (w32 (96#7 ++ 5#5 ++ 6#5 ++ 3#4 ++ 7#5 ++ 2#3 ++ 2#2 ++ 0#1 : BitVec 32),
      .amoswap { xd := 5, xs := 6, h := 3, xi := 7, scope := .die, ord := .release }),
    (w32 (97#7 ++ 5#5 ++ 6#5 ++ 3#4 ++ 7#5 ++ 2#3 ++ 2#2 ++ 0#1 : BitVec 32),
      .amocas { xd := 5, xs := 6, h := 3, xi := 7, scope := .die, ord := .release })]

theorem test_decode_memoryA : memoryAWords.all (fun e => decide (decodeSlot .va e.1 = .ok e.2)) = true := by decide

/-- VA slot: memory (R75, R177). -/
def memoryBWords : List (DWord × Instr) :=
  [(w32 (98#7 ++ 5#5 ++ 6#5 ++ 3#4 ++ 7#5 ++ 3#3 ++ 3#2 ++ 0#1 : BitVec 32),
      .amoSc { xd := 5, xs := 6, h := 3, xi := 7 }),
    (w32 (99#7 ++ 5#5 ++ 0#5 ++ 3#4 ++ 7#5 ++ 4#3 ++ 1#2 ++ 0#1 : BitVec 32),
      .lda { x := 5, h := 3, xi := 7, scope := .domain }),
    (w32 (100#7 ++ 0#5 ++ 6#5 ++ 3#4 ++ 7#5 ++ 1#3 ++ 2#2 ++ 0#1 : BitVec 32),
      .stl { x := 6, h := 3, xi := 7, scope := .cluster }),
    (w32 (101#7 ++ 0#5 ++ 0#5 ++ 0#4 ++ 0#5 ++ 3#3 ++ 1#2 ++ 0#1 : BitVec 32),
      .vfence { scope := .package, ord := .acquire }),
    (w32 (102#7 ++ 0#5 ++ 6#5 ++ 3#4 ++ 7#5 ++ 0#3 ++ 0#2 ++ 0#1 : BitVec 32),
      .cflush { x := 6, h := 3, xi := 7, scope := .core }),
    (w32 (104#7 ++ 40#6 ++ 3#4 ++ 7#5 ++ 2#3 ++ 3#2 ++ 0#1 ++ 9#4 : BitVec 32),
      .vamoadd { vt := 40, h := 3, vi := 7, scope := .die, ord := .acqRel, pg := 9 }),
    (w32 (105#7 ++ 40#6 ++ 3#4 ++ 7#5 ++ 2#3 ++ 3#2 ++ 0#1 ++ 9#4 : BitVec 32),
      .vamomin { vt := 40, h := 3, vi := 7, scope := .die, ord := .acqRel, pg := 9 }),
    (w32 (106#7 ++ 40#6 ++ 3#4 ++ 7#5 ++ 2#3 ++ 3#2 ++ 0#1 ++ 9#4 : BitVec 32),
      .vamomax { vt := 40, h := 3, vi := 7, scope := .die, ord := .acqRel, pg := 9 }),
    (w32 (107#7 ++ 40#6 ++ 3#4 ++ 7#5 ++ 2#3 ++ 3#2 ++ 0#1 ++ 9#4 : BitVec 32),
      .vredst { vt := 40, h := 3, vi := 7, scope := .die, ord := .acqRel, pg := 9 })]

theorem test_decode_memoryB : memoryBWords.all (fun e => decide (decodeSlot .va e.1 = .ok e.2)) = true := by decide

/-- VA slot: capabilities and barriers (R168, R281). -/
def handlesWords : List (DWord × Instr) :=
  [(w32 (112#7 ++ 4#4 ++ 2#4 ++ 7#5 ++ 0#5 ++ 2#7 : BitVec 32), .cldh { ha := 4, hb := 2, xa := 7, imm := 2 }),
    (w32 (113#7 ++ 4#4 ++ 2#4 ++ 7#5 ++ 0#5 ++ 2#7 : BitVec 32), .csth { ha := 4, hb := 2, xa := 7, imm := 2 }),
    (w32 (114#7 ++ 4#4 ++ 2#4 ++ 7#5 ++ 8#5 ++ 90#7 : BitVec 32),
      .cnarrow { ha := 4, hb := 2, xa := 7, xb := 8, perm := 0x5A }),
    (w32 (115#7 ++ 0#4 ++ 2#4 ++ 7#5 ++ 0#5 ++ 9#7 : BitVec 32), .cget { hb := 2, xa := 7, sel := 9 }),
    (w32 (116#7 ++ 4#4 ++ 2#4 ++ 0#5 ++ 0#5 ++ 0#7 : BitVec 32), .cmov { ha := 4, hb := 2 }),
    (w32 (117#7 ++ 4#4 ++ 0#4 ++ 0#5 ++ 0#5 ++ 0#7 : BitVec 32), .cclr 4),
    (w32 (118#7 ++ 0#4 ++ 2#4 ++ 7#5 ++ 8#5 ++ 1#7 : BitVec 32), .binit { hb := 2, xa := 7, xb := 8, u := true }),
    (w32 (119#7 ++ 4#4 ++ 2#4 ++ 7#5 ++ 8#5 ++ 0#7 : BitVec 32), .blink { ha := 4, hb := 2, xa := 7, xb := 8 }),
    (w32 (120#7 ++ 0#4 ++ 4#4 ++ 6#5 ++ 5#5 ++ 3#7 : BitVec 32),
      .barrive { hb := 4, xa := 6, xb := 5, scope := .package }),
    (w32 (121#7 ++ 0#4 ++ 4#4 ++ 6#5 ++ 5#5 ++ 3#7 : BitVec 32),
      .bwaitp { hb := 4, xa := 6, xb := 5, scope := .package }),
    (w32 (0#32 : BitVec 32), .idle .va)]

theorem test_decode_handles : handlesWords.all (fun e => decide (decodeSlot .va e.1 = .ok e.2)) = true := by decide

/-- M slot (R76, R188, R208). -/
def matrixAWords : List (DWord × Instr) :=
  [((1#6 ++ 21#5 ++ 0#4 ++ 0#6 ++ 0#6 ++ 0#6 ++ 0#31 : BitVec 64), .oclaim 21),
    ((2#6 ++ 22#5 ++ 0#4 ++ 0#6 ++ 0#6 ++ 0#6 ++ 0#31 : BitVec 64), .orelease 22),
    ((3#6 ++ 21#5 ++ 0#4 ++ 40#6 ++ 33#6 ++ 2#6 ++ 0#31 : BitVec 64),
      .oload { os := 21, v := 40, row := 33, rstep := 2 }),
    ((4#6 ++ 21#5 ++ 2#4 ++ 7#5 ++ 300#9 ++ 65520#16 ++ 3#5 ++ 0#14 : BitVec 64),
      .wload { os := 21, h := 2, xi := 7, arr := 300, step := 0xFFF0, ostep := 3 }),
    ((5#6 ++ 9#4 ++ 3#4 ++ 0#4 ++ 0#5 ++ 0#5 ++ 0#36 : BitVec 64), .mzero { md := 9, kind := .complex64 }),
    ((6#6 ++ 9#4 ++ 10#4 ++ 0#4 ++ 0#5 ++ 0#5 ++ 0#36 : BitVec 64), .mmov { md := 9, ms1 := 10 }),
    ((7#6 ++ 0#5 ++ 9#4 ++ 40#6 ++ 33#6 ++ 2#6 ++ 0#31 : BitVec 64), .mrd { md := 9, v := 40, row := 33, rstep := 2 }),
    ((8#6 ++ 0#5 ++ 9#4 ++ 40#6 ++ 33#6 ++ 2#6 ++ 0#31 : BitVec 64), .mwr { md := 9, v := 40, row := 33, rstep := 2 }),
    ((9#6 ++ 9#4 ++ 21#5 ++ 22#5 ++ 1#1 ++ 0#1 ++ 1#2 ++ 2#2 ++ 3#2 ++ 1#1 ++ 0#35 : BitVec 64),
      .mmaF64 { md := 9, osa := 21, osb := 22, lra := true, lrb := false, sta := 1, stb := 2, std := 3, za := true }),
    ((10#6 ++ 9#4 ++ 21#5 ++ 22#5 ++ 1#1 ++ 0#1 ++ 1#2 ++ 2#2 ++ 3#2 ++ 1#1 ++ 0#35 : BitVec 64),
      .mmaF32 { md := 9, osa := 21, osb := 22, lra := true, lrb := false, sta := 1, stb := 2, std := 3, za := true }),
    ((11#6 ++ 9#4 ++ 21#5 ++ 22#5 ++ 1#1 ++ 0#1 ++ 1#2 ++ 2#2 ++ 3#2 ++ 1#1 ++ 0#35 : BitVec 64),
      .mmaBf16 { md := 9, osa := 21, osb := 22, lra := true, lrb := false, sta := 1, stb := 2, std := 3, za := true }),
    ((12#6 ++ 9#4 ++ 21#5 ++ 22#5 ++ 1#1 ++ 0#1 ++ 1#2 ++ 2#2 ++ 3#2 ++ 1#1 ++ 0#35 : BitVec 64),
      .mmaF16 { md := 9, osa := 21, osb := 22, lra := true, lrb := false, sta := 1, stb := 2, std := 3, za := true }),
    ((13#6 ++ 9#4 ++ 21#5 ++ 22#5 ++ 1#1 ++ 0#1 ++ 1#2 ++ 2#2 ++ 3#2 ++ 1#1 ++ 0#35 : BitVec 64),
      .mmaI8 { md := 9, osa := 21, osb := 22, lra := true, lrb := false, sta := 1, stb := 2, std := 3, za := true }),
    ((14#6 ++ 9#4 ++ 21#5 ++ 22#5 ++ 1#1 ++ 0#1 ++ 1#2 ++ 2#2 ++ 3#2 ++ 1#1 ++ 0#35 : BitVec 64),
      .mmaI4 { md := 9, osa := 21, osb := 22, lra := true, lrb := false, sta := 1, stb := 2, std := 3, za := true }),
    ((15#6 ++ 9#4 ++ 21#5 ++ 22#5 ++ 1#1 ++ 0#1 ++ 1#2 ++ 2#2 ++ 3#2 ++ 1#1 ++ 0#35 : BitVec 64),
      .mmaL6 { md := 9, osa := 21, osb := 22, lra := true, lrb := false, sta := 1, stb := 2, std := 3, za := true }),
    ((16#6 ++ 9#4 ++ 21#5 ++ 22#5 ++ 1#1 ++ 0#1 ++ 1#2 ++ 2#2 ++ 3#2 ++ 1#1 ++ 0#35 : BitVec 64),
      .mmaS24 { md := 9, osa := 21, osb := 22, lra := true, lrb := false, sta := 1, stb := 2, std := 3, za := true }),
    ((17#6 ++ 9#4 ++ 21#5 ++ 22#5 ++ 1#1 ++ 0#1 ++ 1#2 ++ 2#2 ++ 3#2 ++ 1#1 ++ 0#35 : BitVec 64),
      .mmaS14 { md := 9, osa := 21, osb := 22, lra := true, lrb := false, sta := 1, stb := 2, std := 3, za := true }),
    ((18#6 ++ 9#4 ++ 0#4 ++ 0#4 ++ 21#5 ++ 7#5 ++ 0#36 : BitVec 64), .mlrset { md := 9, os := 21, xs := 7 }),
    ((19#6 ++ 9#4 ++ 10#4 ++ 11#4 ++ 0#5 ++ 0#5 ++ 0#36 : BitVec 64), .mlrmul { md := 9, ms1 := 10, ms2 := 11 }),
    ((20#6 ++ 9#4 ++ 10#4 ++ 11#4 ++ 0#5 ++ 0#5 ++ 0#36 : BitVec 64), .mlrdm { md := 9, ms1 := 10, ms2 := 11 })]

theorem test_decode_matrixA : matrixAWords.all (fun e => decide (decodeSlot .m e.1 = .ok e.2)) = true := by decide

/-- M slot (R76, R188, R208). -/
def matrixBWords : List (DWord × Instr) :=
  [((21#6 ++ 9#4 ++ 10#4 ++ 11#4 ++ 0#5 ++ 0#5 ++ 0#36 : BitVec 64), .mdmlr { md := 9, ms1 := 10, ms2 := 11 }),
    ((22#6 ++ 9#4 ++ 10#4 ++ 11#4 ++ 0#5 ++ 0#5 ++ 0#36 : BitVec 64), .mlradd { md := 9, ms1 := 10, ms2 := 11 }),
    ((23#6 ++ 9#4 ++ 10#4 ++ 0#4 ++ 0#5 ++ 0#5 ++ 0#36 : BitVec 64), .mrecomp { md := 9, ms1 := 10 }),
    ((24#6 ++ 9#4 ++ 10#4 ++ 0#4 ++ 0#5 ++ 0#5 ++ 0#36 : BitVec 64), .mdense { md := 9, ms1 := 10 }),
    ((25#6 ++ 0#4 ++ 10#4 ++ 0#4 ++ 0#5 ++ 7#5 ++ 0#36 : BitVec 64), .mrank { ms1 := 10, xs := 7 }),
    ((26#6 ++ 9#4 ++ 10#4 ++ 0#4 ++ 0#5 ++ 7#5 ++ 0#36 : BitVec 64), .mbflyC64 { md := 9, ms1 := 10, xs := 7 }),
    ((27#6 ++ 9#4 ++ 10#4 ++ 0#4 ++ 0#5 ++ 7#5 ++ 0#36 : BitVec 64), .mbflyC128 { md := 9, ms1 := 10, xs := 7 }),
    ((29#6 ++ 9#4 ++ 10#4 ++ 0#4 ++ 0#5 ++ 7#5 ++ 0#36 : BitVec 64), .mtwmulC64 { md := 9, ms1 := 10, xs := 7 }),
    ((30#6 ++ 9#4 ++ 10#4 ++ 0#4 ++ 0#5 ++ 7#5 ++ 0#36 : BitVec 64), .mtwmulC128 { md := 9, ms1 := 10, xs := 7 }),
    ((28#6 ++ 9#4 ++ 10#4 ++ 0#4 ++ 21#5 ++ 0#5 ++ 0#36 : BitVec 64), .mbrev { md := 9, ms1 := 10, os := 21 })]

theorem test_decode_matrixB : matrixBWords.all (fun e => decide (decodeSlot .m e.1 = .ok e.2)) = true := by decide

/-- CA slot (R77, R239). -/
def jobsWords : List (DWord × Instr) :=
  [((1#6 ++ 2#4 ++ 7#5 ++ 32769#16 ++ 65534#16 ++ 5#5 ++ 0#12 : BitVec 64),
      .cjob { h := 2, xi := 7, off := 0x8001, step := 0xFFFE, xd := 5 }),
    ((3#6 ++ 2#4 ++ 7#5 ++ 32769#16 ++ 65534#16 ++ 5#5 ++ 0#12 : BitVec 64),
      .cwpe { h := 2, xi := 7, off := 0x8001, step := 0xFFFE, xd := 5 }),
    ((2#6 ++ 40#6 ++ 5#5 ++ 0#47 : BitVec 64), .cjobv { vs := 40, xd := 5 }),
    ((4#6 ++ 0#4 ++ 7#5 ++ 0#5 ++ 5#5 ++ 0#39 : BitVec 64), .cquery { xa := 7, xd := 5 }),
    ((5#6 ++ 0#4 ++ 7#5 ++ 0#5 ++ 0#5 ++ 0#39 : BitVec 64), .ccancel 7),
    ((6#6 ++ 2#4 ++ 7#5 ++ 8#5 ++ 5#5 ++ 0#39 : BitVec 64), .csignal { h := 2, xa := 7, xb := 8, xd := 5 }),
    ((7#6 ++ 0#4 ++ 0#5 ++ 0#5 ++ 0#5 ++ 0#39 : BitVec 64), .cfence)]

theorem test_decode_jobs : jobsWords.all (fun e => decide (decodeSlot .ca e.1 = .ok e.2)) = true := by decide

/-- X slot (R78, R231). -/
def transformsWords : List (DWord × Instr) :=
  [(w32 (1#5 ++ 41#6 ++ 40#6 ++ 9#4 ++ 0#4 ++ 0#7 : BitVec 32), .xexpS24 { vd := 41, vs := 40, dt := .l6 }),
    (w32 (2#5 ++ 41#6 ++ 40#6 ++ 7#4 ++ 0#4 ++ 0#7 : BitVec 32), .xexpS14 { vd := 41, vs := 40, dt := .i8 }),
    (w32 (3#5 ++ 41#6 ++ 40#6 ++ 0#4 ++ 0#4 ++ 0#7 : BitVec 32), .xunpkL6 { vd := 41, vs := 40 }),
    (w32 (4#5 ++ 41#6 ++ 40#6 ++ 0#4 ++ 0#4 ++ 0#7 : BitVec 32), .xunpkI4 { vd := 41, vs := 40 }),
    (w32 (5#5 ++ 41#6 ++ 40#6 ++ 0#4 ++ 0#4 ++ 0#7 : BitVec 32), .xpackL6 { vd := 41, vs := 40 }),
    (w32 (6#5 ++ 41#6 ++ 40#6 ++ 0#4 ++ 0#4 ++ 0#7 : BitVec 32), .xpackI4 { vd := 41, vs := 40 }),
    (w32 (7#5 ++ 41#6 ++ 40#6 ++ 0#4 ++ 1#4 ++ 0#7 : BitVec 32), .xtr { vd := 41, vs := 40, r := true }),
    (w32 (8#5 ++ 41#6 ++ 40#6 ++ 2#4 ++ 1#4 ++ 0#7 : BitVec 32),
      .xcvt { vd := 41, vs := 40, dt := .bf16, st := .f32 }),
    (w32 (9#5 ++ 7#5 ++ 0#11 ++ 0#11 : BitVec 32), .xscale 7),
    (w32 (10#5 ++ 0#5 ++ 2047#11 ++ 0#11 : BitVec 32), .xscalei 0x7FF)]

theorem test_decode_transforms : transformsWords.all (fun e => decide (decodeSlot .x e.1 = .ok e.2)) = true := by decide

/-! ### Words that stand for nothing, and bundle heads that are not legal -/

/-- A reserved opcode of each slot (R87, R403). -/
theorem test_decode_reserved :
    decodeSlot .b 0 = .error .reservedOpcode ∧ decodeSlot .s 0 = .error .reservedOpcode ∧
    decodeSlot .x (w32 (31#5 ++ 0#27 : BitVec 32)) ≠ .ok (.idle .x) := by decide

/-- LEND with a bit of its zero field set (R404). -/
theorem test_decode_nonzero_field : decodeSlot .b (w32 (15#6 ++ 6#5 ++ 1#21 : BitVec 32)) = .error .nonZeroField := by decide

/-- HEAD[31] set; port code 7; both legal without (R67). -/
theorem test_head_legal : headLegal 0x80000002 = false ∧ headLegal (7 <<< 12 ||| 2) = false ∧ headLegal 2 = true ∧
    headLegal (6 <<< 27 ||| 2) = true := by decide

/-- A head with B, S and M: four slot words, M's low word first (R66). -/
theorem test_bundle_split :
    readBundle [0x13, 0xA, 0xB, 0xC, 0xD, 0xE] = some { headWord := 0x13, slots := [(.b, 0xA), (.s, 0xB), (.m, 0xD0000000C)] } ∧
      (Head.ofWord 0x13).words = 5 := by decide

/-- The table's word of ADDI x5, x0, 7: a head with S alone, and its word. -/
theorem test_table_word : decodeTableWord 64 (2 + 2 ^ 32 * 0x00700293) = some (.addi { rd := 5, rs1 := 0, imm := 7 }) := by decide +kernel

/-! ### Single operations, with results worked out by hand -/

/-- The next state of an outcome. -/
def after : Outcome State Fault Refusal → State
  | .next t => t
  | _ => State.reset

def goesOn : Outcome State Fault Refusal → Bool
  | .next _ => true
  | _ => false

theorem after_next {o : Outcome State Fault Refusal} (h : goesOn o = true) : o = .next (after o) := by
  cases o with
  | next t => rfl
  | _ => cases h

/-- What an operation leaves on its way to a register, where x6 holds `a` and x7 holds `b`. -/
def gives (i : Instr) (a b : DWord) : Option Write :=
  ((after (exec i (at0 ((busy.wx 6 a).wx 7 b)))).cur.t.pend.getLast?).map (·.w)

theorem test_add_wraps : gives (.add { rd := 5, rs1 := 6, rs2 := 7 }) 0xFFFFFFFFFFFFFFFF 2 = some (.x 5 1) := by decide +kernel
theorem test_sub_order : gives (.sub { rd := 5, rs1 := 6, rs2 := 7 }) 1 2 = some (.x 5 0xFFFFFFFFFFFFFFFF) := by decide +kernel
theorem test_slt_signed : gives (.slt { rd := 5, rs1 := 6, rs2 := 7 }) 0x8000000000000000 0 = some (.x 5 1) := by decide +kernel
theorem test_sltu_unsigned : gives (.sltu { rd := 5, rs1 := 6, rs2 := 7 }) 0x8000000000000000 0 = some (.x 5 0) := by decide +kernel
theorem test_sra_sign : gives (.sra { rd := 5, rs1 := 6, rs2 := 7 }) 0x8000000000000000 67 = some (.x 5 0xF000000000000000) := by decide +kernel
theorem test_addiw_sign_extends : gives (.addiw { rd := 5, rs1 := 6, imm := 1 }) 0x7FFFFFFF 0 = some (.x 5 0xFFFFFFFF80000000) := by decide +kernel
theorem test_lui_sign_extends : gives (.lui { rd := 5, imm := 0x80000 }) 0 0 = some (.x 5 0xFFFFFFFF80000000) := by decide +kernel
theorem test_mulh_signed : gives (.mulh { rd := 5, rs1 := 6, rs2 := 7 }) 0xFFFFFFFFFFFFFFFF 0xFFFFFFFFFFFFFFFF = some (.x 5 0) := by decide +kernel
theorem test_mulhu_unsigned :
    gives (.mulhu { rd := 5, rs1 := 6, rs2 := 7 }) 0xFFFFFFFFFFFFFFFF 0xFFFFFFFFFFFFFFFF = some (.x 5 0xFFFFFFFFFFFFFFFE) := by decide +kernel
theorem test_div_by_zero : gives (.div { rd := 5, rs1 := 6, rs2 := 7 }) 9 0 = some (.x 5 0xFFFFFFFFFFFFFFFF) := by decide +kernel
theorem test_div_overflow :
    gives (.div { rd := 5, rs1 := 6, rs2 := 7 }) 0x8000000000000000 0xFFFFFFFFFFFFFFFF = some (.x 5 0x8000000000000000) := by decide +kernel
theorem test_rem_sign_of_dividend : gives (.rem { rd := 5, rs1 := 6, rs2 := 7 }) 0xFFFFFFFFFFFFFFF9 2 = some (.x 5 0xFFFFFFFFFFFFFFFF) := by
  decide +kernel
theorem test_remu_by_zero : gives (.remu { rd := 5, rs1 := 6, rs2 := 7 }) 9 0 = some (.x 5 9) := by decide +kernel

/-- A vector operation on v40 and v41. -/
def givesV (i : Instr) (a b : Vec) : Option Write :=
  let c := { busy with r := { busy.r with v := (busy.r.v.set 40 a).set 41 b } }
  ((after (exec i (at0 c))).cur.t.pend.getLast?).map (·.w)

/-- -128 - 1 keeps to -128; 127 + 1 wraps in a lane of its own. -/
theorem test_vsubs_saturates : givesV (.vsubs { vd := 42, vs1 := 40, vs2 := 41, et := .i8, pg := 0 }) 0x80 1 =
    some (.v 42 (BitVec.allOnes 1024) 0x80) := by decide +kernel
theorem test_vadd_lanes : givesV (.vadd { vd := 42, vs1 := 40, vs2 := 41, et := .i8, pg := 0 }) 0x01FF 0x0101 =
    some (.v 42 (BitVec.allOnes 1024) 0x0200) := by decide +kernel
/-- 1.0 + 1.0 = 2.0 in the lowest lane of f32. -/
theorem test_vadd_f32 : givesV (.vadd { vd := 42, vs1 := 40, vs2 := 41, et := .f32, pg := 0 }) 0x3F800000 0x3F800000 =
    some (.v 42 (BitVec.allOnes 1024) 0x40000000) := by decide +kernel
/-- 1.5 · 2.0 = 3.0 in bf16. -/
theorem test_vmul_bf16 : givesV (.vmul { vd := 42, vs1 := 40, vs2 := 41, et := .bf16, pg := 0 }) 0x3FC0 0x4000 =
    some (.v 42 (BitVec.allOnes 1024) 0x4040) := by decide +kernel

/-- A trap of the operation itself. -/
def traps (i : Instr) : Option (BitVec 8) := ((after (exec i quiet)).iss.raised).map (·.cause)

/-- A store through a handle without its tag. -/
theorem test_untagged_handle : traps (.st { xt := 5, h := 5, xi := 6, imm := 0 }) = some 0x20 := by decide +kernel
/-! ### Witnesses: the S and B slots -/

theorem wit_RegisterArithmetic : Clean quiet (.add { rd := 5, rs1 := 6, rs2 := 7 }) ∧
    Clean quiet (.addi { rd := 0, rs1 := 0, imm := 0x7FF }) := ⟨quiet_clean _, quiet_clean _⟩

theorem wit_WordAndMultiplyDivide : Clean quiet (.sraiw { rd := 5, rs1 := 6, sh := 31 }) ∧
    Clean quiet (.divw { rd := 5, rs1 := 6, rs2 := 0 }) := ⟨quiet_clean _, quiet_clean _⟩

/-- The last doubleword of SPAD, the first place beyond it, and a place that is not aligned. -/
theorem wit_SpadLoadsAndStores :
    let s (v : DWord) : State := at0 (busy.wx 6 v)
    let f : IF := { rd := 5, rs1 := 6, imm := 0 }
    let off (v : DWord) : Nat := (((s v).cur.rx f.rs1) + BitVec.ofInt 64 f.imm.toInt).toNat
    let denied : State := ownedBy 5 (ownerCore 0) (s 0xFFFF8)
    (Clean (s 0xFFFF8) (.sld f) ∧ off 0xFFFF8 % 8 = 0 ∧ off 0xFFFF8 < 0x100000 ∧ (s 0xFFFF8).spadOk 0 = true) ∧
    (Clean denied (.sld f) ∧ denied.spadOk 0 = false) ∧
    (Clean (s 0x100000) (.sld f) ∧ off 0x100000 % 8 = 0 ∧ 0x100000 ≤ off 0x100000) ∧
    (Clean (s 1) (.lh f) ∧ off 1 % 2 ≠ 0) ∧
    (s 0xFFFF8).Ok ∧ denied.Ok := by
  intro s f off denied
  have h : (s 0xFFFF8).Ok := at0_ok (busy_r_ok rfl rfl)
  refine ⟨?_, ?_, ?_, ?_, h, h⟩ <;> decide +kernel

theorem wit_CsrAccess : Clean quiet (.csrrw { rd := 5, rs1 := 6, csr := 0x81E }) ∧ csrLegal 0x81E true = true ∧
    csrLegal 0x81F true = false ∧ csrLegal 0xCC6 false = true ∧ csrLegal 0xCC6 true = false :=
  ⟨quiet_clean _, by decide +kernel⟩

/-! A line of bundles that are heads alone, each a target; the core stands at the first. -/

/-- The segment of `placedTable` in IMEM, its first line holding `ws`. -/
def withCode (ws : List Word) (s : State) : State :=
  let bytes := ((ws ++ List.replicate 32 (0 : Word)).take 32).flatMap (fun w => leBytes 4 w.toNat)
  ((s.storeNat (mkey .glob 0 0) 32 placedTable).store (mkey .glob 0 128) bytes).store (mkey .imem 0 0) bytes

def coded (c : Core) : Core :=
  { c with c := { c.c with codebase := 0, codelim := 384, mpc := 264 }, k := { c.k with pc := 136, resident := [0] } }

def inCode (c : Core) : State :=
  { withCode [0xFFFFFFFC, 0xFFFFFFFC] (at0 (coded c)) with iss := { Issue.none with next := 140 } }

/-- A loop level whose body is the words from `start` to `fin`. -/
def levelOf (kind : BitVec 2) (start fin : BitVec 16) (iter : BitVec 27) : LoopLv :=
  { kind := kind, stg := 1, start := start, fin := fin, iter := iter, trip := 3, max := 16 }

def looping (l : LoopLv) : Core := busy.setLevel 0 l

/-- Equal registers and unequal ones; a predicate of ones, of zeros and of both. -/
theorem wit_BranchesAndJumps :
    let p (v : Pred) : Core := { busy with r := { busy.r with p := busy.r.p.set 1 v } }
    Clean quiet (.beq { rs1 := 5, rs2 := 5, off := 4 }) ∧ quiet.cur.rx 5 = quiet.cur.rx 5 ∧
    Clean (at0 (busy.wx 5 1)) (.beq { rs1 := 5, rs2 := 6, off := 4 }) ∧ (at0 (busy.wx 5 1)).cur.rx 5 ≠ (at0 (busy.wx 5 1)).cur.rx 6 ∧
    Clean (at0 (p (BitVec.allOnes 128))) (.bpt { p := 1, off := 4 }) ∧ (at0 (p (BitVec.allOnes 128))).cur.rp 1 = BitVec.allOnes 128 ∧
    quiet.cur.rp 1 = 0 ∧
    Clean (at0 (p 1)) (.bpf { p := 1, off := 4 }) ∧ (at0 (p 1)).cur.rp 1 ≠ BitVec.allOnes 128 ∧ (at0 (p 1)).cur.rp 1 ≠ 0 := by
  decide +kernel

/-- Outside a body, with a register of 48 bits and with one of 49; and at the end of a body. -/
theorem wit_CallAndReturn :
    let s : State := inCode (busy.wx 5 140)
    let e : State := inCode (looping (levelOf 1 2 2 3))
    Clean s (.call { rd := 1, off := 1 }) ∧ Clean s (.ret 5) ∧ s.atEnd = false ∧ (s.cur.rx 5).toNat < 2 ^ 48 ∧
    s.targetFault s.iss.core 140 = none ∧ s.targetFault s.iss.core 400 = some (0x05, 400) ∧
    2 ^ 48 ≤ ((inCode (busy.wx 5 0x1000000000000)).cur.rx 5).toNat ∧ (inCode (busy.wx 5 0x1000000000000)).atEnd = false ∧
    Clean e (.call { rd := 1, off := 1 }) ∧ Clean e (.ret 5) ∧ e.atEnd = true ∧ e.cur.inner = some (0, levelOf 1 2 2 3) := by
  decide +kernel

/-- A trip count of zero; no free level; a count at the bound and one beyond it; a body that its enclosing one holds, one
that leaves it, and a way on that leaves an active body, with a trip count and without. -/
theorem wit_LoopEntry :
    let f : BlF := { rs1 := 5, stg := 0, len := 2, maxe := 0, maxm := 2 }
    let full : Core := { busy with c := { busy.c with lc := .replicate 4 (levelOf 1 2 9 3) } }
    let s (n : DWord) : State := inCode (busy.wx 5 n)
    let inside (fin : BitVec 16) (n : DWord) : State := inCode ((looping (levelOf 1 2 fin 3)).wx 5 n)
    let max := (f.maxm.toNat + 1) * 2 ^ f.maxe.toNat
    let outside (s : State) : Bool :=
      (match s.cur.inner with
       | some (_, l) => l.holds s.here && decide (l.fin.toNat ≤ (s.imemIdx s.cur (s.cur.k.pc.toNat + 4 * f.len.toNat)).toNat)
       | none => false) ||
      s.leaks (if (s.cur.rx f.rs1).toNat = 0 then s.following s.iss.core (s.cur.k.pc.toNat + 4 * f.len.toNat) else s.iss.next.toNat) none
    let runs (s : State) (out : Bool) : Prop := Clean s (.loop f) ∧ s.atEnd = false ∧ outside s = out
    (runs (s 0) false ∧ ((s 0).cur.rx f.rs1).toNat = 0) ∧
    (runs (inCode (full.wx 5 1)) false ∧ (inCode (full.wx 5 1)).cur.freeLevel = none ∧ ((inCode (full.wx 5 1)).cur.rx f.rs1).toNat ≠ 0) ∧
    (runs (s 3) false ∧ ((s 3).cur.rx f.rs1).toNat = max ∧ (s 3).cur.freeLevel = some 0) ∧
    (runs (s 4) false ∧ max < ((s 4).cur.rx f.rs1).toNat ∧ (s 4).cur.freeLevel = some 0) ∧
    (runs (inside 5 1) false ∧ (inside 5 1).cur.freeLevel = some 1) ∧
    (runs (inside 4 1) true ∧ runs (inside 3 0) true ∧ (inside 3 0).leaks (inside 3 0).iss.next.toNat none = false) ∧
    (Clean (inside 2 1) (.loop f) ∧ Clean (inside 2 1) (.loopW f) ∧ Clean (inside 2 1) (.loopSp f) ∧ (inside 2 1).atEnd = true ∧
      (inside 2 1).cur.inner = some (0, levelOf 1 2 2 3)) := by
  decide +kernel

/-- The end of a body: a named register with and without a while loop, iterations left and none, the bound reached, a way on that
leaves the enclosing body. LBRK in a loop and outside. -/
theorem wit_LoopEnd :
    let s (kind : BitVec 2) (iter : BitVec 27) (x : DWord) : State := inCode ((looping (levelOf kind 2 2 iter)).wx 5 x)
    let two : State := inCode ((busy.setLevel 0 (levelOf 1 2 2 1)).setLevel 1 (levelOf 1 2 2 1))
    let off : State := inCode (looping (levelOf 1 1 2 2))
    let on : State := inCode (looping (levelOf 1 2 9 3))
    let at_ (s : State) (k : Nat) (l : LoopLv) : Prop := s.atEnd = true ∧ s.cur.inner = some (k, l) ∧ ∀ r ∈ [0, 5], Clean s (.lend r)
    at_ (s 1 2 1) 0 (levelOf 1 2 2 2) ∧ (at_ (s 2 1 1) 0 (levelOf 2 2 2 1) ∧ (s 2 1 1).cur.rx 5 ≠ 0) ∧
    (at_ (s 2 2 0) 0 (levelOf 2 2 2 2) ∧ (s 2 2 0).cur.rx 5 = 0) ∧ at_ (s 3 2 1) 0 (levelOf 3 2 2 2) ∧
    (s 1 2 1).targetFault 0 ((s 1 2 1).addrOfIdx (s 1 2 1).cur 136 2) = none ∧
    (at_ off 0 (levelOf 1 1 2 2) ∧ off.targetFault 0 (off.addrOfIdx off.cur 136 1) = some (0x04, 132)) ∧
    (Clean on (.lend 0) ∧ on.atEnd = false ∧ on.cur.inner = some (0, levelOf 1 2 9 3)) ∧
    (Clean quiet (.lend 0) ∧ quiet.cur.inner = none) ∧
    (at_ (s 1 1 1) 0 (levelOf 1 2 2 1) ∧ (s 1 1 1).leaks (s 1 1 1).iss.next.toNat (some 0) = false) ∧
    (at_ two 1 (levelOf 1 2 2 1) ∧ two.leaks two.iss.next.toNat (some 1) = true) ∧
    (Clean quiet (.lbrk 0) ∧ quiet.cur.inner = none) ∧
    (Clean (s 1 2 1) (.lbrk 5) ∧ (s 1 2 1).cur.rx 5 ≠ 0 ∧ Clean (s 1 2 0) (.lbrk 5) ∧ (s 1 2 0).cur.rx 5 = 0) := by
  intro s two off on at_
  refine ⟨?_, ?_, ?_, ?_, ?_, ?_, ?_, ?_, ?_, ?_, ?_, ?_⟩ <;> decide +kernel

/-- LITSET with the greatest legal address, one whose low bits are not zero, one of 49 bits; IINV inside and outside the
arena; SSTEP inside and outside a handler. -/
theorem wit_WaitFormatHalt :
    let s (v : DWord) : State := inCode (busy.wx 5 v)
    let handler : Core := { busy with bank := some { t := .empty, loops := 0, tpc := 0, replay := none, cause := 1 } }
    Clean quiet (.wait { st := 0, cp := 0, tl := 0, wl := 0 }) ∧ Clean quiet (.setfmt .x56 .rdn) ∧
    (Clean (s 0xFFFFFFFFFFFC) (.litset 5) ∧ ((s 0xFFFFFFFFFFFC).cur.rx 5).toNat < 2 ^ 48 ∧ ((s 0xFFFFFFFFFFFC).cur.rx 5).toNat % 4 = 0) ∧
    ((s 2).cur.rx 5).toNat % 4 ≠ 0 ∧ 2 ^ 48 ≤ ((s 0x1000000000000).cur.rx 5).toNat ∧
    Clean quiet (.iinv 0) ∧
    (Clean (s 136) (.iinv 5) ∧ (s 136).cur.inArena ((s 136).cur.rx 5).toNat = true ∧
      ((s 136).segOf (s 136).cur ((s 136).cur.rx 5).toNat).isSome = true) ∧
    (s 384).cur.inArena ((s 384).cur.rx 5).toNat = false ∧
    (Clean quiet .sstep ∧ quiet.cur.bank = none) ∧ (Clean (at0 handler) .sstep ∧ (at0 handler).cur.bank ≠ none) ∧
    (Clean quiet .yield ∧ quiet.atEnd = false) ∧ Clean quiet .halt ∧
    (let e : State := inCode (looping (levelOf 1 2 2 3)); Clean e .yield ∧ e.atEnd = true ∧ e.cur.inner = some (0, levelOf 1 2 2 3)) := by
  decide +kernel

/-- TRET outside a handler; in one with a loop level more than entry found; with a TPC outside the arena, between words, at no start
bit, and at one. -/
theorem wit_TrapsAndReturn :
    let handler (loops : Nat) (pc : BitVec 48) : Core :=
      { busy with tr := { busy.tr with pc := pc }, bank := some { t := .empty, loops := loops, tpc := pc, replay := none, cause := 1 } }
    let s (pc : BitVec 48) : State := inCode (handler 0 pc)
    let l : State := inCode ((handler 0 136).setLevel 0 (levelOf 1 2 9 3))
    let returns (s : State) : Prop := Clean s .tret ∧ s.atEnd = false ∧ s.cur.bank.map (·.loops) = some 0
    (Clean quiet (.trap 7) ∧ quiet.atEnd = false ∧ Clean quiet .tret ∧ quiet.cur.bank = none) ∧
    (returns l ∧ 0 < l.cur.activeLoops) ∧ (s 136).cur.activeLoops = 0 ∧
    (returns (s 400) ∧ (s 400).cur.inArena 400 = false) ∧ (returns (s 138) ∧ (s 138).cur.inArena 138 = true ∧ 138 % 4 ≠ 0) ∧
    (returns (s 128) ∧ (s 128).cur.inArena 128 = true ∧ (s 128).maskBit 0 128 0 = false) ∧
    (returns (s 136) ∧ (s 136).cur.inArena 136 = true ∧ (s 136).maskBit 0 136 0 = true) ∧
    (let e : State := inCode (looping (levelOf 1 2 2 3))
     Clean e (.trap 7) ∧ Clean e .tret ∧ e.atEnd = true ∧ e.cur.inner = some (0, levelOf 1 2 2 3)) := by
  decide +kernel

/-! ### Witnesses: vector operations -/

theorem wit_VectorArithmetic : Clean quiet (.vfma { vd := 40, vs1 := 41, vs2 := 42, et := .f32, pg := 1 }) ∧
    Clean quiet (.vlog2 { vd := 63, vs1 := 0, et := .f16, pg := 0 }) := ⟨quiet_clean _, quiet_clean _⟩

theorem wit_VectorBitsAndFills : Clean quiet (.vshl { vd := 40, vs1 := 41, vs2 := 42, et := .i64, pg := 15 }) ∧
    (Clean quiet (.vli { vd := 40, imm := 0x800, et := .f16, pg := 0 }) ∧ Fmt.f16.isFloat = true) ∧
    (Clean quiet (.vli { vd := 40, imm := 0x800, et := .i8, pg := 0 }) ∧ Fmt.i8.isFloat = false) :=
  ⟨quiet_clean _, ⟨quiet_clean _, rfl⟩, quiet_clean _, rfl⟩

theorem wit_ComparesAndPredicates : Fmt.f64.isVec = true ∧ Fmt.f64.isFloat = true ∧ Fmt.i8.isVec = true ∧ Fmt.i8.isFloat = false ∧
    Clean quiet (.vcmpUn { pd := 15, vs1 := 41, vs2 := 42, et := .f64, pg := 1 }) ∧
    Clean quiet (.vpcnt { ps := 15, x := 5, et := .i8, pg := 0 }) := ⟨rfl, rfl, rfl, rfl, quiet_clean _, quiet_clean _⟩

theorem wit_SelectAndPermute : Clean quiet (.vslideup { vd := 40, vs1 := 41, amt := 63, et := .i8, pg := 0 }) ∧
    Clean quiet (.vcompress { vd := 40, vs1 := 41, et := .f64, pg := 3 }) := ⟨quiet_clean _, quiet_clean _⟩

/-- The greatest distance that sixteen elements have. -/
theorem wit_ReduceScanSort : Fmt.f64.isVec = true ∧ (3 : BitVec 3).toNat < Fmt.f64.log2n ∧
    Clean quiet (.vredsum { vd := 40, vs1 := 41, et := .f64, pg := 3 }) ∧
    Clean quiet (.vbitonic { vd := 40, vs1 := 41, b := 4, d := 3, et := .f64, pg := 0 }) :=
  ⟨rfl, by decide, quiet_clean _, quiet_clean _⟩

theorem wit_SumsLogarithmicRandom : Fmt.i8.isVec = true ∧ Fmt.i8.isFloat = false ∧
    Clean quiet (.vscansum { vd := 40, vs1 := 41, et := .i8, pg := 3 }) ∧
    Clean quiet (.vdotL6 { vd := 40, vs1 := 41, vs2 := 42, pg := 0 }) ∧
    Clean quiet (.vrand { vd := 40, vs1 := 41, vs2 := 42, et := .i64, pg := 0 }) :=
  ⟨rfl, rfl, quiet_clean _, quiet_clean _, quiet_clean _⟩
/-! ### Witnesses: loads, stores and atomics -/

/-- A state whose h8 is a tagged capability and whose x6 holds an offset. -/
def handle (cap : Cap) (off : DWord) : State := at0 ((busy.wh 8 cap true).wx 6 off)

/-- Each cause of R167: no tag, another space, a policy above 3, another context, no permission, an offset that is not
aligned, one byte beyond the length; and no cause at the last place. Of several elements the first that fails; with no active
element a handle without a tag. -/
theorem wit_HandleChecks :
    let i (h : HReg) : Instr := .st { xt := 5, h := h, xi := 6, imm := 0 }
    let why (cap : Cap) (off : DWord) : Option (BitVec 8) := (handle cap off).refuses 8 [0, 1, 2, 4, 5] pW 8 off.toNat 8
    let odd : State := at0 (busy.wv 6 (BitVec.allOnes 1024) (2 ^ 33))
    (∀ h, Clean quiet (i h)) ∧ quiet.refuses 5 [0, 1, 2, 4, 5] pW 8 0 8 = some 0x20 ∧
    why (capOf 3 0 0x1000 0xFF) 0 = some 0x21 ∧ why (capOf 2 0 0x1000 0xFF + 2 ^ 107 * 4) 0 = some 0x22 ∧
    why (capOf 2 0 0x1000 0xFF + 2 ^ 122) 0 = some 0x23 ∧ why (capOf 2 0 0x1000 0xFD) 0 = some 0x24 ∧
    why (capOf 2 0 0x1000 0xFF) 4 = some 0x25 ∧ why (capOf 2 0 0xFF8 0xFF) 0xFF8 = some 0x26 ∧
    why (capOf 2 0 0x1000 0xFF) 0xFF8 = none ∧ why (capOf 0 0 0x200000 0xFF) 0x100000 = some 0x26 ∧
    (Clean quiet (.vscatter { vt := 40, h := 5, xi := 6, pg := 0 }) ∧ quiet.refuses 5 [0, 1, 2, 4, 5] pW 4 (quiet.spots 6 0 0) 4 = some 0x20 ∧
      0 ∈ (List.range 32).filter (quiet.cur.active 32 0)) ∧
    (Clean odd (.vscatter { vt := 40, h := 2, xi := 6, pg := 0 }) ∧
      odd.refuses 2 [0, 1, 2, 4, 5] pW 4 (odd.spots 6 0 0) 4 = none ∧
      odd.refuses 2 [0, 1, 2, 4, 5] pW 4 (odd.spots 6 0 1) 4 = some 0x25) ∧
    (Clean quiet (.vscatter { vt := 40, h := 5, xi := 6, pg := 1 }) ∧ (List.range 32).filter (quiet.cur.active 32 1) = [] ∧
      quiet.refusesHandle 5 [0, 1, 2, 4, 5] pW = some 0x20) :=
  ⟨fun _ => quiet_clean _, by decide +kernel⟩

/-- An access through the GLOB or SPAD handle of `busy`, first in program order. -/
def anAcc (k : AccKind) (cap : Cap) : Access :=
  { id := 0, kind := k, cap := cap, addr := 64, off := 64, slot := .va, acq := none, rel := none, carries := none, rank := none
    unit := 8, done := [], performed := false, refused := false, rels := [], reply := none, counted := true }

def withAcc (a : Access) : State := at0 { busy with m := { busy.m with accs := [a], nextId := 1 } }

def globCap : Cap := capOf 2 0 0x10000 0xFF

/-- The host link is up, and its stream in key slot 8 is keyed. -/
def withHost (s : State) : State :=
  { s with dev := { s.dev with
      link := { s.dev.link with hostUp := true }
      keys := [(8, { kind := .ide, link := false, owner := 0, key := 0, peer := 0, live := true })] } }

/-- HOST through key slot 8, under a policy. -/
def hostCap (policy : Nat) : Cap := capOf 4 0 0x10000 0xFF + BitVec.ofNat 256 (2 ^ 107 * policy + 2 ^ 110 * 8)
def clusCap : Cap := capOf 1 0 0x1000 0xFF

theorem withAcc_ok (a : Access) : (withAcc a).Ok ∧ (withHost (withAcc a)).Ok := by
  obtain ⟨h1, h2, h3, h4, h5, h6, h7⟩ := busy_ok
  have h : (withAcc a).Ok := at0_ok ⟨h1, h2, h3, h4, h5, h6, h7⟩
  obtain ⟨g1, g2, g3, g4, g5, g6⟩ := h
  exact ⟨⟨g1, g2, g3, g4, g5, g6⟩, ⟨g1, g2, g3, g4, g5, g6⟩⟩

/-- A landing entry of another load. -/
def aLanding (id : Nat) : Landing :=
  { id := id, rem := 5, dest := .x 9, slot := .va, cap := capOf 2 0 0x10000 0xFF, srcs := [(0, 64, 8)], mask := 0, data := 0
    marks := 0, left := [0], sampled := false, arrived := false, refused := false, rank := none, narrow := false }

/-- Sixteen live entries. -/
def crowded : Core := { busy with t := { Timing.empty with landing := (List.range 16).map aLanding } }

/-- SPAD whose owner entry names another context (R345). -/
def shut (s : State) : State := ownedBy 5 (ownerCore 0) s

/-- SPAD under L = 0, at its end, admitted and not; GLOB, HOST and SPAD under L = 1, admitted and not, with no store of the task under way,
with room and with sixteen entries. -/
theorem wit_HandleLoads :
    let f (l : Bool) (h : HReg) (imm : BitVec 9) : VmF := { vt := 40, h := h, xi := 6, l := l, imm := imm }
    let g (l : Bool) : LdF := { xt := 5, h := 1, xi := 6, l := l, imm := if l then 511 else 0 }
    let e : State := at0 (busy.wx 6 0xFFF80)
    let host : State := handle (hostCap 0) 0
    let all : List Nat := [0, 1, 2, 3, 4, 5]
    let vld (s : State) (l : Bool) (h : HReg) : Prop :=
      let i : Instr := .vld (f l h (if l then 511 else 0))
      Clean s i ∧ s.refuses h (if l then all else [0]) pR 128 (s.offset i).toNat 128 = none
    let ld (s : State) (l : Bool) : Prop :=
      Clean s (.ld (g l)) ∧ s.refuses 1 (if l then all else [0]) pR 8 (s.offset (.ld (g l))).toNat 8 = none
    let gathers (s : State) (l : Bool) (h : HReg) : Prop := Clean s (.vgather (f l h 0)) ∧
      s.refusesAny h (if l then all else [0]) pR 4 ((List.range 32).map (s.spots 6 0)) 4 = none
    (quiet.spadOk 0 = true ∧ (shut quiet).spadOk 0 = false) ∧
    (Clean e (.vld (f false 1 0)) ∧ e.refuses 1 [0] pR 128 (e.offset (.vld (f false 1 0))).toNat 128 = none) ∧
    (vld (shut quiet) false 1 ∧ gathers quiet false 1 ∧ gathers (shut quiet) false 1 ∧ ld quiet false ∧ ld (shut quiet) false) ∧
    (vld quiet true 2 ∧ gathers quiet true 2 ∧ capSpace (quiet.cur.rh 2) ≠ spSpad) ∧ (vld host true 8 ∧ capSpace (host.cur.rh 8) = spHost) ∧
    (vld quiet true 1 ∧ gathers quiet true 1 ∧ ld quiet true ∧ capSpace (quiet.cur.rh 1) = spSpad ∧ quiet.cur.t.landing.length < 16) ∧
    (quiet.iss.core < 768 ∧ ∀ k, k < 128 → quiet.forward 0 quiet.cur.m.nextId (mkey .spad 0 k) = none) ∧
    (vld (shut quiet) true 1 ∧ gathers (shut quiet) true 1 ∧ ld (shut quiet) true ∧ capSpace ((shut quiet).cur.rh 1) = spSpad ∧
      (shut quiet).cur.t.landing.length < 16 ∧ (shut quiet).iss.core < 768) ∧
    (ld (at0 crowded) true ∧ capSpace ((at0 crowded).cur.rh 1) = spSpad ∧ 16 ≤ (at0 crowded).cur.t.landing.length) ∧
    (Clean quiet (.ldSc { xt := 5, h := 2, xi := 6, imm := 1 }) ∧
      quiet.refuses 2 [2] pR 8 (quiet.offset (.ldSc { xt := 5, h := 2, xi := 6, imm := 1 })).toNat 8 = none) := by
  intro f g e host all vld ld gathers
  refine ⟨?_, ?_, ?_, ?_, ?_, ?_, ?_, ?_, ?_, ?_⟩ <;> decide +kernel

/-- SPAD, admitted and not, HOST and GLOB, at the last place; lanes and elements active and none. -/
theorem wit_HandleStores :
    let f (h : HReg) : VstF := { vt := 40, h := h, xi := 6, imm := 0 }
    let e : State := at0 (busy.wx 6 0xFF80)
    let host : State := handle (hostCap 0) 0
    let g (p : PReg) : VsmF := { vt := 40, h := 1, xi := 6, pg := p }
    let q : LsF := { xt := 5, h := 2, xi := 6, imm := 0 }
    let w : List Nat := [0, 1, 2, 4, 5]
    let vst (s : State) (h : HReg) : Prop := Clean s (.vst (f h)) ∧ s.refuses h w pW 128 (s.offset (.vst (f h))).toNat 128 = none
    let scatters (s : State) (p : PReg) : Prop :=
      Clean s (.vscatter (g p)) ∧ s.refusesLive 1 w pW 4 (((List.range 32).filter (s.cur.active 32 p)).map (s.spots 6 0)) 4 = none
    quiet.Ok ∧ (vst e 2 ∧ capSpace (e.cur.rh 2) = spGlob) ∧ (vst host 8 ∧ capSpace (host.cur.rh 8) = spHost) ∧
    (vst quiet 1 ∧ vst (shut quiet) 1 ∧ capSpace (quiet.cur.rh 1) = spSpad ∧ quiet.spadOk 0 = true ∧ (shut quiet).spadOk 0 = false) ∧
    (Clean quiet (.vstm (g 0)) ∧ quiet.refuses 1 w pW 128 (quiet.offset (.vstm (g 0))).toNat 128 = none) ∧
    (scatters quiet 0 ∧ (List.range 32).filter (quiet.cur.active 32 0) ≠ [] ∧ scatters quiet 1 ∧ (List.range 32).filter (quiet.cur.active 32 1) = []) ∧
    (Clean e (.st q) ∧ e.refuses 2 w pW 8 (e.offset (.st q)).toNat 8 = none) ∧
    (Clean e (.stl { x := 5, h := 2, xi := 6, scope := .die }) ∧ e.refuses 2 w pW 8 0xFF80 8 = none) ∧
    (Clean e (.stSc q) ∧ e.refuses 2 [2] pW 8 (e.offset (.stSc q)).toNat 8 = none) := by
  intro f e host g q w vst scatters
  refine ⟨quiet_ok, ?_, ?_, ?_, ?_, ?_, ?_, ?_, ?_⟩ <;> decide +kernel

/-- GLOB; SPAD with a granule marked and not, with a destination and without, and not admitted; a vector atomic of no element, on distinct
words, on words that coincide and with a marked one. -/
theorem wit_Atomics :
    let f (h : HReg) (xd : XReg) : AmoF := { xd := xd, xs := 7, h := h, xi := 6, scope := .domain, ord := .acqRel }
    let poisoned (s : State) : State := { s with marks := [granule (mkey .spad 0 0)] }
    let picks (offs : Nat) : State := at0 { busy with r := { busy.r with v := busy.r.v.set 6 (BitVec.ofNat 1024 offs), p := busy.r.p.set 1 0x11 } }
    let all : List Nat := [0, 1, 2, 5]
    let amo (s : State) (h : HReg) (xd : XReg) : Prop := Clean s (.amocas (f h xd)) ∧ s.refuses h all pRWA 8 0 8 = none
    let g (h : HReg) (pg : PReg) : VvF := { vt := 40, h := h, vi := 6, scope := .die, ord := .relaxed, pg := pg }
    let act (s : State) (pg : PReg) : List Nat := (List.range 32).filter (s.cur.active 32 pg)
    let vamo (s : State) (h : HReg) (pg : PReg) : Prop := Clean s (.vamoadd (g h pg)) ∧ s.refusesLive h all pRWA 4 ((act s pg).map (s.spots 6 0)) 4 = none
    let v : State := picks (2 ^ 32 * 4)
    quiet.Ok ∧
    (amo quiet 2 5 ∧ capSpace (quiet.cur.rh 2) ≠ spSpad) ∧ (amo quiet 1 5 ∧ capSpace (quiet.cur.rh 1) = spSpad) ∧
    (quiet.marked (mkey .spad 0 0) 8 = false ∧ quiet.spadOk 0 = true ∧ ∀ k, k < 8 → quiet.owes (mkey .spad 0 k) = false) ∧
    (amo (poisoned quiet) 1 5 ∧ amo (poisoned quiet) 1 0 ∧ (poisoned quiet).spadOk 0 = true ∧ (poisoned quiet).marked (mkey .spad 0 0) 8 = true) ∧
    (amo (shut quiet) 1 5 ∧ (shut quiet).spadOk 0 = false) ∧
    (Clean quiet (.amoSc { xd := 5, xs := 7, h := 2, xi := 6 }) ∧ quiet.refuses 2 [2] pRWA 8 0 8 = none) ∧
    (vamo v 1 1 ∧ act v 1 = [0, 1] ∧ v.spadOk 0 = true ∧ ((act v 1).map (v.spots 6 0)).Nodup ∧
      (∀ j ∈ act v 1, v.spots 6 0 j % 4 = 0) ∧ (∀ j ∈ act v 1, v.marked (mkey .spad 0 (v.spots 6 0 j)) 4 = false)) ∧
    (vamo (poisoned v) 1 1 ∧ vamo (picks 0) 1 1 ∧ vamo (shut v) 1 1 ∧ act (shut v) 1 ≠ [] ∧ (shut v).spadOk 0 = false) ∧
    (vamo quiet 1 1 ∧ act quiet 1 = [] ∧ vamo quiet 2 0) ∧
    (Clean quiet (.vredst (g 2 0)) ∧ quiet.refuses 2 all pRWA 128 0 128 = none ∧ Clean quiet (.vredst (g 1 0)) ∧ quiet.refuses 1 all pRWA 128 0 128 = none) := by
  intro f poisoned picks all amo g act vamo v
  refine ⟨quiet_ok, ?_, ?_, ?_, ?_, ?_, ?_, ?_, ?_, ?_, ?_⟩ <;> decide +kernel

/-- LDA of GLOB and SPAD, admitted and not; CFLUSH of no byte, of one and of SPAD; an acquire at domain scope whose loads are taken, one
behind a load, and another fence; VPREF through a handle with no fault, with one that it ignores, and with each of the three it does
not. -/
theorem wit_FencesAndFlushes :
    let r (h : HReg) : VtxF := { x := 5, h := h, xi := 6, scope := .die }
    let one : State := at0 (busy.wx 5 1)
    let w : List Nat := [0, 1, 2, 4, 5]
    let reads (s : State) (h : HReg) : Prop := Clean s (.lda (r h)) ∧ s.refuses h w pR 8 0 8 = none
    let cleans (s : State) (h : HReg) : Prop := Clean s (.cflush (r h)) ∧ s.refuses h w pR 1 0 (s.cur.rx 5).toNat = none
    let v : VfenceF := { scope := .domain, ord := .acquire }
    let mark : FenceMark := { id := 1, ord := .acquire, scope := .domain, far := true }
    let loads : State := withAcc (anAcc (.lda 5) globCap)
    let vpref (s : State) (h : HReg) (e : Option (BitVec 8)) : Prop :=
      Clean s (.vpref { h := h, xi := 6, imm := 0 }) ∧ s.refuses h [0, 1, 2, 3, 4, 5] 0 1 0 0 = e
    (quiet.Ok ∧ loads.Ok) ∧ (reads quiet 2 ∧ capSpace (quiet.cur.rh 2) ≠ spSpad) ∧
    (reads quiet 1 ∧ reads (shut quiet) 1 ∧ capSpace (quiet.cur.rh 1) = spSpad ∧ quiet.spadOk 0 = true ∧ (shut quiet).spadOk 0 = false) ∧
    (cleans quiet 2 ∧ (quiet.cur.rx 5).toNat = 0 ∧ cleans one 2 ∧ cleans one 1 ∧ (one.cur.rx 5).toNat ≠ 0) ∧
    (Clean quiet (.fence { fm := 0, pred := 0, succ := 0, rs1 := 0, rd := 0 }) ∧ ∀ sc ∈ [Scope.die, .domain], Clean quiet (.vfence { v with scope := sc })) ∧
    (quiet.cur.m.fences = [] ∧ quiet.cur.loaded mark = true ∧ Clean loads (.vfence v) ∧ loads.cur.m.fences = [] ∧ loads.cur.loaded mark = false) ∧
    (vpref quiet 2 none ∧ vpref quiet 5 (some 0x20) ∧ vpref quiet 4 (some 0x21)) ∧
    (vpref (handle (capOf 2 0 0x1000 0xFF + 2 ^ 107 * 4) 0) 8 (some 0x22) ∧ vpref (handle (capOf 2 0 0x1000 0xFF + 2 ^ 122) 0) 8 (some 0x23)) := by
  intro r one w reads cleans v mark loads vpref
  refine ⟨⟨quiet_ok, (withAcc_ok _).1⟩, ?_, ?_, ?_, ?_, ?_, ?_, ?_⟩ <;> decide +kernel

/-! ### Witnesses: capabilities, barriers, jobs and transforms -/

/-- Barrier object 0, active with two arrivals expected. -/
def anObj : BarObj := { BarObj.zero with act := true, gen := 1, phase := 2, expect := 2 }

def withBar (o : BarObj) (s : State) : State := { s with dev := { s.dev with bars := [(0, o)] } }

/-- CLDH and CSTH in SPAD, admitted and not, in one granule and across two, and in GLOB; CNARROW at the full length and one byte beyond; a
barrier handle that passes and one that does not, another package's object, a second handle that does not pass; BWAITP on an object
that is not active, with another generation, another phase, and with its own token. -/
theorem wit_CapabilitiesAndBarriers :
    let b (h : HReg) : BarF := { hb := h, xa := 6, xb := 5, scope := .package }
    let t (tok : DWord) : State := withBar anObj (at0 (busy.wx 5 tok))
    let far : State := handle (capOf 6 (2 ^ 25) 0x1000 0xFF) 0
    let odd : State := handle (capOf 0 8 0x1000 0xFF) 0
    let genIs (tok : DWord) : Prop := ((t tok).bar 0).gen % 16 = (fld ((t tok).cur.rx 5) 16 4).toNat
    let phaseIs (tok : DWord) : Prop := ((t tok).bar 0).phase % 65536 = (fld ((t tok).cur.rx 5) 0 16).toNat
    (quiet.Ok ∧ ∀ i, Clean quiet i) ∧
    (∀ h ∈ [1, 2], quiet.refuses h [0, 1, 2] 0x09 32 0 32 = none ∧ quiet.refuses h [0, 1, 2] 0x12 32 0 32 = none) ∧
    (capSpace (quiet.cur.rh 1) = spSpad ∧ mkey .spad 0 0 % 32 = 0 ∧ quiet.spadOk 0 = true ∧ capSpace (quiet.cur.rh 2) ≠ spSpad) ∧
    ((shut quiet).refuses 1 [0, 1, 2] 0x09 32 0 32 = none ∧ Clean (shut quiet) (.cldh { ha := 9, hb := 1, xa := 6, imm := 0 }) ∧ (shut quiet).spadOk 0 = false) ∧
    (odd.refuses 8 [0, 1, 2] 0x12 32 0 32 = none ∧ mkey .spad 0 (capBase (odd.cur.rh 8)) % 32 ≠ 0) ∧
    (quiet.refuses 2 [0, 1, 2, 3, 4, 5, 6] 0x80 1 0 0 = none ∧ capLen (quiet.cur.rh 2) = 0x10000 ∧
      ((at0 ((busy.wx 7 0x10000).wx 6 0)).cur.rx 7).toNat ≤ 0x10000 ∧ ¬((at0 (busy.wx 7 0x10001)).cur.rx 7).toNat ≤ 0x10000) ∧
    (quiet.refuses 2 [6] 0x40 64 0 64 = some 0x21 ∧ quiet.refuses 4 [6] 0x40 64 0 64 = none ∧
      quiet.refuses 4 [6] 0x40 64 0xFC0 64 = none ∧ capBase (quiet.cur.rh 4) / 2 ^ 25 % 1024 = quiet.pkgId.toNat) ∧
    (Clean far (.barrive (b 8)) ∧ far.refuses 8 [6] 0x40 64 0 64 = none ∧ capBase (far.cur.rh 8) / 2 ^ 25 % 1024 ≠ far.pkgId.toNat) ∧
    ((quiet.bar 0).act = false ∧ quiet.cur.m.waiting = false) ∧
    (Clean (t 0x10002) (.bwaitp (b 4)) ∧ ((t 0x10002).bar 0).act = true ∧ genIs 0x10002 ∧ phaseIs 0x10002) ∧
    (¬genIs 0 ∧ genIs 0x10001 ∧ ¬phaseIs 0x10001 ∧ Clean (t 0) (.bwaitp (b 4)) ∧ Clean (t 0x10001) (.bwaitp (b 4))) := by
  intro b t far odd genIs phaseIs
  refine ⟨⟨quiet_ok, quiet_clean⟩, ?_, ?_, ?_, ?_, ?_, ?_, ?_, ?_, ?_, ?_⟩ <;> decide +kernel

/-- A FILL card of one row of 8 bytes through h2; a COPY card from h1 to h2; an INSPECT card of the WPE from h3 to h1. -/
def fillCard : BitVec 512 := BitVec.ofNat 512 (6 + 2 ^ 28 * 2 + 2 ^ 256 * (8 + 2 ^ 16 + 2 ^ 32 + 2 ^ 48))
def copyOne : BitVec 512 := BitVec.ofNat 512 (1 + 2 ^ 24 * 1 + 2 ^ 28 * 2 + 2 ^ 256 * (8 + 2 ^ 16 + 2 ^ 32 + 2 ^ 48))
def inspectCard : BitVec 512 := BitVec.ofNat 512 (3 + 2 ^ 28 * 1 + 2 ^ 32 * 3 + 2 ^ 44 * 1)

/-- A job of the task of `busy`. -/
def aJob (work : JobWork) : Job :=
  { id := 0, die := 0, owner := .task 0, core := 0, ctx := 0, lid := 0, home := 0, ticket := 0, slot := .ca, seq := 0, work := work, sh := busy.rh 1
    dh := busy.rh 6, ah := 0, gh := 0, rm := .rne, rows := 0, started := false, paused := false, after := [], edges := [], cancel := false
    bad := none, signalled := false, build := none }

def withJob (j : Job) (s : State) : State :=
  { s with cores := s.cores.map (fun e => (e.1, { e.2 with m := { e.2.m with ticket := 1 } }))
           dev := { s.dev with jobs := [j], nextJob := 1 } }

/-- Cards in SPAD and in a vector register: one that passes and one with kind 0; a handle that does not pass. CQUERY and CCANCEL
of a live job, waiting, running or building, of one whose signal is on its way, of one that has ended, of one that 199 tickets have
followed and of none; a card that names a poisoned handle. -/
theorem wit_JobInstructions :
    let f : CjF := { h := 1, xi := 6, off := 0, step := 0, xd := 5 }
    let card (k : BitVec 512) : State := quiet.storeNat (mkey .spad 0 0) 64 k.toNat
    let at_ (s : State) (i : Instr) : BitVec 512 := BitVec.ofNat 512 (s.nat (mkey .spad 0 (capBase (s.cur.rh 1) + (s.offset i).toNat)) 64)
    let owned (s : State) (v : DWord) : Option Job :=
      if v.toNat < 65536 then s.dev.jobs.find? (fun j => decide (j.owner = .task 0) && j.ticket == v.setWidth 16) else none
    let live (s : State) (v : DWord) : Option Job :=
      if decide (v.toNat < 65536) && decide (1 ≤ (s.cur.m.ticket - v.setWidth 16).toNat) && decide ((s.cur.m.ticket - v.setWidth 16).toNat ≤ 64)
      then owned s v else none
    let old (j : Job) : State := let s := at0 { busy with m := { busy.m with ticket := 200 } }
      { s with dev := { s.dev with jobs := [j], nextJob := 1 } }
    let poisonedH : State := at0 { busy with r := { busy.r with hmark := 1 <<< 2 } }
    let fill : Job := aJob (.copy fillCard)
    let b : Build := { bankNo := 0, blk := 0, slot := 0, tries := 0, it := 0, ok := 0, vals := [], side := [], mp := false }
    let wpe : Job := { aJob (.wpe inspectCard) with started := true }
    let ended : State := at0 { busy with m := { busy.m with ticket := 1, tickets := [{ num := 0, rows := 1, state := 2, cause := 0 }] } }
    let copies (k : BitVec 512) : Bool := (quiet.checkCopyCard (some 0) (capCtx (busy.rh 0)) k (taskHandles busy) 0).isOk
    (∀ i, Clean quiet i) ∧
    (Clean (card fillCard) (.cjob f) ∧ (card fillCard).refuses 1 [0] pR 64 ((card fillCard).offset (.cjob f)).toNat 64 = none ∧
      ∀ k, k < 64 → KeySet.has (card fillCard).marks ((mkey .spad 0 0 + k) / 32) = false) ∧
    (at_ (card fillCard) (.cjob f) = fillCard ∧ at_ (card 0) (.cjob f) = 0 ∧ Clean (card 0) (.cjob f) ∧ copies fillCard = true ∧ copies copyOne = true) ∧
    (at_ (card inspectCard) (.cwpe f) = inspectCard ∧ Clean (card inspectCard) (.cwpe f) ∧
      (quiet.checkWpeCard 0 (capCtx (busy.rh 0)) inspectCard (taskHandles busy) 0).isOk = true) ∧
    (quiet.refuses 2 [0] pR 64 0 64 = some 0x21 ∧ quiet.refuses 2 [0, 1, 2] pW 8 0 8 = none ∧ quiet.refuses 5 [0, 1, 2] pW 8 0 8 = some 0x20) ∧
    ((∀ r ∈ [2], quiet.cur.r.hmark.getLsbD r = false) ∧ (∀ r ∈ [1, 3], quiet.cur.r.hmark.getLsbD r = false) ∧
      Clean poisonedH (.cjobv { vs := 40, xd := 5 }) ∧ poisonedH.cur.r.hmark.getLsbD 2 = true) ∧
    (owned (old fill) 0 = some fill ∧ live (old fill) 0 = none ∧ Clean (old fill) (.ccancel 6)) ∧
    (∀ j ∈ [fill, wpe, { wpe with build := some b }, { fill with signalled := true }], live (withJob j quiet) 0 = some j ∧ Clean (withJob j quiet) (.ccancel 6) ∧
      (withJob j quiet).cur.mode ≠ .dying ∧ (withJob j quiet).cur.task.isSome = true) ∧
    (live ended 0 = none ∧ ended.cur.m.tickets.find? (fun t => t.num == 0) = some { num := 0, rows := 1, state := 2, cause := 0 }) ∧
    live quiet 0 = none := by
  intro f card at_ owned live old poisonedH fill b wpe ended copies
  refine ⟨quiet_clean, ?_, ?_, ?_, ?_, ?_, ?_, ?_, ?_, ?_⟩ <;> decide +kernel

/-- A job's card at the start of SPAD, and what reads it. -/
def carded : State := quiet.storeNat (mkey .spad 0 0) 64 fillCard.toNat
def cardAt0 : CjF := { h := 1, xi := 6, off := 0, step := 0, xd := 5 }

/-- Of each kind of form one that completes: the handle, the offset and the entry admit it, an entry is free, no granule is marked. -/
theorem wit_MemoryFormsComplete :
    let w : List Nat := [0, 1, 2, 4, 5]
    let v : State := at0 { busy with r := { busy.r with p := busy.r.p.set 1 0x11 } }
    let els : List Nat := ((List.range 32).filter (v.cur.active 32 1)).map (v.spots 6 0)
    (quiet.Ok ∧ ∀ i, Clean quiet i) ∧ (quiet.spadOk 0 = true ∧ quiet.cur.t.landing.length < 16 ∧ capSpace (quiet.cur.rh 1) = spSpad) ∧
    (∀ h ∈ [1, 2], quiet.refuses h w pR 128 0 128 = none ∧ quiet.refuses h w pW 128 0 128 = none ∧ quiet.refuses h w pR 8 0 8 = none ∧
      quiet.refuses h w pW 8 0 8 = none ∧ quiet.refuses h w pR 1 0 0 = none ∧ quiet.refuses h [0, 1, 2, 5] pRWA 8 0 8 = none ∧
      quiet.refuses h [0, 1, 2, 5] pRWA 128 0 128 = none ∧ quiet.refuses h [0, 1, 2] 0x09 32 0 32 = none ∧
      quiet.refuses h [0, 1, 2] 0x12 32 0 32 = none ∧ quiet.refuses h [0, 1, 2, 3, 4, 5, 6] 0x80 1 0 0 = none ∧
      quiet.refuses h [0, 1, 2, 3, 4, 5] 0 1 0 0 = none ∧ quiet.refuses h [0, 1, 2] pW 8 0 8 = none) ∧
    (Clean carded (.cjob cardAt0) ∧ carded.refuses 1 [0] pR 64 (carded.offset (.cjob cardAt0)).toNat 64 = none ∧
      carded.cardMarks carded.cur 1 0 = [] ∧ carded.handlePoison (cardHandles fillCard false) = none ∧ carded.cardAt carded.cur 1 0 = fillCard ∧
      carded.handlePoison (cardHandles inspectCard true) = none ∧
      (quiet.checkCopyCard (some 0) (capCtx (busy.rh 0)) fillCard (taskHandles busy) 0).isOk = true ∧
      (quiet.checkWpeCard 0 (capCtx (busy.rh 0)) inspectCard (taskHandles busy) 0).isOk = true) ∧
    (quiet.refuses 1 [0] pR 128 0 128 = none ∧ quiet.refuses 2 [2] pRWA 8 0 8 = none ∧ quiet.refuses 2 [2] pR 8 0 8 = none ∧
      quiet.marked (mkey .spad 0 0) 128 = false) ∧
    (Clean v (.vscatter { vt := 40, h := 1, xi := 6, pg := 1 }) ∧ els ≠ [] ∧ v.refusesLive 1 w pW 4 els 4 = none ∧
      v.refusesLive 1 [0, 1, 2, 5] pRWA 4 els 4 = none ∧ quiet.refusesLive 1 [0] pR 4 ((List.range 32).map (quiet.spots 6 0)) 4 = none) ∧
    (∀ o ∈ els, v.marked (mkey .spad 0 o) 4 = false) ∧
    ((quiet.cur.rx 6).toNat + (quiet.cur.rx 7).toNat ≤ capLen (quiet.cur.rh 2) ∧ quiet.refuses 4 [6] 0x40 64 0 64 = none ∧
      capBase (quiet.cur.rh 4) / 2 ^ 25 % 1024 = quiet.pkgId.toNat ∧ ((withBar anObj quiet).bar 0).act = true ∧
      Clean (withBar anObj quiet) (.bwaitp { hb := 4, xa := 6, xb := 5, scope := .package })) := by
  intro w v els
  refine ⟨⟨quiet_ok, quiet_clean⟩, ?_, ?_, ?_, ?_, ?_, ?_, ?_⟩ <;> decide +kernel

theorem wit_TransformOperations : Clean quiet (.xexpS24 { vd := 41, vs := 40, dt := .l6 }) ∧ Fmt.bf16.isVec = true ∧ Fmt.f32.isVec = true ∧
    Clean quiet (.xcvt { vd := 41, vs := 40, dt := .bf16, st := .f32 }) ∧ Clean quiet (.xtr { vd := 41, vs := 40, r := true }) ∧
    Clean quiet (.xscalei 0x400) := ⟨quiet_clean _, rfl, rfl, quiet_clean _, quiet_clean _, quiet_clean _⟩
/-! ### Witnesses: the matrix slot -/

/-- Slots 1 and 2 are claimed; tile 1 is dense, 2 of rank 1, 3 complex64, 4 complex128; RSEQ names one stage of radix 2. -/
def tiled : Core :=
  let t (k : TileKind) (p : List Nat) : Tile := { kind := k, rank := 0, panels := p, elems := List.replicate 1024 0, u := [], v := [] }
  let ps (k : Nat) : List Nat := (List.range 32).map (· + 32 * k)
  { busy with
    c := { busy.c with rseq := BitVec.ofNat 34 (2 ^ 30 + 1) }
    r := { busy.r with
      slots := (busy.r.slots.set 1 { SlotSt.free with claimed := true }).set 2 { SlotSt.free with claimed := true, verified := BitVec.allOnes 32 }
      tiles := (((busy.r.tiles.set 1 (t .dense (ps 0))).set 2
        { kind := .lowRank, rank := 1, panels := [96, 97], elems := [], u := List.replicate 32 0, v := List.replicate 32 0 }).set 3
          (t .complex64 (ps 1))).set 4 (t .complex128 (ps 2)) } }

/-- The literal word `w` at MPC. -/
def withLit (w : Word) (s : State) : State := (s.storeNat (mkey .glob 0 264) 4 w.toNat).storeNat (mkey .imem 0 136) 4 w.toNat

def onTiles (acc : Acc) (w : Word) : State := withLit w (inCode { tiled with c := { tiled.c with acc := acc } })

/-- The literal can be read, is `w`, and no register is marked. -/
abbrev Reads (s : State) (w : Word) : Prop :=
  Unmarked s.cur ∧ s.mpcBad s.cur = false ∧ s.overlayConflict s.cur = false ∧ s.literal = w

theorem matReady {s : State} {w : Word} (h : Reads s w) (i : Instr) : MatReady s i :=
  ⟨poisonTrap_unmarked h.1 i s.literal, h.2.1, h.2.2.1⟩

/-- A list of checks of which none fails. -/
def passes (l : List (BitVec 8 × DWord × Bool)) : Bool := l.all (fun k => !k.2.2)

theorem reads_zero : Reads (onTiles .f64 0) 0 := by
  refine by decide +kernel

/-- MPC in word 1 of a line; MPC in another segment with the same IMEM line. -/
theorem wit_LiteralChecks :
    let bad : State := inCode { tiled with c := { tiled.c with mpc := 260 } }
    let bad : State := { bad with cores := bad.cores.map (fun e => (e.1, { e.2 with c := { e.2.c with mpc := 260 } })) }
    let two : State := (inCode tiled).storeNat (mkey .glob 0 0) 48
      (2 + 2 ^ 128 * (1 + 2 ^ 84 * 1 + 2 ^ 100 * 0xFFF) + 2 ^ 256 * (2 + 2 ^ 84 * 1 + 2 ^ 100 * 0xFFF))
    (Instr.takesLiteral (.mrank { ms1 := 1, xs := 5 }) = true ∧ bad.poisonTrap (.mrank { ms1 := 1, xs := 5 }) bad.literal = none ∧
      bad.cur.c.mpc.toNat % 128 / 4 < 2) ∧
    (two.poisonTrap (.mrank { ms1 := 1, xs := 5 }) two.literal = none ∧ two.mpcBad two.cur = false ∧ ∃ g h,
      two.segOf two.cur two.cur.c.mpc.toNat = some g ∧ two.segOf two.cur two.cur.k.pc.toNat = some h ∧ g.num ≠ h.num ∧
      g.iline < h.iline + h.nlines ∧ h.iline < g.iline + g.nlines) := by
  refine ⟨⟨rfl, poisonTrap_unmarked (by decide +kernel) _ _, by decide +kernel⟩, poisonTrap_unmarked (by decide +kernel) _ _, by decide +kernel,
    { num := 1, aline := 2, nlines := 1, iline := 0, next := 0xFFF, res0 := false },
    { num := 0, aline := 1, nlines := 1, iline := 0, next := 0xFFF, res0 := false }, ?_⟩
  decide +kernel

/-- Every check of each operation passes, and the first fails where the literal is not zero or the slot is not as it must be. -/
theorem wit_OperandSlots :
    let s := onTiles .f64 0
    let c := s.cur
    Reads s 0 ∧ (∀ i, MatReady s i) ∧ s.noParticulars.2.2 = false ∧ (onTiles .f64 1).noParticulars.2.2 = true ∧
    (c.slot 3).claimed = false ∧ (c.slot 1).claimed = true ∧ (c.unclaimed 1).2.2 = false ∧ (c.unclaimed 3).2.2 = true ∧
    ((s.accessChecks 3 [3] pR 256 0 8192).any (·.2)) = false ∧ ((s.accessChecks 3 [3] pR 256 0xE100 8192).any (·.2)) = true :=
  ⟨reads_zero, matReady reads_zero, by decide +kernel⟩

/-- Panels enough and, for MMOV and MZERO, a pool that is empty; the tile's kinds; one tile onto itself. -/
theorem wit_TileMoves :
    let s := onTiles .f64 0
    let c := s.cur
    let full : Core := { tiled with r := { tiled.r with
      tiles := tiled.r.tiles.set 9 { kind := .dense, rank := 0, panels := (List.range 158).map (· + 98), elems := [], u := [], v := [] } } }
    Reads s 0 ∧ (c.noPanels 5 false 32).2.2 = false ∧ (full.noPanels 5 false 32).2.2 = true ∧ (full.noPanels 5 false 0).2.2 = false ∧
    (c.tile 1).kind = .dense ∧ (c.tile 2).kind = .lowRank ∧ (c.tile 5).kind = .empty ∧
    Reads (onTiles .f64 0) 0 := by
  decide +kernel

/-- Every check of a form passes: MMA.F64 under its mode, MMA.L6 under both of its modes; K-trims at the extent and beyond. -/
theorem wit_DenseProducts :
    let pass (acc : Acc) (w : Word) (modes : List Acc) (full : Nat) : Bool :=
      let s := onTiles acc w
      passes [(0x07, 0, decide (w.toNat / 2 ^ 10 ≠ 0 ∨ full < (fld w 0 10).toNat)), s.cur.wrongAcc modes, s.cur.unclaimed 1,
        s.cur.unclaimed 2, s.cur.wrongKind 1 [.dense, .empty], s.cur.noPanels 1 false 32] &&
      (rowMarks s.cur ((List.range 32).map (fun l => (1, l)) ++ (List.range 32).map (fun l => (2, l)))).isEmpty
    Reads (onTiles .f64 0) 0 ∧ Reads (onTiles .w56 256) 256 ∧ pass .f64 0 [.f64] 32 = true ∧ pass .f64 32 [.f64] 32 = true ∧
    pass .f64 33 [.f64] 32 = false ∧ pass .w56 256 [.x56, .w56] 256 = true ∧ pass .x56 0 [.x56, .w56] 256 = true ∧ pass .w56 0 [.x56] 512 = false ∧
    pass .w56 128 [.w56] 128 = true ∧ pass .x56 512 [.x56] 512 = true :=
  ⟨reads_zero, by decide +kernel⟩

/-- Slot 2 has every line verified: the sparse forms pass; a literal that skips every row; a type that no form has. -/
theorem wit_SparseProducts :
    let pass (acc : Acc) (w : Word) (modes : List Acc) (full per : Nat) : Bool :=
      let s := onTiles acc w
      let kept := (List.range 32).filter (fun i => !w.getLsbD (4 + i / 4))
      let kt := (fld w 12 10).toNat
      let ext := if kt = 0 then full else kt
      passes ([(0x07, 0, decide (w.toNat / 2 ^ 22 ≠ 0 ∨ full < kt)), s.cur.wrongAcc modes, s.cur.unclaimed 2, s.cur.unclaimed 1,
          s.cur.wrongKind 1 [.dense, .empty], s.cur.noPanels 1 false 32] ++
        kept.map (fun l => (0x45, 0, !(s.cur.slot 2).verified.getLsbD l)) ++
        kept.map (fun l => (0x46, 0, decide (per = 2) &&
          (List.range (ext / 4)).any (fun g => decide (s.sideIdx 2 l (2 * g + 1) ≤ s.sideIdx 2 l (2 * g))))))
    (Fmt.f64, 32, 128, [Acc.f64]) ∈ [(Fmt.f64, 32, 128, [Acc.f64]), (.f32, 64, 128, [.f64]), (.bf16, 128, 128, [.w56]),
      (.f16, 128, 128, [.w56]), (.i8, 256, 64, [.x56]), (.l6, 256, 64, [.x56, .w56])] ∧
    Reads (onTiles .f64 0xFF0) 0xFF0 ∧ pass .f64 0 [.f64] 32 1 = true ∧ pass .f64 0xFF0 [.f64] 32 2 = true ∧ pass .f64 0 [.f64] 32 2 = false ∧
    pass .f64 (0xFF0 + 32 * 4096) [.f64] 32 2 = true ∧ (pass .w56 (9 + 0xFF0) [.x56, .w56] 256 1 = true ∧ (9 + 0xFF0) % 16 = 9) ∧
    (Reads (onTiles .f64 4) 4 ∧ 4 % 16 ∉ [0, 1, 2, 3, 7, 9]) := by
  refine ⟨.head _, by decide +kernel⟩

/-- Every check of each low-rank operation passes, at RMAX and one above it. -/
theorem wit_LowRankOperations :
    let s := onTiles .f64 0
    let c := s.cur
    let lr : List TileKind := [.lowRank, .empty]
    let ds : List TileKind := [.dense, .empty]
    Reads s 0 ∧ c.c.rmax.toNat = 16 ∧ (c.overRank 16).2.2 = false ∧ (c.overRank 17).2.2 = true ∧ (c.unclaimed 1).2.2 = false ∧
    (c.wrongKind 2 lr).2.2 = false ∧ (c.wrongKind 1 ds).2.2 = false ∧ (c.wrongKind 1 lr).2.2 = true ∧ (c.wrongAcc [.f64]).2.2 = false ∧
    (c.noPanels 5 false 32).2.2 = false ∧ c.rankIn 2 = 1 ∧ c.rankIn 5 = 0 ∧ (rowMarks c [(1, 0), (1, 16)]).isEmpty = true ∧
    (((List.range 32).map (factorEl (c.tile 2).u 0)).any (fun x => decide (1263 * 2 ^ 52 ≤ x % 2 ^ 63))) = false :=
  ⟨reads_zero, by decide +kernel⟩

/-- A complex tile of each width and a sequence of one stage of radix 2; block-exponent scaling; MBREV from a tile and from a
slot; MTWMUL with N = 1. -/
theorem wit_ButterflyOperations :
    let s (w : Word) := onTiles .f64 w
    let c := (s 0).cur
    let x : State := withLit 0 (inCode (tiled.wx 5 1))
    Reads (s 0) 0 ∧ Reads (s 0x30) 0x30 ∧ Reads (s 5) 5 ∧ (c.wrongKind 3 [.complex64]).2.2 = false ∧ (c.wrongKind 4 [.complex128]).2.2 = false ∧
    radicesOf c.c.rseq 1024 = some [2] ∧ radicesOf c.c.rseq 512 = some [2] ∧ (c.noPanels 5 false 32).2.2 = false ∧
    (c.unclaimed 1).2.2 = false ∧ (fld (0x30 : Word) 4 2).toNat = 3 ∧ (Reads x 0 ∧ (x.cur.rx 5).toNat = 1) := by
  refine ⟨reads_zero, by decide +kernel⟩

/-! ### Witnesses: every core -/

def pending (sl : Slot) (xf : Bool) (w : Write) : Pend := { rem := 0, lat := 1, slot := sl, xform := xf, w := w, flags := 1 }

/-- Results of four slots due at once, and one due later: the core is not frozen and no landing is due; with a landing that has
not arrived it is frozen; with one that has, its write is due first. -/
theorem wit_ResultWriteback :
    let due : List Pend := [pending .va false (.v 40 0 1), pending .s false (.x 5 1), pending .x true (.v 40 0 2), pending .b false (.x 5 2),
      { pending .s false (.x 6 1) with rem := 3 }]
    let c : Core := { busy with t := { busy.t with pend := due } }
    let gone : Core := { busy with t := { busy.t with landing := [aLanding 0] } }
    let here : Core := { busy with t := { busy.t with landing := [{ aLanding 0 with rem := 0, arrived := true }] } }
    (((at0 c).core 0).frozen = false ∧ ((at0 c).core 0).landDue = [] ∧ (orderPend (((at0 c).core 0).t.pend.filter (·.rem == 0))).length = 4) ∧
    ({ gone with t := { gone.t with landing := [{ aLanding 0 with rem := 0, arrived := false }] } } : Core).frozen = true ∧ here.landDue ≠ [] ∧
    (due.map (·.w)).any Write.isRow = false := by decide +kernel

/-- Each plain CSR has its own number; FLAGS and NARROW are apart from them. -/
theorem wit_CsrWrites : (0x806 : BitVec 12) ∈ csrPlain ∧ (0x81E : BitVec 12) ∈ csrPlain ∧ (0x801 : BitVec 12) ∉ csrPlain ∧
    (0x810 : BitVec 12) ∉ csrPlain ∧ (0x801 : BitVec 12) ≠ 0x810 := by decide

/-- A launch of 128 indices on die 0; die 0 is ready and has four save records. -/
def aLaunch : Launch :=
  { id := 0, packet := 0, lid := 0, ctx := 0, prio := 0, codebase := 0, codelim := 384, entry := 136, mpc := 264, nidx := 128, logn := 0
    cpol := 0, levels := [], dies := [0], args := List.replicate 5 0, htab := [], next := 0, returned := [], claims := [], blocked := []
    again := [], live := 0, dead := [], groups := [], awayIssued := [], backed := [], begun := false, pkgFirst := 0, pkgs := 1, accepted := [0], awayAccepted := []
    away := [], awayEnded := [], granted := 0, awaySteps := [], reports := [], answered := [], pending := [], mirrors := [], mirrorNext := 0
    ending := [], unacked := [], hbad := 0 }

def withLaunch (l : Launch) (s : State) : State :=
  { s with dev := { s.dev with
      boot := [(0, .ready)]
      sched := { s.dev.sched with launches := [l], nextLaunch := 1, savepool := [(0, BitVec.ofNat 64 (2 ^ 52 * 4 + 2 ^ 21 * 16))] } } }

/-- A launch whose tasks' faults go up to level 2. -/
def upTo2 : Launch := { aLaunch with cpol := 3, levels := [⟨false, false, 0, 1⟩, ⟨true, false, 2, 2⟩] }

/-- A trap of class T with a handler in force at a bundle of the arena, at one outside it, with none in force, a trap of class C,
and one in a handler; nothing is pending. -/
theorem wit_TrapEntry :
    let c (tvec : BitVec 48) : Core := { busy with c := { busy.c with tvec := tvec } }
    let t : Trap := mkTrap 0x01 0 .s busy
    let deep : Core := { busy with bank := some { t := .empty, loops := 0, tpc := 0, replay := none, cause := 1 } }
    (∀ p ∈ busy.t.pend, flushes p = false) ∧ (∀ o ∈ busy.t.eng, o.xdest = none) ∧ busy.bank = none ∧ causeClass t.cause = .t ∧
    (bit ((inCode (c 0x81)).core 0).c.tvec 0 = true ∧ (inCode (c 0x81)).handlerFault 0 = none) ∧
    (bit ((inCode (c 0x201)).core 0).c.tvec 0 = true ∧ (inCode (c 0x201)).handlerFault 0 = some 0x05) ∧
    bit (c 0x80).c.tvec 0 = false ∧ causeClass 0x66 ≠ .t ∧ causeClass 0x66 ≠ .z ∧
    (deep.bank.isSome = true ∧ (∀ p ∈ deep.t.pend, flushes p = false) ∧ (∀ o ∈ deep.t.eng, o.xdest = none) ∧ t.kind ≠ .deferred) ∧
    (causeClass 0xA0 = .z ∧ quiet.absorbs 0 = false ∧ (withLaunch aLaunch quiet).absorbs 0 = true) ∧
    ((withLaunch aLaunch quiet).Ok ∧ quiet.cur.alive = true ∧ quiet.cur.task = some placedTask ∧ quiet.findLaunch placedTask.launch = none) ∧
    (∀ p : BitVec 2, (withLaunch { aLaunch with cpol := p } quiet).findLaunch placedTask.launch = some { aLaunch with cpol := p }) ∧
    (aLaunch.policy 0 = 0 ∧ quiet.granuleOpen 0 0 = true ∧ aLaunch.levelsFrom 0 = [0] ∧ upTo2.levelsFrom 0 = [0, 2] ∧ upTo2.policy 0 = 3) ∧
    (∀ p : BitVec 2, (withLaunch { upTo2 with levels := [⟨false, false, 0, 1⟩, ⟨true, false, p, 2⟩] } quiet).canRestart
      { upTo2 with levels := [⟨false, false, 0, 1⟩, ⟨true, false, p, 2⟩] } 0x01 [0] 2 0 = true) := by
  refine ⟨by decide +kernel, by decide +kernel, by decide +kernel, by decide +kernel, by decide +kernel, by decide +kernel,
    by decide +kernel, by decide +kernel, by decide +kernel, by decide +kernel, by decide +kernel, ⟨quiet_ok, by decide +kernel⟩,
    by decide +kernel, by decide +kernel, by decide +kernel⟩

/-- A completion trap before deferred ones; a deferred trap of class T; a contained one behind it with the handler's bank held; a
core that waits at SSTEP; a frozen core; a handler that has drained, with a vector atomic to carry out again and without. -/
theorem wit_TrapEventsAtBoundary :
    let d (code : BitVec 8) : Trap := { mkTrap code 0 .va busy with kind := .deferred }
    let here (c : Core) : Prop := c.mode = .running ∧ c.delay = 0 ∧ c.m.bar = [] ∧ c.tretDrain = none ∧ c.entering = none
    let free (c : Core) : Prop := c.atWork = true ∧ c.frozen = false
    let ended : Core := { busy with comp := some (mkTrap 0x65 0 .va busy), deferred := [d 0x26] }
    let one : Core := { busy with deferred := [d 0x26, d 0x80] }
    let b : Bank := { t := .empty, loops := 0, tpc := 136, replay := none, cause := 1 }
    let two : Core := { busy with bank := some b, deferred := [d 0x26, d 0xE0] }
    let froze : Core := { busy with t := { busy.t with landing := [{ aLanding 0 with rem := 0, arrived := false }] } }
    let back (pc : BitVec 48) (replay : Option Access) : Core :=
      { busy with bank := some { b with replay := replay }, tretDrain := some (pc, 3) }
    let vamo : Access := anAcc (.vamo .add 40 0x80000001 (List.replicate 32 8) 0 0 .rne) (capOf 2 0 0x10000 0xFF)
    (free ended ∧ here ended ∧ ended.comp.isSome = true ∧ ended.t.issue = 0) ∧
    (free one ∧ here one ∧ one.comp = none ∧ one.bank = none ∧ one.deferred = d 0x26 :: [d 0x80]) ∧
    (free { one with sstep := true } ∧ here { one with sstep := true }) ∧
    (free two ∧ two.comp = none ∧ two.bank ≠ none ∧ two.deferred = [d 0x26] ++ d 0xE0 :: [] ∧ causeClass (d 0xE0).cause ≠ .t ∧
      ∀ u ∈ [d 0x26], causeClass u.cause = .t) ∧
    (let c : Core := { one with delay := 1 }
     free c ∧ ¬here c ∧ c.comp = none ∧ ∀ u ∈ c.deferred, causeClass u.cause = .t) ∧
    (free busy ∧ busy.comp = none ∧ busy.deferred = []) ∧ (froze.atWork = true ∧ froze.frozen = true) ∧
    (∀ c ∈ [back 136 none, back 137 none, back 136 (some vamo)], c.atWork = true ∧ c.mode = .running ∧ c.tretDrain ≠ none ∧ c.bank ≠ none ∧
      c.t.drained = true) := by
  decide +kernel

/-- A marked source register: ADD takes 0xA0. -/
theorem wit_PoisonTaken :
    let s : State := at0 { busy with r := { busy.r with xmark := 0x40 } }
    ∃ t, s.poisonTrap (.add { rd := 5, rs1 := 6, rs2 := 7 }) (if Instr.takesLiteral (.add { rd := 5, rs1 := 6, rs2 := 7 }) then s.literal else 0) =
      some t := by
  exact Option.isSome_iff_exists.mp (by decide +kernel)

theorem okOf {ε α : Type} {e : Except ε α} {a : α} (h : e.toOption = some a) : e = .ok a := by
  cases e with
  | error _ => cases h
  | ok _ => cases h; rfl

/-- Core 0 from reset with the bundle of one ADDI, and its agenda: the bundle is read, checked and carried out. -/
theorem wit_StepRunsBundle :
    let s0 := State.reset.placeBundle 64 (2 + 2 ^ 32 * 0x00700293)
    let s := { s0 with agenda := [] }.settle 0
    let c := s.core 0
    let i : Instr := .addi { rd := 5, rs1 := 0, imm := 7 }
    let b : Bundle := { headWord := 2, slots := [(.s, 0x00700293)] }
    let ops : List Op := [{ slot := .s, i := i, off := none }]
    let open_ := s.openIssue 0 (bundleHead b).rep
    let two := decide (1 < ops.countP (fun o => Instr.isSc o.i))
    let start := open_.setCore 0 { c with m := { c.m with
      scRank := if two then c.m.scHeld else s.scRankNow c, scHeld := if two then s.scRankNow c else none } }
    (s0.agenda = .core 0 :: [] ∧ (0 : Nat) < 768 ∧ (s0.core 0).atWork = true ∧ (s0.core 0).mode = .running ∧
      (s0.core 0).preempt = false ∧ (s0.core 0).yielding = false ∧ (s0.core 0).deferred = [] ∧ (s0.core 0).delay = 0 ∧
      (s0.core 0).frozen = false) ∧
    (c.entering = none ∧ s.takeDue 0 = none ∧ c.mode = .running ∧ c.tretDrain = none ∧ c.stall = 0 ∧ c.sstep = false ∧ c.m.bar = [] ∧
      s.absent 0 c.k.pc.toNat = none ∧ s.lineTrap 0 = none ∧ s.bundleAt 0 c.k.pc.toNat = some b) ∧
    s.bundleOps 0 b = .ok ops ∧
    ((∀ o ∈ ops, Instr.isOp o.i = true) ∧ (∀ o ∈ ops, open_.stallsOp o = false ∧ open_.onBanked ops o = false) ∧
      open_.spadWaits ops = false ∧ s.codeKnown 0 c.k.pc.toNat = true ∧ s.literalUnknown 0 ops = false ∧ s.literalWaits 0 ops = false ∧
      open_.countersFull ops = false) ∧
    (∃ s2 s3, Runs ops start s2 ∧ (if (bundleHead b).rep ≤ c.t.issue then s2.closeBundle = .ok s3 else s3 = s2) ∧
      ∀ a, s3.iss.xfer = some a → s.codeKnown 0 a.toNat = true) ∧
    c.waitHolds b = false ∧ (s.scRankNow c = none → ∀ o ∈ ops, Instr.isSc o.i = false) ∧ (∀ o ∈ ops, s.opHolds 0 o = false) ∧
    (two = true → c.m.scHeld ≠ none) := by
  intro s0 s c i b ops open_ two start
  refine ⟨by decide +kernel, by decide +kernel, okOf (by decide +kernel), by decide +kernel, ?_, by decide +kernel⟩
  have h : ∃ s2, Runs ops start s2 ∧ s2.closeBundle.toOption.any (·.iss.xfer.isNone) = true :=
    ⟨after (exec i { start with iss := { start.iss with slot := .s, off := none, raised := none } }),
      .cons (after_next (by decide +kernel)) (by decide +kernel) (.nil _), by decide +kernel⟩
  obtain ⟨s2, h1, h2⟩ := h
  obtain ⟨s3, h3⟩ : ∃ s3, s2.closeBundle.toOption = some s3 := by
    cases h : s2.closeBundle.toOption <;> simp_all
  refine ⟨s2, s3, h1, ?_, ?_⟩
  · rw [if_pos (by decide +kernel)]
    exact okOf h3
  · rw [h3] at h2
    intro a e
    simp_all

theorem busy_t_ok (t : Timing) : ({ busy with t := t } : Core).Ok := by
  obtain ⟨h1, h2, h3, h4, h5, h6, h7⟩ := busy_ok
  exact ⟨h1, h2, h3, h4, h5, h6, h7⟩

/-- Segment 0 of one line with segment 1, of line `aline`, as its NEXT, in IMEM lines 0 and 1. -/
def segsAt (aline : Nat) (c : Core) : State :=
  (inCode c).storeNat (mkey .glob 0 0) 48 (2 + 2 ^ 128 * (1 + 2 ^ 84 * 1 + 2 ^ 100 * 1) + 2 ^ 256 * (aline + 2 ^ 73 * 1 + 2 ^ 84 * 1 + 2 ^ 100 * 0xFFF))

abbrev twoSegs : Core → State := segsAt 2

/-- The page of an entry stands before a new owner (R347). -/
def owing (k : Nat) (s : State) : State :=
  { s with dev := { s.dev with prot := { s.dev.prot with owed := [(k, { owner := 5, scrub := false })] } } }

/-- A further issue; a bundle with LD.SC at an owned position of W; a segment mark; a copy in flight whose lines have landed, one
whose lines have not, one with a line that another context owns. -/
theorem wit_IssueEvents :
    let ld : LsF := { xt := 5, h := 2, xi := 6, imm := 8 }
    let head : Word := 4 ||| 1 <<< 12 ||| 1 <<< 15 ||| 1 <<< 18
    let b : Bundle := { headWord := head, slots := [(.va, ((encode (.ldSc ld)).getD 0))] }
    let sc : State := { withCode [0xFFFFFFFC, 0xFFFFFFFC, head, ((encode (.ldSc ld)).getD 0).setWidth 32] (at0 (coded busy)) with wheel := 1024 }
    let o : Op := { slot := .va, i := .ldSc ld, off := none }
    let marked : Core := { coded busy with k := { (coded busy).k with mark := some 136 } }
    let own : Seg := { num := 0, aline := 1, nlines := 1, iline := 0, next := 1, res0 := false }
    let g : Seg := { num := 1, aline := 2, nlines := 1, iline := 1, next := 0xFFF, res0 := false }
    let far : Seg := { g with aline := 2 ^ 14 }
    let copying : Core := { coded busy with k := { (coded busy).k with segCopy := some 1 } }
    (({ busy with t := { busy.t with issue := 1 } } : Core).t.issue ≠ 0 ∧ busy.t.issue = 0) ∧
    (sc.bundleAt 0 (sc.core 0).k.pc.toNat = some b ∧ sc.bundleOps 0 b = .ok [o] ∧ Instr.isSc o.i = true ∧
      (sc.core 0).m.sample < sc.wheel - 0 ∧ 0 * (16 - sc.dev.power.div.toNat) < 16 ∧ wheelOwns (sc.core 0).c.wheel ((sc.wheel - 0) % 1024) = true) ∧
    (((twoSegs marked).core 0).k.mark = some 136 ∧ (twoSegs marked).segOf ((twoSegs marked).core 0) 136 = some own ∧
      (twoSegs marked).segAt ((twoSegs marked).core 0) own.next = some g ∧ own.next ≠ 0xFFF ∧ g.num ∉ ((twoSegs marked).core 0).k.resident ∧
      ((twoSegs marked).core 0).k.segCopy = none ∧ g.overlaps own = false) ∧
    (let s := twoSegs copying
     s.Ok ∧ (s.core 0).k.segCopy = some g.num ∧ s.segAt (s.core 0) g.num = some g ∧ s.linesReady 0 g = true ∧ s.badLine 0 g = none ∧ g.nlines ≤ 2048) ∧
    (let s := owing 1 (segsAt (2 ^ 14) copying)
     (s.core 0).k.segCopy = some g.num ∧ s.segAt (s.core 0) g.num = some far ∧ s.linesReady 0 far = false) ∧
    (let s := ownedBy 5 1 (segsAt (2 ^ 14) copying)
     (s.core 0).k.segCopy = some g.num ∧ s.segAt (s.core 0) g.num = some far ∧ s.linesReady 0 far = true ∧ s.badLine 0 far = some (2 ^ 21)) := by
  intro ld head b sc o marked own g far copying
  refine ⟨by decide +kernel, ⟨by decide +kernel, okOf (by decide +kernel), by decide +kernel⟩, by decide +kernel, ⟨?_, by decide +kernel⟩, by decide +kernel⟩
  refine ⟨by decide +kernel, by decide +kernel, by decide +kernel, by decide +kernel, ?_, ?_⟩
  · intro e he
    have h : (twoSegs copying).cores = [(0, copying)] := by decide +kernel
    rw [h] at he
    simp only [List.mem_singleton] at he
    subst he
    refine ⟨by decide +kernel, by decide +kernel, by decide +kernel, by decide +kernel, by decide +kernel, by decide +kernel, ?_⟩
    intro k h
    cases h
    exact by decide +kernel
  · have h : (twoSegs copying).dev.sched.saved = [] := by decide +kernel
    simp [h]

/-- An operation on tile 1 whose result is `res`. -/
def engOp (left done : Nat) (res : EngRes) : EngOp :=
  { left := left, dur := 64, begun := true, done := done, md := 1, tiles := [], slots := [], lastRead := [2], reserved := List.range 32
    rm := .rne, res := res, flags := [], atRetire := false, xdest := none }

def aFill (done rem : Nat) : Fill := { id := 0, os := 3, rem := rem, addr := 0, done := List.range done }

/-- A landing due and here, one due and absent, none; a pending format, none. A first block at the port, of values and of
partials with their exponent; the last block has left: a dense result, one of low rank, a scaled one. A fill of no block,
of all but one, of all; a block of a region of another context, and one of no region; a fill that is due. -/
theorem wit_EngineAndFillEvents :
    let t (t : Timing) : State := at0 { busy with t := t }
    let land (arrived : Bool) : State := t { busy.t with landing := [{ aLanding 0 with rem := 0, arrived := arrived }] }
    let shadow : State := t { busy.t with shadow := some { acc := .w56, rm := .rdn, rem := 0 } }
    let zeros : List DWord := List.replicate 1024 0
    let eng (left done : Nat) (res : EngRes) : State := t { busy.t with eng := [engOp left done res], scale := [{ rem := 0, e := 3 }] }
    let fill (done rem : Nat) : State := t { busy.t with fills := [aFill done rem] }
    let region : BitVec 128 := BitVec.ofNat 128 (2 ^ 112 * 5 + 2 ^ 77 * 100 + 1)
    let foreign : State := let s := fill 31 4; { s with dev := { s.dev with wt := { s.dev.wt with regions := [(0, region)] } } }
    let barred (s : State) (f : Fill) : Bool :=
      match s.regionOf (dieOf 0) ((f.addr + 256 * f.done.length) / 2 ^ 29) (blkOf (f.addr + 256 * f.done.length)) with
      | some r => decide (r.toNat / 2 ^ 112 % 2 ^ 16 ≠ (s.ctxOf 0).toNat ∧ r.toNat / 2 ^ 112 % 2 ^ 16 ≠ 0)
      | none => false
    let portClear (s : State) (o : EngOp) : Bool :=
      !s.resultsDue 0 && decide ((s.core 0).t.eng = [] ++ o :: []) && decide (o.left < 8 - o.done) && decide (o.done < 8)
    let retires (s : State) (o : EngOp) : Bool :=
      !s.resultsDue 0 && decide ((s.core 0).t.eng = [] ++ o :: []) && decide (o.left = 0) && decide (o.done = 8) && decide ((s.core 0).bank = none)
    ((land false).core 0).frozen = true ∧ (((land true).core 0).frozen = false ∧ ((land true).core 0).landDue ≠ []) ∧ (quiet.core 0).frozen = false ∧
    ((shadow.core 0).frozen = false ∧ (shadow.core 0).t.shadow = some { acc := .w56, rm := .rdn, rem := 0 }) ∧ (quiet.core 0).t.shadow = none ∧
    portClear (eng 7 0 (.blocks .dense zeros)) (engOp 7 0 (.blocks .dense zeros)) = true ∧
    portClear (eng 0 7 (.blocks .dense zeros)) (engOp 0 7 (.blocks .dense zeros)) = true ∧ zeros.length = 1024 ∧
    (portClear (eng 7 0 (.scaled (List.replicate 1024 (0, false)) zeros)) (engOp 7 0 (.scaled (List.replicate 1024 (0, false)) zeros)) = true ∧
      ((eng 7 0 (.scaled (List.replicate 1024 (0, false)) zeros)).core 0).t.scale.filter (·.rem == 0) = [{ rem := 0, e := 3 }]) ∧
    retires (eng 0 8 (.blocks .complex64 zeros)) (engOp 0 8 (.blocks .complex64 zeros)) = true ∧
    retires (eng 0 8 (.whole 1 (zeros.take 32) (zeros.take 32))) (engOp 0 8 (.whole 1 (zeros.take 32) (zeros.take 32))) = true ∧
    retires (eng 0 8 (.scaled [] zeros)) (engOp 0 8 (.scaled [] zeros)) = true ∧
    (let o : EngOp := engOp 0 8 (.blocks .dense zeros)
     let later : EngOp := { engOp 9 0 (.blocks .dense zeros) with slots := [2], lastRead := [] }
     let s : State := t { busy.t with eng := [o, later] }
     s.resultsDue 0 = false ∧ (s.core 0).t.eng = [] ++ o :: [later] ∧ o.left = 0 ∧ o.done = 8 ∧ later.retires = false ∧ 2 ∈ o.lastRead ∧
       2 ∈ later.slots) ∧
    (quiet.Ok ∧ (quiet.core 0).fillOf 3 = none) ∧ (((fill 32 0).core 0).fillOf 3 = some (aFill 32 0) ∧ (aFill 32 0).done.length = 32 ∧ (fill 32 0).blockReady 0 (aFill 32 0) = false) ∧
    ((fill 31 4).Ok ∧ ((fill 31 4).core 0).fillOf 3 = some (aFill 31 4) ∧ (aFill 31 4).done.length < 32 ∧ (fill 31 4).blockReady 0 (aFill 31 4) = true ∧ barred (fill 31 4) (aFill 31 4) = false ∧
      ((fill 31 4).slotOfBlock (bankOf (dieOf 0) ((aFill 31 4).addr + 256 * 31)) (blkOf ((aFill 31 4).addr + 256 * 31))).isSome = true) ∧
    ((foreign.core 0).fillOf 3 = some (aFill 31 4) ∧ foreign.blockReady 0 (aFill 31 4) = true ∧ barred foreign (aFill 31 4) = true) ∧
    ((fill 32 0).resultsDue 0 = false ∧ (∃ f ∈ ((fill 32 0).core 0).t.fills, f.os = 3 ∧ f.rem = 0)) ∧ (land true).resultsDue 0 = true := by
  intro t land shadow zeros eng fill region foreign barred portClear retires
  have ok : (fill 31 4).Ok := at0_ok (busy_t_ok _)
  refine ⟨?_, ?_, ?_, ?_, ?_, ?_, ?_, ?_, ?_, ?_, ?_, ?_, ?_, ⟨quiet_ok, ?_⟩, ?_, ⟨ok, ?_⟩, ?_⟩ <;> decide +kernel

/-! ### Witnesses: the memory system's events -/

/-- No entry; a landing with data at its home, and one that comes in two units; a store performed and one to perform, in CLUS, in
HOST where the slice keeps it and where it goes out over an open link, in GLOB of the own die, of another die, and of a page of another context; an
atomic on a clean doubleword of GLOB, at both ends of a granule, of HOST and of another die, and on a marked one; a vector atomic's
first and last element. -/
theorem wit_AccessEvents :
    let land (o z : Nat) : Landing := { aLanding 0 with srcs := [(o, 64, z)] }
    let reading (l : Landing) : State := at0 { busy with t := { busy.t with landing := [l] } }
    let arrives (l : Landing) (o z : Nat) : Bool :=
      let s := reading l
      decide ((s.core 0).landings.find? (·.id == 0) = some l) && s.landingReady 0 l && decide (l.srcs.getD (s.pick l.left) (0, 0, 0) = (o, 64, z)) &&
        decide (o + z ≤ 128) && !s.miscoded (s.transferKeys 0 0) &&
        (List.range z).all (fun i => decide (s.verdict (s.ctxOf 0) l.cap (s.place 0 l.cap 64 + i) = .ok))
    let st (cap : Cap) (addr : Nat) : Access := anAcc (.store [(addr, 7)]) cap
    let stores (s : State) (a : Access) (addr : Nat) (ok : Bool) : Bool :=
      decide ((s.core 0).findAcc 0 = some a) && decide (a.kind = .store [(addr, 7)]) && !a.performed && s.storeReady 0 a && decide (a.left ≠ []) &&
        decide (s.verdict (s.ctxOf 0) a.cap (s.place 0 a.cap addr) = .ok) == ok
    let done : Access := { st globCap 64 with performed := true }
    let owned : State := ownedBy 5 0 (withAcc (st globCap 64))
    let host (p : Nat) : State := withHost (withAcc (st (hostCap p) 64))
    let amo (cap : Cap) (addr : Nat) : Access := { anAcc (.amo .add 9 1 0) cap with addr := addr }
    let atomic (s : State) (a : Access) : Bool :=
      decide ((s.core 0).findAcc 0 = some a) && decide (a.reply = none) && s.atomicReady 0 a &&
        decide (s.verdict (s.ctxOf 0) a.cap (s.place 0 a.cap a.addr) = .ok) && decide (s.verdict (s.ctxOf 0) a.cap (s.place 0 a.cap a.addr + 7) = .ok) &&
        (List.range 8).all (fun i => !s.descIgnores (keyOff (s.place 0 a.cap a.addr + i)))
    let home (s : State) (a : Access) : Nat := homeDie (keyOff (s.place 0 a.cap a.addr))
    let settledMark (s : State) (k z : Nat) : Bool := (s.settled 0 ((List.range z).map (k + ·))).marked k z
    let vamo (next : Nat) : Access := anAcc (.vamo .add 40 0x80000001 (List.replicate 32 8) 0 next .rne) clusCap
    let element (a : Access) (next j : Nat) : Bool :=
      let s := withAcc a
      let k := s.place 0 a.cap (capBase a.cap + 8)
      decide ((s.core 0).findAcc 0 = some a) && decide (a.reply = none) && s.atomicReady 0 a && decide (nextActive 0x80000001 next = some j) &&
        decide (s.verdict (s.ctxOf 0) a.cap k = .ok) && decide (s.verdict (s.ctxOf 0) a.cap (k + 3) = .ok) &&
        (List.range 4).all (fun i => !s.descIgnores (keyOff (k + i))) && !settledMark s k 4
    (∀ a, (withAcc a).Ok ∧ (withHost (withAcc a)).Ok) ∧
    (quiet.dataReady 0 0 = false ∧ (∀ f ∈ (quiet.core 0).m.fences, f.far = false)) ∧
    (arrives (land 0 8) 0 8 = true ∧ arrives (land 120 8) 120 8 = true ∧ arrives (land 0 128) 0 128 = true ∧
      arrives { land 0 8 with srcs := [(0, 64, 8), (8, 64, 8)], left := [1] } 8 8 = true) ∧
    (((withAcc done).core 0).findAcc 0 = some done ∧ done.isStore = true ∧ ∀ m ∈ (withAcc done).dev.ms.msgs, m.of 0 0 = false) ∧
    (stores (withAcc (st clusCap 64)) (st clusCap 64) 64 true = true ∧ capSpace clusCap = spClus) ∧
    (stores (host 0) (st (hostCap 0) 64) 64 true = true ∧ capSpace (hostCap 0) = spHost ∧ capPolicy (hostCap 0) ≠ 3 ∧
      (st (hostCap 0) 64).carries = none ∧ (host 0).cacheWays 0 ≠ 0 ∧ (host 0).dev.ms.lines = []) ∧
    (stores (host 3) (st (hostCap 3) 64) 64 true = true ∧ capPolicy (hostCap 3) = 3 ∧ (host 3).owesOpen 0 = true) ∧
    (stores (withAcc (st globCap 64)) (st globCap 64) 64 true = true ∧ capSpace globCap = spGlob ∧
      homeDie (keyOff ((withAcc (st globCap 64)).place 0 globCap 64)) = dieOf 0) ∧
    (∀ h ∈ [1, 7], h ≠ dieOf 0 ∧ h < 8 ∧ (withAcc (st globCap (h * 2 ^ 36))).dev.lost.contains h = false ∧
      stores (withAcc (st globCap (h * 2 ^ 36))) (st globCap (h * 2 ^ 36)) (h * 2 ^ 36) true = true ∧
      homeDie (keyOff ((withAcc (st globCap (h * 2 ^ 36))).place 0 globCap (h * 2 ^ 36))) = h) ∧
    (stores owned (st globCap 64) 64 false = true ∧ (st globCap 64).done = [] ∧ (st globCap 64).refused = false) ∧
    (∀ addr ∈ [64, 88], atomic (withAcc (amo globCap addr)) (amo globCap addr) = true ∧ home (withAcc (amo globCap addr)) (amo globCap addr) = dieOf 0 ∧
      settledMark (withAcc (amo globCap addr)) ((withAcc (amo globCap addr)).place 0 globCap addr) 8 = false ∧ (addr : Nat) < 2 ^ 48) ∧
    (atomic (withHost (withAcc (amo (hostCap 0) 64))) (amo (hostCap 0) 64) = true ∧
      farKey ((withHost (withAcc (amo (hostCap 0) 64))).place 0 (hostCap 0) 64) = true) ∧
    (atomic (withAcc (amo globCap (7 * 2 ^ 36))) (amo globCap (7 * 2 ^ 36)) = true ∧
      home (withAcc (amo globCap (7 * 2 ^ 36))) (amo globCap (7 * 2 ^ 36)) = 7) ∧
    (let s := { withAcc (amo globCap 64) with marks := [granule (mkey .glob 0 64)] }
     atomic s (amo globCap 64) = true ∧ settledMark s (s.place 0 globCap 64) 8 = true) ∧
    element (vamo 0) 0 0 = true ∧ element (vamo 1) 1 31 = true := by
  refine ⟨withAcc_ok, ?_⟩
  decide +kernel

/-- A message to die 1 that follows from nothing. -/
def aMsg (body : MsgBody) : Msg := { id := 0, src := 0, dst := 1, stamp := [1, 0, 0, 0, 0, 0, 0, 0], body := body }

def withMsg (m : Msg) (s : State) : State := { s with dev := { s.dev with ms := { s.dev.ms with msgs := [m], nextMsg := 1 } } }

/-- A message that its receiver's clock does not admit; an announcement; a store that the Wicket admits, one it refuses; a slice
line that its home invalidates, an HOST line that the slice owes and an L1 line; granules of a memory and of a barrier unit; the
first and last weight block of a die; a landing with data at its home, and one that has arrived. -/
theorem wit_CoherenceEvents :
    let write : MsgBody := .write 0 none none 0 [(mkey .glob 0 (2 ^ 36), 7)] [] [] none
    let sent (b : MsgBody) : State := withMsg (aMsg b) quiet
    let tells : MsgBody := .announce [mkey .glob 0 0]
    let late : Msg := { aMsg tells with stamp := [2, 0, 0, 0, 0, 0, 0, 0] }
    let line (dirty : Bool) (key : Nat) : CLine :=
      { key := key, bytes := List.replicate 256 1, marks := 0, tags := 0, dirty := dirty, mask := if dirty then 1 else 0, stream := 8, rels := [] }
    let caches (l : CLine) : State := { quiet with dev := { quiet.dev with ms := { quiet.dev.ms with lines := [(0, l)] } } }
    let host : Nat := 4 * 2 ^ 80
    let owes : State := withHost (caches (line true host))
    let there : Landing := { aLanding 0 with arrived := true }
    let here : State := at0 { busy with t := { busy.t with landing := [there] } }
    let nears : State := at0 { busy with m := { busy.m with l1 := [line false (mkey .glob 0 256)] } }
    let reading : State := at0 { busy with t := { busy.t with landing := [aLanding 0] } }
    let page : Nat := ownerPage (2 ^ 36)
    (quiet.Ok ∧ (∀ b, (sent b).Ok)) ∧
    ((withMsg late quiet).dev.ms.msgs.find? (·.id == 0) = some late ∧ (withMsg late quiet).deliverable late = false) ∧
    ((sent tells).dev.ms.msgs.find? (·.id == 0) = some (aMsg tells) ∧ (sent tells).deliverable (aMsg tells) = true) ∧
    ((sent (.notice [])).deliverable (aMsg (.notice [])) = true) ∧
    ((sent write).deliverable (aMsg write) = true ∧ ((sent write).owner page).admits 0 = true ∧ keySpace (mkey .glob 0 (2 ^ 36)) = 0) ∧
    ((ownedBy 5 page (sent write)).deliverable (aMsg write) = true ∧ ((ownedBy 5 page (sent write)).owner page).admits 0 = false) ∧
    (owes.dev.ms.lines.filter (fun e => e.1 == 0 && e.2.key == lineKey host) = [(0, line true host)] ∧
      (line true host).owing = [(host, 1)] ∧ owes.lineOpen (line true host) = true) ∧
    (keySpace (mkey .glob 0 0) ≤ 2 ∧ keySpace (mkey .spad 767 0xFFFFF) ≤ 2 ∧ keySpace (9 * 2 ^ 80) = 9 ∧
      keySpace (9 * 2 ^ 80 + (2 ^ 25 - 64)) = 9) ∧
    (∀ k ∈ [mkey .glob 0 256, mkey .glob 0 511], (caches (line false (mkey .glob 0 256))).sliceLine 0 k = some (line false (mkey .glob 0 256))) ∧
    (∀ k ∈ [mkey .glob 0 256, mkey .glob 0 511], (nears.core 0).l1Line k = some (line false (mkey .glob 0 256))) ∧
    ((quiet.slotOfBlock (96 * 0 + 0) 0).isSome = true ∧ (quiet.slotOfBlock (96 * 7 + 95) 0x1FFFFF).isSome = true) ∧
    ((reading.core 0).landings.find? (·.id == 0) = some (aLanding 0) ∧ reading.landingReady 0 (aLanding 0) = true ∧
      let e := (aLanding 0).srcs.getD (reading.pick (aLanding 0).left) (0, 0, 0)
      e.1 ≤ 8 * 0 ∧ 8 * 0 < e.1 + e.2.2) ∧
    ((here.core 0).landings.find? (·.id == 0) = some there ∧ there.arrived = true) ∧
    quiet.dev.lost = [] ∧
    ({ reading with dev := { reading.dev with ms := { reading.dev.ms with broken := [(granule (mkey .glob 0 64), .decode)] } } } : State).miscoded
      (reading.transferKeys 0 0) = true ∧
    (let s : State := at0 { busy with t := { busy.t with fills := [aFill 31 4] } }
     (s.core 0).fillOf 3 = some (aFill 31 4) ∧ s.blockReady 0 (aFill 31 4) = true ∧ (aFill 31 4).done.length < 32) ∧
    (let a : Access := anAcc (.store [(64, 7)]) clusCap
     ((withAcc a).core 0).findAcc 0 = some a ∧ (withAcc a).storeReady 0 a = true ∧ a.left ≠ [] ∧ capSpace a.cap = spClus ∧
       (withAcc a).verdict ((withAcc a).ctxOf 0) a.cap ((withAcc a).place 0 a.cap 64) = .ok) ∧
    (let a : Access := anAcc (.amo .add 9 1 0) clusCap
     ((withAcc a).core 0).findAcc 0 = some a ∧ (withAcc a).atomicReady 0 a = true ∧ ∀ f ∈ ((withAcc a).core 0).m.fences, f.far = false) ∧
    (let a : Access := anAcc (.vamo .add 40 0x80000001 (List.replicate 32 8) 0 1 .rne) clusCap
     ((withAcc a).core 0).findAcc 0 = some a ∧ (withAcc a).atomicReady 0 a = true ∧ nextActive 0x80000001 1 = some 31) ∧
    (let g : Seg := { num := 1, aline := 2, nlines := 1, iline := 1, next := 0xFFF, res0 := false }
     let s := twoSegs { coded busy with k := { (coded busy).k with segCopy := some 1 } }
     (s.core 0).k.segCopy = some g.num ∧ s.segAt (s.core 0) g.num = some g ∧ s.linesReady 0 g = true ∧
       256 ∈ g.lineAddrs (s.core 0).c.codebase.toNat) := by
  refine ⟨⟨quiet_ok, fun b => ?_⟩, by decide +kernel⟩
  obtain ⟨g1, g2, g3, g4, g5, g6⟩ := quiet_ok
  exact ⟨g1, g2, g3, g4, g5, g6⟩

/-! ### Witnesses: barrier units, jobs and the weight tier -/

def aWait (req : BarReq) : BarWait := { id := 0, req := req, cap := capOf 6 0 0x1000 0xFF, off := 0, slot := .va, rep := 0 }

def anArrival : Arrival := { rels := [], clock := List.replicate 8 0 }

/-- Object 0 is `o`, object 1 is `q`, and core 0 waits for the answer to `req`. -/
def asked (o q : BarObj) (req : BarReq) : State :=
  let s := at0 { busy with m := { busy.m with bar := [aWait req], nextId := 1 } }
  { s with dev := { s.dev with bars := [(0, o), (1, q)] } }

def told (flip : Bool) (o : BarObj) : State :=
  { quiet with dev := { quiet.dev with bars := [(0, o)], barMsgs := [{ id := 0, flip := flip, addr := 0, arr := anArrival, who := { core := 0, misc := 0 } }], nextBar := 1 } }

/-- No request; BINIT with the least and greatest counts, with zero, one beyond, of an awaiting object and of a parent, and one that
leaves its parent; BLINK of an object to itself, of two fresh objects, of a linked one and below one of depth seven; arrivals on an object not active, one too many, one that
completes no phase, one that completes it for an object with and without a parent. Messages: an arrival at an object that is
not active, one that completes nothing, one that overflows, one that completes a phase, a flip for an awaiting object and for another. -/
theorem wit_BarrierEvents :
    let full (l : Bool) (k : Nat) : BarObj := { anObj with linked := l, arrivals := List.replicate k anArrival }
    let answers (s : State) : Bool :=
      decide ((s.core 0).m.bar ≠ []) && !s.dev.lost.contains (barDie 0) && decide ((s.core 0).comp = none) &&
        (match (s.core 0).m.bar.head? with
         | some w => s.ready 0 w.id [] true (match w.req with | .arrive _ sc => some sc | _ => none)
         | none => false)
    let badInit (xb : DWord) (u : Bool) (o : BarObj) : Bool :=
      decide (xb.toNat = 0) || decide (524287 < xb.toNat) || o.awaiting || (u && decide (o.nchild ≠ 0))
    let badLink (o q : BarObj) : Bool :=
      !o.act || !q.act || o.linked || decide (o.nchild ≠ 0) || decide (o.arrived ≠ 0) || decide (q.depth = 7)
    let arrive : BarReq := .arrive 5 .package
    let child : BarObj := { anObj with linked := true, parentAddr := 64, depth := 1 }
    let reaches (o : BarObj) : Prop := (told false o).dev.barMsgs.map (·.id) = [] ++ 0 :: [] ∧ (told false o).ownPkg 0 = true ∧
      (told false o).dev.lost.contains (barDie 0) = false ∧ (told false o).bar 0 = o
    (quiet.core 0).m.bar = [] ∧
    (answers (asked anObj anObj (.init 1 false)) = true ∧ badInit 1 false anObj = false ∧ badInit 524287 false anObj = false ∧
      badInit 0 false anObj = true ∧ badInit 524288 false anObj = true ∧ badInit 1 false (full true 2) = true ∧
      badInit 1 true { anObj with nchild := 1 } = true) ∧
    (badInit 1 true anObj = false ∧ anObj.linked = false ∧ badInit 1 true child = false ∧ child.linked = true ∧ quiet.ownPkg child.parentAddr = true ∧
      barKey 0 ≠ barKey child.parentAddr ∧ answers (asked child { anObj with nchild := 1, children := [0] } (.init 1 true)) = true) ∧
    (oneObject 0 32 = true ∧ oneObject 0 64 = false) ∧
    (answers (asked anObj anObj (.link (capOf 6 64 0x1000 0xFF) 0)) = true ∧ quiet.ownPkg (64 + 0) = true ∧ barKey 0 ≠ barKey (64 + 0) ∧
      badLink anObj anObj = false ∧ badLink (full true 0) anObj = true ∧ badLink anObj { anObj with depth := 7 } = true) ∧
    (answers (asked anObj anObj arrive) = true ∧ anObj.act = true ∧ anObj.arrived + 1 < 2 * anObj.expect ∧ anObj.arrived + 1 ≠ anObj.expect) ∧
    BarObj.zero.act = false ∧ 2 * (full false 3).expect ≤ (full false 3).arrived + 1 ∧
    ((full true 1).arrived + 1 = (full true 1).expect ∧ (full true 1).linked = true) ∧
    ((full false 1).arrived + 1 = (full false 1).expect ∧ (full false 1).linked = false ∧ (full false 1).arrived + 1 < 2 * (full false 1).expect) ∧
    (reaches anObj ∧ anObj.act = true ∧ anObj.arrived + 1 < 2 * anObj.expect ∧ anObj.arrived + 1 ≠ anObj.expect) ∧
    (reaches { anObj with act := false } ∧ reaches (full false 3) ∧ (full false 3).act = true ∧ 2 * (full false 3).expect ≤ (full false 3).arrived + 1 ∧
      (full false 3).arrived + 1 ≠ (full false 3).expect) ∧
    (reaches (full false 1) ∧ (full false 1).arrived + 1 = (full false 1).expect ∧ (full false 1).linked = false) ∧
    (((told true (full true 2)).bar 0).awaiting = true ∧ ((told true (full true 2)).bar 0).arrived < 2 * ((told true (full true 2)).bar 0).expect) ∧
    ((told true anObj).bar 0).awaiting = false := by
  intro full answers badInit badLink arrive child reaches
  refine ⟨?_, ?_, ?_, ?_, ?_, ?_, ?_, ?_, ?_, ?_, ?_, ?_, ?_, ?_, ?_⟩ <;> decide +kernel

/-- A job that can start, one that runs and one behind another; a FILL row and a COPY row into SPAD, its last too; a GATHER, a SCATTER, a
BROADCAST and a REDUCE row, rows with TAGS into SPAD and GLOB, rows into GLOB of both dies, HOST and PEER; a job with every row made,
with and without a cause, and a cancelled one. -/
theorem wit_JobEvents :
    let fillJob : Job := { aJob (.copy fillCard) with dh := busy.rh 1 }
    let copyJob : Job := { aJob (.copy copyOne) with sh := busy.rh 2, dh := busy.rh 1 }
    let run (j : Job) : Job := { j with started := true }
    let two : Job := { run { aJob (.copy (copyOne + 2 ^ 272)) with sh := busy.rh 2, dh := busy.rh 1 } with rows := 1 }
    let reads (s : State) (j : Job) (cap : Cap) (o z : Nat) : Bool :=
      decide (capSpace cap ≠ spWgt) && !s.rowBound j cap o z && s.rowReady j cap (capBase cap + o) z &&
        decide (s.pieceFault j cap (capBase cap + o) z = none) && !s.miscoded ((List.range z).map (s.place 0 cap (capBase cap + o) + ·)) &&
        !s.spoiled (s.place 0 cap (capBase cap + o)) z
    -- row 0 of the card, with index 0 where it is indexed
    let rowIn (s : State) (j : Job) (card : BitVec 512) (space : Nat) : Bool :=
      let s := withJob j s
      let k := copyCard card
      decide (s.findJob 0 = some j) && j.running && decide (j.bad = none) && decide (j.rows < k.total) && decide (j.rows = 0) &&
        decide (capSpace j.dh = space) && !s.rowBound j j.dh k.doff k.e0 && decide (s.pieceFault j j.dh (capBase j.dh + k.doff) k.e0 = none) &&
        s.rowFree j j.dh (capBase j.dh + k.doff) k.e0 && (!k.hasSrc || reads s j j.sh k.soff k.e0) &&
        (!k.indexed || reads s j j.ah k.aoff 4 && decide (s.nat (s.place 0 j.ah (capBase j.ah + k.aoff)) 4 = 0)) && !s.jobMsgs 0 && decide (s.dev.ms.lines = [])
    let row (j : Job) (card : BitVec 512) : Bool := rowIn quiet j card spSpad
    let aim (dh : Cap) (card : BitVec 512) : Job := { run { aJob (.copy card) with sh := busy.rh 1, dh := dh, ah := busy.rh 1 } with rows := 0 }
    -- a card of another kind, with a doubleword per row, and with two granules
    let kind (c : BitVec 512) (k : Nat) : BitVec 512 := c - 1 + BitVec.ofNat 512 k
    let glob (die : Nat) : Cap := capOf 2 (die * 2 ^ 36) 0x10000 0xFF
    let tagged : BitVec 512 := copyOne + 2 ^ 17 + 2 ^ 256 * 56
    let home (j : Job) (i : Nat) : Nat := homeDie (keyOff ((withJob j quiet).place 0 j.dh (capBase j.dh + i)))
    let up : Port := { trained := true, keyed := true, stale := false, comp := false, stop := false, peer := 3, en := true }
    let peer : State := { quiet with dev := { quiet.dev with
      link := { quiet.dev.link with fabValid := true, ports := [(0, up)] }
      keys := [(8, { kind := .fabric, link := false, owner := 0, key := 0, peer := 3, live := true })] } }
    let peerCap : Cap := capOf 5 0 0x10000 0xFF + BitVec.ofNat 256 (2 ^ 110 * 8)
    let ends (j : Job) : Bool :=
      let s := withJob j quiet
      decide (j.owner = .task 0) && (s.core 0).alive && (s.core 0).task.any (·.uid == 0) && j.running && decide (j.build = none) &&
        decide (j.total ≤ j.rows) && !s.jobMsgs 0 && decide (j.signal = none)
    (withJob fillJob quiet).cores = [(0, { busy with m := { busy.m with ticket := 1 } })] ∧
    ((withJob fillJob quiet).findJob fillJob.id = some fillJob ∧ (withJob fillJob quiet).jobReady fillJob = true ∧ fillJob.running = false) ∧
    (withJob (run fillJob) quiet).jobReady (run fillJob) = false ∧
    (row (run fillJob) fillCard = true ∧ (copyCard fillCard).kind = kFill) ∧
    (row (run copyJob) copyOne = true ∧ (copyCard copyOne).kind = kCopy ∧ capSpace copyJob.sh ≠ spWgt) ∧
    two.rows + 1 = two.total ∧
    ((copyCard tagged).tags = true ∧ (copyCard tagged).e0 = 64 ∧ (copyCard copyOne).tags = false) ∧
    (∀ k ∈ [kGather, kScatter, kReduce, 5], (copyCard (kind copyOne k)).kind = k ∧
      row (aim (busy.rh 1) (kind copyOne k)) (kind copyOne k) = true) ∧
    (row (aim (busy.rh 1) tagged) tagged = true ∧ (withJob (aim (busy.rh 1) tagged) quiet).place 0 (busy.rh 1) 0 % 32 = 0) ∧
    ((rowIn quiet (aim (glob 0) copyOne) copyOne spGlob = true ∧ rowIn quiet (aim (glob 0) tagged) tagged spGlob = true ∧
      rowIn quiet (aim (glob 0) (kind copyOne kReduce)) (kind copyOne kReduce) spGlob = true) ∧
      (List.range 64).all (fun i => home (aim (glob 0) copyOne) i == 0) = true ∧ (List.range 64).all (fun i => !quiet.descIgnores i) = true) ∧
    (rowIn quiet (aim (glob 7) copyOne) copyOne spGlob = true ∧ ((List.range 8).all (fun i => home (aim (glob 7) copyOne) i == 7) = true ∧ quiet.dev.lost = [])) ∧
    rowIn (withHost quiet) (aim (hostCap 0) copyOne) copyOne spHost = true ∧
    (rowIn peer (aim peerCap copyOne) copyOne spPeer = true ∧ rowIn peer (aim peerCap (kind copyOne kReduce)) (kind copyOne kReduce) spPeer = true ∧
      (withJob (aim peerCap (kind copyOne kReduce)) peer).spoiled ((withJob (aim peerCap copyOne) peer).place 0 peerCap 0) 8 = false) ∧
    (ends { run copyJob with rows := 1 } = true ∧ { run copyJob with rows := 1 }.bad = none) ∧
    (ends { run copyJob with rows := 1, bad := some 0x26 } = true ∧ { run copyJob with rows := 1 }.cancel = false) ∧
    ends { run copyJob with rows := 1, cancel := true } = true := by decide +kernel

/-- A WPE job at its first block, and in a region of another context; a build whose rows all verify, one that goes on, one that wears out, one at its eighth iteration,
one at its fourth slot; an old slot that is worn and one that is not. -/
theorem wit_WeightBuildEvents :
    let blocks : BitVec 512 := BitVec.ofNat 512 (2 + 2 ^ 28 * 2 + 2 ^ 32 * 3 + 2 ^ 44 * 1)
    let j : Job := { aJob (.wpe blocks) with sh := busy.rh 2, dh := busy.rh 3, started := true }
    let s := withJob j quiet
    let b : Build := { bankNo := 0, blk := 0, slot := allSlots - 1, tries := 0, it := 0, ok := 0, vals := List.replicate 256 1, side := List.replicate 32 0, mp := false }
    let building (b : Build) : State := withJob { j with build := some b } quiet
    -- the first 100 blocks of bank 0 in a region of context 5
    let ours (s : State) : State := { s with dev := { s.dev with wt := { s.dev.wt with regions := [(0, BitVec.ofNat 128 (1 + 2 ^ 77 * 100 + 2 ^ 112 * 5))] } } }
    let worn (s : State) (b : Build) : Bool :=
      (List.range 5).any (fun r => decide (s.wearLimit (b.bankNo / 96) ≤ s.wearOf b.bankNo b.slot r + if b.ok.getLsbD r then 0 else 1))
    let weary : State := let s := building b
      { s with dev := { s.dev with wt := { s.dev.wt with wear := [(8 * slotNo 0 (allSlots - 1), 99999)], releasing := [(0, 5), (0, allSlots - 1)] } } }
    let old : State := { weary with dev := { weary.dev with wt := { weary.dev.wt with wear := [(8 * slotNo 0 5 + 4, 100000)] } } }
    (s.findJob j.id = some j ∧ j.running = true ∧ j.build = none ∧ j.cancel = false ∧ j.bad = none ∧ j.rows < j.total ∧ (wpeCard blocks).kind = kBlocks ∧
      bankOf j.die (wpeBlockAddr j (wpeCard blocks) j.rows) ∉ s.building j.die ∧ (s.building j.die).length < 16 ∧
      (s.freeList (bankOf j.die (wpeBlockAddr j (wpeCard blocks) j.rows))).pop.isSome = true ∧ j.owner = .task 0 ∧
      s.blockFault j (wpeBlockAddr j (wpeCard blocks) j.rows) = none ∧ (ours s).blockFault j (wpeBlockAddr j (wpeCard blocks) j.rows) = some 0x28) ∧
    (∃ vals side mp, s.newBlock j (wpeCard blocks) j.rows = some (.ok (vals, side, mp))) ∧
    ((building b).findJob j.id = some { j with build := some b } ∧ worn (building b) b = false ∧ b.ok ||| 0x1F = 0x1F ∧ b.ok ||| 0 ≠ 0x1F ∧
      b.it + 1 < 8 ∧ b.tries + 1 < 4 ∧ (building b).blockFault { j with build := some b } (blockAddr 0 0) = none ∧
      (ours (building b)).blockFault { j with build := some b } (blockAddr 0 0) = some 0x28) ∧
    (8 ≤ { b with it := 7 }.it + 1 ∧ { b with tries := 3 }.tries + 1 = 4 ∧ worn (building { b with it := 7, tries := 3 }) { b with it := 7, tries := 3 } = false) ∧
    worn weary b = true ∧
    ((0, 5) ∈ weary.dev.wt.releasing ∧ ∀ r, r < 5 → weary.wearOf 0 5 r < weary.wearLimit (0 / 96)) ∧
    ((0, 5) ∈ old.dev.wt.releasing ∧ ∃ r, r < 5 ∧ old.wearLimit (0 / 96) ≤ old.wearOf 0 5 r) := by
  intro blocks j s b building worn weary old
  refine ⟨by decide +kernel, ?_, by decide +kernel, by decide +kernel, by decide +kernel, by decide +kernel, by decide +kernel, 4, by decide +kernel⟩
  have h : (match s.newBlock j (wpeCard blocks) j.rows with | some (.ok _) => true | _ => false) = true := by decide +kernel
  revert h
  cases s.newBlock j (wpeCard blocks) j.rows with
  | none => exact fun h => by cases h
  | some r =>
    cases r with
    | error _ => exact fun h => by cases h
    | ok v => exact fun _ => ⟨v.1, v.2.1, v.2.2, rfl⟩

/-! ### Witnesses: tasks and launches -/

def aSaved : Saved := { task := placedTask, core := { busy with m := { busy.m with l1 := [] } }, home := 0, clock := Clock.zero, sealed := none, behind := [] }

/-- A task that halts and has drained, with a buddy for its end and without; a killed one; one that a pre-emption asks for, one that
yields with none waiting, while the pair replays and not; one that can be saved, with its record and with a denied one; a saved one with a free core; a superstep
that every task has reached, and none to release. -/
theorem wit_TaskEvents :
    let l : Launch := { aLaunch with live := 1, next := 1, nidx := 1 }
    let on (c : Core) (l : Launch) : State := withLaunch l (at0 c)
    let two : Launch := { l with dies := [0, 1] }
    let halting : Core := { busy with mode := .halting }
    let dying : Core := { busy with mode := .dying }
    let pre : Core := { busy with preempt := true }
    let yields : Core := { busy with yielding := true }
    let saving : Core := { busy with mode := .saving }
    let again (s : State) : State := { s with dev := { s.dev with mc := { s.dev.mc with replaying := [(0, 0)] } } }
    let away : State := let s := withLaunch l State.reset; { s with dev := { s.dev with sched := { s.dev.sched with saved := [aSaved] } } }
    let steps : Core := { busy with sstep := true, superstep := 1 }
    (away.Ok ∧ ∀ k c, c.Ok → (on c k).Ok) ∧
    (halting.mode = .halting ∧ halting.task = some placedTask ∧ (on halting l).findLaunch 0 = some l ∧ halting.bank = none ∧ halting.t.landing = [] ∧
      halting.t.pend = [] ∧ halting.t.eng = [] ∧ halting.t.fills = [] ∧ halting.c.st = 0 ∧ halting.c.cp = 0 ∧ halting.c.tl = 0 ∧ halting.c.wl = 0) ∧
    ((on halting l).hasBuddy l = false ∧ (on halting two).findLaunch 0 = some two ∧ (on halting two).hasBuddy two = true ∧ 0 ∉ two.ending) ∧
    (dying.mode = .dying ∧ dying.task = some placedTask ∧ dying.m.accs = []) ∧
    (pre.task = some placedTask ∧ pre.preemptible = true ∧ pre.preempt = true ∧ (on pre l).replays (dieOf 0) = false ∧
      (again (on pre l)).replays (dieOf 0) = true) ∧
    (yields.preemptible = true ∧ yields.preempt = false ∧ yields.yielding = true ∧ (on yields l).yieldNow 0 = false) ∧
    (busy.preempt = false ∧ busy.yielding = false) ∧
    (saving.task = some placedTask ∧ (on saving l).saveReady 0 = true ∧ (on saving l).ctxEntry 0 = none ∧
      (on saving l).recordOk 0 saving.c.tstate.toNat = true ∧ (ownedBy 5 0 (on saving l)).saveReady 0 = true ∧
      (ownedBy 5 0 (on saving l)).recordOk 0 saving.c.tstate.toNat = false) ∧ quiet.saveReady 0 = false ∧
    (away.dev.sched.saved = [] ++ aSaved :: [] ∧ aSaved.sealed = none ∧ away.findLaunch 0 = some l ∧ away.ctxActive l.ctx = true ∧
      away.accepts (dieOf 0) = true ∧ away.gangAnswers l 0 = true ∧ away.restorable aSaved 0 = true ∧ away.todo l 0 = some [0] ∧ away.coreFree l.ctx 0 = true ∧ l.id = aSaved.task.launch ∧
      Launch.plan [0] [0] l [] = some [(0, 0)] ∧ away.recordOk 0 aSaved.core.c.tstate.toNat = true ∧
      (ownedBy 5 0 away).recordOk 0 aSaved.core.c.tstate.toNat = false ∧ (ownedBy 5 0 away).coreFree l.ctx 0 = true ∧
      (ownedBy 5 0 away).restorable aSaved 0 = true) ∧
    ((on steps l).findLaunch 0 = some l ∧ (on steps l).superstepOf l = some 1 ∧ (on steps l).superstepReady l 1 = true) ∧
    (let far := { l with pkgs := 2 }
     (on steps far).superstepOf far = some 1 ∧ (on steps far).superstepReady far 1 = false) := by
  intro l on two halting dying pre yields saving again away steps
  have back : away.Ok := by
    refine ⟨rfl, rfl, rfl, rfl, (fun e he => nomatch (show e ∈ ([] : List (Nat × Core)) from he)), fun v hv => ?_⟩
    obtain rfl := List.mem_singleton.mp (show v ∈ [aSaved] from hv)
    exact busy_ok
  have ok (k : Launch) (c : Core) (hc : c.Ok) : (on c k).Ok := by
    obtain ⟨g1, g2, g3, g4, g5, g6⟩ := at0_ok hc
    exact ⟨g1, g2, g3, g4, g5, g6⟩
  refine ⟨⟨back, ok⟩, ?_, ?_, ?_, ?_, ?_, ?_, ?_, ?_, ?_, ?_, ?_⟩ <;> decide +kernel

/-- A die that does not schedule; a claimed index with a free core; a gang of two on the last and first cores; a die that accepts; one
that claims, with the first index and with the last, alone and with a buddy, and one whose claim is mirrored; one that gives back at
15,000 cycles and not at 14,999, with the leader here and in another package; a launch with nothing left, and one with an index in
another package. -/
theorem wit_LaunchEvents :
    let claimed : Launch := { aLaunch with next := 1, nidx := 1, claims := [(0, [0])], live := 1 }
    let s := withLaunch claimed State.reset
    let gang : Launch := { aLaunch with levels := [{ decl := true, gang := true, pol := 0, size := 2 }], nidx := 2, next := 2, claims := [(0, [0, 1])] }
    let g := withLaunch gang State.reset
    let wide : Launch := { gang with levels := List.replicate 3 { decl := false, gang := false, pol := 0, size := 0 } ++ gang.levels, dies := [0, 1] }
    let cores (l : Launch) : List Nat := (withLaunch l State.reset).scope.filter ((withLaunch l State.reset).coreFree 0)
    let fresh : Launch := { aLaunch with accepted := [] }
    let pair : Launch := { aLaunch with dies := [0, 1], accepted := [0, 1] }
    let mirrored : Launch := { pair with next := 64, pending := [(0, [0, 1])] }
    let stuck (w : Nat) (l : Launch) : State := { withLaunch { l with blocked := [(0, 0)] } quiet with wheel := w, cores := (List.range 96).map (fun n => (n, busy)) }
    let spent (live : Nat) : Launch := { aLaunch with next := 128, claims := [(0, [])], live := live }
    let foreign (l : Launch) : Launch := { l with pkgFirst := 1 }
    let abroad : State := let s := withLaunch (foreign claimed) State.reset; { s with dev := { s.dev with link := { s.dev.link with fabValid := true, pkg := 2 } } }
    let claims (l : Launch) : Bool :=
      let s := withLaunch l State.reset
      decide (s.launchOf 0 = some l) && l.dies.contains 0 && s.accepts 0 && l.accepted.contains 0 && decide (l.pending = []) && decide (l.returned = []) &&
        decide (l.next < l.nidx) && decide (l.held 0 = []) && s.leads l && ((s.liveDies l).head?).all s.accepts && s.claimsOpen l &&
        s.dieHasCore l 0 [l.next] && decide (0 < l.claimUnit) && decide (l.dead = []) &&
        ((List.range (min l.nidx ((l.next + 64 + l.claimUnit - 1) / l.claimUnit * l.claimUnit) - l.next)).map (· + l.next)).all (l.mayTake 0)
    (State.reset.accepts 0 = false ∧ s.accepts 0 = true ∧ s.candidates 0 = (claimed, [0]) :: [] ∧ s.findLaunch 0 = some claimed ∧
      Launch.plan (cores claimed) [0] claimed [] = some [(0, 0)] ∧ s.dev.sched.saved = [] ∧
      claimed.isDead 0 = false ∧ s.freeBase claimed.logn = some 0 ∧ s.freeRecord (dieOf 0) = some 0 ∧
      (s.seatTask claimed 0 0 0 0).seatReady 0 = true ∧ claimed.args.length = 5) ∧
    (g.launchOf 0 = some gang ∧ gang.gangLevel = some 1 ∧ g.ctxActive gang.ctx = true ∧ (∀ d ∈ gang.dies, g.accepts d = true) ∧
      g.gangAnswers gang (0 * (gang.size 1).getD 1) = true ∧ g.todo gang (0 * (gang.size 1).getD 1) = some [0, 1] ∧
      (Launch.plan (cores gang) [0, 1] gang []).any (fun pl => (g.carryOut 0 pl).isSome) = true) ∧
    ((withLaunch wide State.reset).launchOf 0 = some wide ∧ (withLaunch wide State.reset).gangAnswers wide (0 * (wide.size 4).getD 1) = false) ∧
    (fresh.dies = [0] ∧ (withLaunch fresh State.reset).launchOf 0 = some fresh ∧ 0 ∉ fresh.accepted ∧ 1 ∉ fresh.dies) ∧
    (claims aLaunch = true ∧ claims { aLaunch with next := 127 } = true ∧ s.hasBuddy aLaunch = false) ∧
    (let t := { withLaunch pair State.reset with dev := { (withLaunch pair State.reset).dev with boot := [(0, .ready), (1, .ready)] } }
     t.hasBuddy pair = true ∧ t.accepts 0 = true ∧ t.claimsOpen pair = true ∧ t.leads pair = true ∧ t.dieHasCore pair 0 [0] = true) ∧
    ((withLaunch mirrored State.reset).launchOf 0 = some mirrored ∧ mirrored.pending.find? (·.1 == 0) = some (0, [0, 1]) ∧ mirrored.isDead 0 = false) ∧
    (claimed.held 0 ≠ [] ∧ claimed.pending = []) ∧
    ((stuck 15000 claimed).launchOf 0 = some { claimed with blocked := [(0, 0)] } ∧ (stuck 15000 claimed).leads claimed = true ∧
      (stuck 15000 claimed).dieHasCore { claimed with blocked := [(0, 0)] } 0 [0] = false ∧ 0 + 15000 ≤ (stuck 15000 claimed).wheel ∧
      (stuck 14999 claimed).wheel < 0 + 15000) ∧
    ((withLaunch (spent 0) quiet).launchOf 0 = some (spent 0) ∧ (spent 0).next = (spent 0).nidx ∧ (spent 0).returned = [] ∧
      (∀ e ∈ (spent 0).claims, e.2 = []) ∧ (spent 0).pending = [] ∧ (spent 0).again = [] ∧ (spent 0).live = 0 ∧ (spent 0).away = [] ∧ (spent 0).unacked = [] ∧
      (withLaunch (spent 0) quiet).leads (spent 0) = true) ∧
    ((spent 1).live ≠ 0 ∧ abroad.leads (foreign claimed) = false ∧ (foreign claimed).awayEnded.length + (foreign claimed).granted ≠ (foreign claimed).nidx) ∧
    (({ spent 1 with unacked := [3] } : Launch).unacked ≠ [] ∧
      (withLaunch { spent 1 with unacked := [3] } quiet).launchOf 0 = some { spent 1 with unacked := [3] }) := by
  intro claimed s gang g wide cores fresh pair mirrored stuck spent foreign abroad claims
  refine ⟨?_, ?_, ?_, ?_, ?_, ?_, ?_, ?_, ?_, ?_, ?_, ?_⟩ <;> decide +kernel

/-! ### Witnesses: queues and packets -/

/-- Queue 0 of die 0: its descriptor at 0x10000, its signal word at 0x20000, its ring of 16 packets at 0x40000. -/
def descOf (logsz rd state : Nat) : Nat := 0x40000 + 2 ^ 48 * logsz + 2 ^ 55 + 2 ^ 128 * rd + 2 ^ 168 * state

def queueing (d wr : Nat) (sched : Sched → Sched) : State :=
  let s := (quiet.storeNat (mkey .glob 0 0x10000) 24 d).storeNat (mkey .glob 0 0x20000) 4 wr
  { s with dev := { s.dev with
      boot := [(0, .ready)]
      sched := sched { s.dev.sched with qdbase := [(0, 0x10000)], qsigbase := [(0, 0x20000)], signals := [0] } } }

/-- Sixteen other queues of die 0, each mapped. -/
def sixteen : List HwQueue := (List.range 16).map (fun k => hwQueue (k + 1) (descOf 4 0 1) 0 0 (k + 1))

def aPacket (body : Nat) : Packet :=
  { id := 0, q := 0, idx := 0, die := 0, ctx := 0, prio := 0, body := BitVec.ofNat 512 body, lid := 0, acted := false, outcome := none
    passes := 0, cores := [], launch := none, pkgs := 0 }

/-- No signal; a signal of a queue with one packet, as many as the ring holds, one more, an illegal ring, a reserved bit
set, a context being torn down; with a free slot, without, and with every slot's queue in dispatch; a signal of a mapped queue, up
to its ring and beyond. An idle queue at its time and one cycle before it, one with a packet, a die without the timeout; a queue on
the remap list and a free slot, none; a restart to come, of a queue that has stopped and of another. -/
theorem wit_QueueEvents :
    let k (d wr : Nat) : HwQueue := hwQueue 0 d wr 0 1
    let maps (s : State) (d wr : Nat) : Bool :=
      s.dev.sched.signals.contains 0 && s.queueDie (dieOfQueue 0) && (s.dev.sched.slots ++ s.dev.sched.remap).all (fun k => k.q != 0) &&
        s.descReady 0 && decide (s.remapOf 0 = []) && decide (s.desc 0 = d) && descEn d && decide (descState d ≠ 2) && decide (s.complexNat 0 (s.sigAddr 0) 4 = wr) && !s.dev.sched.restarts.contains 0
    let on (d wr : Nat) : State := queueing d wr id
    let full : State := queueing (descOf 4 0 0) 1 (fun x => { x with slots := sixteen })
    let idle (w : Nat) (q : Sched → Sched) : State := { queueing (descOf 4 0 1) 0 (fun x => q { x with slots := [k (descOf 4 0 1) 0] }) with wheel := w }
    let remapped : State := queueing (descOf 4 0 0) 0 (fun x => { x with remap := [k (descOf 4 0 0) 1] })
    let odd (x : Nat) : Nat := descOf 4 0 0 + 2 ^ (170 + x)
    let on0 : State := on (descOf 4 0 0) 1
    let torn : State := { on0 with dev := { on0.dev with prot := { on0.dev.prot with
      ctxs := [(1, { state := .tearing, ctx := 0, skey := 8, savectr := 0, area := none, held := [], arenas := [] })] } } }
    let at16 : State := queueing (descOf 4 0 0) 1 (fun x => { x with
      slots := sixteen, packets := sixteen.map (fun k => { aPacket 4 with id := k.q, q := k.q }), nextPacket := 17 })
    let mapped : State := queueing (descOf 4 0 1) 16 (fun x => { x with slots := [k (descOf 4 0 1) 0] })
    let elsewhere : State := { on0 with dev := { on0.dev with sched := { on0.dev.sched with qdbase := [(0, 2 ^ 36)] } } }
    let behind (s : State) : State := { s with dev := { s.dev with ms := { s.dev.ms with clocks := [Clock.bump Clock.zero 0] } } }
    let again (d : Nat) : State := queueing d 1 (fun x => { x with restarts := [0] })
    quiet.dev.sched.signals = [] ∧ ((behind elsewhere).queueDie 0 = true ∧ (behind elsewhere).descReady 0 = false) ∧ maps (on (descOf 4 0 0) 1) (descOf 4 0 0) 1 = true ∧ (k (descOf 4 0 0) 1).legal = true ∧ descReserved (descOf 4 0 0) = true ∧
    ((on (descOf 4 0 0) 16).remapOf 0 = [] ∧ maps (on (descOf 4 0 0) 16) (descOf 4 0 0) 16 = true ∧
      (16 + 2 ^ 32 - (k (descOf 4 0 0) 16).rd) % 2 ^ 32 ≤ 2 ^ (k (descOf 4 0 0) 16).logsz) ∧
    2 ^ (k (descOf 4 0 0) 17).logsz < (17 + 2 ^ 32 - (k (descOf 4 0 0) 17).rd) % 2 ^ 32 ∧ maps (on (descOf 3 0 0) 1) (descOf 3 0 0) 1 = true ∧
    (k (descOf 3 0 0) 1).legal = false ∧ (maps (on (odd 0) 1) (odd 0) 1 = true ∧ descReserved (odd 0) = false) ∧
    (maps torn (descOf 4 0 0) 1 = true ∧ torn.tearing (k (descOf 4 0 0) 1).ctx = true) ∧ on0.tearing (k (descOf 4 0 0) 1).ctx = false ∧ ((on (descOf 4 0 0) 1).slotsOf 0).length < 16 ∧
    (maps full (descOf 4 0 0) 1 = true ∧ ¬(full.slotsOf 0).length < 16 ∧ full.remapOf 0 = [] ∧ ∃ v ∈ full.slotsOf 0, full.inDispatch v.q = false) ∧
    (maps at16 (descOf 4 0 0) 1 = true ∧ ¬(at16.slotsOf 0).length < 16 ∧ at16.remapOf 0 = [] ∧ ∀ v ∈ at16.slotsOf 0, at16.inDispatch v.q = true) ∧
    (mapped.dev.sched.slots = [] ++ k (descOf 4 0 1) 0 :: [] ∧ 0 ∈ mapped.dev.sched.signals ∧ mapped.queueDie 0 = true ∧ descEn (mapped.desc 0) = true ∧
      ({ k (descOf 4 0 1) 0 with wr := 16 } : HwQueue).overrun = false ∧ ({ k (descOf 4 0 1) 0 with wr := 17 } : HwQueue).overrun = true) ∧
    ((idle 30000 id).dev.sched.slots = [] ++ k (descOf 4 0 1) 0 :: [] ∧ (k (descOf 4 0 1) 0).rd = (k (descOf 4 0 1) 0).wr ∧
      0 + (3 * 20000 + 1) / 2 ≤ (idle 30000 id).wheel ∧ (idle 29999 id).wheel < 0 + (3 * 20000 + 1) / 2) ∧
    (k (descOf 4 0 1) 1).rd ≠ (k (descOf 4 0 1) 1).wr ∧
    lookupD 20000 (idle 0 (fun x => { x with qidle := [(0, 0)] })).dev.sched.qidle (dieOfQueue 0) = 0 ∧
    (remapped.queueDie 0 = true ∧ (remapped.slotsOf 0).length < 16 ∧ remapped.remapOf 0 = k (descOf 4 0 0) 1 :: [] ∧
      remapped.descReady 0 = true ∧ descEn (remapped.desc 0) = true ∧ descState (remapped.desc 0) ≠ 2 ∧ descReserved (remapped.desc 0) = true ∧
      (hwQueue 0 (remapped.desc 0) 1 0 1).legal = true) ∧
    (quiet.queueDie 0 = false ∧ 16 ≤ (full.slotsOf 0).length) ∧ quiet.dev.sched.restarts = [] ∧
    (on0.descAddr 0 + 64 ≤ 2 ^ 39 ∧ on0.dev.lost = [] ∧ homeDie (on0.descAddr 0 + 22) = dieOfQueue 0 ∧ on0.complexOk 0 (on0.descAddr 0 + 22) = true) ∧
    (0 ∈ (again (descOf 4 0 2)).dev.sched.restarts ∧ (again (descOf 4 0 2)).descReady 0 = true ∧ descState ((again (descOf 4 0 2)).desc 0) = 2 ∧
      descState ((again (descOf 4 0 0)).desc 0) ≠ 2 ∧ 0 ∈ (again (descOf 4 0 2)).dev.sched.signals ∧ (again (descOf 4 0 2)).queueDie 0 = true ∧
      (again (descOf 4 0 2)).remapOf 0 = []) := by
  intro k maps on full idle remapped odd on0 torn at16 mapped elsewhere behind again
  and_intros <;> decide +kernel

/-- Packet 0 of queue 0 has been dispatched. -/
def dispatched (p : Packet) (q : HwQueue) : State := queueing (descOf 4 1 1) 1 (fun x => { x with slots := [q], packets := [p], nextPacket := 1 })

theorem dispatched_ok (p : Packet) (q : HwQueue) : (dispatched p q).Ok := by
  refine ⟨(by decide +kernel : Memory.wf (dispatched (aPacket 0) (hwQueue 0 0 0 0 0)).mem = true), rfl, rfl, rfl, ?_, ?_⟩
  · have h : (dispatched (aPacket 0) (hwQueue 0 0 0 0 0)).cores = [(0, busy)] := by decide +kernel
    intro e he
    obtain rfl := List.mem_singleton.mp (h ▸ he)
    exact busy_ok
  · exact fun v hv => nomatch (show v ∈ ([] : List Saved) from hv)

/-- A die with nothing to serve; a legal packet and one that is not; a LAUNCH that is accepted and one that is refused; a COPY packet that
becomes a job and one with an illegal card; a BARRIER packet without words and one that waits; a FENCE packet whose clock covers, one
that waits; NODE packets of the three types, the loop ended, at its last pass and before it; a packet with an outcome and one
without. -/
theorem wit_PacketEvents :
    let q (rd : Nat) : HwQueue := hwQueue 0 (descOf 4 rd 1) 1 0 1
    let waits (body : Nat) : State :=
      let s := queueing (descOf 4 0 1) 1 (fun x => { x with slots := [q 0] })
      s.storeNat (mkey .glob 0 0x40000) 64 body
    let has (p : Packet) (t : Nat) : Bool := decide ((dispatched p (q 1)).pending 0 t = some p)
    let launch : Nat := 1 + 2 ^ 128 * 0x3000
    let ld (n : Nat) : State := (dispatched (aPacket launch) (q 1)).storeNat (mkey .glob 0 0x3000) 256 n
    let good : Nat := 2 ^ (8 * 32) + 2 ^ (8 * 44) + 2 ^ (8 * 94)
    let dies (s : State) (d : BitVec 2048) : List Nat := (List.range 8).filter (fun k => (ldNat d 44 1).testBit k && !s.dev.lost.contains k)
    let copy : Nat := 2 + 2 ^ 128 * 0x3000 + 2 ^ 192 * 0x3800
    let carded (card : BitVec 512) : State :=
      let s := ((dispatched (aPacket copy) (q 1)).storeNat (mkey .glob 0 0x3000) 64 card.toNat).storeNat (mkey .glob 0 0x3820) 32 globCap.toNat
      { s with tags := [granule (mkey .glob 0 0x3820)] }
    let waiting : Nat := 3 + 2 ^ 128 * 0x3000 + 2 ^ 192
    let fence (scope : Nat) : Packet := aPacket (6 + 2 ^ 128 * scope)
    let behind (p : Packet) : State := let s := dispatched p (q 1)
      { s with dev := { s.dev with ms := { s.dev.ms with taskClock := [0, 1, 0, 0, 0, 0, 0, 0] } } }
    let node (type : Nat) : Packet := aPacket (4 + 2 ^ 128 * 0x3000 + 2 ^ 192 * 2 + 2 ^ 224 * type + 2 ^ 232 * 2)
    let at_ (p : Packet) (v : Nat) : State := (dispatched p (q 1)).storeNat (mkey .glob 0 0x3000) 8 v
    let isNode (p : Packet) (v : Nat) : Bool :=
      decide ((at_ p v).findPacket 0 = some p) && decide (p.type = tNode) && !p.acted && decide (p.outcome = none) &&
        (at_ p v).packetReads p [pktNat p.body 16 8] && (at_ p v).descReady p.q && decide ((at_ p v).dev.sched.slots.filter (·.q == p.q) = [q 1]) &&
        decide ((at_ p v).complexNat 0 (pktNat p.body 16 8) 8 = v)
    let ended : Packet := { aPacket 3 with acted := true, outcome := some 0 }
    let tells : Packet := { aPacket (3 + 2 ^ 9 + 2 ^ 64 * 0x5000) with acted := true, outcome := some 0 }
    let far : Packet := { aPacket (3 + 2 ^ 9 + 2 ^ 64 * (7 * 2 ^ 36)) with acted := true, outcome := some 0 }
    let logged (s : State) : State := { s with dev := { s.dev with sched := { s.dev.sched with jctl := 1 + 2 ^ 16 * 9 } } }
    let looping : Packet := { aPacket (4 + 2 ^ 128 * 0x3000 + 2 ^ 192 * 2 + 2 ^ 224 * 2 + 2 ^ 256 * 2) with acted := true }
    let pass : State := (dispatched looping (q 2)).storeNat (mkey .glob 0 0x3000) 8 1
    quiet.toServe 0 = none ∧
    ((waits 3).toServe 0 = some (q 0) ∧ (waits 3).dev.sched.slots.filter (·.q == 0) = [q 0] ∧
      packetLegal (BitVec.ofNat 512 ((waits 3).complexNat 0 ((q 0).packetAddr (q 0).rd) 64)) = true) ∧
    ((waits 7).toServe 0 = some (q 0) ∧ packetLegal (BitVec.ofNat 512 ((waits 7).complexNat 0 ((q 0).packetAddr (q 0).rd) 64)) = false) ∧
    (has (aPacket launch) tLaunch = true ∧ (ld 0).launchReads (aPacket launch) = true ∧
      (ld 0).launchRefusal 0 (BitVec.ofNat 2048 ((ld 0).complexNat 0 0x3000 256)) [] = some 0xE2) ∧
    ((ld good).pending 0 tLaunch = some (aPacket launch) ∧ (ld good).launchReads (aPacket launch) = true ∧ (ld good).launchRefusal 0 (BitVec.ofNat 2048 ((ld good).complexNat 0 0x3000 256))
      (dies (ld good) (BitVec.ofNat 2048 ((ld good).complexNat 0 0x3000 256))) = none) ∧
    ((carded fillCard).pending 0 tCopy = some (aPacket copy) ∧ (carded fillCard).packetReads (aPacket copy) (0x3000 :: tableAddrs 0x3800) = true ∧
      ((carded fillCard).ownerNext (ownerPage 0x3000)).admits 0 = true ∧ (carded fillCard).dev.lost.contains (homeDie 0x3000) = false ∧
      ((carded fillCard).checkCopyCard none 0 (BitVec.ofNat 512 ((carded fillCard).complexNat 0 0x3000 64)) ((carded fillCard).nextFree.tableHandles 0 0x3800) 0).isOk = true) ∧
    ((carded 0).pending 0 tCopy = some (aPacket copy) ∧
      ((carded 0).checkCopyCard none 0 (BitVec.ofNat 512 ((carded 0).complexNat 0 0x3000 64)) ((carded 0).nextFree.tableHandles 0 0x3800) 0).isOk = false) ∧
    (has (aPacket 3) tBarrier = true ∧ barConds (aPacket 3).body = []) ∧
    ((ownedBy 5 (ownerPage 0x3000) (dispatched (aPacket waiting) (q 1))).pending 0 tBarrier = some (aPacket waiting) ∧
      (ownedBy 5 (ownerPage 0x3000) (dispatched (aPacket waiting) (q 1))).packetReads (aPacket waiting) [0x3000] = true ∧
      (ownedBy 5 (ownerPage 0x3000) (dispatched (aPacket waiting) (q 1))).complexOk 0 0x3000 = false ∧ barConds (aPacket waiting).body = [(0x3000, 1)]) ∧
    (has (aPacket waiting) tBarrier = true ∧ (dispatched (aPacket waiting) (q 1)).packetReads (aPacket waiting) [0x3000] = true ∧
      (barConds (aPacket waiting).body).all (fun c => decide (c.2 ≤ quiet.complexNat 0 c.1 8)) = false) ∧
    (∀ k ∈ [0, 2, 3, 4], has (fence k) tFence = true ∧ (dispatched (fence k) (q 1)).taskCovered 0 = true ∧
      (behind (fence k)).pending 0 tFence = some (fence k) ∧ (behind (fence k)).taskCovered 0 = false ∧
      (scopeRank (scopeOfNat (pktNat (fence k).body 16 1)) < 3 ↔ k < 3)) ∧
    (isNode (node 1) 0 = true ∧ isNode (node 1) 1 = true ∧ pktNat (node 1).body 28 1 = 1 ∧ isNode (node 2) 0 = true ∧ pktNat (node 2).body 28 1 = 2 ∧
      isNode { node 2 with passes := 2 } 1 = true ∧ { node 2 with passes := 2 }.passes = pktNat (node 2).body 24 4 ∧ isNode (node 2) 1 = true ∧
      (node 2).passes ≠ pktNat (node 2).body 24 4 ∧ isNode (node 3) 5 = true ∧ pktNat (node 3).body 28 1 = 3) ∧
    (pass.findPacket 0 = some looping ∧ pass.passDone looping = true ∧ pass.packetReads looping [0x3000] = true ∧ pass.descReady 0 = true ∧
      pass.dev.sched.slots.filter (·.q == looping.q) = [q 2] ∧ looping.passes ≠ pktNat looping.body 24 4) ∧
    (∀ p ∈ [ended, tells], (dispatched p (q 1)).findPacket 0 = some p ∧ p.outcome = some 0 ∧ (dispatched p (q 1)).packetKnown p = true ∧
      (dispatched p (q 1)).dyingTasks p = false ∧ (dispatched p (q 1)).journals = false ∧
      (logged (dispatched p (q 1))).journals = true ∧ (logged (dispatched p (q 1))).packetKnown p = true ∧ (behind p).findPacket 0 = some p ∧ (behind p).packetKnown p = false) ∧
    ((logged (waits 3)).toServe 0 = some (q 0) ∧ (logged (waits 3)).journals = true ∧ (waits 3).journals = false) ∧
    (far.sig = true ∧ homeDie far.sigOff = 7 ∧ far.die = 0 ∧ (dispatched far (q 1)).findPacket 0 = some far ∧ (dispatched far (q 1)).packetKnown far = true ∧
      (dispatched far (q 1)).dyingTasks far = false ∧ (dispatched far (q 1)).dev.lost = []) ∧
    (homeDie tells.sigOff = tells.die ∧ ended.sig = false ∧ tells.sig = true ∧ (dispatched tells (q 1)).complexOk tells.actor tells.sigOff = true ∧
      (dispatched tells (q 1)).dev.prot.owed = [] ∧ (dispatched tells (q 1)).dev.lost.contains (homeDie tells.sigOff) = false ∧
      (dispatched tells (q 1)).spoiled (mkey .glob 0 tells.sigOff) 8 = false ∧
      ∀ i, i < 8 → (dispatched tells (q 1)).descIgnores (tells.sigOff + i) = false) ∧
    ((∀ p, (dispatched p (q 1)).Ok) ∧ (dispatched (aPacket 3) (q 1)).findPacket 0 = some (aPacket 3)) := by
  intro q waits has launch ld good dies copy carded waiting fence behind node at_ isNode ended tells far logged looping pass
  refine ⟨?_, ?_, ?_, ?_, ?_, ?_, ?_, ?_, ?_, ?_, ?_, ?_, ?_, ?_, ?_, ?_, ?_, ?_⟩
  on_goal 18 => exact ⟨fun _ => dispatched_ok _ _, by decide +kernel⟩
  all_goals decide +kernel

/-! ### Witnesses: the weight tier's registers, ways, links and power -/

def onBoot (b : List (Nat × Boot)) (s : State) : State := { s with dev := { s.dev with boot := b } }
def withWay (w : Wayp) (s : State) : State := { s with dev := { s.dev with ms := { s.dev.ms with wayp := [(0, w)] } } }
def withRegion (v : BitVec 128) (s : State) : State := { s with dev := { s.dev with wt := { s.dev.wt with regions := [(0, v)] } } }
def withLinks (l : Links) (s : State) : State := { s with dev := { s.dev with link := l } }

/-- The first and last cluster; a cluster that takes a way, one that gives one back, one that does neither. A free region written, a
legal one opened and measured; one being measured, with and without a job; a die at its measurement. Power at the
limit and beyond. -/
theorem wit_WeightAndWayEvents :
    let way (busy : Bool) (cur req : Nat) : State := withWay { busy := busy, cur := cur, req := req, err := false } quiet
    let region : BitVec 128 := BitVec.ofNat 128 (2 ^ 77 * 100)
    let measured : BitVec 128 := region ||| 3
    let blocks : BitVec 512 := BitVec.ofNat 512 (2 + 2 ^ 28 * 2 + 2 ^ 32 * 3 + 2 ^ 44 * 1)
    let aWpe : Job := { aJob (.wpe blocks) with sh := busy.rh 2, dh := busy.rh 3, started := true }
    quiet.Ok ∧ (0 : Nat) < 96 ∧ (95 : Nat) < 96 ∧
    (((way true 0 1).wayp 0).busy = true ∧ ((way true 0 1).wayp 0).cur < ((way true 0 1).wayp 0).req ∧
      ((way true 15 16).wayp 0).cur < ((way true 15 16).wayp 0).req) ∧
    (((way true 1 0).wayp 0).busy = true ∧ ((way true 1 0).wayp 0).req < ((way true 1 0).wayp 0).cur ∧ (way true 1 0).wayInUse 0 0 = false) ∧
    ((way false 0 0).wayp 0).busy = false ∧
    ((7 : Nat) < 8 ∧ (63 : Nat) < 64 ∧ (quiet.region 7 63).toNat % 4 = 0 ∧ (quiet.region 0 0).toNat % 4 ≠ 3 ∧
      (1 : DWord).toNat % 4 = 1 ∧ (2 : DWord).toNat % 4 = 2 ∧ (0 : DWord).toNat % 4 = 0 ∧
      (withRegion region quiet).regionLegal 0 0 region = true) ∧
    ((quiet.regionLegal 0 0 (fld (withRegion region quiet |>.region 0 0) 64 64 ++ fld (1 : DWord) 56 8 ++ 0#56)) = true) ∧
    (((withRegion measured quiet).region 0 0).toNat % 4 = 3 ∧ (∀ j ∈ (withRegion measured quiet).dev.jobs, jobInRegion j 0 measured = false)) ∧
    jobInRegion aWpe 0 measured = true ∧
    (quiet.bootOf 0 = .rehash ∧ quiet.dev.lost.contains 0 = false) ∧ quiet.dieUp 0 = true ∧ quiet.serves = true ∧ 20000 < 20001 ∧
    20000 ≤ 20000 := by
  refine ⟨quiet_ok, by decide +kernel⟩

/-- The first and last die; a machine-check bank; a reserved offset; malformed offsets; the host link up; a byte of a save record; a GLOB access of one byte and of
eight, at both ends of GLOB's first home. -/
theorem wit_RegisterEvents :
    let host : State := withLinks { quiet.dev.link with hostUp := true } quiet
    let may (off size : Nat) : Bool := (List.range size).all (fun i =>
      host.hostMay (off + i) && !host.ownerOwed (mkey .glob 0 (off + i)) && decide (homeDie (off + i) = 0) && !host.descIgnores (off + i))
    quiet.dieUp 0 = true ∧ quiet.dieUp 7 = true ∧ (31 : Nat) < 32 ∧ ((8 : Nat) % 8 = 0 ∧ ctrlAt 8 = .reserved) ∧ (4 : Nat) % 8 ≠ 0 ∧
    (2 ^ 20 : Nat) ≤ 2 ^ 20 ∧ (host.serves = true ∧ host.dev.link.hostUp = true) ∧ (0xFFFF8 : Nat) < 2 ^ 20 ∧ (0xFFFF8 : Nat) % 8 = 0 ∧
    (let kept : State := { host with dev := { host.dev with sched := { host.dev.sched with savepool := [(0, 2 ^ 21 + 2 ^ 52)] } } }
     kept.serves = true ∧ kept.dieUp 0 = true ∧ kept.inRecord (2 ^ 21) = true ∧ kept.ownerOwed (mkey .glob 0 (2 ^ 21)) = false ∧ homeDie (2 ^ 21) = 0) ∧
    may 0 1 = true ∧ may (2 ^ 36 - 8) 8 = true ∧ (2 ^ 36 - 8) + 8 ≤ 2 ^ 39 := by decide +kernel

/-- No package id yet, and one; an enabled port whose peer's stream is keyed, one that is not enabled, one that has trained and is
keyed, one that has stopped and is keyed again; a known peer and a new one; the host link; recovery. -/
theorem wit_LinkEvents :
    let p0 : Port := { trained := false, keyed := false, stale := false, comp := false, stop := false, peer := 3, en := true }
    let port (valid : Bool) (p : Port) : State :=
      let s := withLinks { quiet.dev.link with fabValid := valid, ports := [(0, p)] } quiet
      { s with dev := { s.dev with keys := [(8, { kind := .fabric, link := false, owner := 0, key := 0, peer := 3, live := true })] } }
    let recovers : State := onBoot [(0, .recovery)] quiet
    let up : Port := { p0 with trained := true, keyed := true }
    let stopped : State := port true { p0 with trained := true, stale := true, stop := true }
    let suspends : State := { quiet with dev := { quiet.dev with prot := { quiet.dev.prot with
      ctxs := [(1, { state := .active, ctx := 0, skey := 8, savectr := 0, area := none, held := [], arenas := [] })] } } }
    let known (s : State) : Option (Nat × KeySlot) := s.dev.keys.find? (fun e => e.2.kind == .fabric && e.2.peer == 3)
    (quiet.dieUp 0 = true ∧ quiet.dev.link.fabValid = false ∧ (port true p0).dev.link.fabValid = true ∧ quiet.dieUp 7 = true) ∧
    (((port true p0).port 0 0).en = true ∧ ((port true p0).port 0 0).trained = false ∧ (port true p0).fabricKeyed 3 = true ∧
      (port true p0).fabricKeyed 4 = false) ∧
    (((port true up).port 0 0).trained = true ∧ ((port true up).port 0 0).keyed = true) ∧ ((port true p0).port 0 0).keyed = false ∧
    (stopped.serves = true ∧ (stopped.port 0 0).keyed = false ∧ (stopped.port 0 0).trained = true ∧ stopped.freeKeySlot = some 9) ∧
    ((known (port true p0)).isSome = true ∧ known quiet = none ∧ quiet.freeKeySlot = some 8) ∧
    (quiet.bootOf 0 ≠ .off ∧ quiet.dev.lost.contains 0 = false ∧ rising suspends.dev.prot.ctxs = true ∧ suspends.bootOf 0 ≠ .off ∧
      (∃ e ∈ suspends.dev.prot.ctxs, e.2.state = .active ∧ (suspends.core 0).task.any (·.ctx == e.2.ctx))) ∧ recovers.bootOf 0 = .recovery ∧ quiet.bootOf 0 ≠ .recovery ∧
    (Config.imageSigned ⟨0, []⟩ = true ∨ Config.imageSigned ⟨0, []⟩ = false) := by
  refine ⟨?_, ?_, ?_, ?_, ?_, ?_, ?_, ?_, ?_, ?_⟩
  on_goal 10 => cases Config.imageSigned ⟨0, []⟩ <;> simp
  all_goals decide +kernel

/-! ### Witnesses: machine checks, recovery and resets -/

/-- Errors of each severity at the first and last bank, empty and full, of a unit that a bank has and of one that it has not; a live task
whose result is written and one with none; a second failure within a second; a core to fence, one
out of service; a second mismatch within a second and one after it; a replaying complex. -/
theorem wit_MachineCheckEvents :
    let e (sev : BitVec 2) : McErr :=
      { sev := sev, cause := 0xA3, unit := 0, loc := 0, akind := 0, addr := 0, misc := none, synd := none, pmark := false }
    let held (sev : Nat) : State := { quiet with dev := { quiet.dev with mc := { quiet.dev.mc with
      banks := [(0, { status := BitVec.ofNat 64 (2 ^ 63 + 2 ^ 60 * sev), addr := 0, misc := 0, synd := 0, ctl := 0, thresh := 0, acted := false })] } } }
    let due : Core := { busy with t := { busy.t with pend := [pending .va false (.v 40 0 1)] } }
    let failed : Core := { due with last5 := some 0 }
    let fence (out : Bool) : State := { at0 { busy with out := out } with dev := { quiet.dev with mc := { quiet.dev.mc with fences := [0] } } }
    let again (w : Nat) : State := { quiet with wheel := w, dev := { quiet.dev with mc := { quiet.dev.mc with mismatch := [(0, 0)], replaying := [(0, 5)] } } }
    ((7 : Nat) < 8 ∧ (31 : Nat) < 32 ∧ (e 3).sev ≠ 0 ∧ (e 3).sev ≠ 1 ∧ (quiet.bank 7 31).status.getLsbD 63 = false ∧ (e 3).unit.toNat < 48 ∧
      quiet.dev.lost.contains 7 = false ∧ (e 3).akind.toNat < 8 ∧ 8 ≤ ({ e 3 with akind := 8 } : McErr).akind.toNat ∧ (e 1).sev = 1 ∧
      (quiet.bank 7 31).ctl.getLsbD 2 = true) ∧ ({ quiet with dev := { quiet.dev with lost := [3] } } : State).dev.lost.contains 3 = true ∧
    48 ≤ ({ e 3 with unit := 48 } : McErr).unit.toNat ∧
    ((held 1).bank 0 0).status.getLsbD 63 = true ∧ ((held 1).bank 0 0).status.toNat / 2 ^ 60 % 4 = 1 ∧
    ((held 2).bank 0 0).status.toNat / 2 ^ 60 % 4 ≠ 1 ∧ ((held 2).bank 0 0).status.getLsbD 63 = true ∧
    ((0 : Nat) < 768 ∧ due.alive = true ∧ due.writesNow .va = true ∧ (quiet.core 0).writesNow .va = false) ∧ ((State.reset.core 767).alive = false ∧ (767 : Nat) < 768) ∧
    (failed.alive = true ∧ failed.writesNow .va = true ∧ failed.last5 = some 0 ∧ (0 : Nat) < 0 + 1500000000) ∧
    (0 ∈ (fence false).dev.mc.fences ∧ ((fence false).core 0).out = false) ∧ ((fence true).core 0).out = true ∧ 0 ∉ quiet.dev.mc.fences ∧
    (quiet.dev.lost.contains 0 = false ∧ quiet.dev.mc.mismatch = []) ∧
    ((∃ e ∈ (again 1499999999).dev.mc.mismatch, e.1 = 0 ∧ (again 1499999999).wheel < e.2 + 1500000000) ∧
      ¬∃ e ∈ (again 1500000000).dev.mc.mismatch, e.1 = 0 ∧ (again 1500000000).wheel < e.2 + 1500000000) ∧
    quiet.dev.mc.replaying = [] ∧ ((∃ e ∈ (again 0).dev.mc.replaying, e.1 = 0) ∧ (again 0).dev.lost.contains 0 = false ∧
      ((again 0).bank 0 28).status.getLsbD 63 = false ∧ ((again 0).bank 0 28).ctl.getLsbD 2 = true) := by decide +kernel

/-- A SELFTEST packet on a die that accepts nothing, and one above a running task; a core under test, of a packet and of none; a live die and a lost one; another package's loss; power on
and off. -/
theorem wit_RecoveryEvents :
    let p : Packet := aPacket (5 + 2 ^ 128 * 1)
    let testing : State := { at0 { Core.idle with testReq := true } with dev := { State.reset.dev with
      boot := [(0, .recovery)], sched := { State.reset.dev.sched with packets := [{ p with acted := true, cores := [0] }] } } }
    let asked : State := { quiet with dev := { quiet.dev with boot := [(0, .recovery)], sched := { quiet.dev.sched with packets := [p] } } }
    let urgent : Packet := { p with prio := 1 }
    let displaces : State := { quiet with dev := { quiet.dev with boot := [(0, .ready)], sched := { quiet.dev.sched with packets := [urgent] } } }
    let orphan : State := at0 { Core.idle with testReq := true }
    let lost : State := { quiet with dev := { quiet.dev with lost := [3] } }
    let shared : Launch := { aLaunch with pkgs := 2, away := [(1, 64)] }
    quiet.Ok ∧ (asked.findPacket 0 = some p ∧ p.type = tSelftest ∧ p.acted = false ∧ p.outcome = none ∧ asked.accepts p.die = false) ∧
    (displaces.findPacket 0 = some urgent ∧ displaces.accepts urgent.die = true ∧ displaces.dev.prot.ctxs = [] ∧ 0 / 96 = urgent.die ∧
      (pktNat urgent.body 16 12).testBit (0 % 96) = true ∧ (displaces.owner (ownerCore 0)).owner = 0 ∧
      (displaces.core 0).task = some placedTask ∧ placedTask.prio < urgent.prio ∧ (displaces.core 0).mode = .running ∧ displaces.choosable 0 = true) ∧
    ((orphan.core 0).underTest = true ∧ orphan.dev.sched.packets.find? (fun p => p.type == tSelftest && p.cores.contains 0) = none) ∧
    ((testing.core 0).underTest = true ∧
      testing.dev.sched.packets.find? (fun p => p.type == tSelftest && p.cores.contains 0) = some { p with acted := true, cores := [0] }) ∧
    (quiet.core 0).underTest = false ∧ ((7 : Nat) < 8 ∧ quiet.dev.lost.contains 7 = false) ∧ lost.dev.lost.contains 3 = true ∧
    ((∃ e ∈ shared.away, e.1 = 1) ∧ ∀ l ∈ quiet.dev.sched.launches, ∀ e ∈ l.away, e.1 ≠ 1) ∧ quiet.journals = false ∧
    quiet.bootOf 0 ≠ .off ∧ (onBoot [(0, .off)] quiet).bootOf 0 = .off := by
  refine ⟨quiet_ok, by decide +kernel⟩

/-! ### Witnesses: protected contexts, and the whole machine -/

/-- The responder in its session, with the host link up. -/
def inSession (ctxs : List (Nat × Ctx)) (keys : List (Nat × KeySlot)) : State :=
  { quiet with dev := { quiet.dev with
      keys := keys
      link := { quiet.dev.link with hostUp := true }
      prot := { quiet.dev.prot with
        ctxs := ctxs, spdm := { version := true, negotiated := true, handshake := true, session := true, number := 1, keyNo := 0, via := .doe } } } }

/-- Each carrier, before any request and after each, DOE without the host link, and without a running image; the measurement indices
at the ends of their ranges; an IDE slot keyed again, as another kind of stream, a slot of another kind, a free slot and a fixed one,
a second link stream. -/
theorem wit_SpdmEvents :
    let off : State := onBoot [(0, .off)] quiet
    let ide : KeySlot := { kind := .ide, link := false, owner := 5, key := 0, peer := 0, live := false }
    let s := inSession [] [(8, ide), (9, { ide with kind := .save }), (10, { ide with link := true })]
    let used (link : Bool) : Nat := s.dev.keys.countP (fun e => e.2.kind == .ide && e.2.link == link)
    let by' (v : Carrier) (s : State) : State := s.setSpdm { s.dev.prot.spdm with via := v }
    ((by' (.bus .smbus) off).hears = false ∧ (by' (.bus .smbus) quiet).hears = true ∧ quiet.hears = false ∧ s.hears = true) ∧
    (quiet.dev.prot.spdm.version = false ∧ quiet.dev.prot.spdm.session = false ∧ quiet.dev.link.hostUp = false) ∧
    (s.dev.prot.spdm.version = true ∧ s.dev.prot.spdm.negotiated = true ∧ s.dev.prot.spdm.handshake = true) ∧
    ((4 : Nat) ≤ 15 ∧ (0x18 : Nat) ≤ 0x18 ∧ (0x18 : Nat) ≠ 0xFF) ∧
    (s.dev.prot.spdm.session = true ∧ s.dev.link.hostUp = true ∧ s.keySlot 8 = some ide ∧ ide.kind = .ide ∧ ide.link = false) ∧
    ((s.keySlot 9).any (fun e => e.kind != .ide) = true ∧ (s.keySlot 10).any (fun e => e.link != false) = true) ∧
    (s.keySlot 11 = none ∧ 8 ≤ 11 % 512 ∧ 11 < 4096 ∧ used false < 8 ∧ ¬used true < 1) ∧
    (s.keySlot 4095 = none ∧ 8 ≤ 4095 % 512) ∧ (s.keySlot 7 = none ∧ 7 % 512 < 8) := by decide +kernel

/-- The first index and the second; a context that does not exist; an active one with a free page and one taken, a save area, a suspended
one with its streams keyed, one being torn down; owner entries with and without an access on its way; the Louver at a
page, a cluster, a core and a key slot. -/
theorem wit_ContextEvents :
    let x : Ctx := { state := .active, ctx := 5, skey := 8, savectr := 0, area := none, held := [], arenas := [] }
    let s := inSession [(1, x)] []
    let t := inSession [(1, { x with state := .tearing })] []
    let u := inSession [(1, { x with state := .suspended })] []
    let sends (m : List Msg) : State := (fun s : State => { s with dev := { s.dev with prot := { s.dev.prot with ctxs := [(1, x)] } } }) { owing (ownerPage 0) quiet with dev := { (owing (ownerPage 0) quiet).dev with ms := { quiet.dev.ms with msgs := m } } }
    let write : MsgBody := .write 0 none none 0 [(mkey .glob 0 0, 7)] [] [] none
    let louver (phase : Nat) (s : State) : State := { s with dev := { s.dev with
      prot := { s.dev.prot with lvprog := [(0, { phase := BitVec.ofNat 2 phase, pidx := 1, ctx := 5, total := 2, done := 0 })] } } }
    let clears (k phase : Nat) : State := louver phase { quiet with dev := { quiet.dev with owners := [(k, { owner := 5, scrub := true })] } }
    let wipes : State := louver 1 (inSession [] [(8, { kind := .save, link := false, owner := 5, key := 0, peer := 0, live := true })])
    let next (s : State) : Option Nat := (s.louverList 0 (s.lv 0).ctx (s.lv 0).phase)[(s.lv 0).done]?
    (s.hears = true ∧ (s.setSpdm { s.dev.prot.spdm with via := .bus .smbus }).hears = true ∧ s.dev.prot.spdm.session = true) ∧
    ((0 : Nat) < 255 ∧ (inSession [] []).dev.prot.ctxs = [] ∧ (inSession [] []).freeKeySlot = some 8) ∧
    ((∀ e ∈ s.dev.prot.ctxs, e.1 ≠ 1 + 1) ∧ (∃ e ∈ s.dev.prot.ctxs, e.1 = 0 + 1)) ∧ s.ctxEntry 6 = none ∧
    (s.ctxEntry 5 = some (1, x) ∧ x.state ≠ .tearing ∧ x.state ≠ .suspended ∧ [Resource.page 0, .core 1, .cluster 95].all s.assignable = true ∧
      [Resource.page (2 ^ 18)].all s.assignable = false ∧ areaLegal (capOf 4 0 0x400000 0xFF) 0x100000 = true ∧ x.held = []) ∧
    (u.ctxEntry 5 = some (1, { x with state := .suspended }) ∧ u.streamsKeyed 5 = true) ∧ t.ctxEntry 5 = some (1, { x with state := .tearing }) ∧
    ((sends []).louverCtx = none ∧ (∀ e ∈ (sends []).dev.prot.ctxs, e.2.state ≠ .tearing) ∧ (sends []).dev.prot.ctxs ≠ [] ∧ rising (sends []).dev.owners = true ∧
      (sends []).dev.prot.owed.find? (·.1 == ownerPage 0) = some (ownerPage 0, { owner := 5, scrub := false }) ∧
      (sends []).entryBusy (ownerPage 0) = false ∧ (sends [aMsg write]).entryBusy (ownerPage 0) = true) ∧
    (quiet.Ok ∧ (clears 0 3).dev.lost.contains 0 = false ∧ ((clears 0 3).lv 0).phase = 3 ∧ next (clears 0 3) = some 0 ∧
      ((clears 0 3).lv 0).done + 1 < ((clears 0 3).lv 0).total) ∧
    (((clears (ownerCore 0) 2).lv 0).phase = 2 ∧ next (clears (ownerCore 0) 2) = some (ownerCore 0) ∧ 2 ^ 20 ≤ ownerCore 0 ∧ ownerCore 0 < 2 ^ 21) ∧
    (next (clears (ownerClus 0) 2) = some (ownerClus 0) ∧ 2 ^ 21 ≤ ownerClus 0) ∧
    ((wipes.lv 0).phase = 1 ∧ next wipes = some 8) := by
  refine ⟨?_, ?_, ?_, ?_, ?_, ?_, ?_, ?_, ⟨quiet_ok, ?_⟩, ?_, ?_, ?_⟩ <;> decide +kernel

/-- A sound state whose step ends in a next state, and turns of the first and last core. -/
theorem wit_StepKeepsSound : quiet.Ok ∧ (∃ t, step quiet = .next t) ∧ (0 : Nat) < 768 ∧ (767 : Nat) < 768 := by
  refine ⟨quiet_ok, ⟨after (step quiet), after_next (by decide +kernel)⟩, by decide⟩

/-- A well-formed operation with a slot in which it stands. -/
theorem wit_EncodingRoundTrip :
    Instr.wf (.vbitonic { vd := 40, vs1 := 41, b := 3, d := 2, et := .f64, pg := 0 }) = true ∧
      Slot.va ∈ Instr.standsIn (.vbitonic { vd := 40, vs1 := 41, b := 3, d := 2, et := .f64, pg := 0 }) := by decide

end Sys2Proof.Tests
end

section
/-! SUPPORT. Every event ends in a next state, every turn keeps the state sound, and so does every step (R7, R18, R41, R48, R51). -/

namespace Sys2Proof.Machine

open Host (Outcome)

/-! ### Answers that are a next state -/

/-- The answer is a next state: no fault and no refusal. -/
def Answers (o : Outcome State Fault Refusal) : Prop := ∃ t, o = .next t

theorem answers_next (t : State) : Answers (.next t) := ⟨t, rfl⟩

theorem answers_ite {p : Prop} [Decidable p] {a b : Outcome State Fault Refusal} (ha : Answers a) (hb : Answers b) :
    Answers (if p then a else b) := by
  split
  · exact ha
  · exact hb

theorem answers_iteNext {p : Prop} [Decidable p] (a b : State) : Answers (if p then .next a else .next b) :=
  answers_ite (answers_next a) (answers_next b)

/-! ### Events -/

theorem execSuperstepRelease_answers (lid : Nat) (s : State) : Answers (execSuperstepRelease lid s) := by
  unfold execSuperstepRelease
  repeat' first | exact answers_next _ | extract_lets | split

theorem execTaskEnd_answers (n : Nat) (s : State) : Answers (execTaskEnd n s) := by
  unfold execTaskEnd
  repeat' first | exact answers_next _ | extract_lets | split

theorem execSegmentMark_answers (n : Nat) (s : State) : Answers (execSegmentMark n s) := by
  unfold execSegmentMark
  repeat' first | exact answers_next _ | extract_lets | split

theorem execOverlaySegmentLanded_answers (n : Nat) (s : State) : Answers (execOverlaySegmentLanded n s) := by
  unfold execOverlaySegmentLanded
  repeat' first | exact answers_next _ | extract_lets | split

theorem execBarrierAnswer_answers (n : Nat) (s : State) : Answers (execBarrierAnswer n s) := by
  unfold execBarrierAnswer
  dsimp only
  repeat' first | exact answers_next _ | split

theorem execBarrierArrivalReceived_answers (k : Nat) (s : State) : Answers (execBarrierArrivalReceived k s) := by
  unfold execBarrierArrivalReceived
  repeat' first | exact answers_next _ | extract_lets | split

theorem execBarrierFlipReceived_answers (k : Nat) (s : State) : Answers (execBarrierFlipReceived k s) := by
  unfold execBarrierFlipReceived
  repeat' first | exact answers_next _ | extract_lets | split

theorem execWloadBlockArrival_answers (n : Nat) (os : OSlot) (s : State) : Answers (execWloadBlockArrival n os s) := by
  unfold execWloadBlockArrival
  repeat' first | exact answers_next _ | extract_lets | split

theorem execJobStart_answers (id : Nat) (s : State) : Answers (execJobStart id s) := by
  unfold execJobStart
  repeat' first | exact answers_next _ | extract_lets | split

theorem execCopyRow_answers (id : Nat) (s : State) : Answers (execCopyRow id s) := by
  unfold execCopyRow
  repeat' first | exact answers_next _ | extract_lets | split

theorem execJobComplete_answers (id : Nat) (s : State) : Answers (execJobComplete id s) := by
  unfold execJobComplete
  repeat' first | exact answers_next _ | extract_lets | split

theorem execWpeBuildStart_answers (id : Nat) (s : State) : Answers (execWpeBuildStart id s) := by
  unfold execWpeBuildStart
  repeat' first | exact answers_next _ | extract_lets | split

theorem execWpePulseIteration_answers (id : Nat) (ok : BitVec 5) (s : State) : Answers (execWpePulseIteration id ok s) := by
  unfold execWpePulseIteration
  repeat' first | exact answers_next _ | extract_lets | split

theorem execStoreAck_answers (n id : Nat) (s : State) : Answers (execStoreAck n id s) := by
  unfold execStoreAck
  repeat' first | exact answers_next _ | extract_lets | split

theorem execHomeAtomicExecute_answers (n id : Nat) (s : State) : Answers (execHomeAtomicExecute n id s) := by
  unfold execHomeAtomicExecute
  repeat' first | exact answers_next _ | extract_lets | split

theorem execStampedMessageDelivery_answers (k : Nat) (s : State) : Answers (execStampedMessageDelivery k s) := by
  unfold execStampedMessageDelivery
  repeat' first | exact answers_next _ | extract_lets | split

theorem execMemoryFaultFound_answers (site : FaultSite) (cond : MemCond) (s : State) : Answers (execMemoryFaultFound site cond s) := by
  unfold execMemoryFaultFound
  repeat' first | exact answers_next _ | extract_lets | split

theorem execSaveComplete_answers (n : Nat) (s : State) : Answers (execSaveComplete n s) := by
  unfold execSaveComplete
  repeat' first | exact answers_next _ | extract_lets | split

theorem execTaskRestore_answers (uid n : Nat) (s : State) : Answers (execTaskRestore uid n s) := by
  unfold execTaskRestore
  repeat' first | exact answers_next _ | extract_lets | split

theorem execQueueIdleTimeout_answers (q : Nat) (s : State) : Answers (execQueueIdleTimeout q s) := by
  unfold execQueueIdleTimeout
  repeat' first | exact answers_next _ | extract_lets | split

theorem execPacketDispatch_answers (die : Nat) (s : State) : Answers (execPacketDispatch die s) := by
  unfold execPacketDispatch
  repeat' first | exact answers_next _ | extract_lets | split

theorem execLaunch_answers (id : Nat) (s : State) : Answers (execLaunch id s) := by
  unfold execLaunch
  repeat' first | exact answers_next _ | extract_lets | split

theorem execCopy_answers (id : Nat) (s : State) : Answers (execCopy id s) := by
  unfold execCopy
  repeat' first | exact answers_next _ | extract_lets | split

theorem execBarrier_answers (id : Nat) (s : State) : Answers (execBarrier id s) := by
  unfold execBarrier
  repeat' first | exact answers_next _ | extract_lets | split

theorem execNode_answers (id : Nat) (s : State) : Answers (execNode id s) := by
  unfold execNode
  repeat' first | exact answers_next _ | extract_lets | split

theorem execSelftest_answers (pid : Nat) (s : State) : Answers (execSelftest pid s) := by
  unfold execSelftest
  repeat' first | exact answers_next _ | extract_lets | split

theorem execFencePacket_answers (id : Nat) (s : State) : Answers (execFencePacket id s) := by
  unfold execFencePacket
  repeat' first | exact answers_next _ | extract_lets | split

theorem execPacketComplete_answers (id : Nat) (s : State) : Answers (execPacketComplete id s) := by
  unfold execPacketComplete
  repeat' first | exact answers_next _ | extract_lets | split

theorem execIndexClaim_answers (die pid : Nat) (s : State) : Answers (execIndexClaim die pid s) := by
  unfold execIndexClaim
  repeat' first | exact answers_next _ | extract_lets | split

theorem execGangStart_answers (pid level group : Nat) (s : State) : Answers (execGangStart pid level group s) := by
  unfold execGangStart
  repeat' first | exact answers_next _ | extract_lets | split

theorem execIndexReturnTimeout_answers (die pid : Nat) (s : State) : Answers (execIndexReturnTimeout die pid s) := by
  unfold execIndexReturnTimeout
  repeat' first | exact answers_next _ | extract_lets | split

theorem execLaunchComplete_answers (pid : Nat) (s : State) : Answers (execLaunchComplete pid s) := by
  unfold execLaunchComplete
  repeat' first | exact answers_next _ | extract_lets | split

theorem execSelftestComplete_answers (n : Nat) (fail : BitVec 9) (s : State) : Answers (execSelftestComplete n fail s) := by
  unfold execSelftestComplete
  repeat' first | exact answers_next _ | extract_lets | split

theorem execDatapathCheckFail_answers (n : Nat) (sl : Slot) (synd : DWord) (s : State) : Answers (execDatapathCheckFail n sl synd s) := by
  unfold execDatapathCheckFail
  repeat' first | exact answers_next _ | extract_lets | split

theorem execLockstepReplayComplete_answers (die : Nat) (s : State) : Answers (execLockstepReplayComplete die s) := by
  unfold execLockstepReplayComplete
  repeat' first | exact answers_next _ | extract_lets | split

theorem execOwnerEntryEffect_answers (k : Nat) (s : State) : Answers (execOwnerEntryEffect k s) := by
  unfold execOwnerEntryEffect
  repeat' first | exact answers_next _ | extract_lets | split

theorem execLouverResourceDone_answers (die : Nat) (s : State) : Answers (execLouverResourceDone die s) := by
  unfold execLouverResourceDone
  repeat' first | exact answers_next _ | extract_lets | split

/-- R7: an event, whatever its arguments, ends in a next state. IDLE, which has a word in most slots, does so anyway; every other
operation of a bundle has a word and is no event. -/
theorem event_answers {i : Instr} (h : Instr.isOp i = false) (s : State) : Answers (exec i s) :=
  match i with
  | .superstepRelease lid => execSuperstepRelease_answers lid s
  | .taskEnd n => execTaskEnd_answers n s
  | .segmentMark n => execSegmentMark_answers n s
  | .overlaySegmentLanded n => execOverlaySegmentLanded_answers n s
  | .barrierAnswer n => execBarrierAnswer_answers n s
  | .barrierArrivalReceived k => execBarrierArrivalReceived_answers k s
  | .barrierFlipReceived k => execBarrierFlipReceived_answers k s
  | .wloadBlockArrival n os => execWloadBlockArrival_answers n os s
  | .jobStart j => execJobStart_answers j s
  | .copyRow j => execCopyRow_answers j s
  | .jobComplete j => execJobComplete_answers j s
  | .wpeBuildStart j => execWpeBuildStart_answers j s
  | .wpePulseIteration j ok => execWpePulseIteration_answers j ok s
  | .storeAck n id => execStoreAck_answers n id s
  | .homeAtomicExecute n id => execHomeAtomicExecute_answers n id s
  | .stampedMessageDelivery k => execStampedMessageDelivery_answers k s
  | .memoryFaultFound site cond => execMemoryFaultFound_answers site cond s
  | .saveComplete n => execSaveComplete_answers n s
  | .taskRestore uid n => execTaskRestore_answers uid n s
  | .queueIdleTimeout q => execQueueIdleTimeout_answers q s
  | .packetDispatch die => execPacketDispatch_answers die s
  | .launch pid => execLaunch_answers pid s
  | .copy pid => execCopy_answers pid s
  | .barrier pid => execBarrier_answers pid s
  | .node pid => execNode_answers pid s
  | .selftest pid => execSelftest_answers pid s
  | .fencePacket pid => execFencePacket_answers pid s
  | .packetComplete pid => execPacketComplete_answers pid s
  | .indexClaim die pid => execIndexClaim_answers die pid s
  | .gangStart pid level group => execGangStart_answers pid level group s
  | .indexReturnTimeout die pid => execIndexReturnTimeout_answers die pid s
  | .launchComplete pid => execLaunchComplete_answers pid s
  | .selftestComplete n fail => execSelftestComplete_answers n fail s
  | .datapathCheckFail n sl synd => execDatapathCheckFail_answers n sl synd s
  | .lockstepReplayComplete die => execLockstepReplayComplete_answers die s
  | .ownerEntryEffect k => execOwnerEntryEffect_answers k s
  | .louverResourceDone die => execLouverResourceDone_answers die s
  | .idle _ | .engineOpStart _ | .directoryInvalidate _ _ | .packageLost _ |
    .controlRegisterWrite _ _ _ | .getVersion | .getCapabilities | .negotiateAlgorithms | .getDigests |
    .getCertificate | .challenge _ | .getMeasurements _ | .keyExchange | .finish | .keyUpdate | .endSession |
    .ideKm _ _ | .create | .assign _ _ | .saveArea _ _ _ | .report _ _ | .teardown _ | .resume _ | .coldReset |
    .powerLoss _ => answers_next _
  | .fmtShadowExpiry _ | .tretResume _ | .repeatIssue _ | .scWheelIssue _ | .wloadFillExpiry _ _ | .portBlock _ |
    .engineRetire _ | .xscaleExecute _ | .resultWriteback _ | .landingCountExpiry _ | .trapEntry _ | .preempt _ |
    .scheduleReadyTask _ | .queueRemap _ | .queueRestart _ | .waySurrender _ | .wayReturn _ | .waypWrite _ _ |
    .wrgnWrite _ _ _ _ | .regionSealComplete _ _ | .qdbaseWrite _ _ | .qsigbaseWrite _ _ | .fabidWrite _ |
    .fportEnWrite _ _ _ | .fabricLinkUp _ _ _ _ | .fabricTagFailure _ _ | .streamRekey _ _ | .pcapWrite _ |
    .pcapWindow _ _ | .vcoreOvercurrent _ | .mcErrorRecord _ _ _ | .threshWindowEnd _ _ | .mcStatusClear _ _ _ |
    .coreFence _ | .coreReturnToService _ | .dieLost _ | .mctpControl _ | .pldmMonitoring _ | .capRead _ |
    .capWrite _ _ | .fabricKeyExchange _ | .linkReset | .warmReset | .hostLinkUp | .regionRehashComplete _ =>
    answers_iteNext _ _
  | .wpeSlotRelease _ _ | .landingDataArrival _ _ _ | .lockstepMismatch _ _ | .imageTransfer _ _ =>
    answers_ite (answers_next _) (answers_iteNext _ _)
  | .queueSignal _ =>
    answers_ite (answers_next _) (answers_ite (answers_next _) (answers_ite (answers_next _) (answers_iteNext _ _)))
  | .hostBarAccess _ =>
    answers_ite (answers_next _) (answers_ite (answers_ite (answers_next _) (answers_iteNext _ _)) (answers_next _))
  | .beq _ | .bne _ | .blt _ | .bge _ | .bltu _ | .bgeu _ | .bpt _ | .bpf _ | .jmp _ | .call _ | .ret _ | .loop _ |
    .loopW _ | .loopSp _ | .lend _ | .lbrk _ | .wait _ | .setfmt _ _ | .litset _ | .sstep | .iinv _ | .yield | .halt
  | .trap _ | .tret | .lui _ | .auipc _ | .addi _ | .slti _ | .sltiu _ | .xori _ | .ori _ | .andi _ | .slli _ |
    .srli _ | .srai _ | .add _ | .sub _ | .sll _ | .slt _ | .sltu _ | .xor _ | .srl _ | .sra _ | .or _ | .and _ |
    .addiw _ | .slliw _ | .srliw _ | .sraiw _ | .addw _ | .subw _ | .sllw _ | .srlw _ | .sraw _ | .lb _ | .lh _ |
    .lw _ | .sld _ | .lbu _ | .lhu _ | .lwu _ | .sb _ | .sh _ | .sw _ | .sd _ | .fence _ | .ecall | .ebreak | .mul _
  | .mulh _ | .mulhsu _ | .mulhu _ | .div _ | .divu _ | .rem _ | .remu _ | .mulw _ | .divw _ | .divuw _ | .remw _
  | .remuw _ | .csrrw _ | .csrrs _ | .csrrc _ | .csrrwi _ | .csrrsi _ | .csrrci _ | .vadd _ | .vsub _ |
    .vmul _ | .vdiv _ | .vmin _ | .vmax _ | .vabs _ | .vneg _ | .vfma _ | .vfms _ | .vsqrt _ | .vrcp _ | .vrsqrt _ |
    .vexp2 _ | .vlog2 _ | .vand _ | .vor _ | .vxor _ | .vnot _ | .vshl _ | .vshr _ | .vsra _ | .vadds _ | .vsubs _ |
    .vmulh _ | .vbcast _ | .vmovx _ | .vmov _ | .viota _ | .vli _ | .vcmpEq _ | .vcmpNe _ | .vcmpLt _ | .vcmpLe _ |
    .vcmpUn _ | .vcmpLtu _ | .vcmpLeu _ | .vpand _ | .vpor _ | .vpxor _ | .vpnot _ | .vpset _ | .vpcnt _ |
    .vpfirst _ | .vsel _ | .vperm _ | .vslideup _ | .vslidedn _ | .vzip _ | .vunzip _ | .vcompress _ | .vexpand _ |
    .vredsum _ | .vredmax _ | .vredmin _ | .vscansum _ | .vscanmax _ | .vargmax _ | .vbitonic _ | .vmulL6 _ |
    .vdotL6 _ | .vrand _ | .vld _ | .vst _ | .vstm _ | .vgather _ | .vscatter _ | .ld _ | .st _ | .ldSc _ | .stSc _
  | .vpref _ | .amoadd _ | .amomin _ | .amomax _ | .amominu _ | .amomaxu _ | .amoand _ | .amoor _ | .amoxor _ |
    .amoswap _ | .amocas _ | .amoSc _ | .lda _ | .stl _ | .vfence _ | .cflush _ | .vamoadd _ | .vamomin _ |
    .vamomax _ | .vredst _ | .cldh _ | .csth _ | .cnarrow _ | .cget _ | .cmov _ | .cclr _ | .binit _ | .blink _ |
    .barrive _ | .bwaitp _ | .oclaim _ | .orelease _ | .oload _ | .wload _ | .mzero _ | .mmov _ | .mrd _ | .mwr _ |
    .mmaF64 _ | .mmaF32 _ | .mmaBf16 _ | .mmaF16 _ | .mmaI8 _ | .mmaI4 _ | .mmaL6 _ | .mmaS24 _ | .mmaS14 _ |
    .mlrset _ | .mlrmul _ | .mlrdm _ | .mdmlr _ | .mlradd _ | .mrecomp _ | .mdense _ | .mrank _ | .mbflyC64 _ |
    .mbflyC128 _ | .mbrev _ | .mtwmulC64 _ | .mtwmulC128 _ | .cjob _ | .cjobv _ | .cwpe _ | .cquery _ | .ccancel _ |
    .csignal _ | .cfence | .xexpS24 _ | .xexpS14 _ | .xunpkL6 _ | .xunpkI4 _ | .xpackL6 _ | .xpackI4 _ | .xtr _ |
    .xcvt _ | .xscale _ | .xscalei _ =>
    nomatch (show true = false from h)

/-! ### Turns -/

theorem Due.run_ok (d : Due) {s : State} (hs : s.Ok) : OutOk (d.run s) :=
  match d with
  | .dieLost d => execDieLost_ok d hs
  | .coreFence n => execCoreFence_ok n hs
  | .ownerEntryEffect k => execOwnerEntryEffect_ok k hs
  | .stampedMessageDelivery k => execStampedMessageDelivery_ok k hs
  | .barrierFlipReceived k => execBarrierFlipReceived_ok k hs
  | .barrierArrivalReceived k => execBarrierArrivalReceived_ok k hs
  | .landingDataArrival n id => execLandingDataArrival_ok n id true hs
  | .storeAck n id => execStoreAck_ok n id hs
  | .homeAtomicExecute n id => execHomeAtomicExecute_ok n id hs
  | .wloadBlockArrival n os => execWloadBlockArrival_ok n os hs
  | .barrierAnswer n => execBarrierAnswer_ok n hs
  | .overlaySegmentLanded n => execOverlaySegmentLanded_ok n hs
  | .saveComplete n => execSaveComplete_ok n hs
  | .taskEnd n => execTaskEnd_ok n hs
  | .selftestComplete n => execSelftestComplete_ok n 0 hs
  | .jobStart j => execJobStart_ok j hs
  | .jobComplete j => execJobComplete_ok j hs
  | .wpePulseIteration j => execWpePulseIteration_ok j 0x1F hs
  | .wpeBuildStart j => execWpeBuildStart_ok j hs
  | .copyRow j => execCopyRow_ok j hs
  | .wpeSlotRelease b sl => execWpeSlotRelease_ok b sl hs
  | .waySurrender c => execWaySurrender_ok c hs
  | .wayReturn c => execWayReturn_ok c hs
  | .regionSealComplete d r => execRegionSealComplete_ok d r hs
  | .regionRehashComplete d => execRegionRehashComplete_ok d hs
  | .louverResourceDone d => execLouverResourceDone_ok d hs
  | .queueSignal q => execQueueSignal_ok q hs
  | .queueRestart q => execQueueRestart_ok q hs
  | .queueRemap d => execQueueRemap_ok d hs
  | .queueIdleTimeout q => execQueueIdleTimeout_ok q hs
  | .packetDispatch d => execPacketDispatch_ok d hs
  | .launch p => execLaunch_ok p hs
  | .copy p => execCopy_ok p hs
  | .barrier p => execBarrier_ok p hs
  | .node p => execNode_ok p hs
  | .selftest p => execSelftest_ok p hs
  | .fencePacket p => execFencePacket_ok p hs
  | .packetComplete p => execPacketComplete_ok p hs
  | .launchComplete p => execLaunchComplete_ok p hs
  | .scheduleReadyTask d => execScheduleReadyTask_ok d hs
  | .indexClaim d p => execIndexClaim_ok d p hs
  | .indexReturnTimeout d p => execIndexReturnTimeout_ok d p hs
  | .superstepRelease l => execSuperstepRelease_ok l hs
  | .lockstepReplayComplete d => execLockstepReplayComplete_ok d hs

theorem firstEnabled_ok (l : List Due) {s : State} (hs : s.Ok) : OptOk (firstEnabled l s) := by
  induction l with
  | nil => exact optOk_none
  | cons d t ih =>
    unfold firstEnabled
    split
    · next s' hrun =>
      split
      · exact ih
      · exact optOk_some ((d.run_ok hs).next s' hrun)
    · exact ih

theorem State.clockTick_ok {s : State} (hs : s.Ok) : s.clockTick.Ok := State.noteBlocked_ok hs

theorem State.defaultTurn_ok {s : State} (hs : s.Ok) : s.defaultTurn.Ok := by
  unfold State.defaultTurn
  split
  · exact State.coreCycle_ok _ hs
  · exact State.Ok.getD (firstEnabled_ok _ hs) (State.clockTick_ok hs)

theorem State.take_ok (t : Turn) {s : State} (hs : s.Ok) : OutOk (s.take t) := by
  cases t with
  | core n =>
    simp only [State.take]
    split
    · exact outOk_next (State.coreCycle_ok n hs)
    · exact ⟨fun _ h => nomatch h⟩
  | event i =>
    simp only [State.take]
    split
    · exact outOk_next hs
    · exact exec_ok i hs
  | message via i =>
    simp only [State.take]
    split
    · exact outOk_next hs
    · exact exec_ok i (State.setSpdm_ok _ hs)
  | clock => exact outOk_next (State.clockTick_ok hs)
  | link pkg m => exact outOk_next (State.linkIn_ok pkg m hs)

/-- Every turn but that of a core which no package has ends in a next state (R18). -/
theorem State.take_answers {t : Turn} (s : State) (hcore : ∀ n, t = .core n → n < 768) : Answers (s.take t) := by
  cases t with
  | core n =>
    simp only [State.take]
    rw [if_pos (hcore n rfl)]
    exact answers_next _
  | event i =>
    simp only [State.take]
    split
    · exact answers_next _
    · next hop => exact event_answers (Bool.eq_false_of_not_eq_true hop) s
  | message via i =>
    simp only [State.take]
    split
    · exact answers_next _
    · next hop => exact event_answers (Bool.eq_false_of_not_eq_true hop) _
  | clock => exact answers_next _
  | link pkg m => exact answers_next _

/-! ### Steps -/

theorem step_of_agenda {s : State} {t : Turn} {rest : List Turn} (h : s.agenda = t :: rest) :
    step s = State.take t { s with agenda := rest } := by
  unfold step
  rw [h]

theorem step_of_no_agenda {s : State} (h : s.agenda = []) : step s = .next s.defaultTurn := by
  unfold step
  rw [h]

theorem step_ok {s : State} (hs : s.Ok) : OutOk (step s) := by
  cases hag : s.agenda with
  | nil => exact step_of_no_agenda hag ▸ outOk_next (State.defaultTurn_ok hs)
  | cons t rest =>
    have hrest : State.Ok { s with agenda := rest } := hs
    exact step_of_agenda hag ▸ State.take_ok t hrest

theorem step_answers {s : State} (hcore : ∀ n rest, s.agenda = .core n :: rest → n < 768) : Answers (step s) := by
  cases hag : s.agenda with
  | nil => exact step_of_no_agenda hag ▸ answers_next _
  | cons t rest =>
    rw [step_of_agenda hag]
    exact State.take_answers _ fun n ht => hcore n rest (ht ▸ hag)

end Sys2Proof.Machine

namespace Sys2Proof

open Sys2Proof.Machine

/-- Settles O57: each turn keeps the state sound, since every operation and every event does; and an event always answers with a
next state. -/
theorem stepKeepsSound : Obligations.StepKeepsSound :=
  ⟨fun _ t hs hstep => (step_ok hs).next t hstep, fun _ hcore => step_answers hcore⟩

end Sys2Proof
end

section
/-! SUPPORT. The registers of a die's window: each reads by its fields after a write (R11, R12, R326, R442, R448). -/

namespace Sys2Proof.Machine

open Host (Outcome)

/-! ### Fields of a register as it reads -/

theorem pageBase_eq_and (v : DWord) : BitVec.ofNat 64 ((fld v 12 36).toNat * 4096) = v &&& 0xFFFFFFFFF000 := by
  have hmask : ∀ i < 64, (0xFFFFFFFFF000 : DWord).getLsbD i = decide (12 ≤ i ∧ i < 48) := by decide
  have hshift : BitVec.ofNat 64 ((fld v 12 36).toNat * 4096) = (fld v 12 36).setWidth 64 <<< 12 := by
    apply BitVec.eq_of_toNat_eq
    simp [Nat.shiftLeft_eq]
  rw [hshift]
  apply BitVec.eq_of_getLsbD_eq
  intro i hi
  rw [BitVec.getLsbD_and, hmask i hi]
  simp only [BitVec.getLsbD_shiftLeft, BitVec.getLsbD_setWidth, BitVec.getLsbD_extractLsb']
  grind

/-- The low n bits of a doubleword. -/
theorem setWidth_fld_zero {n : Nat} (hn : n ≤ 64) (v : DWord) : (fld v 0 n).setWidth 64 = v &&& BitVec.ofNat 64 (2 ^ n - 1) := by
  have hpow : 2 ^ n ≤ 2 ^ 64 := Nat.pow_le_pow_right (by omega) hn
  have hpos : 0 < 2 ^ n := Nat.two_pow_pos n
  apply BitVec.eq_of_toNat_eq
  rw [BitVec.toNat_and, BitVec.toNat_ofNat, Nat.mod_eq_of_lt (by omega : 2 ^ n - 1 < 2 ^ 64), Nat.and_two_pow_sub_one_eq_mod]
  have := Nat.mod_lt v.toNat hpos
  simp
  omega

theorem savepool_eq_and (v : DWord) :
    fld v 52 12 ++ 0#4 ++ fld v 21 27 ++ 0#21 = v &&& 0xFFF0FFFFFFE00000 := by
  have hmask : ∀ i < 64, (0xFFF0FFFFFFE00000 : DWord).getLsbD i = decide (52 ≤ i ∨ (21 ≤ i ∧ i < 48)) := by decide
  apply BitVec.eq_of_getLsbD_eq
  intro i hi
  rw [BitVec.getLsbD_and, hmask i hi]
  simp only [BitVec.getLsbD_append, BitVec.getLsbD_extractLsb', BitVec.getLsbD_zero]
  grind

theorem jctl_eq_and (v : DWord) : 0#16 ++ fld v 16 32 ++ 0#15 ++ fld v 0 1 = v &&& 0x0000FFFFFFFF0001 := by
  have hmask : ∀ i < 64, (0x0000FFFFFFFF0001 : DWord).getLsbD i = decide (i < 1 ∨ (16 ≤ i ∧ i < 48)) := by decide
  apply BitVec.eq_of_getLsbD_eq
  intro i hi
  rw [BitVec.getLsbD_and, hmask i hi]
  simp only [BitVec.getLsbD_append, BitVec.getLsbD_extractLsb', BitVec.getLsbD_zero]
  grind

theorem ctrlAt_ctl {b : Nat} (hb : b < 32) : ctrlAt (0x90000 + 0x40 * b + 32) = .mc b 32 := by
  revert b; decide

/-! ### The window that fences (R448) -/

theorem getLsbD_foldl_setBit {w n : Nat} (hn : n ≤ w) (p : Nat → Bool) (j : Nat) :
    ((List.range n).foldl (fun m k => setBit m k (p k)) (0 : BitVec w)).getLsbD j = (decide (j < n) && p j) := by
  induction n with
  | zero => simp
  | succ n ih =>
    rw [List.range_succ, List.foldl_append]
    simp only [List.foldl_cons, List.foldl_nil]
    by_cases hj : j = n
    · subst hj
      simp [setBit_self _ _ _ (show j < w by omega)]
    · rw [setBit_other _ _ (Ne.symm hj), ih (by omega)]
      congr 1
      simp only [decide_eq_decide]
      omega

theorem svcWord_getLsbD (die : Nat) (hi : Bool) (p : Nat → Bool) (j : Nat) :
    (svcWord die hi p).getLsbD j =
      (decide (j < if hi then 32 else 64) && p (96 * die + (if hi then 64 else 0) + j)) :=
  getLsbD_foldl_setBit (by cases hi <;> decide) (fun k => p (96 * die + (if hi then 64 else 0) + k)) j

theorem svcCores_contains (die : Nat) (hi : Bool) (v : DWord) (j : Nat) :
    (svcCores die hi v).contains (96 * die + (if hi then 64 else 0) + j) =
      (decide (j < if hi then 32 else 64) && v.getLsbD j) := by
  rw [Bool.eq_iff_iff, List.contains_iff_mem, svcCores, List.mem_map]
  simp only [List.mem_filter, List.mem_range, Bool.and_eq_true, decide_eq_true_eq]
  constructor
  · rintro ⟨k, hk, e⟩
    obtain rfl : k = j := by omega
    exact hk
  · exact fun h => ⟨j, h, rfl⟩

theorem readCtrl_fence_writeCtrl (s : State) (die : Nat) (hi : Bool) (v : DWord) :
    (s.writeCtrl die (.fence hi) v).readCtrl die (.fence hi) =
      s.readCtrl die (.fence hi) ||| (if hi then v &&& 0xFFFFFFFF else v) := by
  have hlow : ∀ i < 64, (0xFFFFFFFF : DWord).getLsbD i = decide (i < 32) := by decide
  apply BitVec.eq_of_getLsbD_eq
  intro j hj
  have hset : (if hi then v &&& 0xFFFFFFFF else v).getLsbD j = (decide (j < if hi then 32 else 64) && v.getLsbD j) := by
    cases hi with
    | false => simp [hj]
    | true => rw [if_pos rfl, BitVec.getLsbD_and, hlow j hj, if_pos rfl, Bool.and_comm]
  rw [BitVec.getLsbD_or, hset]
  simp only [State.readCtrl, State.writeCtrl, svcWord_getLsbD, List.contains_append, svcCores_contains, State.setMc_dev_mc,
    State.setMc_core]
  generalize decide (j < if hi then 32 else 64) = named
  cases named <;> simp [Bool.or_assoc]

/-! ### Writes of the window (R11) -/

theorem exec_controlRegisterWrite_of_up {s : State} {die off : Nat} (v : DWord) (hup : s.dieUp die = true)
    (halign : off % 8 = 0) (hoff : off < 2 ^ 20) :
    exec (.controlRegisterWrite die off v) s = .next (s.writeCtrl die (ctrlAt off) v) := by
  rw [exec_controlRegisterWrite, execControlRegisterWrite, State.writeWindow, if_pos]
  simp only [hup, halign, beq_self_eq_true, Bool.and_true, Bool.true_and, decide_eq_true_eq]
  exact hoff

theorem exec_controlRegisterWrite_malformed {s : State} {die off : Nat} (v : DWord) (hbad : off % 8 ≠ 0 ∨ 2 ^ 20 ≤ off) :
    Stays s (.controlRegisterWrite die off v) := by
  rw [Stays, exec_controlRegisterWrite, execControlRegisterWrite, State.writeWindow, if_neg]
  simp only [Bool.and_eq_true, beq_iff_eq, decide_eq_true_eq]
  omega

/-- After the event, memory and cores are as they were, and the register reads x. -/
def ReadsAfter (s : State) (die : Nat) (i : Instr) (r : Ctrl) (x : DWord) : Prop :=
  ∃ t, exec i s = .next t ∧ t.mem = s.mem ∧ t.cores = s.cores ∧ t.readCtrl die r = x

theorem readsAfter_controlRegisterWrite {s : State} {die off : Nat} {r : Ctrl} {x : DWord} (v : DWord)
    (hup : s.dieUp die = true) (halign : off % 8 = 0) (hoff : off < 2 ^ 20) (hat : ctrlAt off = r)
    (hmem : (s.writeCtrl die r v).mem = s.mem) (hcores : (s.writeCtrl die r v).cores = s.cores)
    (hread : (s.writeCtrl die r v).readCtrl die r = x) : ReadsAfter s die (.controlRegisterWrite die off v) r x :=
  ⟨_, exec_controlRegisterWrite_of_up v hup halign hoff, hat ▸ hmem, hat ▸ hcores, hat ▸ hread⟩

section Registers

variable (s : State) (die : Nat) (v : DWord)

theorem readCtrl_qdbase_writeCtrl : (s.writeCtrl die .qdbase v).readCtrl die .qdbase = v &&& 0xFFFFFFFFF000 := by
  simp only [State.writeCtrl, State.readCtrl, State.setSched_dev_sched, lookupD_insertAt_same, pageBase_eq_and]

theorem readCtrl_qsigbase_writeCtrl : (s.writeCtrl die .qsigbase v).readCtrl die .qsigbase = v &&& 0xFFFFFFFFF000 := by
  simp only [State.writeCtrl, State.readCtrl, State.setSched_dev_sched, lookupD_insertAt_same, pageBase_eq_and]

theorem readCtrl_qidle_writeCtrl : (s.writeCtrl die .qidle v).readCtrl die .qidle = v &&& 0xFFFFFFFF := by
  simp only [State.writeCtrl, State.readCtrl, State.setSched_dev_sched, lookupD_insertAt_same, BitVec.ofNat_toNat]
  exact setWidth_fld_zero (show 32 ≤ 64 by decide) v

theorem readCtrl_savepool_writeCtrl :
    (s.writeCtrl die .savepool v).readCtrl die .savepool = v &&& 0xFFF0FFFFFFE00000 := by
  simp only [State.writeCtrl, State.readCtrl, State.setSched_dev_sched, lookupD_insertAt_same, savepool_eq_and]

theorem readCtrl_jctl_writeCtrl : (s.writeCtrl 0 .jctl v).readCtrl 0 .jctl = v &&& 0x0000FFFFFFFF0001 := by
  simp only [State.writeCtrl, State.readCtrl, State.setSched_dev_sched, if_true, jctl_eq_and]

theorem writeCtrl_ctl (b : Nat) :
    s.writeCtrl die (.mc b 32) v = s.setBank die b { s.bank die b with ctl := (fld v 0 3).setWidth 64 } := rfl

theorem readCtrl_ctl_writeCtrl (b : Nat) : (s.writeCtrl die (.mc b 32) v).readCtrl die (.mc b 32) = v &&& 7 := by
  rw [writeCtrl_ctl]
  simp only [State.readCtrl, State.bank, State.setBank, State.setMc_dev_mc, lookupD_insertAt_same]
  exact setWidth_fld_zero (show 3 ≤ 64 by decide) v

end Registers

end Sys2Proof.Machine
end

section
/-! SUPPORT. Bytes written at their home (R252, R271): what the writing back before them, the marks, the copies and the messages leave
of memory, and the byte that a list of writes leaves. -/

namespace Sys2Proof.Machine

/-! ### GLOB keys -/

theorem mkey_glob (off : Nat) : mkey .glob 0 off = off := by simp [mkey, MSpace.code]

theorem keyOff_of_lt {k : Nat} (hk : k < 2 ^ 64) : keyOff k = k := Nat.mod_eq_of_lt hk

theorem farKey_of_lt {k : Nat} (hk : k < 2 ^ 64) : farKey k = false := by
  rw [farKey, keySpace, Nat.div_eq_of_lt hk]
  rfl

theorem CLine.owing_of_near {l : CLine} (h : farKey l.key = false) : l.owing = [] := by
  unfold CLine.owing
  rw [h]
  exact if_pos (.inr rfl)

theorem mem_linesOf_lt {keys : List Nat} {n k : Nat} (hkeys : ∀ j ∈ keys, j < n) (hk : k ∈ linesOf keys) : k < n := by
  simp only [linesOf, List.mem_dedup, List.mem_map] at hk
  obtain ⟨j, hj, rfl⟩ := hk
  have := hkeys j hj
  unfold lineKey
  omega

/-! ### What a write-back and the copies leave of memory -/

@[simp] theorem State.cleanL1_mem (s : State) (sel : Nat → CLine → Bool) : (s.cleanL1 sel).mem = s.mem := by
  unfold State.cleanL1
  extract_lets
  split <;> rfl

@[simp] theorem State.addMarks_mem (s : State) (gs : List Nat) : (s.addMarks gs).mem = s.mem := rfl
@[simp] theorem State.addTags_mem (s : State) (gs : List Nat) : (s.addTags gs).mem = s.mem := rfl
@[simp] theorem State.mapLines_mem (s : State) (clus : Nat → Bool) (g : CLine → Option CLine) : (s.mapLines clus g).mem = s.mem := rfl
@[simp] theorem State.storeRels_mem (s : State) (keys : List Nat) (rel : Option Rel) : (s.storeRels keys rel).mem = s.mem := rfl

@[simp] theorem State.stamp_mem (s : State) (src : Nat) (body : Nat → MsgBody) : (s.stamp src body).mem = s.mem := by
  have hfold : ∀ (l : List Nat) (f : State → Nat → MemSys) (s : State),
      (l.foldl (fun s d => s.setMs (f s d)) s).mem = s.mem := by
    intro l f
    induction l with
    | nil => exact fun _ => rfl
    | cons d t ih => exact fun s => (ih _).trans rfl
  exact hfold _ _ _

/-- Lines of GLOB owe their home marks at most, so writing them back leaves every byte (log 16). -/
theorem State.clean_mem_of_near {s : State} {sel : Nat → CLine → Bool}
    (hnear : ∀ c l, sel c l = true → farKey l.key = false) : (s.clean sel).mem = s.mem := by
  have howing : ∀ e ∈ (s.cleanL1 (fun n l => sel (clusterOf n) l)).dev.ms.lines.filter (fun e => sel e.1 e.2), e.2.owing = [] :=
    fun e he => CLine.owing_of_near (hnear _ _ (List.mem_filter.1 he).2)
  unfold State.clean
  extract_lets s1 chosen owed shut marks s2 s3 s4
  have howed : owed = [] := List.flatMap_eq_nil_iff.2 fun e he => howing e (List.mem_filter.1 he).1
  have hshut : shut = [] := List.filter_eq_nil_iff.2 fun e he => by simp [howing e he]
  have h2 : s2 = s1 := by simp [s2, howed]
  have h4 : s4 = s3 := by simp [s4, hshut]
  have h3 : s3.mem = s2.mem := by
    simp only [s3]
    split <;> rfl
  rw [State.setMs_mem, h4, h3, h2]
  exact State.cleanL1_mem _ _

/-! ### The byte that a list of writes leaves -/

theorem lastAt_append_singleton (bytes : List (Nat × Byte)) (b : Nat × Byte) (a : Nat) :
    lastAt (bytes ++ [b]) a = if b.1 = a then some b.2 else lastAt bytes a := by
  unfold lastAt
  rw [List.filter_append]
  split
  · next h => simp [h]
  · next h => simp [h]

theorem lastAt_eq_none {bytes : List (Nat × Byte)} {a : Nat} (h : ∀ b ∈ bytes, b.1 ≠ a) : lastAt bytes a = none := by
  have hnil : bytes.filter (fun b => b.1 == a) = [] := List.filter_eq_nil_iff.2 fun b hb => by simpa using h b hb
  simp [lastAt, hnil]

/-- Where a key is written once, its byte is the one that stays. -/
theorem lastAt_of_mem {bytes : List (Nat × Byte)} {b : Nat × Byte} (hb : b ∈ bytes)
    (hone : (bytes.map (·.1)).Nodup) : lastAt bytes b.1 = some b.2 := by
  induction bytes using List.reverseRecOn with
  | nil => simp at hb
  | append_singleton bs c ih =>
    rw [lastAt_append_singleton]
    rw [List.map_append, List.nodup_append] at hone
    obtain ⟨hbs, -, hdisj⟩ := hone
    rcases List.mem_append.1 hb with hb' | hb'
    · have hne : c.1 ≠ b.1 := fun e => hdisj b.1 (List.mem_map_of_mem hb') c.1 (by simp) e.symm
      rw [if_neg hne, ih hb' hbs]
    · obtain rfl : b = c := by simpa using hb'
      exact if_pos rfl

theorem State.storeEach_append (s : State) (l m : List (Nat × Byte)) :
    s.storeEach (l ++ m) = (s.storeEach l).storeEach m := by
  induction l generalizing s with
  | nil => rfl
  | cons b t ih => exact ih _

theorem State.storeEach_mem (s : State) (bytes : List (Nat × Byte)) :
    (s.storeEach bytes).mem = bytes.foldl (fun m b => Memory.write m b.1 b.2) s.mem := by
  induction bytes generalizing s with
  | nil => rfl
  | cons b t ih => exact ih _

/-- Bytes written one by one: each address keeps the last byte written there, every other what it held. -/
theorem Memory.read_foldl_write {m : List Host.Cell} (hm : Memory.wf m = true) (bytes : List (Nat × Byte)) (a : Nat) :
    Memory.read (bytes.foldl (fun m b => Memory.write m b.1 b.2) m) a = (lastAt bytes a).getD (Memory.read m a) := by
  induction bytes using List.reverseRecOn with
  | nil => rfl
  | append_singleton bs b ih =>
    have hwf : Memory.wf (bs.foldl (fun m b => Memory.write m b.1 b.2) m) = true := Memory.foldl_write_wf bs (·.1) (·.2) hm
    rw [List.foldl_append, List.foldl_cons, List.foldl_nil, lastAt_append_singleton]
    by_cases h : b.1 = a
    · subst h
      rw [if_pos rfl]
      exact Memory.read_write_same _ _ hwf
    · rw [if_neg h, ← ih]
      exact Memory.read_write_other _ hwf (Ne.symm h)

/-! ### A write at its home -/

theorem State.clean_lines_mem {s : State} {bytes : List (Nat × Byte)} (clu : Nat) (hglob : ∀ b ∈ bytes, b.1 < 2 ^ 64) :
    (s.clean (fun c l => c != clu && (linesOf (bytes.map (·.1))).contains l.key)).mem = s.mem := by
  refine State.clean_mem_of_near fun c l hsel => farKey_of_lt (mem_linesOf_lt (keys := bytes.map (·.1)) ?_ ?_)
  · intro j hj
    obtain ⟨b, hb, rfl⟩ := List.mem_map.1 hj
    exact hglob b hb
  · rw [Bool.and_eq_true] at hsel
    exact List.contains_iff_mem.1 hsel.2

/-- A write of GLOB at its home changes memory by its bytes alone. -/
theorem State.putGlob_mem {s : State} {h clu : Nat} {bytes : List (Nat × Byte)} {tags marks : List Nat}
    (hglob : ∀ b ∈ bytes, b.1 < 2 ^ 64) :
    (s.putGlob h clu bytes tags marks).mem = bytes.foldl (fun m b => Memory.write m b.1 b.2) s.mem := by
  have hwrite : ((s.clean (fun c l => c != clu && (linesOf (bytes.map (·.1))).contains l.key)).writeBytes bytes).mem =
      bytes.foldl (fun m b => Memory.write m b.1 b.2) s.mem := by
    exact (State.storeEach_mem _ _).trans (by rw [State.clean_lines_mem clu hglob])
  unfold State.putGlob
  extract_lets
  split
  · rw [State.stamp_mem]
    exact hwrite
  · exact hwrite

@[simp] theorem State.noteByte_mem (s : State) (a : Nat) : (s.noteByte a).mem = s.mem := by
  unfold State.noteByte
  extract_lets _ _ s1
  have hsignal : s1.mem = s.mem := by
    simp only [s1]
    split
    · split <;> rfl
    · rfl
  split
  · repeat' first | exact hsignal | extract_lets | split
  · exact hsignal

theorem State.foldl_noteByte_mem (l : List Nat) (s : State) : (l.foldl State.noteByte s).mem = s.mem := by
  induction l generalizing s with
  | nil => rfl
  | cons a t ih => exact (ih _).trans (s.noteByte_mem a)

/-- Software's write of GLOB bytes at their home, none of which a mapped queue's descriptor ignores (R327). -/
theorem State.performGlob_mem {s : State} {h clu : Nat} {bytes : List (Nat × Byte)} {tags marks : List Nat}
    (hglob : ∀ b ∈ bytes, b.1 < 2 ^ 64) (htaken : ∀ b ∈ bytes, s.descIgnores (keyOff b.1) = false) :
    (s.performGlob h clu bytes tags marks).mem = bytes.foldl (fun m b => Memory.write m b.1 b.2) s.mem := by
  have hall : bytes.filter (fun b => !s.descIgnores (keyOff b.1)) = bytes :=
    List.filter_eq_self.2 fun b hb => by simp [htaken b hb]
  unfold State.performGlob
  rw [hall, State.foldl_noteByte_mem]
  exact State.putGlob_mem hglob

end Sys2Proof.Machine
end

section
/-! SUPPORT. What a record of a machine-check bank leaves (R441, R443), and which of the host's accesses are made (R347, R373). -/

namespace Sys2Proof.Machine

open Host (Outcome)

/-! ### A record of a machine-check bank -/

/-- `t` is `s` but for the machine-check registers and the host's interrupts. -/
def OnlyBanks (s t : State) : Prop := ∃ mc msi, t = { s with dev := { s.dev with mc := mc, msi := msi } }

theorem OnlyBanks.refl (s : State) : OnlyBanks s s := ⟨s.dev.mc, s.dev.msi, rfl⟩

theorem OnlyBanks.trans {s t u : State} (h : OnlyBanks s t) (h' : OnlyBanks t u) : OnlyBanks s u := by
  obtain ⟨_, _, rfl⟩ := h
  obtain ⟨mc, msi, rfl⟩ := h'
  exact ⟨mc, msi, rfl⟩

theorem OnlyBanks.setMc {s t : State} (h : OnlyBanks s t) (m : Mcheck) : OnlyBanks s (t.setMc m) :=
  h.trans ⟨m, t.dev.msi, rfl⟩

theorem OnlyBanks.setBank {s t : State} (h : OnlyBanks s t) (die b : Nat) (k : McBank) : OnlyBanks s (t.setBank die b k) :=
  h.setMc _

theorem OnlyBanks.signalHost {s t : State} (h : OnlyBanks s t) (n : Nat) : OnlyBanks s (t.signalHost n) :=
  h.trans ⟨t.dev.mc, t.dev.msi ++ [n], rfl⟩

section Left

variable {s t : State} (h : OnlyBanks s t)
include h

theorem OnlyBanks.mem_eq : t.mem = s.mem := by
  obtain ⟨_, _, rfl⟩ := h
  rfl

theorem OnlyBanks.free_eq : t.free = s.free := by
  obtain ⟨_, _, rfl⟩ := h
  rfl

theorem OnlyBanks.replies_eq : t.dev.replies = s.dev.replies := by
  obtain ⟨_, _, rfl⟩ := h
  rfl

theorem OnlyBanks.hostMay_eq (addr : Nat) : t.hostMay addr = s.hostMay addr := by
  obtain ⟨_, _, rfl⟩ := h
  rfl

end Left

theorem OnlyBanks.ite {p : Prop} [Decidable p] {s t u : State} (ht : OnlyBanks s t) (hu : OnlyBanks s u) :
    OnlyBanks s (if p then t else u) := by
  split
  · exact ht
  · exact hu

theorem State.countCorrected_onlyBanks (s : State) (die b : Nat) (e : McErr) : OnlyBanks s (s.countCorrected die b e) := by
  have h := OnlyBanks.refl s
  unfold State.countCorrected
  exact .ite (.ite (.signalHost (.ite (.setMc (.setMc (h.setBank ..) _) _) (.setMc (h.setBank ..) _)) _)
    (.ite (.setMc (.setMc (h.setBank ..) _) _) (.setMc (h.setBank ..) _))) (h.setBank ..)

/-- A record reaches a bank, the fence or the loss that it calls for, and the host: nothing else (R441, R443, R444). -/
theorem State.mcRecord_onlyBanks (s : State) (die b : Nat) (e : McErr) : OnlyBanks s (s.mcRecord die b e) := by
  unfold State.mcRecord
  refine .ite (.refl s) ?_
  extract_lets s1 k filled held s2
  have h1 : OnlyBanks s s1 := .ite (s.countCorrected_onlyBanks ..) (.refl s)
  have h2 : OnlyBanks s s2 :=
    .ite (.ite h1 (.ite (.signalHost (h1.setBank ..) _) (h1.setBank ..))) (.ite (h1.setBank ..) (.ite h1 (h1.setBank ..)))
  exact .ite (h2.setMc _) h2

/-! ### The host's accesses -/

theorem State.inStep_self (s : State) (d : Nat) : s.inStep d d = true := by simp [State.inStep]

theorem State.countHost_onlyBanks (s : State) (a : BarAccess) : OnlyBanks s (s.countHost a) := by
  unfold State.countHost
  split
  · exact s.mcRecord_onlyBanks ..
  · exact .refl s

theorem State.hostMay_admits {s : State} {addr : Nat} (h : s.hostMay addr = true) :
    (s.ownerNext (ownerPage addr)).admits 0 = true := by
  simp only [State.hostMay, Bool.and_eq_true] at h
  exact h.1.1

theorem State.hostMay_of_inRecord {s : State} {addr : Nat} (h : s.inRecord addr = true) : s.hostMay addr = false := by
  simp [State.hostMay, h]

/-- An access to bytes that the host may have is not counted. -/
theorem State.countHost_of_may {s : State} {a : BarAccess} (h : ∀ i < a.size, s.hostMay (a.off + i) = true) :
    s.countHost a = s := by
  have hnone : ((List.range a.size).map (a.off + ·)).find? (fun b => !(s.ownerNext (ownerPage b)).admits 0) = none := by
    rw [List.find?_eq_none]
    intro b hb
    obtain ⟨i, hi, rfl⟩ := List.mem_map.1 hb
    rw [State.hostMay_admits (h i (List.mem_range.1 hi))]
    exact Bool.false_ne_true
  unfold State.countHost
  rw [hnone]

theorem State.hostReady_of_home {s : State} {a : BarAccess}
    (h : ∀ i < a.size, s.ownerOwed (mkey .glob 0 (a.off + i)) = false ∧ homeDie (a.off + i) = 0) : s.hostReady a = true := by
  unfold State.hostReady
  rw [List.all_eq_true]
  intro i hi
  obtain ⟨howed, hhome⟩ := h i (List.mem_range.1 hi)
  simp only [howed, hhome, State.inStep_self, Bool.or_true, Bool.not_false, Bool.and_self]

section Access

variable {s : State} (hserves : s.serves = true) (hlink : s.dev.link.hostUp = true)
include hserves hlink

theorem exec_hostBarAccess_bar0 {a : BarAccess} (ha : a.glob = false) : exec (.hostBarAccess a) s = .next (s.bar0 a) := by
  rw [exec_hostBarAccess, execHostBarAccess, if_neg (by simp [hserves, hlink]), if_neg (by simp [ha])]

theorem exec_hostBarAccess_bar2 {a : BarAccess} (ha : a.glob = true) (hsize : 1 ≤ a.size) (hend : a.off + a.size ≤ 2 ^ 39)
    (hready : s.hostReady a = true) : exec (.hostBarAccess a) s =
      .next (if a.write then (s.countHost a).hostWrite a else (s.countHost a).hostRead a) := by
  have hfits : ¬(a.size = 0 ∨ 2 ^ 39 < a.off + a.size ∨ (!s.hostReady a) = true) := by
    rw [hready]
    simp only [Bool.not_true, Bool.false_eq_true, or_false]
    omega
  rw [exec_hostBarAccess, execHostBarAccess, if_neg (by simp [hserves, hlink]), if_pos ha, if_neg hfits]
  split <;> rfl

end Access

end Sys2Proof.Machine
end

section
/-! SUPPORT. The host's base address registers: BAR0's reads and writes of the window, and the bytes that a write through BAR2 leaves in
memory (R373). -/

namespace Sys2Proof.Machine

open Host (Outcome)

/-! ### BAR0 -/

theorem State.bar0_write {s : State} {die off : Nat} (v : DWord) (hup : s.dieUp die = true) (halign : off % 8 = 0)
    (hoff : off < 2 ^ 20) :
    s.bar0 { glob := false, off := die * 2 ^ 20 + off, size := 8, write := true, data := v.toNat } =
      s.writeCtrl die (ctrlAt off) v := by
  have hdie : (die * 2 ^ 20 + off) / 2 ^ 20 = die := by omega
  have hreg : (die * 2 ^ 20 + off) % 2 ^ 20 = off := by omega
  have h8 : (die * 2 ^ 20 + off) % 8 = 0 := by omega
  simp only [State.bar0, hdie, hreg, h8, hup, ne_eq, not_true_eq_false, Bool.not_true, Bool.false_eq_true, or_self, if_false,
    if_true, BitVec.ofNat_toNat, BitVec.setWidth_eq]

theorem State.bar0_read {s : State} {die off : Nat} (w : Nat) (hup : s.dieUp die = true) (halign : off % 8 = 0)
    (hoff : off < 2 ^ 20) :
    s.bar0 { glob := false, off := die * 2 ^ 20 + off, size := 8, write := false, data := w } =
      s.answer (.bar (leBytes 8 (s.readCtrl die (ctrlAt off)).toNat) false) := by
  have hdie : (die * 2 ^ 20 + off) / 2 ^ 20 = die := by omega
  have hreg : (die * 2 ^ 20 + off) % 2 ^ 20 = off := by omega
  have h8 : (die * 2 ^ 20 + off) % 8 = 0 := by omega
  simp only [State.bar0, hdie, hreg, h8, hup, ne_eq, not_true_eq_false, Bool.not_true, Bool.false_eq_true, or_self, if_false]

theorem State.bar0_malformed (s : State) {a : BarAccess} (hbad : a.off % 8 ≠ 0 ∨ a.size ≠ 8) :
    s.bar0 a = if a.write then s else s.answer (onesReply a.size) := by
  unfold State.bar0
  rw [if_pos]
  tauto

/-! ### BAR2 -/

theorem leBytes_zipIdx (n v : Nat) :
    (leBytes n v).zipIdx = (List.range n).map (fun i => (BitVec.ofNat 8 (v / 2 ^ (8 * i)), i)) := by
  apply List.ext_getElem
  · simp [leBytes_length]
  · intro i h _
    rw [List.length_zipIdx] at h
    simp [leBytes_getElem _ _ h, Nat.pow_mul]

/-- The bytes of a host write to GLOB, by address. -/
def hostBytes (off size data : Nat) : List (Nat × Byte) :=
  (List.range size).map (fun i => (off + i, BitVec.ofNat 8 (data / 2 ^ (8 * i))))

theorem mem_hostBytes {off size data : Nat} {b : Nat × Byte} :
    b ∈ hostBytes off size data ↔ ∃ i < size, b = (off + i, BitVec.ofNat 8 (data / 2 ^ (8 * i))) := by
  simp only [hostBytes, List.mem_map, List.mem_range]
  exact ⟨fun ⟨i, hi, e⟩ => ⟨i, hi, e.symm⟩, fun ⟨i, hi, e⟩ => ⟨i, hi, e.symm⟩⟩

theorem hostBytes_keys_nodup (off size data : Nat) : ((hostBytes off size data).map (·.1)).Nodup := by
  rw [hostBytes, List.map_map]
  exact List.nodup_range.map fun i j h => Nat.add_left_cancel h

theorem lastAt_hostBytes {off size data i : Nat} (hi : i < size) :
    lastAt (hostBytes off size data) (off + i) = some (BitVec.ofNat 8 (data / 2 ^ (8 * i))) :=
  lastAt_of_mem (mem_hostBytes.2 ⟨i, hi, rfl⟩) (hostBytes_keys_nodup off size data)

theorem lastAt_hostBytes_outside {off size data x : Nat} (hx : x < off ∨ off + size ≤ x) :
    lastAt (hostBytes off size data) x = none :=
  lastAt_eq_none fun b hb => by
    obtain ⟨i, hi, rfl⟩ := mem_hostBytes.1 hb
    show off + i ≠ x
    omega

/-- A host write to pages at home on die 0 changes memory by its bytes. -/
theorem State.hostWrite_mem {s : State} {a : BarAccess} (hsize : 1 ≤ a.size) (hend : a.off + a.size ≤ 2 ^ 39)
    (hmay : ∀ i < a.size, s.hostMay (a.off + i) = true) (hhome : ∀ i < a.size, homeDie (a.off + i) = 0)
    (htaken : ∀ i < a.size, s.descIgnores (a.off + i) = false) :
    (s.hostWrite a).mem = (hostBytes a.off a.size a.data).foldl (fun m b => Memory.write m b.1 b.2) s.mem := by
  have hoff : ∀ b ∈ hostBytes a.off a.size a.data, ∃ i < a.size, keyOff b.1 = a.off + i ∧ b.1 < 2 ^ 64 := by
    intro b hb
    obtain ⟨i, hi, rfl⟩ := mem_hostBytes.1 hb
    have hlt : a.off + i < 2 ^ 64 := by omega
    exact ⟨i, hi, keyOff_of_lt hlt, hlt⟩
  have hall : (((leBytes a.size a.data).zipIdx).filter (fun b => s.hostMay (a.off + b.2))).map
      (fun b => (mkey .glob 0 (a.off + b.2), b.1)) = hostBytes a.off a.size a.data := by
    have hself : ∀ b ∈ (List.range a.size).map (fun i => (BitVec.ofNat 8 (a.data / 2 ^ (8 * i)), i)),
        s.hostMay (a.off + b.2) = true := by
      intro b hb
      obtain ⟨i, hi, rfl⟩ := List.mem_map.1 hb
      exact hmay i (List.mem_range.1 hi)
    rw [leBytes_zipIdx, List.filter_eq_self.2 hself, List.map_map]
    simp [hostBytes, mkey_glob, Function.comp_def]
  have hdies : ((hostBytes a.off a.size a.data).map (fun b => homeDie (keyOff b.1))).dedup = [0] := by
    rw [List.eq_replicate_of_mem (a := 0) (l := (hostBytes a.off a.size a.data).map (fun b => homeDie (keyOff b.1)))]
    · refine List.replicate_dedup ?_
      simp only [hostBytes, List.length_map, List.length_range]
      omega
    · intro h hh
      obtain ⟨b, hb, rfl⟩ := List.mem_map.1 hh
      obtain ⟨i, hi, hk, -⟩ := hoff b hb
      rw [hk, hhome i hi]
  have hmine : (hostBytes a.off a.size a.data).filter (fun b => homeDie (keyOff b.1) == 0) = hostBytes a.off a.size a.data :=
    List.filter_eq_self.2 fun b hb => by
      obtain ⟨i, hi, hk, -⟩ := hoff b hb
      rw [hk, hhome i hi]
      rfl
  have hwrite : s.hostWrite a = (s.performGlob 0 96 (hostBytes a.off a.size a.data) [] []).storeRels
      ((hostBytes a.off a.size a.data).map (·.1)) none := by
    unfold State.hostWrite
    simp only [hall, hdies, List.foldl_cons, List.foldl_nil, hmine, if_true]
  rw [hwrite, State.storeRels_mem]
  refine State.performGlob_mem (fun b hb => ?_) (fun b hb => ?_)
  · obtain ⟨i, -, -, hlt⟩ := hoff b hb
    exact hlt
  · obtain ⟨i, hi, hk, -⟩ := hoff b hb
    rw [hk]
    exact htaken i hi

theorem State.hostWrite_of_none {s : State} {a : BarAccess} (h : ∀ i < a.size, s.hostMay (a.off + i) = false) :
    s.hostWrite a = s := by
  have hnone : ((leBytes a.size a.data).zipIdx).filter (fun b => s.hostMay (a.off + b.2)) = [] := by
    rw [leBytes_zipIdx, List.filter_eq_nil_iff]
    intro b hb
    obtain ⟨i, hi, rfl⟩ := List.mem_map.1 hb
    simp [h i (List.mem_range.1 hi)]
  unfold State.hostWrite
  simp only [hnone, List.map_nil, List.dedup_nil, List.foldl_nil]

end Sys2Proof.Machine
end

section
/-! SUPPORT. What the host's accesses through BAR2 leave and answer (R60, R346, R373), and the statement on registers. -/

namespace Sys2Proof.Machine

open Host (Outcome)

/-- The bytes and the mark that a host read of its own GLOB is answered with. -/
theorem State.hostRead_replies_of_may {s : State} {a : BarAccess} (hmay : ∀ i < a.size, s.hostMay (a.off + i) = true) :
    (s.hostRead a).dev.replies = s.dev.replies ++ [.bar ((List.range a.size).map (fun i => s.byte (mkey .glob 0 (a.off + i))))
      ((List.range a.size).any (fun i => KeySet.has s.marks (granule (mkey .glob 0 (a.off + i)))))] := by
  have hbytes : (List.range a.size).map (fun i =>
      let k := mkey .glob 0 (a.off + i)
      if s.hostMay (a.off + i) then (s.byte k, KeySet.has s.marks (granule k))
      else (fld (Config.freeWord (s.free + i / 128)) (8 * (i % 128)) 8, true)) =
      (List.range a.size).map (fun i => (s.byte (mkey .glob 0 (a.off + i)), KeySet.has s.marks (granule (mkey .glob 0 (a.off + i))))) :=
    List.map_congr_left fun i hi => if_pos (hmay i (List.mem_range.1 hi))
  show s.dev.replies ++ _ = _
  rw [hbytes]
  simp only [List.map_map, List.any_map, Function.comp_def]

theorem State.hostRead_free (s : State) (a : BarAccess) : (s.hostRead a).free = s.free + (a.size + 127) / 128 := rfl

/-- A byte that the host may not have reads as a free value with poison (R346, log 4). -/
theorem State.hostRead_replies_of_not_may {s : State} {off data : Nat} {write : Bool} (hmay : s.hostMay off = false) :
    (s.hostRead { glob := true, off := off, size := 1, write := write, data := data }).dev.replies =
      s.dev.replies ++ [.bar [fld (Config.freeWord s.free) 0 8] true] := by
  show s.dev.replies ++ [.bar _ _] = _
  simp [hmay]

section Bar2

variable {s : State} (hserves : s.serves = true) (hlink : s.dev.link.hostUp = true)
include hserves hlink

/-- R60: the host's write to a save record is dropped, and its read is refused. -/
theorem exec_hostBarAccess_inRecord {off : Nat} (data : Nat) (hoff : off < 2 ^ 39) (hrec : s.inRecord off = true)
    (howed : s.ownerOwed (mkey .glob 0 off) = false) (hhome : homeDie off = 0) :
    (∃ t, exec (.hostBarAccess { glob := true, off := off, size := 1, write := true, data := data }) s = .next t ∧
      t.mem = s.mem) ∧
    ∃ t, exec (.hostBarAccess { glob := true, off := off, size := 1, write := false, data := data }) s = .next t ∧
      t.dev.replies = s.dev.replies ++ [.bar [fld (Config.freeWord s.free) 0 8] true] ∧ t.free = s.free + 1 := by
  have hready : ∀ write, s.hostReady { glob := true, off := off, size := 1, write := write, data := data } = true :=
    fun write => State.hostReady_of_home fun i hi => by
      obtain rfl : i = 0 := Nat.lt_one_iff.1 hi
      exact ⟨howed, hhome⟩
  have hmay : s.hostMay off = false := State.hostMay_of_inRecord hrec
  refine ⟨⟨_, exec_hostBarAccess_bar2 hserves hlink rfl (Nat.le_refl 1) hoff (hready true), ?_⟩,
    _, exec_hostBarAccess_bar2 hserves hlink rfl (Nat.le_refl 1) hoff (hready false), ?_⟩
  · have hbanks := s.countHost_onlyBanks { glob := true, off := off, size := 1, write := true, data := data }
    rw [if_pos rfl, State.hostWrite_of_none]
    · exact hbanks.mem_eq
    · intro i hi
      obtain rfl : i = 0 := Nat.lt_one_iff.1 hi
      exact (hbanks.hostMay_eq off).trans hmay
  · have hbanks := s.countHost_onlyBanks { glob := true, off := off, size := 1, write := false, data := data }
    rw [if_neg Bool.false_ne_true, State.hostRead_replies_of_not_may ((hbanks.hostMay_eq off).trans hmay), State.hostRead_free,
      hbanks.replies_eq, hbanks.free_eq]
    exact ⟨rfl, by simp⟩

/-- The host reads GLOB bytes at home on die 0 that it may have, with their mark. -/
theorem exec_hostBarAccess_read {off size : Nat} (data : Nat) (hsize : 1 ≤ size) (hend : off + size ≤ 2 ^ 39)
    (hmay : ∀ i < size, s.hostMay (off + i) = true)
    (hready : ∀ i < size, s.ownerOwed (mkey .glob 0 (off + i)) = false ∧ homeDie (off + i) = 0) :
    ∃ t, exec (.hostBarAccess { glob := true, off := off, size := size, write := false, data := data }) s = .next t ∧
      t.mem = s.mem ∧ t.cores = s.cores ∧
      t.dev.replies = s.dev.replies ++ [.bar ((List.range size).map (fun i => s.byte (mkey .glob 0 (off + i))))
        ((List.range size).any (fun i => KeySet.has s.marks (granule (mkey .glob 0 (off + i)))))] := by
  refine ⟨_, exec_hostBarAccess_bar2 hserves hlink rfl hsize hend (State.hostReady_of_home hready), ?_⟩
  rw [if_neg Bool.false_ne_true, State.countHost_of_may hmay]
  exact ⟨rfl, rfl, State.hostRead_replies_of_may hmay⟩

/-- The host writes GLOB bytes at home on die 0 that it may have and no mapped descriptor ignores, and no others. -/
theorem exec_hostBarAccess_write (hs : s.Ok) {off size : Nat} (data : Nat) (hsize : 1 ≤ size) (hend : off + size ≤ 2 ^ 39)
    (hmay : ∀ i < size, s.hostMay (off + i) = true)
    (hready : ∀ i < size, s.ownerOwed (mkey .glob 0 (off + i)) = false ∧ homeDie (off + i) = 0)
    (htaken : ∀ i < size, s.descIgnores (off + i) = false) :
    ∃ t, exec (.hostBarAccess { glob := true, off := off, size := size, write := true, data := data }) s = .next t ∧
      (∀ i < size, t.byte (mkey .glob 0 (off + i)) = BitVec.ofNat 8 (data / 2 ^ (8 * i))) ∧
      (∀ x, x < mkey .glob 0 off ∨ mkey .glob 0 off + size ≤ x → t.byte x = s.byte x) := by
  obtain ⟨hmem, -⟩ := hs
  refine ⟨_, exec_hostBarAccess_bar2 hserves hlink rfl hsize hend (State.hostReady_of_home hready), ?_⟩
  rw [if_pos rfl, State.countHost_of_may hmay]
  have hbyte : ∀ x, (s.hostWrite { glob := true, off := off, size := size, write := true, data := data }).byte x =
      (lastAt (hostBytes off size data) x).getD (s.byte x) := by
    intro x
    rw [State.byte, State.hostWrite_mem hsize hend hmay (fun i hi => (hready i hi).2) htaken]
    exact Memory.read_foldl_write hmem _ x
  refine ⟨fun i hi => ?_, fun x hx => ?_⟩
  · rw [hbyte, mkey_glob, lastAt_hostBytes hi, Option.getD_some]
  · rw [mkey_glob] at hx
    rw [hbyte, lastAt_hostBytes_outside hx, Option.getD_none]

end Bar2

end Sys2Proof.Machine

namespace Sys2Proof

open Sys2Proof.Machine

/-- Settles O50: a write of each register reads back by its fields, the host's BAR0 makes the same writes, and its BAR2 reads and
writes the GLOB bytes that it may have. -/
theorem registerEvents : Obligations.RegisterEvents := by
  unfold Obligations.RegisterEvents
  intro s die v reads page hup
  refine ⟨?qdbase, ?qsigbase, ?_, ?_, ?_, ?_, ?jctl, ?ctl, ?reserved, ?malformed, ?fence, ?host⟩
  case qdbase =>
    refine ⟨_, (exec_qdbaseWrite die v s).trans (if_pos hup), rfl, rfl, readCtrl_qdbase_writeCtrl s die v⟩
  case qsigbase =>
    refine ⟨_, (exec_qsigbaseWrite die v s).trans (if_pos hup), rfl, rfl, ?_⟩
    exact readCtrl_qsigbase_writeCtrl s die v
  · exact readsAfter_controlRegisterWrite v hup rfl (by decide) rfl rfl rfl (readCtrl_qdbase_writeCtrl s die v)
  · exact readsAfter_controlRegisterWrite v hup rfl (by decide) rfl rfl rfl (readCtrl_qsigbase_writeCtrl s die v)
  · exact readsAfter_controlRegisterWrite v hup rfl (by decide) rfl rfl rfl (readCtrl_qidle_writeCtrl s die v)
  · exact readsAfter_controlRegisterWrite v hup rfl (by decide) rfl rfl rfl (readCtrl_savepool_writeCtrl s die v)
  case jctl =>
    rintro rfl
    exact readsAfter_controlRegisterWrite v hup rfl (by decide) rfl rfl rfl (readCtrl_jctl_writeCtrl s v)
  case ctl =>
    intro b hb
    exact readsAfter_controlRegisterWrite v hup (by omega) (by omega) (ctrlAt_ctl hb) rfl rfl (readCtrl_ctl_writeCtrl s die v b)
  case reserved =>
    intro off halign hoff hres
    refine ⟨?_, rfl⟩
    rw [Stays, exec_controlRegisterWrite_of_up v hup halign hoff, hres]
    rfl
  case malformed => exact fun off hbad => exec_controlRegisterWrite_malformed v hbad
  case fence =>
    rintro (_ | _)
    · exact readsAfter_controlRegisterWrite v hup rfl (by decide) rfl rfl rfl (readCtrl_fence_writeCtrl s die false v)
    · exact readsAfter_controlRegisterWrite v hup rfl (by decide) rfl rfl rfl (readCtrl_fence_writeCtrl s die true v)
  case host =>
    intro hserves hlink
    refine ⟨?window, ?malformedBar, ?record, ?glob⟩
    case window =>
      intro off hoff halign
      refine ⟨?_, ?_⟩
      · rw [exec_hostBarAccess_bar0 hserves hlink rfl, State.bar0_write v hup halign hoff,
          exec_controlRegisterWrite_of_up v hup halign hoff]
      · rw [DeviceBecomes, exec_hostBarAccess_bar0 hserves hlink rfl, State.bar0_read _ hup halign hoff]
        rfl
    case malformedBar =>
      intro off size hbad
      refine ⟨?_, ?_⟩
      · rw [Stays, exec_hostBarAccess_bar0 hserves hlink rfl, State.bar0_malformed s hbad]
        rfl
      · rw [DeviceBecomes, exec_hostBarAccess_bar0 hserves hlink rfl, State.bar0_malformed s hbad]
        rfl
    case record =>
      exact fun off w hoff hrec howed hhome => exec_hostBarAccess_inRecord hserves hlink w hoff hrec howed hhome
    case glob =>
      intro off size w hsize hend hbytes
      have hmay : ∀ i < size, s.hostMay (off + i) = true := fun i hi => (hbytes i hi).1
      have hready : ∀ i < size, s.ownerOwed (mkey .glob 0 (off + i)) = false ∧ homeDie (off + i) = 0 :=
        fun i hi => (hbytes i hi).2
      exact ⟨exec_hostBarAccess_read hserves hlink w hsize hend hmay hready,
        fun hs htaken => exec_hostBarAccess_write hserves hlink hs w hsize hend hmay hready htaken⟩

end Sys2Proof
end

section
/-! SUPPORT. The counterexample to the statement on queue events: memory that lists one byte twice, which no sound state has. -/

namespace Sys2Proof.Machine

/-- A mapped queue of die 0 without packets, last signalled at W 0. -/
def idleQueue : HwQueue := { q := 0, ring := 0, logsz := 4, prio := 0, ctx := 0, rd := 0, wr := 0, last := 0, lastW := 0 }

/-- The queue is mapped and its time is up; the byte of STATE in its descriptor, at GLOB address 21, is listed twice in memory. -/
def statusTwice : State :=
  { State.reset with
    mem := [(mkey .glob 0 21, 0), (mkey .glob 0 21, 7)]
    dev := { Device.reset with sched := { Device.reset.sched with slots := [idleQueue] } }
    wheel := 30000 }

theorem statusTwice_not_ok : ¬ statusTwice.Ok := by
  rintro ⟨hmem, -⟩
  exact absurd hmem (by decide)

theorem exec_queueIdleTimeout_statusTwice :
    exec (.queueIdleTimeout 0) statusTwice = .next (statusTwice.unmapQueue idleQueue) := rfl

/-- The first of the two entries goes, since a byte that is 0 is not listed, and the second is read. -/
theorem unmapQueue_statusTwice_byte : (statusTwice.unmapQueue idleQueue).byte (mkey .glob 0 21) = 7 := by decide +kernel

end Sys2Proof.Machine

namespace Sys2Proof

open Sys2Proof.Machine

/-- Refutes O47: the statement is about every state, not the sound ones alone. Where memory lists a byte twice, writing 0 to it takes the
first entry away and leaves the second, so the unmapped queue's STATE reads 7 and not 0. -/
theorem not_queueEvents : ¬ Obligations.QueueEvents := by
  unfold Obligations.QueueEvents
  intro h
  obtain ⟨-, -, -, -, hidle, -⟩ := h statusTwice
  obtain ⟨hunmap, -⟩ := hidle idleQueue [] [] rfl (by simp)
  obtain ⟨t, hexec, -, -, hdesc⟩ := hunmap rfl (by decide) (by decide)
  obtain rfl : statusTwice.unmapQueue idleQueue = t :=
    Host.Outcome.next.inj (exec_queueIdleTimeout_statusTwice.symm.trans hexec)
  have hstate : (statusTwice.unmapQueue idleQueue).byte (mkey .glob 0 21) = 0 :=
    (hdesc (by decide) (21, 0) (by decide) (by decide)).1 (by decide) (by decide)
  rw [unmapQueue_statusTwice_byte] at hstate
  exact absurd hstate (by decide)

end Sys2Proof
end

section
/-! SUPPORT. A core's step that makes an issue: which way its cycle goes where nothing is due (R33, R36, R63, R402), and where the
operations of the issue come from (R66 to R69). -/

namespace Sys2Proof.Machine

/-! ### The operations of an issue -/

theorem Core.stickyOp_source {c : Core} {placed : List (Slot × Instr)} {sl : Slot} {o : Op} (h : c.stickyOp placed sl = some o) :
    (o.slot, o.i) ∈ placed ∨ ∃ st, c.t.stand.get o.slot = some st ∧ o.i = st.step.op := by
  unfold Core.stickyOp at h
  split at h
  next k i hfind =>
    have hslot : k = sl := by
      have hp := List.find?_some hfind
      simp only [Bool.and_eq_true, decide_eq_true_eq] at hp
      exact hp.1
    split at h
    · cases h
    · obtain rfl := Option.some.inj h
      exact .inl (hslot ▸ List.mem_of_find?_eq_some hfind)
  next =>
    obtain ⟨st, hst, rfl⟩ := Option.map_eq_some_iff.mp h
    exact .inr ⟨st, hst, rfl⟩

theorem Core.issueOps_source {c : Core} {placed : List (Slot × Instr)} {rep : Nat} {o : Op} (h : o ∈ c.issueOps placed rep) :
    (o.slot, o.i) ∈ placed ∨ ∃ st, c.t.stand.get o.slot = some st ∧ o.i = st.step.op := by
  have honce : ∀ sl : Slot, (o ∈ if c.t.issue < rep then []
      else (placed.filter (fun e => decide (e.1 = sl))).map (fun e => ({ slot := sl, i := e.2, off := none } : Op))) →
      (o.slot, o.i) ∈ placed := by
    intro sl ho
    split at ho
    · cases ho
    · obtain ⟨e, he, rfl⟩ := List.mem_map.mp ho
      obtain ⟨hmem, hslot⟩ := List.mem_filter.mp he
      exact of_decide_eq_true hslot ▸ hmem
  rcases List.mem_append.mp h with h | hb
  · rcases List.mem_append.mp h with hs | hsticky
    · exact .inl (honce .s hs)
    · obtain ⟨sl, -, hop⟩ := List.mem_filterMap.mp hsticky
      exact Core.stickyOp_source hop
  · exact .inl (honce .b hb)

theorem State.bundleOps_source {s : State} {n : Nat} {b : Bundle} {ops : List Op} (h : s.bundleOps n b = .ok ops) {o : Op}
    (ho : o ∈ ops) :
    (∃ w, (o.slot, w) ∈ b.slots ∧ decodeSlot o.slot w = .ok o.i) ∨
      ∃ st, (s.core n).t.stand.get o.slot = some st ∧ o.i = st.step.op := by
  unfold State.bundleOps at h
  split at h
  · cases h
  · dsimp only at h
    split at h
    · cases h
    · next placed hplaced =>
      split at h
      · cases h
      · cases h
        exact (Core.issueOps_source ho).imp_left fun hmem => slotTrap_mem hplaced _ hmem

/-! ### The way of a core's cycle -/

theorem State.coreCycle_eq_boundary {s : State} {n : Nat} (hwork : (s.core n).atWork = true) (hmode : (s.core n).mode = .running)
    (hpre : (s.core n).preempt = false) (hyield : (s.core n).yielding = false) (hdef : (s.core n).deferred = [])
    (hdelay : (s.core n).delay = 0) : s.coreCycle n = s.boundary n := by
  have hstops : s.stopsHere n = false := by simp [State.stopsHere, hpre, hyield]
  simp [State.coreCycle, hwork, hmode, hstops, hdef, hdelay]

theorem step_eq_boundary {s : State} {n : Nat} {rest : List Turn} (hag : s.agenda = .core n :: rest) (hn : n < 768)
    (hwork : (s.core n).atWork = true) (hmode : (s.core n).mode = .running) (hpre : (s.core n).preempt = false)
    (hyield : (s.core n).yielding = false) (hdef : (s.core n).deferred = []) (hdelay : (s.core n).delay = 0) :
    step s = .next ({ s with agenda := rest }.boundary n) := by
  have hcycle : { s with agenda := rest }.coreCycle n = { s with agenda := rest }.boundary n :=
    State.coreCycle_eq_boundary hwork hmode hpre hyield hdef hdelay
  rw [step_of_agenda hag, ← hcycle]
  exact if_pos hn

theorem State.boundary_eq_runCycle {s : State} {n : Nat} (hfrozen : (s.core n).frozen = false)
    (hent : ((s.settle n).core n).entering = none) (hdue : (s.settle n).takeDue n = none)
    (hmode : ((s.settle n).core n).mode = .running) : s.boundary n = (s.settle n).runCycle n := by
  simp [State.boundary, hfrozen, hent, hdue, hmode]

theorem State.runCycle_eq_issueCycle {s : State} {n : Nat} (hdrain : (s.core n).tretDrain = none) (hstall : (s.core n).stall = 0)
    (hstep : (s.core n).sstep = false ∨ (s.core n).bank ≠ none) (hbar : (s.core n).m.bar = []) :
    s.runCycle n = s.issueCycle n := by
  have hwait : ¬ ((s.core n).sstep = true ∧ (s.core n).bank.isNone = true) := by
    rintro ⟨hs, hb⟩
    rcases hstep with h | h
    · simp [h] at hs
    · exact h (Option.isNone_iff_eq_none.mp hb)
  simp only [State.runCycle, hdrain, hstall, hbar, hwait]
  rfl

theorem State.fetchFault_of_present {s : State} {n a : Nat} (sl : Slot) (h : s.absent n a = none) : s.fetchFault n a sl = none := by
  simp [State.fetchFault, h]

theorem State.fetchSeg_of_present {s : State} {n a : Nat} (h : s.absent n a = none) : s.fetchSeg n a = (s, false) := by
  simp [State.fetchSeg, h]

theorem State.issueCycle_eq_tryIssue {s : State} {n : Nat} {b : Bundle} {ops : List Op}
    (hcode : s.codeKnown n (s.core n).k.pc.toNat = true) (habs : s.absent n (s.core n).k.pc.toNat = none)
    (hline : s.lineTrap n = none) (hb : s.bundleAt n (s.core n).k.pc.toNat = some b) (hops : s.bundleOps n b = .ok ops) :
    s.issueCycle n = s.tryIssue n b ops := by
  simp [State.issueCycle, hcode, State.fetchFault_of_present _ habs, State.fetchSeg_of_present habs, hline, hb, hops]

/-! ### The issue -/

/-- The issue holds two SC operations. -/
def twoSc (ops : List Op) : Bool := decide (1 < ops.countP (fun o => Instr.isSc o.i))

/-- The state in which the operations of core n's issue begin: the issue is open, and its SC operations have their positions of W. -/
def State.issueStart (s : State) (n : Nat) (b : Bundle) (ops : List Op) : State :=
  (s.openIssue n (bundleHead b).rep).setCore n { s.core n with m := { (s.core n).m with
    scRank := if twoSc ops then (s.core n).m.scHeld else s.scRankNow (s.core n)
    scHeld := if twoSc ops then s.scRankNow (s.core n) else none } }

/-- No operation of the issue stalls it or waits for its literal, and no counter is full (R402, phase 1). -/
structure State.IssueReady (s : State) (n : Nat) (b : Bundle) (ops : List Op) : Prop where
  stalls : ∀ o ∈ ops, (s.openIssue n (bundleHead b).rep).stallsOp o = false
  banked : ∀ o ∈ ops, (s.openIssue n (bundleHead b).rep).onBanked ops o = false
  spad : (s.openIssue n (bundleHead b).rep).spadWaits ops = false
  literal : s.literalUnknown n ops = false
  segment : s.literalWaits n ops = false
  counters : (s.openIssue n (bundleHead b).rep).countersFull ops = false

/-- The issue waits for nothing that its bundle asks for, and each SC operation has its position of W (R402, phase 3). -/
structure State.IssueFree (s : State) (n : Nat) (b : Bundle) (ops : List Op) : Prop where
  wait : (s.core n).waitHolds b = false
  position : s.scRankNow (s.core n) = none → ∀ o ∈ ops, Instr.isSc o.i = false
  barrier : ∀ o ∈ ops, s.opHolds n o = false
  second : twoSc ops = true → (s.core n).m.scHeld ≠ none

theorem State.targetUnknown_ok {s s3 : State} {n : Nat} {comp : Option Trap}
    (h : ∀ a, s3.iss.xfer = some a → s.codeKnown n a.toNat = true) : s.targetUnknown n (.ok (s3, comp)) = false := by
  cases hx : s3.iss.xfer with
  | none => simp [State.targetUnknown, hx]
  | some a => simp [State.targetUnknown, hx, h a hx]

theorem State.tryIssue_eq_commit {s s2 s3 : State} {n : Nat} {b : Bundle} {ops : List Op} (hready : s.IssueReady n b ops)
    (hisop : ∀ o ∈ ops, Instr.isOp o.i = true) (hruns : Runs ops (s.issueStart n b ops) s2)
    (hclose : if (bundleHead b).rep ≤ (s.core n).t.issue then s2.closeBundle = .ok s3 else s3 = s2)
    (htarget : ∀ a, s3.iss.xfer = some a → s.codeKnown n a.toNat = true) (hfree : s.IssueFree n b ops) :
    s.tryIssue n b ops = s.commit n b ops ((s.core n).idleSlots b) s3 none := by
  obtain ⟨hstalls, hbanked, hspad, hlit, hseg, hfull⟩ := hready
  obtain ⟨hwait, hpos, hbar, hsecond⟩ := hfree
  have hnostall : ops.any (s.openIssue n (bundleHead b).rep).stallsOp = false := List.any_eq_false.mpr fun o ho => by simp [hstalls o ho]
  have hnobank : ops.find? ((s.openIssue n (bundleHead b).rep).onBanked ops) = none :=
    List.find?_eq_none.mpr fun o ho => by simp [hbanked o ho]
  have hrun : State.runOps ops (s.issueStart n b ops) none = .ok (s2, none) := runOps_of_runs hruns hisop
  have hend : (if decide ((bundleHead b).rep ≤ (s.core n).t.issue) = true then s2.closeBundle else .ok s2) = .ok s3 := by
    by_cases hlast : (bundleHead b).rep ≤ (s.core n).t.issue
    · simpa [hlast] using hclose
    · simpa [hlast, eq_comm] using hclose
  have hsc : (ops.any (fun o => Instr.isSc o.i) && (s.scRankNow (s.core n)).isNone) = false := by
    cases hr : s.scRankNow (s.core n) with
    | none => simpa using hpos hr
    | some w => simp
  have hnobar : ops.any (s.opHolds n) = false := List.any_eq_false.mpr fun o ho => by simp [hbar o ho]
  have hboth : ¬ (twoSc ops = true ∧ (s.core n).m.scHeld = none) := fun h => hsecond h.1 h.2
  unfold State.issueStart twoSc at hrun
  unfold twoSc at hboth
  unfold State.tryIssue
  simp only [hnostall, hspad, hlit, hseg, hnobank, hfull, hrun, hend, State.targetUnknown_ok htarget, hwait, hsc, hnobar, hboth,
    Bool.or_self, Bool.false_eq_true, if_false]

end Sys2Proof.Machine

namespace Sys2Proof

open Sys2Proof.Machine

/-- Settles O37: nothing that is due takes the cycle, so it comes to the issue, whose operations run as `exec` carries them out. -/
theorem stepRunsBundle : Obligations.StepRunsBundle := by
  unfold Obligations.StepRunsBundle
  intro s0 s n rest b ops s2 s3 hag hn hwork hmode hpre hyield hdef hdelay hfrozen hs c rank open_ two start hent hdue hmode' hdrain
    hstall hstep hbar habs hline hb hops hisop hstalls hspad hcode hlit hseg hfull hruns hclose htarget hwait hpos hbarrier hsecond
  have hready : s.IssueReady n b ops :=
    ⟨fun o ho => (hstalls o ho).1, fun o ho => (hstalls o ho).2, hspad, hlit, hseg, hfull⟩
  have hrun : { s0 with agenda := rest }.boundary n = s.runCycle n := by
    subst hs
    exact State.boundary_eq_runCycle hfrozen hent hdue hmode'
  refine ⟨?_, fun o ho => State.bundleOps_source hops ho⟩
  rw [step_eq_boundary hag hn hwork hmode hpre hyield hdef hdelay, hrun,
    State.runCycle_eq_issueCycle hdrain hstall hstep hbar, State.issueCycle_eq_tryIssue hcode habs hline hb hops,
    State.tryIssue_eq_commit hready hisop hruns hclose htarget ⟨hwait, hpos, hbarrier, hsecond⟩]

end Sys2Proof
end

section
/-! SUPPORT. The counterexample to the statement on launches: two launches of one number, which numbers given out in rising order rule out
(log 7) and a sound state allows. -/

namespace Sys2Proof.Machine

/-- A launch of one index, which die 0 has claimed and not started; its entry is 136. -/
def claimedLaunch : Launch :=
  { id := 0, packet := 0, lid := 0, ctx := 0, prio := 0, codebase := 0, codelim := 384, entry := 136, mpc := 264, nidx := 1, logn := 0
    cpol := 0, levels := [], dies := [0], accepted := [0], args := List.replicate 5 0, htab := [], hbad := 0, next := 1, returned := []
    claims := [(0, [0])], blocked := [], again := [], live := 0, dead := [], groups := [], begun := false, pkgFirst := 0, pkgs := 1
    awayAccepted := [], awayIssued := [], backed := [], away := [], awayEnded := [], granted := 0, awaySteps := [], reports := []
    answered := [], pending := [], mirrors := [], mirrorNext := 0, ending := [], unacked := [] }

/-- A second launch of the same number, at another entry, whose die was without a free core until now. -/
def unblockedTwin : Launch := { claimedLaunch with entry := 264, blocked := [(0, 0)] }

/-- From reset: die 0 has booted and has a pool of save records, and the two launches stand in the list. -/
def twinLaunches : State :=
  { State.reset with
    dev := { Device.reset with
      boot := [(0, .ready)]
      sched := { Device.reset.sched with
        launches := [claimedLaunch, unblockedTwin], savepool := [(0, BitVec.ofNat 64 (2 ^ 52 * 4 + 2 ^ 21 * 16))] } } }

theorem twinLaunches_ok : twinLaunches.Ok :=
  ⟨rfl, rfl, rfl, rfl, (fun e he => nomatch (show e ∈ ([] : List (Nat × Core)) from he)),
    (fun v hv => nomatch (show v ∈ ([] : List Saved) from hv))⟩

theorem accepts_twinLaunches : twinLaunches.accepts 0 = true := by decide +kernel

theorem candidates_twinLaunches : twinLaunches.candidates 0 = [(claimedLaunch, [0])] := by decide +kernel

theorem plan_twinLaunches :
    Launch.plan (twinLaunches.scope.filter (twinLaunches.coreFree claimedLaunch.ctx)) [0] claimedLaunch [] = some [(0, 0)] := by
  decide +kernel

theorem seatReady_twinLaunches : (twinLaunches.seatTask claimedLaunch 0 0 0 0).seatReady 0 = true := by decide +kernel

theorem exec_scheduleReadyTask_twinLaunches :
    exec (.scheduleReadyTask 0) twinLaunches = .next (twinLaunches.serve (twinLaunches.candidates 0) []) :=
  (exec_scheduleReadyTask 0 twinLaunches).trans (if_pos accepts_twinLaunches)

/-- Noting the end of the twin's span without a free core puts the twin at both places of the list, so the task starts from it. -/
theorem serve_twinLaunches_pc :
    ((twinLaunches.serve (twinLaunches.candidates 0) []).core 0).k.pc = unblockedTwin.entry := by decide +kernel

end Sys2Proof.Machine

namespace Sys2Proof

open Sys2Proof.Machine

/-- Refutes O46: the statement is about every sound state, and soundness does not ask that the launches have numbers of their own. Where
two have one number, the scheduler plans by the first and starts the task from the second, whose entry is another. -/
theorem not_launchEvents : ¬ Obligations.LaunchEvents := by
  unfold Obligations.LaunchEvents
  intro h
  obtain ⟨-, hstart, -⟩ := h twinLaunches twinLaunches_ok
  obtain ⟨s', t, hexec, -, -, -, -, -, -, -, hpc, -⟩ :=
    hstart 0 claimedLaunch 0 0 [] 0 0 accepts_twinLaunches candidates_twinLaunches rfl plan_twinLaunches
      (fun v hv => nomatch (show v ∈ ([] : List Saved) from hv)) rfl (by decide +kernel) (by decide +kernel) seatReady_twinLaunches
  obtain rfl : twinLaunches.serve (twinLaunches.candidates 0) [] = s' :=
    Host.Outcome.next.inj (exec_scheduleReadyTask_twinLaunches.symm.trans hexec)
  exact absurd (serve_twinLaunches_pc.symm.trans hpc) (by decide)

end Sys2Proof
end

section
/-! SUPPORT. The Zicsr forms and the writes of CSRs at their boundary (R50, R51, R117). -/

namespace Sys2Proof.Machine

open Host (Outcome)

/-! ### The Zicsr forms -/

section Zicsr

variable {i : Instr} {num : BitVec 12} {rd : XReg} {op : CsrOp} {writes : Bool} {src : Core → DWord} {s : State}

/-- A Zicsr form on a CSR that it may access: the old value to rd, and its write, where it makes one. -/
theorem csrOp_legal (hc : Clean s i) (hl : csrLegal num writes = true) :
    csrOp i num rd op writes src s = .next (s.setCur
      (if writes then (s.cur.push (mkPend .s 1 (.x rd (s.cur.csr num)))).push (mkPend .s 1 (csrPend num op (src s.cur)))
        else s.cur.push (mkPend .s 1 (.x rd (s.cur.csr num))))) := by
  unfold csrOp
  exact slotOp_clean hc (by simp only [hl, if_true]; rfl)

theorem csrOp_illegal (hc : Clean s i) (hl : csrLegal num writes = false) :
    csrOp i num rd op writes src s = .next (s.raise (mkTrap 0x01 ((encode i).getD 0) s.iss.slot s.cur)) := by
  unfold csrOp
  exact slotOp_fail (e := ⟨0x01, (encode i).getD 0⟩) hc (by simp [hl])

end Zicsr

/-! ### A CSR's write at its boundary -/

/-- A field of k bits written under a mask holds the low bits of the CSR's new value. -/
theorem merge_fld_zero {k : Nat} (hk : k ≤ 64) (mask val : DWord) (old : BitVec k) :
    merge (fld mask 0 k) (fld val 0 k) old = fld ((old.setWidth 64 &&& ~~~ mask) ||| (val &&& mask)) 0 k := by
  apply BitVec.eq_of_getLsbD_eq
  intro j hj
  have hj64 : j < 64 := by omega
  cases hm : mask.getLsbD j <;> simp_all [merge, fld]

/-- The low bits of a CSR's new value, as the CSR reads. -/
theorem setWidth_merge_fld {k : Nat} (hk : k ≤ 64) (mask val : DWord) (old : BitVec k) :
    (merge (fld mask 0 k) (fld val 0 k) old).setWidth 64 =
      ((old.setWidth 64 &&& ~~~ mask) ||| (val &&& mask)) &&& BitVec.ofNat 64 (2 ^ k - 1) := by
  rw [merge_fld_zero hk, setWidth_fld_zero hk]

/-- The same where reserved bits read zero. -/
theorem setWidth_merge_fld_and {k : Nat} (hk : k ≤ 64) (mask val : DWord) (old legal : BitVec k) :
    (merge (fld mask 0 k) (fld val 0 k) old &&& legal).setWidth 64 =
      ((old.setWidth 64 &&& ~~~ mask) ||| (val &&& mask)) &&& (BitVec.ofNat 64 (2 ^ k - 1) &&& legal.setWidth 64) := by
  rw [BitVec.setWidth_and, setWidth_merge_fld hk, BitVec.and_assoc]

/-- RMAX, held to 16, as it reads. -/
theorem setWidth_rmax (mask val : DWord) (old : BitVec 5) :
    let field := merge (fld mask 0 5) (fld val 0 5) old
    let new := (old.setWidth 64 &&& ~~~ mask) ||| (val &&& mask)
    (if 16 < field.toNat then 16 else field).setWidth 64 = if 16 < new.toNat % 32 then 16 else new &&& 0x1F := by
  intro field new
  have hfield : field = fld new 0 5 := merge_fld_zero (by decide) mask val old
  have hlow : field.toNat = new.toNat % 32 := by simp [hfield]
  rw [hlow, hfield]
  split
  · rfl
  · exact setWidth_fld_zero (by decide) new

theorem setWidth_append_ten (low : BitVec 30) : (10#4 ++ low).setWidth 64 = low.setWidth 64 ||| 0x280000000 := by
  have happend : (10#4 ++ low).toNat = 10 <<< 30 ||| low.toNat := BitVec.toNat_append _ _
  have hlow : low.toNat < 2 ^ 30 := low.isLt
  have hsum : 10 <<< 30 ||| low.toNat = 10 * 2 ^ 30 + low.toNat := (Nat.shiftLeft_add_eq_or_of_lt hlow 10).symm
  apply BitVec.eq_of_toNat_eq
  rw [BitVec.toNat_setWidth, BitVec.toNat_or, BitVec.toNat_setWidth, Nat.mod_eq_of_lt (a := low.toNat) (by omega), Nat.or_comm low.toNat,
    happend, hsum, Nat.mod_eq_of_lt (by omega), ← hsum]
  rfl

/-- RSEQ, with its COUNT held to 10, as it reads. -/
theorem setWidth_rseq (mask val : DWord) (old : BitVec 34) :
    let field := merge (fld mask 0 34) (fld val 0 34) old
    let new := (old.setWidth 64 &&& ~~~ mask) ||| (val &&& mask)
    (if 10 < (fld field 30 4).toNat then 10#4 ++ fld field 0 30 else field).setWidth 64 =
      if 10 < new.toNat / 2 ^ 30 % 16 then (new &&& 0x3FFFFFFF) ||| 0x280000000 else new &&& 0x3FFFFFFFF := by
  intro field new
  have hfield : field = fld new 0 34 := merge_fld_zero (by decide) mask val old
  have hcount : (fld field 30 4).toNat = new.toNat / 2 ^ 30 % 16 := by
    simp only [hfield, BitVec.extractLsb'_toNat, Nat.shiftRight_eq_div_pow]; omega
  have hlow : fld field 0 30 = fld new 0 30 := by
    apply BitVec.eq_of_toNat_eq
    simp only [hfield, BitVec.extractLsb'_toNat, Nat.shiftRight_zero]; omega
  rw [hcount]
  split
  · rw [hlow, ← show (fld new 0 30).setWidth 64 = new &&& 0x3FFFFFFF from setWidth_fld_zero (by decide) new]
    exact setWidth_append_ten _
  · rw [hfield]; exact setWidth_fld_zero (by decide) new

theorem merge_eq_or (mask val old : DWord) : merge mask val old = (old &&& ~~~ mask) ||| (val &&& mask) := BitVec.or_comm _ _

theorem csr_applyCsr_legalise {c : Core} {w : CsrWrite} (h : w.num ∈ csrPlain) :
    (c.applyCsr w).csr w.num = csrLegalise w.num ((c.csr w.num &&& ~~~ w.mask) ||| (w.val &&& w.mask)) := by
  obtain ⟨num, mask, val, clear⟩ := w
  simp only [csrPlain, List.mem_cons, List.not_mem_nil, or_false] at h
  rcases h with rfl | rfl | rfl | rfl | rfl | rfl | rfl | rfl | rfl | rfl | rfl | rfl | rfl
  · exact setWidth_merge_fld (by decide) mask val c.c.rot
  · exact merge_eq_or mask val c.c.tol
  · exact merge_eq_or mask val c.c.tolabs
  · exact setWidth_rmax mask val c.c.rmax
  · exact setWidth_rseq mask val c.c.rseq
  · exact setWidth_merge_fld_and (by decide) mask val c.c.mpc (~~~ 3)
  · exact setWidth_merge_fld_and (by decide) mask val c.c.tvec (~~~ 0x7E)
  · exact setWidth_merge_fld (by decide) mask val c.tr.cause
  · exact setWidth_merge_fld (by decide) mask val c.tr.pc
  · exact merge_eq_or mask val c.tr.val
  · exact setWidth_merge_fld_and (by decide) mask val c.tr.slot 0xF07
  · exact setWidth_merge_fld (by decide) mask val c.tr.elem
  · exact congrArg (· &&& _) (merge_eq_or mask val c.tr.loop)

theorem csr_applyCsr_other (c : Core) (w : CsrWrite) {k : BitVec 12} (h : k ≠ w.num) : (c.applyCsr w).csr k = c.csr k := by
  have hne : k.toNat ≠ w.num.toNat := fun he => h (BitVec.eq_of_toNat_eq he)
  unfold Core.applyCsr
  split
  case h_16 => rfl
  all_goals
    rename_i hw
    rw [hw] at hne
    unfold Core.csr
    split <;> first | rfl | contradiction

theorem core_applyWrite_csr (n : Nat) (w : CsrWrite) (s : State) : (applyWrite n (.csr w) s).core n = (s.core n).applyCsr w :=
  State.core_setCore_same _ _ _

/-- A CSR's write leaves all of the core but its CSRs. -/
theorem Core.applyCsr_eq (c : Core) (w : CsrWrite) :
    c.applyCsr w = { c with c := (c.applyCsr w).c, tr := (c.applyCsr w).tr } := by
  unfold Core.applyCsr
  split <;> rfl

theorem applyCsr_flags {c : Core} {w : CsrWrite} (h : w.num = 0x801) :
    (c.applyCsr w).c.flags = c.c.flags &&& ~~~ fld w.clear 8 5 := by
  unfold Core.applyCsr; rw [h]; rfl

theorem applyCsr_narrow {c : Core} {w : CsrWrite} (h : w.num = 0x810) :
    (c.applyCsr w).c.narrow = (c.c.narrow && !bit w.clear 0) := by
  unfold Core.applyCsr; rw [h]; rfl

/-! ### Reset -/

theorem reset_ok : State.reset.Ok :=
  ⟨rfl, rfl, rfl, rfl, List.forall_mem_nil _, List.forall_mem_nil _⟩

theorem reg_reset (o : Nat) : McBank.reset.reg o = if o = 32 then 7 else if o = 40 then 0x03E80100 else 0 := by
  by_cases hctl : o = 32
  · subst hctl; rfl
  by_cases hthresh : o = 40
  · subst hthresh; rfl
  simp [McBank.reg, McBank.reset, hctl, hthresh]

/-- No job runs and no limit is written, so WPELIM reads its default. -/
theorem readCtrl_wpelim_reset (die : Nat) : State.reset.readCtrl die .wpelim = 100000 := by
  have hlimit : State.reset.wearLimit die = 100000 := rfl
  show State.reset.wpelim die = 100000
  rw [State.wpelim, hlimit]
  show 0#32 ++ BitVec.ofBool false ++ 0#7 ++ BitVec.ofNat 24 100000 = (100000 : DWord)
  decide

end Sys2Proof.Machine

namespace Sys2Proof

open Sys2Proof.Machine

/-- Settles O4: the six forms are one operation, which differs by the write that it leaves. -/
theorem csrAccess : Obligations.CsrAccess := by
  unfold Obligations.CsrAccess
  intro s f g acts x u ones
  have hacts {i : Instr} {num : BitVec 12} {rd : XReg} {op : CsrOp} {writes : Bool} {src : Core → DWord} {mask val clear : DWord}
      (he : exec i s = csrOp i num rd op writes src s)
      (hw : csrPend num op (src s.cur) = .csr { num := num, mask := mask, val := val, clear := clear }) :
      acts i num rd writes mask val clear :=
    fun hc => ⟨fun hl => by rw [he, csrOp_legal hc hl, hw], fun hl => he.trans (csrOp_illegal hc hl)⟩
  exact ⟨hacts (exec_csrrw f s) rfl, hacts (exec_csrrs f s) rfl, hacts (exec_csrrc f s) rfl, hacts (exec_csrrwi g s) rfl,
    hacts (exec_csrrsi g s) rfl, hacts (exec_csrrci g s) rfl⟩

/-- Settles O33: a write reaches the one CSR that it names, whose field keeps its legal bits. -/
theorem csrWrites : Obligations.CsrWrites := by
  unfold Obligations.CsrWrites
  intro s n w c t c'
  have hcore : c' = c.applyCsr w := core_applyWrite_csr n w s
  clear_value c'
  subst hcore
  exact ⟨csr_applyCsr_legalise, applyCsr_flags, applyCsr_narrow, fun k hk => csr_applyCsr_other c w hk,
    rfl, rfl, rfl, rfl, rfl, rfl, rfl, rfl, rfl, (core_applyWrite_csr n w s).trans (Core.applyCsr_eq c w),
    fun m hm => State.core_setCore_other s _ hm⟩

/-- Settles O56: no table of the reset state lists anything, so each register reads the default of its table. -/
theorem resetState : Obligations.ResetState := by
  unfold Obligations.ResetState
  exact ⟨reset_ok, rfl, rfl, rfl, rfl, fun n => ⟨rfl, rfl, rfl, rfl, rfl, rfl, rfl, rfl, rfl⟩, fun _ _ o => reg_reset o,
    fun die => ⟨rfl, readCtrl_wpelim_reset die, rfl⟩, rfl, rfl, fun _ => rfl⟩

end Sys2Proof
end

section
/-! SUPPORT. The shape of an M-slot operation, its checks in order and then its effect (R45, R81, R198), and the tile moves (R193, R194,
R210). -/

namespace Sys2Proof.Machine

/-! ### Checks in order -/

/-- Checks of a statement as the model runs them: the first that fails ends the operation. -/
def passes : List (BitVec 8 × DWord × Bool) → Except Fail Unit
  | [] => .ok ()
  | (cause, tval, fails) :: rest => if fails then .error ⟨cause, tval⟩ else passes rest

theorem passes_cons_bind {α : Type} (check : BitVec 8 × DWord × Bool) (rest : List (BitVec 8 × DWord × Bool))
    (k : Unit → Except Fail α) : (passes (check :: rest) >>= k) = passes [check] >>= fun _ => passes rest >>= k := by
  obtain ⟨cause, tval, fails⟩ := check
  cases fails <;> rfl

theorem zeroLit_eq_passes (s : State) : zeroLit s.literal = passes [s.noParticulars] := by
  by_cases h : s.literal = 0 <;> simp [zeroLit, passes, State.noParticulars, h]

theorem needRank_eq_passes (c : Core) (r : Nat) : needRank c r = passes [c.overRank r] := by
  by_cases h : r ≤ c.c.rmax.toNat <;> simp [needRank, passes, Core.overRank, h]

theorem needPanels_eq_passes (c : Core) (md : MReg) (src : Bool) (n : Nat) : needPanels c md src n = passes [c.noPanels md src n] := by
  by_cases h : n ≤ c.freePanels.length + (if src then 0 else (c.tile md).occ) <;>
    simp [needPanels, passes, Core.noPanels, h, Nat.lt_of_not_le]

/-- The first check that fails is the trap; where none does, what follows the checks is done. -/
theorem passes_eq_find (checks : List (BitVec 8 × DWord × Bool)) :
    passes checks = match checks.find? (fun k => k.2.2) with
      | some (cause, tval, _) => .error ⟨cause, tval⟩
      | none => .ok () := by
  induction checks with
  | nil => rfl
  | cons check rest ih =>
    obtain ⟨cause, tval, fails⟩ := check
    cases fails
    · exact ih
    · rfl

/-! ### The literal stream -/

theorem State.setCur_setCur (s : State) (c d : Core) : (s.setCur c).setCur d = s.setCur d := by
  have hinsert (l : List (Nat × Core)) (n : Nat) : insertAt (insertAt l n c) n d = insertAt l n d := by
    induction l with
    | nil => simp [insertAt]
    | cons e t ih =>
      obtain ⟨k, b⟩ := e
      by_cases hlt : n < k
      · simp [insertAt, hlt]
      by_cases heq : n = k <;> simp [insertAt, hlt, heq, ih]
  exact congrArg (fun cores => { s with cores := cores }) (hinsert _ _)

theorem mpcNext_eq_add (mpc : BitVec 48) : mpcNext mpc = mpc + if mpc.toNat % 128 / 4 = 31 then 12 else 4 := by
  have hword : (fld mpc 2 5 == 31) = decide (mpc.toNat % 128 / 4 = 31) := by
    rw [Bool.eq_iff_iff, beq_iff_eq, decide_eq_true_iff, ← BitVec.toNat_inj, BitVec.extractLsb'_toNat, Nat.shiftRight_eq_div_pow]
    simp only [BitVec.reduceToNat]
    omega
  rw [mpcNext, hword]
  by_cases h : mpc.toNat % 128 / 4 = 31 <;> simp [h]

/-- What an M-slot operation leaves where its checks have passed (R79). -/
theorem matGives_of_exec {s t : State} {i : Instr} {c : Core} (he : exec i s = .next (s.literalUsed t)) (ht : t = s.setCur c) :
    MatGives s i c := by
  subst ht
  rw [State.literalUsed, State.cur_setCur, State.setCur_setCur, mpcNext_eq_add] at he
  exact he

theorem matGives_self {s : State} {i : Instr} (he : exec i s = .next (s.literalUsed s)) : MatGives s i s.cur := by
  rw [State.literalUsed, mpcNext_eq_add] at he
  exact he

/-! ### The shape -/

/-- An M-slot operation whose own part is its checks and then an effect that cannot fail. -/
theorem matActs_of {s t : State} {i : Instr} {marks : Core → Word → List Holder} {k : State → Core → Word → Except Fail State}
    {checks : List (BitVec 8 × DWord × Bool)} {lines : List (OSlot × Nat)} {effect : Prop} (he : exec i s = matOpL i s marks k)
    (hmarks : marks s.cur s.literal = rowMarks s.cur lines) (hk : k s s.cur s.literal = passes checks >>= fun _ => .ok t)
    (heffect : exec i s = .next (s.literalUsed t) → effect) : MatActs s i checks lines effect := by
  rintro ⟨hclean, hmpc, hoverlay⟩
  have hrun := he
  simp only [matOpL, hclean, hmpc, hoverlay, hk, hmarks, passes_eq_find] at hrun
  cases hfind : checks.find? (fun k => k.2.2) with
  | some check =>
    obtain ⟨cause, tval, fails⟩ := check
    simp only [hfind] at hrun ⊢
    exact hrun
  | none =>
    simp only [hfind] at hrun ⊢
    cases hrows : rowMarks s.cur lines with
    | cons h rest => rw [hrows] at hrun; exact hrun
    | nil => rw [hrows] at hrun; exact heffect hrun

/-- The same of one that reads no slot line. -/
theorem matActs_of_matOp {s t : State} {i : Instr} {k : State → Core → Word → Except Fail State}
    {checks : List (BitVec 8 × DWord × Bool)} {effect : Prop} (he : exec i s = matOp i s k)
    (hk : k s s.cur s.literal = passes checks >>= fun _ => .ok t) (heffect : exec i s = .next (s.literalUsed t) → effect) :
    MatActs s i checks [] effect :=
  matActs_of he rfl hk heffect

theorem matActs_gives {s : State} {i : Instr} {k : State → Core → Word → Except Fail State} {c : Core}
    {checks : List (BitVec 8 × DWord × Bool)} (he : exec i s = matOp i s k)
    (hk : k s s.cur s.literal = passes checks >>= fun _ => .ok (s.setCur c)) : MatActs s i checks [] (MatGives s i c) :=
  matActs_of_matOp he hk fun h => matGives_of_exec h rfl

/-! ### Rows and ranks -/

/-- The check that MRD and MWR make of the tile's kind. -/
theorem lowRank_check {c : Core} (md : MReg) {α : Type} (k : Except Fail α) :
    (if (c.tile md).kind = .lowRank then .error (kindFail c md) else k) =
      passes [(0x44, BitVec.ofNat 64 (md.toNat * 256 + 2), (c.tile md).kind == .lowRank)] >>= fun _ => k := by
  by_cases h : (c.tile md).kind = .lowRank
  · simp only [h, if_true, kindFail, beq_self_eq_true]; rfl
  · rw [if_neg h, beq_false_of_ne h]; rfl

/-- Element j of a row of a tile. -/
theorem elemOf_tileRow (t : Tile) (row : BitVec 6) {j : Nat} (hj : j < 16) :
    elemOf 64 (t.row row.toNat).toNat j = (t.elems.getD (16 * row.toNat + j) 0).toNat := by
  have hlt : (t.elems.getD (16 * row.toNat + j) 0).toNat < 2 ^ 64 := (t.elems.getD _ 0).isLt
  apply Nat.eq_of_testBit_eq
  intro i
  rw [elemOf_testBit, Tile.row, elemsVec]
  by_cases hi : i < 64
  · rw [← BitVec.getLsbD, packVec_getLsbD (by decide) _ (by omega), show (64 * j + i) / 64 = j by omega,
      show (64 * j + i) % 64 = i by omega, List.getD_eq_getElem?_getD,
      List.getD_eq_getElem?_getD, List.getElem?_map, List.getElem?_take_of_lt hj, List.getElem?_drop]
    cases t.elems[16 * row.toNat + j]? <;> simp [hi]
  · rw [Nat.testBit_lt_two_pow (hlt.trans_le (Nat.pow_le_pow_right (by decide) (by omega)))]
    simp [hi]

theorem toNat_append_add {n m : Nat} (a : BitVec n) (b : BitVec m) : (a ++ b).toNat = a.toNat * 2 ^ m + b.toNat := by
  rw [BitVec.toNat_append, ← Nat.shiftLeft_add_eq_or_of_lt b.isLt, Nat.shiftLeft_eq]

theorem rankWord_eq_ofNat (c : Core) (t : Tile) :
    rankWord c t = BitVec.ofNat 64 (c.freePanels.length * 2 ^ 32 + t.occ % 1024 * 2 ^ 12 + kindNo t.kind * 2 ^ 8 + t.rankOf % 32) := by
  have hfree : c.freePanels.length ≤ 256 := by
    simpa [Core.freePanels] using List.length_filter_le _ (List.range 256)
  have hkind : (kindCode t.kind).toNat = kindNo t.kind := by cases t.kind <;> rfl
  have hkindlt : kindNo t.kind < 8 := hkind ▸ (kindCode t.kind).isLt
  apply BitVec.eq_of_toNat_eq
  simp only [rankWord, toNat_append_add, BitVec.toNat_ofNat, hkind]
  omega

end Sys2Proof.Machine

namespace Sys2Proof

open Sys2Proof.Machine

/-- Settles O27: each tile move is its checks in order and then one result. -/
theorem tileMoves : Obligations.TileMoves := by
  unfold Obligations.TileMoves
  intro s z m r k c put n t q u
  refine ⟨?_, ?_, ?_, ?_, ?_⟩
  · obtain ⟨md, kind⟩ := z
    cases kind <;>
      exact matActs_gives (exec_mzero _ s) (by rw [passes_cons_bind, ← zeroLit_eq_passes, ← needPanels_eq_passes]; rfl)
  · by_cases hself : m.md = m.ms1
    · rw [if_pos hself, if_pos hself]
      exact matActs_of_matOp (t := s) (exec_mmov m s) (by rw [← zeroLit_eq_passes]; simp only [if_pos hself]) matGives_self
    · rw [if_neg hself, if_neg hself]
      refine matActs_gives (exec_mmov m s) ?_
      rw [passes_cons_bind, passes_cons_bind (s.cur.overRank _), ← zeroLit_eq_passes, ← needRank_eq_passes, ← needPanels_eq_passes]
      simp only [if_neg hself]
      rfl
  · refine matActs_of_matOp (t := s.setCur (put 4 (.v (c.pv r.v) (BitVec.allOnes 1024) (q.row r.row.toNat)))) (exec_mrd r s) ?_
      fun h => ⟨_, fun j hj => elemOf_tileRow q r.row hj, matGives_of_exec h rfl⟩
    rw [passes_cons_bind, ← lowRank_check, ← zeroLit_eq_passes]
    rfl
  · refine matActs_gives (exec_mwr r s) ?_
    rw [passes_cons_bind, passes_cons_bind (_, _, q.kind == .lowRank), ← lowRank_check, ← zeroLit_eq_passes]
    by_cases hempty : q.kind = .empty
    · rw [if_pos hempty, ← needPanels_eq_passes]
      simp only [if_pos (show (s.cur.tile r.md).kind = .empty from hempty)]
      rfl
    · rw [if_neg hempty]
      simp only [if_neg (show (s.cur.tile r.md).kind ≠ .empty from hempty)]
      rfl
  · rw [show c.rankIn k.ms1 = u.rankOf from rfl, ← rankWord_eq_ofNat]
    exact matActs_gives (exec_mrank k s) (by rw [← zeroLit_eq_passes]; rfl)

end Sys2Proof
end

section
/-! SUPPORT. What results written at a boundary leave: each register by the last write of it, and what no write reaches (R52, R53, R96). -/

namespace Sys2Proof.Machine

open Host (Outcome)

/-! ### One register write -/

theorem getLsbD_setBit {w : Nat} (x : BitVec w) (n : Nat) (b : Bool) (k : Nat) :
    (setBit x n b).getLsbD k = if k = n ∧ k < w then b else x.getLsbD k := by
  by_cases hk : k < w
  · by_cases hn : k = n
    · subst hn; cases b <;> simp [setBit, hk]
    · cases b <;> simp [setBit, hk, hn]
  · simp [BitVec.getLsbD_of_ge, hk, Nat.le_of_not_lt hk]

theorem Core.rx_wx (c : Core) (k : XReg) (v : DWord) (r : XReg) : (c.wx k v).rx r = if k = r ∧ r ≠ 0 then v else c.rx r := by
  unfold Core.wx
  by_cases hk : k = 0
  · rw [if_pos hk, if_neg fun ⟨hkr, hr⟩ => hr (hkr ▸ hk)]
  rw [if_neg hk]
  by_cases hkr : k = r
  · subst hkr
    rw [if_pos ⟨rfl, hk⟩, Core.rx, if_neg hk, Vector.getElem_set_self]
  · have hne : k.toNat ≠ r.toNat := fun h => hkr (BitVec.eq_of_toNat_eq h)
    rw [if_neg fun h => hkr h.1, Core.rx, Core.rx, Vector.getElem_set_ne _ _ hne]

theorem Core.rx_markX (c : Core) (k r : XReg) : (c.markX k).rx r = c.rx r := by
  unfold Core.markX; split <;> rfl

theorem Core.rh_wh (c : Core) (k : HReg) (v : Cap) (t : Bool) (r : HReg) :
    ((c.wh k v t).rh r, (c.wh k v t).rhtag r) = if k = r ∧ r ≠ 0 then (v, t) else (c.rh r, c.rhtag r) := by
  unfold Core.wh
  by_cases hk : k = 0
  · rw [if_pos hk, if_neg fun ⟨hkr, hr⟩ => hr (hkr ▸ hk)]
  rw [if_neg hk]
  by_cases hkr : k = r
  · subst hkr
    rw [if_pos ⟨rfl, hk⟩, Core.rh, Core.rhtag, Vector.getElem_set_self, bit, getLsbD_setBit, if_pos ⟨rfl, k.isLt⟩]
  · have hne : k.toNat ≠ r.toNat := fun h => hkr (BitVec.eq_of_toNat_eq h)
    rw [if_neg fun h => hkr h.1, Core.rh, Core.rhtag, Vector.getElem_set_ne _ _ hne, bit, getLsbD_setBit,
      if_neg fun h => hne h.1.symm]
    rfl

theorem Core.rh_markH (c : Core) (k r : HReg) : ((c.markH k).rh r, (c.markH k).rhtag r) = (c.rh r, c.rhtag r) := by
  unfold Core.markH; split <;> rfl

theorem Core.v_wv (c : Core) (k : Nat) (m v : Vec) (j : Nat) :
    (c.wv k m v).r.v[j]? = (c.r.v[j]?).map (fun old => if k = j then merge m v old else old) := by
  unfold Core.wv
  by_cases hk : k < 64
  · rw [dif_pos hk, Vector.getElem?_set]
    by_cases hkj : k = j
    · subst hkj; simp [hk]
    · simp [hkj]
  · rw [dif_neg hk]
    by_cases hkj : k = j
    · subst hkj; simp [hk]
    · simp [hkj]

theorem Core.v_markV (c : Core) (k : Nat) (m : BitVec 16) : (c.markV k m).r.v = c.r.v := by
  unfold Core.markV; split <;> rfl

theorem Core.p_wp (c : Core) (k : Nat) (m v : Pred) (j : Nat) :
    (c.wp k m v).r.p[j]? = (c.r.p[j]?).map (fun old => if k = j then merge m v old else old) := by
  unfold Core.wp
  by_cases hk : k < 16
  · rw [dif_pos hk, Vector.getElem?_set]
    by_cases hkj : k = j
    · subst hkj; simp [hk]
    · simp [hkj]
  · rw [dif_neg hk]
    by_cases hkj : k = j
    · subst hkj; simp [hk]
    · simp [hkj]

/-! ### What a register write leaves -/

@[simp] theorem Core.wx_keeps (c : Core) (k : XReg) (v : DWord) :
    (c.wx k v).t = c.t ∧ (c.wx k v).c = c.c ∧ (c.wx k v).r.v = c.r.v ∧ (c.wx k v).r.p = c.r.p ∧ (c.wx k v).r.h = c.r.h ∧
      (c.wx k v).r.htag = c.r.htag := by
  unfold Core.wx; split <;> exact ⟨rfl, rfl, rfl, rfl, rfl, rfl⟩

@[simp] theorem Core.markX_keeps (c : Core) (k : XReg) :
    (c.markX k).t = c.t ∧ (c.markX k).c = c.c ∧ (c.markX k).r.x = c.r.x ∧ (c.markX k).r.v = c.r.v ∧ (c.markX k).r.p = c.r.p ∧
      (c.markX k).r.h = c.r.h ∧ (c.markX k).r.htag = c.r.htag := by
  unfold Core.markX; split <;> exact ⟨rfl, rfl, rfl, rfl, rfl, rfl, rfl⟩

@[simp] theorem Core.wv_keeps (c : Core) (k : Nat) (m v : Vec) :
    (c.wv k m v).t = c.t ∧ (c.wv k m v).c = c.c ∧ (c.wv k m v).r.x = c.r.x ∧ (c.wv k m v).r.p = c.r.p ∧ (c.wv k m v).r.h = c.r.h ∧
      (c.wv k m v).r.htag = c.r.htag := by
  unfold Core.wv; split <;> exact ⟨rfl, rfl, rfl, rfl, rfl, rfl⟩

@[simp] theorem Core.markV_keeps (c : Core) (k : Nat) (m : BitVec 16) :
    (c.markV k m).t = c.t ∧ (c.markV k m).c = c.c ∧ (c.markV k m).r.x = c.r.x ∧ (c.markV k m).r.v = c.r.v ∧ (c.markV k m).r.p = c.r.p ∧
      (c.markV k m).r.h = c.r.h ∧ (c.markV k m).r.htag = c.r.htag := by
  unfold Core.markV; split <;> exact ⟨rfl, rfl, rfl, rfl, rfl, rfl, rfl⟩

@[simp] theorem Core.wp_keeps (c : Core) (k : Nat) (m v : Pred) :
    (c.wp k m v).t = c.t ∧ (c.wp k m v).c = c.c ∧ (c.wp k m v).r.x = c.r.x ∧ (c.wp k m v).r.v = c.r.v ∧ (c.wp k m v).r.h = c.r.h ∧
      (c.wp k m v).r.htag = c.r.htag := by
  unfold Core.wp; split <;> exact ⟨rfl, rfl, rfl, rfl, rfl, rfl⟩

@[simp] theorem Core.wh_keeps (c : Core) (k : HReg) (v : Cap) (g : Bool) :
    (c.wh k v g).t = c.t ∧ (c.wh k v g).c = c.c ∧ (c.wh k v g).r.x = c.r.x ∧ (c.wh k v g).r.v = c.r.v ∧ (c.wh k v g).r.p = c.r.p := by
  unfold Core.wh; split <;> exact ⟨rfl, rfl, rfl, rfl, rfl⟩

@[simp] theorem Core.markH_keeps (c : Core) (k : HReg) :
    (c.markH k).t = c.t ∧ (c.markH k).c = c.c ∧ (c.markH k).r.x = c.r.x ∧ (c.markH k).r.v = c.r.v ∧ (c.markH k).r.p = c.r.p ∧
      (c.markH k).r.h = c.r.h ∧ (c.markH k).r.htag = c.r.htag := by
  unfold Core.markH; split <;> exact ⟨rfl, rfl, rfl, rfl, rfl, rfl, rfl⟩

@[simp] theorem Core.applyCsr_keeps (c : Core) (w : CsrWrite) :
    (c.applyCsr w).t = c.t ∧ (c.applyCsr w).r = c.r := by
  unfold Core.applyCsr; split <;> exact ⟨rfl, rfl⟩

/-! ### One write of any kind -/

theorem flags_and_not_zero (f : Flags) : f &&& ~~~ (0 : Flags) = f := by
  show f &&& ~~~ 0#5 = f
  rw [BitVec.not_zero, BitVec.and_allOnes]

theorem Core.flags_applyCsr (c : Core) (w : CsrWrite) :
    (c.applyCsr w).c.flags = c.c.flags &&& ~~~ if w.num = 0x801 then fld w.clear 8 5 else 0 := by
  by_cases h : w.num = 0x801
  · rw [applyCsr_flags h, if_pos h]
  · have hne : w.num.toNat ≠ 0x801 := fun hn => h (BitVec.eq_of_toNat_eq hn)
    rw [if_neg h, flags_and_not_zero]
    unfold Core.applyCsr
    split
    case h_2 hnum => exact absurd hnum hne
    all_goals rfl


@[simp] theorem State.core_storeNat (s : State) (key n v m : Nat) : (s.storeNat key n v).core m = s.core m := rfl

@[simp] theorem State.storeNat_keeps (s : State) (key n v : Nat) :
    (s.storeNat key n v).dev = s.dev ∧ (s.storeNat key n v).wheel = s.wheel ∧ (s.storeNat key n v).agenda = s.agenda :=
  ⟨rfl, rfl, rfl⟩

section OneWrite

variable (n : Nat) (w : Write) (s : State)

theorem applyWrite_t : ((applyWrite n w s).core n).t = (s.core n).t := by
  cases w <;> simp [applyWrite]

theorem applyWrite_rx (r : XReg) : ((applyWrite n w s).core n).rx r = (Write.onX r w).getD ((s.core n).rx r) := by
  cases w
  case x k v => simp only [applyWrite, State.core_setCore_same, Core.rx_wx, Write.onX]; split <;> rfl
  case xMarked k v => simp only [applyWrite, State.core_setCore_same, Core.rx_markX, Core.rx_wx, Write.onX]; split <;> rfl
  all_goals simp [applyWrite, Write.onX, Core.rx]

theorem applyWrite_rh (r : HReg) : (((applyWrite n w s).core n).rh r, ((applyWrite n w s).core n).rhtag r) =
    (Write.onH r w).getD ((s.core n).rh r, (s.core n).rhtag r) := by
  cases w
  case h k v g => simp only [applyWrite, State.core_setCore_same, Core.rh_wh, Write.onH]; split <;> rfl
  case hMarked k v g => simp only [applyWrite, State.core_setCore_same, Core.rh_markH, Core.rh_wh, Write.onH]; split <;> rfl
  all_goals simp [applyWrite, Write.onH, Core.rh, Core.rhtag]

theorem applyWrite_v (k : Nat) :
    ((applyWrite n w s).core n).r.v[k]? = ((s.core n).r.v[k]?).map (Write.onV k w) := by
  have hkeep : (s.core n).r.v[k]? = ((s.core n).r.v[k]?).map (fun old => old) := Option.map_id'.symm
  cases w
  case v => simp only [applyWrite, State.core_setCore_same, Core.v_wv]; rfl
  case vMarked => simp only [applyWrite, State.core_setCore_same, Core.markV_keeps, Core.v_wv]; rfl
  all_goals
    simp only [applyWrite, State.core_setCore_same, State.core_storeNat, Core.wx_keeps, Core.markX_keeps, Core.wp_keeps, Core.wh_keeps,
      Core.markH_keeps, Core.applyCsr_keeps, Core.setSlot_r, Core.setTile_r]
    exact hkeep

theorem applyWrite_p (k : Nat) :
    ((applyWrite n w s).core n).r.p[k]? = ((s.core n).r.p[k]?).map (Write.onP k w) := by
  have hkeep : (s.core n).r.p[k]? = ((s.core n).r.p[k]?).map (fun old => old) := Option.map_id'.symm
  cases w
  case p => simp only [applyWrite, State.core_setCore_same, Core.p_wp]; rfl
  all_goals
    simp only [applyWrite, State.core_setCore_same, State.core_storeNat, Core.wx_keeps, Core.markX_keeps, Core.wv_keeps, Core.markV_keeps,
      Core.wh_keeps, Core.markH_keeps, Core.applyCsr_keeps, Core.setSlot_r, Core.setTile_r]
    exact hkeep

theorem applyWrite_flags : ((applyWrite n w s).core n).c.flags = (s.core n).c.flags &&& ~~~ Write.clears w := by
  cases w
  case csr w => simp only [applyWrite, State.core_setCore_same, Core.flags_applyCsr, Write.clears]
  all_goals
    simp only [Write.clears, flags_and_not_zero]
    simp [applyWrite]

theorem applyWrite_other {m : Nat} (h : m ≠ n) : (applyWrite n w s).core m = s.core m := by
  cases w <;> simp [applyWrite, State.core_setCore_other _ _ h]

theorem applyWrite_frame : (applyWrite n w s).dev = s.dev ∧ (applyWrite n w s).wheel = s.wheel ∧ (applyWrite n w s).agenda = s.agenda := by
  cases w <;> simp [applyWrite]

theorem applyWrite_memory (h : Write.isRow w = false) :
    (applyWrite n w s).mem = s.mem ∧ (applyWrite n w s).tags = s.tags ∧ (applyWrite n w s).marks = s.marks := by
  cases w
  case row => cases h
  all_goals simp [applyWrite]

end OneWrite

/-! ### Writes one after another -/

theorem foldl_lastWrite {σ ω β : Type} {f : σ → ω → σ} {proj : σ → β} {on : ω → Option β}
    (hstep : ∀ s w, proj (f s w) = (on w).getD (proj s)) (ws : List ω) (s : σ) :
    proj (ws.foldl f s) = ((ws.filterMap on).getLast?).getD (proj s) := by
  induction ws generalizing s with
  | nil => rfl
  | cons w ws ih =>
    rw [List.foldl_cons, ih, hstep, List.filterMap_cons]
    cases on w with
    | none => rfl
    | some b => simp only [Option.getD_some, List.getLast?_cons]

theorem foldl_mapped {σ ω β : Type} {f : σ → ω → σ} {proj : σ → Option β} {g : ω → β → β}
    (hstep : ∀ s w, proj (f s w) = (proj s).map (g w)) (ws : List ω) (s : σ) :
    proj (ws.foldl f s) = (proj s).map (ws.foldl (fun b w => g w b)) := by
  induction ws generalizing s with
  | nil => simp
  | cons w ws ih => rw [List.foldl_cons, ih, hstep, Option.map_map]; rfl

theorem foldl_kept {σ ω β : Type} {f : σ → ω → σ} {proj : σ → β} {ws : List ω} (hstep : ∀ s, ∀ w ∈ ws, proj (f s w) = proj s) (s : σ) :
    proj (ws.foldl f s) = proj s := by
  induction ws generalizing s with
  | nil => rfl
  | cons w ws ih => rw [List.foldl_cons, ih fun s w hw => hstep s w (List.mem_cons_of_mem _ hw), hstep s w List.mem_cons_self]

theorem foldl_or_init (l : List Flags) (f : Flags) : l.foldl (· ||| ·) f = f ||| l.foldl (· ||| ·) 0 := by
  rw [← List.foldl_assoc (op := (· ||| · : Flags → Flags → Flags))]
  simp

/-- Writes at a boundary, one after another. -/
def State.writeAll (n : Nat) (ws : List Write) (s : State) : State := ws.foldl (fun s w => applyWrite n w s) s

section Writes

variable (n : Nat) (ws : List Write) (s : State)

theorem writeAll_t : ((s.writeAll n ws).core n).t = (s.core n).t :=
  foldl_kept (proj := fun s => (s.core n).t) (fun s w _ => applyWrite_t n w s) s

theorem writeAll_rx (r : XReg) :
    ((s.writeAll n ws).core n).rx r = ((ws.filterMap (Write.onX r)).getLast?).getD ((s.core n).rx r) :=
  foldl_lastWrite (proj := fun s => (s.core n).rx r) (fun s w => applyWrite_rx n w s r) ws s

theorem writeAll_rh (r : HReg) : (((s.writeAll n ws).core n).rh r, ((s.writeAll n ws).core n).rhtag r) =
    ((ws.filterMap (Write.onH r)).getLast?).getD ((s.core n).rh r, (s.core n).rhtag r) :=
  foldl_lastWrite (proj := fun s => ((s.core n).rh r, (s.core n).rhtag r)) (fun s w => applyWrite_rh n w s r) ws s

theorem writeAll_v (k : Nat) :
    ((s.writeAll n ws).core n).r.v[k]? = ((s.core n).r.v[k]?).map (ws.foldl (fun v w => Write.onV k w v)) :=
  foldl_mapped (proj := fun s => (s.core n).r.v[k]?) (fun s w => applyWrite_v n w s k) ws s

theorem writeAll_p (k : Nat) :
    ((s.writeAll n ws).core n).r.p[k]? = ((s.core n).r.p[k]?).map (ws.foldl (fun v w => Write.onP k w v)) :=
  foldl_mapped (proj := fun s => (s.core n).r.p[k]?) (fun s w => applyWrite_p n w s k) ws s

theorem writeAll_flags :
    ((s.writeAll n ws).core n).c.flags = (s.core n).c.flags &&& ~~~ (ws.map Write.clears).foldl (· ||| ·) 0 := by
  induction ws generalizing s with
  | nil => exact (flags_and_not_zero _).symm
  | cons w ws ih =>
    rw [List.map_cons, List.foldl_cons, foldl_or_init, BitVec.not_or, ← BitVec.and_assoc, State.writeAll, List.foldl_cons, ← State.writeAll,
      ih, applyWrite_flags]
    simp

theorem writeAll_other {m : Nat} (h : m ≠ n) : (s.writeAll n ws).core m = s.core m :=
  foldl_kept (proj := fun s => s.core m) (fun s w _ => applyWrite_other n w s h) s

theorem writeAll_frame : (s.writeAll n ws).dev = s.dev ∧ (s.writeAll n ws).wheel = s.wheel ∧ (s.writeAll n ws).agenda = s.agenda :=
  ⟨foldl_kept (fun s w _ => (applyWrite_frame n w s).1) s, foldl_kept (fun s w _ => (applyWrite_frame n w s).2.1) s,
    foldl_kept (fun s w _ => (applyWrite_frame n w s).2.2) s⟩

theorem writeAll_memory (h : ws.any Write.isRow = false) :
    (s.writeAll n ws).mem = s.mem ∧ (s.writeAll n ws).tags = s.tags ∧ (s.writeAll n ws).marks = s.marks := by
  have hrow (s : State) (w : Write) (hw : w ∈ ws) := applyWrite_memory n w s (by simpa using List.any_eq_false.1 h w hw)
  exact ⟨foldl_kept (fun s w hw => (hrow s w hw).1) s, foldl_kept (fun s w hw => (hrow s w hw).2.1) s,
    foldl_kept (fun s w hw => (hrow s w hw).2.2) s⟩

end Writes

theorem foldl_flag_eq (due : List Pend) (c : Core) :
    due.foldl (fun c p => c.flag p.flags) c = c.flag ((due.map (·.flags)).foldl (· ||| ·) 0) := by
  induction due generalizing c with
  | nil => simp [Core.flag]
  | cons p due ih =>
    rw [List.foldl_cons, ih, List.map_cons, List.foldl_cons, foldl_or_init _ (0 ||| p.flags)]
    simp [Core.flag, BitVec.or_assoc]

/-! ### The order of the results due -/

/-- A list in the order of its buckets is a rearrangement of it. -/
theorem flatMap_filter_perm {α : Type} (rank : α → Nat) (l : List α) (k : Nat) :
    ((List.range k).flatMap fun r => l.filter (fun x => rank x == r)).Perm (l.filter (fun x => decide (rank x < k))) := by
  induction k with
  | zero => simp
  | succ k ih =>
    rw [List.range_succ, List.flatMap_append, List.flatMap_singleton]
    refine (ih.append_right _).trans ?_
    refine List.Perm.trans ?_ (List.filter_append_perm (fun x => decide (rank x < k)) _)
    rw [List.filter_filter, List.filter_filter]
    refine List.Perm.of_eq (congrArg₂ _ (List.filter_congr fun x _ => ?_) (List.filter_congr fun x _ => ?_))
    · rw [Bool.eq_iff_iff]; simp; omega
    · rw [Bool.eq_iff_iff]; simp; omega

theorem flatMap_filter_pairwise {α : Type} (rank : α → Nat) (l : List α) (k : Nat) :
    ((List.range k).flatMap fun r => l.filter (fun x => rank x == r)).Pairwise (fun x y => rank x ≤ rank y) := by
  refine List.pairwise_flatMap.2 ⟨fun r _ => ?_, List.pairwise_lt_range.imp fun hlt x hx y hy => ?_⟩
  · refine List.pairwise_of_forall_mem_list fun x hx y hy => ?_
    rw [beq_iff_eq.1 (List.mem_filter.1 hx).2, beq_iff_eq.1 (List.mem_filter.1 hy).2]
  · rw [beq_iff_eq.1 (List.mem_filter.1 hx).2, beq_iff_eq.1 (List.mem_filter.1 hy).2]
    exact hlt.le

theorem orderPend_eq_buckets (l : List Pend) :
    orderPend l = (List.range 9).flatMap fun r => l.filter (fun p => dueRank p == r) := by
  have hxform : l.filter (·.xform) = l.filter (fun p => dueRank p == 0) := List.filter_congr fun p _ => by
    cases hx : p.xform <;> cases hs : p.slot <;> simp [dueRank, hx, hs]
  have hslot (sl : Slot) : l.filter (fun p => !p.xform && p.slot == sl) =
      l.filter (fun p => dueRank p == dueRank { (mkPend sl 0 .none) with xform := false }) := List.filter_congr fun p _ => by
    cases hx : p.xform <;> cases hs : p.slot <;> cases sl <;> simp [dueRank, hx, hs, mkPend]
  simp only [orderPend, hxform, hslot]
  rfl

theorem dueRank_lt (p : Pend) : dueRank p < 9 := by
  unfold dueRank
  split
  · decide
  · cases p.slot <;> decide

theorem orderPend_perm (l : List Pend) : (orderPend l).Perm l := by
  rw [orderPend_eq_buckets]
  refine (flatMap_filter_perm dueRank l 9).trans (List.Perm.of_eq (List.filter_eq_self.2 fun p _ => ?_))
  exact decide_eq_true (dueRank_lt p)

theorem orderPend_pairwise (l : List Pend) : (orderPend l).Pairwise (fun p q => dueRank p ≤ dueRank q) := by
  rw [orderPend_eq_buckets]
  exact flatMap_filter_pairwise dueRank l 9

/-! ### The boundary's results -/

theorem writeResults_eq {s t : State} {n : Nat} {due : List Pend} (hdue : due = orderPend (s.core n).pendDue)
    (ht : t = s.writeAll n (due.map (·.w))) :
    s.writeResults n = t.setCore n { (t.core n).flag ((due.map (·.flags)).foldl (· ||| ·) 0) with
      t := { (s.core n).t with pend := (s.core n).t.pend.filter (·.rem != 0) } } := by
  subst hdue
  have hwrites : (orderPend (s.core n).pendDue).foldl (fun s p => applyWrite n p.w s) s = t := by
    rw [ht, State.writeAll, List.foldl_map]
  rw [State.writeResults, hwrites, foldl_flag_eq, ← show (t.core n).t = (s.core n).t from ht ▸ writeAll_t n _ s]
  rfl

end Sys2Proof.Machine

namespace Sys2Proof

open Sys2Proof.Machine

/-- Settles O32: the results in the order of their slots are writes one after another, and each write is known by its register. -/
theorem resultWriteback : Obligations.ResultWriteback := by
  unfold Obligations.ResultWriteback
  intro s n c due ws
  refine ⟨orderPend_perm due, orderPend_pairwise due, ?_, ?_⟩
  · rintro (hfrozen | hland)
    · exact if_pos (by simp [show (s.core n).frozen = true from hfrozen])
    · exact if_pos (by simp [show (s.core n).landDue ≠ [] from hland])
  · intro hfrozen hland
    have hexec : exec (.resultWriteback n) s = .next (s.writeResults n) :=
      if_neg (by simp [show (s.core n).frozen = false from hfrozen, show (s.core n).landDue = [] from hland])
    have hflags : ((orderPend due).map (·.flags)).foldl (· ||| ·) 0 = (due.map (·.flags)).foldl (· ||| ·) 0 :=
      ((orderPend_perm due).map _).foldl_op_eq
    refine ⟨_, hexec, ?_⟩
    rw [writeResults_eq (t := s.writeAll n ws) rfl rfl]
    obtain ⟨hdev, hwheel, hagenda⟩ := writeAll_frame n ws s
    refine ⟨congrArg Core.t (State.core_setCore_same ..), fun r => ?_, fun r => ?_, fun k => ?_, fun k => ?_, ?_, fun m hm => ?_,
      hdev, hwheel, hagenda, writeAll_memory n ws s⟩
    · rw [State.core_setCore_same]; exact writeAll_rx n ws s r
    · rw [State.core_setCore_same]; exact writeAll_rh n ws s r
    · rw [State.core_setCore_same]; exact writeAll_v n ws s k
    · rw [State.core_setCore_same]; exact writeAll_p n ws s k
    · rw [State.core_setCore_same, ← hflags, ← writeAll_flags n ws s]; rfl
    · rw [State.core_setCore_other _ _ hm]; exact writeAll_other n ws s hm

end Sys2Proof
end

section
/-! SUPPORT. Further issues, the wheel's window, and the overlay unit's copies (R56, R69, R290, R321 to R324). -/

namespace Sys2Proof.Machine

open Host (Outcome)

/-! ### Further issues and the wheel's window -/

/-- A cycle of the window is one of those that the rank is chosen from (R290). -/
theorem lt_windowMax {div : BitVec 4} {d : Nat} (h : d * (16 - div.toNat) < 16) : d < windowMax div := by
  have hpos : 0 < 16 - div.toNat := by omega
  rw [windowMax, ← Nat.succ_le_iff, Nat.le_div_iff_mul_le hpos, Nat.succ_mul]
  omega

theorem scRankNow_isSome {s : State} {c : Core} {d : Nat} (hwindow : d * (16 - s.dev.power.div.toNat) < 16)
    (hnew : c.m.sample < s.wheel - d) (howned : wheelOwns c.c.wheel ((s.wheel - d) % 1024) = true) : (s.scRankNow c).isSome = true := by
  rw [State.scRankNow, List.find?_isSome]
  exact ⟨_, List.mem_map_of_mem (List.mem_range.2 (lt_windowMax hwindow)), by simp [hnew, howned]⟩

theorem scNext_of_mem {s : State} {n : Nat} {b : Bundle} {ops : List Op} {o : Op} (hb : s.bundleAt n (s.core n).k.pc.toNat = some b)
    (hops : s.bundleOps n b = .ok ops) (ho : o ∈ ops) (hsc : Instr.isSc o.i = true) : s.scNext n = true := by
  simp only [State.scNext, hb, hops]
  exact List.any_eq_true.2 ⟨o, ho, hsc⟩

/-! ### What only the device's part of an answer changes -/

/-- `t` is `s` but for the package outside its cores and memories. -/
def OnlyDevice (s t : State) : Prop := ∃ dev, t = { s with dev := dev }

theorem OnlyDevice.refl (s : State) : OnlyDevice s s := ⟨s.dev, rfl⟩

theorem OnlyDevice.trans {s t u : State} (h : OnlyDevice s t) (h' : OnlyDevice t u) : OnlyDevice s u := by
  obtain ⟨_, rfl⟩ := h
  obtain ⟨dev, rfl⟩ := h'
  exact ⟨dev, rfl⟩

theorem OnlyBanks.onlyDevice {s t : State} (h : OnlyBanks s t) : OnlyDevice s t := by
  obtain ⟨_, _, rfl⟩ := h
  exact ⟨_, rfl⟩

theorem OnlyDevice.memory {s t : State} (h : OnlyDevice s t) : t.mem = s.mem ∧ t.tags = s.tags ∧ t.marks = s.marks := by
  obtain ⟨_, rfl⟩ := h
  exact ⟨rfl, rfl, rfl⟩

theorem OnlyDevice.core {s t : State} (h : OnlyDevice s t) (m : Nat) : t.core m = s.core m := by
  obtain ⟨_, rfl⟩ := h
  rfl

theorem State.recoded_onlyDevice (s : State) (keys : List Nat) : OnlyDevice s (s.recoded keys) := ⟨_, rfl⟩

theorem State.countDenial_onlyBanks (s : State) (n : Nat) (misc : BitVec 64) (v : Verdict) (key : Nat) (marks : Bool) :
    OnlyBanks s (s.countDenial n misc v key marks) := by
  unfold State.countDenial
  cases v with
  | denied => exact s.mcRecord_onlyBanks ..
  | link => exact .ite (s.mcRecord_onlyBanks ..) (s.mcRecord_onlyBanks ..)
  | ok => exact .refl s
  | lost => exact .refl s

theorem State.recordTransfer_onlyBanks (s : State) (n : Nat) (keys : List Nat) (cause : BitVec 8) (misc : BitVec 64) (marks : Bool) :
    OnlyBanks s (s.recordTransfer n keys cause misc marks) :=
  s.mcRecord_onlyBanks ..

/-! ### Segment marks -/

theorem segMark_copies {s : State} {n a : Nat} {own g : Seg} (hown : s.segOf (s.core n) a = some own)
    (hg : s.segAt (s.core n) own.next = some g) (hnext : own.next ≠ 0xFFF) (hres : g.num ∉ (s.core n).k.resident)
    (hcopy : (s.core n).k.segCopy = none) (hover : g.overlaps own = false) : s.segMark n a = s.startCopy n g := by
  simp only [State.segMark, hown, hg]
  exact if_neg (by simp [hnext, hres, hcopy, hover])

theorem exec_segmentMark_copies {s : State} {n : Nat} {a : BitVec 48} {own g : Seg} (hmark : (s.core n).k.mark = some a)
    (hown : s.segOf (s.core n) a.toNat = some own) (hg : s.segAt (s.core n) own.next = some g) (hnext : own.next ≠ 0xFFF)
    (hres : g.num ∉ (s.core n).k.resident) (hcopy : (s.core n).k.segCopy = none) (hover : g.overlaps own = false) :
    Becomes s (.segmentMark n) n { s.core n with k := { (s.core n).k with
      mark := none, segCopy := some g.num, segStale := false
      resident := (s.core n).k.resident.filter (fun k => !(s.segAt (s.core n) k).any (fun h => h.overlaps g)) } } := by
  let c : Core := { s.core n with k := { (s.core n).k with mark := none } }
  have hcore : (s.setCore n c).core n = c := State.core_setCore_same s n c
  have hcopies : (s.setCore n c).segMark n a.toNat = (s.setCore n c).startCopy n g := by
    refine segMark_copies (own := own) ?_ ?_ hnext ?_ ?_ hover <;> rw [hcore] <;> assumption
  have hexec : exec (.segmentMark n) s = .next ((s.setCore n c).startCopy n g) := by
    rw [← hcopies, exec_segmentMark, execSegmentMark, hmark]
  refine ⟨_, hexec, rfl, rfl, rfl, rfl, rfl, rfl, rfl, rfl, rfl, ?_, fun m hm => ?_⟩
  · rw [State.startCopy, State.core_setCore_same, hcore]
    rfl
  · rw [State.startCopy, State.core_setCore_other _ _ hm, State.core_setCore_other _ _ hm]

/-! ### A copied segment -/

theorem segCopy_bind {s : State} {c : Core} {g : Seg} (hcopy : c.k.segCopy = some g.num) (hg : s.segAt c g.num = some g) :
    c.k.segCopy.bind (s.segAt c) = some g := by
  rw [hcopy]; exact hg

theorem exec_overlaySegmentLanded_waits {s : State} {n : Nat} {g : Seg} (hcopy : (s.core n).k.segCopy = some g.num)
    (hg : s.segAt (s.core n) g.num = some g) (hready : s.linesReady n g = false) : Stays s (.overlaySegmentLanded n) := by
  simp only [Stays, exec_overlaySegmentLanded, execOverlaySegmentLanded, segCopy_bind hcopy hg, hready]
  rfl

/-- The state after a line has failed: its segment is not resident, and what waits for it has the line. -/
theorem exec_overlaySegmentLanded_fails {s : State} {n : Nat} {g : Seg} {a : Nat} (hcopy : (s.core n).k.segCopy = some g.num)
    (hg : s.segAt (s.core n) g.num = some g) (hready : s.linesReady n g = true) (hbad : s.badLine n g = some a) :
    ∃ t, exec (.overlaySegmentLanded n) s = .next t ∧ OnlyDevice (s.segFails n g a) t := by
  obtain ⟨t, ht⟩ := event_answers (i := .overlaySegmentLanded n) rfl s
  refine ⟨t, ht, ?_⟩
  simp only [exec_overlaySegmentLanded, execOverlaySegmentLanded, segCopy_bind hcopy hg, hready, hbad] at ht
  obtain rfl := Outcome.next.inj ht
  split
  · exact (State.countDenial_onlyBanks ..).onlyDevice
  · split
    · exact (State.recoded_onlyDevice ..).trans (State.recordTransfer_onlyBanks ..).onlyDevice
    · exact .refl _

theorem core_segFails (s : State) (n : Nat) (g : Seg) (a : Nat) :
    (s.segFails n g a).core n = { s.core n with k := { (s.core n).k with
      segCopy := none, segStale := false
      wait := (s.core n).k.wait.map (fun w => if w.1 = g.num then (w.1, some a) else w) } } := by
  rw [State.segFails, State.core_setCore_same, State.endCopy, State.core_setCore_same]
  rfl

theorem core_segFails_other (s : State) {n m : Nat} (g : Seg) (a : Nat) (h : m ≠ n) : (s.segFails n g a).core m = s.core m := by
  rw [State.segFails, State.core_setCore_other _ _ h, State.endCopy, State.core_setCore_other _ _ h]

theorem core_endCopy (s : State) (n : Nat) (g : Seg) (add : Bool) :
    (s.endCopy n g add).core n = { s.core n with k := { (s.core n).k with
      segCopy := none, segStale := false
      wait := if add then (s.core n).k.wait.filter (fun w => w.1 != g.num) else (s.core n).k.wait
      resident := if add then KeySet.add (s.core n).k.resident g.num else (s.core n).k.resident } } :=
  State.core_setCore_same ..

theorem exec_overlaySegmentLanded_lands {s : State} {n : Nat} {g : Seg} (hcopy : (s.core n).k.segCopy = some g.num)
    (hg : s.segAt (s.core n) g.num = some g) (hready : s.linesReady n g = true) (hgood : s.badLine n g = none) :
    exec (.overlaySegmentLanded n) s = .next ((s.copyLines n g).endCopy n g (!(s.core n).k.segStale)) := by
  simp only [exec_overlaySegmentLanded, execOverlaySegmentLanded, segCopy_bind hcopy hg, hready, hgood]
  rfl

/-! ### The lines of a copied segment -/

theorem Memory.readList_length (m : List Host.Cell) (k n : Nat) : (Memory.readList m k n).length = n := by
  induction n generalizing k with
  | zero => rfl
  | succ n ih => simp [Memory.readList, ih]

theorem Memory.readList_getElem (m : List Host.Cell) (k n : Nat) {i : Nat} (hi : i < (Memory.readList m k n).length) :
    (Memory.readList m k n)[i] = Memory.read m (k + i) := by
  induction n generalizing k i with
  | zero => simp [Memory.readList] at hi
  | succ n ih =>
    cases i with
    | zero => rfl
    | succ i =>
      simp only [Memory.readList, List.getElem_cons_succ]
      rw [ih]; congr 1; omega

/-- A segment of the table has its lines within GLOB (R320). -/
theorem aline_lt_of_segAt {s : State} {c : Core} {k : Nat} {g : Seg} (h : s.segAt c k = some g) : g.aline < 2 ^ 32 := by
  have hmem := List.mem_of_find?_eq_some h
  unfold State.segs at hmem
  split at hmem
  · obtain ⟨j, -, rfl⟩ := List.mem_map.1 hmem
    exact Nat.mod_lt _ (by decide)
  · cases hmem

theorem mkey_add (sp : MSpace) (unit x j : Nat) : mkey sp unit (x + j) = mkey sp unit x + j := (Nat.add_assoc ..).symm

/-- A code line copied from a GLOB address into IMEM (R278). -/
def State.copyLine (n dst : Nat) (s : State) (a : Nat) : State :=
  { s with mem := Memory.writeList s.mem (mkey .imem n dst) (s.bytes (mkey .glob 0 a) 128) }

theorem State.copyLine_byte {s : State} (hwf : Memory.wf s.mem = true) (n dst a : Nat) :
    Memory.wf (s.copyLine n dst a).mem = true ∧
      (∀ j, j < 128 → (s.copyLine n dst a).byte (mkey .imem n dst + j) = s.byte (mkey .glob 0 a + j)) ∧
      ∀ x, (x < mkey .imem n dst ∨ mkey .imem n dst + 128 ≤ x) → (s.copyLine n dst a).byte x = s.byte x := by
  have hlen : (s.bytes (mkey .glob 0 a) 128).length = 128 := Memory.readList_length ..
  have hget (j : Nat) (hj : j < (s.bytes (mkey .glob 0 a) 128).length) : (s.bytes (mkey .glob 0 a) 128)[j] = s.byte (mkey .glob 0 a + j) :=
    Memory.readList_getElem ..
  unfold State.copyLine
  generalize s.bytes (mkey .glob 0 a) 128 = bs at hlen hget
  refine ⟨Memory.writeList_wf _ _ hwf, fun j hj => ?_, fun x hx => ?_⟩
  · exact (Memory.read_writeList_inside _ _ hwf (hlen.symm ▸ hj)).trans (hget j _)
  · exact Memory.read_writeList_outside _ hwf (hlen.symm ▸ hx)

/-- The first k lines of a segment, copied one after another. -/
def State.copyFirst (n base : Nat) (g : Seg) (k : Nat) (s : State) : State :=
  (List.range k).foldl (fun s i => s.copyLine n (128 * (g.iline + i)) (base + 128 * (g.aline + i))) s

theorem State.copyFirst_succ (n base : Nat) (g : Seg) (k : Nat) (s : State) :
    s.copyFirst n base g (k + 1) = (s.copyFirst n base g k).copyLine n (128 * (g.iline + k)) (base + 128 * (g.aline + k)) := by
  rw [State.copyFirst, List.range_succ, List.foldl_append]; rfl

theorem State.copyLines_eq_copyFirst (s : State) (n : Nat) (g : Seg) :
    s.copyLines n g = s.copyFirst n (s.core n).c.codebase.toNat g g.nlines := by
  have himem (base i : Nat) : g.imem base (base + 128 * (g.aline + i)) = 128 * (g.iline + i) := by
    simp only [Seg.imem, Seg.lo]; omega
  simp only [State.copyLines, State.copyFirst, Seg.lineAddrs, List.foldl_map, State.copyLine, himem]

theorem State.copyFirst_onlyMem (n base : Nat) (g : Seg) (k : Nat) (s : State) :
    s.copyFirst n base g k = { s with mem := (s.copyFirst n base g k).mem } := by
  induction k with
  | zero => rfl
  | succ k ih => rw [State.copyFirst_succ, State.copyLine, ih]

theorem State.copyFirst_byte {s : State} (hwf : Memory.wf s.mem = true) {n base : Nat} {g : Seg} {k : Nat}
    (hglob : base + 128 * (g.aline + k) ≤ 2 ^ 64) :
    Memory.wf (s.copyFirst n base g k).mem = true ∧
      (∀ i j, i < k → j < 128 → (s.copyFirst n base g k).byte (mkey .imem n (128 * (g.iline + i) + j)) =
        s.byte (mkey .glob 0 (base + 128 * (g.aline + i) + j))) ∧
      ∀ a, (a < mkey .imem n (128 * g.iline) ∨ mkey .imem n (128 * (g.iline + k)) ≤ a) → (s.copyFirst n base g k).byte a = s.byte a := by
  induction k with
  | zero => exact ⟨hwf, fun _ _ h => absurd h (Nat.not_lt_zero _), fun _ _ => rfl⟩
  | succ k ih =>
    obtain ⟨huwf, hin, hout⟩ := ih (by omega)
    rw [State.copyFirst_succ]
    generalize s.copyFirst n base g k = u at huwf hin hout
    obtain ⟨hwf', hline, hother⟩ := State.copyLine_byte huwf n (128 * (g.iline + k)) (base + 128 * (g.aline + k))
    have himem (x : Nat) : mkey .imem n x = (8 * 65536 + n) * 2 ^ 64 + x := rfl
    have hkeyglob (x : Nat) : mkey .glob 0 x = x := mkey_glob x
    refine ⟨hwf', fun i j hi hj => ?_, fun a ha => ?_⟩
    · by_cases hik : i = k
      · subst hik
        rw [mkey_add, hline j hj, ← mkey_add, hout]
        left; rw [himem, hkeyglob]; omega
      · rw [hother _ (by left; rw [himem, himem]; omega), hin i j (by omega) hj]
    · rw [hother a (by rw [himem] at ha ⊢; rw [himem] at ha; omega), hout a (by rw [himem] at ha ⊢; rw [himem] at ha ⊢; omega)]

end Sys2Proof.Machine

namespace Sys2Proof

open Sys2Proof.Machine

/-- Settles O38: each event makes its cycle, its copy or the end of its copy where its condition stands. -/
theorem issueEvents : Obligations.IssueEvents := by
  unfold Obligations.IssueEvents
  intro s n c
  refine ⟨fun hissue => if_neg hissue, fun hissue => if_pos hissue, ?_, ?_, ?_, ?_, ?_⟩
  · intro b ops o d hb hops ho hsc hnew hwindow howned
    exact if_pos (by rw [scNext_of_mem hb hops ho hsc, scRankNow_isSome hwindow hnew howned]; rfl)
  · intro a own g hmark hown hg hnext hres hcopy hover
    exact exec_segmentMark_copies hmark hown hg hnext hres hcopy hover
  · exact fun g hcopy hg hready => exec_overlaySegmentLanded_waits hcopy hg hready
  · intro g a hcopy hg hready hbad
    obtain ⟨t, hexec, hdev⟩ := exec_overlaySegmentLanded_fails hcopy hg hready hbad
    obtain ⟨hmem, htags, hmarks⟩ := hdev.memory
    exact ⟨t, hexec, hmem, htags, hmarks, (hdev.core n).trans (core_segFails s n g a),
      fun m hm => (hdev.core m).trans (core_segFails_other s g a hm)⟩
  · intro g hs hcopy hg hready hgood hlines
    have haline := aline_lt_of_segAt hg
    have hbase : c.c.codebase.toNat < 2 ^ 48 := c.c.codebase.isLt
    obtain ⟨-, hin, hout⟩ := State.copyFirst_byte hs.1 (n := n) (base := c.c.codebase.toNat) (g := g) (k := g.nlines) (by omega)
    rw [← State.copyLines_eq_copyFirst] at hin hout
    have hmem : s.copyLines n g = { s with mem := (s.copyLines n g).mem } := by
      rw [State.copyLines_eq_copyFirst]; exact State.copyFirst_onlyMem ..
    have hcore (m : Nat) : (s.copyLines n g).core m = s.core m := by rw [hmem]; rfl
    refine ⟨_, exec_overlaySegmentLanded_lands hcopy hg hready hgood, hin, hout, ?_, fun m hm => ?_, ?_, ?_, ?_⟩
    · have hne : (fun w : Nat × Option Nat => w.1 != g.num) = fun w => decide (w.1 ≠ g.num) := by
        funext w; by_cases h : w.1 = g.num <;> simp [h]
      rw [core_endCopy, hcore, hne]
      cases c.k.segStale <;> rfl
    · rw [State.endCopy, State.core_setCore_other _ _ hm, hcore]
    all_goals rw [hmem]; rfl

end Sys2Proof
end

section
/-! SUPPORT. The counterexample to the statement on loads through a handle: a core beyond the package's 768, whose SPAD has the keys
of HOST. -/

namespace Sys2Proof.Machine

/-- A core's number from which on `mkey` gives the keys of a SPAD to HOST (R2 knows 768 cores). -/
def farCore : Nat := 3 * 65536

/-- The slice of that core's cluster holds HOST's first line, of which byte 0, written with a 7, is still to reach its home (R253). -/
def owingLine : CLine :=
  { key := mkey .host 0 0, bytes := List.replicate 256 7, marks := 0, tags := 0, dirty := true, mask := 1, stream := 8, rels := [] }

/-- The whole SPAD under policy 3, which goes past the caches (R163, R165). -/
def pastCaches : Cap := BitVec.ofNat 256 (2 ^ 48 * 2 ^ 20 + 2 ^ 96 * 0xFF + 2 ^ 107 * 3)

/-- The far core acts, with that SPAD in h1. The host's link is up, and its stream in key slot 8 is keyed. -/
def farLoad : State :=
  { State.reset with
    cores := [(farCore, Core.idle.wh 1 pastCaches true)]
    iss := { Issue.none with core := farCore }
    dev := { Device.reset with
      link := { Device.reset.link with hostUp := true }
      keys := [(8, { kind := .ide, link := false, owner := 0, key := 0, peer := 0, live := true })]
      ms := { Device.reset.ms with lines := [(clusterOf farCore, owingLine)] } } }

/-- LD x5 of its first doubleword, under L = 1. -/
def firstLd : LdF := { xt := 5, h := 1, xi := 0, l := true, imm := 0 }

theorem farLoad_admits :
    Clean farLoad (.ld firstLd) ∧
      farLoad.refuses 1 [0, 1, 2, 3, 4, 5] pR 8 (farLoad.offset (.ld firstLd)).toNat 8 = none ∧
      capSpace (farLoad.cur.rh 1) = spSpad ∧ farLoad.cur.t.landing.length < 16 := by
  decide +kernel

theorem farLoad_mem : farLoad.mem = [] := rfl

/-- Byte 0 of HOST after an outcome. -/
def hostByte : Host.Outcome State Fault Refusal → Option Byte
  | .next t => some (t.byte (mkey .host 0 0))
  | _ => none

/-- The entry takes its data at once, and the older copy of the line goes first, with what it owes its home. -/
theorem hostByte_exec_farLoad : hostByte (exec (.ld firstLd) farLoad) = some 7 := by decide +kernel

end Sys2Proof.Machine

namespace Sys2Proof

open Sys2Proof.Machine

/-- Refutes O18: the statement puts no bound on the acting core's number. SPAD of core 196608 has the keys of HOST, so a landing
load of it under policy 3 drops the slice's copy of its line, whose byte 0 is written back: memory does not stay. -/
theorem not_handleLoads : ¬ Obligations.HandleLoads := by
  unfold Obligations.HandleLoads
  intro h
  obtain ⟨hclean, hadmit, hspad, hroom⟩ := farLoad_admits
  obtain ⟨-, -, -, -, -, hld, -⟩ := h farLoad ⟨0, 1, 0, true, 0⟩ firstLd ⟨0, 1, 0, 0⟩
  obtain ⟨-, hlands⟩ := hld hclean rfl hadmit
  obtain ⟨-, hlands⟩ := hlands hspad
  obtain ⟨t, l, hexec, hmem, -⟩ := hlands hroom
  have hbyte := hostByte_exec_farLoad
  rw [hexec, hostByte, State.byte, hmem, farLoad_mem] at hbyte
  exact absurd hbyte (by decide)

end Sys2Proof
end

section
/-! SUPPORT. The counterexample to the statement on accesses: an atomic whose bytes lie on both sides of the end of GLOB. -/

namespace Sys2Proof.Machine

/-- The first core of die 7, the home of the last bytes before key 2^80, where GLOB ends and the SPAD of core 0 begins. -/
def lastHome : Nat := 672

/-- An add of one to a doubleword of which four bytes have keys of GLOB and four keys of that SPAD: its address is above every address of a
capability. -/
def astride : Access :=
  { id := 0, kind := .amo .add 5 1 0, cap := BitVec.ofNat 256 (2 ^ 104 * 2), addr := 2 ^ 80 - 4, off := 0, slot := .va, acq := none
    rel := none, carries := none, rank := none, unit := 8, done := [], performed := false, refused := false, rels := [], reply := none
    counted := true }

/-- The slice of cluster 0 holds the line behind the end of GLOB, of which byte 100, written with a 7, is still to reach its home. -/
def lineBehind : CLine :=
  { key := 2 ^ 80, bytes := List.replicate 256 7, marks := 0, tags := 0, dirty := true, mask := 2 ^ 100, stream := 8, rels := [] }

/-- The atomic is the only access, and the stream of that line, in key slot 8, has an open fabric port. -/
def atGlobEnd : State :=
  { State.reset with
    cores := [(lastHome, { Core.idle with m := { MemSide.empty with accs := [astride] } })]
    dev := { Device.reset with
      link := { Device.reset.link with
        fabValid := true
        ports := [(0, { trained := true, keyed := true, stale := false, comp := false, stop := false, peer := 3, en := true })] }
      keys := [(8, { kind := .fabric, link := false, owner := 0, key := 0, peer := 3, live := true })]
      ms := { Device.reset.ms with lines := [(0, lineBehind)] } } }

theorem atGlobEnd_ok : atGlobEnd.Ok := by
  refine ⟨by decide, by decide, by decide, by decide, ?_, by simp [atGlobEnd, State.reset, Device.reset]⟩
  intro e he
  obtain rfl := List.mem_singleton.mp he
  exact Core.idle_ok

theorem atGlobEnd_ready :
    (atGlobEnd.core lastHome).findAcc 0 = some astride ∧ atGlobEnd.atomicReady lastHome astride = true ∧
      (∀ f ∈ (atGlobEnd.core lastHome).m.fences, f.far = false) := by
  decide +kernel

theorem atGlobEnd_admits :
    atGlobEnd.verdict (atGlobEnd.ctxOf lastHome) astride.cap (2 ^ 80 - 4) = .ok ∧
      atGlobEnd.verdict (atGlobEnd.ctxOf lastHome) astride.cap (2 ^ 80 - 4 + 7) = .ok ∧
      homeDie (keyOff (2 ^ 80 - 4)) = dieOf lastHome ∧ (∀ i, i < 8 → atGlobEnd.descIgnores (keyOff (2 ^ 80 - 4 + i)) = false) ∧
      (atGlobEnd.settled (clusterOf lastHome) ((List.range 8).map (2 ^ 80 - 4 + ·))).marked (2 ^ 80 - 4) 8 = false := by
  decide +kernel

theorem atGlobEnd_owes : atGlobEnd.owedBy (clusterOf lastHome) (2 ^ 80 + 100) = false ∧ atGlobEnd.byte (2 ^ 80 + 100) = 0 := by
  decide +kernel

/-- Byte 100 behind the end of GLOB after an outcome. -/
def byteBehind : Host.Outcome State Fault Refusal → Option Byte
  | .next t => some (t.byte (2 ^ 80 + 100))
  | _ => none

/-- The write of the GLOB bytes at their home writes back what another cluster's slice owes of the lines that it touches. -/
theorem byteBehind_exec_atGlobEnd : byteBehind (exec (.homeAtomicExecute lastHome 0) atGlobEnd) = some 7 := by decide +kernel

end Sys2Proof.Machine

namespace Sys2Proof

open Sys2Proof.Machine

/-- Refutes O40: the statement bounds the addresses of stores, but not those of atomics. Of a doubleword whose last four bytes lie behind
the end of GLOB, the write at its home writes back the line behind that end, which the slice of another cluster owes: a byte that the own
cluster's slice does not owe, and that the atomic does not write, changes. -/
theorem not_accessEvents : ¬ Obligations.AccessEvents := by
  unfold Obligations.AccessEvents
  intro h
  obtain ⟨hfind, hready, hcalm⟩ := atGlobEnd_ready
  obtain ⟨hok, hok7, hhome, hplain, hclean⟩ := atGlobEnd_admits
  obtain ⟨howed, hzero⟩ := atGlobEnd_owes
  obtain ⟨-, -, -, -, -, hamo, -⟩ := h atGlobEnd lastHome 0 atGlobEnd_ok
  obtain ⟨-, hlocal⟩ := hamo astride .add 5 1 0 hfind rfl rfl hready hok hok7
  obtain ⟨hdone, -⟩ := hlocal (fun _ => hhome) hplain
  obtain ⟨t, hexec, -, -, hmem⟩ := hdone hclean
  obtain ⟨-, hframe⟩ := hmem ⟨hcalm, by decide⟩
  have hbyte := byteBehind_exec_atGlobEnd
  rw [hexec, byteBehind, hframe (2 ^ 80 + 100) (Or.inr (by decide)) howed, hzero] at hbyte
  exact absurd hbyte (by decide)

end Sys2Proof
end

section
/-! SUPPORT. The counterexample to the statement on tasks: a task that comes back on a core of which the slice holds a line. -/

namespace Sys2Proof.Machine

/-- A launch of one task, which has been started. -/
def oneTask : Launch := { claimedLaunch with claims := [], begun := true, live := 1 }

/-- That task, saved; its record stands at GLOB address 0, where every byte is 0. -/
def savedTask : Saved := { task := placedTask, core := Core.idle, home := 0, clock := Clock.zero, sealed := none, behind := [] }

/-- No core has a task, and the slice of cluster 0 owes byte 100 of the SPAD of core 0, as in `atGlobEnd`. -/
def savedAway : State :=
  { State.reset with
    dev := { atGlobEnd.dev with
      boot := [(0, .ready)]
      sched := { Device.reset.sched with
        launches := [oneTask], nextLaunch := 1, saved := [savedTask], savepool := [(0, BitVec.ofNat 64 (2 ^ 52 * 4 + 2 ^ 21 * 16))] } } }

theorem savedAway_ok : savedAway.Ok := by
  refine ⟨by decide, by decide, by decide, by decide, by simp [savedAway, State.reset], ?_⟩
  intro v hv
  obtain rfl := List.mem_singleton.mp hv
  exact Core.idle_ok

theorem savedAway_runs :
    savedAway.findLaunch 0 = some oneTask ∧ savedAway.ctxActive oneTask.ctx = true ∧ savedAway.accepts (dieOf 0) = true ∧
      savedAway.gangAnswers oneTask 0 = true ∧ savedAway.todo oneTask 0 = some [0] ∧ savedAway.coreFree oneTask.ctx 0 = true ∧
      Launch.plan [0] [0] oneTask [] = some [(0, 0)] ∧ savedAway.recordOk 0 0 = true := by
  decide +kernel

theorem restorable_savedTask : savedAway.restorable savedTask 0 = true := by decide +kernel

/-- The byte that the record has for byte 100 of the scratchpad. -/
theorem savedAway_record_byte : savedAway.byte (mkey .glob 0 (0 + 0x100000 + 100)) = 0 := by decide +kernel

/-- Byte 100 of the SPAD of core 0 after an outcome. -/
def spadByte100 : Host.Outcome State Fault Refusal → Option Byte
  | .next t => some (t.byte (mkey .spad 0 100))
  | _ => none

/-- The lines that the new core would read are dropped after its arrays have come from the record, and what they owe goes home then. -/
theorem spadByte100_exec_savedAway : spadByte100 (exec (.taskRestore 0 0) savedAway) = some 7 := by decide +kernel

end Sys2Proof.Machine

namespace Sys2Proof

open Sys2Proof.Machine

/-- Refutes O45: a line of a slice may have any key. Where the slice of the new core's cluster owes a byte of the new core's SPAD, the
restore drops the line after it has read the record, and the owed byte, 7, stands over the record's, 0. -/
theorem not_taskEvents : ¬ Obligations.TaskEvents := by
  unfold Obligations.TaskEvents
  intro h
  obtain ⟨hfind, hactive, haccepts, hgang, htodo, hfree, hplan, hrecord⟩ := savedAway_runs
  obtain ⟨-, -, -, -, -, -, -, hrestore, -⟩ := h savedAway 0 savedAway_ok
  obtain ⟨t, hexec, -, -, -, -, hback, -⟩ :=
    hrestore [] savedTask [] oneTask rfl (fun u hu => nomatch (show u ∈ ([] : List Saved) from hu)) rfl hfind hactive haccepts hgang
      restorable_savedTask htodo hfree rfl hplan
  obtain ⟨-, -, -, hspad⟩ := hback hrecord
  have hbyte := spadByte100_exec_savedAway
  have hzero : t.byte (mkey .spad 0 100) = 0 := (hspad 100 (by decide)).trans savedAway_record_byte
  rw [show exec (.taskRestore 0 0) savedAway = .next t from hexec, spadByte100, hzero] at hbyte
  exact absurd hbyte (by decide)

end Sys2Proof
end

section
/-! SUPPORT. Copies, homes and messages (R252 to R254, R265, R271): what the traffic between them leaves of the cores and of the issue, and
which bytes of memory a write-back leaves. -/

namespace Sys2Proof.Machine

/-! ### What the memory system leaves of the cores -/

/-- Two cores have the same registers, and the same of everything that is on its way to them. -/
def SameRegs (c d : Core) : Prop := d.r = c.r ∧ d.t = c.t ∧ d.bank = c.bank

/-- The issue stays, and of every core its registers with what is on its way to them. -/
def KeepsRegs (s t : State) : Prop := t.iss = s.iss ∧ ∀ m, SameRegs (s.core m) (t.core m)

theorem SameRegs.refl (c : Core) : SameRegs c c := ⟨rfl, rfl, rfl⟩

theorem SameRegs.trans {a b c : Core} (h : SameRegs a b) (h' : SameRegs b c) : SameRegs a c :=
  ⟨h'.1.trans h.1, h'.2.1.trans h.2.1, h'.2.2.trans h.2.2⟩

theorem KeepsRegs.refl (s : State) : KeepsRegs s s := ⟨rfl, fun _ => .refl _⟩

theorem KeepsRegs.trans {s t u : State} (h : KeepsRegs s t) (h' : KeepsRegs t u) : KeepsRegs s u :=
  ⟨h'.1.trans h.1, fun m => (h.2 m).trans (h'.2 m)⟩

/-- Whatever happens outside the table of cores and the issue. -/
theorem KeepsRegs.of_eq {s t : State} (hiss : t.iss = s.iss) (hcores : t.cores = s.cores) : KeepsRegs s t :=
  ⟨hiss, fun m => by rw [State.core, State.core, hcores]; exact .refl _⟩

theorem OnlyDevice.keepsRegs {s t : State} (h : OnlyDevice s t) : KeepsRegs s t := by
  obtain ⟨_, rfl⟩ := h
  exact .of_eq rfl rfl

theorem OnlyBanks.keepsRegs {s t : State} (h : OnlyBanks s t) : KeepsRegs s t := h.onlyDevice.keepsRegs

theorem State.setCore_keepsRegs {s : State} {n : Nat} {c : Core} (h : SameRegs (s.core n) c) : KeepsRegs s (s.setCore n c) := by
  refine ⟨rfl, fun m => ?_⟩
  by_cases hm : m = n
  · subst hm
    rwa [State.core_setCore_same]
  · rw [State.core_setCore_other _ _ hm]
    exact .refl _

theorem KeepsRegs.setCore {s t : State} {n : Nat} {c : Core} (h : KeepsRegs s t) (hc : SameRegs (t.core n) c) :
    KeepsRegs s (t.setCore n c) :=
  h.trans (State.setCore_keepsRegs hc)

theorem KeepsRegs.ite {p : Prop} [Decidable p] {s t u : State} (ht : KeepsRegs s t) (hu : KeepsRegs s u) :
    KeepsRegs s (if p then t else u) := by
  split
  · exact ht
  · exact hu

theorem KeepsRegs.foldl {α : Type} {f : State → α → State} (hf : ∀ s a, KeepsRegs s (f s a)) (l : List α) (s : State) :
    KeepsRegs s (l.foldl f s) := by
  induction l generalizing s with
  | nil => exact .refl s
  | cons a t ih => exact (hf s a).trans (ih _)

/-- A table of which every entry keeps its place and what `R` says of it. -/
theorem lookupD_map_rel {α : Type} {R : α → α → Prop} {d : α} (hd : R d d) {f : Nat → α → α} (hf : ∀ n a, R a (f n a))
    (l : List (Nat × α)) (m : Nat) : R (lookupD d l m) (lookupD d (l.map (fun e => (e.1, f e.1 e.2))) m) := by
  induction l with
  | nil => exact hd
  | cons e t ih =>
    simp only [List.map_cons, lookupD]
    split
    · exact hf _ _
    · split
      · exact hd
      · exact ih

theorem KeepsRegs.of_map {s t : State} (hiss : t.iss = s.iss) {f : Nat → Core → Core} (hf : ∀ n c, SameRegs c (f n c))
    (hcores : t.cores = s.cores.map (fun e => (e.1, f e.1 e.2))) : KeepsRegs s t :=
  ⟨hiss, fun m => by rw [State.core, State.core, hcores]; exact lookupD_map_rel (.refl _) hf _ m⟩

theorem State.cleanL1_keepsRegs (s : State) (sel : Nat → CLine → Bool) : KeepsRegs s (s.cleanL1 sel) := by
  unfold State.cleanL1
  extract_lets gone
  exact .ite (.refl s) (.of_map (f := fun n c =>
    { c with m := { c.m with l1 := c.m.l1.map (fun l => if l.dirty && sel n l then l.cleaned else l) } }) rfl (fun _ _ => ⟨rfl, rfl, rfl⟩) rfl)

theorem State.mapLines_keepsRegs (s : State) (clus : Nat → Bool) (g : CLine → Option CLine) : KeepsRegs s (s.mapLines clus g) := by
  refine .of_map (f := fun n c =>
    if clus (clusterOf n) then { c with m := { c.m with l1 := c.m.l1.filterMap g } } else c) rfl (fun _ _ => ?_) rfl
  split <;> exact ⟨rfl, rfl, rfl⟩

theorem State.refuseStore_keepsRegs (s : State) (n : Nat) (a : Access) (v : Verdict) (key : Nat) :
    KeepsRegs s (s.refuseStore n a v key) := by
  unfold State.refuseStore
  extract_lets s1
  have h1 : KeepsRegs s s1 := (s.countDenial_onlyBanks ..).keepsRegs
  exact .ite h1 (h1.setCore ⟨rfl, rfl, rfl⟩)

theorem State.failOwed_keepsRegs (s : State) (clu : Nat) (l : CLine) : KeepsRegs s (s.failOwed clu l) := by
  unfold State.failOwed
  extract_lets hits owners
  exact KeepsRegs.foldl (fun s e => s.refuseStore_keepsRegs ..) owners s

theorem State.setMs_keepsRegs (s : State) (m : MemSys) : KeepsRegs s (s.setMs m) := .of_eq rfl rfl
theorem State.addMarks_keepsRegs (s : State) (gs : List Nat) : KeepsRegs s (s.addMarks gs) := .of_eq rfl rfl
theorem State.storeRels_keepsRegs (s : State) (keys : List Nat) (rel : Option Rel) : KeepsRegs s (s.storeRels keys rel) := .of_eq rfl rfl

theorem State.storeEach_keepsRegs (s : State) (bytes : List (Nat × Byte)) : KeepsRegs s (s.storeEach bytes) := by
  induction bytes generalizing s with
  | nil => exact .refl s
  | cons b t ih => exact .trans (.of_eq rfl rfl) (ih _)

theorem State.writeBytes_keepsRegs (s : State) (bytes : List (Nat × Byte)) : KeepsRegs s (s.writeBytes bytes) :=
  (s.storeEach_keepsRegs bytes).trans (.of_eq rfl rfl)

theorem State.clean_keepsRegs (s : State) (sel : Nat → CLine → Bool) : KeepsRegs s (s.clean sel) := by
  unfold State.clean
  extract_lets s1 chosen owed shut marks s2 s3 s4
  have h1 : KeepsRegs s s1 := s.cleanL1_keepsRegs _
  have h2 : KeepsRegs s s2 := .ite h1 ((h1.trans (s1.writeBytes_keepsRegs owed)).trans (State.storeRels_keepsRegs ..))
  have h3 : KeepsRegs s s3 := .ite h2 (h2.trans (s2.addMarks_keepsRegs _))
  have h4 : KeepsRegs s s4 := h3.trans (KeepsRegs.foldl (fun s e => (s.failOwed_keepsRegs ..).trans (State.mapLines_keepsRegs ..)) shut s3)
  exact h4.trans (s4.setMs_keepsRegs _)

theorem State.dropWhere_keepsRegs (s : State) (clus p : Nat → Bool) : KeepsRegs s (s.dropWhere clus p) :=
  (s.clean_keepsRegs _).trans (State.mapLines_keepsRegs _ _ _)

theorem State.discardFar_keepsRegs (s : State) (n : Nat) : KeepsRegs s (s.discardFar n) := s.dropWhere_keepsRegs _ _

theorem State.settleFences_keepsRegs (s : State) (n : Nat) : KeepsRegs s (s.settleFences n) := by
  unfold State.settleFences
  extract_lets c due s1 c1
  exact .ite ((s.discardFar_keepsRegs n).setCore ⟨rfl, rfl, rfl⟩) (State.setCore_keepsRegs ⟨rfl, rfl, rfl⟩)

/-! ### What a write-back leaves of memory -/

theorem State.failOwed_mem (s : State) (clu : Nat) (l : CLine) : (s.failOwed clu l).mem = s.mem := by
  have hone : ∀ (s : State) (e : Nat × Access) (k : Nat), (s.refuseStore e.1 e.2 .link k).mem = s.mem := by
    intro s e k
    unfold State.refuseStore
    extract_lets s1
    have h1 : s1.mem = s.mem := (s.countDenial_onlyBanks ..).mem_eq
    split <;> exact h1
  have hfold : ∀ (k : Nat) (es : List (Nat × Access)) (s : State),
      (es.foldl (fun s e => s.refuseStore e.1 e.2 .link k) s).mem = s.mem := by
    intro k es
    induction es with
    | nil => exact fun _ => rfl
    | cons e t ih => exact fun s => (ih _).trans (hone s e k)
  exact hfold _ _ s

/-- What the L1s have given to the slices leaves each line's place and what it owes. -/
theorem State.mem_cleanL1_lines {s : State} {sel : Nat → CLine → Bool} {e : Nat × CLine} (he : e ∈ (s.cleanL1 sel).dev.ms.lines) :
    ∃ l, (e.1, l) ∈ s.dev.ms.lines ∧ l.key = e.2.key ∧ l.owing = e.2.owing := by
  have hkeep : ∀ (gone : List (Nat × CLine)) (c : Nat) (l : CLine),
      let l' := gone.foldl (fun l e => if e.1 = c ∧ e.2.key = l.key then { l with marks := l.marks ||| e.2.marks, dirty := true } else l) l
      l'.key = l.key ∧ l'.owing = l.owing := by
    intro gone c
    induction gone with
    | nil => exact fun _ => ⟨rfl, rfl⟩
    | cons g t ih =>
      intro l
      obtain ⟨hkey, howing⟩ := ih (if g.1 = c ∧ g.2.key = l.key then { l with marks := l.marks ||| g.2.marks, dirty := true } else l)
      refine ⟨hkey.trans ?_, howing.trans ?_⟩ <;> split <;> rfl
  unfold State.cleanL1 at he
  extract_lets gone s1 at he
  split at he
  · exact ⟨e.2, he, rfl, rfl⟩
  · obtain ⟨⟨c, l⟩, hl, rfl⟩ := List.mem_map.1 he
    obtain ⟨hkey, howing⟩ := hkeep gone c l
    exact ⟨l, hl, hkey.symm, howing.symm⟩

/-- A byte that no chosen line owes stays. -/
theorem State.clean_byte {s : State} {sel : Nat → CLine → Bool} {x : Nat} (hwf : Memory.wf s.mem = true)
    (hx : ∀ e ∈ (s.cleanL1 (fun n l => sel (clusterOf n) l)).dev.ms.lines, sel e.1 e.2 = true → ∀ b ∈ e.2.owing, b.1 ≠ x) :
    (s.clean sel).byte x = s.byte x := by
  unfold State.clean
  extract_lets s1 chosen owed shut marks s2 s3 s4
  have h1 : s1.mem = s.mem := s.cleanL1_mem _
  have howed : ∀ b ∈ owed, b.1 ≠ x := by
    intro b hb
    obtain ⟨e, he, hbe⟩ := List.mem_flatMap.1 hb
    obtain ⟨hmem, hsel⟩ := List.mem_filter.1 (List.mem_filter.1 he).1
    exact hx e hmem hsel b hbe
  have h2 : s2.byte x = s.byte x := by
    simp only [s2]
    split
    · exact congrArg (Memory.read · x) h1
    · have hwrite : (s1.writeBytes owed).mem = owed.foldl (fun m b => Memory.write m b.1 b.2) s1.mem := State.storeEach_mem _ _
      rw [State.byte, State.storeRels_mem, hwrite, h1, Memory.read_foldl_write hwf, lastAt_eq_none howed]
      rfl
  have h3 : s3.mem = s2.mem := by
    simp only [s3]
    split <;> rfl
  have h4 : s4.mem = s3.mem := by
    have hfold : ∀ (es : List (Nat × CLine)) (s : State), (es.foldl (fun s e =>
        (s.failOwed e.1 e.2).mapLines (· == e.1) (fun l => if l.key = e.2.key then none else some l)) s).mem = s.mem := by
      intro es
      induction es with
      | nil => exact fun _ => rfl
      | cons e t ih => exact fun s => (ih _).trans (s.failOwed_mem e.1 e.2)
    exact hfold shut s3
  exact (congrArg (Memory.read · x) (h4.trans h3)).trans h2

theorem State.owing_ne_of_owedBy {s : State} {clu x : Nat} (h : s.owedBy clu x = false) {e : Nat × CLine} (he : e ∈ s.dev.ms.lines)
    (hclu : e.1 = clu) : ∀ b ∈ e.2.owing, b.1 ≠ x := by
  intro b hb hbx
  have hany : s.owedBy clu x = true := by
    refine Bool.or_eq_true_iff.2 (.inl (List.any_eq_true.2 ⟨e, he, ?_⟩))
    simp only [hclu, beq_self_eq_true, Bool.true_and, Bool.or_eq_true]
    exact .inl (List.any_eq_true.2 ⟨b, hb, by simp [hbx]⟩)
  rw [hany] at h
  cases h

/-- HOST and PEER lines that go take home what they owe, and nothing else. -/
theorem State.discardFar_byte {s : State} {n x : Nat} (hwf : Memory.wf s.mem = true)
    (hx : ∀ e ∈ s.dev.ms.lines, e.1 = clusterOf n → ∀ b ∈ e.2.owing, b.1 ≠ x) :
    (s.discardFar n).byte x = s.byte x := by
  have hdrop : (s.discardFar n).mem = (s.clean (fun c l => c == clusterOf n && farKey l.key)).mem := by
    rw [State.discardFar, State.dropWhere, State.mapLines_mem]
  rw [State.byte, hdrop]
  refine State.clean_byte (sel := fun c l => c == clusterOf n && farKey l.key) hwf fun e he hsel => ?_
  obtain ⟨l, hl, -, howing⟩ := State.mem_cleanL1_lines he
  rw [Bool.and_eq_true, beq_iff_eq] at hsel
  rw [← howing]
  exact hx _ hl hsel.1

theorem State.settleFences_byte {s : State} {n x : Nat} (hwf : Memory.wf s.mem = true)
    (hx : ∀ e ∈ s.dev.ms.lines, e.1 = clusterOf n → ∀ b ∈ e.2.owing, b.1 ≠ x) :
    (s.settleFences n).byte x = s.byte x := by
  unfold State.settleFences
  extract_lets c due s1 c1
  split
  · exact State.discardFar_byte hwf hx
  · rfl

end Sys2Proof.Machine
end

section
/-! SUPPORT. What falls due at a core's boundary beside its results (R53, R55, R199 to R201): landing writes, the format mode, and the
blocks and the retiring of an engine operation. -/

namespace Sys2Proof.Machine

theorem becomes_of_setCore {s : State} {i : Instr} {n : Nat} {c : Core} (h : exec i s = .next (s.setCore n c)) : Becomes s i n c :=
  ⟨_, h, rfl, rfl, rfl, rfl, rfl, rfl, rfl, rfl, rfl, State.core_setCore_same .., fun _ hm => State.core_setCore_other _ _ hm⟩

/-! ### Landing entries (R53) -/

/-- A landing entry writes an x, h or V register, no CSR and no operand row. -/
theorem Landing.write_keeps (l : Landing) (n : Nat) (s : State) :
    ((applyWrite n l.write s).core n).c = (s.core n).c ∧ Write.isRow l.write = false := by
  unfold Landing.write
  cases l.dest <;> dsimp only <;> split <;> simp [applyWrite, Write.isRow]

theorem writeLandings_eq {s t : State} {n : Nat} {due : List Landing} (hdue : (s.core n).landDue = due)
    (ht : t = s.writeAll n (due.map Landing.write)) :
    s.writeLandings n = t.setCore n { (t.core n).setNarrow (due.any (·.narrow)) with
      t := { (s.core n).t with landing := (s.core n).t.landing.filter (·.rem != 0) } } := by
  subst hdue
  have hwrites : (s.core n).landDue.foldl (fun s l => applyWrite n l.write s) s = t := by
    rw [ht, State.writeAll, List.foldl_map]
  rw [State.writeLandings, hwrites, ← show (t.core n).t = (s.core n).t from ht ▸ writeAll_t n _ s]

theorem writeAll_landings_c (n : Nat) (due : List Landing) (s : State) :
    ((s.writeAll n (due.map Landing.write)).core n).c = (s.core n).c :=
  foldl_kept (proj := fun s => (s.core n).c) (fun s w hw => by
    obtain ⟨l, -, rfl⟩ := List.mem_map.1 hw
    exact (l.write_keeps n s).1) s

theorem landings_not_isRow (n : Nat) (due : List Landing) (s : State) : (due.map Landing.write).any Write.isRow = false := by
  refine List.any_eq_false.2 fun w hw => ?_
  obtain ⟨l, -, rfl⟩ := List.mem_map.1 hw
  simp [(l.write_keeps n s).2]

/-! ### One operation among the others -/

section Middle

variable {α : Type} {p : α → Bool} {pre post : List α} {o : α}

theorem filter_middle (hothers : ∀ e ∈ pre ++ post, p e = false) (ho : p o = true) : (pre ++ o :: post).filter p = [o] := by
  have hpre : pre.filter p = [] := List.filter_eq_nil_iff.2 fun e he => by simp [hothers e (by simp [he])]
  have hpost : post.filter p = [] := List.filter_eq_nil_iff.2 fun e he => by simp [hothers e (by simp [he])]
  rw [List.filter_append, List.filter_cons_of_pos ho, hpre, hpost, List.nil_append]

theorem filter_not_middle (hothers : ∀ e ∈ pre ++ post, p e = false) (ho : p o = true) :
    (pre ++ o :: post).filter (fun e => !p e) = pre ++ post := by
  have hpre : pre.filter (fun e => !p e) = pre := List.filter_eq_self.2 fun e he => by simp [hothers e (by simp [he])]
  have hpost : post.filter (fun e => !p e) = post := List.filter_eq_self.2 fun e he => by simp [hothers e (by simp [he])]
  rw [List.filter_append, List.filter_cons_of_neg (by simp [ho]), hpre, hpost]

theorem map_ite_middle {f : α → α} (hothers : ∀ e ∈ pre ++ post, p e = false) (ho : p o = true) :
    (pre ++ o :: post).map (fun e => if p e then f e else e) = pre ++ f o :: post := by
  have hself : ∀ l : List α, (∀ e ∈ l, p e = false) → l.map (fun e => if p e then f e else e) = l := fun l hl =>
    (List.map_congr_left (g := id) fun e he => by simp [hl e he]).trans (List.map_id l)
  have hpre := hself pre fun e he => hothers e (by simp [he])
  have hpost := hself post fun e he => hothers e (by simp [he])
  rw [List.map_append, List.map_cons, hpre, hpost, if_pos ho]

end Middle

/-! ### Blocks at the port (R199, R201) -/

theorem getD_putElems {l new : List DWord} {b k : Nat} (hl : l.length = 1024) (hnew : new.length = 128) (hb : b < 8) :
    (putElems l (128 * b) new).getD k 0 = if k / 128 = b then new.getD (k - 128 * b) 0 else l.getD k 0 := by
  have htake : (l.take (128 * b)).length = 128 * b := by rw [List.length_take]; omega
  simp only [putElems, List.getD_eq_getElem?_getD, hnew, List.append_assoc]
  by_cases h1 : k < 128 * b
  · rw [List.getElem?_append_left (by omega), List.getElem?_take_of_lt h1, if_neg (by omega)]
  · rw [List.getElem?_append_right (by omega), htake]
    by_cases h2 : k < 128 * b + 128
    · rw [List.getElem?_append_left (by omega), if_pos (by omega)]
    · rw [List.getElem?_append_right (by omega), List.getElem?_drop, if_neg (by omega),
        show 128 * b + 128 + (k - 128 * b - new.length) = k by omega]

theorem length_putElems {l new : List DWord} {b : Nat} (hl : l.length = 1024) (hnew : new.length = 128) (hb : b < 8) :
    (putElems l (128 * b) new).length = 1024 := by
  simp only [putElems, List.length_append, List.length_take, List.length_drop, hl, hnew]
  omega

/-- The block of a plain operation. -/
theorem EngOp.block_blocks {o : EngOp} {kind : TileKind} {es : List DWord} (hres : o.res = .blocks kind es) (hlen : es.length = 1024)
    (hdone : o.done < 8) (x : Int) :
    (o.block x o.done).length = 128 ∧ ∀ j, j < 128 → (o.block x o.done).getD j 0 = es.getD (128 * o.done + j) 0 := by
  unfold EngOp.block
  rw [hres]
  refine ⟨by simp only [List.length_take, List.length_drop]; omega, fun j hj => ?_⟩
  simp only [List.getD_eq_getElem?_getD]
  rw [List.getElem?_take_of_lt hj, List.getElem?_drop]

/-- The block of a block-scaled operation, under the exponent `x`. -/
theorem EngOp.block_scaled {o : EngOp} {ps : List (Int × Bool)} {acc : List DWord} (hres : o.res = .scaled ps acc)
    (hps : ps.length = 1024) (hacc : acc.length = 1024) (hdone : o.done < 8) (x : Int) :
    (o.block x o.done).length = 128 ∧ ∀ j, j < 128 → (o.block x o.done).getD j 0 =
      scaleElem o.rm (ps.getD (128 * o.done + j) (0, false)).1 (ps.getD (128 * o.done + j) (0, false)).2 x
        (acc.getD (128 * o.done + j) 0) := by
  unfold EngOp.block
  rw [hres]
  refine ⟨by simp only [List.length_map, List.length_zip, List.length_take, List.length_drop]; omega, fun j hj => ?_⟩
  have hp : 128 * o.done + j < ps.length := by omega
  have ha : 128 * o.done + j < acc.length := by omega
  simp only [List.getD_eq_getElem?_getD, List.getElem?_map, List.zip, List.getElem?_zipWith,
    List.getElem?_take_of_lt hj, List.getElem?_drop, List.getElem?_eq_getElem hp, List.getElem?_eq_getElem ha]
  rfl

/-- The elements of a tile that a block goes into; a tile of another length has 1,024 zeros (R199). -/
def Tile.fullElems (t : Tile) : List DWord := if t.elems.length = 1024 then t.elems else zeroElems

theorem Tile.length_fullElems (t : Tile) : t.fullElems.length = 1024 := by
  unfold Tile.fullElems
  split
  · assumption
  · exact List.length_replicate

theorem Tile.getD_fullElems (t : Tile) (k : Nat) : t.fullElems.getD k 0 = if t.elems.length = 1024 then t.elems.getD k 0 else 0 := by
  unfold Tile.fullElems
  split
  · rfl
  · rw [zeroElems, List.getD_eq_getElem?_getD, List.getElem?_replicate]
    split <;> rfl

/-- The core after the block of an operation has left the port: its elements in the tile, and its flags. -/
theorem Core.leavePort_eq {c : Core} {o : EngOp} {new : List DWord} (hnew : o.block c.scaleNow o.done = new) (hlen : new.length = 128) :
    c.leavePort o = { c with
      r := { c.r with tiles := c.r.tiles.set o.md.toNat { c.tile o.md with elems := putElems (c.tile o.md).fullElems (128 * o.done) new } }
      c := { c.c with flags := if o.atRetire then c.c.flags else c.c.flags ||| o.flags.getD o.done 0 } } := by
  have hne : new.isEmpty = false := by
    cases new with
    | nil => cases hlen
    | cons a l => rfl
  unfold Core.leavePort
  simp only [hnew, hne]
  cases o.atRetire <;> rfl

theorem Core.portBlocks_eq {c : Core} {pre post : List EngOp} {o : EngOp} (heng : c.t.eng = pre ++ o :: post)
    (hothers : ∀ e ∈ pre ++ post, e.portDue = false) (ho : o.portDue = true) (ht : (c.leavePort o).t = c.t) :
    c.portBlocks = { c.leavePort o with t := { c.t with
      eng := pre ++ { o with done := o.done + 1 } :: post, scale := c.t.scale.filter (·.rem != 0) } } := by
  unfold Core.portBlocks
  rw [heng, filter_middle hothers ho]
  simp only [List.foldl_cons, List.foldl_nil]
  rw [ht, heng, map_ite_middle hothers ho]

/-! ### Retiring (R199, R200, R225, R419) -/

/-- The tile of an operation whose last block has left the port. -/
def EngOp.tileAfter (o : EngOp) (t : Tile) : Tile :=
  match o.res with
  | .whole rank u v => { kind := .lowRank, rank := rank, panels := o.reserved.take (2 * rank), elems := [], u := u, v := v }
  | .blocks kind _ => { kind := kind, rank := 0, panels := o.reserved.take 32, elems := t.elems, u := [], v := [] }
  | .scaled _ _ => { kind := .dense, rank := 0, panels := o.reserved.take 32, elems := t.elems, u := [], v := [] }

/-- The exponent of an MBFLY is added to its register. -/
def EngOp.addExp (o : EngOp) (c : Core) : Core :=
  match o.xdest with
  | some (r, e) => c.addX r e
  | none => c

/-- The core with the tile, the flags and the exponent of an operation, before its slots are released. -/
def EngOp.stands (o : EngOp) (c : Core) : Core :=
  o.addExp (if o.atRetire then (c.setTile o.md (o.tileAfter (c.tile o.md))).flag (o.flags.foldl (· ||| ·) 0)
    else c.setTile o.md (o.tileAfter (c.tile o.md)))

def Core.unclaim (c : Core) (l : List OSlot) : Core := l.foldl (fun c os => c.setSlot os { c.slot os with claimed := false }) c

/-- An operation takes over, from the one that retires, the release of the slots that it still locks. -/
def EngOp.takeOver (held : List OSlot) (e : EngOp) : EngOp :=
  { e with lastRead := e.lastRead ++ held.filter (fun k => e.slots.contains k && !e.lastRead.contains k) }

def Core.passLast (held : List OSlot) (c : Core) : Core :=
  { c with
    t := { c.t with eng := c.t.eng.map (EngOp.takeOver held) }
    bank := c.bank.map (fun b => { b with t := { b.t with eng := b.t.eng.map (EngOp.takeOver held) } }) }

theorem Core.addX_keeps (c : Core) (k : XReg) (e : DWord) :
    (c.addX k e).t = c.t ∧ (c.addX k e).c = c.c ∧ (c.addX k e).bank = c.bank ∧ (c.addX k e).r.tiles = c.r.tiles ∧
      (c.addX k e).r.slots = c.r.slots := by
  have hwx : ∀ v, (c.wx k v).bank = c.bank ∧ (c.wx k v).r.tiles = c.r.tiles ∧ (c.wx k v).r.slots = c.r.slots := fun v => by
    unfold Core.wx; split <;> exact ⟨rfl, rfl, rfl⟩
  have hmark : ∀ d : Core, (d.markX k).bank = d.bank ∧ (d.markX k).r.tiles = d.r.tiles ∧ (d.markX k).r.slots = d.r.slots := fun d => by
    unfold Core.markX; split <;> exact ⟨rfl, rfl, rfl⟩
  unfold Core.addX
  split <;> simp [hwx, hmark]

theorem Core.rx_addX (c : Core) (k : XReg) (e : DWord) (r : XReg) :
    (c.addX k e).rx r = if r = k ∧ r ≠ 0 then c.rx r + e else c.rx r := by
  have hval : (c.addX k e).rx r = (c.wx k (c.rx k + e)).rx r := by
    unfold Core.addX
    split
    · rw [Core.rx_markX]
    · rfl
  rw [hval, Core.rx_wx]
  by_cases h : k = r
  · subst h; rfl
  · rw [if_neg (fun hh => h hh.1), if_neg (fun hh => h hh.1.symm)]

theorem EngOp.addExp_keeps (o : EngOp) (c : Core) :
    (o.addExp c).t = c.t ∧ (o.addExp c).c = c.c ∧ (o.addExp c).bank = c.bank ∧ (o.addExp c).r.tiles = c.r.tiles ∧
      (o.addExp c).r.slots = c.r.slots := by
  unfold EngOp.addExp
  split
  · exact c.addX_keeps ..
  · exact ⟨rfl, rfl, rfl, rfl, rfl⟩

theorem EngOp.stands_keeps (o : EngOp) (c : Core) :
    (o.stands c).t = c.t ∧ (o.stands c).bank = c.bank ∧ (o.stands c).r.slots = c.r.slots ∧
      (o.stands c).r.tiles = c.r.tiles.set o.md.toNat (o.tileAfter (c.tile o.md)) ∧
      (o.stands c).c = { c.c with flags := if o.atRetire then c.c.flags ||| o.flags.foldl (· ||| ·) 0 else c.c.flags } := by
  unfold EngOp.stands
  obtain ⟨ht, hc, hbank, htiles, hslots⟩ := o.addExp_keeps (if o.atRetire then
    (c.setTile o.md (o.tileAfter (c.tile o.md))).flag (o.flags.foldl (· ||| ·) 0) else c.setTile o.md (o.tileAfter (c.tile o.md)))
  rw [ht, hc, hbank, htiles, hslots]
  split <;> exact ⟨rfl, rfl, rfl, rfl, rfl⟩

theorem EngOp.rx_stands_none {o : EngOp} (hx : o.xdest = none) (c : Core) (r : XReg) : (o.stands c).rx r = c.rx r := by
  unfold EngOp.stands EngOp.addExp
  rw [hx]
  dsimp only
  split <;> rfl

theorem EngOp.rx_stands_some {o : EngOp} {k : XReg} {e : DWord} (hx : o.xdest = some (k, e)) (c : Core) (r : XReg) :
    (o.stands c).rx r = if r = k ∧ r ≠ 0 then c.rx r + e else c.rx r := by
  unfold EngOp.stands EngOp.addExp
  rw [hx]
  dsimp only
  rw [Core.rx_addX]
  have hbefore : (if o.atRetire then (c.setTile o.md (o.tileAfter (c.tile o.md))).flag (o.flags.foldl (· ||| ·) 0)
      else c.setTile o.md (o.tileAfter (c.tile o.md))).rx r = c.rx r := by split <;> rfl
  rw [hbefore]

theorem Core.slot_setSlot (c : Core) (os : OSlot) (v : SlotSt) (k : OSlot) : (c.setSlot os v).slot k = if k = os then v else c.slot k := by
  simp only [Core.slot, Core.setSlot, Vector.getElem_set]
  by_cases h : k = os
  · rw [if_pos (congrArg BitVec.toNat h.symm), if_pos h]
  · rw [if_neg (fun e => h (BitVec.eq_of_toNat_eq e.symm)), if_neg h]

theorem Core.unclaim_keeps (c : Core) (l : List OSlot) :
    (c.unclaim l).t = c.t ∧ (c.unclaim l).c = c.c ∧ (c.unclaim l).bank = c.bank ∧ (c.unclaim l).r.x = c.r.x ∧
      (c.unclaim l).r.tiles = c.r.tiles := by
  induction l generalizing c with
  | nil => exact ⟨rfl, rfl, rfl, rfl, rfl⟩
  | cons os l ih => exact ih _

theorem Core.slot_unclaim (c : Core) (l : List OSlot) (k : OSlot) :
    (c.unclaim l).slot k = if k ∈ l then { c.slot k with claimed := false } else c.slot k := by
  induction l generalizing c with
  | nil => simp [Core.unclaim]
  | cons os l ih =>
    have hstep : c.unclaim (os :: l) = (c.setSlot os { c.slot os with claimed := false }).unclaim l := rfl
    rw [hstep, ih, Core.slot_setSlot]
    by_cases h : k = os
    · subst h; simp
    · simp [h]

/-- What another operation of the core still locks. -/
def Core.locked (c : Core) (os : OSlot) : Bool := (c.engOps.filter (fun k => !k.retires)).any (fun k => k.slots.contains os)

theorem Core.retireOp_eq (c : Core) (o : EngOp) :
    c.retireOp o = ((o.stands c).unclaim (o.lastRead.filter (fun os => !c.locked os))).passLast (o.lastRead.filter c.locked) := by
  obtain ⟨ht, hbank, -⟩ := o.stands_keeps c
  unfold Core.retireOp
  extract_lets tl c1 c2 c3 rest
  have h3 : c3 = o.stands c := by
    have h1 : c1 = c.setTile o.md (o.tileAfter (c.tile o.md)) := by
      simp only [c1, EngOp.tileAfter]
      cases o.res <;> rfl
    simp only [c3, c2, h1]
    rfl
  have hlocked : (fun os => rest.any (fun k => k.slots.contains os)) = c.locked := by
    funext os
    simp only [rest, Core.locked, Core.engOps, h3, ht, hbank]
  rw [hlocked, List.partition_eq_filter_filter, h3]
  rfl

/-- One operation retires at a boundary. -/
theorem Core.retireEngine_eq {c : Core} {pre post : List EngOp} {o : EngOp} (heng : c.t.eng = pre ++ o :: post)
    (hothers : ∀ e ∈ pre ++ post, e.retires = false) (ho : o.retires = true) :
    c.retireEngine = { (c.retireOp o).subTl with
      t := { c.t with eng := (pre ++ post).map (EngOp.takeOver (o.lastRead.filter c.locked)) } } := by
  have ht : (c.retireOp o).t = { c.t with eng := c.t.eng.map (EngOp.takeOver (o.lastRead.filter c.locked)) } := by
    obtain ⟨hu, -⟩ := (o.stands c).unclaim_keeps (o.lastRead.filter (fun os => !c.locked os))
    obtain ⟨hs, -⟩ := o.stands_keeps c
    rw [Core.retireOp_eq, Core.passLast, hu, hs]
  have hfilter : ∀ l : List EngOp, (l.map (EngOp.takeOver (o.lastRead.filter c.locked))).filter (fun e => !e.retires) =
      (l.filter (fun e => !e.retires)).map (EngOp.takeOver (o.lastRead.filter c.locked)) := fun l => by
    rw [List.filter_map]
    rfl
  have htimes : (c.retireOp o).subTl.t = (c.retireOp o).t := rfl
  unfold Core.retireEngine
  rw [heng, filter_middle hothers ho]
  simp only [List.foldl_cons, List.foldl_nil]
  rw [htimes, ht, hfilter, heng, filter_not_middle hothers ho]

/-! ### What the events do -/

theorem stays_of_frozen {s : State} {n : Nat} (h : (s.core n).frozen = true) {i : Instr}
    (hi : i ∈ ([.landingCountExpiry n, .fmtShadowExpiry n, .portBlock n, .xscaleExecute n, .engineRetire n] : List Instr)) : Stays s i := by
  have hdue : s.resultsDue n = true := by simp [State.resultsDue, h]
  simp only [List.mem_cons, List.not_mem_nil, or_false] at hi
  rcases hi with rfl | rfl | rfl | rfl | rfl
  · exact (exec_landingCountExpiry n s).trans (if_pos h)
  · exact (exec_fmtShadowExpiry n s).trans (if_pos h)
  · exact (exec_portBlock n s).trans (if_pos hdue)
  · exact (exec_xscaleExecute n s).trans (if_pos (by simp [hdue]))
  · exact (exec_engineRetire n s).trans (if_pos hdue)

theorem exec_fmtShadowExpiry_of_not_frozen {s : State} {n : Nat} (h : (s.core n).frozen = false) :
    exec (.fmtShadowExpiry n) s = .next (s.setCore n (s.core n).endShadow) :=
  (exec_fmtShadowExpiry n s).trans (if_neg (by simp [h]))

theorem exec_portBlock_of_due {s : State} {n : Nat} (h : s.resultsDue n = false) :
    exec (.portBlock n) s = .next (s.setCore n (s.core n).portBlocks) :=
  (exec_portBlock n s).trans (if_neg (by simp [h]))

theorem exec_xscaleExecute_of_due {s : State} {n : Nat} {e : ScaleEntry} (h : s.resultsDue n = false)
    (he : (s.core n).t.scale.filter (·.rem == 0) = [e]) :
    exec (.xscaleExecute n) s = .next (s.setCore n (s.core n).portBlocks) ∧ (s.core n).scaleNow = e.e := by
  have hmem : e ∈ (s.core n).t.scale.filter (·.rem == 0) := by simp [he]
  have hany : (s.core n).t.scale.any (·.rem == 0) = true := by
    obtain ⟨hin, hrem⟩ := List.mem_filter.1 hmem
    exact List.any_eq_true.2 ⟨e, hin, hrem⟩
  refine ⟨(exec_xscaleExecute n s).trans (if_neg (by simp [h, hany])), ?_⟩
  rw [Core.scaleNow, ← List.head?_filter, he]
  rfl

/-- A block leaves the port: `val` gives the elements of the operation's result. -/
theorem Core.portBlocks_writes {c : Core} {pre post : List EngOp} {o : EngOp} {val : Nat → DWord} (heng : c.t.eng = pre ++ o :: post)
    (hothers : ∀ e ∈ pre ++ post, e.portDue = false) (hleft : o.left < 8 - o.done) (hdone : o.done < 8)
    (hlen : (o.block c.scaleNow o.done).length = 128)
    (hval : ∀ j, j < 128 → (o.block c.scaleNow o.done).getD j 0 = val (128 * o.done + j)) :
    ∃ es : List DWord, es.length = 1024 ∧
      (∀ k, k < 1024 → es.getD k 0 = if k / 128 = o.done then val k
        else if (c.tile o.md).elems.length = 1024 then (c.tile o.md).elems.getD k 0 else 0) ∧
      c.portBlocks = { c with
        r := { c.r with tiles := c.r.tiles.set o.md.toNat { c.tile o.md with elems := es } }
        c := { c.c with flags := if o.atRetire then c.c.flags else c.c.flags ||| o.flags.getD o.done 0 }
        t := { c.t with
          eng := pre ++ { o with done := o.done + 1 } :: post
          scale := c.t.scale.filter (·.rem != 0) } } := by
  have hdue : o.portDue = true := by simp [EngOp.portDue, hleft, hdone]
  have hport := Core.leavePort_eq rfl hlen
  refine ⟨putElems (c.tile o.md).fullElems (128 * o.done) (o.block c.scaleNow o.done),
    length_putElems (Tile.length_fullElems _) hlen hdone, fun k _ => ?_, ?_⟩
  · rw [getD_putElems (Tile.length_fullElems _) hlen hdone, Tile.getD_fullElems]
    split
    · next hk => rw [hval _ (by omega), show 128 * o.done + (k - 128 * o.done) = k by omega]
    · rfl
  · rw [Core.portBlocks_eq heng hothers hdue (by rw [hport]), hport]

theorem exec_engineRetire_of_due {s : State} {n : Nat} (h : s.resultsDue n = false) :
    exec (.engineRetire n) s = .next (s.setCore n (s.core n).retireEngine) :=
  (exec_engineRetire n s).trans (if_neg (by simp [h]))

theorem Core.locked_eq_false {c : Core} {os : OSlot} :
    c.locked os = false ↔ ∀ e ∈ c.engOps.filter (fun k => !k.retires), os ∉ e.slots := by
  simp [Core.locked]

theorem Core.engOps_not_retiring {c : Core} {pre post : List EngOp} {o : EngOp} (heng : c.t.eng = pre ++ o :: post)
    (hothers : ∀ e ∈ pre ++ post, e.retires = false) (ho : o.retires = true) :
    c.engOps.filter (fun k => !k.retires) = pre ++ post ++ (match c.bank with
      | some b => b.t.eng.filter (fun e => !e.retires)
      | none => []) := by
  rw [Core.engOps, List.filter_append, heng, filter_not_middle hothers ho]
  cases c.bank <;> rfl

theorem Core.retireEngine_regs {c : Core} {pre post : List EngOp} {o : EngOp} (heng : c.t.eng = pre ++ o :: post)
    (hothers : ∀ e ∈ pre ++ post, e.retires = false) (ho : o.retires = true) :
    c.retireEngine.c = { c.c with
      tl := c.c.tl - 1, flags := if o.atRetire then c.c.flags ||| o.flags.foldl (· ||| ·) 0 else c.c.flags } ∧
    c.retireEngine.r.tiles = c.r.tiles.set o.md.toNat (o.tileAfter (c.tile o.md)) ∧
    (∀ k, c.retireEngine.slot k = if k ∈ o.lastRead ∧ c.locked k = false then { c.slot k with claimed := false } else c.slot k) ∧
    ∀ r, c.retireEngine.rx r = (o.stands c).rx r := by
  obtain ⟨-, -, hsslots, hstiles, hsc⟩ := o.stands_keeps c
  obtain ⟨hc, hr⟩ : c.retireEngine.c = { ((o.stands c).unclaim (o.lastRead.filter (fun os => !c.locked os))).c with
      tl := ((o.stands c).unclaim (o.lastRead.filter (fun os => !c.locked os))).c.tl - 1 } ∧
      c.retireEngine.r = ((o.stands c).unclaim (o.lastRead.filter (fun os => !c.locked os))).r := by
    rw [Core.retireEngine_eq heng hothers ho, Core.retireOp_eq]
    exact ⟨rfl, rfl⟩
  obtain ⟨-, huc, -, hux, hutiles⟩ := (o.stands c).unclaim_keeps (o.lastRead.filter (fun os => !c.locked os))
  have hslots := (o.stands c).slot_unclaim (o.lastRead.filter (fun os => !c.locked os))
  refine ⟨by rw [hc, huc, hsc], by rw [hr, hutiles, hstiles], fun k => ?_, fun r => by rw [Core.rx, Core.rx, hr, hux]⟩
  have hsame : (o.stands c).slot k = c.slot k := by rw [Core.slot, Core.slot, hsslots]
  rw [Core.slot, hr, ← Core.slot, hslots, hsame]
  simp [List.mem_filter]

end Sys2Proof.Machine
end

section
/-! SUPPORT. The blocks of a weight fill (R191, R192, R296, R298): what one block leaves in its line of the slot. -/

namespace Sys2Proof.Machine

/-! ### Fills of a core -/

theorem Core.fillOf_setFill (c : Core) (os : OSlot) {g : Fill → Fill} (hg : ∀ f, (g f).os = f.os) :
    (c.setFill os g).fillOf os = (c.fillOf os).map g := by
  have hfind : ∀ l : List Fill, (l.map (fun f => if f.os = os then g f else f)).find? (·.os == os) = (l.find? (·.os == os)).map g := by
    intro l
    induction l with
    | nil => rfl
    | cons f l ih =>
      by_cases h : f.os = os
      · simp [h, hg]
      · simp [h, ih]
  unfold Core.fillOf Core.setFill
  cases c.bank <;> simp only [Option.map_none, Option.map_some, ← List.map_append, List.append_nil, hfind]

theorem Core.endFills_eq (c : Core) : c.endFills = { c with
    c := { c.c with wl := c.c.wl - c.fillsDue.length }, t := { c.t with fills := c.t.fills.filter (·.rem != 0) } } := by
  have hwl : ∀ (l : List Fill) (c : Core), l.foldl (fun c _ => c.subWl) c = { c with c := { c.c with wl := c.c.wl - l.length } } := by
    intro l
    induction l with
    | nil => exact fun _ => rfl
    | cons f l ih =>
      intro c
      rw [List.foldl_cons, ih, List.length_cons, Nat.add_comm, Nat.sub_add_eq]
      rfl
  rw [Core.endFills, hwl]

/-! ### What a block holds -/

theorem State.fillBlock_of_denied {s : State} {n a : Nat} (h : s.fillAllowed n a = false) :
    ∃ vals side, s.fillBlock n a = (vals, side, false) ∧ vals.length = 256 ∧ side.length = 32 ∧
      (∀ k, k < 256 → vals.getD k 0 = fld (Config.freeWord s.free) (8 * (k % 128)) 8) ∧
      ∀ k, k < 32 → side.getD k 0 = fld (Config.freeWord s.free) (8 * k) 8 := by
  refine ⟨_, _, if_pos (by simp [h]), by simp, by simp, fun k hk => ?_, fun k hk => ?_⟩
  · simp [List.getD_eq_getElem?_getD, hk]
  · simp [List.getD_eq_getElem?_getD, show 256 + k < 288 by omega, show (256 + k) % 128 = k by omega]

theorem State.fillBlock_of_slot {s : State} {n a sl : Nat} (h : s.fillAllowed n a = true)
    (hsl : s.slotOfBlock (bankOf (dieOf n) a) (blkOf a) = some sl) :
    s.fillBlock n a = (s.slotVals (bankOf (dieOf n) a) sl,
      if bit (s.slotFlags (bankOf (dieOf n) a) sl) 0 then s.slotSide (bankOf (dieOf n) a) sl else List.replicate 32 0,
      !s.slotBad (bankOf (dieOf n) a) sl) := by
  unfold State.fillBlock
  simp only [h, Bool.not_true, Bool.false_eq_true, if_false, hsl]

theorem State.slotVals_length (s : State) (b sl : Nat) : (s.slotVals b sl).length = 256 := Memory.readList_length ..
theorem State.slotSide_length (s : State) (b sl : Nat) : (s.slotSide b sl).length = 32 := Memory.readList_length ..

/-- A block brings 256 bytes of values and 32 of side store. -/
theorem State.fillBlock_lengths (s : State) (n a : Nat) : (s.fillBlock n a).1.length = 256 ∧ (s.fillBlock n a).2.1.length = 32 := by
  cases h : s.fillAllowed n a with
  | false =>
    obtain ⟨vals, side, hb, hv, hs, -⟩ := State.fillBlock_of_denied h
    rw [hb]
    exact ⟨hv, hs⟩
  | true =>
    cases hsl : s.slotOfBlock (bankOf (dieOf n) a) (blkOf a) with
    | none =>
      unfold State.fillBlock
      simp only [h, hsl]
      exact ⟨List.length_replicate, List.length_replicate⟩
    | some sl =>
      rw [State.fillBlock_of_slot h hsl]
      refine ⟨State.slotVals_length .., ?_⟩
      dsimp only
      split
      · exact State.slotSide_length ..
      · exact List.length_replicate

/-! ### One block goes into its line -/

/-- The errors of a block's read, counted. -/
def State.countFill (s : State) (n a : Nat) : State :=
  let s := if s.fillMacFails n a then s.countMac n (dieOf n) a true else s
  if s.fillAllowed n a then s else s.countDenial n (s.miscOf n) .denied (mkey .wgt (dieOf n) a) true

theorem State.countFill_onlyBanks (s : State) (n a : Nat) : OnlyBanks s (s.countFill n a) := by
  unfold State.countFill
  extract_lets s1
  have h1 : OnlyBanks s s1 := .ite (s.mcRecord_onlyBanks ..) (.refl s)
  exact .ite h1 (h1.trans (s1.countDenial_onlyBanks ..))

/-- The line of a slot that takes a block: verified or marked. -/
def SlotSt.take (t : SlotSt) (i : Nat) (ok : Bool) : SlotSt :=
  { t with verified := setBit t.verified i ok, marks := setBit (setBit t.marks (2 * i) (!ok)) (2 * i + 1) (!ok) }

/-- A fill has one more block. -/
def Fill.grow (i : Nat) (f : Fill) : Fill := { f with done := f.done ++ [i] }

/-- The state before the boundary's fences are settled. -/
def State.fillLine (s : State) (n : Nat) (os : OSlot) (i : Nat) (b : List Byte × List Byte × Bool) : State :=
  let d := { s.deposit n os i b.1 b.2.1 b.2.2 with free := s.free + 1 }
  d.setCore n ((d.core n).setFill os (Fill.grow i))

theorem State.takeBlock_eq (s : State) (n : Nat) (os : OSlot) (f : Fill) :
    s.takeBlock n os f true = ((s.countFill n (f.addr + 256 * f.done.length)).fillLine n os f.done.length
      (s.fillBlock n (f.addr + 256 * f.done.length))).settleFences n := by
  unfold State.takeBlock
  simp only [Bool.and_true]
  rfl

theorem State.fillLine_core (s : State) (n : Nat) (os : OSlot) (i : Nat) (b : List Byte × List Byte × Bool) :
    (s.fillLine n os i b).core n = ((s.core n).setSlot os (((s.core n).slot os).take i b.2.2)).setFill os
      (Fill.grow i) := by
  have hdep : (s.deposit n os i b.1 b.2.1 b.2.2).core n = (s.core n).setSlot os (((s.core n).slot os).take i b.2.2) :=
    State.core_setCore_same ..
  exact (State.core_setCore_same ..).trans (congrArg (Core.setFill · os _) hdep)

theorem State.fillLine_mem (s : State) (n : Nat) (os : OSlot) (i : Nat) (b : List Byte × List Byte × Bool) :
    (s.fillLine n os i b).mem = Memory.writeList (Memory.writeList s.mem (osKey n os + 256 * i) b.1) (sideKey n os i) b.2.1 := rfl

theorem State.fillLine_dev (s : State) (n : Nat) (os : OSlot) (i : Nat) (b : List Byte × List Byte × Bool) :
    (s.fillLine n os i b).dev = s.dev := rfl

/-- The slots of the core after a block. -/
theorem State.slot_takeBlock (s : State) (n : Nat) (os : OSlot) (f : Fill) (k : OSlot) :
    ((s.takeBlock n os f true).core n).slot k = if k = os
      then ((s.core n).slot os).take f.done.length (s.fillBlock n (f.addr + 256 * f.done.length)).2.2 else (s.core n).slot k := by
  obtain ⟨hr, -⟩ := (State.settleFences_keepsRegs ((s.countFill n (f.addr + 256 * f.done.length)).fillLine n os f.done.length
    (s.fillBlock n (f.addr + 256 * f.done.length))) n).2 n
  obtain ⟨hrc, -⟩ := (s.countFill_onlyBanks n (f.addr + 256 * f.done.length)).keepsRegs.2 n
  have hslot : ∀ j, ((s.countFill n (f.addr + 256 * f.done.length)).core n).slot j = (s.core n).slot j := fun j => by
    rw [Core.slot, Core.slot, hrc]
  rw [State.takeBlock_eq, Core.slot, hr, State.fillLine_core, ← Core.slot]
  exact (Core.slot_setSlot ..).trans (by rw [hslot, hslot])

theorem State.fillOf_takeBlock (s : State) (n : Nat) (os : OSlot) (f : Fill) :
    ((s.takeBlock n os f true).core n).fillOf os =
      ((s.core n).fillOf os).map (Fill.grow f.done.length) := by
  obtain ⟨-, ht, hbank⟩ := (State.settleFences_keepsRegs ((s.countFill n (f.addr + 256 * f.done.length)).fillLine n os f.done.length
    (s.fillBlock n (f.addr + 256 * f.done.length))) n).2 n
  obtain ⟨-, htc, hbankc⟩ := (s.countFill_onlyBanks n (f.addr + 256 * f.done.length)).keepsRegs.2 n
  have hof : ∀ {c d : Core}, d.t = c.t → d.bank = c.bank → d.fillOf os = c.fillOf os := fun h h' => by
    rw [Core.fillOf, Core.fillOf, h, h']
  rw [State.takeBlock_eq, hof ht hbank, State.fillLine_core, Core.fillOf_setFill (g := Fill.grow f.done.length) _ _ (fun _ => rfl)]
  exact congrArg _ (hof (c := s.core n) htc hbankc)

/-- A byte that the core's slice does not owe reads what the block leaves in memory. -/
theorem State.takeBlock_byte {s : State} {n : Nat} {os : OSlot} {f : Fill} {x : Nat} (hwf : Memory.wf s.mem = true)
    (hx : s.owedBy (clusterOf n) x = false) :
    (s.takeBlock n os f true).byte x = Memory.read (Memory.writeList (Memory.writeList s.mem (osKey n os + 256 * f.done.length)
      (s.fillBlock n (f.addr + 256 * f.done.length)).1) (sideKey n os f.done.length)
      (s.fillBlock n (f.addr + 256 * f.done.length)).2.1) x := by
  have hbanks := s.countFill_onlyBanks n (f.addr + 256 * f.done.length)
  have hlines : (s.countFill n (f.addr + 256 * f.done.length)).dev.ms.lines = s.dev.ms.lines := by
    obtain ⟨_, _, he⟩ := hbanks
    rw [he]
  rw [State.takeBlock_eq, State.settleFences_byte]
  · rw [State.byte, State.fillLine_mem, hbanks.mem_eq]
  · rw [State.fillLine_mem, hbanks.mem_eq]
    exact Memory.writeList_wf _ _ (Memory.writeList_wf _ _ hwf)
  · rw [State.fillLine_dev, hlines]
    exact fun e he hclu => State.owing_ne_of_owedBy hx he hclu

section Bytes

variable {s : State} {n : Nat} {os : OSlot} {f : Fill} (hwf : Memory.wf s.mem = true)
include hwf

theorem State.takeBlock_byte_outside {x : Nat} (hx : s.owedBy (clusterOf n) x = false)
    (hv : x < osKey n os + 256 * f.done.length ∨ osKey n os + 256 * f.done.length + 256 ≤ x)
    (hs : x < sideKey n os f.done.length ∨ sideKey n os f.done.length + 32 ≤ x) : (s.takeBlock n os f true).byte x = s.byte x := by
  obtain ⟨hlv, hls⟩ := s.fillBlock_lengths n (f.addr + 256 * f.done.length)
  rw [State.takeBlock_byte hwf hx, Memory.read_writeList_outside _ (Memory.writeList_wf _ _ hwf) (by omega),
    Memory.read_writeList_outside _ hwf (by omega)]
  rfl

theorem State.takeBlock_byte_vals {k : Nat} (hk : k < 256) (hdone : f.done.length < 32)
    (hx : s.owedBy (clusterOf n) (osKey n os + 256 * f.done.length + k) = false) :
    (s.takeBlock n os f true).byte (osKey n os + 256 * f.done.length + k) =
      (s.fillBlock n (f.addr + 256 * f.done.length)).1.getD k 0 := by
  obtain ⟨hlv, hls⟩ := s.fillBlock_lengths n (f.addr + 256 * f.done.length)
  have hos := os.isLt
  have hbelow : osKey n os + 256 * f.done.length + k < sideKey n os f.done.length := by
    simp only [osKey, sideKey, mkey, MSpace.code]
    omega
  rw [State.takeBlock_byte hwf hx, Memory.read_writeList_outside _ (Memory.writeList_wf _ _ hwf) (.inl hbelow),
    Memory.read_writeList_inside _ _ hwf (by omega), List.getD_eq_getElem]

theorem State.takeBlock_byte_side {k : Nat} (hk : k < 32) (hx : s.owedBy (clusterOf n) (sideKey n os f.done.length + k) = false) :
    (s.takeBlock n os f true).byte (sideKey n os f.done.length + k) =
      (s.fillBlock n (f.addr + 256 * f.done.length)).2.1.getD k 0 := by
  obtain ⟨hlv, hls⟩ := s.fillBlock_lengths n (f.addr + 256 * f.done.length)
  rw [State.takeBlock_byte hwf hx, Memory.read_writeList_inside _ _ (Memory.writeList_wf _ _ hwf) (by omega), List.getD_eq_getElem]

end Bytes

theorem SlotSt.take_bits (t : SlotSt) {i : Nat} (hi : i < 32) (ok : Bool) :
    bit (t.take i ok).verified i = ok ∧ bit (t.take i ok).marks (2 * i) = !ok ∧ bit (t.take i ok).marks (2 * i + 1) = !ok := by
  refine ⟨?_, ?_, ?_⟩
  · exact (getLsbD_setBit ..).trans (if_pos ⟨rfl, hi⟩)
  · exact (getLsbD_setBit ..).trans ((if_neg (by omega)).trans ((getLsbD_setBit ..).trans (if_pos ⟨rfl, by omega⟩)))
  · exact (getLsbD_setBit ..).trans (if_pos ⟨rfl, by omega⟩)

/-- R298, R346: the block of another context's region. -/
theorem State.fillAllowed_eq_false {s : State} {n a : Nat} : s.fillAllowed n a = false ↔
    match s.regionOf (dieOf n) (a / 2 ^ 29) (blkOf a) with
    | some r => r.toNat / 2 ^ 112 % 2 ^ 16 ≠ (s.ctxOf n).toNat ∧ r.toNat / 2 ^ 112 % 2 ^ 16 ≠ 0
    | none => False := by
  unfold State.fillAllowed
  cases s.regionOf (dieOf n) (a / 2 ^ 29) (blkOf a) with
  | none => simp
  | some r =>
    have hfld : (fld r 112 16).toNat = r.toNat / 2 ^ 112 % 2 ^ 16 := by
      rw [BitVec.extractLsb'_toNat, Nat.shiftRight_eq_div_pow]
    simp [← BitVec.toNat_inj, hfld]

end Sys2Proof.Machine
end

section
/-! SUPPORT. The events of landing entries, the engine and weight fills, clause by clause (R53, R192, R199 to R201, R296). -/

namespace Sys2Proof.Machine

section Boundary

variable {s : State} {n : Nat}

theorem landings_written (h : (s.core n).frozen = false) :
    ∃ t, exec (.landingCountExpiry n) s = .next t ∧
      (t.core n).t = { (s.core n).t with landing := (s.core n).t.landing.filter (·.rem != 0) } ∧
      (t.core n).c = { (s.core n).c with narrow := (s.core n).c.narrow || (s.core n).landDue.any (·.narrow) } ∧
      (∀ k, (t.core n).r.v[k]? = ((s.core n).r.v[k]?).map ((s.core n).landDue.foldl (fun v l => Write.onV k l.write v))) ∧
      (∀ r, (t.core n).rx r = (((s.core n).landDue.filterMap (fun l => Write.onX r l.write)).getLast?).getD ((s.core n).rx r)) ∧
      (∀ r, (t.core n).rh r = ((((s.core n).landDue.filterMap (fun l => Write.onH r l.write)).getLast?).map (·.1)).getD ((s.core n).rh r)) ∧
      (∀ m, m ≠ n → t.core m = s.core m) ∧ t.dev = s.dev ∧ t.mem = s.mem ∧ t.tags = s.tags ∧ t.marks = s.marks := by
  obtain ⟨u, hu⟩ : ∃ u, u = s.writeAll n ((s.core n).landDue.map Landing.write) := ⟨_, rfl⟩
  have hexec : exec (.landingCountExpiry n) s = .next (s.writeLandings n) :=
    (exec_landingCountExpiry n s).trans (if_neg (by simp [h]))
  have hc : (s.writeLandings n).core n = { (u.core n).setNarrow ((s.core n).landDue.any (·.narrow)) with
      t := { (s.core n).t with landing := (s.core n).t.landing.filter (·.rem != 0) } } := by
    rw [writeLandings_eq rfl hu, State.core_setCore_same]
  have hr : ((s.writeLandings n).core n).r = (u.core n).r := by rw [hc]; rfl
  have hcsr : ((s.writeLandings n).core n).c = ((u.core n).setNarrow ((s.core n).landDue.any (·.narrow))).c := by rw [hc]
  obtain ⟨hdev, -⟩ := writeAll_frame n ((s.core n).landDue.map Landing.write) s
  obtain ⟨hmem, htags, hmarks⟩ := writeAll_memory n _ s (landings_not_isRow n (s.core n).landDue s)
  refine ⟨_, hexec, by rw [hc], ?_, fun k => ?_, fun r => ?_, fun r => ?_, fun m hm => ?_, ?_⟩
  · have huc : (u.core n).c = (s.core n).c := hu ▸ writeAll_landings_c ..
    rw [hcsr, Core.setNarrow, huc]
  · rw [hr, hu, writeAll_v]
    simp only [List.foldl_map]
  · rw [Core.rx, hr, ← Core.rx, hu, writeAll_rx, List.filterMap_map]
    rfl
  · have hpair := congrArg Prod.fst (writeAll_rh n ((s.core n).landDue.map Landing.write) s r)
    rw [List.filterMap_map] at hpair
    rw [Core.rh, hr, ← Core.rh, hu]
    refine hpair.trans ?_
    change _ = ((List.filterMap (Write.onH r ∘ Landing.write) _).getLast?.map _).getD _
    cases ((s.core n).landDue.filterMap (Write.onH r ∘ Landing.write)).getLast? <;> rfl
  · rw [writeLandings_eq rfl hu, State.core_setCore_other _ _ hm, hu, writeAll_other _ _ _ hm]
  · rw [writeLandings_eq rfl hu]
    exact ⟨hu ▸ hdev, hu ▸ hmem, hu ▸ htags, hu ▸ hmarks⟩

theorem shadow_rules {f : FmtShadow} (h : (s.core n).frozen = false) (hf : (s.core n).t.shadow = some f) :
    Becomes s (.fmtShadowExpiry n) n (if f.rem = 0
      then { s.core n with c := { (s.core n).c with acc := f.acc, rm := f.rm }, t := { (s.core n).t with shadow := none } }
      else s.core n) := by
  have hend : (s.core n).endShadow = if f.rem = 0
      then { s.core n with c := { (s.core n).c with acc := f.acc, rm := f.rm }, t := { (s.core n).t with shadow := none } }
      else s.core n := by
    rw [Core.endShadow, hf]
  exact hend ▸ becomes_of_setCore (exec_fmtShadowExpiry_of_not_frozen h)

theorem no_shadow (h : (s.core n).frozen = false) (hf : (s.core n).t.shadow = none) : Becomes s (.fmtShadowExpiry n) n (s.core n) := by
  have hend : (s.core n).endShadow = s.core n := by rw [Core.endShadow, hf]
  have hbecomes := becomes_of_setCore (exec_fmtShadowExpiry_of_not_frozen h)
  rwa [hend] at hbecomes

theorem engine_starts (s : State) (n : Nat) : Becomes s (.engineOpStart n) n { s.core n with t := { (s.core n).t with
    eng := (s.core n).t.eng.map (fun o => if o.begun = false ∧ o.left ≤ o.dur + 8 then { o with begun := true } else o) } } := by
  have hstart : (s.core n).startEngine = { s.core n with t := { (s.core n).t with
      eng := (s.core n).t.eng.map (fun o => if o.begun = false ∧ o.left ≤ o.dur + 8 then { o with begun := true } else o) } } := by
    simp [Core.startEngine, EngOp.starts]
  exact hstart ▸ becomes_of_setCore (exec_engineOpStart n s)

/-- What an operation that retires passes on: only slots that the other still locks count. -/
theorem takeOver_locked {c : Core} {o e : EngOp} (he : e ∈ c.engOps.filter (fun k => !k.retires)) :
    e.takeOver (o.lastRead.filter c.locked) =
      { e with lastRead := e.lastRead ++ o.lastRead.filter (fun k => e.slots.contains k && !e.lastRead.contains k) } := by
  have hlocks : ∀ k, e.slots.contains k = true → c.locked k = true := fun k hk => List.any_eq_true.2 ⟨e, he, hk⟩
  have hsame : (o.lastRead.filter c.locked).filter (fun k => e.slots.contains k && !e.lastRead.contains k) =
      o.lastRead.filter (fun k => e.slots.contains k && !e.lastRead.contains k) := by
    rw [List.filter_filter]
    refine List.filter_congr fun k _ => ?_
    cases hk : e.slots.contains k with
    | false => simp
    | true => simp [hlocks k hk]
  rw [EngOp.takeOver, hsame]

theorem osKey_add (n : Nat) (os : OSlot) (i : Nat) : osKey n os + 256 * i = mkey .opmem n (8192 * os.toNat + 256 * i) :=
  (mkey_add ..).symm

theorem exec_wloadBlockArrival_of_ready {os : OSlot} {f : Fill} (hf : (s.core n).fillOf os = some f) (h : s.blockReady n f = true) :
    exec (.wloadBlockArrival n os) s = .next (s.takeBlock n os f true) := by
  simp only [exec_wloadBlockArrival, execWloadBlockArrival, hf, h]
  rfl

theorem exec_wloadFillExpiry_of_due {os : OSlot} {f : Fill} (h : s.resultsDue n = false) (hf : f ∈ (s.core n).t.fills) (hos : f.os = os)
    (hrem : f.rem = 0) : exec (.wloadFillExpiry n os) s = .next (s.setCore n (s.core n).endFills) := by
  have hany : (s.core n).fillsDue.any (·.os == os) = true :=
    List.any_eq_true.2 ⟨f, List.mem_filter.2 ⟨hf, by simp [hrem]⟩, by simp [hos]⟩
  exact (exec_wloadFillExpiry n os s).trans (if_neg (by simp [h, hany]))

end Boundary

section Block

variable {s : State} {n : Nat} {os : OSlot} {f : Fill} (hwf : Memory.wf s.mem = true) (hdone : f.done.length < 32)
include hwf hdone

/-- R298, R346: a refused block is a free value, unverified and marked. -/
theorem takeBlock_of_barred (h : s.fillAllowed n (f.addr + 256 * f.done.length) = false) :
    let t := s.takeBlock n os f true
    bit ((t.core n).slot os).verified f.done.length = false ∧ bit ((t.core n).slot os).marks (2 * f.done.length) = true ∧
      bit ((t.core n).slot os).marks (2 * f.done.length + 1) = true ∧
      (∀ k, k < 256 → s.owedBy (clusterOf n) (osKey n os + 256 * f.done.length + k) = false →
        t.byte (osKey n os + 256 * f.done.length + k) = fld (Config.freeWord s.free) (8 * (k % 128)) 8) ∧
      ∀ k, k < 32 → s.owedBy (clusterOf n) (sideKey n os f.done.length + k) = false →
        t.byte (sideKey n os f.done.length + k) = fld (Config.freeWord s.free) (8 * k) 8 := by
  obtain ⟨vals, side, hb, -, -, hvals, hside⟩ := State.fillBlock_of_denied h
  obtain ⟨hver, heven, hodd⟩ := SlotSt.take_bits ((s.core n).slot os) hdone false
  dsimp only
  rw [State.slot_takeBlock, if_pos rfl, hb]
  refine ⟨hver, heven, hodd, fun k hk hx => ?_, fun k hk hx => ?_⟩
  · rw [State.takeBlock_byte_vals hwf hk hdone hx, hb]
    exact hvals k hk
  · rw [State.takeBlock_byte_side hwf hk hx, hb]
    exact hside k hk

/-- R191, R296: the contents of the block's slot, verified where its MAC holds and marked where it does not. -/
theorem takeBlock_of_slot {sl : Nat} (h : s.fillAllowed n (f.addr + 256 * f.done.length) = true)
    (hsl : s.slotOfBlock (bankOf (dieOf n) (f.addr + 256 * f.done.length)) (blkOf (f.addr + 256 * f.done.length)) = some sl) :
    let t := s.takeBlock n os f true
    let b := bankOf (dieOf n) (f.addr + 256 * f.done.length)
    (∀ k, k < 256 → s.owedBy (clusterOf n) (osKey n os + 256 * f.done.length + k) = false →
        t.byte (osKey n os + 256 * f.done.length + k) = (s.slotVals b sl).getD k 0) ∧
      (∀ k, k < 32 → s.owedBy (clusterOf n) (sideKey n os f.done.length + k) = false →
        t.byte (sideKey n os f.done.length + k) = if bit (s.slotFlags b sl) 0 then (s.slotSide b sl).getD k 0 else 0) ∧
      bit ((t.core n).slot os).verified f.done.length = (!s.slotBad b sl) ∧
      bit ((t.core n).slot os).marks (2 * f.done.length) = s.slotBad b sl ∧
      bit ((t.core n).slot os).marks (2 * f.done.length + 1) = s.slotBad b sl := by
  have hb := State.fillBlock_of_slot h hsl
  dsimp only
  obtain ⟨hver, heven, hodd⟩ := SlotSt.take_bits ((s.core n).slot os) hdone
    (!s.slotBad (bankOf (dieOf n) (f.addr + 256 * f.done.length)) sl)
  rw [Bool.not_not] at heven hodd
  rw [State.slot_takeBlock, if_pos rfl, hb]
  refine ⟨fun k hk hx => ?_, fun k hk hx => ?_, hver, heven, hodd⟩
  · rw [State.takeBlock_byte_vals hwf hk hdone hx, hb]
  · rw [State.takeBlock_byte_side hwf hk hx, hb]
    dsimp only
    split
    · rfl
    · exact List.getD_replicate _ hk

end Block

end Sys2Proof.Machine

namespace Sys2Proof

open Sys2Proof.Machine

/-- Settles O39, clause by clause: the entries due at a boundary are one list of register writes, a block puts 128 elements into its tile,
an operation that retires releases the slots that no other locks, and a block of a fill is two writes of memory outside what the slice
owes. -/
theorem engineAndFillEvents : Obligations.EngineAndFillEvents := by
  unfold Obligations.EngineAndFillEvents
  refine ⟨fun s n => ?_, fun s n os hs => ?_⟩
  · dsimp only
    refine ⟨fun h i hi => stays_of_frozen h hi, fun h => ⟨landings_written h, fun f hf => shadow_rules h hf, fun hf => no_shadow h hf⟩,
      engine_starts s n, fun hdue pre o post heng hothers hleft hdone => ⟨fun kind es hres hes => ?_, fun ps acc e hres hps hacc he => ?_⟩,
      fun hdue pre o post heng hleft hdone hothers => ?_⟩
    · obtain ⟨hlen, hval⟩ := EngOp.block_blocks hres hes hdone (s.core n).scaleNow
      obtain ⟨new, hnew, hget, hport⟩ := Core.portBlocks_writes (val := fun k => es.getD k 0) heng hothers hleft hdone hlen hval
      exact ⟨new, hnew, hget, hport ▸ becomes_of_setCore (exec_portBlock_of_due hdue)⟩
    · obtain ⟨hexec, hscale⟩ := exec_xscaleExecute_of_due hdue he
      obtain ⟨hlen, hval⟩ := EngOp.block_scaled hres hps hacc hdone e.e
      rw [← hscale] at hlen hval
      obtain ⟨new, hnew, hget, hport⟩ := Core.portBlocks_writes (val := fun k => scaleElem o.rm (ps.getD k (0, false)).1
        (ps.getD k (0, false)).2 (s.core n).scaleNow (acc.getD k 0)) heng hothers hleft hdone hlen hval
      rw [hscale] at hget
      exact ⟨new, hnew, hget, hport ▸ becomes_of_setCore hexec⟩
    · have ho : o.retires = true := by simp [EngOp.retires, hleft, hdone]
      have hrest := Core.engOps_not_retiring heng hothers ho
      obtain ⟨hcsr, htiles, hslots, hrx⟩ := Core.retireEngine_regs heng hothers ho
      refine ⟨_, becomes_of_setCore (exec_engineRetire_of_due hdue), by rw [hcsr], ?_, by rw [hcsr], fun k => ?_, fun m hm => ?_, ?_,
        fun r => ?_⟩
      · rw [Core.retireEngine_eq heng hothers ho]
        refine congrArg (fun l => ({ (s.core n).t with eng := l } : Timing)) (List.map_congr_left fun e he => ?_)
        exact takeOver_locked (hrest ▸ List.mem_append_left _ he)
      · exact (hslots k).trans (if_congr (and_congr_right fun _ => Core.locked_eq_false.trans (hrest ▸ Iff.rfl)) rfl rfl)
      · rw [Core.tile, htiles]
        exact Vector.getElem_set_ne _ _ (fun h => hm (BitVec.eq_of_toNat_eq h.symm))
      · rw [Core.tile, htiles]
        refine (Vector.getElem_set_self _).trans ?_
        cases hres : o.res <;> simp only [EngOp.tileAfter, hres]
      · rw [hrx]
        cases hx : o.xdest with
        | none => exact EngOp.rx_stands_none hx _ r
        | some d => exact EngOp.rx_stands_some hx _ r
  · dsimp only
    refine ⟨fun hf => ?_, fun f hf hready => ?_, fun f hf hfull => ?_, fun f hf hdone hready => ?_, fun hdue ⟨f, hf, hfos, hrem⟩ => ?_,
      fun hdue => ?_⟩
    · exact (exec_wloadBlockArrival n os s).trans (by rw [execWloadBlockArrival, hf])
    · exact (exec_wloadBlockArrival n os s).trans (by simp only [execWloadBlockArrival, hf, hready]; rfl)
    · simp [State.blockReady, Fill.full, hfull]
    · refine ⟨_, exec_wloadBlockArrival_of_ready hf hready, fun k hk => (State.slot_takeBlock ..).trans (if_neg hk), fun x hx hv hsd => ?_,
        fun g hg => ?_, fun hbar => ?_, fun hbar sl hsl => ?_⟩
      · rw [mkey_add _ _ _ 256, ← osKey_add] at hv
        rw [mkey_add _ _ _ 32] at hsd
        exact State.takeBlock_byte_outside hs.1 hx hv hsd
      · rw [State.fillOf_takeBlock, hf] at hg
        cases hg
        rfl
      · rw [← osKey_add]
        exact takeBlock_of_barred hs.1 hdone (State.fillAllowed_eq_false.2 hbar)
      · rw [← osKey_add]
        exact takeBlock_of_slot hs.1 hdone (Bool.eq_true_of_not_eq_false fun h => hbar (State.fillAllowed_eq_false.1 h)) hsl
    · exact Core.endFills_eq _ ▸ becomes_of_setCore (exec_wloadFillExpiry_of_due hdue hf hfos hrem)
    · exact (exec_wloadFillExpiry n os s).trans (if_pos (by simp [hdue]))

end Sys2Proof
end

section
/-! SUPPORT. Every operation, like every event, ends in a next state (R7): a trap is one too. -/

namespace Sys2Proof.Machine

open Host (Outcome)

/-! ### The shapes of operations -/

theorem slotOp_answers {i : Instr} {s : State} {k : Core → Except Fail Core} : Answers (slotOp i s k) := by
  unfold slotOp
  split
  · exact answers_next _
  · split
    · exact answers_next _
    · exact answers_next _

theorem slotOpS_answers {i : Instr} {s : State} {k : State → Core → Except Fail State} : Answers (slotOpS i s k) := by
  unfold slotOpS
  split
  · exact answers_next _
  · split
    · exact answers_next _
    · exact answers_next _

theorem slotOpE_answers {i : Instr} {els : Core → List (Nat × Nat)} {s : State} {k : State → Core → Except Fail State} :
    Answers (slotOpE i els s k) := by
  unfold slotOpE
  split
  · exact answers_next _
  · split
    · exact answers_next _
    · exact answers_next _

theorem matOpL_answers {i : Instr} {s : State} {marks : Core → Word → List Holder} {k : State → Core → Word → Except Fail State} :
    Answers (matOpL i s marks k) := by
  unfold matOpL
  extract_lets c lit
  split
  · exact answers_next _
  · refine answers_ite (answers_next _) (answers_ite (answers_next _) ?_)
    split
    · exact answers_next _
    · exact answers_next _
    · exact answers_next _

theorem jobOp_answers {i : Instr} {s : State} {hs : List HReg} {k : State → Core → Except Fail State} : Answers (jobOp i s hs k) := by
  unfold jobOp
  split
  · exact answers_next _
  · exact slotOpS_answers

theorem cardOp_answers {i : Instr} {f : CjF} {wpe : Bool} {s : State} {k : State → Core → BitVec 512 → Nat → Except Fail State} :
    Answers (cardOp i f wpe s k) := by
  unfold cardOp
  extract_lets off
  split
  · split
    · exact answers_next _
    · exact jobOp_answers
  · exact slotOpS_answers

/-! ### The B slot -/

theorem branchOp_answers {i : Instr} {s : State} {k : State → Core → Outcome State Fault Refusal} (hk : ∀ s c, Answers (k s c)) :
    Answers (branchOp i s k) := by
  unfold branchOp
  split
  · exact answers_next _
  · exact hk _ _

theorem State.structTrap_answers (s : State) : Answers s.structTrap := by
  unfold State.structTrap
  split
  · exact answers_next _
  · exact answers_next _

theorem State.jump_answers (s : State) (tgt : Nat) : Answers (s.jump tgt) := by
  unfold State.jump
  split
  · exact answers_next _
  · split
    · exact answers_next _
    · exact answers_next _

theorem State.jumpPlain_answers (s s' : State) (tgt : Nat) : Answers (s.jumpPlain s' tgt) := by
  unfold State.jumpPlain
  split
  · exact answers_next _
  · exact answers_next _

theorem condBranch_answers {i : Instr} {f : BrF} {cond : DWord → DWord → Bool} {s : State} : Answers (condBranch i f cond s) :=
  branchOp_answers fun s _ => answers_ite (s.jump_answers _) (answers_next _)

theorem predBranch_answers {i : Instr} {f : BpF} {want : Bool} {s : State} : Answers (predBranch i f want s) :=
  branchOp_answers fun s _ => answers_ite (answers_ite (s.jump_answers _) (answers_next _))
    (answers_ite (answers_ite (answers_next _) (s.jump_answers _)) (answers_next _))

theorem loopOp_answers {i : Instr} {f : BlF} {kind : BitVec 2} {s : State} : Answers (loopOp i f kind s) := by
  refine branchOp_answers fun s c => ?_
  extract_lets t fin finI past
  refine answers_ite s.structTrap_answers (answers_ite (answers_next _) ?_)
  split
  · exact answers_next _
  · exact answers_iteNext _ _

theorem closeLoop_answers (cond : Option Bool) (s : State) : Answers (closeLoop cond s) := by
  unfold closeLoop
  extract_lets c
  split
  · exact s.structTrap_answers
  · refine answers_ite s.structTrap_answers ?_
    extract_lets cont startA rotated
    refine answers_ite (answers_next _) (answers_ite ?_ (answers_ite s.structTrap_answers (answers_next _)))
    split
    · exact answers_next _
    · exact answers_next _

theorem execLend_answers (r : XReg) (s : State) : Answers (execLend r s) := by
  refine branchOp_answers fun s c => answers_ite s.structTrap_answers ?_
  split
  · exact answers_ite s.structTrap_answers (answers_ite (answers_next _) (closeLoop_answers _ s))
  · exact s.structTrap_answers

theorem execLbrk_answers (r : XReg) (s : State) : Answers (execLbrk r s) := by
  refine branchOp_answers fun s c => ?_
  split
  · exact s.structTrap_answers
  · exact answers_iteNext _ _

theorem execIinv_answers (r : XReg) (s : State) : Answers (execIinv r s) := by
  refine branchOp_answers fun s c => answers_ite (answers_next _) (answers_ite (answers_next _) ?_)
  split
  · exact answers_next _
  · exact answers_next _

theorem execTret_answers (s : State) : Answers (execTret s) := by
  refine branchOp_answers fun s c => answers_ite s.structTrap_answers ?_
  split
  · exact answers_next _
  · exact answers_next _

theorem execJmp_answers (off : BitVec 21) (s : State) : Answers (execJmp off s) := branchOp_answers fun s _ => s.jump_answers _

theorem execCall_answers (f : BjF) (s : State) : Answers (execCall f s) :=
  branchOp_answers fun s _ => answers_ite s.structTrap_answers (s.jumpPlain_answers _ _)

theorem execRet_answers (r : XReg) (s : State) : Answers (execRet r s) :=
  branchOp_answers fun s _ => answers_ite s.structTrap_answers (answers_ite (answers_next _) (s.jumpPlain_answers _ _))

theorem execWait_answers (f : BwF) (s : State) : Answers (execWait f s) := branchOp_answers fun s _ => answers_next s

theorem execSetfmt_answers (acc : Acc) (rm : Rm) (s : State) : Answers (execSetfmt acc rm s) := branchOp_answers fun _ _ => answers_next _

theorem execLitset_answers (r : XReg) (s : State) : Answers (execLitset r s) :=
  branchOp_answers fun _ _ => answers_ite (answers_next _) (answers_next _)

theorem execSstep_answers (s : State) : Answers (execSstep s) :=
  branchOp_answers fun _ _ => answers_ite (answers_next _) (answers_next _)

theorem execYield_answers (s : State) : Answers (execYield s) :=
  branchOp_answers fun s _ => answers_ite s.structTrap_answers (answers_next _)

theorem execHalt_answers (s : State) : Answers (execHalt s) := branchOp_answers fun _ _ => answers_next _

theorem execTrap_answers (code : BitVec 8) (s : State) : Answers (execTrap code s) :=
  branchOp_answers fun s _ => answers_ite s.structTrap_answers (answers_next _)

/-! ### The scalar, vector and matrix shapes -/

section Shapes

variable {i : Instr} {s : State}

theorem sRI_answers {f : IF} {op : DWord → DWord → DWord} : Answers (sRI i f op s) := slotOp_answers
theorem sSh_answers {f : ShF} {op : DWord → Nat → DWord} : Answers (sSh i f op s) := slotOp_answers
theorem sShw_answers {f : ShwF} {op : BitVec 32 → Nat → BitVec 32} : Answers (sShw i f op s) := slotOp_answers
theorem sRR_answers {f : RF} {lat : Nat} {op : DWord → DWord → DWord} : Answers (sRR i f lat op s) := slotOp_answers
theorem sLoad_answers {f : IF} {n : Nat} {ext : Nat → DWord} : Answers (sLoad i f n ext s) := slotOpS_answers
theorem sStore_answers {f : StF} {n : Nat} : Answers (sStore i f n s) := slotOpS_answers
theorem csrOp_answers {num : BitVec 12} {rd : XReg} {op : CsrOp} {writes : Bool} {src : Core → DWord} :
    Answers (csrOp i num rd op writes src s) := slotOp_answers
theorem vecOp_answers {vd : VReg} {lat : Nat} {k : Core → VOut} : Answers (vecOp i s vd lat k) := slotOp_answers
theorem vBin_answers {f : VrF} {lat : Nat} {op : Rm → Nat → Nat → Nat × Flags} : Answers (vBin i f lat op s) := vecOp_answers
theorem vUn_answers {f : VuF} {lat : Nat} {op : Rm → Nat → Nat × Flags} : Answers (vUn i f lat op s) := vecOp_answers
theorem vTer_answers {f : VrF} {lat : Nat} {op : Rm → Nat → Nat → Nat → Nat × Flags} : Answers (vTer i f lat op s) := vecOp_answers
theorem vCmp_answers {f : VcF} {op : Nat → Nat → Bool × Flags} : Answers (vCmp i f op s) := slotOp_answers
theorem vPred_answers {pd : PReg} {et : Fmt} {pg : PReg} {r : Core → List Bool} : Answers (vPred i s pd et pg r) := slotOp_answers
theorem vPred2_answers {f : VpF} {op : Bool → Bool → Bool} : Answers (vPred2 i f op s) := vPred_answers
theorem vPerm2_answers {f : VrF} {lat : Nat} {whole : Bool} {g : Nat → List Bool → List Nat → List Nat → Nat → Nat} :
    Answers (vPerm2 i f lat whole g s) := vecOp_answers
theorem vRed_answers {f : VuF} {g : Core → List Bool → List Nat → Nat × Flags} : Answers (vRed i f g s) := vecOp_answers
theorem vScan_answers {f : VuF} {op : Core → Nat → Nat → Nat × Flags} : Answers (vScan i f op s) := vecOp_answers
theorem amoOp_answers {f : AmoF} {op : AmoOp} : Answers (amoOp i f op s) := slotOpS_answers
theorem vamoInstr_answers {f : VvF} {op : VamoOp} : Answers (vamoInstr i f op s) := slotOpE_answers
theorem matOp_answers {k : State → Core → Word → Except Fail State} : Answers (matOp i s k) := matOpL_answers
theorem denseMma_answers {f : MaF} {t : Fmt} : Answers (denseMma i f t s) := matOpL_answers
theorem sparseMma_answers {f : MaF} {per : Nat} : Answers (sparseMma i f per s) := matOpL_answers
theorem mbfly_answers {f : MbF} {wide : Bool} : Answers (mbfly i f wide s) := by
  unfold mbfly
  exact matOpL_answers
theorem mtwmul_answers {f : MbF} {wide : Bool} : Answers (mtwmul i f wide s) := by
  unfold mtwmul
  exact matOpL_answers

end Shapes

theorem execMlrset_answers (f : MlrsetF) (s : State) : Answers (execMlrset f s) := by
  unfold execMlrset
  exact matOpL_answers

/-! ### Every instruction -/

/-- R7: the operations, by their shapes. -/
theorem op_answers {i : Instr} (h : Instr.isOp i = true) (s : State) : Answers (exec i s) := by
  cases i with
  | beq _ | bne _ | blt _ | bge _ | bltu _ | bgeu _ =>
    unfold exec
    exact condBranch_answers
  | bpt _ | bpf _ =>
    unfold exec
    exact predBranch_answers
  | loop _ | loopW _ | loopSp _ =>
    unfold exec
    exact loopOp_answers
  | lui _ | auipc _ | fence _ | vpcnt _ | vpfirst _ | cnarrow _ | cget _ | cmov _ | cclr _ | xexpS24 _ | xexpS14 _ | xunpkL6 _
  | xunpkI4 _ | xpackL6 _ | xpackI4 _ | xtr _ | xcvt _ | xscale _ | xscalei _ =>
    unfold exec
    exact slotOp_answers
  | addi _ | slti _ | sltiu _ | xori _ | ori _ | andi _ | addiw _ =>
    unfold exec
    exact sRI_answers
  | slli _ | srli _ | srai _ =>
    unfold exec
    exact sSh_answers
  | add _ | sub _ | sll _ | slt _ | sltu _ | xor _ | srl _ | sra _ | or _ | and _ | addw _ | subw _ | sllw _ | srlw _ | sraw _
  | mul _ | mulh _ | mulhsu _ | mulhu _ | div _ | divu _ | rem _ | remu _ | mulw _ | divw _ | divuw _ | remw _ | remuw _ =>
    unfold exec
    exact sRR_answers
  | slliw _ | srliw _ | sraiw _ =>
    unfold exec
    exact sShw_answers
  | lb _ | lh _ | lw _ | sld _ | lbu _ | lhu _ | lwu _ =>
    unfold exec
    exact sLoad_answers
  | sb _ | sh _ | sw _ | sd _ =>
    unfold exec
    exact sStore_answers
  | ecall | ebreak =>
    unfold exec
    exact answers_next _
  | csrrw _ | csrrs _ | csrrc _ | csrrwi _ | csrrsi _ | csrrci _ =>
    unfold exec
    exact csrOp_answers
  | vadd _ | vsub _ | vmul _ | vdiv _ | vmin _ | vmax _ | vand _ | vor _ | vxor _ =>
    unfold exec
    exact vBin_answers
  | vabs _ | vneg _ | vsqrt _ | vrcp _ | vrsqrt _ | vexp2 _ | vlog2 _ | vnot _ | vmov _ =>
    unfold exec
    exact vUn_answers
  | vfma _ | vfms _ =>
    unfold exec
    exact vTer_answers
  | vbcast _ | vmovx _ | viota _ | vli _ | vslideup _ | vslidedn _ | vcompress _ | vexpand _ | vbitonic _ | vmulL6 _ | vdotL6 _
  | vrand _ =>
    unfold exec
    exact vecOp_answers
  | vcmpEq _ | vcmpNe _ | vcmpLt _ | vcmpLe _ | vcmpUn _ | vcmpLtu _ | vcmpLeu _ =>
    unfold exec
    exact vCmp_answers
  | vpand _ | vpor _ | vpxor _ =>
    unfold exec
    exact vPred2_answers
  | vpnot _ | vpset _ =>
    unfold exec
    exact vPred_answers
  | vsel _ | vperm _ | vzip _ | vunzip _ =>
    unfold exec
    exact vPerm2_answers
  | vredsum _ | vredmax _ | vredmin _ | vargmax _ =>
    unfold exec
    exact vRed_answers
  | vscansum _ | vscanmax _ =>
    unfold exec
    exact vScan_answers
  | vld _ | vst _ | vstm _ | ld _ | st _ | ldSc _ | stSc _ | vpref _ | amoSc _ | lda _ | stl _ | vfence _ | cflush _ | vredst _
  | cldh _ | csth _ | binit _ | blink _ | barrive _ | bwaitp _ | cquery _ | ccancel _ | csignal _ | cfence =>
    unfold exec
    exact slotOpS_answers
  | vgather _ | vscatter _ =>
    unfold exec
    exact slotOpE_answers
  | amoadd _ | amomin _ | amomax _ | amominu _ | amomaxu _ | amoand _ | amoor _ | amoxor _ | amoswap _ | amocas _ =>
    unfold exec
    exact amoOp_answers
  | vamoadd _ | vamomin _ | vamomax _ =>
    unfold exec
    exact vamoInstr_answers
  | oclaim _ | orelease _ | oload _ | wload _ | mzero _ | mmov _ | mrd _ | mwr _ | mlrmul _ | mlrdm _ | mdmlr _ | mlradd _
  | mrecomp _ | mdense _ | mrank _ =>
    unfold exec
    exact matOp_answers
  | mmaF64 _ | mmaF32 _ | mmaBf16 _ | mmaF16 _ | mmaI8 _ | mmaI4 _ | mmaL6 _ =>
    unfold exec
    exact denseMma_answers
  | mmaS24 _ | mmaS14 _ =>
    unfold exec
    exact sparseMma_answers
  | mbflyC64 _ | mbflyC128 _ =>
    unfold exec
    exact mbfly_answers
  | mbrev _ =>
    unfold exec
    exact matOpL_answers
  | mtwmulC64 _ | mtwmulC128 _ =>
    unfold exec
    exact mtwmul_answers
  | cjob _ | cwpe _ =>
    unfold exec
    exact cardOp_answers
  | cjobv _ =>
    unfold exec
    exact jobOp_answers
  | mlrset f => exact execMlrset_answers f s
  | vshl f =>
    show Answers (execVshl f s)
    unfold execVshl
    exact vBin_answers
  | vshr f =>
    show Answers (execVshr f s)
    unfold execVshr
    exact vBin_answers
  | vsra f =>
    show Answers (execVsra f s)
    unfold execVsra
    exact vBin_answers
  | vadds f =>
    show Answers (execVadds f s)
    unfold execVadds
    exact vBin_answers
  | vsubs f =>
    show Answers (execVsubs f s)
    unfold execVsubs
    exact vBin_answers
  | vmulh f =>
    show Answers (execVmulh f s)
    unfold execVmulh
    exact vBin_answers
  | jmp off => exact execJmp_answers off s
  | call f => exact execCall_answers f s
  | ret r => exact execRet_answers r s
  | lend r => exact execLend_answers r s
  | lbrk r => exact execLbrk_answers r s
  | wait f => exact execWait_answers f s
  | setfmt acc rm => exact execSetfmt_answers acc rm s
  | litset r => exact execLitset_answers r s
  | sstep => exact execSstep_answers s
  | iinv r => exact execIinv_answers r s
  | yield => exact execYield_answers s
  | halt => exact execHalt_answers s
  | trap code => exact execTrap_answers code s
  | tret => exact execTret_answers s
  | idle _ => exact answers_next _
  | _ => exact nomatch (show false = true from h)

/-- R7: every instruction, operation or event, ends in a next state. -/
theorem exec_answers (s : State) (i : Instr) : Answers (exec i s) := by
  cases h : Instr.isOp i with
  | false => exact event_answers h s
  | true => exact op_answers h s

end Sys2Proof.Machine
end

section
/-! SUPPORT. What an operation on memory does to the device and the cores leaves the record of its issue as it is: no trap is raised
there (R384: a refusal met on the way is a deferred trap). -/

namespace Sys2Proof.Machine

/-! ### Lines and lists of releases -/

theorem State.dropLines_iss (s : State) (clus : Nat → Bool) (keys : List Nat) : (s.dropLines clus keys).iss = s.iss :=
  (s.dropWhere_keepsRegs ..).1

theorem State.evict_iss (s : State) (clu k : Nat) : (s.evict clu k).iss = s.iss := s.dropLines_iss _ _

theorem State.evictL1_iss (s : State) (n k : Nat) : (s.evictL1 n k).iss = s.iss := (s.cleanL1_keepsRegs _).1

theorem State.fill_iss (s : State) (n pol k : Nat) : (s.fill n pol k).iss = s.iss := by
  unfold State.fill
  extract_lets clu s1 e src s2
  have h2 : s2.iss = s.iss := by
    simp only [s2]
    split
    · rfl
    · exact (State.setMs_iss ..).trans (s.evict_iss clu k)
  split
  · rfl
  split
  · exact s.dropLines_iss ..
  split
  · rfl
  split
  · exact (s2.evictL1_iss n k).trans h2
  · exact h2

theorem State.acquire_iss (s : State) (n : Nat) (sc : Scope) (rels : List Rel) : (s.acquire n sc rels).iss = s.iss := by
  unfold State.acquire
  extract_lets s1
  split
  · exact (s1.discardFar_keepsRegs n).1
  · rfl

theorem State.stamp_iss (s : State) (src : Nat) (body : Nat → MsgBody) : (s.stamp src body).iss = s.iss := by
  unfold State.stamp
  extract_lets vc s1 dsts
  refine foldl_kept (proj := State.iss) (fun s d _ => ?_) s1
  rfl

theorem State.noteByte_iss (s : State) (a : Nat) : (s.noteByte a).iss = s.iss := by
  unfold State.noteByte
  extract_lets dev sch s1 k d on
  have h1 : s1.iss = s.iss := by
    simp only [s1]
    split
    · split <;> rfl
    · rfl
  split
  · split
    · split
      · split
        · exact h1
        · exact h1
      · split
        · exact h1
        · exact h1
    · exact h1
  · exact h1

/-! ### Writes -/

theorem State.putGlob_iss (s : State) (h clu : Nat) (bytes : List (Nat × Byte)) (tags marks : List Nat) :
    (s.putGlob h clu bytes tags marks).iss = s.iss := by
  unfold State.putGlob
  extract_lets keys lks tags' marks' s1 s2 s3 src s4 holds
  have h4 : s4.iss = s.iss := ((s1.writeBytes_keepsRegs bytes).1).trans (s.clean_keepsRegs _).1
  split
  · exact (s4.stamp_iss ..).trans h4
  · exact h4

theorem State.performGlob_iss (s : State) (h clu : Nat) (bytes : List (Nat × Byte)) (tags marks : List Nat) :
    (s.performGlob h clu bytes tags marks).iss = s.iss :=
  (foldl_kept (proj := State.iss) (fun s a _ => s.noteByte_iss a) _).trans (s.putGlob_iss ..)

theorem State.performFar_iss (s : State) (clu : Nat) (bytes : List (Nat × Byte)) : (s.performFar clu bytes).iss = s.iss :=
  (State.writeBytes_keepsRegs _ bytes).1.trans (s.clean_keepsRegs _).1

theorem State.performAtomic_iss (s : State) (clu k n v : Nat) (rel : Option Rel) : (s.performAtomic clu k n v rel).iss = s.iss := by
  unfold State.performAtomic
  extract_lets bytes s1
  have h1 : s1.iss = s.iss := by
    simp only [s1]
    split
    · exact s.performGlob_iss ..
    split
    · exact s.performFar_iss ..
    · exact (s.writeBytes_keepsRegs _).1
  exact h1

theorem State.applyAmo_iss (s : State) (n : Nat) (a : Access) (op : AmoOp) (src cmp : DWord) :
    (s.applyAmo n a op src cmp).1.iss = s.iss := by
  unfold State.applyAmo
  extract_lets k old new
  split
  · rfl
  · dsimp only
    split
    · rfl
    · exact s.performAtomic_iss ..

theorem State.applyVamo_iss (s : State) (n : Nat) (a : Access) (op : VamoOp) (rm : Rm) (off data : Nat) :
    (s.applyVamo n a op rm off data).1.iss = s.iss := by
  unfold State.applyVamo
  extract_lets k old
  split
  · rfl
  · exact s.performAtomic_iss ..

theorem State.atomicAcquire_iss (s : State) (n : Nat) (a : Access) (rels : List Rel) : (s.atomicAcquire n a rels).iss = s.iss := by
  unfold State.atomicAcquire
  split
  · exact s.acquire_iss ..
  · rfl

/-! ### The own scratchpad -/

theorem State.countDenial_iss (s : State) (n : Nat) (misc : BitVec 64) (v : Verdict) (key : Nat) (marks : Bool) :
    (s.countDenial n misc v key marks).iss = s.iss := (s.countDenial_onlyBanks ..).keepsRegs.1

theorem State.spadStore_iss (s : State) (key : Nat) {f : State → State} (hf : (f s).iss = s.iss) : (s.spadStore key f).iss = s.iss := by
  unfold State.spadStore
  extract_lets n s1
  split
  · exact hf
  · exact s.countDenial_iss ..

theorem State.spadDenied_iss (s : State) (key : Nat) : (s.spadDenied key).iss = s.iss := by
  unfold State.spadDenied
  extract_lets n
  split
  · rfl
  · exact s.countDenial_iss ..

theorem State.spadRead_iss (s : State) (cap : Cap) (addr : Nat) : (s.spadRead cap addr).iss = s.iss := s.spadDenied_iss _

theorem State.issueStore_iss (s : State) (cap : Cap) (off : Nat) (bytes : List (Nat × Byte)) (unit : Nat) (rel acq : Option Scope)
    (rank : Option Nat) : (s.issueStore cap off bytes unit rel acq rank).iss = s.iss := by
  unfold State.issueStore
  split
  · rfl
  split
  · exact s.spadStore_iss _ (s.writeBytes_keepsRegs _).1
  · rfl

theorem State.store_iss (s : State) (key : Nat) (bs : List Byte) : (s.store key bs).iss = s.iss := rfl

theorem State.storeTagged_iss (s : State) (key : Nat) (v : Cap) (tag : Bool) : (s.storeTagged key v tag).iss = s.iss := by
  unfold State.storeTagged State.storeNat
  extract_lets s1
  have h1 : s1.iss = s.iss := s.store_iss ..
  clear_value s1
  split
  · exact h1
  · exact h1

theorem State.spadRefused_iss (s : State) (a : Access) (replay : Option Access) : (s.spadRefused a replay).iss = s.iss := by
  unfold State.spadRefused
  extract_lets n k s1
  have h1 : s1.iss = s.iss := s.countDenial_iss ..
  exact h1

theorem State.spadAmo_iss (s : State) (a : Access) (op : AmoOp) (xd : XReg) (src cmp : DWord) :
    (s.spadAmo a op xd src cmp).iss = s.iss := by
  have happly := s.applyAmo_iss s.iss.core a op src cmp
  unfold State.spadAmo
  extract_lets n
  split
  · exact s.spadRefused_iss ..
  split
  next s' old heq =>
  rw [heq] at happly
  extract_lets c
  split
  · exact (State.atomicAcquire_iss ..).trans happly
  split
  · exact happly
  · exact happly

theorem State.spadVamo_iss (a : Access) (op : VamoOp) (rm : Rm) (offs : List Nat) (d : Vec) (js : List Nat) (s : State)
    (mask old : Nat) : (State.spadVamo a op rm offs d js s mask old).1.iss = s.iss := by
  induction js generalizing s mask old with
  | nil => rfl
  | cons j js ih =>
    have happly := s.applyVamo_iss s.iss.core a op rm (offs.getD j 0) (elemOf 32 d.toNat j)
    unfold State.spadVamo
    split
    · rfl
    · next s' v hv =>
      rw [hv] at happly
      exact (ih s' _ _).trans happly

theorem State.issueVamo_iss (s : State) (c : Core) (cap : Cap) (op : VamoOp) (phys : Nat) (act : BitVec 32) (offs : List Nat) (d : Vec)
    (ord : Ord) (sc : Scope) : (s.issueVamo c cap op phys act offs d ord sc).iss = s.iss := by
  unfold State.issueVamo
  extract_lets n js a
  split
  · split
    · rfl
    · exact s.spadRefused_iss ..
  split
  · have hspad := State.spadVamo_iss a op c.c.rm offs d js s 0 0
    split
    next s' mask old bad heq =>
    rw [heq] at hspad
    extract_lets c1 c2
    split
    · exact (State.atomicAcquire_iss ..).trans hspad
    · exact hspad
  · rfl

/-! ### Landing entries (R53) -/

theorem State.fillPieces_iss (s : State) (n : Nat) (cap : Cap) (pcs : List (Nat × Nat)) : (s.fillPieces n cap pcs).iss = s.iss :=
  foldl_kept (proj := State.iss) (fun s k _ => by
    split
    · exact s.fill_iss ..
    · rfl) s

theorem State.countReads_iss (s : State) (n : Nat) (cap : Cap) (pcs : List (Nat × Nat)) : (s.countReads n cap pcs).iss = s.iss :=
  foldl_kept (proj := State.iss) (fun s _ _ => s.countDenial_iss ..) s

theorem State.countMacs_iss (s : State) (n : Nat) (cap : Cap) (pcs : List (Nat × Nat)) : (s.countMacs n cap pcs).iss = s.iss := by
  unfold State.countMacs
  split
  · rfl
  · refine foldl_kept (proj := State.iss) (fun s a _ => ?_) s
    dsimp only
    split
    · split
      · exact (s.mcRecord_onlyBanks ..).keepsRegs.1
      · rfl
    · split
      · exact (s.mcRecord_onlyBanks ..).keepsRegs.1
      · rfl

theorem State.lostRead_iss (s : State) (n : Nat) (cap : Cap) (sl : Slot) (pcs : List (Nat × Nat)) :
    (s.lostRead n cap sl pcs).1.iss = s.iss := by
  unfold State.lostRead
  split <;> rfl

theorem State.scDone_iss (s : State) (n : Nat) (rank : Option Nat) (keys : List Nat) : (s.scDone n rank keys).iss = s.iss := by
  unfold State.scDone
  extract_lets homes
  split <;> rfl

theorem State.sampleUnits_iss (s : State) (n : Nat) (l : Landing) (units : List Nat) (verdict : Bool) (only : Option Nat) :
    (s.sampleUnits n l units verdict only).1.iss = s.iss := by
  unfold State.sampleUnits
  extract_lets srcs pcs s1 got touched rels left
  have h1 : s1.iss = s.iss := by
    simp only [s1]
    split
    · exact s.fillPieces_iss ..
    · rfl
  clear_value s1
  split
  next v ms _ =>
  extract_lets marks
  split
  next s2 nar h2 =>
  have h2 : s2.iss = s1.iss := congrArg (·.1.iss) h2.symm
  extract_lets s3
  have h3 : s3.iss = s2.iss := (State.countReads_iss ..).trans (State.countMacs_iss ..)
  clear_value s3
  split
  next s4 lost h4 =>
  have h4 : s4.iss = s3.iss := by
    have hpair := congrArg (·.1.iss) h4.symm
    dsimp only at hpair
    rw [hpair]
    split
    · rfl
    · exact s3.lostRead_iss ..
  extract_lets s5 s6
  have h5 : s5.iss = s4.iss := by
    simp only [s5]
    split
    · exact s4.scDone_iss ..
    · rfl
  exact h5.trans (h4.trans (h3.trans (h2.trans h1)))

/-- A load under L = 1 with a free entry is issued. -/
theorem State.issueLanding_of_room {s : State} (hroom : s.cur.t.landing.length < 16) (rem : Nat) (dest : LoadDest) (cap : Cap)
    (srcs : List (Nat × Nat × Nat)) (mask : Vec) (rank : Option Nat) :
    ∃ t, s.issueLanding rem dest cap srcs mask rank = .ok t ∧ t.iss = s.iss := by
  unfold State.issueLanding
  extract_lets n c l src s1
  rw [if_neg (by simpa [c, maxLanding] using hroom)]
  split
  next s2 l' heq =>
  refine ⟨_, rfl, ?_⟩
  have h2 : s2.iss = s1.iss := by
    have hpair := congrArg (·.1.iss) heq.symm
    dsimp only at hpair
    rw [hpair]
    split
    · exact State.sampleUnits_iss ..
    · rfl
  exact h2

/-! ### Jobs (R239, R243, R248) -/

theorem State.submit_iss (s : State) (c : Core) (work : JobWork) (sh dh ah gh : Cap) (after : List Nat) (xd : XReg) :
    (s.submit c work sh dh ah gh after xd).iss = s.iss := rfl

theorem State.jobCancelled_iss (s : State) (j : Job) : (s.jobCancelled j).iss = s.iss := by
  unfold State.jobCancelled
  extract_lets s1
  split <;> rfl

theorem State.cancelJob_iss (s : State) (j : Job) : (s.cancelJob j).iss = s.iss := by
  unfold State.cancelJob
  split
  · rfl
  split
  · split
    · rfl
    · exact s.jobCancelled_iss j
  · exact s.jobCancelled_iss j

end Sys2Proof.Machine
end

section
/-! SUPPORT. R167: an access that no check refuses passes the model's checks, and so do the elements of a vector form, whose offsets
are those of the index vector's active elements. -/

namespace Sys2Proof.Machine

/-! ### The checks of one access -/

section Checks

variable {s : State} {h : HReg} {spaces : List Nat} {perm : BitVec 8}

/-- The checks of the handle alone. -/
theorem handle_ok_of_passes (hpass : ∀ x ∈ (s.accessChecks h spaces perm 1 0 0).take 5, x.2 = false) (tval : DWord) :
    checkHandle s.cur h spaces tval = .ok () ∧ checkRights s.cur h perm tval = .ok () := by
  simp only [State.accessChecks, List.take_succ_cons, List.take_zero, List.forall_mem_cons, List.not_mem_nil, false_implies,
    implies_true, and_true, decide_eq_false_iff_not, Bool.not_eq_false'] at hpass
  obtain ⟨htag, hspace, hform, hctx, hperm⟩ := hpass
  refine ⟨?_, ?_⟩
  · unfold checkHandle
    extract_lets cap
    rw [htag, hspace, Bool.not_true, if_neg Bool.false_ne_true, if_neg Bool.false_ne_true, if_neg hform]
  · unfold checkRights
    extract_lets cap
    rw [if_neg hctx, if_neg hperm]

theorem handle_ok_of_refusesHandle (hnone : s.refusesHandle h spaces perm = none) (tval : DWord) :
    checkHandle s.cur h spaces tval = .ok () ∧ checkRights s.cur h perm tval = .ok () := by
  refine handle_ok_of_passes (fun x hx => ?_) tval
  rw [State.refusesHandle, Option.map_eq_none_iff, List.find?_eq_none] at hnone
  exact Bool.eq_false_of_not_eq_true (hnone x hx)

variable {align off z : Nat} (hnone : s.refuses h spaces perm align off z = none)
include hnone

theorem passes_of_refuses {x : BitVec 8 × Bool} (hx : x ∈ s.accessChecks h spaces perm align off z) : x.2 = false := by
  rw [State.refuses, Option.map_eq_none_iff, List.find?_eq_none] at hnone
  exact Bool.eq_false_of_not_eq_true (hnone x hx)

theorem handle_ok_of_refuses (tval : DWord) :
    checkHandle s.cur h spaces tval = .ok () ∧ checkRights s.cur h perm tval = .ok () :=
  handle_ok_of_passes (fun _ hx => passes_of_refuses hnone (List.mem_of_mem_take (i := 5) hx)) tval

theorem range_ok_of_refuses : s.checkRange s.iss.core (s.cur.rh h) off z align = .ok () := by
  have hpass : ∀ x ∈ (s.accessChecks h spaces perm align off z).drop 5, x.2 = false := fun _ hx =>
    passes_of_refuses hnone (List.mem_of_mem_drop hx)
  simp only [State.accessChecks, List.drop_succ_cons, List.drop_zero, List.forall_mem_cons, List.not_mem_nil, false_implies,
    implies_true, and_true, decide_eq_false_iff_not] at hpass
  obtain ⟨halign, hlen, hend, hclus⟩ := hpass
  unfold State.checkRange
  rw [if_neg halign, if_neg (not_or.2 ⟨hlen, hend⟩), if_neg hclus]

theorem check_of_refuses : s.check s.iss.core s.cur h { spaces := spaces, perm := perm, align := align } off z = .ok () := by
  obtain ⟨hhandle, hrights⟩ := handle_ok_of_refuses hnone (BitVec.ofNat 64 off)
  unfold State.check
  rw [hhandle, hrights, range_ok_of_refuses hnone]
  rfl

end Checks

/-! ### The checks of elements -/

theorem checkAll_of_check {s : State} {n z : Nat} {c : Core} {h : HReg} {nd : Need} {offs : List Nat}
    (hall : ∀ o ∈ offs, s.check n c h nd o z = .ok ()) : s.checkAll n c h nd offs z = .ok () := by
  unfold State.checkAll
  induction offs with
  | nil => rfl
  | cons o t ih =>
    rw [List.forIn_cons, hall o List.mem_cons_self]
    exact ih fun o ho => hall o (List.mem_cons_of_mem _ ho)

section Elements

variable {s : State} {h : HReg} {spaces : List Nat} {perm : BitVec 8} {align z : Nat} {offs : List Nat}
  (hnone : s.refusesLive h spaces perm align offs z = none)
include hnone

theorem refuses_of_refusesLive {o : Nat} (ho : o ∈ offs) : s.refuses h spaces perm align o z = none := by
  rw [State.refusesLive, if_neg (List.ne_nil_of_mem ho), Option.map_eq_none_iff, State.refusesAny, List.findSome?_eq_none_iff] at hnone
  simpa using hnone o ho

theorem handle_ok_of_refusesLive (tval : DWord) :
    checkHandle s.cur h spaces tval = .ok () ∧ checkRights s.cur h perm tval = .ok () := by
  cases offs with
  | nil =>
    rw [State.refusesLive, if_pos rfl] at hnone
    exact handle_ok_of_refusesHandle hnone tval
  | cons o t => exact handle_ok_of_refuses (refuses_of_refusesLive hnone List.mem_cons_self) tval

theorem checkAll_of_refusesLive :
    s.checkAll s.iss.core s.cur h { spaces := spaces, perm := perm, align := align } offs z = .ok () :=
  checkAll_of_check fun _ ho => check_of_refuses (refuses_of_refusesLive hnone ho)

theorem checkAny_of_refusesLive :
    s.checkAny s.iss.core s.cur h { spaces := spaces, perm := perm, align := align } offs z = .ok () := by
  obtain ⟨hhandle, hrights⟩ := handle_ok_of_refusesLive hnone (BitVec.ofNat 64 (offs.headD 0))
  unfold State.checkAny
  rw [hhandle, hrights, checkAll_of_refusesLive hnone]
  rfl

end Elements

/-! ### The offsets of an index vector (R174) -/

theorem toNat_ofNat_add_eq {x : Nat} {b : BitVec 48} {d : Int} (hb : (b.toNat : Int) % 2 ^ 48 = d % 2 ^ 48) :
    (BitVec.ofNat 48 x + b).toNat = (((x : Nat) + d) % 2 ^ 48).toNat := by
  rw [BitVec.toNat_add, BitVec.toNat_ofNat]
  omega

theorem imm16_toNat_emod (imm : BitVec 9) : ((imm16 imm).toNat : Int) % 2 ^ 48 = 16 * imm.toInt % 2 ^ 48 := by
  have hext : (imm.signExtend 48).toInt = imm.toInt := BitVec.toInt_signExtend_of_le (by decide)
  have hmod : ((imm.signExtend 48).toNat : Int) % 2 ^ 48 = imm.toInt % 2 ^ 48 := by
    rw [← hext, BitVec.toInt_eq_toNat_bmod]
    exact Int.bmod_emod.symm
  rw [imm16, BitVec.toNat_shiftLeft, Nat.shiftLeft_eq]
  omega

theorem idxOffsets_eq {s : State} {xi : XReg} {b : BitVec 48} {d : Int} (hb : (b.toNat : Int) % 2 ^ 48 = d % 2 ^ 48) :
    idxOffsets (s.cur.rv (idxReg xi)) b = (List.range 32).map (s.spots xi d) := by
  rw [idxOffsets, elems, List.map_map]
  exact List.map_congr_left fun j _ => toNat_ofNat_add_eq hb

theorem idxOffsets_zero (s : State) (xi : XReg) : idxOffsets (s.cur.rv (idxReg xi)) 0 = (List.range 32).map (s.spots xi 0) :=
  idxOffsets_eq rfl

theorem gatherOffs_eq (s : State) (f : VmF) :
    gatherOffs f s.cur = (List.range 32).map (s.spots f.xi (if f.l then 0 else 16 * f.imm.toInt)) := by
  unfold gatherOffs
  cases f.l with
  | true => exact idxOffsets_zero s f.xi
  | false => exact idxOffsets_eq (imm16_toNat_emod f.imm)

theorem activeList_eq (c : Core) (p : PReg) : activeList 32 (c.pg p) = (List.range 32).map (c.active 32 p) := by
  refine List.map_congr_left fun j hj => ?_
  have hj32 : j < 32 := List.mem_range.1 hj
  unfold Core.pg Core.active
  by_cases hp : p = 0
  · rw [if_pos hp, hp, BitVec.getLsbD_allOnes]
    simp only [beq_self_eq_true, Bool.true_or, decide_eq_true_eq]
    omega
  · rw [if_neg hp, beq_eq_false_iff_ne.2 hp, Bool.false_or]

/-- The active elements of a VSCATTER. -/
theorem scatterEls_offsets (s : State) (xi : XReg) (p : PReg) (v : Vec) :
    ((((idxOffsets (s.cur.rv (idxReg xi)) 0).zip (elems 32 v)).zip (activeList 32 (s.cur.pg p))).filter (·.2)).map (·.1.1) =
      ((List.range 32).filter (s.cur.active 32 p)).map (s.spots xi 0) := by
  rw [idxOffsets_zero, activeList_eq, elems, List.zip_map', List.zip_map', List.filter_map, List.map_map]
  rfl

theorem getLsbD_lanes32 (c : Core) (p : PReg) {j : Nat} (hj : j < 32) : (lanes32 (c.pg p)).getLsbD j = c.active 32 p j := by
  rw [lanes32, activeList_eq, BitVec.getLsbD_ofNat, packNat_testBit Nat.one_pos]
  cases hact : c.active 32 p j <;> simp [hj, hact, List.getD_eq_getElem?_getD, Nat.mod_one]

/-- The active elements of a vector atomic. -/
theorem vamoEls_offsets (s : State) (xi : XReg) (p : PReg) :
    ((List.range 32).filter (fun j => (lanes32 (s.cur.pg p)).getLsbD j)).map (fun j => (idxOffsets (s.cur.rv (idxReg xi)) 0).getD j 0) =
      ((List.range 32).filter (s.cur.active 32 p)).map (s.spots xi 0) := by
  have hfilter : (List.range 32).filter (fun j => (lanes32 (s.cur.pg p)).getLsbD j) = (List.range 32).filter (s.cur.active 32 p) :=
    List.filter_congr fun j hj => getLsbD_lanes32 s.cur p (List.mem_range.1 hj)
  rw [hfilter]
  refine List.map_congr_left fun j hj => ?_
  have hj32 : j < 32 := List.mem_range.1 (List.mem_filter.1 hj).1
  rw [idxOffsets_zero, List.getD_eq_getElem?_getD, List.getElem?_map, List.getElem?_range hj32]
  rfl

end Sys2Proof.Machine
end

section
/-! SUPPORT. The operations on memory, capabilities, barrier objects and jobs whose checks pass (R167, R173 to R184, R231, R243): each
answers with a next state in which no trap has been raised. -/

namespace Sys2Proof.Machine

open Host (Outcome)

/-- The operation ends in a next state and has taken no trap at its issue. -/
def Completes (s : State) (i : Instr) : Prop := ∃ t, exec i s = .next t ∧ t.iss.raised = s.iss.raised

section Shapes

variable {s : State} {i : Instr}

theorem completes_slotOp {k : Core → Except Fail Core} (hexec : exec i s = slotOp i s k) (hclean : Clean s i)
    (hk : ∃ c, k s.cur = .ok c ∧ True) : Completes s i := by
  obtain ⟨c, hc, -⟩ := hk
  exact ⟨_, hexec.trans (slotOp_clean hclean hc), rfl⟩

theorem completes_slotOpS {k : State → Core → Except Fail State} (hexec : exec i s = slotOpS i s k) (hclean : Clean s i)
    (hk : ∃ t, k s s.cur = .ok t ∧ t.iss = s.iss) : Completes s i := by
  obtain ⟨t, ht, hiss⟩ := hk
  exact ⟨t, hexec.trans (slotOpS_clean hclean ht), congrArg (·.raised) hiss⟩

theorem completes_slotOpE {els : Core → List (Nat × Nat)} {k : State → Core → Except Fail State}
    (hexec : exec i s = slotOpE i els s k) (hclean : Clean s i) (hk : ∃ t, k s s.cur = .ok t ∧ t.iss = s.iss) : Completes s i := by
  obtain ⟨t, ht, hiss⟩ := hk
  refine ⟨t, hexec.trans ?_, congrArg (·.raised) hiss⟩
  unfold slotOpE
  rw [hclean, ht]

/-- A check that passes, and what comes after it. -/
theorem ok_bind {α : Type} {m : Except Fail Unit} {k : Unit → Except Fail α} {P : α → Prop} (hm : m = .ok ())
    (hk : ∃ t, k () = .ok t ∧ P t) : ∃ t, (m >>= k) = .ok t ∧ P t := by
  subst hm
  exact hk

end Shapes

variable {s : State}

/-! ### Loads (R173, R174) -/

theorem vld_completes {f : VmF} (hclean : Clean s (.vld f))
    (href : s.refuses f.h (spacesLoad f.l) pR 128 (s.offset (.vld f)).toNat 128 = none)
    (hroom : f.l = true → s.cur.t.landing.length < 16) : Completes s (.vld f) := by
  refine completes_slotOpS (exec_vld f s) hclean (ok_bind (check_of_refuses href) ?_)
  dsimp only
  split
  · next hl => exact State.issueLanding_of_room (hroom hl) ..
  · exact ⟨_, rfl, s.spadRead_iss ..⟩

theorem vgather_completes {f : VmF} (hclean : Clean s (.vgather f))
    (href : s.refusesLive f.h (spacesLoad f.l) pR 4 ((List.range 32).map (s.spots f.xi (if f.l then 0 else 16 * f.imm.toInt))) 4 = none)
    (hroom : f.l = true → s.cur.t.landing.length < 16) : Completes s (.vgather f) := by
  rw [← gatherOffs_eq] at href
  refine completes_slotOpE (exec_vgather f s) hclean (ok_bind (checkAll_of_refusesLive href) ?_)
  extract_lets cap srcs
  split
  · next hl => exact State.issueLanding_of_room (hroom hl) ..
  · exact ⟨_, rfl, s.spadRead_iss ..⟩

theorem ld_completes {f : LdF} (hclean : Clean s (.ld f))
    (href : s.refuses f.h (spacesLoad f.l) pR 8 (s.offset (.ld f)).toNat 8 = none)
    (hroom : f.l = true → s.cur.t.landing.length < 16) : Completes s (.ld f) := by
  refine completes_slotOpS (exec_ld f s) hclean (ok_bind (check_of_refuses href) ?_)
  dsimp only
  split
  · next hl => exact State.issueLanding_of_room (hroom hl) ..
  · exact ⟨_, rfl, s.spadRead_iss ..⟩

theorem ldSc_completes {f : LsF} (hclean : Clean s (.ldSc f)) (href : s.refuses f.h [2] pR 8 (s.offset (.ldSc f)).toNat 8 = none)
    (hroom : s.cur.t.landing.length < 16) : Completes s (.ldSc f) := by
  refine completes_slotOpS (exec_ldSc f s) hclean (ok_bind (check_of_refuses href) ?_)
  obtain ⟨t, ht, hiss⟩ := State.issueLanding_of_room hroom f.imm.toNat (.x f.xt) (s.cur.rh f.h)
    [(0, capBase (s.cur.rh f.h) + (s.offset (.ldSc f)).toNat, 8)] (BitVec.ofNat 1024 (2 ^ 64 - 1)) (some s.rank)
  dsimp only
  rw [ht]
  exact ⟨t, rfl, hiss⟩

theorem lda_completes {f : VtxF} (hclean : Clean s (.lda f)) (href : s.refuses f.h [0, 1, 2, 4, 5] pR 8 (s.offset (.lda f)).toNat 8 = none) :
    Completes s (.lda f) := by
  refine completes_slotOpS (exec_lda f s) hclean (ok_bind (check_of_refuses href) ?_)
  dsimp only
  split
  · exact ⟨_, rfl, (State.acquire_iss ..).trans (s.spadRead_iss ..)⟩
  · exact ⟨_, rfl, rfl⟩

/-! ### Stores (R174) -/

theorem vst_completes {f : VstF} (hclean : Clean s (.vst f))
    (href : s.refuses f.h [0, 1, 2, 4, 5] pW 128 (s.offset (.vst f)).toNat 128 = none) : Completes s (.vst f) :=
  completes_slotOpS (exec_vst f s) hclean (ok_bind (check_of_refuses href) ⟨_, rfl, s.issueStore_iss ..⟩)

theorem vstm_completes {f : VsmF} (hclean : Clean s (.vstm f))
    (href : s.refuses f.h [0, 1, 2, 4, 5] pW 128 (s.offset (.vstm f)).toNat 128 = none) : Completes s (.vstm f) :=
  completes_slotOpS (exec_vstm f s) hclean (ok_bind (check_of_refuses href) ⟨_, rfl, s.issueStore_iss ..⟩)

theorem vscatter_completes {f : VsmF} (hclean : Clean s (.vscatter f))
    (href : s.refusesLive f.h [0, 1, 2, 4, 5] pW 4 (((List.range 32).filter (s.cur.active 32 f.pg)).map (s.spots f.xi 0)) 4 = none) :
    Completes s (.vscatter f) := by
  rw [← scatterEls_offsets s f.xi f.pg (s.cur.rv f.vt)] at href
  exact completes_slotOpE (exec_vscatter f s) hclean (ok_bind (checkAny_of_refusesLive href) ⟨_, rfl, s.issueStore_iss ..⟩)

theorem st_completes {f : LsF} (hclean : Clean s (.st f)) (href : s.refuses f.h [0, 1, 2, 4, 5] pW 8 (s.offset (.st f)).toNat 8 = none) :
    Completes s (.st f) :=
  completes_slotOpS (exec_st f s) hclean (ok_bind (check_of_refuses href) ⟨_, rfl, s.issueStore_iss ..⟩)

theorem stSc_completes {f : LsF} (hclean : Clean s (.stSc f)) (href : s.refuses f.h [2] pW 8 (s.offset (.stSc f)).toNat 8 = none) :
    Completes s (.stSc f) :=
  completes_slotOpS (exec_stSc f s) hclean (ok_bind (check_of_refuses href) ⟨_, rfl, s.issueStore_iss ..⟩)

theorem stl_completes {f : VtxF} (hclean : Clean s (.stl f)) (href : s.refuses f.h [0, 1, 2, 4, 5] pW 8 (s.offset (.stl f)).toNat 8 = none) :
    Completes s (.stl f) :=
  completes_slotOpS (exec_stl f s) hclean (ok_bind (check_of_refuses href) ⟨_, rfl, s.issueStore_iss ..⟩)

/-! ### Atomics (R178, R181, R182) -/

theorem amoOp_completes {i : Instr} {f : AmoF} {op : AmoOp} (hexec : exec i s = amoOp i f op s) (hclean : Clean s i)
    (href : s.refuses f.h [0, 1, 2, 5] pRWA 8 (s.offset i).toNat 8 = none) : Completes s i := by
  refine completes_slotOpS hexec hclean (ok_bind (check_of_refuses href) ?_)
  dsimp only
  split
  · exact ⟨_, rfl, s.spadAmo_iss ..⟩
  · exact ⟨_, rfl, rfl⟩

theorem amoSc_completes {f : AmoScF} (hclean : Clean s (.amoSc f))
    (href : s.refuses f.h [2] pRWA 8 (s.offset (.amoSc f)).toNat 8 = none) : Completes s (.amoSc f) :=
  completes_slotOpS (exec_amoSc f s) hclean (ok_bind (check_of_refuses href) ⟨_, rfl, rfl⟩)

theorem vamoInstr_completes {i : Instr} {f : VvF} {op : VamoOp} (hexec : exec i s = vamoInstr i f op s) (hclean : Clean s i)
    (href : s.refusesLive f.h [0, 1, 2, 5] pRWA 4 (((List.range 32).filter (s.cur.active 32 f.pg)).map (s.spots f.vi 0)) 4 = none) :
    Completes s i := by
  rw [← vamoEls_offsets] at href
  exact completes_slotOpE hexec hclean (ok_bind (checkAny_of_refusesLive href) ⟨_, rfl, s.issueVamo_iss ..⟩)

theorem vredst_completes {f : VvF} (hclean : Clean s (.vredst f))
    (href : s.refuses f.h [0, 1, 2, 5] pRWA 128 (s.offset (.vredst f)).toNat 128 = none) : Completes s (.vredst f) :=
  completes_slotOpS (exec_vredst f s) hclean (ok_bind (check_of_refuses href) ⟨_, rfl, s.issueVamo_iss ..⟩)

/-! ### Fences, flushes and prefetch (R176, R179, R180) -/

theorem cflush_completes {f : VtxF} (hclean : Clean s (.cflush f))
    (href : s.refuses f.h [0, 1, 2, 4, 5] pR 1 (s.offset (.cflush f)).toNat (s.cur.rx f.x).toNat = none) : Completes s (.cflush f) := by
  refine completes_slotOpS (exec_cflush f s) hclean (ok_bind (check_of_refuses href) ?_)
  dsimp only
  split
  · exact ⟨_, rfl, rfl⟩
  · exact ⟨_, rfl, rfl⟩

theorem fence_completes {f : FenceF} (hclean : Clean s (.fence f)) : Completes s (.fence f) :=
  completes_slotOp (exec_fence f s) hclean ⟨_, rfl, trivial⟩

theorem vfence_completes {f : VfenceF} (hclean : Clean s (.vfence f)) : Completes s (.vfence f) :=
  completes_slotOpS (exec_vfence f s) hclean ⟨_, rfl, (State.settleFences_keepsRegs _ _).1⟩

theorem vpref_completes {f : VprefF} (hclean : Clean s (.vpref f)) (href : s.refuses f.h [0, 1, 2, 3, 4, 5] 0 1 0 0 = none) :
    Completes s (.vpref f) := by
  refine completes_slotOpS (exec_vpref f s) hclean (ok_bind (handle_ok_of_refuses href _).1 ?_)
  dsimp only
  split
  · exact ⟨_, rfl, rfl⟩
  split
  · exact ⟨_, rfl, (State.recordTransfer_onlyBanks ..).keepsRegs.1.trans (State.recoded_onlyDevice ..).keepsRegs.1⟩
  · exact ⟨_, rfl, s.fill_iss ..⟩

/-! ### Capabilities (R168 to R172) -/

theorem cldh_completes {f : CmF} (hclean : Clean s (.cldh f)) (href : s.refuses f.hb [0, 1, 2] 0x09 32 (s.offset (.cldh f)).toNat 32 = none) :
    Completes s (.cldh f) := by
  refine completes_slotOpS (exec_cldh f s) hclean (ok_bind (check_of_refuses href) ?_)
  dsimp only
  split
  · exact ⟨_, rfl, s.spadRead_iss ..⟩
  · exact ⟨_, rfl, rfl⟩

theorem csth_completes {f : CmF} (hclean : Clean s (.csth f)) (href : s.refuses f.hb [0, 1, 2] 0x12 32 (s.offset (.csth f)).toNat 32 = none) :
    Completes s (.csth f) := by
  refine completes_slotOpS (exec_csth f s) hclean (ok_bind (check_of_refuses href) ?_)
  dsimp only
  split
  · exact ⟨_, rfl, s.spadStore_iss _ (s.storeTagged_iss ..)⟩
  · exact ⟨_, rfl, rfl⟩

theorem cnarrow_completes {f : CnF} (hclean : Clean s (.cnarrow f)) (href : s.refuses f.hb [0, 1, 2, 3, 4, 5, 6] 0x80 1 0 0 = none)
    (ha : (s.cur.rx f.xa).toNat < 2 ^ 48) (hb : (s.cur.rx f.xb).toNat < 2 ^ 48)
    (hlen : (s.cur.rx f.xa).toNat + (s.cur.rx f.xb).toNat ≤ capLen (s.cur.rh f.hb)) : Completes s (.cnarrow f) := by
  obtain ⟨hhandle, hrights⟩ := handle_ok_of_refuses href (s.cur.rx f.xa)
  have hrange : ¬(2 ^ 48 ≤ (s.cur.rx f.xa).toNat ∨ 2 ^ 48 ≤ (s.cur.rx f.xb).toNat ∨
      capLen (s.cur.rh f.hb) < (s.cur.rx f.xa).toNat + (s.cur.rx f.xb).toNat) := by omega
  exact completes_slotOp (exec_cnarrow f s) hclean (ok_bind hhandle (ok_bind hrights ⟨_, if_neg hrange, trivial⟩))

theorem cget_completes {f : CgF} (hclean : Clean s (.cget f)) : Completes s (.cget f) :=
  completes_slotOp (exec_cget f s) hclean ⟨_, rfl, trivial⟩

theorem cmov_completes {f : CvF} (hclean : Clean s (.cmov f)) : Completes s (.cmov f) :=
  completes_slotOp (exec_cmov f s) hclean ⟨_, rfl, trivial⟩

theorem cclr_completes {h : HReg} (hclean : Clean s (.cclr h)) : Completes s (.cclr h) :=
  completes_slotOp (exec_cclr h s) hclean ⟨_, rfl, trivial⟩

/-! ### Barrier objects (R279, R281 to R286) -/

theorem checkBar_of_refuses {h : HReg} {o : Nat} (href : s.refuses h [6] 0x40 64 o 64 = none)
    (hown : (capBase (s.cur.rh h) + o) / 2 ^ 25 % 1024 = s.pkgId.toNat) : s.checkBar s.cur h o = .ok () := by
  have hpkg : s.ownPkg (capBase (s.cur.rh h) + o) = true := beq_iff_eq.2 hown
  have hcheck : s.check s.iss.core s.cur h needBarr o 64 = .ok () := check_of_refuses href
  unfold State.checkBar
  rw [hcheck]
  exact if_pos hpkg

theorem binit_completes {f : BinitF} (hclean : Clean s (.binit f)) (hbar : s.checkBar s.cur f.hb (off48 (s.cur.rx f.xa)) = .ok ()) :
    Completes s (.binit f) :=
  completes_slotOpS (exec_binit f s) hclean (ok_bind hbar ⟨_, rfl, rfl⟩)

theorem blink_completes {f : BlinkF} (hclean : Clean s (.blink f)) (hbar : s.checkBar s.cur f.hb (off48 (s.cur.rx f.xa)) = .ok ())
    (href : s.refuses f.ha [6] 0x40 64 (off48 (s.cur.rx f.xb)) 64 = none) : Completes s (.blink f) :=
  completes_slotOpS (exec_blink f s) hclean (ok_bind hbar (ok_bind (check_of_refuses href) ⟨_, rfl, rfl⟩))

theorem barrive_completes {f : BarF} (hclean : Clean s (.barrive f)) (hbar : s.checkBar s.cur f.hb (off48 (s.cur.rx f.xa)) = .ok ()) :
    Completes s (.barrive f) :=
  completes_slotOpS (exec_barrive f s) hclean (ok_bind hbar ⟨_, rfl, rfl⟩)

theorem bwaitp_completes {f : BarF} (hclean : Clean s (.bwaitp f)) (hbar : s.checkBar s.cur f.hb (off48 (s.cur.rx f.xa)) = .ok ())
    (hact : (s.bar (capBase (s.cur.rh f.hb) + off48 (s.cur.rx f.xa))).act = true) : Completes s (.bwaitp f) := by
  refine completes_slotOpS (exec_bwaitp f s) hclean (ok_bind hbar ?_)
  dsimp only
  rw [hact, Bool.not_true, if_neg Bool.false_ne_true]
  split
  · exact ⟨_, rfl, rfl⟩
  · refine ⟨_, rfl, ?_⟩
    split
    · rfl
    · exact State.acquire_iss ..

/-! ### Jobs (R239 to R248) -/

theorem jobOp_eq {i : Instr} {hs : List HReg} {k : State → Core → Except Fail State} (hclean : Clean s i)
    (hpoison : s.handlePoison hs = none) : jobOp i s hs k = slotOpS i s k := by
  unfold jobOp
  rw [hclean, hpoison]

theorem cardOp_eq {i : Instr} {f : CjF} {wpe : Bool} {k : State → Core → BitVec 512 → Nat → Except Fail State} (hclean : Clean s i)
    (href : s.refuses f.h [0] pR 64 (s.offset i).toNat 64 = none) (hmarks : s.cardMarks s.cur f.h (s.offset i).toNat = [])
    (hpoison : s.handlePoison (cardHandles (s.cardAt s.cur f.h (s.offset i).toNat) wpe) = none) :
    cardOp i f wpe s k = slotOpS i s fun s' c => k s' c (s'.cardAt c f.h (s.offset i).toNat) (s.offset i).toNat := by
  have hcheck : s.check s.iss.core s.cur f.h needCard (s.offset i).toNat 64 = .ok () := check_of_refuses href
  unfold cardOp
  extract_lets off
  rw [show s.poisonTrap i 0 = none from hclean, hcheck]
  dsimp only
  rw [hmarks]
  exact jobOp_eq hclean hpoison

theorem csignal_completes {f : CsF} (hclean : Clean s (.csignal f))
    (href : s.refuses f.h [0, 1, 2] pW 8 (off48 (s.cur.rx f.xa)) 8 = none) : Completes s (.csignal f) :=
  completes_slotOpS (exec_csignal f s) hclean (ok_bind (check_of_refuses href) ⟨_, rfl, s.submit_iss ..⟩)

theorem cquery_completes {f : CqF} (hclean : Clean s (.cquery f)) : Completes s (.cquery f) :=
  completes_slotOpS (exec_cquery f s) hclean ⟨_, rfl, rfl⟩

theorem ccancel_completes {r : XReg} (hclean : Clean s (.ccancel r)) : Completes s (.ccancel r) := by
  refine completes_slotOpS (exec_ccancel r s) hclean ?_
  split
  · exact ⟨_, rfl, s.cancelJob_iss _⟩
  · exact ⟨_, rfl, rfl⟩

theorem cfence_completes (hclean : Clean s .cfence) : Completes s .cfence := completes_slotOpS (exec_cfence s) hclean ⟨_, rfl, rfl⟩

section Cards

variable {f : CjF}

theorem submitCopy_of_check {card : BitVec 512} {coff : Nat} {xd : XReg}
    (hcard : s.checkCopyCard (some s.iss.core) (capCtx (s.cur.rh 0)) card (taskHandles s.cur) coff = .ok ()) :
    ∃ t, s.submitCopy s.cur card coff xd = .ok t ∧ t.iss = s.iss :=
  ok_bind hcard ⟨_, rfl, s.submit_iss ..⟩

theorem cjob_completes (hclean : Clean s (.cjob f)) (href : s.refuses f.h [0] pR 64 (s.offset (.cjob f)).toNat 64 = none)
    (hmarks : s.cardMarks s.cur f.h (s.offset (.cjob f)).toNat = [])
    (hpoison : s.handlePoison (cardHandles (s.cardAt s.cur f.h (s.offset (.cjob f)).toNat) false) = none)
    (hcard : s.checkCopyCard (some s.iss.core) (capCtx (s.cur.rh 0)) (s.cardAt s.cur f.h (s.offset (.cjob f)).toNat)
      (taskHandles s.cur) (s.offset (.cjob f)).toNat = .ok ()) : Completes s (.cjob f) :=
  completes_slotOpS ((exec_cjob f s).trans (cardOp_eq hclean href hmarks hpoison)) hclean (submitCopy_of_check hcard)

theorem cwpe_completes (hclean : Clean s (.cwpe f)) (href : s.refuses f.h [0] pR 64 (s.offset (.cwpe f)).toNat 64 = none)
    (hmarks : s.cardMarks s.cur f.h (s.offset (.cwpe f)).toNat = [])
    (hpoison : s.handlePoison (cardHandles (s.cardAt s.cur f.h (s.offset (.cwpe f)).toNat) true) = none)
    (hcard : s.checkWpeCard s.iss.core (capCtx (s.cur.rh 0)) (s.cardAt s.cur f.h (s.offset (.cwpe f)).toNat)
      (taskHandles s.cur) (s.offset (.cwpe f)).toNat = .ok ()) : Completes s (.cwpe f) :=
  completes_slotOpS ((exec_cwpe f s).trans (cardOp_eq hclean href hmarks hpoison)) hclean (ok_bind hcard ⟨_, rfl, s.submit_iss ..⟩)

theorem cjobv_completes {f : CjvF} (hclean : Clean s (.cjobv f))
    (hpoison : s.handlePoison (cardHandles ((s.cur.rv f.vs).setWidth 512) false) = none)
    (hcard : s.checkCopyCard (some s.iss.core) (capCtx (s.cur.rh 0)) ((s.cur.rv f.vs).setWidth 512) (taskHandles s.cur) 0 = .ok ()) :
    Completes s (.cjobv f) :=
  completes_slotOpS ((exec_cjobv f s).trans (jobOp_eq hclean hpoison)) hclean (submitCopy_of_check hcard)

end Cards

end Sys2Proof.Machine

namespace Sys2Proof

open Sys2Proof.Machine

/-- Settles O60: an operation answers by its shape, and a form whose checks pass carries out its effect, which raises nothing. -/
theorem memoryFormsComplete : Obligations.MemoryFormsComplete := by
  unfold Obligations.MemoryFormsComplete
  refine ⟨exec_answers, fun s _ => ?_⟩
  dsimp only
  refine ⟨fun f => ⟨fun hclean href _ hroom => vld_completes hclean href hroom,
      fun hclean href _ hroom => vgather_completes hclean href hroom⟩,
    fun f hclean href _ hroom => ld_completes hclean href hroom,
    fun f hclean href _ _ => vst_completes hclean href,
    fun f => ⟨fun hclean href _ _ => vstm_completes hclean href, fun hclean href _ _ => vscatter_completes hclean href⟩,
    fun f => ⟨fun hclean href _ _ => st_completes hclean href, fun hclean href _ _ => stSc_completes hclean href,
      fun hclean href _ hroom => ldSc_completes hclean href (hroom rfl)⟩,
    fun f => ?_,
    fun f hclean href _ _ => amoSc_completes hclean href,
    fun f => ⟨fun hclean href _ _ => lda_completes hclean href, fun hclean href _ _ => stl_completes hclean href,
      fun hclean href _ _ => cflush_completes hclean href⟩,
    fun f => ⟨fun hclean href _ _ => vamoInstr_completes (exec_vamoadd f s) hclean href,
      fun hclean href _ _ => vamoInstr_completes (exec_vamomin f s) hclean href,
      fun hclean href _ _ => vamoInstr_completes (exec_vamomax f s) hclean href,
      fun hclean href _ _ => vredst_completes hclean href⟩,
    fun f => ⟨fun hclean href _ _ => cldh_completes hclean href, fun hclean href _ _ => csth_completes hclean href⟩,
    fun f hclean href ha hb hlen => cnarrow_completes hclean href ha hb hlen,
    fun f hclean => cget_completes hclean, fun f hclean => cmov_completes hclean, fun h hclean => cclr_completes hclean,
    fun f hclean href hown => binit_completes hclean (checkBar_of_refuses href hown),
    fun f hclean href hown hparent => blink_completes hclean (checkBar_of_refuses href hown) hparent,
    fun f hclean href hown => barrive_completes hclean (checkBar_of_refuses href hown),
    fun f hclean href hown hact => bwaitp_completes hclean (checkBar_of_refuses href hown) hact,
    fun f hclean => fence_completes hclean, fun f hclean => vfence_completes hclean,
    fun f hclean href => vpref_completes hclean href,
    fun f => ⟨fun ⟨hclean, href, hmarks⟩ hpoison hcard => cjob_completes hclean href hmarks hpoison hcard,
      fun ⟨hclean, href, hmarks⟩ hpoison hcard => cwpe_completes hclean href hmarks hpoison hcard⟩,
    fun f hclean hpoison hcard => cjobv_completes hclean hpoison hcard,
    fun f hclean href _ _ => csignal_completes hclean href,
    fun f hclean => cquery_completes hclean, fun r hclean => ccancel_completes hclean, fun hclean => cfence_completes hclean⟩
  exact ⟨fun hclean href _ _ => amoOp_completes (exec_amoadd f s) hclean href,
    fun hclean href _ _ => amoOp_completes (exec_amomin f s) hclean href,
    fun hclean href _ _ => amoOp_completes (exec_amomax f s) hclean href,
    fun hclean href _ _ => amoOp_completes (exec_amominu f s) hclean href,
    fun hclean href _ _ => amoOp_completes (exec_amomaxu f s) hclean href,
    fun hclean href _ _ => amoOp_completes (exec_amoand f s) hclean href,
    fun hclean href _ _ => amoOp_completes (exec_amoor f s) hclean href,
    fun hclean href _ _ => amoOp_completes (exec_amoxor f s) hclean href,
    fun hclean href _ _ => amoOp_completes (exec_amoswap f s) hclean href,
    fun hclean href _ _ => amoOp_completes (exec_amocas f s) hclean href⟩

end Sys2Proof
end

section
/-! SUPPORT. The encodings (R66, R73 to R78): the round trip of every operation from that of each constructor, and the words of the
tables as encodings. -/

namespace Sys2Proof.Laws.RoundTrip

/-- One lemma a constructor, in the order of their declaration: an operation has its word, and an event, which is not well-formed,
needs none. -/
theorem statement_all : ∀ i : Instr, Statement i := Instr.rec
  -- B slot
  beq bne blt bge bltu bgeu bpt bpf jmp call ret loop loopW loopSp lend lbrk wait setfmt litset sstep iinv yield halt trap tret
  -- S slot
  lui auipc addi slti sltiu xori ori andi slli srli srai add sub sll slt sltu xor srl sra or and addiw slliw srliw sraiw addw subw
  sllw srlw sraw lb lh lw sld lbu lhu lwu sb sh sw sd fence ecall ebreak mul mulh mulhsu mulhu div divu rem remu mulw divw divuw remw
  remuw csrrw csrrs csrrc csrrwi csrrsi csrrci
  -- sticky slots
  idle
  -- VA and VB slots: on registers
  vadd vsub vmul vdiv vmin vmax vabs vneg vfma vfms vsqrt vrcp vrsqrt vexp2 vlog2 vand vor vxor vnot vshl vshr vsra vadds vsubs vmulh
  vbcast vmovx vmov viota vli vcmpEq vcmpNe vcmpLt vcmpLe vcmpUn vcmpLtu vcmpLeu vpand vpor vpxor vpnot vpset vpcnt vpfirst vsel vperm
  vslideup vslidedn vzip vunzip vcompress vexpand vredsum vredmax vredmin vscansum vscanmax vargmax vbitonic vmulL6 vdotL6 vrand
  -- VA and VB slots: on memory, capabilities and barriers
  vld vst vstm vgather vscatter ld st ldSc stSc vpref amoadd amomin amomax amominu amomaxu amoand amoor amoxor amoswap amocas amoSc
  lda stl vfence cflush vamoadd vamomin vamomax vredst cldh csth cnarrow cget cmov cclr binit blink barrive bwaitp
  -- M slot
  oclaim orelease oload wload mzero mmov mrd mwr mmaF64 mmaF32 mmaBf16 mmaF16 mmaI8 mmaI4 mmaL6 mmaS24 mmaS14 mlrset mlrmul mlrdm
  mdmlr mlradd mrecomp mdense mrank mbflyC64 mbflyC128 mbrev mtwmulC64 mtwmulC128
  -- CA and CB slots
  cjob cjobv cwpe cquery ccancel csignal cfence
  -- X slot
  xexpS24 xexpS14 xunpkL6 xunpkI4 xpackL6 xpackI4 xtr xcvt xscale xscalei
  -- events of the device
  fmtShadowExpiry superstepRelease taskEnd tretResume repeatIssue segmentMark overlaySegmentLanded scWheelIssue barrierAnswer
  barrierArrivalReceived barrierFlipReceived wloadBlockArrival wloadFillExpiry engineOpStart portBlock engineRetire jobStart copyRow
  jobComplete wpeBuildStart wpePulseIteration wpeSlotRelease xscaleExecute resultWriteback landingCountExpiry landingDataArrival
  storeAck homeAtomicExecute stampedMessageDelivery directoryInvalidate memoryFaultFound trapEntry preempt saveComplete taskRestore
  scheduleReadyTask queueSignal queueRemap queueIdleTimeout queueRestart packetDispatch launch copy barrier node selftest fencePacket
  packetComplete indexClaim gangStart indexReturnTimeout launchComplete selftestComplete waySurrender wayReturn waypWrite wrgnWrite
  regionSealComplete qdbaseWrite qsigbaseWrite fabidWrite fportEnWrite fabricLinkUp fabricTagFailure streamRekey pcapWrite pcapWindow
  vcoreOvercurrent mcErrorRecord threshWindowEnd mcStatusClear datapathCheckFail coreFence coreReturnToService lockstepMismatch
  lockstepReplayComplete dieLost packageLost ownerEntryEffect hostBarAccess controlRegisterWrite getVersion getCapabilities
  negotiateAlgorithms getDigests getCertificate challenge getMeasurements keyExchange finish keyUpdate endSession ideKm create assign
  saveArea report teardown resume mctpControl pldmMonitoring imageTransfer capRead capWrite fabricKeyExchange linkReset warmReset
  coldReset hostLinkUp powerLoss louverResourceDone regionRehashComplete

/-- A word is decoded in a slot to the operation that it encodes. -/
theorem decodeSlot_of_encode {i : Instr} {w : DWord} {sl : Slot} (hwf : i.wf = true) (hw : encode i = some w)
    (hsl : sl ∈ i.standsIn) : decodeSlot sl w = .ok i := by
  obtain ⟨v, hv, hdecode⟩ := statement_all i hwf
  obtain rfl : v = w := Option.some.inj (hv.symm.trans hw)
  exact hdecode sl hsl

end Sys2Proof.Laws.RoundTrip

namespace Sys2Proof

open Sys2Proof.Laws

/-- Settles O58: every constructor has its round trip. -/
theorem encodingRoundTrip : Obligations.EncodingRoundTrip := by
  unfold Obligations.EncodingRoundTrip
  exact RoundTrip.statement_all

/-- Settles O59: each word is the encoding of its operation, which the round trip gives back. -/
theorem decodeWords : Obligations.DecodeWords := by
  unfold Obligations.DecodeWords
  refine ⟨?_, ?_, ?_, ?_, ?_, ?_, ?_, ?_, ?_⟩ <;> exact RoundTrip.decodeSlot_of_encode rfl rfl (by decide)

end Sys2Proof
end

section
/-! SUPPORT. The literal word of an M-slot operation (R79, R80, R322): every operation that takes one has one shape, which checks the
literal's address first. -/

namespace Sys2Proof.Machine

open Host (Outcome)

/-! ### The literal's address -/

/-- The answer is that of an M-slot operation: the checks of the literal's address, then its own part. -/
def LiteralFirst (i : Instr) (s : State) (o : Outcome State Fault Refusal) : Prop := ∃ marks k, o = matOpL i s marks k

theorem matOpL_literalFirst {i : Instr} {s : State} {marks : Core → Word → List Holder}
    {k : State → Core → Word → Except Fail State} : LiteralFirst i s (matOpL i s marks k) := ⟨marks, k, rfl⟩

theorem matOp_literalFirst {i : Instr} {s : State} {k : State → Core → Word → Except Fail State} :
    LiteralFirst i s (matOp i s k) := matOpL_literalFirst

section Shapes

variable {i : Instr} {s : State}

theorem denseMma_literalFirst {f : MaF} {t : Fmt} : LiteralFirst i s (denseMma i f t s) := matOpL_literalFirst
theorem sparseMma_literalFirst {f : MaF} {per : Nat} : LiteralFirst i s (sparseMma i f per s) := matOpL_literalFirst

theorem mbfly_literalFirst {f : MbF} {wide : Bool} : LiteralFirst i s (mbfly i f wide s) := by
  unfold mbfly
  exact matOp_literalFirst

theorem mtwmul_literalFirst {f : MbF} {wide : Bool} : LiteralFirst i s (mtwmul i f wide s) := by
  unfold mtwmul
  exact matOp_literalFirst

end Shapes

/-- Every operation that takes a literal word is of the M slot's shape. -/
theorem exec_literalFirst {i : Instr} (h : Instr.takesLiteral i = true) (s : State) : LiteralFirst i s (exec i s) := by
  cases i with
  | oclaim _ | orelease _ | oload _ | wload _ | mzero _ | mmov _ | mrd _ | mwr _ | mlrmul _ | mlrdm _ | mdmlr _ | mlradd _
  | mrecomp _ | mdense _ | mrank _ =>
    unfold exec
    exact matOp_literalFirst
  | mmaF64 _ | mmaF32 _ | mmaBf16 _ | mmaF16 _ | mmaI8 _ | mmaI4 _ | mmaL6 _ =>
    unfold exec
    exact denseMma_literalFirst
  | mmaS24 _ | mmaS14 _ =>
    unfold exec
    exact sparseMma_literalFirst
  | mlrset _ =>
    rw [exec_mlrset, execMlrset]
    exact matOpL_literalFirst
  | mbrev _ =>
    unfold exec
    exact matOpL_literalFirst
  | mbflyC64 _ | mbflyC128 _ =>
    unfold exec
    exact mbfly_literalFirst
  | mtwmulC64 _ | mtwmulC128 _ =>
    unfold exec
    exact mtwmul_literalFirst
  | _ => exact absurd h Bool.false_ne_true

section Traps

variable {i : Instr} {s : State}

/-- R80: MPC names no literal word. -/
theorem traps_of_mpcBad (h : Instr.takesLiteral i = true) (hclean : s.poisonTrap i s.literal = none) (hbad : s.mpcBad s.cur = true) :
    Traps s i 0x06 (s.cur.c.mpc.setWidth 64) := by
  obtain ⟨marks, k, hexec⟩ := exec_literalFirst h s
  rw [Traps, hexec]
  simp only [matOpL, hclean, hbad, if_true]
  rfl

/-- R322: the literal's segment clashes with the bundle's. -/
theorem traps_of_overlayConflict (h : Instr.takesLiteral i = true) (hclean : s.poisonTrap i s.literal = none)
    (hgood : s.mpcBad s.cur = false) (hclash : s.overlayConflict s.cur = true) : Traps s i 0x08 (s.cur.c.mpc.setWidth 64) := by
  obtain ⟨marks, k, hexec⟩ := exec_literalFirst h s
  rw [Traps, hexec]
  simp only [matOpL, hclean, hgood, hclash, Bool.false_eq_true, if_true, if_false]
  rfl

end Traps

theorem mpcBad_iff (s : State) (c : Core) : s.mpcBad c = true ↔ c.c.mpc.toNat % 128 / 4 < 2 ∨
    ¬(c.c.codebase.toNat ≤ c.c.mpc.toNat ∧ c.c.mpc.toNat < c.c.codelim.toNat) ∨ s.segOf c c.c.mpc.toNat = none := by
  simp [State.mpcBad, wordOf, Core.inArena, or_assoc, imp_iff_not_or]

theorem overlayConflict_iff (s : State) (c : Core) : s.overlayConflict c = true ↔
    ∃ g h, s.segOf c c.c.mpc.toNat = some g ∧ s.segOf c c.k.pc.toNat = some h ∧ g.num ≠ h.num ∧
      g.iline < h.iline + h.nlines ∧ h.iline < g.iline + g.nlines := by
  unfold State.overlayConflict
  cases s.segOf c c.c.mpc.toNat <;> cases s.segOf c c.k.pc.toNat <;> simp [Seg.overlaps]

end Sys2Proof.Machine

namespace Sys2Proof

open Sys2Proof.Machine

/-- Settles O25: the literal's address is checked in the shape that every such operation has. -/
theorem literalChecks : Obligations.LiteralChecks := by
  unfold Obligations.LiteralChecks
  intro s i hlit hclean c a bad clash
  refine ⟨fun hbad => traps_of_mpcBad hlit hclean ((mpcBad_iff s c).2 hbad), fun hgood hclash => ?_⟩
  exact traps_of_overlayConflict hlit hclean (Bool.eq_false_of_not_eq_true fun h => hgood ((mpcBad_iff s c).1 h))
    ((overlayConflict_iff s c).2 hclash)

end Sys2Proof
end

section
/-! SUPPORT. The checks of an access as a list, in order, among those of an M-slot operation (R167), and the operand slots (R189 to
R192). -/

namespace Sys2Proof.Machine

theorem passes_append (a b : List (BitVec 8 × DWord × Bool)) : passes (a ++ b) = passes a >>= fun _ => passes b := by
  induction a with
  | nil => rfl
  | cons check rest ih =>
    obtain ⟨cause, tval, fails⟩ := check
    cases fails
    · exact ih
    · rfl

/-- A check that the model makes by a conditional. -/
theorem ite_eq_passes_bind {α : Type} (cause : BitVec 8) (tval : DWord) (fails : Bool) (k : Except Fail α) :
    (if fails then .error ⟨cause, tval⟩ else k) = passes [(cause, tval, fails)] >>= fun _ => k := by
  cases fails <;> rfl

theorem needClaimed_eq_passes (c : Core) (os : OSlot) : needClaimed c os = passes [c.unclaimed os] := by
  cases h : (c.slot os).claimed <;> simp [needClaimed, passes, Core.unclaimed, h]

/-- A list of checks whose failures all show one TVAL. -/
def showing (tval : DWord) (checks : List (BitVec 8 × Bool)) : List (BitVec 8 × DWord × Bool) :=
  checks.map (fun k => (k.1, tval, k.2))

section Access

variable (s : State) (h : HReg) (spaces : List Nat) (perm : BitVec 8) (align off z : Nat)

theorem checkHandle_eq_passes (tval : DWord) : checkHandle s.cur h spaces tval =
    passes (showing tval ((s.accessChecks h spaces perm align off z).take 3)) := by
  simp [checkHandle, State.accessChecks, showing, passes]

theorem checkRights_eq_passes (tval : DWord) : checkRights s.cur h perm tval =
    passes (showing tval (((s.accessChecks h spaces perm align off z).drop 3).take 2)) := by
  simp [checkRights, State.accessChecks, showing, passes]

theorem checkRange_eq_passes : s.checkRange s.iss.core (s.cur.rh h) off z align =
    passes (showing (BitVec.ofNat 64 off) ((s.accessChecks h spaces perm align off z).drop 5)) := by
  by_cases hlen : capLen (s.cur.rh h) < off + z <;> simp [State.checkRange, State.accessChecks, showing, passes, hlen]

/-- R167: the model's check of an access is the list of its checks in order, each with the offset as TVAL. -/
theorem check_eq_passes : s.check s.iss.core s.cur h { spaces := spaces, perm := perm, align := align } off z =
    passes (showing (BitVec.ofNat 64 off) (s.accessChecks h spaces perm align off z)) := by
  unfold State.check
  rw [checkHandle_eq_passes s h spaces perm align off z, checkRights_eq_passes s h spaces perm align off z,
    checkRange_eq_passes s h spaces perm align off z, ← passes_append, ← passes_append]
  rfl

end Access

end Sys2Proof.Machine

namespace Sys2Proof

open Sys2Proof.Machine

/-- Settles O26: each operation is its checks in order and then one change of the core. -/
theorem operandSlots : Obligations.OperandSlots := by
  unfold Obligations.OperandSlots
  intro s os f w c put off
  refine ⟨?_, ?_, ?_, ?_⟩
  · refine matActs_gives (exec_oclaim os s) ?_
    rw [passes_cons_bind, ← zeroLit_eq_passes]
    simp only [← ite_eq_passes_bind]
    rfl
  · refine matActs_gives (exec_orelease os s) ?_
    rw [passes_cons_bind, ← zeroLit_eq_passes, ← needClaimed_eq_passes]
    rfl
  · refine matActs_gives (exec_oload f s) ?_
    rw [passes_cons_bind, ← zeroLit_eq_passes, ← needClaimed_eq_passes]
    rfl
  · refine matActs_gives (exec_wload w s) ?_
    rw [passes_append, passes_cons_bind, ← zeroLit_eq_passes, ← needClaimed_eq_passes]
    rw [← showing, ← check_eq_passes, bind_assoc, bind_assoc]
    rfl

end Sys2Proof
end

section
/-! SUPPORT. The ends of loops (R126 to R128): what LEND's closing action and LBRK leave of the acting core, and where control goes. -/

namespace Sys2Proof.Machine

open Host (Outcome)

/-! ### Answers that change the acting core and the way on -/

section Ways

variable {s : State} {i : Instr} {c : Core}

theorem onlyCore_setCur {iss : Issue} (h : iss.core = s.iss.core) : OnlyCore s { s.setCur c with iss := iss } c := by
  refine ⟨rfl, rfl, rfl, rfl, rfl, rfl, rfl, rfl, h, ?_, fun n hn => State.core_setCore_other s c hn⟩
  rw [State.cur, h]
  exact State.cur_setCur s c

theorem goesTo_of_exec {tgt : Nat} (h : exec i s = .next ((s.setCur c).goto tgt)) : GoesTo s i tgt c :=
  ⟨_, h, rfl, rfl, onlyCore_setCur rfl⟩

theorem fallsThrough_of_setCur (h : exec i s = .next (s.setCur c)) : FallsThrough s i c :=
  ⟨_, h, rfl, rfl, onlyCore_setCur rfl⟩

theorem fallsThrough_of_closed (h : exec i s = .next { s.setCur c with iss := { s.iss with closed := true } }) :
    FallsThrough s i c :=
  ⟨_, h, rfl, rfl, onlyCore_setCur rfl⟩

end Ways

/-! ### The closing action at a body's END (R126) -/

/-- ROT, turned back by one. -/
def Core.turnedBack (c : Core) : Core := { c with c := { c.c with rot := c.c.rot - 1 } }

/-- The core at the start of the next iteration of level k: the count is down by one, and under LOOP.SP the stage predicate is on its
way, of ones while trips remain. -/
def Core.nextIteration (c : Core) (k : Nat) (l : LoopLv) : Core :=
  let next := c.turnedBack.setLevel k { l with iter := l.iter - 1 }
  let trips := l.trip + l.stg.toNat - (l.iter - 1).toNat
  if l.kind = 3 then
    next.push (mkPend .b 1 (.p (next.pp 8) (BitVec.allOnes 128) (if trips < l.trip then BitVec.allOnes 128 else 0)))
  else next

/-- The closing action goes back exactly where the level does not end. -/
theorem continues_eq_not_ends (l : LoopLv) (cond : Bool) :
    (if l.kind = 2 then cond else decide (1 < l.iter.toNat)) = !l.ends cond := by
  rw [LoopLv.ends]
  split_ifs
  · exact (Bool.not_not cond).symm
  · rw [← decide_not, decide_eq_decide, Nat.not_le]

section Close

variable {s : State} {k : Nat} {l : LoopLv} (hinner : s.cur.inner = some (k, l))
include hinner

theorem structTrap_of_inner : s.structTrap = s.loopTrap 0x63 0 k l.start := by
  rw [State.structTrap, hinner]

/-- A while loop that would pass its bound. -/
theorem closeLoop_of_bound (hkind : l.kind = 2) (hiter : l.iter = 1) :
    closeLoop (some true) s = s.loopTrap 0x62 (BitVec.ofNat 64 l.max) k l.start := by
  simp [closeLoop, hinner, hkind, hiter]

section Cond

variable {cond : Bool}

/-- Iterations remain and START passes the target's checks: control goes there. -/
theorem closeLoop_of_more (hmore : l.ends cond = false) (hbound : l.kind = 2 → l.iter ≠ 1)
    (htarget : s.targetFault s.iss.core (s.addrOfIdx s.cur s.cur.k.pc.toNat l.start) = none) :
    closeLoop (some cond) s =
      .next ((s.setCur (s.cur.nextIteration k l)).goto (s.addrOfIdx s.cur s.cur.k.pc.toNat l.start)) := by
  simp only [closeLoop, hinner, Option.isNone_some, Bool.false_eq_true, and_false, if_false, Option.getD_some,
    continues_eq_not_ends, hmore, Bool.not_false, true_and, if_neg (not_and.2 hbound), if_true, htarget]
  rfl

/-- Iterations remain and START fails a check of its target. -/
theorem closeLoop_of_fault (hmore : l.ends cond = false) (hbound : l.kind = 2 → l.iter ≠ 1) {e : BitVec 8} {v : Nat}
    (htarget : s.targetFault s.iss.core (s.addrOfIdx s.cur s.cur.k.pc.toNat l.start) = some (e, v)) :
    closeLoop (some cond) s = s.trap e (BitVec.ofNat 64 v) := by
  simp only [closeLoop, hinner, Option.isNone_some, Bool.false_eq_true, and_false, if_false, Option.getD_some,
    continues_eq_not_ends, hmore, Bool.not_false, true_and, if_neg (not_and.2 hbound), if_true, htarget]

/-- No iteration remains: the level becomes inactive. -/
theorem closeLoop_of_ends (hends : l.ends cond = true) (hleaks : s.leaks s.iss.next.toNat (some k) = false) :
    closeLoop (some cond) s =
      .next { s.setCur (s.cur.turnedBack.setLevel k .off) with iss := { s.iss with closed := true } } := by
  simp only [closeLoop, hinner, Option.isNone_some, Bool.false_eq_true, and_false, false_and, if_false, Option.getD_some,
    continues_eq_not_ends, hends, Bool.not_true, hleaks]
  rfl

end Cond

/-! ### LEND and LBRK -/

theorem exec_lend_at_end {r : XReg} (hclean : Clean s (.lend r)) (hend : s.atEnd = true) :
    exec (.lend r) s =
      if l.ends (s.cur.rx r != 0) && s.leaks s.iss.next.toNat (some k) then s.loopTrap 0x63 0 k l.start
      else if r ≠ 0 ∧ l.kind ≠ 2 then s.illegal (.lend r)
      else closeLoop (some (s.cur.rx r != 0)) s := by
  rw [exec_lend, execLend, branchOp_clean hclean, hend, hinner, structTrap_of_inner hinner]
  rfl

/-- Where LEND is neither a structure trap nor an illegal instruction it makes the closing action. -/
theorem exec_lend_closes {r : XReg} (hclean : Clean s (.lend r)) (hend : s.atEnd = true) (hlegal : r = 0 ∨ l.kind = 2)
    (hstays : l.ends (s.cur.rx r != 0) = false ∨ s.leaks s.iss.next.toNat (some k) = false) :
    exec (.lend r) s = closeLoop (some (s.cur.rx r != 0)) s := by
  rw [exec_lend_at_end hinner hclean hend, Bool.and_eq_false_iff.2 hstays, if_neg Bool.false_ne_true, if_neg (by tauto)]

theorem exec_lbrk_in_loop {r : XReg} (hclean : Clean s (.lbrk r)) :
    exec (.lbrk r) s =
      if r = 0 ∨ s.cur.rx r ≠ 0 then
        .next ((s.setCur (s.cur.setLevel k .off)).goto (s.following s.iss.core (s.addrOfIdx s.cur s.cur.k.pc.toNat l.fin)))
      else .next s := by
  rw [exec_lbrk, execLbrk, branchOp_clean hclean, hinner]

end Close

theorem exec_lend_away {s : State} {r : XReg} (hclean : Clean s (.lend r)) (hend : s.atEnd = false) :
    exec (.lend r) s = s.structTrap := by
  rw [exec_lend, execLend, branchOp_clean hclean, hend]
  rfl

theorem exec_lbrk_no_loop {s : State} {r : XReg} (hclean : Clean s (.lbrk r)) (hinner : s.cur.inner = none) :
    exec (.lbrk r) s = s.structTrap := by
  rw [exec_lbrk, execLbrk, branchOp_clean hclean, hinner]

theorem structTrap_no_loop {s : State} (hinner : s.cur.inner = none) : s.structTrap = s.loopTrap 0x63 0 0 0 := by
  rw [State.structTrap, hinner]

theorem atEnd_no_loop {s : State} (hinner : s.cur.inner = none) : s.atEnd = false := by
  rw [State.atEnd, hinner]

/-- With its register's value as the condition of a while loop, a level does not end while iterations remain. -/
theorem ends_eq_false_iff (l : LoopLv) (x : DWord) :
    l.ends (x != 0) = false ↔ if l.kind = 2 then x ≠ 0 else 1 < l.iter.toNat := by
  by_cases hkind : l.kind = 2 <;> simp [LoopLv.ends, hkind]

end Sys2Proof.Machine

namespace Sys2Proof

open Sys2Proof.Machine

/-- Settles O8: at END the closing action goes back, pops the level or traps; elsewhere the structure trap; LBRK pops and goes on. -/
theorem loopEnd : Obligations.LoopEnd := by
  unfold Obligations.LoopEnd
  refine ⟨fun s r k l hinner hend hclean => ?_, fun s r hclean => ⟨fun k l hinner hend => ?_, fun hinner => ?_⟩,
    fun s r hclean => ⟨fun hinner => ?_, fun k l hinner => ⟨fun htaken => goesTo_of_exec ?_, fun hr hx => ?_⟩⟩⟩
  · intro c start more back next trips staged
    have hmore : more ↔ l.ends (s.cur.rx r != 0) = false := (ends_eq_false_iff l (s.cur.rx r)).symm
    have hlast : ¬more ↔ l.ends (s.cur.rx r != 0) = true := by rw [hmore, Bool.not_eq_false]
    refine ⟨fun hno hleaks => ?_, fun hstays hr hkind => ?_, fun hlegal => ?_⟩
    · rw [LoopTraps, exec_lend_at_end hinner hclean hend, hlast.1 hno, hleaks]
      rfl
    · rw [exec_lend_at_end hinner hclean hend, Bool.and_eq_false_iff.2 (hstays.imp_left hmore.1), if_neg Bool.false_ne_true,
        if_pos ⟨hr, hkind⟩]
    · have hcloses := exec_lend_closes hinner hclean hend hlegal
      refine ⟨fun hkind hm hiter => ?_, fun hm hbound htarget => goesTo_of_exec ?_, fun e v hm hbound htarget => ?_,
        fun hno hleaks => fallsThrough_of_closed ?_⟩
      · have hx : (s.cur.rx r != 0) = true := by simpa [LoopLv.ends, hkind] using hmore.1 hm
        rw [LoopTraps, hcloses (.inl (hmore.1 hm)), hx, closeLoop_of_bound hinner hkind hiter]
        rfl
      · rw [hcloses (.inl (hmore.1 hm)), closeLoop_of_more hinner (hmore.1 hm) hbound htarget]
        rfl
      · rw [Traps, hcloses (.inl (hmore.1 hm)), closeLoop_of_fault hinner (hmore.1 hm) hbound htarget]
        rfl
      · rw [hcloses (.inr hleaks), closeLoop_of_ends hinner (hlast.1 hno) hleaks]
        rfl
  · rw [LoopTraps, exec_lend_away hclean hend, structTrap_of_inner hinner]
    rfl
  · rw [LoopTraps, exec_lend_away hclean (atEnd_no_loop hinner), structTrap_no_loop hinner]
    rfl
  · rw [LoopTraps, exec_lbrk_no_loop hclean hinner, structTrap_no_loop hinner]
    rfl
  · rw [exec_lbrk_in_loop hinner hclean, if_pos htaken]
  · rw [exec_lbrk_in_loop hinner hclean, if_neg (by tauto)]

end Sys2Proof
end

section
/-! SUPPORT. The transform slot (R231 to R237): the elements of a packed result, and of the expand and transpose forms, by their
places. -/

namespace Sys2Proof.Machine

/-! ### Elements of a packed result -/

theorem elemOf_lt (e v j : Nat) : elemOf e v j < 2 ^ e := Nat.mod_lt _ (Nat.two_pow_pos e)

theorem elemOf_packVec {e : Nat} (he : 0 < e) (l : List Nat) {j : Nat} (hj : e * (j + 1) ≤ 1024) :
    elemOf e (packVec e l).toNat j = l.getD j 0 % 2 ^ e := by
  apply Nat.eq_of_testBit_eq
  intro i
  rw [elemOf_testBit, Nat.testBit_mod_two_pow]
  by_cases hi : i < e
  · have hk : e * j + i < 1024 := by rw [Nat.mul_succ] at hj; omega
    rw [← BitVec.getLsbD, packVec_getLsbD he _ hk, Nat.mul_add_div he, Nat.mul_add_mod, Nat.div_eq_of_lt hi, Nat.mod_eq_of_lt hi,
      Nat.add_zero]
  · simp [hi]

/-- The same of elements given one by one. -/
theorem elemOf_packVec_range {e n : Nat} (he : 0 < e) (r : Nat → Nat) (hn : e * n ≤ 1024) {j : Nat} (hj : j < n) :
    elemOf e (packVec e ((List.range n).map r)).toNat j = r j % 2 ^ e := by
  rw [elemOf_packVec he _ ((Nat.mul_le_mul_left e hj).trans hn), getD_map_range _ _ _ hj]

theorem packNat_lt (e : Nat) (l : List Nat) : packNat e l < 2 ^ (l.length * e) := by
  induction l with
  | nil => simp [packNat]
  | cons x xs ih =>
    have hx : x % 2 ^ e < 2 ^ e := Nat.mod_lt _ (Nat.two_pow_pos e)
    calc packNat e (x :: xs) < 2 ^ e + 2 ^ e * packNat e xs := Nat.add_lt_add_right hx _
      _ = 2 ^ e * (packNat e xs + 1) := by ring
      _ ≤ 2 ^ e * 2 ^ (xs.length * e) := Nat.mul_le_mul_left _ ih
      _ = 2 ^ ((x :: xs).length * e) := by rw [← Nat.pow_add, List.length_cons, Nat.add_mul, Nat.one_mul, Nat.add_comm]

theorem packVec_toNat_lt (e : Nat) (l : List Nat) : (packVec e l).toNat < 2 ^ (l.length * e) := by
  rw [packVec, BitVec.toNat_ofNat]
  exact (Nat.mod_le _ _).trans_lt (packNat_lt e l)

/-- What a register of n elements, given one by one, holds: each in its place, and zero above them. -/
theorem packVec_range_spec {e n : Nat} (he : 0 < e) (r : Nat → Nat) (hn : e * n ≤ 1024) :
    (packVec e ((List.range n).map r)).toNat < 2 ^ (n * e) ∧
      ∀ j, j < n → elemOf e (packVec e ((List.range n).map r)).toNat j = r j % 2 ^ e :=
  ⟨by simpa using packVec_toNat_lt e ((List.range n).map r), fun _ hj => elemOf_packVec_range he r hn hj⟩

/-- A four-bit element, sign-extended to eight bits. -/
theorem sext_zext_nibble (x : Nat) : sext (zext (sext x 4) 8 % 2 ^ 8) 8 = sext x 4 := by
  have hnibbles : ∀ r < 16, sext (zext (sext r 4) 8 % 2 ^ 8) 8 = sext r 4 := by decide
  have hmod : sext x 4 = sext (x % 16) 4 := by simp [sext]
  rw [hmod, hnibbles _ (Nat.mod_lt _ (by decide))]

/-! ### Expand (R234) -/

theorem getD_foldl_set (qs : List Nat) (pos val : Nat → Nat) (l : List Nat) {j : Nat} (hj : j < l.length) :
    (qs.foldl (fun l q => l.set (pos q) (val q)) l).getD j 0 =
      qs.foldl (fun r q => if pos q = j then val q else r) (l.getD j 0) := by
  have hset : ∀ (l : List Nat) (q : Nat),
      (l.set (pos q) (val q))[j]? = l[j]?.map (fun r => if pos q = j then val q else r) := by
    intro l q
    by_cases hq : pos q = j
    · subst hq
      by_cases hlen : pos q < l.length <;> simp [hlen]
    · simp [hq]
  simp only [List.getD_eq_getElem?_getD]
  rw [foldl_mapped (proj := fun l : List Nat => l[j]?) (g := fun q r => if pos q = j then val q else r) hset]
  simp [hj]

/-- A fold over groups of `per` places in which only group g counts. -/
theorem foldl_range_group {β : Type} {f : β → Nat → β} {per g : Nat} (hper : 0 < per)
    (hother : ∀ r q, q / per ≠ g → f r q = r) (G : Nat) (r : β) :
    (List.range (per * G)).foldl f r = if g < G then (List.range per).foldl (fun r q => f r (per * g + q)) r else r := by
  induction G with
  | zero => rfl
  | succ G ih =>
    rw [Nat.mul_succ, List.range_add, List.foldl_append, ih, List.foldl_map]
    have hskip (hG : G ≠ g) (r : β) : (List.range per).foldl (fun r q => f r (per * G + q)) r = r := by
      refine foldl_kept (proj := id) (fun r q hq => hother r _ ?_) r
      rw [Nat.mul_add_div hper, Nat.div_eq_of_lt (List.mem_range.1 hq)]
      exact hG
    rcases Nat.lt_trichotomy g G with h | h | h
    · rw [if_pos h, if_pos (by omega), hskip (by omega)]
    · subst h
      rw [if_neg (by omega), if_pos (by omega)]
    · rw [if_neg (by omega), if_neg (by omega), hskip (by omega)]

/-- Kept element q of a register under R234: six bits of an L6 container. -/
def keptVal (t : Fmt) (v : Vec) (q : Nat) : Nat :=
  if t = .l6 then elemOf (Fmt.width t) v.toNat q % 64 else elemOf (Fmt.width t) v.toNat q

theorem keptVal_lt (t : Fmt) (v : Vec) (q : Nat) : keptVal t v q < 2 ^ Fmt.width t := by
  rw [keptVal]
  split
  · exact (Nat.mod_le _ _).trans_lt (elemOf_lt ..)
  · exact elemOf_lt ..

/-- Element j of an expanded register, of `per` kept values a group: the last of its group whose index is its place, else zero. -/
def expandedVal (t : Fmt) (per : Nat) (v : Vec) (j : Nat) : Nat :=
  (List.range per).foldl (fun r q =>
    if (fld v (512 + 2 * (per * (j / 4) + q)) 2).toNat = j % 4 then keptVal t v (per * (j / 4) + q) else r) 0

theorem expandedVal_lt (t : Fmt) (per : Nat) (v : Vec) (j : Nat) : expandedVal t per v j < 2 ^ Fmt.width t := by
  refine List.foldlRecOn (motive := (· < 2 ^ Fmt.width t)) (List.range per) _ (Nat.two_pow_pos _) fun r hr q _ => ?_
  split
  · exact keptVal_lt ..
  · exact hr

/-- A register holds whole groups of four elements. -/
theorem four_dvd_elements (t : Fmt) : 4 ∣ 1024 / Fmt.width t := by cases t <;> decide

theorem elemOf_expandVec (t : Fmt) {per : Nat} (hper : 0 < per) (v : Vec) {j : Nat} (hj : j < 1024 / Fmt.width t) :
    elemOf (Fmt.width t) (expandVec t per v).toNat j = expandedVal t per v j := by
  have hgroups : 1024 / Fmt.width t * per / 4 = per * (1024 / Fmt.width t / 4) := by
    rw [Nat.mul_comm, Nat.mul_div_assoc _ (four_dvd_elements t)]
  have hgroup : j / 4 < 1024 / Fmt.width t / 4 := by
    have := four_dvd_elements t
    omega
  have hplace (q : Nat) : 4 * (q / per) + (fld v (512 + 2 * q) 2).toNat = j ↔
      q / per = j / 4 ∧ (fld v (512 + 2 * q) 2).toNat = j % 4 := by
    have hidx := (fld v (512 + 2 * q) 2).isLt
    omega
  rw [expandVec, elemOf_packVec (Fmt.width_pos t) _ (Fmt.width_mul t hj), ← Nat.mod_eq_of_lt (expandedVal_lt t per v j), hgroups]
  congr 1
  calc _ = (List.range (per * (1024 / Fmt.width t / 4))).foldl (fun r q =>
        if 4 * (q / per) + (fld v (512 + 2 * q) 2).toNat = j then keptVal t v q else r)
          ((List.replicate (1024 / Fmt.width t) 0).getD j 0) := getD_foldl_set _ _ (keptVal t v) _ (by simpa using hj)
    _ = (List.range per).foldl (fun r q => if 4 * ((per * (j / 4) + q) / per) + (fld v (512 + 2 * (per * (j / 4) + q)) 2).toNat = j
          then keptVal t v (per * (j / 4) + q) else r) 0 := by
      rw [foldl_range_group hper (fun r q hq => if_neg fun h => hq ((hplace q).1 h).1), if_pos hgroup]
      simp [hj]
    _ = expandedVal t per v j := by
      refine List.foldl_ext _ _ _ fun r q hq => ?_
      have hdiv : (per * (j / 4) + q) / per = j / 4 := by
        rw [Nat.mul_add_div hper, Nat.div_eq_of_lt (List.mem_range.1 hq), Nat.add_zero]
      refine (if_congr (hplace (per * (j / 4) + q)) rfl rfl).trans ?_
      simp only [hdiv, true_and]

/-! ### Transpose (R237) -/

theorem bankRow_bankSet (b : List Vec) {i : Nat} (hi : i < 32) (v : Vec) {k : Nat} (hk : k < 32) :
    bankRow (bankSet b i v) k = if k = i then v else bankRow b k := by
  by_cases h : k = i
  · subst h
    simp [bankRow, bankSet, hk]
  · simp [bankRow, bankSet, hk, h, Ne.symm h]

section Issue

variable (x : Xtr) (restart : Bool) (v : Vec)

/-- The row that an issue writes. -/
def Xtr.row : BitVec 5 := if restart then 0 else x.trc

/-- The unit after an issue: the bank that fills takes the row, and after the last row the banks change places. -/
theorem Xtr.issue_unit : (x.issue restart v).2 =
    { bank0 := if x.b then x.bank0 else bankSet x.bank0 (x.row restart).toNat v
      bank1 := if x.b then bankSet x.bank1 (x.row restart).toNat v else x.bank1
      trc := x.row restart + 1
      b := x.b != decide (x.row restart = 31) } := by
  by_cases hlast : x.row restart = 31 <;> cases hb : x.b <;> simp_all [Xtr.issue, Xtr.row]

theorem Xtr.issue_bank {i : Nat} (hi : i < 32) :
    bankRow (if x.b then (x.issue restart v).2.bank1 else (x.issue restart v).2.bank0) i =
      if i = (x.row restart).toNat then v else bankRow (if x.b then x.bank1 else x.bank0) i := by
  rw [x.issue_unit restart v]
  cases x.b <;> exact bankRow_bankSet _ (x.row restart).isLt v hi

theorem Xtr.issue_other :
    if x.b then (x.issue restart v).2.bank0 = x.bank0 else (x.issue restart v).2.bank1 = x.bank1 := by
  rw [x.issue_unit restart v]
  cases x.b <;> rfl

/-- The column that comes out is the other bank's. -/
theorem Xtr.elemOf_issue {i : Nat} (hi : i < 32) : elemOf 32 (x.issue restart v).1.toNat i =
    elemOf 32 (bankRow (if !x.b then x.bank1 else x.bank0) i).toNat (x.row restart).toNat := by
  have hbank : (if x.b then x.bank0 else x.bank1) = if !x.b then x.bank1 else x.bank0 := by cases x.b <;> rfl
  rw [← hbank, ← Nat.mod_eq_of_lt (elemOf_lt 32 (bankRow (if x.b then x.bank0 else x.bank1) i).toNat (x.row restart).toNat)]
  exact elemOf_packVec_range (by decide) _ (by decide) hi

end Issue

/-! ### Shapes -/

section Shapes

variable {s : State} {i : Instr}

/-- A transform leaves its vector on the way to the register, and the transpose unit as `x`. -/
theorem transform_gives {k : Core → Except Fail Core} {vd : VReg} {lat : Nat} {fl : Flags} {x : Xtr} {v : Vec} {p : Vec → Prop}
    (hexec : exec i s = slotOp i s k)
    (hk : k s.cur = .ok (({ s.cur with t := { s.cur.t with xtr := x } } : Core).pushX vd lat v fl)) (hp : p v) (hclean : Clean s i) :
    ∃ v, p v ∧ exec i s = .next (s.setCur { s.cur with t := { s.cur.t with
      xtr := x
      pend := s.cur.t.pend ++
        [{ rem := lat, lat := lat, slot := .x, xform := true, w := .v (s.cur.pv vd) (BitVec.allOnes 1024) v, flags := fl }] } }) :=
  ⟨v, hp, hexec.trans (slotOp_clean hclean hk)⟩

/-- A vector whose elements come with their flags. -/
theorem pushX_pairs (c : Core) (vd : VReg) (lat e n : Nat) (r : Nat → Nat × Flags) :
    c.pushX vd lat (packVec e (((List.range n).map r).map (·.1))) (((List.range n).map r).foldl (fun g x => g ||| x.2) 0) =
      c.pushX vd lat (packVec e ((List.range n).map fun j => (r j).1)) (((List.range n).map fun j => (r j).2).foldl (· ||| ·) 0) := by
  rw [List.map_map, List.foldl_map, List.foldl_map]
  rfl

theorem first128_map {α : Type} (e : Nat) (v : Vec) (g : Nat → α) :
    (first128 e v).map g = (List.range 128).map fun j => g (elemOf e v.toNat j) := List.map_map

/-- The scale adder takes an exponent (R201). -/
theorem scale_fallsThrough {k : Core → Except Fail Core} {e : Int} (hexec : exec i s = slotOp i s k)
    (hk : k s.cur = .ok (s.cur.pushScale e)) (hclean : Clean s i) : FallsThrough s i (s.cur.pushScale e) :=
  fallsThrough_of_setCur (hexec.trans (slotOp_clean hclean hk))

end Shapes

theorem clamp_eq_ite (a : Int) : max (-1024) (min 1023 a) = if a < -1024 then -1024 else if 1023 < a then 1023 else a := by
  split_ifs <;> omega

end Sys2Proof.Machine

namespace Sys2Proof

open Sys2Proof.Machine

/-- Settles O24: each form's vector by its places, and the scale adder's and IDLE's change of the core. -/
theorem transformOperations : Obligations.TransformOperations := by
  unfold Obligations.TransformOperations
  refine ⟨fun s f g h t => ?_, fun s xs imm sl => ?_⟩
  · intro c rm gives same e vf part kept expands src nib raised ws wd n elem u trc bank
    refine ⟨fun _ => ⟨?_, ?_⟩, ?_, ?_, ?_, ?_, fun _ _ => ?_, (u.issue t.r (c.rv t.vs)).2,
      congrArg Xtr.trc (u.issue_unit t.r _), congrArg Xtr.b (u.issue_unit t.r _),
      fun i hi => u.issue_bank t.r _ hi, u.issue_other t.r _, ?_⟩
    · exact transform_gives (exec_xexpS24 f s) rfl fun j hj => elemOf_expandVec f.dt (by decide) vf hj
    · exact transform_gives (exec_xexpS14 f s) rfl fun j hj => elemOf_expandVec f.dt (by decide) vf hj
    · refine transform_gives (exec_xunpkL6 g s) rfl fun j hj => ?_
      have hlt : elemOf 6 src j < 2 ^ 8 := (elemOf_lt 6 src j).trans (by decide)
      exact (elemOf_packVec_range (by decide) (elemOf 6 src) (by decide) hj).trans (Nat.mod_eq_of_lt hlt)
    · refine transform_gives (exec_xunpkI4 g s) rfl fun j hj => ?_
      rw [first128_map, elemOf_packVec_range (by decide) _ (by decide) hj]
      exact sext_zext_nibble _
    · refine transform_gives (exec_xpackL6 g s) rfl ?_
      obtain ⟨hlt, helems⟩ := packVec_range_spec (e := 6) (n := 128) (by decide) (fun j => elemOf 8 src j % 64) (by decide)
      rw [first128_map]
      exact ⟨(show 128 * 6 = 768 from rfl) ▸ hlt, fun j hj => (helems j hj).trans (Nat.mod_mod _ 64)⟩
    · obtain ⟨hlt, helems⟩ := packVec_range_spec (e := 4) (n := 128) (by decide) (fun j => (nib j).1) (by decide)
      refine transform_gives (exec_xpackI4 g s) ?_ ⟨(show 128 * 4 = 512 from rfl) ▸ hlt, helems⟩
      rw [first128_map]
      exact congrArg Except.ok (pushX_pairs c g.vd 4 4 128 nib)
    · have hwidth : wd * n ≤ 1024 := (Nat.mul_le_mul_right n (Nat.le_max_right ws wd)).trans (Nat.mul_div_le 1024 _)
      exact transform_gives (exec_xcvt h s) (congrArg Except.ok (pushX_pairs c h.vd 4 wd n elem))
        (packVec_range_spec (Fmt.width_pos h.dt) _ hwidth)
    · exact transform_gives (exec_xtr t s) rfl fun i hi => u.elemOf_issue t.r (c.rv t.vs) hi
  · intro c a scales st rest
    refine ⟨?_, ?_, ?_⟩
    · rw [← clamp_eq_ite]
      exact scale_fallsThrough (exec_xscale xs s) rfl
    · exact scale_fallsThrough (exec_xscalei imm s) rfl
    · cases sl <;> exact fallsThrough_of_setCur (exec_idle _ s)

end Sys2Proof
end

section
/-! SUPPORT. The matrix products (R104, R195 to R204): a row and a column by groups of four, the 1,024 elements of a product by their row
and column, and what a form enters the engine with. -/

namespace Sys2Proof.Machine

/-! ### Elements of operand memory (R186, R203) -/

theorem elemOf_slotLine (s : State) (os : OSlot) (w i : Nat) : elemOf w (s.slotLine s.iss.core os i) = s.slotEl os w i := by
  funext q
  rw [State.slotLine, osKey_add]
  rfl

theorem metaIdx_eq_sideIdx (s : State) (os : OSlot) (i : Nat) : s.metaIdx s.iss.core os i = s.sideIdx os i := rfl

/-- A dense row of a sparse A is its kept elements by their places (R203). -/
theorem sparseRow_eq_map (s : State) (os : OSlot) (per w ext i : Nat) :
    s.sparseRow s.iss.core os per w ext i = (List.range ext).map (s.keptEl os per w ext i) := by
  refine List.map_congr_left fun k _ => ?_
  rw [State.keptEl, elemOf_slotLine, metaIdx_eq_sideIdx]
  by_cases hwhole : ext / 4 ≤ k / 4
  · rw [if_pos hwhole, if_pos (by omega)]
  · rw [if_neg hwhole, if_neg (by omega), ← List.getLast?_map, ← List.filterMap_eq_map, List.filterMap_filter]
    simp only [decide_eq_true_eq]
    rfl

/-! ### Groups of four (R104) -/

theorem groups4_eq_chunks {α : Type} (l : List α) :
    groups4 l = (List.range ((l.length + 3) / 4)).map fun g => (l.drop (4 * g)).take 4 := by
  induction l using groups4.induct with
  | case1 a b c d rest ih =>
    rw [groups4, ih, show ((a :: b :: c :: d :: rest).length + 3) / 4 = (rest.length + 3) / 4 + 1 by
      simp only [List.length_cons]; omega, List.range_succ_eq_map, List.map_cons, List.map_map]
    rfl
  | case2 => simp [groups4]
  | case3 l hshort hne =>
    match l, hne with
    | [_], _ | [_, _], _ | [_, _, _], _ => simp [groups4]
    | a :: b :: c :: d :: rest, _ => exact absurd rfl (hshort a b c d rest)

theorem filter_lt_range'_of_le {n a k : Nat} (h : a + k ≤ n) : (List.range' a k).filter (· < n) = List.range' a k :=
  List.filter_eq_self.2 (by simp only [List.mem_range'_1, decide_eq_true_eq]; omega)

/-- Four places from `a` on, of those below `n`. -/
theorem range_chunk (n a : Nat) : ((List.range n).drop a).take 4 = ((List.range 4).map (a + ·)).filter (· < n) := by
  rw [List.range_eq_range', List.drop_range', Nat.zero_add, Nat.mul_one, ← List.range'_eq_map_range]
  by_cases hwhole : 4 ≤ n - a
  · rw [List.take_range'_of_length_ge hwhole, filter_lt_range'_of_le (by omega)]
  · have hsplit : List.range' a 4 = List.range' a (n - a) ++ List.range' (a + (n - a)) (4 - (n - a)) := by
      rw [List.range'_append_1, show n - a + (4 - (n - a)) = 4 by omega]
    have hbelow : (List.range' a (n - a)).filter (· < n) = List.range' a (n - a) := by
      obtain hlt | hle := Nat.lt_or_ge a n
      · exact filter_lt_range'_of_le (by omega)
      · rw [Nat.sub_eq_zero_of_le hle]; rfl
    have habove : (List.range' (a + (n - a)) (4 - (n - a))).filter (· < n) = [] :=
      List.filter_eq_nil_iff.2 (by simp only [List.mem_range'_1, decide_eq_true_eq]; omega)
    rw [List.take_range'_of_length_le (by omega), hsplit, List.filter_append, hbelow, habove, List.append_nil]

/-- The groups of a row and a column that are given place by place. -/
theorem pairGroups_map_range (ext : Nat) (a : Nat → Option Nat) (b : Nat → Nat) :
    pairGroups ((List.range ext).map a) ((List.range ext).map b) = (List.range ((ext + 3) / 4)).map (groupAt ext a b) := by
  rw [pairGroups, zip_map_range, groups4_eq_chunks, List.length_map, List.length_range, List.map_map]
  refine List.map_congr_left fun g _ => ?_
  rw [Function.comp, ← List.map_drop, ← List.map_take, range_chunk, List.filterMap_map]
  rfl

theorem pairGroups_none (col : List Nat) :
    pairGroups (col.map fun _ => none) col = List.replicate ((col.length + 3) / 4) [] := by
  rw [pairGroups, ← List.map_prod_right_eq_zip, groups4_eq_chunks, List.length_map, List.map_map]
  refine List.eq_replicate_iff.2 ⟨by rw [List.length_map, List.length_range], fun group hgroup => ?_⟩
  obtain ⟨g, -, rfl⟩ := List.mem_map.1 hgroup
  rw [Function.comp, ← List.map_drop, ← List.map_take, List.filterMap_map]
  exact List.filterMap_eq_nil_iff.2 fun _ _ => rfl

/-! ### The 1,024 elements of a product -/

theorem map_zipIdx_range {α β : Type} (n : Nat) (g : Nat → α) (k : α × Nat → β) :
    (((List.range n).map g).zipIdx).map k = (List.range n).map fun i => k (g i, i) :=
  List.ext_getElem (by simp) (by simp)

theorem flatten_rows {α : Type} (m : Nat) (h : Nat → Nat → α) :
    ((List.range m).map fun i => (List.range 32).map (h i)).flatten = (List.range (32 * m)).map fun n => h (n / 32) (n % 32) := by
  induction m with
  | zero => rfl
  | succ m ih =>
    rw [List.range_succ (n := m), List.map_append, List.flatten_append, ih, Nat.mul_succ, List.range_add, List.map_append,
      List.map_map]
    congr 1
    simp only [List.map_cons, List.map_nil, List.flatten_cons, List.flatten_nil, List.append_nil]
    refine List.map_congr_left fun j hj => ?_
    have hlt := List.mem_range.1 hj
    rw [Function.comp, show (32 * m + j) / 32 = m by omega, show (32 * m + j) % 32 = j by omega]

section Elements

variable (row : Nat → Option (List (Option Nat))) (col : Nat → List Nat)

/-- The groups of element (i, j): those of row i, or with no product where the row is skipped (R203). -/
def groupsOf (i j : Nat) : List (List (Nat × Nat)) := pairGroups ((row i).getD ((col j).map fun _ => none)) (col j)

theorem mmaAll_eq_map (t : Fmt) (acc : Acc) (rm : Rm) (old : List DWord) :
    mmaAll t acc rm ((List.range 32).map row) ((List.range 32).map col) old =
      (List.range 1024).map fun n => mmaElem t acc rm (groupsOf row col (n / 32) (n % 32)) (old.getD n 0) := by
  have htable := flatten_rows 32 fun i j => mmaElem t acc rm (groupsOf row col i j) (old.getD (32 * i + j) 0)
  simp only [Nat.div_add_mod] at htable
  rw [← htable, mmaAll]
  simp only [map_zipIdx_range]
  rfl

theorem mmaParts_eq_map : mmaParts ((List.range 32).map row) ((List.range 32).map col) =
    (List.range 1024).map fun n => groupX .l6 (groupsOf row col (n / 32) (n % 32)).flatten := by
  rw [← flatten_rows 32 fun i j => groupX .l6 (groupsOf row col i j).flatten, mmaParts]
  simp only [List.map_map]
  congr 1
  refine List.map_congr_left fun i _ => List.map_congr_left fun j _ => ?_
  unfold groupsOf
  simp only [Function.comp]
  cases row i with
  | some r => rfl
  | none => rw [Option.getD_none, pairGroups_none, List.flatten_replicate_nil]; rfl

end Elements

/-! ### What a matrix form enters the engine with (R103, R104, R199, R200) -/

/-- The element of md that a product sums onto, or 0. -/
def Core.sumsOnto (c : Core) (f : MaF) (n : Nat) : DWord :=
  if f.za = true ∨ (c.tile f.md).kind = .empty then 0 else (c.tile f.md).elems.getD n 0

/-- The accumulators that the engine starts from. -/
def Core.startElems (c : Core) (f : MaF) : List DWord :=
  if f.za || (c.tile f.md).kind == .empty then zeroElems else (c.tile f.md).elems

theorem getD_startElems (c : Core) (f : MaF) {n : Nat} (hn : n < 1024) : (c.startElems f).getD n 0 = c.sumsOnto f n := by
  unfold Core.startElems Core.sumsOnto
  simp only [Bool.or_eq_true, beq_iff_eq]
  split
  · rw [zeroElems, List.getD_replicate _ hn]
  · rfl

theorem mmaAll_startElems (c : Core) (f : MaF) (t : Fmt) (row : Nat → Option (List (Option Nat))) (col : Nat → List Nat) :
    mmaAll t c.c.acc c.c.rm ((List.range 32).map row) ((List.range 32).map col) (c.startElems f) =
      (List.range 1024).map fun n => mmaElem t c.c.acc c.c.rm (groupsOf row col (n / 32) (n % 32)) (c.sumsOnto f n) := by
  rw [mmaAll_eq_map]
  exact List.map_congr_left fun n hn => by rw [getD_startElems c f (List.mem_range.1 hn)]

theorem blockFlags_getD (n : Nat → Flags) {b : Nat} (hb : b < 8) :
    (blockFlags ((List.range 1024).map n)).getD b 0 = ((List.range 128).map fun k => n (128 * b + k)).foldl (· ||| ·) 0 := by
  rw [blockFlags, getD_map_range _ _ _ hb, ← List.map_drop, ← List.map_take, List.range_eq_range', List.drop_range',
    List.take_range'_of_length_ge (by omega), List.range'_eq_map_range, List.map_map, Nat.zero_add, Nat.mul_one]
  rfl

/-- A form of type `t` whose element (i, j) sums `groups i j` is in the engine: the results of all 1,024 elements, or under W56 the exact
partials of MMA.L6, which the port scales (R106). -/
def EntersMma (s : State) (i : Instr) (f : MaF) (t : Fmt) (d : Nat) (groups : Nat → Nat → List (List (Nat × Nat))) : Prop :=
  let c := s.cur
  let elem (n : Nat) : DWord × Flags := mmaElem t c.c.acc c.c.rm (groups (n / 32) (n % 32)) (c.sumsOnto f n)
  ∃ res flags, Starts s i d f.md [] [f.osa, f.osb] ((if f.lra then [f.osa] else []) ++ if f.lrb then [f.osb] else []) 32 res flags
      false ∧
    (t = .l6 ∧ c.c.acc = .w56 → ∃ parts acc, res = .scaled parts acc ∧ flags = [] ∧ ∀ n, n < 1024 →
      parts.getD n (0, false) = groupX .l6 (groups (n / 32) (n % 32)).flatten ∧ acc.getD n 0 = c.sumsOnto f n) ∧
    (¬(t = .l6 ∧ c.c.acc = .w56) → ∃ els, res = .blocks .dense els ∧ els.length = 1024 ∧
      (∀ n, n < 1024 → els.getD n 0 = (elem n).1) ∧ flags.length = 8 ∧
      ∀ b, b < 8 → flags.getD b 0 = ((List.range 128).map (fun k => (elem (128 * b + k)).2)).foldl (· ||| ·) 0)

/-- The columns of B below the extent. -/
def State.mmaCol (s : State) (f : MaF) (t : Fmt) (ext j : Nat) : List Nat := (List.range ext).map (s.slotEl f.osb (Fmt.width t) j)

/-- The engine operation that a form's start pushes, with its results. -/
theorem startMma_eq (s : State) (f : MaF) (m : MmaForm) (rows : List (Option (List (Option Nat)))) (ext : Nat) :
    s.startMma s.cur f m rows ext = s.setCur (s.cur.pushEng (
      let enters := mkEng s.cur m.d f.md [] [f.osa, f.osb] ((if f.lra then [f.osa] else []) ++ if f.lrb then [f.osb] else [])
        (s.cur.reserve f.md false 32)
      let cols := (List.range 32).map (s.mmaCol f m.t ext)
      let all := mmaAll m.t s.cur.c.acc s.cur.c.rm rows cols (s.cur.startElems f)
      if m.t = .l6 ∧ s.cur.c.acc = .w56 then enters (.scaled (mmaParts rows cols) (s.cur.startElems f)) [] false
      else enters (.blocks .dense (all.map (·.1))) (blockFlags (all.map (·.2))) false)) := by
  unfold State.startMma
  simp only [elemOf_slotLine]
  by_cases hport : m.t = .l6 ∧ s.cur.c.acc = .w56
  · rw [if_pos hport, if_pos hport]
    rfl
  · rw [if_neg hport, if_neg hport]
    rfl

theorem starts_of_exec {s : State} {i : Instr} {d n : Nat} {md : MReg} {tiles : List MReg} {slots last : List OSlot} {res : EngRes}
    {flags : List Flags} {atRetire : Bool}
    (he : exec i s = .next (s.literalUsed (s.setCur (s.cur.pushEng
      (mkEng s.cur d md tiles slots last (s.cur.reserve md (tiles.contains md) n) res flags atRetire))))) :
    Starts s i d md tiles slots last n res flags atRetire :=
  matGives_of_exec he rfl

theorem entersMma_of_exec {s : State} {i : Instr} {f : MaF} {t : Fmt} {full d ext : Nat} {row : Nat → Option (List (Option Nat))}
    (he : exec i s = .next (s.literalUsed (s.startMma s.cur f ⟨t, full, d⟩ ((List.range 32).map row) ext))) :
    EntersMma s i f t d (groupsOf row (s.mmaCol f t ext)) := by
  rw [startMma_eq] at he
  by_cases hport : t = .l6 ∧ s.cur.c.acc = .w56
  · simp only [if_pos hport, mmaParts_eq_map] at he
    exact ⟨_, _, starts_of_exec he,
      fun _ => ⟨_, _, rfl, rfl, fun n hn => ⟨getD_map_range _ _ _ hn, getD_startElems s.cur f hn⟩⟩, fun h => absurd hport h⟩
  · simp only [if_neg hport, mmaAll_startElems, List.map_map] at he
    exact ⟨_, _, starts_of_exec he, fun h => absurd h hport, fun _ => ⟨_, rfl, by rw [List.length_map, List.length_range],
      fun n hn => getD_map_range _ _ _ hn, by rw [blockFlags, List.length_map, List.length_range],
      fun b hb => blockFlags_getD _ hb⟩⟩

end Sys2Proof.Machine
end

section
/-! SUPPORT. The checks of the matrix products, in order (R103, R196, R198), and the dense forms. -/

namespace Sys2Proof.Machine

/-! ### Checks -/

theorem ite_bind_eq {α β : Type} (p : Prop) [Decidable p] (a b : Except Fail α) (k : α → Except Fail β) :
    (if p then a else b) >>= k = if p then a >>= k else b >>= k := apply_ite (· >>= k) p a b

/-- The check of a literal word whose bits from `lo` up are zero and whose K-trim is within the extent (R196, R202). -/
def State.wrongTrim (s : State) (lo full kt : Nat) : BitVec 8 × DWord × Bool :=
  (0x07, s.literal.setWidth 64, decide (s.literal.toNat / 2 ^ lo ≠ 0 ∨ full < kt))

/-- The checks of R198 that follow the literal's. -/
def Core.mmaFaults (c : Core) (f : MaF) (modes : List Acc) : List (BitVec 8 × DWord × Bool) :=
  [c.wrongAcc modes, c.unclaimed f.osa, c.unclaimed f.osb, if f.za then (0, 0, false) else c.wrongKind f.md [.dense, .empty],
    c.noPanels f.md false 32]

theorem fld_top_eq_zero_iff (lit : Word) {lo n : Nat} (htop : lo + n = 32) : fld lit lo n = 0 ↔ lit.toNat / 2 ^ lo = 0 := by
  have hlt : lit.toNat / 2 ^ lo < 2 ^ n := Nat.div_lt_of_lt_mul (by rw [← Nat.pow_add, htop]; exact lit.isLt)
  rw [← BitVec.toNat_inj, BitVec.extractLsb'_toNat, Nat.shiftRight_eq_div_pow, Nat.mod_eq_of_lt hlt]
  rfl

theorem trim_eq_passes (s : State) {lo n : Nat} (full kt : Nat) (htop : lo + n = 32) :
    (if fld s.literal lo n ≠ 0 ∨ full < kt then .error ⟨0x07, s.literal.setWidth 64⟩ else .ok () : Except Fail Unit) =
      passes [s.wrongTrim lo full kt] := by
  have hbits : (fld s.literal lo n ≠ 0 ∨ full < kt) ↔ (s.literal.toNat / 2 ^ lo ≠ 0 ∨ full < kt) :=
    or_congr_left (not_congr (fld_top_eq_zero_iff s.literal htop))
  rw [if_congr hbits rfl rfl, State.wrongTrim]
  by_cases h : s.literal.toNat / 2 ^ lo ≠ 0 ∨ full < kt
  · rw [if_pos h, decide_eq_true h]; rfl
  · rw [if_neg h, decide_eq_false h]; rfl

theorem accMode_eq_passes {c : Core} {t : Fmt} {modes : List Acc} (hmodes : mmaAcc t c.c.acc = modes.contains c.c.acc) :
    (if mmaAcc t c.c.acc then .ok () else .error ⟨0x42, (accCode c.c.acc).setWidth 64⟩ : Except Fail Unit) =
      passes [c.wrongAcc modes] := by
  have hcode : (accCode c.c.acc).setWidth 64 = BitVec.ofNat 64 (accNo c.c.acc) := by cases c.c.acc <;> rfl
  rw [hmodes, hcode, Core.wrongAcc]
  cases modes.contains c.c.acc <;> rfl

theorem mmaKind_eq_passes (c : Core) (f : MaF) :
    (if f.za = true ∨ (c.tile f.md).kind = .dense ∨ (c.tile f.md).kind = .empty then .ok () else .error (kindFail c f.md) :
      Except Fail Unit) = passes [if f.za then (0, 0, false) else c.wrongKind f.md [.dense, .empty]] := by
  cases hza : f.za with
  | true => rfl
  | false => cases hkind : (c.tile f.md).kind <;> simp [passes, Core.wrongKind, kindFail, hkind, kindNo, kindCode]

theorem mmaChecks_eq_passes {c : Core} {f : MaF} {m : MmaForm} {modes : List Acc}
    (hmodes : mmaAcc m.t c.c.acc = modes.contains c.c.acc) : mmaChecks c f m = passes (c.mmaFaults f modes) := by
  have hcons (check : BitVec 8 × DWord × Bool) (rest : List (BitVec 8 × DWord × Bool)) :
      passes (check :: rest) = passes [check] >>= fun _ => passes rest := passes_append [check] rest
  rw [Core.mmaFaults, hcons, hcons (c.unclaimed f.osa), hcons (c.unclaimed f.osb), hcons (ite ..), ← accMode_eq_passes hmodes,
    ← needClaimed_eq_passes, ← needClaimed_eq_passes, ← mmaKind_eq_passes, ← needPanels_eq_passes]
  simp only [ite_bind_eq]
  rfl

/-! ### The dense forms (R196 to R198) -/

/-- The extent below which a product sums: the form's, or the literal's K-trim. -/
def trimmed (full kt : Nat) : Nat := if kt = 0 then full else kt

theorem denseMma_acts {s : State} {i : Instr} {f : MaF} {t : Fmt} {full d : Nat} {modes : List Acc}
    (he : exec i s = denseMma i f t s) (hform : mmaForm t = ⟨t, full, d⟩) (hmodes : ∀ a, mmaAcc t a = modes.contains a)
    {ext : Nat} (hext : trimmed full (fld s.literal 0 10).toNat = ext) :
    MatActs s i (s.wrongTrim 10 full (fld s.literal 0 10).toNat :: s.cur.mmaFaults f modes) (allLines f.osa ++ allLines f.osb)
      (EntersMma s i f t d fun i j => (List.range ((ext + 3) / 4)).map
        (groupAt ext (fun k => some (s.slotEl f.osa (Fmt.width t) i k)) (s.slotEl f.osb (Fmt.width t) j))) := by
  have hgroups : groupsOf (fun i => some ((List.range ext).map fun k => some (s.slotEl f.osa (Fmt.width t) i k)))
      (s.mmaCol f t ext) = fun i j => (List.range ((ext + 3) / 4)).map
        (groupAt ext (fun k => some (s.slotEl f.osa (Fmt.width t) i k)) (s.slotEl f.osb (Fmt.width t) j)) :=
    funext fun i => funext fun j => pairGroups_map_range ext _ _
  rw [← hgroups]
  refine matActs_of he rfl ?_ (entersMma_of_exec (full := full))
  rw [passes_cons_bind, ← trim_eq_passes (n := 22) s full _ rfl, ← mmaChecks_eq_passes (m := ⟨t, full, d⟩) (hmodes _), ← hext]
  simp only [hform, elemOf_slotLine, ite_bind_eq]
  rfl

end Sys2Proof.Machine

namespace Sys2Proof

open Sys2Proof.Machine

/-- Settles O28: each dense form is the checks of R198 in order, and then its start in the engine. -/
theorem denseProducts : Obligations.DenseProducts := by
  unfold Obligations.DenseProducts
  intro s f c rm lit form
  refine ⟨denseMma_acts (exec_mmaF64 f s) rfl ?_ rfl, denseMma_acts (exec_mmaF32 f s) rfl ?_ rfl,
    denseMma_acts (exec_mmaBf16 f s) rfl ?_ rfl, denseMma_acts (exec_mmaF16 f s) rfl ?_ rfl,
    denseMma_acts (exec_mmaI8 f s) rfl ?_ rfl, denseMma_acts (exec_mmaI4 f s) rfl ?_ rfl,
    denseMma_acts (exec_mmaL6 f s) rfl ?_ rfl⟩ <;>
    exact fun acc => by cases acc <;> rfl

end Sys2Proof
end

section
/-! SUPPORT. The structured-sparse products (R202, R203): the checks of the kept lines, and the rows of A with a skipped row block. -/

namespace Sys2Proof.Machine

/-! ### Checks of lines -/

section Lines

variable (rows : List Nat) (cause : BitVec 8) (tval : Nat → DWord) (fails : Nat → Bool)

/-- One check of each of some lines. -/
def lineChecks : List (BitVec 8 × DWord × Bool) := rows.map fun l => (cause, tval l, fails l)

theorem find?_lineChecks : (lineChecks rows cause tval fails).find? (fun k => k.2.2) =
    (rows.find? fails).map fun l => (cause, tval l, fails l) := List.find?_map

variable {rows fails} in
theorem passes_lineChecks_some {l : Nat} (h : rows.find? fails = some l) :
    passes (lineChecks rows cause tval fails) = .error ⟨cause, tval l⟩ := by
  rw [passes_eq_find, find?_lineChecks, h]
  rfl

variable {rows fails} in
theorem passes_lineChecks_none (h : rows.find? fails = none) : passes (lineChecks rows cause tval fails) = .ok () := by
  rw [passes_eq_find, find?_lineChecks, h]
  rfl

end Lines

/-- TVAL of a line's check: the slot and the line. -/
def lineTval (os : OSlot) (l : Nat) : DWord := BitVec.ofNat 64 (os.toNat * 256 + l)

/-- Under S24, a pair of a line whose indices do not rise (R203). -/
def State.pairFalls (s : State) (os : OSlot) (per ext l : Nat) : Bool :=
  decide (per = 2) && (List.range (ext / 4)).any fun g => decide (s.sideIdx os l (2 * g + 1) ≤ s.sideIdx os l (2 * g))

/-- The checks of R203 on the kept lines: each verified, then each with its pairs rising. -/
def State.metaFaults (s : State) (os : OSlot) (per ext : Nat) (rows : List Nat) : List (BitVec 8 × DWord × Bool) :=
  lineChecks rows 0x45 (lineTval os) (fun l => !(s.cur.slot os).verified.getLsbD l) ++
    lineChecks rows 0x46 (lineTval os) (s.pairFalls os per ext)

theorem checkMeta_eq_passes (s : State) (os : OSlot) (per ext : Nat) (rows : List Nat) :
    s.checkMeta s.cur os per ext rows = passes (s.metaFaults os per ext rows) := by
  have hpairs : (if per = 2 then rows.find? (s.pairFalls os 2 ext) else none) = rows.find? (s.pairFalls os per ext) := by
    by_cases hper : per = 2
    · rw [if_pos hper, hper]
    · rw [if_neg hper, eq_comm, List.find?_eq_none]
      simp [State.pairFalls, hper]
  rw [State.metaFaults, passes_append]
  unfold State.checkMeta
  cases hverified : rows.find? fun l => !(s.cur.slot os).verified.getLsbD l with
  | some l => rw [passes_lineChecks_some _ _ hverified]; rfl
  | none =>
    rw [passes_lineChecks_none _ _ hverified]
    have hbad : (fun l => (List.range (ext / 4)).any fun g =>
        decide (s.metaIdx s.iss.core os l (2 * g + 1) ≤ s.metaIdx s.iss.core os l (2 * g))) = s.pairFalls os 2 ext := rfl
    simp only [hbad, hpairs]
    cases hrise : rows.find? (s.pairFalls os per ext) with
    | some l => rw [passes_lineChecks_some _ _ hrise]; rfl
    | none => rw [passes_lineChecks_none _ _ hrise]; rfl

/-! ### The sparse forms -/

/-- The row of A that a sparse form reads: none where the literal skips its block of four. -/
def State.sparseA (s : State) (f : MaF) (per w ext i : Nat) : Option (List (Option Nat)) :=
  if s.literal.getLsbD (4 + i / 4) then none else some ((List.range ext).map (s.keptEl f.osa per w ext i))

/-- The groups of element (i, j) of a sparse form: those of what is kept, and of a skipped row none with a product (R203). -/
def State.sparseGroups (s : State) (f : MaF) (per w ext i j : Nat) : List (List (Nat × Nat)) :=
  if s.literal.getLsbD (4 + i / 4) then List.replicate ((ext + 3) / 4) []
  else (List.range ((ext + 3) / 4)).map (groupAt ext (s.keptEl f.osa per w ext i) (s.slotEl f.osb w j))

theorem groupsOf_sparseA (s : State) (f : MaF) (t : Fmt) (per ext : Nat) :
    groupsOf (s.sparseA f per (Fmt.width t) ext) (s.mmaCol f t ext) = s.sparseGroups f per (Fmt.width t) ext := by
  funext i j
  unfold groupsOf State.sparseA State.sparseGroups State.mmaCol
  split
  · rw [Option.getD_none, pairGroups_none, List.length_map, List.length_range]
  · rw [Option.getD_some, pairGroups_map_range]

theorem sparseMma_acts {s : State} {i : Instr} {f : MaF} {t : Fmt} {per full d : Nat} {modes : List Acc}
    (he : exec i s = sparseMma i f per s) (htype : sparseType (fld s.literal 0 4) = some t) (hform : mmaForm t = ⟨t, full, d⟩)
    (hmodes : ∀ a, mmaAcc t a = modes.contains a) {ext : Nat} (hext : trimmed full (fld s.literal 12 10).toNat = ext) :
    MatActs s i (s.wrongTrim 22 full (fld s.literal 12 10).toNat :: s.cur.mmaFaults f modes ++
        s.metaFaults f.osa per ext (keptRows s.literal))
      ((keptRows s.literal).map (fun l => (f.osa, l)) ++ allLines f.osb)
      (EntersMma s i f t d (s.sparseGroups f per (Fmt.width t) ext)) := by
  rw [← groupsOf_sparseA]
  refine matActs_of he rfl ?_ (entersMma_of_exec (full := full))
  rw [List.cons_append, passes_cons_bind, passes_append, ← trim_eq_passes (n := 10) s full _ rfl,
    ← mmaChecks_eq_passes (m := ⟨t, full, d⟩) (hmodes _), ← checkMeta_eq_passes, ← hext]
  simp only [htype, hform, sparseRow_eq_map, ite_bind_eq, bind_assoc]
  rfl

theorem sparseType_eq_none {et : BitVec 4} (h : et.toNat ∉ [0, 1, 2, 3, 7, 9]) : sparseType et = none := by
  revert et
  decide

/-- A literal that names no element type (R202). -/
theorem sparseMma_untyped {s : State} {i : Instr} {f : MaF} {per : Nat} (he : exec i s = sparseMma i f per s)
    (htype : sparseType (fld s.literal 0 4) = none) (hready : MatReady s i) : Traps s i 0x07 (s.literal.setWidth 64) := by
  refine matActs_of (t := s) (effect := True) (checks := [(0x07, s.literal.setWidth 64, true)]) he rfl ?_ (fun _ => trivial) hready
  simp only [htype]
  rfl

end Sys2Proof.Machine

namespace Sys2Proof

open Sys2Proof.Machine

/-- Settles O29: each sparse form is its checks in order, those of the kept lines last, and then its start in the engine. -/
theorem sparseProducts : Obligations.SparseProducts := by
  unfold Obligations.SparseProducts
  intro s f t full d modes hmem c rm lit et kept w kt ext tv form untyped
  have hcode : (fld lit 0 4).toNat = lit.toNat % 16 := by simp
  refine ⟨fun het => ?_, ?_, ?_⟩
  · have hforms : sparseType (fld lit 0 4) = some t ∧ mmaForm t = ⟨t, full, d⟩ ∧ ∀ a, mmaAcc t a = modes.contains a := by
      simp only [List.mem_cons, List.not_mem_nil, or_false, Prod.mk.injEq] at hmem
      rcases hmem with ⟨rfl, rfl, rfl, rfl⟩ | ⟨rfl, rfl, rfl, rfl⟩ | ⟨rfl, rfl, rfl, rfl⟩ | ⟨rfl, rfl, rfl, rfl⟩ |
        ⟨rfl, rfl, rfl, rfl⟩ | ⟨rfl, rfl, rfl, rfl⟩ <;>
        exact ⟨by rw [sparseType, hcode, het]; rfl, rfl, fun a => by cases a <;> rfl⟩
    obtain ⟨htype, hform, hmodes⟩ := hforms
    exact ⟨sparseMma_acts (exec_mmaS24 f s) htype hform hmodes rfl, sparseMma_acts (exec_mmaS14 f s) htype hform hmodes rfl⟩
  · exact fun hun => sparseMma_untyped (exec_mmaS24 f s) (sparseType_eq_none (hcode ▸ hun))
  · exact fun hun => sparseMma_untyped (exec_mmaS14 f s) (sparseType_eq_none (hcode ▸ hun))

end Sys2Proof
end

section
/-! SUPPORT. The arithmetic of the S slot (R110, R111, R114): each result of a register, immediate or W form as a value of the integers, and
the one shape in which a form leaves it. -/

namespace Sys2Proof.Machine

/-! ### Results as integers -/

section Values

variable {w : Nat} (a b : BitVec w)

theorem add_eq_ofInt : a + b = BitVec.ofInt w (a.toInt + b.toInt) := by
  rw [BitVec.ofInt_add, BitVec.ofInt_toInt, BitVec.ofInt_toInt]

theorem sub_eq_ofInt : a - b = BitVec.ofInt w (a.toInt - b.toInt) := by
  rw [Int.sub_eq_add_neg, BitVec.ofInt_add, BitVec.ofInt_neg, BitVec.ofInt_toInt, BitVec.ofInt_toInt, BitVec.sub_eq_add_neg]

theorem mul_eq_ofInt : a * b = BitVec.ofInt w (a.toInt * b.toInt) := by
  rw [BitVec.ofInt_mul, BitVec.ofInt_toInt, BitVec.ofInt_toInt]

theorem shiftLeft_eq_ofNat (n : Nat) : a <<< n = BitVec.ofNat w (a.toNat * 2 ^ n) := by
  apply BitVec.eq_of_toNat_eq
  rw [BitVec.toNat_shiftLeft, BitVec.toNat_ofNat, Nat.shiftLeft_eq]

theorem ushiftRight_eq_ofNat (n : Nat) : a >>> n = BitVec.ofNat w (a.toNat / 2 ^ n) := by
  rw [← Nat.shiftRight_eq_div_pow, ← BitVec.toNat_ushiftRight, BitVec.ofNat_toNat, BitVec.setWidth_eq]

theorem sshiftRight_eq_ofInt (n : Nat) : a.sshiftRight n = BitVec.ofInt w (a.toInt / 2 ^ n) := by
  rw [← BitVec.ofInt_toInt (x := a.sshiftRight n), BitVec.toInt_sshiftRight, Int.shiftRight_eq_div_pow, Int.natCast_pow]
  rfl

theorem allOnes_eq_ofInt : BitVec.allOnes w = BitVec.ofInt w (-1) := by
  rw [← BitVec.neg_one_eq_allOnes, BitVec.ofInt_neg]
  rfl

theorem rvDiv_eq : rvDiv a b = if b = 0 then BitVec.ofInt w (-1) else BitVec.ofInt w (a.toInt.tdiv b.toInt) := by
  have hquot : a.sdiv b = BitVec.ofInt w (a.toInt.tdiv b.toInt) :=
    BitVec.eq_of_toInt_eq (by rw [BitVec.toInt_sdiv, BitVec.toInt_ofInt])
  rw [rvDiv, hquot, allOnes_eq_ofInt]

theorem rvDivu_eq : rvDivu a b = if b = 0 then BitVec.ofInt w (-1) else BitVec.ofNat w (a.toNat / b.toNat) := by
  rw [rvDivu, allOnes_eq_ofInt, ← BitVec.toNat_udiv, BitVec.ofNat_toNat, BitVec.setWidth_eq]

theorem rvRem_eq : rvRem a b = if b = 0 then a else BitVec.ofInt w (a.toInt.tmod b.toInt) := by
  rw [rvRem, ← BitVec.toInt_srem, BitVec.ofInt_toInt]

/-- The remainder of a division by zero is the dividend, as it is of the natural numbers. -/
theorem rvRemu_eq : rvRemu a b = BitVec.ofNat w (a.toNat % b.toNat) := by
  unfold rvRemu
  split
  · next hzero => rw [hzero, BitVec.ofNat_eq_ofNat, BitVec.toNat_ofNat, Nat.zero_mod, Nat.mod_zero, BitVec.ofNat_toNat, BitVec.setWidth_eq]
  · rw [← BitVec.toNat_umod, BitVec.ofNat_toNat, BitVec.setWidth_eq]

end Values

theorem boolD_slt (a b : DWord) : boolD (a.slt b) = if a.toInt < b.toInt then 1 else 0 := by
  simp [boolD, BitVec.slt]

theorem boolD_ult (a b : DWord) : boolD (a.ult b) = if a.toNat < b.toNat then 1 else 0 := by
  simp [boolD, BitVec.ult]

/-- The low half of a sign-extended value. -/
theorem lo32_signExtend {n : Nat} (v : BitVec n) : lo32 (v.signExtend 64) = BitVec.ofInt 32 v.toInt := by
  apply BitVec.eq_of_toNat_eq
  rw [lo32, BitVec.toNat_setWidth, BitVec.signExtend, BitVec.toNat_ofInt, BitVec.toNat_ofInt]
  omega

/-- R114: an immediate in bits 31 to 12. -/
theorem sext32_append_zero (imm : BitVec 20) : sext32 (imm ++ 0#12) = BitVec.ofInt 64 (imm.toInt * 4096) := by
  rw [sext32, BitVec.signExtend, BitVec.toInt_append_zero, Int.mul_comm]
  rfl

/-! ### The shape of a form -/

section Forms

variable {i : Instr} {s : State}

theorem sRes_gives {k : Core → Except Fail Core} {rd : XReg} {lat : Nat} {v : DWord} (hexec : exec i s = slotOp i s k)
    (hk : k s.cur = .ok (sRes s.cur rd lat v)) (hclean : Clean s i) : Gives s i .s lat (.x rd v) :=
  hexec.trans (slotOp_clean hclean hk)

theorem sRR_gives {f : RF} {lat : Nat} {op : DWord → DWord → DWord} {v : DWord} (hexec : exec i s = sRR i f lat op s)
    (hv : op (s.cur.rx f.rs1) (s.cur.rx f.rs2) = v) : Clean s i → Gives s i .s lat (.x f.rd v) :=
  sRes_gives hexec (by rw [hv])

theorem sRI_gives {f : IF} {op : DWord → DWord → DWord} {v : DWord} (hexec : exec i s = sRI i f op s)
    (hv : op (s.cur.rx f.rs1) (f.imm.signExtend 64) = v) : Clean s i → Gives s i .s 1 (.x f.rd v) :=
  sRes_gives hexec (by rw [hv])

theorem sSh_gives {f : ShF} {op : DWord → Nat → DWord} {v : DWord} (hexec : exec i s = sSh i f op s)
    (hv : op (s.cur.rx f.rs1) f.sh.toNat = v) : Clean s i → Gives s i .s 1 (.x f.rd v) :=
  sRes_gives hexec (by rw [hv])

theorem sShw_gives {f : ShwF} {op : BitVec 32 → Nat → BitVec 32} {v : BitVec 32} (hexec : exec i s = sShw i f op s)
    (hv : op (lo32 (s.cur.rx f.rs1)) f.sh.toNat = v) : Clean s i → Gives s i .s 1 (.x f.rd (v.signExtend 64)) :=
  sRes_gives hexec (by rw [hv, sext32])

/-- A W form: its 32-bit result, sign-extended. -/
theorem opW_gives {f : RF} {lat : Nat} {op : BitVec 32 → BitVec 32 → BitVec 32} {v : BitVec 32}
    (hexec : exec i s = sRR i f lat (opW op) s) (hv : op (lo32 (s.cur.rx f.rs1)) (lo32 (s.cur.rx f.rs2)) = v) :
    Clean s i → Gives s i .s lat (.x f.rd (v.signExtend 64)) :=
  sRR_gives hexec (by rw [opW, hv, sext32])

end Forms

end Sys2Proof.Machine

namespace Sys2Proof

open Sys2Proof.Machine

/-- Settles O1: each form leaves one result, which is the operation's value over the integers, cut to 64 bits. -/
theorem registerArithmetic : Obligations.RegisterArithmetic := by
  unfold Obligations.RegisterArithmetic
  refine ⟨fun s f => ?_, fun s f h u => ?_⟩
  · intro a b gives
    exact ⟨sRR_gives (exec_add f s) (add_eq_ofInt a b), sRR_gives (exec_sub f s) (sub_eq_ofInt a b),
      sRR_gives (exec_sll f s) (shiftLeft_eq_ofNat a _), sRR_gives (exec_srl f s) (ushiftRight_eq_ofNat a _),
      sRR_gives (exec_sra f s) (sshiftRight_eq_ofInt a _), sRR_gives (exec_slt f s) (boolD_slt a b),
      sRR_gives (exec_sltu f s) (boolD_ult a b), sRR_gives (exec_xor f s) rfl, sRR_gives (exec_or f s) rfl,
      sRR_gives (exec_and f s) rfl⟩
  · intro a m b gives
    have himm : (f.imm.signExtend 64).toInt = m := BitVec.toInt_signExtend_of_le (by decide)
    have hadd : a + f.imm.signExtend 64 = BitVec.ofInt 64 (a.toInt + m) := by rw [add_eq_ofInt, himm]
    have hslt : boolD (a.slt (f.imm.signExtend 64)) = if a.toInt < m then 1 else 0 := by rw [boolD_slt, himm]
    have hpc : s.cur.k.pc.setWidth 64 + sext32 (u.imm ++ 0#12) = BitVec.ofInt 64 (s.cur.k.pc.toNat + u.imm.toInt * 4096) := by
      rw [sext32_append_zero, BitVec.ofInt_add, BitVec.ofInt_natCast, BitVec.ofNat_toNat]
    exact ⟨sRI_gives (exec_addi f s) hadd, sRI_gives (exec_slti f s) hslt, sRI_gives (exec_sltiu f s) (boolD_ult a _),
      sRI_gives (exec_xori f s) rfl, sRI_gives (exec_ori f s) rfl, sRI_gives (exec_andi f s) rfl,
      sSh_gives (exec_slli h s) (shiftLeft_eq_ofNat b _), sSh_gives (exec_srli h s) (ushiftRight_eq_ofNat b _),
      sSh_gives (exec_srai h s) (sshiftRight_eq_ofInt b _),
      sRes_gives (exec_lui u s) (by rw [sext32_append_zero]), sRes_gives (exec_auipc u s) (by rw [hpc])⟩

/-- Settles O2: the W forms are operations on the low halves; a quotient or remainder takes RISC-V's value where the divisor is zero. -/
theorem wordAndMultiplyDivide : Obligations.WordAndMultiplyDivide := by
  unfold Obligations.WordAndMultiplyDivide
  refine ⟨fun s f m h => ?_, fun s f => ?_⟩
  · intro lo a b k gives
    have hadd : lo32 (s.cur.rx m.rs1) + lo32 (m.imm.signExtend 64) = BitVec.ofInt 32 ((lo m.rs1).toInt + m.imm.toInt) := by
      rw [lo32_signExtend, BitVec.ofInt_add, BitVec.ofInt_toInt]
      rfl
    exact ⟨opW_gives (exec_addw f s) (add_eq_ofInt a b), opW_gives (exec_subw f s) (sub_eq_ofInt a b),
      opW_gives (exec_sllw f s) (shiftLeft_eq_ofNat a k), opW_gives (exec_srlw f s) (ushiftRight_eq_ofNat a k),
      opW_gives (exec_sraw f s) (sshiftRight_eq_ofInt a k), sRI_gives (exec_addiw m s) (by rw [opW, hadd, sext32]),
      sShw_gives (exec_slliw h s) (shiftLeft_eq_ofNat _ _), sShw_gives (exec_srliw h s) (ushiftRight_eq_ofNat _ _),
      sShw_gives (exec_sraiw h s) (sshiftRight_eq_ofInt _ _)⟩
  · intro a b p q gives givesW
    have hmulhu : mulHi a.toNat b.toNat = BitVec.ofNat 64 (a.toNat * b.toNat / 2 ^ 64) := by
      rw [← BitVec.ofInt_natCast]
      rfl
    exact ⟨sRR_gives (exec_mul f s) (mul_eq_ofInt a b), sRR_gives (exec_mulh f s) rfl, sRR_gives (exec_mulhsu f s) rfl,
      sRR_gives (exec_mulhu f s) hmulhu, sRR_gives (exec_div f s) (rvDiv_eq a b), sRR_gives (exec_divu f s) (rvDivu_eq a b),
      sRR_gives (exec_rem f s) (rvRem_eq a b), sRR_gives (exec_remu f s) (rvRemu_eq a b),
      opW_gives (exec_mulw f s) (mul_eq_ofInt p q), opW_gives (exec_divw f s) (rvDiv_eq p q),
      opW_gives (exec_divuw f s) (rvDivu_eq p q), opW_gives (exec_remw f s) (rvRem_eq p q),
      opW_gives (exec_remuw f s) (rvRemu_eq p q)⟩

end Sys2Proof
end

section
/-! SUPPORT. The S slot's loads and stores in the own SPAD (R112, R166, R345, R346): the checks of an offset, and what a store of a few bytes
inside one granule leaves. -/

namespace Sys2Proof.Machine

/-! ### The checks of an offset (R112) -/

section Offset

variable {off : DWord} {n : Nat}

theorem spadCheck_of_inside (halign : off.toNat % n = 0) (hin : off.toNat < 0x100000) : spadCheck off n = none := by
  rw [spadCheck, if_neg (not_not.2 halign), if_neg (Nat.not_le.2 hin)]

theorem spadCheck_of_misaligned (halign : off.toNat % n ≠ 0) : spadCheck off n = some ⟨0x25, off⟩ := if_pos halign

theorem spadCheck_of_beyond (halign : off.toNat % n = 0) (hbeyond : 0x100000 ≤ off.toNat) : spadCheck off n = some ⟨0x26, off⟩ := by
  rw [spadCheck, if_neg (not_not.2 halign), if_pos hbeyond]

end Offset

/-- A load or store of n bytes at an offset takes the two traps of R112. -/
def ChecksOffset (s : State) (i : Instr) (off : DWord) (n : Nat) : Prop :=
  (off.toNat % n ≠ 0 → Traps s i 0x25 off) ∧ (off.toNat % n = 0 → 0x100000 ≤ off.toNat → Traps s i 0x26 off)

theorem checksOffset_of_fail {s : State} {i : Instr} {off : DWord} {n : Nat}
    (hfail : ∀ cause tval, spadCheck off n = some ⟨cause, tval⟩ → Traps s i cause tval) : ChecksOffset s i off n :=
  ⟨fun halign => hfail _ _ (spadCheck_of_misaligned halign), fun halign hbeyond => hfail _ _ (spadCheck_of_beyond halign hbeyond)⟩

/-! ### Loads -/

theorem sext_eq_toInt (v n : Nat) : sext v n = (BitVec.ofNat n v).toInt := by
  rw [BitVec.toInt_eq_toNat_cond, BitVec.toNat_ofNat, sext]
  cases n with
  | zero => simp [Nat.mod_one]
  | succ n =>
    have hpow : 2 ^ (n + 1) = 2 * 2 ^ n := Nat.pow_succ'
    have hcast : (2 : Int) ^ (n + 1) = ((2 ^ (n + 1) : Nat) : Int) := by push_cast; rfl
    rw [Nat.add_sub_cancel, hcast, hpow]
    generalize 2 ^ n = m
    split <;> split <;> omega

theorem sextD_eq (n : Nat) : sextD n = fun v => (BitVec.ofNat n v).signExtend 64 :=
  funext fun v => by rw [sextD, sext_eq_toInt, BitVec.signExtend]

theorem State.spadDenied_of_ok {s : State} (key : Nat) (hok : s.spadOk s.iss.core = true) : s.spadDenied key = s := by
  rw [State.spadDenied]
  exact if_pos hok

theorem State.spadDenied_memory (s : State) (key : Nat) :
    (s.spadDenied key).mem = s.mem ∧ (s.spadDenied key).tags = s.tags ∧ (s.spadDenied key).marks = s.marks := by
  rw [State.spadDenied]
  split
  · exact ⟨rfl, rfl, rfl⟩
  · exact (s.countDenial_onlyBanks ..).onlyDevice.memory

section Loads

variable {s : State} {i : Instr} {f : IF} {n : Nat} {ext : Nat → DWord}

/-- What a load of n bytes at an offset takes: the bytes there, or a free value where the own entry denies them. -/
def State.spadNat (s : State) (off : DWord) (n : Nat) : Nat :=
  if s.spadOk s.iss.core then s.nat (mkey .spad s.iss.core off.toNat) n else (Config.freeWord s.free).toNat % 2 ^ (8 * n)

/-- The offset of a load (R112). -/
abbrev State.loadOff (s : State) (f : IF) : DWord := s.cur.rx f.rs1 + BitVec.ofInt 64 f.imm.toInt

theorem sLoad_checks (hexec : exec i s = sLoad i f n ext s) (hclean : Clean s i) : ChecksOffset s i (s.loadOff f) n :=
  checksOffset_of_fail fun cause tval hfail => by
    have hfail : spadCheck (s.cur.rx f.rs1 + f.imm.signExtend 64) n = some ⟨cause, tval⟩ := hfail
    rw [Traps, hexec, sLoad]
    exact slotOpS_fail (e := ⟨cause, tval⟩) hclean (by simp only [hfail])

variable (hexec : exec i s = sLoad i f n ext s) (hclean : Clean s i) (halign : (s.loadOff f).toNat % n = 0)
  (hin : (s.loadOff f).toNat < 0x100000)
include hexec hclean halign hin

theorem exec_sLoad_inside : exec i s = .next ((s.spadDenied (mkey .spad s.iss.core (s.loadOff f).toNat)).setCur (s.cur.push (mkPend .s 3
    (if !s.spadOk s.iss.core || s.marked (mkey .spad s.iss.core (s.loadOff f).toNat) n then
      .xMarked f.rd (ext (s.spadNat (s.loadOff f) n))
    else .x f.rd (ext (s.spadNat (s.loadOff f) n)))))) := by
  have hcheck : spadCheck (s.cur.rx f.rs1 + f.imm.signExtend 64) n = none := spadCheck_of_inside halign hin
  rw [hexec, sLoad]
  exact slotOpS_clean hclean (by simp only [hcheck]; rfl)

/-- An admitted load gives the bytes at its offset, with the mark of their granule (R428). -/
theorem sLoad_gives (hok : s.spadOk s.iss.core = true) :
    Gives s i .s 3 (if s.marked (mkey .spad s.iss.core (s.loadOff f).toNat) n then
      .xMarked f.rd (ext (s.nat (mkey .spad s.iss.core (s.loadOff f).toNat) n))
    else .x f.rd (ext (s.nat (mkey .spad s.iss.core (s.loadOff f).toNat) n))) := by
  rw [Gives, exec_sLoad_inside hexec hclean halign hin, State.spadDenied_of_ok _ hok, State.spadNat, hok, if_pos rfl]
  rfl

/-- A denied one gives a free value with a mark (R346). -/
theorem sLoad_denied (hno : s.spadOk s.iss.core = false) :
    ∃ (w : Nat) (t : State), t.mem = s.mem ∧ t.tags = s.tags ∧ t.marks = s.marks ∧
      exec i s = .next (t.setCur (s.cur.push (mkPend .s 3 (.xMarked f.rd (ext w))))) := by
  obtain ⟨hmem, htags, hmarks⟩ := s.spadDenied_memory (mkey .spad s.iss.core (s.loadOff f).toNat)
  refine ⟨s.spadNat (s.loadOff f) n, _, hmem, htags, hmarks, ?_⟩
  rw [exec_sLoad_inside hexec hclean halign hin, hno]
  rfl

end Loads

/-! ### Stores -/

/-- What a store that the own entry denies leaves (R346, R423). -/
theorem dropsSpad_of_exec {s : State} {i : Instr} {key : Nat} {f : State → State} (hexec : exec i s = .next (s.spadStore key f))
    (hno : s.spadOk s.iss.core = false) : DropsSpad s i (keyOff key) := by
  have hbanks := s.countDenial_onlyBanks s.iss.core (s.miscOf s.iss.core) .denied key false
  have hcore := hbanks.onlyDevice.core
  obtain ⟨hmem, htags, hmarks⟩ := hbanks.onlyDevice.memory
  have hiss : (s.countDenial s.iss.core (s.miscOf s.iss.core) .denied key false).iss = s.iss := s.countDenial_iss ..
  have hdrop : s.spadStore key f = (s.countDenial s.iss.core (s.miscOf s.iss.core) .denied key false).setCore s.iss.core
      (s.cur.defer (deferred 0x28 (Verdict.tval .denied key) s.iss.slot)) := by
    rw [State.spadStore]
    simp only [hno, Bool.false_eq_true, if_false, hcore, hiss]
    rfl
  refine ⟨_, hexec.trans (congrArg _ hdrop), hmem, htags, hmarks, hiss, ?_, fun n hn => ?_⟩
  · rw [State.cur, State.setCore_iss, hiss, State.core_setCore_same]
    rfl
  · rw [State.core_setCore_other _ _ hn, hcore]

/-- A store of a few bytes inside one granule: those bytes, no others; the granule's tag clears and no mark does (R166, R429). -/
theorem State.store_in_granule {s : State} (hs : s.Ok) {key : Nat} {bs : List Byte} (hpos : 0 < bs.length)
    (hin : key % 32 + bs.length ≤ 32) (hpart : bs.length < 32) :
    KeySet.has (s.store key bs).tags (key / 32) = false ∧
      (∀ g, g ≠ key / 32 → KeySet.has (s.store key bs).tags g = KeySet.has s.tags g) ∧ (s.store key bs).marks = s.marks := by
  have hgran : ∀ g, g ∈ granules key bs.length ↔ g = key / 32 := fun g => by
    rw [mem_granules hpos]
    omega
  have hwhole : wholeGranules key bs.length = [] := by
    rw [wholeGranules, List.filter_eq_nil_iff]
    intro g _
    simp only [Bool.and_eq_true, decide_eq_true_eq]
    omega
  obtain ⟨-, -, htags, -⟩ := State.store_spec hs key bs
  refine ⟨?_, fun g hg => ?_, by rw [State.store, hwhole]; rfl⟩
  · rw [htags, List.contains_iff_mem.2 ((hgran _).2 rfl)]
    rfl
  · rw [htags, Bool.eq_false_iff.2 (fun h => hg ((hgran g).1 (List.contains_iff_mem.1 h)))]
    rfl

/-- The n low bytes of a value stand at a key, and nothing else of the state has changed but the tag of their granule. -/
def StoresLow (s : State) (i : Instr) (key n : Nat) (v : DWord) : Prop :=
  ∃ t, exec i s = .next t ∧ (∀ k, k < n → t.byte (key + k) = v.extractLsb' (8 * k) 8) ∧
    (∀ a, a < key ∨ key + n ≤ a → t.byte a = s.byte a) ∧ KeySet.has t.tags (key / 32) = false ∧
    (∀ g, g ≠ key / 32 → KeySet.has t.tags g = KeySet.has s.tags g) ∧
    t.marks = s.marks ∧ t.cores = s.cores ∧ t.dev = s.dev ∧ t.iss = s.iss

theorem storesLow_of_exec {s : State} (hs : s.Ok) {i : Instr} {key n : Nat} {v : DWord} (hexec : exec i s = .next (s.storeNat key n v.toNat))
    (hpos : 0 < n) (hin : key % 32 + n ≤ 32) (hpart : n < 32) : StoresLow s i key n v := by
  have hlen : (leBytes n v.toNat).length = n := leBytes_length n v.toNat
  obtain ⟨hinside, houtside, -, -⟩ := State.store_spec hs key (leBytes n v.toNat)
  rw [← hlen] at hpos hin hpart
  obtain ⟨htag, htags, hmarks⟩ := State.store_in_granule hs hpos hin hpart
  refine ⟨_, hexec, fun k hk => ?_, fun a ha => houtside a (by rwa [hlen]), htag, htags, hmarks, rfl, rfl, rfl⟩
  rw [← hlen] at hk
  exact (hinside k hk).trans (leBytes_byte v hk)

section Stores

variable {s : State} {i : Instr} {f : StF} {n : Nat}

/-- The offset of a store (R112). -/
abbrev State.storeOff (s : State) (f : StF) : DWord := s.cur.rx f.rs1 + BitVec.ofInt 64 f.imm.toInt

theorem sStore_checks (hexec : exec i s = sStore i f n s) (hclean : Clean s i) : ChecksOffset s i (s.storeOff f) n :=
  checksOffset_of_fail fun cause tval hfail => by
    have hfail : spadCheck (s.cur.rx f.rs1 + f.imm.signExtend 64) n = some ⟨cause, tval⟩ := hfail
    rw [Traps, hexec, sStore]
    exact slotOpS_fail (e := ⟨cause, tval⟩) hclean (by simp only [hfail])

/-- A naturally aligned access lies inside one granule. -/
theorem aligned_in_granule (hn : n ∈ [1, 2, 4, 8]) {unit off : Nat} (halign : off % n = 0) : mkey .spad unit off % 32 + n ≤ 32 := by
  simp only [List.mem_cons, List.not_mem_nil, or_false] at hn
  rw [mkey]
  rcases hn with rfl | rfl | rfl | rfl <;> omega

/-- A store inside the SPAD: dropped where the own entry denies it, else its bytes (R112, R166, R345). -/
theorem sStore_acts (hs : s.Ok) (hexec : exec i s = sStore i f n s) (hn : n ∈ [1, 2, 4, 8]) (hclean : Clean s i)
    (halign : (s.storeOff f).toNat % n = 0) (hin : (s.storeOff f).toNat < 0x100000) :
    (s.spadOk s.iss.core = false → DropsSpad s i (s.storeOff f).toNat) ∧
      (s.spadOk s.iss.core = true → StoresLow s i (mkey .spad s.iss.core (s.storeOff f).toNat) n (s.cur.rx f.rs2)) := by
  have hcheck : spadCheck (s.cur.rx f.rs1 + f.imm.signExtend 64) n = none := spadCheck_of_inside halign hin
  have hstore : exec i s = .next (s.spadStore (mkey .spad s.iss.core (s.storeOff f).toNat)
      (fun s' => s'.storeNat (mkey .spad s.iss.core (s.storeOff f).toNat) n (s.cur.rx f.rs2).toNat)) := by
    rw [hexec, sStore]
    exact slotOpS_clean hclean (by simp only [hcheck]; rfl)
  have hkey : keyOff (mkey .spad s.iss.core (s.storeOff f).toNat) = (s.storeOff f).toNat := by
    rw [keyOff, mkey]
    omega
  refine ⟨fun hno => hkey ▸ dropsSpad_of_exec hstore hno, fun hok => ?_⟩
  have hpos : 0 < n ∧ n < 32 := by
    simp only [List.mem_cons, List.not_mem_nil, or_false] at hn
    omega
  refine storesLow_of_exec hs (hstore.trans ?_) hpos.1 (aligned_in_granule hn halign) hpos.2
  rw [State.spadStore]
  exact congrArg _ (if_pos hok)

end Stores

end Sys2Proof.Machine

namespace Sys2Proof

open Sys2Proof.Machine

/-- Settles O3: the loads differ by width and extension, the stores by width; each checks its offset, then its own entry. -/
theorem spadLoadsAndStores : Obligations.SpadLoadsAndStores := by
  unfold Obligations.SpadLoadsAndStores
  refine ⟨⟨fun s f => ?_, fun s f g => ?_⟩, fun s f hs => ?_⟩
  · intro off key gives
    have hloads {i : Instr} {n : Nat} {ext : Nat → DWord} (hexec : exec i s = sLoad i f n ext s) : gives i n ext :=
      fun hclean halign hin => ⟨sLoad_gives hexec hclean halign hin, sLoad_denied hexec hclean halign hin⟩
    clear_value gives
    exact ⟨hloads (by rw [exec_lb, execLb, sextD_eq]), hloads (by rw [exec_lh, execLh, sextD_eq]),
      hloads (by rw [exec_lw, execLw, sextD_eq]), hloads (exec_sld f s), hloads (exec_lbu f s), hloads (exec_lhu f s),
      hloads (exec_lwu f s)⟩
  · intro traps a b
    have hloads {i : Instr} {n : Nat} {ext : Nat → DWord} (hexec : exec i s = sLoad i f n ext s) : traps i a n := sLoad_checks hexec
    have hstores {i : Instr} {n : Nat} (hexec : exec i s = sStore i g n s) : traps i b n := sStore_checks hexec
    clear_value traps
    exact ⟨hloads (exec_lb f s), hloads (exec_lh f s), hloads (exec_lw f s), hloads (exec_sld f s),
      hloads (exec_lbu f s), hloads (exec_lhu f s), hloads (exec_lwu f s), hstores (exec_sb g s),
      hstores (exec_sh g s), hstores (exec_sw g s), hstores (exec_sd g s)⟩
  · intro off key stores
    have hstores {i : Instr} {n : Nat} (hexec : exec i s = sStore i f n s) (hn : n ∈ [1, 2, 4, 8]) : stores i n := sStore_acts hs hexec hn
    clear_value stores
    exact ⟨hstores (exec_sb f s) (by decide), hstores (exec_sh f s) (by decide), hstores (exec_sw f s) (by decide),
      hstores (exec_sd f s) (by decide)⟩

end Sys2Proof
end

section
/-! SUPPORT. Transfers of control (R118 to R123, R130): where a branch, JMP, CALL or RET that passes its checks goes, and the traps of those
that do not. -/

namespace Sys2Proof.Machine

open Host (Outcome)

section Transfers

variable {s : State} {i : Instr} {tgt : Nat}

/-- A transfer that leaves the acting core as it is. -/
theorem goesTo_self (h : exec i s = .next (s.goto tgt)) : GoesTo s i tgt s.cur :=
  ⟨_, h, rfl, rfl, rfl, rfl, rfl, rfl, rfl, rfl, rfl, rfl, rfl, rfl, fun _ _ => rfl⟩

theorem loopTraps_of_structTrap {k : Nat} {l : LoopLv} (h : exec i s = s.structTrap) (hinner : s.cur.inner = some (k, l)) :
    LoopTraps s i 0x63 0 k l.start :=
  h.trans (structTrap_of_inner hinner)

/-- R118: four times a signed offset from the bundle's head, in the 48 bits of an address. -/
theorem State.relTarget_eq_rel {w : Nat} (s : State) (off : BitVec w) : s.relTarget off = s.rel off.toInt := by
  rw [State.relTarget, State.rel, BitVec.toNat_add, BitVec.toNat_shiftLeft, BitVec.signExtend, BitVec.toNat_ofInt, Nat.shiftLeft_eq]
  generalize off.toInt = o
  omega

/-- The order of a jump: the target's fault, entry into a body, the transfer. -/
theorem jumps_of_exec (h : exec i s = s.jump tgt) : Jumps s i tgt := by
  unfold State.jump at h
  unfold Jumps
  cases hfault : s.targetFault s.iss.core tgt with
  | some f => rwa [hfault] at h
  | none =>
    rw [hfault] at h
    cases henter : s.entered tgt with
    | some e => rwa [henter] at h
    | none =>
      rw [henter] at h
      exact goesTo_of_exec (c := s.leaving tgt) h

/-! ### Branches (R121, R122) -/

/-- A branch on a condition: the jump where it holds, else nothing. -/
theorem branches_of_exec {cond : Bool} {taken : Prop} (h : exec i s = if cond then s.jump tgt else .next s) (htaken : cond = true ↔ taken) :
    (taken → Jumps s i tgt) ∧ (¬taken → exec i s = .next s) :=
  ⟨fun ht => jumps_of_exec (h.trans (if_pos (htaken.2 ht))), fun ht => h.trans (if_neg (mt htaken.1 ht))⟩

theorem condBranch_branches {f : BrF} {cond : DWord → DWord → Bool} {taken : Prop} (hexec : exec i s = condBranch i f cond s)
    (htaken : cond (s.cur.rx f.rs1) (s.cur.rx f.rs2) = true ↔ taken) (hclean : Clean s i) :
    (taken → Jumps s i (s.rel f.off.toInt)) ∧ (¬taken → exec i s = .next s) := by
  rw [condBranch, branchOp_clean hclean, State.relTarget_eq_rel] at hexec
  exact branches_of_exec hexec htaken

/-- R122: a predicate whose bits agree; `want` is their value where the branch is taken. -/
theorem predBranch_branches {f : BpF} {want : Bool} {taken : Prop} (hexec : exec i s = predBranch i f want s)
    (hone : s.cur.rp f.p = BitVec.allOnes 128 ∨ s.cur.rp f.p = 0)
    (htaken : (s.cur.rp f.p = if want then BitVec.allOnes 128 else 0) ↔ taken) (hclean : Clean s i) :
    (taken → Jumps s i (s.rel f.off.toInt)) ∧ (¬taken → exec i s = .next s) := by
  have hne : (0 : Pred) ≠ BitVec.allOnes 128 := by decide
  rw [predBranch, branchOp_clean hclean, State.relTarget_eq_rel] at hexec
  rcases hone with hp | hp
  · rw [hp, if_pos rfl] at hexec
    refine branches_of_exec hexec (Iff.trans ?_ htaken)
    cases want <;> simp [hp]
  · rw [hp, if_neg hne, if_pos rfl] at hexec
    refine branches_of_exec (cond := !want) ?_ (Iff.trans ?_ htaken)
    · cases want <;> exact hexec
    · cases want <;> simp [hp]

theorem predBranch_traps {f : BpF} {want : Bool} (hexec : exec i s = predBranch i f want s)
    (hones : s.cur.rp f.p ≠ BitVec.allOnes 128) (hzero : s.cur.rp f.p ≠ 0) (hclean : Clean s i) :
    Traps s i 0x60 ((s.cur.rp f.p).extractLsb' 0 64) := by
  rw [predBranch, branchOp_clean hclean, if_neg hones, if_neg hzero, BitVec.setWidth_eq_extractLsb' (by decide)] at hexec
  exact hexec

/-! ### CALL and RET (R123) -/

/-- A transfer that meets no loop level: the target's fault, or control there with the core left as `c`. -/
def Transfers (s : State) (i : Instr) (tgt : Nat) (c : Core) : Prop :=
  match s.targetFault s.iss.core tgt with
  | some (e, v) => Traps s i e (BitVec.ofNat 64 v)
  | none => GoesTo s i tgt c

theorem transfers_of_exec {t : State} {c : Core} (h : exec i s = s.jumpPlain t tgt)
    (hgoes : exec i s = .next (t.goto tgt) → GoesTo s i tgt c) : Transfers s i tgt c := by
  unfold State.jumpPlain at h
  unfold Transfers
  cases hfault : s.targetFault s.iss.core tgt with
  | some f => rwa [hfault] at h
  | none =>
    rw [hfault] at h
    exact hgoes h

theorem exec_call_inside {f : BjF} (hclean : Clean s (.call f)) (hend : s.atEnd = false) :
    exec (.call f) s = s.jumpPlain (s.setCur (s.cur.push (mkPend .b 1 (.x f.rd (s.iss.next.setWidth 64))))) (s.rel f.off.toInt) := by
  rw [exec_call, execCall, branchOp_clean hclean, hend, State.relTarget_eq_rel]
  rfl

theorem exec_ret_inside {r : XReg} (hclean : Clean s (.ret r)) (hend : s.atEnd = false) :
    exec (.ret r) s = if 2 ^ 48 ≤ (s.cur.rx r).toNat then s.trap 0x05 (s.cur.rx r) else s.jumpPlain s (s.cur.rx r).toNat := by
  have hhigh : fld (s.cur.rx r) 48 16 ≠ 0 ↔ 2 ^ 48 ≤ (s.cur.rx r).toNat := by
    rw [ne_eq, ← BitVec.toNat_inj, BitVec.extractLsb'_toNat, Nat.shiftRight_eq_div_pow]
    have hlt : (s.cur.rx r).toNat < 2 ^ 64 := (s.cur.rx r).isLt
    simp only [BitVec.ofNat_eq_ofNat, BitVec.toNat_ofNat]
    omega
  rw [exec_ret, execRet, branchOp_clean hclean, hend]
  simp only [Bool.false_eq_true, if_false, hhigh]

theorem exec_call_at_end {f : BjF} (hclean : Clean s (.call f)) (hend : s.atEnd = true) : exec (.call f) s = s.structTrap := by
  rw [exec_call, execCall, branchOp_clean hclean, hend]
  rfl

theorem exec_ret_at_end {r : XReg} (hclean : Clean s (.ret r)) (hend : s.atEnd = true) : exec (.ret r) s = s.structTrap := by
  rw [exec_ret, execRet, branchOp_clean hclean, hend]
  rfl

end Transfers

end Sys2Proof.Machine

namespace Sys2Proof

open Sys2Proof.Machine

/-- Settles O5: each branch is one condition; where it holds the jump is made, with its target's checks. -/
theorem branchesAndJumps : Obligations.BranchesAndJumps := by
  unfold Obligations.BranchesAndJumps
  intro s f g off a b branches p ones
  have hbr {cond : DWord → DWord → Bool} {i : Instr} {taken : Prop} (hexec : exec i s = condBranch i f cond s)
      (htaken : cond a b = true ↔ taken) : branches i f.off.toInt taken := condBranch_branches hexec htaken
  have hjmp : branches (.jmp off) off.toInt True := fun hclean => by
    have hexec : exec (.jmp off) s = s.jump (s.rel off.toInt) := by
      rw [exec_jmp, execJmp, branchOp_clean hclean, State.relTarget_eq_rel]
    exact ⟨fun _ => jumps_of_exec hexec, fun h => absurd trivial h⟩
  refine ⟨hbr (exec_beq f s) beq_iff_eq, hbr (exec_bne f s) bne_iff_ne, hbr (exec_blt f s) BitVec.slt_iff_toInt_lt,
    hbr (exec_bge f s) ?_, hbr (exec_bltu f s) BitVec.ult_iff_toNat_lt, hbr (exec_bgeu f s) ?_,
    fun hone => ⟨predBranch_branches (exec_bpt g s) hone Iff.rfl, predBranch_branches (exec_bpf g s) hone Iff.rfl⟩,
    fun hones hzero => ⟨predBranch_traps (exec_bpt g s) hones hzero, predBranch_traps (exec_bpf g s) hones hzero⟩, hjmp⟩
  · rw [Bool.not_eq_true', Bool.eq_false_iff, ne_eq, BitVec.slt_iff_toInt_lt, Int.not_lt]
  · rw [Bool.not_eq_true', Bool.eq_false_iff, ne_eq, BitVec.ult_iff_toNat_lt, Nat.not_lt]

/-- Settles O6: away from a body's last bundle both make the transfer that their target admits; there they are structure traps. -/
theorem callAndReturn : Obligations.CallAndReturn := by
  unfold Obligations.CallAndReturn
  intro s f r goes a
  refine ⟨fun hclean hend => transfers_of_exec (exec_call_inside hclean hend) goesTo_of_exec,
    fun hclean hend => ⟨fun hhigh => ?_, fun hlow => transfers_of_exec ?_ goesTo_self⟩, fun k l hend hinner => ⟨fun hclean => ?_, fun hclean => ?_⟩⟩
  · exact (exec_ret_inside hclean hend).trans (if_pos hhigh)
  · exact (exec_ret_inside hclean hend).trans (if_neg (Nat.not_le.2 hlow))
  · exact loopTraps_of_structTrap (exec_call_at_end hclean hend) hinner
  · exact loopTraps_of_structTrap (exec_ret_at_end hclean hend) hinner

end Sys2Proof
end

section
/-! SUPPORT. The entry of a loop (R124, R125): the checks of the three loop instructions in order, and the level that they enter. -/

namespace Sys2Proof.Machine

open Host (Outcome)

/-! ### Levels -/

theorem Core.setLevel_t (c : Core) (k : Nat) (l : LoopLv) : (c.setLevel k l).t = c.t := by
  unfold Core.setLevel
  split <;> rfl

theorem Core.setLevel_pp (c : Core) (k : Nat) (l : LoopLv) (p : PReg) : (c.setLevel k l).pp p = c.pp p := by
  unfold Core.setLevel
  split <;> rfl

/-- A stage predicate of LOOP.SP on its way: the first of ones, the others of zeros (R125). -/
def Core.stagePend (c : Core) (k : Nat) : Pend :=
  mkPend .b 1 (.p (c.pp (BitVec.ofNat 4 (8 + k))) (BitVec.allOnes 128) (if k = 0 then BitVec.allOnes 128 else 0))

theorem Core.stagePreds_eq (c : Core) (stages : Nat) :
    c.stagePreds stages = { c with t := { c.t with pend := c.t.pend ++ (List.range stages).map c.stagePend } } := by
  induction stages with
  | zero => rw [List.range_zero, List.map_nil, List.append_nil]; rfl
  | succ n ih =>
    have hlast : c.stagePreds (n + 1) = (c.stagePreds n).push ((c.stagePreds n).stagePend n) := by
      rw [Core.stagePreds, List.range_succ, List.foldl_append]
      rfl
    rw [hlast, ih, List.range_succ, List.map_append, ← List.append_assoc]
    rfl

theorem Core.inner_of_active {c : Core} {k : Nat} (hk : k < 4) (hactive : (c.c.lc[k]?.getD .off).kind ≠ 0) :
    ∃ j l, c.inner = some (j, l) := by
  cases hinner : c.inner with
  | some e => exact ⟨e.1, e.2, rfl⟩
  | none =>
    rw [Core.inner, List.head?_eq_none_iff, List.filterMap_eq_nil_iff] at hinner
    have hoff := hinner k (List.mem_reverse.2 (List.mem_range.2 hk))
    rw [if_pos (bne_iff_ne.2 hactive)] at hoff
    cases hoff

/-- Control leaves a body only while a level is active. -/
theorem State.inner_of_leaks {s : State} {nxt : Nat} {skip : Option Nat} (h : s.leaks nxt skip = true) :
    ∃ j l, s.cur.inner = some (j, l) := by
  obtain ⟨k, hk, hleak⟩ := List.any_eq_true.1 h
  simp only [Bool.and_eq_true, LoopLv.holds] at hleak
  obtain ⟨⟨-, ⟨hkind, -⟩, -⟩, -⟩ := hleak
  exact Core.inner_of_active (List.mem_range.1 hk) (bne_iff_ne.1 hkind)

/-! ### The loop instructions -/

/-- The bundle LEN words on, which is the last of the body (R124). -/
def State.loopFin (s : State) (f : BlF) : Nat := s.cur.k.pc.toNat + 4 * f.len.toNat

/-- Where control goes when the body is skipped (R124). -/
def State.loopPast (s : State) (f : BlF) : Nat := s.following s.iss.core (s.loopFin f)

/-- The trip count of a loop instruction. -/
def State.trips (s : State) (f : BlF) : Nat := (s.cur.rx f.rs1).toNat

/-- The new body does not lie in the one around it, or control leaves an active body (R127). -/
def State.loopOutside (s : State) (f : BlF) : Bool :=
  s.unnested s.cur (s.imemIdx s.cur (s.loopFin f)) || s.leaks (if s.trips f = 0 then s.loopPast f else s.iss.next.toNat) none

/-- The level that a loop instruction of a kind enters (R124, R125). -/
def State.loopLevel (s : State) (f : BlF) (kind : BitVec 2) : LoopLv :=
  { kind := kind, stg := if kind = 3 then f.stg else 0, start := s.imemIdx s.cur s.iss.next.toNat
    fin := s.imemIdx s.cur (s.loopFin f)
    iter := BitVec.ofNat 27 (if kind = 2 then maxTrip f else if kind = 3 then s.trips f + (f.stg.toNat + 1) - 1 else s.trips f)
    trip := s.trips f, max := maxTrip f }

/-- The stage predicates that it sets. -/
def State.loopPreds (s : State) (f : BlF) (kind : BitVec 2) : List Pend :=
  if kind = 3 then (List.range (f.stg.toNat + 1)).map s.cur.stagePend else []

section Loop

variable {s : State} {i : Instr} {f : BlF} {kind : BitVec 2} (hexec : exec i s = loopOp i f kind s) (hclean : Clean s i)
include hexec hclean

theorem loopTraps_at_end (hend : s.atEnd = true) {k : Nat} {l : LoopLv} (hinner : s.cur.inner = some (k, l)) :
    LoopTraps s i 0x63 0 k l.start := by
  refine loopTraps_of_structTrap ?_ hinner
  rw [hexec, loopOp, branchOp_clean hclean, hend]
  rfl

variable (hend : s.atEnd = false)
include hend

/-- Structure comes before every other check (log 85). -/
theorem exec_loopOp_outside (hout : s.loopOutside f = true) : exec i s = s.structTrap := by
  rw [hexec, loopOp, branchOp_clean hclean, hend]
  exact if_pos hout

/-- The body lies in the one around it: the trip count of zero, then the level, then the bound. -/
theorem exec_loopOp_inside (hin : s.loopOutside f = false) : exec i s =
    if s.trips f = 0 then .next (s.goto (s.loopPast f))
    else
      match s.cur.freeLevel with
      | none => s.loopTrap 0x61 0 3 s.cur.c.lc[3].start
      | some k =>
        if kind ≠ 2 ∧ maxTrip f < s.trips f then s.loopTrap 0x62 (BitVec.ofNat 64 (s.trips f)) k (s.imemIdx s.cur s.iss.next.toNat)
        else .next { s.setCur { s.cur.setLevel k (s.loopLevel f kind) with t := { s.cur.t with pend := s.cur.t.pend ++ s.loopPreds f kind } }
          with iss := { s.iss with closed := true } } := by
  have hlevel (k : Nat) : (if kind = 3 then (s.cur.setLevel k (s.loopLevel f kind)).stagePreds (f.stg.toNat + 1)
      else s.cur.setLevel k (s.loopLevel f kind)) =
      { s.cur.setLevel k (s.loopLevel f kind) with t := { s.cur.t with pend := s.cur.t.pend ++ s.loopPreds f kind } } := by
    have hstage : (s.cur.setLevel k (s.loopLevel f kind)).stagePend = s.cur.stagePend :=
      funext fun j => by rw [Core.stagePend, Core.setLevel_pp, Core.stagePend]
    rw [State.loopPreds]
    split
    · rw [Core.stagePreds_eq, hstage, Core.setLevel_t]
    · rw [List.append_nil, ← Core.setLevel_t s.cur k (s.loopLevel f kind)]
  simp only [← hlevel]
  rw [hexec, loopOp, branchOp_clean hclean, hend]
  exact if_neg (Bool.eq_false_iff.1 hin)

theorem loopOp_traps_outside (hout : s.loopOutside f = true) :
    ∃ j l, s.cur.inner = some (j, l) ∧ LoopTraps s i 0x63 0 j l.start := by
  have hinner : ∃ j l, s.cur.inner = some (j, l) := by
    rcases Bool.or_eq_true_iff.1 hout with hunnested | hleaks
    · obtain ⟨e, he, -⟩ := (Option.any_eq_true _ _).1 hunnested
      exact ⟨e.1, e.2, he⟩
    · exact State.inner_of_leaks hleaks
  obtain ⟨j, l, hinner⟩ := hinner
  exact ⟨j, l, hinner, loopTraps_of_structTrap (exec_loopOp_outside hexec hclean hend hout) hinner⟩

variable (hin : s.loopOutside f = false)
include hin

theorem loopOp_skips (htrips : s.trips f = 0) : GoesTo s i (s.loopPast f) s.cur :=
  goesTo_self ((exec_loopOp_inside hexec hclean hend hin).trans (if_pos htrips))

variable (htrips : s.trips f ≠ 0)
include htrips

theorem loopOp_no_level (hfree : s.cur.freeLevel = none) : LoopTraps s i 0x61 0 3 s.cur.c.lc[3].start := by
  rw [LoopTraps, exec_loopOp_inside hexec hclean hend hin, if_neg htrips, hfree]
  rfl

theorem loopOp_bound {k : Nat} (hfree : s.cur.freeLevel = some k) (hkind : kind ≠ 2) (hbound : maxTrip f < s.trips f) :
    LoopTraps s i 0x62 (BitVec.ofNat 64 (s.trips f)) k (s.imemIdx s.cur s.iss.next.toNat) := by
  rw [LoopTraps, exec_loopOp_inside hexec hclean hend hin, if_neg htrips, hfree]
  exact if_pos ⟨hkind, hbound⟩

theorem loopOp_enters {k : Nat} (hfree : s.cur.freeLevel = some k) (hbound : kind ≠ 2 → s.trips f ≤ maxTrip f) :
    FallsThrough s i
      { s.cur.setLevel k (s.loopLevel f kind) with t := { s.cur.t with pend := s.cur.t.pend ++ s.loopPreds f kind } } := by
  refine fallsThrough_of_closed ?_
  rw [exec_loopOp_inside hexec hclean hend hin, if_neg htrips, hfree]
  exact if_neg fun h => Nat.not_lt.2 (hbound h.1) h.2

end Loop

/-- What R124 and R127 ask of the body, in the terms of the levels. -/
theorem loopOutside_iff (s : State) (f : BlF) : s.loopOutside f = true ↔
    (∃ k l, s.cur.inner = some (k, l) ∧ l.holds s.here = true ∧ l.fin.toNat ≤ (s.imemIdx s.cur (s.loopFin f)).toNat) ∨
      s.leaks (if s.trips f = 0 then s.loopPast f else s.iss.next.toNat) none = true := by
  rw [State.loopOutside, Bool.or_eq_true, State.unnested]
  refine or_congr_left ?_
  rw [Option.any_eq_true]
  simp only [Prod.exists, Bool.and_eq_true, decide_eq_true_eq]

end Sys2Proof.Machine

namespace Sys2Proof

open Sys2Proof.Machine

/-- Settles O7: the three instructions are one operation, which differs by the kind of the level and whether a bound is asked. -/
theorem loopEntry : Obligations.LoopEntry := by
  unfold Obligations.LoopEntry
  intro s f c t max stages start fin finI past outside level stage enters closes
  have houtside : outside ↔ s.loopOutside f = true := (loopOutside_iff s f).symm
  have henters {i : Instr} {kind : BitVec 2} {bounded : Bool} (hexec : exec i s = loopOp i f kind s)
      (hbounded : bounded = true ↔ kind ≠ 2) : enters i bounded (s.loopLevel f kind) (s.loopPreds f kind) := fun hclean hend =>
    ⟨fun hout => loopOp_traps_outside hexec hclean hend (houtside.1 hout), fun hout =>
      have hin : s.loopOutside f = false := Bool.eq_false_iff.2 (mt houtside.2 hout)
      ⟨loopOp_skips hexec hclean hend hin, loopOp_no_level hexec hclean hend hin, fun _ htrips hfree =>
        ⟨fun hb => loopOp_bound hexec hclean hend hin htrips hfree (hbounded.1 hb),
          fun hle => loopOp_enters hexec hclean hend hin htrips hfree fun hkind => hle (hbounded.2 hkind)⟩⟩⟩
  have hcloses {i : Instr} {kind : BitVec 2} (hexec : exec i s = loopOp i f kind s) : closes i :=
    fun _ _ hclean hend hinner => loopTraps_at_end hexec hclean hend hinner
  exact ⟨henters (kind := 1) (exec_loop f s) (by decide), henters (kind := 2) (exec_loopW f s) (by decide),
    henters (kind := 3) (exec_loopSp f s) (by decide), hcloses (exec_loop f s), hcloses (exec_loopW f s), hcloses (exec_loopSp f s)⟩

end Sys2Proof
end

section
/-! SUPPORT. The other operations of the B slot (R131 to R138, R389) and the completion traps of ECALL and EBREAK (R116, R384). -/

namespace Sys2Proof.Machine

open Host (Outcome)

section Operations

variable {s : State}

/-! ### WAIT to HALT (R131 to R137) -/

theorem exec_setfmt_clean {acc : Acc} {rm : Rm} (hclean : Clean s (.setfmt acc rm)) : exec (.setfmt acc rm) s =
    .next (s.setCur { s.cur with t := { s.cur.t with shadow := some { acc := acc, rm := rm, rem := 5 } } }) := by
  rw [exec_setfmt, execSetfmt, branchOp_clean hclean]

/-- An address of a literal: below 2^48 and on a word (R133). -/
theorem litset_legal_iff (v : DWord) : (fld v 48 16 ≠ 0 ∨ fld v 0 2 ≠ 0) ↔ ¬(v.toNat < 2 ^ 48 ∧ v.toNat % 4 = 0) := by
  have hlt : v.toNat < 2 ^ 64 := v.isLt
  rw [ne_eq, ne_eq, ← BitVec.toNat_inj, ← BitVec.toNat_inj, BitVec.extractLsb'_toNat, BitVec.extractLsb'_toNat,
    Nat.shiftRight_eq_div_pow, Nat.shiftRight_eq_div_pow]
  simp only [BitVec.ofNat_eq_ofNat, BitVec.toNat_ofNat]
  omega

theorem exec_litset_clean {r : XReg} (hclean : Clean s (.litset r)) : exec (.litset r) s =
    if (s.cur.rx r).toNat < 2 ^ 48 ∧ (s.cur.rx r).toNat % 4 = 0 then
      .next (s.setCur (s.cur.push (mkPend .b 1 (.mpc ((s.cur.rx r).setWidth 48)))))
    else s.trap 0x06 (s.cur.rx r) := by
  rw [exec_litset, execLitset, branchOp_clean hclean]
  simp only [litset_legal_iff, ite_not]

theorem exec_iinv_zero (hclean : Clean s (.iinv 0)) : exec (.iinv 0) s =
    .next (s.setCur (s.cur.dropSegs (fun g => some g != (s.segOf s.cur s.cur.k.pc.toNat).map (·.num)))) := by
  rw [exec_iinv, execIinv, branchOp_clean hclean]
  rfl

section Iinv

variable {r : XReg} (hclean : Clean s (.iinv r)) (hr : r ≠ 0)
include hclean hr

theorem exec_iinv_outside (hout : s.cur.inArena (s.cur.rx r).toNat = false) : exec (.iinv r) s = s.trap 0x05 (s.cur.rx r) := by
  rw [exec_iinv, execIinv, branchOp_clean hclean, if_neg hr]
  simp only [hout, Bool.not_false, if_true]

theorem exec_iinv_segment {g : Seg} (hin : s.cur.inArena (s.cur.rx r).toNat = true) (hseg : s.segOf s.cur (s.cur.rx r).toNat = some g) :
    exec (.iinv r) s = .next (s.setCur (s.cur.dropSegs (· == g.num))) := by
  rw [exec_iinv, execIinv, branchOp_clean hclean, if_neg hr]
  simp only [hin, hseg, Bool.not_true, Bool.false_eq_true, if_false]

end Iinv

theorem exec_sstep_clean (hclean : Clean s .sstep) : exec .sstep s =
    if s.cur.bank.isSome then s.trap 0x66 0
    else .next (s.setCur { s.cur with sstep := true, superstep := s.cur.superstep + 1 }) := by
  rw [exec_sstep, execSstep, branchOp_clean hclean]

theorem exec_yield_clean (hclean : Clean s .yield) : exec .yield s =
    if s.atEnd then s.structTrap else .next (s.setCur { s.cur with yielding := true }) := by
  rw [exec_yield, execYield, branchOp_clean hclean]

theorem exec_halt_clean (hclean : Clean s .halt) : exec .halt s =
    .next { s.setCur { s.cur with mode := .halting } with iss := { s.iss with closed := true } } := by
  rw [exec_halt, execHalt, branchOp_clean hclean]

/-! ### TRAP and TRET (R138, R389) -/

theorem exec_trap_clean {code : BitVec 8} (hclean : Clean s (.trap code)) : exec (.trap code) s =
    if s.atEnd then s.structTrap else s.complete 0x0B (code.setWidth 64) .b := by
  rw [exec_trap, execTrap, branchOp_clean hclean]

theorem exec_tret_at_end (hclean : Clean s .tret) (hend : s.atEnd = true) : exec .tret s = s.structTrap := by
  rw [exec_tret, execTret, branchOp_clean hclean, hend]
  rfl

section Tret

variable (hclean : Clean s .tret) (hend : s.atEnd = false)
include hclean hend

theorem tret_traps {cause : BitVec 8} {tval : DWord} (hfail : s.tretFail s.cur = some ⟨cause, tval⟩) : Traps s .tret cause tval := by
  rw [Traps, exec_tret, execTret, branchOp_clean hclean, hend, hfail]
  rfl

theorem tret_drains (hpass : s.tretFail s.cur = none) :
    FallsThrough s .tret { s.cur with tretDrain := some (s.cur.tr.pc, s.cur.tr.elem) } := by
  refine fallsThrough_of_closed ?_
  rw [exec_tret, execTret, branchOp_clean hclean, hend, hpass]
  rfl

end Tret

/-! ### The checks of a return, in order (R389) -/

theorem tretFail_outside (hbank : s.cur.bank = none) : s.tretFail s.cur = some ⟨0x01, (encode .tret).getD 0⟩ := by
  rw [State.tretFail, hbank]

section Bank

variable {b : Bank} (hbank : s.cur.bank = some b)
include hbank

theorem tretFail_loops (hloops : b.loops < s.cur.activeLoops) : s.tretFail s.cur = some ⟨0x63, 0⟩ := by
  rw [State.tretFail, hbank]
  exact if_pos hloops

variable (hloops : s.cur.activeLoops ≤ b.loops)
include hloops

theorem tretFail_bound (hout : s.cur.inArena s.cur.tr.pc.toNat = false ∨ s.cur.tr.pc.toNat % 4 ≠ 0) :
    s.tretFail s.cur = some ⟨0x05, s.cur.tr.pc.setWidth 64⟩ := by
  rw [State.tretFail, hbank]
  simp only [if_neg (Nat.not_lt.2 hloops), Bool.not_eq_true', if_pos hout]

variable (hin : s.cur.inArena s.cur.tr.pc.toNat = true) (halign : s.cur.tr.pc.toNat % 4 = 0)
include hin halign

theorem tretFail_start : s.tretFail s.cur =
    if s.maskBit s.iss.core s.cur.tr.pc.toNat 0 then none else some ⟨0x04, s.cur.tr.pc.setWidth 64⟩ := by
  rw [State.tretFail, hbank]
  simp only [if_neg (Nat.not_lt.2 hloops), hin, halign, Bool.not_true, Bool.false_eq_true, ne_eq, not_true_eq_false, or_false, if_false]
  cases s.maskBit s.iss.core s.cur.tr.pc.toNat 0 <;> rfl

end Bank

end Operations

end Sys2Proof.Machine

namespace Sys2Proof

open Sys2Proof.Machine

/-- Settles O9: each operation is one change of the acting core, or the trap of its one check. -/
theorem waitFormatHalt : Obligations.WaitFormatHalt := by
  unfold Obligations.WaitFormatHalt
  intro s w acc rm r c v dropped
  refine ⟨fun hclean => ?_, fun hclean => fallsThrough_of_setCur (exec_setfmt_clean hclean),
    fun hclean => ⟨fun hlegal => fallsThrough_of_setCur ((exec_litset_clean hclean).trans (if_pos hlegal)),
      fun hbad => (exec_litset_clean hclean).trans (if_neg hbad)⟩,
    fun hclean hr => ?_,
    fun hclean hr => ⟨exec_iinv_outside hclean hr, fun g hin hseg => fallsThrough_of_setCur (exec_iinv_segment hclean hr hin hseg)⟩,
    fun hclean => ⟨fun hbank => fallsThrough_of_setCur ((exec_sstep_clean hclean).trans (if_neg (Option.not_isSome_iff_eq_none.2 hbank))),
      fun hbank => (exec_sstep_clean hclean).trans (if_pos (Option.isSome_iff_ne_none.2 hbank))⟩,
    fun hclean hend => fallsThrough_of_setCur ?_, fun k l hclean hend hinner => loopTraps_of_structTrap ?_ hinner,
    fun hclean => fallsThrough_of_closed (exec_halt_clean hclean)⟩
  · rw [exec_wait, execWait, branchOp_clean hclean]
  · subst hr
    exact fallsThrough_of_setCur (exec_iinv_zero hclean)
  · rw [exec_yield_clean hclean, hend]
    rfl
  · rw [exec_yield_clean hclean, hend]
    rfl

/-- Settles O10: the completion traps are taken of the bundle that follows; a return's checks come in their order. -/
theorem trapsAndReturn : Obligations.TrapsAndReturn := by
  unfold Obligations.TrapsAndReturn
  refine ⟨fun s code => ?_, fun s hclean hend => ?_⟩
  · intro follow ended tr
    refine ⟨rfl, rfl, fun hclean hend => ?_, fun k l hend hinner => ⟨fun hclean => loopTraps_of_structTrap ?_ hinner,
      fun hclean => loopTraps_of_structTrap (exec_tret_at_end hclean hend) hinner⟩⟩
    · rw [exec_trap_clean hclean, hend]
      rfl
    · rw [exec_trap_clean hclean, hend]
      rfl
  · intro c pc
    refine ⟨fun hbank => tret_traps hclean hend (tretFail_outside hbank), fun b hbank =>
      ⟨fun hloops => tret_traps hclean hend (tretFail_loops hbank hloops),
        fun hloops hout => tret_traps hclean hend (tretFail_bound hbank hloops hout), fun hloops hin halign => ?_⟩⟩
    have hstart := tretFail_start hbank hloops hin halign
    refine ⟨fun hmask => tret_traps hclean hend ?_, fun hmask => tret_drains hclean hend ?_⟩
    · rw [hstart, if_neg (Bool.eq_false_iff.1 hmask)]
    · rw [hstart, if_pos hmask]

end Sys2Proof
end

section
/-! SUPPORT. Writing back (R253, R254, R341, R427): which granules of memory a write-back can reach, and what the going of a cluster's lines
leaves of every core. -/

namespace Sys2Proof.Machine

/-! ### Memory that no write-back reaches -/

/-- The three parts of memory are the same. -/
def SameMemory (s t : State) : Prop := t.mem = s.mem ∧ t.tags = s.tags ∧ t.marks = s.marks

theorem SameMemory.refl (s : State) : SameMemory s s := ⟨rfl, rfl, rfl⟩

theorem SameMemory.trans {s t u : State} (h : SameMemory s t) (h' : SameMemory t u) : SameMemory s u :=
  ⟨h'.1.trans h.1, h'.2.1.trans h.2.1, h'.2.2.trans h.2.2⟩

theorem SameMemory.foldl {α : Type} {f : State → α → State} (hf : ∀ s a, SameMemory s (f s a)) (l : List α) (s : State) :
    SameMemory s (l.foldl f s) := by
  induction l generalizing s with
  | nil => exact .refl s
  | cons a t ih => exact (hf s a).trans (ih _)

theorem OnlyBanks.sameMemory {s t : State} (h : OnlyBanks s t) : SameMemory s t := h.onlyDevice.memory

theorem SameMemory.keeps {s t : State} (h : SameMemory s t) (owes : Nat → Bool) : KeepsMemory s t owes := by
  obtain ⟨hmem, htags, hmarks⟩ := h
  exact fun a _ => ⟨congrArg (Memory.read · a) hmem, by rw [htags], by rw [hmarks]⟩

theorem KeepsMemory.mono {s t : State} {owes owes' : Nat → Bool} (h : KeepsMemory s t owes)
    (hle : ∀ k, owes k = true → owes' k = true) : KeepsMemory s t owes' :=
  fun a ha => h a fun k hk => Bool.eq_false_iff.2 fun howes => Bool.eq_false_iff.1 (ha k hk) (hle k howes)

/-- What comes before or after and leaves memory as it is. -/
theorem KeepsMemory.of_same {s s' t t' : State} {owes : Nat → Bool} (h : KeepsMemory s' t' owes) (hbefore : SameMemory s s')
    (hafter : SameMemory t' t) : KeepsMemory s t owes := by
  obtain ⟨hmem, htags, hmarks⟩ := hbefore
  obtain ⟨hmem', htags', hmarks'⟩ := hafter
  intro a ha
  obtain ⟨hbyte, htag, hmark⟩ := h a ha
  refine ⟨?_, by rw [htags', htag, htags], by rw [hmarks', hmark, hmarks]⟩
  rw [State.byte, hmem', State.byte, ← hmem]
  exact hbyte

theorem State.refuseStore_sameMemory (s : State) (n : Nat) (a : Access) (v : Verdict) (key : Nat) :
    SameMemory s (s.refuseStore n a v key) := by
  unfold State.refuseStore
  extract_lets s1
  have h1 : SameMemory s s1 := (s.countDenial_onlyBanks ..).sameMemory
  split
  · exact h1
  · exact h1.trans ⟨rfl, rfl, rfl⟩

theorem State.failOwed_sameMemory (s : State) (clu : Nat) (l : CLine) : SameMemory s (s.failOwed clu l) := by
  unfold State.failOwed
  extract_lets hits owners
  exact SameMemory.foldl (fun s e => s.refuseStore_sameMemory ..) owners s

theorem State.cleanL1_sameMemory (s : State) (sel : Nat → CLine → Bool) : SameMemory s (s.cleanL1 sel) := by
  unfold State.cleanL1
  extract_lets
  split <;> exact ⟨rfl, rfl, rfl⟩

theorem State.mapLines_sameMemory (s : State) (clus : Nat → Bool) (g : CLine → Option CLine) : SameMemory s (s.mapLines clus g) :=
  ⟨rfl, rfl, rfl⟩

/-- The lines that a write-back chooses, with what the L1s have given them. -/
def State.chosenLines (s : State) (sel : Nat → CLine → Bool) : List (Nat × CLine) :=
  (s.cleanL1 (fun n l => sel (clusterOf n) l)).dev.ms.lines.filter (fun e => sel e.1 e.2)

/-- The bytes that it brings home: those of the chosen lines whose link is open. -/
def State.broughtHome (s : State) (sel : Nat → CLine → Bool) : List (Nat × Byte) :=
  ((s.chosenLines sel).filter (fun e => (s.cleanL1 (fun n l => sel (clusterOf n) l)).lineOpen e.2)).flatMap (fun e => e.2.owing)

theorem State.storeEach_tags (s : State) (bytes : List (Nat × Byte)) :
    (s.storeEach bytes).tags = (bytes.map fun b => granule b.1).foldl KeySet.del s.tags ∧ (s.storeEach bytes).marks = s.marks := by
  induction bytes generalizing s with
  | nil => exact ⟨rfl, rfl⟩
  | cons b t ih => exact ih _

theorem State.writeBytes_tags_marks (s : State) (bytes : List (Nat × Byte)) :
    (s.writeBytes bytes).tags = (bytes.map fun b => granule b.1).foldl KeySet.del s.tags ∧
      (s.writeBytes bytes).marks = (coveredGranules (bytes.map (·.1))).foldl KeySet.del s.marks := by
  obtain ⟨htags, hmarks⟩ := s.storeEach_tags bytes
  exact ⟨htags, by rw [← hmarks]; rfl⟩

theorem State.storeRels_sameMemory (s : State) (keys : List Nat) (rel : Option Rel) : SameMemory s (s.storeRels keys rel) :=
  ⟨rfl, rfl, rfl⟩

/-- A write-back clears tags and marks as a write of what it brings home does, and brings the marks of the chosen lines (R253, R427). -/
theorem State.clean_tags_marks (s : State) (sel : Nat → CLine → Bool) :
    (s.clean sel).tags = ((s.broughtHome sel).map fun b => granule b.1).foldl KeySet.del s.tags ∧
      (s.clean sel).marks = ((s.chosenLines sel).flatMap fun e => e.2.owingMarks).foldl KeySet.add
        ((coveredGranules ((s.broughtHome sel).map (·.1))).foldl KeySet.del s.marks) := by
  unfold State.clean
  extract_lets s1 chosen owed shut marks s2 s3 s4
  obtain ⟨-, htags1, hmarks1⟩ := s.cleanL1_sameMemory (fun n l => sel (clusterOf n) l)
  have h2 : s2.tags = (owed.map fun b => granule b.1).foldl KeySet.del s.tags ∧
      s2.marks = (coveredGranules (owed.map (·.1))).foldl KeySet.del s.marks := by
    simp only [s2]
    split
    · next hnil =>
      rw [List.isEmpty_iff.1 hnil]
      exact ⟨htags1, hmarks1⟩
    · obtain ⟨htags, hmarks⟩ := s1.writeBytes_tags_marks owed
      obtain ⟨-, htagsR, hmarksR⟩ := (s1.writeBytes owed).storeRels_sameMemory (owed.map (·.1)) none
      rw [htagsR, hmarksR, htags, hmarks, htags1, hmarks1]
      exact ⟨rfl, rfl⟩
  have h3 : s3.tags = s2.tags ∧ s3.marks = marks.foldl KeySet.add s2.marks := by
    simp only [s3]
    split
    · next hnil =>
      rw [List.isEmpty_iff.1 hnil]
      exact ⟨rfl, rfl⟩
    · exact ⟨rfl, rfl⟩
  obtain ⟨-, htags4, hmarks4⟩ : SameMemory s3 s4 :=
    SameMemory.foldl (fun s e => (s.failOwed_sameMemory ..).trans (State.mapLines_sameMemory ..)) shut s3
  exact ⟨htags4.trans (h3.1.trans h2.1), hmarks4.trans (h3.2.trans (by rw [h2.2]; rfl))⟩

/-- A slice's line takes the marks of an L1's line of its own place. -/
def CLine.takeMarks (clu : Nat) (l : CLine) (e : Nat × CLine) : CLine :=
  if e.1 = clu ∧ e.2.key = l.key then { l with marks := l.marks ||| e.2.marks, dirty := true } else l

theorem CLine.marksGranule_or {l : CLine} {m : BitVec 8} {dirty : Bool} {g : Nat}
    (h : CLine.marksGranule { l with marks := l.marks ||| m, dirty := dirty } g = true) :
    l.marksGranule g = true ∨ CLine.marksGranule { l with marks := m } g = true := by
  obtain ⟨i, hi, hbit⟩ := List.any_eq_true.1 h
  obtain ⟨hmark, hgran⟩ := Bool.and_eq_true_iff.1 hbit
  rw [bit, BitVec.getLsbD_or, Bool.or_eq_true] at hmark
  exact hmark.imp (fun hmark => List.any_eq_true.2 ⟨i, hi, Bool.and_eq_true_iff.2 ⟨hmark, hgran⟩⟩)
    fun hmark => List.any_eq_true.2 ⟨i, hi, Bool.and_eq_true_iff.2 ⟨hmark, hgran⟩⟩

/-- Of the line only its marks, and that it is dirty, change; each mark is its own or one that it takes. -/
theorem CLine.foldl_takeMarks (clu : Nat) (gone : List (Nat × CLine)) (l : CLine) :
    (∃ marks dirty, gone.foldl (CLine.takeMarks clu) l = { l with marks := marks, dirty := dirty }) ∧
      ∀ g, (gone.foldl (CLine.takeMarks clu) l).marksGranule g = true →
        l.marksGranule g = true ∨ ∃ x ∈ gone, x.1 = clu ∧ x.2.marksGranule g = true := by
  induction gone generalizing l with
  | nil => exact ⟨⟨l.marks, l.dirty, rfl⟩, fun g hg => .inl hg⟩
  | cons x t ih =>
    have hlater {g : Nat} : (∃ y ∈ t, y.1 = clu ∧ y.2.marksGranule g = true) →
        ∃ y ∈ x :: t, y.1 = clu ∧ y.2.marksGranule g = true :=
      fun ⟨y, hy, hyg⟩ => ⟨y, List.mem_cons_of_mem _ hy, hyg⟩
    obtain ⟨⟨marks, dirty, hsame⟩, hmarks⟩ := ih (CLine.takeMarks clu l x)
    rw [List.foldl_cons]
    by_cases hx : x.1 = clu ∧ x.2.key = l.key
    · have htake : CLine.takeMarks clu l x = { l with marks := l.marks ||| x.2.marks, dirty := true } := if_pos hx
      rw [htake] at hsame hmarks ⊢
      refine ⟨⟨marks, dirty, hsame⟩, fun g hg => ?_⟩
      rcases hmarks g hg with hl | hlast
      · refine (CLine.marksGranule_or hl).imp_right fun hg' => ⟨x, List.mem_cons_self, hx.1, ?_⟩
        rw [CLine.marksGranule, hx.2]
        exact hg'
      · exact .inr (hlater hlast)
    · have htake : CLine.takeMarks clu l x = l := if_neg hx
      rw [htake] at hsame hmarks ⊢
      exact ⟨⟨marks, dirty, hsame⟩, fun g hg => (hmarks g hg).imp_right hlater⟩

/-- A slice's line after the L1s have given it their marks: it owes what it owed, and a mark of it is its own or one of an L1. -/
theorem State.mem_cleanL1_lines_marks {s : State} {sel : Nat → CLine → Bool} {e : Nat × CLine}
    (he : e ∈ (s.cleanL1 sel).dev.ms.lines) :
    ∃ l, (e.1, l) ∈ s.dev.ms.lines ∧ (∃ marks dirty, e.2 = { l with marks := marks, dirty := dirty }) ∧
      ∀ g, e.2.marksGranule g = true → l.marksGranule g = true ∨
        ∃ d ∈ s.cores, clusterOf d.1 = e.1 ∧ d.2.m.l1.any (·.marksGranule g) = true := by
  unfold State.cleanL1 at he
  extract_lets gone s1 at he
  split at he
  · exact ⟨e.2, he, ⟨e.2.marks, e.2.dirty, rfl⟩, fun g hg => .inl hg⟩
  · obtain ⟨⟨c, l⟩, hl, rfl⟩ := List.mem_map.1 he
    obtain ⟨hsame, hmarks⟩ := CLine.foldl_takeMarks c gone l
    refine ⟨l, hl, hsame, fun g hg => (hmarks g hg).imp_right fun ⟨x, hx, hxc, hxg⟩ => ?_⟩
    obtain ⟨d, hd, hxd⟩ := List.mem_flatMap.1 hx
    obtain ⟨m, hm, rfl⟩ := List.mem_map.1 hxd
    exact ⟨d, hd, hxc, List.any_eq_true.2 ⟨m, (List.mem_filter.1 hm).1, hxg⟩⟩

theorem CLine.marksGranule_of_owingMarks {l : CLine} {g : Nat} (h : g ∈ l.owingMarks) : l.marksGranule g = true := by
  unfold CLine.owingMarks at h
  split at h
  · obtain ⟨i, hi, rfl⟩ := List.mem_map.1 h
    obtain ⟨hrange, hbit⟩ := List.mem_filter.1 hi
    exact List.any_eq_true.2 ⟨i, hrange, by rw [hbit, Bool.true_and, beq_iff_eq]⟩
  · cases h

section Granule

variable {s : State} {clu g : Nat} (hfree : ∀ k, k / 32 = g → s.owedBy clu k = false) {sel : Nat → CLine → Bool}
  (hsel : ∀ c l, sel c l = true → c = clu)
include hfree hsel

theorem State.not_mem_owingMarks_of_free : g ∉ (s.chosenLines sel).flatMap fun e => e.2.owingMarks := by
  intro hg
  obtain ⟨e, he, hge⟩ := List.mem_flatMap.1 hg
  obtain ⟨hmem, hsel'⟩ := List.mem_filter.1 he
  have hclu : e.1 = clu := hsel _ _ hsel'
  obtain ⟨l, hl, -, hmarks⟩ := State.mem_cleanL1_lines_marks hmem
  have hgran : 32 * g / 32 = g := by omega
  refine Bool.eq_false_iff.1 (hfree (32 * g) hgran) (Bool.or_eq_true_iff.2 ?_)
  rw [hgran]
  rcases hmarks g (CLine.marksGranule_of_owingMarks hge) with hline | ⟨d, hd, hdc, hdl⟩
  · refine .inl (List.any_eq_true.2 ⟨_, hl, ?_⟩)
    simp only [hclu, beq_self_eq_true, Bool.true_and, hline, Bool.or_true]
  · refine .inr (List.any_eq_true.2 ⟨d, hd, ?_⟩)
    rw [hdc, hclu, hdl, beq_self_eq_true]
    rfl

theorem State.granule_ne_of_free {b : Nat × Byte} (hb : b ∈ s.broughtHome sel) : granule b.1 ≠ g := by
  intro hg
  obtain ⟨e, he, hbe⟩ := List.mem_flatMap.1 hb
  obtain ⟨hmem, hsel'⟩ := List.mem_filter.1 (List.mem_filter.1 he).1
  obtain ⟨l, hl, -, howing⟩ := State.mem_cleanL1_lines hmem
  exact State.owing_ne_of_owedBy (hfree b.1 hg) hl (hsel _ _ hsel') b (howing ▸ hbe) rfl

end Granule

theorem mem_coveredGranules {keys : List Nat} {g : Nat} (h : g ∈ coveredGranules keys) : ∃ k ∈ keys, granule k = g :=
  List.mem_map.1 (List.mem_dedup.1 (List.mem_filter.1 h).1)

theorem KeySet.has_foldl_add {l : List Nat} (ks : List Nat) (h : KeySet.wf l = true) (j : Nat) :
    KeySet.has (ks.foldl KeySet.add l) j = (ks.contains j || KeySet.has l j) := by
  induction ks generalizing l with
  | nil => rfl
  | cons k ks ih =>
    rw [List.foldl_cons, ih (KeySet.add_wf k h), KeySet.has_add h, List.contains_cons, ← Bool.or_assoc, Bool.or_comm (ks.contains j)]

/-- A write-back of lines of one cluster reaches only granules of which that cluster owes a byte or a mark. -/
theorem State.clean_keepsMemory {s : State} (hs : s.Ok) {clu : Nat} {sel : Nat → CLine → Bool}
    (hsel : ∀ c l, sel c l = true → c = clu) : KeepsMemory s (s.clean sel) (s.owedBy clu) := by
  intro a hfree
  obtain ⟨htags, hmarks⟩ := s.clean_tags_marks sel
  have hgran (b : Nat × Byte) (hb : b ∈ s.broughtHome sel) : granule b.1 ≠ a / 32 := State.granule_ne_of_free hfree hsel hb
  have hnotag : ((s.broughtHome sel).map fun b => granule b.1).contains (a / 32) = false := by
    rw [Bool.eq_false_iff, ne_eq, List.contains_iff_mem, List.mem_map]
    exact fun ⟨b, hb, hba⟩ => hgran b hb hba
  have hnocover : (coveredGranules ((s.broughtHome sel).map (·.1))).contains (a / 32) = false := by
    rw [Bool.eq_false_iff, ne_eq, List.contains_iff_mem]
    intro h
    obtain ⟨k, hk, hka⟩ := mem_coveredGranules h
    obtain ⟨b, hb, rfl⟩ := List.mem_map.1 hk
    exact hgran b hb hka
  have hnomark : ((s.chosenLines sel).flatMap fun e => e.2.owingMarks).contains (a / 32) = false := by
    rw [Bool.eq_false_iff, ne_eq, List.contains_iff_mem]
    exact State.not_mem_owingMarks_of_free hfree hsel
  refine ⟨?_, ?_, ?_⟩
  · refine State.clean_byte hs.1 fun e he hsel' => ?_
    obtain ⟨l, hl, -, howing⟩ := State.mem_cleanL1_lines he
    rw [← howing]
    exact State.owing_ne_of_owedBy (hfree a rfl) hl (hsel _ _ hsel')
  · rw [htags, KeySet.has_foldl_del _ hs.2.1, hnotag]
    rfl
  · rw [hmarks, KeySet.has_foldl_add _ (KeySet.foldl_del_wf _ hs.2.2.1), KeySet.has_foldl_del _ hs.2.2.1,
      hnocover, hnomark]
    rfl

theorem State.dropWhere_keepsMemory {s : State} (hs : s.Ok) (clu : Nat) (p : Nat → Bool) :
    KeepsMemory s (s.dropWhere (· == clu) p) (s.owedBy clu) := by
  have hsel : ∀ c (l : CLine), ((c == clu) && p l.key) = true → c = clu := fun c l h => beq_iff_eq.1 (Bool.and_eq_true_iff.1 h).1
  rw [State.dropWhere]
  exact (State.clean_keepsMemory hs hsel).of_same (.refl s) (State.mapLines_sameMemory ..)

theorem lookupD_mem_at {α : Type} (d : α) (l : List (Nat × α)) (n : Nat) : lookupD d l n = d ∨ (n, lookupD d l n) ∈ l := by
  induction l with
  | nil => exact .inl rfl
  | cons b t ih =>
    rw [lookupD]
    split
    · next hn => exact .inr (hn ▸ List.mem_cons_self)
    · split
      · exact .inl rfl
      · exact ih.imp_right (List.mem_cons_of_mem _)

/-- What a cluster owes is the same after a change of a core that keeps its L1. -/
theorem State.owedBy_setCore {s : State} {n : Nat} {c : Core} (hl1 : c.m.l1 = (s.core n).m.l1) {clu a : Nat}
    (h : (s.setCore n c).owedBy clu a = true) : s.owedBy clu a = true := by
  refine Bool.or_eq_true_iff.2 ((Bool.or_eq_true_iff.1 h).imp_right fun hcore => ?_)
  obtain ⟨e, he, hany⟩ := List.any_eq_true.1 hcore
  rcases mem_insertAt he with rfl | hmem
  · rw [hl1] at hany
    rcases lookupD_mem_at .idle s.cores n with hidle | hmem
    · rw [State.core, hidle] at hany
      simp [Core.idle, MemSide.empty] at hany
    · exact List.any_eq_true.2 ⟨_, hmem, hany⟩
  · exact List.any_eq_true.2 ⟨e, hmem, hany⟩

end Sys2Proof.Machine
end

section
/-! SUPPORT. What the going of a cluster's lines leaves of every core: all but its L1, where no write-back is refused; a refusal is a
deferred trap (R253, R254, R423). -/

namespace Sys2Proof.Machine

/-- Core `d` is `c` but for its L1, its outstanding accesses and its deferred traps; where it is `quiet`, these two too are the same. -/
structure KeepsTask (quiet : Prop) (c d : Core) : Prop where
  rest : d = { c with m := { c.m with l1 := d.m.l1, accs := d.m.accs }, deferred := d.deferred }
  silent : quiet → d.m.accs = c.m.accs ∧ d.deferred = c.deferred

/-- The issue stays, and of every core its task. -/
def KeepsTasks (quiet : Prop) (s t : State) : Prop := t.iss = s.iss ∧ ∀ m, KeepsTask quiet (s.core m) (t.core m)

section Relation

variable {quiet : Prop}

theorem KeepsTask.refl (c : Core) : KeepsTask quiet c c := ⟨rfl, fun _ => ⟨rfl, rfl⟩⟩

theorem KeepsTask.trans {a b c : Core} (h : KeepsTask quiet a b) (h' : KeepsTask quiet b c) : KeepsTask quiet a c := by
  obtain ⟨hrest, hsilent⟩ := h
  obtain ⟨hrest', hsilent'⟩ := h'
  refine ⟨?_, fun hq => ⟨(hsilent' hq).1.trans (hsilent hq).1, (hsilent' hq).2.trans (hsilent hq).2⟩⟩
  rw [hrest', hrest]

/-- Another L1 is no change of the task. -/
theorem KeepsTask.l1 (c : Core) (l1 : List CLine) : KeepsTask quiet c { c with m := { c.m with l1 := l1 } } := ⟨rfl, fun _ => ⟨rfl, rfl⟩⟩

theorem KeepsTasks.refl (s : State) : KeepsTasks quiet s s := ⟨rfl, fun _ => .refl _⟩

theorem KeepsTasks.trans {s t u : State} (h : KeepsTasks quiet s t) (h' : KeepsTasks quiet t u) : KeepsTasks quiet s u :=
  ⟨h'.1.trans h.1, fun m => (h.2 m).trans (h'.2 m)⟩

theorem KeepsTasks.of_eq {s t : State} (hiss : t.iss = s.iss) (hcores : t.cores = s.cores) : KeepsTasks quiet s t :=
  ⟨hiss, fun m => by rw [State.core, State.core, hcores]; exact .refl _⟩

theorem OnlyDevice.keepsTasks {s t : State} (h : OnlyDevice s t) : KeepsTasks quiet s t := by
  obtain ⟨_, rfl⟩ := h
  exact .of_eq rfl rfl

theorem State.setCore_keepsTasks {s : State} {n : Nat} {c : Core} (h : KeepsTask quiet (s.core n) c) :
    KeepsTasks quiet s (s.setCore n c) := by
  refine ⟨rfl, fun m => ?_⟩
  by_cases hm : m = n
  · subst hm
    rwa [State.core_setCore_same]
  · rw [State.core_setCore_other _ _ hm]
    exact .refl _

theorem KeepsTasks.ite {p : Prop} [Decidable p] {s t u : State} (ht : KeepsTasks quiet s t) (hu : KeepsTasks quiet s u) :
    KeepsTasks quiet s (if p then t else u) := by
  split
  · exact ht
  · exact hu

theorem KeepsTasks.foldl {α : Type} {f : State → α → State} (hf : ∀ s a, KeepsTasks quiet s (f s a)) (l : List α) (s : State) :
    KeepsTasks quiet s (l.foldl f s) := by
  induction l generalizing s with
  | nil => exact .refl s
  | cons a t ih => exact (hf s a).trans (ih _)

theorem KeepsTasks.of_map {s t : State} (hiss : t.iss = s.iss) {f : Nat → Core → Core} (hf : ∀ n c, KeepsTask quiet c (f n c))
    (hcores : t.cores = s.cores.map (fun e => (e.1, f e.1 e.2))) : KeepsTasks quiet s t :=
  ⟨hiss, fun m => by rw [State.core, State.core, hcores]; exact lookupD_map_rel (.refl _) hf _ m⟩

/-! ### The going of lines -/

theorem State.cleanL1_keepsTasks (s : State) (sel : Nat → CLine → Bool) : KeepsTasks quiet s (s.cleanL1 sel) := by
  unfold State.cleanL1
  extract_lets gone
  exact .ite (.refl s) (.of_map (f := fun n c =>
    { c with m := { c.m with l1 := c.m.l1.map (fun l => if l.dirty && sel n l then l.cleaned else l) } }) rfl (fun _ c => .l1 c _) rfl)

/-- What a change of some clusters' lines makes of the L1 of core n. -/
def Core.mapL1 (clus : Nat → Bool) (g : CLine → Option CLine) (n : Nat) (c : Core) : Core :=
  if clus (clusterOf n) then { c with m := { c.m with l1 := c.m.l1.filterMap g } } else c

theorem Core.mapL1_idle (clus : Nat → Bool) (g : CLine → Option CLine) (n : Nat) : Core.mapL1 clus g n .idle = .idle := by
  unfold Core.mapL1
  split <;> rfl

theorem State.mapLines_keepsTasks (s : State) (clus : Nat → Bool) (g : CLine → Option CLine) :
    KeepsTasks quiet s (s.mapLines clus g) := by
  refine .of_map (f := Core.mapL1 clus g) rfl (fun _ c => ?_) rfl
  unfold Core.mapL1
  split
  · exact .l1 c _
  · exact .refl c

/-- A refusal is a deferred trap of its core. -/
theorem State.refuseStore_keepsTasks (hloud : ¬quiet) (s : State) (n : Nat) (a : Access) (v : Verdict) (key : Nat) :
    KeepsTasks quiet s (s.refuseStore n a v key) := by
  unfold State.refuseStore
  extract_lets s1
  have h1 : KeepsTasks quiet s s1 := (s.countDenial_onlyBanks ..).onlyDevice.keepsTasks
  exact .ite h1 (h1.trans (State.setCore_keepsTasks ⟨rfl, fun hq => absurd hq hloud⟩))

theorem State.failOwed_keepsTasks (hloud : ¬quiet) (s : State) (clu : Nat) (l : CLine) : KeepsTasks quiet s (s.failOwed clu l) := by
  unfold State.failOwed
  extract_lets hits owners
  exact KeepsTasks.foldl (fun s e => s.refuseStore_keepsTasks hloud ..) owners s

theorem State.cleanL1_lineOpen (s : State) (sel : Nat → CLine → Bool) (l : CLine) : (s.cleanL1 sel).lineOpen l = s.lineOpen l := by
  unfold State.cleanL1
  extract_lets
  split <;> rfl

theorem State.storeEach_cores (s : State) (bytes : List (Nat × Byte)) : (s.storeEach bytes).cores = s.cores := by
  induction bytes generalizing s with
  | nil => rfl
  | cons b t ih => exact ih _

theorem State.writeBytes_keepsTasks (s : State) (bytes : List (Nat × Byte)) : KeepsTasks quiet s (s.writeBytes bytes) :=
  .of_eq (s.writeBytes_keepsRegs bytes).1 (s.storeEach_cores bytes)

theorem State.storeRels_keepsTasks (s : State) (keys : List Nat) (rel : Option Rel) : KeepsTasks quiet s (s.storeRels keys rel) :=
  .of_eq rfl rfl

/-- A write-back where every chosen line owes nothing or has its link open, if it is to be quiet. -/
theorem State.clean_keepsTasks (s : State) {sel : Nat → CLine → Bool}
    (hquiet : quiet → ∀ e ∈ s.chosenLines sel, e.2.owing = [] ∨ s.lineOpen e.2 = true) : KeepsTasks quiet s (s.clean sel) := by
  unfold State.clean
  extract_lets s1 chosen owed shut marks s2 s3 s4
  have h1 : KeepsTasks quiet s s1 := s.cleanL1_keepsTasks _
  have h2 : KeepsTasks quiet s s2 := .ite h1 ((h1.trans (s1.writeBytes_keepsTasks owed)).trans (State.storeRels_keepsTasks ..))
  have h3 : KeepsTasks quiet s s3 := .ite h2 (h2.trans (.of_eq rfl rfl))
  have h4 : KeepsTasks quiet s3 s4 := by
    by_cases hq : quiet
    · have hshut : shut = [] := List.filter_eq_nil_iff.2 fun e he => by
        rcases hquiet hq e he with howing | hopen
        · rw [howing]
          exact Bool.false_ne_true
        · rw [show s1.lineOpen e.2 = true from (s.cleanL1_lineOpen _ e.2).trans hopen, Bool.not_true, Bool.and_false]
          exact Bool.false_ne_true
      simp only [s4, hshut, List.foldl_nil]
      exact .refl s3
    · exact KeepsTasks.foldl (fun s e => (s.failOwed_keepsTasks hq ..).trans (State.mapLines_keepsTasks ..)) shut s3
  exact (h3.trans h4).trans (.of_eq rfl rfl)

end Relation

/-- The lines of a cluster that go where the links are open that what it owes would take (R253, R423). -/
theorem State.dropWhere_keepsTasks (s : State) (clu : Nat) (p : Nat → Bool) :
    KeepsTasks (s.owesOpen clu = true) s (s.dropWhere (· == clu) p) := by
  refine (s.clean_keepsTasks fun hopen e he => ?_).trans (State.mapLines_keepsTasks ..)
  obtain ⟨hmem, hsel⟩ := List.mem_filter.1 he
  obtain ⟨l, hl, ⟨marks, dirty, hsame⟩, -⟩ := State.mem_cleanL1_lines_marks hmem
  have hclu : e.1 = clu := beq_iff_eq.1 (Bool.and_eq_true_iff.1 hsel).1
  have hline := List.all_eq_true.1 hopen _ hl
  simp only [hclu, bne_self_eq_false, Bool.false_or, Bool.or_eq_true, List.isEmpty_iff] at hline
  rw [hsame]
  exact hline

/-! ### Which lines are left -/

theorem lookupD_map {α : Type} {d : α} {f : Nat → α → α} {m : Nat} (hd : f m d = d) (l : List (Nat × α)) :
    lookupD d (l.map (fun e => (e.1, f e.1 e.2))) m = f m (lookupD d l m) := by
  induction l with
  | nil => exact hd.symm
  | cons e t ih =>
    simp only [List.map_cons, lookupD]
    split
    · next hm => rw [hm]
    · split
      · exact hd.symm
      · exact ih

section Left

variable {s : State} {clus : Nat → Bool} {g : CLine → Option CLine}

theorem State.mem_mapLines_lines {e : Nat × CLine} (he : e ∈ (s.mapLines clus g).dev.ms.lines) (hclu : clus e.1 = true) :
    ∃ l, g l = some e.2 := by
  obtain ⟨⟨c, l⟩, -, hkeep⟩ := List.mem_filterMap.1 he
  dsimp only at hkeep
  split at hkeep
  · obtain ⟨l', hl', rfl⟩ := Option.map_eq_some_iff.1 hkeep
    exact ⟨l, hl'⟩
  · next hc =>
    obtain rfl := Option.some.inj hkeep
    exact absurd hclu hc

theorem State.mapLines_core (n : Nat) : (s.mapLines clus g).core n = (s.core n).mapL1 clus g n :=
  lookupD_map (f := Core.mapL1 clus g) (Core.mapL1_idle clus g n) s.cores

variable {clu : Nat} {p : Nat → Bool}

theorem State.dropWhere_lines {e : Nat × CLine} (he : e ∈ (s.dropWhere (· == clu) p).dev.ms.lines) (hclu : e.1 = clu) :
    p e.2.key = false := by
  obtain ⟨l, hl⟩ := State.mem_mapLines_lines he (beq_iff_eq.2 hclu)
  split at hl
  · cases hl
  · next hp =>
    obtain rfl := Option.some.inj hl
    exact Bool.eq_false_iff.2 hp

theorem State.dropWhere_l1 {n : Nat} (hn : clusterOf n = clu) {l : CLine} (hl : l ∈ ((s.dropWhere (· == clu) p).core n).m.l1) :
    p l.key = false := by
  rw [State.dropWhere, State.mapLines_core, Core.mapL1, if_pos (beq_iff_eq.2 hn)] at hl
  obtain ⟨l', -, hkeep⟩ := List.mem_filterMap.1 hl
  split at hkeep
  · cases hkeep
  · next hp =>
    obtain rfl := Option.some.inj hkeep
    exact Bool.eq_false_iff.2 hp

end Left

end Sys2Proof.Machine
end

section
/-! SUPPORT. A prefetched line, an acquire and the fences that have their data (R165, R176, R254, R266, R272): what they leave of memory and
of every core. -/

namespace Sys2Proof.Machine

theorem SameMemory.ite {p : Prop} [Decidable p] {s t u : State} (ht : SameMemory s t) (hu : SameMemory s u) :
    SameMemory s (if p then t else u) := by
  split
  · exact ht
  · exact hu

/-- A slot operation over the state whose registers hold no poison ends in the state that its work gives. -/
theorem exec_slotOpS_of {s : State} {i : Instr} {k : State → Core → Except Fail State} {P : State → Prop}
    (hexec : exec i s = slotOpS i s k) (hclean : Clean s i) (hk : ∃ t, k s s.cur = .ok t ∧ P t) : ∃ t, exec i s = .next t ∧ P t := by
  obtain ⟨t, ht, hP⟩ := hk
  exact ⟨t, hexec.trans (slotOpS_clean hclean ht), hP⟩

/-! ### A line comes in (R165, R257) -/

section Fill

variable {quiet : Prop} (s : State) (n : Nat)

theorem State.evictL1_sameMemory (k : Nat) : SameMemory s (s.evictL1 n k) :=
  (s.cleanL1_sameMemory _).trans ⟨rfl, rfl, rfl⟩

theorem State.setL1_keepsTasks (l1 : List CLine) :
    KeepsTasks quiet s (s.setCore n { s.core n with m := { (s.core n).m with l1 := l1 } }) :=
  State.setCore_keepsTasks (.l1 _ _)

theorem State.evictL1_keepsTasks (k : Nat) : KeepsTasks quiet s (s.evictL1 n k) :=
  (s.cleanL1_keepsTasks _).trans (State.setL1_keepsTasks ..)

/-- A line comes into an L1 whose set is full: what the oldest holds goes to the slice, not home. -/
def State.fillL1 (clu pol k : Nat) : State :=
  if pol = 0 ∧ ((s.core n).l1Line k).isNone then
    let s := s.evictL1 n k
    let c := s.core n
    s.setCore n { c with m := { c.m with l1 := c.m.l1 ++ [((s.sliceLine clu k).getD (s.homeLine k)).cleaned] } }
  else s

theorem State.fillL1_sameMemory (clu pol k : Nat) : SameMemory s (s.fillL1 n clu pol k) :=
  .ite ((s.evictL1_sameMemory n k).trans ⟨rfl, rfl, rfl⟩) (.refl s)

theorem State.fillL1_keepsTasks (clu pol k : Nat) : KeepsTasks quiet s (s.fillL1 n clu pol k) :=
  .ite ((s.evictL1_keepsTasks n k).trans (State.setL1_keepsTasks ..)) (.refl s)

/-- The line comes into the slice, whose oldest lines go where its set is full. -/
def State.fillSlice (clu pol k : Nat) : State :=
  if (s.sliceLine clu k).isSome then s
  else
    let s := s.evict clu k
    let e := (clu, s.homeLine k)
    s.setMs { s.dev.ms with lines := if pol = 2 then e :: s.dev.ms.lines else s.dev.ms.lines ++ [e] }

theorem State.fill_eq (pol k : Nat) : s.fill n pol k =
    if !cacheable k || (pol = 3 && !farKey k) then s
    else if pol = 3 then s.dropLines (· == clusterOf n) [lineKey k]
    else if s.cacheWays (clusterOf n) = 0 then s
    else (s.fillSlice (clusterOf n) pol k).fillL1 n (clusterOf n) pol k := rfl

theorem State.fillSlice_cases (clu pol k : Nat) : s.fillSlice clu pol k = s ∨
    ∃ keys ms, s.fillSlice clu pol k = (s.dropLines (· == clu) keys).setMs ms := by
  unfold State.fillSlice
  split
  · exact .inl rfl
  · exact .inr ⟨_, _, rfl⟩

theorem State.fillSlice_keepsTasks (clu pol k : Nat) : KeepsTasks (s.owesOpen clu = true) s (s.fillSlice clu pol k) := by
  rcases s.fillSlice_cases clu pol k with h | ⟨keys, ms, h⟩ <;> rw [h]
  · exact .refl s
  · exact (s.dropWhere_keepsTasks clu keys.contains).trans (.of_eq rfl rfl)

theorem State.fill_keepsTasks (pol k : Nat) : KeepsTasks (s.owesOpen (clusterOf n) = true) s (s.fill n pol k) := by
  rw [State.fill_eq]
  exact .ite (.refl s) (.ite (s.dropWhere_keepsTasks ..)
    (.ite (.refl s) ((s.fillSlice_keepsTasks ..).trans (State.fillL1_keepsTasks ..))))

variable {s}

theorem State.fillSlice_keepsMemory (hs : s.Ok) (clu pol k : Nat) : KeepsMemory s (s.fillSlice clu pol k) (s.owedBy clu) := by
  rcases s.fillSlice_cases clu pol k with h | ⟨keys, ms, h⟩ <;> rw [h]
  · exact (SameMemory.refl s).keeps _
  · exact (State.dropWhere_keepsMemory hs clu keys.contains).of_same (.refl s) ⟨rfl, rfl, rfl⟩

theorem State.fill_keepsMemory (hs : s.Ok) (pol k : Nat) : KeepsMemory s (s.fill n pol k) (s.owedBy (clusterOf n)) := by
  rw [State.fill_eq]
  split
  · exact (SameMemory.refl s).keeps _
  split
  · exact State.dropWhere_keepsMemory hs _ _
  split
  · exact (SameMemory.refl s).keeps _
  · exact (State.fillSlice_keepsMemory hs _ _ _).of_same (.refl s) (State.fillL1_sameMemory ..)

end Fill

/-! ### A prefetch (R165, R176) -/

section Vpref

variable {s : State} {p : VprefF}

theorem State.recoded_recordTransfer_onlyDevice (s : State) (keys : List Nat) (n : Nat) (cause : BitVec 8) (misc : BitVec 64) (marks : Bool) :
    OnlyDevice s ((s.recoded keys).recordTransfer n keys cause misc marks) :=
  (s.recoded_onlyDevice keys).trans (State.recordTransfer_onlyBanks ..).onlyDevice

/-- Once the handle has passed its three checks: nothing, a counted decode error, or the line comes in. -/
theorem exec_vpref_clean (hs : s.Ok) (hclean : Clean s (.vpref p))
    (hhandle : checkHandle s.cur p.h spacesPref (BitVec.ofNat 64 (s.offset (.vpref p)).toNat) = .ok ()) :
    ∃ t, exec (.vpref p) s = .next t ∧ KeepsMemory s t s.owes ∧ KeepsTasks (s.owesOpen (clusterOf s.iss.core) = true) s t := by
  refine exec_slotOpS_of (exec_vpref p s) hclean (ok_bind hhandle ?_)
  dsimp only
  split
  · exact ⟨_, rfl, (SameMemory.refl s).keeps _, .refl s⟩
  split
  · have hcount {keys n cause misc marks} := State.recoded_recordTransfer_onlyDevice s keys n cause misc marks
    exact ⟨_, rfl, SameMemory.keeps hcount.memory _, hcount.keepsTasks⟩
  · exact ⟨_, rfl, State.fill_keepsMemory _ hs _ _, State.fill_keepsTasks ..⟩

end Vpref

/-! ### An acquire and the fences that have their data (R254, R266, R272) -/

theorem State.setCore_sameMemory (s : State) (n : Nat) (c : Core) : SameMemory s (s.setCore n c) := ⟨rfl, rfl, rfl⟩

section Acquire

variable {s : State} {n : Nat}

theorem State.discardFar_keepsMemory (hs : s.Ok) : KeepsMemory s (s.discardFar n) (s.owedBy (clusterOf n)) :=
  State.dropWhere_keepsMemory hs (clusterOf n) farKey

theorem State.discardFar_keepsTasks : KeepsTasks (s.owesOpen (clusterOf n) = true) s (s.discardFar n) :=
  State.dropWhere_keepsTasks s (clusterOf n) farKey

/-- Only an acquire at domain scope has something written back. -/
theorem State.acquire_keepsMemory (hs : s.Ok) (sc : Scope) (rels : List Rel) :
    KeepsMemory s (s.acquire n sc rels) (fun a => sc == .domain && s.owedBy (clusterOf n) a) := by
  rw [State.acquire]
  have hset : SameMemory s (s.setCore n ((s.core n).setNarrow (narrows n sc rels))) := ⟨rfl, rfl, rfl⟩
  split
  · next hsc =>
    have hs1 := State.setCore_ok n hs (Core.setNarrow_ok (narrows n sc rels) (hs.core n))
    refine ((State.discardFar_keepsMemory hs1).of_same hset (.refl _)).mono fun k hk => ?_
    rw [hsc, State.owedBy_setCore (c := (s.core n).setNarrow (narrows n sc rels)) rfl hk]
    rfl
  · exact hset.keeps _

theorem State.acquire_keepsTasks (sc : Scope) (rels : List Rel) :
    KeepsTasks (s.owesOpen (clusterOf n) = true) (s.setCore n ((s.core n).setNarrow (narrows n sc rels))) (s.acquire n sc rels) := by
  rw [State.acquire]
  exact .ite State.discardFar_keepsTasks (.refl _)

/-- A fence that acquires at domain scope is due once its loads have their data. -/
def Core.ripe (c : Core) : Bool := c.m.fences.any fun g => g.far && c.loaded g

theorem State.settleFences_unripe (h : (s.core n).ripe = false) : s.settleFences n = s.setCore n (s.core n).dropFences :=
  if_neg (Bool.eq_false_iff.1 h)

/-- Due fences are due no more, and those that order nothing are forgotten. -/
def Core.settled (c : Core) (due : FenceMark → Bool) : Core :=
  Core.dropFences { c with m := { c.m with fences := c.m.fences.map fun f => if due f then { f with far := false } else f } }

section Settled

variable (c : Core) (due : FenceMark → Bool)

@[simp] theorem Core.settled_r : (c.settled due).r = c.r := rfl
@[simp] theorem Core.settled_t : (c.settled due).t = c.t := rfl
@[simp] theorem Core.settled_c : (c.settled due).c = c.c := rfl
@[simp] theorem Core.settled_accs : (c.settled due).m.accs = c.m.accs := rfl
@[simp] theorem Core.settled_relFence : (c.settled due).m.relFence = c.m.relFence := rfl
@[simp] theorem Core.settled_l1 : (c.settled due).m.l1 = c.m.l1 := rfl

end Settled

theorem State.settleFences_ripe (h : (s.core n).ripe = true) : s.settleFences n =
    (s.discardFar n).setCore n (((s.discardFar n).core n).settled fun f => f.far && (s.core n).loaded f) :=
  if_pos h

end Acquire

end Sys2Proof.Machine
end

section
/-! SUPPORT. A value read byte by byte from the own SPAD (R165, R428): the bytes of a register value that a load puts together, and its
marks. -/

namespace Sys2Proof.Machine

/-! ### A value and its bytes -/

theorem leNat_lt (bs : List Byte) : leNat bs < 256 ^ bs.length := by
  induction bs with
  | nil => exact Nat.one_pos
  | cons b bs ih =>
    have hb : b.toNat < 256 := b.isLt
    rw [leNat, List.length_cons, Nat.pow_succ']
    omega

theorem leBytes_leNat (bs : List Byte) : leBytes bs.length (leNat bs) = bs := by
  induction bs with
  | nil => rfl
  | cons b bs ih =>
    have hb : b.toNat < 256 := b.isLt
    have hlow : BitVec.ofNat 8 (b.toNat + 256 * leNat bs) = b := by
      apply BitVec.eq_of_toNat_eq
      rw [BitVec.toNat_ofNat]
      omega
    have hrest : (b.toNat + 256 * leNat bs) / 256 = leNat bs := by omega
    rw [leNat, List.length_cons, leBytes, hlow, hrest, ih]

/-- A value of eight bytes has them. -/
theorem byteOf_leNat {bs : List Byte} (hlen : bs.length = 8) {k : Nat} (hk : k < bs.length) :
    byteOf (BitVec.ofNat 64 (leNat bs)) k = bs[k] := by
  have hval : (BitVec.ofNat 64 (leNat bs)).toNat = leNat bs := by
    have hlt := leNat_lt bs
    rw [hlen] at hlt
    exact Nat.mod_eq_of_lt hlt
  have hbytes : leBytes bs.length (BitVec.ofNat 64 (leNat bs)).toNat = bs := by rw [hval, leBytes_leNat]
  have hbyte := leBytes_byte (BitVec.ofNat 64 (leNat bs)) (n := bs.length) (i := k) (by rwa [hbytes])
  exact hbyte.symm.trans (by simp only [hbytes])

/-! ### Bytes put at places of a register value -/

/-- One byte is put at its place, with its mark. -/
def layByte (off : Nat) : Nat × List Nat → (Byte × Bool) × Nat → Nat × List Nat :=
  fun (v, ms) (b, i) => (v + b.1.toNat * 2 ^ (8 * (off + i)), if b.2 then ((off + i) / 8) :: ms else ms)

theorem foldl_layByte_value (bs : List (Byte × Bool)) (k : Nat) (acc : Nat × List Nat) :
    ((bs.zipIdx k).foldl (layByte 0) acc).1 = acc.1 + 256 ^ k * leNat (bs.map (·.1)) := by
  induction bs generalizing k acc with
  | nil => rfl
  | cons b bs ih =>
    rw [List.zipIdx_cons, List.foldl_cons, ih, List.map_cons, leNat, layByte, Nat.zero_add, Nat.pow_mul, Nat.pow_succ]
    ring

theorem foldl_layByte_marks (bs : List (Byte × Bool)) (k : Nat) (acc : Nat × List Nat) :
    ∃ new, ((bs.zipIdx k).foldl (layByte 0) acc).2 = new ++ acc.2 ∧ (new = [] ↔ bs.any (·.2) = false) ∧
      ∀ d ∈ new, d ≤ (k + bs.length) / 8 := by
  induction bs generalizing k acc with
  | nil => exact ⟨[], rfl, by simp, by simp⟩
  | cons b bs ih =>
    obtain ⟨new, hnew, hany, hle⟩ := ih (k + 1) (layByte 0 acc (b, k))
    have hle' : ∀ d ∈ new, d ≤ (k + (b :: bs).length) / 8 := fun d hd => by
      rw [List.length_cons, show k + (bs.length + 1) = k + 1 + bs.length by omega]
      exact hle d hd
    rw [List.zipIdx_cons, List.foldl_cons, hnew]
    cases hmark : b.2 with
    | false =>
      refine ⟨new, by simp [layByte, hmark], ?_, hle'⟩
      rw [hany, List.any_cons, hmark, Bool.false_or]
    | true =>
      refine ⟨new ++ [k / 8], by simp [layByte, hmark], by simp [hmark], fun d hd => ?_⟩
      rcases List.mem_append.1 hd with hd | hd
      · exact hle' d hd
      · rw [List.mem_singleton.1 hd]
        omega

theorem getLsbD_foldl_setBit_true {w : Nat} (ms : List Nat) (m : BitVec w) (k : Nat) :
    (ms.foldl (fun m d => setBit m d true) m).getLsbD k = (m.getLsbD k || (ms.contains k && decide (k < w))) := by
  induction ms generalizing m with
  | nil => simp
  | cons d ms ih =>
    rw [List.foldl_cons, ih, getLsbD_setBit, List.contains_cons]
    by_cases hd : k = d
    · by_cases hw : k < w <;> simp [hd ▸ hw, hd]
    · simp [hd, beq_eq_false_iff_ne.2 hd]

/-- Marks of places inside the register are none only where no place has one. -/
theorem foldl_setBit_ne_zero {w : Nat} {ms : List Nat} (hlt : ∀ d ∈ ms, d < w) :
    (ms.foldl (fun m d => setBit m d true) (0 : BitVec w) != 0) = !ms.isEmpty := by
  cases ms with
  | nil => exact bne_self_eq_false _
  | cons d ms =>
    rw [List.isEmpty_cons, Bool.not_false, bne_iff_ne]
    intro hzero
    have hbit := getLsbD_foldl_setBit_true (d :: ms) (0 : BitVec w) d
    rw [hzero, List.contains_cons, beq_self_eq_true, decide_eq_true (hlt d List.mem_cons_self)] at hbit
    simp at hbit

/-- Eight bytes from the first place on: a value that has them, and marks where one of them has. -/
theorem layBytes_eight (byte : Nat → Byte × Bool) :
    (∀ k, k < 8 → byteOf (BitVec.ofNat 64 (layBytes [(0, (List.range 8).map byte)]).1) k = (byte k).1) ∧
      ((layBytes [(0, (List.range 8).map byte)]).2.foldl (fun m d => setBit m d true) (0 : BitVec 16) != 0) =
        (List.range 8).any fun b => (byte b).2 := by
  have hlen : ((List.range 8).map byte).length = 8 := by rw [List.length_map, List.length_range]
  have hlay : layBytes [(0, (List.range 8).map byte)] = ((List.range 8).map byte).zipIdx.foldl (layByte 0) (0, []) := rfl
  obtain ⟨marks, hmarks, hany, hle⟩ := foldl_layByte_marks ((List.range 8).map byte) 0 (0, [])
  rw [List.append_nil] at hmarks
  rw [List.any_map] at hany
  rw [hlay, hmarks, foldl_layByte_value, Nat.zero_add, Nat.pow_zero, Nat.one_mul]
  refine ⟨fun k hk => ?_, ?_⟩
  · rw [byteOf_leNat (by rw [List.length_map, hlen]) (by rwa [List.length_map, hlen])]
    simp only [List.getElem_map, List.getElem_range]
  · rw [foldl_setBit_ne_zero fun d hd => by have := hle d hd; omega, ← Function.comp_def Prod.snd byte]
    cases hbs : (List.range 8).any (Prod.snd ∘ byte) with
    | false => rw [hany.2 hbs]; rfl
    | true =>
      rw [Bool.not_eq_true', Bool.eq_false_iff, ne_eq, List.isEmpty_iff, hany, hbs]
      exact Bool.false_ne_true.symm

/-! ### A read of eight bytes -/

section Spad

variable {s : State} {cap : Cap} (off : Nat)

/-- What such a read takes. -/
def State.spadEight (s : State) (cap : Cap) (off : Nat) : Nat × BitVec 16 := s.spadLoad cap [(0, capBase cap + off, 8)]

theorem State.spadEight_eq {byte : Nat → Byte × Bool}
    (hbyte : ∀ i, (if s.spadOk s.iss.core then s.readByte s.iss.core 3 (s.place s.iss.core cap (capBase cap + off + i))
      else (fld (Config.freeWord s.free) (8 * (s.place s.iss.core cap (capBase cap + off + i) % 128)) 8, true)) = byte i) :
    (s.spadEight cap off).1 = (layBytes [(0, (List.range 8).map byte)]).1 ∧
      (s.spadEight cap off).2 = (layBytes [(0, (List.range 8).map byte)]).2.foldl (fun m d => setBit m d true) 0 := by
  rw [← funext hbyte]
  exact ⟨rfl, rfl⟩

/-- The own SPAD's place of an address. -/
theorem State.place_spad (hspace : capSpace cap = spSpad) (n addr : Nat) : s.place n cap addr = mkey .spad n addr := by
  simp only [State.place, hspace, spSpad]

/-- An admitted read takes the bytes at its offset, with their marks. -/
theorem State.spadEight_admitted (hspace : capSpace cap = spSpad) (hok : s.spadOk s.iss.core = true) :
    (∀ k, k < 8 → byteOf (BitVec.ofNat 64 (s.spadEight cap off).1) k = (s.spadByte cap (off + k)).1) ∧
      ((s.spadEight cap off).2 != 0) = (List.range 8).any fun b => (s.spadByte cap (off + b)).2 := by
  -- The read stays behind a name: the kernel is not to compute it.
  obtain ⟨byte, hbyte⟩ : ∃ byte : Nat → Byte × Bool, ∀ i, byte i = s.spadByte cap (off + i) := ⟨_, fun _ => rfl⟩
  obtain ⟨hvalue, hread⟩ := State.spadEight_eq off (s := s) (cap := cap) (byte := byte) fun i => by
    rw [State.place_spad hspace, Nat.add_assoc, hok, if_pos rfl, hbyte, State.spadByte]
  simp only [hvalue, hread, ← hbyte]
  exact layBytes_eight byte

/-- One that the own entry denies is marked (R346). -/
theorem State.spadEight_denied (hno : s.spadOk s.iss.core = false) : ((s.spadEight cap off).2 != 0) = true := by
  obtain ⟨-, hread⟩ := State.spadEight_eq off (s := s) (cap := cap) fun i => by
    rw [hno, if_neg Bool.false_ne_true]
  rw [hread, (layBytes_eight _).2]
  rfl

end Spad

end Sys2Proof.Machine
end

section
/-! SUPPORT. LDA, VFENCE, FENCE, CFLUSH and VPREF (R176, R179, R180): the state that each leaves. -/

namespace Sys2Proof.Machine

section Relation

variable {quiet : Prop} {s t : State}

theorem KeepsTasks.cur (h : KeepsTasks quiet s t) : KeepsTask quiet s.cur t.cur := by
  obtain ⟨hiss, hcores⟩ := h
  rw [State.cur, State.cur, hiss]
  exact hcores _

end Relation

section KeepsTask

variable {quiet : Prop} {a b : Core} (h : KeepsTask quiet a b)
include h

theorem KeepsTask.r : b.r = a.r := by rw [h.rest]
theorem KeepsTask.t : b.t = a.t := by rw [h.rest]
theorem KeepsTask.c : b.c = a.c := by rw [h.rest]
theorem KeepsTask.relFence : b.m.relFence = a.m.relFence := by rw [h.rest]

end KeepsTask

/-- A check that passes leaves what comes after it. -/
theorem bind_of_ok {α : Type} {m : Except Fail Unit} {k : Unit → Except Fail α} {r : Except Fail α} (hm : m = .ok ()) (hk : k () = r) :
    (m >>= k) = r := by
  subst hm
  exact hk

section Operations

variable {s : State}

/-! ### An access that waits behind the task's others (R57, R174) -/

theorem queues_of_exec {i : Instr} {a : Access} (h : exec i s = .next (s.setCur (s.cur.issueAcc a))) : Queues s i a := by
  refine fallsThrough_of_setCur (h.trans ?_)
  rw [Core.issueAcc]
  cases hcounted : a.counted <;> rfl

/-! ### LDA (R179) -/

/-- An acquire by the acting core leaves its registers and its results on their way. -/
theorem State.acquire_cur (s : State) (sc : Scope) (rels : List Rel) :
    (s.acquire s.iss.core sc rels).cur.r = s.cur.r ∧ (s.acquire s.iss.core sc rels).cur.t = s.cur.t := by
  have hkeep : KeepsTask (s.owesOpen (clusterOf s.iss.core) = true) (s.setCur (s.cur.setNarrow (narrows s.iss.core sc rels))).cur
      (s.acquire s.iss.core sc rels).cur := (State.acquire_keepsTasks sc rels).cur
  rw [State.cur_setCur] at hkeep
  exact ⟨hkeep.r, hkeep.t⟩

/-- A read of the own SPAD changes no core, no memory and no line. -/
theorem State.spadRead_keeps (s : State) (cap : Cap) (addr : Nat) :
    SameMemory s (s.spadRead cap addr) ∧ (s.spadRead cap addr).cores = s.cores ∧ (s.spadRead cap addr).dev.ms = s.dev.ms := by
  rw [State.spadRead, State.spadDenied]
  split
  · exact ⟨.refl s, rfl, rfl⟩
  · obtain ⟨mc, msi, hbanks⟩ := s.countDenial_onlyBanks s.iss.core (s.miscOf s.iss.core) .denied (s.place s.iss.core cap addr) true
    dsimp only
    rw [hbanks]
    exact ⟨⟨rfl, rfl, rfl⟩, rfl, rfl⟩

theorem State.owedBy_congr {s t : State} (hcores : t.cores = s.cores) (hms : t.dev.ms = s.dev.ms) : t.owedBy = s.owedBy := by
  funext clu a
  rw [State.owedBy, State.owedBy, hcores, hms]

section Lda

variable {f : VtxF} (hclean : Clean s (.lda f)) (hnone : s.refuses f.h [0, 1, 2, 4, 5] pR 8 (s.offset (.lda f)).toNat 8 = none)
include hclean hnone

theorem lda_queues (hspace : capSpace (s.cur.rh f.h) ≠ spSpad) : Queues s (.lda f)
    { s.mkAccess (.lda f.x) (s.cur.rh f.h) (s.offset (.lda f)).toNat with acq := some f.scope, carries := none, counted := false } :=
  queues_of_exec ((exec_lda f s).trans (slotOpS_clean hclean (bind_of_ok (check_of_refuses hnone) (if_neg hspace))))

/-- In SPAD: the result on its way, and then an acquire. -/
theorem exec_lda_spad (hspace : capSpace (s.cur.rh f.h) = spSpad) : exec (.lda f) s =
    .next (State.acquire ((s.spadRead (s.cur.rh f.h) (capBase (s.cur.rh f.h) + (s.offset (.lda f)).toNat)).setCur (s.cur.push (mkPend s.iss.slot 3
      (xWrite f.x (s.spadEight (s.cur.rh f.h) (s.offset (.lda f)).toNat).1
        ((s.spadEight (s.cur.rh f.h) (s.offset (.lda f)).toNat).2 != 0))))) s.iss.core f.scope []) :=
  (exec_lda f s).trans (slotOpS_clean hclean (bind_of_ok (check_of_refuses hnone) ((if_pos hspace).trans (by
    dsimp only
    rw [State.setCur_iss, State.spadRead_iss]
    rfl))))

/-- What it leaves (R176, R254). -/
theorem lda_in_spad (hs : s.Ok) (hspace : capSpace (s.cur.rh f.h) = spSpad) : ∃ t, exec (.lda f) s = .next t ∧
    KeepsMemory s t (fun a => f.scope == .domain && s.owes a) ∧ t.iss = s.iss ∧ t.cur.r = s.cur.r ∧
    t.cur.t.pend = s.cur.t.pend ++ [mkPend s.iss.slot 3 (xWrite f.x (s.spadEight (s.cur.rh f.h) (s.offset (.lda f)).toNat).1
      ((s.spadEight (s.cur.rh f.h) (s.offset (.lda f)).toNat).2 != 0))] := by
  obtain ⟨hmem, hcores, hms⟩ := s.spadRead_keeps (s.cur.rh f.h) (capBase (s.cur.rh f.h) + (s.offset (.lda f)).toNat)
  have hiss := s.spadRead_iss (s.cur.rh f.h) (capBase (s.cur.rh f.h) + (s.offset (.lda f)).toNat)
  have hread := State.spadRead_ok (s.cur.rh f.h) (capBase (s.cur.rh f.h) + (s.offset (.lda f)).toNat) hs
  have howed := State.owedBy_congr hcores hms
  refine ⟨_, exec_lda_spad hclean hnone hspace, ?_⟩
  generalize s.spadRead (s.cur.rh f.h) (capBase (s.cur.rh f.h) + (s.offset (.lda f)).toNat) = s1 at *
  generalize mkPend s.iss.slot 3 _ = pend
  have hcore : s1.core s1.iss.core = s.cur := by rw [hiss, State.core, hcores]; rfl
  rw [← hiss]
  obtain ⟨hr, ht⟩ := (s1.setCur (s.cur.push pend)).acquire_cur f.scope []
  rw [State.cur_setCur, State.setCur_iss] at hr ht
  refine ⟨?_, State.acquire_iss .., hr, by rw [ht]; rfl⟩
  refine ((State.acquire_keepsMemory (State.setCur_ok hread (Core.push_ok pend hs.cur)) f.scope []).of_same hmem (.refl _)).mono
    fun k hk => ?_
  obtain ⟨hsc, hk⟩ := Bool.and_eq_true_iff.1 hk
  have hk1 : s1.owedBy (clusterOf s1.iss.core) k = true := State.owedBy_setCore (by rw [hcore]; rfl) hk
  rw [hsc, Bool.true_and, State.owes, ← hiss, ← howed, hk1]

end Lda

/-! ### CFLUSH and the fences (R179, R180) -/

section Cflush

variable {f : VtxF} (hclean : Clean s (.cflush f))
  (hnone : s.refuses f.h [0, 1, 2, 4, 5] pR 1 (s.offset (.cflush f)).toNat (s.cur.rx f.x).toNat = none)
include hclean hnone

theorem exec_cflush_idle (hidle : (s.cur.rx f.x).toNat = 0 ∨ capSpace (s.cur.rh f.h) = spSpad) : exec (.cflush f) s = .next s :=
  (exec_cflush f s).trans (slotOpS_clean hclean (bind_of_ok (check_of_refuses hnone) (if_pos hidle)))

theorem cflush_queues (hlen : (s.cur.rx f.x).toNat ≠ 0) (hspace : capSpace (s.cur.rh f.h) ≠ spSpad) : Queues s (.cflush f)
    { s.mkAccess (.cflush (s.cur.rx f.x).toNat f.scope) (s.cur.rh f.h) (s.offset (.cflush f)).toNat with carries := none } :=
  queues_of_exec ((exec_cflush f s).trans
    (slotOpS_clean hclean (bind_of_ok (check_of_refuses hnone) (if_neg (not_or.2 ⟨hlen, hspace⟩)))))

end Cflush

theorem fence_fallsThrough {f : FenceF} (hclean : Clean s (.fence f)) :
    FallsThrough s (.fence f) (s.cur.fenceMark s.iss.core .acqRel .package) :=
  fallsThrough_of_setCur ((exec_fence f s).trans (slotOp_clean hclean rfl))

/-- What due fences of the acting core leave: no HOST or PEER copy, and of what these owed a write-back (R254, R423). -/
structure SettlesFences (s t : State) : Prop where
  memory : KeepsMemory s t s.owes
  issue : t.iss = s.iss
  registers : t.cur.r = s.cur.r
  timers : t.cur.t = s.cur.t
  control : t.cur.c = s.cur.c
  accesses : s.owesOpen (clusterOf s.iss.core) = true → t.cur.m.accs = s.cur.m.accs
  release : t.cur.m.relFence = s.cur.m.relFence
  near : ∀ l ∈ t.cur.m.l1, farKey l.key = false
  nearSlice : ∀ e ∈ t.dev.ms.lines, e.1 = clusterOf s.iss.core → farKey e.2.key = false

theorem State.settleFences_cur (hripe : s.cur.ripe = true) : s.settleFences s.iss.core =
    (s.discardFar s.iss.core).setCur ((s.discardFar s.iss.core).cur.settled fun f => f.far && s.cur.loaded f) := by
  have hkeep : KeepsTasks (s.owesOpen (clusterOf s.iss.core) = true) s (s.discardFar s.iss.core) := State.discardFar_keepsTasks
  rw [State.settleFences_ripe hripe, State.setCur, State.cur, hkeep.1]
  rfl

theorem State.settleFences_settles (hs : s.Ok) (hripe : s.cur.ripe = true) : SettlesFences s (s.settleFences s.iss.core) := by
  have hmem : KeepsMemory s (s.discardFar s.iss.core) s.owes := State.discardFar_keepsMemory hs
  have hkeep : KeepsTasks (s.owesOpen (clusterOf s.iss.core) = true) s (s.discardFar s.iss.core) := State.discardFar_keepsTasks
  have htask := hkeep.cur
  have hiss : (s.discardFar s.iss.core).iss = s.iss := hkeep.1
  have hl1 : ∀ l ∈ (s.discardFar s.iss.core).cur.m.l1, farKey l.key = false := fun l hl => by
    rw [State.cur, hiss] at hl
    exact State.dropWhere_l1 rfl hl
  have hlines : ∀ e ∈ (s.discardFar s.iss.core).dev.ms.lines, e.1 = clusterOf s.iss.core → farKey e.2.key = false :=
    fun e he hclu => State.dropWhere_lines he hclu
  rw [State.settleFences_cur hripe]
  generalize s.discardFar s.iss.core = s1 at *
  exact {
    memory := hmem.of_same (.refl s) (s1.setCore_sameMemory ..)
    issue := hiss
    registers := by rw [State.cur_setCur, Core.settled_r, htask.r]
    timers := by rw [State.cur_setCur, Core.settled_t, htask.t]
    control := by rw [State.cur_setCur, Core.settled_c, htask.c]
    accesses := fun hopen => by rw [State.cur_setCur, Core.settled_accs, (htask.silent hopen).1]
    release := by rw [State.cur_setCur, Core.settled_relFence, htask.relFence]
    near := by rwa [State.cur_setCur, Core.settled_l1]
    nearSlice := hlines }

section Vfence

variable {f : VfenceF} (hclean : Clean s (.vfence f))
include hclean

theorem exec_vfence_clean : exec (.vfence f) s =
    .next ((s.setCur (s.cur.fenceMark s.iss.core f.ord f.scope)).settleFences s.iss.core) :=
  (exec_vfence f s).trans (slotOpS_clean hclean rfl)

theorem vfence_unripe (hripe : (s.cur.fenceMark s.iss.core f.ord f.scope).ripe = false) :
    FallsThrough s (.vfence f) (s.cur.fenceMark s.iss.core f.ord f.scope).dropFences := by
  have hcore : (s.setCur (s.cur.fenceMark s.iss.core f.ord f.scope)).core s.iss.core = s.cur.fenceMark s.iss.core f.ord f.scope :=
    State.core_setCore_same ..
  refine fallsThrough_of_setCur ((exec_vfence_clean hclean).trans ?_)
  rw [State.settleFences_unripe (by rwa [hcore]), hcore]
  exact congrArg _ (State.setCur_setCur ..)

theorem vfence_ripe (hs : s.Ok) (hripe : (s.cur.fenceMark s.iss.core f.ord f.scope).ripe = true) :
    ∃ t, exec (.vfence f) s = .next t ∧ KeepsMemory s t s.owes ∧
      SettlesFences (s.setCur (s.cur.fenceMark s.iss.core f.ord f.scope)) t := by
  have hsettles := State.settleFences_settles
    (State.setCur_ok hs (Core.fenceMark_ok s.iss.core f.ord f.scope hs.cur)) (by rwa [State.cur_setCur])
  have howed (k : Nat) (hk : (s.setCur (s.cur.fenceMark s.iss.core f.ord f.scope)).owes k = true) : s.owes k = true :=
    State.owedBy_setCore (c := s.cur.fenceMark s.iss.core f.ord f.scope) rfl hk
  exact ⟨_, exec_vfence_clean hclean, (hsettles.memory.of_same ⟨rfl, rfl, rfl⟩ (.refl _)).mono howed, hsettles⟩

end Vfence

/-! ### VPREF (R165, R176) -/

theorem passes_showing_of_none {tval : DWord} {l : List (BitVec 8 × Bool)} (h : l.find? (·.2) = none) :
    passes (showing tval l) = .ok () := by
  induction l with
  | nil => rfl
  | cons x l ih =>
    obtain ⟨cause, fails⟩ := x
    cases fails
    · exact ih h
    · cases h

theorem passes_showing_of_some {tval : DWord} {l : List (BitVec 8 × Bool)} {x : BitVec 8 × Bool} (h : l.find? (·.2) = some x) :
    passes (showing tval l) = .error ⟨x.1, tval⟩ := by
  induction l with
  | nil => cases h
  | cons y l ih =>
    obtain ⟨cause, fails⟩ := y
    cases fails
    · exact ih h
    · obtain rfl := Option.some.inj h
      rfl

/-- The first three checks of R167 alone: the cause of the one that fails, or no cause of theirs. -/
theorem checkHandle_cases (s : State) (h : HReg) (spaces : List Nat) (perm : BitVec 8) (align off z : Nat) (tval : DWord) :
    (checkHandle s.cur h spaces tval = .ok () ∧
        ∀ e, s.refuses h spaces perm align off z = some e → e ≠ 0x20 ∧ e ≠ 0x21 ∧ e ≠ 0x22) ∨
      ∃ e, s.refuses h spaces perm align off z = some e ∧ (e = 0x20 ∨ e = 0x21 ∨ e = 0x22) ∧
        checkHandle s.cur h spaces tval = .error ⟨e, tval⟩ := by
  rw [checkHandle_eq_passes s h spaces perm align off z, State.refuses,
    ← List.take_append_drop 3 (s.accessChecks h spaces perm align off z), List.find?_append, List.take_append_drop]
  cases hfirst : ((s.accessChecks h spaces perm align off z).take 3).find? (·.2) with
  | some x =>
    have hcause : x.1 ∈ ((s.accessChecks h spaces perm align off z).take 3).map (·.1) := List.mem_map_of_mem (List.mem_of_find?_eq_some hfirst)
    refine .inr ⟨x.1, rfl, ?_, passes_showing_of_some hfirst⟩
    simpa [State.accessChecks] using hcause
  | none =>
    refine .inl ⟨passes_showing_of_none hfirst, fun e he => ?_⟩
    obtain ⟨x, hx, rfl⟩ := Option.map_eq_some_iff.1 he
    have hcause : x.1 ∈ ((s.accessChecks h spaces perm align off z).drop 3).map (·.1) := List.mem_map_of_mem (List.mem_of_find?_eq_some hx)
    have hlater : x.1 = 0x23 ∨ x.1 = 0x24 ∨ x.1 = 0x25 ∨ x.1 = 0x26 := by simpa [State.accessChecks] using hcause
    rcases hlater with h | h | h | h <;> rw [h] <;> decide

theorem checkHandle_ok_of_later {h : HReg} {spaces : List Nat} {perm : BitVec 8} {align off z : Nat} (tval : DWord)
    (hlater : s.refuses h spaces perm align off z = none ∨
      ∃ e, s.refuses h spaces perm align off z = some e ∧ e ≠ 0x20 ∧ e ≠ 0x21 ∧ e ≠ 0x22) :
    checkHandle s.cur h spaces tval = .ok () := by
  rcases checkHandle_cases s h spaces perm align off z tval with ⟨hok, -⟩ | ⟨e, he, hfirst, -⟩
  · exact hok
  · rcases hlater with hnone | ⟨e', he', h20, h21, h22⟩
    · rw [hnone] at he
      cases he
    · obtain rfl := Option.some.inj (he'.symm.trans he)
      exact absurd hfirst (not_or.2 ⟨h20, not_or.2 ⟨h21, h22⟩⟩)

theorem vpref_traps {p : VprefF} {e : BitVec 8} (hclean : Clean s (.vpref p)) (h : s.refuses p.h [0, 1, 2, 3, 4, 5] 0 1 0 0 = some e)
    (hfirst : e = 0x20 ∨ e = 0x21 ∨ e = 0x22) : Traps s (.vpref p) e (BitVec.ofNat 64 (s.offset (.vpref p)).toNat) := by
  rcases checkHandle_cases s p.h spacesPref 0 1 0 0 (BitVec.ofNat 64 (s.offset (.vpref p)).toNat) with ⟨-, hlater⟩ | ⟨e', he', -, hfail⟩
  · obtain ⟨h20, h21, h22⟩ := hlater e h
    exact absurd hfirst (not_or.2 ⟨h20, not_or.2 ⟨h21, h22⟩⟩)
  · obtain rfl := Option.some.inj (he'.symm.trans h)
    rw [Traps, exec_vpref, execVpref]
    refine slotOpS_fail (e := ⟨e', BitVec.ofNat 64 (s.offset (.vpref p)).toNat⟩) hclean ?_
    simp only [hfail]
    rfl

end Operations

end Sys2Proof.Machine

namespace Sys2Proof

open Sys2Proof.Machine

/-- Settles O21: one lemma per operation, with its checks passed; what is written back is what the acting core's cluster owes. -/
theorem fencesAndFlushes : Obligations.FencesAndFlushes := by
  unfold Obligations.FencesAndFlushes
  intro s r v n p hs c off fo cap len w fenced
  have hfenced (ord : Ord) (sc : Scope) : fenced ord sc = s.cur.fenceMark s.iss.core ord sc := by cases ord <;> rfl
  clear_value fenced
  refine ⟨fun hclean hnone => ⟨lda_queues hclean hnone, fun hspace hno => ?_, fun hspace hok => ?_⟩,
    fun hclean hnone => ⟨exec_cflush_idle hclean hnone, cflush_queues hclean hnone⟩, fun hclean => ?_, fun hclean => ?_,
    fun hclean hnone => ?_, fun hclean e => vpref_traps hclean⟩
  · obtain ⟨t, ht, hmem, hiss, hr, hpend⟩ := lda_in_spad hclean hnone hs hspace
    rw [State.spadEight_denied _ hno] at hpend
    exact ⟨t, _, ht, hmem, hiss, hr, hpend⟩
  · obtain ⟨t, ht, hmem, hiss, hr, hpend⟩ := lda_in_spad hclean hnone hs hspace
    obtain ⟨hbytes, hmarks⟩ := State.spadEight_admitted (s := s) (cap := cap) off hspace hok
    rw [← hmarks]
    exact ⟨t, _, ht, hmem, hiss, hr, hbytes, hpend⟩
  · rw [hfenced]
    exact fence_fallsThrough hclean
  · rw [hfenced]
    refine ⟨vfence_unripe hclean, fun hripe => ?_⟩
    obtain ⟨t, ht, hmem, hsettles⟩ := vfence_ripe hclean hs hripe
    obtain ⟨-, hiss, hr, htimers, hcontrol, haccs, hrel, hnear, hslice⟩ := hsettles
    rw [State.cur_setCur] at hr htimers hcontrol haccs hrel
    exact ⟨t, ht, hmem, hiss, hr, htimers, hcontrol, haccs, hrel, fun l hl => bne_eq_false_iff_eq.1 (hnear l hl),
      fun e he hclu => bne_eq_false_iff_eq.1 (hslice e he hclu)⟩
  · obtain ⟨t, ht, hmem, hkeep⟩ := exec_vpref_clean hs hclean (checkHandle_ok_of_later (perm := 0) (align := 1) (off := 0) (z := 0) _ hnone)
    exact ⟨t, ht, hmem, hkeep.1, hkeep.cur.r, hkeep.cur.t, fun hopen => (hkeep.cur.silent hopen).2⟩

end Sys2Proof
end

section
/-! SUPPORT. Vector arithmetic (R147): the element operations of the model beside those of the rules. -/

namespace Sys2Proof.Machine

/-- Two outcomes of an element of width e: the same bits within the element, and the same flags. -/
def SameEl (e : Nat) (p q : Nat × Flags) : Prop := p.1 % 2 ^ e = q.1 % 2 ^ e ∧ p.2 = q.2

theorem SameEl.refl (e : Nat) (p : Nat × Flags) : SameEl e p p := ⟨rfl, rfl⟩

theorem SameEl.of_eq {e : Nat} {p q : Nat × Flags} (h : p = q) : SameEl e p q := h ▸ .refl e p

theorem sameEl_noFl {e x y : Nat} (h : x % 2 ^ e = y % 2 ^ e) : SameEl e (noFl x) (y, 0) := ⟨h, rfl⟩

/-- An operation that rounds on floats and wraps on integers. -/
theorem sameEl_ite {e x y : Nat} {float : Bool} {p : Nat × Flags} (h : x % 2 ^ e = y % 2 ^ e) :
    SameEl e (if float then p else noFl x) (if float then p else (y, 0)) := by
  cases float
  · exact sameEl_noFl h
  · exact .refl e p

theorem VecGives.of_sameEl {s : State} {i : Instr} {vd : VReg} {lat e : Nat} {sel : Nat → Bool} {r r' : Nat → Nat × Flags}
    (h : VecGives s i vd lat e sel (fun j => (r j).1) (raisedBy (1024 / e) sel (fun j => (r j).2)))
    (hr : ∀ j, SameEl e (r j) (r' j)) :
    VecGives s i vd lat e sel (fun j => (r' j).1) (raisedBy (1024 / e) sel (fun j => (r' j).2)) :=
  h.congr (fun _ _ => rfl) (fun j _ _ => (hr j).1) (raisedBy_congr fun j _ _ => (hr j).2)

theorem vBin_sameEl {i : Instr} {s : State} {f : VrF} {lat : Nat} {op : Rm → Nat → Nat → Nat × Flags} {r : Nat → Nat × Flags}
    (he : exec i s = vBin i f lat op s) (hr : ∀ j, SameEl (Fmt.width f.et)
      (op s.cur.c.rm (s.cur.el (Fmt.width f.et) f.vs1 j) (s.cur.el (Fmt.width f.et) f.vs2 j)) (r j)) (h : Clean s i) :
    VecGives s i f.vd lat (Fmt.width f.et) (s.cur.active (Fmt.width f.et) f.pg) (fun j => (r j).1)
      (raisedBy (1024 / Fmt.width f.et) (s.cur.active (Fmt.width f.et) f.pg) (fun j => (r j).2)) :=
  (vBin_gives he h).of_sameEl hr

theorem vUn_sameEl {i : Instr} {s : State} {f : VuF} {lat : Nat} {op : Rm → Nat → Nat × Flags} {r : Nat → Nat × Flags}
    (he : exec i s = vUn i f lat op s)
    (hr : ∀ j, SameEl (Fmt.width f.et) (op s.cur.c.rm (s.cur.el (Fmt.width f.et) f.vs1 j)) (r j)) (h : Clean s i) :
    VecGives s i f.vd lat (Fmt.width f.et) (s.cur.active (Fmt.width f.et) f.pg) (fun j => (r j).1)
      (raisedBy (1024 / Fmt.width f.et) (s.cur.active (Fmt.width f.et) f.pg) (fun j => (r j).2)) :=
  (vUn_gives he h).of_sameEl hr

theorem Core.el_lt (c : Core) (e : Nat) (v : VReg) (j : Nat) : c.el e v j < 2 ^ e := elemOf_lt ..

theorem latDiv_eq (t : Fmt) : latDiv t = if t = .f64 then 24 else if t = .f32 then 12 else 8 := by cases t <;> rfl

theorem elMinMax_eq (t : Fmt) (isMax : Bool) (a b : Nat) : elMinMax t isMax a b =
    if t.isFloat then (Fmt.fp t).minMax isMax a b
    else noFl (if isMax = decide (sext a (Fmt.width t) < sext b (Fmt.width t)) then b else a) := by
  rw [elMinMax]
  exact if_congr Iff.rfl rfl (congrArg noFl (if_congr (beq_iff_eq.trans eq_comm) rfl rfl))

/-- Flipping the top bit, by cases and modulo the range. -/
theorem flip_top {n x : Nat} (hx : x < 2 ^ n) (hn : 0 < n) :
    (if x < 2 ^ (n - 1) then x + 2 ^ (n - 1) else x - 2 ^ (n - 1)) = (x + 2 ^ (n - 1)) % 2 ^ n := by
  have htop : 2 ^ n = 2 * 2 ^ (n - 1) := by rw [← Nat.pow_succ', Nat.succ_eq_add_one, Nat.sub_add_cancel hn]
  rw [htop] at hx ⊢
  split
  · exact (Nat.mod_eq_of_lt (by omega)).symm
  · rw [Nat.mod_eq_sub_mod (by omega), Nat.mod_eq_of_lt (by omega)]
    omega

theorem elNeg_eq (t : Fmt) {x : Nat} (hx : x < 2 ^ Fmt.width t) : elNeg t x =
    if t.isFloat then (x + 2 ^ (Fmt.width t - 1)) % 2 ^ Fmt.width t else zext (-sext x (Fmt.width t)) (Fmt.width t) := by
  rw [elNeg]
  exact if_congr Iff.rfl (flip_top hx (Fmt.width_pos t)) rfl

end Sys2Proof.Machine

namespace Sys2Proof

open Sys2Proof.Machine

/-- Settles O11: each form is an operation on elements, which differs from that of the rules at most in where it cuts to the width. -/
theorem vectorArithmetic : Obligations.VectorArithmetic := by
  unfold Obligations.VectorArithmetic
  intro s f g c rm gives t w a b d fp flt u v e fu slow one
  have hslow : slow = latDiv := (funext latDiv_eq).symm
  rw [hslow]
  refine ⟨?_, ?_, ?_, ?_, ?_, ?_, ?_, ?_, ?_, ?_, ?_, ?_, ?_, ?_, ?_⟩
  · exact vBin_sameEl (exec_vadd f s) fun _ => sameEl_ite (Nat.mod_mod _ _)
  · exact vBin_sameEl (exec_vsub f s) fun _ => sameEl_ite rfl
  · exact vBin_sameEl (exec_vmul f s) fun _ => sameEl_ite (Nat.mod_mod _ _)
  · refine vBin_sameEl (exec_vmin f s) fun j => ?_
    rw [elMinMax_eq]
    exact sameEl_ite (by simp only [false_eq_decide_iff, ite_not]; rfl)
  · refine vBin_sameEl (exec_vmax f s) fun j => ?_
    rw [elMinMax_eq]
    exact sameEl_ite (by simp only [true_eq_decide_iff]; rfl)
  · exact vBin_gives (op := elDiv t) (exec_vdiv f s)
  · exact vTer_gives (op := elFma t false) (exec_vfma f s)
  · exact vTer_gives (op := elFma t true) (exec_vfms f s)
  · exact vUn_gives (op := fun _ x => noFl (elAbs u x)) (exec_vabs g s)
  · refine vUn_sameEl (exec_vneg g s) fun j => ?_
    rw [elNeg_eq u (c.el_lt v g.vs1 j)]
    exact .refl ..
  · exact vUn_gives (op := fun rm x => fu.sqrtR rm (fu.decode x)) (exec_vsqrt g s)
  · exact vUn_gives (op := fun rm x => elDiv u rm (oneBits fu) x) (exec_vrcp g s)
  · exact vUn_gives (op := fun rm x => fu.rsqrtR rm (fu.decode x)) (exec_vrsqrt g s)
  · exact vUn_gives (op := fun rm x => fu.exp2R rm (fu.decode x)) (exec_vexp2 g s)
  · exact vUn_gives (op := fun rm x => fu.log2R rm (fu.decode x)) (exec_vlog2 g s)

end Sys2Proof
end

section
/-! SUPPORT. Bits, shifts and fills (R148, R149): results without flags, and lists of equal elements. -/

namespace Sys2Proof.Machine

section Shapes

variable {s : State} {i : Instr} {lat : Nat}

/-- Two sources, without flags. -/
theorem vBin_noFl {f : VrF} {op r : Nat → Nat → Nat} (he : exec i s = vBin i f lat (fun _ a b => noFl (op a b)) s)
    (hr : ∀ a b, op a b % 2 ^ Fmt.width f.et = r a b % 2 ^ Fmt.width f.et) (h : Clean s i) :
    VecGives s i f.vd lat (Fmt.width f.et) (s.cur.active (Fmt.width f.et) f.pg)
      (fun j => r (s.cur.el (Fmt.width f.et) f.vs1 j) (s.cur.el (Fmt.width f.et) f.vs2 j)) :=
  (vBin_gives he h).congr (fun _ _ => rfl) (fun _ _ _ => hr _ _) (raisedBy_zero _ _)

/-- One source, without flags. -/
theorem vUn_noFl {f : VuF} {op : Nat → Nat} (he : exec i s = vUn i f lat (fun _ a => noFl (op a)) s) (h : Clean s i) :
    VecGives s i f.vd lat (Fmt.width f.et) (s.cur.active (Fmt.width f.et) f.pg) (fun j => op (s.cur.el (Fmt.width f.et) f.vs1 j)) :=
  (vUn_gives he h).congr (fun _ _ => rfl) (fun _ _ _ => rfl) (raisedBy_zero _ _)

end Shapes

theorem replicate_eq_map_range {α : Type} (n : Nat) (a : α) : List.replicate n a = (List.range n).map (fun _ => a) := by
  simp

/-- Equal elements, given uncut. -/
theorem fill_gives {s : State} {i : Instr} {vd : VReg} {lat e x : Nat} {k : Core → VOut} {sel : Nat → Bool}
    (he : exec i s = vecOp i s vd lat k) (h : Clean s i) (hp : 0 < e)
    (hk : k s.cur = vOutI e ((List.range (1024 / e)).map sel) (fillEls e x)) : VecGives s i vd lat e sel (fun _ => x) :=
  (vOutI_gives he h hp (hk.trans (congrArg _ (replicate_eq_map_range ..)))).congr (fun _ _ => rfl)
    (fun _ _ _ => Nat.mod_mod _ _) rfl

/-- The lowest true place is the one before which none is true. -/
theorem lowestOnly_map_range (n : Nat) (sel : Nat → Bool) : lowestOnly ((List.range n).map sel) =
    (List.range n).map (fun j => sel j && (List.range j).all (fun k => !sel k)) := by
  induction n generalizing sel with
  | zero => rfl
  | succ n ih =>
    rw [List.range_succ_eq_map, List.map_cons, List.map_map, List.map_cons, List.map_map]
    cases h : sel 0 with
    | true =>
      have hlater (j : Nat) : (sel (j + 1) && (List.range (j + 1)).all (fun k => !sel k)) = false := by
        simp [List.range_succ_eq_map, h]
      simp [lowestOnly, hlater, Function.comp_def]
    | false => simp [lowestOnly, h, List.range_succ_eq_map, ih, Function.comp_def]

end Sys2Proof.Machine

namespace Sys2Proof

open Sys2Proof.Machine

/-- Settles O12: the operations on elements raise no flags; a fill is a list of equal elements, cut to the width. -/
theorem vectorBitsAndFills : Obligations.VectorBitsAndFills := by
  unfold Obligations.VectorBitsAndFills
  refine ⟨fun s f g => ?_, fun s f g h => ?_⟩
  · intro c w two v one
    refine ⟨?_, ?_, ?_, ?_, ?_, ?_, ?_, ?_, ?_, ?_, ?_⟩
    · exact vBin_noFl (exec_vand f s) fun _ _ => rfl
    · exact vBin_noFl (exec_vor f s) fun _ _ => rfl
    · exact vBin_noFl (exec_vxor f s) fun _ _ => rfl
    · exact vUn_noFl (exec_vnot g s)
    · exact vUn_noFl (exec_vmov g s)
    · exact vBin_noFl (exec_vshl f s) fun _ _ => Nat.mod_mod _ _
    · exact vBin_noFl (exec_vshr f s) fun _ _ => rfl
    · exact vBin_noFl (exec_vsra f s) fun _ _ => rfl
    · exact vBin_noFl (exec_vadds f s) fun _ _ => rfl
    · exact vBin_noFl (exec_vsubs f s) fun _ _ => rfl
    · exact vBin_noFl (exec_vmulh f s) fun _ _ => rfl
  · intro c w act v u actU m
    refine ⟨fun hclean => ?_, fun hclean => ?_, fun hclean => ?_, fun hclean hf => ?_, fun hclean hf => ?_⟩
    · exact fill_gives (exec_vbcast f s) hclean (Fmt.width_pos f.et) (by rw [act_eq])
    · exact fill_gives (exec_vmovx f s) hclean (Fmt.width_pos f.et) (by rw [act_eq, lowestOnly_map_range])
    · exact vOutI_gives (exec_viota g s) hclean (Fmt.width_pos g.et) (by rw [act_eq])
    · exact vecOp_vec (exec_vli h s) hclean (Fmt.width_pos h.et)
        (by simp only [hf, if_true]; rw [act_eq, replicate_eq_map_range, vOut_eq])
    · exact fill_gives (exec_vli h s) hclean (Fmt.width_pos h.et) (by simp only [hf, Bool.false_eq_true, if_false]; rw [act_eq])

end Sys2Proof
end

section
/-! SUPPORT. Compares and predicates (R150 to R152): a compare's outcome and flags, the truth of elements, and the places that
count. -/

namespace Sys2Proof.Machine

/-! ### Compares -/

theorem FVal.isSig_of_not_isNaN {a : FVal} (h : a.isNaN = false) : a.isSig = false := by
  cases a with
  | nan _ => cases h
  | inf _ => rfl
  | fin _ _ _ => rfl

/-- Without a NaN there is no signalling one. -/
theorem FVal.sigFlag_of_ordered {a b : FVal} (h : (a.isNaN || b.isNaN) = false) : FVal.sigFlag a b = 0 := by
  obtain ⟨ha, hb⟩ := Bool.or_eq_false_iff.1 h
  simp [sigFlag, isSig_of_not_isNaN ha, isSig_of_not_isNaN hb]

/-- The flags of a float compare: invalid with any NaN under `sig`, else with a signalling one. -/
theorem fCmp_eq (t : Fmt) (sig nan : Bool) (p : Ordering → Bool) (a b : Nat) :
    let x := (Fmt.fp t).decode a
    let y := (Fmt.fp t).decode b
    fCmp t sig nan p a b = (if x.isNaN || y.isNaN then nan else p (x.cmp y),
      if sig then (if x.isNaN || y.isNaN then flNV else 0) else FVal.sigFlag x y) := by
  intro x y
  rw [fCmp]
  cases h : x.isNaN || y.isNaN
  · cases sig
    · exact congrArg (Prod.mk _) (FVal.sigFlag_of_ordered h).symm
    · rfl
  · rfl

/-- A compare whose outcomes and flags are given element by element. -/
theorem vCmp_outcomes {i : Instr} {s : State} {f : VcF} {op : Nat → Nat → Bool × Flags} {r : Nat → Bool} {fl : Nat → Flags}
    (he : exec i s = vCmp i f op s) (hw : 8 ≤ Fmt.width f.et)
    (hop : ∀ j, op (s.cur.el (Fmt.width f.et) f.vs1 j) (s.cur.el (Fmt.width f.et) f.vs2 j) = (r j, fl j)) (h : Clean s i) :
    PredGives s i f.pd 2 (Fmt.width f.et) (s.cur.active (Fmt.width f.et) f.pg) r
      (raisedBy (1024 / Fmt.width f.et) (s.cur.active (Fmt.width f.et) f.pg) fl) :=
  (vCmp_gives he h hw).congr (fun j => congrArg Prod.fst (hop j)) (raisedBy_congr fun j _ _ => congrArg Prod.snd (hop j))

/-! ### Truths and places -/

theorem truths_eq (c : Core) (t : Fmt) (p : PReg) :
    truths t (c.rp p) = (List.range (1024 / Fmt.width t)).map (c.truth (Fmt.width t) p) := rfl

theorem vPred2_gives {i : Instr} {s : State} {f : VpF} {op : Bool → Bool → Bool} (he : exec i s = vPred2 i f op s)
    (hw : 8 ≤ Fmt.width f.et) (h : Clean s i) :
    PredGives s i f.pd 1 (Fmt.width f.et) (s.cur.active (Fmt.width f.et) f.pg)
      (fun j => op (s.cur.truth (Fmt.width f.et) f.ps1 j) (s.cur.truth (Fmt.width f.et) f.ps2 j)) :=
  vPred_gives he h hw (by rw [truths_eq, truths_eq, zipWith_map_range])

theorem counted_eq (c : Core) (f : VpxF) : counted c f = (List.range (1024 / Fmt.width f.et)).map
    (fun j => c.truth (Fmt.width f.et) f.ps j && c.active (Fmt.width f.et) f.pg j) := by
  rw [counted, truths_eq, act_eq, zipWith_map_range]

/-- The index of the first place at which a predicate is true is that place. -/
theorem findIdx?_map_range (n : Nat) (p : Nat → Bool) :
    ((List.range n).map p).findIdx? id = ((List.range n).filter p).head? := by
  rw [List.findIdx?_map, List.head?_filter]
  ext j
  simp only [Function.id_comp, List.findIdx?_eq_some_iff_getElem, List.find?_range_eq_some, List.getElem_range, List.length_range,
    List.mem_range]
  constructor
  · rintro ⟨hj, hp, hbefore⟩
    exact ⟨hp, hj, fun k hk => by simpa using hbefore k hk⟩
  · rintro ⟨hp, hj, hbefore⟩
    exact ⟨hj, hp, fun k hk => by simpa using hbefore k hk⟩

theorem firstIdx_map_range (n : Nat) (p : Nat → Bool) : firstIdx ((List.range n).map p) =
    match (List.range n).filter p with
    | j :: _ => BitVec.ofNat 64 j
    | [] => BitVec.allOnes 64 := by
  rw [firstIdx, findIdx?_map_range]
  cases (List.range n).filter p <;> rfl

end Sys2Proof.Machine

namespace Sys2Proof

open Sys2Proof.Machine

/-- Settles O13: a compare is an outcome and flags of two elements, by type; the predicate forms are lists of truths. -/
theorem comparesAndPredicates : Obligations.ComparesAndPredicates := by
  unfold Obligations.ComparesAndPredicates
  refine ⟨fun s f hvec => ?_, fun s f g h q hf hg hh hq => ?_⟩
  · intro c t w act a b x y unord sig any gives cmp
    have hw : 8 ≤ w := vec_width hvec
    have hfloat {sg nan : Bool} {p : Ordering → Bool} (ht : t.isFloat = true) (j : Nat) :
        elCmp t sg nan p (a j) (b j) = (if unord j then nan else p ((x j).cmp (y j)), if sg then any j else sig j) :=
      (if_pos ht).trans (fCmp_eq t sg nan p (a j) (b j))
    have hint {sg nan : Bool} {p : Ordering → Bool} (ht : t.isFloat = false) (j : Nat) :
        elCmp t sg nan p (a j) (b j) = (p (compare (sext (a j) w) (sext (b j) w)), 0) :=
      if_neg (Bool.eq_false_iff.1 ht)
    refine ⟨⟨?_, ?_⟩, ⟨?_, ?_⟩, ⟨?_, ?_⟩, ⟨?_, ?_⟩, ?_, ?_, ?_⟩
    · exact fun ht => vCmp_outcomes (exec_vcmpEq f s) hw (hfloat ht)
    · exact fun ht => vCmp_outcomes (exec_vcmpEq f s) hw (hint ht)
    · exact fun ht => vCmp_outcomes (exec_vcmpNe f s) hw (hfloat ht)
    · exact fun ht => vCmp_outcomes (exec_vcmpNe f s) hw (hint ht)
    · exact fun ht => vCmp_outcomes (exec_vcmpLt f s) hw (hfloat ht)
    · exact fun ht => vCmp_outcomes (exec_vcmpLt f s) hw (hint ht)
    · exact fun ht => vCmp_outcomes (exec_vcmpLe f s) hw (hfloat ht)
    · exact fun ht => vCmp_outcomes (exec_vcmpLe f s) hw (hint ht)
    · have htruth (b : Bool) : (if b then true else false) = b := by cases b <;> rfl
      exact vCmp_outcomes (exec_vcmpUn f s) hw fun j =>
        (fCmp_eq t false true _ (a j) (b j)).trans (congrArg (·, sig j) (htruth (unord j)))
    · exact vCmp_outcomes (exec_vcmpLtu f s) hw fun _ => rfl
    · exact vCmp_outcomes (exec_vcmpLeu f s) hw fun _ => rfl
  · intro c two w counts places
    refine ⟨?_, ?_, ?_, ?_, ?_, ?_, ?_⟩
    · exact vPred2_gives (exec_vpand f s) (vec_width hf)
    · exact vPred2_gives (exec_vpor f s) (vec_width hf)
    · exact vPred2_gives (exec_vpxor f s) (vec_width hf)
    · exact fun hclean => vPred_gives (exec_vpnot g s) hclean (vec_width hg) (by rw [truths_eq, List.map_map]; rfl)
    · exact fun hclean => vPred_gives (exec_vpset h s) hclean (vec_width hh) (by rw [replicate_eq_map_range])
    · exact fun hclean => (exec_vpcnt q s).trans (slotOp_clean hclean
        (by rw [counted_eq, List.countP_map, List.countP_eq_length_filter]; rfl))
    · exact fun hclean => (exec_vpfirst q s).trans (slotOp_clean hclean (by rw [counted_eq, firstIdx_map_range] <;> rfl))

end Sys2Proof
end

section
/-! SUPPORT. Select and permute (R153): elements read from lists by their places. -/

namespace Sys2Proof.Machine

/-! ### Lists read by place -/

theorem nth_map_range {n : Nat} (r : Nat → Nat) {j : Nat} (hj : j < n) : nth ((List.range n).map r) j = r j := by
  rw [nth, ← List.getD_eq_getElem?_getD, getD_map_range _ _ _ hj]

/-- A register has no bits beyond its elements. -/
theorem Core.el_beyond (c : Core) (t : Fmt) (v : VReg) {j : Nat} (hj : 1024 / Fmt.width t ≤ j) : c.el (Fmt.width t) v j = 0 := by
  have hwhole : 1024 = Fmt.width t * (1024 / Fmt.width t) := by cases t <;> rfl
  have hbits : 1024 ≤ Fmt.width t * j := hwhole.trans_le (Nat.mul_le_mul_left _ hj)
  have hlt : (c.rv v).toNat < 2 ^ (Fmt.width t * j) := BitVec.toNat_lt_twoPow_of_le hbits
  rw [Core.el, elemOf, Nat.div_eq_of_lt hlt, Nat.zero_mod]

/-- An element of a source, at any place. -/
@[simp] theorem nth_els (c : Core) (t : Fmt) (v : VReg) (j : Nat) : nth (c.els t v) j = c.el (Fmt.width t) v j := by
  by_cases hj : j < 1024 / Fmt.width t
  · rw [els_eq, nth_map_range _ hj]
  · rw [c.el_beyond t v (by omega), els_eq, nth]
    simp [hj]

theorem act_getD (c : Core) (t : Fmt) (pg : PReg) {j : Nat} (hj : j < 1024 / Fmt.width t) :
    (c.act t pg)[j]?.getD false = c.active (Fmt.width t) pg j := by
  rw [act_eq, ← List.getD_eq_getElem?_getD, getD_map_range _ _ _ hj]

theorem allTrue_eq (n : Nat) : allTrue n = (List.range n).map (fun _ => true) := replicate_eq_map_range ..

/-- The active elements of a list, in order. -/
theorem activeEls_map_range (n : Nat) (sel : Nat → Bool) (r : Nat → Nat) :
    activeEls ((List.range n).map sel) ((List.range n).map r) = ((List.range n).filter sel).map r := by
  rw [activeEls, zip_map_range, List.filter_map, List.map_map]
  rfl

theorem countP_take_map_range {n j : Nat} (hj : j ≤ n) (sel : Nat → Bool) :
    (((List.range n).map sel).take j).countP id = ((List.range j).filter sel).length := by
  rw [← List.map_take, List.take_range, Nat.min_eq_left hj, List.countP_map, List.countP_eq_length_filter]
  rfl

/-! ### Shapes -/

/-- A vector result of which a list gives the elements, zero beyond it. -/
theorem vecOp_list {s : State} {i : Instr} {vd : VReg} {lat e : Nat} {k : Core → VOut} {sel : Nat → Bool} {l : List Nat}
    (he : exec i s = vecOp i s vd lat k) (h : Clean s i) (hp : 0 < e) (hk : k s.cur = vOutI e ((List.range (1024 / e)).map sel) l) :
    VecGives s i vd lat e sel (fun j => l.getD j 0) := by
  have hgives := vecOp_gives he h
  rw [hk] at hgives
  refine ⟨_, packVec e l, hgives, fun old j hj => ?_⟩
  have hm : e * (j + 1) ≤ 1024 := (Nat.mul_le_mul_left _ hj).trans (Nat.mul_div_le _ _)
  exact (elemOf_merge hp _ l old hm).trans (by rw [getD_map_range _ _ _ hj])

/-- A permutation whose sources are given place by place. -/
theorem vPerm2_places {i : Instr} {s : State} {f : VrF} {lat : Nat} {whole : Bool}
    {g : Nat → List Bool → List Nat → List Nat → Nat → Nat} {r : Nat → Nat} (he : exec i s = vPerm2 i f lat whole g s)
    (hg : ∀ j, j < 1024 / Fmt.width f.et →
      g (1024 / Fmt.width f.et) (s.cur.act f.et f.pg) (s.cur.els f.et f.vs1) (s.cur.els f.et f.vs2) j = r j) (h : Clean s i) :
    VecGives s i f.vd lat (Fmt.width f.et) (fun j => whole || s.cur.active (Fmt.width f.et) f.pg j) r :=
  (vPerm2_gives he h).congr (fun _ _ => rfl) (fun j hj _ => by rw [hg j hj]) rfl

end Sys2Proof.Machine

namespace Sys2Proof

open Sys2Proof.Machine

/-- Settles O14: each result is a list of source elements by their places, written where the operation selects. -/
theorem selectAndPermute : Obligations.SelectAndPermute := by
  unfold Obligations.SelectAndPermute
  intro s f g h c w n a b act gives v m k u x on
  refine ⟨?_, ?_, ?_, ?_, fun hclean => ?_, fun hclean => ?_, fun hclean => ?_, fun hclean => ?_⟩
  · refine vPerm2_places (exec_vsel f s) fun j hj => ?_
    rw [act_getD _ _ _ hj, nth_els, nth_els]
  · refine vPerm2_places (exec_vperm f s) fun j hj => ?_
    rw [nth_els, nth_els]
  · refine vPerm2_places (exec_vzip f s) fun j hj => ?_
    rw [nth_els, nth_els]
  · refine vPerm2_places (exec_vunzip f s) fun j hj => ?_
    rw [nth_els, nth_els]
  · exact vOutI_gives (exec_vslideup g s) hclean (Fmt.width_pos g.et) (by simp only [act_eq, zipWith_map_range, nth_els]; rfl)
  · exact vOutI_gives (exec_vslidedn g s) hclean (Fmt.width_pos g.et) (by simp only [act_eq, zipWith_map_range, nth_els]; rfl)
  · exact vecOp_list (exec_vcompress h s) hclean (Fmt.width_pos h.et)
      (by simp only [act_eq, els_eq, allTrue_eq, activeEls_map_range]; rfl)
  · refine (vOutI_gives (exec_vexpand h s) hclean (Fmt.width_pos h.et) (by simp only [nth_els]; rw [act_eq])).congr (fun _ _ => rfl)
      (fun j hj _ => ?_) rfl
    rw [countP_take_map_range hj.le]

end Sys2Proof
end

section
/-! SUPPORT. Reductions, VARGMAX and VBITONIC (R154, R156, R157): the root of the tree, the greatest element's place, and the pairs
of a compare-exchange stage. -/

namespace Sys2Proof.Machine

/-! ### Reductions (R154) -/

theorem reduce_gives {s : State} {i : Instr} {f : VuF} {op : Core → Nat → Nat → Nat × Flags} {ident : Nat}
    (he : exec i s = vRed i f (fun c act l => reduce f.et act l (op c) ident) s) (hf : f.et.isVec = true) (h : Clean s i) :
    let r := (redAt (op s.cur) (s.cur.active (Fmt.width f.et) f.pg) (s.cur.el (Fmt.width f.et) f.vs1) f.et.log2n 0).getD (ident, 0)
    VecGives s i f.vd 8 (Fmt.width f.et) (fun j => j == 0) (fun _ => r.1) r.2 := by
  intro r
  have hr : reduce f.et (s.cur.act f.et f.pg) (s.cur.els f.et f.vs1) (op s.cur) ident = r := reduce_eq hf ..
  simpa only [hr] using vRed_gives he h

/-! ### The greatest element (R156) -/

/-- VARGMAX over a register: the best place, or all ones, with the flags of the signalling elements. -/
theorem vargmax_gives {s : State} {f : VuF} (h : Clean s (.vargmax f)) :
    let a := s.cur.el (Fmt.width f.et) f.vs1
    let act := s.cur.active (Fmt.width f.et) f.pg
    let n := 1024 / Fmt.width f.et
    VecGives s (.vargmax f) f.vd 8 (Fmt.width f.et) (fun j => j == 0)
      (fun _ => (bestAt (elGt f.et) (fun j => act j && !elNaN f.et (a j)) a n).getD (2 ^ Fmt.width f.et - 1))
      (if (List.range n).any (fun j => act j && elSig f.et (a j)) then flNV else 0) := by
  intro a act n
  have hbest : argmaxGo f.et none 0 ((s.cur.act f.et f.pg).zip (s.cur.els f.et f.vs1)) =
      (bestAt (elGt f.et) (fun j => act j && !elNaN f.et (a j)) a n).map fun b => (b, a b) := by
    rw [act_eq, els_eq, zip_map_range, List.range_eq_range']
    simpa [bestAt] using argmaxGo_eq f.et act a n 0
  have hsig : ((s.cur.act f.et f.pg).zip (s.cur.els f.et f.vs1)).any (fun (b, x) => b && elSig f.et x) =
      (List.range n).any fun j => act j && elSig f.et (a j) := by
    rw [act_eq, els_eq, zip_map_range, List.any_map]
    rfl
  have hgives := vRed_gives (exec_vargmax f s) h
  simp only [hbest, hsig] at hgives
  cases hb : bestAt (elGt f.et) (fun j => act j && !elNaN f.et (a j)) a n <;> simpa [hb] using hgives

/-! ### A compare-exchange stage (R157) -/

/-- The lower place of the pair of place j at distance d. -/
def stageLow (d j : Nat) : Nat := if j / d % 2 = 0 then j else j - d

/-- The element that comes to place j in a stage at distance d. -/
def stageEl (d : Nat) (swaps : Nat → Bool) (el : Nat → Nat) (j : Nat) : Nat :=
  if decide (j = stageLow d j) != swaps (stageLow d j) then el (stageLow d j) else el (stageLow d j + d)

theorem stageLow_of_low {d j : Nat} (hj : j / d % 2 = 0) : stageLow d j = j := if_pos hj

theorem stageLow_of_high {d j : Nat} (hd : 0 < d) (hj : j / d % 2 = 0) : stageLow d (j + d) = j := by
  rw [stageLow, Nat.add_div_right _ hd, if_neg (by omega), Nat.add_sub_cancel]

/-- A stage swaps the elements of a pair or leaves them. -/
theorem stageEl_pair {d j : Nat} (hd : 0 < d) (hj : j / d % 2 = 0) (swaps : Nat → Bool) (el : Nat → Nat) :
    (stageEl d swaps el j, stageEl d swaps el (j + d)) = if swaps j then (el (j + d), el j) else (el j, el (j + d)) := by
  rw [stageEl, stageEl, stageLow_of_low hj, stageLow_of_high hd hj]
  cases swaps j <;> simp [hd.ne']

/-- Both places of a pair lie in the register. -/
theorem stageLow_add_lt {d n j : Nat} (hd : 0 < d) (hdvd : d * 2 ∣ n) (hj : j < n) : stageLow d j + d < n := by
  obtain ⟨m, rfl⟩ := hdvd
  have hblock : j / (d * 2) < m := Nat.div_lt_of_lt_mul hj
  have hend : d * 2 * (j / (d * 2) + 1) ≤ d * 2 * m := Nat.mul_le_mul_left _ hblock
  rw [Nat.mul_succ] at hend
  have hsplit := Nat.div_add_mod j (d * 2)
  have hlt := Nat.mod_lt j (show 0 < d * 2 by omega)
  have hparity : j % (d * 2) / d = j / d % 2 := Nat.mod_mul_right_div_self j d 2
  rw [stageLow]
  split
  · next h =>
    have : j % (d * 2) < d := (Nat.div_eq_zero_iff_lt hd).1 (hparity.trans h)
    omega
  · next h =>
    have : d ≤ j % (d * 2) := by
      by_contra hc
      exact h (hparity ▸ Nat.div_eq_of_lt (by omega))
    omega

theorem stage_dvd {t : Fmt} (ht : t.isVec = true) {k : Nat} (hk : k < t.log2n) : 2 ^ k * 2 ∣ 1024 / Fmt.width t := by
  rw [log2n_pow ht, ← Nat.pow_succ]
  exact Nat.pow_dvd_pow 2 hk

/-- The pairs that a stage swaps: both places active, their keys in the wrong order for their block. -/
def Core.stageSwaps (c : Core) (q : VbtF) (j : Nat) : Bool :=
  let d := 2 ^ q.d.toNat
  let key (j : Nat) : Nat := orderKey q.et (c.el (Fmt.width q.et) q.vs1 j)
  c.active (Fmt.width q.et) q.pg j && c.active (Fmt.width q.et) q.pg (j + d) &&
    (if j / 2 ^ q.b.toNat % 2 = 0 then decide (key (j + d) < key j) else decide (key j < key (j + d)))

theorem and_or_not_and (p : Prop) [Decidable p] (x y : Bool) :
    (decide p && x || !decide p && y) = if p then x else y := by
  by_cases h : p <;> simp [h]

theorem vbitonic_gives {s : State} {q : VbtF} (hq : q.et.isVec = true) (hd : q.d.toNat < q.et.log2n) (h : Clean s (.vbitonic q)) :
    VecGives s (.vbitonic q) q.vd 2 (Fmt.width q.et) (fun _ => true)
      (stageEl (2 ^ q.d.toNat) (s.cur.stageSwaps q) (s.cur.el (Fmt.width q.et) q.vs1)) := by
  refine vOutI_gives (exec_vbitonic q s) h (Fmt.width_pos q.et) ?_
  simp only [nth_els]
  rw [allTrue_eq]
  congr 1
  refine List.map_congr_left fun j hj => ?_
  have hhigh : stageLow (2 ^ q.d.toNat) j + 2 ^ q.d.toNat < 1024 / Fmt.width q.et :=
    stageLow_add_lt (Nat.two_pow_pos _) (stage_dvd hq hd) (List.mem_range.1 hj)
  have hlow : stageLow (2 ^ q.d.toNat) j < 1024 / Fmt.width q.et := (Nat.le_add_right _ _).trans_lt hhigh
  rw [stageEl, Core.stageSwaps, ← and_or_not_and, ← act_getD _ _ _ hlow, ← act_getD _ _ _ hhigh]
  rfl

end Sys2Proof.Machine

namespace Sys2Proof

open Sys2Proof.Machine

/-- Settles O15: each form is a fold of one operation on two elements, read by places; a stage moves elements within pairs. -/
theorem reduceScanSort : Obligations.ReduceScanSort := by
  unfold Obligations.ReduceScanSort
  intro s f q hf hq hd c t w n fp act a first add pick reduces scans nan sig best v d el key swaps
  have hadd : elAdd t c.c.rm = add := rfl
  have hpick (isMax : Bool) : elMinMax t isMax = pick isMax := by
    funext x y
    exact elMinMax_eq t isMax x y
  refine ⟨fun h => ?_, fun h => ?_, fun h => ?_, fun h => ?_, fun h => ?_, fun h => ?_, fun h => ?_⟩
  · rw [← hadd]
    exact reduce_gives (op := fun c => elAdd t c.c.rm) (exec_vredsum f s) hf h
  · rw [← hpick]
    exact reduce_gives (op := fun _ => elMinMax t true) (ident := identMax t) (exec_vredmax f s) hf h
  · rw [← hpick]
    exact reduce_gives (op := fun _ => elMinMax t false) (ident := identMin t) (exec_vredmin f s) hf h
  · rw [← hadd]
    exact vScan_gives (op := fun c => elAdd t c.c.rm) (exec_vscansum f s) h
  · rw [← hpick]
    exact vScan_gives (op := fun _ => elMinMax t true) (exec_vscanmax f s) h
  · exact vargmax_gives h
  · exact ⟨_, vbitonic_gives hq hd h, fun j _ hlow => stageEl_pair (Nat.two_pow_pos _) hlow swaps el⟩

end Sys2Proof
end

section
/-! SUPPORT. Integer sums over the tree and the running order (R154, R155), L6 products (R158, R159) and the Philox words
(R160). -/

namespace Sys2Proof.Machine

/-! ### Integer sums -/

/-- The sum of the active elements among the m from place k on. -/
def activeSum (act : Nat → Bool) (a : Nat → Nat) (k m : Nat) : Nat := (((List.range' k m).filter act).map a).sum

theorem activeSum_add (act : Nat → Bool) (a : Nat → Nat) (k m n : Nat) :
    activeSum act a k (m + n) = activeSum act a k m + activeSum act a (k + m) n := by
  rw [activeSum, ← List.range'_append_1, List.filter_append, List.map_append, List.sum_append]
  rfl

theorem activeSum_one (act : Nat → Bool) (a : Nat → Nat) (k : Nat) : activeSum act a k 1 = if act k then a k else 0 := by
  cases h : act k <;> simp [activeSum, h]

/-- Addition of elements of width w, without flags. -/
def addMod (w x y : Nat) : Nat × Flags := ((x + y) % 2 ^ w, 0)

/-- A node stands for a sum modulo the range, without flags: one that is dead for zero. -/
def RedVal.IsSum (w : Nat) (r : RedVal) (n : Nat) : Prop := SameEl w (r.getD (0, 0)) (n, 0)

theorem sameEl_addMod {w x y m n : Nat} (hx : x ≡ m [MOD 2 ^ w]) (hy : y ≡ n [MOD 2 ^ w]) :
    SameEl w (addMod w x y) (m + n, 0) :=
  ⟨(Nat.mod_mod _ _).trans (hx.add hy), rfl⟩

theorem redNode_isSum {w m n : Nat} {x y : RedVal} (hx : x.IsSum w m) (hy : y.IsSum w n) :
    (redNode (addMod w) x y).IsSum w (m + n) := by
  obtain ⟨hxm, hxf⟩ := hx
  obtain ⟨hyn, hyf⟩ := hy
  cases x with
  | none => exact ⟨by simpa [redNode, Nat.ModEq] using Nat.ModEq.add hxm hyn, by simpa [redNode] using hyf⟩
  | some x =>
    cases y with
    | none => exact ⟨by simpa [redNode, Nat.ModEq] using Nat.ModEq.add hxm hyn, hxf⟩
    | some y =>
      obtain ⟨hsum, hflags⟩ := sameEl_addMod hxm hyn
      exact ⟨hsum, by simp_all [redNode]⟩

/-- Node j of level k sums its 2^k elements. -/
theorem redAt_isSum (w : Nat) (act : Nat → Bool) (a : Nat → Nat) (k j : Nat) :
    (redAt (addMod w) act a k j).IsSum w (activeSum act a (j * 2 ^ k) (2 ^ k)) := by
  induction k generalizing j with
  | zero =>
    rw [Nat.pow_zero, Nat.mul_one, activeSum_one, redAt]
    cases act j <;> exact .refl ..
  | succ k ih =>
    have hright : 2 * j * 2 ^ k + 2 ^ k = (2 * j + 1) * 2 ^ k := by ring
    rw [show j * 2 ^ (k + 1) = 2 * j * 2 ^ k by ring, Nat.pow_succ, Nat.mul_two, activeSum_add, hright]
    exact redNode_isSum (ih (2 * j)) (ih (2 * j + 1))

/-- The running result before place j sums the elements before it. -/
theorem runAt_isSum (w : Nat) (act : Nat → Bool) (a : Nat → Nat) (j : Nat) :
    (runAt (addMod w) act a j).IsSum w (activeSum act a 0 j) := by
  induction j with
  | zero => exact .refl ..
  | succ j ih =>
    rw [activeSum_add, activeSum_one, runAt, Nat.zero_add]
    cases h : act j with
    | false => exact ih
    | true =>
      obtain ⟨hrun, hflags⟩ := ih
      cases hr : runAt (addMod w) act a j with
      | none =>
        rw [hr] at hrun
        have hfirst : 0 + a j ≡ activeSum act a 0 j + a j [MOD 2 ^ w] := Nat.ModEq.add_right (a j) hrun
        rw [Nat.zero_add] at hfirst
        exact ⟨hfirst, rfl⟩
      | some x =>
        rw [hr] at hrun
        exact sameEl_addMod hrun rfl

theorem elAdd_of_int {t : Fmt} (ht : t.isFloat = false) (rm : Rm) : elAdd t rm = addMod (Fmt.width t) := by
  funext x y
  exact if_neg (Bool.eq_false_iff.1 ht)

/-! ### L6 (R158, R159) -/

theorem groups4_map_range {α : Type} (n : Nat) (r : Nat → α) :
    groups4 ((List.range (4 * n)).map r) = (List.range n).map (fun j => [0, 1, 2, 3].map (fun k => r (4 * j + k))) := by
  induction n generalizing r with
  | zero => rfl
  | succ n ih =>
    have htail : (List.range (4 * (n + 1))).map r = r 0 :: r 1 :: r 2 :: r 3 :: (List.range (4 * n)).map (fun j => r (j + 4)) := by
      simp [Nat.mul_succ, List.range_succ_eq_map, Function.comp_def]
    rw [htail, groups4, ih, List.range_succ_eq_map, List.map_cons, List.map_map]
    simp [Function.comp_def, Nat.mul_succ, Nat.add_right_comm]

theorem elDotL6_eq (rm : Rm) (d : Nat) (prods : List (Option Int)) : elDotL6 rm d prods =
    let x := fp32.decode d
    if x.isNaN || prods.any (·.isNone) then (fp32.canonNaN, if x.isSig then flNV else 0)
    else fp32.addR rm x (.ofInt (prods.filterMap id).sum (-24)) := by
  rw [List.sum_eq_foldl]
  rfl

theorem vmulL6_gives {s : State} {f : VlF} (h : Clean s (.vmulL6 f)) :
    let r (j : Nat) := elMulL6 s.cur.c.rm (s.cur.el 8 f.vs1 j) (s.cur.el 8 f.vs2 j)
    VecGives s (.vmulL6 f) f.vd 2 8 (s.cur.active 8 f.pg) (fun j => (r j).1) (raisedBy 128 (s.cur.active 8 f.pg) (fun j => (r j).2)) := by
  intro r
  have hact : activeList 8 (s.cur.pg f.pg) = (List.range 128).map (s.cur.active 8 f.pg) := act_eq s.cur .i8 f.pg
  exact vecOp_vec (exec_vmulL6 f s) h (by decide) (by rw [hact, elems, elems, zipWith_map_range, vOut_eq]; rfl)

theorem vdotL6_gives {s : State} {f : VlF} (h : Clean s (.vdotL6 f)) :
    let prod (j : Nat) := l6mul (s.cur.el 8 f.vs1 j % 64) (s.cur.el 8 f.vs2 j % 64)
    let r (j : Nat) := elDotL6 s.cur.c.rm (s.cur.el 32 f.vd j) ([0, 1, 2, 3].map (fun k => prod (4 * j + k)))
    VecGives s (.vdotL6 f) f.vd 4 32 (s.cur.active 32 f.pg) (fun j => (r j).1) (raisedBy 32 (s.cur.active 32 f.pg) (fun j => (r j).2)) := by
  intro prod r
  have hact : activeList 32 (s.cur.pg f.pg) = (List.range 32).map (s.cur.active 32 f.pg) := act_eq s.cur .i32 f.pg
  have hprods : groups4 (List.zipWith (fun a b => l6mul (a % 64) (b % 64)) (elems 8 (s.cur.rv f.vs1)) (elems 8 (s.cur.rv f.vs2))) =
      (List.range 32).map (fun j => [0, 1, 2, 3].map (fun k => prod (4 * j + k))) := by
    rw [elems, elems, zipWith_map_range]
    exact groups4_map_range 32 prod
  refine vecOp_vec (exec_vdotL6 f s) h (by decide) ?_
  simp only [hprods]
  rw [hact, elems, zipWith_map_range, vOut_eq]
  rfl

/-! ### Philox words (R160) -/

/-- Bit i of element j of a register, as it lies in a block of 128 bits. -/
theorem element_in_block {e j i : Nat} (he : e ∣ 128) (hi : i < e) :
    (e * j + i) / 128 = j * e / 128 ∧ (e * j + i) % 128 = j * e % 128 + i := by
  obtain ⟨q, hq⟩ := he
  have hq0 : 0 < q := Nat.pos_of_ne_zero fun h => by simp [h] at hq
  have hmod : j * e % 128 = e * (j % q) := by rw [Nat.mul_comm j e, hq, Nat.mul_mod_mul_left]
  have hfits : j * e % 128 + i < 128 := by
    calc j * e % 128 + i < e * (j % q) + e := by omega
      _ = e * (j % q + 1) := rfl
      _ ≤ e * q := Nat.mul_le_mul_left e (Nat.mod_lt j hq0)
      _ = 128 := hq.symm
  rw [Nat.mul_comm e j]
  omega

theorem elemOf_philoxRaw {e j : Nat} (he : e ∣ 128) (hj : j < 1024 / e) (base seed : Nat) :
    elemOf e (BitVec.ofNat 1024 (philoxRaw base seed)).toNat j =
      philox ((base + j * e / 128) % 2 ^ 128) seed / 2 ^ (j * e % 128) % 2 ^ e := by
  apply Nat.eq_of_testBit_eq
  intro i
  rw [elemOf_testBit, Nat.testBit_mod_two_pow, Nat.testBit_div_two_pow]
  by_cases hi : i < e
  · obtain ⟨hdiv, hmod⟩ := element_in_block (j := j) he hi
    have hend : e * (j + 1) ≤ 1024 := (Nat.mul_le_mul_left _ hj).trans (Nat.mul_div_le _ _)
    have hk : e * j + i < 1024 := by rw [Nat.mul_succ] at hend; omega
    have hblock : j * e / 128 < 8 := by omega
    rw [← BitVec.getLsbD, BitVec.getLsbD_ofNat, philoxRaw, packNat_testBit (by decide), hdiv, hmod, getD_map_range _ _ _ hblock,
      Nat.add_comm i]
    simp [hi, hk]
  · simp only [hi, decide_false, Bool.false_and]

theorem Fmt.width_dvd (t : Fmt) : Fmt.width t ∣ 128 := by cases t <;> decide

theorem vrand_gives {s : State} {g : VrF} (h : Clean s (.vrand g)) :
    let e := Fmt.width g.et
    let count := (s.cur.rv g.vs2).toNat % 2 ^ 128
    let seed := (s.cur.rv g.vs1).toNat % 2 ^ 64
    VecGives s (.vrand g) g.vd 12 e (s.cur.active e g.pg)
      (fun j => randEl g.et (philox ((count + j * e / 128) % 2 ^ 128) seed / 2 ^ (j * e % 128) % 2 ^ e)) := by
  intro e count seed
  refine (vOutI_gives (exec_vrand g s) h (Fmt.width_pos g.et) (by simp only [act_eq, elems, List.map_map]; rfl)).congr
    (fun _ _ => rfl) (fun j hj _ => ?_) rfl
  rw [Function.comp_apply, elemOf_philoxRaw (Fmt.width_dvd g.et) hj]

end Sys2Proof.Machine

namespace Sys2Proof

open Sys2Proof.Machine

/-- Settles O16: every node of the tree and every running result stands for a sum modulo the range; the L6 and Philox forms are lists
read by their places. -/
theorem sumsLogarithmicRandom : Obligations.SumsLogarithmicRandom := by
  unfold Obligations.SumsLogarithmicRandom
  refine ⟨fun s f hvec hint => ?_, fun s f g => ?_⟩
  · intro c w n act total
    have htotal (j : Nat) : activeSum act (c.el w f.vs1) 0 j = total j := by rw [activeSum, ← List.range_eq_range']
    have hadd : elAdd f.et c.c.rm = addMod w := elAdd_of_int hint c.c.rm
    have hred : RedVal.IsSum w (redAt (elAdd f.et c.c.rm) act (c.el w f.vs1) f.et.log2n 0) (total n) := by
      have hroot := redAt_isSum w act (c.el w f.vs1) f.et.log2n 0
      rwa [Nat.zero_mul, ← log2n_pow hvec, htotal, ← hadd] at hroot
    have hrun (j : Nat) : RedVal.IsSum w (runAt (elAdd f.et c.c.rm) act (c.el w f.vs1) j) (total j) := by
      rw [hadd, ← htotal]
      exact runAt_isSum w act _ j
    refine ⟨fun h => ?_, fun h => ?_⟩
    · exact (reduce_gives (op := fun c => elAdd f.et c.c.rm) (exec_vredsum f s) hvec h).congr (fun _ _ => rfl)
        (fun _ _ _ => hred.1) hred.2
    · exact (vScan_gives (op := fun c => elAdd f.et c.c.rm) (exec_vscansum f s) h).congr (fun _ _ => rfl)
        (fun j _ _ => (hrun (j + 1)).1) ((raisedBy_congr fun j _ _ => (hrun (j + 1)).2).trans (raisedBy_zero _ _))
  · intro c rm a b prod terms dot w seed count
    refine ⟨fun h => vmulL6_gives h, fun h => (vdotL6_gives h).of_sameEl fun j => ?_, fun h => vrand_gives h⟩
    exact .of_eq (elDotL6_eq rm _ _)

end Sys2Proof
end

section
/-! SUPPORT. The trap of the first check that fails (R167, R386): of one access, and of the elements of a vector form. -/

namespace Sys2Proof.Machine

/-! ### One access -/

/-- A check that fails ends what comes after it. -/
theorem bind_of_error {α β : Type} {m : Except Fail α} {k : α → Except Fail β} {e : Fail} (hm : m = .error e) :
    (m >>= k) = .error e := by
  subst hm
  rfl

/-- The cause that names no element (landing-full) is none of R167's. -/
theorem ne_landingFull_of_refuses {s : State} {h : HReg} {spaces : List Nat} {perm : BitVec 8} {align off z : Nat} {e : BitVec 8}
    (href : s.refuses h spaces perm align off z = some e) : e ≠ 0x27 := by
  obtain ⟨x, hx, rfl⟩ := Option.map_eq_some_iff.1 href
  have hcause : x.1 ∈ (s.accessChecks h spaces perm align off z).map (·.1) := List.mem_map_of_mem (List.mem_of_find?_eq_some hx)
  have hlist : (s.accessChecks h spaces perm align off z).map (·.1) = [0x20, 0x21, 0x22, 0x23, 0x24, 0x25, 0x26, 0x26, 0x26] := rfl
  intro h27
  rw [hlist, h27] at hcause
  exact absurd hcause (by decide)

theorem check_of_refuses_some {s : State} {h : HReg} {spaces : List Nat} {perm : BitVec 8} {align off z : Nat} {e : BitVec 8}
    (href : s.refuses h spaces perm align off z = some e) :
    s.check s.iss.core s.cur h { spaces := spaces, perm := perm, align := align } off z = .error ⟨e, BitVec.ofNat 64 off⟩ := by
  obtain ⟨x, hx, rfl⟩ := Option.map_eq_some_iff.1 href
  rw [check_eq_passes]
  exact passes_showing_of_some hx

/-- An operation that begins with the checks of an access takes the trap of the first that fails. -/
theorem traps_of_refuses {s : State} {i : Instr} {k : State → Core → Except Fail State} {rest : Unit → Except Fail State}
    {h : HReg} {spaces : List Nat} {perm : BitVec 8} {align off z : Nat} {e : BitVec 8} (hexec : exec i s = slotOpS i s k)
    (hk : k s s.cur = s.check s.iss.core s.cur h { spaces := spaces, perm := perm, align := align } off z >>= rest)
    (hclean : Clean s i) (href : s.refuses h spaces perm align off z = some e) : Traps s i e (BitVec.ofNat 64 off) := by
  rw [Traps, hexec]
  exact slotOpS_fail (e := ⟨e, BitVec.ofNat 64 off⟩) hclean (hk.trans (bind_of_error (check_of_refuses_some href)))

/-! ### The elements of a vector form -/

section Shape

variable {i : Instr} {els : Core → List (Nat × Nat)} {s : State} {k : State → Core → Except Fail State}

theorem slotOpE_clean {t : State} (h : s.poisonTrap i 0 = none) (hk : k s s.cur = .ok t) : slotOpE i els s k = .next t := by
  unfold slotOpE
  rw [h, hk]

theorem slotOpE_fail {e : Fail} (h : s.poisonTrap i 0 = none) (hk : k s s.cur = .error e) : slotOpE i els s k =
    .next (s.raise { mkTrap e.cause e.tval s.iss.slot s.cur with elem := e.elem (els s.cur) }) := by
  unfold slotOpE
  rw [h, hk]

end Shape

theorem checkAll_cons (s : State) (n : Nat) (c : Core) (h : HReg) (nd : Need) (o : Nat) (offs : List Nat) (z : Nat) :
    s.checkAll n c h nd (o :: offs) z = s.check n c h nd o z >>= fun _ => s.checkAll n c h nd offs z := by
  unfold State.checkAll
  rw [List.forIn_cons]
  cases s.check n c h nd o z <;> rfl

theorem checkAll_append_of_ok {s : State} {n z : Nat} {c : Core} {h : HReg} {nd : Need} {pre : List Nat}
    (hpre : ∀ o ∈ pre, s.check n c h nd o z = .ok ()) (offs : List Nat) :
    s.checkAll n c h nd (pre ++ offs) z = s.checkAll n c h nd offs z := by
  induction pre with
  | nil => rfl
  | cons o t ih =>
    rw [List.cons_append, checkAll_cons, hpre o List.mem_cons_self]
    exact ih fun o ho => hpre o (List.mem_cons_of_mem _ ho)

/-- The handle's own checks come first in those of the first element. -/
theorem checkAny_cons (s : State) (n : Nat) (c : Core) (h : HReg) (nd : Need) (o : Nat) (offs : List Nat) (z : Nat) :
    s.checkAny n c h nd (o :: offs) z = s.checkAll n c h nd (o :: offs) z := by
  rw [checkAll_cons, State.checkAny, checkAll_cons, State.check, List.headD_cons]
  cases checkHandle c h nd.spaces (BitVec.ofNat 64 o) with
  | error e => rfl
  | ok =>
    cases checkRights c h nd.perm (BitVec.ofNat 64 o) with
    | error e => rfl
    | ok => rfl

section Elements

variable {s : State} {h : HReg} {spaces : List Nat} {perm : BitVec 8} {e : BitVec 8}

theorem checkAny_nil_of_refusesHandle {align z : Nat} (href : s.refusesHandle h spaces perm = some e) :
    s.checkAny s.iss.core s.cur h { spaces := spaces, perm := perm, align := align } [] z = .error ⟨e, 0⟩ := by
  obtain ⟨x, hx, rfl⟩ := Option.map_eq_some_iff.1 href
  have hchecks : (checkHandle s.cur h spaces 0 >>= fun _ => checkRights s.cur h perm 0) = .error ⟨x.1, 0⟩ := by
    rw [checkHandle_eq_passes s h spaces perm 1 0 0, checkRights_eq_passes s h spaces perm 1 0 0, ← passes_append]
    exact passes_showing_of_some hx
  have hany : s.checkAny s.iss.core s.cur h { spaces := spaces, perm := perm, align := align } [] z =
      (checkHandle s.cur h spaces 0 >>= fun _ => checkRights s.cur h perm 0) >>= fun _ => .ok () := by
    rw [bind_assoc]
    rfl
  rw [hany]
  exact bind_of_error hchecks

theorem elem_nil (f : Fail) : f.elem [] = 0 := by
  rw [Fail.elem]
  split <;> rfl

variable {js : List Nat} {place : Nat → Nat} {j : Nat} (hsorted : js.Pairwise (· < ·)) (hj : j ∈ js)
  (hfirst : ∀ k ∈ js, k < j → s.refuses h spaces perm 4 (place k) 4 = none) (href : s.refuses h spaces perm 4 (place j) 4 = some e)
include hsorted hj hfirst href

/-- Of elements in rising order the first that fails any check decides. -/
theorem checkAll_of_first :
    s.checkAll s.iss.core s.cur h { spaces := spaces, perm := perm, align := 4 } (js.map place) 4 =
      .error ⟨e, BitVec.ofNat 64 (place j)⟩ := by
  obtain ⟨pre, post, rfl⟩ := List.append_of_mem hj
  have hpre : ∀ k ∈ pre, k < j := fun k hk => (List.pairwise_append.1 hsorted).2.2 k hk j List.mem_cons_self
  rw [List.map_append, checkAll_append_of_ok, List.map_cons, checkAll_cons]
  · exact bind_of_error (check_of_refuses_some href)
  · intro o ho
    obtain ⟨k, hk, rfl⟩ := List.mem_map.1 ho
    exact check_of_refuses (hfirst k (List.mem_append_left _ hk) (hpre k hk))

/-- TELEM names it: no element before it has its offset, which would fail too. -/
theorem elem_of_first (hplace : ∀ k, place k < 2 ^ 48) :
    Fail.elem ⟨e, BitVec.ofNat 64 (place j)⟩ (js.map fun k => (k, place k)) = j := by
  obtain ⟨pre, post, rfl⟩ := List.append_of_mem hj
  have hpre : ∀ k ∈ pre, k < j := fun k hk => (List.pairwise_append.1 hsorted).2.2 k hk j List.mem_cons_self
  have hother : (pre.map fun k => (k, place k)).find? (fun x => BitVec.ofNat 64 x.2 == BitVec.ofNat 64 (place j)) = none := by
    rw [List.find?_eq_none]
    intro x hx hsame
    obtain ⟨k, hk, rfl⟩ := List.mem_map.1 hx
    have hsame : place k = place j := by
      have hnat := congrArg BitVec.toNat (beq_iff_eq.1 hsame)
      have hk48 := hplace k
      have hj48 := hplace j
      simp only [BitVec.toNat_ofNat] at hnat
      omega
    have hnone := hfirst k (List.mem_append_left _ hk) (hpre k hk)
    rw [hsame, href] at hnone
    cases hnone
  have hfind : ((pre ++ j :: post).map fun k => (k, place k)).find? (fun x => BitVec.ofNat 64 x.2 == BitVec.ofNat 64 (place j)) =
      some (j, place j) := by
    rw [List.map_append, List.find?_append, hother, List.map_cons, List.find?_cons_of_pos (by exact beq_self_eq_true _)]
    rfl
  rw [Fail.elem, if_neg (ne_landingFull_of_refuses href)]
  dsimp only
  rw [hfind]
  rfl

end Elements

/-- R167, R386: the trap of the lowest of the elements `js` that fails, at the offset that `place` gives; with no element the handle's own. -/
def TrapsLowest (s : State) (i : Instr) (h : HReg) (spaces : List Nat) (perm : BitVec 8) (e : BitVec 8) (js : List Nat) (place : Nat → Nat) :
    Prop :=
  (∀ j ∈ js, Clean s i → (∀ k ∈ js, k < j → s.refuses h spaces perm 4 (place k) 4 = none) →
      s.refuses h spaces perm 4 (place j) 4 = some e → TrapsAt s i e (BitVec.ofNat 64 (place j)) j) ∧
    (js = [] → Clean s i → s.refusesHandle h spaces perm = some e → ∃ v, Traps s i e v)

section Lowest

variable {s : State} {i : Instr} {els : Core → List (Nat × Nat)} {k : State → Core → Except Fail State} {rest : Unit → Except Fail State}
  {h : HReg} {spaces : List Nat} {perm e : BitVec 8} {js offs : List Nat} {place : Nat → Nat} (hexec : exec i s = slotOpE i els s k)
  (hels : els s.cur = js.map fun j => (j, place j)) (hsorted : js.Pairwise (· < ·)) (hplace : ∀ j, place j < 2 ^ 48)
  (hoffs : offs = js.map place)
include hexec hels hsorted hplace hoffs

theorem trapsAt_of_checkAll {j : Nat} (hj : j ∈ js)
    (hk : k s s.cur = s.checkAll s.iss.core s.cur h { spaces := spaces, perm := perm, align := 4 } offs 4 >>= rest)
    (hclean : Clean s i) (hfirst : ∀ k ∈ js, k < j → s.refuses h spaces perm 4 (place k) 4 = none)
    (href : s.refuses h spaces perm 4 (place j) 4 = some e) : TrapsAt s i e (BitVec.ofNat 64 (place j)) j := by
  subst hoffs
  have hfail := slotOpE_fail (els := els) (e := ⟨e, BitVec.ofNat 64 (place j)⟩) hclean
    (hk.trans (bind_of_error (checkAll_of_first hsorted hj hfirst href)))
  rw [hels, elem_of_first hsorted hj hfirst href hplace] at hfail
  exact hexec.trans hfail

theorem trapsLowest_of_checkAll (hne : js ≠ [])
    (hk : k s s.cur = s.checkAll s.iss.core s.cur h { spaces := spaces, perm := perm, align := 4 } offs 4 >>= rest) :
    TrapsLowest s i h spaces perm e js place :=
  ⟨fun _ hj hclean hfirst href => trapsAt_of_checkAll hexec hels hsorted hplace hoffs hj hk hclean hfirst href, fun hnil => absurd hnil hne⟩

theorem trapsLowest_of_checkAny
    (hk : k s s.cur = s.checkAny s.iss.core s.cur h { spaces := spaces, perm := perm, align := 4 } offs 4 >>= rest) :
    TrapsLowest s i h spaces perm e js place := by
  subst hoffs
  cases js with
  | nil =>
    refine ⟨fun j hj => absurd hj List.not_mem_nil, fun _ hclean href => ⟨0, ?_⟩⟩
    have hfail := slotOpE_fail (els := els) (e := ⟨e, 0⟩) hclean (hk.trans (bind_of_error (checkAny_nil_of_refusesHandle href)))
    rw [hels, List.map_nil, elem_nil] at hfail
    exact hexec.trans hfail
  | cons a t =>
    rw [List.map_cons, checkAny_cons] at hk
    exact trapsLowest_of_checkAll hexec hels hsorted hplace rfl (List.cons_ne_nil a t) hk

end Lowest

/-! ### The elements that an index vector gives -/

theorem idxEls_map_range (place : Nat → Nat) {act sel : Nat → Bool} (hact : ∀ j, j < 32 → act j = sel j) :
    idxEls ((List.range 32).map place) act = ((List.range 32).filter sel).map fun j => (j, place j) := by
  have hpairs : ((List.range 32).map place).zipIdx.map (fun (o, j) => (j, o)) = (List.range 32).map fun j => (j, place j) :=
    List.ext_getElem (by simp) fun j _ _ => by simp
  rw [idxEls, hpairs, List.filter_map]
  refine congrArg _ (List.filter_congr fun j hj => ?_)
  exact hact j (List.mem_range.1 hj)

theorem spots_lt (s : State) (xi : XReg) (imm : Int) (j : Nat) : s.spots xi imm j < 2 ^ 48 := by
  rw [State.spots]
  omega

theorem activeList_getD (c : Core) (p : PReg) {j : Nat} (hj : j < 32) : (activeList 32 (c.pg p)).getD j false = c.active 32 p j := by
  rw [activeList_eq, List.getD_eq_getElem?_getD, List.getElem?_map, List.getElem?_range hj]
  rfl

theorem active_sorted (c : Core) (p : PReg) : ((List.range 32).filter (c.active 32 p)).Pairwise (· < ·) :=
  List.pairwise_lt_range.filter _

section Forms

variable {s : State} {e : BitVec 8}

theorem vgather_trapsLowest (f : VmF) : TrapsLowest s (.vgather f) f.h (spacesLoad f.l) pR e (List.range 32)
    (s.spots f.xi (if f.l then 0 else 16 * f.imm.toInt)) := by
  have hels : idxEls (gatherOffs f s.cur) (fun _ => true) =
      (List.range 32).map fun j => (j, s.spots f.xi (if f.l then 0 else 16 * f.imm.toInt) j) := by
    rw [gatherOffs_eq, idxEls_map_range (sel := fun _ => true) _ fun _ _ => rfl, List.filter_true]
  exact trapsLowest_of_checkAll (exec_vgather f s) hels List.pairwise_lt_range (spots_lt s _ _) (gatherOffs_eq s f) (by decide) rfl

theorem vscatter_trapsLowest (f : VsmF) : TrapsLowest s (.vscatter f) f.h spacesStore pW e ((List.range 32).filter (s.cur.active 32 f.pg))
    (s.spots f.xi 0) := by
  have hels : idxEls (idxOffsets (s.cur.rv (idxReg f.xi)) 0) ((activeList 32 (s.cur.pg f.pg)).getD · false) =
      ((List.range 32).filter (s.cur.active 32 f.pg)).map fun j => (j, s.spots f.xi 0 j) := by
    rw [idxOffsets_zero, idxEls_map_range]
    exact fun _ => activeList_getD s.cur f.pg
  exact trapsLowest_of_checkAny (exec_vscatter f s) hels (active_sorted ..) (spots_lt s _ _)
    (scatterEls_offsets s f.xi f.pg (s.cur.rv f.vt)) rfl

theorem vamoInstr_trapsLowest {i : Instr} {f : VvF} {op : VamoOp} (hexec : exec i s = vamoInstr i f op s) :
    TrapsLowest s i f.h spacesAtomic pRWA e ((List.range 32).filter (s.cur.active 32 f.pg)) (s.spots f.vi 0) := by
  have hels : idxEls (idxOffsets (s.cur.rv (idxReg f.vi)) 0) ((lanes32 (s.cur.pg f.pg)).getLsbD ·) =
      ((List.range 32).filter (s.cur.active 32 f.pg)).map fun j => (j, s.spots f.vi 0 j) := by
    rw [idxOffsets_zero, idxEls_map_range]
    exact fun _ => getLsbD_lanes32 s.cur f.pg
  exact trapsLowest_of_checkAny hexec hels (active_sorted ..) (spots_lt s _ _) (vamoEls_offsets s f.vi f.pg) rfl

end Forms

end Sys2Proof.Machine

namespace Sys2Proof

open Sys2Proof.Machine

/-- Settles O17: each form begins with the checks of its access, or of its elements in rising order. -/
theorem handleChecks : Obligations.HandleChecks := by
  unfold Obligations.HandleChecks
  intro s vm vs sm ld ls am sc vt vv cm e c traps any loads off writes amo on
  have htraps {i : Instr} {k : State → Core → Except Fail State} {rest : Unit → Except Fail State} {h : HReg} {spaces : List Nat}
      {perm : BitVec 8} {align o z : Nat} (hexec : exec i s = slotOpS i s k)
      (hk : k s s.cur = s.check s.iss.core s.cur h { spaces := spaces, perm := perm, align := align } o z >>= rest) :
      traps i h spaces perm align o z := traps_of_refuses hexec hk
  have hamo {i : Instr} {op : AmoOp} (hexec : exec i s = amoOp i am op s) : amo i := htraps hexec rfl
  clear_value traps amo
  exact ⟨htraps (exec_vld vm s) rfl, htraps (exec_vst vs s) rfl, htraps (exec_vstm sm s) rfl, htraps (exec_ld ld s) rfl,
    htraps (exec_st ls s) rfl, htraps (exec_ldSc ls s) rfl, htraps (exec_stSc ls s) rfl,
    hamo (exec_amoadd am s), hamo (exec_amomin am s), hamo (exec_amomax am s), hamo (exec_amominu am s), hamo (exec_amomaxu am s),
    hamo (exec_amoand am s), hamo (exec_amoor am s), hamo (exec_amoxor am s), hamo (exec_amoswap am s), hamo (exec_amocas am s),
    htraps (exec_amoSc sc s) rfl, htraps (exec_lda vt s) rfl, htraps (exec_stl vt s) rfl, htraps (exec_cflush vt s) rfl,
    htraps (exec_vredst vv s) rfl, htraps (exec_cldh cm s) rfl, htraps (exec_csth cm s) rfl,
    vgather_trapsLowest vm, vscatter_trapsLowest sm, vamoInstr_trapsLowest (exec_vamoadd vv s),
    vamoInstr_trapsLowest (exec_vamomin vv s), vamoInstr_trapsLowest (exec_vamomax vv s)⟩

end Sys2Proof
end

section
/-! SUPPORT. Stores through a handle (R165, R174, R179, R181, R263, R346): the bytes that each form gives, and what becomes of them in the own
SPAD and elsewhere. -/

namespace Sys2Proof.Machine

/-! ### Bytes written one by one (R166, R429) -/

theorem State.storeEach_dev (s : State) (bytes : List (Nat × Byte)) : (s.storeEach bytes).dev = s.dev := by
  induction bytes generalizing s with
  | nil => rfl
  | cons b t ih => exact ih _

theorem contains_granules (bytes : List (Nat × Byte)) (g : Nat) :
    (bytes.map fun b => granule b.1).contains g = bytes.any fun b => b.1 / 32 == g := by
  rw [Bool.eq_iff_iff, List.contains_iff_mem, List.mem_map, List.any_eq_true]
  simp only [granule, beq_iff_eq]

theorem contains_coveredGranules (bytes : List (Nat × Byte)) (g : Nat) :
    (coveredGranules (bytes.map (·.1))).contains g = (List.range 32).all fun k => bytes.any fun b => b.1 == 32 * g + k := by
  have hkey (a : Nat) : (bytes.map (·.1)).contains a = bytes.any fun b => b.1 == a := by
    rw [Bool.eq_iff_iff, List.contains_iff_mem, List.mem_map, List.any_eq_true]
    simp only [beq_iff_eq]
  have hwhole : ((List.range 32).all fun k => (bytes.map (·.1)).contains (32 * g + k)) =
      (List.range 32).all fun k => bytes.any fun b => b.1 == 32 * g + k := by simp only [hkey]
  rw [← hwhole, coveredGranules, Bool.eq_iff_iff, List.contains_iff_mem, List.mem_filter, List.mem_dedup]
  refine ⟨And.right, fun hall => ⟨?_, hall⟩⟩
  have hfirst := List.all_eq_true.1 hall 0 (by decide)
  exact List.mem_map.2 ⟨32 * g, List.contains_iff_mem.1 hfirst, by rw [granule]; omega⟩

theorem writesSpad_of_exec {s : State} (hs : s.Ok) {i : Instr} {bytes : List (Nat × Byte)} (hexec : exec i s = .next (s.writeBytes bytes)) :
    WritesSpad s i bytes := by
  obtain ⟨hmem, htags, hmarks, -⟩ := hs
  obtain ⟨htags', hmarks'⟩ := s.writeBytes_tags_marks bytes
  refine ⟨_, hexec, fun a => ?_, fun g => ?_, fun g => ?_, s.storeEach_cores bytes, s.storeEach_dev bytes, (s.writeBytes_keepsRegs bytes).1⟩
  · have hwrite : (s.writeBytes bytes).mem = bytes.foldl (fun m b => Memory.write m b.1 b.2) s.mem := State.storeEach_mem _ _
    rw [State.byte, hwrite, Memory.read_foldl_write hmem]
    rfl
  · rw [htags', KeySet.has_foldl_del _ htags, contains_granules, Bool.and_comm]
  · rw [hmarks', KeySet.has_foldl_del _ hmarks, contains_coveredGranules, Bool.and_comm]

/-! ### What becomes of a store -/

section Store

variable {s : State} {cap : Cap} {off unit : Nat} {bytes : List (Nat × Byte)} {rel acq : Option Scope} {rank : Option Nat}

theorem State.issueStore_nil : s.issueStore cap off [] unit rel acq rank = s := rfl

theorem State.issueStore_spad (hne : bytes ≠ []) (hspace : capSpace cap = spSpad) : s.issueStore cap off bytes unit rel acq rank =
    s.spadStore (mkey .spad s.iss.core (capBase cap + off))
      (fun s => s.writeBytes (bytes.map fun b => (s.place s.iss.core cap b.1, b.2))) := by
  rw [State.issueStore, if_neg (by rwa [List.isEmpty_iff]), if_pos hspace, State.place_spad hspace]

theorem State.issueStore_far (hne : bytes ≠ []) (hspace : capSpace cap ≠ spSpad) : s.issueStore cap off bytes unit rel acq rank =
    s.setCur (s.cur.issueAcc { s.mkAccess (.store bytes) cap off with
      unit := unit, rel := rel, acq := acq, rank := rank
      carries := match rel with
        | some sc => some (scopeWider sc s.cur.m.relFence)
        | none => s.cur.m.relFence }) := by
  rw [State.issueStore, if_neg (by rwa [List.isEmpty_iff]), if_neg hspace]
  cases rel <;> rfl

theorem State.spadStore_of_ok {key : Nat} {f : State → State} (hok : s.spadOk s.iss.core = true) : s.spadStore key f = f s := if_pos hok

end Store

theorem keyOff_spad {cap : Cap} {off : Nat} (hoff : off < 2 ^ 48) (n : Nat) : keyOff (mkey .spad n (capBase cap + off)) = capBase cap + off := by
  have hbase : capBase cap < 2 ^ 48 := (fld cap 0 48).isLt
  rw [keyOff, mkey]
  omega

/-- A store form whose checks have passed, by the space of its handle and the entry of the own SPAD. -/
theorem stores_of_exec {s : State} (hs : s.Ok) {i : Instr} {h : HReg} {off unit : Nat} {bytes : List (Nat × Byte)} {rel acq : Option Scope}
    {rank : Option Nat} (hoff : off < 2 ^ 48) (hexec : exec i s = .next (s.issueStore (s.cur.rh h) off
      (bytes.map fun b => (capBase (s.cur.rh h) + b.1, b.2)) unit rel acq rank)) : Stores s i h off bytes unit rel acq rank := by
  have hmap (hne : bytes ≠ []) : bytes.map (fun b => (capBase (s.cur.rh h) + b.1, b.2)) ≠ [] := by rwa [ne_eq, List.map_eq_nil_iff]
  refine ⟨fun hspace hok => ?_, fun hspace hno hne => ?_, fun hspace hne => ?_, fun hnil => ?_⟩
  · refine writesSpad_of_exec hs (hexec.trans (congrArg _ ?_))
    by_cases hne : bytes = []
    · subst hne
      rfl
    · rw [State.issueStore_spad (hmap hne) hspace, State.spadStore_of_ok hok, List.map_map]
      simp only [State.place_spad hspace]
      rfl
  · rw [State.issueStore_spad (hmap hne) hspace] at hexec
    rw [← keyOff_spad hoff s.iss.core]
    exact dropsSpad_of_exec hexec hno
  · rw [State.issueStore_far (hmap hne) hspace] at hexec
    cases rel <;> exact queues_of_exec hexec
  · rw [hexec, hnil]
    rfl

/-! ### The bytes of each form -/

theorem keyBytes_eq (k n v : Nat) : keyBytes k n v = (List.range n).map fun i => (k + i, BitVec.ofNat 8 (v / 256 ^ i)) :=
  List.ext_getElem (by simp [keyBytes, leBytes_length]) fun i _ _ => by simp [keyBytes, leBytes_getElem]

theorem byteOf_eq {w : Nat} (v : BitVec w) (i : Nat) : byteOf v i = BitVec.ofNat 8 (v.toNat / 256 ^ i) := by
  apply BitVec.eq_of_toNat_eq
  rw [byteOf, BitVec.extractLsb'_toNat, BitVec.toNat_ofNat, Nat.shiftRight_eq_div_pow, Nat.pow_mul]

/-- The bytes of a register value at a capability's offset. -/
theorem bytesAt_eq {w : Nat} (base off n : Nat) (v : BitVec w) : bytesAt (base + off) n v.toNat =
    ((List.range n).map fun k => (off + k, byteOf v k)).map fun b => (base + b.1, b.2) := by
  rw [bytesAt, keyBytes_eq, List.map_map]
  refine List.map_congr_left fun k _ => ?_
  rw [Function.comp_apply, byteOf_eq, Nat.add_assoc]

theorem laneBytes_eq (base off : Nat) (v : Vec) (c : Core) (p : PReg) : laneBytes (base + off) v (c.pg p) =
    (((List.range 128).filter (c.active 8 p)).map fun k => (off + k, byteOf v k)).map fun b => (base + b.1, b.2) := by
  have hact : ∀ k ∈ List.range 128, (c.pg p).getLsbD (base + (off + k) - (base + off)) = c.active 8 p k := fun k hk => by
    have hk128 : k < 128 := List.mem_range.1 hk
    rw [← Nat.add_assoc, Nat.add_sub_cancel_left, Core.pg, Core.active]
    by_cases hp : p = 0
    · rw [if_pos hp, hp, BitVec.getLsbD_allOnes, decide_eq_true hk128]
      rfl
    · rw [if_neg hp, beq_eq_false_iff_ne.2 hp, Bool.false_or, Nat.mul_div_cancel _ (by decide)]
  rw [laneBytes, bytesAt_eq, List.map_map, List.filter_map, List.map_map]
  exact congrArg _ (List.filter_congr hact)

theorem byteOf_elemOf (v : Vec) (j : Nat) {k : Nat} (hk : k < 4) : BitVec.ofNat 8 (elemOf 32 v.toNat j / 256 ^ k) = byteOf v (4 * j + k) := by
  have hlow (x : Nat) : x % 2 ^ 32 / 256 ^ k % 2 ^ 8 = x / 256 ^ k % 2 ^ 8 := by
    interval_cases k <;> omega
  have hpow : 2 ^ (32 * j) * 256 ^ k = 256 ^ (4 * j + k) := by
    rw [pow_add, pow_mul, pow_mul]
    rfl
  apply BitVec.eq_of_toNat_eq
  rw [byteOf_eq, BitVec.toNat_ofNat, BitVec.toNat_ofNat, elemOf, hlow, Nat.div_div_eq_div_mul, hpow]

/-- The four bytes of each chosen element of a vector, at its offset. -/
def elemBytes (v : Vec) (spot : Nat → Nat) (js : List Nat) : List (Nat × Byte) :=
  js.flatMap fun j => (List.range 4).map fun k => (spot j + k, byteOf v (4 * j + k))

theorem bytesAt_elem (base : Nat) (v : Vec) (spot : Nat → Nat) (js : List Nat) :
    js.flatMap (fun j => bytesAt (base + spot j) 4 (elemOf 32 v.toNat j)) = (elemBytes v spot js).map fun b => (base + b.1, b.2) := by
  rw [elemBytes, List.map_flatMap]
  refine List.flatMap_congr fun j _ => ?_
  rw [bytesAt, keyBytes_eq, List.map_map]
  refine List.map_congr_left fun k hk => ?_
  rw [Function.comp_apply, byteOf_elemOf v j (List.mem_range.1 hk), Nat.add_assoc]

/-- The active elements of a VSCATTER, each with its offset and its value. -/
theorem scatterEls_eq (s : State) (xi : XReg) (p : PReg) (v : Vec) :
    (((idxOffsets (s.cur.rv (idxReg xi)) 0).zip (elems 32 v)).zip (activeList 32 (s.cur.pg p))).filter (·.2) =
      ((List.range 32).filter (s.cur.active 32 p)).map fun j => ((s.spots xi 0 j, elemOf 32 v.toNat j), s.cur.active 32 p j) := by
  rw [idxOffsets_zero, activeList_eq, elems, List.zip_map', List.zip_map', List.filter_map]
  rfl

section Forms

variable {s : State} (hs : s.Ok)
include hs

/-- A form that checks an access of n bytes and stores a value of that width. -/
theorem stores_whole {i : Instr} {k : State → Core → Except Fail State} {h : HReg} {spaces : List Nat} {perm : BitVec 8} {off n w unit : Nat}
    {v : BitVec w} {rel acq : Option Scope} {rank : Option Nat} (hexec : exec i s = slotOpS i s k)
    (hk : k s s.cur = s.check s.iss.core s.cur h { spaces := spaces, perm := perm, align := n } off n >>= fun _ =>
      .ok (s.issueStore (s.cur.rh h) off (bytesAt (capBase (s.cur.rh h) + off) n v.toNat) unit rel acq rank))
    (hoff : off < 2 ^ 48) (hclean : Clean s i) (hnone : s.refuses h spaces perm n off n = none) :
    Stores s i h off ((List.range n).map fun k => (off + k, byteOf v k)) unit rel acq rank := by
  refine stores_of_exec hs hoff ?_
  rw [← bytesAt_eq]
  exact hexec.trans (slotOpS_clean hclean (hk.trans (bind_of_ok (check_of_refuses hnone) rfl)))

theorem vstm_stores {g : VsmF} (hclean : Clean s (.vstm g))
    (hnone : s.refuses g.h [0, 1, 2, 4, 5] pW 128 (s.offset (.vstm g)).toNat 128 = none) :
    Stores s (.vstm g) g.h (s.offset (.vstm g)).toNat (((List.range 128).filter (s.cur.active 8 g.pg)).map fun k =>
      ((s.offset (.vstm g)).toNat + k, byteOf (s.cur.rv g.vt) k)) (vecUnit (s.cur.rh g.h)) := by
  refine stores_of_exec hs (BitVec.isLt _) ?_
  rw [← laneBytes_eq]
  exact (exec_vstm g s).trans (slotOpS_clean hclean (bind_of_ok (check_of_refuses hnone) rfl))

theorem vscatter_stores {g : VsmF} (hclean : Clean s (.vscatter g))
    (hnone : s.refusesLive g.h [0, 1, 2, 4, 5] pW 4 (((List.range 32).filter (s.cur.active 32 g.pg)).map (s.spots g.xi 0)) 4 = none) :
    Stores s (.vscatter g) g.h (s.spots g.xi 0 (((List.range 32).filter (s.cur.active 32 g.pg)).headD 0))
      (elemBytes (s.cur.rv g.vt) (s.spots g.xi 0) ((List.range 32).filter (s.cur.active 32 g.pg))) 4 := by
  have hels := scatterEls_eq s g.xi g.pg (s.cur.rv g.vt)
  have hoffs := scatterEls_offsets s g.xi g.pg (s.cur.rv g.vt)
  rw [← hoffs] at hnone
  refine stores_of_exec hs (spots_lt s _ _ _) ((exec_vscatter g s).trans (slotOpE_clean hclean
    (bind_of_ok (checkAny_of_refusesLive hnone) (congrArg Except.ok ?_))))
  rw [hoffs, hels, List.flatMap_map, ← bytesAt_elem]
  cases (List.range 32).filter (s.cur.active 32 g.pg) with
  | nil => rw [List.flatMap_nil, State.issueStore_nil, State.issueStore_nil]
  | cons j js => rw [List.map_cons, List.headD_cons, List.headD_cons]

end Forms

end Sys2Proof.Machine

namespace Sys2Proof

open Sys2Proof.Machine

/-- Settles O19: each form is its checks and then one store of the bytes that it gives. -/
theorem handleStores : Obligations.HandleStores := by
  unfold Obligations.HandleStores
  intro s f g q r hs c w fo go qo co ro els spot vec word unit
  exact ⟨stores_whole hs (exec_vst f s) rfl (BitVec.isLt _), vstm_stores hs, vscatter_stores hs,
    stores_whole hs (exec_st q s) rfl (BitVec.isLt _), stores_whole hs (exec_stl r s) rfl (BitVec.isLt _),
    stores_whole hs (exec_stSc q s) rfl (BitVec.isLt _)⟩

end Sys2Proof
end

section
/-! SUPPORT. The counterexample to the statement on atomics: a core beyond the package's 768, whose SPAD has the keys of PEER. -/

namespace Sys2Proof.Machine

/-- A core's number from which on `mkey` gives the keys of a SPAD to PEER (R2 knows 768 cores). -/
def peerCore : Nat := 4 * 65536

/-- The slice of that core's cluster holds PEER's first line, of which byte 100, written with a 7, is still to reach its home (R253). -/
def peerLine : CLine := { lineBehind with key := mkey .peer 0 0 }

/-- That core acts, with its SPAD in h1; the stream of the line, in key slot 8, has an open fabric port. -/
def farAtomic : State :=
  { State.reset with
    cores := [(peerCore, Core.idle.wh 1 pastCaches true)]
    iss := { Issue.none with core := peerCore }
    dev := { atGlobEnd.dev with ms := { Device.reset.ms with lines := [(clusterOf peerCore, peerLine)] } } }

/-- AMOADD x5 of the first doubleword, which neither acquires nor releases. -/
def firstAdd : AmoF := { xd := 5, xs := 0, h := 1, xi := 0, scope := .core, ord := .relaxed }

theorem farAtomic_ok : farAtomic.Ok := by
  refine ⟨by decide, by decide, by decide, by decide, ?_, by simp [farAtomic, State.reset, atGlobEnd, Device.reset]⟩
  intro e he
  obtain rfl := List.mem_singleton.mp he
  exact Core.wh_ok 1 pastCaches true Core.idle_ok

theorem farAtomic_admits :
    Clean farAtomic (.amoadd firstAdd) ∧
      farAtomic.refuses 1 [0, 1, 2, 5] pRWA 8 (farAtomic.offset (.amoadd firstAdd)).toNat 8 = none ∧
      capSpace (farAtomic.cur.rh 1) = spSpad ∧ farAtomic.spadOk peerCore = true ∧
      mkey .spad peerCore (capBase (farAtomic.cur.rh 1) + (farAtomic.offset (.amoadd firstAdd)).toNat) = mkey .peer 0 0 ∧
      farAtomic.marked (mkey .peer 0 0) 8 = false := by
  decide +kernel

/-- Byte 100 of PEER's unit 0 after an outcome. -/
def peerByte : Host.Outcome State Fault Refusal → Option Byte
  | .next t => some (t.byte (mkey .peer 0 0 + 100))
  | _ => none

/-- The atomic is performed as one on PEER, which first has what the slice's copy owes written back. -/
theorem peerByte_exec_farAtomic : peerByte (exec (.amoadd firstAdd) farAtomic) = some 7 := by decide +kernel

end Sys2Proof.Machine

namespace Sys2Proof

open Sys2Proof.Machine

/-- Refutes O20: the statement puts no bound on the acting core's number. SPAD of core 262144 has the keys of PEER, so an atomic there has
the slice's copy of its line written back: byte 100, which it does not write, changes. -/
theorem not_atomics : ¬ Obligations.Atomics := by
  unfold Obligations.Atomics
  intro h
  obtain ⟨hclean, hadmit, hspad, hok, hkey, hmark⟩ := farAtomic_admits
  obtain ⟨hscalar, -⟩ := h
  obtain ⟨hadd, -⟩ := hscalar farAtomic firstAdd ⟨0, 0, 0, 0⟩ farAtomic_ok
  obtain ⟨-, -, hdone, -⟩ := hadd hclean hadmit
  obtain ⟨t, old, hexec, -, -, hframe, -⟩ := hdone hspad hok (by rw [← hmark, ← hkey]; rfl)
  have hstays : t.byte (mkey .peer 0 0 + 100) = farAtomic.byte (mkey .peer 0 0 + 100) :=
    hframe _ (.inr (by rw [← hkey]; exact Nat.add_le_add_left (by decide) _)) fun hacquires => absurd hacquires (by decide)
  have hbyte := peerByte_exec_farAtomic
  rw [hexec, peerByte, hstays] at hbyte
  exact absurd hbyte (by decide)

end Sys2Proof
end

section
/-! SUPPORT. The counterexample to the statement on capabilities: a slice holds a dirty line with a mark at a key of the own SPAD. -/

namespace Sys2Proof.Machine

/-- The whole own SPAD stands in h1 of core 0, and cluster 0's slice holds SPAD's first line, dirty and with a mark on its first granule. -/
def soiledSpad : State :=
  { State.reset with
    cores := [(0, Core.idle.wh 1 pastCaches true)]
    dev := { Device.reset with ms := { Device.reset.ms with lines := [(0, { owingLine with key := mkey .spad 0 0, marks := 1 })] } } }

/-- CLDH h2 of the first granule. -/
def firstCldh : CmF := { ha := 2, hb := 1, xa := 0, imm := 0 }

theorem soiledSpad_ok : soiledSpad.Ok := by
  refine ⟨by decide, by decide, by decide, by decide, ?_, by simp [soiledSpad, State.reset, Device.reset]⟩
  intro e he
  obtain rfl := List.mem_singleton.mp he
  exact Core.wh_ok 1 pastCaches true Core.idle_ok

theorem soiledSpad_admits :
    Clean soiledSpad (.cldh firstCldh) ∧
      soiledSpad.refuses firstCldh.hb [0, 1, 2] 0x09 32 (soiledSpad.offset (.cldh firstCldh)).toNat 32 = none ∧
      capSpace (soiledSpad.cur.rh firstCldh.hb) = spSpad ∧ soiledSpad.spadOk soiledSpad.iss.core = true ∧
      soiledSpad.marked (mkey .spad soiledSpad.iss.core (capBase (soiledSpad.cur.rh firstCldh.hb) + (soiledSpad.offset (.cldh firstCldh)).toNat)) 32 =
        false := by
  decide +kernel

/-- A marked handle is on its way after an outcome. -/
def bringsMarked : Host.Outcome State Fault Refusal → Bool
  | .next t => t.cur.t.pend.any fun p => match p.w with
    | .hMarked _ _ _ => true
    | _ => false
  | _ => false

/-- A read takes the mark that the line holds of the granule (R427). -/
theorem bringsMarked_exec_soiledSpad : bringsMarked (exec (.cldh firstCldh) soiledSpad) = true := by decide +kernel

theorem bringsMarked_unmarked (v : Cap) (tag : Bool) :
    bringsMarked (.next (soiledSpad.setCur (soiledSpad.cur.push (mkPend soiledSpad.iss.slot 3 (.h firstCldh.ha v tag))))) = false := by
  rw [bringsMarked, State.cur_setCur]
  rfl

end Sys2Proof.Machine

namespace Sys2Proof

open Sys2Proof.Machine

/-- Refutes O22: a line of a slice may have any key. Where a dirty one at the own SPAD's first granule has a mark of it, CLDH's result is
marked, though no mark of the granule stands in memory. -/
theorem not_capabilitiesAndBarriers : ¬ Obligations.CapabilitiesAndBarriers := by
  unfold Obligations.CapabilitiesAndBarriers
  intro h
  obtain ⟨hclean, hadmit, hspad, hok, hmark⟩ := soiledSpad_admits
  obtain ⟨hcaps, -⟩ := h
  obtain ⟨hcldh, -⟩ := hcaps soiledSpad firstCldh ⟨0, 0, 0, 0, 0⟩ ⟨0, 0, 0⟩ ⟨0, 0⟩ 0 soiledSpad_ok
  obtain ⟨hadmitted, -⟩ := hcldh hclean hadmit
  obtain ⟨v, tag, -, -, hgives⟩ := hadmitted hspad hok
  have hunmarked : exec (.cldh firstCldh) soiledSpad =
      .next (soiledSpad.setCur (soiledSpad.cur.push (mkPend soiledSpad.iss.slot 3 (.h firstCldh.ha v tag)))) :=
    hgives.trans (by rw [if_neg (Bool.eq_false_iff.1 hmark)])
  have hmarked := bringsMarked_exec_soiledSpad
  rw [hunmarked, bringsMarked_unmarked] at hmarked
  cases hmarked

end Sys2Proof
end

section
/-! SUPPORT. The low-rank operations (R207 to R219): the value of lrdots run one after another, factor columns as they are stored, and what an
operation enters the engine with. -/

namespace Sys2Proof.Machine

/-! ### Values of runs that collect flags (R212) -/

/-- Whatever flags stood before, the run gives `a`. -/
def RunsTo {α : Type} (m : FpM α) (a : α) : Prop := ∀ fl, (m.run fl).1 = a

section Runs

variable {α β : Type}

theorem runsTo_pure (a : α) : RunsTo (pure a) a := fun _ => rfl

theorem RunsTo.bind {m : FpM α} {a : α} {k : α → FpM β} {b : β} (hm : RunsTo m a) (hk : RunsTo (k a) b) : RunsTo (m >>= k) b := by
  intro fl
  change ((k (m.run fl).1).run (m.run fl).2).1 = b
  rw [hm]
  exact hk _

theorem runsTo_fdot (rm : Rm) (n : Nat) (x y : Nat → Nat) :
    RunsTo (fdot rm ((List.range n).map x) ((List.range n).map y)) (dotOf rm n x y) := fun _ => rfl

theorem runsTo_mapM {f : α → FpM β} {g : α → β} {l : List α} (h : ∀ a ∈ l, RunsTo (f a) (g a)) : RunsTo (l.mapM f) (l.map g) := by
  induction l with
  | nil => exact runsTo_pure []
  | cons a l ih =>
    rw [List.mapM_cons]
    exact (h a List.mem_cons_self).bind ((ih fun b hb => h b (List.mem_cons_of_mem a hb)).bind (runsTo_pure _))

end Runs

/-! ### Factor columns (R207) -/

/-- `k` columns of 32 entries, given by column and row. -/
def colsOf (k : Nat) (h : Nat → Nat → Nat) : Cols := (List.range k).map fun q => (List.range 32).map (h q)

theorem length_colsOf (k : Nat) (h : Nat → Nat → Nat) : (colsOf k h).length = k := by
  rw [colsOf, List.length_map, List.length_range]

theorem colsOf_append (j k : Nat) (g h : Nat → Nat → Nat) :
    colsOf j g ++ colsOf k h = colsOf (j + k) fun q i => if q < j then g q i else h (q - j) i := by
  simp only [colsOf, List.range_add, List.map_append, List.map_map]
  congr 1 <;> refine List.map_congr_left fun q hq => ?_
  · simp only [if_pos (List.mem_range.1 hq)]
  · simp only [Function.comp, if_neg (Nat.not_lt.2 (Nat.le_add_right j q)), Nat.add_sub_cancel_left]

theorem rowOf_colsOf (k : Nat) (h : Nat → Nat → Nat) {i : Nat} (hi : i < 32) :
    rowOf (colsOf k h) i = (List.range k).map fun q => h q i := by
  rw [rowOf, colsOf, List.map_map]
  exact List.map_congr_left fun q _ => getD_map_range _ _ _ hi

theorem getD_colsFlat (k : Nat) (h : Nat → Nat → Nat) {q i : Nat} (hq : q < k) (hi : i < 32) :
    (colsFlat (colsOf k h)).getD (32 * q + i) 0 = BitVec.ofNat 64 (h q i) := by
  rw [colsFlat, colsOf, flatten_rows, List.map_map, getD_map_range _ _ _ (by omega), Function.comp,
    show (32 * q + i) / 32 = q by omega, show (32 * q + i) % 32 = i by omega]

/-- Columns of which each entry is a lrdot of two vectors. -/
theorem runsTo_colsOf {α : Type} (l : Nat → α) (k : Nat) {f : α → Nat → FpM Nat} {h : Nat → Nat → Nat}
    (hf : ∀ q, q < k → ∀ i, i < 32 → RunsTo (f (l q) i) (h q i)) :
    RunsTo (((List.range k).map l).mapM fun q => (List.range 32).mapM (f q)) (colsOf k h) := by
  rw [List.mapM_map]
  exact runsTo_mapM fun q hq => runsTo_mapM fun i hi => hf q (List.mem_range.1 hq) i (List.mem_range.1 hi)

theorem uCols_eq_colsOf (c : Core) (m : MReg) : (c.tile m).uCols = colsOf (c.rankIn m) (factorEl (c.tile m).u) := rfl

theorem vCols_eq_colsOf (c : Core) (m : MReg) : (c.tile m).vCols = colsOf (c.rankIn m) (factorEl (c.tile m).v) := rfl

/-! ### Checks (R211) -/

/-- One check and then the rest. -/
theorem check_bind {α : Type} {m : Except Fail Unit} {k : Unit → Except Fail α} {check : BitVec 8 × DWord × Bool}
    {rest : List (BitVec 8 × DWord × Bool)} {a : α} (hm : m = passes [check]) (hk : k () = passes rest >>= fun _ => .ok a) :
    (m >>= k) = passes (check :: rest) >>= fun _ => .ok a := by
  rw [passes_cons_bind, ← hm, ← hk]

/-- The same of a check that is made in place. -/
theorem check_ite_bind {α : Type} {p : Prop} [Decidable p] {m m' : Except Fail Unit} {k : Unit → Except Fail α}
    {check : BitVec 8 × DWord × Bool} {rest : List (BitVec 8 × DWord × Bool)} {a : α} (hm : (if p then m else m') = passes [check])
    (hk : k () = passes rest >>= fun _ => .ok a) :
    (if p then m >>= k else m' >>= k) = passes (check :: rest) >>= fun _ => .ok a := by
  rw [← ite_bind_eq]
  exact check_bind hm hk

theorem ite_eq_passes (cause : BitVec 8) (tval : DWord) {p : Prop} [Decidable p] {fails : Bool} (h : p ↔ fails = false) :
    (if p then .ok () else .error ⟨cause, tval⟩ : Except Fail Unit) = passes [(cause, tval, fails)] := by
  cases fails
  · exact if_pos (h.2 rfl)
  · exact if_neg fun hp => nomatch h.1 hp

theorem kindFail_eq (c : Core) (m : MReg) : kindFail c m = ⟨0x44, BitVec.ofNat 64 (m.toNat * 256 + kindNo (c.tile m).kind)⟩ := by
  rw [kindFail]
  cases (c.tile m).kind <;> rfl

theorem needKind_eq_passes (c : Core) (m : MReg) (kind : TileKind) : needKind c m kind = passes [c.wrongKind m [kind, .empty]] := by
  rw [needKind, kindFail_eq]
  exact ite_eq_passes _ _ (by simp [or_iff_not_imp_left])

theorem needF64_eq_passes (c : Core) : needF64 c = passes [c.wrongAcc [.f64]] := by
  rw [← accMode_eq_passes (t := .f64) (by cases c.c.acc <;> rfl), needF64]
  exact if_congr beq_iff_eq.symm rfl rfl

/-! ### What enters the engine -/

/-- A low-rank result of rank `r` is in the engine, to be written whole: entry `i` of its columns `q` is `u q i` and `v q i`. -/
def EntersWhole (s : State) (i : Instr) (d : Nat) (md : MReg) (tiles : List MReg) (slots : List OSlot) (n r : Nat)
    (u v : Nat → Nat → Nat) : Prop :=
  ∃ us vs fl, Starts s i d md tiles slots [] n (.whole r us vs) [fl] true ∧
    ∀ q i, q < r → i < 32 → us.getD (32 * q + i) 0 = BitVec.ofNat 64 (u q i) ∧ vs.getD (32 * q + i) 0 = BitVec.ofNat 64 (v q i)

theorem startsWhole_of_exec {s : State} {i : Instr} {d : Nat} {md : MReg} {tiles : List MReg} {slots : List OSlot} {n : Nat} {fl : Flags}
    {u v : Cols} (he : exec i s = .next (s.literalUsed (s.setCur (s.cur.startWhole d md tiles slots n u v fl)))) :
    Starts s i d md tiles slots [] n (.whole u.length (colsFlat u) (colsFlat v)) [fl] true :=
  starts_of_exec he

theorem entersWhole_of_exec {s : State} {i : Instr} {d : Nat} {md : MReg} {tiles : List MReg} {slots : List OSlot} {n r : Nat} {fl : Flags}
    {u v : Cols} {uAt vAt : Nat → Nat → Nat} (hus : u = colsOf r uAt) (hvs : v = colsOf r vAt)
    (he : exec i s = .next (s.literalUsed (s.setCur (s.cur.startWhole d md tiles slots n u v fl)))) :
    EntersWhole s i d md tiles slots n r uAt vAt := by
  subst hus hvs
  have hstarts := startsWhole_of_exec he
  rw [length_colsOf] at hstarts
  exact ⟨_, _, fl, hstarts, fun q i hq hi => ⟨getD_colsFlat r uAt hq hi, getD_colsFlat r vAt hq hi⟩⟩

/-! ### MLRSET (R213) -/

/-- Some lines of a slot as columns. -/
theorem slotCols_eq_colsOf (s : State) (os : OSlot) (k : Nat) (line : Nat → Nat) :
    ((List.range k).map fun q => (List.range 32).map (elemOf 64 (s.slotLine s.iss.core os (line q)))) =
      colsOf k fun q => s.slotEl os 64 (line q) := by
  simp only [elemOf_slotLine]
  rfl

theorem mlrset_acts (s : State) (f : MlrsetF) :
    let k := (s.cur.rx f.xs).toNat
    MatActs s (.mlrset f)
      [s.noParticulars, s.cur.unclaimed f.os, (0x40, s.cur.rx f.xs, decide (s.cur.c.rmax.toNat < k)), s.cur.noPanels f.md false (2 * k)]
      ((List.range (min 16 k)).flatMap fun q => [(f.os, q), (f.os, 16 + q)])
      (EntersWhole s (.mlrset f) (4 + 2 * k) f.md [] [f.os] (2 * k) k (fun q => s.slotEl f.os 64 q) fun q => s.slotEl f.os 64 (16 + q)) := by
  intro k
  have he := exec_mlrset f s
  rw [execMlrset] at he
  have hrank : k ≤ s.cur.c.rmax.toNat ↔ decide (s.cur.c.rmax.toNat < k) = false := by rw [decide_eq_false_iff_not, Nat.not_lt]
  exact matActs_of he rfl (check_bind (zeroLit_eq_passes s) (check_bind (needClaimed_eq_passes _ _)
    (check_ite_bind (ite_eq_passes _ _ hrank) (check_bind (needPanels_eq_passes _ _ _ _) rfl))))
    (entersWhole_of_exec (slotCols_eq_colsOf s f.os k id) (slotCols_eq_colsOf s f.os k (16 + ·)))

/-! ### MLRMUL (R214) -/

section Product

variable (rm : Rm) (ka kb : Nat) (ua va ub vb : Nat → Nat → Nat)

/-- Entry (p, q) of the core between two factored sources. -/
def coreAt (p q : Nat) : Nat := dotOf rm 32 (va p) (ub q)

/-- The U factor of a product: the first source's where its rank is the smaller, and else its sums with the core. -/
def mulU (q i : Nat) : Nat := if ka ≤ kb then ua q i else dotOf rm ka (fun p => ua p i) fun p => coreAt rm va ub p q

/-- The V factor of a product: the second source's sums with the core, or the second source's own. -/
def mulV (q i : Nat) : Nat := if ka ≤ kb then dotOf rm kb (fun p => vb p i) (fun p => coreAt rm va ub q p) else vb q i

theorem runsTo_lrmul : RunsTo (lrmul rm (colsOf ka ua) (colsOf ka va) (colsOf kb ub) (colsOf kb vb))
    (colsOf (min ka kb) (mulU rm ka kb ua va ub), colsOf (min ka kb) (mulV rm ka kb va ub vb)) := by
  have hcore : RunsTo ((colsOf kb ub).mapM fun q => (colsOf ka va).mapM fun p => fdot rm p q)
      ((List.range kb).map fun q => (List.range ka).map fun p => coreAt rm va ub p q) := by
    simp only [colsOf, List.mapM_map]
    exact runsTo_mapM fun q _ => runsTo_mapM fun p _ => runsTo_fdot rm 32 (va p) (ub q)
  refine hcore.bind ?_
  simp only [length_colsOf]
  by_cases hle : ka ≤ kb
  · have hrow {p : Nat} (hp : p < ka) : rowOf ((List.range kb).map fun q => (List.range ka).map fun p => coreAt rm va ub p q) p =
        (List.range kb).map fun q => coreAt rm va ub p q := by
      rw [rowOf, List.map_map]
      exact List.map_congr_left fun q _ => getD_map_range _ _ _ hp
    have hu : mulU rm ka kb ua va ub = ua := funext fun q => funext fun i => if_pos hle
    rw [if_pos hle, Nat.min_eq_left hle, hu]
    refine RunsTo.bind (runsTo_mapM (g := fun p => (List.range 32).map (mulV rm ka kb va ub vb p)) fun p hp => runsTo_mapM fun j hj => ?_)
      (runsTo_pure _)
    rw [rowOf_colsOf kb vb (List.mem_range.1 hj), hrow (List.mem_range.1 hp), mulV, if_pos hle]
    exact runsTo_fdot rm kb _ _
  · have hv : mulV rm ka kb va ub vb = vb := funext fun q => funext fun i => if_neg hle
    rw [if_neg hle, Nat.min_eq_right (Nat.le_of_not_le hle), hv]
    refine RunsTo.bind (runsTo_colsOf _ kb fun q _ i hi => ?_) (runsTo_pure _)
    rw [rowOf_colsOf ka ua hi, mulU, if_neg hle]
    exact runsTo_fdot rm ka _ _

end Product

theorem mlrmul_acts (s : State) (g : M2F) :
    let c := s.cur
    let ka := c.rankIn g.ms1
    let kb := c.rankIn g.ms2
    let a := c.tile g.ms1
    let b := c.tile g.ms2
    MatActs s (.mlrmul g)
      [s.noParticulars, c.wrongKind g.ms1 [.lowRank, .empty], c.wrongKind g.ms2 [.lowRank, .empty], c.overRank (min ka kb),
        c.noPanels g.md (g.md = g.ms1 ∨ g.md = g.ms2) (2 * min ka kb)] []
      (EntersWhole s (.mlrmul g) (8 + (ka * kb + 3) / 4) g.md [g.ms1, g.ms2] [] (2 * min ka kb) (min ka kb)
        (mulU c.c.rm ka kb (factorEl a.u) (factorEl a.v) (factorEl b.u))
        (mulV c.c.rm ka kb (factorEl a.v) (factorEl b.u) (factorEl b.v))) := by
  intro c ka kb a b
  have hruns := runsTo_lrmul c.c.rm ka kb (factorEl a.u) (factorEl a.v) (factorEl b.u) (factorEl b.v) 0
  exact matActs_of_matOp (exec_mlrmul g s) (check_bind (zeroLit_eq_passes s) (check_bind (needKind_eq_passes _ _ _)
    (check_bind (needKind_eq_passes _ _ _) (check_bind (needRank_eq_passes _ _) (check_bind (needPanels_eq_passes _ _ _ _) rfl)))))
    (entersWhole_of_exec (congrArg Prod.fst hruns) (congrArg Prod.snd hruns))

/-! ### MLRDM, MDMLR, MLRADD and MDENSE (R215 to R217) -/

/-- A dense side: each entry sums a line of a dense source over a factor column. -/
theorem runsTo_denseSide (rm : Rm) (k : Nat) (line col : Nat → Nat → Nat) :
    RunsTo ((colsOf k col).mapM fun q => (List.range 32).mapM fun j => fdot rm ((List.range 32).map (line j)) q)
      (colsOf k fun q j => dotOf rm 32 (line j) (col q)) :=
  runsTo_colsOf _ k fun q _ j _ => runsTo_fdot rm 32 (line j) (col q)

theorem mlrdm_acts (s : State) (g : M2F) :
    let c := s.cur
    let ka := c.rankIn g.ms1
    let a := c.tile g.ms1
    let b := c.tile g.ms2
    MatActs s (.mlrdm g)
      [s.noParticulars, c.wrongAcc [.f64], c.wrongKind g.ms1 [.lowRank, .empty], c.wrongKind g.ms2 [.dense, .empty], c.overRank ka,
        c.noPanels g.md (g.md = g.ms1 ∨ g.md = g.ms2) (2 * ka)] []
      (EntersWhole s (.mlrdm g) (8 + 4 * ka) g.md [g.ms1, g.ms2] [] (2 * ka) ka (factorEl a.u)
        fun q j => dotOf c.c.rm 32 (fun r => b.at r j) (factorEl a.v q)) := by
  intro c ka a b
  exact matActs_of_matOp (exec_mlrdm g s) (check_bind (zeroLit_eq_passes s) (check_bind (needF64_eq_passes _)
    (check_bind (needKind_eq_passes _ _ _) (check_bind (needKind_eq_passes _ _ _) (check_bind (needRank_eq_passes _ _)
      (check_bind (needPanels_eq_passes _ _ _ _) rfl))))))
    (entersWhole_of_exec rfl (runsTo_denseSide c.c.rm ka (fun j r => b.at r j) (factorEl a.v) 0))

theorem mdmlr_acts (s : State) (g : M2F) :
    let c := s.cur
    let kb := c.rankIn g.ms2
    let a := c.tile g.ms1
    let b := c.tile g.ms2
    MatActs s (.mdmlr g)
      [s.noParticulars, c.wrongAcc [.f64], c.wrongKind g.ms1 [.dense, .empty], c.wrongKind g.ms2 [.lowRank, .empty], c.overRank kb,
        c.noPanels g.md (g.md = g.ms1 ∨ g.md = g.ms2) (2 * kb)] []
      (EntersWhole s (.mdmlr g) (8 + 4 * kb) g.md [g.ms1, g.ms2] [] (2 * kb) kb
        (fun q i => dotOf c.c.rm 32 (a.at i) (factorEl b.u q)) (factorEl b.v)) := by
  intro c kb a b
  exact matActs_of_matOp (exec_mdmlr g s) (check_bind (zeroLit_eq_passes s) (check_bind (needF64_eq_passes _)
    (check_bind (needKind_eq_passes _ _ _) (check_bind (needKind_eq_passes _ _ _) (check_bind (needRank_eq_passes _ _)
      (check_bind (needPanels_eq_passes _ _ _ _) rfl))))))
    (entersWhole_of_exec (runsTo_denseSide c.c.rm kb a.at (factorEl b.u) 0) rfl)

theorem mlradd_acts (s : State) (g : M2F) :
    let c := s.cur
    let ka := c.rankIn g.ms1
    let kb := c.rankIn g.ms2
    let a := c.tile g.ms1
    let b := c.tile g.ms2
    MatActs s (.mlradd g)
      [s.noParticulars, c.wrongKind g.ms1 [.lowRank, .empty], c.wrongKind g.ms2 [.lowRank, .empty], c.overRank (ka + kb),
        c.noPanels g.md (g.md = g.ms1 ∨ g.md = g.ms2) (2 * (ka + kb))] []
      (EntersWhole s (.mlradd g) (4 + (ka + kb)) g.md [g.ms1, g.ms2] [] (2 * (ka + kb)) (ka + kb)
        (fun q i => if q < ka then factorEl a.u q i else factorEl b.u (q - ka) i)
        fun q i => if q < ka then factorEl a.v q i else factorEl b.v (q - ka) i) := by
  intro c ka kb a b
  exact matActs_of_matOp (exec_mlradd g s) (check_bind (zeroLit_eq_passes s) (check_bind (needKind_eq_passes _ _ _)
    (check_bind (needKind_eq_passes _ _ _) (check_bind (needRank_eq_passes _ _) (check_bind (needPanels_eq_passes _ _ _ _) rfl)))))
    (entersWhole_of_exec (colsOf_append ka kb _ _) (colsOf_append ka kb _ _))

theorem expandCols_colsOf (rm : Rm) (k : Nat) (u v : Nat → Nat → Nat) :
    (expandCols rm (colsOf k u) (colsOf k v)).1 =
      (List.range 1024).map fun n => BitVec.ofNat 64 (dotOf rm k (fun q => u q (n / 32)) fun q => v q (n % 32)) := by
  have hruns : RunsTo ((List.range 1024).mapM fun n => fdot rm (rowOf (colsOf k u) (n / 32)) (rowOf (colsOf k v) (n % 32)))
      ((List.range 1024).map fun n => dotOf rm k (fun q => u q (n / 32)) fun q => v q (n % 32)) := by
    refine runsTo_mapM fun n hn => ?_
    have hlt := List.mem_range.1 hn
    rw [rowOf_colsOf k u (by omega), rowOf_colsOf k v (by omega)]
    exact runsTo_fdot rm k _ _
  rw [expandCols, hruns]
  simp only [List.map_map, Function.comp_def]

theorem mdense_acts (s : State) (h : M1F) :
    let c := s.cur
    let kt := c.rankIn h.ms1
    let t := c.tile h.ms1
    MatActs s (.mdense h) [s.noParticulars, c.wrongAcc [.f64], c.wrongKind h.ms1 [.lowRank, .empty], c.noPanels h.md (h.md = h.ms1) 32] []
      (∃ els fl, Starts s (.mdense h) (8 + 4 * kt) h.md [h.ms1] [] [] 32 (.blocks .dense els) [fl] true ∧ els.length = 1024 ∧
        ∀ n, n < 1024 → els.getD n 0 = BitVec.ofNat 64
          (dotOf c.c.rm kt (fun q => factorEl t.u q (n / 32)) (fun q => factorEl t.v q (n % 32)))) := by
  intro c kt t
  have hsource : [h.ms1].contains h.md = decide (h.md = h.ms1) := by
    rw [List.contains_cons, List.contains_nil, Bool.or_false]
    rfl
  refine matActs_of_matOp (exec_mdense h s) (check_bind (zeroLit_eq_passes s) (check_bind (needF64_eq_passes _)
    (check_bind (needKind_eq_passes _ _ _) (check_bind (needPanels_eq_passes _ _ _ _) rfl)))) fun he => ?_
  rw [← hsource, uCols_eq_colsOf, vCols_eq_colsOf, expandCols_colsOf] at he
  exact ⟨_, _, starts_of_exec he, by rw [List.length_map, List.length_range], fun n hn => getD_map_range _ _ _ hn⟩

/-! ### MRECOMP (R218, R219) -/

/-- The check that MRECOMP makes of its literal word. -/
def State.wrongCap (s : State) : BitVec 8 × DWord × Bool :=
  (0x07, s.literal.setWidth 64, decide (s.literal.toNat / 2 ^ 5 ≠ 0 ∨ 16 < (fld s.literal 0 5).toNat))

/-- The rank that a literal word admits. -/
def State.rankCap (s : State) : Nat :=
  if (fld s.literal 0 5).toNat = 0 then s.cur.c.rmax.toNat else min (fld s.literal 0 5).toNat s.cur.c.rmax.toNat

theorem capOf_eq_ite (s : State) : capOf s.cur s.literal = if s.wrongCap.2.2 then none else some s.rankCap := by
  rw [capOf, if_congr (or_congr_left (not_congr (fld_top_eq_zero_iff s.literal (lo := 5) (n := 27) rfl))) rfl rfl]
  simp only [State.wrongCap, decide_eq_true_eq]
  rfl

/-- An entry of magnitude 2^240 or more, or none that is finite. -/
def farEntry (x : DWord) : Bool := decide (1263 * 2 ^ 52 ≤ x.toNat % 2 ^ 63)

theorem inRange_eq_not_farEntry (x : Nat) : inRange x = !farEntry (BitVec.ofNat 64 x) := by
  rw [inRange, farEntry, BitVec.toNat_ofNat, Nat.mod_mod_of_dvd x (Nat.pow_dvd_pow 2 (by decide)), ← decide_not]
  exact decide_eq_decide.2 Nat.not_le.symm

theorem all_inRange_iff (cols : Cols) : (cols.all fun col => col.all inRange) = true ↔
    (cols.any fun col => col.any fun x => farEntry (BitVec.ofNat 64 x)) = false := by
  simp only [inRange_eq_not_farEntry, List.all_eq_true, List.any_eq_false, Bool.not_eq_true', Bool.not_eq_true]

theorem mrecomp_acts (s : State) (h : M1F) :
    let c := s.cur
    let kt := (c.tile h.ms1).rankOf
    let u := (c.tile h.ms1).uCols
    let v := (c.tile h.ms1).vCols
    let r := recompressed s.rankCap c.c u v
    MatActs s (.mrecomp h)
      [s.wrongCap, c.wrongKind h.ms1 [.lowRank, .empty], c.noPanels h.md (h.md = h.ms1) (2 * min kt s.rankCap),
        (0x48, h.ms1.setWidth 64, (u ++ v).any fun col => col.any fun x => farEntry (BitVec.ofNat 64 x))] []
      (Starts s (.mrecomp h) (64 + 12 * kt + 36 * kt * kt) h.md [h.ms1] [] [] (2 * min kt s.rankCap)
        (.whole r.1.1.length (colsFlat r.1.1) (colsFlat r.1.2)) [r.2] true) := by
  dsimp only
  refine matActs_of_matOp (exec_mrecomp h s) ?_ startsWhole_of_exec
  rw [passes_cons_bind]
  simp only [capOf_eq_ite]
  by_cases hcap : s.wrongCap.2.2 = true
  · have hfails : passes [s.wrongCap] = .error ⟨0x07, s.literal.setWidth 64⟩ := if_pos hcap
    rw [hfails]
    simp only [if_pos hcap]
    rfl
  · have hpasses : passes [s.wrongCap] = .ok () := if_neg hcap
    rw [hpasses]
    simp only [if_neg hcap]
    exact check_bind (needKind_eq_passes _ _ _) (check_bind (needPanels_eq_passes _ _ _ _)
      (check_ite_bind (ite_eq_passes _ _ (all_inRange_iff _)) rfl))

end Sys2Proof.Machine

namespace Sys2Proof

open Sys2Proof.Machine

/-- Settles O30: each low-rank operation is its checks in order, and then its factors' start in the engine. -/
theorem lowRankOperations : Obligations.LowRankOperations := by
  unfold Obligations.LowRankOperations
  intro s f g h c rm k a b ka kb src lr ds whole is core t kt lit cv cap cols far
  have hfactors : (recompress cap c.c.tol.toNat c.c.tolabs.toNat (cols t.u) (cols t.v)).run 0 =
      recompressed s.rankCap s.cur.c (s.cur.tile h.ms1).uCols (s.cur.tile h.ms1).vCols := rfl
  rw [hfactors]
  exact ⟨mlrset_acts s f, mlrmul_acts s g, mlrdm_acts s g, mdmlr_acts s g, mlradd_acts s g, mdense_acts s h, mrecomp_acts s h⟩

end Sys2Proof
end

section
/-! SUPPORT. Complex tiles (R220, R221, R223): points beside elements, and the radix sequence. -/

namespace Sys2Proof.Machine

/-! ### Points (R220) -/

/-- One more than the greatest pattern of a part. -/
def partLimit (wide : Bool) : Nat := if wide then 2 ^ 64 else 2 ^ 32

/-- A point's patterns cut to the width of a part. -/
def cutPt (wide : Bool) (p : Pt) : Pt := (p.1 % partLimit wide, p.2 % partLimit wide)

theorem cutPt_pointAt (wide : Bool) (e : List DWord) (p : Nat) : cutPt wide (pointAt wide e p) = pointAt wide e p := by
  cases wide
  · exact Prod.ext (Nat.mod_mod _ _) (Nat.mod_eq_of_lt (Nat.div_lt_of_lt_mul (e.getD p 0).isLt))
  · exact Prod.ext (Nat.mod_eq_of_lt (e.getD (2 * p) 0).isLt) (Nat.mod_eq_of_lt (e.getD (2 * p + 1) 0).isLt)

theorem toPoints_eq_map (wide : Bool) (e : List DWord) : toPoints wide e = (List.range (pointCount wide)).map (pointAt wide e) := by
  cases wide <;> rfl

theorem length_toPoints (wide : Bool) (e : List DWord) : (toPoints wide e).length = pointCount wide := by
  rw [toPoints, List.length_map, List.length_range]

theorem getD_toPoints (wide : Bool) (e : List DWord) {p : Nat} (hp : p < pointCount wide) :
    (toPoints wide e).getD p (0, 0) = pointAt wide e p := by
  rw [toPoints_eq_map, getD_map_range _ _ _ hp]

theorem length_ofPoints {wide : Bool} {pts : List Pt} (h : pts.length = pointCount wide) : (ofPoints wide pts).length = 1024 := by
  cases wide
  · exact (List.length_map _).trans h
  · have hpairs : (ofPoints true pts).length = (pts.map fun _ => 2).sum := List.length_flatMap
    rw [hpairs, List.map_const', List.sum_replicate, h]
    rfl

theorem pointAt_ofPoints (wide : Bool) (pts : List Pt) (p : Nat) : pointAt wide (ofPoints wide pts) p = cutPt wide (pts.getD p (0, 0)) := by
  cases wide with
  | false =>
    have helem : (ofPoints false pts).getD p 0 = BitVec.ofNat 64 ((pts.getD p (0, 0)).1 % 2 ^ 32 + (pts.getD p (0, 0)).2 * 2 ^ 32) :=
      List.getD_map pts (0, 0) fun x : Pt => BitVec.ofNat 64 (x.1 % 2 ^ 32 + x.2 * 2 ^ 32)
    simp only [pointAt, cutPt, partLimit, helem, BitVec.toNat_ofNat, Bool.false_eq_true, if_false]
    exact Prod.ext (by dsimp only; omega) (by dsimp only; omega)
  | true =>
    induction pts generalizing p with
    | nil => rfl
    | cons x pts ih =>
      cases p with
      | zero => rfl
      | succ p => exact ih p

/-! ### The radix sequence (R221, R223) -/

/-- A traversal that ends at the first value outside `ok`. -/
theorem mapM_eq_ite {α β : Type} {f : α → Option β} {ok : α → Bool} {g : α → β} (h : ∀ a, f a = if ok a then some (g a) else none)
    (l : List α) : l.mapM f = if l.all ok then some (l.map g) else none := by
  induction l with
  | nil => rfl
  | cons a l ih =>
    rw [List.mapM_cons, ih, h, List.all_cons, List.map_cons]
    cases ok a <;> cases l.all ok <;> rfl

theorem radixOf_eq_ite (code : Nat) :
    radixOf code = if !(code == 0 || decide (5 < code)) then some (if code = 5 then 8 else code + 1) else none := by
  match code with
  | 0 | 1 | 2 | 3 | 4 | 5 => rfl
  | n + 6 => rw [decide_eq_true (show 5 < n + 6 by omega), Bool.or_true]; rfl

theorem seqOf_eq_radicesOf (r : BitVec 34) (points : Nat) : seqOf r points = radicesOf r points := by
  have hrads : radices r = _ := mapM_eq_ite (fun st => radixOf_eq_ite (fld r (3 * st) 3).toNat) (List.range (fld r 30 4).toNat)
  rw [seqOf, radicesOf, hrads, List.any_eq_not_all_not]
  cases hall : (List.range (fld r 30 4).toNat).all fun st => !((fld r (3 * st) 3).toNat == 0 || decide (5 < (fld r (3 * st) 3).toNat)) with
  | false => simp
  | true => simp [List.isEmpty_iff]

/-- A sequence whose radices are positive and whose product is at most the points of a tile. -/
structure FitsPoints (rads : List Nat) (points : Nat) : Prop where
  pos : ∀ r ∈ rads, 0 < r
  le : rads.prod ≤ points

theorem FitsPoints.prod_pos {rads : List Nat} {points : Nat} (h : FitsPoints rads points) : 0 < rads.prod := List.prod_pos h.pos

theorem fitsPoints_of_radicesOf {r : BitVec 34} {points : Nat} {rads : List Nat} (h : radicesOf r points = some rads) :
    FitsPoints rads points := by
  obtain ⟨hok, hsome⟩ := Option.ite_none_left_eq_some.1 h
  obtain rfl := Option.some.inj hsome
  refine ⟨fun x hx => ?_, Nat.le_of_not_lt fun hlt => hok (.inr (.inr hlt))⟩
  obtain ⟨st, -, rfl⟩ := List.mem_map.1 hx
  dsimp only
  split <;> omega

/-- Points of whole sequences (R221). -/
def wholePoints (rads : List Nat) (points : Nat) : Nat := points / rads.prod * rads.prod

theorem wholePoints_le (rads : List Nat) (points : Nat) : wholePoints rads points ≤ points := Nat.div_mul_le_self _ _

/-- A place of a whole sequence is a place of a tile. -/
theorem seqPlace_lt {rads : List Nat} {points p y : Nat} (hp : p < wholePoints rads points) (hy : y < rads.prod) :
    p / rads.prod * rads.prod + y < wholePoints rads points := by
  rw [Nat.mul_comm (p / _)]
  exact Nat.mul_add_lt_mul_of_lt_of_lt (Nat.div_lt_of_lt_mul (Nat.mul_comm _ rads.prod ▸ hp)) hy

theorem getD_toArray {α : Type} (l : List α) (n : Nat) (d : α) : l.toArray.getD n d = l.getD n d := by
  rw [Array.getD_eq_getD_getElem?, List.getElem?_toArray, List.getD_eq_getElem?_getD]

/-! ### Checks and the start of a complex result -/

theorem needComplex_eq_passes (c : Core) (m : MReg) (wide : Bool) : needComplex c m wide = passes [c.wrongKind m [cxKind wide]] := by
  rw [needComplex, kindFail_eq]
  exact ite_eq_passes _ _ (by simp)

theorem ite_error_eq_passes (cause : BitVec 8) (tval : DWord) (p : Prop) [Decidable p] :
    (if p then .error ⟨cause, tval⟩ else .ok () : Except Fail Unit) = passes [(cause, tval, decide p)] := by
  rw [← ite_eq_passes (p := ¬p) _ _ decide_eq_false_iff_not.symm, ite_not]

/-- The check of a literal word whose bits from `lo` up are zero, with one condition more. -/
theorem literal_eq_passes (s : State) {lo n : Nat} (htop : lo + n = 32) (p : Prop) [Decidable p] :
    (if fld s.literal lo n ≠ 0 ∨ p then .error ⟨0x07, s.literal.setWidth 64⟩ else .ok () : Except Fail Unit) =
      passes [(0x07, s.literal.setWidth 64, decide (s.literal.toNat / 2 ^ lo ≠ 0 ∨ p))] := by
  rw [if_congr (or_congr_left (not_congr (fld_top_eq_zero_iff s.literal htop))) rfl rfl, ite_error_eq_passes]

/-- Where no check fails, one effect may stand for another. -/
theorem MatActs.imp {s : State} {i : Instr} {checks : List (BitVec 8 × DWord × Bool)} {lines : List (OSlot × Nat)} {effect effect' : Prop}
    (h : MatActs s i checks lines effect) (himp : (∀ check ∈ checks, check.2.2 = false) → effect → effect') :
    MatActs s i checks lines effect' := by
  intro hready
  have hacts := h hready
  cases hfind : checks.find? (fun k => k.2.2) with
  | some check => rw [hfind] at hacts; exact hacts
  | none =>
    rw [hfind] at hacts
    cases hrows : rowMarks s.cur lines with
    | cons holder rest => rw [hrows] at hacts; exact hacts
    | nil =>
      rw [hrows] at hacts
      exact himp (fun check hmem => Bool.eq_false_iff.2 (List.find?_eq_none.1 hfind check hmem)) hacts

theorem startsComplex_of_exec {s : State} {i : Instr} {d : Nat} {md : MReg} {tiles : List MReg} {slots : List OSlot} {wide : Bool}
    {pts : List Pt} {fl : Flags} {xd : Option (XReg × DWord)}
    (he : exec i s = .next (s.literalUsed (s.setCur (s.cur.startComplex d md tiles slots wide pts fl xd)))) :
    Starts s i d md tiles slots [] 32 (.blocks (cxKind wide) (ofPoints wide pts)) [fl] true xd :=
  matGives_of_exec he rfl

end Sys2Proof.Machine
end

section
/-! SUPPORT. MBFLY (R223 to R225): the outputs of a stage, the block exponent, and what a tile's points become. -/

namespace Sys2Proof.Machine

/-! ### The outputs of a stage (R224) -/

/-- The exact terms of input t of output p of a stage of radix r, over sequences of nn points `x` with twiddles `w`. -/
def stageTerm (fm : FpFmt) (r lp nn : Nat) (x : Nat → Pt) (w : Nat → FVal × FVal) (p t : Nat) : List (FVal × Flags) × List (FVal × Flags) :=
  let l := lp * r
  let q := p % nn
  cmulTerms fm (x (p / nn * nn + q / l * l + t * lp + q % lp)) (w (t * (q % lp + q % l / lp * lp) % l))

/-- The exact sum of the terms of each part. -/
def sumTerms (terms : List (List (FVal × Flags) × List (FVal × Flags))) : (FVal × Flags) × (FVal × Flags) :=
  (sumVals .rne (terms.flatMap (·.1)), sumVals .rne (terms.flatMap (·.2)))

/-- The exact parts of output p of stage `st`, from the points `x`. -/
def outputAt (fm : FpFmt) (inv : Bool) (rads : List Nat) (st : Nat) (x : Nat → Pt) (p : Nat) : (FVal × Flags) × (FVal × Flags) :=
  let r := rads.getD st 1
  let lp := (rads.take st).prod
  sumTerms ((List.range r).map (stageTerm fm r lp rads.prod x (fun m => twiddle fm inv m (lp * r)) p))

section Stage

variable {rads : List Nat} {points st : Nat}

theorem span_pos (h : FitsPoints rads points) : 0 < (rads.take st).prod * rads.getD st 1 := by
  refine Nat.mul_pos (List.prod_pos fun r hr => h.pos r (List.mem_of_mem_take hr)) ?_
  rw [List.getD_eq_getElem?_getD]
  cases hget : rads[st]? with
  | none => exact Nat.one_pos
  | some r => exact h.pos r (List.mem_of_getElem? hget)

/-- The points that a stage sums over lie in the output's own block of its sequence. -/
theorem stagePlace_lt (h : FitsPoints rads points) (hst : st < rads.length) {p t : Nat} (hp : p < wholePoints rads points)
    (ht : t < rads.getD st 1) :
    let lp := (rads.take st).prod
    let l := lp * rads.getD st 1
    let q := p % rads.prod
    p / rads.prod * rads.prod + q / l * l + t * lp + q % lp < points := by
  intro lp l q
  have hlp : 0 < lp := List.prod_pos fun r hr => h.pos r (List.mem_of_mem_take hr)
  have hprod : rads.prod = l * (rads.drop (st + 1)).prod := by
    rw [← List.prod_take_mul_prod_drop rads (st + 1), List.prod_take_succ _ _ hst, ← List.getD_eq_getElem _ 1 hst]
  have hblock : t * lp + q % lp < l := by
    rw [Nat.mul_comm t]
    exact (Nat.mul_add_lt_mul_of_lt_of_lt ht (Nat.mod_lt _ hlp)).trans_eq (Nat.mul_comm _ lp)
  have hq : q / l < (rads.drop (st + 1)).prod := Nat.div_lt_of_lt_mul (lt_of_lt_of_eq (Nat.mod_lt _ h.prod_pos) hprod)
  have hseq : q / l * l + (t * lp + q % lp) < rads.prod := by
    rw [Nat.mul_comm _ l]
    exact (Nat.mul_add_lt_mul_of_lt_of_lt hq hblock).trans_eq ((Nat.mul_comm _ l).trans hprod.symm)
  rw [Nat.add_assoc, Nat.add_assoc]
  exact (seqPlace_lt hp hseq).trans_le (wholePoints_le _ _)

theorem stageParts_eq_map (fm : FpFmt) (inv : Bool) (h : FitsPoints rads points) (hst : st < rads.length) {pts : List Pt} {x : Nat → Pt}
    (hlen : pts.length = points) (hx : ∀ n, n < points → pts.getD n (0, 0) = x n) :
    stageParts fm inv rads st pts = (List.range (wholePoints rads points)).map (outputAt fm inv rads st x) := by
  unfold stageParts
  rw [hlen]
  refine List.map_congr_left fun p hp => ?_
  exact congrArg sumTerms (List.map_congr_left
    (f := stageTerm fm (rads.getD st 1) (rads.take st).prod rads.prod (pts.toArray.getD · (0, 0)) (Array.getD _ · (.zero, .zero)) p)
    fun t ht => by
      rw [stageTerm, getD_toArray, getD_toArray, hx _ (stagePlace_lt h hst (List.mem_range.1 hp) (List.mem_range.1 ht)),
        getD_map_range _ _ _ (Nat.mod_lt _ (span_pos h))]
      rfl)

end Stage

/-! ### The block exponent (R225) -/

/-- A finite value. -/
def FVal.Finite : FVal → Prop
  | .fin _ _ _ => True
  | _ => False

/-- A finite value whose magnitude is below 2^e. -/
def FVal.Below (e : Nat) : FVal → Prop
  | .fin _ m k => m = 0 ∨ (Nat.log2 m : Int) + k + 1 ≤ e
  | _ => False

/-- The least exponent of two, from 0 on, that a finite magnitude is below. -/
def FVal.topExp : FVal → Option Nat
  | .fin _ m e => some (if m = 0 then 0 else ((Nat.log2 m : Int) + e + 1).toNat)
  | _ => none

theorem FVal.finite_iff (v : FVal) : v.Finite ↔ v.topExp.isSome = true := by
  cases v <;> simp [FVal.Finite, FVal.topExp]

theorem FVal.below_iff {v : FVal} (hv : v.Finite) (e : Nat) : v.Below e ↔ v.topExp.getD 0 ≤ e := by
  cases v with
  | nan _ | inf _ => cases hv
  | fin neg m k => by_cases hm : m = 0 <;> simp [FVal.Below, FVal.topExp, hm, Int.toNat_le]

theorem blockExp_eq_ite (l : List FVal) :
    blockExp l = if l.all (·.topExp.isSome) then (l.map (·.topExp.getD 0)).foldl max 0 else 0 := by
  have hexps : l.mapM FVal.topExp = _ := mapM_eq_ite (ok := (·.topExp.isSome)) (g := (·.topExp.getD 0)) (fun v => by cases v <;> rfl) l
  change (match l.mapM FVal.topExp with
    | some exps => exps.foldl max 0
    | none => 0) = _
  rw [hexps]
  cases l.all (·.topExp.isSome) <;> rfl

theorem foldl_max_le_iff (l : List Nat) (a e : Nat) : l.foldl max a ≤ e ↔ a ≤ e ∧ ∀ x ∈ l, x ≤ e := by
  induction l generalizing a with
  | nil => simp
  | cons x l ih => rw [List.foldl_cons, ih, List.forall_mem_cons, Nat.max_le, and_assoc]

theorem blockExp_le_iff {l : List FVal} (hfin : ∀ v ∈ l, v.Finite) (e : Nat) : blockExp l ≤ e ↔ ∀ v ∈ l, v.Below e := by
  rw [blockExp_eq_ite, if_pos (List.all_eq_true.2 fun v hv => v.finite_iff.1 (hfin v hv)), foldl_max_le_iff, List.forall_mem_map,
    and_iff_right (Nat.zero_le e)]
  exact forall₂_congr fun v hv => (FVal.below_iff (hfin v hv) e).symm

section Exponent

variable (n : Nat) (parts : Nat → (FVal × Flags) × (FVal × Flags))

/-- The real and imaginary parts of the first `n` outputs of a stage, without their flags. -/
def partVals : List FVal := ((List.range n).map parts).flatMap fun y => [y.1.1, y.2.1]

theorem forall_mem_partVals (P : FVal → Prop) : (∀ v ∈ partVals n parts, P v) ↔ ∀ p, p < n → P (parts p).1.1 ∧ P (parts p).2.1 := by
  simp only [partVals, List.forall_mem_flatMap, List.forall_mem_map, List.mem_range, List.forall_mem_cons, List.not_mem_nil,
    false_imp_iff, implies_true, and_true]

/-- Every part of the first `n` outputs is finite. -/
def AllFinite : Prop := ∀ p, p < n → (parts p).1.1.Finite ∧ (parts p).2.1.Finite

/-- Every part of the first `n` outputs is below 2^e in magnitude. -/
def AllBelow (e : Nat) : Prop := ∀ p, p < n → (parts p).1.1.Below e ∧ (parts p).2.1.Below e

variable {n parts}

theorem blockExp_least (hfin : AllFinite n parts) :
    AllBelow n parts (blockExp (partVals n parts)) ∧ ∀ e, AllBelow n parts e → blockExp (partVals n parts) ≤ e := by
  have hle (e : Nat) : blockExp (partVals n parts) ≤ e ↔ AllBelow n parts e := by
    rw [AllBelow, ← forall_mem_partVals n parts (·.Below e)]
    exact blockExp_le_iff ((forall_mem_partVals n parts FVal.Finite).2 hfin) e
  exact ⟨(hle _).1 (Nat.le_refl _), fun e => (hle e).2⟩

theorem blockExp_eq_zero (hfin : ¬AllFinite n parts) : blockExp (partVals n parts) = 0 := by
  rw [AllFinite, ← forall_mem_partVals n parts FVal.Finite] at hfin
  simp only [FVal.finite_iff, ← List.all_eq_true] at hfin
  rw [blockExp_eq_ite, if_neg hfin]

end Exponent

/-! ### MBFLY (R223 to R225) -/

/-- The divisor and the power of two by which a stage scales its sums. -/
def stageScale (scale r e : Nat) : Nat × Int :=
  match scale with
  | 0 => (1, 0)
  | 1 => (1, -1)
  | 2 => (r, 0)
  | _ => (1, -(e : Int))

theorem stageScale_eq {scale : Nat} (h : scale < 4) (r e : Nat) :
    stageScale scale r e = (if scale = 2 then r else 1, if scale = 1 then -1 else if scale = 3 then -(e : Int) else 0) := by
  match scale, h with
  | 0, _ | 1, _ | 2, _ | 3, _ => rfl

/-- Both parts of an output, scaled and rounded once, with their flags. -/
def roundParts (fm : FpFmt) (rm : Rm) (scale : Nat × Int) (y : (FVal × Flags) × (FVal × Flags)) : (Nat × Flags) × (Nat × Flags) :=
  (cround fm rm scale.1 scale.2 y.1, cround fm rm scale.1 scale.2 y.2)

/-- The points after a stage: its outputs, then the points beyond the last whole sequence. -/
def stagePoints (fm : FpFmt) (rm : Rm) (scale : Nat × Int) (parts : List ((FVal × Flags) × (FVal × Flags))) (pts : List Pt) : List Pt :=
  (parts.map (roundParts fm rm scale)).map (fun y => (y.1.1, y.2.1)) ++ pts.drop (parts.map (roundParts fm rm scale)).length

section StagePoints

variable (fm : FpFmt) (rm : Rm) (scale : Nat × Int) (parts : Nat → (FVal × Flags) × (FVal × Flags)) {n : Nat} (pts : List Pt)

theorem length_stagePoints (hn : n ≤ pts.length) : (stagePoints fm rm scale ((List.range n).map parts) pts).length = pts.length := by
  simp only [stagePoints, List.length_append, List.length_map, List.length_range, List.length_drop]
  omega

theorem getD_stagePoints (p : Nat) : (stagePoints fm rm scale ((List.range n).map parts) pts).getD p (0, 0) =
    if p < n then ((cround fm rm scale.1 scale.2 (parts p).1).1, (cround fm rm scale.1 scale.2 (parts p).2).1) else pts.getD p (0, 0) := by
  simp only [stagePoints, List.map_map, List.length_map, List.length_range]
  by_cases hp : p < n
  · rw [if_pos hp, List.getD_append _ _ _ _ (by simpa using hp), getD_map_range _ _ _ hp]
    rfl
  · have hle := Nat.le_of_not_lt hp
    rw [if_neg hp, List.getD_append_right _ _ _ _ (by simpa using hle), List.length_map, List.length_range, List.getD_eq_getElem?_getD,
      List.getElem?_drop, Nat.add_sub_of_le hle, List.getD_eq_getElem?_getD]

end StagePoints

/-- The flags that the parts of some points raise. -/
def raisedFlags (l : List ((Nat × Flags) × (Nat × Flags))) : Flags := l.foldl (fun fl y => fl ||| y.1.2 ||| y.2.2) 0

section Stage

variable (s : State) (f : MbF) (wide : Bool) (rads : List Nat)

/-- The points of MBFLY's source. -/
def State.sourcePoints : List Pt := toPoints wide (s.cur.tile f.ms1).elems

/-- The exact parts that MBFLY forms. -/
def State.stageSums : List ((FVal × Flags) × (FVal × Flags)) :=
  stageParts (cxFmt wide) (s.literal.getLsbD 6) rads (fld s.literal 0 4).toNat (s.sourcePoints f wide)

/-- The block exponent that MBFLY scales by, or 0. -/
def State.stageExp : Nat :=
  if (fld s.literal 4 2).toNat = 3 then blockExp ((s.stageSums f wide rads).flatMap fun y => [y.1.1, y.2.1]) else 0

/-- The scaling that the literal names. -/
def State.stageScaling : Nat × Int :=
  stageScale (fld s.literal 4 2).toNat (rads.getD (fld s.literal 0 4).toNat 1) (s.stageExp f wide rads)

/-- The core with a stage put into its engine. -/
def State.stageStart : Core :=
  s.cur.startComplex (16 + 8 * rads.getD (fld s.literal 0 4).toNat 1) f.md [f.ms1] [] wide
    (stagePoints (cxFmt wide) s.cur.c.rm (s.stageScaling f wide rads) (s.stageSums f wide rads) (s.sourcePoints f wide))
    (raisedFlags ((s.stageSums f wide rads).map (roundParts (cxFmt wide) s.cur.c.rm (s.stageScaling f wide rads))))
    (if (fld s.literal 4 2).toNat = 3 then some (f.xs, BitVec.ofNat 64 (s.stageExp f wide rads)) else none)

/-- Point p of MBFLY's source. -/
def State.sourcePoint (p : Nat) : Pt := pointAt wide (s.cur.tile f.ms1).elems p

/-- The exact parts of MBFLY's output p. -/
def State.stageOutput (p : Nat) : (FVal × Flags) × (FVal × Flags) :=
  outputAt (cxFmt wide) (s.literal.getLsbD 6) rads (fld s.literal 0 4).toNat (s.sourcePoint f wide) p

/-- A stage with the radices `rads` is in the engine: each output of a whole sequence is its exact sum, scaled and rounded once, and
under block-exponent scaling the exponent is the least that bounds every part. -/
def EntersStage (i : Instr) : Prop :=
  let stage := (fld s.literal 0 4).toNat
  let scale := (fld s.literal 4 2).toNat
  let fm := cxFmt wide
  let rm := s.cur.c.rm
  let parts := s.stageOutput f wide rads
  let whole := wholePoints rads (pointCount wide)
  ∃ els fl e, els.length = 1024 ∧
    Starts s i (16 + 8 * rads.getD stage 1) f.md [f.ms1] [] [] 32 (.blocks (cxKind wide) els) [fl] true
      (xd := if scale = 3 then some (f.xs, BitVec.ofNat 64 e) else none) ∧
    (scale ≠ 3 → e = 0) ∧ (scale = 3 → AllFinite whole parts → AllBelow whole parts e ∧ ∀ e', AllBelow whole parts e' → e ≤ e') ∧
    (scale = 3 → ¬AllFinite whole parts → e = 0) ∧
    ∀ p, p < pointCount wide → pointAt wide els p =
      if p < whole then
        let d := if scale = 2 then rads.getD stage 1 else 1
        let by2 : Int := if scale = 1 then -1 else if scale = 3 then -(e : Int) else 0
        cutPt wide ((cround fm rm d by2 (parts p).1).1, (cround fm rm d by2 (parts p).2).1)
      else s.sourcePoint f wide p

variable {s f wide rads}

theorem length_sourcePoints : (s.sourcePoints f wide).length = pointCount wide := length_toPoints _ _

theorem stageSums_eq_map (hfits : FitsPoints rads (pointCount wide)) (hst : (fld s.literal 0 4).toNat < rads.length) :
    s.stageSums f wide rads = (List.range (wholePoints rads (pointCount wide))).map (s.stageOutput f wide rads) :=
  stageParts_eq_map _ _ hfits hst length_sourcePoints fun _ hn => getD_toPoints wide _ hn

theorem entersStage_of_exec {i : Instr} (hfits : FitsPoints rads (pointCount wide)) (hst : (fld s.literal 0 4).toNat < rads.length)
    (he : exec i s = .next (s.literalUsed (s.setCur (s.stageStart f wide rads)))) : EntersStage s f wide rads i := by
  have hsums := stageSums_eq_map (f := f) hfits hst
  have hlen := length_sourcePoints (s := s) (f := f) (wide := wide)
  have hexp (h : (fld s.literal 4 2).toNat = 3) : s.stageExp f wide rads =
      blockExp (partVals (wholePoints rads (pointCount wide)) (s.stageOutput f wide rads)) := by
    rw [State.stageExp, if_pos h, hsums, partVals]
  refine ⟨_, _, s.stageExp f wide rads, length_ofPoints ?_, startsComplex_of_exec he, fun h => if_neg h, fun h hfin => ?_,
    fun h hfin => ?_, fun p hp => ?_⟩
  · rw [hsums, length_stagePoints _ _ _ _ _ (hlen.symm ▸ wholePoints_le rads (pointCount wide)), hlen]
  · rw [hexp h]
    exact blockExp_least hfin
  · rw [hexp h]
    exact blockExp_eq_zero hfin
  · rw [pointAt_ofPoints, hsums, getD_stagePoints, State.stageScaling, stageScale_eq (fld s.literal 4 2).isLt, apply_ite (cutPt wide),
      State.sourcePoints, getD_toPoints wide _ hp, cutPt_pointAt]
    rfl

end Stage

theorem mbfly_acts {s : State} {i : Instr} {f : MbF} {wide : Bool} (he : exec i s = mbfly i f wide s) :
    let lit := s.literal
    let stage := (fld lit 0 4).toNat
    let seq := radicesOf s.cur.c.rseq (pointCount wide)
    MatActs s i
      [(0x07, lit.setWidth 64, decide (lit.toNat / 2 ^ 7 ≠ 0 ∨ 10 ≤ stage)), s.cur.wrongKind f.ms1 [cxKind wide],
        (0x47, lit.setWidth 64, (seq.all fun rads => decide (rads.length ≤ stage))), s.cur.noPanels f.md (f.md = f.ms1) 32] []
      (∀ rads, seq = some rads → EntersStage s f wide rads i) := by
  dsimp only
  cases hseq : radicesOf s.cur.c.rseq (pointCount wide) with
  | none =>
    refine matActs_of_matOp (t := s) he ?_ fun _ rads h => nomatch h
    rw [seqOf_eq_radicesOf, hseq]
    exact check_ite_bind (literal_eq_passes s rfl _) (check_bind (needComplex_eq_passes _ _ _) rfl)
  | some rads =>
    refine (matActs_of_matOp (t := s.setCur (s.stageStart f wide rads)) he ?_ id).imp fun hpass hexec => ?_
    · rw [seqOf_eq_radicesOf, hseq]
      exact check_ite_bind (literal_eq_passes s rfl _) (check_bind (needComplex_eq_passes _ _ _)
        (check_ite_bind (ite_error_eq_passes _ _ _) (check_bind (needPanels_eq_passes _ _ _ _) rfl)))
    · have hst : ¬rads.length ≤ (fld s.literal 0 4).toNat := of_decide_eq_false (hpass _ (.tail _ (.tail _ (.head _))))
      rintro _ ⟨rfl⟩
      exact entersStage_of_exec (fitsPoints_of_radicesOf hseq) (Nat.lt_of_not_le hst) hexec

end Sys2Proof.Machine
end

section
/-! SUPPORT. MTWMUL (R228, R229): each point times its twiddle. -/

namespace Sys2Proof.Machine

/-- The exact terms of the product of point p and its twiddle (R228). -/
def twiddleTerms (s : State) (f : MbF) (wide : Bool) (x : Pt) (p : Nat) : List (FVal × Flags) × List (FVal × Flags) :=
  let lit := s.literal
  let logc := (fld lit 0 5).toNat
  let n6 := (s.cur.rx f.xs).toNat
  cmulTerms (cxFmt wide) x (twiddle (cxFmt wide) (lit.getLsbD 25) (((fld lit 5 20).toNat + p / 2 ^ logc) * (p % 2 ^ logc) % n6) n6)

/-- The product of point p and its twiddle, each part rounded once. -/
def twiddled (s : State) (f : MbF) (wide : Bool) (xp : Pt × Nat) : (Nat × Flags) × (Nat × Flags) :=
  let t := twiddleTerms s f wide xp.1 xp.2
  (cround (cxFmt wide) s.cur.c.rm 1 0 (sumVals .rne t.1), cround (cxFmt wide) s.cur.c.rm 1 0 (sumVals .rne t.2))

/-- The products of all points. -/
def twiddledPoints (s : State) (f : MbF) (wide : Bool) : List ((Nat × Flags) × (Nat × Flags)) :=
  (s.sourcePoints f wide).zipIdx.map (twiddled s f wide)

theorem twiddledPoints_eq_map (s : State) (f : MbF) (wide : Bool) :
    twiddledPoints s f wide = (List.range (pointCount wide)).map fun p => twiddled s f wide (s.sourcePoint f wide p, p) := by
  rw [twiddledPoints, State.sourcePoints, toPoints_eq_map, map_zipIdx_range]
  rfl

/-- MTWMUL is in the engine: each point times its twiddle, each part of the exact product rounded once. -/
def EntersTwiddle (s : State) (i : Instr) (f : MbF) (wide : Bool) : Prop :=
  ∃ els fl, els.length = 1024 ∧ Starts s i 24 f.md [f.ms1] [] [] 32 (.blocks (cxKind wide) els) [fl] true ∧
    ∀ p, p < pointCount wide → pointAt wide els p =
      let y := twiddled s f wide (s.sourcePoint f wide p, p)
      cutPt wide (y.1.1, y.2.1)

theorem entersTwiddle_of_exec {s : State} {i : Instr} {f : MbF} {wide : Bool} {fl : Flags}
    (he : exec i s = .next (s.literalUsed (s.setCur (s.cur.startComplex 24 f.md [f.ms1] [] wide
      ((twiddledPoints s f wide).map fun y => (y.1.1, y.2.1)) fl none)))) : EntersTwiddle s i f wide := by
  rw [twiddledPoints_eq_map, List.map_map] at he
  refine ⟨_, fl, length_ofPoints (by rw [List.length_map, List.length_range]), startsComplex_of_exec he, fun p hp => ?_⟩
  rw [pointAt_ofPoints, getD_map_range _ _ _ hp]
  rfl

theorem mtwmul_acts {s : State} {i : Instr} {f : MbF} {wide : Bool} (he : exec i s = mtwmul i f wide s) :
    let lit := s.literal
    let logc := (fld lit 0 5).toNat
    let n6 := (s.cur.rx f.xs).toNat
    MatActs s i
      [(0x07, lit.setWidth 64, decide (lit.toNat / 2 ^ 26 ≠ 0 ∨ 10 < logc)), s.cur.wrongKind f.ms1 [cxKind wide],
        (0x47, lit.setWidth 64, decide (n6 = 0 ∨ 2 ^ 20 < n6 ∨ pointCount wide < 2 ^ logc)), s.cur.noPanels f.md (f.md = f.ms1) 32] []
      (EntersTwiddle s i f wide) := by
  dsimp only
  refine matActs_of_matOp he ?_ (entersTwiddle_of_exec (fl := raisedFlags (twiddledPoints s f wide)))
  exact check_ite_bind (literal_eq_passes s rfl _) (check_bind (needComplex_eq_passes _ _ _)
    (check_ite_bind (ite_error_eq_passes _ _ _) (check_bind (needPanels_eq_passes _ _ _ _) rfl)))

end Sys2Proof.Machine
end

section
/-! SUPPORT. MBREV (R227): digit reversal, its inverse, and the permuted points. -/

namespace Sys2Proof.Machine

/-! ### Digit reversal -/

theorem revPos_lt {rads : List Nat} (hpos : ∀ r ∈ rads, 0 < r) {pos : Nat} (h : pos < rads.prod) : revPos rads pos < rads.prod := by
  induction rads generalizing pos with
  | nil => exact Nat.one_pos
  | cons r rest ih =>
    obtain ⟨hr, hrest⟩ := List.forall_mem_cons.1 hpos
    rw [List.prod_cons] at h ⊢
    rw [revPos, Nat.mul_comm (pos % r)]
    exact Nat.mul_add_lt_mul_of_lt_of_lt (Nat.mod_lt _ hr) (ih hrest (Nat.div_lt_of_lt_mul h))

theorem revPos_inj {rads : List Nat} (hpos : ∀ r ∈ rads, 0 < r) {a b : Nat} (ha : a < rads.prod) (hb : b < rads.prod)
    (h : revPos rads a = revPos rads b) : a = b := by
  induction rads generalizing a b with
  | nil => rw [List.prod_nil, Nat.lt_one_iff] at ha hb; rw [ha, hb]
  | cons r rest ih =>
    obtain ⟨hr, hrest⟩ := List.forall_mem_cons.1 hpos
    rw [List.prod_cons] at ha hb
    have hla := revPos_lt hrest (Nat.div_lt_of_lt_mul ha)
    have hlb := revPos_lt hrest (Nat.div_lt_of_lt_mul hb)
    have hrp : 0 < rest.prod := List.prod_pos hrest
    simp only [revPos, Nat.mul_comm _ rest.prod] at h
    have hdigit : a % r = b % r := by
      simpa [Nat.mul_add_div hrp, Nat.div_eq_of_lt hla, Nat.div_eq_of_lt hlb] using congrArg (· / rest.prod) h
    have htail : a / r = b / r := by
      refine ih hrest (Nat.div_lt_of_lt_mul ha) (Nat.div_lt_of_lt_mul hb) ?_
      rw [hdigit] at h
      exact Nat.add_left_cancel h
    rw [← Nat.div_add_mod a r, ← Nat.div_add_mod b r, hdigit, htail]

/-- The place in its sequence that MBREV reads for each place: the reversed one, or under an inverse the one that is reversed to it. -/
def revSource (inv : Bool) (rads : List Nat) : List Nat :=
  let table := (List.range rads.prod).map (revPos rads)
  if inv then (List.range rads.prod).map fun q => (table.findIdx? (· == q)).getD 0 else table

section Source

variable {rads : List Nat} {pos : Nat}

theorem revSource_forward (h : pos < rads.prod) : (revSource false rads).getD pos 0 = revPos rads pos := getD_map_range _ _ _ h

theorem revSource_inverse (hpos : ∀ r ∈ rads, 0 < r) (h : pos < rads.prod) : (revSource true rads).getD (revPos rads pos) 0 = pos := by
  have hfind : ((List.range rads.prod).map (revPos rads)).findIdx? (· == revPos rads pos) = some pos := by
    refine List.findIdx?_eq_some_iff_getElem.2 ⟨by simpa using h, by simp, fun j hj hrev => ?_⟩
    have heq : revPos rads j = revPos rads pos := by simpa using hrev
    exact Nat.ne_of_lt hj (revPos_inj hpos (hj.trans h) h heq)
  rw [revSource, if_pos rfl, getD_map_range _ _ _ (revPos_lt hpos h), hfind]
  rfl

end Source

/-! ### Permuted points -/

theorem length_permute (inv : Bool) (rads : List Nat) (pts : List Pt) : (permute inv rads pts).length = pts.length := by
  unfold permute
  rw [List.length_map, List.length_range]

theorem getD_permute (inv : Bool) (rads : List Nat) {pts : List Pt} {p : Nat} (hp : p < pts.length) :
    (permute inv rads pts).getD p (0, 0) =
      if p < wholePoints rads pts.length then pts.getD (p / rads.prod * rads.prod + (revSource inv rads).getD (p % rads.prod) 0) (0, 0)
      else pts.getD p (0, 0) := by
  unfold permute
  rw [getD_map_range _ _ _ hp]
  simp only [getD_toArray]
  rfl

theorem seqPlace_lt_next (base : Nat) {n pos : Nat} (h : pos < n) : base * n + pos < (base + 1) * n := by
  rw [Nat.succ_mul]
  exact Nat.add_lt_add_left h _

/-- Place `pos` of sequence `base` of a tile's points. -/
theorem getD_permute_whole (inv : Bool) {rads : List Nat} {pts : List Pt} {base pos : Nat} (hbase : (base + 1) * rads.prod ≤ pts.length)
    (hpos : pos < rads.prod) : (permute inv rads pts).getD (base * rads.prod + pos) (0, 0) =
      pts.getD (base * rads.prod + (revSource inv rads).getD pos 0) (0, 0) := by
  have hprod : 0 < rads.prod := Nat.zero_lt_of_lt hpos
  have hlt := seqPlace_lt_next base hpos
  have hwhole : (base + 1) * rads.prod ≤ wholePoints rads pts.length :=
    Nat.mul_le_mul_right _ ((Nat.le_div_iff_mul_le hprod).2 hbase)
  rw [getD_permute inv rads (hlt.trans_le hbase), if_pos (hlt.trans_le hwhole), Nat.mul_comm base, Nat.mul_add_div hprod,
    Nat.div_eq_of_lt hpos, Nat.add_zero, Nat.mul_add_mod, Nat.mod_eq_of_lt hpos, Nat.mul_comm base]

/-! ### MBREV -/

/-- The elements that MBREV reads: those of a slot's lines, or the source tile's. -/
def State.revElems (s : State) (g : MbrevF) : List DWord :=
  if s.literal.getLsbD 0 then
    (List.range 32).flatMap fun l => (List.range 32).map fun k => BitVec.ofNat 64 (elemOf 64 (s.slotLine s.iss.core g.os l) k)
  else (s.cur.tile g.ms1).elems

/-- Point p of what MBREV reads. -/
def State.revPoint (s : State) (g : MbrevF) (p : Nat) : Pt :=
  pointAt (s.literal.getLsbD 2) (if s.literal.getLsbD 0 then (List.range 1024).map fun e => BitVec.ofNat 64 (s.slotEl g.os 64 (e / 32) (e % 32))
    else (s.cur.tile g.ms1).elems) p

theorem pointAt_revElems (s : State) (g : MbrevF) : pointAt (s.literal.getLsbD 2) (s.revElems g) = s.revPoint g := by
  have hslot : ((List.range 32).flatMap fun l => (List.range 32).map fun k => BitVec.ofNat 64 (s.slotEl g.os 64 l k)) =
      (List.range 1024).map fun e => BitVec.ofNat 64 (s.slotEl g.os 64 (e / 32) (e % 32)) :=
    flatten_rows 32 fun l k => BitVec.ofNat 64 (s.slotEl g.os 64 l k)
  funext p
  simp only [State.revElems, State.revPoint, elemOf_slotLine, hslot]

/-- The radices that MBREV reverses by: the single radix 1 where the literal asks for the identity. -/
def State.revRads (s : State) : Option (List Nat) :=
  if s.literal.getLsbD 3 then some [1] else radicesOf s.cur.c.rseq (pointCount (s.literal.getLsbD 2))

theorem fitsPoints_of_revRads {s : State} {rads : List Nat} (h : s.revRads = some rads) : FitsPoints rads (pointCount (s.literal.getLsbD 2)) := by
  unfold State.revRads at h
  split at h
  · obtain rfl := Option.some.inj h
    exact ⟨by simp, by cases s.literal.getLsbD 2 <;> decide⟩
  · exact fitsPoints_of_radicesOf h

/-- MBREV is in the engine: the points of whole sequences by digit reversal, or by its inverse, and the others as they are. -/
def EntersRev (s : State) (g : MbrevF) (rads : List Nat) : Prop :=
  let lit := s.literal
  let slot := lit.getLsbD 0
  let wide := lit.getLsbD 2
  ∃ els, els.length = 1024 ∧
    Starts s (.mbrev g) 40 g.md (if slot then [] else [g.ms1]) (if slot then [g.os] else []) [] 32 (.blocks (cxKind wide) els) [0] true ∧
    (∀ base pos, (base + 1) * rads.prod ≤ pointCount wide → pos < rads.prod →
      let n := base * rads.prod
      if lit.getLsbD 1 then pointAt wide els (n + revPos rads pos) = s.revPoint g (n + pos)
      else pointAt wide els (n + pos) = s.revPoint g (n + revPos rads pos)) ∧
    ∀ p, wholePoints rads (pointCount wide) ≤ p → p < pointCount wide → pointAt wide els p = s.revPoint g p

/-- The core with a permutation put into its engine. -/
def State.revStart (s : State) (g : MbrevF) (rads : List Nat) : Core :=
  s.cur.startComplex 40 g.md (if s.literal.getLsbD 0 then [] else [g.ms1]) (if s.literal.getLsbD 0 then [g.os] else [])
    (s.literal.getLsbD 2) (permute (s.literal.getLsbD 1) rads (toPoints (s.literal.getLsbD 2) (s.revElems g))) 0 none

theorem entersRev_of_exec {s : State} {g : MbrevF} {rads : List Nat} (hfits : FitsPoints rads (pointCount (s.literal.getLsbD 2)))
    (he : exec (.mbrev g) s = .next (s.literalUsed (s.setCur (s.revStart g rads)))) : EntersRev s g rads := by
  have hlen := length_toPoints (s.literal.getLsbD 2) (s.revElems g)
  have hpoint {p : Nat} (hp : p < pointCount (s.literal.getLsbD 2)) :
      cutPt (s.literal.getLsbD 2) ((toPoints (s.literal.getLsbD 2) (s.revElems g)).getD p (0, 0)) = s.revPoint g p := by
    rw [getD_toPoints _ _ hp, cutPt_pointAt, pointAt_revElems]
  refine ⟨_, length_ofPoints (by rw [length_permute, hlen]), startsComplex_of_exec he, fun base pos hbase hpos => ?_, fun p htail hp => ?_⟩
  · have hrev := revPos_lt hfits.pos hpos
    have hplace {y : Nat} (hy : y < rads.prod) : base * rads.prod + y < pointCount (s.literal.getLsbD 2) :=
      (seqPlace_lt_next base hy).trans_le hbase
    simp only [pointAt_ofPoints]
    cases s.literal.getLsbD 1 with
    | false =>
      rw [getD_permute_whole false (hlen.symm ▸ hbase) hpos, revSource_forward hpos, hpoint (hplace hrev)]
      rfl
    | true =>
      rw [getD_permute_whole true (hlen.symm ▸ hbase) hrev, revSource_inverse hfits.pos hpos, hpoint (hplace hpos)]
      rfl
  · rw [pointAt_ofPoints, getD_permute _ _ (hlen.symm ▸ hp), hlen, if_neg (Nat.not_lt.2 htail), hpoint hp]

theorem mbrev_acts (s : State) (g : MbrevF) :
    let c := s.cur
    let lit := s.literal
    let slot := lit.getLsbD 0
    MatActs s (.mbrev g)
      [(0x07, lit.setWidth 64, decide (lit.toNat / 2 ^ 4 ≠ 0)),
        if slot then c.unclaimed g.os else c.wrongKind g.ms1 [cxKind (lit.getLsbD 2)], (0x47, lit.setWidth 64, s.revRads.isNone),
        c.noPanels g.md (!slot && g.md == g.ms1) 32]
      (if slot then allLines g.os else []) (∀ rads, s.revRads = some rads → EntersRev s g rads) := by
  dsimp only
  have hlit : (if fld s.literal 4 28 ≠ 0 then .error ⟨0x07, s.literal.setWidth 64⟩ else .ok () : Except Fail Unit) =
      passes [(0x07, s.literal.setWidth 64, decide (s.literal.toNat / 2 ^ 4 ≠ 0))] := by
    rw [if_congr (not_congr (fld_top_eq_zero_iff s.literal rfl)) rfl rfl, ite_error_eq_passes]
  have hsource : (if s.literal.getLsbD 0 = true then needClaimed s.cur g.os else needComplex s.cur g.ms1 (s.literal.getLsbD 2)) =
      passes [if s.literal.getLsbD 0 = true then s.cur.unclaimed g.os else s.cur.wrongKind g.ms1 [cxKind (s.literal.getLsbD 2)]] := by
    split
    · exact needClaimed_eq_passes _ _
    · exact needComplex_eq_passes _ _ _
  have hmarks : (if s.literal.getLsbD 0 = true then rowMarks s.cur (allLines g.os) else []) =
      rowMarks s.cur (if s.literal.getLsbD 0 = true then allLines g.os else []) := (apply_ite (rowMarks s.cur) _ (allLines g.os) []).symm
  have hseq : (if bit s.literal 3 then some [1] else seqOf s.cur.c.rseq (pointCount (bit s.literal 2))) = s.revRads := by
    rw [seqOf_eq_radicesOf, State.revRads]
  cases hrads : s.revRads with
  | none =>
    refine matActs_of (t := s) (exec_mbrev g s) hmarks (check_ite_bind hlit (check_ite_bind hsource ?_)) fun _ rads h => nomatch h
    rw [hseq, hrads]
    rfl
  | some rads =>
    refine (matActs_of (t := s.setCur (s.revStart g rads)) (exec_mbrev g s) hmarks
      (check_ite_bind hlit (check_ite_bind hsource ?_)) id).imp fun _ hexec => ?_
    · rw [hseq, hrads]
      exact (check_bind (needPanels_eq_passes s.cur g.md _ 32) (a := s.setCur (s.revStart g rads)) rfl).trans rfl
    · rintro _ ⟨rfl⟩
      exact entersRev_of_exec (fitsPoints_of_revRads hrads) hexec

end Sys2Proof.Machine

namespace Sys2Proof

open Sys2Proof.Machine

/-- Settles O31: each operation is its checks in order, and then its points' start in the engine. -/
theorem butterflyOperations : Obligations.ButterflyOperations := by
  unfold Obligations.ButterflyOperations
  intro s f g wide c rm lit points fm cut kind x stage scale seq parts whole small number bounds numbers bfly slot wideB pointsB kindB seqB
    slotEls y brev logc rowb n6 twmul
  have hbfly {i : Instr} (he : exec i s = mbfly i f wide s) : bfly i := mbfly_acts he
  have htwmul {i : Instr} (he : exec i s = mtwmul i f wide s) : twmul i := mtwmul_acts he
  refine ⟨?_, ?_, mbrev_acts s g⟩
  · intro hwide
    exact ⟨hbfly (hwide ▸ exec_mbflyC64 f s), htwmul (hwide ▸ exec_mtwmulC64 f s)⟩
  · intro hwide
    exact ⟨hbfly (hwide ▸ exec_mbflyC128 f s), htwmul (hwide ▸ exec_mtwmulC128 f s)⟩

end Sys2Proof
end

section
/-! SUPPORT. The counterexample to the statement on job events: a FILL card with TAGS, whose source handle names the weight tier. -/

namespace Sys2Proof.Machine

/-- A FILL card with TAGS, one row of a granule. R242 gives FILL no TAGS, and an issue refuses the card (R243); a sound state may hold a job
with it. -/
def taggedFill : BitVec 512 := BitVec.ofNat 512 (6 + 2 ^ 17 + 2 ^ 256 * (32 + 2 ^ 16 + 2 ^ 32 + 2 ^ 48))

/-- The first MiB of the weight tier, and the whole SPAD. -/
def tierSource : Cap := BitVec.ofNat 256 (2 ^ 48 * 2 ^ 20 + 2 ^ 104 * 3)
def spadWhole : Cap := BitVec.ofNat 256 (2 ^ 48 * 2 ^ 20)

/-- Die 1 accepted the job and carries it out, as it does a job with a capability of its tier; the task has come back on core 0 of die 0, which
the job's addresses name now (log 94). -/
def fillOnDie1 : Job :=
  { mkJob 1 0 (.task 0) 0 0 0 .ca .rne (.copy taggedFill) tierSource spadWhole 0 0 [] with started := true }

/-- That job alone, and a tag at the first granule of the keys that die 1 has in the tier. -/
def fillingState : State :=
  { State.reset with tags := [granule (mkey .wgt 1 0)], dev := { Device.reset with jobs := [fillOnDie1], nextJob := 1 } }

theorem fillingState_ok : fillingState.Ok := by
  refine ⟨by decide, by decide, by decide, by decide, ?_, ?_⟩ <;> simp [fillingState, State.reset, Device.reset]

theorem fillingState_finds : fillingState.findJob fillOnDie1.id = some fillOnDie1 := by decide +kernel

/-- The tag of SPAD's first granule after an outcome. -/
def spadTag : Host.Outcome State Fault Refusal → Bool
  | .next t => KeySet.has t.tags (mkey .spad 0 0 / 32)
  | _ => false

/-- The row takes the tag that stands at the keys of the job's die. -/
theorem spadTag_exec_fillingState : spadTag (exec (.copyRow 0) fillingState) = true := by decide +kernel

/-- No tag stands at the keys of the core's die. -/
theorem fillingState_untagged : fillingState.tagAt (mkey .wgt 0 0) = false := by decide +kernel

theorem copyCard_taggedFill :
    (copyCard taggedFill).kind = kFill ∧ (copyCard taggedFill).tags = true ∧ (copyCard taggedFill).e0 = 32 ∧ (copyCard taggedFill).total = 1 := by
  decide +kernel

end Sys2Proof.Machine

namespace Sys2Proof

open Sys2Proof.Machine

/-- Refutes O43: the statement admits a FILL card with TAGS, which takes the tags of its source addresses though it reads nothing there, and it
finds the source by the core's die. Where the source capability is of the weight tier, the row looks in the tier of the job's own die: after
the task has come back on another die those are other keys, and the tag that stands there goes to the destination. -/
theorem not_jobEvents : ¬ Obligations.JobEvents := by
  unfold Obligations.JobEvents
  intro h
  obtain ⟨hfill, htags, hlen, htotal⟩ := copyCard_taggedFill
  obtain ⟨-, -, hrow, -⟩ := h fillingState fillOnDie1 fillingState_ok fillingState_finds
  have hmade := hrow taggedFill rfl rfl rfl (htotal ▸ Nat.one_pos)
  extract_lets k reads ia idx row plane d so dst src b at_ counts near at hmade
  have hkind : k.kind = kFill := hfill
  have hindexed : ¬(k.kind = kGather ∨ k.kind = kScatter) := by
    rw [hkind]
    decide
  have hbound : fillingState.rowBound fillOnDie1 fillOnDie1.dh d k.e0 = false := by decide +kernel
  have hfree : fillingState.rowFree fillOnDie1 fillOnDie1.dh (capBase fillOnDie1.dh + d.toNat) k.e0 = true := by decide +kernel
  have hfault : fillingState.pieceFault fillOnDie1 fillOnDie1.dh (capBase fillOnDie1.dh + d.toNat) k.e0 = none := by decide +kernel
  obtain ⟨hwrites, -⟩ := hmade (absurd · hindexed) (absurd hkind) hbound hfree hfault
  obtain ⟨hspad, -⟩ := hwrites (by rw [hkind]; decide)
  have hspace : capSpace fillOnDie1.dh = spSpad := by decide
  obtain ⟨t, hexec, -, -, -, -, -, htagged⟩ := hspad (.inl hspace)
  have hdst : dst = mkey .spad 0 0 := by decide +kernel
  have hsrc : src + 32 * 0 = mkey .wgt 0 0 := by decide +kernel
  have htag := htagged htags (by rw [hdst]; decide) 0 (by rw [show k.e0 = 32 from hlen]; decide)
  rw [hsrc, fillingState_untagged, hdst] at htag
  have hmoved := spadTag_exec_fillingState
  rw [show exec (.copyRow 0) fillingState = .next t from hexec, spadTag] at hmoved
  exact absurd (hmoved.symm.trans htag) (by decide)

end Sys2Proof
end

section
/-! SUPPORT. Jobs at their issue (R239, R240, R243, R429): the card as it is read, the handles that it names with their marks, the fields
that make it malformed, and the job that enters the die's order. -/

namespace Sys2Proof.Machine

open Host (Outcome)

/-! ### The handles that a card names (R240, R429) -/

/-- The handle register that a field of a card names, where its kind uses it. -/
def nameAt (k : BitVec 512) (lo : Nat) (p : Prop) [Decidable p] : List Nat := if p then [cardNat k lo 4] else []

def copyNames (k : BitVec 512) : List Nat :=
  nameAt k 24 (cardNat k 0 8 ≠ 6) ++ nameAt k 28 True ++ nameAt k 32 (cardNat k 0 8 = 2 ∨ cardNat k 0 8 = 3) ++
    nameAt k 36 (cardNat k 16 1 = 1)

def wpeNames (k : BitVec 512) : List Nat :=
  nameAt k 28 (cardNat k 0 8 ≠ 4) ++ nameAt k 32 True ++ nameAt k 36 (cardNat k 21 1 = 1) ++ nameAt k 40 (cardNat k 20 1 = 1)

theorem lt_of_mem_nameAt {k : BitVec 512} {lo r : Nat} {p : Prop} [Decidable p] (h : r ∈ nameAt k lo p) : r < 16 := by
  have hr : r = cardNat k lo 4 := by
    rw [nameAt] at h
    split at h
    · exact List.mem_singleton.1 h
    · exact absurd h List.not_mem_nil
  exact hr ▸ Nat.mod_lt _ (by decide)

theorem lt_of_mem_copyNames {k : BitVec 512} {r : Nat} (h : r ∈ copyNames k) : r < 16 := by
  simp only [copyNames, List.mem_append] at h
  rcases h with ((h | h) | h) | h <;> exact lt_of_mem_nameAt h

theorem lt_of_mem_wpeNames {k : BitVec 512} {r : Nat} (h : r ∈ wpeNames k) : r < 16 := by
  simp only [wpeNames, List.mem_append] at h
  rcases h with ((h | h) | h) | h <;> exact lt_of_mem_nameAt h

theorem cardHandles_copy (k : BitVec 512) : cardHandles k false = (copyNames k).map (BitVec.ofNat 4) := by
  simp [cardHandles, copyNames, nameAt, copyCard, CopyCard.hasSrc, CopyCard.indexed, kFill, kGather, kScatter]

theorem cardHandles_wpe (k : BitVec 512) : cardHandles k true = (wpeNames k).map (BitVec.ofNat 4) := by
  have hsource : (if (wpeCard k).kind = kUnmap then [] else [(wpeCard k).sh]) = nameAt k 28 (cardNat k 0 8 ≠ 4) := by
    by_cases h : cardNat k 0 8 = 4
    · rw [if_pos (show (wpeCard k).kind = kUnmap from h), nameAt, if_neg (not_not.2 h)]
    · rw [if_neg (show ¬(wpeCard k).kind = kUnmap from h), nameAt, if_pos h]
      rfl
  simp only [cardHandles, if_true, hsource, wpeNames]
  simp [nameAt, wpeCard]

/-- Handle register r of the acting core is poisoned. -/
abbrev State.hMarked (s : State) (r : Nat) : Prop := s.cur.r.hmark.getLsbD r = true

theorem mem_marks_handles {s : State} {names : List Nat} (hnames : ∀ r ∈ names, r < 16) (z : Holder) :
    z ∈ s.cur.marks { Uses.none with hr := names.map (BitVec.ofNat 4) } ↔ ∃ r ∈ names, s.hMarked r ∧ z = .h (BitVec.ofNat 4 r) := by
  have hsame : ∀ r ∈ names, (BitVec.ofNat 4 r).toNat = r := fun r hr => Nat.mod_eq_of_lt (hnames r hr)
  simp only [Core.marks, Uses.none, List.filter_nil, List.map_nil, List.flatMap_nil, List.nil_append, List.mem_map, List.mem_filter]
  constructor
  · rintro ⟨_, ⟨⟨r, hr, rfl⟩, hmark⟩, rfl⟩
    exact ⟨r, hr, hsame r hr ▸ hmark, rfl⟩
  · rintro ⟨r, hr, hmark, rfl⟩
    exact ⟨_, ⟨⟨r, hr, rfl⟩, (hsame r hr).symm ▸ hmark⟩, rfl⟩

theorem handlePoison_of_unmarked {s : State} {names : List Nat} (hnames : ∀ r ∈ names, r < 16) (hclear : ∀ r ∈ names, ¬s.hMarked r) :
    s.handlePoison (names.map (BitVec.ofNat 4)) = none := by
  have hnil : s.cur.marks { Uses.none with hr := names.map (BitVec.ofNat 4) } = [] := List.eq_nil_iff_forall_not_mem.2 fun z hz => by
    obtain ⟨r, hr, hmark, -⟩ := (mem_marks_handles hnames z).1 hz
    exact hclear r hr hmark
  unfold State.handlePoison
  rw [hnil]

theorem handlePoison_of_marked {s : State} {names : List Nat} (hnames : ∀ r ∈ names, r < 16) (hmarked : ∃ r ∈ names, s.hMarked r) :
    ∃ tr, s.handlePoison (names.map (BitVec.ofNat 4)) = some tr ∧ tr.cause = 0xA0 ∧ tr.kind = .issue ∧
      ∀ z, z ∈ tr.zero ↔ ∃ r ∈ names, s.hMarked r ∧ z = .h (BitVec.ofNat 4 r) := by
  obtain ⟨r, hr, hmark⟩ := hmarked
  have hmem := mem_marks_handles (s := s) hnames
  have hfirst := (hmem _).2 ⟨r, hr, hmark, rfl⟩
  unfold State.handlePoison
  split
  · next hnil => exact absurd (hnil ▸ hfirst) List.not_mem_nil
  · next h t hcons => exact ⟨_, rfl, rfl, rfl, fun z => hcons ▸ hmem z⟩

/-! ### The card in SPAD (R239) -/

section Card

variable {s : State} {i : Instr} {f : CjF} {off : Nat}

theorem capSpace_eq_spad {h : HReg} {perm : BitVec 8} {align z : Nat} (href : s.refuses h [0] perm align off z = none) :
    capSpace (s.cur.rh h) = spSpad := by
  have hspace : (!([0] : List Nat).contains (capSpace (s.cur.rh h))) = false :=
    passes_of_refuses href (x := (0x21, _)) (List.mem_cons_of_mem _ List.mem_cons_self)
  simpa [spSpad] using hspace

theorem cardAt_eq (hspace : capSpace (s.cur.rh f.h) = spSpad) :
    s.cardAt s.cur f.h off = BitVec.ofNat 512 (s.nat (mkey .spad s.iss.core (capBase (s.cur.rh f.h) + off)) 64) := by
  rw [State.cardAt, State.place_spad hspace]

theorem cardMarks_eq_nil (hspace : capSpace (s.cur.rh f.h) = spSpad)
    (hclear : ∀ k, k < 64 → KeySet.has s.marks ((mkey .spad s.iss.core (capBase (s.cur.rh f.h) + off) + k) / 32) = false) :
    s.cardMarks s.cur f.h off = [] := by
  rw [State.cardMarks, State.place_spad hspace, List.map_eq_nil_iff, List.filter_eq_nil_iff]
  intro g hg
  generalize mkey .spad s.iss.core (capBase (s.cur.rh f.h) + off) = key at hg hclear
  obtain ⟨hlo, hhi⟩ := (mem_granules (by decide)).1 hg
  -- the first of the 64 bytes that lies in the granule
  have hbyte := hclear (max key (32 * g) - key) (by omega)
  rw [show (key + (max key (32 * g) - key)) / 32 = g by omega] at hbyte
  exact Bool.eq_false_iff.1 hbyte

/-- An operation whose card passes the handle's checks and is unmarked comes to what the card names. -/
theorem cardOp_eq_jobOp {wpe : Bool} {k : State → Core → BitVec 512 → Nat → Except Fail State} (hclean : Clean s i)
    (href : s.refuses f.h [0] pR 64 (s.offset i).toNat 64 = none) (hmarks : s.cardMarks s.cur f.h (s.offset i).toNat = []) :
    cardOp i f wpe s k = jobOp i s (cardHandles (s.cardAt s.cur f.h (s.offset i).toNat) wpe)
      fun s' c => k s' c (s'.cardAt c f.h (s.offset i).toNat) (s.offset i).toNat := by
  have hcheck : s.check s.iss.core s.cur f.h needCard (s.offset i).toNat 64 = .ok () := check_of_refuses href
  unfold cardOp
  extract_lets off
  rw [show s.poisonTrap i 0 = none from hclean, hcheck]
  dsimp only
  rw [hmarks]

theorem cardOp_traps {wpe : Bool} {k : State → Core → BitVec 512 → Nat → Except Fail State} {e : BitVec 8}
    (hexec : exec i s = cardOp i f wpe s k) (hclean : Clean s i) (href : s.refuses f.h [0] pR 64 (s.offset i).toNat 64 = some e) :
    Traps s i e (BitVec.ofNat 64 (s.offset i).toNat) := by
  have hcheck : s.check s.iss.core s.cur f.h needCard (s.offset i).toNat 64 = .error ⟨e, BitVec.ofNat 64 (s.offset i).toNat⟩ :=
    check_of_refuses_some href
  have hslot : cardOp i f wpe s k = slotOpS i s fun s' c =>
      s'.check s'.iss.core c f.h needCard (s.offset i).toNat 64 >>= fun _ => k s' c (s'.cardAt c f.h (s.offset i).toNat) (s.offset i).toNat := by
    unfold cardOp
    extract_lets off
    rw [show s.poisonTrap i 0 = none from hclean, hcheck]
  exact traps_of_refuses (hexec.trans hslot) rfl hclean href

end Card

/-! ### Malformed cards (R243, R303) -/

/-- The fields of a copy card that R243 refuses by themselves. -/
def BadCopy (k : BitVec 512) : Prop :=
  cardNat k 40 24 ≠ 0 ∨ cardNat k 0 8 = 0 ∨ 6 < cardNat k 0 8 ∨ cardNat k 12 2 = 3 ∨ 5 < cardNat k 8 4 ∨ 4 < cardNat k 21 3

/-- The same of a WPE card (R303). -/
def BadWpe (k : BitVec 512) : Prop :=
  cardNat k 8 12 ≠ 0 ∨ cardNat k 256 256 ≠ 0 ∨ cardNat k 0 8 = 0 ∨ 4 < cardNat k 0 8 ∨ cardNat k 44 20 = 0 ∨ 4 < cardNat k 25 3

theorem CopyCard.wellFormed_of_bad {k : BitVec 512} (hs : Handles) (hbad : BadCopy k) : CopyCard.wellFormed k hs = false := by
  refine Bool.eq_false_iff.2 fun hwell => ?_
  simp only [CopyCard.wellFormed, Bool.and_eq_true, beq_iff_eq, bne_iff_ne, decide_eq_true_eq] at hwell
  simp only [copyCard] at hwell
  rw [BadCopy] at hbad
  omega

theorem WpeCard.wellFormed_of_bad {k : BitVec 512} (hbad : BadWpe k) : WpeCard.wellFormed k = false := by
  refine Bool.eq_false_iff.2 fun hwell => ?_
  simp only [WpeCard.wellFormed, Bool.and_eq_true, beq_iff_eq, bne_iff_ne, decide_eq_true_eq] at hwell
  simp only [wpeCard] at hwell
  rw [BadWpe] at hbad
  omega

section Submit

variable {s : State} {c : Core} {k : BitVec 512} {coff : Nat} {xd : XReg}

theorem submitCopy_of_bad (hbad : BadCopy k) : s.submitCopy c k coff xd = .error ⟨0x81, BitVec.ofNat 64 coff⟩ := by
  refine bind_of_error ?_
  rw [State.checkCopyCard, CopyCard.wellFormed_of_bad _ hbad, if_neg Bool.false_ne_true]

theorem submitWpe_of_bad (hbad : BadWpe k) : s.submitWpe c k coff xd = .error ⟨0x81, BitVec.ofNat 64 coff⟩ := by
  refine bind_of_error ?_
  rw [State.checkWpeCard, WpeCard.wellFormed_of_bad hbad, if_neg Bool.false_ne_true]
  rfl

/-- The capability of the handle register that a field of a card names. -/
def Core.named (c : Core) (k : BitVec 512) (lo : Nat) : Cap := c.rh (BitVec.ofNat 4 (cardNat k lo 4))

theorem submitCopy_of_ok (hcheck : s.checkCopyCard (some s.iss.core) (capCtx (c.rh 0)) k (taskHandles c) coff = .ok ()) :
    s.submitCopy c k coff xd = .ok (s.submit c (.copy k) (c.named k 24) (c.named k 28) (c.named k 32) (c.named k 36) [] xd) := by
  rw [State.submitCopy, hcheck]
  rfl

theorem submitWpe_of_ok (hcheck : s.checkWpeCard s.iss.core (capCtx (c.rh 0)) k (taskHandles c) coff = .ok ()) :
    s.submitWpe c k coff xd = .ok (s.submit c (.wpe k) (c.named k 28) (c.named k 32) (c.named k 36) (c.named k 40) [] xd) := by
  rw [State.submitWpe, hcheck]
  rfl

end Submit

/-! ### The job that an issue leaves (R239, R244) -/

/-- A job of the acting core's task stands behind the die's others, the ticket is on its way to x[xd], and CP has risen. -/
def Accepts (s : State) (i : Instr) (xd : XReg) (work : JobWork) (sh dh ah gh : Cap) (after : List Nat) : Prop :=
  let c := s.cur
  let n := s.iss.core
  ∃ (t : State) (j : Job), exec i s = .next t ∧ t.mem = s.mem ∧ t.tags = s.tags ∧ t.iss = s.iss ∧ t.dev.jobs = s.dev.jobs ++ [j] ∧
    j.id = s.dev.nextJob ∧ t.dev.nextJob = s.dev.nextJob + 1 ∧ j.die = n / 96 ∧ j.home = n / 96 ∧ j.core = n ∧
    j.edges = (s.dev.jobs.filter j.waitsFor).map (·.id) ∧ j.work = work ∧
    j.ticket = c.m.ticket ∧ j.rm = c.c.rm ∧ j.sh = sh ∧ j.dh = dh ∧ j.ah = ah ∧ j.gh = gh ∧ j.rows = 0 ∧
    j.started = false ∧ j.seq = c.m.nextId ∧ j.after = c.m.fenced ++ after ∧
    (∀ k, c.task = some k → j.owner = .task k.uid ∧ j.ctx = k.ctx) ∧
    t.cur = { c with
      c := { c.c with cp := c.c.cp + 1 }, m := { c.m with ticket := c.m.ticket + 1 }
      t := { c.t with pend := c.t.pend ++ [mkPend s.iss.slot 1 (.x xd (c.m.ticket.setWidth 64))] } }

section Issue

variable {s : State} {i : Instr} {xd : XReg} {work : JobWork} {sh dh ah gh : Cap} {after : List Nat}

theorem accepts_of_submit (hexec : exec i s = .next (s.submit s.cur work sh dh ah gh after xd)) :
    Accepts s i xd work sh dh ah gh after := by
  refine ⟨_, _, hexec, rfl, rfl, rfl, rfl, rfl, rfl, rfl, rfl, rfl, rfl, rfl, rfl, rfl, rfl, rfl, rfl, rfl, rfl, rfl, rfl, rfl, ?_,
    State.cur_setCur _ _⟩
  intro k hk
  simp [mkJob, hk]

/-- R429: a job whose card names poisoned handle registers takes cause 0xA0 with exactly those. -/
def Consumes (s : State) (i : Instr) (names : List Nat) : Prop :=
  (∃ r ∈ names, s.hMarked r) → ∃ tr, exec i s = .next (s.raise tr) ∧ tr.cause = 0xA0 ∧ tr.kind = .issue ∧
    ∀ z, z ∈ tr.zero ↔ ∃ r ∈ names, s.hMarked r ∧ z = .h (BitVec.ofNat 4 r)

/-- What a job's operation does once its card is read: the poison of what the card names, then the card's own checks, then the job. -/
def CardActs (s : State) (i : Instr) (names : List Nat) (bad : Prop) (coff : Nat) (passes accepts : Prop) : Prop :=
  Consumes s i names ∧ ((∀ r ∈ names, ¬s.hMarked r) → (bad → Traps s i 0x81 (BitVec.ofNat 64 coff)) ∧ (passes → accepts))

variable {K : State → Core → Except Fail State} {k : BitVec 512} {coff : Nat} (hclean : Clean s i)
include hclean

theorem cardActs_of_jobOp {names : List Nat} {bad passes : Prop} (hnames : ∀ r ∈ names, r < 16)
    (hexec : exec i s = jobOp i s (names.map (BitVec.ofNat 4)) K) (hbad : bad → K s s.cur = .error ⟨0x81, BitVec.ofNat 64 coff⟩)
    (hok : passes → K s s.cur = .ok (s.submit s.cur work sh dh ah gh after xd)) :
    CardActs s i names bad coff passes (Accepts s i xd work sh dh ah gh after) := by
  refine ⟨fun hmarked => ?_, fun hclear => ?_⟩
  · obtain ⟨tr, htrap, hzero⟩ := handlePoison_of_marked hnames hmarked
    refine ⟨tr, hexec.trans ?_, hzero⟩
    unfold jobOp
    rw [show s.poisonTrap i 0 = none from hclean, htrap]
  · have hslot := hexec.trans (jobOp_eq hclean (handlePoison_of_unmarked hnames hclear))
    exact ⟨fun h => hslot.trans (slotOpS_fail (e := ⟨0x81, BitVec.ofNat 64 coff⟩) hclean (hbad h)),
      fun h => accepts_of_submit (hslot.trans (slotOpS_clean hclean (hok h)))⟩

theorem copyCard_acts (hexec : exec i s = jobOp i s (cardHandles k false) K) (hK : K s s.cur = s.submitCopy s.cur k coff xd) :
    CardActs s i (copyNames k) (BadCopy k) coff (s.checkCopyCard (some s.iss.core) (capCtx (s.cur.rh 0)) k (taskHandles s.cur) coff = .ok ())
      (Accepts s i xd (.copy k) (s.cur.named k 24) (s.cur.named k 28) (s.cur.named k 32) (s.cur.named k 36) []) :=
  cardActs_of_jobOp hclean (fun _ => lt_of_mem_copyNames) (cardHandles_copy k ▸ hexec) (fun h => hK.trans (submitCopy_of_bad h))
    fun h => hK.trans (submitCopy_of_ok h)

theorem wpeCard_acts (hexec : exec i s = jobOp i s (cardHandles k true) K) (hK : K s s.cur = s.submitWpe s.cur k coff xd) :
    CardActs s i (wpeNames k) (BadWpe k) coff (s.checkWpeCard s.iss.core (capCtx (s.cur.rh 0)) k (taskHandles s.cur) coff = .ok ())
      (Accepts s i xd (.wpe k) (s.cur.named k 28) (s.cur.named k 32) (s.cur.named k 36) (s.cur.named k 40) []) :=
  cardActs_of_jobOp hclean (fun _ => lt_of_mem_wpeNames) (cardHandles_wpe k ▸ hexec) (fun h => hK.trans (submitWpe_of_bad h))
    fun h => hK.trans (submitWpe_of_ok h)

end Issue

/-! ### The operations (R239, R243, R248) -/

section Operations

variable {s : State}

/-- The card that an operation reads in SPAD. -/
def State.spadCard (s : State) (f : CjF) (i : Instr) : BitVec 512 :=
  BitVec.ofNat 512 (s.nat (mkey .spad s.iss.core (capBase (s.cur.rh f.h) + (s.offset i).toNat)) 64)

/-- The handle admits the card, and none of its granules is marked. -/
def State.Fetches (s : State) (f : CjF) (i : Instr) : Prop :=
  Clean s i ∧ s.refuses f.h [0] pR 64 (s.offset i).toNat 64 = none ∧
    ∀ k, k < 64 → KeySet.has s.marks ((mkey .spad s.iss.core (capBase (s.cur.rh f.h) + (s.offset i).toNat) + k) / 32) = false

theorem exec_fetched {i : Instr} {f : CjF} {wpe : Bool} {k : State → Core → BitVec 512 → Nat → Except Fail State}
    (hexec : exec i s = cardOp i f wpe s k) (hfetch : s.Fetches f i) :
    ∃ K, exec i s = jobOp i s (cardHandles (s.spadCard f i) wpe) K ∧ K s s.cur = k s s.cur (s.spadCard f i) (s.offset i).toNat := by
  obtain ⟨hclean, href, hclear⟩ := hfetch
  have hspace := capSpace_eq_spad href
  have hcard : s.cardAt s.cur f.h (s.offset i).toNat = s.spadCard f i := cardAt_eq hspace
  have hjob := hexec.trans (cardOp_eq_jobOp hclean href (cardMarks_eq_nil hspace hclear))
  rw [hcard] at hjob
  exact ⟨_, hjob, congrArg (k s s.cur · _) hcard⟩

theorem csignal_accepts {q : CsF} (hclean : Clean s (.csignal q))
    (href : s.refuses q.h [0, 1, 2] pW 8 (off48 (s.cur.rx q.xa)) 8 = none) :
    Accepts s (.csignal q) q.xd (.signal (s.cur.rx q.xb) (off48 (s.cur.rx q.xa))) 0 0 0 (s.cur.rh q.h)
      (s.taskJobs ((s.cur.task.map (·.uid)).getD 0)) := by
  have hcheck : s.check s.iss.core s.cur q.h { spaces := spacesTagged, perm := permW, align := 8 } (off48 (s.cur.rx q.xa)) 8 = .ok () :=
    check_of_refuses href
  refine accepts_of_submit ((exec_csignal q s).trans (slotOpS_clean hclean ?_))
  dsimp only
  rw [hcheck]
  rfl

end Operations

end Sys2Proof.Machine
end

section
/-! SUPPORT. CQUERY, CCANCEL and CFENCE (R247, R248, R414): the job and the outcome that a ticket names, and what a cancel leaves. -/

namespace Sys2Proof.Machine

/-! ### Tickets (R247, R414) -/

/-- A value that names one of the 64 latest tickets. -/
def Core.recent (c : Core) (v : DWord) : Bool :=
  decide (v.toNat < 65536) && decide (1 ≤ (c.m.ticket - v.setWidth 16).toNat) && decide ((c.m.ticket - v.setWidth 16).toNat ≤ 64)

theorem Core.recent_eq (c : Core) (v : DWord) :
    c.recent v = (decide (v.toNat < 65536) && ticketRecent c.m.ticket (v.setWidth 16)) := Bool.and_assoc ..

/-- The task of a core, by number. -/
abbrev Core.uid (c : Core) : Nat := (c.task.map (·.uid)).getD 0

/-- The live job of the task that a value names. -/
def State.liveJob (s : State) (c : Core) (v : DWord) : Option Job :=
  if c.recent v then s.dev.jobs.find? (fun j => decide (j.owner = .task c.uid) && j.ticket == v.setWidth 16) else none

/-- The outcome kept for the ticket that a value names. -/
def Core.endedTicket (c : Core) (v : DWord) : Option Ticket :=
  if c.recent v then c.m.tickets.find? (fun t => t.num == v.setWidth 16) else none

theorem jobOf_eq_liveJob (s : State) (c : Core) (v : DWord) : s.jobOf c v = s.liveJob c v := by
  rw [State.jobOf, State.liveJob, Core.recent_eq]

theorem find_ticket_eq_endedTicket (c : Core) (v : DWord) :
    c.m.tickets.find? (fun t => decide (v.toNat < 65536) && t.num == v.setWidth 16 && ticketRecent c.m.ticket t.num) = c.endedTicket v := by
  have hsame : ∀ t : Ticket, (decide (v.toNat < 65536) && t.num == v.setWidth 16 && ticketRecent c.m.ticket t.num) =
      (c.recent v && t.num == v.setWidth 16) := fun t => by
    rw [Core.recent_eq]
    by_cases hnum : t.num = v.setWidth 16
    · simp [hnum]
    · simp [beq_false_of_ne hnum]
  simp only [hsame, Core.endedTicket]
  cases c.recent v <;> simp

theorem owner_of_liveJob {s : State} {c : Core} {v : DWord} {j : Job} (hlive : s.liveJob c v = some j) : j.owner = .task c.uid := by
  rw [State.liveJob] at hlive
  split at hlive
  · have hfound := List.find?_some hlive
    simp only [Bool.and_eq_true, decide_eq_true_eq] at hfound
    exact hfound.1
  · cases hlive

/-- The word that CQUERY gives. -/
def statusWord (rows st : Nat) : DWord := BitVec.ofNat 64 (rows % 2 ^ 32 * 2 ^ 32 + st)

section Status

variable {s : State} {c : Core} {v : DWord}

theorem ticketStatus_of_live {j : Job} (hlive : s.liveJob c v = some j) :
    s.ticketStatus c v = statusWord j.rows (if j.started then 1 else 0) := by
  rw [State.ticketStatus, jobOf_eq_liveJob, hlive]
  rfl

variable (hlive : s.liveJob c v = none)
include hlive

theorem ticketStatus_of_ended {t : Ticket} (hended : c.endedTicket v = some t) : s.ticketStatus c v = statusWord t.rows t.state.toNat := by
  rw [State.ticketStatus, jobOf_eq_liveJob, hlive, find_ticket_eq_endedTicket, hended]
  rfl

theorem ticketStatus_of_unknown (hended : c.endedTicket v = none) : s.ticketStatus c v = statusWord 0 2 := by
  rw [State.ticketStatus, jobOf_eq_liveJob, hlive, find_ticket_eq_endedTicket, hended]
  rfl

end Status

/-! ### A task's core after the end of a job (R245, R248) -/

@[simp] theorem Core.jobEnd_r (c : Core) (k : Ticket) : (c.jobEnd k).r = c.r := rfl
@[simp] theorem Core.jobEnd_t (c : Core) (k : Ticket) : (c.jobEnd k).t = c.t := rfl

/-- What becomes of a core where the state of task `uid` is changed by `g`. -/
def Core.forTask (uid : Nat) (g : Core → Core) (c : Core) : Core := if c.task.any (·.uid == uid) && c.alive then g c else c

theorem State.updTask_core (s : State) (uid : Nat) (g : Core → Core) (n : Nat) :
    (s.updTask uid g).core n = (s.core n).forTask uid g :=
  lookupD_map (d := Core.idle) (f := fun _ => Core.forTask uid g) rfl s.cores

theorem State.updTask_cur (s : State) (uid : Nat) (g : Core → Core) : (s.updTask uid g).cur = s.cur.forTask uid g :=
  s.updTask_core uid g s.iss.core

theorem Core.forTask_of_task {c : Core} {k : Task} (g : Core → Core) (htask : c.task = some k) (hmode : c.mode ≠ .dying) :
    c.forTask c.uid g = g c :=
  if_pos (by simp [Core.alive, Core.uid, htask, hmode])

/-- What the change leaves of every core, it leaves of this one. -/
theorem Core.forTask_keeps {α : Type} {g : Core → Core} {part : Core → α} (hkeep : ∀ c, part (g c) = part c) (uid : Nat) (c : Core) :
    part (c.forTask uid g) = part c := by
  rw [Core.forTask]
  split
  · exact hkeep c
  · rfl

/-- The outcome of a cancelled job (R248). -/
def Job.cancelled (j : Job) : Ticket := { num := j.ticket, rows := j.rows, state := 3, cause := 0 }

theorem jobCancelled_of_task {s : State} {j : Job} {uid : Nat} (howner : j.owner = .task uid) :
    s.jobCancelled j = (s.dropJob j.id).updTask uid (·.jobEnd j.cancelled) := by
  rw [State.jobCancelled, howner]
  rfl

/-- A job that builds: its end is its switch (R248). -/
def Job.builds (j : Job) : Prop := j.build.isSome = true ∧ ∃ k, j.work = .wpe k

section Cancel

variable {s : State} {j : Job}

theorem cancelJob_of_signalled (hsig : j.signalled = true) : s.cancelJob j = s := if_pos hsig

theorem cancelJob_of_builds (hsig : j.signalled = false) (hbuilds : j.builds) : s.cancelJob j = s.setJob { j with cancel := true } := by
  obtain ⟨hbuild, k, hwork⟩ := hbuilds
  rw [State.cancelJob, if_neg (Bool.eq_false_iff.1 hsig), hwork]
  exact if_pos hbuild

theorem cancelJob_of_ends (hsig : j.signalled = false) (hends : ¬j.builds) : s.cancelJob j = s.jobCancelled j := by
  rw [State.cancelJob, if_neg (Bool.eq_false_iff.1 hsig)]
  split
  · next k hwork => exact if_neg fun hbuild => hends ⟨hbuild, k, hwork⟩
  · rfl

end Cancel

/-! ### The operations -/

section Operations

variable {s : State}

theorem cquery_gives {f : CqF} {w : DWord} (hclean : Clean s (.cquery f)) (hw : s.ticketStatus s.cur (s.cur.rx f.xa) = w) :
    Gives s (.cquery f) s.iss.slot 1 (.x f.xd w) :=
  (exec_cquery f s).trans (slotOpS_clean hclean (hw ▸ rfl))

variable {xa : XReg} (hclean : Clean s (.ccancel xa))
include hclean

theorem exec_ccancel_unknown (hlive : s.liveJob s.cur (s.cur.rx xa) = none) : exec (.ccancel xa) s = .next s := by
  refine (exec_ccancel xa s).trans (slotOpS_clean hclean ?_)
  rw [jobOf_eq_liveJob, hlive]

theorem exec_ccancel_live {j : Job} (hlive : s.liveJob s.cur (s.cur.rx xa) = some j) : exec (.ccancel xa) s = .next (s.cancelJob j) := by
  refine (exec_ccancel xa s).trans (slotOpS_clean hclean ?_)
  rw [jobOf_eq_liveJob, hlive]

/-- R248: a job that neither has its signal on its way nor builds goes, and its task learns of it. -/
theorem ccancel_ends {j : Job} (hlive : s.liveJob s.cur (s.cur.rx xa) = some j) (hsig : j.signalled = false) (hends : ¬j.builds) :
    ∃ t, exec (.ccancel xa) s = .next t ∧ t.mem = s.mem ∧ t.iss = s.iss ∧ t.dev.jobs = s.dev.jobs.filter (fun k => k.id != j.id) ∧
      t.cur.r = s.cur.r ∧ t.cur.t = s.cur.t ∧
      ∀ k, s.cur.task = some k → s.cur.mode ≠ .dying → t.cur.c.cp = s.cur.c.cp - 1 ∧
        t.cur.m.tickets.getLast? = some j.cancelled := by
  have hexec := exec_ccancel_live hclean hlive
  rw [cancelJob_of_ends hsig hends, jobCancelled_of_task (owner_of_liveJob hlive)] at hexec
  have hcur : ((s.dropJob j.id).updTask s.cur.uid (·.jobEnd j.cancelled)).cur = s.cur.forTask s.cur.uid (·.jobEnd j.cancelled) :=
    State.updTask_cur ..
  refine ⟨_, hexec, rfl, rfl, rfl, hcur ▸ Core.forTask_keeps (part := (·.r)) (Core.jobEnd_r · j.cancelled) _ _,
    hcur ▸ Core.forTask_keeps (part := (·.t)) (Core.jobEnd_t · j.cancelled) _ _, fun k htask hmode => ?_⟩
  rw [hcur, Core.forTask_of_task _ htask hmode]
  exact ⟨rfl, List.getLast?_concat⟩

end Operations

theorem cfence_fallsThrough {s : State} (hclean : Clean s .cfence) :
    FallsThrough s .cfence { s.cur with m := { s.cur.m with fenced := s.taskJobs s.cur.uid } } :=
  fallsThrough_of_setCur ((exec_cfence s).trans (slotOpS_clean hclean rfl))

end Sys2Proof.Machine

namespace Sys2Proof

open Sys2Proof.Machine

/-- Settles O23: a card's operation comes to what the card names, then to the card's checks, and then to its job; the others are what they do
with the job or the outcome of a ticket. -/
theorem jobInstructions : Obligations.JobInstructions := by
  unfold Obligations.JobInstructions
  refine ⟨fun s f g q => ?_, fun s f xa => ?_⟩
  · intro c n accepts bits badCopy badWpe handle off card unmarked fetches use copyNames wpeNames marked consumes copies so
    refine ⟨fun hfetch => ?_, fun hclean => ?_, fun hfetch => ?_, fun e hclean href => cardOp_traps (exec_cjob f s) hclean href,
      fun e hclean href => cardOp_traps (exec_cwpe f s) hclean href,
      fun e hclean href => traps_of_refuses (exec_csignal q s) rfl hclean href, fun hclean href => csignal_accepts hclean href⟩
    · obtain ⟨K, hexec, hK⟩ := exec_fetched (exec_cjob f s) hfetch
      exact copyCard_acts hfetch.1 hexec hK
    · exact copyCard_acts hclean (exec_cjobv g s) rfl
    · obtain ⟨K, hexec, hK⟩ := exec_fetched (exec_cwpe f s) hfetch
      exact wpeCard_acts hfetch.1 hexec hK
  · intro c uid recent live ended a x gives builds
    refine ⟨fun hclean => ⟨fun j hlive => ?_, fun t hlive hended => ?_, fun hlive hended => ?_⟩, fun hclean => ?_, cfence_fallsThrough⟩
    · exact cquery_gives hclean (ticketStatus_of_live hlive)
    · exact cquery_gives hclean (ticketStatus_of_ended hlive hended)
    · exact cquery_gives hclean (ticketStatus_of_unknown hlive hended)
    · refine ⟨exec_ccancel_unknown hclean, fun j hlive hsig => ?_, fun j hlive hsig hbuilds => ?_,
        fun j hlive hsig hends => ccancel_ends hclean hlive hsig hends⟩
      · exact (exec_ccancel_live hclean hlive).trans (congrArg _ (cancelJob_of_signalled hsig))
      · exact (exec_ccancel_live hclean hlive).trans (congrArg _ (cancelJob_of_builds hsig hbuilds))

end Sys2Proof
end

section
/-! SUPPORT. What a found condition leaves where it is recorded (R441, R443, R451): a bank with a valid record, and the conditions that
granules bear (R423, R432). -/

namespace Sys2Proof.Machine

/-! ### A contained error in its bank (R443) -/

theorem State.bank_setBank (s : State) (die b : Nat) (k : McBank) : (s.setBank die b k).bank die b = k := lookupD_insertAt_same ..

theorem McErr.status_valid (e : McErr) (cecnt : BitVec 16) : (McErr.status e cecnt).getLsbD 63 = true := by
  unfold McErr.status
  repeat rw [BitVec.getLsbD_append]
  rfl

/-- A contained error leaves a valid record in its bank, its own or one that stood there; those of a lost die keep what they hold. -/
theorem State.mcRecord_valid {s : State} {die b : Nat} {e : McErr} (hsev : e.sev = 2) (hlive : s.dev.lost.contains die = false) :
    ((s.mcRecord die b e).bank die b).status.getLsbD 63 = true := by
  have hfill (k : McBank) : (k.fill e).status.getLsbD 63 = true := McErr.status_valid e _
  rw [State.mcRecord, if_neg (Bool.eq_false_iff.1 hlive)]
  extract_lets s1 k s2 held s3
  have hfilled : ((s1.setBank die b (k.fill e)).bank die b).status.getLsbD 63 = true := by
    rw [State.bank_setBank]
    exact hfill k
  rw [if_neg (by rw [hsev]; decide)]
  simp only [s3]
  split
  · rw [if_neg (fun h => absurd (hsev.symm.trans h.1) (by decide))]
    split <;> exact hfilled
  · next hval =>
    split
    · exact hfilled
    · rw [if_neg (fun h => absurd (hsev.symm.trans h.1) (by decide)), State.bank_setBank]
      exact (setBit_other _ _ (by decide)).trans (by simpa using hval)

/-! ### Conditions of granules -/

theorem mem_insertAt_self {α : Type} (l : List (Nat × α)) (n : Nat) (a : α) : (n, a) ∈ insertAt l n a := by
  induction l with
  | nil => exact List.mem_cons_self
  | cons b t ih =>
    rw [insertAt]
    split
    · exact List.mem_cons_self
    split
    · exact List.mem_cons_self
    · exact List.mem_cons_of_mem _ ih

theorem mem_insertAt_of_ne {α : Type} {l : List (Nat × α)} {n : Nat} {a : α} {e : Nat × α} (he : e ∈ l) (hne : e.1 ≠ n) :
    e ∈ insertAt l n a := by
  induction l with
  | nil => cases he
  | cons b t ih =>
    rw [insertAt]
    split
    · exact List.mem_cons_of_mem _ he
    split
    · next hn =>
      rcases List.mem_cons.1 he with rfl | he
      · exact absurd hn.symm hne
      · exact List.mem_cons_of_mem _ he
    · rcases List.mem_cons.1 he with rfl | he
      · exact List.mem_cons_self
      · exact List.mem_cons_of_mem _ (ih he)

/-- Of granules that all take one condition each has it. -/
theorem mem_foldl_insertAt {cond : MemCond} {g : Nat} (gs : List Nat) (l : List (Nat × MemCond)) (h : g ∈ gs ∨ (g, cond) ∈ l) :
    (g, cond) ∈ gs.foldl (fun l g => insertAt l g cond) l := by
  induction gs generalizing l with
  | nil => exact h.resolve_left List.not_mem_nil
  | cons k gs ih =>
    refine ih _ ?_
    by_cases hg : g = k
    · exact .inr (hg ▸ mem_insertAt_self ..)
    · refine h.imp (fun hmem => (List.mem_cons.1 hmem).resolve_left hg) fun hmem => mem_insertAt_of_ne hmem hg

end Sys2Proof.Machine
end

section
/-! SUPPORT. Conditions found where data stand (R423 to R429, R434, R437): in granules, in a line that a slice or an L1 holds, in a
register or an array of a core, in a weight block and in a barrier object. The states named here serve statements alone: no code is made
of them. -/

namespace Sys2Proof.Machine

open Host (Outcome)

variable {s : State}

theorem OnlyBanks.cores_eq {t : State} (h : OnlyBanks s t) : t.cores = s.cores := by
  obtain ⟨_, _, rfl⟩ := h
  rfl

theorem OnlyBanks.ms_eq {t : State} (h : OnlyBanks s t) : t.dev.ms = s.dev.ms := by
  obtain ⟨_, _, rfl⟩ := h
  rfl

theorem OnlyBanks.core_eq {t : State} (h : OnlyBanks s t) (n : Nat) : t.core n = s.core n := h.onlyDevice.core n

/-! ### Granules (R375, R425, R429) -/

/-- The granules that fail together: those of one MAC, or the one alone. -/
noncomputable def failingGranules (key : Nat) (cond : MemCond) : List Nat :=
  if cond = .mac then (List.range 8).map (granule key / 8 * 8 + ·) else [granule key]

/-- They are marked, and each has the condition. -/
noncomputable def State.markFound (s : State) (gs : List Nat) (cond : MemCond) : State :=
  (s.addMarks gs).setMs { (s.addMarks gs).dev.ms with
    broken := gs.foldl (fun l g => insertAt l g cond) (s.addMarks gs).dev.ms.broken }

theorem granule_mem_failingGranules (key : Nat) (cond : MemCond) : granule key ∈ failingGranules key cond := by
  unfold failingGranules
  split
  · exact List.mem_map.2 ⟨granule key % 8, List.mem_range.2 (Nat.mod_lt _ (by decide)), Nat.div_add_mod' ..⟩
  · exact List.mem_singleton_self _

theorem contains_failingGranules_mac (key g : Nat) : (failingGranules key .mac).contains g = (g / 8 == key / 32 / 8) := by
  rw [Bool.eq_iff_iff, List.contains_iff_mem, beq_iff_eq, failingGranules, if_pos rfl, List.mem_map]
  simp only [List.mem_range, granule]
  refine ⟨fun ⟨i, hi, hg⟩ => ?_, fun h => ⟨g % 8, Nat.mod_lt _ (by decide), ?_⟩⟩
  · rw [← hg, Nat.mul_comm, Nat.mul_add_div (by decide), Nat.div_eq_of_lt hi, Nat.add_zero]
  · rw [← h, Nat.div_add_mod']

/-- Bounds that whole granules divide do not tell a byte from the first of its granule. -/
theorem granule_mul_div (key m : Nat) : granule key * 32 / (32 * m) = key / (32 * m) := by
  rw [← Nat.div_div_eq_div_mul, granule, Nat.mul_div_cancel _ (by decide), Nat.div_div_eq_div_mul]

theorem keyOff_div_256 (key : Nat) : keyOff key / 256 = key / 256 % 2 ^ 56 := Nat.mod_mul_right_div_self key 256 (2 ^ 56)

theorem keyOff_div_die (key : Nat) : keyOff key / 2 ^ 36 = key / 2 ^ 36 % 2 ^ 28 := Nat.mod_mul_right_div_self key (2 ^ 36) (2 ^ 28)

/-- A granule lies with its bytes in one bank. -/
theorem granuleBank_granule (key : Nat) :
    (granuleBank (granule key * 32)).1 = (markBank key).1 ∧ (granuleBank (granule key * 32)).2.1 = (markBank key).2.1 := by
  have htop : granule key * 32 / 2 ^ 64 = key / 2 ^ 64 := granule_mul_div key (2 ^ 59)
  have hspace : keySpace (granule key * 32) = keySpace key := by rw [keySpace, htop, keySpace]
  have hunit : keyUnit (granule key * 32) = keyUnit key := by rw [keyUnit, htop, keyUnit]
  have hhome : homeDie (keyOff (granule key * 32)) = homeDie (keyOff key) := by
    rw [homeDie, keyOff_div_die, show granule key * 32 / 2 ^ 36 = key / 2 ^ 36 from granule_mul_div key (2 ^ 31), ← keyOff_div_die, homeDie]
  have hbank : keyOff (granule key * 32) / 256 % 8 = keyOff key / 256 % 8 := by
    rw [keyOff_div_256, show granule key * 32 / 256 = key / 256 from granule_mul_div key 8, ← keyOff_div_256]
  have hsame : (markBank (granule key * 32)).1 = (markBank key).1 ∧ (markBank (granule key * 32)).2.1 = (markBank key).2.1 := by
    simp only [markBank, hspace, hunit, hhome, hbank, and_self]
  unfold granuleBank
  dsimp only
  split <;> exact hsame

/-- A granule that fails its check: it and those that share the check are marked and bear the condition, and its bank has a record. -/
theorem State.granuleFails_of_found {key : Nat} {cond : MemCond} (h : cond = .ecc ∨ (cond = .mac ∧ keySpace key = 0)) :
    ∃ e : McErr, e.sev = 2 ∧ s.granuleFails key cond =
      (s.markFound (failingGranules key cond) cond).mcRecord (markBank key).1 (markBank key).2.1 e := by
  obtain ⟨hdie, hb⟩ := granuleBank_granule key
  have hdecode : cond ≠ .decode := by rintro rfl; simp at h
  have hpoisoned : cond ≠ .poisoned := by rintro rfl; simp at h
  have hmac : ¬(cond = .mac ∧ keySpace key ≠ MSpace.glob.code) := fun ⟨hm, hk⟩ => h.elim (fun he => by simp [he] at hm) fun hg => hk hg.2
  rw [← hdie, ← hb]
  rw [State.granuleFails, if_neg hdecode, if_neg hpoisoned, if_neg hmac]
  exact ⟨_, rfl, rfl⟩

theorem granule_fails (hs : s.Ok) {key : Nat} (cond : MemCond) (hkey : keySpace key ≤ 2) :
    ∃ t, exec (.memoryFaultFound (.granule key) cond) s = .next t ∧ t.mem = s.mem ∧ t.tags = s.tags ∧ t.cores = s.cores ∧
      (∀ g, KeySet.has t.marks g = (KeySet.has s.marks g || (match cond with
        | .decode => false
        | .poisoned | .ecc => g == key / 32
        | .mac => keySpace key == 0 && g / 8 == key / 32 / 8))) ∧
      (cond = .ecc ∨ cond = .decode ∨ (cond = .mac ∧ keySpace key = 0) → (key / 32, cond) ∈ t.dev.ms.broken) ∧
      (cond = .ecc ∨ (cond = .mac ∧ keySpace key = 0) → s.dev.lost.contains (markBank key).1 = false →
        (t.bank (markBank key).1 (markBank key).2.1).status.getLsbD 63 = true) := by
  have hexec : exec (.memoryFaultFound (.granule key) cond) s = .next (s.granuleFails key cond) :=
    (if_neg (show keySpace key ≠ barrSpace by unfold barrSpace; omega)).trans (if_pos hkey)
  have hone (g : Nat) : KeySet.has (s.addMarks [granule key]).marks g = (KeySet.has s.marks g || g == key / 32) := by
    rw [show (s.addMarks [granule key]).marks = KeySet.add s.marks (granule key) from rfl, KeySet.has_add hs.2.2.1, Bool.or_comm]
    rfl
  by_cases hfound : cond = .ecc ∨ (cond = .mac ∧ keySpace key = 0)
  · obtain ⟨e, hsev, heq⟩ := State.granuleFails_of_found (s := s) hfound
    have hbanks := (s.markFound (failingGranules key cond) cond).mcRecord_onlyBanks (markBank key).1 (markBank key).2.1 e
    obtain ⟨hmem, htags, hmarks⟩ := hbanks.sameMemory
    refine ⟨_, hexec.trans (congrArg Outcome.next heq), hmem, htags, hbanks.cores_eq, fun g => ?_, fun _ => ?_, fun _ hlive => State.mcRecord_valid hsev hlive⟩
    swap
    · rw [hbanks.ms_eq]
      exact mem_foldl_insertAt _ _ (.inl (granule_mem_failingGranules key cond))
    rw [hmarks]
    rcases hfound with rfl | ⟨rfl, hglob⟩
    · exact hone g
    · rw [show (s.markFound (failingGranules key .mac) .mac).marks = (failingGranules key .mac).foldl KeySet.add s.marks from rfl,
        KeySet.has_foldl_add _ hs.2.2.1, contains_failingGranules_mac, Bool.or_comm]
      simp only [hglob, beq_self_eq_true, Bool.true_and]
  · cases cond with
    | ecc => exact absurd (.inl rfl) hfound
    | mac =>
      have hspace : keySpace key ≠ 0 := fun h => hfound (.inr ⟨rfl, h⟩)
      have hstays : s.granuleFails key .mac = s := if_pos ⟨rfl, hspace⟩
      exact ⟨_, hexec.trans (congrArg Outcome.next hstays), rfl, rfl, rfl, fun g => by simp [hspace], fun h => absurd (h.elim .inl (·.resolve_left nofun |> .inr)) hfound,
        fun h => absurd h hfound⟩
    | decode =>
      exact ⟨_, hexec, rfl, rfl, rfl, fun g => (Bool.or_false _).symm, fun _ => mem_insertAt_self .., fun h => absurd h hfound⟩
    | poisoned => exact ⟨_, hexec, rfl, rfl, rfl, hone, fun h => absurd (h.elim .inl (·.resolve_left nofun |> .inr)) hfound, fun h => absurd h hfound⟩

/-! ### Lines that a slice or an L1 holds (R425) -/

/-- The line of a key takes a mark on the key's granule; other lines stay. -/
noncomputable def CLine.failAt (key : Nat) (l : CLine) : CLine :=
  if l.key = lineKey key then { l with marks := setBit l.marks ((key - l.key) / 32) true } else l

@[simp] theorem CLine.failAt_key (key : Nat) (l : CLine) : (l.failAt key).key = l.key := by
  unfold CLine.failAt
  split <;> rfl

theorem CLine.failAt_marks {key : Nat} {l : CLine} (h : l.key = lineKey key) :
    (l.failAt key).marks.getLsbD ((key - (l.failAt key).key) / 32) = true := by
  rw [CLine.failAt_key, CLine.failAt, if_pos h]
  refine setBit_self _ _ _ (Nat.div_lt_of_lt_mul ?_)
  rw [h, lineKey, ← Nat.mod_eq_sub_div_mul]
  exact Nat.mod_lt _ (by decide)

/-- The line of a slice, or of an L1, is marked. -/
noncomputable def State.failSlice (s : State) (clu key : Nat) : State :=
  s.setMs { s.dev.ms with lines := s.dev.ms.lines.map (fun e => (e.1, if e.1 = clu then e.2.failAt key else e.2)) }
noncomputable def State.failL1 (s : State) (n key : Nat) : State :=
  s.setCore n { s.core n with m := { (s.core n).m with l1 := (s.core n).m.l1.map (CLine.failAt key) } }

theorem State.lineFails_slice {clu key : Nat} (h : (s.sliceLine clu key).isSome = true) :
    ∃ e : McErr, e.sev = 2 ∧ s.lineFails clu none key = (s.failSlice clu key).mcRecord (clu / 12) (clu % 12) e :=
  ⟨_, rfl, if_neg (by simp only [h]; decide)⟩

theorem State.lineFails_l1 {clu n key : Nat} (h : ((s.core n).l1Line key).isSome = true) :
    ∃ e : McErr, e.sev = 2 ∧ s.lineFails clu (some n) key = (s.failL1 n key).mcRecord (clu / 12) (clu % 12) e :=
  ⟨_, rfl, if_neg (by simp only [h]; decide)⟩

theorem State.sliceLine_key {clu key : Nat} {l : CLine} (h : s.sliceLine clu key = some l) : l.key = lineKey key := by
  obtain ⟨e, he, rfl⟩ := Option.map_eq_some_iff.1 h
  have hfound := List.find?_some he
  simp only [Bool.and_eq_true, beq_iff_eq] at hfound
  exact hfound.2

theorem slice_line_fails {clu key : Nat} {l : CLine} (hclu : clu < 96) (hl : s.sliceLine clu key = some l) :
    ∃ t, exec (.memoryFaultFound (.line clu key) .ecc) s = .next t ∧ t.mem = s.mem ∧ t.tags = s.tags ∧ t.marks = s.marks ∧
      (t.sliceLine clu key).map (fun l => l.marks.getLsbD ((key - l.key) / 32)) = some true ∧
      (s.dev.lost.contains (clu / 12) = false → (t.bank (clu / 12) (clu % 12)).status.getLsbD 63 = true) := by
  have hexec : exec (.memoryFaultFound (.line clu key) .ecc) s = .next (s.lineFails clu none key) :=
    if_neg (not_or.2 ⟨Nat.not_le.2 hclu, not_not.2 rfl⟩)
  obtain ⟨e, hsev, heq⟩ := State.lineFails_slice (s := s) (clu := clu) (key := key) (by rw [hl]; rfl)
  have hbanks := (s.failSlice clu key).mcRecord_onlyBanks (clu / 12) (clu % 12) e
  obtain ⟨hmem, htags, hmarks⟩ := hbanks.sameMemory
  have hline : (s.failSlice clu key).sliceLine clu key = some (l.failAt key) := by
    have hmap : (fun e : Nat × CLine => e.1 == clu && e.2.key == lineKey key) ∘ (fun e : Nat × CLine => (e.1, if e.1 = clu then e.2.failAt key else e.2)) =
        fun e => e.1 == clu && e.2.key == lineKey key := by
      funext e
      dsimp only [Function.comp]
      split <;> simp only [CLine.failAt_key]
    obtain ⟨x, hx, rfl⟩ := Option.map_eq_some_iff.1 hl
    have hclu' := List.find?_some hx
    simp only [Bool.and_eq_true, beq_iff_eq] at hclu'
    rw [State.sliceLine, State.failSlice, State.setMs_dev_ms, List.find?_map, hmap, hx, Option.map_some, Option.map_some, if_pos hclu'.1]
  refine ⟨_, hexec.trans (congrArg Outcome.next heq), hmem, htags, hmarks, ?_, fun hlive => State.mcRecord_valid hsev hlive⟩
  rw [State.sliceLine, hbanks.ms_eq, ← State.sliceLine, hline]
  exact congrArg some (CLine.failAt_marks (State.sliceLine_key hl))

theorem l1_line_fails {n key : Nat} {l : CLine} (hn : n < 768) (hl : (s.core n).l1Line key = some l) :
    ∃ t, exec (.memoryFaultFound (.l1 n key) .ecc) s = .next t ∧ t.mem = s.mem ∧ t.tags = s.tags ∧ t.marks = s.marks ∧
      ((t.core n).l1Line key).map (fun l => l.marks.getLsbD ((key - l.key) / 32)) = some true ∧
      (s.dev.lost.contains (n / 96) = false → (t.bank (n / 96) (n / 8 % 12)).status.getLsbD 63 = true) := by
  have hexec : exec (.memoryFaultFound (.l1 n key) .ecc) s = .next (s.lineFails (clusterOf n) (some n) key) :=
    if_neg (not_or.2 ⟨Nat.not_le.2 hn, not_not.2 rfl⟩)
  obtain ⟨e, hsev, heq⟩ := State.lineFails_l1 (s := s) (clu := clusterOf n) (key := key) (by rw [hl]; rfl)
  have hbanks := (s.failL1 n key).mcRecord_onlyBanks (clusterOf n / 12) (clusterOf n % 12) e
  obtain ⟨hmem, htags, hmarks⟩ := hbanks.sameMemory
  have hkey : l.key = lineKey key := by simpa using List.find?_some hl
  have hline : ((s.failL1 n key).core n).l1Line key = some (l.failAt key) := by
    have hmap : (fun l : CLine => l.key == lineKey key) ∘ CLine.failAt key = fun l => l.key == lineKey key := by
      funext l
      exact congrArg (· == lineKey key) (CLine.failAt_key key l)
    rw [Core.l1Line] at hl
    rw [State.failL1, State.core_setCore_same, Core.l1Line, List.find?_map, hmap, hl, Option.map_some]
  have hdie : clusterOf n / 12 = n / 96 := Nat.div_div_eq_div_mul n 8 12
  refine ⟨_, hexec.trans (congrArg Outcome.next heq), hmem, htags, hmarks, ?_, fun hlive => ?_⟩
  · rw [hbanks.core_eq, hline]
    exact congrArg some (CLine.failAt_marks hkey)
  · rw [← hdie] at hlive ⊢
    exact State.mcRecord_valid hsev hlive

/-! ### Registers and arrays of a core (R425 to R427) -/

/-- An event that finds an uncorrectable error in an array of core n, and no other condition: what `f` marks is poisoned, nothing else of
the core or of another changes, and the cluster's bank has a record. -/
theorem array_finds {n : Nat} (hn : n < 768) {site : FaultSite} {marked : Bool} {f : Core → Core} {p : Core → Prop}
    (hexec : ∀ cond, exec (.memoryFaultFound site cond) s = if cond ≠ .ecc then .next s else .next (s.arrayFails n marked f))
    (hp : p (f (s.core n))) :
    (∀ cond, cond ≠ .ecc → Stays s (.memoryFaultFound site cond)) ∧
      ∃ t, exec (.memoryFaultFound site .ecc) s = .next t ∧ t.mem = s.mem ∧ t.tags = s.tags ∧ t.marks = s.marks ∧ p (t.core n) ∧
        (∀ m, m ≠ n → t.core m = s.core m) ∧
        (s.dev.lost.contains (n / 96) = false → (t.bank (n / 96) (n / 8 % 12)).status.getLsbD 63 = true) := by
  have heq : s.arrayFails n marked f = (s.setCore n (f (s.core n))).mcRecord (n / 96) (n / 8 % 12)
      { mcContained 0xA2 (n % 8) (s.loc n) 0 0 (some (s.miscOf n)) with pmark := marked } := if_neg (by omega)
  have hbanks := (s.setCore n (f (s.core n))).mcRecord_onlyBanks (n / 96) (n / 8 % 12)
    { mcContained 0xA2 (n % 8) (s.loc n) 0 0 (some (s.miscOf n)) with pmark := marked }
  obtain ⟨hmem, htags, hmarks⟩ := hbanks.sameMemory
  refine ⟨fun cond hcond => (hexec cond).trans (if_pos hcond), _,
    (hexec .ecc).trans ((if_neg (not_not.2 rfl)).trans (congrArg Outcome.next heq)), hmem, htags, hmarks, ?_, fun m hm => ?_, fun hlive => State.mcRecord_valid rfl hlive⟩
  · rwa [hbanks.core_eq, State.core_setCore_same]
  · rw [hbanks.core_eq, State.core_setCore_other _ _ hm]

theorem Core.slot_markRow (c : Core) (os : OSlot) (row : BitVec 6) : ((c.markRow os row.toNat).slot os).marks.getLsbD row.toNat = true := by
  rw [Core.markRow, Core.slot_setSlot, if_pos rfl]
  exact setBit_self _ _ _ row.isLt

theorem Core.xmark_markX (c : Core) {r : XReg} (hr : r ≠ 0) : (c.markX r).r.xmark.getLsbD r.toNat = true := by
  rw [Core.markX, if_neg hr]
  exact setBit_self _ _ _ r.isLt

theorem Core.hmark_markH (c : Core) {r : HReg} (hr : r ≠ 0) : (c.markH r).r.hmark.getLsbD r.toNat = true := by
  rw [Core.markH, if_neg hr]
  exact setBit_self _ _ _ r.isLt

theorem Core.vmark_markV (c : Core) (k : BitVec 6) (w : BitVec 4) :
    ((c.markV k.toNat (BitVec.twoPow 16 w.toNat)).r.vmark[k.toNat]?).any (·.getLsbD w.toNat) = true := by
  have hk : k.toNat < 64 := k.isLt
  have hw : w.toNat < 16 := w.isLt
  rw [Core.markV, dif_pos hk]
  simp [hk, hw]

/-! ### Landing entries that have their data -/

/-- A landing entry takes another's place wherever its number stands. -/
theorem Core.landings_setLanding (c : Core) (l : Landing) :
    (c.setLanding l).landings = c.landings.map (fun m => if m.id = l.id then l else m) := by
  unfold Core.landings Core.setLanding
  cases c.bank <;> simp

theorem Core.mem_landings_setLanding {c : Core} {id : Nat} {l l' : Landing} (hl : c.landings.find? (·.id == id) = some l)
    (hid : l'.id = id) : l' ∈ (c.setLanding l').landings := by
  have hlid : l.id = id := by simpa using List.find?_some hl
  rw [Core.landings_setLanding]
  exact List.mem_map.2 ⟨l, List.mem_of_find?_eq_some hl, if_pos (hlid.trans hid.symm)⟩

theorem Core.landings_markEntry {c : Core} {id w : Nat} {l : Landing} (hl : c.landings.find? (·.id == id) = some l) (harr : l.arrived = true)
    (hw : w < 16) : ∃ l' ∈ (c.markEntry id w).landings, l'.id = id ∧ l'.marks.getLsbD w = true := by
  have hlid : l.id = id := by simpa using List.find?_some hl
  refine ⟨{ l with marks := setBit l.marks w true }, ?_, hlid, setBit_self _ _ _ hw⟩
  simp only [Core.markEntry, hl, harr, hw, decide_true, Bool.and_self, if_true]
  exact Core.mem_landings_setLanding hl hlid

theorem exec_buffer_of_arrived {n id w : Nat} {l : Landing} (hl : (s.core n).landings.find? (·.id == id) = some l) (harr : l.arrived = true)
    (hw : w < 16) (cond : MemCond) : exec (.memoryFaultFound (.buffer n id w) cond) s =
      if cond ≠ .ecc then .next s else .next (s.arrayFails n true (·.markEntry id w)) := by
  have hany : (s.core n).landings.any (fun l => l.id == id && l.arrived) = true :=
    List.any_eq_true.2 ⟨l, List.mem_of_find?_eq_some hl, by simp [List.find?_some hl, harr]⟩
  have hholder : s.holderFails (.buffer n id w) = s.arrayFails n true (·.markEntry id w) := if_pos (by rw [hany, decide_eq_true hw]; rfl)
  rw [← hholder]
  rfl

/-! ### Weight blocks and barrier objects (R434, R437) -/

theorem weight_block_fails {die bank blk sl : Nat} (cond : MemCond) (hdie : die < 8) (hbank : bank < 96)
    (hsl : s.slotOfBlock (96 * die + bank) blk = some sl) :
    ∃ t, exec (.memoryFaultFound (.weight die bank blk) cond) s = .next t ∧ t.mem = s.mem ∧ t.cores = s.cores ∧
      t.slotBad (96 * die + bank) sl = true := by
  have hexec : exec (.memoryFaultFound (.weight die bank blk) cond) s = .next (s.weightFails die bank blk) := if_neg (by omega)
  refine ⟨_, hexec, ?_⟩
  simp only [State.weightFails, hsl]
  cases hbad : s.slotBad (96 * die + bank) sl with
  | true => exact ⟨rfl, rfl, hbad⟩
  | false => exact ⟨rfl, rfl, List.contains_iff_mem.2 (List.mem_append_right _ (List.mem_singleton_self _))⟩

theorem barrier_object_fails {key : Nat} (cond : MemCond) (hkey : keySpace key = 9) :
    ∃ t, exec (.memoryFaultFound (.granule key) cond) s = .next t ∧ t.mem = s.mem ∧ t.cores = s.cores ∧
      t.bar (keyOff key) = { s.bar (keyOff key) with act := false } := by
  refine ⟨_, if_pos hkey, ?_⟩
  have hbanks := (s.setBar (keyOff key) { s.bar (keyOff key) with act := false }).mcRecord_onlyBanks (barDie (keyOff key)) 29
    (mcContained 0xA2 0 0 7 (keyOff key) none)
  obtain ⟨_, _, heq⟩ := hbanks
  rw [State.barrierFails, heq]
  exact ⟨rfl, rfl, lookupD_insertAt_same ..⟩

end Sys2Proof.Machine
end

section
/-! SUPPORT. The data of a load whose transfer fails (R423, R425, R428, R436): what the landing entry takes, and what its arrival leaves of
memory, of the lines that are held and of the conditions found. -/

namespace Sys2Proof.Machine

open Host (Outcome)

/-! ### What leaves the copies as they are -/

/-- Memory and every core's registers stay, no cluster owes what it did not owe, and no condition is found. -/
structure LeavesCopies (s t : State) : Prop where
  memory : SameMemory s t
  regs : KeepsRegs s t
  owed : ∀ clu a, t.owedBy clu a = true → s.owedBy clu a = true
  broken : t.dev.ms.broken ⊆ s.dev.ms.broken

theorem LeavesCopies.refl (s : State) : LeavesCopies s s := ⟨.refl s, .refl s, fun _ _ h => h, fun _ h => h⟩

theorem LeavesCopies.trans {s t u : State} (h : LeavesCopies s t) (h' : LeavesCopies t u) : LeavesCopies s u :=
  ⟨h.memory.trans h'.memory, h.regs.trans h'.regs, fun clu a ha => h.owed clu a (h'.owed clu a ha), fun _ he => h.broken (h'.broken he)⟩

theorem LeavesCopies.foldl {α : Type} {f : State → α → State} (hf : ∀ s a, LeavesCopies s (f s a)) (l : List α) (s : State) :
    LeavesCopies s (l.foldl f s) := by
  induction l generalizing s with
  | nil => exact .refl s
  | cons a t ih => exact (hf s a).trans (ih _)

theorem LeavesCopies.ite {p : Prop} [Decidable p] {s t u : State} (ht : LeavesCopies s t) (hu : LeavesCopies s u) :
    LeavesCopies s (if p then t else u) := by
  split
  · exact ht
  · exact hu

theorem OnlyBanks.leavesCopies {s t : State} (h : OnlyBanks s t) : LeavesCopies s t := by
  refine ⟨h.sameMemory, h.keepsRegs, ?_, ?_⟩ <;> obtain ⟨_, _, rfl⟩ := h
  · exact fun _ _ h => h
  · exact fun _ h => h

/-- A change of the memory system beside the lines that are held and the conditions found. -/
theorem State.setMs_leavesCopies {s : State} {m : MemSys} (hlines : m.lines = s.dev.ms.lines) (hbroken : m.broken ⊆ s.dev.ms.broken) :
    LeavesCopies s (s.setMs m) :=
  ⟨⟨rfl, rfl, rfl⟩, .of_eq rfl rfl, fun clu a h => by simpa only [State.owedBy, State.setMs_dev_ms, State.setMs_cores, hlines] using h, hbroken⟩

theorem State.setCore_leavesCopies {s : State} {n : Nat} {c : Core} (hregs : SameRegs (s.core n) c) (hl1 : c.m.l1 = (s.core n).m.l1) :
    LeavesCopies s (s.setCore n c) :=
  ⟨s.setCore_sameMemory n c, State.setCore_keepsRegs hregs, fun _ _ => State.owedBy_setCore hl1, fun _ h => h⟩

theorem State.countMacs_leavesCopies (s : State) (n : Nat) (cap : Cap) (pcs : List (Nat × Nat)) :
    LeavesCopies s (s.countMacs n cap pcs) := by
  unfold State.countMacs
  exact .ite (.refl s) (.foldl (fun s a => .ite (s.mcRecord_onlyBanks ..).leavesCopies (.refl s)) ..)

theorem State.countReads_leavesCopies (s : State) (n : Nat) (cap : Cap) (pcs : List (Nat × Nat)) :
    LeavesCopies s (s.countReads n cap pcs) :=
  .foldl (fun s _ => (s.countDenial_onlyBanks ..).leavesCopies) pcs s

theorem State.lostRead_leavesCopies (s : State) (n : Nat) (cap : Cap) (sl : Slot) (pcs : List (Nat × Nat)) :
    LeavesCopies s (s.lostRead n cap sl pcs).1 := by
  unfold State.lostRead
  split
  · exact State.setCore_leavesCopies ⟨rfl, rfl, rfl⟩ rfl
  · exact .refl s

theorem State.scDone_leavesCopies (s : State) (n : Nat) (rank : Option Nat) (keys : List Nat) :
    LeavesCopies s (s.scDone n rank keys) :=
  .ite (State.setMs_leavesCopies rfl fun _ h => h) (.refl s)

/-! ### A unit whose transfer fails (R428) -/

/-- What a unit that fails leaves of its landing entry: data and marks are new, the unit is taken, and of its doublewords those
that failed are marked. -/
structure FailedUnit (l l' : Landing) (u : Nat) (only : Option Nat) : Prop where
  id : l'.id = l.id
  left : l'.left = l.left.filter (· != u)
  arrived : l'.arrived = l'.left.isEmpty
  marks : ∀ i, i < (l.srcs.getD u (0, 0, 0)).2.2 → ((l.srcs.getD u (0, 0, 0)).1 + i) / 8 < 16 →
    only.all (· == ((l.srcs.getD u (0, 0, 0)).1 + i) / 8) = true → l'.marks.getLsbD (((l.srcs.getD u (0, 0, 0)).1 + i) / 8) = true

theorem State.sampleUnits_failed (s : State) (n : Nat) (l : Landing) (u : Nat) (only : Option Nat) :
    LeavesCopies s (s.sampleUnits n l [u] false only).1 ∧ FailedUnit l (s.sampleUnits n l [u] false only).2 u only := by
  unfold State.sampleUnits
  extract_lets srcs pcs s0 got touched rels left
  split
  next v ms _ =>
  extract_lets marks
  split
  next s1 nar hrels =>
  extract_lets s2
  split
  next s3 lost hlost =>
  extract_lets s4 s5
  have h1 : LeavesCopies s s1 := by
    rw [show s1 = (s0.readRels n l.id rels).1 by rw [hrels]]
    exact State.setCore_leavesCopies ⟨rfl, rfl, rfl⟩ rfl
  have h2 : LeavesCopies s s2 := (h1.trans (State.countMacs_leavesCopies ..)).trans (State.countReads_leavesCopies ..)
  have h3 : LeavesCopies s s3 := by
    split at hlost
    · obtain ⟨rfl, -⟩ := Prod.mk.inj hlost
      exact h2
    · rw [show s3 = (s2.lostRead n l.cap l.slot pcs).1 by rw [hlost]]
      exact h2.trans (State.lostRead_leavesCopies ..)
  have h4 : LeavesCopies s s4 := .ite (h3.trans (State.scDone_leavesCopies ..)) h3
  refine ⟨h4.trans ⟨⟨rfl, rfl, rfl⟩, .of_eq rfl rfl, fun _ _ h => h, fun _ h => h⟩, rfl, ?_, rfl, fun i hi hd honly => ?_⟩
  · exact List.filter_congr fun x _ => by rw [Bool.eq_iff_iff]; simp
  · have hmem : ((l.srcs.getD u (0, 0, 0)).1 + i) / 8 ∈ touched :=
      List.mem_dedup.2 (List.mem_flatMap.2 ⟨_, List.mem_cons_self, List.mem_map.2 ⟨i, List.mem_range.2 hi, rfl⟩⟩)
    simp only [marks, Bool.false_eq_true, if_false]
    rw [getLsbD_foldl_setBit_true, List.contains_iff_mem.2 (List.mem_append_right _ (List.mem_filter.2 ⟨hmem, honly⟩)), decide_eq_true hd,
      Bool.true_and, Bool.or_true]

end Sys2Proof.Machine
end

section
/-! SUPPORT. The arrival of a failed transfer at its landing entry (R53, R254, R272, R423, R436): the entry, and the fences that then have
their data. -/

namespace Sys2Proof.Machine

open Host (Outcome)

/-! ### Conditions that a write-back leaves -/

theorem State.refuseStore_ms (s : State) (n : Nat) (a : Access) (v : Verdict) (key : Nat) : (s.refuseStore n a v key).dev.ms = s.dev.ms := by
  unfold State.refuseStore
  extract_lets s1
  have h1 : s1.dev.ms = s.dev.ms := (s.countDenial_onlyBanks ..).ms_eq
  split <;> exact h1

theorem State.failOwed_ms (s : State) (clu : Nat) (l : CLine) : (s.failOwed clu l).dev.ms = s.dev.ms := by
  unfold State.failOwed
  extract_lets hits owners
  exact foldl_kept (proj := fun s => s.dev.ms) (fun s e _ => s.refuseStore_ms ..) s

theorem State.cleanL1_broken (s : State) (sel : Nat → CLine → Bool) : (s.cleanL1 sel).dev.ms.broken = s.dev.ms.broken := by
  unfold State.cleanL1
  extract_lets
  split <;> rfl

theorem State.writeBytes_dev (s : State) (bytes : List (Nat × Byte)) : (s.writeBytes bytes).dev = s.dev := s.storeEach_dev bytes

theorem State.storeRels_broken (s : State) (keys : List Nat) (rel : Option Rel) : (s.storeRels keys rel).dev.ms.broken = s.dev.ms.broken := rfl

theorem State.addMarks_broken (s : State) (gs : List Nat) : (s.addMarks gs).dev.ms.broken ⊆ s.dev.ms.broken :=
  fun _ he => List.mem_of_mem_filter he

theorem State.mapLines_broken (s : State) (clus : Nat → Bool) (g : CLine → Option CLine) :
    (s.mapLines clus g).dev.ms.broken = s.dev.ms.broken := rfl

/-- A write-back finds no condition; it ends those of granules that it marks anew. -/
theorem State.clean_broken (s : State) (sel : Nat → CLine → Bool) : (s.clean sel).dev.ms.broken ⊆ s.dev.ms.broken := by
  unfold State.clean
  extract_lets s1 chosen owed shut marks s2 s3 s4
  have h1 : s1.dev.ms.broken = s.dev.ms.broken := s.cleanL1_broken _
  have h2 : s2.dev.ms.broken = s1.dev.ms.broken := by
    simp only [s2]
    split
    · rfl
    · rw [State.storeRels_broken, State.writeBytes_dev]
  have h3 : s3.dev.ms.broken ⊆ s2.dev.ms.broken := by
    simp only [s3]
    split
    · exact fun _ h => h
    · exact s2.addMarks_broken marks
  have h4 : s4.dev.ms.broken = s3.dev.ms.broken :=
    foldl_kept (proj := fun s => s.dev.ms.broken) (fun s e _ => by rw [State.mapLines_broken, State.failOwed_ms]) s3
  rw [State.setMs_dev_ms, h4, ← h1, ← h2]
  exact h3

theorem State.discardFar_broken (s : State) (n : Nat) : (s.discardFar n).dev.ms.broken ⊆ s.dev.ms.broken := by
  rw [State.discardFar, State.dropWhere, State.mapLines_broken]
  exact s.clean_broken _

theorem State.settleFences_broken (s : State) (n : Nat) : (s.settleFences n).dev.ms.broken ⊆ s.dev.ms.broken := by
  unfold State.settleFences
  extract_lets c due s1 c1
  split
  · rw [State.setCore_dev]
    exact s.discardFar_broken n
  · exact fun _ h => h

theorem State.settleFences_keepsMemory {s : State} (hs : s.Ok) (n : Nat) : KeepsMemory s (s.settleFences n) (s.owedBy (clusterOf n)) := by
  unfold State.settleFences
  extract_lets c due s1 c1
  split
  · exact (State.discardFar_keepsMemory hs).of_same (.refl s) (s1.setCore_sameMemory ..)
  · exact (s.setCore_sameMemory ..).keeps _

/-- A decode error that waits for the next transfer of some lines is one of the conditions found. -/
theorem State.miscoded_of_subset {s t : State} (h : t.dev.ms.broken ⊆ s.dev.ms.broken) {keys : List Nat} (hs : s.miscoded keys = false) :
    t.miscoded keys = false := by
  rw [State.miscoded, List.any_eq_false] at hs ⊢
  exact fun e he => hs e (h he)

theorem State.miscoded_recoded (s : State) (keys : List Nat) : (s.recoded keys).miscoded keys = false := by
  rw [State.miscoded, List.any_eq_false]
  intro e he
  exact Bool.eq_false_iff.1 ((Bool.not_eq_true' _).mp (List.mem_filter.1 he).2)

/-! ### A landing entry -/

theorem KeepsRegs.landings {s t : State} (h : KeepsRegs s t) (n : Nat) : (t.core n).landings = (s.core n).landings := by
  obtain ⟨-, ht, hbank⟩ := h.2 n
  rw [Core.landings, Core.landings, ht, hbank]

section Landing

variable {s : State} {n id : Nat} {l : Landing} (hl : (s.core n).landings.find? (·.id == id) = some l)
include hl

theorem State.transferFails_of_ready (hready : s.landingReady n l = true) (cond : MemCond) (only : Option Nat) : s.transferFails n id cond only =
    (s.takeData n id false only).recordTransfer n (s.transferKeys n id) (condCause cond) (s.miscOf n) true := by
  have hdata : s.dataReady n id = true := by
    unfold State.dataReady
    rw [hl]
    exact hready
  rw [State.transferFails, hdata]
  rfl

/-- Data that fail are taken: the entry has one unit fewer, with marks. Granules that the slice owes may be written back, where a
fence that now has its data lets the cluster's HOST and PEER lines go. -/
theorem State.takeData_failed (hs : s.Ok) (only : Option Nat) : KeepsMemory s (s.takeData n id false only) (s.owedBy (clusterOf n)) ∧
    (s.takeData n id false only).dev.ms.broken ⊆ s.dev.ms.broken ∧
    ∃ l' ∈ ((s.takeData n id false only).core n).landings, l'.id = id ∧ FailedUnit l l' (s.pick l.left) only := by
  obtain ⟨hleaves, hunit⟩ := s.sampleUnits_failed n l (s.pick l.left) only
  have hok := State.sampleUnits_ok n l [s.pick l.left] false only hs
  have heq : s.takeData n id false only = ((s.sampleUnits n l [s.pick l.left] false only).1.setCore n
      (((s.sampleUnits n l [s.pick l.left] false only).1.core n).setLanding (s.sampleUnits n l [s.pick l.left] false only).2)).settleFences n := by
    unfold State.takeData
    rw [hl]
  generalize s.sampleUnits n l [s.pick l.left] false only = p at hleaves hunit hok heq
  have hid : p.2.id = id := hunit.id.trans (by simpa using List.find?_some hl)
  have hfound : (p.1.core n).landings.find? (·.id == id) = some l := by rw [hleaves.regs.landings]; exact hl
  have hok' : (p.1.setCore n ((p.1.core n).setLanding p.2)).Ok := State.setCore_ok n hok (Core.setLanding_ok p.2 (hok.core n))
  have hregs := (p.1.setCore n ((p.1.core n).setLanding p.2)).settleFences_keepsRegs n
  rw [heq]
  refine ⟨?_, ?_, p.2, ?_, hid, hunit⟩
  · refine ((State.settleFences_keepsMemory hok' n).of_same (hleaves.memory.trans ⟨rfl, rfl, rfl⟩) (.refl _)).mono fun a ha => ?_
    exact hleaves.owed _ _ (State.owedBy_setCore (c := (p.1.core n).setLanding p.2) rfl ha)
  · exact fun e he => hleaves.broken (State.settleFences_broken (p.1.setCore n _) n he)
  · rw [hregs.landings, State.core_setCore_same]
    exact Core.mem_landings_setLanding hfound hid

theorem landing_transfer_fails (hs : s.Ok) (hready : s.landingReady n l = true) {site : FaultSite} {cond : MemCond} {only : Option Nat}
    (hexec : exec (.memoryFaultFound site cond) s = .next (s.transferFails n id cond only)) :
    ∃ t, exec (.memoryFaultFound site cond) s = .next t ∧ KeepsMemory s t (s.owedBy (clusterOf n)) ∧
      ∃ l' ∈ (t.core n).landings, l'.id = id ∧ FailedUnit l l' (s.pick l.left) only := by
  obtain ⟨hmem, -, l', hl', hid, hunit⟩ := State.takeData_failed hl hs only
  have hbanks := (s.takeData n id false only).recordTransfer_onlyBanks n (s.transferKeys n id) (condCause cond) (s.miscOf n) true
  rw [State.transferFails_of_ready hl hready] at hexec
  exact ⟨_, hexec, hmem.of_same (.refl s) hbanks.sameMemory, l', by rwa [hbanks.core_eq], hid, hunit⟩

/-- R436: the transfer of a line with a decode error, which it meets and ends. -/
theorem miscoded_data_arrive (hs : s.Ok) (hready : s.landingReady n l = true) (hcode : s.miscoded (s.transferKeys n id) = true) (v : Bool) :
    ∃ t, exec (.landingDataArrival n id v) s = .next t ∧ KeepsMemory s t (s.owedBy (clusterOf n)) ∧
      t.miscoded (s.transferKeys n id) = false ∧ ∃ l' ∈ (t.core n).landings, l'.id = id ∧ FailedUnit l l' (s.pick l.left) none := by
  have hdata : s.dataReady n id = true := by
    unfold State.dataReady
    rw [hl]
    exact hready
  have hexec : exec (.landingDataArrival n id v) s = .next (((s.recoded (s.transferKeys n id)).takeData n id false).recordTransfer n
      (s.transferKeys n id) 0xA3 (s.miscOf n) true) := by
    rw [exec_landingDataArrival, execLandingDataArrival]
    simp only [hdata, hcode, Bool.not_true, Bool.and_false, Bool.false_eq_true, if_false]
  have hok : (s.recoded (s.transferKeys n id)).Ok := hs
  obtain ⟨hmem, hbroken, l', hl', hid, hunit⟩ := State.takeData_failed (s := s.recoded (s.transferKeys n id)) hl hok none
  have hbanks := ((s.recoded (s.transferKeys n id)).takeData n id false).recordTransfer_onlyBanks n (s.transferKeys n id) 0xA3 (s.miscOf n) true
  refine ⟨_, hexec, hmem.of_same ⟨rfl, rfl, rfl⟩ hbanks.sameMemory, ?_, l', by rwa [hbanks.core_eq], hid, hunit⟩
  exact State.miscoded_of_subset (by rw [hbanks.ms_eq]; exact hbroken) (s.miscoded_recoded _)

end Landing

/-- The marks of a unit that fails whole, and of one that fails in a doubleword. -/
theorem FailedUnit.marks_all {l l' : Landing} {u : Nat} (h : FailedUnit l l' u none) {i : Nat} (hi : i < (l.srcs.getD u (0, 0, 0)).2.2)
    (hin : (l.srcs.getD u (0, 0, 0)).1 + i < 128) : l'.marks.getLsbD (((l.srcs.getD u (0, 0, 0)).1 + i) / 8) = true :=
  h.marks i hi ((Nat.div_lt_iff_lt_mul (by decide)).2 hin) rfl

theorem FailedUnit.marks_one {l l' : Landing} {u d : Nat} (h : FailedUnit l l' u (some d)) (hd : d < 16)
    (hlo : (l.srcs.getD u (0, 0, 0)).1 ≤ 8 * d) (hhi : 8 * d < (l.srcs.getD u (0, 0, 0)).1 + (l.srcs.getD u (0, 0, 0)).2.2) :
    l'.marks.getLsbD d = true := by
  have hplace : ((l.srcs.getD u (0, 0, 0)).1 + (8 * d - (l.srcs.getD u (0, 0, 0)).1)) / 8 = d := by
    rw [Nat.add_sub_cancel' hlo, Nat.mul_div_cancel_left _ (by decide)]
  have hmark := h.marks (8 * d - (l.srcs.getD u (0, 0, 0)).1) (Nat.sub_lt_left_of_lt_add hlo hhi)
  rw [hplace] at hmark
  exact hmark hd (beq_self_eq_true d)

end Sys2Proof.Machine
end

section
/-! SUPPORT. Flits that fail (R324, R423 to R425, R430, R431, R436): the block of a weight fill, the unit of a store into CLUS, the request
of an atomic and the line of a segment copy. -/

namespace Sys2Proof.Machine

open Host (Outcome)

variable {s : State} {n : Nat}

/-! ### A core whose fences let no copy go -/

/-- No fence waits for its earlier loads to let HOST and PEER copies go (R254, R272). -/
def Core.Calm (c : Core) : Prop := ∀ f ∈ c.m.fences, f.far = false

theorem Core.Calm.ripe {c : Core} (h : c.Calm) : c.ripe = false :=
  List.any_eq_false.2 fun f hf => by simp [h f hf]

theorem Core.Calm.retire {c : Core} (h : c.Calm) (a : Access) : (c.retire a).Calm := by
  intro f hf
  refine h f ?_
  unfold Core.retire at hf
  split at hf <;> exact (List.mem_filter.1 hf).1

theorem State.settleFences_calm (h : (s.core n).Calm) : s.settleFences n = s.setCore n (s.core n).dropFences :=
  State.settleFences_unripe h.ripe

/-! ### The block of a fill (R423, R436) -/

theorem State.takeBlock_eq_fillLine (s : State) (n : Nat) (os : OSlot) (f : Fill) (whole : Bool) :
    s.takeBlock n os f whole = ((s.countFill n (f.addr + 256 * f.done.length)).fillLine n os f.done.length
      ((s.fillBlock n (f.addr + 256 * f.done.length)).1, (s.fillBlock n (f.addr + 256 * f.done.length)).2.1,
        (s.fillBlock n (f.addr + 256 * f.done.length)).2.2 && whole)).settleFences n := by
  unfold State.takeBlock
  rfl

/-- The slot and the fill after a line, whatever its contents. -/
theorem State.fillLine_settled (s : State) (n : Nat) (os : OSlot) (i a : Nat) (b : List Byte × List Byte × Bool) :
    ((((s.countFill n a).fillLine n os i b).settleFences n).core n).slot os = ((s.core n).slot os).take i b.2.2 ∧
      ((((s.countFill n a).fillLine n os i b).settleFences n).core n).fillOf os = ((s.core n).fillOf os).map (Fill.grow i) := by
  obtain ⟨hr, ht, hbank⟩ := (State.settleFences_keepsRegs ((s.countFill n a).fillLine n os i b) n).2 n
  rw [Core.slot, hr, Core.fillOf, ht, hbank, State.fillLine_core, (s.countFill_onlyBanks n a).core_eq]
  exact ⟨(Core.slot_setSlot ..).trans (if_pos rfl), Core.fillOf_setFill _ _ fun _ => rfl⟩

theorem fill_flit_fails {os : OSlot} {cond : MemCond} {f : Fill} (hcond : cond = .ecc ∨ cond = .decode) (hf : (s.core n).fillOf os = some f)
    (hready : s.blockReady n f = true) (hdone : f.done.length < 32) :
    ∃ t, exec (.memoryFaultFound (.fillFlit n os) cond) s = .next t ∧
      (∀ g, (t.core n).fillOf os = some g → g.done = f.done ++ [f.done.length]) ∧
      bit ((t.core n).slot os).verified f.done.length = false ∧ bit ((t.core n).slot os).marks (2 * f.done.length) = true ∧
      bit ((t.core n).slot os).marks (2 * f.done.length + 1) = true := by
  have hfails : s.fillFlitFails n os cond = (s.takeBlock n os f false).recordTransfer n
      [mkey .wgt (dieOf n) (f.addr + 256 * f.done.length)] (condCause cond) (s.miscOf n) true := by
    simp only [State.fillFlitFails, hf, hready, Bool.not_true, Bool.false_eq_true, if_false]
  have hexec : exec (.memoryFaultFound (.fillFlit n os) cond) s = .next (s.fillFlitFails n os cond) :=
    if_neg fun h => hcond.elim h.1 h.2
  obtain ⟨hslot, hfill⟩ := s.fillLine_settled n os f.done.length (f.addr + 256 * f.done.length)
    ((s.fillBlock n (f.addr + 256 * f.done.length)).1, (s.fillBlock n (f.addr + 256 * f.done.length)).2.1,
      (s.fillBlock n (f.addr + 256 * f.done.length)).2.2 && false)
  refine ⟨_, hexec, ?_⟩
  rw [hfails, ((s.takeBlock n os f false).recordTransfer_onlyBanks ..).core_eq, State.takeBlock_eq_fillLine, hslot, hfill, hf, Bool.and_false]
  exact ⟨fun g hg => by rw [← Option.some.inj hg]; rfl, SlotSt.take_bits _ hdone false⟩

/-! ### The unit of a store into CLUS (R263, R425) -/

section Store

variable {a : Access} (hspace : capSpace a.cap = spClus)
include hspace

/-- The bytes of a unit that is admitted whole go to memory at once. -/
theorem State.performStore_clus {unit : Nat} (hok : ∀ b ∈ s.storeBytes n a unit, s.verdict (s.ctxOf n) a.cap b.1 = .ok) :
    ∃ keys rel tags, s.performStore n a unit = (((s.writeBytes (s.storeBytes n a unit)).storeRels keys rel).addTags tags) := by
  unfold State.performStore
  extract_lets bytes ok good rel tags ctx s1 put
  have hall : ∀ b ∈ bytes, ok b = true := fun b hb => beq_iff_eq.2 (hok b hb)
  have hgood : good = bytes := List.filter_eq_self.2 hall
  have hnone : bytes.find? (fun b => !ok b) = none := List.find?_eq_none.2 fun b hb => by rw [hall b hb]; decide
  have hsame : s1 = s := by
    simp only [s1]
    rw [hnone]
  have hnotGlob : ¬capSpace a.cap = spGlob := by rw [hspace]; decide
  rw [if_neg hnotGlob, if_pos hspace, hsame, hgood]
  exact ⟨_, _, _, rfl⟩

theorem State.storeDone_clus (hcalm : (s.core n).Calm) : (s.storeDone n a).mem = s.mem := by
  have hnear : s.unwritten n a = false := by simp [State.unwritten, hspace, spClus]
  unfold State.storeDone
  simp only [hnear, Bool.false_eq_true, if_false]
  obtain ⟨⟨hmem, -, -⟩, -, -, -⟩ := s.scDone_leavesCopies n a.rank ((s.pieces n a).map (·.1))
  have hcore : (s.scDone n a.rank ((s.pieces n a).map (·.1))).core n = s.core n := by
    unfold State.scDone
    split <;> rfl
  rw [State.settleFences_calm (by rw [State.core_setCore_same, hcore]; exact hcalm.retire a)]
  exact hmem

/-- The next unit of such a store changes memory by its bytes alone. -/
theorem State.storeStep_clus (hok : ∀ b ∈ s.storeBytes n a (s.pick a.left), s.verdict (s.ctxOf n) a.cap b.1 = .ok)
    (hfind : (s.core n).findAcc a.id = some a) (hcalm : (s.core n).Calm) :
    (s.storeStep n a).mem = (s.writeBytes (s.storeBytes n a (s.pick a.left))).mem := by
  obtain ⟨keys, rel, tags, hperf⟩ := State.performStore_clus hspace hok
  have hcore : (s.performStore n a (s.pick a.left)).core n = s.core n := by
    rw [hperf]
    exact congrArg (lookupD .idle · n) (s.storeEach_cores _)
  have hmem : (s.performStore n a (s.pick a.left)).mem = (s.writeBytes (s.storeBytes n a (s.pick a.left))).mem := by rw [hperf]; rfl
  unfold State.storeStep
  extract_lets unit src s1 a1 a2 a3 s2
  have hcore1 : s1.core n = s.core n := hcore
  have ha3 : capSpace a3.cap = spClus := by
    simp only [a3, a2, a1, hcore1, hfind]
    exact hspace
  have hcalm2 : (s2.core n).Calm := by
    rw [State.core_setCore_same, hcore1]
    exact hcalm
  split
  · exact (State.storeDone_clus ha3 hcalm2).trans hmem
  · rw [State.settleFences_calm hcalm2]
    exact hmem

end Store

theorem State.place_clus {cap : Cap} (h : capSpace cap = spClus) (n addr : Nat) : s.place n cap addr = mkey .clus (clusterOf n) addr := by
  unfold State.place
  rw [h]
  rfl

theorem keySpace_clus_ne_glob (clu addr : Nat) : keySpace (mkey .clus clu addr) ≠ MSpace.glob.code := by
  have htwo : 2 ≤ keySpace (mkey .clus clu addr) := (Nat.le_div_iff_mul_le (by decide)).2 ((Nat.le_div_iff_mul_le (by decide)).2
    ((Nat.mul_le_mul_right _ (Nat.le_add_right (2 * 65536) clu)).trans (Nat.le_add_right ..)))
  exact Nat.ne_of_gt (Nat.lt_of_lt_of_le (by decide) htwo)

/-- Bytes that stand in CLUS are poisoned where they stand. -/
theorem State.poisonStored_clus {a : Access} {keys : List Nat} (hspace : capSpace a.cap = spClus)
    (hkeys : ∀ k ∈ keys, keySpace k ≠ MSpace.glob.code) :
    (s.poisonStored n a keys).mem = s.mem ∧ (s.poisonStored n a keys).marks = ((keys.map granule).dedup).foldl KeySet.add s.marks := by
  have hnear : ¬4 ≤ capSpace a.cap := by rw [hspace]; decide
  unfold State.poisonStored
  extract_lets gs sent ms s1 here
  have hhere : here = keys := List.filter_eq_self.2 fun k hk => by rw [bne_iff_ne.2 (hkeys k hk), Bool.true_or]
  rw [if_neg hnear, hhere]
  exact ⟨rfl, rfl⟩

theorem store_flit_fails (hs : s.Ok) (hcalm : (s.core n).Calm) {id : Nat} {a : Access} {bytes : List (Nat × Byte)}
    (hfind : (s.core n).findAcc id = some a) (hkind : a.kind = .store bytes) (hdone : a.performed = false) (hready : s.storeReady n a = true)
    (hspace : capSpace a.cap = spClus)
    (hok : ∀ b ∈ (bytes.filter (fun b => a.unitOf b.1 == s.pick a.left)).map (fun b => (s.place n a.cap b.1, b.2)),
      s.verdict (s.ctxOf n) a.cap b.1 = .ok) :
    ∃ t, exec (.memoryFaultFound (.storeFlit n id) .ecc) s = .next t ∧
      (∀ x, t.byte x = (lastAt ((bytes.filter (fun b => a.unitOf b.1 == s.pick a.left)).map (fun b => (s.place n a.cap b.1, b.2))) x).getD
        (s.byte x)) ∧
      ∀ b ∈ (bytes.filter (fun b => a.unitOf b.1 == s.pick a.left)).map (fun b => (s.place n a.cap b.1, b.2)),
        KeySet.has t.marks (b.1 / 32) = true := by
  have hbytes : (bytes.filter (fun b => a.unitOf b.1 == s.pick a.left)).map (fun b => (s.place n a.cap b.1, b.2)) =
      s.storeBytes n a (s.pick a.left) := by simp only [State.storeBytes, hkind]
  rw [hbytes] at hok ⊢
  have hid : a.id = id := by simpa using List.find?_some hfind
  have hgood : ((s.storeBytes n a (s.pick a.left)).map (·.1)).filter (fun k => s.verdict (s.ctxOf n) a.cap k == .ok) =
      (s.storeBytes n a (s.pick a.left)).map (·.1) := by
    refine List.filter_eq_self.2 fun k hk => ?_
    obtain ⟨b, hb, rfl⟩ := List.mem_map.1 hk
    rw [hok b hb]
    decide
  have hflush : a.isFlush = false := by simp only [Access.isFlush, hkind]
  have hfails : s.storeFlitFails n id = ((s.storeStep n a).poisonStored n a ((s.storeBytes n a (s.pick a.left)).map (·.1))).recordTransfer n
      ((s.storeBytes n a (s.pick a.left)).map (·.1)) 0xA2 (s.miscOf n) true := by
    simp only [State.storeFlitFails, hfind, hready, hdone, hflush, hgood]
    rfl
  have hexec : exec (.memoryFaultFound (.storeFlit n id) .ecc) s = .next (s.storeFlitFails n id) := rfl
  have hclus : ∀ k ∈ (s.storeBytes n a (s.pick a.left)).map (·.1), keySpace k ≠ MSpace.glob.code := by
    intro k hk
    rw [← hbytes, List.map_map] at hk
    obtain ⟨b, -, rfl⟩ := List.mem_map.1 hk
    rw [Function.comp, State.place_clus hspace]
    exact keySpace_clus_ne_glob (clusterOf n) b.1
  obtain ⟨hmem, hmarks⟩ := State.poisonStored_clus (s := s.storeStep n a) (n := n) hspace hclus
  obtain ⟨hmemR, -, hmarksR⟩ := (State.recordTransfer_onlyBanks _ n ((s.storeBytes n a (s.pick a.left)).map (·.1)) 0xA2 (s.miscOf n) true :
    OnlyBanks ((s.storeStep n a).poisonStored n a ((s.storeBytes n a (s.pick a.left)).map (·.1))) _).sameMemory
  have hwf : KeySet.wf (s.storeStep n a).marks = true := (State.storeStep_ok n a hs).2.2.1
  refine ⟨_, hexec.trans (congrArg Outcome.next hfails), fun x => ?_, fun b hb => ?_⟩
  · have hwrite : (s.writeBytes (s.storeBytes n a (s.pick a.left))).mem =
        (s.storeBytes n a (s.pick a.left)).foldl (fun m b => Memory.write m b.1 b.2) s.mem := State.storeEach_mem _ _
    rw [State.byte, hmemR, hmem, State.storeStep_clus hspace hok (hid ▸ hfind) hcalm, hwrite, Memory.read_foldl_write hs.1]
    rfl
  · rw [hmarksR, hmarks, KeySet.has_foldl_add _ hwf, List.contains_iff_mem.2, Bool.true_or]
    exact List.mem_dedup.2 (List.mem_map.2 ⟨b.1, List.mem_map_of_mem hb, rfl⟩)

/-! ### The request of an atomic (R425, R430, R431) -/

theorem Core.findAcc_retire (c : Core) (a : Access) : (c.retire a).findAcc a.id = none := by
  unfold Core.retire Core.findAcc
  refine List.find?_eq_none.2 fun b hb => ?_
  split at hb <;> simpa using (List.mem_filter.1 hb).2

theorem Core.retire_keeps (c : Core) (a : Access) : (c.retire a).deferred = c.deferred ∧ (c.retire a).r = c.r := by
  unfold Core.retire
  split <;> exact ⟨rfl, rfl⟩

theorem Core.markX_of_ne (c : Core) {r : XReg} (hr : r ≠ 0) : (c.markX r).r = { c.r with xmark := setBit c.r.xmark r.toNat true } ∧
    (c.markX r).m = c.m := by
  rw [Core.markX, if_neg hr]
  exact ⟨rfl, rfl⟩

/-- An atomic that is lost changes its own core alone. -/
theorem atomic_flit_fails {id : Nat} {a : Access} {c : Core} (hfind : (s.core n).findAcc id = some a) (hready : s.atomicReady n a = true)
    (hlost : s.atomicLost n a = s.setCore n c) (hcalm : c.Calm) :
    ∃ t, exec (.memoryFaultFound (.atomicFlit n id) .ecc) s = .next t ∧ SameMemory s t ∧ t.core n = c.dropFences := by
  have hexec : exec (.memoryFaultFound (.atomicFlit n id) .ecc) s = .next (s.atomicFlitFails n id) := rfl
  have hsettle : (s.setCore n c).settleFences n = (s.setCore n c).setCore n c.dropFences := by
    rw [State.settleFences_calm (by rwa [State.core_setCore_same]), State.core_setCore_same]
  have hbanks := ((s.setCore n c).setCore n c.dropFences).recordTransfer_onlyBanks n [((s.atomicSpot n a).map (·.1)).getD 0] 0xA2 (s.miscOf n) true
  have hfails : s.atomicFlitFails n id = ((s.setCore n c).setCore n c.dropFences).recordTransfer n
      [((s.atomicSpot n a).map (·.1)).getD 0] 0xA2 (s.miscOf n) true := by
    simp only [State.atomicFlitFails, hfind, hready, hlost, hsettle]
    rfl
  exact ⟨_, hexec.trans (congrArg Outcome.next hfails), (show SameMemory s _ from ⟨rfl, rfl, rfl⟩).trans hbanks.sameMemory,
    by rw [hbanks.core_eq, State.core_setCore_same]⟩

/-- What an atomic of no answer comes to when its request is lost. -/
theorem State.atomicLost_of_amo (s : State) (n : Nat) {a : Access} {op : AmoOp} {xd : XReg} {src cmp : DWord}
    (hkind : a.kind = .amo op xd src cmp) (hreply : a.reply = none) : s.atomicLost n a =
      if xd ≠ 0 then s.setCore n (((s.core n).retire a).markX xd)
      else s.setCore n (((s.core n).retire a).defer (deferred 0xA0 (BitVec.ofNat 64 a.off) a.slot)) := by
  rw [State.atomicLost, hkind, hreply]
  rfl

theorem State.atomicLost_of_vamo (s : State) (n : Nat) {a : Access} {op : VamoOp} {ph : Nat} {act : BitVec 32} {offs : List Nat} {d : Vec}
    {next : Nat} {rm : Rm} {j : Nat} (hkind : a.kind = .vamo op ph act offs d next rm) (hreply : a.reply = none)
    (hj : nextActive act next = some j) : s.atomicLost n a =
      s.setCore n (Core.defer { s.core n with m := { (s.core n).m with accs := (s.core n).m.accs.filter (·.id != a.id) } }
        { deferred 0xA0 (BitVec.ofNat 64 (offs.getD j 0)) a.slot with
          elem := j, replay := some { a with kind := .vamo op ph act offs d j rm, performed := false, reply := none } }) := by
  obtain rfl : (nextActive act next).getD 31 = j := by rw [hj]; rfl
  rw [State.atomicLost, hkind, hreply]

section Atomic

variable {id : Nat} {a : Access} (hcalm : (s.core n).Calm) (hfind : (s.core n).findAcc id = some a) (hreply : a.reply = none)
  (hready : s.atomicReady n a = true)
include hcalm hfind hreply hready

theorem amo_flit_fails {op : AmoOp} {xd : XReg} {src cmp : DWord} (hkind : a.kind = .amo op xd src cmp) :
    ∃ t, exec (.memoryFaultFound (.atomicFlit n id) .ecc) s = .next t ∧ t.mem = s.mem ∧ t.tags = s.tags ∧ t.marks = s.marks ∧
      (t.core n).findAcc id = none ∧
      (xd ≠ 0 → (t.core n).r = { (s.core n).r with xmark := setBit (s.core n).r.xmark xd.toNat true }) ∧
      (xd = 0 → ∃ u, (t.core n).deferred = (s.core n).deferred ++ [u] ∧ u.cause = 0xA0 ∧ u.tval = BitVec.ofNat 64 a.off) := by
  have hid : a.id = id := by simpa using List.find?_some hfind
  have hgone : ((s.core n).retire a).findAcc id = none := hid ▸ Core.findAcc_retire ..
  by_cases hxd : xd = 0
  · obtain ⟨t, hexec, ⟨hmem, htags, hmarks⟩, hcore⟩ := atomic_flit_fails
      (c := ((s.core n).retire a).defer (deferred 0xA0 (BitVec.ofNat 64 a.off) a.slot)) hfind hready
      ((s.atomicLost_of_amo n hkind hreply).trans (if_neg (not_not.2 hxd))) (hcalm.retire a)
    refine ⟨t, hexec, hmem, htags, hmarks, hcore ▸ hgone, fun h => absurd hxd h,
      fun _ => ⟨deferred 0xA0 (BitVec.ofNat 64 a.off) a.slot, ?_, rfl, rfl⟩⟩
    rw [hcore]
    exact congrArg (· ++ _) ((s.core n).retire_keeps a).1
  · obtain ⟨hr, hm⟩ := ((s.core n).retire a).markX_of_ne hxd
    obtain ⟨t, hexec, ⟨hmem, htags, hmarks⟩, hcore⟩ := atomic_flit_fails (c := ((s.core n).retire a).markX xd) hfind hready
      ((s.atomicLost_of_amo n hkind hreply).trans (if_pos hxd)) (by rw [Core.Calm, hm]; exact hcalm.retire a)
    refine ⟨t, hexec, hmem, htags, hmarks, ?_, fun _ => ?_, fun h => absurd h hxd⟩
    · rw [hcore, Core.findAcc]
      exact (congrArg (fun m : MemSide => m.accs.find? (fun b : Access => b.id == id)) hm).trans hgone
    · rw [hcore, ← ((s.core n).retire_keeps a).2]
      exact hr

theorem vamo_flit_fails {op : VamoOp} {ph : Nat} {act : BitVec 32} {offs : List Nat} {d : Vec} {next : Nat} {rm : Rm} {j : Nat}
    (hkind : a.kind = .vamo op ph act offs d next rm) (hj : nextActive act next = some j) :
    ∃ t u, exec (.memoryFaultFound (.atomicFlit n id) .ecc) s = .next t ∧ t.mem = s.mem ∧ t.tags = s.tags ∧ t.marks = s.marks ∧
      (t.core n).deferred = (s.core n).deferred ++ [u] ∧ u.cause = 0xA0 ∧ u.tval = BitVec.ofNat 64 (offs.getD j 0) ∧ u.elem = j ∧
      u.replay.isSome = true := by
  obtain ⟨t, hexec, ⟨hmem, htags, hmarks⟩, hcore⟩ := atomic_flit_fails hfind hready (s.atomicLost_of_vamo n hkind hreply hj) hcalm
  exact ⟨t, _, hexec, hmem, htags, hmarks, congrArg Core.deferred hcore, rfl, rfl, rfl, rfl⟩

end Atomic

/-! ### The line of a segment copy (R324, R424) -/

theorem segment_flit_fails {g : Seg} {a : Nat} (hcopy : (s.core n).k.segCopy = some g.num) (hg : s.segAt (s.core n) g.num = some g)
    (hready : s.linesReady n g = true) (ha : a ∈ g.lineAddrs (s.core n).c.codebase.toNat) :
    ∃ t, exec (.memoryFaultFound (.segFlit n a) .ecc) s = .next t ∧ t.mem = s.mem ∧ t.tags = s.tags ∧ t.marks = s.marks ∧
      t.core n = { s.core n with k := { (s.core n).k with
        segCopy := none, segStale := false
        wait := (s.core n).k.wait.map (fun w => if w.1 = g.num then (w.1, some a) else w) } } := by
  have hexec : exec (.memoryFaultFound (.segFlit n a) .ecc) s = .next (s.segFlitFails n a) := rfl
  have hfails : s.segFlitFails n a = (s.segFails n g a).recordTransfer n [mkey .glob 0 a] 0xA2 (s.miscOf n) false := by
    simp only [State.segFlitFails, segCopy_bind hcopy hg, hready, List.contains_iff_mem.2 ha]
    rfl
  have hbanks := (s.segFails n g a).recordTransfer_onlyBanks n [mkey .glob 0 a] 0xA2 (s.miscOf n) false
  obtain ⟨hmem, htags, hmarks⟩ := hbanks.sameMemory
  exact ⟨_, hexec.trans (congrArg Outcome.next hfails), hmem, htags, hmarks, (hbanks.core_eq n).trans (core_segFails s n g a)⟩

end Sys2Proof.Machine
end

section
/-! SUPPORT. Lines that a home or a message has go (R252, R253, R271): which lines are left of the slices and the L1s, the bytes that the
lines brought home. What is named of states and lines here serves statements alone: no code is made of it. -/

namespace Sys2Proof.Machine

open Host (Outcome)

/-! ### Lines of the slices -/

/-- The dirty lines that L1s give up to their slices. -/
noncomputable def State.givenUp (s : State) (sel : Nat → CLine → Bool) : List (Nat × CLine) :=
  s.cores.flatMap (fun e => (e.2.m.l1.filter (fun l => l.dirty && sel e.1 l)).map (fun l => (clusterOf e.1, l)))

/-- A slice's line with the marks that it takes from them. -/
noncomputable def State.afterL1 (s : State) (sel : Nat → CLine → Bool) (e : Nat × CLine) : Nat × CLine :=
  (e.1, (s.givenUp sel).foldl (CLine.takeMarks e.1) e.2)

theorem State.cleanL1_lines (s : State) (sel : Nat → CLine → Bool) :
    (s.cleanL1 sel).dev.ms.lines = s.dev.ms.lines.map (s.afterL1 sel) := by
  unfold State.cleanL1
  extract_lets gone s1
  split
  · next hnil =>
    have hsame : ∀ e ∈ s.dev.ms.lines, s.afterL1 sel e = e := fun e _ =>
      Prod.ext rfl (congrArg (List.foldl (CLine.takeMarks e.1) e.2) (List.isEmpty_iff.1 hnil))
    exact (List.map_congr_left hsame).trans (List.map_id' _) |>.symm
  · rfl

theorem State.afterL1_eq (s : State) (sel : Nat → CLine → Bool) (e : Nat × CLine) :
    ∃ marks dirty, s.afterL1 sel e = (e.1, { e.2 with marks := marks, dirty := dirty }) := by
  obtain ⟨⟨marks, dirty, h⟩, -⟩ := CLine.foldl_takeMarks e.1 (s.givenUp sel) e.2
  exact ⟨marks, dirty, Prod.ext rfl h⟩

theorem CLine.foldl_takeMarks_other {clu : Nat} {l : CLine} {gone : List (Nat × CLine)} (h : ∀ x ∈ gone, ¬(x.1 = clu ∧ x.2.key = l.key)) :
    gone.foldl (CLine.takeMarks clu) l = l := by
  induction gone with
  | nil => rfl
  | cons x t ih =>
    rw [List.foldl_cons, show CLine.takeMarks clu l x = l from if_neg (h x List.mem_cons_self)]
    exact ih fun y hy => h y (List.mem_cons_of_mem _ hy)

section Drop

variable (s : State) (clus p : Nat → Bool)

/-- Whether a line goes: it is one of the clusters', at one of the places. -/
noncomputable def goes (clus p : Nat → Bool) (e : Nat × CLine) : Bool := clus e.1 && p e.2.key

theorem State.afterL1_of_stays {e : Nat × CLine} (h : goes clus p e = false) :
    s.afterL1 (fun n l => clus (clusterOf n) && p l.key) e = e := by
  refine Prod.ext rfl (CLine.foldl_takeMarks_other fun x hx ⟨hclu, hkey⟩ => ?_)
  obtain ⟨d, -, hxd⟩ := List.mem_flatMap.1 hx
  obtain ⟨l, hl, rfl⟩ := List.mem_map.1 hxd
  have hsel := (Bool.and_eq_true_iff.1 (List.mem_filter.1 hl).2).2
  rw [goes, ← hclu, ← hkey] at h
  exact Bool.false_ne_true (h.symm.trans hsel)

/-- A change of lines that leaves their places, and those that stay altogether. -/
theorem filter_stays_map {f : Nat × CLine → Nat × CLine} (hplace : ∀ e, (f e).1 = e.1 ∧ (f e).2.key = e.2.key)
    (hstays : ∀ e, goes clus p e = false → f e = e) (lines : List (Nat × CLine)) :
    (lines.map f).filter (fun e => !goes clus p e) = lines.filter (fun e => !goes clus p e) := by
  have hgoes : (fun e => !goes clus p e) ∘ f = fun e => !goes clus p e := by
    funext e
    rw [Function.comp, goes, (hplace e).1, (hplace e).2, goes]
  rw [List.filter_map, hgoes]
  refine (List.map_congr_left fun e he => hstays e ?_).trans (List.map_id' _)
  simpa using (List.mem_filter.1 he).2

/-- Lines dropped from some clusters' slices. -/
theorem State.mapLines_drop_lines (q : CLine → Prop) [DecidablePred q] :
    (s.mapLines clus (fun l => if q l then none else some l)).dev.ms.lines =
      s.dev.ms.lines.filter (fun e => !(clus e.1 && decide (q e.2))) := by
  change s.dev.ms.lines.filterMap _ = _
  rw [← List.filterMap_eq_filter]
  refine List.filterMap_congr fun e _ => ?_
  dsimp only [Option.guard]
  by_cases hclu : clus e.1 = true <;> by_cases hq : q e.2 <;> simp [hclu, hq]

theorem State.storeRels_lines (keys : List Nat) (rel : Option Rel) : (s.storeRels keys rel).dev.ms.lines = s.dev.ms.lines := rfl

/-- Of the lines that stay none goes where a line that goes is refused. -/
theorem State.mapLines_refused_lines {e : Nat × CLine} (he : goes clus p e = true) :
    (s.mapLines (· == e.1) (fun l => if l.key = e.2.key then none else some l)).dev.ms.lines.filter (fun e => !goes clus p e) =
      s.dev.ms.lines.filter (fun e => !goes clus p e) := by
  rw [State.mapLines_drop_lines, List.filter_filter]
  refine List.filter_congr fun x _ => ?_
  cases hx : goes clus p x with
  | true => rfl
  | false =>
    rw [Bool.not_false, Bool.true_and, Bool.not_eq_true', Bool.and_eq_false_iff, beq_eq_false_iff_ne, decide_eq_false_iff_not]
    refine not_and_or.1 fun ⟨hclu, hkey⟩ => ?_
    rw [goes, hclu, hkey, ← goes, he] at hx
    cases hx

/-- The write-back of the lines that go leaves the others. -/
theorem State.clean_lines_stay : (s.clean (fun c l => clus c && p l.key)).dev.ms.lines.filter (fun e => !goes clus p e) =
    s.dev.ms.lines.filter (fun e => !goes clus p e) := by
  unfold State.clean
  extract_lets s1 chosen owed shut marks s2 s3 s4
  have h1 : s1.dev.ms.lines.filter (fun e => !goes clus p e) = s.dev.ms.lines.filter (fun e => !goes clus p e) := by
    rw [State.cleanL1_lines]
    refine filter_stays_map clus p (fun e => ?_) (fun e he => s.afterL1_of_stays clus p he) _
    obtain ⟨marks, dirty, he⟩ := s.afterL1_eq (fun n l => clus (clusterOf n) && p l.key) e
    rw [he]
    exact ⟨rfl, rfl⟩
  have h2 : s2.dev.ms.lines = s1.dev.ms.lines := by
    simp only [s2]
    split
    · rfl
    · exact (State.storeRels_lines ..).trans (congrArg (fun d : Device => d.ms.lines) (s1.writeBytes_dev owed))
  have h3 : s3.dev.ms.lines = s2.dev.ms.lines := by
    simp only [s3]
    split <;> rfl
  have h4 : s4.dev.ms.lines.filter (fun e => !goes clus p e) = s3.dev.ms.lines.filter (fun e => !goes clus p e) := by
    refine foldl_kept (proj := fun s => s.dev.ms.lines.filter (fun e => !goes clus p e)) (fun s e he => ?_) s3
    have hgoes : goes clus p e = true := (List.mem_filter.1 (List.mem_filter.1 he).1).2
    rw [State.mapLines_refused_lines _ _ _ hgoes, State.failOwed_ms]
  rw [State.setMs_dev_ms]
  refine (filter_stays_map clus p (f := fun e => (e.1, if clus e.1 && p e.2.key then e.2.cleaned else e.2)) (fun e => ⟨rfl, ?_⟩)
    (fun e he => Prod.ext rfl (if_neg (Bool.eq_false_iff.1 he))) _).trans (h4.trans ((congrArg _ (h3.trans h2)).trans h1))
  dsimp only
  split <;> rfl

/-- Lines dropped are those that go; the others stay. -/
theorem State.dropWhere_lines_eq : (s.dropWhere clus p).dev.ms.lines = s.dev.ms.lines.filter (fun e => !goes clus p e) := by
  have hdrop := (s.clean (fun c l => clus c && p l.key)).mapLines_drop_lines clus (fun l => p l.key = true)
  rw [← s.clean_lines_stay clus p]
  refine hdrop.trans (List.filter_congr fun e _ => ?_)
  rw [Bool.decide_eq_true, goes]

end Drop

/-! ### Lines of the L1s -/

/-- The core with other lines in its L1. -/
noncomputable def Core.withL1 (c : Core) (lines : List CLine) : Core := { c with m := { c.m with l1 := lines } }

theorem State.cleanL1_core (s : State) (sel : Nat → CLine → Bool) (n : Nat) : (s.cleanL1 sel).core n =
    (s.core n).withL1 ((s.core n).m.l1.map (fun l => if l.dirty && sel n l then l.cleaned else l)) := by
  unfold State.cleanL1
  extract_lets gone s1
  split
  · next hnil =>
    have hclean : ∀ l ∈ (s.core n).m.l1, (if l.dirty && sel n l then l.cleaned else l) = l := by
      intro l hl
      refine if_neg fun hsel => ?_
      rcases lookupD_mem_at .idle s.cores n with hidle | hmem
      · rw [State.core, hidle] at hl
        cases hl
      · have hgone : (clusterOf n, l) ∈ gone := List.mem_flatMap.2 ⟨_, hmem, List.mem_map.2 ⟨l, List.mem_filter.2 ⟨hl, hsel⟩, rfl⟩⟩
        rw [List.isEmpty_iff.1 hnil] at hgone
        cases hgone
    rw [List.map_congr_left hclean, List.map_id']
    rfl
  · exact lookupD_map (d := Core.idle) (m := n)
      (f := fun n c => c.withL1 (c.m.l1.map (fun l => if l.dirty && sel n l then l.cleaned else l))) rfl s.cores

/-- Where no write-back is refused, the cores are as the L1s' giving up has left them. -/
theorem State.clean_cores {s : State} {sel : Nat → CLine → Bool}
    (hopen : ∀ e ∈ s.chosenLines sel, e.2.owing = [] ∨ s.lineOpen e.2 = true) :
    (s.clean sel).cores = (s.cleanL1 (fun n l => sel (clusterOf n) l)).cores := by
  unfold State.clean
  extract_lets s1 chosen owed shut marks s2 s3 s4
  have hshut : shut = [] := List.filter_eq_nil_iff.2 fun e he => by
    rcases hopen e he with howing | hline
    · simp [howing]
    · simp [show s1.lineOpen e.2 = true from (s.cleanL1_lineOpen _ e.2).trans hline]
  have h2 : s2.cores = s1.cores := by
    simp only [s2]
    split
    · rfl
    · exact s1.storeEach_cores owed
  have h3 : s3.cores = s2.cores := by
    simp only [s3]
    split <;> rfl
  rw [State.setMs_cores, show s4 = s3 by simp only [s4, hshut, List.foldl_nil], h3, h2]

theorem drop_cleaned (p : Nat → Bool) (lines : List CLine) :
    (lines.map (fun l => if l.dirty && p l.key then l.cleaned else l)).filterMap (fun l => if p l.key then none else some l) =
      lines.filter (fun l => !p l.key) := by
  rw [List.filterMap_map, ← List.filterMap_eq_filter]
  refine List.filterMap_congr fun l _ => ?_
  cases hp : p l.key with
  | false => simp [hp]
  | true =>
    have hkey : (if l.dirty then l.cleaned else l).key = l.key := by split <;> rfl
    simp [Option.guard, hp, hkey]

/-- Of a cluster's L1s the lines go; the other cores stay. -/
theorem State.dropWhere_core {s : State} {clu : Nat} {p : Nat → Bool} (n : Nat)
    (hopen : ∀ e ∈ s.dev.ms.lines, e.1 = clu → p e.2.key = true → e.2.owing = [] ∨ s.lineOpen e.2 = true) :
    (s.dropWhere (· == clu) p).core n = (s.core n).withL1 ((s.core n).m.l1.filter (fun l => !(clusterOf n == clu && p l.key))) := by
  have hchosen : ∀ e ∈ s.chosenLines (fun c l => c == clu && p l.key), e.2.owing = [] ∨ s.lineOpen e.2 = true := by
    intro e he
    obtain ⟨hmem, hsel⟩ := List.mem_filter.1 he
    obtain ⟨l, hl, ⟨marks, dirty, hsame⟩, -⟩ := State.mem_cleanL1_lines_marks hmem
    rw [Bool.and_eq_true, beq_iff_eq] at hsel
    rw [hsame] at hsel ⊢
    exact hopen _ hl hsel.1 hsel.2
  have hclean : (s.clean (fun c l => c == clu && p l.key)).core n = (s.cleanL1 (fun n l => clusterOf n == clu && p l.key)).core n :=
    congrArg (fun cores => lookupD Core.idle cores n) (State.clean_cores hchosen)
  rw [State.dropWhere, State.mapLines_core, hclean, State.cleanL1_core]
  cases hclu : clusterOf n == clu with
  | false =>
    refine (if_neg (Bool.eq_false_iff.1 hclu)).trans (congrArg (s.core n).withL1 ?_)
    have hkept : ∀ l ∈ (s.core n).m.l1, (if (l.dirty && (false && p l.key)) = true then l.cleaned else l) = l := fun l _ => by
      rw [Bool.false_and, Bool.and_false, if_neg Bool.false_ne_true]
    exact (List.map_congr_left hkept).trans ((List.map_id' _).trans (List.filter_eq_self.2 fun _ _ => rfl).symm)
  | true => exact (if_pos hclu).trans (congrArg (s.core n).withL1 (drop_cleaned p (s.core n).m.l1))

/-! ### What they bring home -/

theorem State.clean_mem_eq (s : State) (sel : Nat → CLine → Bool) :
    (s.clean sel).mem = (s.broughtHome sel).foldl (fun m b => Memory.write m b.1 b.2) s.mem := by
  unfold State.clean
  extract_lets s1 chosen owed shut marks s2 s3 s4
  have h1 : s1.mem = s.mem := s.cleanL1_mem _
  have h2 : s2.mem = owed.foldl (fun m b => Memory.write m b.1 b.2) s1.mem := by
    simp only [s2]
    split
    · next hnil =>
      rw [List.isEmpty_iff.1 hnil]
      rfl
    · exact State.storeEach_mem _ _
  have h3 : s3.mem = s2.mem := by
    simp only [s3]
    split <;> rfl
  have h4 : s4.mem = s3.mem :=
    foldl_kept (proj := State.mem) (fun s e _ => by rw [State.mapLines_mem, State.failOwed_mem]) s3
  rw [State.setMs_mem, h4, h3, h2, h1]
  rfl

/-- A line owes at most one byte of each place. -/
theorem CLine.owing_nodup (l : CLine) : (l.owing.map (·.1)).Nodup := by
  have hplaces : (l.bytes.zipIdx).Pairwise (fun x y => x.2 ≠ y.2) := by
    rw [← List.pairwise_map (f := Prod.snd) (R := (· ≠ ·)), List.zipIdx_map_snd]
    exact List.nodup_range'
  unfold CLine.owing
  split
  · exact List.nodup_nil
  · rw [List.Nodup, List.pairwise_map, List.pairwise_filterMap]
    refine hplaces.imp fun hne b hb c hc => ?_
    obtain ⟨-, hb⟩ := Option.ite_none_right_eq_some.1 hb
    obtain ⟨-, hc⟩ := Option.ite_none_right_eq_some.1 hc
    rw [← Option.some.inj hb, ← Option.some.inj hc]
    exact fun h => hne (Nat.add_left_cancel h)

end Sys2Proof.Machine
end

section
/-! SUPPORT. Lines that leave several clusters at once (R253, R254, R271): what memory keeps, and the messages and clocks, which stay; the
invalidation of a line by its home. -/

namespace Sys2Proof.Machine

open Host (Outcome)

/-! ### Memory that no cluster owes -/

theorem State.owedAny_of_owedBy {s : State} {clu a : Nat} (h : s.owedBy clu a = true) : s.owedAny a = true := by
  refine Bool.or_eq_true_iff.2 ((Bool.or_eq_true_iff.1 h).imp (fun h => ?_) fun h => ?_) <;>
  · obtain ⟨e, he, hany⟩ := List.any_eq_true.1 h
    exact List.any_eq_true.2 ⟨e, he, (Bool.and_eq_true_iff.1 hany).2⟩

section Granule

variable {s : State} {g : Nat} (hfree : ∀ k, k / 32 = g → s.owedAny k = false) (sel : Nat → CLine → Bool)
include hfree

theorem State.not_owedBy_of_free {clu k : Nat} (hk : k / 32 = g) : s.owedBy clu k = false :=
  Bool.eq_false_iff.2 fun h => Bool.eq_false_iff.1 (hfree k hk) (State.owedAny_of_owedBy h)

theorem State.not_mem_owingMarks_of_freeAny : g ∉ (s.chosenLines sel).flatMap fun e => e.2.owingMarks := by
  intro hg
  obtain ⟨e, he, hge⟩ := List.mem_flatMap.1 hg
  obtain ⟨l, hl, -, hmarks⟩ := State.mem_cleanL1_lines_marks (List.mem_filter.1 he).1
  have hgran : 32 * g / 32 = g := by omega
  refine Bool.eq_false_iff.1 (hfree (32 * g) hgran) (Bool.or_eq_true_iff.2 ?_)
  rw [hgran]
  refine (hmarks g (CLine.marksGranule_of_owingMarks hge)).imp (fun hline => ?_) fun ⟨d, hd, _, hdl⟩ => List.any_eq_true.2 ⟨d, hd, hdl⟩
  exact List.any_eq_true.2 ⟨_, hl, by rw [hline, Bool.or_true]⟩

theorem State.granule_ne_of_freeAny {b : Nat × Byte} (hb : b ∈ s.broughtHome sel) : granule b.1 ≠ g := by
  intro hg
  obtain ⟨e, he, hbe⟩ := List.mem_flatMap.1 hb
  obtain ⟨l, hl, -, howing⟩ := State.mem_cleanL1_lines (List.mem_filter.1 (List.mem_filter.1 he).1).1
  exact State.owing_ne_of_owedBy (State.not_owedBy_of_free hfree hg) hl rfl b (howing ▸ hbe) rfl

end Granule

/-- A write-back reaches only granules of which some cluster owes a byte or a mark. -/
theorem State.clean_keepsMemory_any {s : State} (hs : s.Ok) (sel : Nat → CLine → Bool) : KeepsMemory s (s.clean sel) s.owedAny := by
  intro a hfree
  obtain ⟨htags, hmarks⟩ := s.clean_tags_marks sel
  have hgran (b : Nat × Byte) (hb : b ∈ s.broughtHome sel) : granule b.1 ≠ a / 32 := State.granule_ne_of_freeAny hfree sel hb
  have hnotag : ((s.broughtHome sel).map fun b => granule b.1).contains (a / 32) = false := by
    rw [Bool.eq_false_iff, ne_eq, List.contains_iff_mem, List.mem_map]
    exact fun ⟨b, hb, hba⟩ => hgran b hb hba
  have hnocover : (coveredGranules ((s.broughtHome sel).map (·.1))).contains (a / 32) = false := by
    rw [Bool.eq_false_iff, ne_eq, List.contains_iff_mem]
    intro h
    obtain ⟨k, hk, hka⟩ := mem_coveredGranules h
    obtain ⟨b, hb, rfl⟩ := List.mem_map.1 hk
    exact hgran b hb hka
  have hnomark : ((s.chosenLines sel).flatMap fun e => e.2.owingMarks).contains (a / 32) = false := by
    rw [Bool.eq_false_iff, ne_eq, List.contains_iff_mem]
    exact State.not_mem_owingMarks_of_freeAny hfree sel
  refine ⟨?_, ?_, ?_⟩
  · refine State.clean_byte hs.1 fun e he _ => ?_
    obtain ⟨l, hl, -, howing⟩ := State.mem_cleanL1_lines he
    rw [← howing]
    exact State.owing_ne_of_owedBy (State.not_owedBy_of_free hfree rfl) hl rfl
  · rw [htags, KeySet.has_foldl_del _ hs.2.1, hnotag]
    rfl
  · rw [hmarks, KeySet.has_foldl_add _ (KeySet.foldl_del_wf _ hs.2.2.1), KeySet.has_foldl_del _ hs.2.2.1, hnocover, hnomark]
    rfl

theorem State.dropWhere_keepsMemory_any {s : State} (hs : s.Ok) (clus p : Nat → Bool) : KeepsMemory s (s.dropWhere clus p) s.owedAny :=
  (State.clean_keepsMemory_any hs _).of_same (.refl s) (State.mapLines_sameMemory ..)

/-! ### Messages and clocks -/

/-- The dies' clocks and the messages under way. -/
noncomputable def State.mail (s : State) : List Clock × List Msg := (s.dev.ms.clocks, s.dev.ms.msgs)

theorem State.cleanL1_mail (s : State) (sel : Nat → CLine → Bool) : (s.cleanL1 sel).mail = s.mail := by
  unfold State.cleanL1
  extract_lets
  split <;> rfl

theorem State.writeBytes_mail (s : State) (bytes : List (Nat × Byte)) : (s.writeBytes bytes).mail = s.mail := by
  rw [State.mail, State.writeBytes_dev, State.mail]

theorem State.storeRels_mail (s : State) (keys : List Nat) (rel : Option Rel) : (s.storeRels keys rel).mail = s.mail := rfl

theorem State.addMarks_mail (s : State) (gs : List Nat) : (s.addMarks gs).mail = s.mail := rfl

theorem State.mapLines_mail (s : State) (clus : Nat → Bool) (g : CLine → Option CLine) : (s.mapLines clus g).mail = s.mail := rfl

theorem State.failOwed_mail (s : State) (clu : Nat) (l : CLine) : (s.failOwed clu l).mail = s.mail := by
  rw [State.mail, State.failOwed_ms, State.mail]

theorem State.clean_mail (s : State) (sel : Nat → CLine → Bool) : (s.clean sel).mail = s.mail := by
  unfold State.clean
  extract_lets s1 chosen owed shut marks s2 s3 s4
  have h2 : s2.mail = s1.mail := by
    simp only [s2]
    split
    · rfl
    · rw [State.storeRels_mail, State.writeBytes_mail]
  have h3 : s3.mail = s2.mail := by
    simp only [s3]
    split
    · rfl
    · exact s2.addMarks_mail marks
  have h4 : s4.mail = s3.mail := foldl_kept (proj := State.mail) (fun s e _ => by rw [State.mapLines_mail, State.failOwed_mail]) s3
  exact h4.trans (h3.trans (h2.trans (s.cleanL1_mail _)))

theorem State.dropWhere_mail (s : State) (clus p : Nat → Bool) : (s.dropWhere clus p).mail = s.mail :=
  (State.mapLines_mail ..).trans (s.clean_mail _)

/-! ### A line invalidated by its home -/

section Home

variable {s : State} (hs : s.Ok) {clu : Nat} {p : Nat → Bool}
include hs

/-- What the one line owes that goes reaches its home, where its link is open. -/
theorem State.dropWhere_owing_home {l : CLine} (honly : s.dev.ms.lines.filter (fun e => goes (· == clu) p e) = [(clu, l)])
    (hopen : s.lineOpen l = true) : ∀ b ∈ l.owing, (s.dropWhere (· == clu) p).byte b.1 = b.2 := by
  set sel : Nat → CLine → Bool := fun c l => c == clu && p l.key
  obtain ⟨marks, dirty, hafter⟩ := s.afterL1_eq (fun n l => sel (clusterOf n) l) (clu, l)
  have hchosen : s.chosenLines sel = [(clu, { l with marks := marks, dirty := dirty })] := by
    have hgoes : (fun e => sel e.1 e.2) ∘ s.afterL1 (fun n l => sel (clusterOf n) l) = fun e => goes (· == clu) p e := by
      funext e
      obtain ⟨marks, dirty, he⟩ := s.afterL1_eq (fun n l => sel (clusterOf n) l) e
      rw [Function.comp, he]
      rfl
    rw [State.chosenLines, State.cleanL1_lines, List.filter_map, hgoes, honly, List.map_singleton, hafter]
  have hhome : s.broughtHome sel = l.owing := by
    have hline : (s.cleanL1 (fun n l => sel (clusterOf n) l)).lineOpen { l with marks := marks, dirty := dirty } = true :=
      (s.cleanL1_lineOpen _ _).trans hopen
    rw [State.broughtHome, hchosen, List.filter_singleton, hline]
    exact List.append_nil _
  intro b hb
  have hbyte : (s.dropWhere (· == clu) p).byte b.1 = Memory.read (l.owing.foldl (fun m b => Memory.write m b.1 b.2) s.mem) b.1 := by
    rw [State.byte, State.dropWhere, State.mapLines_mem, State.clean_mem_eq, hhome]
  rw [hbyte, Memory.read_foldl_write hs.1, lastAt_of_mem hb l.owing_nodup, Option.getD_some]

/-- R253: one line goes from a slice and from the L1s of its cluster, and what it owes goes home. -/
theorem directory_invalidates (line : Nat) : ∃ t, exec (.directoryInvalidate clu line) s = .next t ∧ KeepsMemory s t (s.owedBy clu) ∧
    (∀ l, s.dev.ms.lines.filter (fun e => e.1 == clu && e.2.key == lineKey line) = [(clu, l)] → s.lineOpen l = true →
      ∀ b ∈ l.owing, t.byte b.1 = b.2) ∧
    t.dev.ms.lines = s.dev.ms.lines.filter (fun e => !(e.1 == clu && e.2.key == lineKey line)) ∧
    ((∀ e ∈ s.dev.ms.lines, e.1 = clu → e.2.key = lineKey line → e.2.owing = [] ∨ s.lineOpen e.2 = true) →
      ∀ n, t.core n = { s.core n with m := { (s.core n).m with
        l1 := (s.core n).m.l1.filter (fun l => !(clusterOf n == clu && l.key == lineKey line)) } }) := by
  have hone : (([lineKey line] : List Nat).contains : Nat → Bool) = (· == lineKey line) := funext fun k => (Bool.or_false _ : (k == lineKey line || false) = _)
  refine ⟨s.dropWhere (· == clu) (· == lineKey line), ?_, State.dropWhere_keepsMemory hs clu _,
    fun l honly hopen => State.dropWhere_owing_home hs honly hopen, State.dropWhere_lines_eq .., fun hopen n => ?_⟩
  · rw [exec_directoryInvalidate, execDirectoryInvalidate, State.dropLines, hone]
  · exact State.dropWhere_core n fun e he hclu hkey => hopen e he hclu (beq_iff_eq.1 hkey)

end Home

end Sys2Proof.Machine
end

section
/-! SUPPORT. A stamped message's delivery (R271): the receiver's clock, the lines that an announcement has go, and a write that arrives at
its home with the Wicket's check of each byte (R345). -/

namespace Sys2Proof.Machine

open Host (Outcome)

/-! ### Registers after a write at its home -/

theorem State.addTags_keepsRegs (s : State) (tags : List Nat) : KeepsRegs s (s.addTags tags) := .of_eq rfl rfl

theorem State.tellRels_keepsRegs (s : State) (clus : Nat → Bool) (keys : List Nat) : KeepsRegs s (s.tellRels clus keys) :=
  State.mapLines_keepsRegs ..

theorem State.stamp_keepsRegs (s : State) (src : Nat) (body : Nat → MsgBody) : KeepsRegs s (s.stamp src body) :=
  (s.setMs_keepsRegs _).trans (KeepsRegs.foldl (fun s _ => s.setMs_keepsRegs _) _ _)

theorem OnlyDevice.ite {p : Prop} [Decidable p] {s t u : State} (ht : OnlyDevice s t) (hu : OnlyDevice s u) :
    OnlyDevice s (if p then t else u) := by
  split
  · exact ht
  · exact hu

theorem State.noteByte_onlyDevice (s : State) (a : Nat) : OnlyDevice s (s.noteByte a) := by
  unfold State.noteByte
  extract_lets _ _ s1
  have hsignal : OnlyDevice s s1 := by
    simp only [s1]
    split
    · exact .ite (.refl s) ⟨_, rfl⟩
    · exact .refl s
  have hqueues (d : Sched) : OnlyDevice s (s1.setSched d) := hsignal.trans ⟨_, rfl⟩
  split
  · exact .ite (.ite (.ite (hqueues _) hsignal) (.ite hsignal (hqueues _))) hsignal
  · exact hsignal

theorem State.putGlob_keepsRegs (s : State) (h clu : Nat) (bytes : List (Nat × Byte)) (tags marks : List Nat) :
    KeepsRegs s (s.putGlob h clu bytes tags marks) := by
  unfold State.putGlob
  extract_lets keys lks tags' marks' s1 s2 s3 src s4 holds
  have h2 : KeepsRegs s s2 := (((s.clean_keepsRegs _).trans (s1.writeBytes_keepsRegs bytes)).trans (State.addTags_keepsRegs ..)).trans
    (State.addMarks_keepsRegs ..)
  have h4 : KeepsRegs s s4 := (h2.trans (s2.mapLines_keepsRegs ..)).trans (s3.setMs_keepsRegs _)
  exact .ite (h4.trans (s4.stamp_keepsRegs ..)) h4

theorem State.performGlob_keepsRegs (s : State) (h clu : Nat) (bytes : List (Nat × Byte)) (tags marks : List Nat) :
    KeepsRegs s (s.performGlob h clu bytes tags marks) :=
  (s.putGlob_keepsRegs ..).trans (KeepsRegs.foldl (fun s a => (s.noteByte_onlyDevice a).keepsRegs) _ _)

/-! ### Memory after a write at its home -/

theorem farKey_lineKey {k : Nat} (hk : keySpace k = 0) : farKey (lineKey k) = false := by
  have hle : keySpace (lineKey k) ≤ keySpace k := Nat.div_le_div_right (Nat.div_le_div_right (Nat.div_mul_le_self k 256))
  have hzero : keySpace (lineKey k) = 0 := Nat.le_zero.1 (hk ▸ hle)
  rw [farKey, hzero]
  rfl

section Near

variable {s : State} {h clu : Nat} {bytes : List (Nat × Byte)} {tags marks : List Nat} (hnear : ∀ b ∈ bytes, keySpace b.1 = 0)
include hnear

theorem State.clean_lines_mem_of_near : (s.clean (fun c l => c != clu && (linesOf (bytes.map (·.1))).contains l.key)).mem = s.mem := by
  refine State.clean_mem_of_near fun c l hsel => ?_
  have hline := List.contains_iff_mem.1 (Bool.and_eq_true_iff.1 hsel).2
  simp only [linesOf, List.mem_dedup, List.mem_map] at hline
  obtain ⟨_, ⟨b, hb, rfl⟩, hkey⟩ := hline
  rw [← hkey]
  exact farKey_lineKey (hnear b hb)

theorem State.putGlob_mem_of_near : (s.putGlob h clu bytes tags marks).mem = bytes.foldl (fun m b => Memory.write m b.1 b.2) s.mem := by
  have hwrite : ((s.clean (fun c l => c != clu && (linesOf (bytes.map (·.1))).contains l.key)).writeBytes bytes).mem =
      bytes.foldl (fun m b => Memory.write m b.1 b.2) s.mem :=
    (State.storeEach_mem _ _).trans (by rw [State.clean_lines_mem_of_near hnear])
  unfold State.putGlob
  extract_lets
  split
  · rw [State.stamp_mem]
    exact hwrite
  · exact hwrite

theorem State.performGlob_mem_of_near : (s.performGlob h clu bytes tags marks).mem =
    (bytes.filter (fun b => !s.descIgnores (keyOff b.1))).foldl (fun m b => Memory.write m b.1 b.2) s.mem := by
  unfold State.performGlob
  rw [State.foldl_noteByte_mem]
  exact State.putGlob_mem_of_near fun b hb => hnear b (List.mem_filter.1 hb).1

end Near

/-- A write-back of no line. -/
theorem State.clean_none_sameMemory (s : State) {sel : Nat → CLine → Bool} (hsel : ∀ c l, sel c l = false) : SameMemory s (s.clean sel) := by
  have hchosen : s.chosenLines sel = [] := List.filter_eq_nil_iff.2 fun e _ => by simp [hsel]
  have hhome : s.broughtHome sel = [] := by rw [State.broughtHome, hchosen]; rfl
  obtain ⟨htags, hmarks⟩ := s.clean_tags_marks sel
  rw [hhome] at htags hmarks
  rw [hchosen] at hmarks
  exact ⟨by rw [State.clean_mem_eq, hhome]; rfl, htags, hmarks⟩

theorem State.setMs_sameMemory (s : State) (m : MemSys) : SameMemory s (s.setMs m) := ⟨rfl, rfl, rfl⟩

theorem State.stamp_sameMemory (s : State) (src : Nat) (body : Nat → MsgBody) : SameMemory s (s.stamp src body) :=
  (s.setMs_sameMemory _).trans (SameMemory.foldl (fun s _ => s.setMs_sameMemory _) _ _)

theorem State.write_nil_sameMemory (s : State) : SameMemory s (((s.writeBytes []).addTags []).addMarks []) := ⟨rfl, rfl, rfl⟩

/-- A write of no byte brings no tag and no mark. -/
theorem State.putGlob_nil_sameMemory (s : State) (h clu : Nat) (tags marks : List Nat) : SameMemory s (s.putGlob h clu [] tags marks) := by
  unfold State.putGlob
  extract_lets keys lks tags' marks' s1 s2 s3 src s4 holds
  have htags : tags' = [] := List.filter_eq_nil_iff.2 fun _ _ => Bool.false_ne_true
  have hmarks : marks' = [] := List.filter_eq_nil_iff.2 fun _ _ => Bool.false_ne_true
  have h1 : SameMemory s s1 := s.clean_none_sameMemory fun c _ => Bool.and_false _
  have h2 : SameMemory s s2 := by
    simp only [s2, htags, hmarks]
    exact h1.trans s1.write_nil_sameMemory
  have h4 : SameMemory s s4 := (h2.trans (s2.mapLines_sameMemory ..)).trans (s3.setMs_sameMemory _)
  split
  · exact h4.trans (s4.stamp_sameMemory ..)
  · exact h4

theorem State.performGlob_nil_sameMemory (s : State) (h clu : Nat) (tags marks : List Nat) :
    SameMemory s (s.performGlob h clu [] tags marks) :=
  (s.putGlob_nil_sameMemory h clu tags marks).trans (SameMemory.foldl (fun s a => (s.noteByte_onlyDevice a).memory) [] _)

/-! ### A write's arrival -/

/-- What the refusal of a denied byte does: it counts the denial, and the store or the job that the write is of learns of it. -/
structure LeavesQueues (s t : State) : Prop where
  memory : SameMemory s t
  regs : KeepsRegs s t
  sched : t.dev.sched = s.dev.sched

theorem LeavesQueues.refl (s : State) : LeavesQueues s s := ⟨.refl s, .refl s, rfl⟩

theorem OnlyBanks.leavesQueues {s t : State} (h : OnlyBanks s t) : LeavesQueues s t :=
  ⟨h.sameMemory, h.keepsRegs, by obtain ⟨_, _, rfl⟩ := h; rfl⟩

theorem State.refuseStore_leavesQueues (s : State) (n : Nat) (a : Access) (v : Verdict) (key : Nat) :
    LeavesQueues s (s.refuseStore n a v key) := by
  refine ⟨s.refuseStore_sameMemory .., s.refuseStore_keepsRegs .., ?_⟩
  unfold State.refuseStore
  extract_lets s1
  have h1 : s1.dev.sched = s.dev.sched := (s.countDenial_onlyBanks ..).leavesQueues.sched
  split <;> exact h1

theorem State.jobBad_leavesQueues {s t : State} (h : LeavesQueues s t) (j : Nat) (cause : BitVec 8) (rows : Nat) :
    LeavesQueues s (t.jobBad j cause rows) :=
  ⟨h.memory.trans ⟨rfl, rfl, rfl⟩, h.regs.trans (.of_eq rfl rfl), h.sched⟩

theorem LeavesQueues.descIgnores_eq {s t : State} (h : LeavesQueues s t) (a : Nat) : t.descIgnores a = s.descIgnores a := by
  unfold State.descIgnores State.descAt
  rw [h.sched]

section Arrive

variable (s : State) (dst core : Nat) (acc job : Option Nat) (ctx : BitVec 16) (bytes : List (Nat × Byte)) (tags marks : List Nat)
  (rel : Option Rel)

/-- After the refusal of what the Wicket denies, the bytes that it admits are performed at their home. -/
theorem State.arrive_eq : ∃ s1, LeavesQueues s s1 ∧ s.arrive dst core acc job ctx bytes tags marks rel =
    ((s1.performGlob dst 96 (bytes.filter (fun b => s.pageOk ctx b.1)) tags marks).storeRels
      ((bytes.filter (fun b => s.pageOk ctx b.1)).map (·.1)) rel).tellRels (· / 12 == dst)
      ((bytes.filter (fun b => s.pageOk ctx b.1)).map (·.1)) := by
  unfold State.arrive
  extract_lets good s1
  refine ⟨s1, ?_, rfl⟩
  simp only [s1]
  split
  · exact .refl s
  · split
    · exact s.refuseStore_leavesQueues ..
    · exact State.jobBad_leavesQueues (s.countDenial_onlyBanks ..).leavesQueues ..
    · exact .refl s

theorem State.arrive_keepsRegs : KeepsRegs s (s.arrive dst core acc job ctx bytes tags marks rel) := by
  obtain ⟨s1, hleaves, heq⟩ := s.arrive_eq dst core acc job ctx bytes tags marks rel
  rw [heq]
  exact ((hleaves.regs.trans (s1.performGlob_keepsRegs ..)).trans (State.storeRels_keepsRegs ..)).trans (State.tellRels_keepsRegs ..)

/-- R271: a byte that arrives stands at its home, but where its page denies it or a mapped queue's descriptor ignores it. -/
theorem State.arrive_byte (hwf : Memory.wf s.mem = true) (hnear : ∀ b ∈ bytes, keySpace b.1 = 0) (x : Nat) :
    (s.arrive dst core acc job ctx bytes tags marks rel).byte x =
      (lastAt (bytes.filter (fun b => s.pageOk ctx b.1 && !s.descIgnores (keyOff b.1))) x).getD (s.byte x) := by
  obtain ⟨s1, hleaves, heq⟩ := s.arrive_eq dst core acc job ctx bytes tags marks rel
  have htaken : (bytes.filter (fun b => s.pageOk ctx b.1)).filter (fun b => !s1.descIgnores (keyOff b.1)) =
      bytes.filter (fun b => s.pageOk ctx b.1 && !s.descIgnores (keyOff b.1)) := by
    rw [List.filter_filter]
    refine List.filter_congr fun b _ => ?_
    rw [hleaves.descIgnores_eq, Bool.and_comm]
  have hmem : (s.arrive dst core acc job ctx bytes tags marks rel).mem =
      (bytes.filter (fun b => s.pageOk ctx b.1 && !s.descIgnores (keyOff b.1))).foldl (fun m b => Memory.write m b.1 b.2) s.mem := by
    rw [heq, State.tellRels, State.mapLines_mem, State.storeRels_mem, State.performGlob_mem_of_near, htaken, hleaves.memory.1]
    exact fun b hb => hnear b (List.mem_filter.1 hb).1
  rw [State.byte, hmem, Memory.read_foldl_write hwf]
  rfl

/-- A write of which every byte is denied leaves memory as it is. -/
theorem State.arrive_refused (hdenied : ∀ b ∈ bytes, s.pageOk ctx b.1 = false) :
    SameMemory s (s.arrive dst core acc job ctx bytes tags marks rel) := by
  obtain ⟨s1, hleaves, heq⟩ := s.arrive_eq dst core acc job ctx bytes tags marks rel
  have hnone : bytes.filter (fun b => s.pageOk ctx b.1) = [] := List.filter_eq_nil_iff.2 fun b hb => Bool.eq_false_iff.1 (hdenied b hb)
  rw [heq, hnone]
  exact ((hleaves.memory.trans (s1.performGlob_nil_sameMemory ..)).trans (State.storeRels_sameMemory ..)).trans
    (State.mapLines_sameMemory ..)

end Arrive

/-! ### Delivery -/

section Delivery

variable {s : State} {k : Nat} {m : Msg} (hfind : s.dev.ms.msgs.find? (·.id == k) = some m)
include hfind

/-- The state in which the body of a message is done: the message has gone, and the receiver's clock has its stamp. -/
noncomputable def State.received (s : State) (k : Nat) (m : Msg) : State := s.setMs { s.dev.ms with
  msgs := s.dev.ms.msgs.filter (·.id != k)
  clocks := s.dev.ms.clocks.set m.dst (Clock.join (s.clock m.dst) m.stamp) }

theorem message_waits (hnot : s.deliverable m = false) : Stays s (.stampedMessageDelivery k) := by
  rw [Stays, exec_stampedMessageDelivery, execStampedMessageDelivery, hfind]
  simp only [hnot, Bool.not_false, if_true]

theorem exec_stampedMessageDelivery_deliverable (hcan : s.deliverable m = true) :
    exec (.stampedMessageDelivery k) s = .next ((s.received k m).deliver m) := by
  rw [exec_stampedMessageDelivery, execStampedMessageDelivery, hfind]
  simp only [hcan, Bool.not_true, Bool.false_eq_true, if_false]
  rfl

/-- R252, R271: the lines that an announcement or a notice names go from the receiver's die. -/
theorem lines_told_go (hs : s.Ok) (hcan : s.deliverable m = true) {keys : List Nat} (hbody : m.body = .announce keys ∨ m.body = .notice keys) :
    ∃ t, exec (.stampedMessageDelivery k) s = .next t ∧
      t.dev.ms.clocks = (s.received k m).dev.ms.clocks ∧ t.dev.ms.msgs = (s.received k m).dev.ms.msgs ∧ KeepsMemory s t s.owedAny ∧
      (∀ n, (t.core n).r = (s.core n).r) ∧ ∀ e ∈ t.dev.ms.lines, e.1 / 12 = m.dst → e.2.key ∉ keys := by
  have hdeliver : (s.received k m).deliver m = (s.received k m).dropLines (fun c => c / 12 == m.dst) keys := by
    unfold State.deliver
    rcases hbody with hbody | hbody <;> rw [hbody]
  have hok : (s.received k m).Ok := hs
  refine ⟨_, exec_stampedMessageDelivery_deliverable hfind hcan, ?_⟩
  rw [hdeliver, State.dropLines]
  have hmail := State.dropWhere_mail (s.received k m) (fun c => c / 12 == m.dst) keys.contains
  refine ⟨congrArg Prod.fst hmail, congrArg Prod.snd hmail, (State.dropWhere_keepsMemory_any hok _ _).of_same ⟨rfl, rfl, rfl⟩ (.refl _),
    fun n => ((State.dropWhere_keepsRegs (s.received k m) _ _).2 n).1, fun e he hdie hkey => ?_⟩
  rw [State.dropWhere_lines_eq] at he
  have hstays := (List.mem_filter.1 he).2
  rw [goes, hdie, List.contains_iff_mem.2 hkey, beq_self_eq_true] at hstays
  cases hstays

variable {core : Nat} {acc job : Option Nat} {ctx : BitVec 16} {bytes : List (Nat × Byte)} {tags marks : List Nat} {rel : Option Rel}
  (hcan : s.deliverable m = true) (hbody : m.body = .write core acc job ctx bytes tags marks rel)
include hcan hbody

theorem exec_delivery_of_write : exec (.stampedMessageDelivery k) s =
    .next ((s.received k m).arrive m.dst core acc job ctx bytes tags marks rel) := by
  rw [exec_stampedMessageDelivery_deliverable hfind hcan, State.deliver, hbody]

theorem write_delivered (hs : s.Ok) (hnear : ∀ b ∈ bytes, keySpace b.1 = 0) : ∃ t, exec (.stampedMessageDelivery k) s = .next t ∧
    (∀ x, t.byte x = (lastAt (bytes.filter (fun b => s.pageOk ctx b.1 && !s.descIgnores (keyOff b.1))) x).getD (s.byte x)) ∧
    ∀ n, (t.core n).r = (s.core n).r :=
  ⟨_, exec_delivery_of_write hfind hcan hbody, (s.received k m).arrive_byte m.dst core acc job ctx bytes tags marks rel hs.1 hnear,
    fun n => ((State.arrive_keepsRegs (s.received k m) ..).2 n).1⟩

theorem write_refused (hdenied : ∀ b ∈ bytes, s.pageOk ctx b.1 = false) : ∃ t, exec (.stampedMessageDelivery k) s = .next t ∧
    t.mem = s.mem ∧ t.tags = s.tags ∧ t.marks = s.marks :=
  ⟨_, exec_delivery_of_write hfind hcan hbody, State.arrive_refused (s.received k m) _ _ _ _ _ _ _ _ _ hdenied⟩

end Delivery

end Sys2Proof.Machine
end

section
/-! SETTLED. The memory model's events (R253, R271, R423 to R437). -/

namespace Sys2Proof

open Sys2Proof.Machine

/-- Settles O41: each event by the part of the machine that it meets. A message does what its body says once it may be delivered; a home's
invalidation lets one line go after its write-back; a condition found marks what it meets, and a flit that fails what it serves. -/
theorem coherenceEvents : Obligations.CoherenceEvents := by
  unfold Obligations.CoherenceEvents
  intro s hs
  refine ⟨fun k m hfind => ⟨message_waits hfind, fun hcan => ⟨fun keys hbody => lines_told_go hfind hs hcan hbody,
      fun core acc job ctx bytes tags marks rel hbody hnear =>
        ⟨write_delivered hfind hcan hbody hs hnear, write_refused hfind hcan hbody⟩⟩⟩,
    fun clu line => directory_invalidates hs line,
    fun key cond hkey => granule_fails hs cond hkey, fun clu key l hclu hl => slice_line_fails hclu hl,
    fun n key l hn hl => l1_line_fails hn hl, fun key cond hkey => barrier_object_fails cond hkey,
    fun die bank blk sl cond hdie hbank hsl => weight_block_fails cond hdie hbank hsl, fun n id cond l hl hready => ?_,
    fun n id v l hl hready hcode => ?_, fun n os cond f hcond hf hready hdone => fill_flit_fails hcond hf hready hdone,
    fun n id hcalm => ⟨fun a bytes hfind hkind hdone hready _ hspace hok => ?_, fun a op xd src cmp hfind hkind hreply hready => ?_,
      fun a op ph act offs d next rm j hfind hkind hreply hready hj => ?_⟩,
    fun n g a hcopy hg hready ha => segment_flit_fails hcopy hg hready ha, fun n id d l hl hready hd hlo hhi => ?_, fun n hn => ?_⟩
  · obtain ⟨t, hexec, hmem, l', hl', hid, hunit⟩ := landing_transfer_fails (site := .landing n id) (cond := cond) (only := none) hl hs hready rfl
    exact ⟨t, hexec, hmem, l', hl', hid, hunit.left, hunit.arrived, fun i => hunit.marks_all⟩
  · obtain ⟨t, hexec, hmem, hcoded, l', hl', hid, hunit⟩ := miscoded_data_arrive hl hs hready hcode v
    exact ⟨t, hexec, hmem, hcoded, l', hl', hid, hunit.left, hunit.arrived, fun i => hunit.marks_all⟩
  · exact store_flit_fails hs hcalm hfind hkind hdone hready hspace hok
  · exact amo_flit_fails hcalm hfind hreply hready hkind
  · exact vamo_flit_fails hcalm hfind hreply hready hkind hj
  · obtain ⟨t, hexec, hmem, l', hl', hid, hunit⟩ := landing_transfer_fails (site := .flit n id d) (cond := .ecc) (only := some d) hl hs hready rfl
    exact ⟨t, hexec, hmem, l', hl', hid, hunit.left, hunit.marks_one hd hlo hhi⟩
  · intro finds
    have hfinds {site : FaultSite} {marked : Bool} {f : Core → Core} {p : Core → Prop}
        (hexec : ∀ cond, exec (.memoryFaultFound site cond) s = if cond ≠ .ecc then .next s else .next (s.arrayFails n marked f))
        (hp : p (f (s.core n))) : finds site p := array_finds hn hexec hp
    clear_value finds
    exact ⟨fun os row => hfinds (f := (·.markRow os row.toNat)) (fun _ => rfl) ((s.core n).slot_markRow os row),
      fun r hr => hfinds (f := (·.markX r)) (fun _ => rfl) ((s.core n).xmark_markX hr),
      fun r hr => hfinds (f := (·.markH r)) (fun _ => rfl) ((s.core n).hmark_markH hr),
      fun k w => hfinds (f := (·.markV k.toNat (BitVec.twoPow 16 w.toNat))) (fun _ => rfl) ((s.core n).vmark_markV k w),
      fun p => hfinds (f := id) (fun _ => rfl) rfl, fun m => hfinds (f := id) (fun _ => rfl) rfl,
      fun id w l hl harr hw => hfinds (exec_buffer_of_arrived hl harr hw) (Core.landings_markEntry hl harr hw)⟩

end Sys2Proof
end
